-- ==== Sys2Proof/Word.lean ====
section
/-! DEFINITION. The word type and its plainest arithmetic (R6, R9): 32-bit register words, two's complement
readings, and the integer helpers that every unit's formula uses. -/

namespace Sys2Proof

/-- A software-visible register or stream word (R9). -/
abbrev Word := BitVec 32

/-- One byte of DRAM or of a frame. -/
abbrev Byte := BitVec 8

/-- A word from a natural number, modulo 2^32. -/
abbrev w32 (n : Nat) : Word := BitVec.ofNat 32 n

/-- The two's complement reading of the low `bits` bits of `n` (R6, R48). -/
def signed (bits n : Nat) : Int :=
  let m := n % 2 ^ bits
  if m < 2 ^ (bits - 1) then (m : Int) else (m : Int) - (2 ^ bits : Nat)

/-- The low `bits` bits of an integer, as a natural number (the two's complement writing). -/
def unsigned (bits : Nat) (z : Int) : Nat := (z % (2 ^ bits : Nat)).toNat

/-- An integer held to the range `lo` to `hi`. -/
def clampInt (lo hi z : Int) : Int := if z < lo then lo else if hi < z then hi else z

/-- Round to nearest of `n / d` for `d` above 0, ties away from zero (R55 and the formulas that name it). -/
def divRound (n : Int) (d : Nat) : Int :=
  let q : Nat := (2 * n.natAbs + d) / (2 * d)
  if n < 0 then -(q : Int) else (q : Int)

/-- `n / 2^k` rounded to nearest, ties away from zero (R55). -/
def roundShift (n : Int) (k : Nat) : Int := divRound n (2 ^ k)

/-- The least natural number not below `n / d`; 0 when `d` is 0. -/
def ceilDiv (n d : Nat) : Nat := if d = 0 then 0 else (n + d - 1) / d

/-- A counter that saturates at `top`. -/
def satInc (top n : Nat) : Nat := if n < top then n + 1 else top

/-- The top bit first: the integer square root of `n`, found bit by bit (structural on the bit count). -/
def isqrtBits : Nat → Nat → Nat → Nat
  | 0, _, r => r
  | k + 1, n, r =>
    let t := r + 2 ^ k
    if t * t ≤ n then isqrtBits k n t else isqrtBits k n r

/-- The integer square root of `n` below 2^128. -/
def isqrt (n : Nat) : Nat := isqrtBits 64 n 0

/-- The largest `x` below 2^`k` that satisfies a downward closed test, found bit by bit; 0 when none above 0 does. -/
def largestBelow (ok : Nat → Bool) : Nat → Nat → Nat
  | 0, acc => acc
  | k + 1, acc => if ok (acc + 2 ^ k) then largestBelow ok k (acc + 2 ^ k) else largestBelow ok k acc

/-- The bit of a natural number at position `i`. -/
def natBit (n i : Nat) : Bool := n.testBit i

/-- 1 for true and 0 for false. -/
def bitNat (b : Bool) : Nat := if b then 1 else 0

end Sys2Proof
end

