-- ==== Sys2Proof/Syntax.lean ====
section
/-! DEFINITION. The commands the block takes, whole: one constructor of Instr per row of the spec's table of operations
and events, with the row's operands. Each constructor's text is the row's own summary and the rule that governs it. -/

namespace Sys2Proof

/-- Who makes an access or writes a register (R22, R23, R344). -/
inductive Source where
  /-- The host, through a BAR. -/
  | host
  /-- Context `ctx` of Tack core `core`, through a block port (R23). -/
  | core (core ctx : Nat)
  /-- A scheduled action (R344). -/
  | action
  /-- The device itself. -/
  | device
  deriving DecidableEq, Repr

/-- The three BARs of R19. -/
inductive Bar where
  /-- BAR0: registers. -/
  | b0
  /-- BAR2: Saddlebag apertures. -/
  | b2
  /-- BAR4: DRAM. -/
  | b4
  deriving DecidableEq, Repr

/-- What a check of a stored word's code finds (R59, R277). -/
inductive WordError where
  /-- No error. -/
  | clean
  /-- A single-bit error, which is corrected. -/
  | single
  /-- A double-bit error, which poisons the word. -/
  | double
  deriving DecidableEq, Repr

/-- A stored 32-bit word: its value, its poison mark (R74, R277) and the error its code would find. -/
structure PWord where
  /-- The data. -/
  val : Word
  /-- The poison mark. -/
  poison : Bool
  /-- The error a read would find. -/
  err : WordError
  deriving DecidableEq, Repr

/-- A clean word of value `w`. -/
def PWord.clean (w : Word) : PWord := ⟨w, false, .clean⟩

/-- The kind of bus noise of R353. -/
inductive NoiseKind where
  /-- A frame with a bad FCS from a known transmit opportunity. -/
  | badFcs
  /-- A symbol error. -/
  | symbol
  /-- A jabbering node. -/
  | jabber
  /-- A collision. -/
  | collision
  deriving DecidableEq, Repr

/-- What wakes the device from STANDBY (R381). -/
inductive WakeCause where
  /-- AUTO_WAKE at power-on. -/
  | autoWake
  /-- A falling edge of WAKE_N. -/
  | wakeN
  /-- The VBAT counter reaching PWR_WAKE_AT. -/
  | vbatCounter
  deriving DecidableEq, Repr

/-- What the boot ROM, or a COMMIT, finds at the start of an image slot of the SPI NOR (R412): the fields of the header, and
whether the signature over it and the body verifies under the key it names. -/
structure ImageHdr where
  /-- MAGIC. -/
  magic : BitVec 32
  /-- Body length in bytes. -/
  length : Nat
  /-- Key slot. -/
  key : Nat
  /-- VERSION. -/
  version : Nat
  /-- The ECDSA P-384 signature verifies. -/
  signed : Bool
  deriving DecidableEq, Repr

/-- A context's state as the lead of a pair sends it (R433, step 4). -/
structure CtxImage where
  /-- g1 to g31. -/
  g : List Word
  /-- v0 to v7. -/
  v : List (BitVec 64)
  /-- p0 to p3. -/
  p : BitVec 4
  /-- PC. -/
  pc : BitVec 16
  /-- The call stack, newest first. -/
  calls : List (BitVec 16)
  /-- The loop stack, innermost first: start, stop, trips left and calls open. -/
  loops : List (Nat × Nat × Nat × Nat)
  /-- GPOIS, VPOIS in its low byte, STAT, QST, EPC, ECAUSE, EADDR, TRAPVEC. -/
  special : List Word
  deriving DecidableEq, Repr

/-- What one COPY flit carries to a joining wheel (R433). -/
inductive CopyData where
  /-- A BAR0 register's value. -/
  | reg (addr : Word) (val : Word)
  /-- A word of a live stream named by its handle, of a class, a size in words (a queue) or bytes (a buffer), and a
  reservation. -/
  | stream (handle : Word) (cls size : Nat) (spill : Bool) (off : Nat) (word : PWord)
  /-- A 64-byte line of DRAM. -/
  | line (off : Nat) (bytes : List Byte)
  /-- The Stitch count of the lead. -/
  | stitch (count : BitVec 64)
  /-- The Hide map's grid: its handle and the value of a cell that no stream word carries. -/
  | grid (handle : Word) (fill : Nat)
  /-- A word of a core's instruction memory or, with `data`, of its data memory. -/
  | local (core : Nat) (data : Bool) (index : Nat) (word : PWord)
  /-- A context's state. -/
  | context (core ctx : Nat) (image : CtxImage)
  deriving DecidableEq, Repr

/-- Something that comes at a TCLK of the Stitch. -/
structure Timed (α : Type) where
  /-- What comes. -/
  what : α
  /-- TCLK from the last boundary. -/
  tick : Nat
  deriving DecidableEq, Repr

/-- How the interconnect serves an access to a queue. -/
structure Turn where
  /-- In the cycle of the access before it (R272). -/
  same : Bool
  /-- Later than it arrived (R15, R269). -/
  delayed : Bool
  deriving DecidableEq, Repr

/-- How the channel serves a write of a line. -/
structure LineTurn where
  /-- Later than it arrived (R286). -/
  delayed : Bool
  /-- The symbol errors that the memory returns with the partner line of the pair retired for it (R284). -/
  errs : List Nat
  deriving DecidableEq, Repr

/-- What the self-test and the training of a channel find (R282, R303). -/
structure Training where
  /-- 0 when the memory is accepted, 1 when training failed, 2 for a population outside the supported subset, 3 and above for a
  mismatch of the self-test. -/
  result : Nat
  /-- The recorded pairs whose rows hPPR repairs (R302). -/
  repaired : List Nat
  deriving DecidableEq, Repr

/-- The replays that a parity alert takes (R288). -/
structure Replays where
  /-- How many of them fail. -/
  failed : Nat
  /-- Commands issued since the last one known to have completed. -/
  since : Nat
  deriving DecidableEq, Repr

/-- A group of supplies and what its rails read (R373). -/
structure GroupRails where
  /-- The group: 0 A, 1 B, 2 C. -/
  grp : Nat
  /-- Its rails in millivolts. -/
  mv : List Nat
  deriving DecidableEq, Repr

/-- A rail and what it reads (R375). -/
structure RailLevel where
  /-- Its bit in PWR_RAILS. -/
  rail : Nat
  /-- Millivolts. -/
  mv : Nat
  deriving DecidableEq, Repr

/-- What the read-back of the core voltage finds (R377, R378). -/
structure ReadBack where
  /-- VOUT_MODE says a linear format. -/
  linear : Bool
  /-- The transfers succeed. -/
  ok : Bool
  deriving DecidableEq, Repr

/-- A host write that reached the lead of a pair and acts in the next boundary cycle on both devices (R427). -/
inductive Forwarded where
  /-- A write of BAR0. -/
  | bar0 (addr val : Word)
  /-- A write of BAR2: the aperture, the offset in it and the word. -/
  | bar2 (aper off : Nat) (val : Word)
  /-- A write of BAR4: the channel, the offset in it, the words of a line and their poison mark. -/
  | bar4 (chan off : Nat) (data : List Word) (poison : Bool)
  deriving DecidableEq, Repr

/-- Where a write that a FORWARD flit carries lands (R427). -/
inductive ForwardPlace where
  /-- A register of BAR0. -/
  | bar0 (addr : Word)
  /-- An aperture of BAR2 and the offset in it. -/
  | bar2 (aper off : Nat)
  /-- A channel and the offset in it, of BAR4. -/
  | bar4 (chan off : Nat)
  deriving DecidableEq, Repr

/-- What it carries there. -/
structure ForwardData where
  /-- The word, or the words of a line. -/
  words : List Word
  /-- Whether the line arrived poisoned. -/
  poison : Bool
  deriving DecidableEq, Repr

/-- The write that a FORWARD flit carries. -/
def forwarded (p : ForwardPlace) (d : ForwardData) : Forwarded :=
  match p with
  | .bar0 addr => .bar0 addr (d.words.getD 0 0)
  | .bar2 aper off => .bar2 aper off (d.words.getD 0 0)
  | .bar4 chan off => .bar4 chan off d.words d.poison

/-- The JTAG instructions of the debug port (R421, R422). -/
inductive DebugIr where
  /-- Reads the 32-bit identification. -/
  | idcode
  /-- The one-bit bypass register. -/
  | bypass
  /-- Boundary scan: external test. -/
  | extest
  /-- Boundary scan: sample and preload. -/
  | sample
  /-- Reads a BAR0 register through the port. -/
  | regRead (addr : Word)
  /-- Writes a BAR0 register through the port. -/
  | regWrite (addr : Word) (val : Word)
  /-- Any other instruction code. -/
  | other (code : Nat)
  deriving DecidableEq, Repr

/-- The inputs the device samples at a boundary (R29), each list indexed by its unit's number; an entry past a list's end
is the quiet value: no conversion, no edge, no count. -/
structure BoundaryIn where
  /-- The AIN conversions. -/
  ain : List Nat
  /-- The SPT_PULSE edge counts of the ended Stitch. -/
  spt : List Nat
  /-- The raw encoder counts of the axes. -/
  enc : List Int
  /-- The raw switch inputs: bit 4 x + k is input k of axis x. -/
  switches : List Bool
  /-- The path margin monitor's reading in ps (R378). -/
  margin : Nat
  /-- PRESENT_N is held low. -/
  pressed : Bool
  deriving DecidableEq, Repr

/-- A boundary at which no input moves. -/
def BoundaryIn.quiet : BoundaryIn := ⟨[], [], [], [], 0, false⟩

/-- The commands of the block: one constructor per row of the spec's table of operations and events. Operands that
come from outside the block (an address and value written, a measured quantity, a flit's contents) are the
constructor's fields. -/
inductive Instr where
  /-- ABSENT_UNIT_ACCESS (R4). A read or write lands in the register window of a unit that the part lacks; reads return 0xDEAD_0000 and writes are discarded. -/
  | absentUnitAccess (src : Source) (addr : BitVec 32) (wr : Option (BitVec 32))
  /-- HOLE_ACCESS (R21). An access lands in a BAR0 hole, an unbound BAR2 aperture or BAR4 above installed DRAM; reads return 0xDEAD_0000 and writes are discarded. -/
  | holeAccess (src : Source) (bar : Bar) (off : BitVec 64) (wr : Option (BitVec 32))
  /-- REGISTER_WRITE (R11). A write to a register that has no row of its own updates each field under its access code. -/
  | registerWrite (src : Source) (addr : BitVec 32) (val : BitVec 32)
  /-- READ_CLEAR (R11). A read of an rc field returns the field and clears it. -/
  | readClear (src : Source) (addr : BitVec 32)
  /-- STCH_COUNT_READ (R28). A read of STCH_COUNT_LO copies the high half of the count into STCH_COUNT_HI. -/
  | stchCountRead (src : Source)
  /-- STITCH_BOUNDARY (R29). The Stitch counter reaches the end of a period and a new boundary begins. -/
  | stitchBoundary (inp : BoundaryIn)
  /-- STCH_PERIOD_WRITE (R34). A write to STCH_PERIOD is checked in order and either staged for the next boundary or rejected with a result code. -/
  | stchPeriodWrite (src : Source) (val : BitVec 32)
  /-- STCH_HOLD_WRITE (R39). A write to STCH_HOLD holds or releases the commit of whole block groups from the cycle of the write. -/
  | stchHoldWrite (src : Source) (val : BitVec 32)
  /-- HOLD_EXPIRED (R40). A group has been held for STCH_HOLD_LIMIT boundaries; its hold bit is cleared and its pending values commit. -/
  | holdExpired (grp : Nat)
  /-- LATE_INPUT (R42). A per-Stitch input arrives after the boundary that should have captured it, and is discarded and counted. -/
  | lateInput
  /-- EARLY_INPUT (R43). An input tagged with a future Stitch arrives, and is discarded and counted. -/
  | earlyInput (lane : Nat)
  /-- ADD (R51). The ALU instruction ADD forms a wrapping sum. -/
  | add (core : Nat)
  /-- SUB (R51). The ALU instruction SUB forms a wrapping difference. -/
  | sub (core : Nat)
  /-- AND (R51). The ALU instruction AND forms a bitwise AND. -/
  | and (core : Nat)
  /-- OR (R51). The ALU instruction OR forms a bitwise OR, and serves as the register move. -/
  | or (core : Nat)
  /-- XOR (R51). The ALU instruction XOR forms a bitwise XOR. -/
  | xor (core : Nat)
  /-- SHL (R51). The ALU instruction SHL shifts ra left by rb[4:0]. -/
  | shl (core : Nat)
  /-- SHR (R51). The ALU instruction SHR shifts ra right logically. -/
  | shr (core : Nat)
  /-- SAR (R51). The ALU instruction SAR shifts ra right arithmetically. -/
  | sar (core : Nat)
  /-- MIN (R51). The ALU instruction MIN gives the signed minimum. -/
  | min (core : Nat)
  /-- MAX (R51). The ALU instruction MAX gives the signed maximum. -/
  | max (core : Nat)
  /-- MINU (R51). The ALU instruction MINU gives the unsigned minimum. -/
  | minu (core : Nat)
  /-- MAXU (R51). The ALU instruction MAXU gives the unsigned maximum. -/
  | maxu (core : Nat)
  /-- ADDS (R51). The ALU instruction ADDS forms a signed saturating sum. -/
  | adds (core : Nat)
  /-- SUBS (R51). The ALU instruction SUBS forms a signed saturating difference. -/
  | subs (core : Nat)
  /-- ABS (R51). The ALU instruction ABS gives the absolute value, saturating for 0x8000_0000. -/
  | abs (core : Nat)
  /-- CLZ (R51). The ALU instruction CLZ counts leading zeros. -/
  | clz (core : Nat)
  /-- MUL (R51). The ALU instruction MUL gives the low 32 bits of a product. -/
  | mul (core : Nat)
  /-- MULH (R51). The ALU instruction MULH gives the high half of a signed product. -/
  | mulh (core : Nat)
  /-- MULHU (R51). The ALU instruction MULHU gives the high half of an unsigned product. -/
  | mulhu (core : Nat)
  /-- MULQ (R55). The ALU instruction MULQ forms a rounded and saturated Q16.16 product. -/
  | mulq (core : Nat)
  /-- PSCL (R56). The ALU instruction PSCL scales a power code by a Q16.16 factor with clipping. -/
  | pscl (core : Nat)
  /-- DIV (R57). The ALU instruction DIV forms a signed quotient in 34 cycles, with fixed results for division by zero. -/
  | div (core : Nat)
  /-- DIVU (R57). The ALU instruction DIVU forms an unsigned quotient in 34 cycles. -/
  | divu (core : Nat)
  /-- SEL (R51). The ALU instruction SEL selects ra or rb by a predicate. -/
  | sel (core : Nat)
  /-- ADDI (R50). The instruction ADDI adds a sign-extended immediate. -/
  | addi (core : Nat)
  /-- ANDI (R50). The instruction ANDI ANDs a zero-extended immediate. -/
  | andi (core : Nat)
  /-- ORI (R50). The instruction ORI ORs a zero-extended immediate. -/
  | ori (core : Nat)
  /-- XORI (R50). The instruction XORI XORs a zero-extended immediate. -/
  | xori (core : Nat)
  /-- SHI_SHL (R50). SHI with sub-operation SHL shifts left by an immediate amount. -/
  | shiShl (core : Nat)
  /-- SHI_SHR (R50). SHI with sub-operation SHR shifts right logically by an immediate amount. -/
  | shiShr (core : Nat)
  /-- SHI_SAR (R50). SHI with sub-operation SAR shifts right arithmetically by an immediate amount. -/
  | shiSar (core : Nat)
  /-- CMPEQI (R50). The instruction CMPEQI sets a predicate when ra equals the immediate. -/
  | cmpeqi (core : Nat)
  /-- CMPLTI (R50). The instruction CMPLTI sets a predicate on a signed less-than against the immediate. -/
  | cmplti (core : Nat)
  /-- CMPLTUI (R50). The instruction CMPLTUI sets a predicate on an unsigned less-than against the immediate. -/
  | cmpltui (core : Nat)
  /-- LI (R50). The instruction LI loads a sign-extended 17-bit immediate. -/
  | li (core : Nat)
  /-- LHI (R50). The instruction LHI loads the upper halfword of a register. -/
  | lhi (core : Nat)
  /-- LLO (R50). The instruction LLO loads the lower halfword of a register. -/
  | llo (core : Nat)
  /-- LDL (R58). The instruction LDL loads a local data word. -/
  | ldl (core : Nat)
  /-- LDLH (R58). The instruction LDLH loads a zero-extended local halfword. -/
  | ldlh (core : Nat)
  /-- STL (R58). The instruction STL stores a local word and its poison bit. -/
  | stl (core : Nat)
  /-- STLH (R74). The instruction STLH stores a local halfword and ORs poison into the word. -/
  | stlh (core : Nat)
  /-- LDV (R58). The instruction LDV loads a 64-bit local word into a vector register. -/
  | ldv (core : Nat)
  /-- STV (R58). The instruction STV stores a vector register as a 64-bit local word. -/
  | stv (core : Nat)
  /-- LDS (R61). The instruction LDS issues a read of a pinned stream word, with data arriving 56 cycles later. -/
  | lds (core : Nat)
  /-- LDS_COMPLETE (R61). The data of an outstanding LDS reaches its destination register 56 cycles after issue. -/
  | ldsComplete (core : Nat)
  /-- STS (R62). The instruction STS issues a write of a pinned stream word. -/
  | sts (core : Nat)
  /-- STS_COMPLETE (R62). An outstanding STS completes at its stream 56 cycles after issue. -/
  | stsComplete (core : Nat)
  /-- BPR (R66). The instruction BPR reads a BAR0 register after waiting for outstanding BPWs. -/
  | bpr (core : Nat)
  /-- BPW (R67). The instruction BPW issues a posted write to a BAR0 register. -/
  | bpw (core : Nat)
  /-- BPW_COMPLETE (R67). A posted BPW completes at the register fabric 20 cycles after issue. -/
  | bpwComplete (core : Nat) (ctx : Nat)
  /-- BPF (R50). The instruction BPF waits until the context's posted BPW writes complete. -/
  | bpf (core : Nat)
  /-- QPSH (R53). The queue instruction QPSH appends a word to the context's open packet. -/
  | qpsh (core : Nat)
  /-- QEND (R53). The queue instruction QEND appends the last word and commits the packet. -/
  | qend (core : Nat)
  /-- QBAD (R53). The queue instruction QBAD marks the open packet bad so that it is rewound. -/
  | qbad (core : Nat)
  /-- QPOP (R53). The queue instruction QPOP returns the next word of the oldest committed packet. -/
  | qpop (core : Nat)
  /-- QLEN (R53). The queue instruction QLEN returns the number of committed words. -/
  | qlen (core : Nat)
  /-- QFLUSH (R275). The queue instruction QFLUSH empties the queue and rewinds open packets. -/
  | qflush (core : Nat)
  /-- B (R68). The instruction B branches forward when its guard passes. -/
  | b (core : Nat)
  /-- CALL (R68). The instruction CALL pushes the return address and jumps. -/
  | call (core : Nat)
  /-- RET (R68). The instruction RET pops the return address and jumps to it. -/
  | ret (core : Nat)
  /-- LOOP (R69). The instruction LOOP runs a hardware loop body a bounded number of trips. -/
  | loop (core : Nat)
  /-- WAITSTITCH (R70). The instruction WAITSTITCH ends the context's work until a later Stitch. -/
  | waitstitch (core : Nat)
  /-- MFSP (R46). The instruction MFSP reads a special register. -/
  | mfsp (core : Nat)
  /-- MTSP (R46). The instruction MTSP writes a special register. -/
  | mtsp (core : Nat)
  /-- TRAP (R72). The instruction TRAP raises a TRAP exception with its code. -/
  | trap (core : Nat)
  /-- CMPEQ (R52). The predicate instruction CMPEQ compares for equality. -/
  | cmpeq (core : Nat)
  /-- CMPNE (R52). The predicate instruction CMPNE compares for inequality. -/
  | cmpne (core : Nat)
  /-- CMPLT (R52). The predicate instruction CMPLT compares signed less-than. -/
  | cmplt (core : Nat)
  /-- CMPLE (R52). The predicate instruction CMPLE compares signed less-or-equal. -/
  | cmple (core : Nat)
  /-- CMPLTU (R52). The predicate instruction CMPLTU compares unsigned less-than. -/
  | cmpltu (core : Nat)
  /-- CMPLEU (R52). The predicate instruction CMPLEU compares unsigned less-or-equal. -/
  | cmpleu (core : Nat)
  /-- PAND (R52). The predicate instruction PAND ANDs two predicates. -/
  | pand (core : Nat)
  /-- POR (R52). The predicate instruction POR ORs two predicates. -/
  | por (core : Nat)
  /-- PXOR (R52). The predicate instruction PXOR XORs two predicates. -/
  | pxor (core : Nat)
  /-- PNOT (R52). The predicate instruction PNOT inverts a predicate. -/
  | pnot (core : Nat)
  /-- PSET (R52). The predicate instruction PSET sets a predicate to 1. -/
  | pset (core : Nat)
  /-- PCLR (R52). The predicate instruction PCLR clears a predicate. -/
  | pclr (core : Nat)
  /-- VADD (R54). The vector instruction VADD forms wrapping lane sums. -/
  | vadd (core : Nat)
  /-- VSUB (R54). The vector instruction VSUB forms wrapping lane differences. -/
  | vsub (core : Nat)
  /-- VADDS (R54). The vector instruction VADDS forms saturating lane sums. -/
  | vadds (core : Nat)
  /-- VSUBS (R54). The vector instruction VSUBS forms saturating lane differences. -/
  | vsubs (core : Nat)
  /-- VMULQ (R55). The vector instruction VMULQ forms rounded, saturated Q1.15 lane products. -/
  | vmulq (core : Nat)
  /-- VMACQ (R55). The vector instruction VMACQ accumulates exact Q1.15 products with one rounding. -/
  | vmacq (core : Nat)
  /-- VMIN (R54). The vector instruction VMIN forms signed lane minima. -/
  | vmin (core : Nat)
  /-- VMAX (R54). The vector instruction VMAX forms signed lane maxima. -/
  | vmax (core : Nat)
  /-- VABS (R54). The vector instruction VABS forms lane absolute values. -/
  | vabs (core : Nat)
  /-- VSHR (R54). The vector instruction VSHR shifts lanes right arithmetically. -/
  | vshr (core : Nat)
  /-- VSPLAT (R54). The vector instruction VSPLAT copies a halfword into every lane. -/
  | vsplat (core : Nat)
  /-- VGET (R54). The vector instruction VGET extracts one sign-extended lane. -/
  | vget (core : Nat)
  /-- VPUT (R54). The vector instruction VPUT writes one lane. -/
  | vput (core : Nat)
  /-- VSUM (R54). The vector instruction VSUM sums the four lanes. -/
  | vsum (core : Nat)
  /-- VMOV (R54). The vector instruction VMOV copies a vector register. -/
  | vmov (core : Nat)
  /-- CONTEXT_SLOT_START (R79). The slot of a due context begins and the context runs from its entry. -/
  | contextSlotStart (core : Nat) (slot : Nat)
  /-- OVERRUN (R88). A context reaches its slot end without completing WAITSTITCH; the budget guard stops it and applies its policy. -/
  | overrun (core : Nat)
  /-- TABLE_COMMIT (R81). A write of TC_TABLE_CTRL.COMMIT requests that the staged slot table be checked and put in force at the next boundary. -/
  | tableCommit (core : Nat)
  /-- LOAD (R85). A write of TC_LOAD_CMD.START copies code or data from a stream into local memory. -/
  | load (src : Source) (core : Nat) (val : BitVec 32)
  /-- LOAD_DONE (R85). A program load ends and reports its result. -/
  | loadDone (core : Nat)
  /-- SWAP (R89). A write of TC_CTX_CTRL.SWAP requests that the staged entry, WCET and partitions come into force at the next boundary. -/
  | swap (src : Source) (core : Nat) (ctx : Nat) (val : BitVec 32)
  /-- RESTART (R45). A write of TC_CTX_CTRL.RESTART requests a context restart at the next boundary. -/
  | restart (src : Source) (core : Nat) (ctx : Nat) (val : BitVec 32)
  /-- HALT (R87). A write of TC_CTX_CTRL.HALT halts the context at the next boundary. -/
  | halt (src : Source) (core : Nat) (ctx : Nat) (val : BitVec 32)
  /-- STARVED (R93). A context watchdog counts down to zero and raises STARVED. -/
  | starved (core : Nat) (ctx : Nat)
  /-- WDOG_ENABLE (R94). A write of 1 to SYS_WDOG_CTRL.ENABLE arms the device watchdog, or sets ZERO_LEN when LIMIT is 0. -/
  | wdogEnable (src : Source) (val : BitVec 32)
  /-- KICK (R94). A write to SYS_WDOG_KICK arms, completes or cancels the two-value kick that reloads the watchdog. -/
  | kick (val : BitVec 32)
  /-- WDOG_WARN (R94). LIMIT Stitches pass without a kick and the watchdog warns. -/
  | wdogWarn
  /-- WATCHDOG_RESET (R94). 2 × LIMIT Stitches pass without a kick and the device performs a watchdog reset. -/
  | watchdogReset
  /-- ARM (R108). The job command ARM validates the job and its first layer. -/
  | arm
  /-- VALIDATE (R108). The job command VALIDATE walks every layer without running any. -/
  | validate
  /-- HOLD (R112). The job command HOLD requests a pause at the next CLOSED. -/
  | hold
  /-- RESUME (R112). The job command RESUME moves a HELD job to PREPARE. -/
  | resume
  /-- ABORT (R113). The job command ABORT stops the job, flushes the stroke queues and gates off every Awl. -/
  | abort
  /-- PSET_RELOAD (R112). The job command PSET_RELOAD re-copies and revalidates parameter sets at the next RESUME. -/
  | psetReload
  /-- VALIDATION_DONE (R108). Validation of a job or layer ends, passing or rejecting with the first failed check. -/
  | validationDone
  /-- LAYER_START (R111). Layer-ready is sampled with the layer validated and planned, and the layer enters RUNNING. -/
  | layerStart
  /-- LAYER_CLOSED (R111). Every stroke of the layer has ended and the layer enters CLOSED. -/
  | layerClosed
  /-- LAYER_ADVANCE (R110). At the boundary that ends CLOSED, the job goes to PREPARE for the next layer, HELD or DONE. -/
  | layerAdvance
  /-- PLAN_PASS_DONE (R127). A plan pass ends and its plan comes into force at the next boundary. -/
  | planPassDone
  /-- REPLAN (R129). A re-plan pass starts at its 64-Stitch cadence boundary. -/
  | replan
  /-- REPLAN_LATE (R130). A re-plan has not ended by the next cadence boundary and is discarded. -/
  | replanLate
  /-- UNIT_START (R131). The Tree starts a placement unit on a free, in-service laser whose conditions pass. -/
  | unitStart (slot : Nat)
  /-- STROKE_PUSH (R132). The Tree pushes a stroke packet into a laser's stroke queue in the bulk class. -/
  | strokePush (slot : Nat)
  /-- UNIT_COMPLETE (R132). The last stroke of a unit has ended, and the unit is marked complete so that its successors become ready. -/
  | unitComplete (slot : Nat)
  /-- LASER_LOST (R134). The Tree samples the loss of a laser, flushes its queue, logs the interrupted stroke and forms the remainder. -/
  | laserLost (slot : Nat)
  /-- LAYER_OVER (R138). Layer time reaches BUDGET before the layer closes. -/
  | layerOver
  /-- PLACEMENT_LOG_RECORD (R140). A stroke record or layer marker enters the log queue from the hold buffer. -/
  | placementLogRecord
  /-- TREE_SLOT_SERVICE_WRITE (R121). A write to TREE_SLOT_SERVICE takes slots out of or into service, clearing a running slot counting as a loss. -/
  | treeSlotServiceWrite (src : Source) (val : BitVec 32)
  /-- HIDE_ENABLE (R144). A write setting HIDE_CTRL.ENABLE requests the grid, which is placed and filled or refused. -/
  | hideEnable (src : Source) (val : BitVec 32)
  /-- HIDE_FILL_DONE (R144). The grid fill ends and ENABLED reads 1 from the next boundary. -/
  | hideFillDone
  /-- HIDE_DISABLE (R144). A write clearing HIDE_CTRL.ENABLE releases the grid. -/
  | hideDisable (src : Source) (val : BitVec 32)
  /-- SWEEP_PASS_START (R152). A sweep pass falls due at its cadence boundary and starts. -/
  | sweepPassStart
  /-- SWEEP_PASS_END (R152). A sweep pass writes its last cell. -/
  | sweepPassEnd
  /-- ASSIM_RECORD (R155). An assimilation record from HIDE_ASSIM_Q is applied to the cells of its rectangle, or dropped. -/
  | assimRecord
  /-- ARCHIVED (R159). An archive copy ends and the ring index advances. -/
  | archived
  /-- STROKE_POP (R162). The Awl pops the next stroke packet into its planning window when it has room. -/
  | strokePop (slot : Nat)
  /-- STROKE_END (R132). The Awl reaches a stroke's end point, or passes it under LINK. -/
  | strokeEnd (slot : Nat)
  /-- GOTO (R171). The Awl command GOTO starts or retargets a service move. -/
  | goto (slot : Nat)
  /-- GOTO_DONE (R171). A GOTO reaches its target. -/
  | gotoDone (slot : Nat)
  /-- AWL_STOP (R183). The Awl command STOP gates off and brings the spot to rest. -/
  | awlStop (slot : Nat)
  /-- AWL_CLEAR (R184). The Awl command CLEAR moves a faulted Awl to IDLE. -/
  | awlClear (slot : Nat)
  /-- AWL_FAULT (R183). A fault condition is sampled at a boundary; the Awl gates off and decelerates. -/
  | awlFault (slot : Nat) (code : Nat)
  /-- AWL_REST (R164). A stopping Awl comes to rest and enters IDLE or FAULT. -/
  | awlRest (slot : Nat)
  /-- CORR_CHANGE (R175). A pending grid or focus change takes effect at the first boundary at which the Awl is at rest. -/
  | corrChange (slot : Nat)
  /-- TRIM_LOAD (R199). REIN_CMD.TRIM_LOAD loads the trim integrator at the next boundary. -/
  | trimLoad (slot : Nat)
  /-- FEEDBACK_LOST (R201). LOST_N consecutive emitting Stitches are missing and the loop enters FALLBACK. -/
  | feedbackLost (slot : Nat)
  /-- FEEDBACK_FROZEN (R202). FROZEN_N consecutive evaluations give an identical measurement and the loop enters FALLBACK. -/
  | feedbackFrozen (slot : Nat)
  /-- FOLLOWING (R204). The following-error count reaches FE_TIME and the policy is applied. -/
  | following (slot : Nat)
  /-- POWER_CEILING (R208). A write to REIN_CEILING starts a guarded power-ceiling request. -/
  | powerCeiling (src : Source) (slot : Nat) (val : BitVec 32)
  /-- CEILING_COMMIT (R208). A granted ceiling commits at the first boundary at which the slot's Awl is not in RUN. -/
  | ceilingCommit (slot : Nat)
  /-- TRACE_ARM (R213). REIN_TRC_CTRL.ARM puts a trace unit in ARMED at the next boundary. -/
  | traceArm (src : Source) (slot : Nat) (unit : Nat) (val : BitVec 32)
  /-- TRACE_STOP (R213). REIN_TRC_CTRL.STOP abandons any capture and idles the unit. -/
  | traceStop (src : Source) (slot : Nat) (unit : Nat) (val : BitVec 32)
  /-- FORCE (R212). REIN_TRC_CTRL.FORCE triggers an armed trace unit at the next boundary. -/
  | force (src : Source) (slot : Nat) (unit : Nat) (val : BitVec 32)
  /-- TRACE_DONE (R213). A capture has recorded its POST boundaries and commits. -/
  | traceDone (slot : Nat) (unit : Nat)
  /-- IMG_SLOT_ENABLE (R217). A write of IMG_CTRL.EN requests a camera slot under the load check, or stops it. -/
  | imgSlotEnable (src : Source) (pipe : Nat) (val : BitVec 32)
  /-- CAM_COMMIT (R219). IMG_COMMIT.CAM commits the staged camera set with the next id. -/
  | camCommit (pipe : Nat) (slot : Nat)
  /-- PIPE_COMMIT (R221). IMG_COMMIT.PIPE commits the slot's pipe-side fields for later-triggered frames. -/
  | pipeCommit (src : Source) (pipe : Nat) (slot : Nat)
  /-- BED_CAM_COMMIT (R219). IMG_COMMIT.BED_CAM commits the bed camera set. -/
  | bedCamCommit (pipe : Nat)
  /-- BED_PIPE_COMMIT (R221). IMG_COMMIT.BED_PIPE commits the bed source's pipe-side fields. -/
  | bedPipeCommit (src : Source) (pipe : Nat)
  /-- FRAGMENT_FLIT (R311). An upstream FRAGMENT flit delivers part of a camera frame. -/
  | fragmentFlit (lane : Nat) (hdr : BitVec 32) (words : Timed (List Word))
  /-- MEMORY_FRAME_START (R216). The pipe takes up a memory-path frame whose end marker is in its queue. -/
  | memoryFrameStart (pipe : Nat)
  /-- STATS_PACKET (R230). The statistics packet of a processed frame commits to IMG_STATQ. -/
  | statsPacket (pipe : Nat) (slot : Nat)
  /-- CAPTURE (R236). IMG_BED_CMD.CAPTURE triggers COUNT bed frames. -/
  | capture (src : Source) (pipe : Nat) (val : BitVec 32)
  /-- BED_DONE (R236). The last bed frame of a capture is written. -/
  | bedDone (pipe : Nat)
  /-- MOVE (R242). The axis command MOVE moves to AXIS_TARGET or retargets in flight. -/
  | move (axis : Nat)
  /-- VEL_POS (R242). The axis command VEL_POS runs at VMAX in the positive direction. -/
  | velPos (axis : Nat)
  /-- VEL_NEG (R242). The axis command VEL_NEG runs at VMAX in the negative direction. -/
  | velNeg (axis : Nat)
  /-- AXIS_STOP (R242). The axis command STOP comes to rest under ACC and JERK. -/
  | axisStop (axis : Nat)
  /-- ESTOP (R245). The axis command ESTOP comes to rest at EDEC. -/
  | estop (axis : Nat)
  /-- HOME (R252). The axis command HOME runs the homing sequence. -/
  | home (axis : Nat)
  /-- AXIS_CLEAR (R242). The axis command CLEAR returns a faulted axis to IDLE. -/
  | axisClear (axis : Nat)
  /-- SET_POS (R242). The axis command SET_POS sets the position and HOMED. -/
  | setPos (axis : Nat)
  /-- AXIS_ENABLE_WRITE (R255). A write of AXIS_CTRL.ENABLE turns the bridges on or stops and disables the axis. -/
  | axisEnableWrite (src : Source) (axis : Nat) (val : BitVec 32)
  /-- WAVE_LOAD (R240). AXIS_WAVE_CMD.START copies a stream into a waveform bank. -/
  | waveLoad (src : Source) (axis : Nat) (val : BitVec 32)
  /-- BANK_SWITCH (R241). A change of waveform bank takes effect at rest or when the table index wraps. -/
  | bankSwitch (axis : Nat)
  /-- MOVE_DONE (R260). A MOVE comes to rest at its target. -/
  | moveDone (axis : Nat)
  /-- SOFT_LIMIT (R244). A VEL move comes to rest at the soft limit ahead. -/
  | softLimit (axis : Nat)
  /-- STALL (R248). A stall qualifies over STALL_N microsteps and stops the axis in FAULT. -/
  | stall (axis : Nat)
  /-- LOST_STEP (R249). The encoder and commanded position differ by more than ENC_WIN. -/
  | lostStep (axis : Nat)
  /-- LIMIT_HIT (R250). A limit switch qualifies active while the axis moves toward it, and the axis stops in FAULT. -/
  | limitHit (axis : Nat) (input : Nat)
  /-- HOME_EDGE (R251). A raw edge of the HOME input is timestamped and latched or counted. -/
  | homeEdge (axis : Nat) (level : Bool) (axclk : Nat)
  /-- CHATTER (R254). More than CHATTER_MAX home edges fall within the window and homing fails. -/
  | chatter (axis : Nat)
  /-- HOME_DONE (R252). Homing ends at rest at the offset and sets the position. -/
  | homeDone (axis : Nat)
  /-- SKIVER_PHASE_END (R258). The last axis of a Skiver phase comes to rest and the next phase starts at the next boundary. -/
  | skiverPhaseEnd
  /-- SKIVER_DONE (R258). The SETTLE time ends and the Skiver signals layer-ready. -/
  | skiverDone
  /-- SKV_READY (R256). AXIS_SKV_CMD.READY signals that an outside recoater has finished. -/
  | skvReady
  /-- RETRY (R259). AXIS_SKV_CMD.RETRY reruns the checks and restarts the faulted phase. -/
  | retry
  /-- CREATE (R263). The Saddlebag command CREATE allocates and fills a stream. -/
  | create (src : Source) (val : BitVec 32)
  /-- CREATE_DONE (R263). A stream's fill ends and its handle is returned at the next boundary. -/
  | createDone
  /-- DESTROY (R264). The Saddlebag command DESTROY frees a stream without references. -/
  | destroy (src : Source) (val : BitVec 32)
  /-- QUEUE_PUSH (R271). A block or aperture producer pushes one word into a queue. -/
  | queuePush (req : Nat) (handle : BitVec 32) (word : PWord) (last : Bool) (turn : Turn)
  /-- QUEUE_POP (R271). A block consumer pops one word from a queue. -/
  | queuePop (req : Nat) (handle : BitVec 32) (turn : Turn)
  /-- SPILL_MOVE (R266). The spill engine moves a page between a spill window and DRAM. -/
  | spillMove (handle : BitVec 32) (toDram : Bool)
  /-- SCRUB (R278). The scrubber reads and corrects the allocated words on its interval. -/
  | scrub (addr : Nat) (err : WordError)
  /-- APER_BIND (R279). A write to SB_APER binds an aperture, marking any open packet bad first. -/
  | aperBind (src : Source) (aper : Nat) (val : BitVec 32)
  /-- APER_PUSH (R279). A host write at aperture offset 0x00 pushes a word. -/
  | aperPush (aper : Nat) (val : BitVec 32)
  /-- APER_END (R279). A host write at aperture offset 0x04 pushes an end word. -/
  | aperEnd (aper : Nat) (val : BitVec 32)
  /-- APER_BAD (R279). A host write at aperture offset 0x08 marks the open packet bad. -/
  | aperBad (aper : Nat) (val : BitVec 32)
  /-- APER_POP (R279). A host read at aperture offset 0x10 pops a word. -/
  | aperPop (aper : Nat)
  /-- APER_DEPTH (R279). A host read at aperture offset 0x14 returns the queue depth. -/
  | aperDepth (aper : Nat)
  /-- APER_BUFFER_ACCESS (R279). A host access through an aperture reads or writes a buffer word. -/
  | aperBufferAccess (aper : Nat) (off : Nat) (wr : Option (BitVec 32))
  /-- DRAM_ENABLE (R282). A write of DMC_CFG.ENABLE starts training of a channel. -/
  | dramEnable (src : Source) (chan : Nat) (val : BitVec 32)
  /-- TRAINING_DONE (R282). Channel training ends in READY or FAILED. -/
  | trainingDone (chan : Nat) (found : Training)
  /-- DRAM_READ (R299). A read of a DRAM line completes and is classified by its code. -/
  | dramRead (chan : Nat) (req : Nat) (off : Nat) (err : List Nat) (delayed : Bool)
  /-- DRAM_WRITE (R286). A write is accepted into the subchannel write queues. -/
  | dramWrite (chan : Nat) (req : Nat) (off : Nat) (data : List (BitVec 32)) (poison : Bool) (turn : LineTurn)
  /-- COMMAND_PARITY_ALERT (R288). ALERT_N reports a command-parity error and the controller replays from its buffer. -/
  | commandParityAlert (chan : Nat) (replays : Replays)
  /-- REFRESH (R291). A refresh falls due and is issued or postponed. -/
  | refresh (chan : Nat) (iso : Bool)
  /-- ISO_LATE (R295). A fetch packet is not complete by its boundary and is marked bad. -/
  | isoLate (chan : Nat) (fetch : Nat)
  /-- FETCHER_ENABLE (R294). A write of DMC_ISO_CTRL.EN checks and starts a fetcher. -/
  | fetcherEnable (src : Source) (chan : Nat) (fetch : Nat) (val : BitVec 32)
  /-- SELF_REFRESH_ENTRY (R296). A channel idle for SR_IDLE enters self-refresh. -/
  | selfRefreshEntry (chan : Nat)
  /-- PATROL (R305). A patrol burst falls due and reads 64 pairs. -/
  | patrol (chan : Nat) (err : List Nat)
  /-- LANE_ENABLE (R317). A write of LANE_CFG.ENABLE starts training or takes the lane DOWN. -/
  | laneEnable (src : Source) (lane : Nat) (val : BitVec 32)
  /-- IDENT_FLIT (R317). An IDENT flit arrives in DETECT and the rate is chosen. -/
  | identFlit (lane : Nat) (words : List (BitVec 32))
  /-- CHECK_DONE (R318). The CHECK window ends, passing or failing. -/
  | checkDone (lane : Nat) (errs : Nat)
  /-- ECHO_FLIT (R319). An ECHO flit answers a TIMING flit and gives a round trip. -/
  | echoFlit (lane : Nat) (rtt : Nat)
  /-- LANE_UP (R319). Alignment passes and the lane enters READY. -/
  | laneUp (lane : Nat)
  /-- LANE_DOWN (R321). A READY lane meets a recovery condition and leaves READY. -/
  | laneDown (lane : Nat) (cause : Nat)
  /-- RETRAIN (R317). The lane command RETRAIN restarts training. -/
  | retrain (lane : Nat)
  /-- TEST (R325). The lane command TEST enters the test state. -/
  | test (lane : Nat)
  /-- MEASURE (R323). The lane command MEASURE runs the PRBS checker for CHECK_MS. -/
  | measure (lane : Nat)
  /-- MEASURE_DONE (R323). A MEASURE window ends. -/
  | measureDone (lane : Nat) (errs : Nat) (bits : Nat)
  /-- INJECT (R324). The lane command INJECT corrupts a payload bit or a CRC. -/
  | inject (lane : Nat)
  /-- EXIT (R317). The lane command EXIT leaves the test state. -/
  | exit (lane : Nat)
  /-- SAMPLES_FLIT (R311). A SAMPLES flit delivers photodiode pairs of a Stitch. -/
  | samplesFlit (lane : Nat) (hdr : BitVec 32) (words : List (BitVec 32))
  /-- STATUS_FLIT (R311). A STATUS flit delivers head status for a Stitch. -/
  | statusFlit (lane : Nat) (hdr : BitVec 32) (words : List (BitVec 32))
  /-- BAD_FLIT (R309). A received flit fails its CRC or has an undefined type and is discarded. -/
  | badFlit (lane : Nat) (crc : Bool)
  /-- NAK (R313). A received NAK makes the sender replay from the flit after ACK. -/
  | nak (lane : Nat) (ack : Nat)
  /-- PCIE_RESET (R330). FLR, hot reset or PCIE_PERST_N restarts only the PCIe block. -/
  | pcieReset
  /-- LINK_LOST (R330). The PCIe link leaves L0. -/
  | linkLost
  /-- MSIX_UNMASK (R329). Unmasking a vector with its pending bit set sends one message. -/
  | msixUnmask (vec : Nat)
  /-- ETH_RX_FRAME (R332). An Ethernet frame is received, timestamped and queued or dropped. -/
  | ethRxFrame (port : Nat) (frame : List (BitVec 8)) (fcsOk : Bool)
  /-- ETH_TX_PACKET (R332). A transmit packet is sent and its completion pushed. -/
  | ethTxPacket (port : Nat)
  /-- REF_WINDOW (R335). A CLKREF measurement window ends and TB0's rate is set. -/
  | refWindow (tclks : Nat)
  /-- REF_LOST (R335). Ten consecutive CLKREF edges are missing. -/
  | refLost
  /-- DOMAIN_MEASUREMENT (R336). A write of TIME_DOM_MEAS_NS submits an offset that the servo applies at the next boundary. -/
  | domainMeasurement (src : Source) (dom : Nat) (val : BitVec 32)
  /-- DOM_UNLOCK (R336). A domain receives no measurement for HOLD Stitches. -/
  | domUnlock (dom : Nat)
  /-- TIME_SNAP (R340). TIME_SNAP.CAPTURE latches all five time bases at one TCLK. -/
  | timeSnap
  /-- ACT_ARM (R341). A scheduled-action entry is armed at the next boundary. -/
  | actArm (src : Source) (entry : Nat) (val : BitVec 32)
  /-- ACT_CANCEL (R345). A scheduled-action entry is disarmed at the next boundary. -/
  | actCancel (src : Source) (entry : Nat) (val : BitVec 32)
  /-- ACTION_WRITE (R344). A due WRITE action writes a BAR0 register in the commit step. -/
  | actionWrite (entry : Nat)
  /-- ACTION_PUSH (R344). A due PUSH action commits a one-word packet. -/
  | actionPush (entry : Nat)
  /-- ACTION_PIN (R344). A due PIN action drives a TIME_OUT pin at a TCLK of the Stitch. -/
  | actionPin (entry : Nat)
  /-- SEGMENT_ENABLE (R347). A write of FBUS_SEG_CFG.ENABLE starts or stops a field-bus segment. -/
  | segmentEnable (src : Source) (seg : Nat) (val : BitVec 32)
  /-- NODE_ENABLE (R348). A write of a node entry's ENABLE is checked and takes effect at the next Cinch. -/
  | nodeEnable (src : Source) (seg : Nat) (node : Nat) (val : BitVec 32)
  /-- CINCH_START (R349). A Cinch starts: the previous one closes and the OUT image is taken and sent. -/
  | cinchStart (seg : Nat)
  /-- IN_FRAME (R351). An IN frame is received and accepted into the point table or rejected. -/
  | inFrame (seg : Nat) (frame : List (BitVec 8))
  /-- STRANGER_FRAME (R354). A frame that updates no point is counted and copied to the stranger queue. -/
  | strangerFrame (seg : Nat) (frame : List (BitVec 8))
  /-- NOISE (R353). A bad FCS, symbol error, jabber or collision is counted per node or segment. -/
  | noise (seg : Nat) (kind : NoiseKind) (node : Nat)
  /-- LAMP_ENABLE (R360). A write of LAMP_CTRL.ENABLE starts the lamp drive or turns all gates off. -/
  | lampEnable (src : Source) (val : BitVec 32)
  /-- FRAME_TICK (R360). A lamp frame tick falls, stepping the pattern engines and restarting the PWM period. -/
  | frameTick
  /-- PWM_PERIOD (R361). A PWM period starts and each channel's duty is formed. -/
  | pwmPeriod
  /-- LAMP_MEASUREMENT (R367). A channel is sampled at TCLK 620 of an on-interval and judged. -/
  | lampMeasurement (chan : Nat) (row : Nat) (drainMv : Nat) (isense : Nat)
  /-- DIAG_STARVED (R368). A channel reaches DIAG_PERIOD frames without a measurement and diagnostics are off. -/
  | diagStarved (chan : Nat)
  /-- LSYNC_EDGE (R364). A qualified LSYNC edge swaps or advances the page, restarts PWM and latches LAMP_SEQ. -/
  | lsyncEdge (us : Nat)
  /-- CHAIN_LATCH (R370). A chain shift ends and LLATCH pulses. -/
  | chainLatch
  /-- LAMP_SWAP (R364). LAMP_CMD.SWAP requests a page swap at the next swap event. -/
  | lampSwap
  /-- LAMP_CLEAR (R367). LAMP_CH_CFG.CLEAR clears a latched fault at the next frame tick. -/
  | lampClear (src : Source) (chan : Nat) (val : BitVec 32)
  /-- POWER_ON (R376). VDD_STBY rises; the standby registers are restored and the device enters STANDBY. -/
  | powerOn (spiQuad : Bool) (harnSide : Bool)
  /-- WAKE (R381). A wake from AUTO_WAKE, WAKE_N or the VBAT counter starts the power-up sequence. -/
  | wake (cause : WakeCause)
  /-- PG_RISE (R373). A group's power-good arrives and the sequencer goes on. -/
  | pgRise (rise : GroupRails)
  /-- SETTLE_EXPIRY (R373). The SETTLE delay between groups ends. -/
  | settleExpiry
  /-- SEQ_TIMEOUT (R374). A sequencer wait exceeds PG_TIMEOUT. -/
  | seqTimeout
  /-- SEQ_FAULT (R374). A rail ordering fault or lost power-good holds the core in reset and powers down. -/
  | seqFault (code : Nat)
  /-- BROWN_OUT (R375). An up rail stays below its brown-out threshold and a brown-out reset begins. -/
  | brownOut (low : RailLevel) (within10s : Bool)
  /-- BROWN_OUT_RETRY (R375). The 100 ms wait after a brown-out ends and the device sequences up again or stops at BO_LIMIT. -/
  | brownOutRetry
  /-- STBY_LOSS (R376). VDD_STBY falls below its threshold and all enables drop. -/
  | stbyLoss
  /-- VBAT_LOSS (R376). VBAT falls below 1.50 V while VDD_STBY is absent and the VBAT domain is lost. -/
  | vbatLoss
  /-- RESET_N (R385). The RESET_N pin is held low and the core domain resets. -/
  | resetN
  /-- SERVICE (R381). The power command SERVICE moves the device to SERVICE. -/
  | service
  /-- READY (R381). The power command READY moves the device to READY. -/
  | ready
  /-- RUN (R381). The power command RUN moves the device to RUN. -/
  | run
  /-- SHUTDOWN (R384). The power command SHUTDOWN runs the burnish and powers down to STANDBY. -/
  | shutdown
  /-- CANCEL (R384). The power command CANCEL abandons a shut-down before power-down. -/
  | cancel
  /-- SOFT_RESET (R385). The power command SOFT_RESET resets the core domain. -/
  | softReset
  /-- BLOCK_RESTART (R387). PWR_BLOCK_RST.START requests a restart of one unit at the next boundary. -/
  | blockRestart (src : Source) (val : BitVec 32)
  /-- BLOCK_RESTARTED (R387). A restarted unit runs again. -/
  | blockRestarted
  /-- BOOT_DONE (R390). Boot completes and the cores are released into SERVICE. -/
  | bootDone (a : ImageHdr) (b : ImageHdr) (testOk : Bool)
  /-- AVS_STEP (R378). The AVS interval ends and the loop moves the VDD_CORE target. -/
  | avsStep (margins : List Nat)
  /-- AVS_CHECK (R378). 100 µs after a change, READ_VOUT is checked against the target. -/
  | avsCheck (back : ReadBack) (readMv : Nat)
  /-- MARGIN_CRIT (R379). The path margin stays below CRIT for a Stitch-aligned second. -/
  | marginCrit
  /-- REG_ALERT (R377). PMB_ALERT_N asserts; STATUS_WORD is read and faults cleared. -/
  | regAlert (status : Nat)
  /-- SENSOR_SAMPLE (R393). A sensor's measurement period ends and it is sampled; `input` is its pin's level. -/
  | sensorSample (sensor : Nat) (reading : Nat) (input : Timed Nat)
  /-- BAND_CHANGED (R396). A band group's band changes at the first boundary after a sample. -/
  | bandChanged (grp : Nat)
  /-- STEP_ON (R397). A throttle step engages. -/
  | stepOn (step : Nat)
  /-- STEP_OFF (R397). A throttle step releases. -/
  | stepOff (step : Nat)
  /-- CAL_RUN (R401). CAL_CMD RUN queues a calibration instance. -/
  | calRun (src : Source) (val : BitVec 32)
  /-- GEO_COMMIT (R405). CAL_CMD GEO_COMMIT starts the guarded commit of a field grid. -/
  | geoCommit (src : Source) (val : BitVec 32)
  /-- CAL_INSTANCE_START (R401). The engine starts the next queued calibration instance. -/
  | calInstanceStart
  /-- CAL_RESULT_FOUND (R402). A calibration run finds its result and checks it. -/
  | calResultFound (result : Int) (gain : Int) (run : Nat) (vrefOk : Bool)
  /-- CAL_DONE (R402). The walk to an accepted result ends. -/
  | calDone
  /-- BURN_RUN (R408). BURN_CTRL.RUN starts a burnish run in SERVICE. -/
  | burnRun (src : Source) (val : BitVec 32)
  /-- BURN_CANCEL (R409). BURN_CTRL.CANCEL abandons the slice in progress and restores the unit. -/
  | burnCancel (src : Source) (val : BitVec 32)
  /-- SLICE_DONE (R406). A burnish slice ends with its signature compared. -/
  | sliceDone (pass : Bool)
  /-- GUARDED_REQUEST (R416). A write to a guarded register or command stages a request awaiting presence. -/
  | guardedRequest (src : Source) (addr : BitVec 32) (val : BitVec 32)
  /-- PRESENCE_QUALIFIED (R417). PRESENT_N has been held low for 20 ms within the keeper window. -/
  | presenceQualified (pressAfterStart : Bool)
  /-- PRESENCE_TIMEOUT (R418). The keeper window ends without a grant. -/
  | presenceTimeout
  /-- GUARD_CANCEL (R416). SEC_GUARD.CANCEL ends the pending request. -/
  | guardCancel
  /-- KEY_LOAD (R419). The key command LOAD copies the staged secret into the key store. -/
  | keyLoad (src : Source) (val : BitVec 32)
  /-- ERASE (R415). The key command ERASE clears a secret. -/
  | erase (src : Source) (val : BitVec 32)
  /-- RESEAL (R420). The key command RESEAL clears the seal latch while the loop is closed. -/
  | reseal (src : Source) (val : BitVec 32) (closed : Bool)
  /-- REVOKE (R415). The key command REVOKE revokes a boot key slot. -/
  | revoke (src : Source) (val : BitVec 32)
  /-- MIN_VER (R415). The key command MIN_VER raises the anti-rollback minimum. -/
  | minVer (src : Source) (val : BitVec 32)
  /-- HMAC (R419). The key command HMAC computes HMAC-SHA-384 with a secret over a buffer. -/
  | hmac (src : Source) (val : BitVec 32)
  /-- SEAL_OPENED (R420). The seal loop opens and all secrets are erased. -/
  | sealOpened
  /-- DEBUG_UNLOCK (R422). SEC_DEBUG.UNLOCK requests the guarded debug unlock. -/
  | debugUnlock (src : Source)
  /-- PROGRAM (R414). The image command PROGRAM writes the buffer to a chunk of the non-booted slot. -/
  | program (src : Source) (val : BitVec 32)
  /-- IMG_COMMIT (R414). The image command COMMIT verifies the slot and starts the guarded image commit. -/
  | imgCommit (src : Source) (val : BitVec 32)
  /-- PSTORE_WRITE (R434). SEC_PSTORE_CMD.WRITE writes a word of the parameter store. -/
  | pstoreWrite (src : Source) (val : BitVec 32)
  /-- PSTORE_DONE (R434). A parameter-store write becomes durable and DONE sets. -/
  | pstoreDone
  /-- ILK_ACTIVE (R423). An interlock input goes active and every EMIT_EN drops. -/
  | ilkActive (input : Timed Nat)
  /-- ILK_MISMATCH (R423). The two interlock inputs differ for more than 100 ms. -/
  | ilkMismatch
  /-- HARN_ENABLE (R425). A write of HARN_CFG.ENABLE trains the harness lanes and joins a pair. -/
  | harnEnable (src : Source) (val : BitVec 32)
  /-- LEAD_SEARCH (R432). The cold-start search for a lead times out and the device becomes lead. -/
  | leadSearch
  /-- JOIN (R433). The harness command JOIN starts joining a lead. -/
  | join (check : Nat)
  /-- COPY_FLIT (R433). A COPY flit delivers copied state to the joining wheel. -/
  | copyFlit (data : CopyData)
  /-- COPY_DONE (R433). The state copy ends and the wheel enters REPLICA. -/
  | copyDone
  /-- WHEEL_READY (R433). 64 consecutive good copies bring the wheel to TRACKING. -/
  | wheelReady
  /-- LEAVE (R433). The harness command LEAVE returns a wheel to SOLO. -/
  | leave
  /-- RESIGN (R431). The harness command RESIGN starts a guarded hand-over of the lead. -/
  | resign (src : Source)
  /-- RESIGNED (R431). The roles swap at the boundary after the RESIGN digests. -/
  | resigned
  /-- FORWARD_FLIT (R427). A FORWARD flit delivers a lead-only input to the wheel. -/
  | forwardFlit (place : ForwardPlace) (data : ForwardData)
  /-- DIGEST_SEND (R429). A digest copy leaves on a harness lane and the beat toggles. -/
  | digestSend (copy : Nat)
  /-- DIGEST_FLIT (R429). A peer's DIGEST flit arrives. -/
  | digestFlit (copy : Nat) (words : List (BitVec 32))
  /-- DIGEST_DUE (R430). A peer digest copy falls due and is classed good, divergent, lost or missed. -/
  | digestDue (copy : Nat) (beat : Bool)
  /-- TAKEOVER (R430). A tracking wheel becomes lead at the boundary after its decision. -/
  | takeover
  /-- AXIS_REST (R242). A stopping axis comes to rest and leaves STOPPING for IDLE or FAULT. -/
  | axisRest (axis : Nat)
  /-- INDEX_PULSE (R252). An encoder index pulse arrives and, in INDEX homing, latches L and ends step 2. -/
  | indexPulse (axis : Nat) (axclk : Nat)
  /-- ILK_RELEASED (R423). An interlock input goes inactive, so EMIT_EN may become active again and the 100 ms both-inactive timing can start. -/
  | ilkReleased (input : Nat)
  /-- PCIE_LINK_UP (R330). The PCIe link trains into L0 and LINK_UP, SPEED and WIDTH are set. -/
  | pcieLinkUp (speed : Nat) (width : Nat)
  /-- ETH_LINK_CHANGE (R331). An SGMII port's link comes up by autonegotiation or goes down, updating PCIE_EG_STATUS.LINK and SPEED. -/
  | ethLinkChange (port : Nat) (up : Bool) (speed : Nat)
  /-- GROUP_ABSENT (R373). A supply group falls below 10 % of nominal during power-down, and the sequencer goes on to the next step. -/
  | groupAbsent (grp : Nat)
  /-- RH_WINDOW_END (R297). A row-disturbance window of RH_WIN ms ends, the activate counts restart and any class throttle is lifted. -/
  | rhWindowEnd (chan : Nat)
  /-- REPEAT_ENTRY_EXPIRY (R301). The interval of a non-sticky repeat-table entry ends and the entry leaves the table. -/
  | repeatEntryExpiry (entry : Nat)
  /-- MR4_POLL (R290). The once-per-millisecond read of every rank's mode register 4 may raise the refresh rate. -/
  | mr4Poll (chan : Nat) (rate : Nat)
  /-- GATE_TAP_TIMEOUT (R400). A GATE_TAP instance gathers fewer than 256 reports within 1 s and ends as SKIPPED. -/
  | gateTapTimeout
  /-- IMG_CMD_DONE (R414). A PROGRAM or COMMIT of SEC_IMG_CMD completes and reports its RESULT, releasing the command port. -/
  | imgCmdDone (hdr : ImageHdr)
  /-- TRANSMIT_OPPORTUNITY (R349). The device's PLCA transmit opportunity or CSMA/CD access comes, and a waiting OUT or LAMP_SYNC frame is sent. -/
  | transmitOpportunity (seg : Nat)
  /-- DEBUG_INSTRUCTION (R421). A JTAG instruction is shifted into the debug port and is answered, or refused while the port is closed. -/
  | debugInstruction (ir : DebugIr)
  deriving DecidableEq, Repr

end Sys2Proof
end

