-- ==== Sys2Proof/Decode.lean ====
section
/-! DEFINITION. Words of the table of operations and events: the table gives bits to none of its rows, so no word spells
a command. (The words of Adtuak instructions are data of the cores' memories; their decoder is in
Sys2Proof/Machine/Operands.lean.) -/

namespace Sys2Proof

/-- The command that a table word spells: none, since the spec's table gives no row any bits. -/
def decodeTableWord (_nbits _w : Nat) : Option Instr := none

end Sys2Proof
end

