-- ==== Sys2Proof/Config.lean ====
section
/-! DEFINITION. What the spec leaves open: constants with no body. Nothing can be proved about their values, so a
statement holds whatever they are. Each is applied to the operands it depends on, or to the counter State.fresh. Every
one of them is named in the assumption log. -/

namespace Sys2Proof.Config

/-- A choice among alternatives that the spec leaves to the allocator (which free stream number a CREATE returns, which
free pages it takes): the
counter gives a number, taken modulo how many alternatives there are. -/
opaque choice : Nat → Nat

/-- A value that the spec calls unspecified and gives no operands for: of the counter. -/
opaque freeWord : Nat → BitVec 32

/-- The measured value of a pool area above 0xFFFF, which no rule brings into 16 bits (R189). -/
opaque areaCode : Nat → BitVec 16

/-- Which way a statistic is rounded whose rounding no rule states (R229): of the counter and the statistic's place in its
packet. -/
opaque roundUp : Nat → Nat → Bool

/-- The value of a pixel that no rule gives one: a defective pixel with no usable neighbour (R225), or a missing pixel of a
retained or bed frame (R234): of the counter, the column and the row. -/
opaque pixel : Nat → Nat → Nat → BitVec 16

/-- Whether the bed camera is an RGGB one; else it is monochrome (R235). No register says which. -/
opaque bedColour : Bool

/-- The cause nibble of LANE_DOWN, which no rule codes (R326): of the condition met, 0 to 4 those of R321 in order, 5 any
other way out of READY. -/
opaque laneDownCause : Nat → BitVec 4

/-- The place within its Stitch of an access, a capture or a frame, which no command carries: of the counter. -/
opaque instant : Nat → Nat

/-- A calibration result in its item's own format (R404), which no rule gives: of the item and its two codes. -/
opaque calFormat : Nat → Int → Int → BitVec 32

/-- Microseconds that a burnish slice takes (R406), which only BURN_SLICE shows: of the slice. -/
opaque sliceTime : Nat → BitVec 11

/-- The unit that a burnish slice tests (R406), as a code of R387 and a number, which no rule lists: of the slice. -/
opaque sliceUnit : Nat → BitVec 4 × BitVec 6

/-- Whether a word index of the parameter store above the board table lies in the user area (R434). -/
opaque userArea : Nat → Bool

/-- The bytes under the digest of R429, whose layout no rule gives: of the outputs it covers, in its order, as words. -/
opaque digestBytes : List (BitVec 32) → List (BitVec 8)

/-- The identification that the debug port's IDCODE answers (R421). -/
opaque idcode : BitVec 32

/-- Seconds that the VBAT counter counted while no command's clock ran (R380): of the counter. -/
opaque elapsed : Nat → Nat


end Sys2Proof.Config
end

