-- ==== Sys2Proof/Machine/RegMap.lean ====
section
/-! DEFINITION. The register map of BAR0: every register table of the spec as data (offset, fields, access code of R11,
reset value, survives token of R12), the block table of R20, and one name per register and per field. In the access
codes, cfg is a rw field that its unit accepts only in the states its chapter names (R37), gd is a rw field guarded by
presence (R415), and cam and pipe are the sh fields of an imaging pipe that commit through IMG_COMMIT (R219, R221). -/

namespace Sys2Proof.Machine

/-- Access codes of R11, with the kinds of rw and sh that a chapter singles out. -/
inductive Acc where
  /-- Read only. -/
  | ro
  /-- Read and write. -/
  | rw
  /-- Read and write, accepted only while the unit is stopped (R37). -/
  | cfg
  /-- Write only. -/
  | wo
  /-- Writing 1 clears. -/
  | w1c
  /-- Writing 1 sets. -/
  | w1s
  /-- Clears on read. -/
  | rc
  /-- Shadowed: commits at the next boundary. -/
  | sh
  /-- Shadowed in the camera set: commits through IMG_COMMIT.CAM (R219). -/
  | cam
  /-- Shadowed on the pipe side: commits through IMG_COMMIT.PIPE (R221). -/
  | pipe
  /-- Guarded: a write starts a guarded request (R415). -/
  | gd
  deriving DecidableEq, Repr

/-- The tokens of the Survives column, narrowest first (R12). -/
inductive Survives where
  /-- No reset kind that reaches the block. -/
  | none
  /-- Context restart. -/
  | ctx
  /-- Block restart of its own unit. -/
  | block
  /-- Device soft reset and watchdog reset. -/
  | soft
  /-- RESET_N. -/
  | pin
  /-- Brown-out. -/
  | bor
  /-- Every reset kind and power state. -/
  | all
  deriving DecidableEq, Repr

/-- The place of a token in the order of R12. -/
def Survives.rank : Survives → Nat
  | .none => 0 | .ctx => 1 | .block => 2 | .soft => 3 | .pin => 4 | .bor => 5 | .all => 6

/-- One field of a register table. -/
structure FieldDesc where
  /-- Top bit. -/
  hi : Nat
  /-- Bottom bit. -/
  lo : Nat
  /-- Access code. -/
  acc : Acc
  /-- At reset. -/
  rst : Nat
  /-- Survives. -/
  sv : Survives
  deriving DecidableEq, Repr

/-- One register, or a regular array of it: offset from the block's base, two strides with their counts, whether it
holds a stream handle (R264), and its fields. -/
structure RegDesc where
  /-- Offset of the first. -/
  off : Nat
  /-- Outer stride. -/
  s1 : Nat
  /-- Outer count. -/
  n1 : Nat
  /-- Inner stride. -/
  s2 : Nat
  /-- Inner count. -/
  n2 : Nat
  /-- Whether the register holds a stream handle. -/
  handle : Bool
  /-- The fields; bits outside every field are reserved (R10). -/
  flds : List FieldDesc
  deriving DecidableEq, Repr

/-- The register blocks of R20. -/
inductive Blk where
  /-- The SYS block. -/
  | sys
  /-- The STCH block. -/
  | stch
  /-- The TC block. -/
  | tc
  /-- The TREE block. -/
  | tree
  /-- The HIDE block. -/
  | hide
  /-- The AWL block. -/
  | awl
  /-- The REIN block. -/
  | rein
  /-- The IMG block. -/
  | img
  /-- The AXIS block. -/
  | axis
  /-- The SB block. -/
  | sb
  /-- The DMC block. -/
  | dmc
  /-- The LANE block. -/
  | lane
  /-- The PCIE block. -/
  | pcie
  /-- The TIME block. -/
  | time
  /-- The FBUS block. -/
  | fbus
  /-- The LAMP block. -/
  | lamp
  /-- The PWR block. -/
  | pwr
  /-- The THRM block. -/
  | thrm
  /-- The CAL block. -/
  | cal
  /-- The BURN block. -/
  | burn
  /-- The SEC block. -/
  | sec
  /-- The HARN block. -/
  | harn
  deriving DecidableEq, Repr

/-- A block of R20: base, stride, instances and the size of one window. -/
structure BlkDesc where
  /-- Which block. -/
  blk : Blk
  /-- Base in BAR0. -/
  base : Nat
  /-- Stride; 0 for a single one. -/
  stride : Nat
  /-- How many. -/
  count : Nat
  /-- Size of one window in bytes. -/
  win : Nat
  deriving DecidableEq, Repr

/-- The block table of R20. -/
def blkTable : List BlkDesc := [
  ⟨.sys, 0x00000000, 0x0, 1, 0x100000⟩,
  ⟨.stch, 0x00100000, 0x0, 1, 0x100000⟩,
  ⟨.tc, 0x00200000, 0x10000, 40, 0x10000⟩,
  ⟨.tree, 0x01000000, 0x0, 1, 0x100000⟩,
  ⟨.hide, 0x01100000, 0x0, 1, 0x100000⟩,
  ⟨.awl, 0x01200000, 0x1000, 32, 0x1000⟩,
  ⟨.rein, 0x01400000, 0x800, 32, 0x800⟩,
  ⟨.img, 0x01600000, 0x4000, 8, 0x4000⟩,
  ⟨.axis, 0x01800000, 0x400, 16, 0x400⟩,
  ⟨.sb, 0x01A00000, 0x0, 1, 0x100000⟩,
  ⟨.dmc, 0x01C00000, 0x80000, 2, 0x80000⟩,
  ⟨.lane, 0x01E00000, 0x800, 40, 0x800⟩,
  ⟨.pcie, 0x01F00000, 0x0, 1, 0x100000⟩,
  ⟨.time, 0x02000000, 0x0, 1, 0x100000⟩,
  ⟨.fbus, 0x02100000, 0x0, 1, 0x100000⟩,
  ⟨.lamp, 0x02200000, 0x0, 1, 0x100000⟩,
  ⟨.pwr, 0x02300000, 0x0, 1, 0x100000⟩,
  ⟨.thrm, 0x02400000, 0x0, 1, 0x100000⟩,
  ⟨.cal, 0x02500000, 0x0, 1, 0x100000⟩,
  ⟨.burn, 0x02600000, 0x0, 1, 0x100000⟩,
  ⟨.sec, 0x02700000, 0x0, 1, 0x100000⟩,
  ⟨.harn, 0x02800000, 0x0, 1, 0x100000⟩]

/-- Register tables of the SYS block, part 0. -/
def regsSys0 : List RegDesc := [
  -- SYS_PART
  ⟨0x10, 0, 1, 0, 1, false,
    [⟨27, 24, .ro, 0, .all⟩, ⟨23, 20, .ro, 0, .all⟩, ⟨19, 16, .ro, 0, .all⟩, ⟨15, 0, .ro, 0, .all⟩]⟩,
  -- SYS_FEATURES
  ⟨0x14, 0, 1, 0, 1, false,
    [⟨5, 5, .ro, 0, .all⟩, ⟨4, 4, .ro, 0, .all⟩, ⟨3, 3, .ro, 0, .all⟩, ⟨2, 2, .ro, 0, .all⟩, ⟨1, 1, .ro, 0, .all⟩, ⟨0, 0, .ro, 0, .all⟩]⟩,
  -- SYS_UNITS
  ⟨0x18, 0, 1, 0, 1, false,
    [⟨27, 27, .ro, 0, .all⟩, ⟨26, 21, .ro, 0, .all⟩, ⟨20, 16, .ro, 0, .all⟩, ⟨15, 10, .ro, 0, .all⟩, ⟨9, 6, .ro, 0, .all⟩, ⟨5, 0, .ro, 0, .all⟩]⟩,
  -- SYS_WDOG_CTRL
  ⟨0x40, 0, 1, 0, 1, false,
    [⟨31, 31, .w1s, 0, .none⟩, ⟨30, 30, .w1c, 0, .none⟩, ⟨29, 29, .w1c, 0, .none⟩, ⟨23, 0, .cfg, 0xf4240, .none⟩]⟩,
  -- SYS_WDOG_KICK
  ⟨0x44, 0, 1, 0, 1, false,
    [⟨15, 0, .wo, 0, .none⟩]⟩,
  -- SYS_EVQ
  ⟨0x48, 0, 1, 0, 1, true,
    [⟨31, 0, .rw, 0, .block⟩]⟩,
  -- SYS_ACC_INFO
  ⟨0x4C, 0, 1, 0, 1, false,
    [⟨31, 31, .w1c, 0, .none⟩, ⟨30, 24, .ro, 0, .none⟩, ⟨23, 22, .ro, 0, .none⟩, ⟨21, 16, .ro, 0, .none⟩, ⟨15, 12, .ro, 0, .none⟩, ⟨11, 4, .ro, 0, .none⟩, ⟨2, 0, .ro, 0, .none⟩]⟩,
  -- SYS_ACC_ADDR_LO
  ⟨0x50, 0, 1, 0, 1, false,
    [⟨31, 0, .ro, 0, .none⟩]⟩,
  -- SYS_ACC_ADDR_HI
  ⟨0x54, 0, 1, 0, 1, false,
    [⟨31, 0, .ro, 0, .none⟩]⟩]

/-- Register tables of the STCH block, part 0. -/
def regsStch0 : List RegDesc := [
  -- STCH_PERIOD
  ⟨0x0, 0, 1, 0, 1, false,
    [⟨10, 0, .sh, 0x140, .block⟩]⟩,
  -- STCH_STATUS
  ⟨0x4, 0, 1, 0, 1, false,
    [⟨26, 16, .ro, 0xa0, .none⟩, ⟨9, 9, .w1c, 0, .none⟩, ⟨8, 8, .ro, 0, .none⟩, ⟨2, 0, .ro, 0, .none⟩]⟩,
  -- STCH_CTRL
  ⟨0x8, 0, 1, 0, 1, false,
    [⟨7, 0, .rw, 0, .block⟩]⟩,
  -- STCH_HOLD
  ⟨0xC, 0, 1, 0, 1, false,
    [⟨6, 6, .rw, 0, .none⟩, ⟨5, 5, .rw, 0, .none⟩, ⟨4, 4, .rw, 0, .none⟩, ⟨3, 3, .rw, 0, .none⟩, ⟨2, 2, .rw, 0, .none⟩, ⟨1, 1, .rw, 0, .none⟩, ⟨0, 0, .rw, 0, .none⟩]⟩,
  -- STCH_HOLD_LIMIT
  ⟨0x10, 0, 1, 0, 1, false,
    [⟨15, 0, .rw, 0x3e8, .block⟩]⟩,
  -- STCH_COUNT_LO
  ⟨0x14, 0, 1, 0, 1, false,
    [⟨31, 0, .ro, 0, .block⟩]⟩,
  -- STCH_COUNT_HI
  ⟨0x18, 0, 1, 0, 1, false,
    [⟨31, 0, .ro, 0, .block⟩]⟩,
  -- STCH_EVENT
  ⟨0x1C, 0, 1, 0, 1, false,
    [⟨3, 3, .w1c, 0, .none⟩, ⟨2, 2, .w1c, 0, .none⟩, ⟨1, 1, .w1c, 0, .none⟩, ⟨0, 0, .w1c, 0, .none⟩]⟩,
  -- STCH_LATE_CNT
  ⟨0x20, 0, 1, 0, 1, false,
    [⟨31, 0, .rc, 0, .none⟩]⟩,
  -- STCH_EARLY_CNT
  ⟨0x24, 0, 1, 0, 1, false,
    [⟨31, 0, .rc, 0, .none⟩]⟩]

/-- Register tables of the TC block, part 0. -/
def regsTc0 : List RegDesc := [
  -- TC_TABLE_CTRL
  ⟨0x0, 0, 1, 0, 1, false,
    [⟨31, 31, .w1s, 0, .none⟩, ⟨30, 28, .ro, 0, .none⟩, ⟨12, 0, .ro, 0, .block⟩]⟩,
  -- TC_SUPQ
  ⟨0x4, 0, 1, 0, 1, true,
    [⟨31, 0, .rw, 0, .block⟩]⟩,
  -- TC_LOAD_SRC
  ⟨0x10, 0, 1, 0, 1, true,
    [⟨31, 0, .rw, 0, .block⟩]⟩,
  -- TC_LOAD_OFS
  ⟨0x14, 0, 1, 0, 1, false,
    [⟨31, 0, .rw, 0, .block⟩]⟩,
  -- TC_LOAD_CMD
  ⟨0x18, 0, 1, 0, 1, false,
    [⟨31, 31, .w1s, 0, .none⟩, ⟨30, 30, .rw, 0, .block⟩, ⟨29, 27, .ro, 0, .none⟩, ⟨26, 13, .rw, 0, .block⟩, ⟨12, 0, .rw, 0, .block⟩]⟩,
  -- TC_SLOT
  ⟨0x100, 4, 16, 0, 1, false,
    [⟨31, 31, .rw, 0, .block⟩, ⟨19, 16, .rw, 0, .block⟩, ⟨12, 0, .rw, 0, .block⟩]⟩,
  -- TC_CTX_CTRL
  ⟨0x400, 32, 16, 0, 1, false,
    [⟨31, 31, .w1s, 0, .none⟩, ⟨30, 30, .w1s, 0, .none⟩, ⟨29, 29, .w1s, 0, .none⟩, ⟨28, 28, .rw, 0, .block⟩, ⟨27, 26, .rw, 0, .block⟩, ⟨25, 24, .ro, 0, .none⟩, ⟨15, 0, .rw, 0, .block⟩]⟩,
  -- TC_CTX_ENTRY
  ⟨0x404, 32, 16, 0, 1, false,
    [⟨31, 16, .rw, 0, .block⟩, ⟨15, 0, .rw, 0, .block⟩]⟩,
  -- TC_CTX_PART
  ⟨0x408, 32, 16, 0, 1, false,
    [⟨31, 24, .rw, 0, .block⟩, ⟨23, 16, .rw, 0, .block⟩, ⟨15, 8, .rw, 0, .block⟩, ⟨7, 0, .rw, 0, .block⟩]⟩,
  -- TC_CTX_STATE
  ⟨0x40C, 32, 16, 0, 1, false,
    [⟨31, 16, .rc, 0, .none⟩, ⟨11, 8, .ro, 0, .none⟩, ⟨7, 7, .w1c, 0, .none⟩, ⟨6, 6, .w1c, 0, .none⟩, ⟨1, 0, .ro, 0, .none⟩]⟩]

/-- Register tables of the TREE block, part 0. -/
def regsTree0 : List RegDesc := [
  -- TREE_JOB_BASE_LO
  ⟨0x0, 0, 1, 0, 1, false,
    [⟨31, 6, .cfg, 0, .block⟩]⟩,
  -- TREE_JOB_BASE_HI
  ⟨0x4, 0, 1, 0, 1, false,
    [⟨31, 0, .cfg, 0, .block⟩]⟩,
  -- TREE_JOB_CMD
  ⟨0x8, 0, 1, 0, 1, false,
    [⟨2, 0, .wo, 0, .none⟩]⟩,
  -- TREE_JOB_STATUS
  ⟨0xC, 0, 1, 0, 1, false,
    [⟨31, 28, .ro, 0, .none⟩, ⟨27, 26, .ro, 0, .none⟩, ⟨25, 25, .w1c, 0, .none⟩, ⟨24, 24, .ro, 0, .none⟩, ⟨15, 8, .ro, 0, .none⟩, ⟨7, 0, .rc, 0, .none⟩]⟩,
  -- TREE_JOB_LAYER
  ⟨0x10, 0, 1, 0, 1, false,
    [⟨31, 0, .ro, 0xffffffff, .none⟩]⟩,
  -- TREE_JOB_VALID
  ⟨0x14, 0, 1, 0, 1, false,
    [⟨31, 0, .ro, 0xffffffff, .none⟩]⟩,
  -- TREE_REJECT_LAYER
  ⟨0x18, 0, 1, 0, 1, false,
    [⟨31, 0, .ro, 0xffffffff, .none⟩]⟩,
  -- TREE_REJECT_PATCH
  ⟨0x1C, 0, 1, 0, 1, false,
    [⟨31, 0, .ro, 0xffffffff, .none⟩]⟩,
  -- TREE_REJECT_STROKE
  ⟨0x20, 0, 1, 0, 1, false,
    [⟨31, 0, .ro, 0xffffffff, .none⟩]⟩,
  -- TREE_JOB_EVQ
  ⟨0x24, 0, 1, 0, 1, true,
    [⟨31, 0, .rw, 0, .block⟩]⟩,
  -- TREE_CTRL
  ⟨0x100, 0, 1, 0, 1, false,
    [⟨0, 0, .sh, 0, .block⟩]⟩,
  -- TREE_SLOT_SERVICE
  ⟨0x104, 0, 1, 0, 1, false,
    [⟨31, 0, .sh, 0, .block⟩]⟩,
  -- TREE_DSEP
  ⟨0x108, 0, 1, 0, 1, false,
    [⟨31, 0, .sh, 0, .block⟩]⟩,
  -- TREE_TSTART
  ⟨0x10C, 0, 1, 0, 1, false,
    [⟨15, 0, .sh, 0, .block⟩]⟩,
  -- TREE_FLOW
  ⟨0x110, 0, 1, 0, 1, false,
    [⟨15, 0, .sh, 0, .block⟩]⟩,
  -- TREE_PLUME_LEN
  ⟨0x114, 0, 1, 0, 1, false,
    [⟨31, 0, .sh, 0, .block⟩]⟩,
  -- TREE_PLUME_WIDTH
  ⟨0x118, 0, 1, 0, 1, false,
    [⟨31, 0, .sh, 0, .block⟩]⟩,
  -- TREE_LOG_Q
  ⟨0x11C, 0, 1, 0, 1, true,
    [⟨31, 0, .cfg, 0, .block⟩]⟩,
  -- TREE_PLAN_EVQ
  ⟨0x120, 0, 1, 0, 1, true,
    [⟨31, 0, .cfg, 0, .block⟩]⟩,
  -- TREE_PRED_END
  ⟨0x124, 0, 1, 0, 1, false,
    [⟨31, 0, .ro, 0, .none⟩]⟩]

/-- Register tables of the TREE block, part 1. -/
def regsTree1 : List RegDesc := [
  -- TREE_PRED_OVER
  ⟨0x128, 0, 1, 0, 1, false,
    [⟨31, 0, .ro, 0, .none⟩]⟩,
  -- TREE_STATUS
  ⟨0x12C, 0, 1, 0, 1, false,
    [⟨31, 31, .ro, 1, .none⟩, ⟨30, 30, .w1c, 0, .none⟩, ⟨29, 29, .w1c, 0, .none⟩, ⟨20, 0, .ro, 0, .none⟩]⟩,
  -- TREE_REPLAN_LATE
  ⟨0x130, 0, 1, 0, 1, false,
    [⟨31, 0, .rc, 0, .none⟩]⟩,
  -- TREE_LOG_STALL
  ⟨0x134, 0, 1, 0, 1, false,
    [⟨31, 0, .rc, 0, .none⟩]⟩,
  -- TREE_LASER
  ⟨0x200, 4, 32, 0, 1, false,
    [⟨31, 28, .ro, 0, .none⟩, ⟨27, 27, .ro, 0, .none⟩, ⟨23, 20, .ro, 0, .none⟩, ⟨19, 0, .ro, 0, .none⟩]⟩]

/-- Register tables of the HIDE block, part 0. -/
def regsHide0 : List RegDesc := [
  -- HIDE_CTRL
  ⟨0x0, 0, 1, 0, 1, false,
    [⟨2, 1, .sh, 1, .block⟩, ⟨0, 0, .rw, 0, .block⟩]⟩,
  -- HIDE_GRID
  ⟨0x4, 0, 1, 0, 1, false,
    [⟨27, 16, .cfg, 0x800, .block⟩, ⟨11, 0, .cfg, 0x800, .block⟩]⟩,
  -- HIDE_ORIGIN_X
  ⟨0x8, 0, 1, 0, 1, false,
    [⟨31, 0, .cfg, 0, .block⟩]⟩,
  -- HIDE_ORIGIN_Y
  ⟨0xC, 0, 1, 0, 1, false,
    [⟨31, 0, .cfg, 0, .block⟩]⟩,
  -- HIDE_PITCH
  ⟨0x10, 0, 1, 0, 1, false,
    [⟨31, 0, .cfg, 0x1f40, .block⟩]⟩,
  -- HIDE_BASE
  ⟨0x14, 0, 1, 0, 1, false,
    [⟨15, 0, .sh, 0x174b, .block⟩]⟩,
  -- HIDE_COOL
  ⟨0x18, 0, 1, 0, 1, false,
    [⟨15, 0, .sh, 0, .block⟩]⟩,
  -- HIDE_COND
  ⟨0x1C, 0, 1, 0, 1, false,
    [⟨15, 0, .sh, 0, .block⟩]⟩,
  -- HIDE_SWEEP_INT
  ⟨0x20, 0, 1, 0, 1, false,
    [⟨23, 0, .sh, 0x3e8, .block⟩]⟩,
  -- HIDE_COUPLE
  ⟨0x24, 0, 1, 0, 1, false,
    [⟨15, 0, .sh, 0, .block⟩]⟩,
  -- HIDE_ASSIM_GAIN
  ⟨0x28, 0, 1, 0, 1, false,
    [⟨15, 0, .sh, 0, .block⟩]⟩,
  -- HIDE_ASSIM_Q
  ⟨0x2C, 0, 1, 0, 1, true,
    [⟨31, 0, .rw, 0, .block⟩]⟩,
  -- HIDE_EVQ
  ⟨0x30, 0, 1, 0, 1, true,
    [⟨31, 0, .rw, 0, .block⟩]⟩,
  -- HIDE_CURVE_IDX
  ⟨0x34, 0, 1, 0, 1, false,
    [⟨19, 16, .sh, 7, .block⟩, ⟨15, 0, .sh, 0x174b, .block⟩]⟩,
  -- HIDE_ARCH_BASE_LO
  ⟨0x38, 0, 1, 0, 1, false,
    [⟨31, 6, .cfg, 0, .block⟩]⟩,
  -- HIDE_ARCH_BASE_HI
  ⟨0x3C, 0, 1, 0, 1, false,
    [⟨31, 0, .cfg, 0, .block⟩]⟩,
  -- HIDE_ARCH_SLOTS
  ⟨0x40, 0, 1, 0, 1, false,
    [⟨15, 0, .cfg, 0, .block⟩]⟩,
  -- HIDE_STATUS
  ⟨0x48, 0, 1, 0, 1, false,
    [⟨31, 16, .ro, 0, .block⟩, ⟨5, 5, .ro, 0, .none⟩, ⟨4, 4, .ro, 0, .none⟩, ⟨3, 3, .w1c, 0, .none⟩, ⟨2, 1, .ro, 0, .none⟩, ⟨0, 0, .ro, 0, .none⟩]⟩,
  -- HIDE_SWEEP_LATE
  ⟨0x4C, 0, 1, 0, 1, false,
    [⟨31, 0, .rc, 0, .none⟩]⟩,
  -- HIDE_OUTSIDE
  ⟨0x50, 0, 1, 0, 1, false,
    [⟨31, 0, .rc, 0, .none⟩]⟩]

/-- Register tables of the HIDE block, part 1. -/
def regsHide1 : List RegDesc := [
  -- HIDE_ASSIM_DROP
  ⟨0x54, 0, 1, 0, 1, false,
    [⟨31, 0, .rc, 0, .none⟩]⟩,
  -- HIDE_SWEEP_MIN
  ⟨0x58, 0, 1, 0, 1, false,
    [⟨31, 0, .ro, 0x337, .none⟩]⟩,
  -- HIDE_DEPK
  ⟨0x100, 4, 32, 0, 1, false,
    [⟨31, 0, .sh, 0, .block⟩]⟩,
  -- HIDE_CURVE
  ⟨0x200, 4, 32, 0, 1, false,
    [⟨31, 16, .sh, 0x4000, .block⟩, ⟨15, 0, .sh, 0x4000, .block⟩]⟩]

/-- Register tables of the AWL block, part 0. -/
def regsAwl0 : List RegDesc := [
  -- AWL_CTRL
  ⟨0x0, 0, 1, 0, 1, false,
    [⟨6, 6, .sh, 0, .block⟩, ⟨5, 5, .sh, 0, .block⟩, ⟨4, 4, .sh, 0, .block⟩, ⟨2, 2, .cfg, 0, .block⟩, ⟨1, 1, .cfg, 0, .block⟩, ⟨0, 0, .cfg, 0, .block⟩]⟩,
  -- AWL_CMD
  ⟨0x4, 0, 1, 0, 1, false,
    [⟨1, 0, .wo, 0, .none⟩]⟩,
  -- AWL_STATUS
  ⟨0x8, 0, 1, 0, 1, false,
    [⟨31, 28, .ro, 0, .none⟩, ⟨27, 26, .ro, 0, .none⟩, ⟨25, 25, .ro, 0, .none⟩, ⟨24, 22, .ro, 0, .none⟩, ⟨7, 0, .ro, 0, .none⟩]⟩,
  -- AWL_ORIGIN_X
  ⟨0xC, 0, 1, 0, 1, false,
    [⟨31, 0, .cfg, 0, .block⟩]⟩,
  -- AWL_ORIGIN_Y
  ⟨0x10, 0, 1, 0, 1, false,
    [⟨31, 0, .cfg, 0, .block⟩]⟩,
  -- AWL_LIMIT_XMIN
  ⟨0x14, 0, 1, 0, 1, false,
    [⟨23, 0, .cfg, 0x800000, .block⟩]⟩,
  -- AWL_LIMIT_YMIN
  ⟨0x18, 0, 1, 0, 1, false,
    [⟨23, 0, .cfg, 0x800000, .block⟩]⟩,
  -- AWL_LIMIT_XMAX
  ⟨0x1C, 0, 1, 0, 1, false,
    [⟨23, 0, .cfg, 0x7fffff, .block⟩]⟩,
  -- AWL_LIMIT_YMAX
  ⟨0x20, 0, 1, 0, 1, false,
    [⟨23, 0, .cfg, 0x7fffff, .block⟩]⟩,
  -- AWL_ACC
  ⟨0x24, 0, 1, 0, 1, false,
    [⟨31, 0, .sh, 0, .block⟩]⟩,
  -- AWL_JERK
  ⟨0x28, 0, 1, 0, 1, false,
    [⟨31, 0, .sh, 0, .block⟩]⟩,
  -- AWL_LAG
  ⟨0x2C, 0, 1, 0, 1, false,
    [⟨11, 0, .sh, 0, .block⟩]⟩,
  -- AWL_GATE
  ⟨0x30, 0, 1, 0, 1, false,
    [⟨27, 16, .sh, 0, .block⟩, ⟨11, 0, .sh, 0, .block⟩]⟩,
  -- AWL_GATE_TRIM
  ⟨0x34, 0, 1, 0, 1, false,
    [⟨31, 16, .sh, 0, .block⟩, ⟨15, 0, .sh, 0, .block⟩]⟩,
  -- AWL_CORNER
  ⟨0x38, 0, 1, 0, 1, false,
    [⟨15, 0, .sh, 0, .block⟩]⟩,
  -- AWL_CORR_A
  ⟨0x3C, 0, 1, 0, 1, true,
    [⟨31, 0, .cfg, 0, .block⟩]⟩,
  -- AWL_CORR_B
  ⟨0x40, 0, 1, 0, 1, true,
    [⟨31, 0, .cfg, 0, .block⟩]⟩,
  -- AWL_STROKEQ
  ⟨0x44, 0, 1, 0, 1, true,
    [⟨31, 0, .cfg, 0, .block⟩]⟩,
  -- AWL_CORR_SHIFT
  ⟨0x48, 0, 1, 0, 1, false,
    [⟨23, 0, .sh, 0x12, .block⟩]⟩,
  -- AWL_Z_OFS
  ⟨0x4C, 0, 1, 0, 1, false,
    [⟨23, 0, .sh, 0, .block⟩]⟩]

/-- Register tables of the AWL block, part 1. -/
def regsAwl1 : List RegDesc := [
  -- AWL_GOTO_X
  ⟨0x50, 0, 1, 0, 1, false,
    [⟨31, 0, .rw, 0, .block⟩]⟩,
  -- AWL_GOTO_Y
  ⟨0x54, 0, 1, 0, 1, false,
    [⟨31, 0, .rw, 0, .block⟩]⟩,
  -- AWL_GOTO_SPEED
  ⟨0x58, 0, 1, 0, 1, false,
    [⟨31, 0, .rw, 0, .block⟩]⟩,
  -- AWL_POS_X
  ⟨0x5C, 0, 1, 0, 1, false,
    [⟨31, 0, .ro, 0, .none⟩]⟩,
  -- AWL_POS_Y
  ⟨0x60, 0, 1, 0, 1, false,
    [⟨31, 0, .ro, 0, .none⟩]⟩,
  -- AWL_UNDERRUN_CNT
  ⟨0x64, 0, 1, 0, 1, false,
    [⟨31, 0, .rc, 0, .none⟩]⟩,
  -- AWL_DEFER_CNT
  ⟨0x68, 0, 1, 0, 1, false,
    [⟨31, 0, .rc, 0, .none⟩]⟩,
  -- AWL_SHORT_CNT
  ⟨0x6C, 0, 1, 0, 1, false,
    [⟨31, 0, .rc, 0, .none⟩]⟩,
  -- AWL_ARC_SLOW_CNT
  ⟨0x70, 0, 1, 0, 1, false,
    [⟨31, 0, .rc, 0, .none⟩]⟩]

/-- Register tables of the REIN block, part 0. -/
def regsRein0 : List RegDesc := [
  -- REIN_CTRL
  ⟨0x0, 0, 1, 0, 1, false,
    [⟨13, 12, .cfg, 0, .block⟩, ⟨11, 8, .cfg, 4, .block⟩, ⟨7, 5, .cfg, 0, .block⟩, ⟨4, 3, .cfg, 0, .block⟩, ⟨2, 1, .cfg, 0, .block⟩, ⟨0, 0, .cfg, 0, .block⟩]⟩,
  -- REIN_CMD
  ⟨0x4, 0, 1, 0, 1, false,
    [⟨0, 0, .wo, 0, .none⟩]⟩,
  -- REIN_STATUS
  ⟨0x8, 0, 1, 0, 1, false,
    [⟨31, 29, .ro, 0, .none⟩, ⟨28, 27, .ro, 0, .none⟩, ⟨26, 26, .ro, 0, .none⟩, ⟨5, 5, .w1c, 0, .none⟩, ⟨4, 4, .w1c, 0, .none⟩, ⟨3, 3, .w1c, 0, .none⟩, ⟨2, 2, .w1c, 0, .none⟩, ⟨1, 1, .w1c, 0, .none⟩, ⟨0, 0, .w1c, 0, .none⟩]⟩,
  -- REIN_TRIM_CFG
  ⟨0xC, 0, 1, 0, 1, false,
    [⟨31, 16, .sh, 0x8000, .block⟩, ⟨15, 0, .sh, 0, .block⟩]⟩,
  -- REIN_TRIM_MAX
  ⟨0x10, 0, 1, 0, 1, false,
    [⟨15, 0, .sh, 0x1000, .block⟩]⟩,
  -- REIN_TRIM_LOAD
  ⟨0x14, 0, 1, 0, 1, false,
    [⟨15, 0, .rw, 0, .block⟩]⟩,
  -- REIN_TRIM_STATE
  ⟨0x18, 0, 1, 0, 1, false,
    [⟨31, 0, .ro, 0, .none⟩]⟩,
  -- REIN_FE
  ⟨0x1C, 0, 1, 0, 1, false,
    [⟨31, 16, .sh, 0x3e8, .block⟩, ⟨15, 0, .sh, 0xffff, .block⟩]⟩,
  -- REIN_FB
  ⟨0x20, 0, 1, 0, 1, false,
    [⟨31, 16, .sh, 0x40, .block⟩, ⟨15, 0, .sh, 4, .block⟩]⟩,
  -- REIN_SP_OFS
  ⟨0x24, 0, 1, 0, 1, false,
    [⟨15, 0, .sh, 0, .block⟩]⟩,
  -- REIN_SP_GAIN
  ⟨0x28, 0, 1, 0, 1, false,
    [⟨31, 0, .sh, 0x10000, .block⟩]⟩,
  -- REIN_RAMP
  ⟨0x2C, 0, 1, 0, 1, false,
    [⟨15, 0, .sh, 0, .block⟩]⟩,
  -- REIN_MINSIG
  ⟨0x30, 0, 1, 0, 1, false,
    [⟨15, 0, .sh, 0, .block⟩]⟩,
  -- REIN_STATQ
  ⟨0x34, 0, 1, 0, 1, true,
    [⟨31, 0, .rw, 0, .block⟩]⟩,
  -- REIN_CEILING
  ⟨0x38, 0, 1, 0, 1, false,
    [⟨19, 0, .gd, 0, .block⟩]⟩,
  -- REIN_THR_CEIL
  ⟨0x3C, 0, 1, 0, 1, false,
    [⟨15, 0, .ro, 0xffff, .none⟩]⟩,
  -- REIN_MEAS
  ⟨0x40, 0, 1, 0, 1, false,
    [⟨31, 16, .ro, 0, .none⟩, ⟨15, 0, .ro, 0, .none⟩]⟩,
  -- REIN_POWER
  ⟨0x44, 0, 1, 0, 1, false,
    [⟨31, 16, .ro, 0, .none⟩, ⟨15, 0, .ro, 0, .none⟩]⟩,
  -- REIN_SWITCH_CNT
  ⟨0x48, 0, 1, 0, 1, false,
    [⟨31, 0, .rc, 0, .none⟩]⟩,
  -- REIN_DWELL_CNT
  ⟨0x4C, 0, 1, 0, 1, false,
    [⟨31, 0, .rc, 0, .none⟩]⟩]

/-- Register tables of the REIN block, part 1. -/
def regsRein1 : List RegDesc := [
  -- REIN_SEQ_GAP
  ⟨0x50, 0, 1, 0, 1, false,
    [⟨31, 0, .rc, 0, .none⟩]⟩,
  -- REIN_STAT_SKIP
  ⟨0x54, 0, 1, 0, 1, false,
    [⟨31, 0, .rc, 0, .none⟩]⟩,
  -- REIN_CLIP_CNT
  ⟨0x58, 0, 1, 0, 1, false,
    [⟨31, 0, .rc, 0, .none⟩]⟩,
  -- REIN_RATIO_LUT
  ⟨0x100, 4, 33, 0, 1, false,
    [⟨31, 16, .sh, 0, .block⟩, ⟨15, 0, .sh, 0, .block⟩]⟩,
  -- REIN_TRC_CTRL
  ⟨0x400, 64, 4, 0, 1, false,
    [⟨31, 31, .w1s, 0, .none⟩, ⟨30, 30, .w1s, 0, .none⟩, ⟨29, 29, .w1s, 0, .none⟩, ⟨28, 28, .rw, 0, .block⟩, ⟨18, 16, .rw, 0, .block⟩, ⟨15, 0, .rw, 0, .block⟩]⟩,
  -- REIN_TRC_TRIG
  ⟨0x404, 64, 4, 0, 1, false,
    [⟨7, 4, .rw, 0, .block⟩, ⟨3, 0, .rw, 0, .block⟩]⟩,
  -- REIN_TRC_LEVEL
  ⟨0x408, 64, 4, 0, 1, false,
    [⟨31, 0, .rw, 0, .block⟩]⟩,
  -- REIN_TRC_DEPTH
  ⟨0x40C, 64, 4, 0, 1, false,
    [⟨31, 16, .rw, 0, .block⟩, ⟨9, 0, .rw, 0, .block⟩]⟩,
  -- REIN_TRC_Q
  ⟨0x410, 64, 4, 0, 1, true,
    [⟨31, 0, .rw, 0, .block⟩]⟩,
  -- REIN_TRC_STATUS
  ⟨0x414, 64, 4, 0, 1, false,
    [⟨31, 30, .ro, 0, .none⟩, ⟨15, 0, .rc, 0, .none⟩]⟩]

/-- Register tables of the IMG block, part 0. -/
def regsImg0 : List RegDesc := [
  -- IMG_CTRL
  ⟨0x0, 0, 1, 0, 1, false,
    [⟨8, 8, .rw, 0, .block⟩, ⟨3, 0, .rw, 0, .block⟩]⟩,
  -- IMG_COMMIT
  ⟨0x4, 0, 1, 0, 1, false,
    [⟨13, 13, .w1s, 0, .none⟩, ⟨12, 12, .w1s, 0, .none⟩, ⟨11, 8, .w1s, 0, .none⟩, ⟨3, 0, .w1s, 0, .none⟩]⟩,
  -- IMG_STATUS
  ⟨0x8, 0, 1, 0, 1, false,
    [⟨18, 18, .w1c, 0, .none⟩, ⟨17, 17, .w1c, 0, .none⟩, ⟨16, 16, .w1c, 0, .none⟩, ⟨15, 15, .ro, 0, .none⟩, ⟨10, 8, .ro, 0, .none⟩, ⟨3, 0, .ro, 0, .none⟩]⟩,
  -- IMG_EVQ
  ⟨0xC, 0, 1, 0, 1, true,
    [⟨31, 0, .rw, 0, .block⟩]⟩,
  -- IMG_SRC
  ⟨0x100, 256, 4, 0, 1, false,
    [⟨17, 16, .cfg, 0, .block⟩, ⟨15, 8, .cfg, 0, .block⟩, ⟨5, 0, .cfg, 0, .block⟩]⟩,
  -- IMG_TRIG
  ⟨0x104, 256, 4, 0, 1, false,
    [⟨31, 16, .cfg, 0, .block⟩, ⟨15, 0, .cfg, 0xa, .block⟩]⟩,
  -- IMG_DEADLINE
  ⟨0x108, 256, 4, 0, 1, false,
    [⟨15, 0, .pipe, 0xa, .block⟩]⟩,
  -- IMG_CAM_EXPO
  ⟨0x10C, 256, 4, 0, 1, false,
    [⟨27, 20, .cam, 0, .block⟩, ⟨19, 0, .cam, 0x500, .block⟩]⟩,
  -- IMG_CAM_ROI
  ⟨0x110, 256, 4, 0, 1, false,
    [⟨27, 16, .cam, 0, .block⟩, ⟨11, 0, .cam, 0, .block⟩]⟩,
  -- IMG_CAM_SIZE
  ⟨0x114, 256, 4, 0, 1, false,
    [⟨27, 16, .cam, 0, .block⟩, ⟨11, 0, .cam, 0, .block⟩]⟩,
  -- IMG_CAM_ID
  ⟨0x118, 256, 4, 0, 1, false,
    [⟨23, 16, .ro, 0, .none⟩, ⟨15, 8, .ro, 0, .none⟩, ⟨7, 0, .ro, 0, .none⟩]⟩,
  -- IMG_SIZE
  ⟨0x11C, 256, 4, 0, 1, false,
    [⟨31, 28, .pipe, 0, .block⟩, ⟨27, 16, .pipe, 0x40, .block⟩, ⟨11, 0, .pipe, 0x40, .block⟩]⟩,
  -- IMG_BLACK01
  ⟨0x120, 256, 4, 0, 1, false,
    [⟨31, 16, .pipe, 0, .block⟩, ⟨15, 0, .pipe, 0, .block⟩]⟩,
  -- IMG_BLACK23
  ⟨0x124, 256, 4, 0, 1, false,
    [⟨31, 16, .pipe, 0, .block⟩, ⟨15, 0, .pipe, 0, .block⟩]⟩,
  -- IMG_OB
  ⟨0x128, 256, 4, 0, 1, false,
    [⟨31, 31, .pipe, 0, .block⟩, ⟨15, 0, .pipe, 0x1000, .block⟩]⟩,
  -- IMG_DPC
  ⟨0x12C, 256, 4, 0, 1, false,
    [⟨31, 31, .pipe, 0, .block⟩, ⟨27, 16, .pipe, 0, .block⟩, ⟨10, 0, .pipe, 0, .block⟩]⟩,
  -- IMG_SEG
  ⟨0x130, 256, 4, 0, 1, false,
    [⟨23, 16, .pipe, 0, .block⟩, ⟨15, 0, .pipe, 0xffff, .block⟩]⟩,
  -- IMG_HIST
  ⟨0x134, 256, 4, 0, 1, false,
    [⟨19, 16, .pipe, 0, .block⟩, ⟨15, 0, .pipe, 0, .block⟩]⟩,
  -- IMG_MINSIG
  ⟨0x138, 256, 4, 0, 1, false,
    [⟨15, 0, .pipe, 0, .block⟩]⟩,
  -- IMG_ASSIM
  ⟨0x13C, 256, 4, 0, 1, false,
    [⟨31, 31, .pipe, 0, .block⟩, ⟨23, 0, .pipe, 0, .block⟩]⟩]

/-- Register tables of the IMG block, part 1. -/
def regsImg1 : List RegDesc := [
  -- IMG_RETAIN
  ⟨0x140, 256, 4, 0, 1, false,
    [⟨18, 18, .pipe, 0, .block⟩, ⟨17, 16, .pipe, 0, .block⟩, ⟨15, 0, .pipe, 0, .block⟩]⟩,
  -- IMG_CROP_XY
  ⟨0x144, 256, 4, 0, 1, false,
    [⟨27, 16, .pipe, 0, .block⟩, ⟨11, 0, .pipe, 0, .block⟩]⟩,
  -- IMG_CROP_WH
  ⟨0x148, 256, 4, 0, 1, false,
    [⟨27, 16, .pipe, 0, .block⟩, ⟨11, 0, .pipe, 0, .block⟩]⟩,
  -- IMG_DPC_MAP
  ⟨0x150, 256, 4, 0, 1, true,
    [⟨31, 0, .pipe, 0, .block⟩]⟩,
  -- IMG_SHADE
  ⟨0x154, 256, 4, 0, 1, true,
    [⟨31, 0, .pipe, 0, .block⟩]⟩,
  -- IMG_TLUT
  ⟨0x158, 256, 4, 0, 1, true,
    [⟨31, 0, .pipe, 0, .block⟩]⟩,
  -- IMG_STATQ
  ⟨0x15C, 256, 4, 0, 1, true,
    [⟨31, 0, .pipe, 0, .block⟩]⟩,
  -- IMG_ASSIM_Q
  ⟨0x160, 256, 4, 0, 1, true,
    [⟨31, 0, .pipe, 0, .block⟩]⟩,
  -- IMG_RETAIN_Q
  ⟨0x164, 256, 4, 0, 1, true,
    [⟨31, 0, .pipe, 0, .block⟩]⟩,
  -- IMG_FRAME_CNT
  ⟨0x180, 256, 4, 0, 1, false,
    [⟨31, 0, .rc, 0, .none⟩]⟩,
  -- IMG_FLAG_CNT
  ⟨0x184, 256, 4, 0, 1, false,
    [⟨31, 0, .rc, 0, .none⟩]⟩,
  -- IMG_MISMATCH
  ⟨0x188, 256, 4, 0, 1, false,
    [⟨31, 0, .rc, 0, .none⟩]⟩,
  -- IMG_GAP_CNT
  ⟨0x18C, 256, 4, 0, 1, false,
    [⟨31, 0, .rc, 0, .none⟩]⟩,
  -- IMG_DPC_CNT
  ⟨0x190, 256, 4, 0, 1, false,
    [⟨31, 0, .rc, 0, .none⟩]⟩,
  -- IMG_STAT_REFUSED
  ⟨0x194, 256, 4, 0, 1, false,
    [⟨31, 0, .rc, 0, .none⟩]⟩,
  -- IMG_ASSIM_REFUSED
  ⟨0x198, 256, 4, 0, 1, false,
    [⟨31, 0, .rc, 0, .none⟩]⟩,
  -- IMG_RETAIN_DROP
  ⟨0x19C, 256, 4, 0, 1, false,
    [⟨31, 0, .rc, 0, .none⟩]⟩,
  -- IMG_BED_SRC
  ⟨0x800, 0, 1, 0, 1, false,
    [⟨5, 0, .cfg, 0, .block⟩]⟩,
  -- IMG_BED_CMD
  ⟨0x804, 0, 1, 0, 1, false,
    [⟨31, 16, .rw, 0, .block⟩, ⟨15, 15, .w1s, 0, .block⟩, ⟨14, 0, .rw, 0, .block⟩]⟩,
  -- IMG_BED_OUT
  ⟨0x808, 0, 1, 0, 1, true,
    [⟨31, 0, .rw, 0, .block⟩]⟩]

/-- Register tables of the IMG block, part 2. -/
def regsImg2 : List RegDesc := [
  -- IMG_BED_CAM_EXPO
  ⟨0x900, 0, 1, 0, 1, false,
    [⟨27, 20, .cam, 0, .block⟩, ⟨19, 0, .cam, 0x500, .block⟩]⟩,
  -- IMG_BED_CAM_ROI
  ⟨0x904, 0, 1, 0, 1, false,
    [⟨27, 16, .cam, 0, .block⟩, ⟨11, 0, .cam, 0, .block⟩]⟩,
  -- IMG_BED_CAM_SIZE
  ⟨0x908, 0, 1, 0, 1, false,
    [⟨27, 16, .cam, 0, .block⟩, ⟨11, 0, .cam, 0, .block⟩]⟩,
  -- IMG_BED_CAM_ID
  ⟨0x90C, 0, 1, 0, 1, false,
    [⟨23, 16, .ro, 0, .none⟩, ⟨15, 8, .ro, 0, .none⟩, ⟨7, 0, .ro, 0, .none⟩]⟩,
  -- IMG_BED_SIZE
  ⟨0x910, 0, 1, 0, 1, false,
    [⟨31, 28, .pipe, 0, .block⟩, ⟨27, 16, .pipe, 0x40, .block⟩, ⟨11, 0, .pipe, 0x40, .block⟩]⟩,
  -- IMG_BED_BLACK01
  ⟨0x914, 0, 1, 0, 1, false,
    [⟨31, 16, .pipe, 0, .block⟩, ⟨15, 0, .pipe, 0, .block⟩]⟩,
  -- IMG_BED_BLACK23
  ⟨0x918, 0, 1, 0, 1, false,
    [⟨31, 16, .pipe, 0, .block⟩, ⟨15, 0, .pipe, 0, .block⟩]⟩,
  -- IMG_BED_OB
  ⟨0x91C, 0, 1, 0, 1, false,
    [⟨31, 31, .pipe, 0, .block⟩, ⟨15, 0, .pipe, 0x1000, .block⟩]⟩,
  -- IMG_BED_DPC
  ⟨0x920, 0, 1, 0, 1, false,
    [⟨31, 31, .pipe, 0, .block⟩, ⟨27, 16, .pipe, 0, .block⟩, ⟨10, 0, .pipe, 0, .block⟩]⟩,
  -- IMG_BED_SEG
  ⟨0x924, 0, 1, 0, 1, false,
    [⟨23, 16, .pipe, 0, .block⟩, ⟨15, 0, .pipe, 0xffff, .block⟩]⟩,
  -- IMG_BED_HIST
  ⟨0x928, 0, 1, 0, 1, false,
    [⟨19, 16, .pipe, 0, .block⟩, ⟨15, 0, .pipe, 0, .block⟩]⟩,
  -- IMG_BED_MINSIG
  ⟨0x92C, 0, 1, 0, 1, false,
    [⟨15, 0, .pipe, 0, .block⟩]⟩,
  -- IMG_BED_ASSIM
  ⟨0x930, 0, 1, 0, 1, false,
    [⟨31, 31, .pipe, 0, .block⟩, ⟨23, 0, .pipe, 0, .block⟩]⟩,
  -- IMG_BED_RETAIN
  ⟨0x934, 0, 1, 0, 1, false,
    [⟨18, 18, .pipe, 0, .block⟩, ⟨17, 16, .pipe, 0, .block⟩, ⟨15, 0, .pipe, 0, .block⟩]⟩,
  -- IMG_BED_CROP_XY
  ⟨0x938, 0, 1, 0, 1, false,
    [⟨27, 16, .pipe, 0, .block⟩, ⟨11, 0, .pipe, 0, .block⟩]⟩,
  -- IMG_BED_CROP_WH
  ⟨0x93C, 0, 1, 0, 1, false,
    [⟨27, 16, .pipe, 0, .block⟩, ⟨11, 0, .pipe, 0, .block⟩]⟩,
  -- IMG_BED_DPC_MAP
  ⟨0x944, 0, 1, 0, 1, true,
    [⟨31, 0, .pipe, 0, .block⟩]⟩,
  -- IMG_BED_SHADE
  ⟨0x948, 0, 1, 0, 1, true,
    [⟨31, 0, .pipe, 0, .block⟩]⟩]

/-- Register tables of the AXIS block, part 0. -/
def regsAxis0 : List RegDesc := [
  -- AXIS_CTRL
  ⟨0x0, 0, 1, 0, 1, false,
    [⟨8, 8, .cfg, 0, .block⟩, ⟨7, 6, .cfg, 1, .block⟩, ⟨5, 5, .cfg, 0, .block⟩, ⟨4, 4, .cfg, 0, .block⟩, ⟨3, 3, .cfg, 0, .block⟩, ⟨2, 2, .cfg, 0, .block⟩, ⟨1, 1, .cfg, 0, .block⟩, ⟨0, 0, .sh, 0, .block⟩]⟩,
  -- AXIS_CMD
  ⟨0x4, 0, 1, 0, 1, false,
    [⟨3, 0, .wo, 0, .none⟩]⟩,
  -- AXIS_STATUS
  ⟨0x8, 0, 1, 0, 1, false,
    [⟨31, 28, .ro, 0, .none⟩, ⟨27, 25, .ro, 0, .none⟩, ⟨24, 24, .ro, 0, .none⟩, ⟨23, 23, .ro, 0, .none⟩, ⟨22, 21, .ro, 1, .none⟩, ⟨7, 0, .ro, 0, .none⟩]⟩,
  -- AXIS_TARGET
  ⟨0xC, 0, 1, 0, 1, false,
    [⟨31, 0, .rw, 0, .block⟩]⟩,
  -- AXIS_SETPOS
  ⟨0x10, 0, 1, 0, 1, false,
    [⟨31, 0, .rw, 0, .block⟩]⟩,
  -- AXIS_VMAX
  ⟨0x14, 0, 1, 0, 1, false,
    [⟨31, 0, .sh, 0, .block⟩]⟩,
  -- AXIS_ACC
  ⟨0x18, 0, 1, 0, 1, false,
    [⟨31, 0, .sh, 0, .block⟩]⟩,
  -- AXIS_JERK
  ⟨0x1C, 0, 1, 0, 1, false,
    [⟨31, 0, .sh, 0, .block⟩]⟩,
  -- AXIS_EDEC
  ⟨0x20, 0, 1, 0, 1, false,
    [⟨31, 0, .sh, 0x1000000, .block⟩]⟩,
  -- AXIS_SOFT_MIN
  ⟨0x24, 0, 1, 0, 1, false,
    [⟨31, 0, .cfg, 0xf8000000, .block⟩]⟩,
  -- AXIS_SOFT_MAX
  ⟨0x28, 0, 1, 0, 1, false,
    [⟨31, 0, .cfg, 0x7ffffff, .block⟩]⟩,
  -- AXIS_POS
  ⟨0x2C, 0, 1, 0, 1, false,
    [⟨31, 0, .ro, 0, .none⟩]⟩,
  -- AXIS_VEL
  ⟨0x30, 0, 1, 0, 1, false,
    [⟨31, 0, .ro, 0, .none⟩]⟩,
  -- AXIS_ENC
  ⟨0x34, 0, 1, 0, 1, false,
    [⟨31, 0, .ro, 0, .none⟩]⟩,
  -- AXIS_DRIVE
  ⟨0x38, 0, 1, 0, 1, false,
    [⟨27, 16, .ro, 0, .none⟩, ⟨9, 0, .ro, 0, .none⟩]⟩,
  -- AXIS_ENC_SCALE
  ⟨0x3C, 0, 1, 0, 1, false,
    [⟨31, 0, .cfg, 0x10000, .block⟩]⟩,
  -- AXIS_ENC_WIN
  ⟨0x40, 0, 1, 0, 1, false,
    [⟨31, 0, .sh, 0, .block⟩]⟩,
  -- AXIS_CURRENT
  ⟨0x44, 0, 1, 0, 1, false,
    [⟨27, 16, .sh, 0, .block⟩, ⟨11, 0, .sh, 0, .block⟩]⟩,
  -- AXIS_LA_LAW
  ⟨0x48, 0, 1, 0, 1, false,
    [⟨25, 16, .sh, 0x100, .block⟩, ⟨9, 0, .sh, 0x40, .block⟩]⟩,
  -- AXIS_SLEW
  ⟨0x4C, 0, 1, 0, 1, false,
    [⟨27, 16, .sh, 0x10, .block⟩, ⟨11, 0, .sh, 0x10, .block⟩]⟩]

/-- Register tables of the AXIS block, part 1. -/
def regsAxis1 : List RegDesc := [
  -- AXIS_STALL
  ⟨0x50, 0, 1, 0, 1, false,
    [⟨31, 16, .sh, 0, .block⟩, ⟨9, 0, .sh, 0xc8, .block⟩]⟩,
  -- AXIS_CHOP
  ⟨0x54, 0, 1, 0, 1, false,
    [⟨15, 8, .cfg, 0x40, .block⟩, ⟨7, 0, .cfg, 0x64, .block⟩]⟩,
  -- AXIS_THR_CEIL
  ⟨0x58, 0, 1, 0, 1, false,
    [⟨11, 0, .ro, 0xfff, .none⟩]⟩,
  -- AXIS_SWCFG
  ⟨0x5C, 0, 1, 0, 1, false,
    [⟨31, 16, .cfg, 0, .block⟩, ⟨11, 0, .cfg, 0, .block⟩]⟩,
  -- AXIS_HOME_CFG
  ⟨0x60, 0, 1, 0, 1, false,
    [⟨27, 16, .cfg, 0, .block⟩, ⟨13, 12, .cfg, 0, .block⟩, ⟨8, 8, .cfg, 0, .block⟩, ⟨7, 0, .cfg, 0, .block⟩]⟩,
  -- AXIS_HOME_SPEED
  ⟨0x64, 0, 1, 0, 1, false,
    [⟨31, 0, .cfg, 0, .block⟩]⟩,
  -- AXIS_HOME_OFS
  ⟨0x68, 0, 1, 0, 1, false,
    [⟨31, 0, .cfg, 0, .block⟩]⟩,
  -- AXIS_HOME_POS
  ⟨0x6C, 0, 1, 0, 1, false,
    [⟨31, 0, .cfg, 0, .block⟩]⟩,
  -- AXIS_CHATTER
  ⟨0x70, 0, 1, 0, 1, false,
    [⟨31, 16, .cfg, 0, .block⟩, ⟨15, 0, .cfg, 0, .block⟩]⟩,
  -- AXIS_CHATTER_CNT
  ⟨0x74, 0, 1, 0, 1, false,
    [⟨31, 0, .rc, 0, .none⟩]⟩,
  -- AXIS_WAVE_SRC
  ⟨0x78, 0, 1, 0, 1, true,
    [⟨31, 0, .cfg, 0, .block⟩]⟩,
  -- AXIS_WAVE_CMD
  ⟨0x7C, 0, 1, 0, 1, false,
    [⟨31, 31, .w1s, 0, .block⟩, ⟨30, 28, .ro, 0, .block⟩, ⟨1, 0, .cfg, 0, .block⟩]⟩,
  -- AXIS_EVQ
  ⟨0x80, 0, 1, 0, 1, true,
    [⟨31, 0, .cfg, 0, .block⟩]⟩,
  -- AXIS_HOME_LATCH
  ⟨0x84, 0, 1, 0, 1, false,
    [⟨31, 0, .ro, 0, .none⟩]⟩,
  -- AXIS_SKV_CTRL
  ⟨0x200, 0, 1, 0, 1, false,
    [⟨28, 24, .cfg, 0x1f, .block⟩, ⟨20, 16, .cfg, 0x1f, .block⟩, ⟨12, 8, .cfg, 0x1f, .block⟩, ⟨2, 2, .cfg, 0, .block⟩, ⟨1, 0, .cfg, 0, .block⟩]⟩,
  -- AXIS_SKV_PLAT_K
  ⟨0x204, 0, 1, 0, 1, false,
    [⟨31, 0, .cfg, 0, .block⟩]⟩,
  -- AXIS_SKV_DOSE_K
  ⟨0x208, 0, 1, 0, 1, false,
    [⟨31, 0, .cfg, 0, .block⟩]⟩,
  -- AXIS_SKV_DOSE_OFS
  ⟨0x20C, 0, 1, 0, 1, false,
    [⟨31, 0, .cfg, 0, .block⟩]⟩,
  -- AXIS_SKV_PARK
  ⟨0x210, 0, 1, 0, 1, false,
    [⟨31, 0, .cfg, 0, .block⟩]⟩,
  -- AXIS_SKV_END
  ⟨0x214, 0, 1, 0, 1, false,
    [⟨31, 0, .cfg, 0, .block⟩]⟩]

/-- Register tables of the AXIS block, part 2. -/
def regsAxis2 : List RegDesc := [
  -- AXIS_SKV_SPREAD
  ⟨0x218, 0, 1, 0, 1, false,
    [⟨31, 0, .cfg, 0, .block⟩]⟩,
  -- AXIS_SKV_RETURN
  ⟨0x21C, 0, 1, 0, 1, false,
    [⟨31, 0, .cfg, 0, .block⟩]⟩,
  -- AXIS_SKV_SETTLE
  ⟨0x220, 0, 1, 0, 1, false,
    [⟨31, 0, .cfg, 0, .block⟩]⟩,
  -- AXIS_SKV_CMD
  ⟨0x224, 0, 1, 0, 1, false,
    [⟨1, 1, .wo, 0, .none⟩, ⟨0, 0, .wo, 0, .none⟩]⟩,
  -- AXIS_SKV_STATUS
  ⟨0x228, 0, 1, 0, 1, false,
    [⟨20, 20, .ro, 0, .none⟩, ⟨19, 16, .ro, 0, .none⟩, ⟨7, 0, .ro, 0, .none⟩]⟩,
  -- AXIS_SKV_EVQ
  ⟨0x22C, 0, 1, 0, 1, true,
    [⟨31, 0, .rw, 0, .block⟩]⟩]

/-- Register tables of the SB block, part 0. -/
def regsSb0 : List RegDesc := [
  -- SB_CMD
  ⟨0x0, 0, 1, 0, 1, false,
    [⟨31, 31, .w1s, 0, .none⟩, ⟨30, 29, .rw, 0, .block⟩, ⟨28, 28, .rw, 0, .block⟩, ⟨27, 26, .rw, 2, .block⟩, ⟨25, 25, .rw, 0, .block⟩, ⟨24, 16, .rw, 1, .block⟩]⟩,
  -- SB_CMD_ARG
  ⟨0x4, 0, 1, 0, 1, false,
    [⟨31, 0, .rw, 0, .block⟩]⟩,
  -- SB_CMD_STATUS
  ⟨0x8, 0, 1, 0, 1, false,
    [⟨31, 31, .ro, 0, .none⟩, ⟨3, 0, .ro, 0, .none⟩]⟩,
  -- SB_CMD_HANDLE
  ⟨0xC, 0, 1, 0, 1, false,
    [⟨31, 0, .ro, 0, .none⟩]⟩,
  -- SB_CLASS_BUDGET
  ⟨0x10, 4, 4, 0, 1, false,
    [⟨14, 0, .rw, 0, .block⟩]⟩,
  -- SB_CLASS_USED
  ⟨0x20, 4, 4, 0, 1, false,
    [⟨14, 0, .ro, 0, .soft⟩]⟩,
  -- SB_SPILL_BASE_LO
  ⟨0x30, 0, 1, 0, 1, false,
    [⟨31, 20, .cfg, 0, .soft⟩]⟩,
  -- SB_SPILL_BASE_HI
  ⟨0x34, 0, 1, 0, 1, false,
    [⟨31, 0, .cfg, 0, .soft⟩]⟩,
  -- SB_SPILL_SIZE
  ⟨0x38, 0, 1, 0, 1, false,
    [⟨31, 0, .cfg, 0, .soft⟩]⟩,
  -- SB_SCRUB_INT
  ⟨0x3C, 0, 1, 0, 1, false,
    [⟨31, 0, .rw, 0xa, .block⟩]⟩,
  -- SB_EVQ
  ⟨0x40, 0, 1, 0, 1, true,
    [⟨31, 0, .rw, 0, .block⟩]⟩,
  -- SB_APER
  ⟨0x100, 4, 16, 0, 1, true,
    [⟨31, 0, .rw, 0, .soft⟩]⟩,
  -- SB_APER_QST
  ⟨0x140, 4, 16, 0, 1, false,
    [⟨5, 5, .ro, 0, .none⟩, ⟨4, 4, .ro, 0, .none⟩, ⟨3, 0, .ro, 0, .none⟩]⟩,
  -- SB_BANK_CE
  ⟨0x400, 4, 64, 0, 1, false,
    [⟨31, 0, .rc, 0, .none⟩]⟩,
  -- SB_BANK_UE
  ⟨0x500, 4, 64, 0, 1, false,
    [⟨31, 0, .rc, 0, .none⟩]⟩,
  -- SB_BANK_SPARE
  ⟨0x600, 4, 64, 0, 1, false,
    [⟨6, 0, .ro, 0, .all⟩]⟩,
  -- SB_REQ_DELAYED
  ⟨0x1000, 4, 256, 0, 1, false,
    [⟨31, 0, .rc, 0, .none⟩]⟩,
  -- SB_REQ_REFUSED
  ⟨0x1400, 4, 256, 0, 1, false,
    [⟨31, 0, .rc, 0, .none⟩]⟩,
  -- SB_Q_CFG
  ⟨0x10000, 16, 4096, 0, 1, false,
    [⟨31, 31, .rw, 0, .soft⟩, ⟨27, 20, .rw, 0, .soft⟩, ⟨19, 0, .rw, 0, .soft⟩]⟩,
  -- SB_Q_STATUS
  ⟨0x10004, 16, 4096, 0, 1, false,
    [⟨31, 31, .w1c, 0, .none⟩, ⟨30, 30, .w1c, 0, .none⟩, ⟨29, 29, .ro, 0, .soft⟩, ⟨28, 28, .ro, 0, .soft⟩, ⟨27, 0, .ro, 0, .soft⟩]⟩]

/-- Register tables of the SB block, part 1. -/
def regsSb1 : List RegDesc := [
  -- SB_Q_REFUSED
  ⟨0x10008, 16, 4096, 0, 1, false,
    [⟨15, 0, .rc, 0, .none⟩]⟩,
  -- SB_Q_ERRS
  ⟨0x1000C, 16, 4096, 0, 1, false,
    [⟨31, 16, .rc, 0, .none⟩, ⟨15, 0, .rc, 0, .none⟩]⟩]

/-- Register tables of the DMC block, part 0. -/
def regsDmc0 : List RegDesc := [
  -- DMC_CFG
  ⟨0x0, 0, 1, 0, 1, false,
    [⟨31, 31, .rw, 0, .block⟩, ⟨19, 18, .cfg, 2, .block⟩, ⟨17, 16, .cfg, 0, .block⟩, ⟨15, 14, .cfg, 0, .block⟩, ⟨13, 13, .cfg, 0, .block⟩]⟩,
  -- DMC_STATUS
  ⟨0x4, 0, 1, 0, 1, false,
    [⟨31, 28, .ro, 0, .none⟩, ⟨27, 24, .ro, 0, .none⟩, ⟨23, 23, .ro, 0, .none⟩, ⟨21, 20, .ro, 0, .none⟩, ⟨19, 18, .ro, 1, .none⟩, ⟨17, 15, .ro, 0, .none⟩]⟩,
  -- DMC_SIZE
  ⟨0x8, 0, 1, 0, 1, false,
    [⟨16, 0, .ro, 0, .none⟩]⟩,
  -- DMC_SR_IDLE
  ⟨0xC, 0, 1, 0, 1, false,
    [⟨15, 0, .sh, 0x64, .block⟩]⟩,
  -- DMC_PATROL
  ⟨0x10, 0, 1, 0, 1, false,
    [⟨7, 0, .rw, 0x18, .block⟩]⟩,
  -- DMC_EVQ
  ⟨0x14, 0, 1, 0, 1, true,
    [⟨31, 0, .rw, 0, .block⟩]⟩,
  -- DMC_RH_CFG
  ⟨0x18, 0, 1, 0, 1, false,
    [⟨31, 24, .sh, 0x20, .block⟩, ⟨23, 16, .sh, 8, .block⟩, ⟨15, 0, .sh, 0x1000, .block⟩]⟩,
  -- DMC_CE_LAST
  ⟨0x1C, 0, 1, 0, 1, false,
    [⟨9, 8, .ro, 0, .none⟩, ⟨4, 0, .ro, 0, .none⟩]⟩,
  -- DMC_REMAP_USED
  ⟨0x20, 0, 1, 0, 1, false,
    [⟨31, 16, .ro, 0, .none⟩, ⟨8, 0, .ro, 0, .none⟩]⟩,
  -- DMC_CE_CNT
  ⟨0x40, 0, 1, 0, 1, false,
    [⟨31, 0, .rc, 0, .none⟩]⟩,
  -- DMC_UE_CNT
  ⟨0x44, 0, 1, 0, 1, false,
    [⟨31, 0, .rc, 0, .none⟩]⟩,
  -- DMC_POISON_CNT
  ⟨0x48, 0, 1, 0, 1, false,
    [⟨31, 0, .rc, 0, .none⟩]⟩,
  -- DMC_REPLAY_CNT
  ⟨0x4C, 0, 1, 0, 1, false,
    [⟨31, 0, .rc, 0, .none⟩]⟩,
  -- DMC_RMW_CNT
  ⟨0x50, 0, 1, 0, 1, false,
    [⟨31, 0, .rc, 0, .none⟩]⟩,
  -- DMC_ISO_LATE
  ⟨0x54, 0, 1, 0, 1, false,
    [⟨31, 0, .rc, 0, .none⟩]⟩,
  -- DMC_WRITE_LOST
  ⟨0x58, 0, 1, 0, 1, false,
    [⟨31, 0, .rc, 0, .none⟩]⟩,
  -- DMC_POSTPONE_CNT
  ⟨0x5C, 0, 1, 0, 1, false,
    [⟨31, 0, .rc, 0, .none⟩]⟩,
  -- DMC_SR_CNT
  ⟨0x60, 0, 1, 0, 1, false,
    [⟨31, 0, .rc, 0, .none⟩]⟩,
  -- DMC_REPEAT_FULL
  ⟨0x64, 0, 1, 0, 1, false,
    [⟨31, 0, .rc, 0, .none⟩]⟩,
  -- DMC_ISO_CTRL
  ⟨0x100, 32, 8, 0, 1, false,
    [⟨31, 31, .rw, 0, .block⟩, ⟨30, 28, .ro, 0, .none⟩, ⟨23, 16, .rw, 3, .block⟩, ⟨6, 0, .rw, 0, .block⟩]⟩]

/-- Register tables of the DMC block, part 1. -/
def regsDmc1 : List RegDesc := [
  -- DMC_ISO_BASE_LO
  ⟨0x104, 32, 8, 0, 1, false,
    [⟨31, 14, .cfg, 0, .block⟩]⟩,
  -- DMC_ISO_BASE_HI
  ⟨0x108, 32, 8, 0, 1, false,
    [⟨31, 0, .cfg, 0, .block⟩]⟩,
  -- DMC_ISO_RING
  ⟨0x10C, 32, 8, 0, 1, false,
    [⟨31, 0, .cfg, 0, .block⟩]⟩,
  -- DMC_ISO_Q
  ⟨0x110, 32, 8, 0, 1, true,
    [⟨31, 0, .cfg, 0, .block⟩]⟩,
  -- DMC_RH_LOG
  ⟨0x200, 8, 8, 0, 1, false,
    [⟨31, 0, .ro, 0, .none⟩]⟩,
  -- DMC_RH_LOG_W1
  ⟨0x204, 8, 8, 0, 1, false,
    [⟨31, 0, .ro, 0, .none⟩]⟩,
  -- DMC_REPEAT
  ⟨0x400, 8, 64, 0, 1, false,
    [⟨31, 0, .ro, 0, .none⟩]⟩,
  -- DMC_REPEAT_INFO
  ⟨0x404, 8, 64, 0, 1, false,
    [⟨31, 0, .ro, 0, .none⟩]⟩]

/-- Register tables of the LANE block, part 0. -/
def regsLane0 : List RegDesc := [
  -- LANE_CFG
  ⟨0x0, 0, 1, 0, 1, false,
    [⟨31, 31, .rw, 0, .block⟩, ⟨27, 24, .cfg, 0xf, .block⟩, ⟨23, 16, .cfg, 3, .block⟩, ⟨15, 8, .cfg, 0xa, .block⟩, ⟨7, 0, .cfg, 0, .block⟩]⟩,
  -- LANE_CMD
  ⟨0x4, 0, 1, 0, 1, false,
    [⟨2, 0, .wo, 0, .none⟩]⟩,
  -- LANE_STATUS
  ⟨0x8, 0, 1, 0, 1, false,
    [⟨31, 28, .ro, 0, .none⟩, ⟨27, 24, .ro, 0, .none⟩, ⟨23, 22, .ro, 0, .none⟩, ⟨21, 19, .ro, 0, .none⟩, ⟨18, 18, .ro, 0, .none⟩, ⟨17, 16, .ro, 1, .none⟩]⟩,
  -- LANE_HEAD
  ⟨0xC, 0, 1, 0, 1, false,
    [⟨31, 0, .ro, 0, .none⟩]⟩,
  -- LANE_SERIAL_LO
  ⟨0x10, 0, 1, 0, 1, false,
    [⟨31, 0, .ro, 0, .none⟩]⟩,
  -- LANE_SERIAL_HI
  ⟨0x14, 0, 1, 0, 1, false,
    [⟨31, 0, .ro, 0, .none⟩]⟩,
  -- LANE_LAT
  ⟨0x18, 0, 1, 0, 1, false,
    [⟨26, 16, .ro, 0, .none⟩, ⟨10, 0, .ro, 0, .none⟩]⟩,
  -- LANE_TEST
  ⟨0x1C, 0, 1, 0, 1, false,
    [⟨31, 30, .cfg, 0, .block⟩, ⟨25, 24, .cfg, 3, .block⟩, ⟨17, 17, .cfg, 0, .block⟩, ⟨16, 16, .cfg, 0, .block⟩, ⟨9, 8, .cfg, 0, .block⟩, ⟨7, 4, .cfg, 0, .block⟩]⟩,
  -- LANE_HEAD_STAT
  ⟨0x20, 0, 1, 0, 1, false,
    [⟨31, 0, .ro, 0, .none⟩]⟩,
  -- LANE_EVQ
  ⟨0x24, 0, 1, 0, 1, true,
    [⟨31, 0, .rw, 0, .block⟩]⟩,
  -- LANE_CRC_ERR
  ⟨0x40, 0, 1, 0, 1, false,
    [⟨31, 0, .rc, 0, .none⟩]⟩,
  -- LANE_REPLAY
  ⟨0x44, 0, 1, 0, 1, false,
    [⟨31, 0, .rc, 0, .none⟩]⟩,
  -- LANE_MISSED
  ⟨0x48, 0, 1, 0, 1, false,
    [⟨31, 0, .rc, 0, .none⟩]⟩,
  -- LANE_PRBS_ERR
  ⟨0x4C, 0, 1, 0, 1, false,
    [⟨31, 0, .rc, 0, .none⟩]⟩,
  -- LANE_PRBS_BITS
  ⟨0x50, 0, 1, 0, 1, false,
    [⟨31, 0, .rc, 0, .none⟩]⟩,
  -- LANE_RECOVER
  ⟨0x54, 0, 1, 0, 1, false,
    [⟨31, 0, .rc, 0, .none⟩]⟩,
  -- LANE_FORMAT_ERR
  ⟨0x58, 0, 1, 0, 1, false,
    [⟨31, 0, .rc, 0, .none⟩]⟩]

/-- Register tables of the PCIE block, part 0. -/
def regsPcie0 : List RegDesc := [
  -- PCIE_STATUS
  ⟨0x0, 0, 1, 0, 1, false,
    [⟨17, 17, .w1c, 0, .pin⟩, ⟨16, 16, .w1c, 0, .pin⟩, ⟨10, 8, .ro, 0, .none⟩, ⟨7, 4, .ro, 0, .none⟩, ⟨0, 0, .ro, 0, .none⟩]⟩,
  -- PCIE_MSIX_ADDR_LO
  ⟨0x10000, 16, 256, 0, 1, false,
    [⟨31, 2, .rw, 0, .none⟩]⟩,
  -- PCIE_MSIX_ADDR_HI
  ⟨0x10004, 16, 256, 0, 1, false,
    [⟨31, 0, .rw, 0, .none⟩]⟩,
  -- PCIE_MSIX_DATA
  ⟨0x10008, 16, 256, 0, 1, false,
    [⟨31, 0, .rw, 0, .none⟩]⟩,
  -- PCIE_MSIX_CTRL
  ⟨0x1000C, 16, 256, 0, 1, false,
    [⟨0, 0, .rw, 1, .none⟩]⟩,
  -- PCIE_MSIX_PBA
  ⟨0x11000, 4, 8, 0, 1, false,
    [⟨31, 0, .ro, 0, .none⟩]⟩,
  -- PCIE_EG_CFG
  ⟨0x80000, 4096, 2, 0, 1, false,
    [⟨31, 31, .rw, 0, .block⟩, ⟨3, 3, .cfg, 0, .block⟩, ⟨2, 2, .cfg, 0, .block⟩, ⟨1, 0, .cfg, 0, .block⟩]⟩,
  -- PCIE_EG_STATUS
  ⟨0x80004, 4096, 2, 0, 1, false,
    [⟨2, 2, .ro, 0, .none⟩, ⟨1, 0, .ro, 0, .none⟩]⟩,
  -- PCIE_EG_MAC_LO
  ⟨0x80008, 4096, 2, 0, 1, false,
    [⟨31, 0, .cfg, 0, .block⟩]⟩,
  -- PCIE_EG_MAC_HI
  ⟨0x8000C, 4096, 2, 0, 1, false,
    [⟨15, 0, .cfg, 0, .block⟩]⟩,
  -- PCIE_EG_RXQ
  ⟨0x80010, 4096, 2, 0, 1, true,
    [⟨31, 0, .cfg, 0, .block⟩]⟩,
  -- PCIE_EG_TXQ
  ⟨0x80014, 4096, 2, 0, 1, true,
    [⟨31, 0, .cfg, 0, .block⟩]⟩,
  -- PCIE_EG_TXDONEQ
  ⟨0x80018, 4096, 2, 0, 1, true,
    [⟨31, 0, .cfg, 0, .block⟩]⟩,
  -- PCIE_EG_LAT
  ⟨0x8001C, 4096, 2, 0, 1, false,
    [⟨31, 16, .cfg, 0, .block⟩, ⟨15, 0, .cfg, 0, .block⟩]⟩,
  -- PCIE_EG_RX_OK
  ⟨0x80040, 4096, 2, 0, 1, false,
    [⟨31, 0, .rc, 0, .none⟩]⟩,
  -- PCIE_EG_RX_BAD
  ⟨0x80044, 4096, 2, 0, 1, false,
    [⟨31, 0, .rc, 0, .none⟩]⟩,
  -- PCIE_EG_RX_DROP
  ⟨0x80048, 4096, 2, 0, 1, false,
    [⟨31, 0, .rc, 0, .none⟩]⟩,
  -- PCIE_EG_TX_OK
  ⟨0x8004C, 4096, 2, 0, 1, false,
    [⟨31, 0, .rc, 0, .none⟩]⟩]

/-- Register tables of the TIME block, part 0. -/
def regsTime0 : List RegDesc := [
  -- TIME_TB_SEC_LO
  ⟨0x0, 16, 4, 0, 1, false,
    [⟨31, 0, .ro, 0, .soft⟩]⟩,
  -- TIME_TB_SEC_HI
  ⟨0x4, 16, 4, 0, 1, false,
    [⟨31, 0, .ro, 0, .soft⟩]⟩,
  -- TIME_TB_NS
  ⟨0x8, 16, 4, 0, 1, false,
    [⟨31, 0, .ro, 0, .soft⟩]⟩,
  -- TIME_TB_FRAC
  ⟨0xC, 16, 4, 0, 1, false,
    [⟨31, 0, .ro, 0, .soft⟩]⟩,
  -- TIME_SNAP
  ⟨0x40, 0, 1, 0, 1, false,
    [⟨31, 31, .w1s, 0, .none⟩]⟩,
  -- TIME_REF_STATUS
  ⟨0x44, 0, 1, 0, 1, false,
    [⟨31, 31, .ro, 0, .none⟩, ⟨30, 30, .w1c, 0, .none⟩, ⟨29, 0, .ro, 0, .soft⟩]⟩,
  -- TIME_SNAP_SEC_LO
  ⟨0x80, 16, 5, 0, 1, false,
    [⟨31, 0, .ro, 0, .none⟩]⟩,
  -- TIME_SNAP_SEC_HI
  ⟨0x84, 16, 5, 0, 1, false,
    [⟨31, 0, .ro, 0, .none⟩]⟩,
  -- TIME_SNAP_NS
  ⟨0x88, 16, 5, 0, 1, false,
    [⟨31, 0, .ro, 0, .none⟩]⟩,
  -- TIME_SNAP_FRAC
  ⟨0x8C, 16, 5, 0, 1, false,
    [⟨31, 0, .ro, 0, .none⟩]⟩,
  -- TIME_DOM_CFG
  ⟨0x100, 32, 2, 0, 1, false,
    [⟨31, 31, .rw, 0, .block⟩, ⟨30, 16, .sh, 0x3e8, .block⟩, ⟨15, 0, .sh, 0x64, .block⟩]⟩,
  -- TIME_DOM_GAIN
  ⟨0x104, 32, 2, 0, 1, false,
    [⟨31, 16, .sh, 0x4000, .block⟩, ⟨15, 0, .sh, 0x400, .block⟩]⟩,
  -- TIME_DOM_HOLD
  ⟨0x108, 32, 2, 0, 1, false,
    [⟨31, 0, .sh, 0x1e8480, .block⟩]⟩,
  -- TIME_DOM_MEAS_FRAC
  ⟨0x10C, 32, 2, 0, 1, false,
    [⟨15, 0, .wo, 0, .none⟩]⟩,
  -- TIME_DOM_MEAS_NS
  ⟨0x110, 32, 2, 0, 1, false,
    [⟨31, 0, .wo, 0, .none⟩]⟩,
  -- TIME_DOM_STATUS
  ⟨0x114, 32, 2, 0, 1, false,
    [⟨31, 31, .ro, 0, .none⟩, ⟨30, 24, .rc, 0, .none⟩, ⟨23, 0, .ro, 0, .soft⟩]⟩,
  -- TIME_MT_CFG
  ⟨0x140, 0, 1, 0, 1, false,
    [⟨8, 8, .rw, 0, .block⟩, ⟨7, 1, .sh, 0x64, .block⟩, ⟨0, 0, .sh, 0, .block⟩]⟩,
  -- TIME_MT_STATUS
  ⟨0x144, 0, 1, 0, 1, false,
    [⟨2, 2, .ro, 0, .soft⟩, ⟨1, 1, .ro, 0, .soft⟩, ⟨0, 0, .ro, 0, .soft⟩]⟩,
  -- TIME_MT_ERR
  ⟨0x148, 0, 1, 0, 1, false,
    [⟨31, 0, .ro, 0, .none⟩]⟩,
  -- TIME_LATE_MAX
  ⟨0x180, 0, 1, 0, 1, false,
    [⟨15, 0, .sh, 0xa, .block⟩]⟩]

/-- Register tables of the TIME block, part 1. -/
def regsTime1 : List RegDesc := [
  -- TIME_EVQ
  ⟨0x184, 0, 1, 0, 1, true,
    [⟨31, 0, .rw, 0, .block⟩]⟩,
  -- TIME_ACT_CTRL
  ⟨0x10000, 64, 1024, 0, 1, false,
    [⟨31, 31, .w1s, 0, .block⟩, ⟨30, 30, .w1s, 0, .none⟩, ⟨9, 8, .rw, 0, .block⟩, ⟨6, 4, .rw, 3, .block⟩, ⟨3, 0, .rw, 0, .block⟩]⟩,
  -- TIME_ACT_DUE0
  ⟨0x10004, 64, 1024, 0, 1, false,
    [⟨31, 0, .cfg, 0, .block⟩]⟩,
  -- TIME_ACT_DUE1
  ⟨0x10008, 64, 1024, 0, 1, false,
    [⟨31, 0, .cfg, 0, .block⟩]⟩,
  -- TIME_ACT_DUE2
  ⟨0x1000C, 64, 1024, 0, 1, false,
    [⟨31, 0, .cfg, 0, .block⟩]⟩,
  -- TIME_ACT_DUE3
  ⟨0x10010, 64, 1024, 0, 1, false,
    [⟨31, 0, .cfg, 0, .block⟩]⟩,
  -- TIME_ACT_TARGET
  ⟨0x10014, 64, 1024, 0, 1, false,
    [⟨31, 0, .cfg, 0, .block⟩]⟩,
  -- TIME_ACT_VALUE
  ⟨0x10018, 64, 1024, 0, 1, false,
    [⟨31, 0, .cfg, 0, .block⟩]⟩,
  -- TIME_ACT_REPEAT
  ⟨0x1001C, 64, 1024, 0, 1, false,
    [⟨31, 0, .cfg, 0, .block⟩]⟩,
  -- TIME_ACT_STATUS
  ⟨0x10020, 64, 1024, 0, 1, false,
    [⟨31, 16, .ro, 0, .none⟩, ⟨3, 0, .ro, 0, .none⟩]⟩,
  -- TIME_ACT_LATENESS
  ⟨0x10024, 64, 1024, 0, 1, false,
    [⟨31, 0, .ro, 0, .none⟩]⟩]

/-- Register tables of the FBUS block, part 0. -/
def regsFbus0 : List RegDesc := [
  -- FBUS_POINTS
  ⟨0x0, 0, 1, 0, 1, true,
    [⟨31, 0, .cfg, 0, .block⟩]⟩,
  -- FBUS_EVQ
  ⟨0x4, 0, 1, 0, 1, true,
    [⟨31, 0, .rw, 0, .block⟩]⟩,
  -- FBUS_POINT_CNT
  ⟨0x8, 0, 1, 0, 1, false,
    [⟨31, 0, .ro, 0, .block⟩]⟩,
  -- FBUS_SEG_CFG
  ⟨0x10000, 65536, 2, 0, 1, false,
    [⟨31, 31, .rw, 0, .block⟩, ⟨30, 30, .cfg, 1, .block⟩, ⟨29, 29, .cfg, 1, .block⟩, ⟨28, 24, .cfg, 0, .block⟩, ⟨21, 16, .cfg, 8, .block⟩, ⟨7, 0, .cfg, 0x20, .block⟩]⟩,
  -- FBUS_SEG_CYCLE
  ⟨0x10004, 65536, 2, 0, 1, false,
    [⟨31, 16, .sh, 0, .block⟩, ⟨15, 0, .sh, 0x3e8, .block⟩]⟩,
  -- FBUS_SEG_STATUS
  ⟨0x10008, 65536, 2, 0, 1, false,
    [⟨31, 28, .ro, 0, .none⟩, ⟨8, 8, .w1c, 0, .none⟩, ⟨0, 0, .ro, 0, .none⟩]⟩,
  -- FBUS_SEG_MAC_LO
  ⟨0x1000C, 65536, 2, 0, 1, false,
    [⟨31, 0, .cfg, 0, .block⟩]⟩,
  -- FBUS_SEG_MAC_HI
  ⟨0x10010, 65536, 2, 0, 1, false,
    [⟨15, 0, .cfg, 0, .block⟩]⟩,
  -- FBUS_SEG_GROUP_LO
  ⟨0x10014, 65536, 2, 0, 1, false,
    [⟨31, 0, .cfg, 0xffffffff, .block⟩]⟩,
  -- FBUS_SEG_GROUP_HI
  ⟨0x10018, 65536, 2, 0, 1, false,
    [⟨15, 0, .cfg, 0xffff, .block⟩]⟩,
  -- FBUS_SEG_STRQ
  ⟨0x1001C, 65536, 2, 0, 1, true,
    [⟨31, 0, .cfg, 0, .block⟩]⟩,
  -- FBUS_SEG_STRANGER
  ⟨0x10040, 65536, 2, 0, 1, false,
    [⟨31, 0, .rc, 0, .none⟩]⟩,
  -- FBUS_SEG_NONCINCH
  ⟨0x10044, 65536, 2, 0, 1, false,
    [⟨31, 0, .rc, 0, .none⟩]⟩,
  -- FBUS_SEG_FORMAT
  ⟨0x10048, 65536, 2, 0, 1, false,
    [⟨31, 0, .rc, 0, .none⟩]⟩,
  -- FBUS_SEG_LATE_IN
  ⟨0x1004C, 65536, 2, 0, 1, false,
    [⟨31, 0, .rc, 0, .none⟩]⟩,
  -- FBUS_SEG_DUP
  ⟨0x10050, 65536, 2, 0, 1, false,
    [⟨31, 0, .rc, 0, .none⟩]⟩,
  -- FBUS_SEG_COLLISION
  ⟨0x10054, 65536, 2, 0, 1, false,
    [⟨31, 0, .rc, 0, .none⟩]⟩,
  -- FBUS_SEG_NOISE
  ⟨0x10058, 65536, 2, 0, 1, false,
    [⟨31, 0, .rc, 0, .none⟩]⟩,
  -- FBUS_SEG_OUT_SENT
  ⟨0x1005C, 65536, 2, 0, 1, false,
    [⟨31, 0, .rc, 0, .none⟩]⟩,
  -- FBUS_NODE_MAC_LO
  ⟨0x11000, 65536, 2, 32, 32, false,
    [⟨31, 0, .cfg, 0, .block⟩]⟩]

/-- Register tables of the FBUS block, part 1. -/
def regsFbus1 : List RegDesc := [
  -- FBUS_NODE_MAC_HI
  ⟨0x11004, 65536, 2, 32, 32, false,
    [⟨31, 31, .sh, 0, .block⟩, ⟨23, 16, .cfg, 3, .block⟩, ⟨15, 0, .cfg, 0, .block⟩]⟩,
  -- FBUS_NODE_IN
  ⟨0x11008, 65536, 2, 32, 32, false,
    [⟨28, 20, .cfg, 0, .block⟩, ⟨16, 0, .cfg, 0, .block⟩]⟩,
  -- FBUS_NODE_OUT
  ⟨0x1100C, 65536, 2, 32, 32, false,
    [⟨28, 20, .cfg, 0, .block⟩, ⟨16, 0, .cfg, 0, .block⟩]⟩,
  -- FBUS_NODE_STATUS
  ⟨0x11010, 65536, 2, 32, 32, false,
    [⟨31, 31, .ro, 0, .none⟩, ⟨15, 0, .ro, 0, .none⟩]⟩,
  -- FBUS_NODE_NOISE
  ⟨0x11014, 65536, 2, 32, 32, false,
    [⟨31, 0, .rc, 0, .none⟩]⟩,
  -- FBUS_NODE_MISSED
  ⟨0x11018, 65536, 2, 32, 32, false,
    [⟨31, 0, .rc, 0, .none⟩]⟩]

/-- Register tables of the LAMP block, part 0. -/
def regsLamp0 : List RegDesc := [
  -- LAMP_CTRL
  ⟨0x0, 0, 1, 0, 1, false,
    [⟨31, 31, .rw, 0, .block⟩, ⟨30, 30, .cfg, 0, .block⟩, ⟨29, 26, .cfg, 0, .block⟩, ⟨25, 25, .cfg, 0, .block⟩, ⟨24, 24, .cfg, 0, .block⟩, ⟨23, 21, .cfg, 0, .block⟩, ⟨20, 18, .cfg, 1, .block⟩, ⟨17, 17, .cfg, 0, .block⟩, ⟨16, 15, .cfg, 1, .block⟩, ⟨14, 14, .cfg, 0, .block⟩, ⟨13, 13, .cfg, 0, .block⟩, ⟨12, 12, .cfg, 0, .block⟩, ⟨11, 0, .cfg, 0, .block⟩]⟩,
  -- LAMP_TIMING
  ⟨0x4, 0, 1, 0, 1, false,
    [⟨31, 16, .cfg, 0x3e8, .block⟩, ⟨15, 0, .cfg, 0xc80, .block⟩]⟩,
  -- LAMP_DIAG
  ⟨0x8, 0, 1, 0, 1, false,
    [⟨31, 16, .sh, 0x40, .block⟩, ⟨15, 15, .sh, 1, .block⟩, ⟨7, 0, .sh, 1, .block⟩]⟩,
  -- LAMP_SENSE
  ⟨0xC, 0, 1, 0, 1, false,
    [⟨31, 16, .sh, 0xbb8, .block⟩, ⟨7, 0, .sh, 0x80, .block⟩]⟩,
  -- LAMP_CHAIN
  ⟨0x10, 0, 1, 0, 1, false,
    [⟨31, 16, .rw, 0, .block⟩, ⟨12, 8, .rw, 0, .block⟩, ⟨7, 0, .rw, 7, .block⟩]⟩,
  -- LAMP_CMD
  ⟨0x14, 0, 1, 0, 1, false,
    [⟨0, 0, .w1s, 0, .none⟩]⟩,
  -- LAMP_STATUS
  ⟨0x18, 0, 1, 0, 1, false,
    [⟨31, 29, .ro, 0, .none⟩, ⟨28, 28, .ro, 0, .none⟩, ⟨26, 24, .ro, 0, .none⟩]⟩,
  -- LAMP_SEQ
  ⟨0x1C, 0, 1, 0, 1, false,
    [⟨31, 0, .ro, 0, .none⟩]⟩,
  -- LAMP_SEQ_LATCH
  ⟨0x20, 0, 1, 0, 1, false,
    [⟨31, 0, .ro, 0, .none⟩]⟩,
  -- LAMP_THR_CEIL
  ⟨0x24, 0, 1, 0, 1, false,
    [⟨11, 0, .ro, 0xfff, .none⟩]⟩,
  -- LAMP_EVQ
  ⟨0x28, 0, 1, 0, 1, true,
    [⟨31, 0, .rw, 0, .block⟩]⟩,
  -- LAMP_LSYNC_SKIP
  ⟨0x2C, 0, 1, 0, 1, false,
    [⟨31, 0, .rc, 0, .none⟩]⟩,
  -- LAMP_CHAIN_SKIP
  ⟨0x30, 0, 1, 0, 1, false,
    [⟨31, 0, .rc, 0, .none⟩]⟩,
  -- LAMP_COMP
  ⟨0x100, 4, 16, 0, 1, false,
    [⟨31, 16, .sh, 0, .block⟩, ⟨15, 0, .sh, 0x174b, .block⟩]⟩,
  -- LAMP_CH_CFG
  ⟨0x200, 16, 48, 0, 1, false,
    [⟨31, 31, .w1s, 0, .none⟩, ⟨29, 24, .sh, 0, .block⟩, ⟨23, 20, .sh, 0, .block⟩, ⟨18, 16, .sh, 0, .block⟩, ⟨15, 14, .sh, 0, .block⟩, ⟨13, 12, .sh, 1, .block⟩, ⟨11, 0, .sh, 0, .block⟩]⟩,
  -- LAMP_CH_STATE
  ⟨0x204, 16, 48, 0, 1, false,
    [⟨31, 16, .ro, 0, .none⟩, ⟨11, 8, .ro, 0, .none⟩, ⟨2, 0, .ro, 0, .none⟩]⟩,
  -- LAMP_ENG_CFG
  ⟨0x600, 16, 8, 0, 1, false,
    [⟨31, 30, .sh, 0, .block⟩, ⟨29, 16, .sh, 0, .block⟩, ⟨15, 8, .sh, 0, .block⟩, ⟨7, 0, .sh, 0, .block⟩]⟩,
  -- LAMP_ENG_LEVELS
  ⟨0x604, 16, 8, 0, 1, false,
    [⟨31, 16, .sh, 0, .block⟩, ⟨15, 0, .sh, 0, .block⟩]⟩,
  -- LAMP_BIN_M0
  ⟨0x1000, 32, 16, 0, 1, false,
    [⟨31, 16, .sh, 0, .block⟩, ⟨15, 0, .sh, 0x4000, .block⟩]⟩,
  -- LAMP_BIN_M1
  ⟨0x1004, 32, 16, 0, 1, false,
    [⟨31, 16, .sh, 0, .block⟩, ⟨15, 0, .sh, 0, .block⟩]⟩]

/-- Register tables of the LAMP block, part 1. -/
def regsLamp1 : List RegDesc := [
  -- LAMP_BIN_M2
  ⟨0x1008, 32, 16, 0, 1, false,
    [⟨31, 16, .sh, 0, .block⟩, ⟨15, 0, .sh, 0x4000, .block⟩]⟩,
  -- LAMP_BIN_M3
  ⟨0x100C, 32, 16, 0, 1, false,
    [⟨31, 16, .sh, 0, .block⟩, ⟨15, 0, .sh, 0, .block⟩]⟩,
  -- LAMP_BIN_M4
  ⟨0x1010, 32, 16, 0, 1, false,
    [⟨15, 0, .sh, 0x4000, .block⟩]⟩]

/-- Register tables of the PWR block, part 0. -/
def regsPwr0 : List RegDesc := [
  -- PWR_STATE
  ⟨0x0, 0, 1, 0, 1, false,
    [⟨31, 28, .ro, 2, .none⟩, ⟨27, 25, .ro, 0, .none⟩, ⟨24, 24, .ro, 0, .bor⟩, ⟨23, 23, .ro, 0, .none⟩]⟩,
  -- PWR_CMD
  ⟨0x4, 0, 1, 0, 1, false,
    [⟨2, 0, .wo, 0, .none⟩]⟩,
  -- PWR_CAUSE
  ⟨0x8, 0, 1, 0, 1, false,
    [⟨31, 28, .w1c, 0, .all⟩, ⟨27, 27, .w1c, 0, .all⟩, ⟨23, 20, .w1c, 0, .all⟩, ⟨19, 16, .ro, 0, .bor⟩, ⟨15, 0, .ro, 0, .all⟩]⟩,
  -- PWR_SEQ_CFG
  ⟨0xC, 0, 1, 0, 1, false,
    [⟨31, 31, .rw, 1, .all⟩, ⟨30, 30, .rw, 1, .all⟩, ⟨29, 29, .rw, 1, .all⟩, ⟨28, 24, .rw, 3, .all⟩, ⟨23, 16, .rw, 0x32, .all⟩, ⟨15, 0, .rw, 0x3e8, .all⟩]⟩,
  -- PWR_WAKE_AT
  ⟨0x10, 0, 1, 0, 1, false,
    [⟨31, 0, .rw, 0, .all⟩]⟩,
  -- PWR_VBAT_CNT
  ⟨0x14, 0, 1, 0, 1, false,
    [⟨31, 0, .ro, 0, .all⟩]⟩,
  -- PWR_AVS_CFG
  ⟨0x18, 0, 1, 0, 1, false,
    [⟨31, 31, .rw, 0, .block⟩, ⟨30, 30, .rw, 1, .block⟩, ⟨29, 29, .rw, 1, .block⟩, ⟨22, 16, .rw, 0x40, .block⟩, ⟨15, 8, .rw, 1, .block⟩, ⟨7, 0, .rw, 5, .block⟩]⟩,
  -- PWR_AVS_LIM
  ⟨0x1C, 0, 1, 0, 1, false,
    [⟨25, 16, .rw, 0x352, .block⟩, ⟨9, 0, .rw, 0x2a8, .block⟩]⟩,
  -- PWR_AVS_MARGIN
  ⟨0x20, 0, 1, 0, 1, false,
    [⟨31, 24, .rw, 0, .block⟩, ⟨23, 16, .rw, 0x28, .block⟩, ⟨7, 0, .rw, 0x14, .block⟩]⟩,
  -- PWR_AVS_STATUS
  ⟨0x24, 0, 1, 0, 1, false,
    [⟨31, 31, .ro, 0, .none⟩, ⟨25, 16, .ro, 0, .none⟩, ⟨9, 0, .ro, 0, .none⟩]⟩,
  -- PWR_BLOCK_RST
  ⟨0x28, 0, 1, 0, 1, false,
    [⟨31, 31, .w1s, 0, .none⟩, ⟨30, 28, .ro, 0, .none⟩, ⟨11, 8, .rw, 0, .none⟩, ⟨5, 0, .rw, 0, .none⟩]⟩,
  -- PWR_RAILS
  ⟨0x2C, 0, 1, 0, 1, false,
    [⟨9, 0, .ro, 0, .none⟩]⟩,
  -- PWR_EVQ
  ⟨0x30, 0, 1, 0, 1, true,
    [⟨31, 0, .rw, 0, .block⟩]⟩]

/-- Register tables of the THRM block, part 0. -/
def regsThrm0 : List RegDesc := [
  -- THRM_SENSOR_CFG
  ⟨0x0, 32, 28, 0, 1, false,
    [⟨31, 31, .rw, 0, .block⟩, ⟨30, 30, .rw, 0, .block⟩, ⟨29, 24, .sh, 0x28, .block⟩, ⟨23, 0, .cfg, 0, .block⟩]⟩,
  -- THRM_SENSOR_VALUE
  ⟨0x4, 32, 28, 0, 1, false,
    [⟨31, 20, .ro, 0, .none⟩, ⟨19, 17, .ro, 0, .none⟩, ⟨16, 16, .ro, 0, .none⟩, ⟨15, 0, .ro, 0, .none⟩]⟩,
  -- THRM_SENSOR_LIMIT
  ⟨0x8, 32, 28, 0, 1, false,
    [⟨31, 16, .sh, 1, .block⟩, ⟨15, 0, .sh, 0, .block⟩]⟩,
  -- THRM_SENSOR_BANDS
  ⟨0xC, 32, 28, 0, 1, false,
    [⟨31, 16, .sh, 0, .block⟩, ⟨15, 0, .sh, 0, .block⟩]⟩,
  -- THRM_SENSOR_HOT
  ⟨0x10, 32, 28, 0, 1, false,
    [⟨15, 0, .sh, 0, .block⟩]⟩,
  -- THRM_STEP_CTRL
  ⟨0x400, 16, 8, 0, 1, false,
    [⟨31, 30, .sh, 0, .block⟩, ⟨29, 29, .ro, 0, .none⟩, ⟨27, 16, .sh, 0x28, .block⟩, ⟨15, 0, .sh, 0, .block⟩]⟩,
  -- THRM_STEP_GROUP
  ⟨0x404, 16, 8, 0, 1, false,
    [⟨27, 0, .sh, 0, .block⟩]⟩,
  -- THRM_STEP_SLOTS
  ⟨0x408, 16, 8, 0, 1, false,
    [⟨31, 0, .sh, 0, .block⟩]⟩,
  -- THRM_STEP_CEIL
  ⟨0x40C, 16, 8, 0, 1, false,
    [⟨15, 0, .sh, 0, .block⟩]⟩,
  -- THRM_BAND_GROUP
  ⟨0x500, 4, 5, 0, 1, false,
    [⟨31, 30, .ro, 1, .none⟩, ⟨27, 0, .sh, 0xfff0000, .block⟩]⟩,
  -- THRM_SHUT_CAUSE
  ⟨0x520, 0, 1, 0, 1, false,
    [⟨31, 31, .ro, 0, .bor⟩, ⟨20, 16, .ro, 0, .bor⟩, ⟨15, 0, .ro, 0, .bor⟩]⟩,
  -- THRM_EVQ
  ⟨0x524, 0, 1, 0, 1, true,
    [⟨31, 0, .rw, 0, .block⟩]⟩]

/-- Register tables of the CAL block, part 0. -/
def regsCal0 : List RegDesc := [
  -- CAL_CMD
  ⟨0x0, 0, 1, 0, 1, false,
    [⟨31, 31, .w1s, 0, .none⟩, ⟨29, 28, .rw, 0, .none⟩, ⟨19, 16, .rw, 0, .none⟩, ⟨5, 0, .rw, 0, .none⟩]⟩,
  -- CAL_STATUS
  ⟨0x4, 0, 1, 0, 1, false,
    [⟨31, 31, .ro, 0, .none⟩, ⟨19, 16, .ro, 0, .none⟩, ⟨13, 8, .ro, 0, .none⟩, ⟨7, 0, .ro, 0, .none⟩]⟩,
  -- CAL_ITEM
  ⟨0x14, 4, 5, 0, 1, false,
    [⟨31, 16, .sh, 0x64, .block⟩, ⟨12, 8, .sh, 0x10, .block⟩, ⟨7, 0, .sh, 0, .block⟩]⟩,
  -- CAL_REF_ID
  ⟨0x40, 4, 4, 0, 1, false,
    [⟨31, 0, .gd, 0, .all⟩]⟩,
  -- CAL_PLATE_ID
  ⟨0x50, 4, 4, 0, 1, false,
    [⟨31, 0, .gd, 0, .all⟩]⟩,
  -- CAL_PLATE
  ⟨0x60, 0, 1, 0, 1, true,
    [⟨31, 0, .gd, 0, .block⟩]⟩,
  -- CAL_REC_SEL
  ⟨0x64, 0, 1, 0, 1, false,
    [⟨19, 16, .rw, 0, .none⟩, ⟨5, 0, .rw, 0, .none⟩]⟩,
  -- CAL_EVQ
  ⟨0x68, 0, 1, 0, 1, true,
    [⟨31, 0, .rw, 0, .block⟩]⟩,
  -- CAL_REC
  ⟨0x80, 4, 8, 0, 1, false,
    [⟨31, 0, .ro, 0, .none⟩]⟩]

/-- Register tables of the BURN block, part 0. -/
def regsBurn0 : List RegDesc := [
  -- BURN_CTRL
  ⟨0x0, 0, 1, 0, 1, false,
    [⟨31, 31, .w1s, 0, .none⟩, ⟨30, 30, .w1s, 0, .none⟩, ⟨29, 29, .ro, 0, .none⟩, ⟨7, 0, .ro, 0, .none⟩]⟩,
  -- BURN_BUDGET
  ⟨0x4, 0, 1, 0, 1, false,
    [⟨31, 16, .rw, 0x190, .all⟩, ⟨15, 0, .rw, 0x7d0, .all⟩]⟩,
  -- BURN_RESULT
  ⟨0x8, 0, 1, 0, 1, false,
    [⟨31, 31, .w1c, 0, .all⟩, ⟨30, 30, .ro, 0, .all⟩, ⟨29, 28, .ro, 0, .all⟩, ⟨23, 16, .ro, 0, .all⟩, ⟨7, 0, .ro, 0, .all⟩]⟩,
  -- BURN_EVQ
  ⟨0xC, 0, 1, 0, 1, true,
    [⟨31, 0, .rw, 0, .block⟩]⟩,
  -- BURN_SLICE
  ⟨0x100, 4, 190, 0, 1, false,
    [⟨31, 30, .ro, 0, .none⟩, ⟨27, 16, .ro, 0, .none⟩, ⟨11, 8, .ro, 0, .none⟩, ⟨5, 0, .ro, 0, .none⟩]⟩]

/-- Register tables of the SEC block, part 0. -/
def regsSec0 : List RegDesc := [
  -- SEC_GUARD
  ⟨0x0, 0, 1, 0, 1, false,
    [⟨31, 31, .ro, 0, .none⟩, ⟨30, 30, .w1s, 0, .none⟩, ⟨29, 27, .ro, 0, .none⟩, ⟨23, 20, .ro, 0, .none⟩, ⟨15, 0, .ro, 0, .none⟩]⟩,
  -- SEC_KEEPER
  ⟨0x4, 0, 1, 0, 1, false,
    [⟨15, 0, .gd, 0x1e, .all⟩]⟩,
  -- SEC_EMIT_MASK
  ⟨0x8, 0, 1, 0, 1, false,
    [⟨31, 0, .gd, 0, .block⟩]⟩,
  -- SEC_STATE
  ⟨0xC, 0, 1, 0, 1, false,
    [⟨31, 31, .ro, 0, .all⟩, ⟨30, 30, .ro, 0, .none⟩, ⟨29, 29, .ro, 0, .soft⟩, ⟨28, 28, .ro, 0, .none⟩, ⟨27, 27, .ro, 0, .none⟩, ⟨26, 26, .ro, 0, .none⟩, ⟨25, 25, .ro, 0, .none⟩, ⟨7, 0, .ro, 0, .all⟩]⟩,
  -- SEC_KEY_CMD
  ⟨0x10, 0, 1, 0, 1, false,
    [⟨31, 31, .w1s, 0, .none⟩, ⟨30, 28, .rw, 0, .none⟩, ⟨27, 25, .ro, 0, .none⟩, ⟨10, 8, .rw, 0, .none⟩]⟩,
  -- SEC_KEY_ARG
  ⟨0x14, 0, 1, 0, 1, false,
    [⟨31, 0, .rw, 0, .none⟩]⟩,
  -- SEC_KEY_STAGE
  ⟨0x20, 4, 8, 0, 1, false,
    [⟨31, 0, .wo, 0, .none⟩]⟩,
  -- SEC_MAC
  ⟨0x40, 4, 12, 0, 1, false,
    [⟨31, 0, .ro, 0, .none⟩]⟩,
  -- SEC_BOOT
  ⟨0x80, 0, 1, 0, 1, false,
    [⟨31, 30, .ro, 0, .all⟩, ⟨29, 28, .ro, 0, .all⟩, ⟨27, 24, .ro, 0, .all⟩, ⟨23, 20, .ro, 0, .all⟩, ⟨19, 16, .ro, 0, .all⟩, ⟨15, 0, .ro, 0, .all⟩]⟩,
  -- SEC_IMG_CMD
  ⟨0x84, 0, 1, 0, 1, false,
    [⟨31, 31, .w1s, 0, .none⟩, ⟨30, 29, .rw, 0, .none⟩, ⟨28, 26, .ro, 0, .none⟩, ⟨15, 0, .rw, 0, .none⟩]⟩,
  -- SEC_PSTORE_ADDR
  ⟨0x90, 0, 1, 0, 1, false,
    [⟨31, 0, .rw, 0, .none⟩]⟩,
  -- SEC_PSTORE_DATA
  ⟨0x94, 0, 1, 0, 1, false,
    [⟨31, 0, .rw, 0, .none⟩]⟩,
  -- SEC_PSTORE_CMD
  ⟨0x98, 0, 1, 0, 1, false,
    [⟨31, 31, .w1s, 0, .none⟩, ⟨30, 30, .ro, 0, .none⟩, ⟨29, 28, .ro, 0, .none⟩]⟩,
  -- SEC_DEBUG
  ⟨0xA0, 0, 1, 0, 1, false,
    [⟨31, 31, .w1s, 0, .none⟩, ⟨0, 0, .ro, 0, .soft⟩]⟩,
  -- SEC_EVQ
  ⟨0xA4, 0, 1, 0, 1, true,
    [⟨31, 0, .rw, 0, .block⟩]⟩]

/-- Register tables of the HARN block, part 0. -/
def regsHarn0 : List RegDesc := [
  -- HARN_CFG
  ⟨0x0, 0, 1, 0, 1, false,
    [⟨31, 31, .rw, 0, .block⟩, ⟨30, 30, .rw, 1, .block⟩, ⟨0, 0, .ro, 0, .all⟩]⟩,
  -- HARN_CMD
  ⟨0x4, 0, 1, 0, 1, false,
    [⟨2, 0, .wo, 0, .none⟩]⟩,
  -- HARN_STATUS
  ⟨0x8, 0, 1, 0, 1, false,
    [⟨31, 28, .ro, 0, .none⟩, ⟨27, 25, .ro, 0, .none⟩, ⟨24, 24, .ro, 0, .none⟩, ⟨23, 20, .ro, 0, .none⟩, ⟨15, 0, .ro, 0, .none⟩]⟩,
  -- HARN_JOB_BASE_LO
  ⟨0xC, 0, 1, 0, 1, false,
    [⟨31, 20, .rw, 0, .block⟩]⟩,
  -- HARN_JOB_BASE_HI
  ⟨0x10, 0, 1, 0, 1, false,
    [⟨31, 0, .rw, 0, .block⟩]⟩,
  -- HARN_JOB_SIZE
  ⟨0x14, 0, 1, 0, 1, false,
    [⟨31, 0, .rw, 0, .block⟩]⟩,
  -- HARN_EVQ
  ⟨0x18, 0, 1, 0, 1, true,
    [⟨31, 0, .rw, 0, .block⟩]⟩,
  -- HARN_MISS_CNT
  ⟨0x40, 0, 1, 0, 1, false,
    [⟨31, 0, .rc, 0, .none⟩]⟩,
  -- HARN_LOST_CNT
  ⟨0x44, 0, 1, 0, 1, false,
    [⟨31, 0, .rc, 0, .none⟩]⟩,
  -- HARN_DIVERGE_CNT
  ⟨0x48, 0, 1, 0, 1, false,
    [⟨31, 0, .rc, 0, .none⟩]⟩,
  -- HARN_TAKEOVER_CNT
  ⟨0x4C, 0, 1, 0, 1, false,
    [⟨31, 0, .rc, 0, .none⟩]⟩]

/-- The registers of a block. -/
def blkRegs : Blk → List RegDesc
  | .sys => regsSys0
  | .stch => regsStch0
  | .tc => regsTc0
  | .tree => regsTree0 ++ regsTree1
  | .hide => regsHide0 ++ regsHide1
  | .awl => regsAwl0 ++ regsAwl1
  | .rein => regsRein0 ++ regsRein1
  | .img => regsImg0 ++ regsImg1 ++ regsImg2
  | .axis => regsAxis0 ++ regsAxis1 ++ regsAxis2
  | .sb => regsSb0 ++ regsSb1
  | .dmc => regsDmc0 ++ regsDmc1
  | .lane => regsLane0
  | .pcie => regsPcie0
  | .time => regsTime0 ++ regsTime1
  | .fbus => regsFbus0 ++ regsFbus1
  | .lamp => regsLamp0 ++ regsLamp1
  | .pwr => regsPwr0
  | .thrm => regsThrm0
  | .cal => regsCal0
  | .burn => regsBurn0
  | .sec => regsSec0
  | .harn => regsHarn0

/-- A field of a register at an address. -/
structure Fld where
  /-- BAR0 offset of the register. -/
  addr : Nat
  /-- Top bit. -/
  hi : Nat
  /-- Bottom bit. -/
  lo : Nat
  deriving DecidableEq, Repr

/-- SYS_PART: its address. -/
def R.SYS_PART : Nat := 0x00000010
/-- SYS_PART[27:24]. -/
def F.SYS_PART_STEPPING : Fld := ⟨R.SYS_PART, 27, 24⟩
/-- SYS_PART[23:20]. -/
def F.SYS_PART_PACKAGE : Fld := ⟨R.SYS_PART, 23, 20⟩
/-- SYS_PART[19:16]. -/
def F.SYS_PART_SUFFIX : Fld := ⟨R.SYS_PART, 19, 16⟩
/-- SYS_PART[15:0]. -/
def F.SYS_PART_NUMBER : Fld := ⟨R.SYS_PART, 15, 0⟩
/-- SYS_FEATURES: its address. -/
def R.SYS_FEATURES : Nat := 0x00000014
/-- SYS_FEATURES[5:5]. -/
def F.SYS_FEATURES_BURN_EXT : Fld := ⟨R.SYS_FEATURES, 5, 5⟩
/-- SYS_FEATURES[4:4]. -/
def F.SYS_FEATURES_EXT_TJ : Fld := ⟨R.SYS_FEATURES, 4, 4⟩
/-- SYS_FEATURES[3:3]. -/
def F.SYS_FEATURES_LAMP_BIN : Fld := ⟨R.SYS_FEATURES, 3, 3⟩
/-- SYS_FEATURES[2:2]. -/
def F.SYS_FEATURES_HARNESS : Fld := ⟨R.SYS_FEATURES, 2, 2⟩
/-- SYS_FEATURES[1:1]. -/
def F.SYS_FEATURES_DMC1 : Fld := ⟨R.SYS_FEATURES, 1, 1⟩
/-- SYS_FEATURES[0:0]. -/
def F.SYS_FEATURES_IMG : Fld := ⟨R.SYS_FEATURES, 0, 0⟩
/-- SYS_UNITS: its address. -/
def R.SYS_UNITS : Nat := 0x00000018
/-- SYS_UNITS[27:27]. -/
def F.SYS_UNITS_SB64 : Fld := ⟨R.SYS_UNITS, 27, 27⟩
/-- SYS_UNITS[26:21]. -/
def F.SYS_UNITS_LAMPS : Fld := ⟨R.SYS_UNITS, 26, 21⟩
/-- SYS_UNITS[20:16]. -/
def F.SYS_UNITS_AXES : Fld := ⟨R.SYS_UNITS, 20, 16⟩
/-- SYS_UNITS[15:10]. -/
def F.SYS_UNITS_LANES : Fld := ⟨R.SYS_UNITS, 15, 10⟩
/-- SYS_UNITS[9:6]. -/
def F.SYS_UNITS_PIPES : Fld := ⟨R.SYS_UNITS, 9, 6⟩
/-- SYS_UNITS[5:0]. -/
def F.SYS_UNITS_LASERS : Fld := ⟨R.SYS_UNITS, 5, 0⟩
/-- SYS_WDOG_CTRL: its address. -/
def R.SYS_WDOG_CTRL : Nat := 0x00000040
/-- SYS_WDOG_CTRL[31:31]. -/
def F.SYS_WDOG_CTRL_ENABLE : Fld := ⟨R.SYS_WDOG_CTRL, 31, 31⟩
/-- SYS_WDOG_CTRL[30:30]. -/
def F.SYS_WDOG_CTRL_WARNED : Fld := ⟨R.SYS_WDOG_CTRL, 30, 30⟩
/-- SYS_WDOG_CTRL[29:29]. -/
def F.SYS_WDOG_CTRL_ZERO_LEN : Fld := ⟨R.SYS_WDOG_CTRL, 29, 29⟩
/-- SYS_WDOG_CTRL[23:0]. -/
def F.SYS_WDOG_CTRL_LIMIT : Fld := ⟨R.SYS_WDOG_CTRL, 23, 0⟩
/-- SYS_WDOG_KICK: its address. -/
def R.SYS_WDOG_KICK : Nat := 0x00000044
/-- SYS_WDOG_KICK[15:0]. -/
def F.SYS_WDOG_KICK_KEY : Fld := ⟨R.SYS_WDOG_KICK, 15, 0⟩
/-- SYS_EVQ: its address. -/
def R.SYS_EVQ : Nat := 0x00000048
/-- SYS_EVQ[31:0]. -/
def F.SYS_EVQ_HANDLE : Fld := ⟨R.SYS_EVQ, 31, 0⟩
/-- SYS_ACC_INFO: its address. -/
def R.SYS_ACC_INFO : Nat := 0x0000004C
/-- SYS_ACC_INFO[31:31]. -/
def F.SYS_ACC_INFO_VALID : Fld := ⟨R.SYS_ACC_INFO, 31, 31⟩
/-- SYS_ACC_INFO[30:24]. -/
def F.SYS_ACC_INFO_CODE : Fld := ⟨R.SYS_ACC_INFO, 30, 24⟩
/-- SYS_ACC_INFO[23:22]. -/
def F.SYS_ACC_INFO_SOURCE : Fld := ⟨R.SYS_ACC_INFO, 23, 22⟩
/-- SYS_ACC_INFO[21:16]. -/
def F.SYS_ACC_INFO_CORE : Fld := ⟨R.SYS_ACC_INFO, 21, 16⟩
/-- SYS_ACC_INFO[15:12]. -/
def F.SYS_ACC_INFO_CTX : Fld := ⟨R.SYS_ACC_INFO, 15, 12⟩
/-- SYS_ACC_INFO[11:4]. -/
def F.SYS_ACC_INFO_COUNT : Fld := ⟨R.SYS_ACC_INFO, 11, 4⟩
/-- SYS_ACC_INFO[2:0]. -/
def F.SYS_ACC_INFO_BAR : Fld := ⟨R.SYS_ACC_INFO, 2, 0⟩
/-- SYS_ACC_ADDR_LO: its address. -/
def R.SYS_ACC_ADDR_LO : Nat := 0x00000050
/-- SYS_ACC_ADDR_LO[31:0]. -/
def F.SYS_ACC_ADDR_LO_OFFSET : Fld := ⟨R.SYS_ACC_ADDR_LO, 31, 0⟩
/-- SYS_ACC_ADDR_HI: its address. -/
def R.SYS_ACC_ADDR_HI : Nat := 0x00000054
/-- SYS_ACC_ADDR_HI[31:0]. -/
def F.SYS_ACC_ADDR_HI_OFFSET : Fld := ⟨R.SYS_ACC_ADDR_HI, 31, 0⟩
/-- STCH_PERIOD: its address. -/
def R.STCH_PERIOD : Nat := 0x00100000
/-- STCH_PERIOD[10:0]. -/
def F.STCH_PERIOD_TCLKS : Fld := ⟨R.STCH_PERIOD, 10, 0⟩
/-- STCH_STATUS: its address. -/
def R.STCH_STATUS : Nat := 0x00100004
/-- STCH_STATUS[26:16]. -/
def F.STCH_STATUS_PERIOD_MIN : Fld := ⟨R.STCH_STATUS, 26, 16⟩
/-- STCH_STATUS[9:9]. -/
def F.STCH_STATUS_ZERO_LEN : Fld := ⟨R.STCH_STATUS, 9, 9⟩
/-- STCH_STATUS[8:8]. -/
def F.STCH_STATUS_PENDING : Fld := ⟨R.STCH_STATUS, 8, 8⟩
/-- STCH_STATUS[2:0]. -/
def F.STCH_STATUS_RESULT : Fld := ⟨R.STCH_STATUS, 2, 0⟩
/-- STCH_CTRL: its address. -/
def R.STCH_CTRL : Nat := 0x00100008
/-- STCH_CTRL[7:0]. -/
def F.STCH_CTRL_MARK_DIV : Fld := ⟨R.STCH_CTRL, 7, 0⟩
/-- STCH_HOLD: its address. -/
def R.STCH_HOLD : Nat := 0x0010000C
/-- STCH_HOLD[6:6]. -/
def F.STCH_HOLD_LANE : Fld := ⟨R.STCH_HOLD, 6, 6⟩
/-- STCH_HOLD[5:5]. -/
def F.STCH_HOLD_TREE : Fld := ⟨R.STCH_HOLD, 5, 5⟩
/-- STCH_HOLD[4:4]. -/
def F.STCH_HOLD_LAMP : Fld := ⟨R.STCH_HOLD, 4, 4⟩
/-- STCH_HOLD[3:3]. -/
def F.STCH_HOLD_AXIS : Fld := ⟨R.STCH_HOLD, 3, 3⟩
/-- STCH_HOLD[2:2]. -/
def F.STCH_HOLD_HIDE : Fld := ⟨R.STCH_HOLD, 2, 2⟩
/-- STCH_HOLD[1:1]. -/
def F.STCH_HOLD_REIN : Fld := ⟨R.STCH_HOLD, 1, 1⟩
/-- STCH_HOLD[0:0]. -/
def F.STCH_HOLD_AWL : Fld := ⟨R.STCH_HOLD, 0, 0⟩
/-- STCH_HOLD_LIMIT: its address. -/
def R.STCH_HOLD_LIMIT : Nat := 0x00100010
/-- STCH_HOLD_LIMIT[15:0]. -/
def F.STCH_HOLD_LIMIT_STITCHES : Fld := ⟨R.STCH_HOLD_LIMIT, 15, 0⟩
/-- STCH_COUNT_LO: its address. -/
def R.STCH_COUNT_LO : Nat := 0x00100014
/-- STCH_COUNT_LO[31:0]. -/
def F.STCH_COUNT_LO_COUNT : Fld := ⟨R.STCH_COUNT_LO, 31, 0⟩
/-- STCH_COUNT_HI: its address. -/
def R.STCH_COUNT_HI : Nat := 0x00100018
/-- STCH_COUNT_HI[31:0]. -/
def F.STCH_COUNT_HI_COUNT : Fld := ⟨R.STCH_COUNT_HI, 31, 0⟩
/-- STCH_EVENT: its address. -/
def R.STCH_EVENT : Nat := 0x0010001C
/-- STCH_EVENT[3:3]. -/
def F.STCH_EVENT_EARLY_INPUT : Fld := ⟨R.STCH_EVENT, 3, 3⟩
/-- STCH_EVENT[2:2]. -/
def F.STCH_EVENT_LATE_INPUT : Fld := ⟨R.STCH_EVENT, 2, 2⟩
/-- STCH_EVENT[1:1]. -/
def F.STCH_EVENT_HOLD_EXPIRED : Fld := ⟨R.STCH_EVENT, 1, 1⟩
/-- STCH_EVENT[0:0]. -/
def F.STCH_EVENT_PERIOD_CHANGED : Fld := ⟨R.STCH_EVENT, 0, 0⟩
/-- STCH_LATE_CNT: its address. -/
def R.STCH_LATE_CNT : Nat := 0x00100020
/-- STCH_LATE_CNT[31:0]. -/
def F.STCH_LATE_CNT_COUNT : Fld := ⟨R.STCH_LATE_CNT, 31, 0⟩
/-- STCH_EARLY_CNT: its address. -/
def R.STCH_EARLY_CNT : Nat := 0x00100024
/-- STCH_EARLY_CNT[31:0]. -/
def F.STCH_EARLY_CNT_COUNT : Fld := ⟨R.STCH_EARLY_CNT, 31, 0⟩
/-- TC_TABLE_CTRL: its address. -/
def R.TC_TABLE_CTRL (k : Nat) : Nat := 0x00200000 + 0x10000 * k
/-- TC_TABLE_CTRL[31:31]. -/
def F.TC_TABLE_CTRL_COMMIT (k : Nat) : Fld := ⟨(R.TC_TABLE_CTRL k), 31, 31⟩
/-- TC_TABLE_CTRL[30:28]. -/
def F.TC_TABLE_CTRL_RESULT (k : Nat) : Fld := ⟨(R.TC_TABLE_CTRL k), 30, 28⟩
/-- TC_TABLE_CTRL[12:0]. -/
def F.TC_TABLE_CTRL_END (k : Nat) : Fld := ⟨(R.TC_TABLE_CTRL k), 12, 0⟩
/-- TC_SUPQ: its address. -/
def R.TC_SUPQ (k : Nat) : Nat := 0x00200004 + 0x10000 * k
/-- TC_SUPQ[31:0]. -/
def F.TC_SUPQ_HANDLE (k : Nat) : Fld := ⟨(R.TC_SUPQ k), 31, 0⟩
/-- TC_LOAD_SRC: its address. -/
def R.TC_LOAD_SRC (k : Nat) : Nat := 0x00200010 + 0x10000 * k
/-- TC_LOAD_SRC[31:0]. -/
def F.TC_LOAD_SRC_VALUE (k : Nat) : Fld := ⟨(R.TC_LOAD_SRC k), 31, 0⟩
/-- TC_LOAD_OFS: its address. -/
def R.TC_LOAD_OFS (k : Nat) : Nat := 0x00200014 + 0x10000 * k
/-- TC_LOAD_OFS[31:0]. -/
def F.TC_LOAD_OFS_VALUE (k : Nat) : Fld := ⟨(R.TC_LOAD_OFS k), 31, 0⟩
/-- TC_LOAD_CMD: its address. -/
def R.TC_LOAD_CMD (k : Nat) : Nat := 0x00200018 + 0x10000 * k
/-- TC_LOAD_CMD[31:31]. -/
def F.TC_LOAD_CMD_START (k : Nat) : Fld := ⟨(R.TC_LOAD_CMD k), 31, 31⟩
/-- TC_LOAD_CMD[30:30]. -/
def F.TC_LOAD_CMD_MEM (k : Nat) : Fld := ⟨(R.TC_LOAD_CMD k), 30, 30⟩
/-- TC_LOAD_CMD[29:27]. -/
def F.TC_LOAD_CMD_RESULT (k : Nat) : Fld := ⟨(R.TC_LOAD_CMD k), 29, 27⟩
/-- TC_LOAD_CMD[26:13]. -/
def F.TC_LOAD_CMD_LEN (k : Nat) : Fld := ⟨(R.TC_LOAD_CMD k), 26, 13⟩
/-- TC_LOAD_CMD[12:0]. -/
def F.TC_LOAD_CMD_DST (k : Nat) : Fld := ⟨(R.TC_LOAD_CMD k), 12, 0⟩
/-- TC_SLOT: its address. -/
def R.TC_SLOT (k : Nat) (i : Nat) : Nat := 0x00200100 + 0x10000 * k + 4 * i
/-- TC_SLOT[31:31]. -/
def F.TC_SLOT_VALID (k : Nat) (i : Nat) : Fld := ⟨(R.TC_SLOT k i), 31, 31⟩
/-- TC_SLOT[19:16]. -/
def F.TC_SLOT_CTX (k : Nat) (i : Nat) : Fld := ⟨(R.TC_SLOT k i), 19, 16⟩
/-- TC_SLOT[12:0]. -/
def F.TC_SLOT_LENGTH (k : Nat) (i : Nat) : Fld := ⟨(R.TC_SLOT k i), 12, 0⟩
/-- TC_CTX_CTRL: its address. -/
def R.TC_CTX_CTRL (k : Nat) (i : Nat) : Nat := 0x00200400 + 0x10000 * k + 32 * i
/-- TC_CTX_CTRL[31:31]. -/
def F.TC_CTX_CTRL_SWAP (k : Nat) (i : Nat) : Fld := ⟨(R.TC_CTX_CTRL k i), 31, 31⟩
/-- TC_CTX_CTRL[30:30]. -/
def F.TC_CTX_CTRL_RESTART (k : Nat) (i : Nat) : Fld := ⟨(R.TC_CTX_CTRL k i), 30, 30⟩
/-- TC_CTX_CTRL[29:29]. -/
def F.TC_CTX_CTRL_HALT (k : Nat) (i : Nat) : Fld := ⟨(R.TC_CTX_CTRL k i), 29, 29⟩
/-- TC_CTX_CTRL[28:28]. -/
def F.TC_CTX_CTRL_KEEP (k : Nat) (i : Nat) : Fld := ⟨(R.TC_CTX_CTRL k i), 28, 28⟩
/-- TC_CTX_CTRL[27:26]. -/
def F.TC_CTX_CTRL_OVR_POLICY (k : Nat) (i : Nat) : Fld := ⟨(R.TC_CTX_CTRL k i), 27, 26⟩
/-- TC_CTX_CTRL[25:24]. -/
def F.TC_CTX_CTRL_SWAP_RESULT (k : Nat) (i : Nat) : Fld := ⟨(R.TC_CTX_CTRL k i), 25, 24⟩
/-- TC_CTX_CTRL[15:0]. -/
def F.TC_CTX_CTRL_STARVE (k : Nat) (i : Nat) : Fld := ⟨(R.TC_CTX_CTRL k i), 15, 0⟩
/-- TC_CTX_ENTRY: its address. -/
def R.TC_CTX_ENTRY (k : Nat) (i : Nat) : Nat := 0x00200404 + 0x10000 * k + 32 * i
/-- TC_CTX_ENTRY[31:16]. -/
def F.TC_CTX_ENTRY_WCET (k : Nat) (i : Nat) : Fld := ⟨(R.TC_CTX_ENTRY k i), 31, 16⟩
/-- TC_CTX_ENTRY[15:0]. -/
def F.TC_CTX_ENTRY_ENTRY (k : Nat) (i : Nat) : Fld := ⟨(R.TC_CTX_ENTRY k i), 15, 0⟩
/-- TC_CTX_PART: its address. -/
def R.TC_CTX_PART (k : Nat) (i : Nat) : Nat := 0x00200408 + 0x10000 * k + 32 * i
/-- TC_CTX_PART[31:24]. -/
def F.TC_CTX_PART_D_LAST (k : Nat) (i : Nat) : Fld := ⟨(R.TC_CTX_PART k i), 31, 24⟩
/-- TC_CTX_PART[23:16]. -/
def F.TC_CTX_PART_D_FIRST (k : Nat) (i : Nat) : Fld := ⟨(R.TC_CTX_PART k i), 23, 16⟩
/-- TC_CTX_PART[15:8]. -/
def F.TC_CTX_PART_I_LAST (k : Nat) (i : Nat) : Fld := ⟨(R.TC_CTX_PART k i), 15, 8⟩
/-- TC_CTX_PART[7:0]. -/
def F.TC_CTX_PART_I_FIRST (k : Nat) (i : Nat) : Fld := ⟨(R.TC_CTX_PART k i), 7, 0⟩
/-- TC_CTX_STATE: its address. -/
def R.TC_CTX_STATE (k : Nat) (i : Nat) : Nat := 0x0020040C + 0x10000 * k + 32 * i
/-- TC_CTX_STATE[31:16]. -/
def F.TC_CTX_STATE_OVERRUNS (k : Nat) (i : Nat) : Fld := ⟨(R.TC_CTX_STATE k i), 31, 16⟩
/-- TC_CTX_STATE[11:8]. -/
def F.TC_CTX_STATE_LAST_CAUSE (k : Nat) (i : Nat) : Fld := ⟨(R.TC_CTX_STATE k i), 11, 8⟩
/-- TC_CTX_STATE[7:7]. -/
def F.TC_CTX_STATE_STARVED (k : Nat) (i : Nat) : Fld := ⟨(R.TC_CTX_STATE k i), 7, 7⟩
/-- TC_CTX_STATE[6:6]. -/
def F.TC_CTX_STATE_OVERRUN (k : Nat) (i : Nat) : Fld := ⟨(R.TC_CTX_STATE k i), 6, 6⟩
/-- TC_CTX_STATE[1:0]. -/
def F.TC_CTX_STATE_STATE (k : Nat) (i : Nat) : Fld := ⟨(R.TC_CTX_STATE k i), 1, 0⟩
/-- TREE_JOB_BASE_LO: its address. -/
def R.TREE_JOB_BASE_LO : Nat := 0x01000000
/-- TREE_JOB_BASE_LO[31:6]. -/
def F.TREE_JOB_BASE_LO_OFFSET : Fld := ⟨R.TREE_JOB_BASE_LO, 31, 6⟩
/-- TREE_JOB_BASE_HI: its address. -/
def R.TREE_JOB_BASE_HI : Nat := 0x01000004
/-- TREE_JOB_BASE_HI[31:0]. -/
def F.TREE_JOB_BASE_HI_OFFSET : Fld := ⟨R.TREE_JOB_BASE_HI, 31, 0⟩
/-- TREE_JOB_CMD: its address. -/
def R.TREE_JOB_CMD : Nat := 0x01000008
/-- TREE_JOB_CMD[2:0]. -/
def F.TREE_JOB_CMD_CMD : Fld := ⟨R.TREE_JOB_CMD, 2, 0⟩
/-- TREE_JOB_STATUS: its address. -/
def R.TREE_JOB_STATUS : Nat := 0x0100000C
/-- TREE_JOB_STATUS[31:28]. -/
def F.TREE_JOB_STATUS_STATE : Fld := ⟨R.TREE_JOB_STATUS, 31, 28⟩
/-- TREE_JOB_STATUS[27:26]. -/
def F.TREE_JOB_STATUS_RESULT : Fld := ⟨R.TREE_JOB_STATUS, 27, 26⟩
/-- TREE_JOB_STATUS[25:25]. -/
def F.TREE_JOB_STATUS_ZERO_LEN : Fld := ⟨R.TREE_JOB_STATUS, 25, 25⟩
/-- TREE_JOB_STATUS[24:24]. -/
def F.TREE_JOB_STATUS_HOLD_PENDING : Fld := ⟨R.TREE_JOB_STATUS, 24, 24⟩
/-- TREE_JOB_STATUS[15:8]. -/
def F.TREE_JOB_STATUS_REJECT : Fld := ⟨R.TREE_JOB_STATUS, 15, 8⟩
/-- TREE_JOB_STATUS[7:0]. -/
def F.TREE_JOB_STATUS_ZERO_CNT : Fld := ⟨R.TREE_JOB_STATUS, 7, 0⟩
/-- TREE_JOB_LAYER: its address. -/
def R.TREE_JOB_LAYER : Nat := 0x01000010
/-- TREE_JOB_LAYER[31:0]. -/
def F.TREE_JOB_LAYER_INDEX : Fld := ⟨R.TREE_JOB_LAYER, 31, 0⟩
/-- TREE_JOB_VALID: its address. -/
def R.TREE_JOB_VALID : Nat := 0x01000014
/-- TREE_JOB_VALID[31:0]. -/
def F.TREE_JOB_VALID_INDEX : Fld := ⟨R.TREE_JOB_VALID, 31, 0⟩
/-- TREE_REJECT_LAYER: its address. -/
def R.TREE_REJECT_LAYER : Nat := 0x01000018
/-- TREE_REJECT_LAYER[31:0]. -/
def F.TREE_REJECT_LAYER_INDEX : Fld := ⟨R.TREE_REJECT_LAYER, 31, 0⟩
/-- TREE_REJECT_PATCH: its address. -/
def R.TREE_REJECT_PATCH : Nat := 0x0100001C
/-- TREE_REJECT_PATCH[31:0]. -/
def F.TREE_REJECT_PATCH_INDEX : Fld := ⟨R.TREE_REJECT_PATCH, 31, 0⟩
/-- TREE_REJECT_STROKE: its address. -/
def R.TREE_REJECT_STROKE : Nat := 0x01000020
/-- TREE_REJECT_STROKE[31:0]. -/
def F.TREE_REJECT_STROKE_INDEX : Fld := ⟨R.TREE_REJECT_STROKE, 31, 0⟩
/-- TREE_JOB_EVQ: its address. -/
def R.TREE_JOB_EVQ : Nat := 0x01000024
/-- TREE_JOB_EVQ[31:0]. -/
def F.TREE_JOB_EVQ_HANDLE : Fld := ⟨R.TREE_JOB_EVQ, 31, 0⟩
/-- TREE_CTRL: its address. -/
def R.TREE_CTRL : Nat := 0x01000100
/-- TREE_CTRL[0:0]. -/
def F.TREE_CTRL_RESUME_TCHECK : Fld := ⟨R.TREE_CTRL, 0, 0⟩
/-- TREE_SLOT_SERVICE: its address. -/
def R.TREE_SLOT_SERVICE : Nat := 0x01000104
/-- TREE_SLOT_SERVICE[31:0]. -/
def F.TREE_SLOT_SERVICE_SERVICE : Fld := ⟨R.TREE_SLOT_SERVICE, 31, 0⟩
/-- TREE_DSEP: its address. -/
def R.TREE_DSEP : Nat := 0x01000108
/-- TREE_DSEP[31:0]. -/
def F.TREE_DSEP_DIST : Fld := ⟨R.TREE_DSEP, 31, 0⟩
/-- TREE_TSTART: its address. -/
def R.TREE_TSTART : Nat := 0x0100010C
/-- TREE_TSTART[15:0]. -/
def F.TREE_TSTART_TEMP : Fld := ⟨R.TREE_TSTART, 15, 0⟩
/-- TREE_FLOW: its address. -/
def R.TREE_FLOW : Nat := 0x01000110
/-- TREE_FLOW[15:0]. -/
def F.TREE_FLOW_ANGLE : Fld := ⟨R.TREE_FLOW, 15, 0⟩
/-- TREE_PLUME_LEN: its address. -/
def R.TREE_PLUME_LEN : Nat := 0x01000114
/-- TREE_PLUME_LEN[31:0]. -/
def F.TREE_PLUME_LEN_VALUE : Fld := ⟨R.TREE_PLUME_LEN, 31, 0⟩
/-- TREE_PLUME_WIDTH: its address. -/
def R.TREE_PLUME_WIDTH : Nat := 0x01000118
/-- TREE_PLUME_WIDTH[31:0]. -/
def F.TREE_PLUME_WIDTH_VALUE : Fld := ⟨R.TREE_PLUME_WIDTH, 31, 0⟩
/-- TREE_LOG_Q: its address. -/
def R.TREE_LOG_Q : Nat := 0x0100011C
/-- TREE_LOG_Q[31:0]. -/
def F.TREE_LOG_Q_HANDLE : Fld := ⟨R.TREE_LOG_Q, 31, 0⟩
/-- TREE_PLAN_EVQ: its address. -/
def R.TREE_PLAN_EVQ : Nat := 0x01000120
/-- TREE_PLAN_EVQ[31:0]. -/
def F.TREE_PLAN_EVQ_HANDLE : Fld := ⟨R.TREE_PLAN_EVQ, 31, 0⟩
/-- TREE_PRED_END: its address. -/
def R.TREE_PRED_END : Nat := 0x01000124
/-- TREE_PRED_END[31:0]. -/
def F.TREE_PRED_END_STITCHES : Fld := ⟨R.TREE_PRED_END, 31, 0⟩
/-- TREE_PRED_OVER: its address. -/
def R.TREE_PRED_OVER : Nat := 0x01000128
/-- TREE_PRED_OVER[31:0]. -/
def F.TREE_PRED_OVER_STITCHES : Fld := ⟨R.TREE_PRED_OVER, 31, 0⟩
/-- TREE_STATUS: its address. -/
def R.TREE_STATUS : Nat := 0x0100012C
/-- TREE_STATUS[31:31]. -/
def F.TREE_STATUS_LOG_OFF : Fld := ⟨R.TREE_STATUS, 31, 31⟩
/-- TREE_STATUS[30:30]. -/
def F.TREE_STATUS_LONG : Fld := ⟨R.TREE_STATUS, 30, 30⟩
/-- TREE_STATUS[29:29]. -/
def F.TREE_STATUS_OVER : Fld := ⟨R.TREE_STATUS, 29, 29⟩
/-- TREE_STATUS[20:0]. -/
def F.TREE_STATUS_ORPHANS : Fld := ⟨R.TREE_STATUS, 20, 0⟩
/-- TREE_REPLAN_LATE: its address. -/
def R.TREE_REPLAN_LATE : Nat := 0x01000130
/-- TREE_REPLAN_LATE[31:0]. -/
def F.TREE_REPLAN_LATE_COUNT : Fld := ⟨R.TREE_REPLAN_LATE, 31, 0⟩
/-- TREE_LOG_STALL: its address. -/
def R.TREE_LOG_STALL : Nat := 0x01000134
/-- TREE_LOG_STALL[31:0]. -/
def F.TREE_LOG_STALL_COUNT : Fld := ⟨R.TREE_LOG_STALL, 31, 0⟩
/-- TREE_LASER: its address. -/
def R.TREE_LASER (i : Nat) : Nat := 0x01000200 + 4 * i
/-- TREE_LASER[31:28]. -/
def F.TREE_LASER_WAIT (i : Nat) : Fld := ⟨(R.TREE_LASER i), 31, 28⟩
/-- TREE_LASER[27:27]. -/
def F.TREE_LASER_BUSY (i : Nat) : Fld := ⟨(R.TREE_LASER i), 27, 27⟩
/-- TREE_LASER[23:20]. -/
def F.TREE_LASER_PIECE (i : Nat) : Fld := ⟨(R.TREE_LASER i), 23, 20⟩
/-- TREE_LASER[19:0]. -/
def F.TREE_LASER_PATCH (i : Nat) : Fld := ⟨(R.TREE_LASER i), 19, 0⟩
/-- HIDE_CTRL: its address. -/
def R.HIDE_CTRL : Nat := 0x01100000
/-- HIDE_CTRL[2:1]. -/
def F.HIDE_CTRL_FOOT : Fld := ⟨R.HIDE_CTRL, 2, 1⟩
/-- HIDE_CTRL[0:0]. -/
def F.HIDE_CTRL_ENABLE : Fld := ⟨R.HIDE_CTRL, 0, 0⟩
/-- HIDE_GRID: its address. -/
def R.HIDE_GRID : Nat := 0x01100004
/-- HIDE_GRID[27:16]. -/
def F.HIDE_GRID_HEIGHT : Fld := ⟨R.HIDE_GRID, 27, 16⟩
/-- HIDE_GRID[11:0]. -/
def F.HIDE_GRID_WIDTH : Fld := ⟨R.HIDE_GRID, 11, 0⟩
/-- HIDE_ORIGIN_X: its address. -/
def R.HIDE_ORIGIN_X : Nat := 0x01100008
/-- HIDE_ORIGIN_X[31:0]. -/
def F.HIDE_ORIGIN_X_VALUE : Fld := ⟨R.HIDE_ORIGIN_X, 31, 0⟩
/-- HIDE_ORIGIN_Y: its address. -/
def R.HIDE_ORIGIN_Y : Nat := 0x0110000C
/-- HIDE_ORIGIN_Y[31:0]. -/
def F.HIDE_ORIGIN_Y_VALUE : Fld := ⟨R.HIDE_ORIGIN_Y, 31, 0⟩
/-- HIDE_PITCH: its address. -/
def R.HIDE_PITCH : Nat := 0x01100010
/-- HIDE_PITCH[31:0]. -/
def F.HIDE_PITCH_VALUE : Fld := ⟨R.HIDE_PITCH, 31, 0⟩
/-- HIDE_BASE: its address. -/
def R.HIDE_BASE : Nat := 0x01100014
/-- HIDE_BASE[15:0]. -/
def F.HIDE_BASE_VALUE : Fld := ⟨R.HIDE_BASE, 15, 0⟩
/-- HIDE_COOL: its address. -/
def R.HIDE_COOL : Nat := 0x01100018
/-- HIDE_COOL[15:0]. -/
def F.HIDE_COOL_VALUE : Fld := ⟨R.HIDE_COOL, 15, 0⟩
/-- HIDE_COND: its address. -/
def R.HIDE_COND : Nat := 0x0110001C
/-- HIDE_COND[15:0]. -/
def F.HIDE_COND_VALUE : Fld := ⟨R.HIDE_COND, 15, 0⟩
/-- HIDE_SWEEP_INT: its address. -/
def R.HIDE_SWEEP_INT : Nat := 0x01100020
/-- HIDE_SWEEP_INT[23:0]. -/
def F.HIDE_SWEEP_INT_STITCHES : Fld := ⟨R.HIDE_SWEEP_INT, 23, 0⟩
/-- HIDE_COUPLE: its address. -/
def R.HIDE_COUPLE : Nat := 0x01100024
/-- HIDE_COUPLE[15:0]. -/
def F.HIDE_COUPLE_VALUE : Fld := ⟨R.HIDE_COUPLE, 15, 0⟩
/-- HIDE_ASSIM_GAIN: its address. -/
def R.HIDE_ASSIM_GAIN : Nat := 0x01100028
/-- HIDE_ASSIM_GAIN[15:0]. -/
def F.HIDE_ASSIM_GAIN_VALUE : Fld := ⟨R.HIDE_ASSIM_GAIN, 15, 0⟩
/-- HIDE_ASSIM_Q: its address. -/
def R.HIDE_ASSIM_Q : Nat := 0x0110002C
/-- HIDE_ASSIM_Q[31:0]. -/
def F.HIDE_ASSIM_Q_HANDLE : Fld := ⟨R.HIDE_ASSIM_Q, 31, 0⟩
/-- HIDE_EVQ: its address. -/
def R.HIDE_EVQ : Nat := 0x01100030
/-- HIDE_EVQ[31:0]. -/
def F.HIDE_EVQ_HANDLE : Fld := ⟨R.HIDE_EVQ, 31, 0⟩
/-- HIDE_CURVE_IDX: its address. -/
def R.HIDE_CURVE_IDX : Nat := 0x01100034
/-- HIDE_CURVE_IDX[19:16]. -/
def F.HIDE_CURVE_IDX_SHIFT : Fld := ⟨R.HIDE_CURVE_IDX, 19, 16⟩
/-- HIDE_CURVE_IDX[15:0]. -/
def F.HIDE_CURVE_IDX_T0 : Fld := ⟨R.HIDE_CURVE_IDX, 15, 0⟩
/-- HIDE_ARCH_BASE_LO: its address. -/
def R.HIDE_ARCH_BASE_LO : Nat := 0x01100038
/-- HIDE_ARCH_BASE_LO[31:6]. -/
def F.HIDE_ARCH_BASE_LO_VALUE : Fld := ⟨R.HIDE_ARCH_BASE_LO, 31, 6⟩
/-- HIDE_ARCH_BASE_HI: its address. -/
def R.HIDE_ARCH_BASE_HI : Nat := 0x0110003C
/-- HIDE_ARCH_BASE_HI[31:0]. -/
def F.HIDE_ARCH_BASE_HI_VALUE : Fld := ⟨R.HIDE_ARCH_BASE_HI, 31, 0⟩
/-- HIDE_ARCH_SLOTS: its address. -/
def R.HIDE_ARCH_SLOTS : Nat := 0x01100040
/-- HIDE_ARCH_SLOTS[15:0]. -/
def F.HIDE_ARCH_SLOTS_VALUE : Fld := ⟨R.HIDE_ARCH_SLOTS, 15, 0⟩
/-- HIDE_STATUS: its address. -/
def R.HIDE_STATUS : Nat := 0x01100048
/-- HIDE_STATUS[31:16]. -/
def F.HIDE_STATUS_ARCH_NEXT : Fld := ⟨R.HIDE_STATUS, 31, 16⟩
/-- HIDE_STATUS[5:5]. -/
def F.HIDE_STATUS_ARCH_BUSY : Fld := ⟨R.HIDE_STATUS, 5, 5⟩
/-- HIDE_STATUS[4:4]. -/
def F.HIDE_STATUS_PASS : Fld := ⟨R.HIDE_STATUS, 4, 4⟩
/-- HIDE_STATUS[3:3]. -/
def F.HIDE_STATUS_SAT : Fld := ⟨R.HIDE_STATUS, 3, 3⟩
/-- HIDE_STATUS[2:1]. -/
def F.HIDE_STATUS_RESULT : Fld := ⟨R.HIDE_STATUS, 2, 1⟩
/-- HIDE_STATUS[0:0]. -/
def F.HIDE_STATUS_ENABLED : Fld := ⟨R.HIDE_STATUS, 0, 0⟩
/-- HIDE_SWEEP_LATE: its address. -/
def R.HIDE_SWEEP_LATE : Nat := 0x0110004C
/-- HIDE_SWEEP_LATE[31:0]. -/
def F.HIDE_SWEEP_LATE_COUNT : Fld := ⟨R.HIDE_SWEEP_LATE, 31, 0⟩
/-- HIDE_OUTSIDE: its address. -/
def R.HIDE_OUTSIDE : Nat := 0x01100050
/-- HIDE_OUTSIDE[31:0]. -/
def F.HIDE_OUTSIDE_COUNT : Fld := ⟨R.HIDE_OUTSIDE, 31, 0⟩
/-- HIDE_ASSIM_DROP: its address. -/
def R.HIDE_ASSIM_DROP : Nat := 0x01100054
/-- HIDE_ASSIM_DROP[31:0]. -/
def F.HIDE_ASSIM_DROP_COUNT : Fld := ⟨R.HIDE_ASSIM_DROP, 31, 0⟩
/-- HIDE_SWEEP_MIN: its address. -/
def R.HIDE_SWEEP_MIN : Nat := 0x01100058
/-- HIDE_SWEEP_MIN[31:0]. -/
def F.HIDE_SWEEP_MIN_STITCHES : Fld := ⟨R.HIDE_SWEEP_MIN, 31, 0⟩
/-- HIDE_DEPK: its address. -/
def R.HIDE_DEPK (i : Nat) : Nat := 0x01100100 + 4 * i
/-- HIDE_DEPK[31:0]. -/
def F.HIDE_DEPK_GAIN (i : Nat) : Fld := ⟨(R.HIDE_DEPK i), 31, 0⟩
/-- HIDE_CURVE: its address. -/
def R.HIDE_CURVE (i : Nat) : Nat := 0x01100200 + 4 * i
/-- HIDE_CURVE[31:16]. -/
def F.HIDE_CURVE_ODD (i : Nat) : Fld := ⟨(R.HIDE_CURVE i), 31, 16⟩
/-- HIDE_CURVE[15:0]. -/
def F.HIDE_CURVE_EVEN (i : Nat) : Fld := ⟨(R.HIDE_CURVE i), 15, 0⟩
/-- AWL_CTRL: its address. -/
def R.AWL_CTRL (k : Nat) : Nat := 0x01200000 + 0x1000 * k
/-- AWL_CTRL[6:6]. -/
def F.AWL_CTRL_FOCUS_EN (k : Nat) : Fld := ⟨(R.AWL_CTRL k), 6, 6⟩
/-- AWL_CTRL[5:5]. -/
def F.AWL_CTRL_CORR_EN (k : Nat) : Fld := ⟨(R.AWL_CTRL k), 5, 5⟩
/-- AWL_CTRL[4:4]. -/
def F.AWL_CTRL_CORR_SEL (k : Nat) : Fld := ⟨(R.AWL_CTRL k), 4, 4⟩
/-- AWL_CTRL[2:2]. -/
def F.AWL_CTRL_NEGY (k : Nat) : Fld := ⟨(R.AWL_CTRL k), 2, 2⟩
/-- AWL_CTRL[1:1]. -/
def F.AWL_CTRL_NEGX (k : Nat) : Fld := ⟨(R.AWL_CTRL k), 1, 1⟩
/-- AWL_CTRL[0:0]. -/
def F.AWL_CTRL_SWAP (k : Nat) : Fld := ⟨(R.AWL_CTRL k), 0, 0⟩
/-- AWL_CMD: its address. -/
def R.AWL_CMD (k : Nat) : Nat := 0x01200004 + 0x1000 * k
/-- AWL_CMD[1:0]. -/
def F.AWL_CMD_CMD (k : Nat) : Fld := ⟨(R.AWL_CMD k), 1, 0⟩
/-- AWL_STATUS: its address. -/
def R.AWL_STATUS (k : Nat) : Nat := 0x01200008 + 0x1000 * k
/-- AWL_STATUS[31:28]. -/
def F.AWL_STATUS_STATE (k : Nat) : Fld := ⟨(R.AWL_STATUS k), 31, 28⟩
/-- AWL_STATUS[27:26]. -/
def F.AWL_STATUS_RESULT (k : Nat) : Fld := ⟨(R.AWL_STATUS k), 27, 26⟩
/-- AWL_STATUS[25:25]. -/
def F.AWL_STATUS_CORR_PEND (k : Nat) : Fld := ⟨(R.AWL_STATUS k), 25, 25⟩
/-- AWL_STATUS[24:22]. -/
def F.AWL_STATUS_WINDOW (k : Nat) : Fld := ⟨(R.AWL_STATUS k), 24, 22⟩
/-- AWL_STATUS[7:0]. -/
def F.AWL_STATUS_FAULT (k : Nat) : Fld := ⟨(R.AWL_STATUS k), 7, 0⟩
/-- AWL_ORIGIN_X: its address. -/
def R.AWL_ORIGIN_X (k : Nat) : Nat := 0x0120000C + 0x1000 * k
/-- AWL_ORIGIN_X[31:0]. -/
def F.AWL_ORIGIN_X_VALUE (k : Nat) : Fld := ⟨(R.AWL_ORIGIN_X k), 31, 0⟩
/-- AWL_ORIGIN_Y: its address. -/
def R.AWL_ORIGIN_Y (k : Nat) : Nat := 0x01200010 + 0x1000 * k
/-- AWL_ORIGIN_Y[31:0]. -/
def F.AWL_ORIGIN_Y_VALUE (k : Nat) : Fld := ⟨(R.AWL_ORIGIN_Y k), 31, 0⟩
/-- AWL_LIMIT_XMIN: its address. -/
def R.AWL_LIMIT_XMIN (k : Nat) : Nat := 0x01200014 + 0x1000 * k
/-- AWL_LIMIT_XMIN[23:0]. -/
def F.AWL_LIMIT_XMIN_VALUE (k : Nat) : Fld := ⟨(R.AWL_LIMIT_XMIN k), 23, 0⟩
/-- AWL_LIMIT_YMIN: its address. -/
def R.AWL_LIMIT_YMIN (k : Nat) : Nat := 0x01200018 + 0x1000 * k
/-- AWL_LIMIT_YMIN[23:0]. -/
def F.AWL_LIMIT_YMIN_VALUE (k : Nat) : Fld := ⟨(R.AWL_LIMIT_YMIN k), 23, 0⟩
/-- AWL_LIMIT_XMAX: its address. -/
def R.AWL_LIMIT_XMAX (k : Nat) : Nat := 0x0120001C + 0x1000 * k
/-- AWL_LIMIT_XMAX[23:0]. -/
def F.AWL_LIMIT_XMAX_VALUE (k : Nat) : Fld := ⟨(R.AWL_LIMIT_XMAX k), 23, 0⟩
/-- AWL_LIMIT_YMAX: its address. -/
def R.AWL_LIMIT_YMAX (k : Nat) : Nat := 0x01200020 + 0x1000 * k
/-- AWL_LIMIT_YMAX[23:0]. -/
def F.AWL_LIMIT_YMAX_VALUE (k : Nat) : Fld := ⟨(R.AWL_LIMIT_YMAX k), 23, 0⟩
/-- AWL_ACC: its address. -/
def R.AWL_ACC (k : Nat) : Nat := 0x01200024 + 0x1000 * k
/-- AWL_ACC[31:0]. -/
def F.AWL_ACC_VALUE (k : Nat) : Fld := ⟨(R.AWL_ACC k), 31, 0⟩
/-- AWL_JERK: its address. -/
def R.AWL_JERK (k : Nat) : Nat := 0x01200028 + 0x1000 * k
/-- AWL_JERK[31:0]. -/
def F.AWL_JERK_VALUE (k : Nat) : Fld := ⟨(R.AWL_JERK k), 31, 0⟩
/-- AWL_LAG: its address. -/
def R.AWL_LAG (k : Nat) : Nat := 0x0120002C + 0x1000 * k
/-- AWL_LAG[11:0]. -/
def F.AWL_LAG_VALUE (k : Nat) : Fld := ⟨(R.AWL_LAG k), 11, 0⟩
/-- AWL_GATE: its address. -/
def R.AWL_GATE (k : Nat) : Nat := 0x01200030 + 0x1000 * k
/-- AWL_GATE[27:16]. -/
def F.AWL_GATE_DLY_OFF (k : Nat) : Fld := ⟨(R.AWL_GATE k), 27, 16⟩
/-- AWL_GATE[11:0]. -/
def F.AWL_GATE_DLY_ON (k : Nat) : Fld := ⟨(R.AWL_GATE k), 11, 0⟩
/-- AWL_GATE_TRIM: its address. -/
def R.AWL_GATE_TRIM (k : Nat) : Nat := 0x01200034 + 0x1000 * k
/-- AWL_GATE_TRIM[31:16]. -/
def F.AWL_GATE_TRIM_TRIM_OFF (k : Nat) : Fld := ⟨(R.AWL_GATE_TRIM k), 31, 16⟩
/-- AWL_GATE_TRIM[15:0]. -/
def F.AWL_GATE_TRIM_TRIM_ON (k : Nat) : Fld := ⟨(R.AWL_GATE_TRIM k), 15, 0⟩
/-- AWL_CORNER: its address. -/
def R.AWL_CORNER (k : Nat) : Nat := 0x01200038 + 0x1000 * k
/-- AWL_CORNER[15:0]. -/
def F.AWL_CORNER_MAX_ANGLE (k : Nat) : Fld := ⟨(R.AWL_CORNER k), 15, 0⟩
/-- AWL_CORR_A: its address. -/
def R.AWL_CORR_A (k : Nat) : Nat := 0x0120003C + 0x1000 * k
/-- AWL_CORR_A[31:0]. -/
def F.AWL_CORR_A_HANDLE (k : Nat) : Fld := ⟨(R.AWL_CORR_A k), 31, 0⟩
/-- AWL_CORR_B: its address. -/
def R.AWL_CORR_B (k : Nat) : Nat := 0x01200040 + 0x1000 * k
/-- AWL_CORR_B[31:0]. -/
def F.AWL_CORR_B_HANDLE (k : Nat) : Fld := ⟨(R.AWL_CORR_B k), 31, 0⟩
/-- AWL_STROKEQ: its address. -/
def R.AWL_STROKEQ (k : Nat) : Nat := 0x01200044 + 0x1000 * k
/-- AWL_STROKEQ[31:0]. -/
def F.AWL_STROKEQ_HANDLE (k : Nat) : Fld := ⟨(R.AWL_STROKEQ k), 31, 0⟩
/-- AWL_CORR_SHIFT: its address. -/
def R.AWL_CORR_SHIFT (k : Nat) : Nat := 0x01200048 + 0x1000 * k
/-- AWL_CORR_SHIFT[23:0]. -/
def F.AWL_CORR_SHIFT_VALUE (k : Nat) : Fld := ⟨(R.AWL_CORR_SHIFT k), 23, 0⟩
/-- AWL_Z_OFS: its address. -/
def R.AWL_Z_OFS (k : Nat) : Nat := 0x0120004C + 0x1000 * k
/-- AWL_Z_OFS[23:0]. -/
def F.AWL_Z_OFS_VALUE (k : Nat) : Fld := ⟨(R.AWL_Z_OFS k), 23, 0⟩
/-- AWL_GOTO_X: its address. -/
def R.AWL_GOTO_X (k : Nat) : Nat := 0x01200050 + 0x1000 * k
/-- AWL_GOTO_X[31:0]. -/
def F.AWL_GOTO_X_VALUE (k : Nat) : Fld := ⟨(R.AWL_GOTO_X k), 31, 0⟩
/-- AWL_GOTO_Y: its address. -/
def R.AWL_GOTO_Y (k : Nat) : Nat := 0x01200054 + 0x1000 * k
/-- AWL_GOTO_Y[31:0]. -/
def F.AWL_GOTO_Y_VALUE (k : Nat) : Fld := ⟨(R.AWL_GOTO_Y k), 31, 0⟩
/-- AWL_GOTO_SPEED: its address. -/
def R.AWL_GOTO_SPEED (k : Nat) : Nat := 0x01200058 + 0x1000 * k
/-- AWL_GOTO_SPEED[31:0]. -/
def F.AWL_GOTO_SPEED_VALUE (k : Nat) : Fld := ⟨(R.AWL_GOTO_SPEED k), 31, 0⟩
/-- AWL_POS_X: its address. -/
def R.AWL_POS_X (k : Nat) : Nat := 0x0120005C + 0x1000 * k
/-- AWL_POS_X[31:0]. -/
def F.AWL_POS_X_VALUE (k : Nat) : Fld := ⟨(R.AWL_POS_X k), 31, 0⟩
/-- AWL_POS_Y: its address. -/
def R.AWL_POS_Y (k : Nat) : Nat := 0x01200060 + 0x1000 * k
/-- AWL_POS_Y[31:0]. -/
def F.AWL_POS_Y_VALUE (k : Nat) : Fld := ⟨(R.AWL_POS_Y k), 31, 0⟩
/-- AWL_UNDERRUN_CNT: its address. -/
def R.AWL_UNDERRUN_CNT (k : Nat) : Nat := 0x01200064 + 0x1000 * k
/-- AWL_UNDERRUN_CNT[31:0]. -/
def F.AWL_UNDERRUN_CNT_COUNT (k : Nat) : Fld := ⟨(R.AWL_UNDERRUN_CNT k), 31, 0⟩
/-- AWL_DEFER_CNT: its address. -/
def R.AWL_DEFER_CNT (k : Nat) : Nat := 0x01200068 + 0x1000 * k
/-- AWL_DEFER_CNT[31:0]. -/
def F.AWL_DEFER_CNT_COUNT (k : Nat) : Fld := ⟨(R.AWL_DEFER_CNT k), 31, 0⟩
/-- AWL_SHORT_CNT: its address. -/
def R.AWL_SHORT_CNT (k : Nat) : Nat := 0x0120006C + 0x1000 * k
/-- AWL_SHORT_CNT[31:0]. -/
def F.AWL_SHORT_CNT_COUNT (k : Nat) : Fld := ⟨(R.AWL_SHORT_CNT k), 31, 0⟩
/-- AWL_ARC_SLOW_CNT: its address. -/
def R.AWL_ARC_SLOW_CNT (k : Nat) : Nat := 0x01200070 + 0x1000 * k
/-- AWL_ARC_SLOW_CNT[31:0]. -/
def F.AWL_ARC_SLOW_CNT_COUNT (k : Nat) : Fld := ⟨(R.AWL_ARC_SLOW_CNT k), 31, 0⟩
/-- REIN_CTRL: its address. -/
def R.REIN_CTRL (k : Nat) : Nat := 0x01400000 + 0x800 * k
/-- REIN_CTRL[13:12]. -/
def F.REIN_CTRL_POLICY (k : Nat) : Fld := ⟨(R.REIN_CTRL k), 13, 12⟩
/-- REIN_CTRL[11:8]. -/
def F.REIN_CTRL_PWIN (k : Nat) : Fld := ⟨(R.REIN_CTRL k), 11, 8⟩
/-- REIN_CTRL[7:5]. -/
def F.REIN_CTRL_CH (k : Nat) : Fld := ⟨(R.REIN_CTRL k), 7, 5⟩
/-- REIN_CTRL[4:3]. -/
def F.REIN_CTRL_SPSRC (k : Nat) : Fld := ⟨(R.REIN_CTRL k), 4, 3⟩
/-- REIN_CTRL[2:1]. -/
def F.REIN_CTRL_VAR (k : Nat) : Fld := ⟨(R.REIN_CTRL k), 2, 1⟩
/-- REIN_CTRL[0:0]. -/
def F.REIN_CTRL_MODE (k : Nat) : Fld := ⟨(R.REIN_CTRL k), 0, 0⟩
/-- REIN_CMD: its address. -/
def R.REIN_CMD (k : Nat) : Nat := 0x01400004 + 0x800 * k
/-- REIN_CMD[0:0]. -/
def F.REIN_CMD_TRIM_LOAD (k : Nat) : Fld := ⟨(R.REIN_CMD k), 0, 0⟩
/-- REIN_STATUS: its address. -/
def R.REIN_STATUS (k : Nat) : Nat := 0x01400008 + 0x800 * k
/-- REIN_STATUS[31:29]. -/
def F.REIN_STATUS_LOOP (k : Nat) : Fld := ⟨(R.REIN_STATUS k), 31, 29⟩
/-- REIN_STATUS[28:27]. -/
def F.REIN_STATUS_LEVEL (k : Nat) : Fld := ⟨(R.REIN_STATUS k), 28, 27⟩
/-- REIN_STATUS[26:26]. -/
def F.REIN_STATUS_TRIM_LIMIT (k : Nat) : Fld := ⟨(R.REIN_STATUS k), 26, 26⟩
/-- REIN_STATUS[5:5]. -/
def F.REIN_STATUS_HANDED (k : Nat) : Fld := ⟨(R.REIN_STATUS k), 5, 5⟩
/-- REIN_STATUS[4:4]. -/
def F.REIN_STATUS_TRIM_CLAMPED (k : Nat) : Fld := ⟨(R.REIN_STATUS k), 4, 4⟩
/-- REIN_STATUS[3:3]. -/
def F.REIN_STATUS_FROZEN (k : Nat) : Fld := ⟨(R.REIN_STATUS k), 3, 3⟩
/-- REIN_STATUS[2:2]. -/
def F.REIN_STATUS_LOST (k : Nat) : Fld := ⟨(R.REIN_STATUS k), 2, 2⟩
/-- REIN_STATUS[1:1]. -/
def F.REIN_STATUS_FOLLOWING (k : Nat) : Fld := ⟨(R.REIN_STATUS k), 1, 1⟩
/-- REIN_STATUS[0:0]. -/
def F.REIN_STATUS_CEIL_CLIP (k : Nat) : Fld := ⟨(R.REIN_STATUS k), 0, 0⟩
/-- REIN_TRIM_CFG: its address. -/
def R.REIN_TRIM_CFG (k : Nat) : Nat := 0x0140000C + 0x800 * k
/-- REIN_TRIM_CFG[31:16]. -/
def F.REIN_TRIM_CFG_TARGET (k : Nat) : Fld := ⟨(R.REIN_TRIM_CFG k), 31, 16⟩
/-- REIN_TRIM_CFG[15:0]. -/
def F.REIN_TRIM_CFG_GAIN (k : Nat) : Fld := ⟨(R.REIN_TRIM_CFG k), 15, 0⟩
/-- REIN_TRIM_MAX: its address. -/
def R.REIN_TRIM_MAX (k : Nat) : Nat := 0x01400010 + 0x800 * k
/-- REIN_TRIM_MAX[15:0]. -/
def F.REIN_TRIM_MAX_VALUE (k : Nat) : Fld := ⟨(R.REIN_TRIM_MAX k), 15, 0⟩
/-- REIN_TRIM_LOAD: its address. -/
def R.REIN_TRIM_LOAD (k : Nat) : Nat := 0x01400014 + 0x800 * k
/-- REIN_TRIM_LOAD[15:0]. -/
def F.REIN_TRIM_LOAD_VALUE (k : Nat) : Fld := ⟨(R.REIN_TRIM_LOAD k), 15, 0⟩
/-- REIN_TRIM_STATE: its address. -/
def R.REIN_TRIM_STATE (k : Nat) : Nat := 0x01400018 + 0x800 * k
/-- REIN_TRIM_STATE[31:0]. -/
def F.REIN_TRIM_STATE_OFFSET (k : Nat) : Fld := ⟨(R.REIN_TRIM_STATE k), 31, 0⟩
/-- REIN_FE: its address. -/
def R.REIN_FE (k : Nat) : Nat := 0x0140001C + 0x800 * k
/-- REIN_FE[31:16]. -/
def F.REIN_FE_FE_TIME (k : Nat) : Fld := ⟨(R.REIN_FE k), 31, 16⟩
/-- REIN_FE[15:0]. -/
def F.REIN_FE_FE_LIMIT (k : Nat) : Fld := ⟨(R.REIN_FE k), 15, 0⟩
/-- REIN_FB: its address. -/
def R.REIN_FB (k : Nat) : Nat := 0x01400020 + 0x800 * k
/-- REIN_FB[31:16]. -/
def F.REIN_FB_FROZEN_N (k : Nat) : Fld := ⟨(R.REIN_FB k), 31, 16⟩
/-- REIN_FB[15:0]. -/
def F.REIN_FB_LOST_N (k : Nat) : Fld := ⟨(R.REIN_FB k), 15, 0⟩
/-- REIN_SP_OFS: its address. -/
def R.REIN_SP_OFS (k : Nat) : Nat := 0x01400024 + 0x800 * k
/-- REIN_SP_OFS[15:0]. -/
def F.REIN_SP_OFS_VALUE (k : Nat) : Fld := ⟨(R.REIN_SP_OFS k), 15, 0⟩
/-- REIN_SP_GAIN: its address. -/
def R.REIN_SP_GAIN (k : Nat) : Nat := 0x01400028 + 0x800 * k
/-- REIN_SP_GAIN[31:0]. -/
def F.REIN_SP_GAIN_VALUE (k : Nat) : Fld := ⟨(R.REIN_SP_GAIN k), 31, 0⟩
/-- REIN_RAMP: its address. -/
def R.REIN_RAMP (k : Nat) : Nat := 0x0140002C + 0x800 * k
/-- REIN_RAMP[15:0]. -/
def F.REIN_RAMP_VALUE (k : Nat) : Fld := ⟨(R.REIN_RAMP k), 15, 0⟩
/-- REIN_MINSIG: its address. -/
def R.REIN_MINSIG (k : Nat) : Nat := 0x01400030 + 0x800 * k
/-- REIN_MINSIG[15:0]. -/
def F.REIN_MINSIG_VALUE (k : Nat) : Fld := ⟨(R.REIN_MINSIG k), 15, 0⟩
/-- REIN_STATQ: its address. -/
def R.REIN_STATQ (k : Nat) : Nat := 0x01400034 + 0x800 * k
/-- REIN_STATQ[31:0]. -/
def F.REIN_STATQ_HANDLE (k : Nat) : Fld := ⟨(R.REIN_STATQ k), 31, 0⟩
/-- REIN_CEILING: its address. -/
def R.REIN_CEILING (k : Nat) : Nat := 0x01400038 + 0x800 * k
/-- REIN_CEILING[19:0]. -/
def F.REIN_CEILING_WATTS (k : Nat) : Fld := ⟨(R.REIN_CEILING k), 19, 0⟩
/-- REIN_THR_CEIL: its address. -/
def R.REIN_THR_CEIL (k : Nat) : Nat := 0x0140003C + 0x800 * k
/-- REIN_THR_CEIL[15:0]. -/
def F.REIN_THR_CEIL_CODE (k : Nat) : Fld := ⟨(R.REIN_THR_CEIL k), 15, 0⟩
/-- REIN_MEAS: its address. -/
def R.REIN_MEAS (k : Nat) : Nat := 0x01400040 + 0x800 * k
/-- REIN_MEAS[31:16]. -/
def F.REIN_MEAS_SP (k : Nat) : Fld := ⟨(R.REIN_MEAS k), 31, 16⟩
/-- REIN_MEAS[15:0]. -/
def F.REIN_MEAS_M (k : Nat) : Fld := ⟨(R.REIN_MEAS k), 15, 0⟩
/-- REIN_POWER: its address. -/
def R.REIN_POWER (k : Nat) : Nat := 0x01400044 + 0x800 * k
/-- REIN_POWER[31:16]. -/
def F.REIN_POWER_PFF (k : Nat) : Fld := ⟨(R.REIN_POWER k), 31, 16⟩
/-- REIN_POWER[15:0]. -/
def F.REIN_POWER_CMD (k : Nat) : Fld := ⟨(R.REIN_POWER k), 15, 0⟩
/-- REIN_SWITCH_CNT: its address. -/
def R.REIN_SWITCH_CNT (k : Nat) : Nat := 0x01400048 + 0x800 * k
/-- REIN_SWITCH_CNT[31:0]. -/
def F.REIN_SWITCH_CNT_COUNT (k : Nat) : Fld := ⟨(R.REIN_SWITCH_CNT k), 31, 0⟩
/-- REIN_DWELL_CNT: its address. -/
def R.REIN_DWELL_CNT (k : Nat) : Nat := 0x0140004C + 0x800 * k
/-- REIN_DWELL_CNT[31:0]. -/
def F.REIN_DWELL_CNT_COUNT (k : Nat) : Fld := ⟨(R.REIN_DWELL_CNT k), 31, 0⟩
/-- REIN_SEQ_GAP: its address. -/
def R.REIN_SEQ_GAP (k : Nat) : Nat := 0x01400050 + 0x800 * k
/-- REIN_SEQ_GAP[31:0]. -/
def F.REIN_SEQ_GAP_COUNT (k : Nat) : Fld := ⟨(R.REIN_SEQ_GAP k), 31, 0⟩
/-- REIN_STAT_SKIP: its address. -/
def R.REIN_STAT_SKIP (k : Nat) : Nat := 0x01400054 + 0x800 * k
/-- REIN_STAT_SKIP[31:0]. -/
def F.REIN_STAT_SKIP_COUNT (k : Nat) : Fld := ⟨(R.REIN_STAT_SKIP k), 31, 0⟩
/-- REIN_CLIP_CNT: its address. -/
def R.REIN_CLIP_CNT (k : Nat) : Nat := 0x01400058 + 0x800 * k
/-- REIN_CLIP_CNT[31:0]. -/
def F.REIN_CLIP_CNT_COUNT (k : Nat) : Fld := ⟨(R.REIN_CLIP_CNT k), 31, 0⟩
/-- REIN_RATIO_LUT: its address. -/
def R.REIN_RATIO_LUT (k : Nat) (i : Nat) : Nat := 0x01400100 + 0x800 * k + 4 * i
/-- REIN_RATIO_LUT[31:16]. -/
def F.REIN_RATIO_LUT_ODD (k : Nat) (i : Nat) : Fld := ⟨(R.REIN_RATIO_LUT k i), 31, 16⟩
/-- REIN_RATIO_LUT[15:0]. -/
def F.REIN_RATIO_LUT_EVEN (k : Nat) (i : Nat) : Fld := ⟨(R.REIN_RATIO_LUT k i), 15, 0⟩
/-- REIN_TRC_CTRL: its address. -/
def R.REIN_TRC_CTRL (k : Nat) (i : Nat) : Nat := 0x01400400 + 0x800 * k + 64 * i
/-- REIN_TRC_CTRL[31:31]. -/
def F.REIN_TRC_CTRL_ARM (k : Nat) (i : Nat) : Fld := ⟨(R.REIN_TRC_CTRL k i), 31, 31⟩
/-- REIN_TRC_CTRL[30:30]. -/
def F.REIN_TRC_CTRL_STOP (k : Nat) (i : Nat) : Fld := ⟨(R.REIN_TRC_CTRL k i), 30, 30⟩
/-- REIN_TRC_CTRL[29:29]. -/
def F.REIN_TRC_CTRL_FORCE (k : Nat) (i : Nat) : Fld := ⟨(R.REIN_TRC_CTRL k i), 29, 29⟩
/-- REIN_TRC_CTRL[28:28]. -/
def F.REIN_TRC_CTRL_REARM (k : Nat) (i : Nat) : Fld := ⟨(R.REIN_TRC_CTRL k i), 28, 28⟩
/-- REIN_TRC_CTRL[18:16]. -/
def F.REIN_TRC_CTRL_COUNT (k : Nat) (i : Nat) : Fld := ⟨(R.REIN_TRC_CTRL k i), 18, 16⟩
/-- REIN_TRC_CTRL[15:0]. -/
def F.REIN_TRC_CTRL_NODES (k : Nat) (i : Nat) : Fld := ⟨(R.REIN_TRC_CTRL k i), 15, 0⟩
/-- REIN_TRC_TRIG: its address. -/
def R.REIN_TRC_TRIG (k : Nat) (i : Nat) : Nat := 0x01400404 + 0x800 * k + 64 * i
/-- REIN_TRC_TRIG[7:4]. -/
def F.REIN_TRC_TRIG_SOURCE (k : Nat) (i : Nat) : Fld := ⟨(R.REIN_TRC_TRIG k i), 7, 4⟩
/-- REIN_TRC_TRIG[3:0]. -/
def F.REIN_TRC_TRIG_TNODE (k : Nat) (i : Nat) : Fld := ⟨(R.REIN_TRC_TRIG k i), 3, 0⟩
/-- REIN_TRC_LEVEL: its address. -/
def R.REIN_TRC_LEVEL (k : Nat) (i : Nat) : Nat := 0x01400408 + 0x800 * k + 64 * i
/-- REIN_TRC_LEVEL[31:0]. -/
def F.REIN_TRC_LEVEL_VALUE (k : Nat) (i : Nat) : Fld := ⟨(R.REIN_TRC_LEVEL k i), 31, 0⟩
/-- REIN_TRC_DEPTH: its address. -/
def R.REIN_TRC_DEPTH (k : Nat) (i : Nat) : Nat := 0x0140040C + 0x800 * k + 64 * i
/-- REIN_TRC_DEPTH[31:16]. -/
def F.REIN_TRC_DEPTH_POST (k : Nat) (i : Nat) : Fld := ⟨(R.REIN_TRC_DEPTH k i), 31, 16⟩
/-- REIN_TRC_DEPTH[9:0]. -/
def F.REIN_TRC_DEPTH_PRE (k : Nat) (i : Nat) : Fld := ⟨(R.REIN_TRC_DEPTH k i), 9, 0⟩
/-- REIN_TRC_Q: its address. -/
def R.REIN_TRC_Q (k : Nat) (i : Nat) : Nat := 0x01400410 + 0x800 * k + 64 * i
/-- REIN_TRC_Q[31:0]. -/
def F.REIN_TRC_Q_HANDLE (k : Nat) (i : Nat) : Fld := ⟨(R.REIN_TRC_Q k i), 31, 0⟩
/-- REIN_TRC_STATUS: its address. -/
def R.REIN_TRC_STATUS (k : Nat) (i : Nat) : Nat := 0x01400414 + 0x800 * k + 64 * i
/-- REIN_TRC_STATUS[31:30]. -/
def F.REIN_TRC_STATUS_STATE (k : Nat) (i : Nat) : Fld := ⟨(R.REIN_TRC_STATUS k i), 31, 30⟩
/-- REIN_TRC_STATUS[15:0]. -/
def F.REIN_TRC_STATUS_LOST (k : Nat) (i : Nat) : Fld := ⟨(R.REIN_TRC_STATUS k i), 15, 0⟩
/-- IMG_CTRL: its address. -/
def R.IMG_CTRL (k : Nat) : Nat := 0x01600000 + 0x4000 * k
/-- IMG_CTRL[8:8]. -/
def F.IMG_CTRL_BED_EN (k : Nat) : Fld := ⟨(R.IMG_CTRL k), 8, 8⟩
/-- IMG_CTRL[3:0]. -/
def F.IMG_CTRL_EN (k : Nat) : Fld := ⟨(R.IMG_CTRL k), 3, 0⟩
/-- IMG_COMMIT: its address. -/
def R.IMG_COMMIT (k : Nat) : Nat := 0x01600004 + 0x4000 * k
/-- IMG_COMMIT[13:13]. -/
def F.IMG_COMMIT_BED_PIPE (k : Nat) : Fld := ⟨(R.IMG_COMMIT k), 13, 13⟩
/-- IMG_COMMIT[12:12]. -/
def F.IMG_COMMIT_BED_CAM (k : Nat) : Fld := ⟨(R.IMG_COMMIT k), 12, 12⟩
/-- IMG_COMMIT[11:8]. -/
def F.IMG_COMMIT_PIPE (k : Nat) : Fld := ⟨(R.IMG_COMMIT k), 11, 8⟩
/-- IMG_COMMIT[3:0]. -/
def F.IMG_COMMIT_CAM (k : Nat) : Fld := ⟨(R.IMG_COMMIT k), 3, 0⟩
/-- IMG_STATUS: its address. -/
def R.IMG_STATUS (k : Nat) : Nat := 0x01600008 + 0x4000 * k
/-- IMG_STATUS[18:18]. -/
def F.IMG_STATUS_ZERO_LEN (k : Nat) : Fld := ⟨(R.IMG_STATUS k), 18, 18⟩
/-- IMG_STATUS[17:17]. -/
def F.IMG_STATUS_SEQ (k : Nat) : Fld := ⟨(R.IMG_STATUS k), 17, 17⟩
/-- IMG_STATUS[16:16]. -/
def F.IMG_STATUS_STAT_REFUSED (k : Nat) : Fld := ⟨(R.IMG_STATUS k), 16, 16⟩
/-- IMG_STATUS[15:15]. -/
def F.IMG_STATUS_OVERLOAD (k : Nat) : Fld := ⟨(R.IMG_STATUS k), 15, 15⟩
/-- IMG_STATUS[10:8]. -/
def F.IMG_STATUS_RESULT (k : Nat) : Fld := ⟨(R.IMG_STATUS k), 10, 8⟩
/-- IMG_STATUS[3:0]. -/
def F.IMG_STATUS_ENABLED (k : Nat) : Fld := ⟨(R.IMG_STATUS k), 3, 0⟩
/-- IMG_EVQ: its address. -/
def R.IMG_EVQ (k : Nat) : Nat := 0x0160000C + 0x4000 * k
/-- IMG_EVQ[31:0]. -/
def F.IMG_EVQ_HANDLE (k : Nat) : Fld := ⟨(R.IMG_EVQ k), 31, 0⟩
/-- IMG_SRC: its address. -/
def R.IMG_SRC (k : Nat) (i : Nat) : Nat := 0x01600100 + 0x4000 * k + 256 * i
/-- IMG_SRC[17:16]. -/
def F.IMG_SRC_MOSAIC (k : Nat) (i : Nat) : Fld := ⟨(R.IMG_SRC k i), 17, 16⟩
/-- IMG_SRC[15:8]. -/
def F.IMG_SRC_CAM_ID (k : Nat) (i : Nat) : Fld := ⟨(R.IMG_SRC k i), 15, 8⟩
/-- IMG_SRC[5:0]. -/
def F.IMG_SRC_HEAD (k : Nat) (i : Nat) : Fld := ⟨(R.IMG_SRC k i), 5, 0⟩
/-- IMG_TRIG: its address. -/
def R.IMG_TRIG (k : Nat) (i : Nat) : Nat := 0x01600104 + 0x4000 * k + 256 * i
/-- IMG_TRIG[31:16]. -/
def F.IMG_TRIG_PHASE (k : Nat) (i : Nat) : Fld := ⟨(R.IMG_TRIG k i), 31, 16⟩
/-- IMG_TRIG[15:0]. -/
def F.IMG_TRIG_PERIOD (k : Nat) (i : Nat) : Fld := ⟨(R.IMG_TRIG k i), 15, 0⟩
/-- IMG_DEADLINE: its address. -/
def R.IMG_DEADLINE (k : Nat) (i : Nat) : Nat := 0x01600108 + 0x4000 * k + 256 * i
/-- IMG_DEADLINE[15:0]. -/
def F.IMG_DEADLINE_STITCHES (k : Nat) (i : Nat) : Fld := ⟨(R.IMG_DEADLINE k i), 15, 0⟩
/-- IMG_CAM_EXPO: its address. -/
def R.IMG_CAM_EXPO (k : Nat) (i : Nat) : Nat := 0x0160010C + 0x4000 * k + 256 * i
/-- IMG_CAM_EXPO[27:20]. -/
def F.IMG_CAM_EXPO_GAIN (k : Nat) (i : Nat) : Fld := ⟨(R.IMG_CAM_EXPO k i), 27, 20⟩
/-- IMG_CAM_EXPO[19:0]. -/
def F.IMG_CAM_EXPO_EXPOSURE (k : Nat) (i : Nat) : Fld := ⟨(R.IMG_CAM_EXPO k i), 19, 0⟩
/-- IMG_CAM_ROI: its address. -/
def R.IMG_CAM_ROI (k : Nat) (i : Nat) : Nat := 0x01600110 + 0x4000 * k + 256 * i
/-- IMG_CAM_ROI[27:16]. -/
def F.IMG_CAM_ROI_Y0 (k : Nat) (i : Nat) : Fld := ⟨(R.IMG_CAM_ROI k i), 27, 16⟩
/-- IMG_CAM_ROI[11:0]. -/
def F.IMG_CAM_ROI_X0 (k : Nat) (i : Nat) : Fld := ⟨(R.IMG_CAM_ROI k i), 11, 0⟩
/-- IMG_CAM_SIZE: its address. -/
def R.IMG_CAM_SIZE (k : Nat) (i : Nat) : Nat := 0x01600114 + 0x4000 * k + 256 * i
/-- IMG_CAM_SIZE[27:16]. -/
def F.IMG_CAM_SIZE_H (k : Nat) (i : Nat) : Fld := ⟨(R.IMG_CAM_SIZE k i), 27, 16⟩
/-- IMG_CAM_SIZE[11:0]. -/
def F.IMG_CAM_SIZE_W (k : Nat) (i : Nat) : Fld := ⟨(R.IMG_CAM_SIZE k i), 11, 0⟩
/-- IMG_CAM_ID: its address. -/
def R.IMG_CAM_ID (k : Nat) (i : Nat) : Nat := 0x01600118 + 0x4000 * k + 256 * i
/-- IMG_CAM_ID[23:16]. -/
def F.IMG_CAM_ID_LAST_APPLIED (k : Nat) (i : Nat) : Fld := ⟨(R.IMG_CAM_ID k i), 23, 16⟩
/-- IMG_CAM_ID[15:8]. -/
def F.IMG_CAM_ID_PENDING (k : Nat) (i : Nat) : Fld := ⟨(R.IMG_CAM_ID k i), 15, 8⟩
/-- IMG_CAM_ID[7:0]. -/
def F.IMG_CAM_ID_SENT (k : Nat) (i : Nat) : Fld := ⟨(R.IMG_CAM_ID k i), 7, 0⟩
/-- IMG_SIZE: its address. -/
def R.IMG_SIZE (k : Nat) (i : Nat) : Nat := 0x0160011C + 0x4000 * k + 256 * i
/-- IMG_SIZE[31:28]. -/
def F.IMG_SIZE_OB_ROWS (k : Nat) (i : Nat) : Fld := ⟨(R.IMG_SIZE k i), 31, 28⟩
/-- IMG_SIZE[27:16]. -/
def F.IMG_SIZE_HEIGHT (k : Nat) (i : Nat) : Fld := ⟨(R.IMG_SIZE k i), 27, 16⟩
/-- IMG_SIZE[11:0]. -/
def F.IMG_SIZE_WIDTH (k : Nat) (i : Nat) : Fld := ⟨(R.IMG_SIZE k i), 11, 0⟩
/-- IMG_BLACK01: its address. -/
def R.IMG_BLACK01 (k : Nat) (i : Nat) : Nat := 0x01600120 + 0x4000 * k + 256 * i
/-- IMG_BLACK01[31:16]. -/
def F.IMG_BLACK01_CH1 (k : Nat) (i : Nat) : Fld := ⟨(R.IMG_BLACK01 k i), 31, 16⟩
/-- IMG_BLACK01[15:0]. -/
def F.IMG_BLACK01_CH0 (k : Nat) (i : Nat) : Fld := ⟨(R.IMG_BLACK01 k i), 15, 0⟩
/-- IMG_BLACK23: its address. -/
def R.IMG_BLACK23 (k : Nat) (i : Nat) : Nat := 0x01600124 + 0x4000 * k + 256 * i
/-- IMG_BLACK23[31:16]. -/
def F.IMG_BLACK23_CH3 (k : Nat) (i : Nat) : Fld := ⟨(R.IMG_BLACK23 k i), 31, 16⟩
/-- IMG_BLACK23[15:0]. -/
def F.IMG_BLACK23_CH2 (k : Nat) (i : Nat) : Fld := ⟨(R.IMG_BLACK23 k i), 15, 0⟩
/-- IMG_OB: its address. -/
def R.IMG_OB (k : Nat) (i : Nat) : Nat := 0x01600128 + 0x4000 * k + 256 * i
/-- IMG_OB[31:31]. -/
def F.IMG_OB_OB_EN (k : Nat) (i : Nat) : Fld := ⟨(R.IMG_OB k i), 31, 31⟩
/-- IMG_OB[15:0]. -/
def F.IMG_OB_OB_GAIN (k : Nat) (i : Nat) : Fld := ⟨(R.IMG_OB k i), 15, 0⟩
/-- IMG_DPC: its address. -/
def R.IMG_DPC (k : Nat) (i : Nat) : Nat := 0x0160012C + 0x4000 * k + 256 * i
/-- IMG_DPC[31:31]. -/
def F.IMG_DPC_DYN_EN (k : Nat) (i : Nat) : Fld := ⟨(R.IMG_DPC k i), 31, 31⟩
/-- IMG_DPC[27:16]. -/
def F.IMG_DPC_DPC_THR (k : Nat) (i : Nat) : Fld := ⟨(R.IMG_DPC k i), 27, 16⟩
/-- IMG_DPC[10:0]. -/
def F.IMG_DPC_COUNT (k : Nat) (i : Nat) : Fld := ⟨(R.IMG_DPC k i), 10, 0⟩
/-- IMG_SEG: its address. -/
def R.IMG_SEG (k : Nat) (i : Nat) : Nat := 0x01600130 + 0x4000 * k + 256 * i
/-- IMG_SEG[23:16]. -/
def F.IMG_SEG_SPAT_MIN (k : Nat) (i : Nat) : Fld := ⟨(R.IMG_SEG k i), 23, 16⟩
/-- IMG_SEG[15:0]. -/
def F.IMG_SEG_POOL (k : Nat) (i : Nat) : Fld := ⟨(R.IMG_SEG k i), 15, 0⟩
/-- IMG_HIST: its address. -/
def R.IMG_HIST (k : Nat) (i : Nat) : Nat := 0x01600134 + 0x4000 * k + 256 * i
/-- IMG_HIST[19:16]. -/
def F.IMG_HIST_SHIFT (k : Nat) (i : Nat) : Fld := ⟨(R.IMG_HIST k i), 19, 16⟩
/-- IMG_HIST[15:0]. -/
def F.IMG_HIST_T0 (k : Nat) (i : Nat) : Fld := ⟨(R.IMG_HIST k i), 15, 0⟩
/-- IMG_MINSIG: its address. -/
def R.IMG_MINSIG (k : Nat) (i : Nat) : Nat := 0x01600138 + 0x4000 * k + 256 * i
/-- IMG_MINSIG[15:0]. -/
def F.IMG_MINSIG_FLOOR (k : Nat) (i : Nat) : Fld := ⟨(R.IMG_MINSIG k i), 15, 0⟩
/-- IMG_ASSIM: its address. -/
def R.IMG_ASSIM (k : Nat) (i : Nat) : Nat := 0x0160013C + 0x4000 * k + 256 * i
/-- IMG_ASSIM[31:31]. -/
def F.IMG_ASSIM_EN (k : Nat) (i : Nat) : Fld := ⟨(R.IMG_ASSIM k i), 31, 31⟩
/-- IMG_ASSIM[23:0]. -/
def F.IMG_ASSIM_PIXPITCH (k : Nat) (i : Nat) : Fld := ⟨(R.IMG_ASSIM k i), 23, 0⟩
/-- IMG_RETAIN: its address. -/
def R.IMG_RETAIN (k : Nat) (i : Nat) : Nat := 0x01600140 + 0x4000 * k + 256 * i
/-- IMG_RETAIN[18:18]. -/
def F.IMG_RETAIN_TAP (k : Nat) (i : Nat) : Fld := ⟨(R.IMG_RETAIN k i), 18, 18⟩
/-- IMG_RETAIN[17:16]. -/
def F.IMG_RETAIN_DS (k : Nat) (i : Nat) : Fld := ⟨(R.IMG_RETAIN k i), 17, 16⟩
/-- IMG_RETAIN[15:0]. -/
def F.IMG_RETAIN_EVERY (k : Nat) (i : Nat) : Fld := ⟨(R.IMG_RETAIN k i), 15, 0⟩
/-- IMG_CROP_XY: its address. -/
def R.IMG_CROP_XY (k : Nat) (i : Nat) : Nat := 0x01600144 + 0x4000 * k + 256 * i
/-- IMG_CROP_XY[27:16]. -/
def F.IMG_CROP_XY_Y0 (k : Nat) (i : Nat) : Fld := ⟨(R.IMG_CROP_XY k i), 27, 16⟩
/-- IMG_CROP_XY[11:0]. -/
def F.IMG_CROP_XY_X0 (k : Nat) (i : Nat) : Fld := ⟨(R.IMG_CROP_XY k i), 11, 0⟩
/-- IMG_CROP_WH: its address. -/
def R.IMG_CROP_WH (k : Nat) (i : Nat) : Nat := 0x01600148 + 0x4000 * k + 256 * i
/-- IMG_CROP_WH[27:16]. -/
def F.IMG_CROP_WH_H (k : Nat) (i : Nat) : Fld := ⟨(R.IMG_CROP_WH k i), 27, 16⟩
/-- IMG_CROP_WH[11:0]. -/
def F.IMG_CROP_WH_W (k : Nat) (i : Nat) : Fld := ⟨(R.IMG_CROP_WH k i), 11, 0⟩
/-- IMG_DPC_MAP: its address. -/
def R.IMG_DPC_MAP (k : Nat) (i : Nat) : Nat := 0x01600150 + 0x4000 * k + 256 * i
/-- IMG_DPC_MAP[31:0]. -/
def F.IMG_DPC_MAP_HANDLE (k : Nat) (i : Nat) : Fld := ⟨(R.IMG_DPC_MAP k i), 31, 0⟩
/-- IMG_SHADE: its address. -/
def R.IMG_SHADE (k : Nat) (i : Nat) : Nat := 0x01600154 + 0x4000 * k + 256 * i
/-- IMG_SHADE[31:0]. -/
def F.IMG_SHADE_HANDLE (k : Nat) (i : Nat) : Fld := ⟨(R.IMG_SHADE k i), 31, 0⟩
/-- IMG_TLUT: its address. -/
def R.IMG_TLUT (k : Nat) (i : Nat) : Nat := 0x01600158 + 0x4000 * k + 256 * i
/-- IMG_TLUT[31:0]. -/
def F.IMG_TLUT_HANDLE (k : Nat) (i : Nat) : Fld := ⟨(R.IMG_TLUT k i), 31, 0⟩
/-- IMG_STATQ: its address. -/
def R.IMG_STATQ (k : Nat) (i : Nat) : Nat := 0x0160015C + 0x4000 * k + 256 * i
/-- IMG_STATQ[31:0]. -/
def F.IMG_STATQ_HANDLE (k : Nat) (i : Nat) : Fld := ⟨(R.IMG_STATQ k i), 31, 0⟩
/-- IMG_ASSIM_Q: its address. -/
def R.IMG_ASSIM_Q (k : Nat) (i : Nat) : Nat := 0x01600160 + 0x4000 * k + 256 * i
/-- IMG_ASSIM_Q[31:0]. -/
def F.IMG_ASSIM_Q_HANDLE (k : Nat) (i : Nat) : Fld := ⟨(R.IMG_ASSIM_Q k i), 31, 0⟩
/-- IMG_RETAIN_Q: its address. -/
def R.IMG_RETAIN_Q (k : Nat) (i : Nat) : Nat := 0x01600164 + 0x4000 * k + 256 * i
/-- IMG_RETAIN_Q[31:0]. -/
def F.IMG_RETAIN_Q_HANDLE (k : Nat) (i : Nat) : Fld := ⟨(R.IMG_RETAIN_Q k i), 31, 0⟩
/-- IMG_FRAME_CNT: its address. -/
def R.IMG_FRAME_CNT (k : Nat) (i : Nat) : Nat := 0x01600180 + 0x4000 * k + 256 * i
/-- IMG_FRAME_CNT[31:0]. -/
def F.IMG_FRAME_CNT_COUNT (k : Nat) (i : Nat) : Fld := ⟨(R.IMG_FRAME_CNT k i), 31, 0⟩
/-- IMG_FLAG_CNT: its address. -/
def R.IMG_FLAG_CNT (k : Nat) (i : Nat) : Nat := 0x01600184 + 0x4000 * k + 256 * i
/-- IMG_FLAG_CNT[31:0]. -/
def F.IMG_FLAG_CNT_COUNT (k : Nat) (i : Nat) : Fld := ⟨(R.IMG_FLAG_CNT k i), 31, 0⟩
/-- IMG_MISMATCH: its address. -/
def R.IMG_MISMATCH (k : Nat) (i : Nat) : Nat := 0x01600188 + 0x4000 * k + 256 * i
/-- IMG_MISMATCH[31:0]. -/
def F.IMG_MISMATCH_COUNT (k : Nat) (i : Nat) : Fld := ⟨(R.IMG_MISMATCH k i), 31, 0⟩
/-- IMG_GAP_CNT: its address. -/
def R.IMG_GAP_CNT (k : Nat) (i : Nat) : Nat := 0x0160018C + 0x4000 * k + 256 * i
/-- IMG_GAP_CNT[31:0]. -/
def F.IMG_GAP_CNT_COUNT (k : Nat) (i : Nat) : Fld := ⟨(R.IMG_GAP_CNT k i), 31, 0⟩
/-- IMG_DPC_CNT: its address. -/
def R.IMG_DPC_CNT (k : Nat) (i : Nat) : Nat := 0x01600190 + 0x4000 * k + 256 * i
/-- IMG_DPC_CNT[31:0]. -/
def F.IMG_DPC_CNT_COUNT (k : Nat) (i : Nat) : Fld := ⟨(R.IMG_DPC_CNT k i), 31, 0⟩
/-- IMG_STAT_REFUSED: its address. -/
def R.IMG_STAT_REFUSED (k : Nat) (i : Nat) : Nat := 0x01600194 + 0x4000 * k + 256 * i
/-- IMG_STAT_REFUSED[31:0]. -/
def F.IMG_STAT_REFUSED_COUNT (k : Nat) (i : Nat) : Fld := ⟨(R.IMG_STAT_REFUSED k i), 31, 0⟩
/-- IMG_ASSIM_REFUSED: its address. -/
def R.IMG_ASSIM_REFUSED (k : Nat) (i : Nat) : Nat := 0x01600198 + 0x4000 * k + 256 * i
/-- IMG_ASSIM_REFUSED[31:0]. -/
def F.IMG_ASSIM_REFUSED_COUNT (k : Nat) (i : Nat) : Fld := ⟨(R.IMG_ASSIM_REFUSED k i), 31, 0⟩
/-- IMG_RETAIN_DROP: its address. -/
def R.IMG_RETAIN_DROP (k : Nat) (i : Nat) : Nat := 0x0160019C + 0x4000 * k + 256 * i
/-- IMG_RETAIN_DROP[31:0]. -/
def F.IMG_RETAIN_DROP_COUNT (k : Nat) (i : Nat) : Fld := ⟨(R.IMG_RETAIN_DROP k i), 31, 0⟩
/-- IMG_BED_SRC: its address. -/
def R.IMG_BED_SRC (k : Nat) : Nat := 0x01600800 + 0x4000 * k
/-- IMG_BED_SRC[5:0]. -/
def F.IMG_BED_SRC_HEAD (k : Nat) : Fld := ⟨(R.IMG_BED_SRC k), 5, 0⟩
/-- IMG_BED_CMD: its address. -/
def R.IMG_BED_CMD (k : Nat) : Nat := 0x01600804 + 0x4000 * k
/-- IMG_BED_CMD[31:16]. -/
def F.IMG_BED_CMD_BED_PERIOD (k : Nat) : Fld := ⟨(R.IMG_BED_CMD k), 31, 16⟩
/-- IMG_BED_CMD[15:15]. -/
def F.IMG_BED_CMD_CAPTURE (k : Nat) : Fld := ⟨(R.IMG_BED_CMD k), 15, 15⟩
/-- IMG_BED_CMD[14:0]. -/
def F.IMG_BED_CMD_COUNT (k : Nat) : Fld := ⟨(R.IMG_BED_CMD k), 14, 0⟩
/-- IMG_BED_OUT: its address. -/
def R.IMG_BED_OUT (k : Nat) : Nat := 0x01600808 + 0x4000 * k
/-- IMG_BED_OUT[31:0]. -/
def F.IMG_BED_OUT_HANDLE (k : Nat) : Fld := ⟨(R.IMG_BED_OUT k), 31, 0⟩
/-- IMG_BED_CAM_EXPO: its address. -/
def R.IMG_BED_CAM_EXPO (k : Nat) : Nat := 0x01600900 + 0x4000 * k
/-- IMG_BED_CAM_EXPO[27:20]. -/
def F.IMG_BED_CAM_EXPO_GAIN (k : Nat) : Fld := ⟨(R.IMG_BED_CAM_EXPO k), 27, 20⟩
/-- IMG_BED_CAM_EXPO[19:0]. -/
def F.IMG_BED_CAM_EXPO_EXPOSURE (k : Nat) : Fld := ⟨(R.IMG_BED_CAM_EXPO k), 19, 0⟩
/-- IMG_BED_CAM_ROI: its address. -/
def R.IMG_BED_CAM_ROI (k : Nat) : Nat := 0x01600904 + 0x4000 * k
/-- IMG_BED_CAM_ROI[27:16]. -/
def F.IMG_BED_CAM_ROI_Y0 (k : Nat) : Fld := ⟨(R.IMG_BED_CAM_ROI k), 27, 16⟩
/-- IMG_BED_CAM_ROI[11:0]. -/
def F.IMG_BED_CAM_ROI_X0 (k : Nat) : Fld := ⟨(R.IMG_BED_CAM_ROI k), 11, 0⟩
/-- IMG_BED_CAM_SIZE: its address. -/
def R.IMG_BED_CAM_SIZE (k : Nat) : Nat := 0x01600908 + 0x4000 * k
/-- IMG_BED_CAM_SIZE[27:16]. -/
def F.IMG_BED_CAM_SIZE_H (k : Nat) : Fld := ⟨(R.IMG_BED_CAM_SIZE k), 27, 16⟩
/-- IMG_BED_CAM_SIZE[11:0]. -/
def F.IMG_BED_CAM_SIZE_W (k : Nat) : Fld := ⟨(R.IMG_BED_CAM_SIZE k), 11, 0⟩
/-- IMG_BED_CAM_ID: its address. -/
def R.IMG_BED_CAM_ID (k : Nat) : Nat := 0x0160090C + 0x4000 * k
/-- IMG_BED_CAM_ID[23:16]. -/
def F.IMG_BED_CAM_ID_LAST_APPLIED (k : Nat) : Fld := ⟨(R.IMG_BED_CAM_ID k), 23, 16⟩
/-- IMG_BED_CAM_ID[15:8]. -/
def F.IMG_BED_CAM_ID_PENDING (k : Nat) : Fld := ⟨(R.IMG_BED_CAM_ID k), 15, 8⟩
/-- IMG_BED_CAM_ID[7:0]. -/
def F.IMG_BED_CAM_ID_SENT (k : Nat) : Fld := ⟨(R.IMG_BED_CAM_ID k), 7, 0⟩
/-- IMG_BED_SIZE: its address. -/
def R.IMG_BED_SIZE (k : Nat) : Nat := 0x01600910 + 0x4000 * k
/-- IMG_BED_SIZE[31:28]. -/
def F.IMG_BED_SIZE_OB_ROWS (k : Nat) : Fld := ⟨(R.IMG_BED_SIZE k), 31, 28⟩
/-- IMG_BED_SIZE[27:16]. -/
def F.IMG_BED_SIZE_HEIGHT (k : Nat) : Fld := ⟨(R.IMG_BED_SIZE k), 27, 16⟩
/-- IMG_BED_SIZE[11:0]. -/
def F.IMG_BED_SIZE_WIDTH (k : Nat) : Fld := ⟨(R.IMG_BED_SIZE k), 11, 0⟩
/-- IMG_BED_BLACK01: its address. -/
def R.IMG_BED_BLACK01 (k : Nat) : Nat := 0x01600914 + 0x4000 * k
/-- IMG_BED_BLACK01[31:16]. -/
def F.IMG_BED_BLACK01_CH1 (k : Nat) : Fld := ⟨(R.IMG_BED_BLACK01 k), 31, 16⟩
/-- IMG_BED_BLACK01[15:0]. -/
def F.IMG_BED_BLACK01_CH0 (k : Nat) : Fld := ⟨(R.IMG_BED_BLACK01 k), 15, 0⟩
/-- IMG_BED_BLACK23: its address. -/
def R.IMG_BED_BLACK23 (k : Nat) : Nat := 0x01600918 + 0x4000 * k
/-- IMG_BED_BLACK23[31:16]. -/
def F.IMG_BED_BLACK23_CH3 (k : Nat) : Fld := ⟨(R.IMG_BED_BLACK23 k), 31, 16⟩
/-- IMG_BED_BLACK23[15:0]. -/
def F.IMG_BED_BLACK23_CH2 (k : Nat) : Fld := ⟨(R.IMG_BED_BLACK23 k), 15, 0⟩
/-- IMG_BED_OB: its address. -/
def R.IMG_BED_OB (k : Nat) : Nat := 0x0160091C + 0x4000 * k
/-- IMG_BED_OB[31:31]. -/
def F.IMG_BED_OB_OB_EN (k : Nat) : Fld := ⟨(R.IMG_BED_OB k), 31, 31⟩
/-- IMG_BED_OB[15:0]. -/
def F.IMG_BED_OB_OB_GAIN (k : Nat) : Fld := ⟨(R.IMG_BED_OB k), 15, 0⟩
/-- IMG_BED_DPC: its address. -/
def R.IMG_BED_DPC (k : Nat) : Nat := 0x01600920 + 0x4000 * k
/-- IMG_BED_DPC[31:31]. -/
def F.IMG_BED_DPC_DYN_EN (k : Nat) : Fld := ⟨(R.IMG_BED_DPC k), 31, 31⟩
/-- IMG_BED_DPC[27:16]. -/
def F.IMG_BED_DPC_DPC_THR (k : Nat) : Fld := ⟨(R.IMG_BED_DPC k), 27, 16⟩
/-- IMG_BED_DPC[10:0]. -/
def F.IMG_BED_DPC_COUNT (k : Nat) : Fld := ⟨(R.IMG_BED_DPC k), 10, 0⟩
/-- IMG_BED_SEG: its address. -/
def R.IMG_BED_SEG (k : Nat) : Nat := 0x01600924 + 0x4000 * k
/-- IMG_BED_SEG[23:16]. -/
def F.IMG_BED_SEG_SPAT_MIN (k : Nat) : Fld := ⟨(R.IMG_BED_SEG k), 23, 16⟩
/-- IMG_BED_SEG[15:0]. -/
def F.IMG_BED_SEG_POOL (k : Nat) : Fld := ⟨(R.IMG_BED_SEG k), 15, 0⟩
/-- IMG_BED_HIST: its address. -/
def R.IMG_BED_HIST (k : Nat) : Nat := 0x01600928 + 0x4000 * k
/-- IMG_BED_HIST[19:16]. -/
def F.IMG_BED_HIST_SHIFT (k : Nat) : Fld := ⟨(R.IMG_BED_HIST k), 19, 16⟩
/-- IMG_BED_HIST[15:0]. -/
def F.IMG_BED_HIST_T0 (k : Nat) : Fld := ⟨(R.IMG_BED_HIST k), 15, 0⟩
/-- IMG_BED_MINSIG: its address. -/
def R.IMG_BED_MINSIG (k : Nat) : Nat := 0x0160092C + 0x4000 * k
/-- IMG_BED_MINSIG[15:0]. -/
def F.IMG_BED_MINSIG_FLOOR (k : Nat) : Fld := ⟨(R.IMG_BED_MINSIG k), 15, 0⟩
/-- IMG_BED_ASSIM: its address. -/
def R.IMG_BED_ASSIM (k : Nat) : Nat := 0x01600930 + 0x4000 * k
/-- IMG_BED_ASSIM[31:31]. -/
def F.IMG_BED_ASSIM_EN (k : Nat) : Fld := ⟨(R.IMG_BED_ASSIM k), 31, 31⟩
/-- IMG_BED_ASSIM[23:0]. -/
def F.IMG_BED_ASSIM_PIXPITCH (k : Nat) : Fld := ⟨(R.IMG_BED_ASSIM k), 23, 0⟩
/-- IMG_BED_RETAIN: its address. -/
def R.IMG_BED_RETAIN (k : Nat) : Nat := 0x01600934 + 0x4000 * k
/-- IMG_BED_RETAIN[18:18]. -/
def F.IMG_BED_RETAIN_TAP (k : Nat) : Fld := ⟨(R.IMG_BED_RETAIN k), 18, 18⟩
/-- IMG_BED_RETAIN[17:16]. -/
def F.IMG_BED_RETAIN_DS (k : Nat) : Fld := ⟨(R.IMG_BED_RETAIN k), 17, 16⟩
/-- IMG_BED_RETAIN[15:0]. -/
def F.IMG_BED_RETAIN_EVERY (k : Nat) : Fld := ⟨(R.IMG_BED_RETAIN k), 15, 0⟩
/-- IMG_BED_CROP_XY: its address. -/
def R.IMG_BED_CROP_XY (k : Nat) : Nat := 0x01600938 + 0x4000 * k
/-- IMG_BED_CROP_XY[27:16]. -/
def F.IMG_BED_CROP_XY_Y0 (k : Nat) : Fld := ⟨(R.IMG_BED_CROP_XY k), 27, 16⟩
/-- IMG_BED_CROP_XY[11:0]. -/
def F.IMG_BED_CROP_XY_X0 (k : Nat) : Fld := ⟨(R.IMG_BED_CROP_XY k), 11, 0⟩
/-- IMG_BED_CROP_WH: its address. -/
def R.IMG_BED_CROP_WH (k : Nat) : Nat := 0x0160093C + 0x4000 * k
/-- IMG_BED_CROP_WH[27:16]. -/
def F.IMG_BED_CROP_WH_H (k : Nat) : Fld := ⟨(R.IMG_BED_CROP_WH k), 27, 16⟩
/-- IMG_BED_CROP_WH[11:0]. -/
def F.IMG_BED_CROP_WH_W (k : Nat) : Fld := ⟨(R.IMG_BED_CROP_WH k), 11, 0⟩
/-- IMG_BED_DPC_MAP: its address. -/
def R.IMG_BED_DPC_MAP (k : Nat) : Nat := 0x01600944 + 0x4000 * k
/-- IMG_BED_DPC_MAP[31:0]. -/
def F.IMG_BED_DPC_MAP_HANDLE (k : Nat) : Fld := ⟨(R.IMG_BED_DPC_MAP k), 31, 0⟩
/-- IMG_BED_SHADE: its address. -/
def R.IMG_BED_SHADE (k : Nat) : Nat := 0x01600948 + 0x4000 * k
/-- IMG_BED_SHADE[31:0]. -/
def F.IMG_BED_SHADE_HANDLE (k : Nat) : Fld := ⟨(R.IMG_BED_SHADE k), 31, 0⟩
/-- AXIS_CTRL: its address. -/
def R.AXIS_CTRL (k : Nat) : Nat := 0x01800000 + 0x400 * k
/-- AXIS_CTRL[8:8]. -/
def F.AXIS_CTRL_REQ_HOME (k : Nat) : Fld := ⟨(R.AXIS_CTRL k), 8, 8⟩
/-- AXIS_CTRL[7:6]. -/
def F.AXIS_CTRL_BANK (k : Nat) : Fld := ⟨(R.AXIS_CTRL k), 7, 6⟩
/-- AXIS_CTRL[5:5]. -/
def F.AXIS_CTRL_BAND_BANK (k : Nat) : Fld := ⟨(R.AXIS_CTRL k), 5, 5⟩
/-- AXIS_CTRL[4:4]. -/
def F.AXIS_CTRL_LOST_STOP (k : Nat) : Fld := ⟨(R.AXIS_CTRL k), 4, 4⟩
/-- AXIS_CTRL[3:3]. -/
def F.AXIS_CTRL_LA_SRC (k : Nat) : Fld := ⟨(R.AXIS_CTRL k), 3, 3⟩
/-- AXIS_CTRL[2:2]. -/
def F.AXIS_CTRL_ENC_EN (k : Nat) : Fld := ⟨(R.AXIS_CTRL k), 2, 2⟩
/-- AXIS_CTRL[1:1]. -/
def F.AXIS_CTRL_INVERT (k : Nat) : Fld := ⟨(R.AXIS_CTRL k), 1, 1⟩
/-- AXIS_CTRL[0:0]. -/
def F.AXIS_CTRL_ENABLE (k : Nat) : Fld := ⟨(R.AXIS_CTRL k), 0, 0⟩
/-- AXIS_CMD: its address. -/
def R.AXIS_CMD (k : Nat) : Nat := 0x01800004 + 0x400 * k
/-- AXIS_CMD[3:0]. -/
def F.AXIS_CMD_CMD (k : Nat) : Fld := ⟨(R.AXIS_CMD k), 3, 0⟩
/-- AXIS_STATUS: its address. -/
def R.AXIS_STATUS (k : Nat) : Nat := 0x01800008 + 0x400 * k
/-- AXIS_STATUS[31:28]. -/
def F.AXIS_STATUS_STATE (k : Nat) : Fld := ⟨(R.AXIS_STATUS k), 31, 28⟩
/-- AXIS_STATUS[27:25]. -/
def F.AXIS_STATUS_RESULT (k : Nat) : Fld := ⟨(R.AXIS_STATUS k), 27, 25⟩
/-- AXIS_STATUS[24:24]. -/
def F.AXIS_STATUS_HOMED (k : Nat) : Fld := ⟨(R.AXIS_STATUS k), 24, 24⟩
/-- AXIS_STATUS[23:23]. -/
def F.AXIS_STATUS_OWNED (k : Nat) : Fld := ⟨(R.AXIS_STATUS k), 23, 23⟩
/-- AXIS_STATUS[22:21]. -/
def F.AXIS_STATUS_BANK_USED (k : Nat) : Fld := ⟨(R.AXIS_STATUS k), 22, 21⟩
/-- AXIS_STATUS[7:0]. -/
def F.AXIS_STATUS_FAULT (k : Nat) : Fld := ⟨(R.AXIS_STATUS k), 7, 0⟩
/-- AXIS_TARGET: its address. -/
def R.AXIS_TARGET (k : Nat) : Nat := 0x0180000C + 0x400 * k
/-- AXIS_TARGET[31:0]. -/
def F.AXIS_TARGET_VALUE (k : Nat) : Fld := ⟨(R.AXIS_TARGET k), 31, 0⟩
/-- AXIS_SETPOS: its address. -/
def R.AXIS_SETPOS (k : Nat) : Nat := 0x01800010 + 0x400 * k
/-- AXIS_SETPOS[31:0]. -/
def F.AXIS_SETPOS_VALUE (k : Nat) : Fld := ⟨(R.AXIS_SETPOS k), 31, 0⟩
/-- AXIS_VMAX: its address. -/
def R.AXIS_VMAX (k : Nat) : Nat := 0x01800014 + 0x400 * k
/-- AXIS_VMAX[31:0]. -/
def F.AXIS_VMAX_VALUE (k : Nat) : Fld := ⟨(R.AXIS_VMAX k), 31, 0⟩
/-- AXIS_ACC: its address. -/
def R.AXIS_ACC (k : Nat) : Nat := 0x01800018 + 0x400 * k
/-- AXIS_ACC[31:0]. -/
def F.AXIS_ACC_VALUE (k : Nat) : Fld := ⟨(R.AXIS_ACC k), 31, 0⟩
/-- AXIS_JERK: its address. -/
def R.AXIS_JERK (k : Nat) : Nat := 0x0180001C + 0x400 * k
/-- AXIS_JERK[31:0]. -/
def F.AXIS_JERK_VALUE (k : Nat) : Fld := ⟨(R.AXIS_JERK k), 31, 0⟩
/-- AXIS_EDEC: its address. -/
def R.AXIS_EDEC (k : Nat) : Nat := 0x01800020 + 0x400 * k
/-- AXIS_EDEC[31:0]. -/
def F.AXIS_EDEC_VALUE (k : Nat) : Fld := ⟨(R.AXIS_EDEC k), 31, 0⟩
/-- AXIS_SOFT_MIN: its address. -/
def R.AXIS_SOFT_MIN (k : Nat) : Nat := 0x01800024 + 0x400 * k
/-- AXIS_SOFT_MIN[31:0]. -/
def F.AXIS_SOFT_MIN_VALUE (k : Nat) : Fld := ⟨(R.AXIS_SOFT_MIN k), 31, 0⟩
/-- AXIS_SOFT_MAX: its address. -/
def R.AXIS_SOFT_MAX (k : Nat) : Nat := 0x01800028 + 0x400 * k
/-- AXIS_SOFT_MAX[31:0]. -/
def F.AXIS_SOFT_MAX_VALUE (k : Nat) : Fld := ⟨(R.AXIS_SOFT_MAX k), 31, 0⟩
/-- AXIS_POS: its address. -/
def R.AXIS_POS (k : Nat) : Nat := 0x0180002C + 0x400 * k
/-- AXIS_POS[31:0]. -/
def F.AXIS_POS_VALUE (k : Nat) : Fld := ⟨(R.AXIS_POS k), 31, 0⟩
/-- AXIS_VEL: its address. -/
def R.AXIS_VEL (k : Nat) : Nat := 0x01800030 + 0x400 * k
/-- AXIS_VEL[31:0]. -/
def F.AXIS_VEL_VALUE (k : Nat) : Fld := ⟨(R.AXIS_VEL k), 31, 0⟩
/-- AXIS_ENC: its address. -/
def R.AXIS_ENC (k : Nat) : Nat := 0x01800034 + 0x400 * k
/-- AXIS_ENC[31:0]. -/
def F.AXIS_ENC_VALUE (k : Nat) : Fld := ⟨(R.AXIS_ENC k), 31, 0⟩
/-- AXIS_DRIVE: its address. -/
def R.AXIS_DRIVE (k : Nat) : Nat := 0x01800038 + 0x400 * k
/-- AXIS_DRIVE[27:16]. -/
def F.AXIS_DRIVE_AMP (k : Nat) : Fld := ⟨(R.AXIS_DRIVE k), 27, 16⟩
/-- AXIS_DRIVE[9:0]. -/
def F.AXIS_DRIVE_LA (k : Nat) : Fld := ⟨(R.AXIS_DRIVE k), 9, 0⟩
/-- AXIS_ENC_SCALE: its address. -/
def R.AXIS_ENC_SCALE (k : Nat) : Nat := 0x0180003C + 0x400 * k
/-- AXIS_ENC_SCALE[31:0]. -/
def F.AXIS_ENC_SCALE_VALUE (k : Nat) : Fld := ⟨(R.AXIS_ENC_SCALE k), 31, 0⟩
/-- AXIS_ENC_WIN: its address. -/
def R.AXIS_ENC_WIN (k : Nat) : Nat := 0x01800040 + 0x400 * k
/-- AXIS_ENC_WIN[31:0]. -/
def F.AXIS_ENC_WIN_VALUE (k : Nat) : Fld := ⟨(R.AXIS_ENC_WIN k), 31, 0⟩
/-- AXIS_CURRENT: its address. -/
def R.AXIS_CURRENT (k : Nat) : Nat := 0x01800044 + 0x400 * k
/-- AXIS_CURRENT[27:16]. -/
def F.AXIS_CURRENT_RUN_CEIL (k : Nat) : Fld := ⟨(R.AXIS_CURRENT k), 27, 16⟩
/-- AXIS_CURRENT[11:0]. -/
def F.AXIS_CURRENT_HOLD (k : Nat) : Fld := ⟨(R.AXIS_CURRENT k), 11, 0⟩
/-- AXIS_LA_LAW: its address. -/
def R.AXIS_LA_LAW (k : Nat) : Nat := 0x01800048 + 0x400 * k
/-- AXIS_LA_LAW[25:16]. -/
def F.AXIS_LA_LAW_LA_HIGH (k : Nat) : Fld := ⟨(R.AXIS_LA_LAW k), 25, 16⟩
/-- AXIS_LA_LAW[9:0]. -/
def F.AXIS_LA_LAW_LA_LOW (k : Nat) : Fld := ⟨(R.AXIS_LA_LAW k), 9, 0⟩
/-- AXIS_SLEW: its address. -/
def R.AXIS_SLEW (k : Nat) : Nat := 0x0180004C + 0x400 * k
/-- AXIS_SLEW[27:16]. -/
def F.AXIS_SLEW_FALL (k : Nat) : Fld := ⟨(R.AXIS_SLEW k), 27, 16⟩
/-- AXIS_SLEW[11:0]. -/
def F.AXIS_SLEW_RISE (k : Nat) : Fld := ⟨(R.AXIS_SLEW k), 11, 0⟩
/-- AXIS_STALL: its address. -/
def R.AXIS_STALL (k : Nat) : Nat := 0x01800050 + 0x400 * k
/-- AXIS_STALL[31:16]. -/
def F.AXIS_STALL_N (k : Nat) : Fld := ⟨(R.AXIS_STALL k), 31, 16⟩
/-- AXIS_STALL[9:0]. -/
def F.AXIS_STALL_TH (k : Nat) : Fld := ⟨(R.AXIS_STALL k), 9, 0⟩
/-- AXIS_CHOP: its address. -/
def R.AXIS_CHOP (k : Nat) : Nat := 0x01800054 + 0x400 * k
/-- AXIS_CHOP[15:8]. -/
def F.AXIS_CHOP_FAST (k : Nat) : Fld := ⟨(R.AXIS_CHOP k), 15, 8⟩
/-- AXIS_CHOP[7:0]. -/
def F.AXIS_CHOP_DIV (k : Nat) : Fld := ⟨(R.AXIS_CHOP k), 7, 0⟩
/-- AXIS_THR_CEIL: its address. -/
def R.AXIS_THR_CEIL (k : Nat) : Nat := 0x01800058 + 0x400 * k
/-- AXIS_THR_CEIL[11:0]. -/
def F.AXIS_THR_CEIL_CODE (k : Nat) : Fld := ⟨(R.AXIS_THR_CEIL k), 11, 0⟩
/-- AXIS_SWCFG: its address. -/
def R.AXIS_SWCFG (k : Nat) : Nat := 0x0180005C + 0x400 * k
/-- AXIS_SWCFG[31:16]. -/
def F.AXIS_SWCFG_DEBOUNCE (k : Nat) : Fld := ⟨(R.AXIS_SWCFG k), 31, 16⟩
/-- AXIS_SWCFG[11:0]. -/
def F.AXIS_SWCFG_ROLES (k : Nat) : Fld := ⟨(R.AXIS_SWCFG k), 11, 0⟩
/-- AXIS_HOME_CFG: its address. -/
def R.AXIS_HOME_CFG (k : Nat) : Nat := 0x01800060 + 0x400 * k
/-- AXIS_HOME_CFG[27:16]. -/
def F.AXIS_HOME_CFG_HOME_CUR (k : Nat) : Fld := ⟨(R.AXIS_HOME_CFG k), 27, 16⟩
/-- AXIS_HOME_CFG[13:12]. -/
def F.AXIS_HOME_CFG_MODE (k : Nat) : Fld := ⟨(R.AXIS_HOME_CFG k), 13, 12⟩
/-- AXIS_HOME_CFG[8:8]. -/
def F.AXIS_HOME_CFG_DIR (k : Nat) : Fld := ⟨(R.AXIS_HOME_CFG k), 8, 8⟩
/-- AXIS_HOME_CFG[7:0]. -/
def F.AXIS_HOME_CFG_CHATTER_MAX (k : Nat) : Fld := ⟨(R.AXIS_HOME_CFG k), 7, 0⟩
/-- AXIS_HOME_SPEED: its address. -/
def R.AXIS_HOME_SPEED (k : Nat) : Nat := 0x01800064 + 0x400 * k
/-- AXIS_HOME_SPEED[31:0]. -/
def F.AXIS_HOME_SPEED_VALUE (k : Nat) : Fld := ⟨(R.AXIS_HOME_SPEED k), 31, 0⟩
/-- AXIS_HOME_OFS: its address. -/
def R.AXIS_HOME_OFS (k : Nat) : Nat := 0x01800068 + 0x400 * k
/-- AXIS_HOME_OFS[31:0]. -/
def F.AXIS_HOME_OFS_VALUE (k : Nat) : Fld := ⟨(R.AXIS_HOME_OFS k), 31, 0⟩
/-- AXIS_HOME_POS: its address. -/
def R.AXIS_HOME_POS (k : Nat) : Nat := 0x0180006C + 0x400 * k
/-- AXIS_HOME_POS[31:0]. -/
def F.AXIS_HOME_POS_VALUE (k : Nat) : Fld := ⟨(R.AXIS_HOME_POS k), 31, 0⟩
/-- AXIS_CHATTER: its address. -/
def R.AXIS_CHATTER (k : Nat) : Nat := 0x01800070 + 0x400 * k
/-- AXIS_CHATTER[31:16]. -/
def F.AXIS_CHATTER_WIN (k : Nat) : Fld := ⟨(R.AXIS_CHATTER k), 31, 16⟩
/-- AXIS_CHATTER[15:0]. -/
def F.AXIS_CHATTER_LOCKOUT (k : Nat) : Fld := ⟨(R.AXIS_CHATTER k), 15, 0⟩
/-- AXIS_CHATTER_CNT: its address. -/
def R.AXIS_CHATTER_CNT (k : Nat) : Nat := 0x01800074 + 0x400 * k
/-- AXIS_CHATTER_CNT[31:0]. -/
def F.AXIS_CHATTER_CNT_COUNT (k : Nat) : Fld := ⟨(R.AXIS_CHATTER_CNT k), 31, 0⟩
/-- AXIS_WAVE_SRC: its address. -/
def R.AXIS_WAVE_SRC (k : Nat) : Nat := 0x01800078 + 0x400 * k
/-- AXIS_WAVE_SRC[31:0]. -/
def F.AXIS_WAVE_SRC_HANDLE (k : Nat) : Fld := ⟨(R.AXIS_WAVE_SRC k), 31, 0⟩
/-- AXIS_WAVE_CMD: its address. -/
def R.AXIS_WAVE_CMD (k : Nat) : Nat := 0x0180007C + 0x400 * k
/-- AXIS_WAVE_CMD[31:31]. -/
def F.AXIS_WAVE_CMD_START (k : Nat) : Fld := ⟨(R.AXIS_WAVE_CMD k), 31, 31⟩
/-- AXIS_WAVE_CMD[30:28]. -/
def F.AXIS_WAVE_CMD_RESULT (k : Nat) : Fld := ⟨(R.AXIS_WAVE_CMD k), 30, 28⟩
/-- AXIS_WAVE_CMD[1:0]. -/
def F.AXIS_WAVE_CMD_BANK (k : Nat) : Fld := ⟨(R.AXIS_WAVE_CMD k), 1, 0⟩
/-- AXIS_EVQ: its address. -/
def R.AXIS_EVQ (k : Nat) : Nat := 0x01800080 + 0x400 * k
/-- AXIS_EVQ[31:0]. -/
def F.AXIS_EVQ_HANDLE (k : Nat) : Fld := ⟨(R.AXIS_EVQ k), 31, 0⟩
/-- AXIS_HOME_LATCH: its address. -/
def R.AXIS_HOME_LATCH (k : Nat) : Nat := 0x01800084 + 0x400 * k
/-- AXIS_HOME_LATCH[31:0]. -/
def F.AXIS_HOME_LATCH_VALUE (k : Nat) : Fld := ⟨(R.AXIS_HOME_LATCH k), 31, 0⟩
/-- AXIS_SKV_CTRL: its address. -/
def R.AXIS_SKV_CTRL (k : Nat) : Nat := 0x01800200 + 0x400 * k
/-- AXIS_SKV_CTRL[28:24]. -/
def F.AXIS_SKV_CTRL_DOSER (k : Nat) : Fld := ⟨(R.AXIS_SKV_CTRL k), 28, 24⟩
/-- AXIS_SKV_CTRL[20:16]. -/
def F.AXIS_SKV_CTRL_RECOATER (k : Nat) : Fld := ⟨(R.AXIS_SKV_CTRL k), 20, 16⟩
/-- AXIS_SKV_CTRL[12:8]. -/
def F.AXIS_SKV_CTRL_PLATFORM (k : Nat) : Fld := ⟨(R.AXIS_SKV_CTRL k), 12, 8⟩
/-- AXIS_SKV_CTRL[2:2]. -/
def F.AXIS_SKV_CTRL_BIDIR (k : Nat) : Fld := ⟨(R.AXIS_SKV_CTRL k), 2, 2⟩
/-- AXIS_SKV_CTRL[1:0]. -/
def F.AXIS_SKV_CTRL_MODE (k : Nat) : Fld := ⟨(R.AXIS_SKV_CTRL k), 1, 0⟩
/-- AXIS_SKV_PLAT_K: its address. -/
def R.AXIS_SKV_PLAT_K (k : Nat) : Nat := 0x01800204 + 0x400 * k
/-- AXIS_SKV_PLAT_K[31:0]. -/
def F.AXIS_SKV_PLAT_K_VALUE (k : Nat) : Fld := ⟨(R.AXIS_SKV_PLAT_K k), 31, 0⟩
/-- AXIS_SKV_DOSE_K: its address. -/
def R.AXIS_SKV_DOSE_K (k : Nat) : Nat := 0x01800208 + 0x400 * k
/-- AXIS_SKV_DOSE_K[31:0]. -/
def F.AXIS_SKV_DOSE_K_VALUE (k : Nat) : Fld := ⟨(R.AXIS_SKV_DOSE_K k), 31, 0⟩
/-- AXIS_SKV_DOSE_OFS: its address. -/
def R.AXIS_SKV_DOSE_OFS (k : Nat) : Nat := 0x0180020C + 0x400 * k
/-- AXIS_SKV_DOSE_OFS[31:0]. -/
def F.AXIS_SKV_DOSE_OFS_VALUE (k : Nat) : Fld := ⟨(R.AXIS_SKV_DOSE_OFS k), 31, 0⟩
/-- AXIS_SKV_PARK: its address. -/
def R.AXIS_SKV_PARK (k : Nat) : Nat := 0x01800210 + 0x400 * k
/-- AXIS_SKV_PARK[31:0]. -/
def F.AXIS_SKV_PARK_VALUE (k : Nat) : Fld := ⟨(R.AXIS_SKV_PARK k), 31, 0⟩
/-- AXIS_SKV_END: its address. -/
def R.AXIS_SKV_END (k : Nat) : Nat := 0x01800214 + 0x400 * k
/-- AXIS_SKV_END[31:0]. -/
def F.AXIS_SKV_END_VALUE (k : Nat) : Fld := ⟨(R.AXIS_SKV_END k), 31, 0⟩
/-- AXIS_SKV_SPREAD: its address. -/
def R.AXIS_SKV_SPREAD (k : Nat) : Nat := 0x01800218 + 0x400 * k
/-- AXIS_SKV_SPREAD[31:0]. -/
def F.AXIS_SKV_SPREAD_VALUE (k : Nat) : Fld := ⟨(R.AXIS_SKV_SPREAD k), 31, 0⟩
/-- AXIS_SKV_RETURN: its address. -/
def R.AXIS_SKV_RETURN (k : Nat) : Nat := 0x0180021C + 0x400 * k
/-- AXIS_SKV_RETURN[31:0]. -/
def F.AXIS_SKV_RETURN_VALUE (k : Nat) : Fld := ⟨(R.AXIS_SKV_RETURN k), 31, 0⟩
/-- AXIS_SKV_SETTLE: its address. -/
def R.AXIS_SKV_SETTLE (k : Nat) : Nat := 0x01800220 + 0x400 * k
/-- AXIS_SKV_SETTLE[31:0]. -/
def F.AXIS_SKV_SETTLE_VALUE (k : Nat) : Fld := ⟨(R.AXIS_SKV_SETTLE k), 31, 0⟩
/-- AXIS_SKV_CMD: its address. -/
def R.AXIS_SKV_CMD (k : Nat) : Nat := 0x01800224 + 0x400 * k
/-- AXIS_SKV_CMD[1:1]. -/
def F.AXIS_SKV_CMD_RETRY (k : Nat) : Fld := ⟨(R.AXIS_SKV_CMD k), 1, 1⟩
/-- AXIS_SKV_CMD[0:0]. -/
def F.AXIS_SKV_CMD_READY (k : Nat) : Fld := ⟨(R.AXIS_SKV_CMD k), 0, 0⟩
/-- AXIS_SKV_STATUS: its address. -/
def R.AXIS_SKV_STATUS (k : Nat) : Nat := 0x01800228 + 0x400 * k
/-- AXIS_SKV_STATUS[20:20]. -/
def F.AXIS_SKV_STATUS_DIR (k : Nat) : Fld := ⟨(R.AXIS_SKV_STATUS k), 20, 20⟩
/-- AXIS_SKV_STATUS[19:16]. -/
def F.AXIS_SKV_STATUS_PHASE (k : Nat) : Fld := ⟨(R.AXIS_SKV_STATUS k), 19, 16⟩
/-- AXIS_SKV_STATUS[7:0]. -/
def F.AXIS_SKV_STATUS_FAULT (k : Nat) : Fld := ⟨(R.AXIS_SKV_STATUS k), 7, 0⟩
/-- AXIS_SKV_EVQ: its address. -/
def R.AXIS_SKV_EVQ (k : Nat) : Nat := 0x0180022C + 0x400 * k
/-- AXIS_SKV_EVQ[31:0]. -/
def F.AXIS_SKV_EVQ_HANDLE (k : Nat) : Fld := ⟨(R.AXIS_SKV_EVQ k), 31, 0⟩
/-- SB_CMD: its address. -/
def R.SB_CMD : Nat := 0x01A00000
/-- SB_CMD[31:31]. -/
def F.SB_CMD_START : Fld := ⟨R.SB_CMD, 31, 31⟩
/-- SB_CMD[30:29]. -/
def F.SB_CMD_CMD : Fld := ⟨R.SB_CMD, 30, 29⟩
/-- SB_CMD[28:28]. -/
def F.SB_CMD_KIND : Fld := ⟨R.SB_CMD, 28, 28⟩
/-- SB_CMD[27:26]. -/
def F.SB_CMD_CLASS : Fld := ⟨R.SB_CMD, 27, 26⟩
/-- SB_CMD[25:25]. -/
def F.SB_CMD_RES : Fld := ⟨R.SB_CMD, 25, 25⟩
/-- SB_CMD[24:16]. -/
def F.SB_CMD_SPILL_WIN : Fld := ⟨R.SB_CMD, 24, 16⟩
/-- SB_CMD_ARG: its address. -/
def R.SB_CMD_ARG : Nat := 0x01A00004
/-- SB_CMD_ARG[31:0]. -/
def F.SB_CMD_ARG_VALUE : Fld := ⟨R.SB_CMD_ARG, 31, 0⟩
/-- SB_CMD_STATUS: its address. -/
def R.SB_CMD_STATUS : Nat := 0x01A00008
/-- SB_CMD_STATUS[31:31]. -/
def F.SB_CMD_STATUS_BUSY : Fld := ⟨R.SB_CMD_STATUS, 31, 31⟩
/-- SB_CMD_STATUS[3:0]. -/
def F.SB_CMD_STATUS_RESULT : Fld := ⟨R.SB_CMD_STATUS, 3, 0⟩
/-- SB_CMD_HANDLE: its address. -/
def R.SB_CMD_HANDLE : Nat := 0x01A0000C
/-- SB_CMD_HANDLE[31:0]. -/
def F.SB_CMD_HANDLE_VALUE : Fld := ⟨R.SB_CMD_HANDLE, 31, 0⟩
/-- SB_CLASS_BUDGET: its address. -/
def R.SB_CLASS_BUDGET (i : Nat) : Nat := 0x01A00010 + 4 * i
/-- SB_CLASS_BUDGET[14:0]. -/
def F.SB_CLASS_BUDGET_PAGES (i : Nat) : Fld := ⟨(R.SB_CLASS_BUDGET i), 14, 0⟩
/-- SB_CLASS_USED: its address. -/
def R.SB_CLASS_USED (i : Nat) : Nat := 0x01A00020 + 4 * i
/-- SB_CLASS_USED[14:0]. -/
def F.SB_CLASS_USED_PAGES (i : Nat) : Fld := ⟨(R.SB_CLASS_USED i), 14, 0⟩
/-- SB_SPILL_BASE_LO: its address. -/
def R.SB_SPILL_BASE_LO : Nat := 0x01A00030
/-- SB_SPILL_BASE_LO[31:20]. -/
def F.SB_SPILL_BASE_LO_VALUE : Fld := ⟨R.SB_SPILL_BASE_LO, 31, 20⟩
/-- SB_SPILL_BASE_HI: its address. -/
def R.SB_SPILL_BASE_HI : Nat := 0x01A00034
/-- SB_SPILL_BASE_HI[31:0]. -/
def F.SB_SPILL_BASE_HI_VALUE : Fld := ⟨R.SB_SPILL_BASE_HI, 31, 0⟩
/-- SB_SPILL_SIZE: its address. -/
def R.SB_SPILL_SIZE : Nat := 0x01A00038
/-- SB_SPILL_SIZE[31:0]. -/
def F.SB_SPILL_SIZE_VALUE : Fld := ⟨R.SB_SPILL_SIZE, 31, 0⟩
/-- SB_SCRUB_INT: its address. -/
def R.SB_SCRUB_INT : Nat := 0x01A0003C
/-- SB_SCRUB_INT[31:0]. -/
def F.SB_SCRUB_INT_VALUE : Fld := ⟨R.SB_SCRUB_INT, 31, 0⟩
/-- SB_EVQ: its address. -/
def R.SB_EVQ : Nat := 0x01A00040
/-- SB_EVQ[31:0]. -/
def F.SB_EVQ_HANDLE : Fld := ⟨R.SB_EVQ, 31, 0⟩
/-- SB_APER: its address. -/
def R.SB_APER (i : Nat) : Nat := 0x01A00100 + 4 * i
/-- SB_APER[31:0]. -/
def F.SB_APER_HANDLE (i : Nat) : Fld := ⟨(R.SB_APER i), 31, 0⟩
/-- SB_APER_QST: its address. -/
def R.SB_APER_QST (i : Nat) : Nat := 0x01A00140 + 4 * i
/-- SB_APER_QST[5:5]. -/
def F.SB_APER_QST_POISON (i : Nat) : Fld := ⟨(R.SB_APER_QST i), 5, 5⟩
/-- SB_APER_QST[4:4]. -/
def F.SB_APER_QST_EOP (i : Nat) : Fld := ⟨(R.SB_APER_QST i), 4, 4⟩
/-- SB_APER_QST[3:0]. -/
def F.SB_APER_QST_CODE (i : Nat) : Fld := ⟨(R.SB_APER_QST i), 3, 0⟩
/-- SB_BANK_CE: its address. -/
def R.SB_BANK_CE (i : Nat) : Nat := 0x01A00400 + 4 * i
/-- SB_BANK_CE[31:0]. -/
def F.SB_BANK_CE_COUNT (i : Nat) : Fld := ⟨(R.SB_BANK_CE i), 31, 0⟩
/-- SB_BANK_UE: its address. -/
def R.SB_BANK_UE (i : Nat) : Nat := 0x01A00500 + 4 * i
/-- SB_BANK_UE[31:0]. -/
def F.SB_BANK_UE_COUNT (i : Nat) : Fld := ⟨(R.SB_BANK_UE i), 31, 0⟩
/-- SB_BANK_SPARE: its address. -/
def R.SB_BANK_SPARE (i : Nat) : Nat := 0x01A00600 + 4 * i
/-- SB_BANK_SPARE[6:0]. -/
def F.SB_BANK_SPARE_COUNT (i : Nat) : Fld := ⟨(R.SB_BANK_SPARE i), 6, 0⟩
/-- SB_REQ_DELAYED: its address. -/
def R.SB_REQ_DELAYED (i : Nat) : Nat := 0x01A01000 + 4 * i
/-- SB_REQ_DELAYED[31:0]. -/
def F.SB_REQ_DELAYED_COUNT (i : Nat) : Fld := ⟨(R.SB_REQ_DELAYED i), 31, 0⟩
/-- SB_REQ_REFUSED: its address. -/
def R.SB_REQ_REFUSED (i : Nat) : Nat := 0x01A01400 + 4 * i
/-- SB_REQ_REFUSED[31:0]. -/
def F.SB_REQ_REFUSED_COUNT (i : Nat) : Fld := ⟨(R.SB_REQ_REFUSED i), 31, 0⟩
/-- SB_Q_CFG: its address. -/
def R.SB_Q_CFG (i : Nat) : Nat := 0x01A10000 + 16 * i
/-- SB_Q_CFG[31:31]. -/
def F.SB_Q_CFG_VEC_EN (i : Nat) : Fld := ⟨(R.SB_Q_CFG i), 31, 31⟩
/-- SB_Q_CFG[27:20]. -/
def F.SB_Q_CFG_VEC (i : Nat) : Fld := ⟨(R.SB_Q_CFG i), 27, 20⟩
/-- SB_Q_CFG[19:0]. -/
def F.SB_Q_CFG_LEVEL (i : Nat) : Fld := ⟨(R.SB_Q_CFG i), 19, 0⟩
/-- SB_Q_STATUS: its address. -/
def R.SB_Q_STATUS (i : Nat) : Nat := 0x01A10004 + 16 * i
/-- SB_Q_STATUS[31:31]. -/
def F.SB_Q_STATUS_THR (i : Nat) : Fld := ⟨(R.SB_Q_STATUS i), 31, 31⟩
/-- SB_Q_STATUS[30:30]. -/
def F.SB_Q_STATUS_FLUSHED (i : Nat) : Fld := ⟨(R.SB_Q_STATUS i), 30, 30⟩
/-- SB_Q_STATUS[29:29]. -/
def F.SB_Q_STATUS_SPILL (i : Nat) : Fld := ⟨(R.SB_Q_STATUS i), 29, 29⟩
/-- SB_Q_STATUS[28:28]. -/
def F.SB_Q_STATUS_LIVE (i : Nat) : Fld := ⟨(R.SB_Q_STATUS i), 28, 28⟩
/-- SB_Q_STATUS[27:0]. -/
def F.SB_Q_STATUS_OCCUPANCY (i : Nat) : Fld := ⟨(R.SB_Q_STATUS i), 27, 0⟩
/-- SB_Q_REFUSED: its address. -/
def R.SB_Q_REFUSED (i : Nat) : Nat := 0x01A10008 + 16 * i
/-- SB_Q_REFUSED[15:0]. -/
def F.SB_Q_REFUSED_COUNT (i : Nat) : Fld := ⟨(R.SB_Q_REFUSED i), 15, 0⟩
/-- SB_Q_ERRS: its address. -/
def R.SB_Q_ERRS (i : Nat) : Nat := 0x01A1000C + 16 * i
/-- SB_Q_ERRS[31:16]. -/
def F.SB_Q_ERRS_FLUSH_DROP (i : Nat) : Fld := ⟨(R.SB_Q_ERRS i), 31, 16⟩
/-- SB_Q_ERRS[15:0]. -/
def F.SB_Q_ERRS_CE (i : Nat) : Fld := ⟨(R.SB_Q_ERRS i), 15, 0⟩
/-- DMC_CFG: its address. -/
def R.DMC_CFG (k : Nat) : Nat := 0x01C00000 + 0x80000 * k
/-- DMC_CFG[31:31]. -/
def F.DMC_CFG_ENABLE (k : Nat) : Fld := ⟨(R.DMC_CFG k), 31, 31⟩
/-- DMC_CFG[19:18]. -/
def F.DMC_CFG_SPEED (k : Nat) : Fld := ⟨(R.DMC_CFG k), 19, 18⟩
/-- DMC_CFG[17:16]. -/
def F.DMC_CFG_DENSITY (k : Nat) : Fld := ⟨(R.DMC_CFG k), 17, 16⟩
/-- DMC_CFG[15:14]. -/
def F.DMC_CFG_RANKS (k : Nat) : Fld := ⟨(R.DMC_CFG k), 15, 14⟩
/-- DMC_CFG[13:13]. -/
def F.DMC_CFG_DIMMS2 (k : Nat) : Fld := ⟨(R.DMC_CFG k), 13, 13⟩
/-- DMC_STATUS: its address. -/
def R.DMC_STATUS (k : Nat) : Nat := 0x01C00004 + 0x80000 * k
/-- DMC_STATUS[31:28]. -/
def F.DMC_STATUS_STATE (k : Nat) : Fld := ⟨(R.DMC_STATUS k), 31, 28⟩
/-- DMC_STATUS[27:24]. -/
def F.DMC_STATUS_CAUSE (k : Nat) : Fld := ⟨(R.DMC_STATUS k), 27, 24⟩
/-- DMC_STATUS[23:23]. -/
def F.DMC_STATUS_SELFTEST (k : Nat) : Fld := ⟨(R.DMC_STATUS k), 23, 23⟩
/-- DMC_STATUS[21:20]. -/
def F.DMC_STATUS_RATE (k : Nat) : Fld := ⟨(R.DMC_STATUS k), 21, 20⟩
/-- DMC_STATUS[19:18]. -/
def F.DMC_STATUS_TSET (k : Nat) : Fld := ⟨(R.DMC_STATUS k), 19, 18⟩
/-- DMC_STATUS[17:15]. -/
def F.DMC_STATUS_DEBT (k : Nat) : Fld := ⟨(R.DMC_STATUS k), 17, 15⟩
/-- DMC_SIZE: its address. -/
def R.DMC_SIZE (k : Nat) : Nat := 0x01C00008 + 0x80000 * k
/-- DMC_SIZE[16:0]. -/
def F.DMC_SIZE_MIB (k : Nat) : Fld := ⟨(R.DMC_SIZE k), 16, 0⟩
/-- DMC_SR_IDLE: its address. -/
def R.DMC_SR_IDLE (k : Nat) : Nat := 0x01C0000C + 0x80000 * k
/-- DMC_SR_IDLE[15:0]. -/
def F.DMC_SR_IDLE_VALUE (k : Nat) : Fld := ⟨(R.DMC_SR_IDLE k), 15, 0⟩
/-- DMC_PATROL: its address. -/
def R.DMC_PATROL (k : Nat) : Nat := 0x01C00010 + 0x80000 * k
/-- DMC_PATROL[7:0]. -/
def F.DMC_PATROL_HOURS (k : Nat) : Fld := ⟨(R.DMC_PATROL k), 7, 0⟩
/-- DMC_EVQ: its address. -/
def R.DMC_EVQ (k : Nat) : Nat := 0x01C00014 + 0x80000 * k
/-- DMC_EVQ[31:0]. -/
def F.DMC_EVQ_HANDLE (k : Nat) : Fld := ⟨(R.DMC_EVQ k), 31, 0⟩
/-- DMC_RH_CFG: its address. -/
def R.DMC_RH_CFG (k : Nat) : Nat := 0x01C00018 + 0x80000 * k
/-- DMC_RH_CFG[31:24]. -/
def F.DMC_RH_CFG_WIN (k : Nat) : Fld := ⟨(R.DMC_RH_CFG k), 31, 24⟩
/-- DMC_RH_CFG[23:16]. -/
def F.DMC_RH_CFG_RATE (k : Nat) : Fld := ⟨(R.DMC_RH_CFG k), 23, 16⟩
/-- DMC_RH_CFG[15:0]. -/
def F.DMC_RH_CFG_TH (k : Nat) : Fld := ⟨(R.DMC_RH_CFG k), 15, 0⟩
/-- DMC_CE_LAST: its address. -/
def R.DMC_CE_LAST (k : Nat) : Nat := 0x01C0001C + 0x80000 * k
/-- DMC_CE_LAST[9:8]. -/
def F.DMC_CE_LAST_RANK (k : Nat) : Fld := ⟨(R.DMC_CE_LAST k), 9, 8⟩
/-- DMC_CE_LAST[4:0]. -/
def F.DMC_CE_LAST_DEVICE (k : Nat) : Fld := ⟨(R.DMC_CE_LAST k), 4, 0⟩
/-- DMC_REMAP_USED: its address. -/
def R.DMC_REMAP_USED (k : Nat) : Nat := 0x01C00020 + 0x80000 * k
/-- DMC_REMAP_USED[31:16]. -/
def F.DMC_REMAP_USED_PPR (k : Nat) : Fld := ⟨(R.DMC_REMAP_USED k), 31, 16⟩
/-- DMC_REMAP_USED[8:0]. -/
def F.DMC_REMAP_USED_PAIRS (k : Nat) : Fld := ⟨(R.DMC_REMAP_USED k), 8, 0⟩
/-- DMC_CE_CNT: its address. -/
def R.DMC_CE_CNT (k : Nat) : Nat := 0x01C00040 + 0x80000 * k
/-- DMC_CE_CNT[31:0]. -/
def F.DMC_CE_CNT_COUNT (k : Nat) : Fld := ⟨(R.DMC_CE_CNT k), 31, 0⟩
/-- DMC_UE_CNT: its address. -/
def R.DMC_UE_CNT (k : Nat) : Nat := 0x01C00044 + 0x80000 * k
/-- DMC_UE_CNT[31:0]. -/
def F.DMC_UE_CNT_COUNT (k : Nat) : Fld := ⟨(R.DMC_UE_CNT k), 31, 0⟩
/-- DMC_POISON_CNT: its address. -/
def R.DMC_POISON_CNT (k : Nat) : Nat := 0x01C00048 + 0x80000 * k
/-- DMC_POISON_CNT[31:0]. -/
def F.DMC_POISON_CNT_COUNT (k : Nat) : Fld := ⟨(R.DMC_POISON_CNT k), 31, 0⟩
/-- DMC_REPLAY_CNT: its address. -/
def R.DMC_REPLAY_CNT (k : Nat) : Nat := 0x01C0004C + 0x80000 * k
/-- DMC_REPLAY_CNT[31:0]. -/
def F.DMC_REPLAY_CNT_COUNT (k : Nat) : Fld := ⟨(R.DMC_REPLAY_CNT k), 31, 0⟩
/-- DMC_RMW_CNT: its address. -/
def R.DMC_RMW_CNT (k : Nat) : Nat := 0x01C00050 + 0x80000 * k
/-- DMC_RMW_CNT[31:0]. -/
def F.DMC_RMW_CNT_COUNT (k : Nat) : Fld := ⟨(R.DMC_RMW_CNT k), 31, 0⟩
/-- DMC_ISO_LATE: its address. -/
def R.DMC_ISO_LATE (k : Nat) : Nat := 0x01C00054 + 0x80000 * k
/-- DMC_ISO_LATE[31:0]. -/
def F.DMC_ISO_LATE_COUNT (k : Nat) : Fld := ⟨(R.DMC_ISO_LATE k), 31, 0⟩
/-- DMC_WRITE_LOST: its address. -/
def R.DMC_WRITE_LOST (k : Nat) : Nat := 0x01C00058 + 0x80000 * k
/-- DMC_WRITE_LOST[31:0]. -/
def F.DMC_WRITE_LOST_COUNT (k : Nat) : Fld := ⟨(R.DMC_WRITE_LOST k), 31, 0⟩
/-- DMC_POSTPONE_CNT: its address. -/
def R.DMC_POSTPONE_CNT (k : Nat) : Nat := 0x01C0005C + 0x80000 * k
/-- DMC_POSTPONE_CNT[31:0]. -/
def F.DMC_POSTPONE_CNT_COUNT (k : Nat) : Fld := ⟨(R.DMC_POSTPONE_CNT k), 31, 0⟩
/-- DMC_SR_CNT: its address. -/
def R.DMC_SR_CNT (k : Nat) : Nat := 0x01C00060 + 0x80000 * k
/-- DMC_SR_CNT[31:0]. -/
def F.DMC_SR_CNT_COUNT (k : Nat) : Fld := ⟨(R.DMC_SR_CNT k), 31, 0⟩
/-- DMC_REPEAT_FULL: its address. -/
def R.DMC_REPEAT_FULL (k : Nat) : Nat := 0x01C00064 + 0x80000 * k
/-- DMC_REPEAT_FULL[31:0]. -/
def F.DMC_REPEAT_FULL_COUNT (k : Nat) : Fld := ⟨(R.DMC_REPEAT_FULL k), 31, 0⟩
/-- DMC_ISO_CTRL: its address. -/
def R.DMC_ISO_CTRL (k : Nat) (i : Nat) : Nat := 0x01C00100 + 0x80000 * k + 32 * i
/-- DMC_ISO_CTRL[31:31]. -/
def F.DMC_ISO_CTRL_EN (k : Nat) (i : Nat) : Fld := ⟨(R.DMC_ISO_CTRL k i), 31, 31⟩
/-- DMC_ISO_CTRL[30:28]. -/
def F.DMC_ISO_CTRL_RESULT (k : Nat) (i : Nat) : Fld := ⟨(R.DMC_ISO_CTRL k i), 30, 28⟩
/-- DMC_ISO_CTRL[23:16]. -/
def F.DMC_ISO_CTRL_LEAD (k : Nat) (i : Nat) : Fld := ⟨(R.DMC_ISO_CTRL k i), 23, 16⟩
/-- DMC_ISO_CTRL[6:0]. -/
def F.DMC_ISO_CTRL_PAIRS (k : Nat) (i : Nat) : Fld := ⟨(R.DMC_ISO_CTRL k i), 6, 0⟩
/-- DMC_ISO_BASE_LO: its address. -/
def R.DMC_ISO_BASE_LO (k : Nat) (i : Nat) : Nat := 0x01C00104 + 0x80000 * k + 32 * i
/-- DMC_ISO_BASE_LO[31:14]. -/
def F.DMC_ISO_BASE_LO_VALUE (k : Nat) (i : Nat) : Fld := ⟨(R.DMC_ISO_BASE_LO k i), 31, 14⟩
/-- DMC_ISO_BASE_HI: its address. -/
def R.DMC_ISO_BASE_HI (k : Nat) (i : Nat) : Nat := 0x01C00108 + 0x80000 * k + 32 * i
/-- DMC_ISO_BASE_HI[31:0]. -/
def F.DMC_ISO_BASE_HI_VALUE (k : Nat) (i : Nat) : Fld := ⟨(R.DMC_ISO_BASE_HI k i), 31, 0⟩
/-- DMC_ISO_RING: its address. -/
def R.DMC_ISO_RING (k : Nat) (i : Nat) : Nat := 0x01C0010C + 0x80000 * k + 32 * i
/-- DMC_ISO_RING[31:0]. -/
def F.DMC_ISO_RING_VALUE (k : Nat) (i : Nat) : Fld := ⟨(R.DMC_ISO_RING k i), 31, 0⟩
/-- DMC_ISO_Q: its address. -/
def R.DMC_ISO_Q (k : Nat) (i : Nat) : Nat := 0x01C00110 + 0x80000 * k + 32 * i
/-- DMC_ISO_Q[31:0]. -/
def F.DMC_ISO_Q_HANDLE (k : Nat) (i : Nat) : Fld := ⟨(R.DMC_ISO_Q k i), 31, 0⟩
/-- DMC_RH_LOG: its address. -/
def R.DMC_RH_LOG (k : Nat) (i : Nat) : Nat := 0x01C00200 + 0x80000 * k + 8 * i
/-- DMC_RH_LOG[31:0]. -/
def F.DMC_RH_LOG_WORD0 (k : Nat) (i : Nat) : Fld := ⟨(R.DMC_RH_LOG k i), 31, 0⟩
/-- DMC_RH_LOG_W1: its address. -/
def R.DMC_RH_LOG_W1 (k : Nat) (i : Nat) : Nat := 0x01C00204 + 0x80000 * k + 8 * i
/-- DMC_RH_LOG_W1[31:0]. -/
def F.DMC_RH_LOG_W1_WORD1 (k : Nat) (i : Nat) : Fld := ⟨(R.DMC_RH_LOG_W1 k i), 31, 0⟩
/-- DMC_REPEAT: its address. -/
def R.DMC_REPEAT (k : Nat) (i : Nat) : Nat := 0x01C00400 + 0x80000 * k + 8 * i
/-- DMC_REPEAT[31:0]. -/
def F.DMC_REPEAT_ADDR (k : Nat) (i : Nat) : Fld := ⟨(R.DMC_REPEAT k i), 31, 0⟩
/-- DMC_REPEAT_INFO: its address. -/
def R.DMC_REPEAT_INFO (k : Nat) (i : Nat) : Nat := 0x01C00404 + 0x80000 * k + 8 * i
/-- DMC_REPEAT_INFO[31:0]. -/
def F.DMC_REPEAT_INFO_INFO (k : Nat) (i : Nat) : Fld := ⟨(R.DMC_REPEAT_INFO k i), 31, 0⟩
/-- LANE_CFG: its address. -/
def R.LANE_CFG (k : Nat) : Nat := 0x01E00000 + 0x800 * k
/-- LANE_CFG[31:31]. -/
def F.LANE_CFG_ENABLE (k : Nat) : Fld := ⟨(R.LANE_CFG k), 31, 31⟩
/-- LANE_CFG[27:24]. -/
def F.LANE_CFG_RATES (k : Nat) : Fld := ⟨(R.LANE_CFG k), 27, 24⟩
/-- LANE_CFG[23:16]. -/
def F.LANE_CFG_MISS_LIMIT (k : Nat) : Fld := ⟨(R.LANE_CFG k), 23, 16⟩
/-- LANE_CFG[15:8]. -/
def F.LANE_CFG_CHECK_MS (k : Nat) : Fld := ⟨(R.LANE_CFG k), 15, 8⟩
/-- LANE_CFG[7:0]. -/
def F.LANE_CFG_CHECK_MAX (k : Nat) : Fld := ⟨(R.LANE_CFG k), 7, 0⟩
/-- LANE_CMD: its address. -/
def R.LANE_CMD (k : Nat) : Nat := 0x01E00004 + 0x800 * k
/-- LANE_CMD[2:0]. -/
def F.LANE_CMD_CMD (k : Nat) : Fld := ⟨(R.LANE_CMD k), 2, 0⟩
/-- LANE_STATUS: its address. -/
def R.LANE_STATUS (k : Nat) : Nat := 0x01E00008 + 0x800 * k
/-- LANE_STATUS[31:28]. -/
def F.LANE_STATUS_STATE (k : Nat) : Fld := ⟨(R.LANE_STATUS k), 31, 28⟩
/-- LANE_STATUS[27:24]. -/
def F.LANE_STATUS_CAUSE (k : Nat) : Fld := ⟨(R.LANE_STATUS k), 27, 24⟩
/-- LANE_STATUS[23:22]. -/
def F.LANE_STATUS_RATE (k : Nat) : Fld := ⟨(R.LANE_STATUS k), 23, 22⟩
/-- LANE_STATUS[21:19]. -/
def F.LANE_STATUS_RESULT (k : Nat) : Fld := ⟨(R.LANE_STATUS k), 21, 19⟩
/-- LANE_STATUS[18:18]. -/
def F.LANE_STATUS_MEAS_BUSY (k : Nat) : Fld := ⟨(R.LANE_STATUS k), 18, 18⟩
/-- LANE_STATUS[17:16]. -/
def F.LANE_STATUS_BAND (k : Nat) : Fld := ⟨(R.LANE_STATUS k), 17, 16⟩
/-- LANE_HEAD: its address. -/
def R.LANE_HEAD (k : Nat) : Nat := 0x01E0000C + 0x800 * k
/-- LANE_HEAD[31:0]. -/
def F.LANE_HEAD_VALUE (k : Nat) : Fld := ⟨(R.LANE_HEAD k), 31, 0⟩
/-- LANE_SERIAL_LO: its address. -/
def R.LANE_SERIAL_LO (k : Nat) : Nat := 0x01E00010 + 0x800 * k
/-- LANE_SERIAL_LO[31:0]. -/
def F.LANE_SERIAL_LO_VALUE (k : Nat) : Fld := ⟨(R.LANE_SERIAL_LO k), 31, 0⟩
/-- LANE_SERIAL_HI: its address. -/
def R.LANE_SERIAL_HI (k : Nat) : Nat := 0x01E00014 + 0x800 * k
/-- LANE_SERIAL_HI[31:0]. -/
def F.LANE_SERIAL_HI_VALUE (k : Nat) : Fld := ⟨(R.LANE_SERIAL_HI k), 31, 0⟩
/-- LANE_LAT: its address. -/
def R.LANE_LAT (k : Nat) : Nat := 0x01E00018 + 0x800 * k
/-- LANE_LAT[26:16]. -/
def F.LANE_LAT_U (k : Nat) : Fld := ⟨(R.LANE_LAT k), 26, 16⟩
/-- LANE_LAT[10:0]. -/
def F.LANE_LAT_D (k : Nat) : Fld := ⟨(R.LANE_LAT k), 10, 0⟩
/-- LANE_TEST: its address. -/
def R.LANE_TEST (k : Nat) : Nat := 0x01E0001C + 0x800 * k
/-- LANE_TEST[31:30]. -/
def F.LANE_TEST_LOOP (k : Nat) : Fld := ⟨(R.LANE_TEST k), 31, 30⟩
/-- LANE_TEST[25:24]. -/
def F.LANE_TEST_PATTERN (k : Nat) : Fld := ⟨(R.LANE_TEST k), 25, 24⟩
/-- LANE_TEST[17:17]. -/
def F.LANE_TEST_CHK_EN (k : Nat) : Fld := ⟨(R.LANE_TEST k), 17, 17⟩
/-- LANE_TEST[16:16]. -/
def F.LANE_TEST_GEN_EN (k : Nat) : Fld := ⟨(R.LANE_TEST k), 16, 16⟩
/-- LANE_TEST[9:8]. -/
def F.LANE_TEST_INJ_MODE (k : Nat) : Fld := ⟨(R.LANE_TEST k), 9, 8⟩
/-- LANE_TEST[7:4]. -/
def F.LANE_TEST_INJ_TYPE (k : Nat) : Fld := ⟨(R.LANE_TEST k), 7, 4⟩
/-- LANE_HEAD_STAT: its address. -/
def R.LANE_HEAD_STAT (k : Nat) : Nat := 0x01E00020 + 0x800 * k
/-- LANE_HEAD_STAT[31:0]. -/
def F.LANE_HEAD_STAT_VALUE (k : Nat) : Fld := ⟨(R.LANE_HEAD_STAT k), 31, 0⟩
/-- LANE_EVQ: its address. -/
def R.LANE_EVQ (k : Nat) : Nat := 0x01E00024 + 0x800 * k
/-- LANE_EVQ[31:0]. -/
def F.LANE_EVQ_HANDLE (k : Nat) : Fld := ⟨(R.LANE_EVQ k), 31, 0⟩
/-- LANE_CRC_ERR: its address. -/
def R.LANE_CRC_ERR (k : Nat) : Nat := 0x01E00040 + 0x800 * k
/-- LANE_CRC_ERR[31:0]. -/
def F.LANE_CRC_ERR_COUNT (k : Nat) : Fld := ⟨(R.LANE_CRC_ERR k), 31, 0⟩
/-- LANE_REPLAY: its address. -/
def R.LANE_REPLAY (k : Nat) : Nat := 0x01E00044 + 0x800 * k
/-- LANE_REPLAY[31:0]. -/
def F.LANE_REPLAY_COUNT (k : Nat) : Fld := ⟨(R.LANE_REPLAY k), 31, 0⟩
/-- LANE_MISSED: its address. -/
def R.LANE_MISSED (k : Nat) : Nat := 0x01E00048 + 0x800 * k
/-- LANE_MISSED[31:0]. -/
def F.LANE_MISSED_COUNT (k : Nat) : Fld := ⟨(R.LANE_MISSED k), 31, 0⟩
/-- LANE_PRBS_ERR: its address. -/
def R.LANE_PRBS_ERR (k : Nat) : Nat := 0x01E0004C + 0x800 * k
/-- LANE_PRBS_ERR[31:0]. -/
def F.LANE_PRBS_ERR_COUNT (k : Nat) : Fld := ⟨(R.LANE_PRBS_ERR k), 31, 0⟩
/-- LANE_PRBS_BITS: its address. -/
def R.LANE_PRBS_BITS (k : Nat) : Nat := 0x01E00050 + 0x800 * k
/-- LANE_PRBS_BITS[31:0]. -/
def F.LANE_PRBS_BITS_COUNT (k : Nat) : Fld := ⟨(R.LANE_PRBS_BITS k), 31, 0⟩
/-- LANE_RECOVER: its address. -/
def R.LANE_RECOVER (k : Nat) : Nat := 0x01E00054 + 0x800 * k
/-- LANE_RECOVER[31:0]. -/
def F.LANE_RECOVER_COUNT (k : Nat) : Fld := ⟨(R.LANE_RECOVER k), 31, 0⟩
/-- LANE_FORMAT_ERR: its address. -/
def R.LANE_FORMAT_ERR (k : Nat) : Nat := 0x01E00058 + 0x800 * k
/-- LANE_FORMAT_ERR[31:0]. -/
def F.LANE_FORMAT_ERR_COUNT (k : Nat) : Fld := ⟨(R.LANE_FORMAT_ERR k), 31, 0⟩
/-- PCIE_STATUS: its address. -/
def R.PCIE_STATUS : Nat := 0x01F00000
/-- PCIE_STATUS[17:17]. -/
def F.PCIE_STATUS_RESET_SEEN : Fld := ⟨R.PCIE_STATUS, 17, 17⟩
/-- PCIE_STATUS[16:16]. -/
def F.PCIE_STATUS_LINK_LOST : Fld := ⟨R.PCIE_STATUS, 16, 16⟩
/-- PCIE_STATUS[10:8]. -/
def F.PCIE_STATUS_WIDTH : Fld := ⟨R.PCIE_STATUS, 10, 8⟩
/-- PCIE_STATUS[7:4]. -/
def F.PCIE_STATUS_SPEED : Fld := ⟨R.PCIE_STATUS, 7, 4⟩
/-- PCIE_STATUS[0:0]. -/
def F.PCIE_STATUS_LINK_UP : Fld := ⟨R.PCIE_STATUS, 0, 0⟩
/-- PCIE_MSIX_ADDR_LO: its address. -/
def R.PCIE_MSIX_ADDR_LO (i : Nat) : Nat := 0x01F10000 + 16 * i
/-- PCIE_MSIX_ADDR_LO[31:2]. -/
def F.PCIE_MSIX_ADDR_LO_VALUE (i : Nat) : Fld := ⟨(R.PCIE_MSIX_ADDR_LO i), 31, 2⟩
/-- PCIE_MSIX_ADDR_HI: its address. -/
def R.PCIE_MSIX_ADDR_HI (i : Nat) : Nat := 0x01F10004 + 16 * i
/-- PCIE_MSIX_ADDR_HI[31:0]. -/
def F.PCIE_MSIX_ADDR_HI_VALUE (i : Nat) : Fld := ⟨(R.PCIE_MSIX_ADDR_HI i), 31, 0⟩
/-- PCIE_MSIX_DATA: its address. -/
def R.PCIE_MSIX_DATA (i : Nat) : Nat := 0x01F10008 + 16 * i
/-- PCIE_MSIX_DATA[31:0]. -/
def F.PCIE_MSIX_DATA_VALUE (i : Nat) : Fld := ⟨(R.PCIE_MSIX_DATA i), 31, 0⟩
/-- PCIE_MSIX_CTRL: its address. -/
def R.PCIE_MSIX_CTRL (i : Nat) : Nat := 0x01F1000C + 16 * i
/-- PCIE_MSIX_CTRL[0:0]. -/
def F.PCIE_MSIX_CTRL_MASK (i : Nat) : Fld := ⟨(R.PCIE_MSIX_CTRL i), 0, 0⟩
/-- PCIE_MSIX_PBA: its address. -/
def R.PCIE_MSIX_PBA (i : Nat) : Nat := 0x01F11000 + 4 * i
/-- PCIE_MSIX_PBA[31:0]. -/
def F.PCIE_MSIX_PBA_VALUE (i : Nat) : Fld := ⟨(R.PCIE_MSIX_PBA i), 31, 0⟩
/-- PCIE_EG_CFG: its address. -/
def R.PCIE_EG_CFG (i : Nat) : Nat := 0x01F80000 + 4096 * i
/-- PCIE_EG_CFG[31:31]. -/
def F.PCIE_EG_CFG_ENABLE (i : Nat) : Fld := ⟨(R.PCIE_EG_CFG i), 31, 31⟩
/-- PCIE_EG_CFG[3:3]. -/
def F.PCIE_EG_CFG_PROMISC (i : Nat) : Fld := ⟨(R.PCIE_EG_CFG i), 3, 3⟩
/-- PCIE_EG_CFG[2:2]. -/
def F.PCIE_EG_CFG_MCAST (i : Nat) : Fld := ⟨(R.PCIE_EG_CFG i), 2, 2⟩
/-- PCIE_EG_CFG[1:0]. -/
def F.PCIE_EG_CFG_MODE (i : Nat) : Fld := ⟨(R.PCIE_EG_CFG i), 1, 0⟩
/-- PCIE_EG_STATUS: its address. -/
def R.PCIE_EG_STATUS (i : Nat) : Nat := 0x01F80004 + 4096 * i
/-- PCIE_EG_STATUS[2:2]. -/
def F.PCIE_EG_STATUS_LINK (i : Nat) : Fld := ⟨(R.PCIE_EG_STATUS i), 2, 2⟩
/-- PCIE_EG_STATUS[1:0]. -/
def F.PCIE_EG_STATUS_SPEED (i : Nat) : Fld := ⟨(R.PCIE_EG_STATUS i), 1, 0⟩
/-- PCIE_EG_MAC_LO: its address. -/
def R.PCIE_EG_MAC_LO (i : Nat) : Nat := 0x01F80008 + 4096 * i
/-- PCIE_EG_MAC_LO[31:0]. -/
def F.PCIE_EG_MAC_LO_VALUE (i : Nat) : Fld := ⟨(R.PCIE_EG_MAC_LO i), 31, 0⟩
/-- PCIE_EG_MAC_HI: its address. -/
def R.PCIE_EG_MAC_HI (i : Nat) : Nat := 0x01F8000C + 4096 * i
/-- PCIE_EG_MAC_HI[15:0]. -/
def F.PCIE_EG_MAC_HI_VALUE (i : Nat) : Fld := ⟨(R.PCIE_EG_MAC_HI i), 15, 0⟩
/-- PCIE_EG_RXQ: its address. -/
def R.PCIE_EG_RXQ (i : Nat) : Nat := 0x01F80010 + 4096 * i
/-- PCIE_EG_RXQ[31:0]. -/
def F.PCIE_EG_RXQ_HANDLE (i : Nat) : Fld := ⟨(R.PCIE_EG_RXQ i), 31, 0⟩
/-- PCIE_EG_TXQ: its address. -/
def R.PCIE_EG_TXQ (i : Nat) : Nat := 0x01F80014 + 4096 * i
/-- PCIE_EG_TXQ[31:0]. -/
def F.PCIE_EG_TXQ_HANDLE (i : Nat) : Fld := ⟨(R.PCIE_EG_TXQ i), 31, 0⟩
/-- PCIE_EG_TXDONEQ: its address. -/
def R.PCIE_EG_TXDONEQ (i : Nat) : Nat := 0x01F80018 + 4096 * i
/-- PCIE_EG_TXDONEQ[31:0]. -/
def F.PCIE_EG_TXDONEQ_HANDLE (i : Nat) : Fld := ⟨(R.PCIE_EG_TXDONEQ i), 31, 0⟩
/-- PCIE_EG_LAT: its address. -/
def R.PCIE_EG_LAT (i : Nat) : Nat := 0x01F8001C + 4096 * i
/-- PCIE_EG_LAT[31:16]. -/
def F.PCIE_EG_LAT_TX_NS (i : Nat) : Fld := ⟨(R.PCIE_EG_LAT i), 31, 16⟩
/-- PCIE_EG_LAT[15:0]. -/
def F.PCIE_EG_LAT_RX_NS (i : Nat) : Fld := ⟨(R.PCIE_EG_LAT i), 15, 0⟩
/-- PCIE_EG_RX_OK: its address. -/
def R.PCIE_EG_RX_OK (i : Nat) : Nat := 0x01F80040 + 4096 * i
/-- PCIE_EG_RX_OK[31:0]. -/
def F.PCIE_EG_RX_OK_COUNT (i : Nat) : Fld := ⟨(R.PCIE_EG_RX_OK i), 31, 0⟩
/-- PCIE_EG_RX_BAD: its address. -/
def R.PCIE_EG_RX_BAD (i : Nat) : Nat := 0x01F80044 + 4096 * i
/-- PCIE_EG_RX_BAD[31:0]. -/
def F.PCIE_EG_RX_BAD_COUNT (i : Nat) : Fld := ⟨(R.PCIE_EG_RX_BAD i), 31, 0⟩
/-- PCIE_EG_RX_DROP: its address. -/
def R.PCIE_EG_RX_DROP (i : Nat) : Nat := 0x01F80048 + 4096 * i
/-- PCIE_EG_RX_DROP[31:0]. -/
def F.PCIE_EG_RX_DROP_COUNT (i : Nat) : Fld := ⟨(R.PCIE_EG_RX_DROP i), 31, 0⟩
/-- PCIE_EG_TX_OK: its address. -/
def R.PCIE_EG_TX_OK (i : Nat) : Nat := 0x01F8004C + 4096 * i
/-- PCIE_EG_TX_OK[31:0]. -/
def F.PCIE_EG_TX_OK_COUNT (i : Nat) : Fld := ⟨(R.PCIE_EG_TX_OK i), 31, 0⟩
/-- TIME_TB_SEC_LO: its address. -/
def R.TIME_TB_SEC_LO (i : Nat) : Nat := 0x02000000 + 16 * i
/-- TIME_TB_SEC_LO[31:0]. -/
def F.TIME_TB_SEC_LO_VALUE (i : Nat) : Fld := ⟨(R.TIME_TB_SEC_LO i), 31, 0⟩
/-- TIME_TB_SEC_HI: its address. -/
def R.TIME_TB_SEC_HI (i : Nat) : Nat := 0x02000004 + 16 * i
/-- TIME_TB_SEC_HI[31:0]. -/
def F.TIME_TB_SEC_HI_VALUE (i : Nat) : Fld := ⟨(R.TIME_TB_SEC_HI i), 31, 0⟩
/-- TIME_TB_NS: its address. -/
def R.TIME_TB_NS (i : Nat) : Nat := 0x02000008 + 16 * i
/-- TIME_TB_NS[31:0]. -/
def F.TIME_TB_NS_VALUE (i : Nat) : Fld := ⟨(R.TIME_TB_NS i), 31, 0⟩
/-- TIME_TB_FRAC: its address. -/
def R.TIME_TB_FRAC (i : Nat) : Nat := 0x0200000C + 16 * i
/-- TIME_TB_FRAC[31:0]. -/
def F.TIME_TB_FRAC_VALUE (i : Nat) : Fld := ⟨(R.TIME_TB_FRAC i), 31, 0⟩
/-- TIME_SNAP: its address. -/
def R.TIME_SNAP : Nat := 0x02000040
/-- TIME_SNAP[31:31]. -/
def F.TIME_SNAP_CAPTURE : Fld := ⟨R.TIME_SNAP, 31, 31⟩
/-- TIME_REF_STATUS: its address. -/
def R.TIME_REF_STATUS : Nat := 0x02000044
/-- TIME_REF_STATUS[31:31]. -/
def F.TIME_REF_STATUS_LOCKED : Fld := ⟨R.TIME_REF_STATUS, 31, 31⟩
/-- TIME_REF_STATUS[30:30]. -/
def F.TIME_REF_STATUS_LOST : Fld := ⟨R.TIME_REF_STATUS, 30, 30⟩
/-- TIME_REF_STATUS[29:0]. -/
def F.TIME_REF_STATUS_ADJ : Fld := ⟨R.TIME_REF_STATUS, 29, 0⟩
/-- TIME_SNAP_SEC_LO: its address. -/
def R.TIME_SNAP_SEC_LO (i : Nat) : Nat := 0x02000080 + 16 * i
/-- TIME_SNAP_SEC_LO[31:0]. -/
def F.TIME_SNAP_SEC_LO_VALUE (i : Nat) : Fld := ⟨(R.TIME_SNAP_SEC_LO i), 31, 0⟩
/-- TIME_SNAP_SEC_HI: its address. -/
def R.TIME_SNAP_SEC_HI (i : Nat) : Nat := 0x02000084 + 16 * i
/-- TIME_SNAP_SEC_HI[31:0]. -/
def F.TIME_SNAP_SEC_HI_VALUE (i : Nat) : Fld := ⟨(R.TIME_SNAP_SEC_HI i), 31, 0⟩
/-- TIME_SNAP_NS: its address. -/
def R.TIME_SNAP_NS (i : Nat) : Nat := 0x02000088 + 16 * i
/-- TIME_SNAP_NS[31:0]. -/
def F.TIME_SNAP_NS_VALUE (i : Nat) : Fld := ⟨(R.TIME_SNAP_NS i), 31, 0⟩
/-- TIME_SNAP_FRAC: its address. -/
def R.TIME_SNAP_FRAC (i : Nat) : Nat := 0x0200008C + 16 * i
/-- TIME_SNAP_FRAC[31:0]. -/
def F.TIME_SNAP_FRAC_VALUE (i : Nat) : Fld := ⟨(R.TIME_SNAP_FRAC i), 31, 0⟩
/-- TIME_DOM_CFG: its address. -/
def R.TIME_DOM_CFG (i : Nat) : Nat := 0x02000100 + 32 * i
/-- TIME_DOM_CFG[31:31]. -/
def F.TIME_DOM_CFG_ENABLE (i : Nat) : Fld := ⟨(R.TIME_DOM_CFG i), 31, 31⟩
/-- TIME_DOM_CFG[30:16]. -/
def F.TIME_DOM_CFG_STEP_TH (i : Nat) : Fld := ⟨(R.TIME_DOM_CFG i), 30, 16⟩
/-- TIME_DOM_CFG[15:0]. -/
def F.TIME_DOM_CFG_LOCK_TH (i : Nat) : Fld := ⟨(R.TIME_DOM_CFG i), 15, 0⟩
/-- TIME_DOM_GAIN: its address. -/
def R.TIME_DOM_GAIN (i : Nat) : Nat := 0x02000104 + 32 * i
/-- TIME_DOM_GAIN[31:16]. -/
def F.TIME_DOM_GAIN_KP (i : Nat) : Fld := ⟨(R.TIME_DOM_GAIN i), 31, 16⟩
/-- TIME_DOM_GAIN[15:0]. -/
def F.TIME_DOM_GAIN_KI (i : Nat) : Fld := ⟨(R.TIME_DOM_GAIN i), 15, 0⟩
/-- TIME_DOM_HOLD: its address. -/
def R.TIME_DOM_HOLD (i : Nat) : Nat := 0x02000108 + 32 * i
/-- TIME_DOM_HOLD[31:0]. -/
def F.TIME_DOM_HOLD_STITCHES (i : Nat) : Fld := ⟨(R.TIME_DOM_HOLD i), 31, 0⟩
/-- TIME_DOM_MEAS_FRAC: its address. -/
def R.TIME_DOM_MEAS_FRAC (i : Nat) : Nat := 0x0200010C + 32 * i
/-- TIME_DOM_MEAS_FRAC[15:0]. -/
def F.TIME_DOM_MEAS_FRAC_VALUE (i : Nat) : Fld := ⟨(R.TIME_DOM_MEAS_FRAC i), 15, 0⟩
/-- TIME_DOM_MEAS_NS: its address. -/
def R.TIME_DOM_MEAS_NS (i : Nat) : Nat := 0x02000110 + 32 * i
/-- TIME_DOM_MEAS_NS[31:0]. -/
def F.TIME_DOM_MEAS_NS_VALUE (i : Nat) : Fld := ⟨(R.TIME_DOM_MEAS_NS i), 31, 0⟩
/-- TIME_DOM_STATUS: its address. -/
def R.TIME_DOM_STATUS (i : Nat) : Nat := 0x02000114 + 32 * i
/-- TIME_DOM_STATUS[31:31]. -/
def F.TIME_DOM_STATUS_LOCKED (i : Nat) : Fld := ⟨(R.TIME_DOM_STATUS i), 31, 31⟩
/-- TIME_DOM_STATUS[30:24]. -/
def F.TIME_DOM_STATUS_STEPS (i : Nat) : Fld := ⟨(R.TIME_DOM_STATUS i), 30, 24⟩
/-- TIME_DOM_STATUS[23:0]. -/
def F.TIME_DOM_STATUS_ADJ (i : Nat) : Fld := ⟨(R.TIME_DOM_STATUS i), 23, 0⟩
/-- TIME_MT_CFG: its address. -/
def R.TIME_MT_CFG : Nat := 0x02000140
/-- TIME_MT_CFG[8:8]. -/
def F.TIME_MT_CFG_AUTO : Fld := ⟨R.TIME_MT_CFG, 8, 8⟩
/-- TIME_MT_CFG[7:1]. -/
def F.TIME_MT_CFG_SLEW : Fld := ⟨R.TIME_MT_CFG, 7, 1⟩
/-- TIME_MT_CFG[0:0]. -/
def F.TIME_MT_CFG_SEL : Fld := ⟨R.TIME_MT_CFG, 0, 0⟩
/-- TIME_MT_STATUS: its address. -/
def R.TIME_MT_STATUS : Nat := 0x02000144
/-- TIME_MT_STATUS[2:2]. -/
def F.TIME_MT_STATUS_VALID : Fld := ⟨R.TIME_MT_STATUS, 2, 2⟩
/-- TIME_MT_STATUS[1:1]. -/
def F.TIME_MT_STATUS_HOLDOVER : Fld := ⟨R.TIME_MT_STATUS, 1, 1⟩
/-- TIME_MT_STATUS[0:0]. -/
def F.TIME_MT_STATUS_SEL_USED : Fld := ⟨R.TIME_MT_STATUS, 0, 0⟩
/-- TIME_MT_ERR: its address. -/
def R.TIME_MT_ERR : Nat := 0x02000148
/-- TIME_MT_ERR[31:0]. -/
def F.TIME_MT_ERR_E : Fld := ⟨R.TIME_MT_ERR, 31, 0⟩
/-- TIME_LATE_MAX: its address. -/
def R.TIME_LATE_MAX : Nat := 0x02000180
/-- TIME_LATE_MAX[15:0]. -/
def F.TIME_LATE_MAX_VALUE : Fld := ⟨R.TIME_LATE_MAX, 15, 0⟩
/-- TIME_EVQ: its address. -/
def R.TIME_EVQ : Nat := 0x02000184
/-- TIME_EVQ[31:0]. -/
def F.TIME_EVQ_HANDLE : Fld := ⟨R.TIME_EVQ, 31, 0⟩
/-- TIME_ACT_CTRL: its address. -/
def R.TIME_ACT_CTRL (i : Nat) : Nat := 0x02010000 + 64 * i
/-- TIME_ACT_CTRL[31:31]. -/
def F.TIME_ACT_CTRL_ARM (i : Nat) : Fld := ⟨(R.TIME_ACT_CTRL i), 31, 31⟩
/-- TIME_ACT_CTRL[30:30]. -/
def F.TIME_ACT_CTRL_CANCEL (i : Nat) : Fld := ⟨(R.TIME_ACT_CTRL i), 30, 30⟩
/-- TIME_ACT_CTRL[9:8]. -/
def F.TIME_ACT_CTRL_POLICY (i : Nat) : Fld := ⟨(R.TIME_ACT_CTRL i), 9, 8⟩
/-- TIME_ACT_CTRL[6:4]. -/
def F.TIME_ACT_CTRL_TB (i : Nat) : Fld := ⟨(R.TIME_ACT_CTRL i), 6, 4⟩
/-- TIME_ACT_CTRL[3:0]. -/
def F.TIME_ACT_CTRL_KIND (i : Nat) : Fld := ⟨(R.TIME_ACT_CTRL i), 3, 0⟩
/-- TIME_ACT_DUE0: its address. -/
def R.TIME_ACT_DUE0 (i : Nat) : Nat := 0x02010004 + 64 * i
/-- TIME_ACT_DUE0[31:0]. -/
def F.TIME_ACT_DUE0_VALUE (i : Nat) : Fld := ⟨(R.TIME_ACT_DUE0 i), 31, 0⟩
/-- TIME_ACT_DUE1: its address. -/
def R.TIME_ACT_DUE1 (i : Nat) : Nat := 0x02010008 + 64 * i
/-- TIME_ACT_DUE1[31:0]. -/
def F.TIME_ACT_DUE1_VALUE (i : Nat) : Fld := ⟨(R.TIME_ACT_DUE1 i), 31, 0⟩
/-- TIME_ACT_DUE2: its address. -/
def R.TIME_ACT_DUE2 (i : Nat) : Nat := 0x0201000C + 64 * i
/-- TIME_ACT_DUE2[31:0]. -/
def F.TIME_ACT_DUE2_VALUE (i : Nat) : Fld := ⟨(R.TIME_ACT_DUE2 i), 31, 0⟩
/-- TIME_ACT_DUE3: its address. -/
def R.TIME_ACT_DUE3 (i : Nat) : Nat := 0x02010010 + 64 * i
/-- TIME_ACT_DUE3[31:0]. -/
def F.TIME_ACT_DUE3_VALUE (i : Nat) : Fld := ⟨(R.TIME_ACT_DUE3 i), 31, 0⟩
/-- TIME_ACT_TARGET: its address. -/
def R.TIME_ACT_TARGET (i : Nat) : Nat := 0x02010014 + 64 * i
/-- TIME_ACT_TARGET[31:0]. -/
def F.TIME_ACT_TARGET_VALUE (i : Nat) : Fld := ⟨(R.TIME_ACT_TARGET i), 31, 0⟩
/-- TIME_ACT_VALUE: its address. -/
def R.TIME_ACT_VALUE (i : Nat) : Nat := 0x02010018 + 64 * i
/-- TIME_ACT_VALUE[31:0]. -/
def F.TIME_ACT_VALUE_VALUE (i : Nat) : Fld := ⟨(R.TIME_ACT_VALUE i), 31, 0⟩
/-- TIME_ACT_REPEAT: its address. -/
def R.TIME_ACT_REPEAT (i : Nat) : Nat := 0x0201001C + 64 * i
/-- TIME_ACT_REPEAT[31:0]. -/
def F.TIME_ACT_REPEAT_VALUE (i : Nat) : Fld := ⟨(R.TIME_ACT_REPEAT i), 31, 0⟩
/-- TIME_ACT_STATUS: its address. -/
def R.TIME_ACT_STATUS (i : Nat) : Nat := 0x02010020 + 64 * i
/-- TIME_ACT_STATUS[31:16]. -/
def F.TIME_ACT_STATUS_SKIPPED (i : Nat) : Fld := ⟨(R.TIME_ACT_STATUS i), 31, 16⟩
/-- TIME_ACT_STATUS[3:0]. -/
def F.TIME_ACT_STATUS_STATE (i : Nat) : Fld := ⟨(R.TIME_ACT_STATUS i), 3, 0⟩
/-- TIME_ACT_LATENESS: its address. -/
def R.TIME_ACT_LATENESS (i : Nat) : Nat := 0x02010024 + 64 * i
/-- TIME_ACT_LATENESS[31:0]. -/
def F.TIME_ACT_LATENESS_L (i : Nat) : Fld := ⟨(R.TIME_ACT_LATENESS i), 31, 0⟩
/-- FBUS_POINTS: its address. -/
def R.FBUS_POINTS : Nat := 0x02100000
/-- FBUS_POINTS[31:0]. -/
def F.FBUS_POINTS_HANDLE : Fld := ⟨R.FBUS_POINTS, 31, 0⟩
/-- FBUS_EVQ: its address. -/
def R.FBUS_EVQ : Nat := 0x02100004
/-- FBUS_EVQ[31:0]. -/
def F.FBUS_EVQ_HANDLE : Fld := ⟨R.FBUS_EVQ, 31, 0⟩
/-- FBUS_POINT_CNT: its address. -/
def R.FBUS_POINT_CNT : Nat := 0x02100008
/-- FBUS_POINT_CNT[31:0]. -/
def F.FBUS_POINT_CNT_VALUE : Fld := ⟨R.FBUS_POINT_CNT, 31, 0⟩
/-- FBUS_SEG_CFG: its address. -/
def R.FBUS_SEG_CFG (i : Nat) : Nat := 0x02110000 + 65536 * i
/-- FBUS_SEG_CFG[31:31]. -/
def F.FBUS_SEG_CFG_ENABLE (i : Nat) : Fld := ⟨(R.FBUS_SEG_CFG i), 31, 31⟩
/-- FBUS_SEG_CFG[30:30]. -/
def F.FBUS_SEG_CFG_PLCA_EN (i : Nat) : Fld := ⟨(R.FBUS_SEG_CFG i), 30, 30⟩
/-- FBUS_SEG_CFG[29:29]. -/
def F.FBUS_SEG_CFG_COORD (i : Nat) : Fld := ⟨(R.FBUS_SEG_CFG i), 29, 29⟩
/-- FBUS_SEG_CFG[28:24]. -/
def F.FBUS_SEG_CFG_LOCAL_ID (i : Nat) : Fld := ⟨(R.FBUS_SEG_CFG i), 28, 24⟩
/-- FBUS_SEG_CFG[21:16]. -/
def F.FBUS_SEG_CFG_NODE_COUNT (i : Nat) : Fld := ⟨(R.FBUS_SEG_CFG i), 21, 16⟩
/-- FBUS_SEG_CFG[7:0]. -/
def F.FBUS_SEG_CFG_TO_TIMER (i : Nat) : Fld := ⟨(R.FBUS_SEG_CFG i), 7, 0⟩
/-- FBUS_SEG_CYCLE: its address. -/
def R.FBUS_SEG_CYCLE (i : Nat) : Nat := 0x02110004 + 65536 * i
/-- FBUS_SEG_CYCLE[31:16]. -/
def F.FBUS_SEG_CYCLE_PHASE (i : Nat) : Fld := ⟨(R.FBUS_SEG_CYCLE i), 31, 16⟩
/-- FBUS_SEG_CYCLE[15:0]. -/
def F.FBUS_SEG_CYCLE_CYCLE (i : Nat) : Fld := ⟨(R.FBUS_SEG_CYCLE i), 15, 0⟩
/-- FBUS_SEG_STATUS: its address. -/
def R.FBUS_SEG_STATUS (i : Nat) : Nat := 0x02110008 + 65536 * i
/-- FBUS_SEG_STATUS[31:28]. -/
def F.FBUS_SEG_STATUS_RESULT (i : Nat) : Fld := ⟨(R.FBUS_SEG_STATUS i), 31, 28⟩
/-- FBUS_SEG_STATUS[8:8]. -/
def F.FBUS_SEG_STATUS_STRANGER (i : Nat) : Fld := ⟨(R.FBUS_SEG_STATUS i), 8, 8⟩
/-- FBUS_SEG_STATUS[0:0]. -/
def F.FBUS_SEG_STATUS_PLCA_ACTIVE (i : Nat) : Fld := ⟨(R.FBUS_SEG_STATUS i), 0, 0⟩
/-- FBUS_SEG_MAC_LO: its address. -/
def R.FBUS_SEG_MAC_LO (i : Nat) : Nat := 0x0211000C + 65536 * i
/-- FBUS_SEG_MAC_LO[31:0]. -/
def F.FBUS_SEG_MAC_LO_MAC (i : Nat) : Fld := ⟨(R.FBUS_SEG_MAC_LO i), 31, 0⟩
/-- FBUS_SEG_MAC_HI: its address. -/
def R.FBUS_SEG_MAC_HI (i : Nat) : Nat := 0x02110010 + 65536 * i
/-- FBUS_SEG_MAC_HI[15:0]. -/
def F.FBUS_SEG_MAC_HI_MAC (i : Nat) : Fld := ⟨(R.FBUS_SEG_MAC_HI i), 15, 0⟩
/-- FBUS_SEG_GROUP_LO: its address. -/
def R.FBUS_SEG_GROUP_LO (i : Nat) : Nat := 0x02110014 + 65536 * i
/-- FBUS_SEG_GROUP_LO[31:0]. -/
def F.FBUS_SEG_GROUP_LO_GROUP (i : Nat) : Fld := ⟨(R.FBUS_SEG_GROUP_LO i), 31, 0⟩
/-- FBUS_SEG_GROUP_HI: its address. -/
def R.FBUS_SEG_GROUP_HI (i : Nat) : Nat := 0x02110018 + 65536 * i
/-- FBUS_SEG_GROUP_HI[15:0]. -/
def F.FBUS_SEG_GROUP_HI_GROUP (i : Nat) : Fld := ⟨(R.FBUS_SEG_GROUP_HI i), 15, 0⟩
/-- FBUS_SEG_STRQ: its address. -/
def R.FBUS_SEG_STRQ (i : Nat) : Nat := 0x0211001C + 65536 * i
/-- FBUS_SEG_STRQ[31:0]. -/
def F.FBUS_SEG_STRQ_HANDLE (i : Nat) : Fld := ⟨(R.FBUS_SEG_STRQ i), 31, 0⟩
/-- FBUS_SEG_STRANGER: its address. -/
def R.FBUS_SEG_STRANGER (i : Nat) : Nat := 0x02110040 + 65536 * i
/-- FBUS_SEG_STRANGER[31:0]. -/
def F.FBUS_SEG_STRANGER_COUNT (i : Nat) : Fld := ⟨(R.FBUS_SEG_STRANGER i), 31, 0⟩
/-- FBUS_SEG_NONCINCH: its address. -/
def R.FBUS_SEG_NONCINCH (i : Nat) : Nat := 0x02110044 + 65536 * i
/-- FBUS_SEG_NONCINCH[31:0]. -/
def F.FBUS_SEG_NONCINCH_COUNT (i : Nat) : Fld := ⟨(R.FBUS_SEG_NONCINCH i), 31, 0⟩
/-- FBUS_SEG_FORMAT: its address. -/
def R.FBUS_SEG_FORMAT (i : Nat) : Nat := 0x02110048 + 65536 * i
/-- FBUS_SEG_FORMAT[31:0]. -/
def F.FBUS_SEG_FORMAT_COUNT (i : Nat) : Fld := ⟨(R.FBUS_SEG_FORMAT i), 31, 0⟩
/-- FBUS_SEG_LATE_IN: its address. -/
def R.FBUS_SEG_LATE_IN (i : Nat) : Nat := 0x0211004C + 65536 * i
/-- FBUS_SEG_LATE_IN[31:0]. -/
def F.FBUS_SEG_LATE_IN_COUNT (i : Nat) : Fld := ⟨(R.FBUS_SEG_LATE_IN i), 31, 0⟩
/-- FBUS_SEG_DUP: its address. -/
def R.FBUS_SEG_DUP (i : Nat) : Nat := 0x02110050 + 65536 * i
/-- FBUS_SEG_DUP[31:0]. -/
def F.FBUS_SEG_DUP_COUNT (i : Nat) : Fld := ⟨(R.FBUS_SEG_DUP i), 31, 0⟩
/-- FBUS_SEG_COLLISION: its address. -/
def R.FBUS_SEG_COLLISION (i : Nat) : Nat := 0x02110054 + 65536 * i
/-- FBUS_SEG_COLLISION[31:0]. -/
def F.FBUS_SEG_COLLISION_COUNT (i : Nat) : Fld := ⟨(R.FBUS_SEG_COLLISION i), 31, 0⟩
/-- FBUS_SEG_NOISE: its address. -/
def R.FBUS_SEG_NOISE (i : Nat) : Nat := 0x02110058 + 65536 * i
/-- FBUS_SEG_NOISE[31:0]. -/
def F.FBUS_SEG_NOISE_COUNT (i : Nat) : Fld := ⟨(R.FBUS_SEG_NOISE i), 31, 0⟩
/-- FBUS_SEG_OUT_SENT: its address. -/
def R.FBUS_SEG_OUT_SENT (i : Nat) : Nat := 0x0211005C + 65536 * i
/-- FBUS_SEG_OUT_SENT[31:0]. -/
def F.FBUS_SEG_OUT_SENT_COUNT (i : Nat) : Fld := ⟨(R.FBUS_SEG_OUT_SENT i), 31, 0⟩
/-- FBUS_NODE_MAC_LO: its address. -/
def R.FBUS_NODE_MAC_LO (i : Nat) (j : Nat) : Nat := 0x02111000 + 65536 * i + 32 * j
/-- FBUS_NODE_MAC_LO[31:0]. -/
def F.FBUS_NODE_MAC_LO_MAC (i : Nat) (j : Nat) : Fld := ⟨(R.FBUS_NODE_MAC_LO i j), 31, 0⟩
/-- FBUS_NODE_MAC_HI: its address. -/
def R.FBUS_NODE_MAC_HI (i : Nat) (j : Nat) : Nat := 0x02111004 + 65536 * i + 32 * j
/-- FBUS_NODE_MAC_HI[31:31]. -/
def F.FBUS_NODE_MAC_HI_ENABLE (i : Nat) (j : Nat) : Fld := ⟨(R.FBUS_NODE_MAC_HI i j), 31, 31⟩
/-- FBUS_NODE_MAC_HI[23:16]. -/
def F.FBUS_NODE_MAC_HI_LOST_N (i : Nat) (j : Nat) : Fld := ⟨(R.FBUS_NODE_MAC_HI i j), 23, 16⟩
/-- FBUS_NODE_MAC_HI[15:0]. -/
def F.FBUS_NODE_MAC_HI_MAC (i : Nat) (j : Nat) : Fld := ⟨(R.FBUS_NODE_MAC_HI i j), 15, 0⟩
/-- FBUS_NODE_IN: its address. -/
def R.FBUS_NODE_IN (i : Nat) (j : Nat) : Nat := 0x02111008 + 65536 * i + 32 * j
/-- FBUS_NODE_IN[28:20]. -/
def F.FBUS_NODE_IN_WORDS (i : Nat) (j : Nat) : Fld := ⟨(R.FBUS_NODE_IN i j), 28, 20⟩
/-- FBUS_NODE_IN[16:0]. -/
def F.FBUS_NODE_IN_BASE (i : Nat) (j : Nat) : Fld := ⟨(R.FBUS_NODE_IN i j), 16, 0⟩
/-- FBUS_NODE_OUT: its address. -/
def R.FBUS_NODE_OUT (i : Nat) (j : Nat) : Nat := 0x0211100C + 65536 * i + 32 * j
/-- FBUS_NODE_OUT[28:20]. -/
def F.FBUS_NODE_OUT_WORDS (i : Nat) (j : Nat) : Fld := ⟨(R.FBUS_NODE_OUT i j), 28, 20⟩
/-- FBUS_NODE_OUT[16:0]. -/
def F.FBUS_NODE_OUT_BASE (i : Nat) (j : Nat) : Fld := ⟨(R.FBUS_NODE_OUT i j), 16, 0⟩
/-- FBUS_NODE_STATUS: its address. -/
def R.FBUS_NODE_STATUS (i : Nat) (j : Nat) : Nat := 0x02111010 + 65536 * i + 32 * j
/-- FBUS_NODE_STATUS[31:31]. -/
def F.FBUS_NODE_STATUS_VALID (i : Nat) (j : Nat) : Fld := ⟨(R.FBUS_NODE_STATUS i j), 31, 31⟩
/-- FBUS_NODE_STATUS[15:0]. -/
def F.FBUS_NODE_STATUS_CINCH (i : Nat) (j : Nat) : Fld := ⟨(R.FBUS_NODE_STATUS i j), 15, 0⟩
/-- FBUS_NODE_NOISE: its address. -/
def R.FBUS_NODE_NOISE (i : Nat) (j : Nat) : Nat := 0x02111014 + 65536 * i + 32 * j
/-- FBUS_NODE_NOISE[31:0]. -/
def F.FBUS_NODE_NOISE_COUNT (i : Nat) (j : Nat) : Fld := ⟨(R.FBUS_NODE_NOISE i j), 31, 0⟩
/-- FBUS_NODE_MISSED: its address. -/
def R.FBUS_NODE_MISSED (i : Nat) (j : Nat) : Nat := 0x02111018 + 65536 * i + 32 * j
/-- FBUS_NODE_MISSED[31:0]. -/
def F.FBUS_NODE_MISSED_COUNT (i : Nat) (j : Nat) : Fld := ⟨(R.FBUS_NODE_MISSED i j), 31, 0⟩
/-- LAMP_CTRL: its address. -/
def R.LAMP_CTRL : Nat := 0x02200000
/-- LAMP_CTRL[31:31]. -/
def F.LAMP_CTRL_ENABLE : Fld := ⟨R.LAMP_CTRL, 31, 31⟩
/-- LAMP_CTRL[30:30]. -/
def F.LAMP_CTRL_MATRIX : Fld := ⟨R.LAMP_CTRL, 30, 30⟩
/-- LAMP_CTRL[29:26]. -/
def F.LAMP_CTRL_ROWS : Fld := ⟨R.LAMP_CTRL, 29, 26⟩
/-- LAMP_CTRL[25:25]. -/
def F.LAMP_CTRL_SYNC : Fld := ⟨R.LAMP_CTRL, 25, 25⟩
/-- LAMP_CTRL[24:24]. -/
def F.LAMP_CTRL_MODE : Fld := ⟨R.LAMP_CTRL, 24, 24⟩
/-- LAMP_CTRL[23:21]. -/
def F.LAMP_CTRL_SEQ_LEN : Fld := ⟨R.LAMP_CTRL, 23, 21⟩
/-- LAMP_CTRL[20:18]. -/
def F.LAMP_CTRL_BACK : Fld := ⟨R.LAMP_CTRL, 20, 18⟩
/-- LAMP_CTRL[17:17]. -/
def F.LAMP_CTRL_BCAST : Fld := ⟨R.LAMP_CTRL, 17, 17⟩
/-- LAMP_CTRL[16:15]. -/
def F.LAMP_CTRL_BCAST_SEG : Fld := ⟨R.LAMP_CTRL, 16, 15⟩
/-- LAMP_CTRL[14:14]. -/
def F.LAMP_CTRL_BAND_SET : Fld := ⟨R.LAMP_CTRL, 14, 14⟩
/-- LAMP_CTRL[13:13]. -/
def F.LAMP_CTRL_BIN_EN : Fld := ⟨R.LAMP_CTRL, 13, 13⟩
/-- LAMP_CTRL[12:12]. -/
def F.LAMP_CTRL_POL : Fld := ⟨R.LAMP_CTRL, 12, 12⟩
/-- LAMP_CTRL[11:0]. -/
def F.LAMP_CTRL_LEAD : Fld := ⟨R.LAMP_CTRL, 11, 0⟩
/-- LAMP_TIMING: its address. -/
def R.LAMP_TIMING : Nat := 0x02200004
/-- LAMP_TIMING[31:16]. -/
def F.LAMP_TIMING_FRAME_DIV : Fld := ⟨R.LAMP_TIMING, 31, 16⟩
/-- LAMP_TIMING[15:0]. -/
def F.LAMP_TIMING_PWM_TCLK : Fld := ⟨R.LAMP_TIMING, 15, 0⟩
/-- LAMP_DIAG: its address. -/
def R.LAMP_DIAG : Nat := 0x02200008
/-- LAMP_DIAG[31:16]. -/
def F.LAMP_DIAG_DIAG_PERIOD : Fld := ⟨R.LAMP_DIAG, 31, 16⟩
/-- LAMP_DIAG[15:15]. -/
def F.LAMP_DIAG_DIAG_EN : Fld := ⟨R.LAMP_DIAG, 15, 15⟩
/-- LAMP_DIAG[7:0]. -/
def F.LAMP_DIAG_FAULT_N : Fld := ⟨R.LAMP_DIAG, 7, 0⟩
/-- LAMP_SENSE: its address. -/
def R.LAMP_SENSE : Nat := 0x0220000C
/-- LAMP_SENSE[31:16]. -/
def F.LAMP_SENSE_SHORT_MV : Fld := ⟨R.LAMP_SENSE, 31, 16⟩
/-- LAMP_SENSE[7:0]. -/
def F.LAMP_SENSE_OPEN_FRAC : Fld := ⟨R.LAMP_SENSE, 7, 0⟩
/-- LAMP_CHAIN: its address. -/
def R.LAMP_CHAIN : Nat := 0x02200010
/-- LAMP_CHAIN[31:16]. -/
def F.LAMP_CHAIN_LSYNC_MIN : Fld := ⟨R.LAMP_CHAIN, 31, 16⟩
/-- LAMP_CHAIN[12:8]. -/
def F.LAMP_CHAIN_BOARDS : Fld := ⟨R.LAMP_CHAIN, 12, 8⟩
/-- LAMP_CHAIN[7:0]. -/
def F.LAMP_CHAIN_LCK_DIV : Fld := ⟨R.LAMP_CHAIN, 7, 0⟩
/-- LAMP_CMD: its address. -/
def R.LAMP_CMD : Nat := 0x02200014
/-- LAMP_CMD[0:0]. -/
def F.LAMP_CMD_SWAP : Fld := ⟨R.LAMP_CMD, 0, 0⟩
/-- LAMP_STATUS: its address. -/
def R.LAMP_STATUS : Nat := 0x02200018
/-- LAMP_STATUS[31:29]. -/
def F.LAMP_STATUS_RESULT : Fld := ⟨R.LAMP_STATUS, 31, 29⟩
/-- LAMP_STATUS[28:28]. -/
def F.LAMP_STATUS_CUT : Fld := ⟨R.LAMP_STATUS, 28, 28⟩
/-- LAMP_STATUS[26:24]. -/
def F.LAMP_STATUS_FRONT : Fld := ⟨R.LAMP_STATUS, 26, 24⟩
/-- LAMP_SEQ: its address. -/
def R.LAMP_SEQ : Nat := 0x0220001C
/-- LAMP_SEQ[31:0]. -/
def F.LAMP_SEQ_VALUE : Fld := ⟨R.LAMP_SEQ, 31, 0⟩
/-- LAMP_SEQ_LATCH: its address. -/
def R.LAMP_SEQ_LATCH : Nat := 0x02200020
/-- LAMP_SEQ_LATCH[31:0]. -/
def F.LAMP_SEQ_LATCH_VALUE : Fld := ⟨R.LAMP_SEQ_LATCH, 31, 0⟩
/-- LAMP_THR_CEIL: its address. -/
def R.LAMP_THR_CEIL : Nat := 0x02200024
/-- LAMP_THR_CEIL[11:0]. -/
def F.LAMP_THR_CEIL_CODE : Fld := ⟨R.LAMP_THR_CEIL, 11, 0⟩
/-- LAMP_EVQ: its address. -/
def R.LAMP_EVQ : Nat := 0x02200028
/-- LAMP_EVQ[31:0]. -/
def F.LAMP_EVQ_HANDLE : Fld := ⟨R.LAMP_EVQ, 31, 0⟩
/-- LAMP_LSYNC_SKIP: its address. -/
def R.LAMP_LSYNC_SKIP : Nat := 0x0220002C
/-- LAMP_LSYNC_SKIP[31:0]. -/
def F.LAMP_LSYNC_SKIP_COUNT : Fld := ⟨R.LAMP_LSYNC_SKIP, 31, 0⟩
/-- LAMP_CHAIN_SKIP: its address. -/
def R.LAMP_CHAIN_SKIP : Nat := 0x02200030
/-- LAMP_CHAIN_SKIP[31:0]. -/
def F.LAMP_CHAIN_SKIP_COUNT : Fld := ⟨R.LAMP_CHAIN_SKIP, 31, 0⟩
/-- LAMP_COMP: its address. -/
def R.LAMP_COMP (i : Nat) : Nat := 0x02200100 + 4 * i
/-- LAMP_COMP[31:16]. -/
def F.LAMP_COMP_K (i : Nat) : Fld := ⟨(R.LAMP_COMP i), 31, 16⟩
/-- LAMP_COMP[15:0]. -/
def F.LAMP_COMP_TREF (i : Nat) : Fld := ⟨(R.LAMP_COMP i), 15, 0⟩
/-- LAMP_CH_CFG: its address. -/
def R.LAMP_CH_CFG (i : Nat) : Nat := 0x02200200 + 16 * i
/-- LAMP_CH_CFG[31:31]. -/
def F.LAMP_CH_CFG_CLEAR (i : Nat) : Fld := ⟨(R.LAMP_CH_CFG i), 31, 31⟩
/-- LAMP_CH_CFG[29:24]. -/
def F.LAMP_CH_CFG_POS (i : Nat) : Fld := ⟨(R.LAMP_CH_CFG i), 29, 24⟩
/-- LAMP_CH_CFG[23:20]. -/
def F.LAMP_CH_CFG_ENGINE (i : Nat) : Fld := ⟨(R.LAMP_CH_CFG i), 23, 20⟩
/-- LAMP_CH_CFG[18:16]. -/
def F.LAMP_CH_CFG_TSRC (i : Nat) : Fld := ⟨(R.LAMP_CH_CFG i), 18, 16⟩
/-- LAMP_CH_CFG[15:14]. -/
def F.LAMP_CH_CFG_COLOUR (i : Nat) : Fld := ⟨(R.LAMP_CH_CFG i), 15, 14⟩
/-- LAMP_CH_CFG[13:12]. -/
def F.LAMP_CH_CFG_CURVE (i : Nat) : Fld := ⟨(R.LAMP_CH_CFG i), 13, 12⟩
/-- LAMP_CH_CFG[11:0]. -/
def F.LAMP_CH_CFG_CURRENT (i : Nat) : Fld := ⟨(R.LAMP_CH_CFG i), 11, 0⟩
/-- LAMP_CH_STATE: its address. -/
def R.LAMP_CH_STATE (i : Nat) : Nat := 0x02200204 + 16 * i
/-- LAMP_CH_STATE[31:16]. -/
def F.LAMP_CH_STATE_DUTY (i : Nat) : Fld := ⟨(R.LAMP_CH_STATE i), 31, 16⟩
/-- LAMP_CH_STATE[11:8]. -/
def F.LAMP_CH_STATE_ROW (i : Nat) : Fld := ⟨(R.LAMP_CH_STATE i), 11, 8⟩
/-- LAMP_CH_STATE[2:0]. -/
def F.LAMP_CH_STATE_STATE (i : Nat) : Fld := ⟨(R.LAMP_CH_STATE i), 2, 0⟩
/-- LAMP_ENG_CFG: its address. -/
def R.LAMP_ENG_CFG (i : Nat) : Nat := 0x02200600 + 16 * i
/-- LAMP_ENG_CFG[31:30]. -/
def F.LAMP_ENG_CFG_MODE (i : Nat) : Fld := ⟨(R.LAMP_ENG_CFG i), 31, 30⟩
/-- LAMP_ENG_CFG[29:16]. -/
def F.LAMP_ENG_CFG_PERIOD (i : Nat) : Fld := ⟨(R.LAMP_ENG_CFG i), 29, 16⟩
/-- LAMP_ENG_CFG[15:8]. -/
def F.LAMP_ENG_CFG_STEP (i : Nat) : Fld := ⟨(R.LAMP_ENG_CFG i), 15, 8⟩
/-- LAMP_ENG_CFG[7:0]. -/
def F.LAMP_ENG_CFG_WIDTH (i : Nat) : Fld := ⟨(R.LAMP_ENG_CFG i), 7, 0⟩
/-- LAMP_ENG_LEVELS: its address. -/
def R.LAMP_ENG_LEVELS (i : Nat) : Nat := 0x02200604 + 16 * i
/-- LAMP_ENG_LEVELS[31:16]. -/
def F.LAMP_ENG_LEVELS_HIGH (i : Nat) : Fld := ⟨(R.LAMP_ENG_LEVELS i), 31, 16⟩
/-- LAMP_ENG_LEVELS[15:0]. -/
def F.LAMP_ENG_LEVELS_LOW (i : Nat) : Fld := ⟨(R.LAMP_ENG_LEVELS i), 15, 0⟩
/-- LAMP_BIN_M0: its address. -/
def R.LAMP_BIN_M0 (i : Nat) : Nat := 0x02201000 + 32 * i
/-- LAMP_BIN_M0[31:16]. -/
def F.LAMP_BIN_M0_M1 (i : Nat) : Fld := ⟨(R.LAMP_BIN_M0 i), 31, 16⟩
/-- LAMP_BIN_M0[15:0]. -/
def F.LAMP_BIN_M0_M0 (i : Nat) : Fld := ⟨(R.LAMP_BIN_M0 i), 15, 0⟩
/-- LAMP_BIN_M1: its address. -/
def R.LAMP_BIN_M1 (i : Nat) : Nat := 0x02201004 + 32 * i
/-- LAMP_BIN_M1[31:16]. -/
def F.LAMP_BIN_M1_M3 (i : Nat) : Fld := ⟨(R.LAMP_BIN_M1 i), 31, 16⟩
/-- LAMP_BIN_M1[15:0]. -/
def F.LAMP_BIN_M1_M2 (i : Nat) : Fld := ⟨(R.LAMP_BIN_M1 i), 15, 0⟩
/-- LAMP_BIN_M2: its address. -/
def R.LAMP_BIN_M2 (i : Nat) : Nat := 0x02201008 + 32 * i
/-- LAMP_BIN_M2[31:16]. -/
def F.LAMP_BIN_M2_M5 (i : Nat) : Fld := ⟨(R.LAMP_BIN_M2 i), 31, 16⟩
/-- LAMP_BIN_M2[15:0]. -/
def F.LAMP_BIN_M2_M4 (i : Nat) : Fld := ⟨(R.LAMP_BIN_M2 i), 15, 0⟩
/-- LAMP_BIN_M3: its address. -/
def R.LAMP_BIN_M3 (i : Nat) : Nat := 0x0220100C + 32 * i
/-- LAMP_BIN_M3[31:16]. -/
def F.LAMP_BIN_M3_M7 (i : Nat) : Fld := ⟨(R.LAMP_BIN_M3 i), 31, 16⟩
/-- LAMP_BIN_M3[15:0]. -/
def F.LAMP_BIN_M3_M6 (i : Nat) : Fld := ⟨(R.LAMP_BIN_M3 i), 15, 0⟩
/-- LAMP_BIN_M4: its address. -/
def R.LAMP_BIN_M4 (i : Nat) : Nat := 0x02201010 + 32 * i
/-- LAMP_BIN_M4[15:0]. -/
def F.LAMP_BIN_M4_M8 (i : Nat) : Fld := ⟨(R.LAMP_BIN_M4 i), 15, 0⟩
/-- PWR_STATE: its address. -/
def R.PWR_STATE : Nat := 0x02300000
/-- PWR_STATE[31:28]. -/
def F.PWR_STATE_STATE : Fld := ⟨R.PWR_STATE, 31, 28⟩
/-- PWR_STATE[27:25]. -/
def F.PWR_STATE_RESULT : Fld := ⟨R.PWR_STATE, 27, 25⟩
/-- PWR_STATE[24:24]. -/
def F.PWR_STATE_LATCH : Fld := ⟨R.PWR_STATE, 24, 24⟩
/-- PWR_STATE[23:23]. -/
def F.PWR_STATE_BOOT_DONE : Fld := ⟨R.PWR_STATE, 23, 23⟩
/-- PWR_CMD: its address. -/
def R.PWR_CMD : Nat := 0x02300004
/-- PWR_CMD[2:0]. -/
def F.PWR_CMD_CMD : Fld := ⟨R.PWR_CMD, 2, 0⟩
/-- PWR_CAUSE: its address. -/
def R.PWR_CAUSE : Nat := 0x02300008
/-- PWR_CAUSE[31:28]. -/
def F.PWR_CAUSE_KIND : Fld := ⟨R.PWR_CAUSE, 31, 28⟩
/-- PWR_CAUSE[27:27]. -/
def F.PWR_CAUSE_VBAT_LOST : Fld := ⟨R.PWR_CAUSE, 27, 27⟩
/-- PWR_CAUSE[23:20]. -/
def F.PWR_CAUSE_SEQ_CODE : Fld := ⟨R.PWR_CAUSE, 23, 20⟩
/-- PWR_CAUSE[19:16]. -/
def F.PWR_CAUSE_BO_COUNT : Fld := ⟨R.PWR_CAUSE, 19, 16⟩
/-- PWR_CAUSE[15:0]. -/
def F.PWR_CAUSE_BOOTS : Fld := ⟨R.PWR_CAUSE, 15, 0⟩
/-- PWR_SEQ_CFG: its address. -/
def R.PWR_SEQ_CFG : Nat := 0x0230000C
/-- PWR_SEQ_CFG[31:31]. -/
def F.PWR_SEQ_CFG_AUTO_WAKE : Fld := ⟨R.PWR_SEQ_CFG, 31, 31⟩
/-- PWR_SEQ_CFG[30:30]. -/
def F.PWR_SEQ_CFG_WAKE_N_EN : Fld := ⟨R.PWR_SEQ_CFG, 30, 30⟩
/-- PWR_SEQ_CFG[29:29]. -/
def F.PWR_SEQ_CFG_BURNISH : Fld := ⟨R.PWR_SEQ_CFG, 29, 29⟩
/-- PWR_SEQ_CFG[28:24]. -/
def F.PWR_SEQ_CFG_BO_RETRY : Fld := ⟨R.PWR_SEQ_CFG, 28, 24⟩
/-- PWR_SEQ_CFG[23:16]. -/
def F.PWR_SEQ_CFG_PG_TIMEOUT : Fld := ⟨R.PWR_SEQ_CFG, 23, 16⟩
/-- PWR_SEQ_CFG[15:0]. -/
def F.PWR_SEQ_CFG_SETTLE : Fld := ⟨R.PWR_SEQ_CFG, 15, 0⟩
/-- PWR_WAKE_AT: its address. -/
def R.PWR_WAKE_AT : Nat := 0x02300010
/-- PWR_WAKE_AT[31:0]. -/
def F.PWR_WAKE_AT_VALUE : Fld := ⟨R.PWR_WAKE_AT, 31, 0⟩
/-- PWR_VBAT_CNT: its address. -/
def R.PWR_VBAT_CNT : Nat := 0x02300014
/-- PWR_VBAT_CNT[31:0]. -/
def F.PWR_VBAT_CNT_VALUE : Fld := ⟨R.PWR_VBAT_CNT, 31, 0⟩
/-- PWR_AVS_CFG: its address. -/
def R.PWR_AVS_CFG : Nat := 0x02300018
/-- PWR_AVS_CFG[31:31]. -/
def F.PWR_AVS_CFG_AVS_EN : Fld := ⟨R.PWR_AVS_CFG, 31, 31⟩
/-- PWR_AVS_CFG[30:30]. -/
def F.PWR_AVS_CFG_PEC_EN : Fld := ⟨R.PWR_AVS_CFG, 30, 30⟩
/-- PWR_AVS_CFG[29:29]. -/
def F.PWR_AVS_CFG_FAST : Fld := ⟨R.PWR_AVS_CFG, 29, 29⟩
/-- PWR_AVS_CFG[22:16]. -/
def F.PWR_AVS_CFG_ADDR : Fld := ⟨R.PWR_AVS_CFG, 22, 16⟩
/-- PWR_AVS_CFG[15:8]. -/
def F.PWR_AVS_CFG_INT : Fld := ⟨R.PWR_AVS_CFG, 15, 8⟩
/-- PWR_AVS_CFG[7:0]. -/
def F.PWR_AVS_CFG_STEP : Fld := ⟨R.PWR_AVS_CFG, 7, 0⟩
/-- PWR_AVS_LIM: its address. -/
def R.PWR_AVS_LIM : Nat := 0x0230001C
/-- PWR_AVS_LIM[25:16]. -/
def F.PWR_AVS_LIM_VMAX : Fld := ⟨R.PWR_AVS_LIM, 25, 16⟩
/-- PWR_AVS_LIM[9:0]. -/
def F.PWR_AVS_LIM_VMIN : Fld := ⟨R.PWR_AVS_LIM, 9, 0⟩
/-- PWR_AVS_MARGIN: its address. -/
def R.PWR_AVS_MARGIN : Nat := 0x02300020
/-- PWR_AVS_MARGIN[31:24]. -/
def F.PWR_AVS_MARGIN_CRIT : Fld := ⟨R.PWR_AVS_MARGIN, 31, 24⟩
/-- PWR_AVS_MARGIN[23:16]. -/
def F.PWR_AVS_MARGIN_HIGH : Fld := ⟨R.PWR_AVS_MARGIN, 23, 16⟩
/-- PWR_AVS_MARGIN[7:0]. -/
def F.PWR_AVS_MARGIN_LOW : Fld := ⟨R.PWR_AVS_MARGIN, 7, 0⟩
/-- PWR_AVS_STATUS: its address. -/
def R.PWR_AVS_STATUS : Nat := 0x02300024
/-- PWR_AVS_STATUS[31:31]. -/
def F.PWR_AVS_STATUS_FAULT : Fld := ⟨R.PWR_AVS_STATUS, 31, 31⟩
/-- PWR_AVS_STATUS[25:16]. -/
def F.PWR_AVS_STATUS_TARGET : Fld := ⟨R.PWR_AVS_STATUS, 25, 16⟩
/-- PWR_AVS_STATUS[9:0]. -/
def F.PWR_AVS_STATUS_READ_VOUT : Fld := ⟨R.PWR_AVS_STATUS, 9, 0⟩
/-- PWR_BLOCK_RST: its address. -/
def R.PWR_BLOCK_RST : Nat := 0x02300028
/-- PWR_BLOCK_RST[31:31]. -/
def F.PWR_BLOCK_RST_START : Fld := ⟨R.PWR_BLOCK_RST, 31, 31⟩
/-- PWR_BLOCK_RST[30:28]. -/
def F.PWR_BLOCK_RST_RESULT : Fld := ⟨R.PWR_BLOCK_RST, 30, 28⟩
/-- PWR_BLOCK_RST[11:8]. -/
def F.PWR_BLOCK_RST_CODE : Fld := ⟨R.PWR_BLOCK_RST, 11, 8⟩
/-- PWR_BLOCK_RST[5:0]. -/
def F.PWR_BLOCK_RST_INSTANCE : Fld := ⟨R.PWR_BLOCK_RST, 5, 0⟩
/-- PWR_RAILS: its address. -/
def R.PWR_RAILS : Nat := 0x0230002C
/-- PWR_RAILS[9:0]. -/
def F.PWR_RAILS_UP : Fld := ⟨R.PWR_RAILS, 9, 0⟩
/-- PWR_EVQ: its address. -/
def R.PWR_EVQ : Nat := 0x02300030
/-- PWR_EVQ[31:0]. -/
def F.PWR_EVQ_HANDLE : Fld := ⟨R.PWR_EVQ, 31, 0⟩
/-- THRM_SENSOR_CFG: its address. -/
def R.THRM_SENSOR_CFG (i : Nat) : Nat := 0x02400000 + 32 * i
/-- THRM_SENSOR_CFG[31:31]. -/
def F.THRM_SENSOR_CFG_ENABLE (i : Nat) : Fld := ⟨(R.THRM_SENSOR_CFG i), 31, 31⟩
/-- THRM_SENSOR_CFG[30:30]. -/
def F.THRM_SENSOR_CFG_FAULT_HOT (i : Nat) : Fld := ⟨(R.THRM_SENSOR_CFG i), 30, 30⟩
/-- THRM_SENSOR_CFG[29:24]. -/
def F.THRM_SENSOR_CFG_HYST (i : Nat) : Fld := ⟨(R.THRM_SENSOR_CFG i), 29, 24⟩
/-- THRM_SENSOR_CFG[23:0]. -/
def F.THRM_SENSOR_CFG_MODEL (i : Nat) : Fld := ⟨(R.THRM_SENSOR_CFG i), 23, 0⟩
/-- THRM_SENSOR_VALUE: its address. -/
def R.THRM_SENSOR_VALUE (i : Nat) : Nat := 0x02400004 + 32 * i
/-- THRM_SENSOR_VALUE[31:20]. -/
def F.THRM_SENSOR_VALUE_AGE (i : Nat) : Fld := ⟨(R.THRM_SENSOR_VALUE i), 31, 20⟩
/-- THRM_SENSOR_VALUE[19:17]. -/
def F.THRM_SENSOR_VALUE_BAND (i : Nat) : Fld := ⟨(R.THRM_SENSOR_VALUE i), 19, 17⟩
/-- THRM_SENSOR_VALUE[16:16]. -/
def F.THRM_SENSOR_VALUE_FAULT (i : Nat) : Fld := ⟨(R.THRM_SENSOR_VALUE i), 16, 16⟩
/-- THRM_SENSOR_VALUE[15:0]. -/
def F.THRM_SENSOR_VALUE_READING (i : Nat) : Fld := ⟨(R.THRM_SENSOR_VALUE i), 15, 0⟩
/-- THRM_SENSOR_LIMIT: its address. -/
def R.THRM_SENSOR_LIMIT (i : Nat) : Nat := 0x02400008 + 32 * i
/-- THRM_SENSOR_LIMIT[31:16]. -/
def F.THRM_SENSOR_LIMIT_SHUT_N (i : Nat) : Fld := ⟨(R.THRM_SENSOR_LIMIT i), 31, 16⟩
/-- THRM_SENSOR_LIMIT[15:0]. -/
def F.THRM_SENSOR_LIMIT_SHUT (i : Nat) : Fld := ⟨(R.THRM_SENSOR_LIMIT i), 15, 0⟩
/-- THRM_SENSOR_BANDS: its address. -/
def R.THRM_SENSOR_BANDS (i : Nat) : Nat := 0x0240000C + 32 * i
/-- THRM_SENSOR_BANDS[31:16]. -/
def F.THRM_SENSOR_BANDS_WARM (i : Nat) : Fld := ⟨(R.THRM_SENSOR_BANDS i), 31, 16⟩
/-- THRM_SENSOR_BANDS[15:0]. -/
def F.THRM_SENSOR_BANDS_NORMAL (i : Nat) : Fld := ⟨(R.THRM_SENSOR_BANDS i), 15, 0⟩
/-- THRM_SENSOR_HOT: its address. -/
def R.THRM_SENSOR_HOT (i : Nat) : Nat := 0x02400010 + 32 * i
/-- THRM_SENSOR_HOT[15:0]. -/
def F.THRM_SENSOR_HOT_HOT (i : Nat) : Fld := ⟨(R.THRM_SENSOR_HOT i), 15, 0⟩
/-- THRM_STEP_CTRL: its address. -/
def R.THRM_STEP_CTRL (i : Nat) : Nat := 0x02400400 + 16 * i
/-- THRM_STEP_CTRL[31:30]. -/
def F.THRM_STEP_CTRL_ACTION (i : Nat) : Fld := ⟨(R.THRM_STEP_CTRL i), 31, 30⟩
/-- THRM_STEP_CTRL[29:29]. -/
def F.THRM_STEP_CTRL_ENGAGED (i : Nat) : Fld := ⟨(R.THRM_STEP_CTRL i), 29, 29⟩
/-- THRM_STEP_CTRL[27:16]. -/
def F.THRM_STEP_CTRL_HYST (i : Nat) : Fld := ⟨(R.THRM_STEP_CTRL i), 27, 16⟩
/-- THRM_STEP_CTRL[15:0]. -/
def F.THRM_STEP_CTRL_ONSET (i : Nat) : Fld := ⟨(R.THRM_STEP_CTRL i), 15, 0⟩
/-- THRM_STEP_GROUP: its address. -/
def R.THRM_STEP_GROUP (i : Nat) : Nat := 0x02400404 + 16 * i
/-- THRM_STEP_GROUP[27:0]. -/
def F.THRM_STEP_GROUP_SENSORS (i : Nat) : Fld := ⟨(R.THRM_STEP_GROUP i), 27, 0⟩
/-- THRM_STEP_SLOTS: its address. -/
def R.THRM_STEP_SLOTS (i : Nat) : Nat := 0x02400408 + 16 * i
/-- THRM_STEP_SLOTS[31:0]. -/
def F.THRM_STEP_SLOTS_UNITS (i : Nat) : Fld := ⟨(R.THRM_STEP_SLOTS i), 31, 0⟩
/-- THRM_STEP_CEIL: its address. -/
def R.THRM_STEP_CEIL (i : Nat) : Nat := 0x0240040C + 16 * i
/-- THRM_STEP_CEIL[15:0]. -/
def F.THRM_STEP_CEIL_CEIL (i : Nat) : Fld := ⟨(R.THRM_STEP_CEIL i), 15, 0⟩
/-- THRM_BAND_GROUP: its address. -/
def R.THRM_BAND_GROUP (i : Nat) : Nat := 0x02400500 + 4 * i
/-- THRM_BAND_GROUP[31:30]. -/
def F.THRM_BAND_GROUP_BAND (i : Nat) : Fld := ⟨(R.THRM_BAND_GROUP i), 31, 30⟩
/-- THRM_BAND_GROUP[27:0]. -/
def F.THRM_BAND_GROUP_MASK (i : Nat) : Fld := ⟨(R.THRM_BAND_GROUP i), 27, 0⟩
/-- THRM_SHUT_CAUSE: its address. -/
def R.THRM_SHUT_CAUSE : Nat := 0x02400520
/-- THRM_SHUT_CAUSE[31:31]. -/
def F.THRM_SHUT_CAUSE_VALID : Fld := ⟨R.THRM_SHUT_CAUSE, 31, 31⟩
/-- THRM_SHUT_CAUSE[20:16]. -/
def F.THRM_SHUT_CAUSE_SENSOR : Fld := ⟨R.THRM_SHUT_CAUSE, 20, 16⟩
/-- THRM_SHUT_CAUSE[15:0]. -/
def F.THRM_SHUT_CAUSE_READING : Fld := ⟨R.THRM_SHUT_CAUSE, 15, 0⟩
/-- THRM_EVQ: its address. -/
def R.THRM_EVQ : Nat := 0x02400524
/-- THRM_EVQ[31:0]. -/
def F.THRM_EVQ_HANDLE : Fld := ⟨R.THRM_EVQ, 31, 0⟩
/-- CAL_CMD: its address. -/
def R.CAL_CMD : Nat := 0x02500000
/-- CAL_CMD[31:31]. -/
def F.CAL_CMD_START : Fld := ⟨R.CAL_CMD, 31, 31⟩
/-- CAL_CMD[29:28]. -/
def F.CAL_CMD_KIND : Fld := ⟨R.CAL_CMD, 29, 28⟩
/-- CAL_CMD[19:16]. -/
def F.CAL_CMD_ITEM : Fld := ⟨R.CAL_CMD, 19, 16⟩
/-- CAL_CMD[5:0]. -/
def F.CAL_CMD_INSTANCE : Fld := ⟨R.CAL_CMD, 5, 0⟩
/-- CAL_STATUS: its address. -/
def R.CAL_STATUS : Nat := 0x02500004
/-- CAL_STATUS[31:31]. -/
def F.CAL_STATUS_BUSY : Fld := ⟨R.CAL_STATUS, 31, 31⟩
/-- CAL_STATUS[19:16]. -/
def F.CAL_STATUS_ITEM : Fld := ⟨R.CAL_STATUS, 19, 16⟩
/-- CAL_STATUS[13:8]. -/
def F.CAL_STATUS_INSTANCE : Fld := ⟨R.CAL_STATUS, 13, 8⟩
/-- CAL_STATUS[7:0]. -/
def F.CAL_STATUS_QUEUED : Fld := ⟨R.CAL_STATUS, 7, 0⟩
/-- CAL_ITEM: its address. -/
def R.CAL_ITEM (i : Nat) : Nat := 0x02500014 + 4 * i
/-- CAL_ITEM[31:16]. -/
def F.CAL_ITEM_DT (i : Nat) : Fld := ⟨(R.CAL_ITEM i), 31, 16⟩
/-- CAL_ITEM[12:8]. -/
def F.CAL_ITEM_SENSOR (i : Nat) : Fld := ⟨(R.CAL_ITEM i), 12, 8⟩
/-- CAL_ITEM[7:0]. -/
def F.CAL_ITEM_MAXCHG (i : Nat) : Fld := ⟨(R.CAL_ITEM i), 7, 0⟩
/-- CAL_REF_ID: its address. -/
def R.CAL_REF_ID (i : Nat) : Nat := 0x02500040 + 4 * i
/-- CAL_REF_ID[31:0]. -/
def F.CAL_REF_ID_VALUE (i : Nat) : Fld := ⟨(R.CAL_REF_ID i), 31, 0⟩
/-- CAL_PLATE_ID: its address. -/
def R.CAL_PLATE_ID (i : Nat) : Nat := 0x02500050 + 4 * i
/-- CAL_PLATE_ID[31:0]. -/
def F.CAL_PLATE_ID_VALUE (i : Nat) : Fld := ⟨(R.CAL_PLATE_ID i), 31, 0⟩
/-- CAL_PLATE: its address. -/
def R.CAL_PLATE : Nat := 0x02500060
/-- CAL_PLATE[31:0]. -/
def F.CAL_PLATE_HANDLE : Fld := ⟨R.CAL_PLATE, 31, 0⟩
/-- CAL_REC_SEL: its address. -/
def R.CAL_REC_SEL : Nat := 0x02500064
/-- CAL_REC_SEL[19:16]. -/
def F.CAL_REC_SEL_ITEM : Fld := ⟨R.CAL_REC_SEL, 19, 16⟩
/-- CAL_REC_SEL[5:0]. -/
def F.CAL_REC_SEL_INSTANCE : Fld := ⟨R.CAL_REC_SEL, 5, 0⟩
/-- CAL_EVQ: its address. -/
def R.CAL_EVQ : Nat := 0x02500068
/-- CAL_EVQ[31:0]. -/
def F.CAL_EVQ_HANDLE : Fld := ⟨R.CAL_EVQ, 31, 0⟩
/-- CAL_REC: its address. -/
def R.CAL_REC (i : Nat) : Nat := 0x02500080 + 4 * i
/-- CAL_REC[31:0]. -/
def F.CAL_REC_VALUE (i : Nat) : Fld := ⟨(R.CAL_REC i), 31, 0⟩
/-- BURN_CTRL: its address. -/
def R.BURN_CTRL : Nat := 0x02600000
/-- BURN_CTRL[31:31]. -/
def F.BURN_CTRL_RUN : Fld := ⟨R.BURN_CTRL, 31, 31⟩
/-- BURN_CTRL[30:30]. -/
def F.BURN_CTRL_CANCEL : Fld := ⟨R.BURN_CTRL, 30, 30⟩
/-- BURN_CTRL[29:29]. -/
def F.BURN_CTRL_BUSY : Fld := ⟨R.BURN_CTRL, 29, 29⟩
/-- BURN_CTRL[7:0]. -/
def F.BURN_CTRL_SLICE : Fld := ⟨R.BURN_CTRL, 7, 0⟩
/-- BURN_BUDGET: its address. -/
def R.BURN_BUDGET : Nat := 0x02600004
/-- BURN_BUDGET[31:16]. -/
def F.BURN_BUDGET_RUN_BUDGET : Fld := ⟨R.BURN_BUDGET, 31, 16⟩
/-- BURN_BUDGET[15:0]. -/
def F.BURN_BUDGET_SLICE_BUDGET : Fld := ⟨R.BURN_BUDGET, 15, 0⟩
/-- BURN_RESULT: its address. -/
def R.BURN_RESULT : Nat := 0x02600008
/-- BURN_RESULT[31:31]. -/
def F.BURN_RESULT_BURNISH_FAIL : Fld := ⟨R.BURN_RESULT, 31, 31⟩
/-- BURN_RESULT[30:30]. -/
def F.BURN_RESULT_FRESH : Fld := ⟨R.BURN_RESULT, 30, 30⟩
/-- BURN_RESULT[29:28]. -/
def F.BURN_RESULT_OUTCOME : Fld := ⟨R.BURN_RESULT, 29, 28⟩
/-- BURN_RESULT[23:16]. -/
def F.BURN_RESULT_FAILED : Fld := ⟨R.BURN_RESULT, 23, 16⟩
/-- BURN_RESULT[7:0]. -/
def F.BURN_RESULT_NOT_RUN : Fld := ⟨R.BURN_RESULT, 7, 0⟩
/-- BURN_EVQ: its address. -/
def R.BURN_EVQ : Nat := 0x0260000C
/-- BURN_EVQ[31:0]. -/
def F.BURN_EVQ_HANDLE : Fld := ⟨R.BURN_EVQ, 31, 0⟩
/-- BURN_SLICE: its address. -/
def R.BURN_SLICE (i : Nat) : Nat := 0x02600100 + 4 * i
/-- BURN_SLICE[31:30]. -/
def F.BURN_SLICE_RESULT (i : Nat) : Fld := ⟨(R.BURN_SLICE i), 31, 30⟩
/-- BURN_SLICE[27:16]. -/
def F.BURN_SLICE_TIME (i : Nat) : Fld := ⟨(R.BURN_SLICE i), 27, 16⟩
/-- BURN_SLICE[11:8]. -/
def F.BURN_SLICE_CODE (i : Nat) : Fld := ⟨(R.BURN_SLICE i), 11, 8⟩
/-- BURN_SLICE[5:0]. -/
def F.BURN_SLICE_INSTANCE (i : Nat) : Fld := ⟨(R.BURN_SLICE i), 5, 0⟩
/-- SEC_GUARD: its address. -/
def R.SEC_GUARD : Nat := 0x02700000
/-- SEC_GUARD[31:31]. -/
def F.SEC_GUARD_PENDING : Fld := ⟨R.SEC_GUARD, 31, 31⟩
/-- SEC_GUARD[30:30]. -/
def F.SEC_GUARD_CANCEL : Fld := ⟨R.SEC_GUARD, 30, 30⟩
/-- SEC_GUARD[29:27]. -/
def F.SEC_GUARD_RESULT : Fld := ⟨R.SEC_GUARD, 29, 27⟩
/-- SEC_GUARD[23:20]. -/
def F.SEC_GUARD_OP : Fld := ⟨R.SEC_GUARD, 23, 20⟩
/-- SEC_GUARD[15:0]. -/
def F.SEC_GUARD_LEFT : Fld := ⟨R.SEC_GUARD, 15, 0⟩
/-- SEC_KEEPER: its address. -/
def R.SEC_KEEPER : Nat := 0x02700004
/-- SEC_KEEPER[15:0]. -/
def F.SEC_KEEPER_SECONDS : Fld := ⟨R.SEC_KEEPER, 15, 0⟩
/-- SEC_EMIT_MASK: its address. -/
def R.SEC_EMIT_MASK : Nat := 0x02700008
/-- SEC_EMIT_MASK[31:0]. -/
def F.SEC_EMIT_MASK_MASK : Fld := ⟨R.SEC_EMIT_MASK, 31, 0⟩
/-- SEC_STATE: its address. -/
def R.SEC_STATE : Nat := 0x0270000C
/-- SEC_STATE[31:31]. -/
def F.SEC_STATE_SEAL_OPENED : Fld := ⟨R.SEC_STATE, 31, 31⟩
/-- SEC_STATE[30:30]. -/
def F.SEC_STATE_LOOP_OPEN : Fld := ⟨R.SEC_STATE, 30, 30⟩
/-- SEC_STATE[29:29]. -/
def F.SEC_STATE_DEBUG_OPEN : Fld := ⟨R.SEC_STATE, 29, 29⟩
/-- SEC_STATE[28:28]. -/
def F.SEC_STATE_ILK_MISMATCH : Fld := ⟨R.SEC_STATE, 28, 28⟩
/-- SEC_STATE[27:27]. -/
def F.SEC_STATE_ILK_B : Fld := ⟨R.SEC_STATE, 27, 27⟩
/-- SEC_STATE[26:26]. -/
def F.SEC_STATE_ILK_A : Fld := ⟨R.SEC_STATE, 26, 26⟩
/-- SEC_STATE[25:25]. -/
def F.SEC_STATE_PRESENT : Fld := ⟨R.SEC_STATE, 25, 25⟩
/-- SEC_STATE[7:0]. -/
def F.SEC_STATE_VALID : Fld := ⟨R.SEC_STATE, 7, 0⟩
/-- SEC_KEY_CMD: its address. -/
def R.SEC_KEY_CMD : Nat := 0x02700010
/-- SEC_KEY_CMD[31:31]. -/
def F.SEC_KEY_CMD_START : Fld := ⟨R.SEC_KEY_CMD, 31, 31⟩
/-- SEC_KEY_CMD[30:28]. -/
def F.SEC_KEY_CMD_OP : Fld := ⟨R.SEC_KEY_CMD, 30, 28⟩
/-- SEC_KEY_CMD[27:25]. -/
def F.SEC_KEY_CMD_RESULT : Fld := ⟨R.SEC_KEY_CMD, 27, 25⟩
/-- SEC_KEY_CMD[10:8]. -/
def F.SEC_KEY_CMD_INDEX : Fld := ⟨R.SEC_KEY_CMD, 10, 8⟩
/-- SEC_KEY_ARG: its address. -/
def R.SEC_KEY_ARG : Nat := 0x02700014
/-- SEC_KEY_ARG[31:0]. -/
def F.SEC_KEY_ARG_VALUE : Fld := ⟨R.SEC_KEY_ARG, 31, 0⟩
/-- SEC_KEY_STAGE: its address. -/
def R.SEC_KEY_STAGE (i : Nat) : Nat := 0x02700020 + 4 * i
/-- SEC_KEY_STAGE[31:0]. -/
def F.SEC_KEY_STAGE_VALUE (i : Nat) : Fld := ⟨(R.SEC_KEY_STAGE i), 31, 0⟩
/-- SEC_MAC: its address. -/
def R.SEC_MAC (i : Nat) : Nat := 0x02700040 + 4 * i
/-- SEC_MAC[31:0]. -/
def F.SEC_MAC_VALUE (i : Nat) : Fld := ⟨(R.SEC_MAC i), 31, 0⟩
/-- SEC_BOOT: its address. -/
def R.SEC_BOOT : Nat := 0x02700080
/-- SEC_BOOT[31:30]. -/
def F.SEC_BOOT_SLOT : Fld := ⟨R.SEC_BOOT, 31, 30⟩
/-- SEC_BOOT[29:28]. -/
def F.SEC_BOOT_PREF : Fld := ⟨R.SEC_BOOT, 29, 28⟩
/-- SEC_BOOT[27:24]. -/
def F.SEC_BOOT_KEY : Fld := ⟨R.SEC_BOOT, 27, 24⟩
/-- SEC_BOOT[23:20]. -/
def F.SEC_BOOT_REVOKED : Fld := ⟨R.SEC_BOOT, 23, 20⟩
/-- SEC_BOOT[19:16]. -/
def F.SEC_BOOT_RESULT : Fld := ⟨R.SEC_BOOT, 19, 16⟩
/-- SEC_BOOT[15:0]. -/
def F.SEC_BOOT_MIN_VER : Fld := ⟨R.SEC_BOOT, 15, 0⟩
/-- SEC_IMG_CMD: its address. -/
def R.SEC_IMG_CMD : Nat := 0x02700084
/-- SEC_IMG_CMD[31:31]. -/
def F.SEC_IMG_CMD_START : Fld := ⟨R.SEC_IMG_CMD, 31, 31⟩
/-- SEC_IMG_CMD[30:29]. -/
def F.SEC_IMG_CMD_OP : Fld := ⟨R.SEC_IMG_CMD, 30, 29⟩
/-- SEC_IMG_CMD[28:26]. -/
def F.SEC_IMG_CMD_RESULT : Fld := ⟨R.SEC_IMG_CMD, 28, 26⟩
/-- SEC_IMG_CMD[15:0]. -/
def F.SEC_IMG_CMD_OFS : Fld := ⟨R.SEC_IMG_CMD, 15, 0⟩
/-- SEC_PSTORE_ADDR: its address. -/
def R.SEC_PSTORE_ADDR : Nat := 0x02700090
/-- SEC_PSTORE_ADDR[31:0]. -/
def F.SEC_PSTORE_ADDR_VALUE : Fld := ⟨R.SEC_PSTORE_ADDR, 31, 0⟩
/-- SEC_PSTORE_DATA: its address. -/
def R.SEC_PSTORE_DATA : Nat := 0x02700094
/-- SEC_PSTORE_DATA[31:0]. -/
def F.SEC_PSTORE_DATA_VALUE : Fld := ⟨R.SEC_PSTORE_DATA, 31, 0⟩
/-- SEC_PSTORE_CMD: its address. -/
def R.SEC_PSTORE_CMD : Nat := 0x02700098
/-- SEC_PSTORE_CMD[31:31]. -/
def F.SEC_PSTORE_CMD_WRITE : Fld := ⟨R.SEC_PSTORE_CMD, 31, 31⟩
/-- SEC_PSTORE_CMD[30:30]. -/
def F.SEC_PSTORE_CMD_DONE : Fld := ⟨R.SEC_PSTORE_CMD, 30, 30⟩
/-- SEC_PSTORE_CMD[29:28]. -/
def F.SEC_PSTORE_CMD_RESULT : Fld := ⟨R.SEC_PSTORE_CMD, 29, 28⟩
/-- SEC_DEBUG: its address. -/
def R.SEC_DEBUG : Nat := 0x027000A0
/-- SEC_DEBUG[31:31]. -/
def F.SEC_DEBUG_UNLOCK : Fld := ⟨R.SEC_DEBUG, 31, 31⟩
/-- SEC_DEBUG[0:0]. -/
def F.SEC_DEBUG_OPEN : Fld := ⟨R.SEC_DEBUG, 0, 0⟩
/-- SEC_EVQ: its address. -/
def R.SEC_EVQ : Nat := 0x027000A4
/-- SEC_EVQ[31:0]. -/
def F.SEC_EVQ_HANDLE : Fld := ⟨R.SEC_EVQ, 31, 0⟩
/-- HARN_CFG: its address. -/
def R.HARN_CFG : Nat := 0x02800000
/-- HARN_CFG[31:31]. -/
def F.HARN_CFG_ENABLE : Fld := ⟨R.HARN_CFG, 31, 31⟩
/-- HARN_CFG[30:30]. -/
def F.HARN_CFG_AUTO_JOIN : Fld := ⟨R.HARN_CFG, 30, 30⟩
/-- HARN_CFG[0:0]. -/
def F.HARN_CFG_SIDE : Fld := ⟨R.HARN_CFG, 0, 0⟩
/-- HARN_CMD: its address. -/
def R.HARN_CMD : Nat := 0x02800004
/-- HARN_CMD[2:0]. -/
def F.HARN_CMD_CMD : Fld := ⟨R.HARN_CMD, 2, 0⟩
/-- HARN_STATUS: its address. -/
def R.HARN_STATUS : Nat := 0x02800008
/-- HARN_STATUS[31:28]. -/
def F.HARN_STATUS_STATE : Fld := ⟨R.HARN_STATUS, 31, 28⟩
/-- HARN_STATUS[27:25]. -/
def F.HARN_STATUS_RESULT : Fld := ⟨R.HARN_STATUS, 27, 25⟩
/-- HARN_STATUS[24:24]. -/
def F.HARN_STATUS_PEER_BEAT : Fld := ⟨R.HARN_STATUS, 24, 24⟩
/-- HARN_STATUS[23:20]. -/
def F.HARN_STATUS_LANES : Fld := ⟨R.HARN_STATUS, 23, 20⟩
/-- HARN_STATUS[15:0]. -/
def F.HARN_STATUS_COPY_LEFT : Fld := ⟨R.HARN_STATUS, 15, 0⟩
/-- HARN_JOB_BASE_LO: its address. -/
def R.HARN_JOB_BASE_LO : Nat := 0x0280000C
/-- HARN_JOB_BASE_LO[31:20]. -/
def F.HARN_JOB_BASE_LO_VALUE : Fld := ⟨R.HARN_JOB_BASE_LO, 31, 20⟩
/-- HARN_JOB_BASE_HI: its address. -/
def R.HARN_JOB_BASE_HI : Nat := 0x02800010
/-- HARN_JOB_BASE_HI[31:0]. -/
def F.HARN_JOB_BASE_HI_VALUE : Fld := ⟨R.HARN_JOB_BASE_HI, 31, 0⟩
/-- HARN_JOB_SIZE: its address. -/
def R.HARN_JOB_SIZE : Nat := 0x02800014
/-- HARN_JOB_SIZE[31:0]. -/
def F.HARN_JOB_SIZE_VALUE : Fld := ⟨R.HARN_JOB_SIZE, 31, 0⟩
/-- HARN_EVQ: its address. -/
def R.HARN_EVQ : Nat := 0x02800018
/-- HARN_EVQ[31:0]. -/
def F.HARN_EVQ_HANDLE : Fld := ⟨R.HARN_EVQ, 31, 0⟩
/-- HARN_MISS_CNT: its address. -/
def R.HARN_MISS_CNT : Nat := 0x02800040
/-- HARN_MISS_CNT[31:0]. -/
def F.HARN_MISS_CNT_COUNT : Fld := ⟨R.HARN_MISS_CNT, 31, 0⟩
/-- HARN_LOST_CNT: its address. -/
def R.HARN_LOST_CNT : Nat := 0x02800044
/-- HARN_LOST_CNT[31:0]. -/
def F.HARN_LOST_CNT_COUNT : Fld := ⟨R.HARN_LOST_CNT, 31, 0⟩
/-- HARN_DIVERGE_CNT: its address. -/
def R.HARN_DIVERGE_CNT : Nat := 0x02800048
/-- HARN_DIVERGE_CNT[31:0]. -/
def F.HARN_DIVERGE_CNT_COUNT : Fld := ⟨R.HARN_DIVERGE_CNT, 31, 0⟩
/-- HARN_TAKEOVER_CNT: its address. -/
def R.HARN_TAKEOVER_CNT : Nat := 0x0280004C
/-- HARN_TAKEOVER_CNT[31:0]. -/
def F.HARN_TAKEOVER_CNT_COUNT : Fld := ⟨R.HARN_TAKEOVER_CNT, 31, 0⟩

end Sys2Proof.Machine
end

