-- ==== Sys2Proof/Machine/Part.lean ====
section
/-! DEFINITION. The twelve parts (R1 to R5): the units each provides, which unit of a block is present, and the three
registers by which a part identifies itself. -/

namespace Sys2Proof.Machine

/-- The twelve parts of R1. -/
inductive Part where
  /-- BF9204. -/
  | bf9204
  /-- BF9214. -/
  | bf9214
  /-- BF9208. -/
  | bf9208
  /-- BF9218. -/
  | bf9218
  /-- BF9212. -/
  | bf9212
  /-- BF9222. -/
  | bf9222
  /-- BF9616. -/
  | bf9616
  /-- BF9624. -/
  | bf9624
  /-- BF9632. -/
  | bf9632
  /-- BF9624H. -/
  | bf9624h
  /-- BF9632H. -/
  | bf9632h
  /-- BF9632X. -/
  | bf9632x
  deriving DecidableEq, Repr

/-- One row of the table of R1 and the part's number. -/
structure PartRow where
  /-- The four digits read as hexadecimal. -/
  number : Nat
  /-- 0: none, 1: H, 2: X. -/
  suffix : Nat
  /-- 1: FC1521, 2: FC2704. -/
  package : Nat
  /-- Laser slots. -/
  lasers : Nat
  /-- Imaging pipes. -/
  pipes : Nat
  /-- DRAM channels. -/
  chans : Nat
  /-- Latigo lanes. -/
  lanes : Nat
  /-- Axis engines. -/
  axes : Nat
  /-- Lamp channels. -/
  lamps : Nat
  /-- Per-lamp binning calibration. -/
  lampBin : Bool
  /-- Harness. -/
  harness : Bool
  /-- Saddlebag in MiB. -/
  sbMib : Nat
  deriving DecidableEq, Repr

/-- The table of R1. -/
def Part.row : Part → PartRow
  | .bf9204 => ⟨0x9204, 0, 1, 4, 0, 1, 6, 8, 24, false, false, 32⟩
  | .bf9214 => ⟨0x9214, 0, 1, 4, 2, 1, 6, 8, 24, false, false, 32⟩
  | .bf9208 => ⟨0x9208, 0, 1, 8, 0, 1, 10, 8, 24, false, false, 32⟩
  | .bf9218 => ⟨0x9218, 0, 1, 8, 2, 1, 10, 8, 24, false, false, 32⟩
  | .bf9212 => ⟨0x9212, 0, 1, 12, 0, 1, 14, 12, 32, false, false, 32⟩
  | .bf9222 => ⟨0x9222, 0, 1, 12, 3, 1, 14, 12, 32, false, false, 32⟩
  | .bf9616 => ⟨0x9616, 0, 2, 16, 4, 2, 20, 16, 48, false, false, 64⟩
  | .bf9624 => ⟨0x9624, 0, 2, 24, 6, 2, 28, 16, 48, false, false, 64⟩
  | .bf9632 => ⟨0x9632, 0, 2, 32, 8, 2, 36, 16, 48, false, false, 64⟩
  | .bf9624h => ⟨0x9624, 1, 2, 24, 6, 2, 32, 16, 48, false, true, 64⟩
  | .bf9632h => ⟨0x9632, 1, 2, 32, 8, 2, 40, 16, 48, true, true, 64⟩
  | .bf9632x => ⟨0x9632, 2, 2, 32, 8, 2, 40, 16, 48, true, true, 64⟩

/-- Extended temperature range and extended burnish coverage (R2). -/
def Part.extended (p : Part) : Bool := p.row.suffix == 2

/-- SYS_PART: a first-stepping die. -/
def Part.idWord (p : Part) : Nat :=
  0x1 * 2 ^ 24 + p.row.package * 2 ^ 20 + p.row.suffix * 2 ^ 16 + p.row.number

/-- SYS_FEATURES. -/
def Part.featureWord (p : Part) : Nat :=
  32 * bitNat p.extended + 16 * bitNat p.extended + 8 * bitNat p.row.lampBin + 4 * bitNat p.row.harness
    + 2 * bitNat (p.row.chans == 2) + bitNat (p.row.pipes != 0)

/-- SYS_UNITS. -/
def Part.unitsWord (p : Part) : Nat :=
  bitNat (p.row.sbMib == 64) * 2 ^ 27 + p.row.lamps * 2 ^ 21 + p.row.axes * 2 ^ 16 + p.row.lanes * 2 ^ 10
    + p.row.pipes * 2 ^ 6 + p.row.lasers

/-- Whether slot Lk is present (R3). -/
def Part.hasSlot (p : Part) (k : Nat) : Bool := k < p.row.lasers

/-- Whether core TCk is present (R3). -/
def Part.hasCore (p : Part) (k : Nat) : Bool := (k < p.row.lasers) || (32 ≤ k && k < 40)

/-- Whether lane LTk is present (R3). -/
def Part.hasLane (p : Part) (k : Nat) : Bool :=
  if p.row.harness then (k < p.row.lanes - 4) || (36 ≤ k && k < 40) else k < p.row.lanes

/-- The highest-numbered pipe present, which carries the bed-inspection camera (R3); none on a part without pipes. -/
def Part.bedPipe (p : Part) : Option Nat := if p.row.pipes = 0 then none else some (p.row.pipes - 1)

/-- Whether unit `k` of a block is present on the part (R3, R20). -/
def Part.hasUnit (p : Part) : Blk → Nat → Bool
  | .tc, k => p.hasCore k
  | .awl, k => p.hasSlot k
  | .rein, k => p.hasSlot k
  | .img, k => k < p.row.pipes
  | .axis, k => k < p.row.axes
  | .dmc, k => k < p.row.chans
  | .lane, k => p.hasLane k
  | .harn, _ => p.row.harness
  | .sys, _ => true | .stch, _ => true | .tree, _ => true | .hide, _ => true | .sb, _ => true
  | .pcie, _ => true | .time, _ => true | .fbus, _ => true | .lamp, _ => true | .pwr, _ => true
  | .thrm, _ => true | .cal, _ => true | .burn, _ => true | .sec, _ => true

/-- Pages of 4 KiB outside the 1 MiB burnish save region (R261). -/
def Part.sbPages (p : Part) : Nat := (p.row.sbMib - 1) * 256

/-- Where a BAR0 offset falls (R20, R21): a hole, or an offset in the window of one unit of a block. -/
structure Place where
  /-- The block. -/
  blk : Blk
  /-- The unit. -/
  unit : Nat
  /-- The offset in its window. -/
  off : Nat
  deriving DecidableEq, Repr

/-- The window of R20 that a BAR0 offset falls in. -/
def placeIn : List BlkDesc → Nat → Option Place
  | [], _ => none
  | b :: bs, a =>
    if b.base ≤ a ∧ a < b.base + (if b.count = 1 then b.win else b.stride * b.count) then
      let d := a - b.base
      if b.count = 1 then some ⟨b.blk, 0, d⟩
      else some ⟨b.blk, d / b.stride, d % b.stride⟩
    else placeIn bs a

/-- The window that a BAR0 offset falls in. -/
def placeOf (a : Nat) : Option Place := placeIn blkTable a

/-- Whether an offset in a window is one of a register array's. -/
def RegDesc.covers (r : RegDesc) (off : Nat) : Bool :=
  if off < r.off then false
  else
    let d := off - r.off
    let i := if r.s1 = 0 then 0 else d / r.s1
    let rest := if r.s1 = 0 then d else d % r.s1
    let j := if r.s2 = 0 then 0 else rest / r.s2
    let last := if r.s2 = 0 then rest else rest % r.s2
    i < r.n1 && j < r.n2 && last == 0

/-- The outer index of an offset that an array covers. -/
def RegDesc.index (r : RegDesc) (off : Nat) : Nat := if r.s1 = 0 then 0 else (off - r.off) / r.s1

/-- The register at an offset of a block's window. -/
def regAt (b : Blk) (off : Nat) : Option RegDesc := (blkRegs b).find? fun r => r.covers off

/-- The word that fields make with each at its reset value. -/
def fieldsWord : List FieldDesc → Nat
  | [] => 0
  | f :: fs => f.rst * 2 ^ f.lo + fieldsWord fs

/-- On-die sensors are S16 to S27; their limits and thresholds have reset values of their own (R392). -/
def sensorReset (p : Part) (off : Nat) : Option Nat :=
  if 0x380 ≤ off then none
  else
    let s := off / 0x20
    if s < 16 then none
    else match off % 0x20 with
      | 0x0 => some (2 ^ 31 + 0x28 * 2 ^ 24)
      | 0x8 => some (2 ^ 16 + if p.extended then 0x1E53 else 0x1DEF)
      | 0xC => some (0x1ACF * 2 ^ 16 + 0x161F)
      | 0x10 => some 0x1C5F
      | _ => none

/-- The reset values that are not one number for every part and every unit of an array. -/
def specialReset (p : Part) (pl : Place) : Option Nat :=
  match pl.blk, pl.off with
  | .sys, 0x10 => some p.idWord
  | .sys, 0x14 => some p.featureWord
  | .sys, 0x18 => some p.unitsWord
  | .tree, 0x104 => some (2 ^ p.row.lasers - 1)
  | .sb, 0x10 => some 3072
  | .sb, 0x14 => some (p.sbPages / 4)
  | .sb, 0x18 => some (p.sbPages / 4)
  | .sb, 0x1C => some (p.sbPages / 4)
  | .cal, 0x14 => some (0x64 * 2 ^ 16 + 0x10 * 2 ^ 8 + 0x10)
  | .cal, 0x18 => some (0x64 * 2 ^ 16 + 0x10 * 2 ^ 8 + 0x04)
  | .cal, 0x1C => some (0x64 * 2 ^ 16 + 0x10 * 2 ^ 8 + 0x03)
  | .cal, 0x20 => some (0x64 * 2 ^ 16 + 0x10 * 2 ^ 8 + 0x08)
  | .cal, 0x24 => some (0x64 * 2 ^ 16 + 0x10 * 2 ^ 8 + 0x08)
  | .tc, 0x0 => some (if pl.unit = 32 then 1600 else 0)
  | .thrm, off => sensorReset p off
  | _, _ => none

/-- The value a register reads at reset (R8): zero where there is none. -/
def resetWord (p : Part) (a : Nat) : Word :=
  match placeOf a with
  | none => 0
  | some pl =>
    match specialReset p pl with
    | some n => w32 n
    | none => match regAt pl.blk pl.off with
      | some r => w32 (fieldsWord r.flds)
      | none => 0

end Sys2Proof.Machine
end

