-- ==== Sys2Proof/Machine/Sparse.lean ====
section
/-! DEFINITION. Sparse tables: lists of (key, value) pairs in one canonical form, keys strictly rising and no entry equal
to what an unlisted key reads as, so that equal tables are equal data. Registers, memories, queues by number and the
state of each unit by its number are held this way. -/

namespace Sys2Proof.Machine

/-- A table of values by key. -/
abbrev Sparse (α : Type) := List (Nat × α)

variable {α : Type}

/-- The value at a key; `d` when none is listed. -/
def sget (d : α) : Sparse α → Nat → α
  | [], _ => d
  | (k', v) :: m, k => if k = k' then v else sget d m k

/-- The table without a key. -/
def sdel : Sparse α → Nat → Sparse α
  | [], _ => []
  | (k', v) :: m, k => if k = k' then sdel m k else (k', v) :: sdel m k

/-- The table with a key's value replaced, or put in at its place. -/
def sins : Sparse α → Nat → α → Sparse α
  | [], k, v => [(k, v)]
  | (k', v') :: m, k, v =>
    if k < k' then (k, v) :: (k', v') :: m
    else if k = k' then (k, v) :: m
    else (k', v') :: sins m k v

/-- The table after a write: writing what an unlisted key reads as removes the entry. -/
def sset [DecidableEq α] (d : α) (m : Sparse α) (k : Nat) (v : α) : Sparse α :=
  if v = d then sdel m k else sins m k v

/-- The table with the value at a key changed by a function. -/
def smod [DecidableEq α] (d : α) (m : Sparse α) (k : Nat) (f : α → α) : Sparse α :=
  sset d m k (f (sget d m k))

/-- Whether every key of a table is above `k`. -/
def keysAbove (k : Nat) (m : Sparse α) : Bool := m.all fun e => decide (k < e.1)

/-- The canonical form: keys strictly rise and no entry holds its key's unlisted value. -/
def swf [DecidableEq α] (dflt : Nat → α) : Sparse α → Bool
  | [] => true
  | (k, v) :: m => decide (v ≠ dflt k) && keysAbove k m && swf dflt m

end Sys2Proof.Machine
end

