-- ==== Sys2Proof/Machine/State.lean ====
section
/-! DEFINITION. The state of the block, as plain data: everything the spec gives the machine. Registers are held once,
by BAR0 offset; what a unit keeps beside its registers is a structure of its own below. -/

namespace Sys2Proof.Machine

/-- The reasons a step can stop with a fault. The block has none: every rule of the spec ends an event in a next state.
The one constructor stands for completeness and is raised by nothing (safe). -/
inductive Fault where
  /-- Raised by no meaning (safe). -/
  | unreachable
  deriving DecidableEq, Repr

/-- The reasons a step can be refused. -/
inductive Refusal where
  /-- A command whose meaning is not in the model yet, by its mnemonic; raised by Machine/Dispatch.lean only (safe). -/
  | notModelled (mnemonic : String)
  deriving DecidableEq, Repr

/-! ## Saddlebag (R261 to R281) -/

/-- A committed word of a queue, and whether it is the last of its packet. -/
structure QWord where
  /-- The word. -/
  word : PWord
  /-- End of packet. -/
  last : Bool
  deriving DecidableEq, Repr

/-- A producer's open packet in a queue (R270). -/
structure OpenPkt where
  /-- The producer. -/
  producer : Nat
  /-- Its words, oldest first. -/
  words : List PWord
  deriving DecidableEq, Repr

/-- A stream number of the Saddlebag: a queue or a buffer, live or free (R261 to R276). -/
structure Stream where
  /-- Generation of the last creation; 0 before the first (R262). -/
  gen : Nat
  /-- Whether the number names a live stream. -/
  live : Bool
  /-- Class: 0 isochronous, 1 imaging, 2 bulk, 3 host (R14). -/
  cls : Nat
  /-- RES = SPILL. -/
  spill : Bool
  /-- Depth in words for a queue, length in bytes for a buffer. -/
  size : Nat
  /-- The pages the allocator placed it in; each is charged to its class (R261, R265). -/
  pages : List Nat
  /-- Pages of one spill window (R266). -/
  win : Nat
  /-- Pages of the DRAM carve-out a spill queue takes. -/
  dramPages : Nat
  /-- Whether the device made it for its own use (R264). -/
  internal : Bool
  /-- Whether the unit it was last bound to is one the part lacks (R4, R65). -/
  absent : Bool
  /-- Committed words not yet popped, oldest first. -/
  words : List QWord
  /-- Words popped since creation: where the oldest committed word lies in the queue's ring. -/
  popped : Nat
  /-- Open packets, at most 16. -/
  opens : List OpenPkt
  /-- Producers whose open packet a flush rewound (R275). -/
  cut : List Nat
  /-- Of a spill queue: committed words held in DRAM, between the head and tail windows. -/
  dramWords : Nat
  /-- Of a spill queue with words in DRAM: words in the head window. -/
  headWords : Nat
  /-- Of a spill queue: its pages of the carve-out, in ring order. -/
  dramAt : List Nat
  /-- Of a spill queue: pages moved out to DRAM since its creation. -/
  dramOut : Nat
  /-- Words of a buffer, by word offset. -/
  data : Sparse PWord
  deriving DecidableEq, Repr

/-- A stream number that nothing has used. -/
def Stream.never : Stream := ⟨0, false, 0, false, 0, [], 0, 0, false, false, [], 0, [], [], 0, 0, [], 0, []⟩

/-- What the command port SB_CMD is doing (R263, R264). -/
inductive PortJob where
  /-- A CREATE whose fill runs: the stream's key and what it will be. -/
  | creating (key : Nat) (str : Stream)
  /-- A DESTROY that frees its stream at the next boundary. -/
  | destroying (key : Nat)
  deriving DecidableEq, Repr

/-- A push or a pop that waits for the spill engine (R266). -/
structure SpillWait where
  /-- The queue. -/
  key : Nat
  /-- The requester. -/
  req : Nat
  /-- The aperture it came through; none for a block requester. -/
  aper : Option Nat
  /-- Producer, word and end of a push; none for a pop. -/
  push : Option (Nat × PWord × Bool)
  deriving DecidableEq, Repr

/-- The Saddlebag beside its registers. -/
structure Saddle where
  /-- Stream numbers: queues at 0 to 4,095, buffers at 4,096 to 8,191. -/
  streams : Sparse Stream
  /-- The command port's work. -/
  port : Option PortJob
  /-- Banks whose SPARE_OUT was raised. -/
  spareOut : List Nat
  /-- Saddlebag byte addresses remapped to a spare word (kept in the parameter store, R281). -/
  remaps : List Nat
  /-- Pushes and pops of spill queues that wait for a page move, oldest first (R266). -/
  waits : List SpillWait
  /-- The queue last operated on: its key, and whether it held no committed word and was full at the start of that cycle
  (R272). -/
  cycle : Option (Nat × Bool × Bool)
  deriving DecidableEq, Repr

/-- The Saddlebag with no stream. -/
def Saddle.empty : Saddle := ⟨[], none, [], [], [], none⟩

/-- The response the device gave last to a requester from outside the cores (R269). -/
structure Resp where
  /-- The requester's number. -/
  req : Nat
  /-- Outcome: 0 OK, 1 EMPTY, 2 REFUSED, 3 ABORTED, 4 DISCARDED, 5 ZERO_LEN, 6 ABSENT_UNIT, 7 STREAM. -/
  code : Nat
  /-- The mark DELAYED. -/
  delayed : Bool
  /-- End of packet. -/
  eop : Bool
  /-- Poisoned data. -/
  poison : Bool
  /-- The data. -/
  words : List Word
  deriving DecidableEq, Repr

/-- No response yet. -/
def Resp.none : Resp := ⟨0, 0, false, false, false, []⟩

/-! ## Tack cores (R44 to R94) -/

/-- One slot of a table in force (R79). -/
structure Slot where
  /-- The context. -/
  ctx : Nat
  /-- Its start in CCLK cycles. -/
  start : Nat
  /-- Its length. -/
  len : Nat
  deriving DecidableEq, Repr

/-- An outstanding LDS (R61). -/
structure Lds where
  /-- The cycle of the Stitch at which it arrives. -/
  ready : Int
  /-- The context. -/
  ctx : Nat
  /-- The destination register. -/
  rd : Nat
  /-- The stream's handle. -/
  handle : Word
  /-- The word offset in the stream. -/
  off : Nat
  /-- Whether the register still takes it (not after an overrun, R88). -/
  keep : Bool
  deriving DecidableEq, Repr

/-- An outstanding STS (R62). -/
structure Sts where
  /-- The cycle at which it completes. -/
  ready : Int
  /-- The context. -/
  ctx : Nat
  /-- The stream's handle. -/
  handle : Word
  /-- The word offset in the stream. -/
  off : Nat
  /-- The data. -/
  word : PWord
  deriving DecidableEq, Repr

/-- An outstanding BPW (R67). -/
structure Bpw where
  /-- The cycle at which it completes at the register fabric. -/
  ready : Int
  /-- The BAR0 offset. -/
  addr : Word
  /-- The value. -/
  val : Word
  deriving DecidableEq, Repr

/-- What a queue instruction does to its queue (R53). -/
inductive QueueAct where
  /-- QPSH or QEND: the word, and whether it is the end word. -/
  | push (word : PWord) (last : Bool)
  /-- QBAD. -/
  | bad
  /-- QPOP. -/
  | pop
  /-- QLEN. -/
  | len
  /-- QFLUSH. -/
  | flush
  deriving DecidableEq, Repr

/-- A queue instruction abandoned by the guard whose cycle at its queue is still to come (R88, R271). -/
structure QueueOp where
  /-- The cycle at which it acts on its queue. -/
  ready : Int
  /-- The context. -/
  ctx : Nat
  /-- The queue's handle. -/
  handle : Word
  /-- What it does. -/
  act : QueueAct
  deriving DecidableEq, Repr

/-- An active hardware loop (R69). -/
structure LoopFrame where
  /-- Address of the first body instruction. -/
  start : Nat
  /-- Address just after the last body instruction. -/
  stop : Nat
  /-- Trips left, the one running included. -/
  trips : Nat
  /-- Calls on the call stack where it was opened. -/
  depth : Nat
  deriving DecidableEq, Repr

/-- A context of a core (the context state table, R45, R46, R83). -/
structure Ctx where
  /-- g1 to g31; g0 is never written. -/
  g : Sparse Word
  /-- v0 to v7. -/
  v : Sparse (BitVec 64)
  /-- p0 to p3. -/
  p : BitVec 4
  /-- Poison bits of the g registers (GPOIS). -/
  gpois : Word
  /-- Poison bits of the v registers (VPOIS). -/
  vpois : BitVec 8
  /-- PC: byte address of the next instruction. -/
  pc : BitVec 16
  /-- Call stack, newest first, at most 8. -/
  calls : List (BitVec 16)
  /-- Loop stack, innermost first, at most 2. -/
  loops : List LoopFrame
  /-- STAT. -/
  stat : Word
  /-- QST. -/
  qst : Word
  /-- EPC. -/
  epc : Word
  /-- ECAUSE. -/
  ecause : Word
  /-- EADDR. -/
  eaddr : Word
  /-- TRAPVEC. -/
  trapvec : Word
  /-- Entry address in force. -/
  entry : BitVec 16
  /-- Worst case in force. -/
  wcet : Nat
  /-- First instruction granule. -/
  iFirst : Nat
  /-- Last instruction granule. -/
  iLast : Nat
  /-- First data granule. -/
  dFirst : Nat
  /-- Last data granule. -/
  dLast : Nat
  /-- The Stitch from which the context is due (R70). -/
  due : BitVec 64
  /-- The context watchdog's count (R93); none when it does not count. -/
  watch : Option Nat
  /-- Outstanding BPWs, oldest first, at most 4. -/
  bpws : List Bpw
  /-- What an overrun's policy does at the next boundary: 0 nothing, 1 RESTART, 2 RESUME (R88, R90). -/
  policyDue : Nat
  deriving DecidableEq, Repr

/-- A context at reset. -/
def Ctx.atReset : Ctx :=
  ⟨[], [], 0, 0, 0, 0, [], [], 0, 0, 0, 0, 0, 0, 0, 0, 0, 0, 0, 0, 0, none, [], 0⟩

/-- A program load in progress (R85): the staged command and its result, known at the start. -/
structure LoadJob where
  /-- Result code. -/
  result : Nat
  /-- True: data memory. -/
  toData : Bool
  /-- First word of the destination. -/
  dst : Nat
  /-- The words to write. -/
  words : List PWord
  deriving DecidableEq, Repr

/-- A Tack core beside its registers. -/
structure Core where
  /-- The slot table in force, in slot order (R79). -/
  table : List Slot
  /-- The slot that runs: its place in the table. -/
  cur : Option Nat
  /-- SCYC: CCLK cycles since the boundary. -/
  cyc : Nat
  /-- Outstanding LDS, oldest first, at most 8. -/
  lds : List Lds
  /-- Outstanding STS, oldest first, at most 8. -/
  sts : List Sts
  /-- Abandoned queue instructions that have not acted yet, oldest first. -/
  qops : List QueueOp
  /-- Instruction memory by word. -/
  imem : Sparse PWord
  /-- Data memory by word. -/
  dmem : Sparse PWord
  /-- The load in progress. -/
  load : Option LoadJob
  deriving DecidableEq, Repr

/-- A core with an empty table. -/
def Core.idle : Core := ⟨[], none, 0, [], [], [], [], [], none⟩

/-- TC32 at reset: one slot of 1,600 cycles for c0 (R82). -/
def Core.boot : Core := { Core.idle with table := [⟨0, 0, 1600⟩] }

/-- The device watchdog beside its register (R94). -/
structure Wdog where
  /-- Stitches since the last kick. -/
  count : Nat
  /-- 0x5A5A was the last write of SYS_WDOG_KICK. -/
  armed : Bool
  /-- The warning of this count was given. -/
  warned : Bool
  deriving DecidableEq, Repr

/-! ## DRAM (R282 to R306) -/

/-- One 64-byte line on its way to DRAM. -/
structure Line where
  /-- Its bytes, lowest address first. -/
  bytes : List Byte
  /-- Stored with the poison mark. -/
  poison : Bool
  deriving DecidableEq, Repr

/-- A pair of lines in a channel's write queues (R286). -/
structure WqEntry where
  /-- Pair number: offset / 128. -/
  pair : Nat
  /-- The even line's newest data. -/
  even : Option Line
  /-- The odd line's newest data. -/
  odd : Option Line
  deriving DecidableEq, Repr

/-- A fetch packet whose boundary has not come (R293). -/
structure Fetch where
  /-- The fetcher. -/
  fetcher : Nat
  /-- The boundary it serves. -/
  due : Nat
  /-- Its words. -/
  words : List PWord
  /-- A command replay holds it back (R295). -/
  held : Bool
  deriving DecidableEq, Repr

/-- A command in a channel's retry buffer (R288). -/
inductive RetryCmd where
  /-- A read of the pair at an offset. -/
  | read (off : Nat)
  /-- A queued pair on its way to memory. -/
  | write (pair : WqEntry)
  /-- A refresh. -/
  | refresh
  deriving DecidableEq, Repr

/-- One row in a bank's activate tracker (R297). -/
structure RhRow where
  /-- Rank × 32 + bank group × 4 + bank. -/
  bank : Nat
  /-- Row. -/
  row : Nat
  /-- Activates in the window. -/
  count : Nat
  /-- Its count has exceeded RH_TH in the window. -/
  crossed : Bool
  deriving DecidableEq, Repr

/-- A DRAM channel beside its registers. -/
structure DmcChan where
  /-- The write queues, oldest pair first, at most 64 pairs. -/
  wq : List WqEntry
  /-- The fetchers that run. -/
  fetchOn : List Nat
  /-- Ring position in pairs of each fetcher. -/
  fetchPos : Sparse Nat
  /-- Fetch packets not yet at their boundary, oldest first. -/
  inflight : List Fetch
  /-- The activate trackers. -/
  rh : List RhRow
  /-- Limited (class, bank) pairs. -/
  limited : List (Nat × Nat)
  /-- The next entry of DMC_RH_LOG. -/
  rhNext : Nat
  /-- Refresh rate that the band asks for. -/
  bandRate : Nat
  /-- Refresh rate that mode register 4 asks for. -/
  mr4Rate : Nat
  /-- The read-timing set that the next refresh puts in force. -/
  tsetNext : Nat
  /-- The patrol's next pair. -/
  patrolPos : Nat
  /-- Pairs remapped to the spare area (kept in the parameter store, R302). -/
  remaps : List Nat
  /-- SPARE_OUT was raised. -/
  spareOut : Bool
  /-- The retry buffer: the last 64 commands, newest first (R288). -/
  retry : List RetryCmd
  deriving DecidableEq, Repr

/-- A channel at reset. -/
def DmcChan.off : DmcChan := ⟨[], [], [], [], [], [], 0, 0, 0, 1, 0, [], false, []⟩

/-- Memory in canonical form: addresses strictly rise and no cell holds zero, which is what an unlisted address reads
as (R8). -/
def Memory.wf (m : List Host.Cell) : Bool := swf (fun _ => (0 : BitVec 8)) m

/-! ## Awl and Rein (R161 to R214) -/

/-- A curve of the bed that a path runs along (R165, R104). -/
inductive Shape where
  /-- The straight line from (x, y) in the direction (dx, dy), of any length. -/
  | line (x y dx dy : Int)
  /-- The arc from (x, y), tangent there to the unit direction (ux, uy) in units of 2^-62, turning left or right, with
  its radius in 2^-24 bu. -/
  | arc (x y ux uy : Int) (left : Bool) (radius : Nat)
  deriving DecidableEq, Repr

/-- A stretch of a path: along a shape from a place on it, in 2^-24 bu from the shape's start, over a length. -/
structure PathPart where
  /-- The shape. -/
  shape : Shape
  /-- Where the stretch begins on it. -/
  start : Int
  /-- Its length. -/
  len : Nat
  deriving DecidableEq, Repr

/-- What a motion is for. -/
inductive MotionKind where
  /-- A jump or an implicit jump (R103). -/
  | jump
  /-- A run-in (R167). -/
  | runIn
  /-- A crossing at constant speed (R167). -/
  | cross
  /-- A run-out (R167). -/
  | runOut
  /-- A GOTO (R171). -/
  | goto
  /-- A stop (R183). -/
  | stop
  deriving DecidableEq, Repr

/-- A planned motion: a run of jerk segments along a path (R165, R166). -/
structure Motion where
  /-- What it is for. -/
  kind : MotionKind
  /-- The TCLK at which it begins, counted from boundary 0. -/
  t0 : Nat
  /-- Its segments: TCLK and jerk word. -/
  segs : List (Nat × Int)
  /-- Speed word at its start. -/
  v0 : Int
  /-- Acceleration word at its start. -/
  a0 : Int
  /-- Speed word that its last TCLK sets. -/
  vEnd : Int
  /-- Distance that its last TCLK sets, in 2^-24 bu. -/
  len : Nat
  /-- The path. -/
  path : List PathPart
  /-- Acceleration limit of the plan, as a word. -/
  aMax : Nat
  /-- Jerk limit of the plan, as a word. -/
  jMax : Nat
  deriving DecidableEq, Repr

/-- An emitting stretch's planned gate edges, in TCLK from boundary 0 (R176). -/
structure Lit where
  /-- Gate on. -/
  on : Int
  /-- Gate off. -/
  off : Int
  /-- Judged under R178. -/
  judged : Bool
  deriving DecidableEq, Repr

/-- A stroke that the Awl holds, from its pop to its end (R161, R132). -/
structure HeldStroke where
  /-- Stroke index in the layer. -/
  index : Nat
  /-- Last of its unit. -/
  last : Bool
  /-- RERUN. -/
  rerun : Bool
  /-- SPLIT. -/
  split : Bool
  /-- Piece. -/
  piece : Nat
  /-- Patch. -/
  patch : Nat
  /-- TRACE. -/
  trace : Bool
  /-- Skipped under R105. -/
  zero : Bool
  /-- TCLK at which its motion, implicit jump included, begins. -/
  t0 : Nat
  /-- Start Stitch. -/
  startStitch : Nat
  /-- End Stitch. -/
  endStitch : Nat
  /-- First of its unit. -/
  first : Bool
  /-- Nominal power (R182). -/
  nom : Nat
  /-- Parameter set index. -/
  pset : Nat
  /-- FOCUS, signed. -/
  focus : Int
  deriving DecidableEq, Repr

/-- A mark or arc-mark with LINK whose transition is not fixed (R163). -/
structure Pend where
  /-- Its speed in bu/s. -/
  speed : Nat
  /-- Its set's MARK_SPEED. -/
  markSpeed : Nat
  /-- ACC of its plan, for its run-out. -/
  acc : Nat
  /-- JERK of its plan. -/
  jerk : Nat
  /-- TCLK at which it reaches its end point. -/
  tEnd : Nat
  /-- End point. -/
  x : Int
  /-- End point. -/
  y : Int
  deriving DecidableEq, Repr

/-- A setpoint block (R181). -/
structure Block where
  /-- cx. -/
  x : Int
  /-- cy. -/
  y : Int
  /-- Z. -/
  z : Int
  /-- POWER. -/
  power : Nat
  /-- GATE0. -/
  gate0 : Bool
  /-- REST. -/
  rest : Bool
  /-- E0 when E0V is 1. -/
  e0 : Option Nat
  /-- E1 when E1V is 1. -/
  e1 : Option Nat
  /-- Bed point of the position. -/
  bedX : Int
  /-- Bed point of the position. -/
  bedY : Int
  deriving DecidableEq, Repr

/-- A block at rest with the gate off. -/
def Block.dark : Block := ⟨0, 0, 0, 0, false, true, none, none, 0, 0⟩

/-- An Awl beside its registers. -/
structure Awl where
  /-- Planned motions, in time order. -/
  motions : List Motion
  /-- Where the spot rests before the first planned motion. -/
  restX : Int
  /-- Where the spot rests before the first planned motion. -/
  restY : Int
  /-- Planned stretches, oldest first. -/
  lits : List Lit
  /-- Strokes popped and not yet ended, oldest first. -/
  held : List HeldStroke
  /-- The LINK transition not yet fixed. -/
  pend : Option Pend
  /-- TCLK at which the plan ends. -/
  planT : Nat
  /-- Rest point at the end of the plan. -/
  planX : Int
  /-- Rest point at the end of the plan. -/
  planY : Int
  /-- End point of the last stroke of the unit that was not skipped. -/
  prevX : Int
  /-- End point of the last stroke of the unit that was not skipped. -/
  prevY : Int
  /-- Its direction there, as an exact vector; (0, 0) for none. -/
  dirX : Int
  /-- Its direction there, as an exact vector. -/
  dirY : Int
  /-- End Stitch of the stroke planned last. -/
  lastEnd : Nat
  /-- The unit planned last has not had its LAST stroke. -/
  inUnit : Bool
  /-- AWL_UNDERRUN has been raised for the present rest (R163). -/
  starved : Bool
  /-- FOCUS of the last stroke. -/
  focus : Int
  /-- Nominal power of the stroke in hand. -/
  nom : Nat
  /-- Its parameter set. -/
  pset : Nat
  /-- Fault conditions found and not yet sampled. -/
  due : List Nat
  /-- Codes sampled in the stop in progress. -/
  codes : List Nat
  /-- The stop's lowest fault code; 0 for STOP and ABORT. -/
  stopCode : Nat
  /-- EMIT_EN at the last boundary. -/
  emit : Bool
  /-- Target of the GOTO in hand. -/
  gotoX : Int
  /-- Target of the GOTO in hand. -/
  gotoY : Int
  /-- CORR_SEL in force under R175. -/
  corrSel : Bool
  /-- CORR_EN in force under R175. -/
  corrEn : Bool
  /-- FOCUS_EN in force under R175. -/
  focusEn : Bool
  /-- SHIFT in force under R175. -/
  shift : Nat
  /-- Whether the grid in force was used since it came into force. -/
  corrUsed : Bool
  /-- The block of the ended Stitch's forming, which applies next. -/
  formed : Block
  /-- The block the head applied at the last boundary. -/
  applied : Block
  /-- Whether the Z of the applied block was clipped. -/
  zWas : Bool
  /-- Whether the Z of the formed block is clipped. -/
  zNow : Bool
  /-- The first Stitch at which the Tree may sample a loss of the slot (R134). -/
  lossDue : Option Nat
  /-- TCLK of the boundary at which the last stop was sampled. -/
  stopT : Nat
  deriving DecidableEq, Repr

/-- An Awl at reset. -/
def Awl.atReset : Awl :=
  { motions := [], restX := 0, restY := 0, lits := [], held := [], pend := none, planT := 0, planX := 0, planY := 0,
    prevX := 0, prevY := 0, dirX := 0, dirY := 0, lastEnd := 0, inUnit := false, starved := false, focus := 0, nom := 0, pset := 0,
    due := [], codes := [], stopCode := 0, emit := false, gotoX := 0, gotoY := 0, corrSel := false, corrEn := false,
    focusEn := false, shift := 18, corrUsed := false, formed := Block.dark, applied := Block.dark, zWas := false,
    zNow := false, lossDue := none, stopT := 0 }

/-- A photodiode pair as a lane delivered it (R189). -/
structure Pair where
  /-- Band A. -/
  a : Nat
  /-- Band B. -/
  b : Nat
  /-- Its sequence number. -/
  seq : Nat
  deriving DecidableEq, Repr

/-- A trace unit beside its registers (R211 to R213). -/
structure Trace where
  /-- Pre-trigger records, oldest first. -/
  ring : List (List Word)
  /-- POST records still to come. -/
  left : Nat
  /-- The TNODE value at the last boundary, signed; none before one. -/
  lastNode : Option Int
  /-- The queue of the capture in progress. -/
  queue : Word
  deriving DecidableEq, Repr

/-- A trace unit at reset. -/
def Trace.off : Trace := ⟨[], 0, none, 0⟩

/-- A Rein beside its registers. -/
structure Rein where
  /-- ti, in 2^-32 units. -/
  ti : Int
  /-- Boundaries since the last level change. -/
  since : Nat
  /-- Missing emitting Stitches in a row. -/
  lost : Nat
  /-- Evaluations in a row with the last m. -/
  same : Nat
  /-- m of the last evaluation of the unit. -/
  lastM : Option Nat
  /-- The m that FEEDBACK_FROZEN found. -/
  frozenM : Option Nat
  /-- The latest evaluation of the unit exceeded FE_LIMIT. -/
  overLimit : Bool
  /-- fe. -/
  fe : Nat
  /-- FEEDBACK_LOST is due. -/
  lostDue : Bool
  /-- FEEDBACK_FROZEN is due. -/
  frozenDue : Bool
  /-- FEEDBACK_LOST was raised in this FALLBACK episode. -/
  lostRaised : Bool
  /-- FEEDBACK_FROZEN was raised in this FALLBACK episode. -/
  frozenRaised : Bool
  /-- FOLLOWING is due. -/
  followDue : Bool
  /-- The ended Stitch was emitting. -/
  emitting : Bool
  /-- fe moved at this boundary. -/
  feMoved : Bool
  /-- The block applied at the last boundary was lit all Stitch with EMIT_EN active. -/
  lit : Bool
  /-- The ramp value of R193; none before the first evaluation of a stretch. -/
  ramp : Option Nat
  /-- CEIL_CLIP was raised in this stretch. -/
  clipRaised : Bool
  /-- The Awl was in RUN at the last boundary. -/
  wasRun : Bool
  /-- Pairs tagged with the current Stitch. -/
  pairs : List Pair
  /-- The last sequence number seen. -/
  lastSeq : Option Nat
  /-- The pairs that the last boundary captured. -/
  captured : List Pair
  /-- Area of the last accepted statistic. -/
  area : Nat
  /-- What the last boundary formed: fac, P_HIGH, P_LOW and e. -/
  fac : Nat
  /-- P_HIGH. -/
  pHigh : Nat
  /-- P_LOW. -/
  pLow : Nat
  /-- e. -/
  e : Int
  /-- The command. -/
  cmd : Nat
  /-- Trigger sources that occurred at the last boundary (R212). -/
  trig : List Nat
  /-- The ceiling granted and not yet in force (R208). -/
  ceilDue : Option Nat
  /-- TRIM_LOAD waits for the next boundary. -/
  loadDue : Bool
  /-- The command of this boundary was counted in REIN_CLIP_CNT. -/
  clipNow : Bool
  /-- P_FF of the last boundary was clipped (R56). -/
  ffCut : Bool
  /-- P_HIGH of the last boundary was clipped. -/
  highCut : Bool
  /-- Where the Rein's last boundary lay, in TCLK. -/
  seenT : Nat
  /-- A traced stroke began and ended within the present Stitch (R212). -/
  begun : Bool
  /-- The trace units have not taken this boundary's record yet. -/
  traceDue : Bool
  /-- The trace units. -/
  traces : List Trace
  deriving DecidableEq, Repr

/-- A Rein at reset. -/
def Rein.atReset : Rein :=
  { ti := 0, since := 0, lost := 0, same := 0, lastM := none, frozenM := none, overLimit := false, fe := 0,
    lostDue := false, frozenDue := false, lostRaised := false, frozenRaised := false, followDue := false,
    emitting := false, feMoved := false, lit := false, ramp := none, clipRaised := false, wasRun := false, pairs := [],
    lastSeq := none, captured := [], area := 0, fac := 65536, pHigh := 0, pLow := 0, e := 0, cmd := 0, trig := [],
    ceilDue := none, loadDue := false, clipNow := false, ffCut := false, highCut := false, seenT := 0, begun := false,
    traceDue := false,
    traces := [Trace.off, Trace.off, Trace.off, Trace.off] }

/-! ## Hide map (R143 to R160) -/

/-- A sweep pass in progress (R148, R151). -/
structure Pass where
  /-- Cells written. -/
  pos : Nat
  /-- BASE of the pass. -/
  base : Nat
  /-- COOL of the pass. -/
  cool : Nat
  /-- COND of the pass. -/
  cond : Nat
  /-- The row before the one being written, as read. -/
  north : List Nat
  /-- The row being written, as read. -/
  row : List Nat
  /-- The row after it, as read. -/
  south : List Nat
  deriving DecidableEq, Repr

/-- An assimilation record in progress (R155). -/
structure AssimRec where
  /-- First column. -/
  i0 : Nat
  /-- First row. -/
  j0 : Nat
  /-- Columns. -/
  w : Nat
  /-- Rows. -/
  h : Nat
  /-- The code of each position; one code for all in KIND 0. -/
  codes : List Nat
  /-- Positions done. -/
  pos : Nat
  deriving DecidableEq, Repr

/-- An archive copy in progress (R159). -/
structure ArchiveJob where
  /-- The slot. -/
  slot : Nat
  /-- The BAR4 offset it copies to. -/
  base : Nat
  /-- The bytes it writes. -/
  bytes : List Byte
  deriving DecidableEq, Repr

/-- The Hide map beside its registers. -/
structure Hide where
  /-- The grid's stream; 0 for none. -/
  grid : Word
  /-- The value of every cell that is not listed. -/
  fill : Nat
  /-- Cells by row × WIDTH + column; one not listed holds `fill`. -/
  cells : Sparse Nat
  /-- What an unlisted cell held at the last boundary. -/
  seenFill : Nat
  /-- The cells as every reader sees them: after all the work of the ended Stitch (R147). -/
  seen : Sparse Nat
  /-- A fill runs. -/
  filling : Bool
  /-- A fill ended, so ENABLED reads 1 from the next boundary. -/
  filled : Bool
  /-- A refusal to report at the next boundary. -/
  refused : Option Nat
  /-- The sweep pass. -/
  pass : Option Pass
  /-- The pass ended in this Stitch. -/
  swept : Bool
  /-- A pass is due and has not started. -/
  passDue : Bool
  /-- A due pass waits for the active one to end. -/
  passLate : Bool
  /-- The next boundary of the cadence; none when INT is 0. -/
  nextPass : Option Nat
  /-- Rectangle positions of this Stitch that no record has claimed. -/
  assimLeft : Nat
  /-- The records in progress, oldest first. -/
  work : List AssimRec
  /-- The archive copy. -/
  arch : Option ArchiveJob
  /-- SATURATED is armed. -/
  satArmed : Bool
  /-- A block restart has not completed. -/
  restarting : Bool
  /-- The boundary at which the last block restart took effect. -/
  restartAt : Nat
  /-- The grid was in use when the restart took effect. -/
  wasEnabled : Bool
  /-- The work of the present Stitch is done (R147). -/
  worked : Bool
  /-- The TCLK of the present Stitch from which every EMIT_EN is inactive; none while they stand as at its boundary (R149). -/
  emitCut : Option Nat
  deriving DecidableEq, Repr

/-- The Hide map at reset. -/
def Hide.atReset : Hide :=
  { grid := 0, fill := 0, cells := [], seenFill := 0, seen := [], filling := false, filled := false, refused := none,
    pass := none, swept := false, passDue := false, passLate := false, nextPass := none, assimLeft := 320, work := [],
    arch := none, satArmed := true, restarting := false, restartAt := 0, wasEnabled := false, worked := false, emitCut := none }

/-! ## Jobs and the Tree (R95 to R142) -/

/-- A stroke of a unit, or a part of one cut at a seam, in the layout of R102. -/
structure UnitPart where
  /-- Stroke index in the layer. -/
  index : Nat
  /-- Word 0. -/
  w0 : Word
  /-- Word 1. -/
  w1 : Word
  /-- Word 2. -/
  w2 : Word
  /-- Word 3. -/
  w3 : Word
  /-- A part cut at a seam. -/
  split : Bool
  /-- Of an arc-mark, the direction it inherits from the stroke before it in its patch, as an exact vector (R103); else (0, 0). -/
  dir : Int × Int
  deriving DecidableEq, Repr

/-- Where a placement unit stands. -/
inductive UnitPhase where
  /-- Not started. -/
  | waiting
  /-- Orphaned: no eligible laser is in service (R135). -/
  | orphan
  /-- Started on a laser. -/
  | started
  /-- Complete. -/
  | complete
  deriving DecidableEq, Repr

/-- A placement unit (R115). -/
structure PlaceUnit where
  /-- Patch index. -/
  patch : Nat
  /-- Piece number. -/
  piece : Nat
  /-- Its strokes and parts in order; of a remainder, those still to run. -/
  parts : List UnitPart
  /-- Bounding box. -/
  x0 : Int
  /-- Bounding box. -/
  y0 : Int
  /-- Bounding box. -/
  x1 : Int
  /-- Bounding box. -/
  y1 : Int
  /-- Predecessor patches. -/
  preds : List Nat
  /-- Slots it is eligible for (R120). -/
  eligible : Nat
  /-- Nominal parameter set. -/
  pset : Nat
  /-- TAG of its patch (R100). -/
  tag : Word
  /-- E(u) in Stitches (R125). -/
  est : Nat
  /-- Where it stands. -/
  phase : UnitPhase
  /-- The laser it was started on. -/
  laser : Nat
  /-- Order of the start among all starts of the layer. -/
  order : Nat
  /-- The Stitch in which it was started. -/
  startStitch : Nat
  /-- Its predicted length when it was started, J + E. -/
  predLen : Nat
  /-- Parts pushed since it was started. -/
  pushed : Nat
  /-- Parts that have ended since it was started. -/
  ended : Nat
  /-- A poisoned stroke word ended it (R133). -/
  cut : Bool
  /-- End Stitch of its last stroke, when that has ended. -/
  lastEnd : Option Nat
  /-- Its rank among the remainders (R126, R136): the boundary of the hand-over, then the slot, then the order on it; none when it is
  not one. -/
  remainder : Option Nat
  /-- Its first part runs again (R135). -/
  rerun : Bool
  deriving DecidableEq, Repr

/-- A validated layer (R99, R108). -/
structure LayerRec where
  /-- Index in the layer table. -/
  index : Nat
  /-- LAYER_NO. -/
  layerNo : Word
  /-- BUDGET. -/
  budget : Nat
  /-- DZ. -/
  dz : Nat
  /-- STROKE_AREA. -/
  strokeArea : Nat
  /-- A count of zero was met in it (R109). -/
  zeroLen : Bool
  /-- Its units, by patch and piece. -/
  units : List PlaceUnit
  deriving DecidableEq, Repr

/-- A slot record as the job's ARM read it (R96, R120). -/
structure SlotRec where
  /-- Polygon vertices. -/
  poly : List (Int × Int)
  /-- Length of each edge in bu, rounded up. -/
  lens : List Nat
  /-- MARGIN. -/
  margin : Nat
  /-- PSET_COUNT. -/
  psets : Nat
  deriving DecidableEq, Repr

/-- The job header's fields (R95), and the records of its slots. -/
structure JobRec where
  /-- LAYER_COUNT. -/
  layers : Nat
  /-- LAYER_TABLE. -/
  layerTable : Nat
  /-- FIELD_TABLE. -/
  fieldTable : Nat
  /-- PSET_TABLE. -/
  psetTable : Nat
  /-- SLOT_MASK. -/
  slotMask : Nat
  /-- FIRST_LAYER. -/
  first : Nat
  /-- STATIC. -/
  static : Bool
  /-- The slot records of SLOT_MASK, by slot. -/
  slots : List (Nat × SlotRec)
  deriving DecidableEq, Repr

/-- A failed check of R108, with the items it concerns; 0xFFFF_FFFF for none. -/
structure Reject where
  /-- Code. -/
  code : Nat
  /-- Layer index. -/
  layer : Nat
  /-- Patch index. -/
  patch : Nat
  /-- Stroke index. -/
  stroke : Nat
  deriving DecidableEq, Repr

/-- What is being validated (R108). -/
inductive Validating where
  /-- Nothing. -/
  | nothing
  /-- ARM. -/
  | arm
  /-- VALIDATE. -/
  | walk
  /-- A PSET_RELOAD at RESUME (R112). -/
  | reload
  /-- The next layer, while one runs. -/
  | next
  deriving DecidableEq, Repr

/-- A unit's place in a laser's plan (R127). -/
structure Planned where
  /-- The unit's place in the layer's list. -/
  unit : Nat
  /-- Planned start, in Stitches from the pass origin. -/
  start : Nat
  /-- Planned end. -/
  stop : Nat
  deriving DecidableEq, Repr

/-- What a plan pass gives: a list per laser, the orphans, and the largest free time (R127, R137). -/
structure PlanResult where
  /-- The plan of each laser. -/
  plans : List (List Planned)
  /-- Orphaned units. -/
  orphans : List Nat
  /-- PRED_END of R137. -/
  predEnd : Nat
  deriving DecidableEq, Repr

/-- A plan pass in progress, or ended and not yet in force. -/
structure PlanPass where
  /-- What it gives. -/
  result : PlanResult
  /-- It has ended. -/
  ended : Bool
  deriving DecidableEq, Repr

/-- A record of the placement log's hold buffer (R140, R141). -/
structure LogRec where
  /-- The packet's words. -/
  words : List Word
  /-- End Stitch, or the marker's Stitch. -/
  stitch : Nat
  /-- Whether it is a stroke record, which holds a slot of the buffer. -/
  stroke : Bool
  /-- TAG of the stroke's patch (R100), for which the packet of R140 has no field. -/
  tag : Word
  deriving DecidableEq, Repr

/-- The Tree beside its registers. -/
structure Tree where
  /-- The armed job. -/
  job : JobRec
  /-- What is being validated. -/
  validating : Validating
  /-- The layer in PREPARE to CLOSED. -/
  layer : Option LayerRec
  /-- The next layer, validated. -/
  next : Option LayerRec
  /-- The next layer's failed check. -/
  nextFail : Option Reject
  /-- LAYER_NO of the layer in PREPARE to CLOSED. -/
  layerNo : Word
  /-- Index of the layer that enters PREPARE next. -/
  nextIndex : Nat
  /-- REPLAN_LATE is due. -/
  lateDue : Bool
  /-- The last layer of the job has closed or there is none. -/
  lastLayer : Bool
  /-- Boundary at which the job state last moved. -/
  since : Nat
  /-- Stitch in which layer-ready was signalled. -/
  readyAt : Option Nat
  /-- A PSET_RELOAD waits for RESUME. -/
  reload : Bool
  /-- Boundary at which the layer entered RUNNING. -/
  runAt : Nat
  /-- The plan in force, per laser: units in order. -/
  plans : List (List Nat)
  /-- The plan pass. -/
  pass : Option PlanPass
  /-- The initial plan is in force or complete. -/
  planned : Bool
  /-- Next cadence boundary of the re-plan. -/
  cadence : Nat
  /-- An extra re-plan starts at the next boundary. -/
  extra : Bool
  /-- A re-plan is due and has not started. -/
  replanDue : Bool
  /-- LAYER_LONG was raised for the layer. -/
  long : Bool
  /-- LAYER_OVER was raised for the layer. -/
  isOver : Bool
  /-- Starts so far. -/
  starts : Nat
  /-- Slots below this one have been considered at the present boundary (R131). -/
  considered : Nat
  /-- Remainders so far. -/
  remainders : Nat
  /-- Record slots taken in the hold buffer. -/
  slotsUsed : Nat
  /-- Records that wait for the log queue, oldest first. -/
  log : List LogRec
  /-- TREE_SLOT_SERVICE at the last boundary. -/
  serviceWas : Word
  /-- Slots in service at the last boundary (R121). -/
  inServiceWas : Nat
  /-- The resident parameter-set streams, by slot; 0 for none. -/
  psetBufs : Sparse Word
  /-- Parameter sets in each resident stream. -/
  psetCounts : Sparse Nat
  /-- Strokes skipped under R105 in the layer. -/
  zeros : Nat
  deriving DecidableEq, Repr

/-- The Tree at reset. -/
def Tree.atReset : Tree :=
  { job := ⟨0, 0, 0, 0, 0, 0, false, []⟩, validating := .nothing, layer := none, next := none, nextFail := none,
    layerNo := 0xFFFFFFFF, nextIndex := 0, lateDue := false, lastLayer := false, since := 0, readyAt := none, reload := false, runAt := 0, plans := [], pass := none,
    planned := false, cadence := 0, extra := false, replanDue := false, long := false, isOver := false, starts := 0, considered := 0,
    remainders := 0, slotsUsed := 0, log := [], serviceWas := 0, inServiceWas := 0, psetBufs := [], psetCounts := [],
    zeros := 0 }

/-! ## Axis engines and the Skiver (R238 to R260) -/

/-- A planned motion of an axis, along a line from a place in a direction. -/
structure AxMotion where
  /-- The AXCLK at which it begins, counted from boundary 0. -/
  t0 : Nat
  /-- Its segments: AXCLK and jerk word. -/
  segs : List (Nat × Int)
  /-- Speed word at its start, in 2^-44 microstep per AXCLK. -/
  v0 : Int
  /-- Acceleration word at its start. -/
  a0 : Int
  /-- Its length in 2^-20 microstep. -/
  len : Nat
  /-- Toward lower positions. -/
  down : Bool
  /-- Its start in 2^-20 microstep. -/
  from' : Int
  /-- Acceleration limit of the plan, as a word. -/
  aMax : Nat
  /-- Jerk limit of the plan, as a word. -/
  jMax : Nat
  deriving DecidableEq, Repr

/-- A switch input of an axis (R250). -/
structure Switch where
  /-- Raw level. -/
  raw : Bool
  /-- TCLK of the boundary at which the raw level was first seen. -/
  since : Nat
  /-- Qualified level. -/
  qual : Bool
  deriving DecidableEq, Repr

/-- Steps of a homing (R252): 0 none, 1 running to the home event, 3 latched at an index pulse and running to the next boundary,
4 coming to rest, 5 moving to the offset. -/
structure Homing where
  /-- The step. -/
  step : Nat
  /-- The HOME input has qualified active. -/
  seen : Bool
  /-- AXCLK of the latching edge. -/
  latched : Option Nat
  /-- L. -/
  latchPos : Int
  /-- Edges counted toward CHATTER_MAX. -/
  edges : Nat
  /-- CHATTER is due. -/
  chatter : Bool
  deriving DecidableEq, Repr

/-- No homing. -/
def Homing.none : Homing := ⟨0, false, Option.none, 0, 0, false⟩

/-- The HOME input of an axis, from its raw edges (R251). -/
structure HomeInput where
  /-- The raw level since the last edge. -/
  level : Bool
  /-- AXCLK of that edge; none before the first. -/
  edge : Option Nat
  /-- The position at that edge. -/
  pos : Int
  /-- The level has held for DEBOUNCE. -/
  held : Bool
  /-- A level that qualified active in the present Stitch: AXCLK and position of the edge that began it. -/
  hit : Option (Nat × Int)
  deriving DecidableEq, Repr

/-- A HOME input before its first edge. -/
def HomeInput.quiet : HomeInput := ⟨false, Option.none, 0, false, Option.none⟩

/-- An axis engine beside its registers. -/
structure Axis where
  /-- Planned motions, in time order. -/
  plan : List AxMotion
  /-- Where the axis rests before the first of them, in 2^-20 microstep. -/
  rest : Int
  /-- Target of the move in hand, or where the axis came to rest, in microsteps. -/
  target : Int
  /-- The stop in hand: the lowest fault code found; 0 for STOP and ESTOP. -/
  stopCode : Nat
  /-- Codes found in the stop in hand. -/
  codes : List Nat
  /-- The homing. -/
  home : Homing
  /-- Raw encoder count. -/
  enc : Int
  /-- Encoder count of the reference. -/
  encRef : Int
  /-- Position of the reference, in microsteps. -/
  encPos : Int
  /-- The HOME input. -/
  homeIn : HomeInput
  /-- The stop in hand is one under R245. -/
  hard : Bool
  /-- Microsteps commanded in the ended Stitch: AXCLK, position at it, and whole microstep (R248). -/
  walk : List (Nat × Int × Int)
  /-- Microsteps in a row at which the stall conditions held. -/
  stall : Nat
  /-- The microstep at which STALL qualified at the last boundary: its AXCLK and position. -/
  stallAt : Option (Nat × Int)
  /-- The encoder differs by more than ENC_WIN. -/
  lostNow : Bool
  /-- LOST_STEP is due. -/
  lostDue : Bool
  /-- The three switch inputs. -/
  switches : List Switch
  /-- Waveform entries written, by bank × 256 + i; one not listed holds the reset wave. -/
  wave : Sparse (Option Word)
  deriving DecidableEq, Repr

/-- An axis at reset. -/
def Axis.atReset : Axis :=
  { plan := [], rest := 0, target := 0, stopCode := 0, codes := [], home := Homing.none, enc := 0, encRef := 0, encPos := 0
    homeIn := HomeInput.quiet, hard := false, walk := [], stall := 0, stallAt := none, lostNow := false, lostDue := false, switches := [], wave := [] }

/-- The Skiver beside its registers. -/
structure Skiver where
  /-- Boundary at which it was started. -/
  startAt : Nat
  /-- Targets fixed at the start: platform, doser, spread start, spread end, and the park position of RETURN. -/
  targets : List Int
  /-- The phase that starts at the next boundary; 0 for none. -/
  nextPhase : Nat
  /-- The phase that faulted. -/
  faulted : Nat
  /-- The Stitch in which layer-ready is signalled, when SETTLE runs. -/
  settleAt : Option Nat
  deriving DecidableEq, Repr

/-- The Skiver at reset. -/
def Skiver.atReset : Skiver := ⟨0, [], 0, 0, none⟩

/-! ## Imaging pipes (R215 to R237) -/

/-- A camera frame that a pipe holds (R222, R223). -/
structure CamFrame where
  /-- The 8 header words. -/
  header : List Word
  /-- The trigger boundary it belongs to: of the latest recorded trigger at or before its timestamp, else the
  timestamp. -/
  trig : Nat
  /-- Expected id (R220). -/
  expected : Nat
  /-- Flags found so far. -/
  flags : Nat
  /-- Pixels kept, in arrival order. -/
  pixels : List Nat
  /-- Pixels that arrived. -/
  arrived : Nat
  /-- The rest is dropped up to the end marker. -/
  dropping : Bool
  /-- Words of it in the slot's memory queue. -/
  queued : Nat
  deriving DecidableEq, Repr

/-- A processed frame whose statistics packet has not committed (R230 to R234). -/
structure CamResult where
  /-- The 8 header words. -/
  header : List Word
  /-- Expected id. -/
  expected : Nat
  /-- Flags, LATE excepted. -/
  flags : Nat
  /-- DEADLINE. -/
  deadline : Nat
  /-- IMG_STATQ. -/
  statq : Word
  /-- IMG_ASSIM_Q. -/
  assimq : Word
  /-- IMG_RETAIN_Q. -/
  retainq : Word
  /-- Words 5 to 47 of the statistics packet. -/
  stat : List Word
  /-- Temperature and odd sides of the assimilation record. -/
  assim : Option (Nat × Nat × Nat)
  /-- Size word and pixels of the retained copy. -/
  retain : Option (List Word)
  deriving DecidableEq, Repr

/-- A camera source of a pipe beside its registers: slots 0 to 3, and the bed camera. -/
structure Cam where
  /-- The last 16 triggers, newest first: boundary and id (R220). -/
  triggers : List (Nat × Nat)
  /-- Id of the latest committed camera set; 0 before the first (R219). -/
  lastId : Nat
  /-- The camera set that the last trigger carried: EXPO, ROI, SIZE. -/
  sent : List Word
  /-- The last boundary with a trigger, and whether it carried fields. -/
  trigAt : Option (Nat × Bool)
  /-- The older version of the pipe-side fields, by offset in the slot (R221). -/
  old : Sparse Word
  /-- The boundary of the latest PIPE commit. -/
  commitAt : Option Nat
  /-- The frame whose end marker has not come. -/
  frame : Option CamFrame
  /-- Memory-path frames whose end marker is in the queue, oldest first. -/
  waiting : List CamFrame
  /-- Processed frames without their packet, oldest first. -/
  results : List CamResult
  /-- The slot's memory queue (R215). -/
  queue : Word
  /-- FRAME_NO of the previous frame. -/
  lastNo : Option Word
  /-- The latest trigger whose frame has come (R221). -/
  answered : Nat
  /-- Halfwords in the in-line input buffer, of its 16,384, at the TCLK of the last fragment (R215). -/
  inFill : Nat
  /-- That TCLK. -/
  inAt : Nat
  /-- Tracked black levels (R224). -/
  track : List Int
  /-- An optical-black frame was seen since enable. -/
  obSeen : Bool
  /-- Frames processed since enable (R234). -/
  processed : Nat
  /-- TAG_FAULT was raised. -/
  tagRaised : Bool
  /-- Bed points of the last 64 applied blocks of the slot's head, newest first: Stitch, X, Y (R233). -/
  points : List (Nat × Int × Int)
  deriving DecidableEq, Repr

/-- A source at reset. -/
def Cam.atReset : Cam :=
  { triggers := [], lastId := 0, sent := [], trigAt := none, old := [], commitAt := none, frame := none, waiting := [],
    results := [], queue := 0, lastNo := none, answered := 0, inFill := 0, inAt := 0, track := [0, 0, 0, 0], obSeen := false, processed := 0,
    tagRaised := false, points := [] }

/-- A capture of the bed camera (R236). -/
structure BedRun where
  /-- A capture runs. -/
  running : Bool
  /-- Triggers still to come. -/
  triggers : Nat
  /-- The boundary of the next one. -/
  next : Nat
  /-- Stitches between them. -/
  period : Nat
  /-- Frames still to be written. -/
  frames : Nat
  /-- FRAME_NO of the last frame. -/
  lastNo : Word
  /-- Flags of the last frame, with OVERFLOW when one was dropped. -/
  flags : Nat
  deriving DecidableEq, Repr

/-- No capture. -/
def BedRun.none : BedRun := ⟨false, 0, 0, 0, 0, 0, 0⟩

/-! ## Latigo lanes (R307 to R326) -/

/-- A lane beside its registers. -/
structure Lane where
  /-- TURN of the head's IDENT flit. -/
  turn : Nat
  /-- The head's serial number at the previous READY: low and high word. -/
  serialWas : Option (Word × Word)
  /-- Round trips measured in this ALIGN. -/
  rtts : List Nat
  /-- Identification passed in this ALIGN. -/
  known : Bool
  /-- Attempts of the RECOVERY. -/
  attempts : Nat
  /-- RECOVERY has passed its CHECK. -/
  aligning : Bool
  /-- The state that the next boundary brings, with its cause. -/
  pend : Option (Nat × Nat)
  /-- A write cleared ENABLE. -/
  drop : Bool
  /-- SEQ of the next sequenced flit. -/
  tx : Nat
  /-- SEQ of the next flit to accept; none before the first. -/
  rx : Option Nat
  /-- Unacknowledged flits, oldest first, at most 64. -/
  replay : List (List Word)
  /-- Stitch of the last progress of the replay buffer. -/
  ackAt : Nat
  /-- The next flit sent carries NAK. -/
  nak : Bool
  /-- CRC failures in a row. -/
  bad : Nat
  /-- Stitch of the last intact flit. -/
  lastAt : Nat
  /-- The head reports SAFE. -/
  safe : Bool
  /-- An early input arrived. -/
  early : Bool
  /-- The injection that waits: INJ_MODE and INJ_TYPE. -/
  inject : Option (Nat × Nat)
  /-- The last SETPOINT flit sent, 16 words. -/
  flit : List Word
  /-- What the last CONTROL flit gave the head: n, d, U and MISS_LIMIT. -/
  told : List Nat
  /-- Word 4 of the latest STATUS flit latched: the gate-response report. -/
  gate : Word
  /-- The words of a STATUS flit that the next boundary latches (R29). -/
  heard : Option (List Word)
  deriving DecidableEq, Repr

/-- A lane at reset. -/
def Lane.atReset : Lane :=
  { turn := 0, serialWas := none, rtts := [], known := false, attempts := 0, aligning := false, pend := none,
    drop := false, tx := 0, rx := none, replay := [], ackAt := 0, nak := false, bad := 0, lastAt := 0, safe := false,
    early := false, inject := none, flit := [], told := [], gate := 0, heard := none }

/-! ## Time bases, scheduled actions and the field bus (R333 to R357) -/

/-- A PTP domain's servo beside its registers (R336). -/
structure Domain where
  /-- The rate word of the servo. -/
  adj : Int
  /-- The phase term's rate word. -/
  phase : Int
  /-- Stitches over which it still acts. -/
  phaseLeft : Nat
  /-- The measurement that takes effect at the next boundary, in 2^-16 ns. -/
  meas : Option Int
  /-- Boundary of the previous measurement, or of the enable. -/
  last : Nat
  /-- No measurement since the enable. -/
  first : Bool
  /-- Measurements in a row below the lock threshold. -/
  small : Nat
  /-- The silence was reported. -/
  silent : Bool
  /-- ENABLE at the last boundary. -/
  wasOn : Bool
  deriving DecidableEq, Repr

/-- A domain at reset. -/
def Domain.atReset : Domain := ⟨0, 0, 0, none, 0, true, 0, false, false⟩

/-- The time block beside its registers. Times are in units of 2^-43 ns, in which a TCLK at rate word ADJ adds
25 × (2^40 + ADJ) (R334). -/
structure TimeBlock where
  /-- TB0 to TB3 at the last boundary. -/
  tb : List Int
  /-- The rate words in force. -/
  adj : List Int
  /-- The rate word of TB0 that the next boundary puts in force (R335). -/
  adj0 : Option Int
  /-- CLKREF edges are missing. -/
  refGone : Bool
  /-- Domains A and B. -/
  doms : List Domain
  /-- The last adjsel. -/
  adjSel : Int
  /-- Boundary at which each entry was armed; an entry not listed is not armed. -/
  armed : Sparse (Option Nat)
  /-- Entries whose CANCEL waits for the next boundary. -/
  cancels : List Nat
  /-- Entries judged for the next boundary. -/
  ran : List Nat
  /-- How many of them run at it (R342). -/
  runs : Nat
  /-- Register writes of actions, applied in the commit step of the next boundary: target and value (R342). -/
  writes : List (Word × Word)
  /-- Levels of TIME_OUT at the start of the Stitch. -/
  pins : BitVec 4
  /-- What the pins will do in the next Stitch: pin, TCLK in it, operation (R344). -/
  pinOps : List (Nat × Nat × Nat)
  /-- What they do in the present one, and the pulses of the last one that reach into it: TCLK count, pin, operation. -/
  pinRun : List (Nat × Nat × Nat)
  deriving DecidableEq, Repr

/-- The time block at power-on. -/
def TimeBlock.atReset : TimeBlock :=
  ⟨[0, 0, 0, 0], [0, 0, 0, 0], none, false, [Domain.atReset, Domain.atReset], 0, [], [], [], 0, [], 0, [], []⟩

/-- The words of an accepted IN frame on their way to the point table (R351). -/
structure InWords where
  /-- Stitch of arrival. -/
  stitch : Nat
  /-- First point. -/
  base : Nat
  /-- The words. -/
  words : List Word
  /-- The node. -/
  node : Nat
  /-- The Cinch that its frame answers. -/
  cinch : Nat
  deriving DecidableEq, Repr

/-- A field-bus segment beside its registers (R347 to R356). -/
structure Segment where
  /-- Number of the latest Cinch. -/
  cinch : Nat
  /-- Boundary of its start; none before the first. -/
  start : Option Nat
  /-- Nodes whose entry is in force. -/
  active : List Nat
  /-- Nodes with an accepted IN frame in the open Cinch. -/
  got : List Nat
  /-- Misses in a row, by node. -/
  misses : Sparse Nat
  /-- Lost nodes. -/
  lost : List Nat
  /-- Words of accepted IN frames on their way to the point table. -/
  arriving : List InWords
  /-- OUT frames that wait for a transmit opportunity. -/
  outs : List (List Byte)
  /-- LAMP_SYNC frames that wait. -/
  syncs : List (List Byte)
  /-- The last frame sent. -/
  sent : List Byte
  deriving DecidableEq, Repr

/-- A segment at reset. -/
def Segment.atReset : Segment := ⟨0, none, [], [], [], [], [], [], [], []⟩

/-- An Ethernet port beside its registers. -/
structure Eth where
  /-- The last frame sent, padded, without FCS. -/
  sent : List Byte
  deriving DecidableEq, Repr


/-! ## Lamp drive (R358 to R371) -/

/-- A lamp channel beside its registers. -/
structure LampChan where
  /-- Amplitude in force (R358). -/
  amp : Nat
  /-- Duty in force, by row (R361). -/
  duty : List Nat
  /-- This PWM period is its diagnostic pulse (R368). -/
  diag : Bool
  /-- The next PWM period will be. -/
  diagDue : Bool
  /-- Verdict of the last measurement: 1 OK, 2 OPEN, 3 SHORT; 0 for none. -/
  verdict : Nat
  /-- How many times in a row it has come. -/
  runs : Nat
  /-- The latched verdict: 2 OPEN, 3 SHORT; 0 for none. -/
  latched : Nat
  /-- SHORT has qualified since the last CLEAR: the gate is off from the next PWM period on (R367). -/
  short : Bool
  /-- The gate is off. -/
  off : Bool
  /-- Measured in the present frame. -/
  measured : Bool
  /-- Frames without a measurement. -/
  unmeasured : Nat
  /-- DIAG_STARVED was raised since the last measurement. -/
  starved : Bool
  deriving DecidableEq, Repr

/-- A lamp channel that is off. -/
def LampChan.dark : LampChan := ⟨0, [], false, false, 0, 0, 0, false, false, false, 0, false⟩

/-- A swap that waits LEAD Stitches (R369). -/
structure HeldSwap where
  /-- Its boundary. -/
  when : Nat
  /-- Its LAMP_SYNC frame was sent at the frame tick. -/
  sent : Bool
  deriving DecidableEq, Repr

/-- The lamp drive beside its registers. -/
structure Lamp where
  /-- Frame memory by halfword: page × 1,024 + place (R363). -/
  mem : Sparse Nat
  /-- SWAP was asked for before the last boundary's cut-off. -/
  asked : Bool
  /-- Boundary of the last frame tick; none before the first. -/
  tick : Option Nat
  /-- A qualified LSYNC edge has come. -/
  edge : Bool
  /-- Strobes of LSYNC, newest first: the Stitch and the sequence number latched (R236, R365). -/
  strobes : List (Nat × Word)
  /-- Pattern engines: the configuration in force, its frame count, and a committed write that waits for the tick. -/
  cfg : Sparse Word
  /-- Frames since each engine's MODE was last written. -/
  phase : Sparse Nat
  /-- Engines whose LAMP_ENG_CFG committed since the last tick. -/
  due : List Nat
  /-- Swaps that wait. -/
  held : List HeldSwap
  /-- The chain shift that runs: the halfwords on their way, in the order sent. -/
  shift : Option (List Nat)
  /-- Halfwords the boards latched last, those of board BOARDS - 1 first. -/
  chain : List Nat
  /-- Channels. -/
  chans : Sparse LampChan
  deriving DecidableEq, Repr

/-- The lamp drive at power-on. -/
def Lamp.atReset : Lamp := ⟨[], false, none, false, [], [], [], [], [], none, [], []⟩

/-! ## Power, temperature, calibration and burnish (R372 to R411) -/

/-- What the power sequencer does (R373). Groups: 0 A, 1 B, 2 C. -/
inductive SeqStep where
  /-- VDD_STBY is absent: OFF. -/
  | off
  /-- STANDBY. -/
  | standby
  /-- The wait for a group to be up with its power-good. -/
  | waitUp (grp : Nat)
  /-- The SETTLE delay before a group's enable goes high. -/
  | settleUp (grp : Nat)
  /-- The core domain is released. -/
  | released
  /-- The SETTLE delay before a group's enable goes low. -/
  | settleDown (grp : Nat)
  /-- The wait for a group to be absent. -/
  | waitDown (grp : Nat)
  /-- The 100 ms after a brown-out. -/
  | retryWait
  deriving DecidableEq, Repr

/-- The power manager beside its registers. -/
structure Power where
  /-- The sequencer. -/
  seq : SeqStep
  /-- The 100 ms wait and a retry follow the power-down (R375). -/
  retry : Bool
  /-- Groups above 10 % of nominal. -/
  present : List Nat
  /-- Brown-outs in a row within 10 s of the release before. -/
  brownRun : Nat
  /-- VDD_STBY has risen and no wake has come since. -/
  fresh : Bool
  /-- VBAT is up. -/
  vbat : Bool
  /-- The VBAT domain was lost since the last power-on. -/
  vbatLost : Bool
  /-- SPI_QUAD as sampled (R440). -/
  spiQuad : Bool
  /-- SHUTDOWN runs its burnish (R384). -/
  shutting : Bool
  /-- VDD_CORE target asked for, in mV. -/
  target : Nat
  /-- Its check is still to come. -/
  checking : Bool
  /-- PMBus failures in a row. -/
  fails : Nat
  /-- Steps with a high margin in a row. -/
  good : Nat
  /-- Margin of the last step, in ps. -/
  margin : Option Nat
  /-- Units under a block restart: code, number. -/
  restarts : List (Nat × Nat)
  /-- No boot image passed: recovery (R413). -/
  recovery : Bool
  deriving DecidableEq, Repr

/-- The power manager just after core release. -/
def Power.atReset : Power := ⟨.released, false, [0, 1, 2], 0, false, true, false, false, false, 750, true, 0, 0, none, [], false⟩

/-- The thermal block beside its registers. -/
structure Therm where
  /-- Readings as the consumers take them: those of the last boundary, by sensor. -/
  seen : Sparse Nat
  /-- Samples in a row at or above SHUT, by sensor. -/
  hot : Sparse Nat
  /-- TCLK count of each sensor's last sample, plus 1; 0 before the first. -/
  at_ : Sparse Nat
  /-- Microseconds from each sensor's last sample to its next. -/
  next : Sparse Nat
  /-- Each sensor's band and reading as the last boundary found them; none when it was left out (R394, R396). -/
  bands : Sparse (Option (Nat × Nat))
  /-- Units whose clock is stopped (R398): code of R387 and number. -/
  stopped : List (Nat × Nat)
  deriving DecidableEq, Repr

/-- The thermal block with no sample taken. -/
def Therm.atReset : Therm := ⟨[], [], [], [], [], []⟩

/-- An entry of the calibration queue (R401). -/
structure CalEntry where
  /-- 0 boot, 1 command, 2 drift. -/
  trigger : Nat
  /-- Item code. -/
  item : Nat
  /-- The unit. -/
  unit : Nat
  deriving DecidableEq, Repr

/-- A calibration result: two codes (an offset and a gain, or TRIM_ON and TRIM_OFF; the second 0 elsewhere). -/
structure CalVal where
  /-- First code. -/
  a : Int
  /-- Second code. -/
  b : Int
  deriving DecidableEq, Repr

/-- The calibration engine beside its registers. Tables by item × 64 + unit. -/
structure Cal where
  /-- Entries that wait. -/
  queue : List CalEntry
  /-- The entry that runs. -/
  running : Option CalEntry
  /-- Where its walk goes. -/
  goal : Option CalVal
  /-- Results in force. -/
  inForce : Sparse CalVal
  /-- Results of the latest accepted runs, as the records hold them. -/
  accepted : Sparse CalVal
  /-- Temperature code of each last run. -/
  lastTemp : Sparse (Option Nat)
  /-- Records in the parameter store: eight words. -/
  recs : Sparse (List Word)
  /-- Gate-response reports that the running GATE_TAP instance has gathered: how many, and the sums of the on-responses and the
  off-responses (R400). -/
  reports : Nat × Nat × Nat
  deriving DecidableEq, Repr

/-- The calibration engine with no record. -/
def Cal.atReset : Cal := ⟨[], none, none, [], [], [], [], (0, 0, 0)⟩

/-- A burnish run (R406 to R410). -/
structure Burn where
  /-- Slices still to run, the one running first; none when no run is in progress. -/
  left : Option (List Nat)
  /-- Microseconds used. -/
  used : Nat
  /-- Slices failed. -/
  failed : Nat
  /-- Slices marked NOT_RUN. -/
  notRun : Nat
  deriving DecidableEq, Repr

/-- No burnish. -/
def Burn.idle : Burn := ⟨none, 0, 0, 0⟩

/-! ## Presence, secrets and the harness (R412 to R435) -/

/-- A guarded request (R415). -/
structure Guarded where
  /-- Operation of R415. -/
  op : Nat
  /-- The register or command. -/
  addr : Nat
  /-- The written value. -/
  val : Word
  /-- TB0 at its start. -/
  since : Int
  deriving DecidableEq, Repr

/-- Presence, secrets and images beside their registers. -/
structure Sec where
  /-- The request that waits for presence. -/
  request : Option Guarded
  /-- The request granted for the next boundary. -/
  granted : Option Guarded
  /-- The eight secrets, eight words each. -/
  secrets : List (List Word)
  /-- SEC_KEY_STAGE. -/
  stage : List Word
  /-- RUN is refused until both interlocks have been inactive together for 100 ms (R423). -/
  ilkHold : Bool
  /-- TCLK since both interlocks became inactive. -/
  ilkClear : Nat
  /-- SEC_IMG_BUF by word. -/
  imgBuf : Sparse Word
  /-- The image command that runs: 1 PROGRAM, 2 COMMIT, with its chunk. -/
  imgJob : Option (Nat × Nat)
  /-- Chunks the device has programmed: slot × 256 + chunk, with the words by their place; none where it has not. -/
  flash : Sparse (Option (Sparse Word))
  /-- User area of the parameter store, by word index. -/
  user : Sparse Word
  /-- Writes of each word of the parameter store. -/
  wear : Sparse Nat
  /-- The store's write that runs: word index and value. -/
  storing : Option (Nat × Word)
  /-- The last answer of the debug port. -/
  jtag : Word
  deriving DecidableEq, Repr

/-- Presence, secrets and images at power-on. -/
def Sec.atReset : Sec := ⟨none, none, List.replicate 8 (List.replicate 8 0), List.replicate 8 0, false, 0, [], none, [], [], [], none, 0⟩

/-- The harness beside its registers (R425 to R433). -/
structure Harn where
  /-- Own digests of the last two Stitches: bits [31:0] of the Stitch and the digest. -/
  mine : List (Word × BitVec 64)
  /-- Copies that arrived and are not yet due: copy, words 1 to 4. -/
  arrived : List (Nat × List Word)
  /-- HARN_BEAT_OUT. -/
  beat : Bool
  /-- Missed copies in a row. -/
  missed : Nat
  /-- Lost copies in a row. -/
  lost : Nat
  /-- Good copies in a row since the cut boundary. -/
  good : Nat
  /-- BEAT_LOST was raised since the beat last toggled. -/
  beatLost : Bool
  /-- A digest of the peer has been seen. -/
  peer : Bool
  /-- The peer's last copy carried TRACKING. -/
  peerTracks : Bool
  /-- The peer's last copy carried RESIGN. -/
  peerResigns : Bool
  /-- A take-over was decided in this Stitch (R430). -/
  decided : Bool
  /-- The Stitch whose copies carry RESIGN (R431). -/
  resigning : Option Nat
  /-- Boundary from which a replica computes (R433). -/
  cut : Option Nat
  /-- Bytes of DRAM copied. -/
  copied : Nat
  /-- Writes that act in the next boundary cycle (R427). -/
  forwards : List Forwarded
  /-- Changes of the lead's state that a replica applies at the next boundary (R433, step 4). -/
  changes : List CopyData
  /-- The last flit sent on each harness lane. -/
  sent : List (List Word)
  /-- Log records pushed, Cinch OUT words and action outcomes of the present Stitch, in order (R429). -/
  covered : List Word
  deriving DecidableEq, Repr

/-- The harness at reset. -/
def Harn.atReset : Harn :=
  ⟨[], [], false, 0, 0, 0, false, false, false, false, false, none, none, 0, [], [], [[], [], [], []], []⟩
/-- The whole machine. -/
structure State where
  /-- Which part the device is. -/
  part : Part
  /-- The commands that wait, first in, first out. -/
  pending : List Instr
  /-- The Stitch count TB4 (R28). -/
  stitch : BitVec 64
  /-- Every register's value in force, by BAR0 offset; a register not listed holds its reset value. -/
  regs : Sparse Word
  /-- Written values of sh registers that have not committed (R11), by BAR0 offset, with the mask of written bits. -/
  staged : Sparse (Option Word)
  /-- Command register writes that take effect at the next boundary, oldest first. -/
  cmds : List (Nat × Word)
  /-- Consecutive held boundaries of the seven groups of STCH_HOLD (R40). -/
  holds : Sparse Nat
  /-- The last value a register or aperture read returned. -/
  readData : Word
  /-- The last response to a requester. -/
  resp : Resp
  /-- MSI-X vectors that sent a message in the present Stitch, newest first (R273, R329). -/
  msix : List Nat
  /-- The free values' counter: the model's own field. -/
  fresh : Nat
  /-- Saddlebag. -/
  sb : Saddle
  /-- Tack cores by number. -/
  cores : Sparse Core
  /-- Contexts by core × 16 + context. -/
  ctxs : Sparse Ctx
  /-- Device watchdog. -/
  wdog : Wdog
  /-- DRAM bytes: channel × 2^36 + offset in the channel. -/
  mem : List Host.Cell
  /-- DRAM lines stored with the poison mark, by (channel × 2^36 + offset) / 64. -/
  badLines : Sparse Bool
  /-- DRAM channels. -/
  chans : Sparse DmcChan
  /-- Entries of the repeat table, oldest first, with the TCLK count of their write-back (R301). -/
  repeatAge : List (Nat × Nat)
  /-- TCLK from boundary 0 to the last boundary. -/
  tclk : Nat
  /-- The EMIT_EN pins. -/
  emitEn : Word
  /-- The AIN conversions sampled at the last boundary. -/
  ain : List Nat
  /-- Rising edges of SPT_PULSE[c] in the last 1,024 Stitches, newest first, for c from 0 to 7 (R192). -/
  spt : List (List Nat)
  /-- Awls by slot. -/
  awls : Sparse Awl
  /-- Reins by slot. -/
  reins : Sparse Rein
  /-- Hide map. -/
  hide : Hide
  /-- Tree. -/
  tree : Tree
  /-- Axis engines by number. -/
  axes : Sparse Axis
  /-- Skiver. -/
  skiver : Skiver
  /-- Camera sources by pipe × 8 + source; source 4 is the bed camera. -/
  cams : Sparse Cam
  /-- The bed capture. -/
  bed : BedRun
  /-- Latigo lanes by number. -/
  lanes : Sparse Lane
  /-- The board equalisation table in the parameter store, by index; 0xFFFF_FFFF marks a missing entry (R322). -/
  board : Sparse Word
  /-- Time block. -/
  time : TimeBlock
  /-- Field-bus segments. -/
  segs : Sparse Segment
  /-- Ethernet ports. -/
  eths : Sparse Eth
  /-- Lamp drive. -/
  lamp : Lamp
  /-- Power manager. -/
  power : Power
  /-- Thermal block. -/
  therm : Therm
  /-- Calibration engine. -/
  cal : Cal
  /-- Burnish. -/
  burn : Burn
  /-- Presence, secrets and images. -/
  sec : Sec
  /-- Harness. -/
  harn : Harn
  /-- Whether STCH_MARK pulses at the last boundary. -/
  mark : Bool
  deriving DecidableEq, Repr

/-- The machine right after reset. -/
def State.reset : State :=
  { part := .bf9632x
    pending := []
    stitch := 0
    regs := []
    staged := []
    cmds := []
    holds := []
    readData := 0
    resp := Resp.none
    msix := []
    fresh := 0
    sb := Saddle.empty
    cores := [(32, Core.boot)]
    ctxs := []
    wdog := ⟨0, false, false⟩
    mem := []
    badLines := []
    chans := []
    repeatAge := []
    tclk := 0
    emitEn := 0
    ain := []
    spt := []
    awls := []
    reins := []
    hide := Hide.atReset
    tree := Tree.atReset
    axes := []
    skiver := Skiver.atReset
    cams := []
    bed := BedRun.none
    lanes := []
    board := []
    time := TimeBlock.atReset
    segs := []
    eths := []
    lamp := Lamp.atReset
    power := Power.atReset
    therm := Therm.atReset
    cal := Cal.atReset
    burn := Burn.idle
    sec := Sec.atReset
    harn := Harn.atReset
    mark := false
  }

end Sys2Proof.Machine
end

