-- ==== Sys2Proof/Machine/Ops.lean ====
section
/-! DEFINITION. The named operations over registers, streams and event queues. Every meaning reads and writes through
these: a register's value in force, a field of it, a saturating counter, a push or pop of a Saddlebag queue, an event
packet and an access event. -/

namespace Sys2Proof.Machine

/-! ## Bits of a word -/

/-- A number held by two registers, the high half first. -/
def pair64 (hi lo : Word) : Nat := 2 ^ 32 * hi.toNat + lo.toNat

/-- Mebibytes in bytes. -/
def mib (n : Nat) : Nat := 2 ^ 20 * n

/-- Ones in bits hi to lo. -/
def bitMask (hi lo : Nat) : Word := w32 (2 ^ (hi + 1 - lo) - 1) <<< lo

/-- Bits hi to lo of a word. -/
def getBits (w : Word) (hi lo : Nat) : Nat := ((w >>> lo) &&& w32 (2 ^ (hi + 1 - lo) - 1)).toNat

/-- The word with bits hi to lo replaced by the low bits of `v`. -/
def putBits (w : Word) (hi lo v : Nat) : Word :=
  (w &&& ~~~(bitMask hi lo)) ||| ((w32 v <<< lo) &&& bitMask hi lo)

/-! ## Registers (R8, R9) -/

/-- The value in force of the register at a BAR0 offset. -/
def State.reg (s : State) (a : Nat) : Word := sget (resetWord s.part a) s.regs a

/-- The state with a register's value in force replaced. -/
def State.setReg (s : State) (a : Nat) (w : Word) : State :=
  { s with regs := sset (resetWord s.part a) s.regs a w }

/-- A field's value. -/
def State.fld (s : State) (f : Fld) : Nat := getBits (s.reg f.addr) f.hi f.lo

/-- A one-bit field as a Boolean. -/
def State.flag (s : State) (f : Fld) : Bool := s.fld f != 0

/-- The state with a field replaced. -/
def State.setFld (s : State) (f : Fld) (v : Nat) : State :=
  s.setReg f.addr (putBits (s.reg f.addr) f.hi f.lo v)

/-- The largest value a field can hold. -/
def Fld.top (f : Fld) : Nat := 2 ^ (f.hi + 1 - f.lo) - 1

/-- One more in a counter field, which saturates. -/
def State.bump (s : State) (f : Fld) : State := s.setFld f (satInc f.top (s.fld f))

/-- `n` more in a counter field, which saturates. -/
def State.bumpBy (s : State) (f : Fld) (n : Nat) : State := s.setFld f (min f.top (s.fld f + n))

/-- The value a read of an sh register returns: the written value at once (R11). -/
def State.written (s : State) (a : Nat) : Word :=
  match sget none s.staged a with
  | some w => w
  | none => s.reg a

/-- The state with an sh register's written value waiting for its commit (R36). -/
def State.stage (s : State) (a : Nat) (w : Word) : State := { s with staged := sset none s.staged a (some w) }

/-- A field's last written value. -/
def State.writtenFld (s : State) (f : Fld) : Nat := getBits (s.written f.addr) f.hi f.lo

/-- The state with a command register write waiting for the next boundary (R36). -/
def State.addCmd (s : State) (a : Nat) (w : Word) : State := { s with cmds := s.cmds ++ [(a, w)] }

/-- Bits [31:0] of the current Stitch. -/
def State.stitchLo (s : State) : Word := s.stitch.truncate 32

/-- The Stitch count as a number. -/
def State.now (s : State) : Nat := s.stitch.toNat

/-- The Stitch period in TCLK. -/
def State.period (s : State) : Nat := s.fld F.STCH_PERIOD_TCLKS

/-- CCLK cycles of one Stitch (R18). -/
def State.cycles (s : State) : Nat := 5 * s.period

/-- The next free value. -/
def State.free (s : State) : Word := Config.freeWord s.fresh

/-- The counter after a free value was taken. -/
def State.tookFree (s : State) : State := { s with fresh := s.fresh + 1 }

/-- Words that the digest of the present Stitch covers, kept while the harness is enabled (R429). -/
def State.covers (s : State) (ws : List Word) : State :=
  if s.flag F.HARN_CFG_ENABLE then { s with harn := { s.harn with covered := s.harn.covered ++ ws } } else s

/-! ## Units by number -/

/-- A core's state. -/
def State.core (s : State) (k : Nat) : Core := sget Core.idle s.cores k

/-- The state with a core's replaced. -/
def State.setCore (s : State) (k : Nat) (c : Core) : State := { s with cores := sset Core.idle s.cores k c }

/-- A context's state. -/
def State.ctx (s : State) (core c : Nat) : Ctx := sget Ctx.atReset s.ctxs (16 * core + c)

/-- The state with a context's replaced. -/
def State.setCtx (s : State) (core c : Nat) (x : Ctx) : State :=
  { s with ctxs := sset Ctx.atReset s.ctxs (16 * core + c) x }

/-! ## Streams (R262 to R276) -/

/-- The key of the stream that a handle's NUMBER and KIND name; none when a zero field is not zero or GEN is 0. -/
def handleKey (h : Word) : Option Nat :=
  if getBits h 31 24 = 0 ∨ getBits h 23 14 ≠ 0 ∨ getBits h 12 12 ≠ 0 then none
  else some (4096 * getBits h 13 13 + getBits h 11 0)

/-- The handle of a stream by its key and generation. -/
def mkHandle (key gen : Nat) : Word := w32 (gen * 2 ^ 24 + (key / 4096) * 2 ^ 13 + key % 4096)

/-- The stream at a key. -/
def State.stream (s : State) (key : Nat) : Stream := sget Stream.never s.sb.streams key

/-- Whether a key is a queue's. -/
def isQueue (key : Nat) : Bool := key < 4096

/-- The live stream a handle names (R262). -/
def State.named (s : State) (h : Word) : Option Nat :=
  match handleKey h with
  | none => none
  | some key =>
    let str := s.stream key
    if str.live ∧ str.gen = getBits h 31 24 then some key else none

/-- The live queue a handle names. -/
def State.namedQueue (s : State) (h : Word) : Option Nat :=
  match s.named h with
  | some key => if isQueue key then some key else none
  | none => none

/-- The live buffer a handle names. -/
def State.namedBuffer (s : State) (h : Word) : Option Nat :=
  match s.named h with
  | some key => if isQueue key then none else some key
  | none => none

/-- Committed words not yet popped. -/
def Stream.depth (q : Stream) : Nat := q.words.length

/-- Words of every open packet. -/
def openWords : List OpenPkt → Nat
  | [] => 0
  | o :: os => o.words.length + openWords os

/-- Committed words and the words of open packets (R270). -/
def Stream.occupancy (q : Stream) : Nat := q.depth + openWords q.opens

/-- The state with a stream replaced, and its number's SB_Q_STATUS brought up to date. -/
def State.setStream (s : State) (key : Nat) (str : Stream) : State :=
  let s' := { s with sb := { s.sb with streams := sset Stream.never s.sb.streams key str } }
  if isQueue key then
    ((s'.setFld (F.SB_Q_STATUS_OCCUPANCY key) (if str.live then str.occupancy else 0)).setFld
      (F.SB_Q_STATUS_LIVE key) (bitNat str.live)).setFld (F.SB_Q_STATUS_SPILL key) (bitNat (str.live && str.spill))
  else s'

/-- The words of a producer's open packet. -/
def findOpen (p : Nat) : List OpenPkt → Option (List PWord)
  | [] => none
  | o :: os => if o.producer = p then some o.words else findOpen p os

/-- The open packets without a producer's. -/
def dropOpen (p : Nat) (os : List OpenPkt) : List OpenPkt := os.filter fun o => o.producer != p

/-- The open packets with a word added to a producer's. -/
def addOpen (p : Nat) (w : PWord) : List OpenPkt → List OpenPkt
  | [] => [⟨p, [w]⟩]
  | o :: os => if o.producer = p then { o with words := o.words ++ [w] } :: os else o :: addOpen p w os

/-- A packet's words as they lie in the queue. -/
def packetWords : List PWord → List QWord
  | [] => []
  | [w] => [⟨w, true⟩]
  | w :: ws => ⟨w, false⟩ :: packetWords ws

/-- Words of one page. -/
def pageWords : Nat := 1024

/-- Words in the tail window of a spill queue: all that are neither in DRAM nor in the head window, where the first
`win` pages of words count as the head window while none are in DRAM (R266). -/
def Stream.tailWords (q : Stream) : Nat :=
  if q.dramWords = 0 then q.occupancy - min q.depth (q.win * pageWords)
  else q.occupancy - q.headWords - q.dramWords

/-- Words in the head window of a spill queue: the oldest `win` pages while none are in DRAM (R266). -/
def Stream.head (q : Stream) : Nat := if q.dramWords = 0 then min q.depth (q.win * pageWords) else q.headWords

/-- Whether a push must wait for a move: the tail window is full (R266). -/
def Stream.pushWaits (q : Stream) : Bool := q.spill && decide (q.win * pageWords ≤ q.tailWords)

/-- Whether a pop must wait for a move: the head window is empty and committed words lie in DRAM (R266). -/
def Stream.popWaits (q : Stream) : Bool := q.spill && q.headWords == 0 && q.dramWords != 0

/-- The outcome of an operation on a queue: the queue after it, the code of R269 and the word a pop delivers. -/
structure QueueResult where
  /-- The queue. -/
  q : Stream
  /-- 0 OK, 1 EMPTY, 2 REFUSED, 3 ABORTED, 4 DISCARDED, 5 ZERO_LEN. -/
  code : Nat
  /-- The word popped. -/
  word : Option QWord
  /-- Words counted in FLUSH_DROP. -/
  dropped : Nat

/-- Whether a queue is full for a producer: its occupancy has reached SIZE, or 16 other packets are open (R270). -/
def Stream.fullFor (q : Stream) (p : Nat) : Bool :=
  decide (q.size ≤ q.occupancy) || ((findOpen p q.opens).isNone && decide (16 ≤ q.opens.length))

/-- A push of one word by a producer, the end word when `last` (R53, R64, R270, R275). -/
def Stream.push (q : Stream) (p : Nat) (w : PWord) (last : Bool) : QueueResult :=
  if q.cut.contains p then
    if last then ⟨{ q with cut := q.cut.filter (· != p) }, 3, none, 1⟩
    else ⟨q, 4, none, 1⟩
  else if q.fullFor p then ⟨q, 2, none, 0⟩
  else if last then
    let ws := ((findOpen p q.opens).getD []) ++ [w]
    ⟨{ q with opens := dropOpen p q.opens, words := q.words ++ packetWords ws }, 0, none, 0⟩
  else ⟨{ q with opens := addOpen p w q.opens }, 0, none, 0⟩

/-- The words of a packet pushed by a producer, each a push of its own and the last the end word (R271). -/
def Stream.pushAll (q : Stream) (p : Nat) : List PWord → Stream
  | [] => q
  | [w] => (q.push p w true).q
  | w :: ws => Stream.pushAll (q.push p w false).q p ws

/-- A producer marks its open packet bad (R53, R64, R274). -/
def Stream.markBad (q : Stream) (p : Nat) : QueueResult :=
  if q.cut.contains p then ⟨{ q with cut := q.cut.filter (· != p) }, 0, none, 0⟩
  else if (findOpen p q.opens).isSome then ⟨{ q with opens := dropOpen p q.opens }, 0, none, 0⟩
  else ⟨q, 5, none, 0⟩

/-- A pop of the next word of the oldest committed packet (R53, R271). -/
def Stream.pop (q : Stream) : QueueResult :=
  match q.words with
  | [] => ⟨q, 1, none, 0⟩
  | w :: ws =>
    ⟨{ q with words := ws, popped := q.popped + 1, headWords := if q.dramWords = 0 then 0 else q.headWords - 1 }, 0, some w, 0⟩

/-- A flush: every committed word goes and every open packet is rewound (R275). -/
def Stream.flush (q : Stream) : Stream :=
  { q with words := [], opens := [], cut := q.cut ++ (q.opens.map fun o => o.producer), dramWords := 0, headWords := 0 }

/-- One MSI-X signal on a vector (R273, R329): a masked vector sets its pending bit; another sends at most one message in
a Stitch. -/
def State.signal (s : State) (vec : Nat) : State :=
  if s.flag (F.PCIE_MSIX_CTRL_MASK vec) then
    s.setReg (R.PCIE_MSIX_PBA (vec / 32)) (s.reg (R.PCIE_MSIX_PBA (vec / 32)) ||| w32 (2 ^ (vec % 32)))
  else if s.msix.contains vec then s
  else { s with msix := vec :: s.msix }

/-- A refusal counted in its requester's SB_REQ_REFUSED; requester numbers from 256 up stand for pushes that R269 gives no
requester. -/
def State.countRefused (s : State) (req : Nat) : State :=
  if req < 256 then s.bump (F.SB_REQ_REFUSED_COUNT req) else s

/-- The state after a queue operation but for its threshold: the queue, its counters and its requester's. -/
def State.counted (s : State) (req key : Nat) (r : QueueResult) : State :=
  let s1 := s.setStream key r.q
  let s2 := if r.dropped = 0 then s1 else s1.bumpBy (F.SB_Q_ERRS_FLUSH_DROP key) r.dropped
  if r.code = 2 then (s2.bump (F.SB_Q_REFUSED_COUNT key)).countRefused req else s2

/-- The state with an operation of a spill queue waiting for the spill engine (R266). -/
def State.addWait (s : State) (w : SpillWait) : State := { s with sb := { s.sb with waits := s.sb.waits ++ [w] } }

/-- Whether a producer's push waits for the spill engine: words of its own wait already, or the tail window is full
(R266). -/
def State.pushHeld (s : State) (key p : Nat) : Bool :=
  let q := s.stream key
  (s.sb.waits.any fun w => w.key == key && (w.push.map fun x => x.1) == some p)
    || (q.pushWaits && !q.cut.contains p && !q.fullFor p)

/-- Whether a pop waits for the spill engine: another pop waits already, or the head window is empty while committed words
lie in DRAM (R266). -/
def State.popHeld (s : State) (key : Nat) : Bool :=
  (s.stream key).popWaits || s.sb.waits.any fun w => w.key == key && w.push.isNone

/-- The words of a packet pushed into a spill queue one by one, each waiting where it must. -/
def State.landAll (s : State) (req key p : Nat) : List PWord → State
  | [] => s
  | w :: ws =>
    let s1 :=
      if s.pushHeld key p then s.addWait ⟨key, req, none, some (p, w, ws.isEmpty)⟩
      else s.counted req key ((s.stream key).push p w ws.isEmpty)
    State.landAll s1 req key p ws

/-- The producer number of the packets that the device pushes for a requester on its own account. -/
def deviceProducer (req : Nat) : Nat := 5000 + req

/-- A packet pushed word by word without a threshold of its own; refused and counted when the queue has no room for all
of it or no free open packet (R92, R269, R271). -/
def State.pushQuiet (s : State) (req key : Nat) (ws : List PWord) : State :=
  let q := s.stream key
  if ws.length + q.occupancy ≤ q.size ∧ q.opens.length < 16 then
    if q.spill then s.landAll req key (deviceProducer req) ws else s.setStream key (q.pushAll (deviceProducer req) ws)
  else (s.bump (F.SB_Q_REFUSED_COUNT key)).countRefused req

/-- Whether a queue's depth has come to exceed LEVEL, which it did not at depth `before` (R273). -/
def State.crossed (s : State) (key before : Nat) : Bool :=
  let level := min (s.fld (F.SB_Q_CFG_LEVEL key)) (s.stream key).size
  level != 0 && decide (before ≤ level) && decide (level < (s.stream key).depth)

/-- THRESHOLD's bit, and its vector where VEC_EN is 1 (R273). -/
def State.markThreshold (s : State) (key before : Nat) : State :=
  if s.crossed key before then
    let s1 := s.setFld (F.SB_Q_STATUS_THR key) 1
    if s1.flag (F.SB_Q_CFG_VEC_EN key) then s1.signal (s1.fld (F.SB_Q_CFG_VEC key)) else s1
  else s

/-- The THRESHOLD of R273 after an operation that found the depth `before`: its bit, its vector and the event packet of R280.
An event about SB_EVQ's own queue is not pushed; the packet can lift that queue above its own LEVEL. -/
def State.threshold (s : State) (key before : Nat) : State :=
  if s.crossed key before then
    let s1 := s.markThreshold key before
    match s1.namedQueue (s1.reg R.SB_EVQ) with
    | some ek =>
      if ek = key then s1
      else (s1.pushQuiet 256 ek [PWord.clean (w32 (0x01 * 2 ^ 24 + key)), PWord.clean (w32 (s1.stream key).depth),
        PWord.clean s1.stitchLo]).markThreshold ek (s1.stream ek).depth
    | none => s1
  else s

/-- An event packet pushed into the queue a handle names, dropped and counted under R92. `req` is the requester of R269
that pushes it. -/
def State.pushEvent (s : State) (req : Nat) (h : Word) (ws : List Word) : State :=
  match s.namedQueue h with
  | none => s
  | some key => (s.pushQuiet req key (ws.map PWord.clean)).threshold key (s.stream key).depth

/-- As pushEvent, for words that may be poisoned. -/
def State.pushWords (s : State) (req : Nat) (h : Word) (ws : List PWord) : State :=
  match s.namedQueue h with
  | none => s
  | some key => (s.pushQuiet req key ws).threshold key (s.stream key).depth

/-- Whether a whole packet of `n` words has room in the queue a handle names. -/
def State.hasRoom (s : State) (h : Word) (n : Nat) : Bool :=
  match s.namedQueue h with
  | none => false
  | some key => decide (n + (s.stream key).occupancy ≤ (s.stream key).size) && decide ((s.stream key).opens.length < 16)

/-- The state after a queue operation: the queue, its counters, what the queue was at the start of the cycle (R272), and its
threshold. -/
def State.applyQueue (s : State) (req key : Nat) (r : QueueResult) : State :=
  let q := s.stream key
  let s1 := s.counted req key r
  ({ s1 with sb := { s1.sb with cycle := some (key, q.depth == 0, decide (q.size ≤ q.occupancy)) } }).threshold key q.depth

/-- A producer's open packets in every queue marked bad, as a restart or a halt of a context does (R45, R87). -/
def badEverywhere (p : Nat) : Sparse Stream → List Nat
  | [] => []
  | (key, q) :: m =>
    if isQueue key && (findOpen p q.opens).isSome then key :: badEverywhere p m else badEverywhere p m

/-- The state after a producer's open packets in every queue were marked bad (R45, R274). -/
def State.dropPackets (s : State) (p : Nat) : State :=
  (badEverywhere p s.sb.streams).foldl (fun s key => s.setStream key ((s.stream key).markBad p).q) s

/-- The byte address within the Saddlebag of a word of a stream, by word offset in its pages (R261). -/
def State.placeOfWord (s : State) (key off : Nat) : Nat :=
  let str := s.stream key
  str.pages.getD (off / pageWords % max 1 str.pages.length) 0 * 4096 + off % pageWords * 4

/-- The bank of a Saddlebag byte address (R261). -/
def bankOf (a : Nat) : Nat := a / 2 ^ 20

/-- An event packet of the Saddlebag (R280). -/
def State.sbEvent (s : State) (code low : Nat) (w1 : Word) : State :=
  s.pushEvent 256 (s.reg R.SB_EVQ) [w32 (code * 2 ^ 24 + low), w1, s.stitchLo]

/-- Whether a buffer holds the Hide map's grid: its words then lie in the map's cells (R144). -/
def State.isGrid (s : State) (key : Nat) : Bool := s.hide.grid != 0 && handleKey s.hide.grid == some key

/-- Cells of the grid. -/
def State.gridCells (s : State) : Nat := s.fld F.HIDE_GRID_WIDTH * s.fld F.HIDE_GRID_HEIGHT

/-- A word of a buffer, by word offset; of the grid two cells, low half first, in row-major order (R144). -/
def State.bufWord (s : State) (key off : Nat) : PWord :=
  let w := sget (PWord.clean 0) (s.stream key).data off
  if s.isGrid key then
    let half := fun k hi lo => if k < s.gridCells then sget s.hide.fill s.hide.cells k else getBits w.val hi lo
    { w with val := w32 (half (2 * off) 15 0 + half (2 * off + 1) 31 16 * 2 ^ 16) }
  else w

/-- A cell of the grid set; past the last one nothing is. -/
def State.setGridCell (s : State) (k v : Nat) : State :=
  if k < s.gridCells then { s with hide := { s.hide with cells := sset s.hide.fill s.hide.cells k v } } else s

/-- The state with a buffer word replaced. -/
def State.setBufWord (s : State) (key off : Nat) (w : PWord) : State :=
  let str := s.stream key
  let s1 := s.setStream key { str with data := sset (PWord.clean 0) str.data off w }
  if s.isGrid key then
    (s1.setGridCell (2 * off) (getBits w.val 15 0)).setGridCell (2 * off + 1) (getBits w.val 31 16)
  else s1

/-- Consecutive words written to a buffer. -/
def State.setBufWords (s : State) (key off : Nat) : List PWord → State
  | [] => s
  | w :: ws => State.setBufWords (s.setBufWord key off w) key (off + 1) ws

/-- The length in bytes of the buffer a handle names; 0 for none. -/
def State.bufSize (s : State) (h : Word) : Nat :=
  match s.namedBuffer h with
  | some key => (s.stream key).size
  | none => 0

/-! ## The repeat table (R301) -/

/-- An event packet of a DRAM channel (R306): code, its low bits, word 1. `q` is the channel whose EVQ takes it. -/
def State.dmcEvent (s : State) (q code c low w1 : Nat) : State :=
  s.pushEvent (8 * (24 + 2 * q)) (s.reg (R.DMC_EVQ q)) [w32 (code * 2 ^ 24 + c * 2 ^ 16 + low), w32 w1, s.stitchLo]

/-- Whether entry `k` of the repeat table holds an address: SRC, channel and address. -/
def State.repeatIs (s : State) (src c a k : Nat) : Bool :=
  let info := s.reg (R.DMC_REPEAT_INFO 0 k)
  getBits info 31 31 == 1 && getBits info 29 29 == src && getBits info 28 28 == c
    && (s.reg (R.DMC_REPEAT 0 k)).toNat == a % 2 ^ 32

/-- Whether entry `k` of the repeat table is VALID. -/
def State.repeatValid (s : State) (k : Nat) : Bool := getBits (s.reg (R.DMC_REPEAT_INFO 0 k)) 31 31 == 1

/-- Whether entry `k` of the repeat table is STICKY. -/
def State.repeatSticky (s : State) (k : Nat) : Bool := getBits (s.reg (R.DMC_REPEAT_INFO 0 k)) 30 30 == 1

/-- Entry `k` of the repeat table taken out. -/
def State.repeatDrop (s : State) (k : Nat) : State :=
  let s1 := (s.setReg (R.DMC_REPEAT_INFO 0 k) 0).setReg (R.DMC_REPEAT 0 k) 0
  { s1 with repeatAge := s1.repeatAge.filter fun e => e.1 != k }

/-- Entry `k` of the repeat table written as a new non-sticky one, written back now. -/
def State.repeatPut (s : State) (k src c a secs : Nat) : State :=
  let s1 := (s.setReg (R.DMC_REPEAT 0 k) (w32 a)).setReg (R.DMC_REPEAT_INFO 0 k)
    (w32 (2 ^ 31 + src * 2 ^ 29 + c * 2 ^ 28 + min secs (2 ^ 24 - 1)))
  { s1 with repeatAge := (s1.repeatAge.filter fun e => e.1 != k) ++ [(k, s1.tclk)] }

/-- Seconds that remain of an entry's interval: the one it was entered with less the time since its write-back. -/
def State.repeatLeft (s : State) (k secs : Nat) : Nat :=
  match s.repeatAge.find? fun e => e.1 == k with
  | none => secs
  | some e => secs - (s.tclk - e.2) / 320000000

/-- A correction entered in the repeat table (R301), and the entry it made sticky, if any. An entry whose interval has ended
counts as gone. -/
def State.correction (s : State) (src c a secs : Nat) : State × Option Nat :=
  if secs = 0 then (s, none)
  else match (List.range 64).find? (s.repeatIs src c a) with
    | some k =>
      if s.repeatSticky k then (s, some k)
      else if s.repeatLeft k (getBits (s.reg (R.DMC_REPEAT_INFO 0 k)) 23 0) = 0 then ((s.repeatDrop k).repeatPut k src c a secs, none)
      else
        let s1 := s.setReg (R.DMC_REPEAT_INFO 0 k) (putBits (s.reg (R.DMC_REPEAT_INFO 0 k)) 30 30 1)
        (s1.dmcEvent 0 0x03 c 0 a, some k)
    | none =>
      match (List.range 64).find? (fun k => !s.repeatValid k) with
      | some k => (s.repeatPut k src c a secs, none)
      | none =>
        match s.repeatAge.find? (fun e => !s.repeatSticky e.1) with
        | some e => ((s.repeatDrop e.1).repeatPut e.1 src c a secs, none)
        | none => ((s.bump (F.DMC_REPEAT_FULL_COUNT 0)).dmcEvent 0 0x09 c 0 0, none)

/-! ## Stored words (R277, R278) -/

/-- A list with the entry at a place changed. -/
def modifyNth {α : Type} (f : α → α) : Nat → List α → List α
  | _, [] => []
  | 0, x :: xs => f x :: xs
  | n + 1, x :: xs => x :: modifyNth f n xs

/-- The words of open packets with the one at a place changed, counting through them in order. -/
def modifyOpen (f : PWord → PWord) : Nat → List OpenPkt → List OpenPkt
  | _, [] => []
  | n, o :: os =>
    if n < o.words.length then { o with words := modifyNth f n o.words } :: os
    else o :: modifyOpen f (n - o.words.length) os

/-- Where a word offset of a queue's ring lies among its committed words and then its open packets. -/
def Stream.placeIn (q : Stream) (off : Nat) : Nat :=
  let cap := max 1 (q.pages.length * pageWords)
  (off + cap - q.popped % cap) % cap

/-- The word of a queue at a word offset of its ring; a clean zero where none is stored. -/
def Stream.ringWord (q : Stream) (off : Nat) : PWord :=
  let n := q.placeIn off
  if n < q.words.length then (q.words.getD n ⟨PWord.clean 0, false⟩).word
  else ((q.opens.flatMap fun o => o.words).getD (n - q.words.length) (PWord.clean 0))

/-- The queue with the word at an offset of its ring changed. -/
def Stream.setRing (q : Stream) (off : Nat) (f : PWord → PWord) : Stream :=
  let n := q.placeIn off
  if n < q.words.length then { q with words := modifyNth (fun x => { x with word := f x.word }) n q.words }
  else { q with opens := modifyOpen f (n - q.words.length) q.opens }

/-- The stored word at a word offset of a stream. -/
def State.wordIn (s : State) (key off : Nat) : PWord :=
  if isQueue key then (s.stream key).ringWord off else s.bufWord key off

/-- The stored word at a word offset of a stream changed. -/
def State.changeIn (s : State) (key off : Nat) (f : PWord → PWord) : State :=
  if isQueue key then s.setStream key ((s.stream key).setRing off f) else s.setBufWord key off (f (s.bufWord key off))

/-- The live stream that holds a page, with the page's place in it. -/
def pageOwner (page : Nat) : Sparse Stream → Option (Nat × Nat)
  | [] => none
  | (key, str) :: m =>
    if str.live then
      match str.pages.findIdx? (· == page) with
      | some i => some (key, i)
      | none => pageOwner page m
    else pageOwner page m

/-- The Saddlebag byte address of the 64-bit word that holds a word of a stream (R261). -/
def State.place64 (s : State) (key off : Nat) : Nat := s.placeOfWord key off / 8 * 8

/-- A single-bit error of the 64-bit word at a Saddlebag byte address corrected (R277, R278): counted in its bank and, for a
queue word, in the queue; entered in the repeat table; a sticky word remapped to a spare of its bank, or SPARE_OUT raised
once. -/
def State.sbCorrected (s : State) (key a : Nat) : State :=
  let b := bankOf a
  let s0 := s.bump (F.SB_BANK_CE_COUNT b)
  let s1 := if isQueue key then s0.bump (F.SB_Q_ERRS_CE key) else s0
  match s1.correction 0 0 a (s1.reg R.SB_SCRUB_INT).toNat with
  | (s2, none) => s2
  | (s2, some k) =>
    let used := s2.fld (F.SB_BANK_SPARE_COUNT b)
    if used < 64 then
      let s3 := (s2.setFld (F.SB_BANK_SPARE_COUNT b) (used + 1)).repeatDrop k
      ({ s3 with sb := { s3.sb with remaps := s3.sb.remaps ++ [a] } }).sbEvent 0x03 b (w32 a)
    else if s2.sb.spareOut.contains b then s2
    else ({ s2 with sb := { s2.sb with spareOut := s2.sb.spareOut ++ [b] } }).sbEvent 0x04 b (w32 a)

/-- A double-bit error of the 64-bit word at a Saddlebag byte address: counted in its bank, and SB_UE (R277). -/
def State.sbUncorrectable (s : State) (a : Nat) : State :=
  (s.bump (F.SB_BANK_UE_COUNT (bankOf a))).sbEvent 0x02 (bankOf a) (w32 a)

/-- The worse of two errors. -/
def worseError : WordError → WordError → WordError
  | .double, _ => .double
  | _, .double => .double
  | .single, _ => .single
  | _, .single => .single
  | .clean, .clean => .clean

/-- What a read of a stored word delivers and leaves (R277). The check covers the 64-bit word: an error of either half
corrects or poisons both. `w` is the half that is read; the half beside it is written back here. -/
def State.checkWord (s : State) (key off : Nat) (w : PWord) : State × PWord :=
  match worseError w.err (s.wordIn key (off ^^^ 1)).err with
  | .clean => (s, w)
  | .single =>
    let s1 := s.changeIn key (off ^^^ 1) fun x => { x with err := .clean }
    (s1.sbCorrected key (s.place64 key off), { w with err := .clean })
  | .double =>
    let s1 := s.changeIn key (off ^^^ 1) fun x => { x with poison := true, err := .clean }
    (s1.sbUncorrectable (s.place64 key off), { w with poison := true, err := .clean })

/-- A word of a buffer read through its check and written back where that changed it (R277). -/
def State.readBuf (s : State) (key off : Nat) : State × PWord :=
  let r := s.checkWord key off (s.bufWord key off)
  if r.2 = s.bufWord key off then r else (r.1.setBufWord key off r.2, r.2)

/-- Consecutive words of a buffer read through their checks. -/
def State.readBufs (s : State) (key off : Nat) : Nat → State × List PWord
  | 0 => (s, [])
  | n + 1 =>
    let r := s.readBuf key off
    let t := State.readBufs r.1 key (off + 1) n
    (t.1, r.2 :: t.2)

/-- Words `off` to `off + n - 1` of a buffer as their checks deliver them. -/
def State.bufWords (s : State) (key off : Nat) : Nat → List PWord
  | 0 => []
  | n + 1 => (s.checkWord key off (s.bufWord key off)).2 :: State.bufWords s key (off + 1) n

/-- What a device block's read of the first `n` words of a buffer leaves behind (R277). -/
def State.useBuf (s : State) (h : Word) (n : Nat) : State :=
  match s.namedBuffer h with
  | some key => (s.readBufs key 0 n).1
  | none => s

/-! ## Requests of queues (R266, R269, R272) -/

/-- Marks DELAYED in a requester's counter when it was served late (R269). -/
def State.countDelayed (s : State) (req : Nat) (delayed : Bool) : State :=
  if delayed ∧ req < 256 then s.bump (F.SB_REQ_DELAYED_COUNT req) else s

/-- SB_APER_QST of an aperture (R46, R279). -/
def State.setAperQst (s : State) (a code : Nat) (eop poison : Bool) : State :=
  s.setReg (R.SB_APER_QST a) (w32 (32 * bitNat poison + 16 * bitNat eop + code))

/-- A request's outcome delivered to its requester (R269), and to the aperture it came through (R279). -/
def State.respond (s : State) (w : SpillWait) (code : Nat) (delayed eop poison : Bool) (ws : List Word) : State :=
  let s1 := s.countDelayed w.req delayed
  let s2 := { s1 with resp := ⟨w.req, code, delayed, eop, poison, ws⟩ }
  match w.aper with
  | none => s2
  | some a =>
    let s3 := s2.setAperQst a code eop poison
    if w.push.isNone then { s3 with readData := ws.getD 0 0 } else s3

/-- Whether a queue was full at the start of the cycle of the last operation on it (R272). -/
def State.startFull (s : State) (key : Nat) : Bool :=
  match s.sb.cycle with
  | some (k, _, full) => k == key && full
  | none => false

/-- Whether a queue held no committed word at the start of the cycle of the last operation on it (R272). -/
def State.startEmpty (s : State) (key : Nat) : Bool :=
  match s.sb.cycle with
  | some (k, empty, _) => k == key && empty
  | none => false

/-- A push or a pop by a block requester or an aperture: it waits where the spill engine must move a page first (R266), else
it acts and its outcome is delivered. `same` says that it acts in the cycle of the operation before it, which judges it on
the state at that cycle's start (R272). -/
def State.request (s : State) (w : SpillWait) (same delayed : Bool) : State :=
  let q := s.stream w.key
  let keep (t : State) : State := if same then { t with sb := { t.sb with cycle := s.sb.cycle } } else t
  if q.absent then
    if w.push.isNone ∧ w.aper.isSome then (s.respond w 6 delayed false false [s.free]).tookFree
    else s.respond w 6 delayed false false []
  else match w.push with
    | some (p, x, last) =>
      if s.pushHeld w.key p then s.addWait w
      else
        let r := if same ∧ s.startFull w.key ∧ !q.cut.contains p then ⟨q, 2, none, 0⟩ else q.push p x last
        (keep (s.applyQueue w.req w.key r)).respond w r.code delayed false false []
    | none =>
      if s.popHeld w.key then s.addWait w
      else
        let r := if same ∧ s.startEmpty w.key then ⟨q, 1, none, 0⟩ else q.pop
        let s1 := keep (s.applyQueue w.req w.key r)
        match r.word with
        | none => s1.respond w r.code delayed false false []
        | some v =>
          let c := s1.checkWord w.key q.popped v.word
          c.1.respond w 0 delayed v.last c.2.poison [c.2.val]

/-- The operations that wait on a queue served as far as they can be, in their order, each reported DELAYED (R266). -/
def State.serveWaits (s : State) (key : Nat) : State :=
  let mine := s.sb.waits.filter fun w => w.key == key
  mine.foldl (fun (t : State) w => t.request w false true)
    { s with sb := { s.sb with waits := s.sb.waits.filter fun w => w.key != key } }

/-- A flush of a queue by its key, with its FLUSHED bit (R275). -/
def State.flushQueue (s : State) (key : Nat) : State :=
  ((s.setStream key (s.stream key).flush).setFld (F.SB_Q_STATUS_FLUSHED key) 1).serveWaits key

/-- A flush of the queue a handle names; nothing when it names none. -/
def State.flushHandle (s : State) (h : Word) : State :=
  match s.namedQueue h with
  | none => s
  | some key => s.flushQueue key

/-- Whether a packet waits in the queue a handle names. -/
def State.packetWaits (s : State) (h : Word) : Bool :=
  match s.namedQueue h with
  | none => false
  | some key => decide ((s.stream key).depth ≠ 0)

/-- The requester number of a core (R269). -/
def coreReq (core : Nat) : Nat := 128 + core / 5 * 8 + core % 5

/-! ## Access events (R22) -/

/-- The source bits of word 0 of R22. -/
def srcCode : Source → Nat
  | .host => 0
  | .core _ _ => 1
  | .action => 2
  | .device => 3

/-- The core and context of a source. -/
def srcCore : Source → Nat
  | .core k _ => k
  | _ => 0

/-- The context of a source. -/
def srcCtx : Source → Nat
  | .core _ c => c
  | _ => 0

/-- The number of a BAR. -/
def barNum : Bar → Nat
  | .b0 => 0
  | .b2 => 2
  | .b4 => 4

/-- ACCESS_EVENT_RECORD (R22): the first event since the last clear is latched, later ones advance COUNT, and the
packet goes to SYS_EVQ. Codes: 1 ABSENT_UNIT, 2 UNMAPPED, 3 BUSY_WRITE, 4 WDOG_WARN. -/
def State.accessEvent (s : State) (code : Nat) (src : Source) (bar : Bar) (off : BitVec 64) : State :=
  let s1 :=
    if s.flag F.SYS_ACC_INFO_VALID then s.bump F.SYS_ACC_INFO_COUNT
    else
      ((s.setReg R.SYS_ACC_INFO (w32 (2 ^ 31 + code * 2 ^ 24 + srcCode src * 2 ^ 22 + srcCore src % 64 * 2 ^ 16
          + srcCtx src % 16 * 2 ^ 12 + 1 * 2 ^ 4 + barNum bar))).setReg R.SYS_ACC_ADDR_LO (off.truncate 32)).setReg
        R.SYS_ACC_ADDR_HI ((off >>> 32).truncate 32)
  s1.pushEvent 256 (s1.reg R.SYS_EVQ)
    [w32 (code * 2 ^ 24 + srcCode src * 2 ^ 22 + srcCore src % 64 * 2 ^ 16 + srcCtx src % 16 * 2 ^ 8 + barNum bar),
      off.truncate 32, (off >>> 32).truncate 32, s1.stitchLo]

/-- BUSY_WRITE for a register (R37). -/
def State.busyWrite (s : State) (src : Source) (a : Nat) : State := s.accessEvent 3 src .b0 (BitVec.ofNat 64 a)

/-- ABSENT_UNIT for a BAR0 offset (R4). -/
def State.absentAccess (s : State) (src : Source) (a : Nat) : State := s.accessEvent 1 src .b0 (BitVec.ofNat 64 a)

/-- UNMAPPED for an offset of a BAR (R21). -/
def State.unmapped (s : State) (src : Source) (bar : Bar) (off : BitVec 64) : State := s.accessEvent 2 src bar off

/-- What a read of a hole or of an absent unit returns (R4, R21). -/
def deadWord : Word := 0xDEAD0000

/-- A supervision event of a core (R91): CODE, the core, the 4-bit detail, the context. -/
def State.superEvent (s : State) (core code detail c : Nat) : State :=
  s.pushEvent (128 + core / 5 * 8 + core % 5) (s.reg (R.TC_SUPQ core))
    [w32 (code * 2 ^ 24 + core * 2 ^ 16 + detail * 2 ^ 8 + c), s.stitchLo]

/-! ## Who may write what (R4, R37, R387, R390, R427) -/

/-- The block codes of R387 whose windows an offset can lie in, with the unit: none where no code restarts it. -/
def restartUnit (a : Nat) : Option (Nat × Nat) :=
  match placeOf a with
  | none => none
  | some pl =>
    match pl.blk with
    | .tc => some (1, pl.unit)
    | .awl => some (2, pl.unit)
    | .rein => some (2, pl.unit)
    | .img => some (3, pl.unit)
    | .axis => if 0x200 ≤ pl.off then none else some (4, pl.unit)
    | .lane => some (5, pl.unit)
    | .dmc => some (6, pl.unit)
    | .hide => some (7, 0)
    | .sb => some (8, 0)
    | .tree => some (9, 0)
    | .pcie => some (0xA, 0)
    | .fbus => if 0x30000 ≤ pl.off ∨ pl.off < 0x10000 then none else some (0xB, pl.off / 0x10000 - 1)
    | .lamp => some (0xC, 0)
    | .cal => some (0xD, 0)
    | _ => none

/-- A unit's clock runs again (R398). -/
def State.ungate (s : State) (code unit : Nat) : State :=
  { s with therm := { s.therm with stopped := s.therm.stopped.filter (· != (code, unit)) } }

/-- Whether a unit is under a block restart, by its code of R387 and its number. -/
def State.restarting (s : State) (code unit : Nat) : Bool := s.power.restarts.contains (code, unit)

/-- The unit that a burnish slice tests: its code of R387 and its number. -/
def sliceUnit (n : Nat) : Nat × Nat := ((Config.sliceUnit n).1.toNat, (Config.sliceUnit n).2.toNat)

/-- Whether the slice that runs tests a unit (R406). -/
def State.underSlice (s : State) (u : Nat × Nat) : Bool :=
  match s.burn.left with
  | some (n :: _) => sliceUnit n == u
  | _ => false

/-- Whether an offset lies in the window of a unit under a block restart, or in that of a slice's (R387, R406). -/
def State.underRestart (s : State) (a : Nat) : Bool :=
  match restartUnit a with
  | some u => s.power.restarts.contains u || s.underSlice u
  | none => false

/-- Whether the core domain is released and clocked. -/
def State.coreUp (s : State) : Bool := s.power.seq == .released

/-- Whether a BAR0 offset is mapped for the host: before boot has completed only the SYS and PWR windows are, and in recovery
the SEC window (R390). -/
def State.mapped (s : State) (a : Nat) : Bool :=
  s.flag F.PWR_STATE_BOOT_DONE || match placeOf a with
    | some pl => pl.blk == .sys || pl.blk == .pwr || (pl.blk == .sec && s.power.recovery)
    | none => false

/-- Whether the unit that an offset belongs to is on the part (R3, R4): the block's unit, and in the lamp window the channel
and the binning matrices; true for an offset in no window. -/
def State.unitThere (s : State) (a : Nat) : Bool :=
  match placeOf a with
  | some pl =>
    s.part.hasUnit pl.blk pl.unit &&
      (pl.blk != .lamp || ((decide (pl.off < 0x200) || decide (0x500 ≤ pl.off) || decide ((pl.off - 0x200) / 16 < s.part.row.lamps))
        && (decide (pl.off < 0x1000) || decide (0x1200 ≤ pl.off) || s.part.row.lampBin)))
  | none => true

/-- Whether the device is the wheel of a pair, or joining one (R426, R427). -/
def State.isWheel (s : State) : Bool :=
  decide (1 ≤ s.fld F.HARN_STATUS_STATE) && decide (s.fld F.HARN_STATUS_STATE ≤ 5)

/-- Whether a wheel takes a host write at an offset: in the HARN and PWR windows only (R427). -/
def wheelTakes (a : Nat) : Bool :=
  match placeOf a with
  | some pl => pl.blk == .harn || pl.blk == .pwr
  | none => false

/-- The state with a host write that waits for the next boundary cycle (R427). -/
def State.forwardAs (s : State) (f : Forwarded) : State := { s with harn := { s.harn with forwards := s.harn.forwards ++ [f] } }

/-- Whether the device leads a wheel that tracks it, so that host writes act one Stitch later on both (R427). -/
def State.leadsPair (s : State) : Bool := s.fld F.HARN_STATUS_STATE == 6 && s.harn.peerTracks

/-! ## Bindings to absent units (R4, R65) -/

/-- Whether the register at a BAR0 offset holds a stream handle in force (R264). -/
def isHandleReg (a : Nat) : Bool :=
  match placeOf a with
  | none => false
  | some pl => match regAt pl.blk pl.off with
    | some r => r.handle
    | none => false

/-- The state with the mark of a queue, named by a handle, that tells whether the unit it was last bound to is absent. -/
def State.markAbsent (s : State) (h : Word) (absent : Bool) : State :=
  match s.namedQueue h with
  | none => s
  | some key =>
    if (s.stream key).absent = absent then s else s.setStream key { s.stream key with absent := absent }

/-- The requester of R269 that a source is: the host's port or a core. -/
def sourceReq : Source → Nat
  | .host => 224
  | .core k _ => coreReq k
  | .action => 251
  | .device => 256

/-- A write in the window of an absent unit (R4): discarded, with its access event. Where the register would hold a handle, it
is a request to bind the stream to the unit: refused with ABSENT_UNIT, and queue operations on that queue answer ABSENT_UNIT
(R65) until it is bound to a unit that is present. -/
def State.absentWrite (s : State) (src : Source) (a : Nat) (val : Word) : State :=
  let s1 := s.absentAccess src a
  if isHandleReg a ∧ val ≠ 0 then
    { (s1.markAbsent val true) with resp := ⟨sourceReq src, 6, false, false, false, []⟩ }
  else s1

/-- A stream bound to the unit whose handle register took the written value. -/
def State.bound (s : State) (a : Nat) (val : Word) : State :=
  if isHandleReg a ∧ s.written a = val then s.markAbsent val false else s

/-- A write of a register's window: what reaches the register is `f`. A window that is not mapped is a hole, a unit the part
lacks takes nothing, a unit under restart and a wheel turn the write away, and at the lead of a pair a host's write waits for
the next boundary. With the core domain down nothing answers. -/
def State.gate (s : State) (src : Source) (a : Nat) (val : Word) (f : State → State) : State :=
  if !s.coreUp then s
  else if src = .host ∧ !s.mapped a then s.unmapped src .b0 (BitVec.ofNat 64 a)
  else if !s.unitThere a then s.absentWrite src a val
  else if src = .host ∧ s.isWheel ∧ !wheelTakes a then s.busyWrite src a
  else if src = .host ∧ s.leadsPair then s.forwardAs (.bar0 (w32 a) val)
  else if s.underRestart a then s.busyWrite src a
  else f s

end Sys2Proof.Machine
end

