-- ==== Sys2Proof/Machine/CalWalk.lean ====
section
/-! DEFINITION. The walk of a calibration result (R402): one tap per application point of its item. -/

namespace Sys2Proof.Machine

/-- The key of an item's unit. -/
def calKey (item unit : Nat) : Nat := item * 64 + unit

/-- GATE_TAP. -/
def calGate : Nat := 5

/-- A result in force. A gate trim is the slot's AWL_GATE_TRIM. -/
def State.calNow (s : State) (item unit : Nat) : CalVal :=
  if item = calGate then
    ⟨signed 16 (s.fld (F.AWL_GATE_TRIM_TRIM_ON unit)), signed 16 (s.fld (F.AWL_GATE_TRIM_TRIM_OFF unit))⟩
  else sget ⟨0, 0⟩ s.cal.inForce (calKey item unit)

/-- The state with a result put in force. -/
def State.setCal (s : State) (item unit : Nat) (v : CalVal) : State :=
  if item = calGate then
    (s.setFld (F.AWL_GATE_TRIM_TRIM_ON unit) (unsigned 16 v.a)).setFld (F.AWL_GATE_TRIM_TRIM_OFF unit) (unsigned 16 v.b)
  else { s with cal := { s.cal with inForce := sset ⟨0, 0⟩ s.cal.inForce (calKey item unit) v } }

/-- One tap from a code towards another. -/
def tapTo (a goal : Int) : Int := if a < goal then a + 1 else if goal < a then a - 1 else a

/-- One application point of an item: the running walk of that item moves by one tap. -/
def State.calTap (s : State) (items : List Nat) (units : Option Nat) : State :=
  match s.cal.running, s.cal.goal with
  | some e, some g =>
    if items.contains e.item ∧ (units = none ∨ units = some e.unit) then
      let v := s.calNow e.item e.unit
      s.setCal e.item e.unit ⟨tapTo v.a g.a, tapTo v.b g.b⟩
    else s
  | _, _ => s

/-- A gate-response report of a slot's head: the running GATE_TAP instance of the slot gathers it, when both edges have been
measured (R400). -/
def State.calReport (s : State) (slot : Nat) (w : Word) : State :=
  match s.cal.running, s.cal.goal with
  | some e, none =>
    let on := getBits w 11 0
    let off := getBits w 27 16
    let r := s.cal.reports
    if e.item = calGate ∧ e.unit = slot ∧ on ≠ 0 ∧ off ≠ 0 ∧ r.1 < 256 then
      { s with cal := { s.cal with reports := (r.1 + 1, r.2.1 + on, r.2.2 + off) } }
    else s
  | _, _ => s

end Sys2Proof.Machine
end

