-- ==== Sys2Proof/Machine/LineCode.lean ====
section
/-! DEFINITION. The line code of R298 and the classes of R299: arithmetic of GF(2^8), the four syndromes of a codeword and
what a read of a line with given symbol errors delivers. -/

namespace Sys2Proof.Machine

/-- Multiplication by α = 0x02 modulo x^8 + x^4 + x^3 + x^2 + 1 (R298). -/
def gfDouble (x : Byte) : Byte := if x.msb then (x <<< 1) ^^^ 0x1D else x <<< 1

/-- Multiplication in GF(2^8), by the lowest `n` bits of the second factor. -/
def gfMulBits : Nat → Byte → Byte → Byte
  | 0, _, _ => 0
  | n + 1, a, b => (if b.getLsbD 0 then a else 0) ^^^ gfMulBits n (gfDouble a) (b >>> 1)

/-- Multiplication in GF(2^8). -/
def gfMul (a b : Byte) : Byte := gfMulBits 8 a b

/-- α to a power. -/
def gfPow : Nat → Byte
  | 0 => 1
  | n + 1 => gfDouble (gfPow n)

/-- One symbol error of a line: codeword 0 to 3, symbol 0 to 19, the bits that differ. -/
structure SymErr where
  /-- Codeword. -/
  w : Nat
  /-- Symbol: the device of R298. -/
  d : Nat
  /-- Difference. -/
  x : Byte
  deriving DecidableEq, Repr

/-- A symbol error written as one number: (codeword × 20 + symbol) × 256 + difference. -/
def symErr (n : Nat) : SymErr := ⟨n / 5120 % 4, n / 256 % 20, BitVec.ofNat 8 n⟩

/-- Syndrome `j` of codeword `w`: the code is linear, so it is that of the errors alone. -/
def syndrome (errs : List SymErr) (w j : Nat) : Byte :=
  errs.foldl (fun a e => if e.w = w then a ^^^ gfMul e.x (gfPow (j * (19 - e.d))) else a) 0

/-- The four syndromes of a codeword (R299). -/
def syndromes (errs : List SymErr) (w : Nat) : List Byte := (List.range 4).map (syndrome errs w)

/-- The poison mark: symbols 16 and 18 of every codeword XORed with 0xFF (R299). -/
def poisonMark : List SymErr :=
  (List.range 4).flatMap fun w => [⟨w, 16, 0xFF⟩, ⟨w, 18, 0xFF⟩]

/-- The one symbol that a codeword's syndromes point to, when they are those of exactly one symbol error. -/
def oneSymbol (syn : List Byte) : Option Nat :=
  let s0 := syn.getD 0 0
  if s0 = 0 then none
  else (List.range 20).find? fun d => (List.range 4).all fun j => syn.getD j 0 == gfMul s0 (gfPow (j * (19 - d)))

/-- The classes of R299. -/
inductive LineClass where
  /-- Every syndrome is zero. -/
  | clean
  /-- One device in error: its symbol number. -/
  | corrected (d : Nat)
  /-- The syndrome of the poison mark in every codeword. -/
  | storedPoison
  /-- Anything else. -/
  | uncorrectable
  deriving DecidableEq, Repr

/-- The class of a line by the errors of its symbols (R299). -/
def classify (errs : List SymErr) : LineClass :=
  let syns := (List.range 4).map (syndromes errs)
  let bad := syns.filter fun s => s.any (· != 0)
  match bad with
  | [] => .clean
  | b :: bs =>
    if syns.all (· == syndromes poisonMark 0) then .storedPoison
    else match oneSymbol b with
      | none => .uncorrectable
      | some d => if bs.all fun s => oneSymbol s == some d then .corrected d else .uncorrectable

/-- A line's bytes with the data symbols' errors in them: data byte 16 w + d is symbol d of codeword w (R298). -/
def applyErrs (bytes : List Byte) (errs : List SymErr) : List Byte :=
  errs.foldl (fun b e => if e.d < 16 then b.set (16 * e.w + e.d) (b.getD (16 * e.w + e.d) 0 ^^^ e.x) else b) bytes

/-- The corrected data of a line whose errors all lie in symbol `d`: each codeword's first syndrome is the difference to
take out. -/
def correctLine (bytes : List Byte) (errs : List SymErr) (d : Nat) : List Byte :=
  applyErrs (applyErrs bytes errs) ((List.range 4).map fun w => ⟨w, d, syndrome errs w 0⟩)

/-- Check symbol arithmetic of R298: the remainder of the data polynomial by the generator with roots α^0 to α^3, one
data symbol at a time. The state is the four remainder symbols, highest power first. -/
def checkStep (r : List Byte) (data : Byte) : List Byte :=
  let f := data ^^^ r.getD 0 0
  [r.getD 1 0 ^^^ gfMul f 15, r.getD 2 0 ^^^ gfMul f 54, r.getD 3 0 ^^^ gfMul f 120, gfMul f 64]

/-- The four check symbols of sixteen data symbols (R298). -/
def checkSymbols (data : List Byte) : List Byte := data.foldl checkStep [0, 0, 0, 0]

/-! ## Check sums -/

/-- One bit of the CRC-32C of R309, bit-reflected. -/
def crcStep (c : Word) : Word := if c.getLsbD 0 then (c >>> 1) ^^^ 0x82F63B78 else c >>> 1

/-- Eight bits of it. -/
def crcByte (c : Word) (b : Byte) : Word :=
  let x := c ^^^ b.zeroExtend 32
  crcStep (crcStep (crcStep (crcStep (crcStep (crcStep (crcStep (crcStep x)))))))

/-- The CRC-32C of bytes: initial value and final XOR 0xFFFF_FFFF. -/
def crc32c (bytes : List Byte) : Word := bytes.foldl crcByte 0xFFFFFFFF ^^^ 0xFFFFFFFF

/-- One bit of the CRC-64 of R429, not reflected. -/
def digestStep (c : BitVec 64) : BitVec 64 := if c.msb then (c <<< 1) ^^^ 0x42F0E1EBA9EA3693 else c <<< 1

/-- Eight bits of it. -/
def digestByte (c : BitVec 64) (b : Byte) : BitVec 64 :=
  let x := c ^^^ (b.zeroExtend 64 <<< 56)
  digestStep (digestStep (digestStep (digestStep (digestStep (digestStep (digestStep (digestStep x)))))))

/-- The CRC-64 of bytes, initial value 0. -/
def crc64 (bytes : List Byte) : BitVec 64 := bytes.foldl digestByte 0

end Sys2Proof.Machine
end

