-- ==== Sys2Proof/Machine/Dram.lean ====
section
/-! DEFINITION. DRAM and stored-data protection (R282 to R306): sizes and addresses, memory reads and writes by byte and
line, the write queues, the repeat table, remapping, refresh, fetchers, row disturbance and the commands of the family. -/

namespace Sys2Proof.Machine

/-! ## Channels, sizes and addresses (R282, R283, R285) -/

/-- A channel's state. -/
def State.chan (s : State) (c : Nat) : DmcChan := sget DmcChan.off s.chans c

/-- The state with a channel's replaced. -/
def State.setChan (s : State) (c : Nat) (d : DmcChan) : State := { s with chans := sset DmcChan.off s.chans c d }

/-- DMC_STATUS.STATE: OFF. -/
def dmcOff : Nat := 0
/-- TRAINING. -/
def dmcTraining : Nat := 1
/-- READY. -/
def dmcReady : Nat := 2
/-- SELF_REFRESH. -/
def dmcSelfRefresh : Nat := 3
/-- FAILED. -/
def dmcFailed : Nat := 4

/-- DMC_STATUS.STATE of a channel. -/
def State.dmcState (s : State) (c : Nat) : Nat := s.fld (F.DMC_STATUS_STATE c)

/-- Whether a channel's requests are served. -/
def State.dmcUp (s : State) (c : Nat) : Bool := s.dmcState c == dmcReady || s.dmcState c == dmcSelfRefresh

/-- GiB of one rank by DENSITY (R285); 0 for the reserved code. -/
def rankGib (density : Nat) : Nat := [32, 48, 64, 0].getD density 0

/-- Whether the population is one the channel accepts (R282). -/
def State.dmcConfigOk (s : State) (c : Nat) : Bool :=
  s.fld (F.DMC_CFG_SPEED c) != 3 && s.fld (F.DMC_CFG_DENSITY c) != 3
    && (s.fld (F.DMC_CFG_DIMMS2 c) == 0 || s.fld (F.DMC_CFG_SPEED c) == 0)

/-- Ranks in use: the lowest-numbered that fit within 64 GiB (R283). -/
def State.dmcRanks (s : State) (c : Nat) : Nat :=
  let g := rankGib (s.fld (F.DMC_CFG_DENSITY c))
  if g = 0 then 0 else min (s.fld (F.DMC_CFG_RANKS c) + 1) (64 / g)

/-- The visible size in MiB: the used capacity less 1 MiB (R283). -/
def State.dmcMib (s : State) (c : Nat) : Nat :=
  s.dmcRanks c * rankGib (s.fld (F.DMC_CFG_DENSITY c)) * 1024 - 1

/-- Bytes of a channel's visible range: none while it is OFF or in TRAINING, or failed its self-test (R303). -/
def State.dmcVisible (s : State) (c : Nat) : Nat :=
  if !s.part.hasUnit .dmc c || s.dmcState c == dmcOff || s.dmcState c == dmcTraining
      || (s.dmcState c == dmcFailed && s.fld (F.DMC_STATUS_CAUSE c) == 1) then 0
  else mib (s.dmcMib c)

/-- The channel and the offset in it that a BAR4 offset names (R19, R283). -/
def State.dmcOfBar4 (s : State) (off : Nat) : Option (Nat × Nat) :=
  let v0 := s.dmcVisible 0
  if off < v0 then some (0, off)
  else if off < v0 + s.dmcVisible 1 then some (1, off - v0)
  else none

/-- The BAR4 offset of a channel's offset. -/
def State.bar4Of (s : State) (c off : Nat) : Nat := if c = 0 then off else s.dmcVisible 0 + off

/-- Whether a BAR4 offset lies in the spill carve-out (R267). -/
def State.inCarveOut (s : State) (off : Nat) : Bool :=
  let base := pair64 (s.reg R.SB_SPILL_BASE_HI) (s.reg R.SB_SPILL_BASE_LO)
  decide (base ≤ off) && decide (off < base + mib (s.reg R.SB_SPILL_SIZE).toNat)

/-- log2 of the ranks in use, rounded up to 0, 1 or 2. -/
def rankBits (ranks : Nat) : Nat := if ranks ≤ 1 then 0 else if ranks = 2 then 1 else 2

/-- Where an offset lies (R285): rank, bank group, bank, row. -/
structure DramPlace where
  /-- Rank. -/
  rank : Nat
  /-- Bank group. -/
  group : Nat
  /-- Bank within the group. -/
  bank : Nat
  /-- Row. -/
  row : Nat
  deriving DecidableEq, Repr

/-- The map of R285. -/
def State.dramPlace (s : State) (c off : Nat) : DramPlace :=
  let rb := rankBits (s.dmcRanks c)
  let row := off / 2 ^ (19 + rb)
  { rank := off / 2 ^ 19 % 2 ^ rb
    group := (off / 2 ^ 14 % 8) ^^^ (row % 8)
    bank := (off / 2 ^ 17 % 4) ^^^ (row / 8 % 4)
    row := row }

/-- The number of a bank in a channel: rank × 32 + group × 4 + bank. -/
def DramPlace.bankNo (p : DramPlace) : Nat := p.rank * 32 + p.group * 4 + p.bank

/-! ## Memory -/

/-- The address in State.mem of a channel's offset. -/
def dramAddr (c off : Nat) : Nat := 2 ^ 36 * c + off

/-- One byte of DRAM: zero where nothing was written (R8). -/
def State.byteAt (s : State) (a : Nat) : Byte := sget 0 s.mem a

/-- The state with one byte of DRAM replaced. -/
def State.setByte (s : State) (a : Nat) (b : Byte) : State := { s with mem := sset 0 s.mem a b }

/-- `n` bytes from an address. -/
def State.bytesAt (s : State) (a : Nat) : Nat → List Byte
  | 0 => []
  | n + 1 => s.byteAt a :: State.bytesAt s (a + 1) n

/-- Bytes written from an address up. -/
def State.setBytes (s : State) (a : Nat) : List Byte → State
  | [] => s
  | b :: bs => State.setBytes (s.setByte a b) (a + 1) bs

/-- Whether the line that holds an address is stored with the poison mark. -/
def State.lineBad (s : State) (a : Nat) : Bool := sget false s.badLines (a / 64)

/-- The state with a line's poison mark set or cleared. -/
def State.markLine (s : State) (a : Nat) (bad : Bool) : State :=
  { s with badLines := sset false s.badLines (a / 64) bad }

/-- A list cut or filled with zeros to `n` entries. -/
def padTo (n : Nat) (l : List Byte) : List Byte := (l ++ List.replicate n 0).take n

/-- A whole line, of 64 bytes, stored at its address. -/
def State.storeLine (s : State) (a : Nat) (l : Line) : State :=
  (s.setBytes (a / 64 * 64) (padTo 64 l.bytes)).markLine a l.poison

/-- The 32-bit words of bytes, little-endian (R9). -/
def wordsOfBytes : List Byte → List Word
  | b0 :: b1 :: b2 :: b3 :: bs => (b3 ++ b2 ++ b1 ++ b0 : Word) :: wordsOfBytes bs
  | _ => []

/-- The bytes of 32-bit words, little-endian. -/
def bytesOfWords : List Word → List Byte
  | [] => []
  | w :: ws => w.truncate 8 :: (w >>> 8).truncate 8 :: (w >>> 16).truncate 8 :: (w >>> 24).truncate 8 ::
    bytesOfWords ws

/-- The newest data of a queued line (R287). -/
def queuedLine (wq : List WqEntry) (line : Nat) : Option Line :=
  match wq.find? fun e => e.pair == line / 2 with
  | none => none
  | some e => if line % 2 = 0 then e.even else e.odd

/-- A line merged into the write queues (R286). -/
def mergeLine (wq : List WqEntry) (line : Nat) (l : Line) : List WqEntry :=
  match wq with
  | [] => [if line % 2 = 0 then ⟨line / 2, some l, none⟩ else ⟨line / 2, none, some l⟩]
  | e :: es =>
    if e.pair = line / 2 then (if line % 2 = 0 then { e with even := some l } else { e with odd := some l }) :: es
    else e :: mergeLine es line l

/-- A line of a channel as its own requests see it, without its code being checked: the queued data or the stored
line. Device blocks read job data, archives and rings through this. -/
def State.lineNow (s : State) (c off : Nat) : Line :=
  match queuedLine (s.chan c).wq (off / 64) with
  | some l => l
  | none => ⟨s.bytesAt (dramAddr c (off / 64 * 64)) 64, s.lineBad (dramAddr c off)⟩

/-- A word at a BAR4 offset, with its poison; zero and clean outside the visible ranges. A failed channel delivers it
poisoned (R289). -/
def State.dramWord (s : State) (off : Nat) : PWord :=
  match s.dmcOfBar4 off with
  | none => PWord.clean 0
  | some (c, o) =>
    let l := s.lineNow c o
    let i := o % 64 / 4 * 4
    ⟨(l.bytes.getD (i + 3) 0 ++ l.bytes.getD (i + 2) 0 ++ l.bytes.getD (i + 1) 0 ++ l.bytes.getD i 0 : Word),
      l.poison || s.dmcState c == dmcFailed, .clean⟩

/-- Consecutive words from a BAR4 offset. -/
def State.dramWords (s : State) (off : Nat) : Nat → List PWord
  | 0 => []
  | n + 1 => s.dramWord off :: State.dramWords s (off + 4) n

/-! ## Reads of lines, errors and remapping (R299, R300, R302) -/

/-- A sticky pair remapped to a spare pair at once, or SPARE_OUT once when all 256 are in use (R302). -/
def State.remapPair (s : State) (c pair k : Nat) : State :=
  let d := s.chan c
  if d.remaps.length < 256 then
    let s1 := (s.setChan c { d with remaps := d.remaps ++ [pair] }).repeatDrop k
    (s1.setFld (F.DMC_REMAP_USED_PAIRS c) (d.remaps.length + 1)).dmcEvent c 0x04 c 0 pair
  else if d.spareOut then s
  else (s.setChan c { d with spareOut := true }).dmcEvent c 0x05 c 0 0

/-- A command entered in a channel's retry buffer, which keeps the last 64 (R288). -/
def State.issued (s : State) (c : Nat) (cmd : RetryCmd) : State :=
  s.setChan c { s.chan c with retry := (cmd :: (s.chan c).retry).take 64 }

/-- What a read of a stored line delivers, and what it leaves (R299, R300): `errs` are the symbol errors the memory
returns with it. Errors that show no syndrome pass for clean. -/
def State.readLine (s : State) (c off : Nat) (errs : List SymErr) : State × Line :=
  let a := dramAddr c off
  let bytes := s.bytesAt (a / 64 * 64) 64
  let got := applyErrs bytes errs
  match classify (if s.lineBad a then poisonMark ++ errs else errs) with
  | .clean => (s, ⟨got, false⟩)
  | .storedPoison => (s.bump (F.DMC_POISON_CNT_COUNT c), ⟨got, true⟩)
  | .uncorrectable =>
    let s1 := (s.markLine a true).bump (F.DMC_UE_CNT_COUNT c)
    (s1.dmcEvent c 0x01 c 0 (off / 128), ⟨got, true⟩)
  | .corrected d =>
    let fixed := correctLine bytes errs d
    let s1 := (s.storeLine a ⟨fixed, false⟩).bump (F.DMC_CE_CNT_COUNT c)
    let s2 := (s1.setFld (F.DMC_CE_LAST_DEVICE c) d).setFld (F.DMC_CE_LAST_RANK c) (s1.dramPlace c off).rank
    match s2.correction 1 c (off / 128) (s2.fld (F.DMC_PATROL_HOURS c) * 3600) with
    | (s3, some k) => (s3.remapPair c (off / 128) k, ⟨fixed, false⟩)
    | (s3, none) => (s3, ⟨fixed, false⟩)

/-! ## Writes to memory (R284, R286) -/

/-- A queued pair written to memory. A pair of which only one line is queued is a read-modify-write (R284): the pair is read,
`errs` being the errors that the memory returns with the partner line, and it is counted. -/
def State.retirePair (s : State) (c : Nat) (e : WqEntry) (errs : List SymErr) : State :=
  let s0 :=
    match e.even, e.odd with
    | some _, none => (s.readLine c (e.pair * 128 + 64) errs).1.bump (F.DMC_RMW_CNT_COUNT c)
    | none, some _ => (s.readLine c (e.pair * 128) errs).1.bump (F.DMC_RMW_CNT_COUNT c)
    | _, _ => s
  let s1 := match e.even with
    | some l => s0.storeLine (dramAddr c (e.pair * 128)) l
    | none => s0
  let s2 := match e.odd with
    | some l => s1.storeLine (dramAddr c (e.pair * 128 + 64)) l
    | none => s1
  s2.issued c (.write e)

/-- Every queued pair of a channel written to memory. -/
def State.drainWrites (s : State) (c : Nat) : State :=
  let wq := (s.chan c).wq
  wq.foldl (fun s e => s.retirePair c e []) (s.setChan c { s.chan c with wq := [] })

/-- A line accepted into the write queues (R286): merged into its pair's entries where it is queued; else, when the queues are
full, their oldest pair goes to memory first. -/
def State.acceptLine (s : State) (c off : Nat) (l : Line) (errs : List SymErr) : State :=
  let d := s.chan c
  let s1 :=
    if d.wq.length < 64 ∨ (d.wq.find? fun e => e.pair == off / 128).isSome then s
    else match d.wq with
      | [] => s
      | e :: es => (s.setChan c { d with wq := es }).retirePair c e errs
  s1.setChan c { s1.chan c with wq := mergeLine (s1.chan c).wq (off / 64) l }

/-- A channel brought out of self-refresh by a request (R296). -/
def State.dmcWake (s : State) (c : Nat) : State :=
  if s.dmcState c = dmcSelfRefresh then s.setFld (F.DMC_STATUS_STATE c) dmcReady else s

/-! ## Row disturbance (R297) -/

/-- The service class of a requester's DRAM traffic (R14, R293): 3 host for PCIe, 2 bulk for every device block (job reads,
traces, retained frames, archives, spill), since no built-in block reads DRAM in a higher class. Fetchers are 0. -/
def requesterClass (req : Nat) : Nat := if req / 8 = 28 then 3 else 2

/-- An activate counted in its bank's tracker, which keeps the 32 most-activated rows. -/
def countActivate (rh : List RhRow) (bank row : Nat) : List RhRow :=
  if rh.any fun r => r.bank == bank && r.row == row then
    rh.map fun r => if r.bank = bank ∧ r.row = row then { r with count := r.count + 1 } else r
  else
    let mine := rh.filter fun r => r.bank == bank
    if mine.length < 32 then rh ++ [⟨bank, row, 1, false⟩]
    else
      let least := mine.foldl (fun m r => min m r.count) (mine.getD 0 ⟨0, 0, 0, false⟩).count
      match rh.findIdx? fun r => r.bank == bank && r.count == least with
      | some i => rh.set i ⟨bank, row, 1, false⟩
      | none => rh

/-- One activate of the row an offset lies in by a requester of a class, and the answer to a count that exceeds RH_TH within the
window (R297): it is logged, and RFMab goes to the rank; RH_THROTTLE is raised and the class limited only where a class can
be limited: not the isochronous one, and none with RATE 0. -/
def State.activate (s : State) (c req cls off : Nat) : State :=
  if s.fld (F.DMC_RH_CFG_WIN c) = 0 then s
  else
    let p := s.dramPlace c off
    let mine := fun (r : RhRow) => r.bank == p.bankNo && r.row == p.row
    let rh := countActivate (s.chan c).rh p.bankNo p.row
    match rh.find? mine with
    | none => s.setChan c { s.chan c with rh := rh }
    | some r =>
      if r.crossed ∨ r.count ≤ s.fld (F.DMC_RH_CFG_TH c) then s.setChan c { s.chan c with rh := rh }
      else
        let k := (s.chan c).rhNext % 8
        let limit := cls != 0 && s.fld (F.DMC_RH_CFG_RATE c) != 0
        let s1 := (s.setReg (R.DMC_RH_LOG c k)
          (w32 (2 ^ 31 + p.rank * 2 ^ 14 + (p.group * 4 + p.bank) * 2 ^ 8 + req % 256))).setReg (R.DMC_RH_LOG_W1 c k)
          (w32 (p.row % 2 ^ 18))
        let d := s1.chan c
        let s2 := s1.setChan c { d with
          rh := rh.map fun r => if mine r then { r with crossed := true } else r
          rhNext := (k + 1) % 8
          limited := if limit ∧ !d.limited.contains (cls, p.bankNo) then d.limited ++ [(cls, p.bankNo)] else d.limited }
        if limit then s2.dmcEvent c 0x06 c (req % 256) (off / 128) else s2

/-- Whether a request is held back by a row-disturbance limit (R297). -/
def State.rhLimited (s : State) (c req off : Nat) : Bool :=
  (s.chan c).limited.contains (requesterClass req, (s.dramPlace c off).bankNo)

/-! ## What device blocks read and write -/

/-- Bytes of one row of a bank across the devices (R285). -/
def rowBytes : Nat := 16384

/-- What one line of a device block's read leaves at its channel: the channel wakes, which delays the request (R296), a row is
activated at the first line of the request and of each row (R297), and stored poison is counted (R300). A failed channel
counts nothing. -/
def State.readUse (s : State) (req cls c off : Nat) (first : Bool) : State :=
  if s.dmcState c = dmcFailed then s
  else
    let s1 := (s.dmcWake c).countDelayed req (first && s.dmcState c == dmcSelfRefresh)
    let s2 := if first ∨ off % rowBytes < 64 then (s1.activate c req cls off).issued c (.read off) else s1
    if (queuedLine (s2.chan c).wq (off / 64)).isNone ∧ s2.lineBad (dramAddr c off) then s2.bump (F.DMC_POISON_CNT_COUNT c)
    else s2

/-- What a device block's read of `n` words from a BAR4 offset leaves, line by line. -/
def State.dramUse (s : State) (req cls off n : Nat) : State :=
  let lines := if n = 0 then 0 else (off % 64 + 4 * n + 63) / 64
  (List.range lines).foldl (fun (t : State) i =>
    match t.dmcOfBar4 (off / 64 * 64 + 64 * i) with
    | some (c, o) => t.readUse req cls c o (i == 0)
    | none => t) s

/-- A word stored at a BAR4 offset by a device block: merged into its line, which the write queues take; discarded outside the
visible ranges, and on a failed channel, where each line is counted (R289). -/
def State.setDramWord (s : State) (off : Nat) (w : PWord) : State :=
  match s.dmcOfBar4 off with
  | none => s
  | some (c, o) =>
    if s.dmcState c == dmcFailed then (if o % 64 = 0 then s.bump (F.DMC_WRITE_LOST_COUNT c) else s)
    else
      let l := s.lineNow c o
      let i := o % 64 / 4 * 4
      let b := (((l.bytes.set i (w.val.truncate 8)).set (i + 1) ((w.val >>> 8).truncate 8)).set (i + 2)
        ((w.val >>> 16).truncate 8)).set (i + 3) ((w.val >>> 24).truncate 8)
      let s1 := s.dmcWake c
      let s2 := if o % rowBytes < 4 then s1.activate c 256 2 o else s1
      s2.acceptLine c o ⟨b, l.poison || w.poison⟩ []

/-- Consecutive words stored from a BAR4 offset. -/
def State.setDramWords (s : State) (off : Nat) : List PWord → State
  | [] => s
  | w :: ws => State.setDramWords (s.setDramWord off w) (off + 4) ws

/-! ## Refresh (R290 to R292) -/

/-- The refresh rate of a band: 0 for 1×, 1 for 2×, 2 for 4× (R290). Bands: 0 cold, 1 normal, 2 warm, 3 hot. -/
def bandRefresh (band : Nat) : Nat := if band ≤ 1 then 0 else if band = 2 then 1 else 2

/-- The rate in force brought to the higher of the band's and mode register 4's (R290); a rise repays the whole debt at
once (R292), and with those refreshes a new read-timing set takes effect; a change raises RATE_CHANGE. -/
def State.refreshRate (s : State) (c : Nat) : State :=
  let d := s.chan c
  let new := max d.bandRate d.mr4Rate
  let old := s.fld (F.DMC_STATUS_RATE c)
  if new = old then s
  else
    let s1 :=
      if old < new ∧ s.fld (F.DMC_STATUS_DEBT c) ≠ 0 then
        (s.setFld (F.DMC_STATUS_DEBT c) 0).setFld (F.DMC_STATUS_TSET c) d.tsetNext
      else s
    (s1.setFld (F.DMC_STATUS_RATE c) new).dmcEvent c 0x07 c new 0

/-- A channel's new temperature band (R290): its rate, and its read-timing set with the next refresh. -/
def State.dramBand (s : State) (c band : Nat) : State :=
  (s.setChan c { s.chan c with bandRate := bandRefresh band, tsetNext := band }).refreshRate c

/-! ## Fetchers (R293 to R295) -/

/-- W of R295 in units of 1/16 ns: 2.4 µs at 6,400 MT/s, 2.5 µs otherwise. -/
def State.isoBound (s : State) (c : Nat) : Nat := if s.fld (F.DMC_CFG_SPEED c) = 2 then 38400 else 40000

/-- Whether LEAD Stitches are at least W long (check 4 of R294); one TCLK is 50/16 ns. -/
def State.leadOk (s : State) (c f period : Nat) : Bool :=
  decide (s.isoBound c ≤ s.fld (F.DMC_ISO_CTRL_LEAD c f) * period * 50)

/-- PAIRS summed over a channel's running fetchers but one. -/
def State.otherPairs (s : State) (c f : Nat) : Nat :=
  ((s.chan c).fetchOn.filter (· != f)).foldl (fun a g => a + s.fld (F.DMC_ISO_CTRL_PAIRS c g)) 0

/-- Check 3 of R294 for a period. -/
def State.pairsOk (s : State) (c f period : Nat) : Bool :=
  let sum := s.otherPairs c f + s.fld (F.DMC_ISO_CTRL_PAIRS c f)
  decide (sum ≤ 100) && decide (sum ≤ 100 * period / 320)

/-- The BAR4 offset of a fetcher's ring. -/
def State.isoBase (s : State) (c f : Nat) : Nat :=
  pair64 (s.reg (R.DMC_ISO_BASE_HI c f)) (s.reg (R.DMC_ISO_BASE_LO c f))

/-- The checks of R294 in order: 0 when all pass, else RESULT. -/
def State.fetcherCheck (s : State) (c f : Nat) : Nat :=
  let pairs := s.fld (F.DMC_ISO_CTRL_PAIRS c f)
  let ring := (s.reg (R.DMC_ISO_RING c f)).toNat
  let lead := s.fld (F.DMC_ISO_CTRL_LEAD c f)
  let base := s.isoBase c f
  if pairs = 0 ∨ ring = 0 then 1
  else if base % 2 ^ 14 ≠ 0 ∨ ring % 128 ≠ 0 ∨ 100 < pairs ∨ s.bar4Of c (s.dmcVisible c) < base + ring * 128
      ∨ base < s.bar4Of c 0 then 2
  else if !s.pairsOk c f s.period then 3
  else if !s.leadOk c f s.period then 4
  else match s.namedQueue (s.reg (R.DMC_ISO_Q c f)) with
    | none => 5
    | some key =>
      let q := s.stream key
      if q.cls ≠ 0 ∨ q.spill ∨ q.size < (lead + 1) * (1 + 32 * pairs) then 5 else 0

/-- Check 3 or 4 of R294 that a running fetcher fails at a period; 0 for none. -/
def State.fetcherAtPeriod (s : State) (c f period : Nat) : Nat :=
  if !s.pairsOk c f period then 3 else if !s.leadOk c f period then 4 else 0

/-- A change of period stops every fetcher that no longer passes check 3 or 4, each judged on all that ran (R294). -/
def State.fetchersAtPeriod (s : State) (c period : Nat) : State :=
  let out := (s.chan c).fetchOn.filter fun f => s.fetcherAtPeriod c f period != 0
  let s1 := out.foldl (fun (t : State) f =>
    (t.setFld (F.DMC_ISO_CTRL_RESULT c f) (s.fetcherAtPeriod c f period)).setFld (F.DMC_ISO_CTRL_EN c f) 0) s
  s1.setChan c { s1.chan c with fetchOn := (s1.chan c).fetchOn.filter fun f => !out.contains f }

/-- The requester of a channel's reads (R269). -/
def dmcReq (c : Nat) : Nat := 8 * (24 + 2 * c)

/-- ISO_FETCH (R293): at boundary S a running fetcher reads its pairs of the ring for boundary S + LEAD. -/
def State.isoFetch (s : State) (c f : Nat) : State :=
  let pairs := s.fld (F.DMC_ISO_CTRL_PAIRS c f)
  let ring := max 1 (s.reg (R.DMC_ISO_RING c f)).toNat
  let pos := sget 0 (s.chan c).fetchPos f
  let due := s.now + s.fld (F.DMC_ISO_CTRL_LEAD c f)
  let base := s.isoBase c f
  let places := (List.range pairs).map fun i => base + (pos + i) % ring * 128
  let words := places.flatMap fun a => s.dramWords a 32
  let s1 := places.foldl (fun (t : State) a => t.dramUse (dmcReq c) 0 a 32) s
  let d := s1.chan c
  s1.setChan c { d with
    fetchPos := sset 0 d.fetchPos f ((pos + pairs) % ring)
    inflight := d.inflight ++ [⟨f, due, PWord.clean (w32 due) :: words, false⟩] }

/-- Whether a fetch packet is complete in the Stitch that ends: in the Stitch of its fetch, unless a command replay held it
back; then in the last one before its boundary (R293, R295; DESIGN CHOICE, log entry 111). -/
def State.fetchLands (s : State) (p : Fetch) : Bool := !p.held || decide (p.due ≤ s.now + 1)

/-- The fetch packets that are complete go into their queues, word by word (R293). -/
def State.isoDeliver (s : State) (c : Nat) : State :=
  let d := s.chan c
  (d.inflight.filter s.fetchLands).foldl
    (fun (t : State) p => t.pushWords (dmcReq c) (t.reg (R.DMC_ISO_Q c p.fetcher)) p.words)
    (s.setChan c { d with inflight := d.inflight.filter fun p => !s.fetchLands p })

/-- What the boundary does to a channel: the band its group reports (R290), stopped fetchers, fetches. -/
def State.dramBoundary (s : State) (c : Nat) : State :=
  let s1 := if s.dmcState c = dmcOff then s else s.dramBand c (s.fld (F.THRM_BAND_GROUP_BAND c))
  let d := s1.chan c
  let on := d.fetchOn.filter fun f => s1.flag (F.DMC_ISO_CTRL_EN c f)
  on.foldl (fun s f => s.isoFetch c f) (s1.setChan c { d with fetchOn := on })

/-! ## The commands -/

/-- A response to a requester of a channel. -/
def State.answer (s : State) (req code : Nat) (delayed poison : Bool) (ws : List Word) : State :=
  { (s.countDelayed req delayed) with resp := ⟨req, code, delayed, false, poison, ws⟩ }

/-- A host request that finds no memory: a hole (R21). -/
def State.bar4Hole (s : State) (off : Nat) (read : Bool) : State :=
  let s1 := s.unmapped .host .b4 (BitVec.ofNat 64 off)
  if read then { s1 with readData := deadWord, resp := ⟨224, 0, false, false, false, List.replicate 16 deadWord⟩ }
  else s1

/-- Whether the host's request to a channel offset meets no memory (R21, R267), or comes before boot has completed (R390). -/
def State.noMemory (s : State) (c req off : Nat) : Bool :=
  decide (s.dmcVisible c ≤ off) || (req == 224 && !s.flag F.PWR_STATE_BOOT_DONE) || (req == 224 && s.inCarveOut (s.bar4Of c off))

/-- What a write that reaches the register does. -/
def State.writeDmcCfg (s : State) (src : Source) (chan : Nat) (val : Word) : State :=
  let st := s.dmcState chan
  let stopped := st == dmcOff || st == dmcFailed
  let old := s.reg (R.DMC_CFG chan)
  let s1 := if stopped then s.setReg (R.DMC_CFG chan) (val &&& 0x800FE000)
    else
      let kept := s.setReg (R.DMC_CFG chan) (putBits old 31 31 (getBits val 31 31))
      if getBits old 19 13 ≠ getBits val 19 13 then kept.busyWrite src (R.DMC_CFG chan) else kept
  if getBits val 31 31 = 0 then
    let s2 := s1.setChan chan { s1.chan chan with wq := [], fetchOn := [], inflight := [] }
    ((s2.setFld (F.DMC_STATUS_STATE chan) dmcOff).setFld (F.DMC_STATUS_CAUSE chan) 0).setFld (F.DMC_SIZE_MIB chan) 0
  else if getBits old 31 31 = 0 ∧ stopped then
    ((s1.setFld (F.DMC_STATUS_STATE chan) dmcTraining).setFld (F.DMC_STATUS_CAUSE chan) 0).setFld
      (F.DMC_SIZE_MIB chan) 0
  else s1

/-- DRAM_ENABLE (R282): a write of DMC_CFG. The configuration is accepted only in OFF or FAILED; setting ENABLE starts
training, clearing it turns the channel OFF. -/
def execDramEnable (src : Source) (chan : Nat) (val : Word) (s : State) : Host.Outcome State Fault Refusal :=
  .next (s.gate src (R.DMC_CFG chan) val fun s => s.writeDmcCfg src chan val)

/-- A channel in FAILED with a cause: its queued writes are discarded and counted, and reads in flight complete with poisoned data
(R288, R289). -/
def State.dmcFail (s : State) (c cause : Nat) : State :=
  let d := s.chan c
  let lost := d.wq.foldl (fun n e => n + bitNat e.even.isSome + bitNat e.odd.isSome) 0
  let s1 := s.setChan c { d with
    wq := []
    inflight := d.inflight.map fun p =>
      { p with words := p.words.take 1 ++ (p.words.drop 1).map fun w => { w with poison := true } } }
  (((s1.setFld (F.DMC_STATUS_STATE c) dmcFailed).setFld (F.DMC_STATUS_CAUSE c) cause).setFld (F.DMC_SIZE_MIB c)
    0).bumpBy (F.DMC_WRITE_LOST_COUNT c) lost

/-- Every byte of a channel zero with valid check bytes (R304). -/
def State.fillChannel (s : State) (c : Nat) : State :=
  { s with
    mem := s.mem.filter fun e => e.1 / 2 ^ 36 != c
    badLines := s.badLines.filter fun e => e.1 / 2 ^ 30 != c }

/-- hPPR at a boot, before the fill (R302): the recorded rows of the pairs in `repaired` are repaired and their remaps released;
DMC_REMAP_USED shows the rows repaired and the pairs that stay remapped. Once the boot has completed there is none. -/
def State.bootRepair (s : State) (c : Nat) (repaired : List Nat) : State :=
  let all := (s.chan c).remaps
  let rowOf := fun p : Nat => s.dramPlace c (p * 128)
  let rows := if s.flag F.PWR_STATE_BOOT_DONE then [] else ((all.filter repaired.contains).map rowOf).eraseDups
  let left := all.filter fun p => !rows.contains (rowOf p)
  let s1 := s.setChan c { s.chan c with remaps := left }
  let s2 := if s.flag F.PWR_STATE_BOOT_DONE then s1 else s1.setFld (F.DMC_REMAP_USED_PPR c) rows.length
  s2.setFld (F.DMC_REMAP_USED_PAIRS c) left.length

/-- TRAINING_DONE (R282, R303, R304): the checker's self-test and the training of a channel end in FAILED with SELFTEST,
CONFIG or TRAINING; otherwise the rows found repairable are repaired at a boot (R302), the channel is filled with zeros and READY. -/
def execTrainingDone (chan : Nat) (found : Training) (s : State) : Host.Outcome State Fault Refusal :=
  .next (
    if s.dmcState chan ≠ dmcTraining then s
    else if 3 ≤ found.result then (s.setFld (F.DMC_STATUS_SELFTEST chan) 1).dmcFail chan 1
    else if !s.dmcConfigOk chan ∨ found.result = 2 then s.dmcFail chan 4
    else if found.result = 1 then s.dmcFail chan 3
    else
      let s1 := ((s.setFld (F.DMC_STATUS_SELFTEST chan) 0).bootRepair chan found.repaired).fillChannel chan
      (s1.setFld (F.DMC_STATUS_STATE chan) dmcReady).setFld (F.DMC_SIZE_MIB chan) (s1.dmcMib chan))

/-- DRAM_READ (R286, R287, R299): a read of one line by a requester, answered from the write queues or the memory. The
`err` operand lists the symbol errors the memory returns; `delayed` says it waited behind 128 others (R286). -/
def execDramRead (chan req off : Nat) (err : List Nat) (delayed : Bool) (s : State) :
    Host.Outcome State Fault Refusal :=
  .next (
    if s.noMemory chan req off then s.bar4Hole (s.bar4Of chan off) true
    else if s.dmcState chan = dmcFailed then
      s.answer req 0 delayed true (wordsOfBytes (s.lineNow chan off).bytes)
    else
      let late := delayed || s.dmcState chan == dmcSelfRefresh || s.rhLimited chan req off
      let s1 := ((s.dmcWake chan).activate chan req (requesterClass req) off).issued chan (.read off)
      match queuedLine (s1.chan chan).wq (off / 64) with
      | some l => s1.answer req 0 late l.poison (wordsOfBytes l.bytes)
      | none =>
        let (s2, l) := s1.readLine chan off (err.map symErr)
        s2.answer req 0 late l.poison (wordsOfBytes l.bytes))

/-- DRAM_WRITE (R286): a write of one line accepted into the write queues; when they are full their oldest pair goes to
memory first, with a read-modify-write where one of its lines is not queued (R284). -/
def execDramWrite (chan req off : Nat) (data : List Word) (poison : Bool) (turn : LineTurn) (s : State) :
    Host.Outcome State Fault Refusal :=
  .next (
    if s.noMemory chan req off then s.bar4Hole (s.bar4Of chan off) false
    else if req = 224 ∧ s.isWheel then s.accessEvent 3 .host .b4 (BitVec.ofNat 64 (s.bar4Of chan off))
    else if req = 224 ∧ s.leadsPair then s.forwardAs (.bar4 chan off data poison)
    else if s.dmcState chan = dmcFailed then
      (s.bump (F.DMC_WRITE_LOST_COUNT chan)).answer req 0 turn.delayed false []
    else
      let late := turn.delayed || s.dmcState chan == dmcSelfRefresh || s.rhLimited chan req off
      let s1 := (s.dmcWake chan).activate chan req (requesterClass req) off
      (s1.acceptLine chan off ⟨padTo 64 (bytesOfWords data), poison⟩ (turn.errs.map symErr)).answer req 0 late false [])

/-- A host write of BAR4 that a pair forwarded (R427). -/
def State.forwardedLine (s : State) (chan off : Nat) (data : List Word) (poison : Bool) : State :=
  if s.noMemory chan 224 off then s.bar4Hole (s.bar4Of chan off) false
  else if s.dmcState chan = dmcFailed then s.bump (F.DMC_WRITE_LOST_COUNT chan)
  else ((s.dmcWake chan).activate chan 224 (requesterClass 224) off).acceptLine chan off
    ⟨padTo 64 (bytesOfWords data), poison⟩ []

/-- A command of the retry buffer issued again (R288): a write stores its lines once more; a read and a refresh leave nothing. -/
def State.reissue (s : State) (c : Nat) : RetryCmd → State
  | .read _ => s
  | .refresh => s
  | .write e =>
    let s1 := match e.even with
      | some l => s.storeLine (dramAddr c (e.pair * 128)) l
      | none => s
    match e.odd with
    | some l => s1.storeLine (dramAddr c (e.pair * 128 + 64)) l
    | none => s1

/-- A replay: every command issued since the last one known to have completed, oldest first (R288). Fetch packets in flight wait
for it (R295). -/
def State.replay (s : State) (c since : Nat) : State :=
  let s1 := (((s.chan c).retry.take since).reverse).foldl (fun (t : State) k => t.reissue c k) s
  s1.setChan c { s1.chan c with inflight := (s1.chan c).inflight.map fun p => { p with held := true } }

/-- COMMAND_PARITY_ALERT (R288): the replays that the alert takes. Three failures of one error put the channel in FAILED. -/
def execCommandParityAlert (chan : Nat) (replays : Replays) (s : State) : Host.Outcome State Fault Refusal :=
  .next (
    if !s.dmcUp chan then s
    else if 3 ≤ replays.failed then
      ((s.bumpBy (F.DMC_REPLAY_CNT_COUNT chan) 3).dmcFail chan 2).dmcEvent chan 0x02 chan 0 0
    else (s.bumpBy (F.DMC_REPLAY_CNT_COUNT chan) (replays.failed + 1)).replay chan replays.since)

/-- REFRESH (R291): a refresh falls due. With an isochronous burst in progress or queued it is postponed, up to a debt of
4; otherwise it is issued, the read-timing set takes effect, and one refresh of the debt is repaid. -/
def execRefresh (chan : Nat) (iso : Bool) (s : State) : Host.Outcome State Fault Refusal :=
  let debt := s.fld (F.DMC_STATUS_DEBT chan)
  .next (
    if s.dmcState chan ≠ dmcReady then s
    else if iso ∧ debt < 4 then
      (s.setFld (F.DMC_STATUS_DEBT chan) (debt + 1)).bump (F.DMC_POSTPONE_CNT_COUNT chan)
    else
      let s1 := ((s.setFld (F.DMC_STATUS_TSET chan) (s.chan chan).tsetNext).calTap [3] (some chan)).issued chan .refresh
      if iso then s1 else s1.setFld (F.DMC_STATUS_DEBT chan) (debt - 1))

/-- ISO_LATE (R295): the fetcher's oldest packet in flight is not complete by its boundary; it is marked bad, so that its consumer
finds none (R42), counted and reported. -/
def execIsoLate (chan fetch : Nat) (s : State) : Host.Outcome State Fault Refusal :=
  let d := s.chan chan
  .next (
    match d.inflight.find? fun p => p.fetcher == fetch with
    | none => s
    | some p =>
      let s1 := (s.setChan chan { d with inflight := d.inflight.erase p }).bump (F.DMC_ISO_LATE_COUNT chan)
      s1.dmcEvent chan 0x08 chan fetch 0)

/-- What a write that reaches the register does. -/
def State.writeIsoCtrl (s : State) (chan fetch : Nat) (val : Word) : State :=
  let a := R.DMC_ISO_CTRL chan fetch
  let s1 := s.setReg a ((s.reg a &&& 0x70000000) ||| (val &&& 0x80FF007F))
  if getBits val 31 31 = 0 ∨ (s.chan chan).fetchOn.contains fetch then s1
  else
    let r := s1.fetcherCheck chan fetch
    let s2 := s1.setFld (F.DMC_ISO_CTRL_RESULT chan fetch) r
    if r = 0 then
      let d := s2.chan chan
      s2.setChan chan { d with fetchOn := d.fetchOn ++ [fetch], fetchPos := sset 0 d.fetchPos fetch 0 }
    else s2.setFld (F.DMC_ISO_CTRL_EN chan fetch) 0

/-- FETCHER_ENABLE (R294): a write of DMC_ISO_CTRL. Setting EN runs the checks; clearing it stops the fetcher at the
next boundary. -/
def execFetcherEnable (src : Source) (chan fetch : Nat) (val : Word) (s : State) : Host.Outcome State Fault Refusal :=
  .next (s.gate src (R.DMC_ISO_CTRL chan fetch) val fun s => s.writeIsoCtrl chan fetch val)

/-- SELF_REFRESH_ENTRY (R296): a channel idle for SR_IDLE with no fetcher enabled repays its debt and enters
self-refresh; its queued writes have gone to memory. -/
def execSelfRefreshEntry (chan : Nat) (s : State) : Host.Outcome State Fault Refusal :=
  .next (
    if s.dmcState chan ≠ dmcReady ∨ s.fld (F.DMC_SR_IDLE_VALUE chan) = 0 ∨ (s.chan chan).fetchOn ≠ [] then s
    else
      let s1 := (s.drainWrites chan).setFld (F.DMC_STATUS_DEBT chan) 0
      (s1.setFld (F.DMC_STATUS_STATE chan) dmcSelfRefresh).bump (F.DMC_SR_CNT_COUNT chan))

/-- PATROL (R305): a burst falls due and reads the next 64 pairs, correcting and marking as any read does. An entry of
`err` is (line of the burst) × 20,480 + a symbol error. -/
def execPatrol (chan : Nat) (err : List Nat) (s : State) : Host.Outcome State Fault Refusal :=
  .next (
    if s.fld (F.DMC_PATROL_HOURS chan) = 0 ∨ !s.dmcUp chan then s
    else
      let pos := (s.chan chan).patrolPos
      let s0 := ((s.dmcWake chan).countDelayed (dmcReq chan) (s.dmcState chan == dmcSelfRefresh)).activate chan (dmcReq chan) 2
        (pos * 128)
      let s1 := (List.range 128).foldl (fun s i =>
        let mine := (err.filter fun e => e / 20480 == i).map fun e => symErr (e % 20480)
        if mine = [] ∧ !s.lineBad (dramAddr chan (pos * 128 + 64 * i)) then s
        else (s.readLine chan (pos * 128 + 64 * i) mine).1) s0
      let total := (s1.dmcMib chan + 1) * 8192
      s1.setChan chan { s1.chan chan with patrolPos := (pos + 64) % max 64 total })

/-- RH_WINDOW_END (R297): the activate counts restart and every limit is lifted. -/
def execRhWindowEnd (chan : Nat) (s : State) : Host.Outcome State Fault Refusal :=
  .next (s.setChan chan { s.chan chan with rh := [], limited := [] })

/-- REPEAT_ENTRY_EXPIRY (R301): the interval of a non-sticky entry ends and it leaves the table. -/
def execRepeatEntryExpiry (entry : Nat) (s : State) : Host.Outcome State Fault Refusal :=
  .next (if s.repeatValid entry ∧ !s.repeatSticky entry then s.repeatDrop entry else s)

/-- MR4_POLL (R290): the ranks' mode register 4 asks for a rate (0 1×, 1 2×, 2 4×); the higher of it and the band's
holds. -/
def execMr4Poll (chan rate : Nat) (s : State) : Host.Outcome State Fault Refusal :=
  .next (
    if s.dmcState chan = dmcOff ∨ s.dmcState chan = dmcFailed then s
    else (s.setChan chan { s.chan chan with mr4Rate := min rate 2 }).refreshRate chan)

end Sys2Proof.Machine
end

