-- ==== Sys2Proof/Machine/Saddlebag.lean ====
section
/-! DEFINITION. Saddlebag and queues (R261 to R281): creation and destruction of streams, the commands that push and pop
queues, the spill engine, the scrubber and the host apertures. -/

namespace Sys2Proof.Machine

/-! ## The command port (R263 to R265) -/

/-- KIND of a scheduled action entry that pushes a packet (R344). -/
def actPush : Nat := 2

/-- Whether a register value is a handle in force (R264): of a handle register, and of the target of an action entry that
pushes. -/
def State.holdsHandle (s : State) (a : Nat) : Bool :=
  isHandleReg a ||
    (decide (R.TIME_ACT_TARGET 0 ≤ a) && decide (a ≤ R.TIME_ACT_TARGET 1023) && (a - R.TIME_ACT_TARGET 0) % 0x40 == 0
      && s.fld (F.TIME_ACT_CTRL_KIND ((a - R.TIME_ACT_TARGET 0) / 0x40)) == actPush)

/-- References to a stream: handle registers in force and aperture bindings that name it (R264). -/
def State.refCount (s : State) (h : Word) : Nat :=
  (s.regs.filter fun e => e.2 == h && s.holdsHandle e.1).length

/-- Pages in use by every live stream and by the creation in progress. -/
def State.usedPages (s : State) : List Nat :=
  let live := s.sb.streams.flatMap fun e => if e.2.live then e.2.pages else []
  match s.sb.port with
  | some (.creating _ str) => live ++ str.pages
  | _ => live

/-- Pages that no stream holds, lowest first (R261). -/
def State.freePages (s : State) : List Nat :=
  let used := s.usedPages
  (List.range s.part.sbPages).filter fun p => !used.contains p

/-- Pages of the carve-out that spill queues hold. -/
def State.carveUsed (s : State) : Nat :=
  s.sb.streams.foldl (fun n e => if e.2.live then n + e.2.dramPages else n) 0

/-- Stream numbers of a kind that name no live stream, and none that is being made. -/
def State.freeNumbers (s : State) (kind : Nat) : List Nat :=
  let taken := match s.sb.port with
    | some (.creating key _) => some key
    | _ => none
  (List.range 4096).filter fun n => !(s.stream (4096 * kind + n)).live && taken != some (4096 * kind + n)

/-- The staged creation of SB_CMD: what it would make, before it is placed. -/
structure CreateReq where
  /-- 0 queue, 1 buffer. -/
  kind : Nat
  /-- Class. -/
  cls : Nat
  /-- RES = SPILL. -/
  spill : Bool
  /-- SPILL_WIN. -/
  win : Nat
  /-- SIZE. -/
  size : Nat
  deriving DecidableEq, Repr

/-- The creation that the fields of SB_CMD and SB_CMD_ARG ask for. -/
def State.createReq (s : State) : CreateReq :=
  ⟨s.fld F.SB_CMD_KIND, s.fld F.SB_CMD_CLASS, s.flag F.SB_CMD_RES, s.fld F.SB_CMD_SPILL_WIN,
    (s.reg R.SB_CMD_ARG).toNat⟩

/-- Resident pages a creation takes: the whole stream, or the two windows of a spill queue (R263, R266). -/
def CreateReq.pages (r : CreateReq) : Nat :=
  if r.spill then 2 * r.win else if r.kind = 1 then ceilDiv r.size 4096 else ceilDiv (4 * r.size) 4096

/-- Pages of the carve-out a spill queue takes: its depth beyond the two windows. -/
def CreateReq.dram (r : CreateReq) : Nat := if r.spill then ceilDiv (4 * r.size) 4096 - 2 * r.win else 0

/-- Pages of the carve-out that no spill queue holds, lowest first. -/
def State.freeCarve (s : State) : List Nat :=
  let used := s.sb.streams.flatMap fun e => if e.2.live then e.2.dramAt else []
  (List.range ((s.reg R.SB_SPILL_SIZE).toNat * 256)).filter fun p => !used.contains p

/-- The checks of R263 in order: 0 when the creation succeeds, else RESULT. No spill queue can be made while there is no
carve-out (R267), even one that its two windows hold whole. -/
def State.createCheck (s : State) (r : CreateReq) : Nat :=
  if r.size = 0 then 1
  else if (r.spill ∧ (r.kind = 1 ∨ r.cls ≤ 1 ∨ r.win = 0)) ∨ (r.kind = 1 ∧ r.size % 64 ≠ 0) then 2
  else if s.freeNumbers r.kind = [] then 3
  else if s.freePages.length < r.pages
      ∨ s.fld (F.SB_CLASS_BUDGET_PAGES r.cls) < s.fld (F.SB_CLASS_USED_PAGES r.cls) + r.pages
      ∨ (r.spill ∧ (s.reg R.SB_SPILL_SIZE = 0 ∨ (s.reg R.SB_SPILL_SIZE).toNat * 256 < s.carveUsed + r.dram)) then 4
  else 0

/-- `n` pages of a list from a place in it on, wrapping: the allocator's choice of place. -/
def takeFrom (l : List Nat) (start n : Nat) : List Nat :=
  let k := if l.length = 0 then 0 else start % l.length
  (l.drop k ++ l.take k).take n

/-- The next generation of a stream number: 255 is followed by 1 (R262). -/
def nextGen (g : Nat) : Nat := if g < 255 then g + 1 else 1

/-- A stream of the device's making or the port's, ready to go live at `key`: placed by the allocator's choice. -/
def State.placed (s : State) (key : Nat) (r : CreateReq) (internal : Bool) : Stream :=
  { Stream.never with
    gen := nextGen (s.stream key).gen
    live := true
    cls := r.cls
    spill := r.spill
    size := r.size
    pages := takeFrom s.freePages (Config.choice s.fresh) r.pages
    win := r.win
    dramPages := r.dram
    dramAt := if r.dram = 0 then [] else takeFrom s.freeCarve (Config.choice (s.fresh + 1)) r.dram
    internal := internal }

/-- The port ends a command: RESULT, BUSY clear, and SB_CMD_HANDLE (R263). -/
def State.portEnds (s : State) (result : Nat) (h : Word) : State :=
  ((({ s with sb := { s.sb with port := none } }).setFld F.SB_CMD_STATUS_RESULT result).setFld F.SB_CMD_STATUS_BUSY
    0).setReg R.SB_CMD_HANDLE h

/-- A CREATE with the port's fields (R263). -/
def State.sbCreate (s : State) : State :=
  let r := s.createReq
  let e := s.createCheck r
  if e = 0 then
    let nums := s.freeNumbers r.kind
    let n := nums.getD (Config.choice s.fresh % nums.length) 0
    let key := 4096 * r.kind + n
    let str := s.placed key r false
    let s1 := { s.tookFree with sb := { s.sb with port := some (.creating key str) } }
    (s1.bumpBy (F.SB_CLASS_USED_PAGES r.cls) str.pages.length).setFld F.SB_CMD_STATUS_BUSY 1
  else s.portEnds e 0

/-- A DESTROY of the stream that SB_CMD_ARG names (R264). -/
def State.sbDestroy (s : State) : State :=
  let h := s.reg R.SB_CMD_ARG
  match s.named h with
  | none => s.portEnds 6 0
  | some key =>
    if (s.stream key).internal then s.portEnds 6 0
    else if s.refCount h ≠ 0 then s.portEnds 5 0
    else ({ s with sb := { s.sb with port := some (.destroying key) } }).setFld F.SB_CMD_STATUS_BUSY 1

/-- Every operation that waits on a queue that has gone ends with STREAM. -/
def State.dropWaits (s : State) (key : Nat) : State :=
  (s.sb.waits.filter fun w => w.key == key).foldl (fun (t : State) w => t.respond w 7 true false false [])
    { s with sb := { s.sb with waits := s.sb.waits.filter fun w => w.key != key } }

/-- A live stream freed: its pages leave its class and its handle becomes invalid (R264). -/
def State.freeStream (s : State) (key : Nat) : State :=
  let str := s.stream key
  let s1 := s.setFld (F.SB_CLASS_USED_PAGES str.cls) (s.fld (F.SB_CLASS_USED_PAGES str.cls) - str.pages.length)
  (s1.setStream key { Stream.never with gen := str.gen }).dropWaits key

/-- A DESTROY takes effect at the boundary (R264). -/
def State.portBoundary (s : State) : State :=
  match s.sb.port with
  | some (.destroying key) => (s.freeStream key).portEnds 0 0
  | _ => s

/-- A buffer the device makes for its own use (R264): its handle, or 0 when it cannot be placed. -/
def State.makeInternal (s : State) (cls size : Nat) : State × Word :=
  let r : CreateReq := ⟨1, cls, false, 0, size⟩
  if s.createCheck r = 0 then
    let nums := s.freeNumbers 1
    let key := 4096 + nums.getD (Config.choice s.fresh % nums.length) 0
    let str := s.placed key r true
    ((s.tookFree.setStream key str).bumpBy (F.SB_CLASS_USED_PAGES cls) str.pages.length, mkHandle key str.gen)
  else (s, 0)

/-- A buffer of the device's own given back. -/
def State.dropInternal (s : State) (h : Word) : State :=
  match s.named h with
  | some key => s.freeStream key
  | none => s

/-- The writable fields of SB_CMD taken from a written word. -/
def State.writeSbCmd (s : State) (val : Word) : State := s.setReg R.SB_CMD (val &&& 0x7FFF0000)

/-- A write of SB_CMD (R263): its fields are staged, and START runs CMD with them. While BUSY a START is discarded and raises
BUSY_WRITE; the other fields take the write (R37). -/
def State.writePort (s : State) (src : Source) (val : Word) : State :=
  let s1 := s.writeSbCmd val
  if !val.msb then s1
  else if s.flag F.SB_CMD_STATUS_BUSY then s1.busyWrite src R.SB_CMD
  else match getBits val 30 29 with
    | 1 => s1.sbCreate
    | 2 => s1.sbDestroy
    | _ => s1

/-- CREATE (R263): a write of SB_CMD with START and CMD = CREATE. -/
def execCreate (src : Source) (val : Word) (s : State) : Host.Outcome State Fault Refusal :=
  .next (s.gate src R.SB_CMD (putBits val 30 29 1 ||| 0x80000000) fun s => s.writePort src (putBits val 30 29 1 ||| 0x80000000))

/-- CREATE_DONE (R263): the fill ends; the stream goes live with zeros and valid check bits and its handle is
returned. -/
def execCreateDone (s : State) : Host.Outcome State Fault Refusal :=
  .next (
    match s.sb.port with
    | some (.creating key str) => (s.setStream key str).portEnds 0 (mkHandle key str.gen)
    | _ => s)

/-- DESTROY (R264): a write of SB_CMD with START and CMD = DESTROY. -/
def execDestroy (src : Source) (val : Word) (s : State) : Host.Outcome State Fault Refusal :=
  .next (s.gate src R.SB_CMD (putBits val 30 29 2 ||| 0x80000000) fun s => s.writePort src (putBits val 30 29 2 ||| 0x80000000))

/-! ## Queues -/

/-- The producer number of a block requester (R270). -/
def blockProducer (req : Nat) : Nat := 1000 + req

/-- The producer number of an aperture. -/
def aperProducer (a : Nat) : Nat := 2000 + a

/-- A request of a requester to the queue a handle names; STREAM where it names none. -/
def State.blockRequest (s : State) (req : Nat) (h : Word) (push : Option (Nat × PWord × Bool)) (same delayed : Bool) : State :=
  match s.namedQueue h with
  | none => { s with resp := ⟨req, 7, false, false, false, []⟩ }
  | some key => (s.request ⟨key, req, none, push⟩ same delayed).serveWaits key

/-- QUEUE_PUSH (R271): a block producer pushes one word, its end word when `last`. The outcome goes to the requester
(R269). -/
def execQueuePush (req : Nat) (handle : Word) (word : PWord) (last : Bool) (turn : Turn) (s : State) :
    Host.Outcome State Fault Refusal :=
  .next (s.blockRequest req handle (some (blockProducer req, word, last)) turn.same turn.delayed)

/-- QUEUE_POP (R271): a block consumer pops one word; a double-bit error is delivered poisoned (R277). -/
def execQueuePop (req : Nat) (handle : Word) (turn : Turn) (s : State) : Host.Outcome State Fault Refusal :=
  .next (s.blockRequest req handle none turn.same turn.delayed)

/-! ## The spill engine (R266) -/

/-- The BAR4 offset of the place in the carve-out of the page of a spill queue that is moved out as number `n`. -/
def State.spillPlace (s : State) (key n : Nat) : Nat :=
  let at' := (s.stream key).dramAt
  pair64 (s.reg R.SB_SPILL_BASE_HI) (s.reg R.SB_SPILL_BASE_LO) + at'.getD (n % max 1 at'.length) 0 * 4096

/-- Words of a queue from a place on read through their checks (R277). -/
def State.checkWords (s : State) (key off : Nat) : List PWord → State × List PWord
  | [] => (s, [])
  | w :: ws =>
    let r := s.checkWord key off w
    let t := State.checkWords r.1 key (off + 1) ws
    (t.1, r.2 :: t.2)

/-- The requester of the spill engine's DRAM traffic: the device itself, in the bulk class. -/
def spillReq : Nat := 256

/-- One page moved from the tail window to DRAM (R266), a poisoned word with the mark of its line (R300); nothing when no whole
page of committed words is there or the queue's part of the carve-out is full. -/
def State.moveOut (s : State) (key : Nat) : State :=
  let q := s.stream key
  let i := q.head + q.dramWords
  if q.spill ∧ pageWords ≤ q.depth - i ∧ q.dramWords + pageWords ≤ q.dramAt.length * pageWords then
    let page := (q.words.drop i).take pageWords
    let r := s.checkWords key (q.popped + i) (page.map fun x => x.word)
    let s1 := r.1.setDramWords (s.spillPlace key q.dramOut) r.2
    s1.setStream key { s1.stream key with
      words := q.words.take i ++ (page.map fun x => { x with word := PWord.clean 0 }) ++ q.words.drop (i + pageWords)
      headWords := q.head
      dramWords := q.dramWords + pageWords
      dramOut := q.dramOut + 1 }
  else s

/-- The oldest page moved from DRAM to the head window (R266), poisoned where its line or its channel is (R289, R300); nothing
when none is in DRAM or the window has no room. -/
def State.moveIn (s : State) (key : Nat) : State :=
  let q := s.stream key
  if q.spill ∧ q.dramWords ≠ 0 ∧ q.headWords + pageWords ≤ q.win * pageWords then
    let a := s.spillPlace key (q.dramOut - q.dramWords / pageWords)
    let page := s.dramWords a pageWords
    let s1 := s.dramUse spillReq 2 a pageWords
    s1.setStream key { s1.stream key with
      words := q.words.take q.headWords
        ++ List.zipWith (fun (x : QWord) (w : PWord) => { x with word := w }) ((q.words.drop q.headWords).take pageWords) page
        ++ q.words.drop (q.headWords + pageWords)
      headWords := q.headWords + pageWords
      dramWords := q.dramWords - pageWords }
  else s

/-- SPILL_MOVE (R266): the spill engine moves one page out to DRAM or back to the head window, and what waited for it is served,
DELAYED. -/
def execSpillMove (handle : Word) (toDram : Bool) (s : State) : Host.Outcome State Fault Refusal :=
  .next (
    match s.namedQueue handle with
    | none => s
    | some key => (if toDram then s.moveOut key else s.moveIn key).serveWaits key)

/-- Words popped one by one by a block up to an end of packet, at most `fuel` of them, each through its check (R271,
R277); a pop that finds the head window of a spill queue empty waits for a page (R266). -/
def State.popUntilEnd (s : State) (req key : Nat) : Nat → State × List PWord
  | 0 => (s, [])
  | n + 1 =>
    let waits := (s.stream key).popWaits
    let s0 := if waits then s.moveIn key else s
    let r := (s0.stream key).pop
    match r.word with
    | none => (s0, [])
    | some w =>
      let c := ((s0.applyQueue req key r).countDelayed req waits).checkWord key (s0.stream key).popped w.word
      if w.last then (c.1, [c.2])
      else
        let t := State.popUntilEnd c.1 req key n
        (t.1, c.2 :: t.2)

/-- The oldest committed packet of the queue a handle names, popped; no words when there is none. -/
def State.popPacket (s : State) (req : Nat) (h : Word) : State × List PWord :=
  match s.namedQueue h with
  | none => (s, [])
  | some key =>
    let r := s.popUntilEnd req key (s.stream key).depth
    (r.1.serveWaits key, r.2)

/-! ## The scrubber (R278) -/

/-- SCRUB (R277, R278): the scrubber reads the word at an address with the error it finds there, or that is stored there, and
corrects or poisons its 64-bit word; an INT of 0 stops the scrubber. -/
def execScrub (addr : Nat) (err : WordError) (s : State) : Host.Outcome State Fault Refusal :=
  .next (
    match pageOwner (addr / 4096) s.sb.streams with
    | none => s
    | some (key, i) =>
      if s.reg R.SB_SCRUB_INT = 0 then s
      else
        let off := i * pageWords + addr % 4096 / 4
        let r := s.checkWord key off { s.wordIn key off with err := worseError err (s.wordIn key off).err }
        if r.2 = s.wordIn key off then r.1 else r.1.changeIn key off fun _ => r.2)

/-! ## Host apertures (R279) -/

/-- The BAR2 offset of an aperture's offset. -/
def bar2Off (a off : Nat) : BitVec 64 := BitVec.ofNat 64 (a * 2 ^ 24 + off)

/-- A host access to an aperture offset where nothing is (R21). -/
def State.aperHole (s : State) (a off : Nat) (read : Bool) : State :=
  let s1 := s.unmapped .host .b2 (bar2Off a off)
  if read then { s1 with readData := deadWord } else s1

/-- A host access to an aperture, `wr` what it writes: a hole before boot has completed (R390) and where there is no aperture; a
wheel turns a write away, and at the lead of a pair it waits for the next boundary (R427). -/
def State.aperGate (s : State) (a off : Nat) (wr : Option Word) (f : State → State) : State :=
  if !s.coreUp then s
  else if !s.flag F.PWR_STATE_BOOT_DONE ∨ 16 ≤ a then s.aperHole a off wr.isNone
  else match wr with
    | none => f s
    | some v =>
      if s.isWheel then s.accessEvent 3 .host .b2 (bar2Off a off)
      else if s.leadsPair then s.forwardAs (.bar2 a off v)
      else f s

/-- The live queue that an aperture is bound to. -/
def State.aperQueue (s : State) (a : Nat) : Option Nat := s.namedQueue (s.reg (R.SB_APER a))

/-- A read or write of a word of the buffer that an aperture is bound to; a hole at or above its size (R279). -/
def State.aperBuffer (s : State) (a off : Nat) (wr : Option Word) : State :=
  match s.namedBuffer (s.reg (R.SB_APER a)) with
  | none => s.aperHole a off wr.isNone
  | some key =>
    if (s.stream key).size ≤ off then s.aperHole a off wr.isNone
    else match wr with
      | some w => { (s.setBufWord key (off / 4) (PWord.clean w)) with resp := ⟨224, 0, false, false, false, []⟩ }
      | none =>
        let r := s.readBuf key (off / 4)
        { r.1 with readData := r.2.val, resp := ⟨224, 0, false, false, r.2.poison, [r.2.val]⟩ }

/-- A push or a pop by an aperture (R279); on a buffer an access at its offset. -/
def State.aperRequest (s : State) (a off : Nat) (wr : Option Word) (last : Bool) : State :=
  match s.aperQueue a with
  | none => s.aperBuffer a off wr
  | some key =>
    (s.request ⟨key, 224, some a, wr.map fun v => (aperProducer a, PWord.clean v, last)⟩ false false).serveWaits key

/-- What a write that reaches the register does. -/
def State.writeAper (s : State) (aper : Nat) (val : Word) : State :=
  let s1 := match s.aperQueue aper with
    | some key => s.setStream key ((s.stream key).markBad (aperProducer aper)).q
    | none => s
  s1.setReg (R.SB_APER aper) (if (s1.named val).isSome then val else 0)

/-- APER_BIND (R279): a write of SB_APER marks the aperture's open packet bad and binds the handle written; an invalid
one leaves it unbound. -/
def execAperBind (src : Source) (aper : Nat) (val : Word) (s : State) : Host.Outcome State Fault Refusal :=
  .next (s.gate src (R.SB_APER aper) val fun s => s.writeAper aper val)

/-- APER_PUSH (R279): a host write at aperture offset 0x00. -/
def execAperPush (aper : Nat) (val : Word) (s : State) : Host.Outcome State Fault Refusal :=
  .next (s.aperGate aper 0x00 (some val) fun s => s.aperRequest aper 0x00 (some val) false)

/-- APER_END (R279): a host write at aperture offset 0x04. -/
def execAperEnd (aper : Nat) (val : Word) (s : State) : Host.Outcome State Fault Refusal :=
  .next (s.aperGate aper 0x04 (some val) fun s => s.aperRequest aper 0x04 (some val) true)

/-- An aperture's answer to a mark or a read of the depth (R279, R269): the code, and ABSENT_UNIT in its place where the queue is
bound to an absent unit. -/
def State.aperAnswer (s : State) (a code : Nat) (ws : List Word) : State :=
  { (s.setAperQst a code false false) with resp := ⟨224, code, false, false, false, ws⟩ }

/-- A write at aperture offset 0x08 marks the open packet bad; on a queue the data is ignored (R279). -/
def State.aperBad (s : State) (aper : Nat) (val : Word) : State :=
  match s.aperQueue aper with
  | none => s.aperBuffer aper 0x08 (some val)
  | some key =>
    if (s.stream key).absent then s.aperAnswer aper 6 []
    else
      let r := (s.stream key).markBad (aperProducer aper)
      (s.applyQueue 224 key r).aperAnswer aper r.code []

/-- APER_BAD (R279): a host write at aperture offset 0x08. -/
def execAperBad (aper : Nat) (val : Word) (s : State) : Host.Outcome State Fault Refusal :=
  .next (s.aperGate aper 0x08 (some val) fun s => s.aperBad aper val)

/-- A host write through an aperture, by its offset (R279). -/
def State.aperWrite (s : State) (aper off : Nat) (val : Word) : State :=
  match off with
  | 0 => s.aperRequest aper 0 (some val) false
  | 4 => s.aperRequest aper 4 (some val) true
  | 8 => s.aperBad aper val
  | _ => s.aperBuffer aper off (some val)

/-- APER_POP (R279): a host read at aperture offset 0x10; an empty queue returns 0. -/
def execAperPop (aper : Nat) (s : State) : Host.Outcome State Fault Refusal :=
  .next (s.aperGate aper 0x10 none fun s => s.aperRequest aper 0x10 none false)

/-- APER_DEPTH (R279): a host read at aperture offset 0x14. -/
def execAperDepth (aper : Nat) (s : State) : Host.Outcome State Fault Refusal :=
  .next (s.aperGate aper 0x14 none fun s =>
    match s.aperQueue aper with
    | none => s.aperBuffer aper 0x14 none
    | some key =>
      if (s.stream key).absent then { (s.aperAnswer aper 6 [s.free]).tookFree with readData := s.free }
      else
        let d := w32 (s.stream key).depth
        { (s.aperAnswer aper 0 [d]) with readData := d })

/-- APER_BUFFER_ACCESS (R279): a host access through an aperture reads or writes a buffer word; on a queue any other
offset is a hole. -/
def execAperBufferAccess (aper off : Nat) (wr : Option Word) (s : State) : Host.Outcome State Fault Refusal :=
  .next (s.aperGate aper off wr fun s => s.aperBuffer aper off wr)

end Sys2Proof.Machine
end

