-- ==== Sys2Proof/Machine/Hide.lean ====
section
/-! DEFINITION. The Hide map (R143 to R160): the grid, deposition, the sweep, assimilation, the answers to the Tree and
the Rein, the carry between layers and the archive. -/

namespace Sys2Proof.Machine

/-- Requester of the Hide map's deposition and assimilation (R269). -/
def hideReq : Nat := 240

/-! ## Events (R160) -/

/-- TREE_JOB_STATUS.STATE (R110). -/
def State.jobState (s : State) : Nat := s.fld F.TREE_JOB_STATUS_STATE

/-- Whether the job is IDLE, DONE, STOPPED or REJECTED. -/
def State.jobAtRest (s : State) : Bool :=
  s.jobState == 0 || s.jobState == 6 || s.jobState == 8 || s.jobState == 9

/-- LAYER_NO of the layer in PREPARE to CLOSED, or 0xFFFF_FFFF outside a job. -/
def State.layerNoOrNone (s : State) : Word :=
  if 2 ≤ s.jobState ∧ s.jobState ≤ 5 then s.tree.layerNo else 0xFFFFFFFF

/-- An event packet of the map. -/
def State.hideEvent (s : State) (code low : Nat) : State :=
  s.pushEvent hideReq (s.reg R.HIDE_EVQ) [w32 (code * 2 ^ 24 + low % 2 ^ 16), s.layerNoOrNone, s.stitchLo]

/-! ## Cells (R143) -/

/-- WIDTH. -/
def State.hideW (s : State) : Nat := s.fld F.HIDE_GRID_WIDTH
/-- HEIGHT. -/
def State.hideH (s : State) : Nat := s.fld F.HIDE_GRID_HEIGHT
/-- Whether the grid is in use. -/
def State.hideOn (s : State) : Bool := s.flag F.HIDE_STATUS_ENABLED

/-- A cell as the map holds it now. -/
def State.cell (s : State) (k : Nat) : Nat := sget s.hide.fill s.hide.cells k

/-- A cell as every reader sees it (R147). -/
def State.cellSeen (s : State) (k : Nat) : Nat := sget s.hide.seenFill s.hide.seen k

/-- The state with a cell replaced. -/
def State.setCell (s : State) (k v : Nat) : State :=
  { s with hide := { s.hide with cells := sset s.hide.fill s.hide.cells k v } }

/-- Column or row of a bed coordinate along one axis. -/
def State.hideIndex (s : State) (origin p : Int) : Int := (p - origin).fdiv (s.reg R.HIDE_PITCH).toNat

/-- The column of a bed X. -/
def State.hideCol (s : State) (x : Int) : Int := s.hideIndex (s.reg R.HIDE_ORIGIN_X).toInt x

/-- The row of a bed Y. -/
def State.hideRow (s : State) (y : Int) : Int := s.hideIndex (s.reg R.HIDE_ORIGIN_Y).toInt y

/-- Whether a column and a row lie inside the grid. -/
def State.inGrid (s : State) (i j : Int) : Bool :=
  decide (0 ≤ i) && decide (i < s.hideW) && decide (0 ≤ j) && decide (j < s.hideH)

/-- The key of a cell inside the grid. -/
def State.cellKey (s : State) (i j : Int) : Nat := j.toNat * s.hideW + i.toNat

/-- A clip at 0xFFFF: SAT, and SATURATED at the first since it was armed (R150). -/
def State.saturate (s : State) : State :=
  let s1 := s.setFld F.HIDE_STATUS_SAT 1
  if s1.hide.satArmed then ({ s1 with hide := { s1.hide with satArmed := false } }).hideEvent 0x02 0 else s1

/-- `q` codes added to a cell, clipped at 0xFFFF. -/
def State.heatCell (s : State) (k q : Nat) : State :=
  let v := s.cell k + q
  if 0xFFFF < v then (s.setCell k 0xFFFF).saturate else s.setCell k v

/-! ## Deposition (R149, R150) -/

/-- TCLK of a Stitch before its TCLK `n` in which a block's gate is on (R149, R181). -/
def Block.onTime (b : Block) (n : Nat) : Nat :=
  match b.gate0, b.e0, b.e1 with
  | true, none, _ => n
  | true, some a, none => min a n
  | true, some a, some c => min a n + (n - c)
  | false, none, _ => 0
  | false, some a, none => n - a
  | false, some a, some c => min c n - a

/-- Footprint half-width: 0b11 acts as 0b10. -/
def State.hideFoot (s : State) : Nat := min 2 (s.fld F.HIDE_CTRL_FOOT)

/-- The offsets of a footprint: -f to f. -/
def footOffsets (f : Nat) : List Int := (List.range (2 * f + 1)).map fun k : Nat => (k : Int) - (f : Int)

/-- The deposit of slot `k` for the block applied at the boundary: `code` is its power, (x, y) its bed point, `on` its
on-time with EMIT_EN active. -/
def State.deposit (s : State) (k code on : Nat) (x y : Int) : State :=
  if on = 0 ∨ !s.hideOn ∨ s.hide.restarting then s
  else
    let n := s.period
    let w := (code * (s.reg (R.HIDE_DEPK k)).toNat + 0x8000) / 2 ^ 16
    let d := (w * on + n / 2) / n
    let foot := s.hideFoot
    let f := (2 * foot + 1) * (2 * foot + 1)
    let q := d / f
    let i := s.hideCol x
    let j := s.hideRow y
    let s1 := (footOffsets foot).foldl (fun s dj => (footOffsets foot).foldl (fun s di =>
      if s.inGrid (i + di) (j + dj) then s.heatCell (s.cellKey (i + di) (j + dj)) q else s) s) s
    if s1.inGrid i j then s1.heatCell (s1.cellKey i j) (d - q * f) else s1.bump F.HIDE_OUTSIDE_COUNT

/-! ## The sweep (R151 to R153) -/

/-- One sweep step from a cell and its four neighbours as the pass read them. -/
def sweepStep (t tn ts te tw base cool cond : Int) : Int :=
  let lap := tn + ts + te + tw - 4 * t
  let u := t + roundShift (lap * cond) 15
  u - roundShift ((u - base) * cool) 16

/-- A row of the grid as it stands. -/
def State.rowNow (s : State) (j : Nat) : List Nat := (List.range s.hideW).map fun i => s.cell (j * s.hideW + i)

/-- The rows a pass reads when it begins to write row `j`: the row after it, and at row 0 its own. A row read before is
kept as it was read. -/
def State.passRows (s : State) (p : Pass) (j : Nat) : Pass :=
  let row := if j = 0 then s.rowNow 0 else p.south
  let north := if j = 0 then row else p.row
  let south := if j + 1 < s.hideH then s.rowNow (j + 1) else row
  { p with north := north, row := row, south := south }

/-- One cell of a pass: what it writes is the sweep step of the values read, and whatever landed in the cell since it was
read is added (R148). -/
def State.sweepCell (s : State) (p : Pass) : State × Pass :=
  let i := p.pos % s.hideW
  let j := p.pos / s.hideW
  let p1 := if i = 0 then s.passRows p j else p
  let t := p1.row.getD i 0
  let te := if i + 1 < s.hideW then p1.row.getD (i + 1) t else t
  let tw := if i = 0 then t else p1.row.getD (i - 1) t
  let u := sweepStep t (p1.north.getD i t) (p1.south.getD i t) te tw p.base p.cool p.cond
  let v := u + ((s.cell p.pos : Int) - (t : Int))
  let s1 := if (0xFFFF : Int) < v then (s.setCell p.pos 0xFFFF).saturate else s.setCell p.pos v.toNat
  (s1, { p1 with pos := p.pos + 1 })

/-- Up to `k` cells of a pass. -/
def State.sweepCells (s : State) (p : Pass) (total : Nat) : Nat → State × Pass
  | 0 => (s, p)
  | k + 1 =>
    if total ≤ p.pos then (s, p)
    else
      let (s1, p1) := s.sweepCell p
      State.sweepCells s1 p1 total k

/-- Cells of one Stitch's sweep window (R147, R152). -/
def State.sweepRate (s : State) : Nat := 20 * (s.period - 65)

/-- The sweep window of the present Stitch: the pass goes on, and ends when it has written its last cell. -/
def State.sweepWindow (s : State) : State :=
  match s.hide.pass with
  | none => s
  | some p =>
    if s.hide.swept then s
    else
      let total := s.hideW * s.hideH
      let (s1, p1) := s.sweepCells p total s.sweepRate
      if total ≤ p1.pos then
        ({ s1 with hide := { s1.hide with pass := none, swept := true } }).setFld F.HIDE_STATUS_PASS 0
      else { s1 with hide := { s1.hide with pass := some p1 } }

/-- The pass length shown in HIDE_SWEEP_MIN (R152). -/
def State.sweepMin (s : State) : State :=
  s.setReg R.HIDE_SWEEP_MIN (w32 (ceilDiv (s.hideW * s.hideH) s.sweepRate))

/-- The cadence at a boundary (R152, R153). -/
def State.sweepCadence (s : State) : State :=
  let int := s.fld F.HIDE_SWEEP_INT_STITCHES
  let h := s.hide
  let start := { s with hide := { h with passDue := true, passLate := false, nextPass := some (s.now + int) } }
  if !s.hideOn ∨ h.restarting then s
  else if int = 0 then { s with hide := { h with passDue := false, passLate := false, nextPass := none } }
  else match h.nextPass with
    | none => if h.pass.isSome then { s with hide := { h with passLate := true, nextPass := some (s.now + int) } } else start
    | some d =>
      if h.passLate then if h.pass.isSome then s else start
      else if d ≤ s.now then
        if h.pass.isSome then
          (({ s with hide := { h with passLate := true } }).bump F.HIDE_SWEEP_LATE_COUNT).hideEvent 0x01 0
        else start
      else s

/-- SWEEP_PASS_START (R152): a pass that is due starts, with the coefficients in force. -/
def execSweepPassStart (s : State) : Host.Outcome State Fault Refusal :=
  .next (
    if s.hide.passDue ∧ s.hide.pass.isNone ∧ s.hideOn then
      ({ s with hide := { s.hide with
          passDue := false
          swept := false
          pass := some ⟨0, s.fld F.HIDE_BASE_VALUE, s.fld F.HIDE_COOL_VALUE, s.fld F.HIDE_COND_VALUE, [], [], []⟩ } }).setFld
        F.HIDE_STATUS_PASS 1
    else s)

/-! ## Assimilation (R154, R155) -/

/-- The codes of a KIND 1 record: two per word, low half first. -/
def halves : List Word → List Nat
  | [] => []
  | w :: ws => getBits w 15 0 :: getBits w 31 16 :: halves ws

/-- The record that a packet's words spell; none when R154 drops it. A record with no positions is empty. -/
def assimRecord (ws : List PWord) : Option AssimRec :=
  match ws with
  | a :: b :: rest =>
    let kind := getBits a.val 31 30
    let w := getBits b.val 6 0
    let h := getBits b.val 22 16
    let vals := rest.map fun p => p.val
    if ws.any (fun p => p.poison) ∨ 2 ≤ kind ∨ getBits a.val 29 24 ≠ 0 ∨ getBits b.val 31 24 ≠ 0
        ∨ getBits b.val 23 23 ≠ 0 ∨ getBits b.val 15 7 ≠ 0 ∨ 64 < w ∨ 64 < h then none
    else if kind = 0 then
      match vals with
      | [t] => if getBits t 31 16 ≠ 0 then none else some ⟨getBits a.val 23 12, getBits a.val 11 0, w, h, [getBits t 15 0], 0⟩
      | _ => none
    else if vals.length ≠ ceilDiv (w * h) 2 then none
    else
      let codes := halves vals
      if (codes.drop (w * h)).any (fun c => c != 0) then none
      else some ⟨getBits a.val 23 12, getBits a.val 11 0, w, h, codes, 0⟩
  | _ => none

/-- One position of a record applied (R155). I0 and J0 are 12-bit: a rectangle of a pipe that begins before column or row 0
wraps round to it (R233). -/
def State.assimPos (s : State) (r : AssimRec) : State :=
  let i := (r.i0 + r.pos % r.w) % 4096
  let j := (r.j0 + r.pos / r.w) % 4096
  let m := r.codes.getD (if r.codes.length = 1 then 0 else r.pos) 0
  if s.inGrid i j ∧ m ≠ 0 then
    let k := s.cellKey i j
    let t : Int := s.cell k
    let v := t + roundShift (((m : Int) - t) * (s.fld F.HIDE_ASSIM_GAIN_VALUE : Nat)) 16
    if (0xFFFF : Int) < v then (s.setCell k 0xFFFF).saturate else s.setCell k v.toNat
  else s

/-- Rectangle positions that records have still to be applied over. -/
def recordsLeft (l : List AssimRec) : Nat := l.foldl (fun n r => n + (r.w * r.h - r.pos)) 0

/-- The records applied, oldest first, over `left` positions; `n` bounds the positions and records met. -/
def State.assimRun (s : State) (left : Nat) : Nat → State
  | 0 => s
  | n + 1 =>
    match s.hide.work with
    | [] => s
    | r :: rs =>
      if r.w * r.h ≤ r.pos then State.assimRun { s with hide := { s.hide with work := rs } } left n
      else if left = 0 then s
      else
        let s1 := s.assimPos r
        State.assimRun { s1 with hide := { s1.hide with work := { r with pos := r.pos + 1 } :: rs } } (left - 1) n

/-- ASSIM_RECORD (R154, R155): the next record is popped, to be applied in this Stitch's window and the next ones; or it is
dropped and counted, or discarded while the gain is 0. -/
def execAssimRecord (s : State) : Host.Outcome State Fault Refusal :=
  .next (
    if s.hide.worked ∨ s.hide.assimLeft = 0 ∨ !s.packetWaits (s.reg R.HIDE_ASSIM_Q) then s
    else
      let (s1, ws) := s.popPacket hideReq (s.reg R.HIDE_ASSIM_Q)
      if s1.fld F.HIDE_ASSIM_GAIN_VALUE = 0 then s1
      else match assimRecord ws with
        | none => s1.bump F.HIDE_ASSIM_DROP_COUNT
        | some r =>
          if !s1.hideOn ∨ s1.hide.restarting then s1
          else { s1 with hide := { s1.hide with
            work := s1.hide.work ++ [r], assimLeft := s1.hide.assimLeft - r.w * r.h } })

/-! ## The work of a Stitch (R147) -/

/-- The deposit of the block a slot's head applies in the present Stitch, with EMIT_EN active as long as it was (R149). -/
def State.depositStep (s : State) (k : Nat) : State :=
  let a := sget Awl.atReset s.awls k
  let b := a.applied
  s.deposit k b.power (if a.emit then b.onTime (min s.period (s.hide.emitCut.getD s.period)) else 0) b.bedX b.bedY

/-- The deposits and the assimilation of the present Stitch, once; the model does them when a later part of the Stitch needs
them, since every reader of R147 sees them only from the next boundary on. -/
def State.hideWork (s : State) : State :=
  if s.hide.worked then s
  else
    let s1 := (List.range s.part.row.lasers).foldl State.depositStep s
    let s2 := s1.assimRun 320 (321 + s1.hide.work.length)
    { s2 with hide := { s2.hide with worked := true } }

/-- The map at the end of a Stitch: what is left of its work, and its sweep window. -/
def State.hideEnd (s : State) : State := s.hideWork.sweepWindow

/-- SWEEP_PASS_END (R152): the pass writes its last cell in this Stitch's sweep window. -/
def execSweepPassEnd (s : State) : Host.Outcome State Fault Refusal :=
  .next (
    match s.hide.pass with
    | none => s
    | some p => if s.hideW * s.hideH ≤ p.pos + s.sweepRate then s.hideWork.sweepWindow else s)

/-! ## Answers to the Tree and the Rein (R156, R157) -/

/-- The highest of the cells of a row from column `i` on, over `n` columns. -/
def State.rowMax (s : State) (j i : Nat) : Nat → Nat
  | 0 => 0
  | n + 1 => max (s.cellSeen (j * s.hideW + i)) (State.rowMax s j (i + 1) n)

/-- The highest of the cells of `m` rows from row `j` on, over `n` columns from column `i` on. -/
def State.rectMax (s : State) (i n j : Nat) : Nat → Nat
  | 0 => 0
  | m + 1 => max (s.rowMax j i n) (State.rectMax s i n (j + 1) m)

/-- The start-temperature query for a box: the highest cell it touches; none when no cell lies inside the grid. -/
def State.boxMax (s : State) (x0 y0 x1 y1 : Int) : Option Nat :=
  let i0 := max 0 (s.hideCol x0)
  let j0 := max 0 (s.hideRow y0)
  let i1 := min ((s.hideW : Int) - 1) (s.hideCol x1)
  let j1 := min ((s.hideH : Int) - 1) (s.hideRow y1)
  if i1 < i0 ∨ j1 < j0 then none
  else some (s.rectMax i0.toNat (i1 - i0 + 1).toNat j0.toNat (j1 - j0 + 1).toNat)

/-- Entry `i` of the feedforward curve, Q2.14. -/
def State.curveEntry (s : State) (i : Nat) : Nat :=
  let w := s.reg (R.HIDE_CURVE (i / 2))
  if i % 2 = 0 then getBits w 15 0 else getBits w 31 16

/-- The factor of the curve at a temperature (R157). -/
def State.curveAt (s : State) (t : Nat) : Nat :=
  let shift := s.fld F.HIDE_CURVE_IDX_SHIFT
  let d := t - s.fld F.HIDE_CURVE_IDX_T0
  let i := d / 2 ^ shift
  let r := d - i * 2 ^ shift
  if 63 ≤ i then 4 * s.curveEntry 63
  else
    let e0 : Int := s.curveEntry i
    let e1 : Int := s.curveEntry (i + 1)
    (4 * e0 + roundShift (4 * (e1 - e0) * r) shift).toNat

/-- The factor for a spot at a bed point, Q16.16 (R145, R157). -/
def State.hideFactor (s : State) (x y : Int) : Nat :=
  let i := s.hideCol x
  let j := s.hideRow y
  if s.hideOn ∧ s.inGrid i j then s.curveAt (s.cellSeen (s.cellKey i j)) else 0x10000

/-! ## Carry and archive (R158, R159) -/

/-- The carry of one temperature. -/
def carried (base couple t : Int) : Nat := (base + roundShift ((t - base) * couple) 16).toNat

/-- Every listed cell through a function that also takes the unlisted value; a cell that comes out equal to the new
unlisted value leaves the list. -/
def mapCells (f : Nat → Nat) (fill : Nat) : Sparse Nat → Sparse Nat
  | [] => []
  | (k, v) :: m => if f v = f fill then mapCells f fill m else (k, f v) :: mapCells f fill m

/-- The carry at the boundary at which the job enters PREPARE with DZ above 0: every cell and every reader's view, the
active pass abandoned with its written rows kept, and a new pass due here (R158). -/
def State.carry (s : State) : State :=
  if !s.hideOn then s
  else
    let f := fun t : Nat => carried (s.fld F.HIDE_BASE_VALUE) (s.fld F.HIDE_COUPLE_VALUE) t
    let h := s.hide
    let int := s.fld F.HIDE_SWEEP_INT_STITCHES
    (({ s with hide := { h with
        fill := f h.fill
        cells := mapCells f h.fill h.cells
        seenFill := f h.seenFill
        seen := mapCells f h.seenFill h.seen
        pass := none
        passLate := false
        passDue := int != 0
        nextPass := if int = 0 then none else some (s.now + int) } }).setFld F.HIDE_STATUS_PASS 0).hideEvent 0x03 0

/-- SATURATED is rearmed (R150). -/
def State.rearmSat (s : State) : State := { s with hide := { s.hide with satArmed := true } }

/-- The bytes of consecutive cells at the boundary from a key on. -/
def State.cellBytes (s : State) (k : Nat) : Nat → List Byte
  | 0 => []
  | n + 1 => BitVec.ofNat 8 (s.cellSeen k) :: BitVec.ofNat 8 (s.cellSeen k / 256) :: State.cellBytes s (k + 1) n

/-- ARCH_STRIDE. -/
def State.archStride (s : State) : Nat := ceilDiv (64 + s.hideW * s.hideH * 2) 64 * 64

/-- The snapshot at the CLOSED boundary when archiving is on: the cells as they stood at that boundary (R159). -/
def State.snapshot (s : State) : State :=
  let slots := s.fld F.HIDE_ARCH_SLOTS_VALUE
  if slots = 0 ∨ !s.hideOn then s
  else if s.hide.arch.isSome then s.hideEvent 0x05 0
  else
    let slot := s.fld F.HIDE_STATUS_ARCH_NEXT
    let base := pair64 (s.reg R.HIDE_ARCH_BASE_HI) (s.reg R.HIDE_ARCH_BASE_LO) + slot * s.archStride
    let head := [s.layerNoOrNone, s.stitchLo, (s.stitch >>> 32).truncate 32, w32 (s.hideH * 2 ^ 16 + s.hideW),
      s.reg R.HIDE_PITCH, s.reg R.HIDE_ORIGIN_X, s.reg R.HIDE_ORIGIN_Y] ++ List.replicate 9 0
    ({ s with hide := { s.hide with
        arch := some ⟨slot, base, padTo (64 + ceilDiv (s.hideW * s.hideH) 2 * 4)
          (bytesOfWords head ++ s.cellBytes 0 (s.hideW * s.hideH))⟩ } }).setFld
      F.HIDE_STATUS_ARCH_BUSY 1

/-- Bytes written to DRAM from a BAR4 offset on, a word at a time. -/
def State.copyOut (s : State) (off : Nat) : List Word → State
  | [] => s
  | w :: ws => State.copyOut (s.setDramWord off (PWord.clean w)) (off + 4) ws

/-- ARCHIVED (R159): the copy ends and the ring index advances. -/
def execArchived (s : State) : Host.Outcome State Fault Refusal :=
  .next (
    match s.hide.arch with
    | none => s
    | some a =>
      let s1 := s.copyOut a.base (wordsOfBytes a.bytes)
      let slots := s1.fld F.HIDE_ARCH_SLOTS_VALUE
      ((({ s1 with hide := { s1.hide with arch := none } }).setFld F.HIDE_STATUS_ARCH_BUSY 0).setFld
        F.HIDE_STATUS_ARCH_NEXT (if slots = 0 then 0 else (a.slot + 1) % slots)).hideEvent 0x04 a.slot)

/-! ## Enable and disable (R144) -/

/-- The checks of an enable: the code of HIDE_STATUS.RESULT, and the state with the grid placed when it is 0. -/
def State.hidePlace (s : State) : State × Nat :=
  let w := s.hideW
  let h := s.hideH
  let p := (s.reg R.HIDE_PITCH).toNat
  if w = 0 ∨ h = 0 then (s, 1)
  else if 2048 < w ∨ 2048 < h ∨ p < 1600 ∨ 32000 < p then (s, 2)
  else
    let (s1, g) := s.makeInternal 0 (ceilDiv (w * h * 2) 64 * 64)
    if g = 0 then (s, 3)
    else ({ s1 with hide := { s1.hide with
      grid := g, filling := true, fill := s1.fld F.HIDE_BASE_VALUE, cells := [] } }, 0)

/-- The grid released (R144). -/
def State.hideRelease (s : State) : State :=
  let s1 := if s.hide.grid = 0 then s else s.dropInternal s.hide.grid
  let s2 := { s1 with hide := { s1.hide with
    grid := 0, cells := [], fill := 0, seen := [], seenFill := 0, filling := false, filled := false, refused := none,
    pass := none, passDue := false, passLate := false, nextPass := none, work := [] } }
  ((s2.setFld F.HIDE_CTRL_ENABLE 0).setFld F.HIDE_STATUS_ENABLED 0).setFld F.HIDE_STATUS_PASS 0

/-- A write of HIDE_CTRL: FOOT under sh, ENABLE under R144. -/
def State.writeHideCtrl (s : State) (src : Source) (val : Word) : State :=
  let a := R.HIDE_CTRL
  let s1 := s.stage a (putBits (s.written a) 2 1 (getBits val 2 1))
  let now := s1.flag F.HIDE_CTRL_ENABLE
  let want := getBits val 0 0 != 0
  if now = want then s1
  else if !s1.jobAtRest then s1.busyWrite src a
  else if want then
    let s2 := s1.setFld F.HIDE_CTRL_ENABLE 1
    let (s3, r) := s2.hidePlace
    if r = 0 then s3 else { s3 with hide := { s3.hide with refused := some r } }
  else s1.hideRelease

/-- HIDE_ENABLE (R144): a write of HIDE_CTRL that sets ENABLE. -/
def execHideEnable (src : Source) (val : Word) (s : State) : Host.Outcome State Fault Refusal :=
  .next (s.gate src R.HIDE_CTRL (val ||| 1) fun s => s.writeHideCtrl src (val ||| 1))

/-- HIDE_DISABLE (R144): a write of HIDE_CTRL that clears ENABLE. -/
def execHideDisable (src : Source) (val : Word) (s : State) : Host.Outcome State Fault Refusal :=
  .next (s.gate src R.HIDE_CTRL (val &&& 0xFFFFFFFE) fun s => s.writeHideCtrl src (val &&& 0xFFFFFFFE))

/-- HIDE_FILL_DONE (R144): the fill ends; ENABLED reads 1 from the next boundary. -/
def execHideFillDone (s : State) : Host.Outcome State Fault Refusal :=
  .next (if s.hide.filling then { s with hide := { s.hide with filling := false, filled := true } } else s)

/-! ## The boundary -/

/-- A reader's view taken and the boundary's own work on the map, before the deposits of the new Stitch. -/
def State.hideBoundary (s : State) : State :=
  let s0 := { s with hide := { s.hide with swept := false, worked := false, emitCut := none, assimLeft := 320 - recordsLeft s.hide.work } }
  let s1 := match s0.hide.refused with
    | some r => (({ s0 with hide := { s0.hide with refused := none } }).setFld F.HIDE_STATUS_RESULT r).setFld
        F.HIDE_CTRL_ENABLE 0
    | none => s0
  let s2 := if s1.hide.filled then
      (({ s1 with hide := { s1.hide with filled := false, nextPass := none } }).setFld F.HIDE_STATUS_RESULT 0).setFld
        F.HIDE_STATUS_ENABLED 1
    else s1
  let s3 := if s2.hide.restarting ∧ s2.hide.restartAt ≠ s2.now then
      let s' := { s2 with hide := { s2.hide with restarting := false, nextPass := none } }
      if s2.hide.wasEnabled then s'.setFld F.HIDE_STATUS_ENABLED 1 else s'
    else s2
  let s4 := s3.sweepMin.sweepCadence
  { s4 with hide := { s4.hide with seen := s4.hide.cells, seenFill := s4.hide.fill } }

/-- A block restart of the map takes effect (R146): the pass and the copy are abandoned, and the lines the copy had
written by then are what the spec leaves open. It completes at the boundary after this one; SAT is cleared, so SATURATED is
armed (R150). -/
def State.hideRestart (s : State) : State :=
  let s1 := match s.hide.arch with
    | some a => (s.copyOut a.base (wordsOfBytes (a.bytes.take (64 * (Config.choice s.fresh % (a.bytes.length / 64 + 1)))))).tookFree
    | none => s
  (({ s1 with hide := { s1.hide with
      pass := none, passDue := false, passLate := false, nextPass := none, arch := none, work := [], satArmed := true,
      wasEnabled := s1.hideOn, restarting := true, restartAt := s1.now } }).setFld F.HIDE_STATUS_ARCH_BUSY 0).setFld F.HIDE_STATUS_PASS 0

end Sys2Proof.Machine
end

