-- ==== Sys2Proof/Machine/Geometry.lean ====
section
/-! DEFINITION. Exact and fixed-point geometry for scan paths and placement (R104, R120, R123, R165, R168): integer square
roots, the device's sine and cosine, directions, arcs and the points of a path. Lengths along a path are in 2^-24 bu;
unit directions are in units of 2^-62. A direction that a later stroke inherits is an exact vector of whole numbers, of any
length; unit directions and arcs are rational approximations with at least 2^-60 of accuracy, where the spec gives real numbers
(assumption log). -/

namespace Sys2Proof.Machine

/-! ## Square roots -/

/-- The integer square root of `n` below 2^256. -/
def wideSqrt (n : Nat) : Nat := isqrtBits 128 n 0

/-- The least integer whose square is at least `n`. -/
def ceilSqrt (n : Nat) : Nat :=
  let r := wideSqrt n
  if r * r = n then r else r + 1

/-- The square of the length of a vector. -/
def sqLen (dx dy : Int) : Nat := dx.natAbs * dx.natAbs + dy.natAbs * dy.natAbs

/-- The length of a vector in 2^-24 bu, rounded down. -/
def pathLen (dx dy : Int) : Nat := wideSqrt (sqLen dx dy * 2 ^ 48)

/-- Cross product. -/
def cross (ax ay bx by' : Int) : Int := ax * by' - ay * bx

/-- Dot product. -/
def dot (ax ay bx by' : Int) : Int := ax * bx + ay * by'

/-! ## Sine and cosine, in units of 2^-62 -/

/-- One in units of 2^-62. -/
def unit62 : Int := 2 ^ 62

/-- π in units of 2^-62. -/
def pi62 : Int := 14488038916154245685

/-- The terms of a sine or cosine series after `t`, `k` of them: each is the last times -x² / ((m + 1) (m + 2)). -/
def trigSeries (xx : Int) : Nat → Int → Int → Int
  | 0, t, _ => t
  | k + 1, t, m => t + trigSeries xx k (-(divRound (t * xx) (2 ^ 62 * ((m + 1) * (m + 2)).toNat))) (m + 2)

/-- Cosine and sine of an angle from 0 to π / 4, in units of 2^-62. -/
def trigSmall (x : Int) : Int × Int :=
  let xx := divRound (x * x) (2 ^ 62)
  (trigSeries xx 14 unit62 0, trigSeries xx 14 x 1)

/-- Cosine and sine of an angle from 0 to π / 2. -/
def trigQuarter (x : Int) : Int × Int :=
  if 2 * x ≤ pi62 / 2 then trigSmall x
  else
    let (c, s) := trigSmall (pi62 / 2 - x)
    (s, c)

/-- Cosine and sine of an angle from 0 to 2 π. -/
def trig (x : Int) : Int × Int :=
  let h := pi62 / 2
  if x ≤ h then trigQuarter x
  else if x ≤ 2 * h then
    let (c, s) := trigQuarter (x - h)
    (-s, c)
  else if x ≤ 3 * h then
    let (c, s) := trigQuarter (x - 2 * h)
    (-c, -s)
  else
    let (c, s) := trigQuarter (x - 3 * h)
    (s, -c)

/-- Cosine and sine of a code of 65,536 per turn, exact at every multiple of an eighth turn's symmetry. -/
def trigCode (a : Nat) : Int × Int :=
  let q := a / 0x4000 % 4
  let r := a % 0x4000
  let (c, s) :=
    if r = 0 then (unit62, 0)
    else if r = 0x2000 then
      let h : Int := wideSqrt (2 ^ 123)
      (h, h)
    else if r < 0x2000 then trigSmall (r * pi62 / 32768)
    else
      let (c, s) := trigSmall ((0x4000 - r) * pi62 / 32768)
      (s, c)
  match q with
  | 0 => (c, s)
  | 1 => (-s, c)
  | 2 => (-c, -s)
  | _ => (s, -c)

/-- The device's Q1.15 cosine and sine of a code of 65,536 per turn: nearest value, 1.0 held to 0x7FFF (R123). -/
def flowTable (a : Nat) : Int × Int :=
  let (c, s) := trigCode a
  (min 0x7FFF (divRound c (2 ^ 47)), min 0x7FFF (divRound s (2 ^ 47)))

/-! ## Directions -/

/-- The unit direction of a vector, in units of 2^-62; zero for no vector. -/
def unitDir (dx dy : Int) : Int × Int :=
  let m := sqLen dx dy
  if m = 0 then (0, 0)
  else
    let f := fun d : Int =>
      let q : Nat := wideSqrt (d.natAbs * d.natAbs * 2 ^ 124 / m)
      if d < 0 then -(q : Int) else (q : Int)
    (f dx, f dy)

/-- The direction at the end of an arc over a chord `c` that starts along `v`: the mirror image of `v` in the chord, exact and
without common factors. -/
def arcEndDir (vx vy cx cy : Int) : Int × Int :=
  let d := 2 * dot vx vy cx cy
  let m : Int := sqLen cx cy
  let ex := d * cx - m * vx
  let ey := d * cy - m * vy
  let g : Int := max 1 (Nat.gcd ex.natAbs ey.natAbs)
  (ex / g, ey / g)

/-- Whether the angle between two directions is at most `maxCode` of 65,536 per turn, up to half a turn (R168). -/
def cornerOk (ax ay bx by' : Int) (maxCode : Nat) : Bool :=
  if 0x8000 ≤ maxCode then true
  else
    let c : Int := (cross ax ay bx by').natAbs
    let d := dot ax ay bx by'
    let (cm, sm) := trigCode maxCode
    if maxCode = 0 then decide (c = 0) && decide (0 < d) else decide (c * cm - d * sm ≤ 0)

/-! ## Points of a path (R165) -/

/-- The nearest integer to half of `z`, ties away from zero, where `lo` is `z` rounded down and `hi` rounded up. -/
def nearestHalf (lo hi : Int) : Int := if 0 ≤ lo then (lo + 1) / 2 else -((-hi + 1) / 2)

/-- Twice an offset along one axis, rounded down and up: `d` is the axis part of a direction whose squared length is `m`,
`s` the distance in 2^-24 bu. -/
def twiceOffset (d s : Int) (m : Nat) : Int × Int :=
  let num := 4 * (d * s).natAbs * (d * s).natAbs
  let den := m * 2 ^ 48
  let q : Nat := wideSqrt (num / den)
  let up : Nat := if q * q * den = num then q else q + 1
  if d * s < 0 then (-(up : Int), -(q : Int)) else ((q : Int), (up : Int))

/-- The bed point on a line at a distance from its start, rounded to the nearest bu with ties away from zero. -/
def linePoint (x y dx dy s : Int) : Int × Int :=
  let m := sqLen dx dy
  if m = 0 then (x, y)
  else
    let (xl, xh) := twiceOffset dx s m
    let (yl, yh) := twiceOffset dy s m
    (nearestHalf (2 * x + xl) (2 * x + xh), nearestHalf (2 * y + yl) (2 * y + yh))

/-- The offset and direction after an angle along an arc: along the start direction, towards the centre. -/
def arcAt (ux uy : Int) (left : Bool) (radius : Nat) (angle : Int) : (Int × Int) × (Int × Int) :=
  let (c, s) := trig angle
  let (nx, ny) := if left then (-uy, ux) else (uy, -ux)
  let k := unit62 - c
  (((radius : Int) * (s * ux + k * nx), (radius : Int) * (s * uy + k * ny)),
    (divRound (c * ux + s * nx) (2 ^ 62), divRound (c * uy + s * ny) (2 ^ 62)))

/-- The angle swept over a distance along an arc. -/
def arcAngle (radius : Nat) (s : Int) : Int := if radius = 0 then 0 else s * unit62 / (radius : Int)

/-- The bed point of a shape at a distance from its start. -/
def Shape.point : Shape → Int → Int × Int
  | .line x y dx dy, s => linePoint x y dx dy s
  | .arc x y ux uy left radius, s =>
    let ((ox, oy), _) := arcAt ux uy left radius (arcAngle radius s)
    (divRound (x * 2 ^ 148 + ox) (2 ^ 148), divRound (y * 2 ^ 148 + oy) (2 ^ 148))

/-- The bed point at a distance along a path. -/
def pathPoint : List PathPart → Int → Int × Int
  | [], _ => (0, 0)
  | [p], s => p.shape.point (p.start + s)
  | p :: q :: ps, s => if s ≤ p.len then p.shape.point (p.start + s) else pathPoint (q :: ps) (s - p.len)

/-! ## Tangent arcs (R104) -/

/-- Half the angle an arc sweeps: the angle from its start direction to its chord, found bit by bit. -/
def chordAngle (ux uy cx cy : Int) : Int :=
  let cr : Int := (cross ux uy cx cy).natAbs
  let d := dot ux uy cx cy
  largestBelow (fun a =>
    let (c, s) := trig a
    decide ((a : Int) ≤ pi62) && decide (0 ≤ cr * c - d * s)) 64 0

/-- The arc from (x, y) with the exact start direction (vx, vy) to the end (x + cx, y + cy): its shape, its length in 2^-24 bu
and its exact end direction; none when the end lies on the tangent line, which the exact vectors tell. -/
def tangentArc (x y vx vy cx cy : Int) : Option (Shape × Nat × (Int × Int)) :=
  let cr := cross vx vy cx cy
  if cr = 0 then none
  else
    let (ux, uy) := unitDir vx vy
    let radius := sqLen cx cy * 2 ^ 85 / max 1 (cross ux uy cx cy).natAbs
    let left := decide (0 < cr)
    let sweep := 2 * chordAngle ux uy cx cy
    let len := (radius * sweep.toNat) / 2 ^ 62
    some (.arc x y ux uy left radius, len, arcEndDir vx vy cx cy)

/-- The points of an arc at its extremes on each axis (R172): where its direction runs along an axis. -/
def arcExtremes (ux uy : Int) (left : Bool) (radius len : Nat) (x y : Int) : List (Int × Int) :=
  let sweep := arcAngle radius len
  let turn := if left then (ux, uy) else (ux, -uy)
  [(1, 0), (0, 1), (-1, 0), (0, -1)].filterMap fun axis : Int × Int =>
    let a := chordAngle turn.1 turn.2 axis.1 axis.2
    let up := decide (0 ≤ cross turn.1 turn.2 axis.1 axis.2)
    let angle := if up then a else 2 * pi62 - a
    if angle ≤ sweep then
      let ((ox, oy), _) := arcAt ux uy left radius angle
      some (divRound (x * 2 ^ 148 + ox) (2 ^ 148), divRound (y * 2 ^ 148 + oy) (2 ^ 148))
    else none

end Sys2Proof.Machine
end

