-- ==== Sys2Proof/Machine/Pixels.lean ====
section
/-! DEFINITION. The pixel stages and the statistics of an imaging pipe (R222 to R229), as functions of a frame's pixels and
the parameters that apply to it. A pixel that the frame lacks is none and takes no part (R223). -/

namespace Sys2Proof.Machine

/-- Rows of pixels. -/
abbrev Grid := List (List (Option Nat))

/-- A pixel of a grid; none outside it. -/
def Grid.at (g : Grid) (x y : Int) : Option Nat :=
  if x < 0 ∨ y < 0 then none else (g.getD y.toNat []).getD x.toNat none

/-- A grid of a width and a height from a function of column and row. -/
def Grid.tab (w h : Nat) (f : Nat → Nat → Option Nat) : Grid :=
  (List.range h).map fun y => (List.range w).map fun x => f x y

/-- What a frame is processed with. -/
structure PixParams where
  /-- WIDTH. -/
  width : Nat
  /-- HEIGHT. -/
  height : Nat
  /-- OB_ROWS. -/
  obRows : Nat
  /-- 0 two-band, 1 RGGB, 2 monochrome. -/
  mosaic : Nat
  /-- BL_OFS of the four channels. -/
  offs : List Int
  /-- OB_EN. -/
  obEn : Bool
  /-- OB_GAIN. -/
  obGain : Nat
  /-- DYN_EN. -/
  dynEn : Bool
  /-- DPC_THR. -/
  dpcThr : Nat
  /-- Static map: columns and rows. -/
  map : List (Nat × Nat)
  /-- Shading grid, channel-major then row-major; none for a gain of 1.0. -/
  shade : Option (List Nat)
  /-- FLOOR of MINSIG. -/
  minsig : Nat
  /-- Temperature table. -/
  lut : List Nat
  /-- POOL. -/
  pool : Nat
  /-- SPAT_MIN. -/
  spatMin : Nat
  /-- SHIFT. -/
  shift : Nat
  /-- T0. -/
  t0 : Nat
  /-- The counter of free values. -/
  fresh : Nat

/-- Pixels cut into lines of `w`; the last may be shorter. -/
def cutLines (w : Nat) : Nat → List Nat → List (List Nat)
  | 0, _ => []
  | n + 1, l => if l = [] ∨ w = 0 then [] else l.take w :: cutLines w n (l.drop w)

/-! ## Black level (R224) -/

/-- The mosaic channel of a place; rows before the active area count from -1 down. -/
def channelOf (x y : Int) : Nat := (2 * (y % 2) + x % 2).toNat

/-- The raw values of a channel in the first `w` pixels of the optical-black rows; what lies beyond is dropped (R223). -/
def obValues (rows : List (List Nat)) (w ob c : Nat) : List Nat :=
  (List.range ob).flatMap fun r =>
    let row := (rows.getD r []).take w
    (List.range row.length).filterMap fun x : Nat =>
      if channelOf x ((r : Int) - ob) = c then some (row.getD x 0 % 4096) else none

/-- A channel's tracked level after the optical-black rows. A channel with no pixel there keeps its level. -/
def trackAfter (q : PixParams) (rows : List (List Nat)) (first : Bool) (c : Nat) (track : Int) : Int :=
  if !q.obEn then 0
  else
    let vs := obValues rows q.width q.obRows c
    if vs = [] then track
    else
      let obm := divRound ((vs.foldl (· + ·) 0 : Nat) : Int) vs.length
      if first then obm else track + roundShift ((obm - track) * (q.obGain : Nat)) 16

/-- The active pixels with their black level taken off. -/
def blackGrid (q : PixParams) (rows : List (List Nat)) (track : List Int) : Grid :=
  Grid.tab q.width q.height fun x y =>
    match (rows.getD (q.obRows + y) [])[x]? with
    | none => none
    | some raw =>
      let c := channelOf x y
      some (clampInt 0 4095 (((raw % 4096 : Nat) : Int) - (q.offs.getD c 0 + track.getD c 0))).toNat

/-! ## Defects (R225) -/

/-- A pixel's usable neighbours: two to the left and right, in the frame and not on the static map. -/
def dpcNeighbours (q : PixParams) (g : Grid) (x y : Nat) : List Nat :=
  [(x : Int) - 2, (x : Int) + 2].filterMap fun u => if q.map.contains (u.toNat, y) then none else g.at u y

/-- Whether the dynamic check marks a pixel. -/
def dpcDynamic (q : PixParams) (g : Grid) (x y v : Nat) : Bool :=
  let ns := dpcNeighbours q g x y
  q.dynEn && ns != [] && (decide (ns.foldl max 0 + q.dpcThr < v) || decide (v + q.dpcThr < ns.foldl min 0xFFFF))

/-- A pixel after defect correction. -/
def dpcPixel (q : PixParams) (g : Grid) (x y : Nat) : Option Nat :=
  match g.at x y with
  | none => none
  | some v =>
    if q.map.contains (x, y) ∨ dpcDynamic q g x y v then
      let ns := dpcNeighbours q g x y
      if ns = [] then some ((Config.pixel q.fresh x y).toNat % 4096) else some (ns.foldl (· + ·) 0 / ns.length)
    else some v

/-- Pixels that the dynamic check alone replaces. -/
def dpcCount (q : PixParams) (g : Grid) : Nat :=
  ((List.range q.height).map fun y : Nat => ((List.range q.width).filter fun x : Nat =>
    match g.at x y with
    | none => false
    | some v => !q.map.contains (x, y) && dpcDynamic q g x y v).length).foldl (· + ·) 0

/-! ## Shading (R226) -/

/-- A pixel times its interpolated gain: the gain is exact, and the product is rounded once. -/
def shadePixel (q : PixParams) (x y v : Nat) : Nat :=
  match q.shade with
  | none => v
  | some grid =>
    let sx := ceilDiv q.width 16
    let sy := ceilDiv q.height 16
    let i := min (x / sx) 16
    let j := min (y / sy) 16
    let node := fun (a b : Nat) => grid.getD (channelOf x y * 289 + min b 16 * 17 + min a 16) 0
    let fx := x % sx
    let fy := y % sy
    let g := (sx - fx) * (sy - fy) * node i j + fx * (sy - fy) * node (i + 1) j + (sx - fx) * fy * node i (j + 1)
      + fx * fy * node (i + 1) (j + 1)
    min 4095 (divRound ((v * g : Nat) : Int) (sx * sy * 2 ^ 14)).toNat

/-! ## Demosaic (R227) -/

/-- A coordinate mirrored about the edge pixel of its axis. -/
def mirror (n : Nat) (u : Int) : Int := if u < 0 then -u else if (n : Int) ≤ u then 2 * ((n : Int) - 1) - u else u

/-- A neighbour, mirrored at the frame's edge. -/
def neighbour (q : PixParams) (g : Grid) (x y dx dy : Int) : Option Nat :=
  g.at (mirror q.width (x + dx)) (mirror q.height (y + dy))

/-- A pair of opposite neighbours; one that is missing takes the value of the other. -/
def pairOf (a b : Option Nat) : Option (Nat × Nat) :=
  match a, b with
  | some u, some v => some (u, v)
  | some u, none => some (u, u)
  | none, some v => some (v, v)
  | none, none => none

/-- The mean of a pair, halves up. -/
def pairMean (p : Option (Nat × Nat)) : Option Nat := p.map fun e => (e.1 + e.2 + 1) / 2

/-- A missing value from two pairs, in the direction of smaller change. -/
def smoother (h v : Option (Nat × Nat)) : Option Nat :=
  match h, v with
  | some (w, e), some (n, s) =>
    let gh := max w e - min w e
    let gv := max n s - min n s
    if gh < gv then some ((w + e + 1) / 2)
    else if gv < gh then some ((n + s + 1) / 2)
    else some ((w + e + n + s + 2) / 4)
  | _, none => pairMean h
  | none, _ => pairMean v

/-- From the four neighbours in the row and the column. -/
def crossValue (q : PixParams) (g : Grid) (x y : Int) : Option Nat :=
  smoother (pairOf (neighbour q g x y (-1) 0) (neighbour q g x y 1 0))
    (pairOf (neighbour q g x y 0 (-1)) (neighbour q g x y 0 1))

/-- From the two diagonal pairs. -/
def diagValue (q : PixParams) (g : Grid) (x y : Int) : Option Nat :=
  smoother (pairOf (neighbour q g x y (-1) (-1)) (neighbour q g x y 1 1))
    (pairOf (neighbour q g x y 1 (-1)) (neighbour q g x y (-1) 1))

/-- The mean of the neighbours in the row. -/
def rowValue (q : PixParams) (g : Grid) (x y : Int) : Option Nat :=
  pairMean (pairOf (neighbour q g x y (-1) 0) (neighbour q g x y 1 0))

/-- The mean of the neighbours in the column. -/
def columnValue (q : PixParams) (g : Grid) (x y : Int) : Option Nat :=
  pairMean (pairOf (neighbour q g x y 0 (-1)) (neighbour q g x y 0 1))

/-- The planes of a frame: band A and band B; R, G and B; or the one plane of a monochrome camera. A pixel that is
missing has no value in any. -/
def planes (q : PixParams) (g : Grid) : List Grid :=
  let tab := fun (f : Nat → Nat → Nat → Option Nat) => Grid.tab q.width q.height fun x y =>
    if g.at x y = none then none else f x y (channelOf x y)
  match q.mosaic with
  | 0 =>
    [tab fun x y c => if c = 0 ∨ c = 3 then g.at x y else crossValue q g x y,
     tab fun x y c => if c = 0 ∨ c = 3 then crossValue q g x y else g.at x y]
  | 1 =>
    [tab fun x y c => match c with
      | 0 => g.at x y
      | 1 => rowValue q g x y
      | 2 => columnValue q g x y
      | _ => diagValue q g x y,
     tab fun x y c => if c = 1 ∨ c = 2 then g.at x y else crossValue q g x y,
     tab fun x y c => match c with
      | 0 => diagValue q g x y
      | 1 => columnValue q g x y
      | 2 => rowValue q g x y
      | _ => g.at x y]
  | _ => [g]

/-! ## Temperature (R228) -/

/-- The temperature code of a pair of band values. -/
def tempCode (q : PixParams) (a b : Nat) : Nat :=
  if a < q.minsig ∨ b < q.minsig ∨ a = 0 then 0
  else
    let r := min 0xFFFF (b * 32768 / a)
    let i := r / 16
    let f := r % 16
    let t : Int := (q.lut.getD i 0 : Nat)
    if i < 4095 then (t + roundShift (((q.lut.getD (i + 1) 0 : Nat) - t) * (f : Nat)) 4).toNat else t.toNat

/-- What statistics run on: temperature codes, 0 for no measurement, or intensities. -/
def measure (q : PixParams) (ps : List Grid) : Grid :=
  if q.mosaic = 0 then
    Grid.tab q.width q.height fun x y =>
      match (ps.getD 0 []).at x y, (ps.getD 1 []).at x y with
      | some a, some b => some (tempCode q a b)
      | _, _ => none
  else if q.mosaic = 1 then ps.getD 1 []
  else ps.getD 0 []

/-! ## Pool and blobs (R229) -/

/-- A measured active pixel: column, row, value. -/
structure Spot where
  /-- Column. -/
  x : Nat
  /-- Row. -/
  y : Nat
  /-- Value. -/
  v : Nat
  deriving DecidableEq, Repr

/-- The measured active pixels in raster order. -/
def measured (q : PixParams) (g : Grid) : List Spot :=
  (List.range q.height).flatMap fun y : Nat => (List.range q.width).filterMap fun x : Nat =>
    match g.at x y with
    | some v => if q.mosaic = 0 ∧ v = 0 then none else some ⟨x, y, v⟩
    | none => none

/-- Whether two places touch, diagonals included. -/
def touches (a b : Spot) : Bool :=
  decide (a.x ≤ b.x + 1) && decide (b.x ≤ a.x + 1) && decide (a.y ≤ b.y + 1) && decide (b.y ≤ a.y + 1)

/-- The connected set that grows from `todo` within `left`, and what is left. -/
def flood : Nat → List Spot → List Spot → List Spot → List Spot × List Spot
  | 0, _, left, acc => (acc, left)
  | _ + 1, [], left, acc => (acc, left)
  | n + 1, p :: todo, left, acc =>
    flood n (left.filter (touches p) ++ todo) (left.filter fun o => !touches p o) (p :: acc)

/-- The connected sets of a list of places. -/
def connected : Nat → List Spot → List (List Spot)
  | 0, _ => []
  | _ + 1, [] => []
  | n + 1, p :: rest =>
    let r := flood (rest.length + 2) [p] rest []
    r.1 :: connected n r.2

/-- The hottest place, the earliest in raster order on a tie. -/
def hottest : List Spot → Option Spot
  | [] => none
  | p :: ps => match hottest ps with
    | none => some p
    | some o => if p.v < o.v then some o else some p

/-- A real value rounded down, or up by the free choice, when it is not exact. -/
def freeRound (q : PixParams) (place lo : Nat) (exact : Bool) : Nat :=
  if exact then lo else if Config.roundUp q.fresh place then lo + 1 else lo

/-- 4√λ in Q16.16 for λ = (t ± √d) / (2 a²). -/
def axisLength (q : PixParams) (place a : Nat) (t d : Nat) (plus : Bool) : Nat :=
  let z := d * 2 ^ 70
  let r := wideSqrt z
  let exactRoot := r * r == z
  let num := if plus then t * 2 ^ 35 + r else t * 2 ^ 35 - (if exactRoot then r else r + 1)
  let m := num / (a * a)
  let l := wideSqrt m
  freeRound q place l (exactRoot && num % (a * a) == 0 && l * l == m)

/-- Whether the direction (x, y) is at or past an angle of `n` in 32,768 per turn. -/
def angleAt (x y : Int) (n : Nat) : Bool :=
  let (c, s) := trigCode (2 * n)
  let past := decide (y < 0) || (decide (y = 0) && decide (x < 0))
  if n < 16384 then past || decide (0 ≤ c * y - s * x) else past && decide (0 ≤ c * y - s * x)

/-- ORIENT for the moments 2 μ11 and μ20 - μ02: half their angle, in 65,536 per turn; a free value when both are 0. -/
def orient (q : PixParams) (y x : Int) : Nat :=
  if x = 0 ∧ y = 0 then (Config.freeWord q.fresh).toNat % 32768
  else
    let n := largestBelow (angleAt x y) 15 0
    let (c, s) := trigCode (2 * n)
    freeRound q 10 n (decide (c * y - s * x = 0)) % 32768

/-- Words 5 to 12 of a statistics packet: the pool and its blobs. -/
def poolWords (q : PixParams) (pool : List Spot) (blobs : Nat) : List Word :=
  let a := pool.length
  if a = 0 then [0, 0, 0, 0, 0, 0, 0, w32 blobs]
  else
    let sum := fun (f : Spot → Nat) => (pool.map f).foldl (· + ·) 0
    let sx := sum fun p => p.x
    let sy := sum fun p => p.y
    let m20 : Int := ((a * sum fun p => p.x * p.x : Nat) : Int) - ((sx * sx : Nat) : Int)
    let m02 : Int := ((a * sum fun p => p.y * p.y : Nat) : Int) - ((sy * sy : Nat) : Int)
    let m11 : Int := ((a * sum fun p => p.x * p.y : Nat) : Int) - ((sx * sy : Nat) : Int)
    let t := (m20 + m02).toNat
    let d := ((m20 - m02) * (m20 - m02) + 4 * m11 * m11).toNat
    let peak := pool.foldl (fun m p => max m p.v) 0
    let mean := sum (fun p => p.v) / a
    [w32 a, w32 (divRound ((sx * 65536 : Nat) : Int) a).toNat, w32 (divRound ((sy * 65536 : Nat) : Int) a).toNat,
      w32 (axisLength q 8 a t d true), w32 (axisLength q 9 a t d false), w32 (orient q (2 * m11) (m20 - m02)),
      (if q.mosaic = 0 then w32 (mean * 2 ^ 16 + peak) else 0), w32 blobs]

/-- The bin of a value (R229). -/
def histBin (q : PixParams) (v : Nat) : Nat := if v < q.t0 then 0 else min 63 ((v - q.t0) / 2 ^ q.shift)

/-- Words 16 to 47: the histogram. -/
def histWords (q : PixParams) (ms : List Spot) : List Word :=
  let bins := (List.range 64).map fun b => min 0xFFFF (ms.filter fun p => histBin q p.v == b).length
  (List.range 32).map fun m => w32 (bins.getD (2 * m + 1) 0 * 2 ^ 16 + bins.getD (2 * m) 0)

/-- What a frame's pixels give. -/
structure FrameStats where
  /-- Words 5 to 47 of the packet. -/
  words : List Word
  /-- The mean of the measured active pixels outside the pool; none when there is none (R233). -/
  around : Option Nat

/-- The statistics of a measured grid (R229). -/
def statsOf (q : PixParams) (g : Grid) : FrameStats :=
  let ms := measured q g
  let hot := ms.filter fun p => decide (q.pool ≤ p.v)
  let sets := connected (hot.length + 1) hot
  let top := hottest hot
  let pool := match top with
    | none => []
    | some p => (sets.find? fun c => c.contains p).getD []
  let blobs := if q.spatMin = 0 then 0
    else (sets.filter fun c => !(match top with | some p => c.contains p | none => false) && decide (q.spatMin ≤ c.length)).length
  let rest := ms.filter fun p => !pool.contains p
  { words := poolWords q pool (min 255 blobs) ++ [0, 0, 0] ++ histWords q ms
    around := if rest = [] then none else some ((rest.map fun p => p.v).foldl (· + ·) 0 / rest.length) }

/-! ## Retained copies (R234) -/

/-- Halfwords two per word, the low half first. -/
def packHalves : List Nat → List Word
  | [] => []
  | [a] => [w32 a]
  | a :: b :: rest => w32 (b * 2 ^ 16 + a) :: packHalves rest

/-- The pixels of a plane, row by row; a missing one is a free value. -/
def planePixels (q : PixParams) (g : Grid) (x0 y0 w h ds : Nat) : List Nat :=
  (List.range h).flatMap fun j => (List.range w).map fun i =>
    let x := x0 + i * ds
    let y := y0 + j * ds
    (g.at x y).getD (Config.pixel q.fresh x y).toNat

/-- The size word and the pixels of a crop rectangle clipped to the active area, every `ds`-th of each axis; nothing when
it is empty (R234). -/
def cropWords (q : PixParams) (g : Grid) (x0 y0 w h ds : Nat) : Option (List Word) :=
  let w1 := ceilDiv (min (x0 + w) q.width - x0) ds
  let h1 := ceilDiv (min (y0 + h) q.height - y0) ds
  if w1 = 0 ∨ h1 = 0 then none
  else some (w32 (h1 * 2 ^ 16 + w1) :: packHalves (planePixels q g x0 y0 w1 h1 ds))

end Sys2Proof.Machine
end

