-- ==== Sys2Proof/Machine/Img.lean ====
section
/-! DEFINITION. Imaging pipes (R215 to R237): camera slots, triggers and parameter sets, frames, statistics packets,
assimilation records, retained copies and the bed camera. -/

namespace Sys2Proof.Machine

/-- The requester of a pipe (R269). -/
def imgReq (p : Nat) : Nat := 64 + 8 * p

/-- A camera source. -/
def State.cam (s : State) (p i : Nat) : Cam := sget Cam.atReset s.cams (8 * p + i)

/-- The state with a camera source replaced. -/
def State.setCam (s : State) (p i : Nat) (c : Cam) : State := { s with cams := sset Cam.atReset s.cams (8 * p + i) c }

/-- The bed camera's place among a pipe's sources. -/
def bedSource : Nat := 4

/-- The BAR0 offset of a source's register by its offset in the slot layout: slot s from 0x0100 + 0x100 × s, and the bed's
copy from IMG_CAM_EXPO on at 0x0900. -/
def imgAddr (p i rel : Nat) : Nat := 0x01600000 + 0x4000 * p + (if i < 4 then 0x100 + 0x100 * i else 0x8F4) + rel

/-- Offsets in a slot of the camera parameter set (R219). -/
def camOffs : List Nat := [0xC, 0x10, 0x14]

/-- Offsets in a slot of the pipe-side fields (R221). -/
def pipeOffs : List Nat :=
  [0x8, 0x1C, 0x20, 0x24, 0x28, 0x2C, 0x30, 0x34, 0x38, 0x3C, 0x40, 0x44, 0x48, 0x50, 0x54, 0x58, 0x5C, 0x60, 0x64]

/-- Whether a source has the register at an offset of the slot layout: the bed has them from IMG_CAM_EXPO to IMG_SHADE. -/
def sourceHas (i rel : Nat) : Bool := decide (i < 4) || (decide (0xC ≤ rel) && decide (rel ≤ 0x54))

/-- A pipe-side register's value in force. -/
def State.imgReg (s : State) (p i rel : Nat) : Word := if sourceHas i rel then s.reg (imgAddr p i rel) else 0

/-- A pipe-side register as it applies to a frame by its trigger boundary (R221). -/
def State.imgVal (s : State) (p i trig rel : Nat) : Word :=
  match (s.cam p i).commitAt with
  | some b => if trig ≤ b then sget 0 (s.cam p i).old rel else s.imgReg p i rel
  | none => s.imgReg p i rel

/-- Whether slot `i` of a pipe is enabled; for the bed source, BED_EN. -/
def State.camOn (s : State) (p i : Nat) : Bool :=
  if i < 4 then natBit (s.fld (F.IMG_STATUS_ENABLED p)) i else s.flag (F.IMG_CTRL_BED_EN p)

/-- A number with a bit set or cleared. -/
def withBit (n i : Nat) (b : Bool) : Nat := if natBit n i = b then n else if b then n + 2 ^ i else n - 2 ^ i

/-- IMG_STATUS.RESULT. -/
def State.imgResult (s : State) (p r : Nat) : State := s.setFld (F.IMG_STATUS_RESULT p) r

/-- ZERO_LEN as status bit (R7). -/
def State.imgZero (s : State) (p : Nat) : State := s.setFld (F.IMG_STATUS_ZERO_LEN p) 1

/-- An event packet of a pipe (R237). -/
def State.imgEvent (s : State) (p code slot flags : Nat) (no : Word) : State :=
  s.pushEvent (imgReq p) (s.reg (R.IMG_EVQ p)) [w32 (code * 2 ^ 24 + slot * 2 ^ 16 + flags % 256), no, s.stitchLo]

/-- A counter of a slot at an offset; the bed source has none. -/
def State.camBump (s : State) (p i rel n : Nat) : State :=
  if i < 4 then s.bumpBy ⟨imgAddr p i rel, 31, 0⟩ n else s

/-! ## Heads and lanes (R307) -/

/-- Latigo lanes without the harness lanes. -/
def Part.latigoLanes (q : Part) : Nat := if q.row.harness then q.row.lanes - 4 else q.row.lanes

/-- The head number of a Latigo lane. -/
def Part.headOfLane (q : Part) (k : Nat) : Option Nat :=
  if k < q.row.lasers then some k else if k < q.latigoLanes then some (32 + k - q.row.lasers) else none

/-- The lane of a head number. -/
def Part.laneOfHead (q : Part) (h : Nat) : Option Nat :=
  if h < q.row.lasers then some h
  else if 32 ≤ h ∧ h - 32 + q.row.lasers < q.latigoLanes then some (h - 32 + q.row.lasers)
  else none

/-- The head of a source. -/
def State.camHead (s : State) (p i : Nat) : Nat :=
  if i < 4 then s.fld (F.IMG_SRC_HEAD p i) else s.fld (F.IMG_BED_SRC_HEAD p)

/-- Pipes of the part. -/
def State.pipeList (s : State) : List Nat := List.range s.part.row.pipes

/-- Every pipe and slot that is enabled. -/
def State.camsOn (s : State) : List (Nat × Nat) :=
  s.pipeList.flatMap fun p => ((List.range 4).filter fun i => s.camOn p i).map fun i => (p, i)

/-- Whether a pipe has the bed source. -/
def State.isBedPipe (s : State) (p : Nat) : Bool := s.part.bedPipe == some p

/-- The source that takes a head's frames: an enabled slot, or the enabled bed source. -/
def State.sourceOf (s : State) (h : Nat) : Option (Nat × Nat) :=
  match s.camsOn.find? fun e => s.camHead e.1 e.2 == h with
  | some e => some e
  | none => match s.part.bedPipe with
    | some p => if s.camOn p bedSource ∧ s.camHead p bedSource = h then some (p, bedSource) else none
    | none => none

/-! ## The load check (R217) -/

/-- Pixels of one frame and the Stitches between frames of a slot. -/
def State.camLoad (s : State) (p i : Nat) : Nat × Nat :=
  let w := s.reg (R.IMG_SIZE p i)
  ((getBits w 31 28 + getBits w 27 16) * getBits w 11 0, s.fld (F.IMG_TRIG_PERIOD p i))

/-- Whether loads exceed 10 pixels per TCLK at a Stitch period of `n`. A slot with PERIOD 0 has no load. -/
def overLoad (n : Nat) (loads : List (Nat × Nat)) : Bool :=
  let ls := loads.filter fun l => l.2 != 0
  let den := (ls.map fun l => l.2).foldl (· * ·) 1
  let num := (ls.map fun l => l.1 * (den / l.2)).foldl (· + ·) 0
  decide (10 * n * den < num)

/-- Whether the slots' frames exceed the capacity at a Stitch period of `n`. -/
def State.overCapacity (s : State) (p n : Nat) (slots : List Nat) : Bool := overLoad n (slots.map fun i => s.camLoad p i)

/-- Slots of a pipe that are enabled. -/
def State.slotsOn (s : State) (p : Nat) : List Nat := (List.range 4).filter fun i => s.camOn p i

/-- OVERLOAD after a change of period or of the slots. -/
def State.imgOverload (s : State) (p : Nat) : State :=
  s.setFld (F.IMG_STATUS_OVERLOAD p) (bitNat (s.overCapacity p s.period (s.slotsOn p)))

/-- Whether a PERIOD for a slot is refused with RATE: the slot counts with it among the slots that are enabled (log entry 120). -/
def State.periodOver (s : State) (p i period : Nat) : Bool :=
  overLoad s.period (((s.camLoad p i).1, period) :: ((s.slotsOn p).filter fun j => j != i).map fun j => s.camLoad p j)

/-- Whether a stream of a source is shorter than its contents. -/
def State.camShort (s : State) (p i : Nat) : Bool :=
  let short := fun (rel need : Nat) => sourceHas i rel && s.imgReg p i rel != 0 && decide (s.bufSize (s.imgReg p i rel) < need)
  short 0x50 (4 * min 1024 (getBits (s.imgReg p i 0x2C) 10 0)) || short 0x54 2312 || short 0x58 8192

/-- RESULT of a request to enable a slot; 0 when it is granted (R215, R217, R218). -/
def State.camCheck (s : State) (p i : Nat) : Nat :=
  let size := s.reg (R.IMG_SIZE p i)
  let period := s.fld (F.IMG_TRIG_PERIOD p i)
  let h := s.camHead p i
  if getBits size 27 16 = 0 ∨ getBits size 11 0 = 0 then 1
  else if 1 < s.fld (F.IMG_SRC_MOSAIC p i) ∨ (period ≠ 0 ∧ period ≤ s.fld (F.IMG_TRIG_PHASE p i)) ∨ s.camShort p i then 3
  else if s.camsOn.any fun e => s.camHead e.1 e.2 == h then 4
  else if s.part.laneOfHead h = none then 5
  else if s.overCapacity p s.period (i :: s.slotsOn p) then 2
  else 0

/-- A queue the device makes for its own use, of a class and a depth in words; 0 when it cannot be placed. -/
def State.makeQueue (s : State) (cls size : Nat) : State × Word :=
  let r : CreateReq := ⟨0, cls, false, 0, size⟩
  if s.createCheck r = 0 then
    let nums := s.freeNumbers 0
    let key := nums.getD (Config.choice s.fresh % nums.length) 0
    let str := s.placed key r true
    ((s.tookFree.setStream key str).bumpBy (F.SB_CLASS_USED_PAGES cls) str.pages.length, mkHandle key str.gen)
  else (s, 0)

/-- A source started afresh: what counts from its enable (R219, R224, R234, R237). The ids go on. -/
def Cam.started (c : Cam) (queue : Word) : Cam :=
  { Cam.atReset with lastId := c.lastId, results := c.results, waiting := c.waiting, queue := queue }

/-- A request to enable a slot. A memory-path slot gets its queue, for two frames of the configured size (R215); the queue of
an earlier enable is given back, or kept while frames wait in it. -/
def State.camEnable (s : State) (p i : Nat) : State :=
  let r := s.camCheck p i
  if r ≠ 0 then
    let s1 := s.imgResult p r
    if r = 1 then s1.imgZero p else s1
  else
    let (s1, h) := if i = 0 then (s, 0)
      else if (s.cam p i).waiting != [] then (s, (s.cam p i).queue)
      else (s.dropInternal (s.cam p i).queue).makeQueue 1 (2 * ((s.camLoad p i).1 + 8))
    let s2 := (s1.setCam p i ((s1.cam p i).started h)).setFld (F.IMG_STATUS_ENABLED p)
      (withBit (s1.fld (F.IMG_STATUS_ENABLED p)) i true)
    let s3 := ((s2.setFld (F.IMG_CAM_ID_SENT p i) 0).setFld (F.IMG_CTRL_EN p)
      (withBit (s2.fld (F.IMG_CTRL_EN p)) i true)).imgResult p 0
    (if s3.fld (F.IMG_TRIG_PERIOD p i) = 0 then s3.imgZero p else s3).ungate 3 p

/-- A bed frame size inside the limits of R235: 0, or the RESULT. -/
def State.bedSizeCheck (s : State) (p : Nat) : Nat :=
  let w := getBits (s.imgReg p bedSource 0x1C) 11 0
  let h := getBits (s.imgReg p bedSource 0x1C) 27 16
  if w = 0 ∨ h = 0 then 1
  else if 8192 < w ∨ 8192 < h ∨ 25000000 < w * h ∨ s.camShort p bedSource then 3
  else if s.part.laneOfHead (s.camHead p bedSource) = none then 5
  else 0

/-- A write of IMG_CTRL (R217): each slot whose bit rises requests its enable, in ascending order; a bit that falls stops
the slot at the next boundary. -/
def State.writeImgCtrl (s : State) (p : Nat) (val : Word) : State :=
  let s1 := (List.range 4).foldl (fun s i =>
    let want := val.getLsbD i
    if want then
      if s.camOn p i then s.setFld (F.IMG_CTRL_EN p) (withBit (s.fld (F.IMG_CTRL_EN p)) i true) else s.camEnable p i
    else s.setFld (F.IMG_CTRL_EN p) (withBit (s.fld (F.IMG_CTRL_EN p)) i false)) s
  if s1.isBedPipe p then
    if val.getLsbD 8 then
      if s1.camOn p bedSource then s1
      else
        let r := s1.bedSizeCheck p
        let s2 := s1.imgResult p r
        if r = 1 then s2.imgZero p
        else if r ≠ 0 then s2
        else ((s2.setCam p bedSource ((s2.cam p bedSource).started 0)).setFld (F.IMG_CTRL_BED_EN p) 1).ungate 3 p
    else
      { (s1.setFld (F.IMG_CTRL_BED_EN p) 0) with bed := if s1.camOn p bedSource then BedRun.none else s1.bed }
  else s1

/-! ## Closing a frame (R223) -/

/-- The Stitch of a header's timestamp (R222). -/
def tsOf (hdr : List Word) : Nat := getBits (hdr.getD 3 0) 31 16 * 2 ^ 32 + (hdr.getD 2 0).toNat

/-- LONG, SHORT and INCOMPLETE for `n` pixels in lines of `hw` against `rows` lines of `w`. -/
def lineFlags (n hw rows w flags : Nat) : Nat :=
  let lines := ceilDiv n hw
  let last := n - (lines - 1) * hw
  let long := decide (rows < lines) || (decide (w < hw) && decide (w < n))
  let short := decide (lines < rows) || (decide (hw < w) && lines != 0)
    || (lines != 0 && decide (lines ≤ rows) && decide (last < w)) || natBit flags 1
  let f := withBit (withBit flags 0 (natBit flags 0 || long)) 1 short
  withBit f 2 (short || natBit flags 3)

/-- Words of the streams that a frame's processing reads, with their handles: the static map, the shading grid and the
temperature table. -/
def State.pixStreams (s : State) (p i trig : Nat) : List (Word × Nat) :=
  [(s.imgVal p i trig 0x50, min 1024 (getBits (s.imgVal p i trig 0x2C) 10 0)), (s.imgVal p i trig 0x54, 578),
    (s.imgVal p i trig 0x58, 2048)]

/-- The reads of those streams through their checks (R277). -/
def State.usePix (s : State) (p i trig : Nat) : State :=
  (s.pixStreams p i trig).foldl (fun (t : State) e => t.useBuf e.1 e.2) s

/-- The processing parameters of a source for a frame. -/
def State.pixParams (s : State) (p i trig : Nat) : PixParams :=
  let v := fun rel => s.imgVal p i trig rel
  let size := v 0x1C
  let vals := fun (h : Word) (n : Nat) => match s.namedBuffer h with
    | some key => (s.bufWords key 0 n).map fun w => w.val
    | none => []
  let count := min 1024 (getBits (v 0x2C) 10 0)
  { width := getBits size 11 0
    height := getBits size 27 16
    obRows := getBits size 31 28
    mosaic := if i < 4 then s.fld (F.IMG_SRC_MOSAIC p i) else if Config.bedColour then 1 else 2
    offs := [signed 16 (getBits (v 0x20) 15 0), signed 16 (getBits (v 0x20) 31 16), signed 16 (getBits (v 0x24) 15 0),
      signed 16 (getBits (v 0x24) 31 16)]
    obEn := getBits (v 0x28) 31 31 == 1
    obGain := getBits (v 0x28) 15 0
    dynEn := getBits (v 0x2C) 31 31 == 1
    dpcThr := getBits (v 0x2C) 27 16
    map := if v 0x50 = 0 then [] else (vals (v 0x50) count).map fun w => (getBits w 11 0, getBits w 27 16)
    shade := if v 0x54 = 0 then none else some (halves (vals (v 0x54) 578))
    minsig := getBits (v 0x38) 15 0
    lut := if v 0x58 = 0 then [] else halves (vals (v 0x58) 2048)
    pool := getBits (v 0x30) 15 0
    spatMin := getBits (v 0x30) 23 16
    shift := getBits (v 0x34) 19 16
    t0 := getBits (v 0x34) 15 0
    fresh := s.fresh }

/-- An odd number of cells that covers `n` pixels, at most 63 (R233). -/
def State.assimSide (s : State) (n pitch : Nat) : Nat :=
  let k := ceilDiv (n * pitch) (s.reg R.HIDE_PITCH).toNat
  min 63 (if k % 2 = 0 then k + 1 else k)

/-- The grids of a frame through stages 1 to 3, and the black levels after it. -/
def frameGrid (q : PixParams) (rows : List (List Nat)) (obSeen : Bool) (track : List Int) : Grid × List Int :=
  let tr := if q.obRows = 0 then (if q.obEn then track else [0, 0, 0, 0])
    else (List.range 4).map fun c => trackAfter q rows (!obSeen) c (track.getD c 0)
  let used := if q.obEn then tr else [0, 0, 0, 0]
  let black := blackGrid q rows used
  (black, tr)

/-- The grid after shading (R225, R226). -/
def shadedGrid (q : PixParams) (black : Grid) : Grid :=
  let fixed := Grid.tab q.width q.height fun x y => dpcPixel q black x y
  Grid.tab q.width q.height fun x y => (fixed.at x y).map fun v => shadePixel q x y v

/-- A coaxial frame processed (R224 to R229, R233, R234): what its packet, record and copy will hold. A crop that is empty after
clipping copies nothing and sets ZERO_LEN (R7). -/
def State.processFrame (s : State) (p i : Nat) (f : CamFrame) : State :=
  let c := s.cam p i
  let q := s.pixParams p i f.trig
  let v := fun rel => s.imgVal p i f.trig rel
  let rows := cutLines (getBits (f.header.getD 5 0) 11 0) (q.obRows + q.height) f.pixels
  let (black, tr) := frameGrid q rows c.obSeen c.track
  let shaded := shadedGrid q black
  let m := measure q (planes q shaded)
  let st := statsOf q m
  let n := c.processed + 1
  let ret := v 0x40
  let every := getBits ret 15 0
  let ds := match getBits ret 17 16 with
    | 0 => 1
    | 1 => 2
    | _ => 4
  let copy := if every ≠ 0 ∧ n % every = 0 then
      cropWords q (if getBits ret 18 18 = 1 then m else shaded) (getBits (v 0x44) 11 0) (getBits (v 0x44) 27 16)
        (getBits (v 0x48) 11 0) (getBits (v 0x48) 27 16) ds
    else none
  let assim := v 0x3C
  let pitch := getBits assim 23 0
  let rectangle := if getBits assim 31 31 = 1 then
      st.around.map fun t => (t, s.assimSide q.width pitch, s.assimSide q.height pitch)
    else none
  let r : CamResult :=
    { header := f.header, expected := f.expected, flags := f.flags, deadline := getBits (v 0x8) 15 0, statq := v 0x5C,
      assimq := v 0x60, retainq := v 0x64, stat := st.words, assim := rectangle, retain := copy }
  let s1 := s.setCam p i { c with
      track := tr, obSeen := c.obSeen || (q.obEn && q.obRows != 0), processed := n, results := c.results ++ [r] }
  let s2 := if every ≠ 0 ∧ n % every = 0 ∧ copy = none then s1.imgZero p else s1
  ((s2.usePix p i f.trig).camBump p i 0x90 (dpcCount q black)).tookFree

/-- A bed frame processed and written whole (R235), or dropped with OVERFLOW when IMG_BED_OUT has no room (R236). -/
def State.writeBedFrame (s : State) (p : Nat) (f : CamFrame) : State :=
  let c := s.cam p bedSource
  let q := s.pixParams p bedSource f.trig
  let rows := cutLines (getBits (f.header.getD 5 0) 11 0) (q.obRows + q.height) f.pixels
  let (black, tr) := frameGrid q rows c.obSeen c.track
  let ps := planes q (shadedGrid q black)
  let ws := f.header ++ (ps.flatMap fun g => packHalves (planePixels q g 0 0 q.width q.height 1))
  let out := s.reg (R.IMG_BED_OUT p)
  let room := s.hasRoom out ws.length
  let s1 := (s.setCam p bedSource { c with
      track := tr, obSeen := c.obSeen || (q.obEn && q.obRows != 0), processed := c.processed + 1 }).tookFree.usePix p bedSource f.trig
  let s2 := s1.pushWords (imgReq p) out (ws.map PWord.clean)
  { s2 with bed := { s2.bed with
      frames := s2.bed.frames - 1
      lastNo := f.header.getD 1 0
      flags := (if natBit s2.bed.flags 3 || !room then withBit f.flags 3 true else f.flags) } }

/-- The open packet of a producer in a queue committed as it stands: its end marker is in the queue. -/
def State.commitOpen (s : State) (producer key : Nat) : State :=
  let q := s.stream key
  match findOpen producer q.opens with
  | none => s
  | some ws =>
    (s.setStream key { q with opens := dropOpen producer q.opens, words := q.words ++ packetWords ws }).threshold key
      q.depth

/-- The producer of a memory-path slot's fragments: its lane. -/
def camProducer (p i : Nat) : Nat := 5000 + 8 * p + i

/-- A frame closes: its line flags, FRAME_CNT, and on to processing or to wait in its queue (R216, R223). -/
def State.closeFrame (s : State) (p i extra : Nat) : State :=
  let c := s.cam p i
  match c.frame with
  | none => s
  | some f =>
    let size := s.imgVal p i f.trig 0x1C
    let flags := lineFlags f.arrived (getBits (f.header.getD 5 0) 11 0) (getBits size 31 28 + getBits size 27 16)
      (getBits size 11 0) (if extra = 1 then withBit f.flags 1 true else f.flags)
    let f1 := { f with flags := flags }
    let s1 := (s.setCam p i { c with frame := none }).camBump p i 0x80 1
    if i = 0 then s1.processFrame p i f1
    else if i = bedSource then s1.writeBedFrame p f1
    else
      let s2 := match s1.namedQueue c.queue with
        | some key => s1.commitOpen (camProducer p i) key
        | none => s1
      s2.setCam p i { s2.cam p i with waiting := c.waiting ++ [f1] }

/-! ## Fragments (R222, R311) -/

/-- Whether words go into a memory-path queue whole. -/
def State.pushFragment (s : State) (p i req : Nat) (ws : List Word) : State × Bool :=
  match s.namedQueue (s.cam p i).queue with
  | none => (s, false)
  | some key =>
    let q := s.stream key
    let opened := (findOpen (camProducer p i) q.opens).isSome
    if q.size < q.occupancy + ws.length ∨ (!opened ∧ 16 ≤ q.opens.length) then
      ((s.bump (F.SB_Q_REFUSED_COUNT key)).countRefused req, false)
    else (s.setStream key { q with opens := ws.foldl (fun os w => addOpen (camProducer p i) (PWord.clean w) os) q.opens }, true)

/-- The latest recorded trigger at or before a Stitch. -/
def latestTrigger (ts : Nat) : List (Nat × Nat) → Option (Nat × Nat)
  | [] => none
  | (b, id) :: l => if b ≤ ts then some (b, id) else latestTrigger ts l

/-- Stitches between a source's frames. -/
def State.camPeriod (s : State) (p i : Nat) : Nat := if i < 4 then s.fld (F.IMG_TRIG_PERIOD p i) else s.bed.period

/-- Halfwords that the in-line input buffer holds: 32 KiB (R215). -/
def inlineRoom : Nat := 16384

/-- What is left of slot 0's input buffer `t` TCLK later: the pipe takes 10 pixels per TCLK and in-line pixels go first (R216). -/
def Cam.inLeft (c : Cam) (t : Nat) : Nat := c.inFill - 10 * (t - c.inAt)

/-- A fragment of `n` halfwords offered to the in-line input buffer `tick` TCLK into the Stitch; false when it is refused. -/
def State.takeInline (s : State) (p tick n : Nat) : State × Bool :=
  let c := s.cam p 0
  let t := s.tclk + tick
  let left := c.inLeft t
  if left + n ≤ inlineRoom then (s.setCam p 0 { c with inFill := left + n, inAt := max c.inAt t }, true)
  else (s.setCam p 0 { c with inFill := left, inAt := max c.inAt t }, false)

/-- The sequence number that the lamp drive latched at the strobe of a bed frame: of the latest strobe at or before the frame's
timestamp Stitch (R236). -/
def State.lampSeqAt (s : State) (ts : Nat) : Word :=
  match s.lamp.strobes.find? fun e => decide (e.1 ≤ ts) with
  | some e => e.2
  | none => s.reg R.LAMP_SEQ_LATCH

/-- FRAME_HEADER (R222): a header opens a frame; an open one closes SHORT. TAG_FAULT comes with the first TAG (R237). -/
def State.frameHeader (s : State) (p i req tick : Nat) (hdr0 : List Word) : State :=
  let s0 := s.closeFrame p i 1
  let c := s0.cam p i
  let hdr := if i = bedSource then hdr0.set 6 (s0.lampSeqAt (tsOf hdr0)) else hdr0
  let ts := tsOf hdr
  let found := match latestTrigger ts c.triggers with
    | some (b, id) => if ts - b < s0.camPeriod p i then some (b, id) else none
    | none => none
  let expected := match found with
    | some (_, id) => id
    | none => 0
  let no := hdr.getD 1 0
  let rise := match c.lastNo with
    | some o => (no - o).toNat
    | none => 1
  let back := decide (rise = 0) || decide (2 ^ 31 ≤ rise)
  let tag := decide (expected = 0) || (decide (i < 4) && getBits (hdr.getD 0 0) 31 24 != s0.fld (F.IMG_SRC_CAM_ID p i)) || back
  let trig := match latestTrigger ts c.triggers with
    | some (b, _) => b
    | none => ts
  let flags := if tag then 64 else 0
  let (s1, ok) := if i = 0 then s0.takeInline p tick 16 else if i = bedSource then (s0, true) else s0.pushFragment p i req hdr
  let f : CamFrame := ⟨hdr, trig, expected, if ok then flags else withBit flags 3 true, [], 0, !ok,
    if ok ∧ i ≠ 0 ∧ i ≠ bedSource then 8 else 0⟩
  let c1 := s1.cam p i
  let raise := tag && (!c1.tagRaised || !s1.flag (F.IMG_STATUS_SEQ p))
  let s2 := s1.setCam p i { c1 with
    frame := some f, lastNo := some no, tagRaised := c1.tagRaised || tag, answered := max c1.answered trig }
  let s3 := s2.setFld ⟨imgAddr p i 0x18, 23, 16⟩ (getBits (hdr.getD 0 0) 23 16)
  let s4 := if back then s3 else s3.camBump p i 0x8C (rise - 1)
  let s5 := if tag then s4.setFld (F.IMG_STATUS_SEQ p) 1 else s4
  if raise then s5.imgEvent p 3 (i % 4) flags no else s5

/-- Pixels of the open frame arrive. -/
def State.framePixels (s : State) (p i req tick : Nat) (px : List Nat) : State :=
  let c := s.cam p i
  match c.frame with
  | none => s
  | some f =>
    let f1 := { f with arrived := f.arrived + px.length }
    if f.dropping then s.setCam p i { c with frame := some f1 }
    else if i = bedSource then s.setCam p i { c with frame := some { f1 with pixels := f.pixels ++ px } }
    else if i = 0 then
      let (s1, ok) := s.takeInline p tick px.length
      s1.setCam p i { s1.cam p i with
          frame := some (if ok then { f1 with pixels := f.pixels ++ px } else { f1 with dropping := true, flags := withBit f.flags 3 true }) }
    else
      let (s1, ok) := s.pushFragment p i req (px.map w32)
      s1.setCam p i { s1.cam p i with
          frame := some (if ok then { f1 with queued := f.queued + px.length } else { f1 with dropping := true, flags := withBit f.flags 3 true }) }

/-- A FRAGMENT flit's words 1 to 14 for a head (R311), `tick` TCLK into the Stitch. `req` is its lane's requester. -/
def State.fragment (s : State) (head req tick : Nat) (ws : List Word) : State :=
  match s.sourceOf head with
  | none => s
  | some (p, i) =>
    let w1 := ws.getD 0 0
    let n := min 26 (getBits w1 5 0)
    let data := ws.drop 1
    match getBits w1 31 30 with
    | 0 => s.frameHeader p i req tick ((List.range 8).map fun k => data.getD k 0)
    | 1 => s.framePixels p i req tick ((halves data).take n)
    | 2 => s.closeFrame p i 0
    | _ => s

/-! ## The boundary (R218 to R221) -/

/-- The staged values of offsets put in force. -/
def State.commitOffs (s : State) (p i : Nat) (offs : List Nat) : State :=
  offs.foldl (fun s rel =>
    if sourceHas i rel then
      let a := imgAddr p i rel
      let s1 := s.setReg a (s.written a)
      { s1 with staged := sdel s1.staged a }
    else s) s

/-- A trigger at this boundary: it carries the latest committed set's id, and the set's fields when they differ from what
the previous trigger carried (R219). Before the first commit it carries no id, which reads 0 (DESIGN CHOICE, log entry 121). -/
def State.camTrigger (s : State) (p i : Nat) : State :=
  let c := s.cam p i
  let set := camOffs.map fun rel => s.reg (imgAddr p i rel)
  let differ := c.lastId != 0 && set != c.sent
  let s1 := s.setCam p i { c with
      triggers := ((s.now, c.lastId) :: c.triggers).take 16, sent := if differ then set else c.sent, trigAt := some (s.now, differ) }
  (s1.setFld ⟨imgAddr p i 0x18, 7, 0⟩ c.lastId).setFld ⟨imgAddr p i 0x18, 15, 8⟩ 0

/-- CAM commit (R219): the set takes the next id, or that of the set which still waits for its trigger and which it replaces. -/
def State.camSetCommit (s : State) (p i : Nat) : State :=
  let c := s.cam p i
  let waits := s.fld ⟨imgAddr p i 0x18, 15, 8⟩
  let id := if waits ≠ 0 then waits else if c.lastId = 255 then 1 else c.lastId + 1
  ((s.commitOffs p i camOffs).setCam p i { c with lastId := id }).setFld ⟨imgAddr p i 0x18, 15, 8⟩ id

/-- A slot stops: ENABLED clears and an open frame closes SHORT. -/
def State.camStop (s : State) (p i : Nat) : State :=
  if i < 4 then
    (((s.closeFrame p i 1).setFld (F.IMG_STATUS_ENABLED p) (withBit (s.fld (F.IMG_STATUS_ENABLED p)) i false)).setFld
      (F.IMG_CTRL_EN p) (withBit (s.fld (F.IMG_CTRL_EN p)) i false)).imgOverload p
  else { ((s.closeFrame p i 1).setFld (F.IMG_CTRL_BED_EN p) 0) with bed := BedRun.none }

/-- PIPE commit (R221): the values in force become the older version. A stream shorter than its contents stops the
source with RANGE. -/
def State.pipeSetCommit (s : State) (p i : Nat) : State :=
  let c := s.cam p i
  let old := pipeOffs.foldl (fun m rel => sset 0 m rel (s.imgReg p i rel)) ([] : Sparse Word)
  let s1 := (s.setCam p i { c with old := old, commitAt := some s.now }).commitOffs p i pipeOffs
  if s1.camOn p i && s1.camShort p i then (s1.camStop p i).imgResult p 3 else s1

/-- Whether a source still needs the older version: a frame in hand, or one of the triggers on record whose frame has not come,
was triggered at or before the latest PIPE commit (R220, R221). A frame that a later one overtook does not come any more. -/
def State.needsOld (s : State) (p i : Nat) : Bool :=
  let c := s.cam p i
  match c.commitAt with
  | none => false
  | some b =>
    (match c.frame with | some f => decide (f.trig ≤ b) | none => false)
      || (c.waiting.any fun f => decide (f.trig ≤ b))
      || (s.camOn p i && c.triggers.any fun t => decide (t.1 ≤ b) && decide (c.answered < t.1))

/-- A trigger falls on this boundary (R218, R235). -/
def State.triggerDue (s : State) (p i : Nat) : Bool :=
  if i < 4 then
    let n := s.fld (F.IMG_TRIG_PERIOD p i)
    s.camOn p i && n != 0 && s.now % n == s.fld (F.IMG_TRIG_PHASE p i)
  else s.camOn p i && s.bed.triggers != 0 && s.bed.next == s.now

/-- The bed point of the slot's head at this boundary is kept for the frames that look back (R233). -/
def State.camPoint (s : State) (p i : Nat) : State :=
  let k := s.camHead p i
  if i < 4 ∧ s.camOn p i ∧ k < s.part.row.lasers then
    let b := (sget Awl.atReset s.awls k).applied
    s.setCam p i { s.cam p i with points := ((s.now, b.bedX, b.bedY) :: (s.cam p i).points).take 64 }
  else s

/-- The queue of an enabled memory-path slot made anew for the size now configured, once no frame is in it (R215, log entry
122). -/
def State.camResize (s : State) (p i : Nat) : State :=
  let c := s.cam p i
  let want := 2 * ((s.camLoad p i).1 + 8)
  match s.namedQueue c.queue with
  | none => s
  | some key =>
    if 1 ≤ i ∧ i < 4 ∧ s.camOn p i ∧ (s.stream key).size ≠ want ∧ c.waiting = [] ∧ c.frame.isNone then
      let (s1, h) := (s.dropInternal c.queue).makeQueue 1 want
      s1.setCam p i { s1.cam p i with queue := h }
    else s

/-- The boundary's work for one source. -/
def State.camBoundary (s : State) (p i : Nat) : State :=
  let s1 := if i < 4 ∧ s.camOn p i ∧ !natBit (s.fld (F.IMG_CTRL_EN p)) i then s.camStop p i else s
  let s2 := if s1.triggerDue p i then s1.camTrigger p i else s1
  let s3 := if s1.triggerDue p i ∧ i = bedSource then
      { s2 with bed := { s2.bed with triggers := s2.bed.triggers - 1, next := s2.bed.next + s2.bed.period } } else s2
  let s4 := s3.camPoint p i
  let camBit := if i < 4 then natBit (s4.fld (F.IMG_COMMIT_CAM p)) i else s4.flag (F.IMG_COMMIT_BED_CAM p)
  let pipeBit := if i < 4 then natBit (s4.fld (F.IMG_COMMIT_PIPE p)) i else s4.flag (F.IMG_COMMIT_BED_PIPE p)
  let s5 := if camBit then s4.camSetCommit p i else s4
  (if pipeBit then s5.pipeSetCommit p i else s5).camResize p i

/-- The boundary's work for a pipe. -/
def State.imgBoundary (s : State) (p : Nat) : State :=
  let s1 := (List.range 4).foldl (fun s i => s.camBoundary p i) s
  let s2 := if s1.isBedPipe p then s1.camBoundary p bedSource else s1
  s2.setReg (R.IMG_COMMIT p) 0

/-! ## The commands -/

/-- IMG_SLOT_ENABLE (R217): a write of IMG_CTRL. On a pipe the part lacks it lands in an absent unit (R4). -/
def execImgSlotEnable (src : Source) (pipe : Nat) (val : Word) (s : State) : Host.Outcome State Fault Refusal :=
  .next (s.gate src (R.IMG_CTRL pipe) val fun s => s.writeImgCtrl pipe val)

/-- CAM_COMMIT (R219): IMG_COMMIT.CAM; the staged set commits at the next boundary. -/
def execCamCommit (pipe slot : Nat) (s : State) : Host.Outcome State Fault Refusal :=
  .next (s.setFld (F.IMG_COMMIT_CAM pipe) (withBit (s.fld (F.IMG_COMMIT_CAM pipe)) (slot % 4) true))

/-- A PIPE bit of IMG_COMMIT set; while a frame needs the older version it is discarded with BUSY_WRITE (R221). -/
def State.askPipeCommit (s : State) (src : Source) (p i : Nat) : State :=
  if s.needsOld p i then s.busyWrite src (R.IMG_COMMIT p)
  else if i < 4 then s.setFld (F.IMG_COMMIT_PIPE p) (withBit (s.fld (F.IMG_COMMIT_PIPE p)) i true)
  else s.setFld (F.IMG_COMMIT_BED_PIPE p) 1

/-- PIPE_COMMIT (R221): IMG_COMMIT.PIPE of a slot. -/
def execPipeCommit (src : Source) (pipe slot : Nat) (s : State) : Host.Outcome State Fault Refusal :=
  .next (s.gate src (R.IMG_COMMIT pipe) (w32 (2 ^ (8 + slot % 4))) fun s => s.askPipeCommit src pipe (slot % 4))

/-- BED_CAM_COMMIT (R219): IMG_COMMIT.BED_CAM, reserved on every pipe but the highest present. -/
def execBedCamCommit (pipe : Nat) (s : State) : Host.Outcome State Fault Refusal :=
  .next (if s.isBedPipe pipe then s.setFld (F.IMG_COMMIT_BED_CAM pipe) 1 else s)

/-- BED_PIPE_COMMIT (R221): IMG_COMMIT.BED_PIPE, reserved on every pipe but the highest present. -/
def execBedPipeCommit (src : Source) (pipe : Nat) (s : State) : Host.Outcome State Fault Refusal :=
  .next (s.gate src (R.IMG_COMMIT pipe) 0x2000 fun s => if s.isBedPipe pipe then s.askPipeCommit src pipe bedSource else s)

/-- A write of IMG_COMMIT: every set bit asks for its commit. -/
def State.writeImgCommit (s : State) (src : Source) (p : Nat) (val : Word) : State :=
  let s1 := s.setFld (F.IMG_COMMIT_CAM p) (s.fld (F.IMG_COMMIT_CAM p) ||| getBits val 3 0)
  let s2 := (List.range 4).foldl (fun s i => if val.getLsbD (8 + i) then s.askPipeCommit src p i else s) s1
  if s2.isBedPipe p then
    let s3 := if val.getLsbD 12 then s2.setFld (F.IMG_COMMIT_BED_CAM p) 1 else s2
    if val.getLsbD 13 then s3.askPipeCommit src p bedSource else s3
  else s2

/-- The memory-path slot whose waiting frame goes next: the earliest trigger boundary, then the lower slot (R216). -/
def State.nextMemory (s : State) (p : Nat) : Option Nat :=
  [1, 2, 3].foldl (fun best i =>
    match (s.cam p i).waiting, best with
    | [], b => b
    | _ :: _, none => some i
    | f :: _, some b => match (s.cam p b).waiting with
      | g :: _ => if f.trig < g.trig then some i else some b
      | [] => some i) none

/-- MEMORY_FRAME_START (R216): the pipe takes up a memory-path frame, one at a time; a poisoned word's pixel is taken as
zero (R223). -/
def execMemoryFrameStart (pipe : Nat) (s : State) : Host.Outcome State Fault Refusal :=
  .next (
    if [1, 2, 3].any fun i => (s.cam pipe i).results != [] then s
    else match s.nextMemory pipe with
      | none => s
      | some i =>
        let c := s.cam pipe i
        match c.waiting with
        | [] => s
        | f :: rest =>
          let s1 := s.setCam pipe i { c with waiting := rest }
          let (s2, ws) := if f.queued = 0 then (s1, []) else s1.popPacket (imgReq pipe) c.queue
          let px := ws.drop 8
          let bad := ws.any fun w => w.poison
          s2.processFrame pipe i { f with
            pixels := px.map fun w => if w.poison then 0 else w.val.toNat % 65536
            flags := if bad then withBit f.flags 5 true else f.flags })

/-- The record of R233: the rectangle of odd sides around the cell that holds the spot; none for a timestamp older than the
points held. -/
def State.assimPacket (s : State) (p i : Nat) (r : CamResult) : Option (List Word) :=
  match r.assim, (s.cam p i).points.find? fun e => e.1 == tsOf r.header with
  | some (t, w, h), some (_, x, y) =>
    let i0 := unsigned 12 (s.hideCol x - ((w / 2 : Nat) : Int))
    let j0 := unsigned 12 (s.hideRow y - ((h / 2 : Nat) : Int))
    some [w32 (i0 * 2 ^ 12 + j0), w32 (h * 2 ^ 16 + w), w32 t]
  | _, _ => none

/-- STATS_PACKET (R230 to R234): the packet of a processed frame commits; its Stitch decides LATE. An accepted frame feeds
the Hide map, and a retained copy is pushed. -/
def execStatsPacket (pipe slot : Nat) (s : State) : Host.Outcome State Fault Refusal :=
  let c := s.cam pipe slot
  .next (
    match c.results with
    | [] => s
    | r :: rest =>
      let late := r.deadline != 0 && decide (tsOf r.header + r.deadline < s.now)
      let flags := if late then withBit r.flags 4 true else r.flags
      let h := fun k => r.header.getD k 0
      let applied := getBits (h 0) 23 16
      let no := h 1
      let words := [w32 (getBits (h 0) 31 24 * 2 ^ 24 + applied * 2 ^ 16 + r.expected * 2 ^ 8 + flags), no, h 2,
        h 3 &&& 0xFFFF07FF, w32 (pipe * 2 ^ 20 + slot * 2 ^ 16)] ++ r.stat
      let s1 := s.setCam pipe slot { c with results := rest }
      let s2 := if flags ≠ 0 then s1.camBump pipe slot 0x84 1 else s1
      let s3 := if applied ≠ r.expected then s2.camBump pipe slot 0x88 1 else s2
      let s4 := if (s3.namedQueue r.statq).isNone then s3
        else if s3.hasRoom r.statq words.length then s3.pushEvent (imgReq pipe) r.statq words
        else
          let t := (s3.pushEvent (imgReq pipe) r.statq words).camBump pipe slot 0x94 1
          if t.flag (F.IMG_STATUS_STAT_REFUSED pipe) then t
          else (t.setFld (F.IMG_STATUS_STAT_REFUSED pipe) 1).imgEvent pipe 2 slot flags no
      let s5 := if flags = 0 ∧ applied = r.expected then
          match s4.assimPacket pipe slot r with
          | none => s4
          | some ws =>
            if (s4.namedQueue r.assimq).isNone then s4
            else if s4.hasRoom r.assimq 3 then s4.pushEvent (imgReq pipe) r.assimq ws
            else (s4.pushEvent (imgReq pipe) r.assimq ws).camBump pipe slot 0x98 1
        else s4
      match r.retain with
      | none => s5
      | some px =>
        let ws := (r.header.take 7) ++ [w32 flags] ++ px
        if (s5.namedQueue r.retainq).isNone then s5
        else if s5.hasRoom r.retainq ws.length then s5.pushEvent (imgReq pipe) r.retainq ws
        else (s5.pushEvent (imgReq pipe) r.retainq ws).camBump pipe slot 0x9C 1)

/-- A write of IMG_BED_CMD (R236): COUNT and BED_PERIOD take the written values, and CAPTURE starts a capture whose first
frame is triggered at the first boundary after the one at which the command commits. -/
def State.writeBedCmd (s : State) (p : Nat) (val : Word) : State :=
  let s1 := s.setReg (R.IMG_BED_CMD p) (val &&& 0xFFFF7FFF)
  if !val.getLsbD 15 then s1
  else if s1.bed.running then s1.imgResult p 4
  else
    let count := getBits val 14 0
    let period := getBits val 31 16
    if count = 0 ∨ period = 0 ∨ s1.reg (R.IMG_BED_OUT p) = 0 then (s1.imgResult p 1).imgZero p
    else if !s1.camOn p bedSource then s1.imgResult p 3
    else { (s1.imgResult p 0) with bed := ⟨true, count, s1.now + 2, period, count, 0, 0⟩ }

/-- CAPTURE (R236): a write of IMG_BED_CMD with CAPTURE. On another pipe than the highest present the offset is a
hole (R21). -/
def execCapture (src : Source) (pipe : Nat) (val : Word) (s : State) : Host.Outcome State Fault Refusal :=
  .next (s.gate src (R.IMG_BED_CMD pipe) (val ||| 0x8000) fun s => if s.isBedPipe pipe then s.writeBedCmd pipe (val ||| 0x8000)
    else s.unmapped src .b0 (BitVec.ofNat 64 (R.IMG_BED_CMD pipe)))

/-- BED_DONE (R236): the last frame of the capture has been written; words 1 and 2 both carry its FRAME_NO (R236, R237, log entry
123). -/
def execBedDone (pipe : Nat) (s : State) : Host.Outcome State Fault Refusal :=
  .next (
    if s.isBedPipe pipe ∧ s.bed.running ∧ s.bed.triggers = 0 ∧ s.bed.frames = 0 then
      { (s.pushEvent (imgReq pipe) (s.reg (R.IMG_EVQ pipe)) [w32 (2 ^ 24 + s.bed.flags % 256), s.bed.lastNo, s.bed.lastNo]) with
        bed := BedRun.none }
    else s)

end Sys2Proof.Machine
end

