-- ==== Sys2Proof/Machine/Profile.lean ====
section
/-! DEFINITION. The Awl's motion profiles (R165 to R167, R171, R183) in the exact integer arithmetic of R165: s in 2^-24 bu,
v in 2^-40 bu per TCLK, a and j in 2^-56 bu per TCLK². -/

namespace Sys2Proof.Machine

/-- TCLK per second (R17). -/
def tclkHz : Nat := 320000000

/-- A speed in bu/s as a speed word. -/
def speedWord (v : Nat) : Nat := 2 ^ 40 * v / tclkHz

/-- An acceleration in mm/s² as an acceleration word. -/
def accWord (acc : Nat) : Nat := 2 ^ 56 * (16000 * acc) / tclkHz ^ 2

/-- A jerk in m/s³ as a jerk word. -/
def jerkWord (jerk : Nat) : Nat := 2 ^ 56 * (16000000 * jerk) / tclkHz ^ 3

/-- Distance, speed and acceleration along a path. -/
structure PathState where
  /-- s. -/
  s : Int
  /-- v. -/
  v : Int
  /-- a. -/
  a : Int
  deriving DecidableEq, Repr

/-- One clock of R165; the speed word moves the distance by its value shifted by `sh`. -/
def PathState.tickBy (sh : Nat) (p : PathState) (j : Int) : PathState :=
  let a := p.a + j
  let v := p.v + a / 2 ^ 16
  ⟨p.s + v / (2 ^ sh : Nat), v, a⟩

/-- `n` clocks under one jerk, one by one. -/
def PathState.loopBy (sh : Nat) (p : PathState) (j : Int) : Nat → PathState
  | 0 => p
  | n + 1 => PathState.loopBy sh (p.tickBy sh j) j n

/-- `n` clocks under one jerk; at constant speed the distance is a product. -/
def PathState.ticksBy (sh : Nat) (p : PathState) (j : Int) (n : Nat) : PathState :=
  if j = 0 ∧ p.a = 0 then { p with s := p.s + n * (p.v / (2 ^ sh : Nat)) } else p.loopBy sh j n

/-- Segments in order. -/
def PathState.segsBy (sh : Nat) (p : PathState) : List (Nat × Int) → PathState
  | [] => p
  | (n, j) :: l => PathState.segsBy sh (p.ticksBy sh j n) l

/-- The first `k` clocks of segments. -/
def PathState.upToBy (sh : Nat) (p : PathState) (k : Nat) : List (Nat × Int) → PathState
  | [] => p
  | (n, j) :: l => if k ≤ n then p.ticksBy sh j k else PathState.upToBy sh (p.ticksBy sh j n) (k - n) l

/-- Segments on TCLK, with the shift of R165. -/
def PathState.segs (p : PathState) (l : List (Nat × Int)) : PathState := p.segsBy 16 l

/-- The first `k` TCLK of segments. -/
def PathState.upTo (p : PathState) (k : Nat) (l : List (Nat × Int)) : PathState := p.upToBy 16 k l

/-- TCLK of segments. -/
def segsLen (l : List (Nat × Int)) : Nat := l.foldl (fun a e => a + e.1) 0

/-- The least natural number of at most `k` bits at which an upward closed test holds. -/
def leastAbove (ok : Nat → Bool) (k : Nat) : Nat := if ok 0 then 0 else largestBelow (fun n => !ok n) k 0 + 1

/-- A shape of segments: TCLK and the sign of the jerk. -/
abbrev SegShape := List (Nat × Int)

/-- A shape with a jerk word; empty segments are left out. -/
def withJerk (shape : SegShape) (j : Nat) : List (Nat × Int) :=
  (shape.filter fun e => e.1 != 0).map fun e => (e.1, e.2 * (j : Int))

/-- The largest jerk word up to a limit for which a test of the shape's segments holds (R166). -/
def largestJerk (shape : SegShape) (jMax : Nat) (ok : List (Nat × Int) → Bool) : Nat :=
  largestBelow (fun j => decide (j ≤ jMax) && ok (withJerk shape j)) 56 0

/-- Segment lengths of a ramp from rest to a speed (R166), at `f` clocks a second: jerk and constant acceleration. -/
def rampClocks (f v a j : Nat) : Nat × Nat :=
  if v * j ≤ a * a then (max 1 (ceilSqrt (ceilDiv (f ^ 2 * v) j)), 0)
  else (max 1 (ceilDiv (f * a) j), ceilDiv (f * (v * j - a * a)) (a * j))

/-- Segment lengths of a ramp of the Awl, from bu/s, mm/s² and m/s³. -/
def rampTclk (v acc jerk : Nat) : Nat × Nat := rampClocks tclkHz v (16000 * acc) (16000000 * jerk)

/-- Segment lengths of a move over `d` with a speed limit (R166), at `f` clocks a second and `u` units of `d` in a unit of the
limits: jerk, constant acceleration, cruise. -/
def moveClocks (f u d v a j : Nat) : Nat × Nat × Nat :=
  if v * j ≤ a * a then
    if 4 * v ^ 3 * u ^ 2 < d * d * j then
      let m := wideSqrt (4 * f ^ 2 * v ^ 3 * u ^ 2 / j)
      let (n1, n2) := rampClocks f v a j
      (n1, n2, ceilDiv (f * d - m) (v * u))
    else (max 1 (leastAbove (fun n => decide (d * f ^ 3 ≤ 2 * j * n ^ 3 * u)) 40), 0, 0)
  else if (v * v * j + v * a * a) * u < d * a * j then
    let (n1, n2) := rampClocks f v a j
    (n1, n2, ceilDiv (f * (d * a * j - u * (v * v * j + v * a * a))) (u * v * a * j))
  else if d * j * j ≤ 2 * a ^ 3 * u then
    (max 1 (leastAbove (fun n => decide (d * f ^ 3 ≤ 2 * j * n ^ 3 * u)) 40), 0, 0)
  else
    (max 1 (ceilDiv (f * a) j),
      leastAbove (fun n => decide (d * f ^ 2 * j ^ 2 ≤ a * (n * j + a * f) * (n * j + 2 * a * f) * u)) 40, 0)

/-- The segments of a move from rest to rest over `d`, under a jerk word limit and the shift of its clock (R166). -/
def moveBy (sh jMax : Nat) (d : Nat) (n : Nat × Nat × Nat) : List (Nat × Int) :=
  let (n1, n2, n4) := n
  let shape : SegShape := [(n1, 1), (n2, 0), (n1, -1), (n4, 0), (n1, -1), (n2, 0), (n1, 1)]
  withJerk shape (largestJerk shape jMax fun l => decide ((PathState.segsBy sh ⟨0, 0, 0⟩ l).s ≤ d))

/-- The segments of a move of the Awl over `d` in 2^-24 bu (R166). -/
def moveSegs (d v acc jerk : Nat) : List (Nat × Int) :=
  moveBy 16 (jerkWord jerk) d (moveClocks tclkHz (2 ^ 24) d v (16000 * acc) (16000000 * jerk))

/-- The segments of a run-in to a speed, or of a run-out from it (R166). -/
def rampSegs (v acc jerk : Nat) (down : Bool) : List (Nat × Int) :=
  let (n1, n2) := rampTclk v acc jerk
  let g : Int := if down then -1 else 1
  let shape : SegShape := [(n1, g), (n2, 0), (n1, -g)]
  let w : Int := speedWord v
  withJerk shape (largestJerk shape (jerkWord jerk) fun l =>
    let e := (PathState.segs ⟨0, if down then w else 0, 0⟩ l).v
    if down then decide (0 ≤ e) else decide (e ≤ w))

/-- The distance of a run-in or run-out (R166). -/
def rampDist (v acc jerk : Nat) (down : Bool) : Nat :=
  (PathState.segs ⟨0, if down then (speedWord v : Int) else 0, 0⟩ (rampSegs v acc jerk down)).s.toNat

/-- Distance per clock at a constant speed word; at least one unit, so that a crossing ends. -/
def stepBy (sh v : Nat) : Nat := max 1 (v / 2 ^ sh)

/-- Distance per TCLK at a constant speed word. -/
def cruiseStep (v : Nat) : Nat := stepBy 16 v

/-! ## Motions -/

/-- TCLK of a motion. -/
def Motion.dur (m : Motion) : Nat := segsLen m.segs

/-- The TCLK at which a motion ends. -/
def Motion.stop (m : Motion) : Nat := m.t0 + m.dur

/-- Distance, speed and acceleration `dt` TCLK into a motion; its last TCLK sets distance, speed and acceleration. -/
def Motion.at (m : Motion) (dt : Nat) : PathState :=
  if m.dur ≤ dt then ⟨m.len, m.vEnd, 0⟩
  else
    let p := PathState.upTo ⟨0, m.v0, m.a0⟩ dt m.segs
    { p with s := if (m.len : Int) < p.s then m.len else p.s }

/-- The bed point `dt` TCLK into a motion. -/
def Motion.point (m : Motion) (dt : Nat) : Int × Int := pathPoint m.path (m.at dt).s

/-- The motion that runs at a TCLK: the last that has begun. -/
def runningMotion (t : Nat) : List Motion → Option Motion
  | [] => none
  | m :: ms => if m.t0 ≤ t then (match runningMotion t ms with | some k => some k | none => some m) else none

/-- A path without its first `s`. -/
def dropPath : List PathPart → Nat → List PathPart
  | [], _ => []
  | p :: ps, s => if s ≤ p.len then { p with start := p.start + s, len := p.len - s } :: ps else dropPath ps (s - p.len)

/-- The paths of motions that follow one another at speed. -/
def pathAhead : List Motion → List PathPart
  | [] => []
  | m :: ms => if m.vEnd = 0 then m.path else m.path ++ pathAhead ms

/-- The segments that take a speed word down or up by `dv`, within limits given as words: jerk and constant acceleration,
lengths rounded up (R166). -/
def changeShape (dv aMax jMax : Nat) (g : Int) : SegShape :=
  if dv = 0 then []
  else if dv * 2 ^ 16 * jMax ≤ aMax * aMax then
    let n1 := max 1 (ceilSqrt (ceilDiv (dv * 2 ^ 16) jMax))
    [(n1, g), (n1, -g)]
  else
    let n1 := max 1 (ceilDiv aMax jMax)
    [(n1, g), (ceilDiv (dv * 2 ^ 16 * jMax - aMax * aMax) (aMax * jMax), 0), (n1, -g)]

/-- The segments from one speed word to another. -/
def changeSegs (v0 v1 aMax jMax : Nat) : List (Nat × Int) :=
  if v1 ≤ v0 then
    let shape := changeShape (v0 - v1) aMax jMax (-1)
    withJerk shape (largestJerk shape jMax fun l => decide ((v1 : Int) ≤ (PathState.segs ⟨0, v0, 0⟩ l).v))
  else
    let shape := changeShape (v1 - v0) aMax jMax 1
    withJerk shape (largestJerk shape jMax fun l => decide ((PathState.segs ⟨0, v0, 0⟩ l).v ≤ v1))

/-- The segments that bring an acceleration to zero within a jerk limit. -/
def levelOff (a : Int) (jMax : Nat) : List (Nat × Int) :=
  let n := ceilDiv a.natAbs jMax
  if n = 0 then [] else [(n, -(a / (n : Int)))]

/-- The segments of a stop from a speed and an acceleration (R183). -/
def stopSegs (p : PathState) (aMax jMax : Nat) : List (Nat × Int) :=
  let l0 := levelOff p.a jMax
  let v := ((PathState.segs ⟨0, p.v, p.a⟩ l0).v).toNat
  l0 ++ changeSegs v 0 aMax jMax

/-- Clocks of the ramp to rest that ends a profile: its last rise of the acceleration to zero, the stretch of constant
deceleration before it, and the fall before that. -/
def finalRamp (segs : List (Nat × Int)) : Nat :=
  match segs.reverse with
  | a :: b :: c :: _ => if b.2 = 0 then a.1 + b.1 + c.1 else a.1 + b.1
  | a :: b :: [] => a.1 + b.1
  | _ => segsLen segs

/-- The stop of a motion at a TCLK, along the path ahead (R183): the rest of a motion that already decelerates to rest,
else a deceleration under the limits of the plan in flight. None when the spot is at rest. -/
def stopMotion (m : Motion) (after : List Motion) (t : Nat) : Option Motion :=
  let dt := t - m.t0
  let p := m.at dt
  if m.dur ≤ dt ∧ m.vEnd = 0 ∨ p.v ≤ 0 then none
  else if m.vEnd = 0 ∧ m.dur ≤ dt + finalRamp m.segs then some { m with kind := .stop }
  else
    let segs := stopSegs p m.aMax m.jMax
    let path := dropPath (pathAhead (m :: after)) p.s.toNat
    let room := path.foldl (fun n q => n + q.len) 0
    let dist := (PathState.segs ⟨0, p.v, p.a⟩ segs).s.toNat
    some ⟨.stop, t, segs, p.v, p.a, 0, min dist room, path, m.aMax, m.jMax⟩

/-- The first `h` clocks of a braking from an acceleration: the jerk against it until the acceleration limit is met, then
constant deceleration; and the acceleration brought back to zero. -/
def brakeSegs (sh : Nat) (p : PathState) (aMax jMax h : Nat) : List (Nat × Int) :=
  let n1 := min h (((aMax : Int) + p.a).toNat / max 1 jMax)
  let l := [(n1, -(jMax : Int)), (h - n1, 0)].filter fun e : Nat × Int => e.1 != 0
  l ++ levelOff (PathState.segsBy sh ⟨0, p.v, p.a⟩ l).a jMax

/-- The segments that go on from a speed and an acceleration over `d` to rest without a stop on the way, changing speed toward
`vCap` as far as the distance allows (R171): none when the spot cannot stop within `d`. Where even its present speed is too high
it brakes first, no longer than it must. -/
def onwardBy (sh : Nat) (p : PathState) (d vCap aMax jMax : Nat) : Option (List (Nat × Int)) :=
  let lead := brakeSegs sh p aMax jMax
  let speed := fun h : Nat => (PathState.segsBy sh ⟨0, p.v, p.a⟩ (lead h)).v
  let total := fun h vp : Nat =>
    (PathState.segsBy sh ⟨0, p.v, p.a⟩ (lead h ++ changeSegs (speed h).toNat vp aMax jMax ++ changeSegs vp 0 aMax jMax)).s
  let cruise := fun h vp : Nat =>
    let n := if vp = 0 then 0 else ((d : Int) - total h vp).toNat / stepBy sh vp
    some (lead h ++ changeSegs (speed h).toNat vp aMax jMax ++ [(n, 0)] ++ changeSegs vp 0 aMax jMax)
  let v := (speed 0).toNat
  if 0 ≤ speed 0 ∧ total 0 v ≤ d then
    let vp :=
      if total 0 vCap ≤ d then vCap
      else if v < vCap then v + largestBelow (fun k => decide (v + k ≤ vCap) && decide (total 0 (v + k) ≤ d)) 48 0
      else v - largestBelow (fun k => decide (vCap + k ≤ v) && decide (total 0 (v - k) ≤ d)) 48 0
    cruise 0 vp
  else
    let h := leastAbove (fun h => decide (speed h < 0) || decide (total h (speed h).toNat ≤ d)) 40
    if 0 ≤ speed h ∧ total h (speed h).toNat ≤ d then cruise h (speed h).toNat else none

/-- The same on TCLK. -/
def onwardSegs (p : PathState) (d vCap aMax jMax : Nat) : Option (List (Nat × Int)) := onwardBy 16 p d vCap aMax jMax

end Sys2Proof.Machine
end

