-- ==== Sys2Proof/Machine/AwlPlan.lean ====
section
/-! DEFINITION. How an Awl plans a stroke (R162 to R170, R172, R176 to R179) and the duration estimator (R185): pure
planning over a slot's parameters, without registers or queues. -/

namespace Sys2Proof.Machine

/-- The parameters a plan is made with. -/
structure AwlParams where
  /-- AWL_ACC. -/
  acc : Nat
  /-- AWL_JERK. -/
  jerk : Nat
  /-- AWL_LAG. -/
  lag : Nat
  /-- DLY_ON + TRIM_ON. -/
  dlyOn : Int
  /-- DLY_OFF + TRIM_OFF. -/
  dlyOff : Int
  /-- MAX_ANGLE. -/
  corner : Nat
  /-- Limits: XMIN, YMIN, XMAX, YMAX. -/
  xmin : Int
  /-- YMIN. -/
  ymin : Int
  /-- XMAX. -/
  xmax : Int
  /-- YMAX. -/
  ymax : Int
  /-- ORIGIN_X. -/
  ox : Int
  /-- ORIGIN_Y. -/
  oy : Int
  /-- SWAP. -/
  swap : Bool
  /-- NEGX. -/
  negx : Bool
  /-- NEGY. -/
  negy : Bool

/-- The nominal field point of a bed point, exactly (R172). -/
def AwlParams.field (p : AwlParams) (x y : Int) : Int × Int :=
  let a := x - p.ox
  let b := y - p.oy
  let (a, b) := if p.swap then (b, a) else (a, b)
  (if p.negx then -a else a, if p.negy then -b else b)

/-- Whether a value is a head field coordinate: 24 bits, signed (R6). -/
def fieldRange (v : Int) : Bool := decide (-(2 ^ 23) ≤ v) && decide (v < 2 ^ 23)

/-- Whether a bed point passes the limit check: the differences are head field coordinates, and the field point lies in the
rectangle (R172). -/
def AwlParams.inside (p : AwlParams) (x y : Int) : Bool :=
  let (fx, fy) := p.field x y
  fieldRange (x - p.ox) && fieldRange (y - p.oy) && decide (p.xmin ≤ fx) && decide (fx ≤ p.xmax) && decide (p.ymin ≤ fy) && decide (fy ≤ p.ymax)

/-- A stroke's fields (R102). -/
structure Stroke where
  /-- X_START. -/
  x : Int
  /-- Y_START. -/
  y : Int
  /-- DX; of a wait, its Stitches. -/
  dx : Int
  /-- DY. -/
  dy : Int
  /-- KIND: 0 mark, 1 jump, 2 arc-mark, 3 wait. -/
  kind : Nat
  /-- PSET. -/
  pset : Nat
  /-- TRACE. -/
  trace : Bool
  /-- LINK. -/
  link : Bool
  /-- The direction that an arc-mark inherits where the stroke before it does not run before it here, as at the head of a piece or
  a remainder (R103); (0, 0) where it does. -/
  dir : Int × Int
  deriving DecidableEq, Repr

/-- The stroke that four words spell (R102). -/
def strokeOf (w0 w1 w2 w3 : Word) : Stroke :=
  let kind := getBits w3 31 30
  { x := w0.toInt, y := w1.toInt
    dx := if kind = 3 then (getBits w2 23 0 : Int) else signed 24 (getBits w2 23 0)
    dy := signed 24 (getBits w3 15 0 * 256 + getBits w2 31 24)
    kind := kind, pset := getBits w3 29 22, trace := getBits w3 17 17 == 1, link := getBits w3 16 16 == 1, dir := (0, 0) }

/-- Whether a stroke is skipped (R105). -/
def Stroke.skipped (k : Stroke) : Bool := if k.kind = 3 then k.dx == 0 else k.dx == 0 && k.dy == 0

/-- The fields of a parameter set that motion and regulation read (R98). -/
structure Pset where
  /-- MARK_SPEED. -/
  markSpeed : Nat
  /-- JUMP_SPEED. -/
  jumpSpeed : Nat
  /-- POWER. -/
  power : Nat
  /-- SETPOINT. -/
  setpoint : Nat
  /-- BAND. -/
  band : Nat
  /-- UP. -/
  up : Nat
  /-- DOWN. -/
  down : Nat
  /-- DWELL. -/
  dwell : Nat
  /-- FOCUS. -/
  focus : Int
  deriving DecidableEq, Repr

/-- A parameter set from its words. -/
def psetOf (l : List Word) : Pset :=
  let w := fun i => l.getD i (0 : Word)
  { markSpeed := (w 0).toNat, jumpSpeed := (w 1).toNat, power := getBits (w 2) 15 0, setpoint := getBits (w 2) 31 16
    band := getBits (w 3) 15 0, up := getBits (w 4) 15 0, down := getBits (w 4) 31 16, dwell := getBits (w 5) 7 0
    focus := signed 24 (getBits (w 6) 23 0) }

/-- A plan being made: the slot's parameters, the period, the present boundary, whether it is an estimate, the Awl, and what
the planning found. -/
structure Plan where
  /-- Parameters. -/
  p : AwlParams
  /-- Period in TCLK. -/
  n : Nat
  /-- TCLK of the present boundary. -/
  t0 : Nat
  /-- Its Stitch. -/
  s0 : Nat
  /-- An estimate: kinematics only (R185). -/
  dry : Bool
  /-- The Awl with the plan so far. -/
  a : Awl
  /-- Fault code found; 0 for none. -/
  fault : Nat
  /-- Deferrals. -/
  defers : Nat
  /-- Slowed arcs. -/
  slows : Nat

/-- The Stitch of a TCLK (R26). -/
def Plan.stitchOf (pl : Plan) (t : Int) : Int := pl.s0 + (t - pl.t0).fdiv pl.n

/-- Whether a TCLK opens a Stitch. -/
def Plan.opens (pl : Plan) (t : Int) : Bool := (t - pl.t0).fmod pl.n == 0

/-- A motion added at the end of the plan; the spot rests or goes on at (x, y) after it. -/
def Plan.add (pl : Plan) (kind : MotionKind) (segs : List (Nat × Int)) (v0 vEnd : Int) (path : List PathPart) (x y : Int) :
    Plan :=
  let len := path.foldl (fun n q => n + q.len) 0
  let m : Motion := ⟨kind, pl.a.planT, segs, v0, 0, vEnd, len, path, accWord pl.p.acc, jerkWord pl.p.jerk⟩
  { pl with a := { pl.a with motions := pl.a.motions ++ [m], planT := pl.a.planT + segsLen segs, planX := x, planY := y } }

/-- A fault found before the stroke moves; the first one stands. -/
def Plan.fail (pl : Plan) (code : Nat) : Plan := if pl.fault = 0 then { pl with fault := code } else pl

/-- Whether nothing can move: AWL_ACC or AWL_JERK or the speed is 0. -/
def Plan.stuck (pl : Plan) (speed : Nat) : Bool := speed == 0 || pl.p.acc == 0 || pl.p.jerk == 0

/-- A jump from the end of the plan to a bed point (R103, R166). -/
def Plan.jumpTo (pl : Plan) (x y : Int) (speed : Nat) (kind : MotionKind) : Plan :=
  let dx := x - pl.a.planX
  let dy := y - pl.a.planY
  if dx = 0 ∧ dy = 0 then pl
  else if pl.stuck speed then pl.fail 3
  else
    let d := pathLen dx dy
    pl.add kind (moveSegs d speed pl.p.acc pl.p.jerk) 0 0 [⟨.line pl.a.planX pl.a.planY dx dy, 0, d⟩] x y

/-- Points checked against the limits (R172). -/
def Plan.check (pl : Plan) (pts : List (Int × Int)) : Plan :=
  if pl.dry ∨ pts.all (fun q => pl.p.inside q.1 q.2) then pl else pl.fail 3

/-- The run-out after a crossing at a speed (R167), from the end point along the end direction, under the ACC and JERK of the
stroke's plan (R163). -/
def Plan.runOut (pl : Plan) (speed acc jerk : Nat) : Plan :=
  let d := rampDist speed acc jerk true
  let shape := Shape.line pl.a.planX pl.a.planY pl.a.dirX pl.a.dirY
  let (x, y) := shape.point d
  let m : Motion := ⟨.runOut, pl.a.planT, rampSegs speed acc jerk true, speedWord speed, 0, 0, d, [⟨shape, 0, d⟩], accWord acc,
    jerkWord jerk⟩
  { pl with a := { pl.a with
    motions := pl.a.motions ++ [m], planT := pl.a.planT + m.dur, planX := x, planY := y, pend := none } }

/-- A LINK whose transition is fixed as 0 (R163). -/
def Plan.closePend (pl : Plan) : Plan :=
  match pl.a.pend with
  | none => pl
  | some e => pl.runOut e.speed e.acc e.jerk

/-- Listed edges that are planned in a Stitch (R179). -/
def Plan.edgesIn (pl : Plan) (st : Int) : Nat :=
  pl.a.lits.foldl (fun k l =>
    let one := fun t : Int => bitNat (pl.stitchOf t == st && !pl.opens t)
    k + one l.on + one l.off) 0

/-- Whether a gate-on edge need not be deferred further (R179). -/
def Plan.edgeFits (pl : Plan) (on off : Int) : Bool :=
  if pl.opens on then true
  else
    let k := pl.edgesIn (pl.stitchOf on)
    decide (k = 0) || (decide (k = 1) && pl.stitchOf on != pl.stitchOf off)

/-- TCLK by which a run-in is held back (R179). -/
def Plan.deferral (pl : Plan) (on off : Int) : Nat :=
  ((List.range (pl.n + 1)).find? fun k : Nat => pl.edgeFits (on + (k : Int)) (off + (k : Int))).getD 0

/-- What a mark or arc-mark runs along: shape, length, speed, start direction, end direction, points on the way. -/
structure MarkGeometry where
  /-- Shape. -/
  shape : Shape
  /-- Length in 2^-24 bu. -/
  len : Nat
  /-- Speed in bu/s. -/
  speed : Nat
  /-- Slowed under R169. -/
  slow : Bool
  /-- Tangent to what comes before. -/
  tangent : Bool
  /-- The straight line through the start along the start direction. -/
  lead : Shape
  /-- Start direction, as an exact vector. -/
  dir0 : Int × Int
  /-- End direction, as an exact vector. -/
  dir1 : Int × Int
  /-- Extreme points. -/
  extremes : List (Int × Int)

/-- The geometry of a straight mark. -/
def lineGeometry (k : Stroke) (q : Pset) : MarkGeometry :=
  let line := Shape.line k.x k.y k.dx k.dy
  ⟨line, pathLen k.dx k.dy, q.markSpeed, false, false, line, (k.dx, k.dy), (k.dx, k.dy), []⟩

/-- The geometry of a mark or arc-mark (R104, R169). -/
def Plan.geometry (pl : Plan) (k : Stroke) (q : Pset) : MarkGeometry :=
  if k.kind = 2 then
    let v := if k.dir = (0, 0) then (pl.a.dirX, pl.a.dirY) else k.dir
    match tangentArc k.x k.y v.1 v.2 k.dx k.dy with
    | some (.arc x y ux uy left radius, len, dir1) =>
      let slow := decide (pl.p.acc * 16000 * radius < q.markSpeed * q.markSpeed * 2 ^ 24)
      let speed := if slow then wideSqrt (pl.p.acc * 16000 * radius / 2 ^ 24) else q.markSpeed
      ⟨.arc x y ux uy left radius, len, speed, slow, true, .line k.x k.y v.1 v.2, v, dir1,
        arcExtremes ux uy left radius len x y⟩
    | _ => lineGeometry k q
  else lineGeometry k q

/-- Whether the pending LINK takes the spot through into this mark at speed (R168, R169). -/
def Plan.links (pl : Plan) (k : Stroke) (q : Pset) (g : MarkGeometry) : Bool :=
  match pl.a.pend with
  | none => false
  | some e =>
    !g.slow && g.speed == e.speed && q.markSpeed == e.markSpeed && k.x == e.x && k.y == e.y
      && (g.tangent || cornerOk pl.a.dirX pl.a.dirY g.dir0.1 g.dir0.2 pl.p.corner)

/-- The last planned stretch with its gate-off edge moved. -/
def moveLastOff (off : Int) : List Lit → List Lit
  | [] => []
  | [l] => [{ l with off := off }]
  | l :: ls => l :: moveLastOff off ls

/-- A mark or arc-mark planned (R167 to R169, R176 to R179). -/
def Plan.mark (pl : Plan) (k : Stroke) (q : Pset) (last : Bool) : Plan :=
  let g := pl.geometry k q
  let linked := pl.links k q g
  let pl0 := if linked then pl else pl.closePend
  if pl0.stuck g.speed then pl0.fail 3
  else
    let w := speedWord g.speed
    let segsIn := rampSegs g.speed pl.p.acc pl.p.jerk false
    let durIn := segsLen segsIn
    let dIn := rampDist g.speed pl.p.acc pl.p.jerk false
    let dOut := rampDist g.speed pl.p.acc pl.p.jerk true
    let x1 := k.x + k.dx
    let y1 := k.y + k.dy
    let stretch : Nat := if linked ∨ pl.dry then 0 else (-((durIn : Int) + pl.p.lag - pl.p.dlyOn)).toNat
    let back := dIn + stretch * cruiseStep w
    let rest := g.lead.point (-(back : Int))
    let outEnd := (Shape.line x1 y1 g.dir1.1 g.dir1.2).point dOut
    let pts := [(x1, y1), outEnd, (k.x, k.y)] ++ g.extremes ++ (if linked then [] else [rest])
    let pl1 := pl0.check pts
    let pl2 := if linked then pl1 else pl1.jumpTo rest.1 rest.2 q.jumpSpeed .jump
    if pl2.fault ≠ 0 then pl2
    else
      let step := cruiseStep w
      let durX := ceilDiv g.len step
      let pl3 :=
        if linked then pl2
        else
          let c : Int := (pl2.a.planT + durIn + stretch : Nat)
          let on := c + pl.p.lag - pl.p.dlyOn
          let off := c + durX + pl.p.lag - pl.p.dlyOff
          let hold := if pl.dry then 0 else pl2.deferral on off
          let lits := if pl.dry then pl2.a.lits else pl2.a.lits ++ [⟨on + hold, off + hold, false⟩]
          let pl' := { pl2 with
            defers := pl2.defers + bitNat (hold != 0)
            a := { pl2.a with planT := pl2.a.planT + hold, lits := lits } }
          let pl'' := pl'.add .runIn segsIn 0 w [⟨g.lead, -(back : Int), dIn⟩] k.x k.y
          if stretch = 0 then pl''
          else pl''.add .runIn [(stretch, 0)] w w [⟨g.lead, (dIn : Int) - back, back - dIn⟩] k.x k.y
      let pl4 := pl3.add .cross [(durX, 0)] w w [⟨g.shape, 0, g.len⟩] x1 y1
      let lits := if linked ∧ !pl.dry then moveLastOff ((pl4.a.planT : Int) + pl.p.lag - pl.p.dlyOff) pl4.a.lits
        else pl4.a.lits
      let pl5 := { pl4 with
        slows := pl4.slows + bitNat g.slow
        a := { pl4.a with lits := lits, dirX := g.dir1.1, dirY := g.dir1.2, prevX := x1, prevY := y1, pend := none } }
      if k.link ∧ !last ∧ !g.slow then
        { pl5 with a := { pl5.a with pend := some ⟨g.speed, q.markSpeed, pl.p.acc, pl.p.jerk, pl5.a.planT, x1, y1⟩ } }
      else pl5.runOut g.speed pl.p.acc pl.p.jerk

/-- The nominal power of a stroke: POWER, scaled by the speed ratio of a slowed arc (R169, R182). -/
def Plan.nominal (pl : Plan) (k : Stroke) (q : Pset) : Nat :=
  if k.kind = 2 ∧ !k.skipped then
    let g := pl.geometry k q
    if g.slow ∧ q.markSpeed ≠ 0 then (divRound (q.power * g.speed : Nat) q.markSpeed).toNat else q.power
  else q.power

/-- A stroke planned, and held until it ends. A skipped one takes no time and is passed over (R105). A unit's first motion
starts at a boundary, and a spot at rest starts at the next one (R132, R163). Where the unit before still runs out, the motion from
its end point on, the run-out included, counts to the new unit: its first stroke starts in the Stitch after that end (R132;
DEDUCED, log entry 114). -/
def Plan.stroke (pl : Plan) (k : Stroke) (q : Pset) (h : HeldStroke) : Plan :=
  let first := !pl.a.inUnit
  let next := pl.t0 + pl.n
  let start :=
    if pl.dry then pl.a.planT
    else if pl.a.pend.isSome then pl.a.planT
    else
      let t := max pl.a.planT next
      if first then pl.t0 + ceilDiv (t - pl.t0) pl.n * pl.n else t
  let pl0 := { pl with a := { pl.a with planT := start } }
  if k.skipped then
    let z : Int := if first then pl0.stitchOf start else (max pl.a.lastEnd pl.s0 : Nat)
    let pl1 := if h.last then pl0.closePend else pl0
    { pl1 with a := { pl1.a with
      inUnit := !h.last
      held := pl1.a.held ++ [{ h with
        zero := true, t0 := start, startStitch := z.toNat, endStitch := z.toNat, first := first, nom := pl1.a.nom,
        pset := pl1.a.pset, focus := pl1.a.focus }] } }
  else
    let mark := decide (k.kind = 0 ∨ k.kind = 2)
    let linked := mark && pl0.links k q (pl0.geometry k q)
    let plJ := if linked then pl0 else pl0.closePend
    let t0 := plJ.a.planT
    let (pl1, endS) :=
      if mark then
        let r := pl0.mark k q h.last
        let tEnd := match r.a.pend with
          | some e => e.tEnd
          | none => match (r.a.motions.filter fun m => m.kind == .cross).getLast? with
            | some m => m.stop
            | none => r.a.planT
        (r, r.stitchOf tEnd)
      else if k.kind = 1 then
        let r := ((plJ.check [(k.x, k.y), (k.x + k.dx, k.y + k.dy)]).jumpTo k.x k.y q.jumpSpeed .jump).jumpTo (k.x + k.dx)
          (k.y + k.dy) q.jumpSpeed .jump
        ({ r with a := { r.a with dirX := k.dx, dirY := k.dy, prevX := k.x + k.dx, prevY := k.y + k.dy } },
          r.stitchOf r.a.planT)
      else
        let r := (plJ.check [(k.x, k.y)]).jumpTo k.x k.y q.jumpSpeed .jump
        let b := ceilDiv (r.a.planT - pl.t0) pl.n
        let stop := pl.t0 + (b + k.dx.toNat) * pl.n
        ({ r with a := { r.a with planT := stop, dirX := 0, dirY := 0, prevX := k.x, prevY := k.y } },
          (pl.s0 + b + k.dx.toNat : Int) - 1)
    if pl1.fault ≠ 0 then { pl with fault := pl1.fault }
    else
      { pl1 with a := { pl1.a with
        inUnit := !h.last
        starved := false
        lastEnd := endS.toNat
        held := pl1.a.held ++ [{ h with
          zero := false, t0 := t0
          startStitch := if first ∧ !pl.dry ∧ pl.s0 ≤ pl.a.lastEnd then pl.a.lastEnd + 1 else (pl1.stitchOf t0).toNat
          endStitch := endS.toNat, first := first,
          nom := pl0.nominal k q, pset := k.pset, focus := q.focus }] } }

/-! ## The duration estimator (R185) -/

/-- Strokes planned one after another without output. -/
def Plan.dryRun (pl : Plan) (psets : Nat → Pset) : List (Stroke × Bool) → Plan
  | [] => pl
  | (k, last) :: ks =>
    Plan.dryRun (pl.stroke k (psets k.pset) ⟨0, last, false, false, 0, 0, false, false, 0, 0, 0, false, 0, 0, 0⟩) psets ks

/-- Each stroke of a unit with its LAST. -/
def withLast : List Stroke → List (Stroke × Bool)
  | [] => []
  | [k] => [(k, true)]
  | k :: ks => (k, false) :: withLast ks

/-- An estimate's start: the spot at rest at a point, at TCLK 0 of Stitch 0. -/
def Plan.fresh (p : AwlParams) (n : Nat) (x y : Int) : Plan :=
  ⟨p, n, 0, 0, true, { Awl.atReset with restX := x, restY := y, planX := x, planY := y, prevX := x, prevY := y }, 0, 0, 0⟩

/-- E of a unit in Stitches: from its first motion to the end Stitch of its last stroke, with the spot at rest at the first
stroke's start (R125, R185). Nothing that cannot move takes time. -/
def unitEstimate (p : AwlParams) (n : Nat) (psets : Nat → Pset) (ks : List Stroke) : Nat :=
  match ks with
  | [] => 0
  | k :: _ => if ks.all Stroke.skipped then 0 else ((Plan.fresh p n k.x k.y).dryRun psets (withLast ks)).a.lastEnd + 1

/-- J of a lead-in jump in whole Stitches (R125). -/
def leadIn (p : AwlParams) (n speed : Nat) (x0 y0 x y : Int) : Nat :=
  ceilDiv ((Plan.fresh p n x0 y0).jumpTo x y speed .jump).a.planT n

end Sys2Proof.Machine
end

