-- ==== Sys2Proof/Machine/Cores.lean ====
section
/-! DEFINITION. Tack cores and contexts (R79 to R94): slot tables, program loading, swap, restart and halt at a boundary,
the budget guard and the two watchdogs. The instructions themselves are in the Adtuak files. -/

namespace Sys2Proof.Machine

/-- TC_CTX_STATE.STATE: IDLE. -/
def ctxIdle : Nat := 0
/-- WAITING. -/
def ctxWaiting : Nat := 1
/-- RUNNING. -/
def ctxRunning : Nat := 2
/-- HALTED. -/
def ctxHalted : Nat := 3

/-- A context's state (R87). -/
def State.ctxState (s : State) (core c : Nat) : Nat := s.fld (F.TC_CTX_STATE_STATE core c)

/-- The state with a context's state of R87 set. -/
def State.setCtxState (s : State) (core c v : Nat) : State := s.setFld (F.TC_CTX_STATE_STATE core c) v

/-- The producer number of a context's open packets (R270). -/
def ctxProducer (core c : Nat) : Nat := 16 * core + c

/-! ## Restart (R45) -/

/-- A context with its registers at reset values, its stacks empty and its PC at the entry (R45). What is in force
(entry, worst case, partitions), its due Stitch, its watchdog and its posted writes stay. -/
def Ctx.restarted (x : Ctx) : Ctx :=
  { x with g := [], v := [], p := 0, gpois := 0, vpois := 0, pc := x.entry, calls := [], loops := [], stat := 0, qst := 0,
           epc := 0, ecause := 0, eaddr := 0, trapvec := 0 }

/-- What a context has on the way from streams no longer reaches its registers. -/
def State.forgetLds (s : State) (core c : Nat) : State :=
  let k := s.core core
  s.setCore core { k with lds := k.lds.map fun l => if l.ctx = c then { l with keep := false } else l }

/-- A context restart: its registers, and its open packets marked bad and rewound (R45). Data on its way does not reach the
restarted registers. A packet that a flush had rewound before is no open packet: its producer goes on discarding up to its
next end word or mark (R275; DESIGN CHOICE, log entry 107). -/
def State.restartCtx (s : State) (core c : Nat) : State :=
  ((s.setCtx core c (s.ctx core c).restarted).forgetLds core c).dropPackets (ctxProducer core c)

/-- A context HALTED: its open packets are marked bad at that moment and its registers are kept (R87). -/
def State.haltCtx (s : State) (core c : Nat) : State :=
  (s.setCtxState core c ctxHalted).dropPackets (ctxProducer core c)

/-- A halt by an exception: LAST_CAUSE and CTX_EXC to the supervisor (R72, R91). -/
def State.haltByException (s : State) (core c cause : Nat) : State :=
  ((s.setFld (F.TC_CTX_STATE_LAST_CAUSE core c) cause).haltCtx core c).superEvent core 0x01 cause c

/-! ## The budget guard (R71, R88) -/

/-- The guard stops a running context at the end of its slot: what it has on the way no longer reaches its registers,
OVERRUN is raised and counted, and the policy acts. -/
def State.overrunCtx (s : State) (core c : Nat) : State :=
  let s1 := s.forgetLds core c
  let s2 := ((s1.setFld (F.TC_CTX_STATE_OVERRUN core c) 1).bump (F.TC_CTX_STATE_OVERRUNS core c)).superEvent core 0x02 0 c
  let x := s2.ctx core c
  let next := BitVec.ofNat 64 (s2.now + 1)
  match s2.fld (F.TC_CTX_CTRL_OVR_POLICY core c) with
  | 1 => ((s2.setCtx core c { x with policyDue := 1, due := next }).setCtxState core c ctxWaiting).dropPackets
      (ctxProducer core c)
  | 2 => (s2.setCtx core c { x with policyDue := 2, due := next }).setCtxState core c ctxWaiting
  | _ => s2.haltCtx core c

/-- The slot that runs on a core, if its context still runs. -/
def State.runningSlot (s : State) (core : Nat) : Option Slot :=
  match (s.core core).cur with
  | none => none
  | some i => match (s.core core).table[i]? with
    | none => none
    | some sl => if s.ctxState core sl.ctx = ctxRunning then some sl else none

/-! ## Slot tables (R79 to R82) -/

/-- The valid slots of the staged table, in order: context and length; a slot of length zero is invalid (R81). -/
def State.stagedSlots (s : State) (core : Nat) : List (Nat × Nat) :=
  (List.range 16).filterMap fun m =>
    if s.flag (F.TC_SLOT_VALID core m) ∧ s.fld (F.TC_SLOT_LENGTH core m) ≠ 0 then
      some (s.fld (F.TC_SLOT_CTX core m), s.fld (F.TC_SLOT_LENGTH core m))
    else none

/-- Slots laid back to back from a start (R79). -/
def layOut (start : Nat) : List (Nat × Nat) → List Slot
  | [] => []
  | (c, n) :: l => ⟨c, start, n⟩ :: layOut (start + n) l

/-- The end of a table: the sum of its lengths. -/
def tableEnd (l : List (Nat × Nat)) : Nat := l.foldl (fun a e => a + e.2) 0

/-- The worst case of a context as it stands after the next boundary: the staged one when a swap is requested (R81, R90), also
where that swap will be refused (DESIGN CHOICE, log entry 108). -/
def State.wcetAfter (s : State) (core c : Nat) : Nat :=
  if s.flag (F.TC_CTX_CTRL_SWAP core c) then s.fld (F.TC_CTX_ENTRY_WCET core c) else (s.ctx core c).wcet

/-- Whether no context appears twice. -/
def noRepeat : List Nat → Bool
  | [] => true
  | c :: l => !l.contains c && noRepeat l

/-- The checks of R81 in order: RESULT, 0 when the table is accepted. -/
def State.tableCheck (s : State) (core : Nat) (l : List (Nat × Nat)) : Nat :=
  if s.cycles < tableEnd l then 2
  else if !noRepeat (l.map fun e => e.1) then 4
  else if l.any fun e => decide (e.2 < s.wcetAfter core e.1) then 3
  else if l = [] then 1
  else 0

/-- A context's state when a table comes into force (R87): IDLE goes to WAITING when the table holds it; one that it
omits goes to IDLE, but a HALTED one keeps its state. -/
def State.tableCtx (s : State) (core : Nat) (l : List (Nat × Nat)) (c : Nat) : State :=
  let st := s.ctxState core c
  if l.any fun e => e.1 == c then (if st = ctxIdle then s.setCtxState core c ctxWaiting else s)
  else if st = ctxHalted then s
  else s.setCtxState core c ctxIdle

/-- A requested table commit at the boundary (R81). -/
def State.commitTable (s : State) (core : Nat) : State :=
  if s.flag (F.TC_TABLE_CTRL_COMMIT core) then
    let l := s.stagedSlots core
    let r := s.tableCheck core l
    let s1 := (s.setFld (F.TC_TABLE_CTRL_COMMIT core) 0).setFld (F.TC_TABLE_CTRL_RESULT core) r
    if r ≤ 1 then
      let s2 := (s1.setCore core { s1.core core with table := layOut 0 l }).setFld (F.TC_TABLE_CTRL_END core) (tableEnd l)
      (List.range 16).foldl (fun s c => s.tableCtx core l c) s2
    else s1
  else s

/-- The proven worst case of a core's table for condition 4 of R34: the end of the table in force, or of a committed
one that waits (R82). -/
def State.tableWorst (s : State) (core : Nat) : Nat :=
  max (s.fld (F.TC_TABLE_CTRL_END core))
    (if s.flag (F.TC_TABLE_CTRL_COMMIT core) then tableEnd (s.stagedSlots core) else 0)

/-! ## Swap, restart and halt at a boundary (R89, R90) -/

/-- The outcome of a requested swap: 0 OK, 1 BUDGET, 2 PARTITION (R89). -/
def State.swapCheck (s : State) (core c : Nat) : Nat :=
  let iF := s.fld (F.TC_CTX_PART_I_FIRST core c)
  let iL := s.fld (F.TC_CTX_PART_I_LAST core c)
  let g := s.fld (F.TC_CTX_ENTRY_ENTRY core c) / 256
  if iL < iF ∨ s.fld (F.TC_CTX_PART_D_LAST core c) < s.fld (F.TC_CTX_PART_D_FIRST core c) ∨ g < iF ∨ iL < g then 2
  else if (s.core core).table.any fun sl => sl.ctx == c && decide (sl.len < s.fld (F.TC_CTX_ENTRY_WCET core c)) then 1
  else 0

/-- A swap's staged values moved into force, and the context WAITING (R89): due from this boundary on, also where it waited
under a WAITSTITCH that asked for a later Stitch (DESIGN CHOICE, log entry 109). -/
def State.swapIn (s : State) (core c : Nat) : State :=
  let x := s.ctx core c
  let s1 := s.setCtx core c { x with
    entry := BitVec.ofNat 16 (s.fld (F.TC_CTX_ENTRY_ENTRY core c) / 4 * 4)
    wcet := s.fld (F.TC_CTX_ENTRY_WCET core c)
    iFirst := s.fld (F.TC_CTX_PART_I_FIRST core c)
    iLast := s.fld (F.TC_CTX_PART_I_LAST core c)
    dFirst := s.fld (F.TC_CTX_PART_D_FIRST core c)
    dLast := s.fld (F.TC_CTX_PART_D_LAST core c)
    due := s.stitch
    policyDue := 0 }
  let s2 := s1.setCtxState core c ctxWaiting
  if s2.flag (F.TC_CTX_CTRL_KEEP core c) then s2 else s2.restartCtx core c

/-- A swap asked for is checked and carried out, with its event (R90). -/
def State.swapBoundary (s : State) (core c r : Nat) : State :=
  if s.flag (F.TC_CTX_CTRL_SWAP core c) then
    let s0 := (s.setFld (F.TC_CTX_CTRL_SWAP core c) 0).setFld (F.TC_CTX_CTRL_SWAP_RESULT core c) r
    (if r = 0 then s0.swapIn core c else s0).superEvent core 0x04 r c
  else s

/-- A context restarts at this boundary, as the RESTART bit or its policy asks (R90): due from this boundary on, also where it
waited for a later Stitch (DESIGN CHOICE, log entry 109). A swap with KEEP = 0 committed at the same boundary has told of
the restart already, and RESTARTED is not raised beside it (DESIGN CHOICE, log entry 110). -/
def State.restartAsked (s : State) (core c : Nat) (told : Bool) : State :=
  let x := s.ctx core c
  let s0 := (s.setFld (F.TC_CTX_CTRL_RESTART core c) 0).setCtx core c { x with policyDue := 0, due := s.stitch }
  let s1 := s0.restartCtx core c
  let s2 := if s1.ctxState core c = ctxIdle then s1 else s1.setCtxState core c ctxWaiting
  if told ∧ !s2.flag (F.TC_CTX_CTRL_KEEP core c) then s2 else s2.superEvent core 0x05 0 c

/-- A halt asked for stops a context that waits or runs. -/
def State.haltBoundary (s : State) (core c : Nat) : State :=
  if s.flag (F.TC_CTX_CTRL_HALT core c) then
    let s3 := s.setFld (F.TC_CTX_CTRL_HALT core c) 0
    if s3.ctxState core c = ctxWaiting ∨ s3.ctxState core c = ctxRunning then s3.haltCtx core c else s3
  else s

/-- What a context's requests do at the boundary, after the table commit: the swap, then the restart, then the halt
(R90). -/
def State.ctxBoundary (s : State) (core c : Nat) : State :=
  let r := s.swapCheck core c
  let s1 := s.swapBoundary core c r
  let x := s1.ctx core c
  let s2 :=
    if s1.flag (F.TC_CTX_CTRL_RESTART core c) ∨ x.policyDue = 1 then
      s1.restartAsked core c (s.flag (F.TC_CTX_CTRL_SWAP core c) && r == 0)
    else if x.policyDue = 2 then
      s1.setCtx core c { x with policyDue := 0, stat := x.stat &&& ~~~0x10, calls := [], loops := [] }
    else s1
  s2.haltBoundary core c

/-- One Stitch off a context watchdog, which a STARVE of 0 turns off (R93). -/
def State.watchBoundary (s : State) (core c : Nat) : State :=
  let x := s.ctx core c
  match x.watch with
  | some (n + 1) => s.setCtx core c { x with watch := if s.fld (F.TC_CTX_CTRL_STARVE core c) = 0 then none else some n }
  | _ => s

/-- The cycles of outstanding operations counted from the new boundary. -/
def State.rebaseCore (s : State) (core : Nat) (old : Nat) : State :=
  let k := s.core core
  let s1 := s.setCore core { k with
    cur := none, cyc := 0
    qops := k.qops.map fun q => { q with ready := q.ready - old }
    lds := k.lds.map fun l => { l with ready := l.ready - old }
    sts := k.sts.map fun l => { l with ready := l.ready - old } }
  (List.range 16).foldl (fun s c =>
    let x := s.ctx core c
    if x.bpws = [] then s
    else s.setCtx core c { x with bpws := x.bpws.map fun b => { b with ready := b.ready - old } }) s1

/-- What the boundary does to a core: the guard ends the slot that still runs, then the requests of R90, the watchdogs
and the new cycle count. `old` is the length in cycles of the Stitch that ended. -/
def State.coreBoundary (s : State) (core old : Nat) : State :=
  let s1 := s.commitTable core
  let s2 := (List.range 16).foldl (fun s c => (s.ctxBoundary core c).watchBoundary core c) s1
  s2.rebaseCore core old

/-! ## Program loading (R85) -/

/-- Whether granules overlap a context's partition. -/
def overlaps (lo hi first last : Nat) : Bool := decide (lo ≤ last) && decide (first ≤ hi)

/-- Whether a load's destination overlaps a partition in force or pending of a context that is not HALTED or IDLE. -/
def State.loadInUse (s : State) (core : Nat) (toData : Bool) (dst len : Nat) : Bool :=
  let lo := dst * 8 / 256
  let hi := (dst * 8 + len * 8 - 1) / 256
  (List.range 16).any fun c =>
    let st := s.ctxState core c
    let x := s.ctx core c
    (st == ctxWaiting || st == ctxRunning) &&
      ((if toData then overlaps lo hi x.dFirst x.dLast else overlaps lo hi x.iFirst x.iLast)
        || (s.flag (F.TC_CTX_CTRL_SWAP core c)
          && (if toData then overlaps lo hi (s.fld (F.TC_CTX_PART_D_FIRST core c)) (s.fld (F.TC_CTX_PART_D_LAST core c))
            else overlaps lo hi (s.fld (F.TC_CTX_PART_I_FIRST core c)) (s.fld (F.TC_CTX_PART_I_LAST core c)))))

/-- The words of a load up to the first 64-bit word of which a half is poisoned (R85, R261, R277). -/
def cleanPairs : List PWord → List PWord
  | a :: b :: ws => if a.poison || b.poison then [] else a :: b :: cleanPairs ws
  | _ => []

/-- The load that the staged command asks for: its result and the words it writes (R85). The words are read from the
Saddlebag through their checks. -/
def State.loadJob (s : State) (core : Nat) : State × LoadJob :=
  let toData := s.flag (F.TC_LOAD_CMD_MEM core)
  let len := s.fld (F.TC_LOAD_CMD_LEN core)
  let dst := s.fld (F.TC_LOAD_CMD_DST core)
  let ofs := (s.reg (R.TC_LOAD_OFS core)).toNat
  let fail (r : Nat) : State × LoadJob := (s, ⟨r, toData, dst * 2, []⟩)
  if len = 0 then fail 1
  else if ofs % 8 ≠ 0 then fail 2
  else match s.namedBuffer (s.reg (R.TC_LOAD_SRC core)) with
    | none => fail 6
    | some key =>
      if (s.stream key).size < ofs + len * 8 ∨ 65536 < dst * 8 + len * 8 then fail 3
      else if s.loadInUse core toData dst len then fail 4
      else
        let r := s.readBufs key (ofs / 4) (2 * len)
        (r.1, ⟨if r.2.any fun w => w.poison then 5 else 0, toData, dst * 2, cleanPairs r.2⟩)

/-- Words written to a local memory from a word address up. -/
def storeWords (m : Sparse PWord) (a : Nat) : List PWord → Sparse PWord
  | [] => m
  | w :: ws => storeWords (sset (PWord.clean 0) m a w) (a + 1) ws

/-- The writable fields of TC_LOAD_CMD taken, START set and the load started (R85). -/
def State.startLoad (s : State) (core : Nat) (val : Word) : State :=
  let s1 := s.setReg (R.TC_LOAD_CMD core) ((s.reg (R.TC_LOAD_CMD core) &&& 0x38000000) ||| (val &&& 0x47FFFFFF) ||| 0x80000000)
  let r := s1.loadJob core
  r.1.setCore core { r.1.core core with load := some r.2 }

/-- A write of TC_LOAD_CMD. While a load runs its fields keep their values, and BUSY_WRITE is raised where a written one differs
(R85, R37). -/
def State.writeLoadCmd (s : State) (src : Source) (core : Nat) (val : Word) : State :=
  let a := R.TC_LOAD_CMD core
  if s.flag (F.TC_LOAD_CMD_START core) then (if val &&& 0x47FFFFFF = s.reg a &&& 0x47FFFFFF then s else s.busyWrite src a)
  else if val.msb then s.startLoad core val
  else s.setReg a ((s.reg a &&& 0x38000000) ||| (val &&& 0x47FFFFFF))

/-! ## The device watchdog (R94) -/

/-- A write of SYS_WDOG_CTRL (R94): armed, the watchdog discards every write whatever it carries (R37). -/
def State.writeWdogCtrl (s : State) (src : Source) (val : Word) : State :=
  let w := s.reg R.SYS_WDOG_CTRL
  if getBits w 31 31 = 1 then s.busyWrite src R.SYS_WDOG_CTRL
  else
    let s1 := s.setReg R.SYS_WDOG_CTRL (putBits (w &&& ~~~(val &&& 0x60000000)) 23 0 (getBits val 23 0))
    if getBits val 31 31 = 0 then s1
    else if getBits val 23 0 = 0 then s1.setFld F.SYS_WDOG_CTRL_ZERO_LEN 1
    else { (s1.setFld F.SYS_WDOG_CTRL_ENABLE 1) with wdog := ⟨0, false, false⟩ }

/-- A write of SYS_WDOG_KICK (R94). -/
def State.writeKick (s : State) (val : Word) : State :=
  let key := getBits val 15 0
  if key = 0x5A5A then { s with wdog := { s.wdog with armed := true } }
  else if key = 0xA5A5 ∧ s.wdog.armed then { s with wdog := ⟨0, false, false⟩ }
  else { s with wdog := { s.wdog with armed := false } }

/-- One Stitch of the device watchdog. -/
def State.wdogBoundary (s : State) : State :=
  if s.flag F.SYS_WDOG_CTRL_ENABLE then { s with wdog := { s.wdog with count := s.wdog.count + 1 } } else s

/-! ## The commands -/

/-- Whether a core runs: boot has released it (R390) and no block restart holds it (R387). -/
def State.coresRun (s : State) (core : Nat) : Bool :=
  s.part.hasCore core && s.flag F.PWR_STATE_BOOT_DONE && !s.power.restarts.contains (1, core)

/-- TABLE_COMMIT (R81): a write of TC_TABLE_CTRL.COMMIT; the staged table is checked at the next boundary. -/
def execTableCommit (core : Nat) (s : State) : Host.Outcome State Fault Refusal :=
  .next (s.setFld (F.TC_TABLE_CTRL_COMMIT core) 1)

/-- LOAD (R85): a write of TC_LOAD_CMD with START. While a load runs the register keeps its fields (R37). -/
def execLoad (src : Source) (core : Nat) (val : Word) (s : State) : Host.Outcome State Fault Refusal :=
  .next (s.gate src (R.TC_LOAD_CMD core) (val ||| 0x80000000) fun s =>
    s.writeLoadCmd src core (val ||| 0x80000000))

/-- LOAD_DONE (R85): the load ends: its words are in local memory, its result is reported. -/
def execLoadDone (core : Nat) (s : State) : Host.Outcome State Fault Refusal :=
  let k := s.core core
  .next (
    match k.load with
    | none => s
    | some j =>
      let k1 := if j.toData then { k with dmem := storeWords k.dmem j.dst j.words, load := none }
        else { k with imem := storeWords k.imem j.dst j.words, load := none }
      let s1 := ((s.setCore core k1).setFld (F.TC_LOAD_CMD_START core) 0).setFld (F.TC_LOAD_CMD_RESULT core) j.result
      s1.superEvent core 0x06 j.result 0)

/-- A write of TC_CTX_CTRL: KEEP, OVR_POLICY and STARVE take the written value; SWAP, RESTART and HALT written as 1 are
requested for the next boundary (R89, R45, R87). -/
def State.writeCtxCtrl (s : State) (core ctx : Nat) (val : Word) : State :=
  let a := R.TC_CTX_CTRL core ctx
  s.setReg a ((s.reg a &&& 0xE3000000) ||| (val &&& 0xFC00FFFF))

/-- SWAP (R89): a write of TC_CTX_CTRL with SWAP. -/
def execSwap (src : Source) (core ctx : Nat) (val : Word) (s : State) : Host.Outcome State Fault Refusal :=
  .next (s.gate src (R.TC_CTX_CTRL core ctx) (val ||| 0x80000000) fun s => s.writeCtxCtrl core ctx (val ||| 0x80000000))

/-- RESTART (R45, R90): a write of TC_CTX_CTRL with RESTART. -/
def execRestart (src : Source) (core ctx : Nat) (val : Word) (s : State) : Host.Outcome State Fault Refusal :=
  .next (s.gate src (R.TC_CTX_CTRL core ctx) (val ||| 0x40000000) fun s => s.writeCtxCtrl core ctx (val ||| 0x40000000))

/-- HALT (R87, R90): a write of TC_CTX_CTRL with HALT. -/
def execHalt (src : Source) (core ctx : Nat) (val : Word) (s : State) : Host.Outcome State Fault Refusal :=
  .next (s.gate src (R.TC_CTX_CTRL core ctx) (val ||| 0x20000000) fun s => s.writeCtxCtrl core ctx (val ||| 0x20000000))

/-- STARVED (R93): a context watchdog has counted down to zero; it raises STARVED once and stops counting. -/
def execStarved (core ctx : Nat) (s : State) : Host.Outcome State Fault Refusal :=
  let x := s.ctx core ctx
  .next (
    if x.watch = some 0 then
      ((s.setCtx core ctx { x with watch := none }).setFld (F.TC_CTX_STATE_STARVED core ctx) 1).superEvent core 0x03 0 ctx
    else s)

/-- WDOG_ENABLE (R94): a write of 1 to SYS_WDOG_CTRL.ENABLE. -/
def execWdogEnable (src : Source) (val : Word) (s : State) : Host.Outcome State Fault Refusal :=
  .next (s.gate src R.SYS_WDOG_CTRL (val ||| 0x80000000) fun s => s.writeWdogCtrl src (val ||| 0x80000000))

/-- KICK (R94): a write to SYS_WDOG_KICK. -/
def execKick (val : Word) (s : State) : Host.Outcome State Fault Refusal := .next (s.writeKick val)

/-- WDOG_WARN (R94, R22): LIMIT Stitches have passed without a kick. -/
def execWdogWarn (s : State) : Host.Outcome State Fault Refusal :=
  .next (
    if s.flag F.SYS_WDOG_CTRL_ENABLE ∧ s.fld F.SYS_WDOG_CTRL_LIMIT ≤ s.wdog.count ∧ !s.wdog.warned then
      ({ (s.setFld F.SYS_WDOG_CTRL_WARNED 1) with wdog := { s.wdog with warned := true } }).accessEvent 4 .device .b0 0
    else s)

end Sys2Proof.Machine
end

