-- ==== Sys2Proof/Machine/Awl.lean ====
section
/-! DEFINITION. The Awl of a slot (R161 to R187): stroke supply, states, the setpoint block, stops, GOTO and the correction
grid, over the planning of AwlPlan.lean. -/

namespace Sys2Proof.Machine

/-- An Awl's state. -/
def State.awl (s : State) (k : Nat) : Awl := sget Awl.atReset s.awls k

/-- The state with an Awl's replaced. -/
def State.setAwl (s : State) (k : Nat) (a : Awl) : State := { s with awls := sset Awl.atReset s.awls k a }

/-- A Rein's state. -/
def State.rein (s : State) (k : Nat) : Rein := sget Rein.atReset s.reins k

/-- The state with a Rein's replaced. -/
def State.setRein (s : State) (k : Nat) (r : Rein) : State := { s with reins := sset Rein.atReset s.reins k r }

/-- IDLE (R164). -/
def awlIdle : Nat := 0
/-- RUN. -/
def awlRun : Nat := 1
/-- WAIT. -/
def awlWait : Nat := 2
/-- GOTO. -/
def awlGoto : Nat := 3
/-- STOPPING. -/
def awlStopping : Nat := 4
/-- FAULT. -/
def awlFault : Nat := 5

/-- AWL_STATUS.STATE. -/
def State.awlState (s : State) (k : Nat) : Nat := s.fld (F.AWL_STATUS_STATE k)

/-- The state with AWL_STATUS.STATE set. -/
def State.setAwlState (s : State) (k v : Nat) : State := s.setFld (F.AWL_STATUS_STATE k) v

/-- Requester of a slot's Awl and Rein (R269). -/
def slotReq (k : Nat) : Nat := k / 4 * 8 + 2 * (k % 4)

/-- An event of a slot's Awl or Rein into TCk's supervision queue (R187, R214). -/
def State.slotEvent (s : State) (k code low : Nat) : State :=
  s.pushEvent (slotReq k) (s.reg (R.TC_SUPQ k)) [w32 (code * 2 ^ 24 + k * 2 ^ 16 + low), s.stitchLo]

/-! ## Parameters and sets -/

/-- A slot's parameters in force (R163, R172, R176). -/
def State.awlParams (s : State) (k : Nat) : AwlParams :=
  { acc := (s.reg (R.AWL_ACC k)).toNat
    jerk := (s.reg (R.AWL_JERK k)).toNat
    lag := s.fld (F.AWL_LAG_VALUE k)
    dlyOn := (s.fld (F.AWL_GATE_DLY_ON k) : Int) + signed 16 (s.fld (F.AWL_GATE_TRIM_TRIM_ON k))
    dlyOff := (s.fld (F.AWL_GATE_DLY_OFF k) : Int) + signed 16 (s.fld (F.AWL_GATE_TRIM_TRIM_OFF k))
    corner := s.fld (F.AWL_CORNER_MAX_ANGLE k)
    xmin := signed 24 (s.fld (F.AWL_LIMIT_XMIN_VALUE k))
    ymin := signed 24 (s.fld (F.AWL_LIMIT_YMIN_VALUE k))
    xmax := signed 24 (s.fld (F.AWL_LIMIT_XMAX_VALUE k))
    ymax := signed 24 (s.fld (F.AWL_LIMIT_YMAX_VALUE k))
    ox := (s.reg (R.AWL_ORIGIN_X k)).toInt
    oy := (s.reg (R.AWL_ORIGIN_Y k)).toInt
    swap := s.flag (F.AWL_CTRL_SWAP k)
    negx := s.flag (F.AWL_CTRL_NEGX k)
    negy := s.flag (F.AWL_CTRL_NEGY k) }

/-- The words of a parameter set in the slot's resident stream (R110, R162). -/
def State.psetWords (s : State) (k i : Nat) : List PWord :=
  match s.namedBuffer (sget 0 s.tree.psetBufs k) with
  | none => []
  | some key => s.bufWords key (16 * i) 16

/-- A parameter set of a slot's resident stream. -/
def State.pset (s : State) (k i : Nat) : Pset := psetOf ((s.psetWords k i).map fun w => w.val)

/-- Parameter sets in the slot's resident copy. -/
def State.psetCount (s : State) (k : Nat) : Nat := sget 0 s.tree.psetCounts k

/-- A plan context at the present boundary. -/
def State.planCtx (s : State) (k : Nat) : Plan :=
  ⟨s.awlParams k, s.period, s.tclk, s.now, false, s.awl k, 0, 0, 0⟩

/-! ## The correction grid and Z (R173 to R175) -/

/-- The grid stream in force; 0 for none. -/
def State.corrHandle (s : State) (k : Nat) : Word :=
  if (s.awl k).corrSel then s.reg (R.AWL_CORR_B k) else s.reg (R.AWL_CORR_A k)

/-- A bilinear value over a table of `n` × `n` nodes with a step of 2^sh, `g i j` the node of column `i` and row `j`, in units
of `unit` bu. -/
def bilinear (fx fy : Int) (sh half : Nat) (unit : Int) (g : Nat → Nat → Int) : Int :=
  let last := 2 * half - 1
  let top : Int := (2 * half * 2 ^ sh : Nat)
  let place := fun f : Int =>
    let u := clampInt 0 top (f + (half * 2 ^ sh : Nat))
    let i := min (u.toNat / 2 ^ sh) last
    (i, u - (i * 2 ^ sh : Nat))
  let (i, rx) := place fx
  let (j, ry) := place fy
  let q : Int := (2 ^ sh : Nat)
  let c := g i j * (q - rx) * (q - ry) + g (i + 1) j * rx * (q - ry) + g i (j + 1) * (q - rx) * ry
    + g (i + 1) (j + 1) * rx * ry
  roundShift (unit * c) (2 * sh)

/-- A word of the grid stream. -/
def State.corrWord (s : State) (k i : Nat) : PWord :=
  match s.namedBuffer (s.corrHandle k) with
  | none => PWord.clean 0
  | some key => s.bufWord key i

/-- Whether the correction grid acts (R173, R175): enabled, and the stream selected is not 0. -/
def State.corrOn (s : State) (k : Nat) : Bool := (s.awl k).corrEn && s.corrHandle k != 0

/-- Whether the focus map acts. -/
def State.focusOn (s : State) (k : Nat) : Bool := (s.awl k).focusEn && s.corrHandle k != 0

/-- DX (part 0) or DY (part 1) of node (i, j). -/
def State.corrNode (s : State) (k part i j : Nat) : Int :=
  let w := (s.corrWord k (65 * j + i)).val
  signed 16 (if part = 0 then getBits w 15 0 else getBits w 31 16)

/-- Focus node (i, j). -/
def State.focusNode (s : State) (k i j : Nat) : Int :=
  let n := 33 * j + i
  let w := (s.corrWord k (4225 + n / 2)).val
  signed 16 (if n % 2 = 0 then getBits w 15 0 else getBits w 31 16)

/-- What is wrong with the grid stream in use: 0, STREAM when it is not a live buffer of 4,770 words, POISON when a word is
poisoned (R175). -/
def State.corrFault (s : State) (k : Nat) : Nat :=
  if !s.corrOn k ∧ !s.focusOn k then 0
  else match s.namedBuffer (s.corrHandle k) with
    | none => 5
    | some key =>
      if (s.stream key).size < 4 * 4770 then 5
      else if (s.stream key).data.any (fun e => decide (e.1 < 4770) && (e.2.poison || e.2.err == .double)) then 2
      else 0

/-! ## The block (R174, R180 to R182) -/

/-- A gate edge of the Stitch that begins at a TCLK, as its offset: 1 to n - 1. -/
def edgeOffset (t1 n : Nat) (e : Int) : Option Nat :=
  if (t1 : Int) < e ∧ e < (t1 + n : Nat) then some (e - t1).toNat else none

/-- Numbers put in rising order into a list that is. -/
def insertSorted (x : Nat) : List Nat → List Nat
  | [] => [x]
  | y :: ys => if x ≤ y then x :: y :: ys else y :: insertSorted x ys

/-- The block that the Awl forms in the present Stitch, for the next boundary. It is formed again after each command of the
Stitch that changes it, and once more takes the Rein's command. -/
def State.formBlock (s : State) (k : Nat) : State :=
  let a := s.awl k
  let n := s.period
  let t1 := s.tclk + n
  let run := decide (s.awlState k = awlRun)
  let m := runningMotion t1 a.motions
  let (bx, by') := match m with
    | some m => m.point (t1 - m.t0)
    | none => (a.restX, a.restY)
  let speed : Int := match m with
    | some m => (m.at (t1 - m.t0)).v
    | none => 0
  let h := ((a.held.filter fun h => !h.zero && decide (h.t0 ≤ t1)).getLast?)
  let lighting : Bool := match m with
    | some m => (m.kind == .runIn || m.kind == .cross || m.kind == .runOut) && decide (t1 < m.stop)
    | none => false
  let nom := match h with
    | some h => h.nom
    | none => a.nom
  let pset := match h with
    | some h => h.pset
    | none => a.pset
  let focus := match h with
    | some h => if lighting then h.focus else a.focus
    | none => a.focus
  let (fx, fy) := (s.awlParams k).field bx by'
  let bad := s.corrFault k
  let on := s.corrOn k && bad == 0
  let cx := if on then fx + bilinear fx fy a.shift 32 4 (s.corrNode k 0) else fx
  let cy := if on then fy + bilinear fx fy a.shift 32 4 (s.corrNode k 1) else fy
  let lo : Int := -(2 ^ 23)
  let hi : Int := 2 ^ 23 - 1
  let out := !fieldRange cx || !fieldRange cy
  let z := focus + (if s.focusOn k && bad == 0 then bilinear fx fy (a.shift + 1) 16 16 (s.focusNode k) else 0)
    + signed 24 (s.fld (F.AWL_Z_OFS_VALUE k))
  let clipped := decide (z < lo) || decide (hi < z)
  let handed := decide (s.fld (F.REIN_STATUS_LOOP k) = 5)
  let lit := run && !handed
  let gate0 := lit && a.lits.any fun l => decide (l.on ≤ t1) && decide ((t1 : Int) < l.off)
  let edges := if lit then (a.lits.flatMap fun l =>
      if l.off ≤ l.on then [] else (edgeOffset t1 n l.on).toList ++ (edgeOffset t1 n l.off).toList).foldl
    (fun l e => insertSorted e l) [] else []
  let power := if handed then 0 else (s.rein k).cmd
  let b : Block := ⟨clampInt lo hi cx, clampInt lo hi cy, clampInt lo hi z, power, gate0, speed == 0, edges[0]?, edges[1]?, bx, by'⟩
  let due := (if bad ≠ 0 ∧ s.awlState k < awlStopping then [bad] else []) ++ (if out then [4] else [])
  let newDue := due.filter fun c => !a.due.contains c && !a.codes.contains c
  let s1 := s.setAwl k { a with formed := b, zNow := clipped, nom := nom, pset := pset, focus := focus, due := a.due ++ newDue }
  let s2 := (s1.setReg (R.AWL_POS_X k) (BitVec.ofInt 32 bx)).setReg (R.AWL_POS_Y k) (BitVec.ofInt 32 by')
  if clipped ∧ !a.zWas ∧ !a.zNow then s2.slotEvent k 0x24 0 else s2

/-! ## Stroke supply (R161 to R163) -/

/-- Strokes in the planning window: popped, and not yet in motion. -/
def State.awlWindow (s : State) (k : Nat) : Nat := ((s.awl k).held.filter fun h => decide (s.tclk < h.t0)).length

/-- AWL_STATUS.WINDOW brought up to date. -/
def State.showWindow (s : State) (k : Nat) : State := s.setFld (F.AWL_STATUS_WINDOW k) (min 4 (s.awlWindow k))

/-- Whether a packet has a length or a reserved field that R161 refuses. -/
def badPacket (ws : List PWord) : Bool :=
  let w := fun i => (ws.getD i (PWord.clean 0)).val
  ws.length != 8 || getBits (w 3) 21 18 != 0 || getBits (w 4) 31 26 != 0 || getBits (w 5) 28 24 != 0 || w 6 != 0 || w 7 != 0

/-- A fault condition found, to be sampled (R183). -/
def State.awlDue (s : State) (k code : Nat) : State :=
  let a := s.awl k
  if a.due.contains code then s else s.setAwl k { a with due := a.due ++ [code] }

/-- What an Awl keeps of a stroke from words 4 and 5 of its packet, before it is planned (R161). -/
def heldOf (w4 w5 : Word) (trace : Bool) : HeldStroke :=
  { index := getBits w4 25 0, last := getBits w5 31 31 == 1, rerun := getBits w5 30 30 == 1
    split := getBits w5 29 29 == 1, piece := getBits w5 23 20, patch := getBits w5 19 0, trace := trace
    zero := false, t0 := 0, startStitch := 0, endStitch := 0, first := false, nom := 0, pset := 0, focus := 0 }

/-- The direction that the validation found for a stroke of the running layer to inherit (R103); (0, 0) where it found none. -/
def State.inherited (s : State) (h : HeldStroke) : Int × Int :=
  match s.tree.layer with
  | none => (0, 0)
  | some l => match l.units.find? fun u => u.patch == h.patch && u.piece == h.piece with
    | none => (0, 0)
    | some u => match u.parts.find? fun q => q.index == h.index with
      | none => (0, 0)
      | some q => q.dir

/-- A popped packet planned. -/
def State.takePacket (s : State) (k : Nat) (ws : List PWord) : State :=
  let w := fun i => (ws.getD i (PWord.clean 0)).val
  if badPacket ws then s.awlDue k 1
  else if ws.any fun p => p.poison then s.awlDue k 2
  else
    let h := heldOf (w 4) (w 5) (getBits (w 3) 17 17 == 1)
    let st := { strokeOf (w 0) (w 1) (w 2) (w 3) with dir := s.inherited h }
    if s.psetCount k ≤ st.pset then s.awlDue k 1
    else if ((s.psetWords k st.pset).take 7).any fun p => p.poison then s.awlDue k 2
    else
      let pl := (s.planCtx k).stroke st (s.pset k st.pset) h
      if pl.fault ≠ 0 then s.awlDue k pl.fault
      else
        let s1 := (s.setAwl k pl.a).bumpBy (F.AWL_DEFER_CNT_COUNT k) pl.defers
        let s2 := s1.bumpBy (F.AWL_ARC_SLOW_CNT_COUNT k) pl.slows
        s2.setAwlState k awlRun

/-- STROKE_POP (R162): the next packet of the stroke queue is popped when the window has room, and planned. -/
def execStrokePop (slot : Nat) (s : State) : Host.Outcome State Fault Refusal :=
  let q := s.reg (R.AWL_STROKEQ slot)
  let st := s.awlState slot
  .next (
    if q = 0 ∨ awlWait < st ∨ (s.awl slot).due ≠ [] ∨ 4 ≤ s.awlWindow slot then s
    else if (s.namedQueue q).isNone then s.awlDue slot 5
    else if !s.packetWaits q then s
    else
      let (s1, ws) := s.popPacket (slotReq slot) q
      ((s1.takePacket slot ws).showWindow slot).formBlock slot)

/-- AWL_UNDERRUN (R163), once for a rest: at rest inside a unit with nothing planned, the Awl waits. LAST ended and at rest, it
is IDLE (R164). -/
def State.awlSettle (s : State) (k : Nat) : State :=
  let a := s.awl k
  if s.awlState k = awlRun ∧ a.planT ≤ s.tclk ∧ a.pend.isNone then
    let s1 := s.setAwl k { a with starved := a.inUnit }
    if !a.inUnit then s1.setAwlState k awlIdle
    else if a.starved then s1.setAwlState k awlWait
    else (s1.setAwlState k awlWait).slotEvent k 0x21 0
  else s

/-- A stroke of the placement log's record that its end makes (R140). -/
structure StrokeDone where
  /-- The stroke. -/
  held : HeldStroke
  /-- End Stitch. -/
  stitch : Nat
  /-- Flags of word 3 beside SPLIT, RERUN and ZERO: INTERRUPTED, ABORTED. -/
  flags : Nat

/-- The words of a stroke record (R140). -/
def strokeRecord (k : Nat) (d : StrokeDone) : List Word :=
  let h := d.held
  [w32 (k * 2 ^ 26 + h.index), w32 h.startStitch, w32 d.stitch,
    w32 (d.flags + bitNat h.zero * 2 ^ 30 + bitNat h.split * 2 ^ 29 + bitNat h.rerun * 2 ^ 28 + h.piece * 2 ^ 20 + h.patch)]

/-- A stroke record put at its place in the hold buffer, whose newest record comes first here: after every record but the
stroke records of the same end Stitch and a higher slot (R140). -/
def logInsert (r : LogRec) (k : Nat) : List LogRec → List LogRec
  | [] => [r]
  | q :: qs =>
    if q.stroke ∧ q.stitch = r.stitch ∧ k < getBits (q.words.headD 0) 30 26 then logInsert r k qs ++ [q]
    else (q :: qs).reverse ++ [r]

/-- TAG of a patch of the running layer; 0 for none. -/
def State.tagOf (s : State) (patch : Nat) : Word :=
  match s.tree.layer with
  | none => 0
  | some l => ((l.units.find? fun u => u.patch == patch).map fun u => u.tag).getD 0

/-- A record put into the hold buffer (R141). It keeps the patch's TAG, as R100 says, though the packet that R140 lays out has no
field for it (DEDUCED, log entry 116). -/
def State.logStroke (s : State) (k : Nat) (d : StrokeDone) : State :=
  if s.reg R.TREE_LOG_Q = 0 then s
  else { s with tree := { s.tree with
    log := logInsert ⟨strokeRecord k d, d.stitch, true, s.tagOf d.held.patch⟩ k s.tree.log.reverse } }

/-- The started unit a stroke belongs to, changed. -/
def changeUnit (patch piece : Nat) (f : PlaceUnit → PlaceUnit) : List PlaceUnit → List PlaceUnit
  | [] => []
  | u :: us => if u.patch = patch ∧ u.piece = piece then f u :: us else u :: changeUnit patch piece f us

/-- The running layer's units changed. -/
def State.mapUnits (s : State) (f : List PlaceUnit → List PlaceUnit) : State :=
  match s.tree.layer with
  | none => s
  | some l => { s with tree := { s.tree with layer := some { l with units := f l.units } } }

/-- A stroke's end told to the Tree: its unit's count, its end Stitch, and the layer's count of skipped strokes. -/
def State.countEnd (s : State) (h : HeldStroke) (stitch : Nat) : State :=
  let s1 := s.mapUnits fun us => changeUnit h.patch h.piece
    (fun u => { u with ended := u.ended + 1, lastEnd := if h.last then some stitch else u.lastEnd }) us
  if h.zero then { s1 with tree := { s1.tree with zeros := s1.tree.zeros + 1 } } else s1

/-- STROKE_END (R132): the oldest stroke held has reached its end point, or passed it under LINK, in this Stitch or before.
Its record goes to the hold buffer. -/
def execStrokeEnd (slot : Nat) (s : State) : Host.Outcome State Fault Refusal :=
  .next (
    match (s.awl slot).held with
    | [] => s
    | h :: hs =>
      if h.endStitch ≤ s.now ∧ (s.awlState slot = awlRun ∨ s.awlState slot = awlIdle ∨ s.awlState slot = awlWait) then
        let s0 := if h.trace ∧ !h.zero ∧ s.tclk < h.t0 then
            s.setRein slot { s.rein slot with begun := true } else s
        let a := s.awl slot
        let s1 := s0.setAwl slot (if h.zero then { a with held := hs }
          else { a with held := hs, nom := h.nom, pset := h.pset, focus := h.focus })
        ((s1.countEnd h h.endStitch).logStroke slot ⟨h, h.endStitch, 0⟩).showWindow slot
      else s)

/-! ## Stops (R183, R184) -/

/-- A source of R212 noted for this boundary's record. -/
def State.noteTrigger (s : State) (k src : Nat) : State :=
  s.setRein k { s.rein k with trig := src :: (s.rein k).trig }

/-- The state with REIN_STATUS.LEVEL set; a change is trigger source 5 (R212). -/
def State.setLevel (s : State) (k v : Nat) : State :=
  if s.fld (F.REIN_STATUS_LEVEL k) = v then s else (s.setFld (F.REIN_STATUS_LEVEL k) v).noteTrigger k 5

/-- The Rein loop goes OFF as its Awl leaves RUN (R205). At a boundary whose evaluation is still to come the Rein evaluates the
ended Stitch first, so that FOLLOWING can be raised beside an ABORT (R207), and goes OFF with it. -/
def State.reinOff (s : State) (k : Nat) : State :=
  if (s.rein k).seenT = s.tclk then (s.setFld (F.REIN_STATUS_LOOP k) 0).setLevel k 0 else s

/-- The Awl gates off and decelerates along its planned path; the Rein loop goes OFF, and unless it is an ABORT the Tree may
sample the loss at the next boundary. -/
def State.stopAwl (s : State) (k code : Nat) (loss : Bool) : State :=
  let a0 := ((s.planCtx k).closePend).a
  let m := runningMotion s.tclk a0.motions
  let stop := match m with
    | some m => stopMotion m (a0.motions.filter fun q => decide (m.t0 < q.t0)) s.tclk
    | none => none
  let (rx, ry) := match m with
    | some m => m.point (s.tclk - m.t0)
    | none => (a0.restX, a0.restY)
  let (ex, ey) := match stop with
    | some m => m.point m.dur
    | none => (rx, ry)
  let a1 := { a0 with
    motions := stop.toList, restX := rx, restY := ry, lits := [], pend := none, inUnit := false, starved := false, lastEnd := 0
    planT := match stop with
      | some m => m.stop
      | none => s.tclk
    planX := ex, planY := ey, stopCode := code, codes := if code = 0 then [] else [code]
    due := a0.due.filter fun c => c != code
    lossDue := if loss then some (s.now + 1) else a0.lossDue, stopT := s.tclk }
  let s1 := (s.setAwl k a1).setAwlState k awlStopping
  ((s1.reinOff k).showWindow k).formBlock k

/-- AWL_STATUS.RESULT. -/
def State.awlResult (s : State) (k r : Nat) : State := s.setFld (F.AWL_STATUS_RESULT k) r

/-- The command STOP: refused in FAULT. -/
def State.awlStopCmd (s : State) (k : Nat) : State :=
  if s.awlState k = awlFault then s.awlResult k 1
  else if s.awlState k = awlStopping then s.awlResult k 0
  else (s.stopAwl k 0 true).awlResult k 0

/-- The command CLEAR: accepted only in FAULT. -/
def State.awlClearCmd (s : State) (k : Nat) : State :=
  if s.awlState k = awlFault then
    let a := s.awl k
    ((((s.setAwl k { a with codes := [], stopCode := 0, due := [] }).setAwlState k awlIdle).setFld (F.AWL_STATUS_FAULT k)
      0).awlResult k 0).formBlock k
  else s.awlResult k 1

/-- AWL_STOP (R183): the command STOP. -/
def execAwlStop (slot : Nat) (s : State) : Host.Outcome State Fault Refusal := .next (s.awlStopCmd slot)

/-- AWL_CLEAR (R184): the command CLEAR. -/
def execAwlClear (slot : Nat) (s : State) : Host.Outcome State Fault Refusal := .next (s.awlClearCmd slot)

/-- AWL_FAULT (R183): a condition sampled at a boundary, the lowest code first. The first one of a boundary stops the slot;
further ones of the same stop are kept beside it, and the lowest code stands. Their events come when the spot is at rest in FAULT
(R184). -/
def execAwlFault (slot code : Nat) (s : State) : Host.Outcome State Fault Refusal :=
  let a := s.awl slot
  .next (
    if !a.due.contains code ∨ a.due.any (fun c => decide (c < code)) ∨ s.awlState slot = awlFault then s
    else if s.awlState slot = awlStopping then
      s.setAwl slot { a with
        due := a.due.filter fun c => c != code, codes := insertSorted code a.codes
        stopCode := if a.stopCode = 0 then code else min a.stopCode code }
    else s.stopAwl slot code true)

/-- AWL_REST (R164, R184): a stopping Awl has come to rest; after a fault it raises AWL_FAULT for each condition, in ascending code
order (R183). -/
def execAwlRest (slot : Nat) (s : State) : Host.Outcome State Fault Refusal :=
  let a := s.awl slot
  .next (
    if s.awlState slot = awlStopping ∧ a.planT ≤ s.tclk then
      let s1 := s.setAwl slot { a with motions := [], restX := a.planX, restY := a.planY }
      if a.stopCode = 0 then (s1.setAwlState slot awlIdle).formBlock slot
      else
        let s2 := (s1.setAwlState slot awlFault).setFld (F.AWL_STATUS_FAULT slot) a.stopCode
        (a.codes.foldl (fun (t : State) c => t.slotEvent slot 0x20 c) s2).formBlock slot
    else s)

/-! ## GOTO (R171) -/

/-- A retarget of a GOTO in flight: on along the line when the spot can within the limits in force, else to rest under the limits of
the plan in flight, so that it stops short of the previous target, and from there to the new one (R171). -/
def Plan.retarget (pl : Plan) (m : Motion) (t1 : Nat) (x y : Int) (speed : Nat) : Plan :=
  let p := m.at (t1 - m.t0)
  let (px, py) := m.point (t1 - m.t0)
  let parts := dropPath m.path p.s.toNat
  let onward : Option (List (Nat × Int) × Nat) :=
    match parts with
    | [⟨.line lx ly dx dy, start, _⟩] =>
      let ax := x - lx
      let ay := y - ly
      let d : Int := (pathLen ax ay : Int) - start
      if cross ax ay dx dy = 0 ∧ 0 ≤ dot ax ay dx dy ∧ 0 ≤ d then
        (onwardSegs p d.toNat (speedWord speed) (accWord pl.p.acc) (jerkWord pl.p.jerk)).map fun l => (l, d.toNat)
      else none
    | _ => none
  let now := { pl.a with motions := (pl.a.motions.filter fun q : Motion => decide (q.t0 < m.t0)) ++
    [{ m with segs := m.segs }], restX := pl.a.restX, restY := pl.a.restY }
  match onward, parts with
  | some (l, d), q :: _ =>
    let g : Motion := ⟨.goto, t1, l, p.v, p.a, 0, d, [{ q with len := d }], accWord pl.p.acc, jerkWord pl.p.jerk⟩
    { pl with a := { now with motions := now.motions ++ [g], planT := g.stop, planX := x, planY := y } }
  | _, _ =>
    match stopMotion m [] t1 with
    | none => { pl with a := { now with planT := max t1 now.planT, planX := px, planY := py } }.jumpTo x y speed .goto
    | some g =>
      let (ex, ey) := g.point g.dur
      let a1 := if g.t0 = m.t0 then now else { now with motions := now.motions ++ [g] }
      { pl with a := { a1 with planT := g.stop, planX := ex, planY := ey } }.jumpTo x y speed .goto

/-- The command GOTO (R171): accepted in IDLE and GOTO. -/
def State.awlGotoCmd (s : State) (k : Nat) : State :=
  let st := s.awlState k
  let x := (s.reg (R.AWL_GOTO_X k)).toInt
  let y := (s.reg (R.AWL_GOTO_Y k)).toInt
  let speed := (s.reg (R.AWL_GOTO_SPEED k)).toNat
  let p := s.awlParams k
  if st ≠ awlIdle ∧ st ≠ awlGoto then s.awlResult k 1
  else if !p.inside x y then s.awlResult k 2
  else if p.acc = 0 ∨ p.jerk = 0 ∨ speed = 0 then (s.awlResult k 0).awlDue k 3
  else
    let t1 := s.tclk + s.period
    let pl := s.planCtx k
    let pl1 := match runningMotion t1 pl.a.motions with
      | some m =>
        if st = awlGoto ∧ t1 < m.stop then pl.retarget m t1 x y speed
        else { pl with a := { pl.a with planT := t1 } }.jumpTo x y speed .goto
      | none => { pl with a := { pl.a with planT := t1 } }.jumpTo x y speed .goto
    ((((s.setAwl k { pl1.a with gotoX := x, gotoY := y }).setAwlState k awlGoto).awlResult k 0)).formBlock k

/-- GOTO (R171): the command GOTO. -/
def execGoto (slot : Nat) (s : State) : Host.Outcome State Fault Refusal := .next (s.awlGotoCmd slot)

/-- GOTO_DONE (R171): the move has reached its target. -/
def execGotoDone (slot : Nat) (s : State) : Host.Outcome State Fault Refusal :=
  let a := s.awl slot
  .next (
    if s.awlState slot = awlGoto ∧ a.planT ≤ s.tclk then
      (((s.setAwl slot { a with motions := [], restX := a.planX, restY := a.planY }).setAwlState slot awlIdle).slotEvent slot
        0x23 0).formBlock slot
    else s)

/-- Whether the committed grid and focus settings differ from those in force (R175). -/
def State.corrPending (s : State) (k : Nat) : Bool :=
  let a := s.awl k
  a.corrSel != s.flag (F.AWL_CTRL_CORR_SEL k) || a.corrEn != s.flag (F.AWL_CTRL_CORR_EN k)
    || a.focusEn != s.flag (F.AWL_CTRL_FOCUS_EN k) || a.shift != s.fld (F.AWL_CORR_SHIFT_VALUE k)

/-- CORR_CHANGE (R175): a pending grid or focus change takes effect in IDLE, WAIT, FAULT or GOTO at rest. -/
def execCorrChange (slot : Nat) (s : State) : Host.Outcome State Fault Refusal :=
  let a := s.awl slot
  let st := s.awlState slot
  .next (
    if s.corrPending slot ∧ (st = awlIdle ∨ st = awlWait ∨ st = awlFault ∨ (st = awlGoto ∧ a.planT ≤ s.tclk)) then
      ((s.setAwl slot { a with
          corrSel := s.flag (F.AWL_CTRL_CORR_SEL slot), corrEn := s.flag (F.AWL_CTRL_CORR_EN slot)
          focusEn := s.flag (F.AWL_CTRL_FOCUS_EN slot), shift := s.fld (F.AWL_CORR_SHIFT_VALUE slot), corrUsed := false }).setFld
        (F.AWL_STATUS_CORR_PEND slot) 0).formBlock slot
    else s)

/-! ## The boundary -/

/-- Motions that have ended by a TCLK leave the plan; the spot's rest point follows them. -/
def Awl.prune (a : Awl) (t : Nat) : Awl :=
  let old := a.motions.filter fun m => decide (m.stop ≤ t)
  let keep := a.motions.filter fun m => decide (t < m.stop)
  match old.getLast? with
  | none => a
  | some m =>
    let (x, y) := m.point m.dur
    { a with motions := keep, restX := x, restY := y, lits := a.lits.filter fun l => decide ((t : Int) ≤ l.off) || !l.judged }

/-- LINK transitions that must be fixed at this boundary act as 0 (R163). -/
def State.fixLink (s : State) (k : Nat) : State :=
  let a := s.awl k
  match a.pend with
  | none => s
  | some e =>
    let off : Int := (a.lits.getLast?.map fun l => l.off).getD 0
    if e.tEnd < s.tclk + s.period ∨ off < (s.tclk + 2 * s.period : Nat) then
      (s.setAwl k ((s.planCtx k).closePend).a).bump (F.AWL_UNDERRUN_CNT_COUNT k)
    else s

/-- Stretches whose gate-on edge the next block to form would carry are judged: a short one emits nothing (R178). -/
def State.judgeLits (s : State) (k : Nat) : State :=
  let a := s.awl k
  let t2 : Int := (s.tclk + 2 * s.period : Nat)
  let short := a.lits.filter fun l => !l.judged && decide (l.on < t2) && decide (l.off ≤ l.on)
  let lits := (a.lits.filter fun l => !(!l.judged && decide (l.on < t2) && decide (l.off ≤ l.on))).map fun l =>
    if l.on < t2 then { l with judged := true } else l
  short.foldl (fun s _ => (s.bump (F.AWL_SHORT_CNT_COUNT k)).slotEvent k 0x22 0) (s.setAwl k { a with lits := lits })

/-- What the boundary does to an Awl before the Rein evaluates: the head takes the block, ended motions leave, fault
conditions of the boundary are found, and open decisions that fall due are made. -/
def State.awlBoundary (s : State) (k : Nat) : State :=
  let a := (s.awl k).prune s.tclk
  let now := getBits s.emitEn k k == 1
  let lost := a.emit && (!now || s.hide.emitCut.isSome) && decide (s.awlState k = awlRun) && !a.due.contains 6
  let s1 := s.setAwl k { a with
    applied := a.formed, zWas := a.zNow, zNow := false, emit := now, due := if lost then a.due ++ [6] else a.due }
  let s2 := (s1.fixLink k).judgeLits k
  let s3 := (s2.awlSettle k).showWindow k
  s3.setFld (F.AWL_STATUS_CORR_PEND k) (bitNat (s3.corrPending k))

end Sys2Proof.Machine
end

