-- ==== Sys2Proof/Machine/Rein.lean ====
section
/-! DEFINITION. The Rein of a slot (R188 to R214): measurement, set-point, levels and law, trim, supervision and the trace
units. -/

namespace Sys2Proof.Machine

/-- OFF (R205). -/
def loopOff : Nat := 0
/-- CLOSED. -/
def loopClosed : Nat := 1
/-- FALLBACK. -/
def loopFallback : Nat := 2
/-- CONTINUE. -/
def loopContinue : Nat := 3
/-- HOLD_LOW. -/
def loopHoldLow : Nat := 4
/-- HANDED. -/
def loopHanded : Nat := 5

/-- MID (R195). -/
def levelMid : Nat := 0
/-- HIGH. -/
def levelHigh : Nat := 1
/-- LOW. -/
def levelLow : Nat := 2

/-- REIN_STATUS.LOOP. -/
def State.loop (s : State) (k : Nat) : Nat := s.fld (F.REIN_STATUS_LOOP k)

/-- The state with REIN_STATUS.LOOP set. -/
def State.setLoop (s : State) (k v : Nat) : State := s.setFld (F.REIN_STATUS_LOOP k) v

/-! ## Measurement (R189 to R191) -/

/-- An entry of the ratio table. -/
def State.ratioEntry (s : State) (k i : Nat) : Int :=
  let w := s.reg (R.REIN_RATIO_LUT k (i / 2))
  (if i % 2 = 0 then getBits w 15 0 else getBits w 31 16 : Nat)

/-- The table's value for a ratio (R190). -/
def State.ratioTemp (s : State) (k q : Nat) : Nat :=
  let i := q / 1024
  let t0 := s.ratioEntry k i
  (t0 + roundShift ((s.ratioEntry k (i + 1) - t0) * (q % 1024 : Nat)) 10).toNat

/-- The sum of a quantity over pairs. -/
def sumPairs (f : Pair → Nat) (l : List Pair) : Nat := l.foldl (fun n p => n + f p) 0

/-- The measured value that the pairs of a Stitch give (R189); none when it is missing. -/
def State.measurePairs (s : State) (k : Nat) (ps : List Pair) : Option Nat :=
  if s.fld (F.REIN_CTRL_VAR k) = 1 then
    let floor := s.fld (F.REIN_MINSIG_VALUE k)
    let good := ps.filter fun p => decide (floor ≤ p.a) && decide (floor ≤ p.b) && p.a != 0
    if good = [] then none
    else some (s.ratioTemp k (min 0xFFFF (sumPairs (fun p => p.b) good * 32768 / sumPairs (fun p => p.a) good)))
  else if ps = [] then none
  else some ((sumPairs (fun p => p.a) ps + ps.length / 2) / ps.length)

/-- The pairs that jumps of the sequence number show as missing, from the number seen last; and the number seen last after
them. -/
def seqGaps : Option Nat → List Pair → Nat × Option Nat
  | last, [] => (0, last)
  | last, p :: ps =>
    let (n, l) := seqGaps (some p.seq) ps
    match last with
    | none => (n, l)
    | some q => (n + (p.seq + 0x10000 - (q + 1)) % 0x10000, l)

/-- REIN_SEQ_GAP counts what the pairs of a Stitch show as missing (R189). -/
def State.countGaps (s : State) (k : Nat) (ps : List Pair) : State :=
  let (n, last) := seqGaps (s.rein k).lastSeq ps
  (s.setRein k { s.rein k with lastSeq := last }).bumpBy (F.REIN_SEQ_GAP_COUNT k) n

/-- Whether a statistics packet is accepted (R191). -/
def goodStatistic (ws : List PWord) : Bool :=
  let w := (ws.getD 0 (PWord.clean 0)).val
  ws.length == 48 && !ws.any (fun p => p.poison) && getBits w 7 0 == 0 && getBits w 23 16 == getBits w 15 8

/-- Every packet committed in the statistics queue popped: those accepted, as frame number and area, and how many were
discarded. -/
def State.popStats (s : State) (k : Nat) : Nat → State × List (Nat × Nat) × Nat
  | 0 => (s, [], 0)
  | n + 1 =>
    if s.packetWaits (s.reg (R.REIN_STATQ k)) then
      let (s1, ws) := s.popPacket (slotReq k) (s.reg (R.REIN_STATQ k))
      let (s2, good, bad) := State.popStats s1 k n
      if goodStatistic ws then
        (s2, ((ws.getD 1 (PWord.clean 0)).val.toNat, (ws.getD 5 (PWord.clean 0)).val.toNat) :: good, bad)
      else (s2, good, bad + 1)
    else (s, [], 0)

/-- The entry with the highest frame number; the later of equals. -/
def newest : List (Nat × Nat) → Option (Nat × Nat)
  | [] => none
  | e :: es => match newest es with
    | none => some e
    | some b => if b.1 < e.1 then some e else some b

/-- A pool area as a measured value: itself where 16 bits hold it. -/
def areaValue (a : Nat) : Nat := if a ≤ 0xFFFF then a else (Config.areaCode a).toNat

/-- The statistics of a boundary in AREA mode: the area accepted, with the others counted in REIN_STAT_SKIP. -/
def State.takeStats (s : State) (k : Nat) : State × Option Nat :=
  let depth := match s.namedQueue (s.reg (R.REIN_STATQ k)) with
    | some key => (s.stream key).depth
    | none => 0
  let (s1, good, bad) := s.popStats k depth
  let s2 := s1.bumpBy (F.REIN_STAT_SKIP_COUNT k) (bad + (good.length - 1))
  (s2, (newest good).map fun e => e.2)

/-! ## Set-point (R192, R193) -/

/-- A mapped input code as a set-point. -/
def State.mapInput (s : State) (k code : Nat) : Nat :=
  (clampInt 0 0xFFFF ((s.fld (F.REIN_SP_OFS_VALUE k) : Int)
    + roundShift ((code : Int) * (s.reg (R.REIN_SP_GAIN k)).toInt) 16)).toNat

/-- Rising edges of a pulse input in its window, saturating. -/
def State.pulseCount (s : State) (ch win : Nat) : Nat :=
  min 0xFFFF (((s.spt.getD ch []).take (2 ^ min win 10)).foldl (fun a b => a + b) 0)

/-- One step of the soft-start ramp toward the target. -/
def rampStep (r target rate : Nat) : Nat :=
  if rate = 0 then target
  else if r < target then min target (r + rate)
  else max target (r - rate)

/-- The set-point in force and the ramp value after it, at a boundary with or without an evaluation. -/
def State.setPoint (s : State) (k : Nat) (target : Nat) (m : Option Nat) : Nat × Option Nat :=
  let ramp := (s.rein k).ramp
  match s.fld (F.REIN_CTRL_SPSRC k) with
  | 0 => (target, ramp)
  | 1 => (s.mapInput k (s.ain.getD (s.fld (F.REIN_CTRL_CH k)) 0), ramp)
  | 2 => (s.mapInput k (s.pulseCount (s.fld (F.REIN_CTRL_CH k)) (s.fld (F.REIN_CTRL_PWIN k))), ramp)
  | _ =>
    let rate := s.fld (F.REIN_RAMP_VALUE k)
    if rate = 0 then (target, some target)
    else match m, ramp with
      | none, none => (s.fld (F.REIN_MEAS_SP k), none)
      | none, some r => (r, some r)
      | some v, none => (v, some v)
      | some _, some r => (rampStep r target rate, some (rampStep r target rate))

/-! ## Levels (R195, R209) -/

/-- A power code scaled by an unsigned Q16.16 factor and clipped, and whether it was (R56). -/
def scalePower (c f : Nat) : Nat × Bool :=
  let r := (c * f + 0x8000) / 2 ^ 16
  (min 0xFFFF r, decide (0xFFFF < r))

/-- The three power levels of a boundary. -/
structure Levels where
  /-- P_FF. -/
  ff : Nat
  /-- P_HIGH. -/
  high : Nat
  /-- P_LOW. -/
  low : Nat
  /-- P_FF was clipped. -/
  ffCut : Bool
  /-- P_HIGH was clipped. -/
  highCut : Bool

/-- The levels of R195. -/
def levelsOf (nom fac : Nat) (ti : Int) (up down : Nat) : Levels :=
  let ff := min ((fac * (0x10000 + ti / 65536).toNat + 0x8000) / 2 ^ 16) 0xFFFFFFFF
  let (p, c) := scalePower nom ff
  let (h, ch) := scalePower p (0x10000 + up)
  let (l, _) := scalePower p (0x10000 - down)
  ⟨p, h, l, c, c || ch⟩

/-- The power of the loop's state and level, and whether pscl clipped it (R205). -/
def chosenPower (loop level pff phigh plow : Nat) (ffCut highCut : Bool) : Nat × Bool :=
  if loop = loopHanded then (0, false)
  else if loop = loopHoldLow then (plow, ffCut)
  else if loop = loopClosed ∧ level = levelHigh then (phigh, highCut)
  else if loop = loopClosed ∧ level = levelLow then (plow, ffCut)
  else (pff, ffCut)

/-- The command formed from the levels of this boundary, limited to the throttle ceiling and shown; whether it was clipped or
limited. -/
def State.reinPower (s : State) (k : Nat) (lv : Levels) : State × Bool :=
  let (p, cut) := chosenPower (s.loop k) (s.fld (F.REIN_STATUS_LEVEL k)) lv.ff lv.high lv.low lv.ffCut lv.highCut
  let thr := s.fld (F.REIN_THR_CEIL_CODE k)
  let cmd := min p thr
  ((((s.setRein k { s.rein k with cmd := cmd, pHigh := lv.high, pLow := lv.low, ffCut := lv.ffCut, highCut := lv.highCut }).setFld
    (F.REIN_POWER_PFF k) lv.ff).setFld (F.REIN_POWER_CMD k) cmd), cut || decide (thr < p))

/-- A command that was lowered or clipped (R209), counted once a boundary; its event is raised once a stretch (R214). -/
def State.countClip (s : State) (k : Nat) : State :=
  let r := s.rein k
  let s2 := s.setFld (F.REIN_STATUS_CEIL_CLIP k) 1
  let s3 := if r.clipNow then s2 else
    (s2.bump (F.REIN_CLIP_CNT_COUNT k)).setRein k { s2.rein k with clipNow := true }
  if (r.lit ∨ r.emitting) ∧ !r.clipRaised then
    (s3.setRein k { s3.rein k with clipRaised := true }).slotEvent k 0x36 0
  else s3

/-- The command of this boundary. While a supervision event of the boundary is still to come, which forms the command anew, no
clip is counted. -/
def State.reinCommand (s : State) (k : Nat) (lv : Levels) : State :=
  let (s1, clip) := s.reinPower k lv
  let r := s1.rein k
  if clip ∧ !r.lostDue ∧ !r.frozenDue ∧ !r.followDue then s1.countClip k else s1

/-- The levels of the present boundary, from what the Rein holds. -/
def State.reinLevels (s : State) (k : Nat) : Levels :=
  let a := s.awl k
  let ps := s.pset k a.pset
  levelsOf a.nom (s.rein k).fac (s.rein k).ti ps.up ps.down

/-- The levels that this boundary formed. -/
def State.shownLevels (s : State) (k : Nat) : Levels :=
  ⟨s.fld (F.REIN_POWER_PFF k), (s.rein k).pHigh, (s.rein k).pLow, (s.rein k).ffCut, (s.rein k).highCut⟩

/-! ## The law (R196, R198) -/

/-- What a level decision gives: the level, the dwell counter, whether it switched, and whether the dwell refused it. -/
structure Decision where
  /-- Level. -/
  level : Nat
  /-- since. -/
  since : Nat
  /-- A change was made. -/
  switched : Bool
  /-- A change was refused. -/
  refused : Bool
  deriving DecidableEq, Repr

/-- The level decision of R196. -/
def decideLevel (level since : Nat) (e : Int) (band dwell : Nat) : Decision :=
  let want := if (band : Int) < 2 * e ∧ level ≠ levelLow then some levelLow
    else if 2 * e < -(band : Int) ∧ level ≠ levelHigh then some levelHigh else none
  match want with
  | none => ⟨level, since, false, false⟩
  | some l => if level = levelMid ∨ dwell ≤ since then ⟨l, 0, true, false⟩ else ⟨level, since, false, true⟩

/-- ti held to a clamp. -/
def clampTrim (max : Nat) (ti : Int) : Int := clampInt (-((max * 65536 : Nat) : Int)) (max * 65536 : Nat) ti

/-- ti after an evaluation that decided a level (R198). -/
def integrateTrim (ti : Int) (level gain target max : Nat) : Int :=
  if level = levelHigh then clampTrim max (ti + (gain * (0x10000 - target) / 256 : Nat))
  else if level = levelLow then clampTrim max (ti - (gain * target / 256 : Nat))
  else ti

/-- ti replaced, with its two views. -/
def State.setTrim (s : State) (k : Nat) (ti : Int) : State :=
  let max := s.fld (F.REIN_TRIM_MAX_VALUE k)
  ((s.setRein k { s.rein k with ti := ti }).setReg (R.REIN_TRIM_STATE k) (BitVec.ofInt 32 (ti / 65536))).setFld
    (F.REIN_STATUS_TRIM_LIMIT k) (bitNat (ti.natAbs == max * 65536))

/-- ti loaded or clamped (R199, R200): a change raises TRIM_CLAMPED. -/
def State.forceTrim (s : State) (k : Nat) (ti : Int) : State :=
  if ti = (s.rein k).ti then s.setTrim k ti
  else ((s.setTrim k ti).setFld (F.REIN_STATUS_TRIM_CLAMPED k) 1).slotEvent k 0x33 0

/-- A pending TRIM_LOAD, then the clamp to the TRIM_MAX in force. -/
def State.trimBoundary (s : State) (k : Nat) : State :=
  let r := s.rein k
  let ti := if r.loadDue then signed 16 (s.fld (F.REIN_TRIM_LOAD_VALUE k)) * 65536 else r.ti
  ((s.setRein k { r with loadDue := false }).setFld (F.REIN_CMD_TRIM_LOAD k) 0).forceTrim k
    (clampTrim (s.fld (F.REIN_TRIM_MAX_VALUE k)) ti)

/-- TRIM_LOAD (R199): the load is staged for the next boundary. -/
def execTrimLoad (slot : Nat) (s : State) : Host.Outcome State Fault Refusal :=
  .next (s.setRein slot { s.rein slot with loadDue := true })

/-! ## Trace units (R211 to R213) -/

/-- The producer number of a trace unit's open packet. -/
def traceProducer (k u : Nat) : Nat := 3000 + 4 * k + u

/-- A slot's trace unit. -/
def State.trace (s : State) (k u : Nat) : Trace := (s.rein k).traces.getD u Trace.off

/-- The state with a slot's trace unit replaced. -/
def State.setTrace (s : State) (k u : Nat) (t : Trace) : State :=
  s.setRein k { s.rein k with traces := (List.range 4).map fun j => if j = u then t else s.trace k j }

/-- TRC_STATUS.STATE: 0 IDLE, 1 ARMED, 2 CAPTURING. -/
def State.traceState (s : State) (k u : Nat) : Nat := s.fld (F.REIN_TRC_STATUS_STATE k u)

/-- The value of a node (R211). -/
def State.traceNode (s : State) (k node : Nat) : Word :=
  let r := s.rein k
  match node with
  | 0 => w32 (s.fld (F.REIN_MEAS_M k))
  | 1 => w32 (s.fld (F.REIN_MEAS_SP k))
  | 2 => BitVec.ofInt 32 r.e
  | 3 => w32 (s.fld (F.REIN_POWER_PFF k))
  | 4 => w32 r.pHigh
  | 5 => w32 r.pLow
  | 6 => w32 r.cmd
  | 7 => w32 (min 0xFFFF r.since * 65536 + s.fld (F.REIN_STATUS_LEVEL k) * 16 + s.loop k)
  | 8 => w32 r.fac
  | 9 => BitVec.ofInt 32 (0x10000 + r.ti / 65536)
  | 10 => BitVec.ofInt 32 (r.ti / 65536)
  | 11 => w32 ((r.captured.head?.map fun p => p.a).getD 0)
  | 12 => w32 ((r.captured.head?.map fun p => p.b).getD 0)
  | 13 => w32 (s.awl k).nom
  | 14 => w32 r.fe
  | _ => w32 r.area

/-- Nodes per record: values above 4 act as 4. -/
def State.traceCount (s : State) (k u : Nat) : Nat := min 4 (s.fld (F.REIN_TRC_CTRL_COUNT k u))

/-- The record of the present boundary. -/
def State.traceRecord (s : State) (k u : Nat) : List Word :=
  s.stitchLo :: (List.range (s.traceCount k u)).map fun i =>
    s.traceNode k (getBits (s.reg (R.REIN_TRC_CTRL k u)) (4 * i + 3) (4 * i))

/-- Words pushed into a trace unit's open packet; false when one is refused or the packet was cut. -/
def State.tracePush (s : State) (k u key : Nat) : List Word → State × Bool
  | [] => (s, true)
  | w :: ws =>
    let r := (s.stream key).push (traceProducer k u) (PWord.clean w) false
    let s1 := s.applyQueue (slotReq k) key r
    if r.code = 0 then State.tracePush s1 k u key ws else (s1, false)

/-- A capture abandoned (R213): the open packet is marked bad, a loss is counted and the unit goes to IDLE. -/
def State.traceFail (s : State) (k u : Nat) : State :=
  let s1 := match s.namedQueue (s.trace k u).queue with
    | none => s
    | some key => s.setStream key ((s.stream key).markBad (traceProducer k u)).q
  ((s1.setTrace k u { s1.trace k u with ring := [], left := 0, queue := 0 }).setFld (F.REIN_TRC_STATUS_STATE k u) 0).bump
    (F.REIN_TRC_STATUS_LOST k u)

/-- Words recorded into the capture in progress. -/
def State.traceRecordInto (s : State) (k u : Nat) (ws : List Word) : State :=
  match s.namedQueue (s.trace k u).queue with
  | none => s.traceFail k u
  | some key =>
    let (s1, ok) := s.tracePush k u key ws
    if ok then s1 else s1.traceFail k u

/-- A trigger: the packet opens with its header and the ring, and the record of this boundary follows unless POST is 0. -/
def State.traceOpen (s : State) (k u : Nat) : State :=
  let t := s.trace k u
  let post := s.fld (F.REIN_TRC_DEPTH_POST k u)
  let head := w32 (0x01 * 2 ^ 24 + s.fld (F.REIN_TRC_TRIG_SOURCE k u) * 2 ^ 16 + t.ring.length)
  let body := head :: (t.ring.flatten ++ (if post = 0 then [] else s.traceRecord k u))
  ((s.setTrace k u { t with ring := [], left := post - 1, queue := s.reg (R.REIN_TRC_Q k u) }).setFld
    (F.REIN_TRC_STATUS_STATE k u) 2).traceRecordInto k u body

/-- Whether a trace unit's trigger occurs at this boundary (R212). -/
def State.traceTriggered (s : State) (k u : Nat) (force : Bool) : Bool :=
  let source := s.fld (F.REIN_TRC_TRIG_SOURCE k u)
  let level := (s.reg (R.REIN_TRC_LEVEL k u)).toInt
  let now := (s.traceNode k (s.fld (F.REIN_TRC_TRIG_TNODE k u))).toInt
  force || (match source, (s.trace k u).lastNode with
    | 6, some old => decide (old ≤ level) && decide (level < now)
    | 7, some old => decide (level ≤ old) && decide (now < level)
    | _, _ => source != 6 && source != 7 && (s.rein k).trig.contains source)

/-- One trace unit at a boundary, after the Rein's work: ARM and FORCE act, a trigger opens the packet, and the record
goes to the ring or to the capture. -/
def State.traceUnit (s : State) (k u : Nat) : State :=
  let armed := s.flag (F.REIN_TRC_CTRL_ARM k u)
  let force := s.flag (F.REIN_TRC_CTRL_FORCE k u)
  let s0 := (s.setFld (F.REIN_TRC_CTRL_ARM k u) 0).setFld (F.REIN_TRC_CTRL_FORCE k u) 0
  let s1 := if armed ∧ s0.traceState k u ≠ 2 then
      (s0.setTrace k u { s0.trace k u with ring := [] }).setFld (F.REIN_TRC_STATUS_STATE k u) 1
    else s0
  let node := (s1.traceNode k (s1.fld (F.REIN_TRC_TRIG_TNODE k u))).toInt
  let s2 :=
    if s1.traceCount k u = 0 then s1
    else if s1.traceState k u = 1 then
      if s1.traceTriggered k u force then s1.traceOpen k u
      else
        let t := s1.trace k u
        let pre := s1.fld (F.REIN_TRC_DEPTH_PRE k u)
        let ring := t.ring ++ [s1.traceRecord k u]
        s1.setTrace k u { t with ring := ring.drop (ring.length - pre) }
    else if s1.traceState k u = 2 ∧ (s1.trace k u).left ≠ 0 then
      let t := s1.trace k u
      (s1.setTrace k u { t with left := t.left - 1 }).traceRecordInto k u (s1.traceRecord k u)
    else s1
  s2.setTrace k u { s2.trace k u with lastNode := some node }

/-- The trace units take the boundary's record, once a boundary and after every event of it. -/
def State.traceFlush (s : State) (k : Nat) : State :=
  if (s.rein k).traceDue then
    let s1 := s.setRein k { s.rein k with traceDue := false }
    let s2 := (((s1.traceUnit k 0).traceUnit k 1).traceUnit k 2).traceUnit k 3
    s2.setRein k { s2.rein k with trig := [] }
  else s

/-- A write of REIN_TRC_CTRL: STOP acts at once, ARM and FORCE wait for the next boundary. -/
def State.writeTraceCtrl (s : State) (k u : Nat) (val : Word) : State :=
  let s0 := s.traceFlush k
  let a := R.REIN_TRC_CTRL k u
  let w := (s0.reg a &&& 0xA0000000) ||| (val &&& 0xB007FFFF)
  let s1 := s0.setReg a w
  if getBits val 30 30 = 0 then s1
  else if s1.traceState k u = 2 then s1.traceFail k u
  else (s1.setTrace k u { s1.trace k u with ring := [] }).setFld (F.REIN_TRC_STATUS_STATE k u) 0

/-- TRACE_ARM (R213): a write of REIN_TRC_CTRL with ARM set. -/
def execTraceArm (src : Source) (slot unit : Nat) (val : Word) (s : State) : Host.Outcome State Fault Refusal :=
  .next (s.gate src (R.REIN_TRC_CTRL slot unit) (val ||| 0x80000000) fun s => s.writeTraceCtrl slot unit (val ||| 0x80000000))

/-- TRACE_STOP (R213): a write of REIN_TRC_CTRL with STOP set. -/
def execTraceStop (src : Source) (slot unit : Nat) (val : Word) (s : State) : Host.Outcome State Fault Refusal :=
  .next (s.gate src (R.REIN_TRC_CTRL slot unit) (val ||| 0x40000000) fun s => s.writeTraceCtrl slot unit (val ||| 0x40000000))

/-- FORCE (R213): a write of REIN_TRC_CTRL with FORCE set. -/
def execForce (src : Source) (slot unit : Nat) (val : Word) (s : State) : Host.Outcome State Fault Refusal :=
  .next (s.gate src (R.REIN_TRC_CTRL slot unit) (val ||| 0x20000000) fun s => s.writeTraceCtrl slot unit (val ||| 0x20000000))

/-- A producer's open packet committed as it stands. -/
def Stream.commitOpen (q : Stream) (p : Nat) : Stream :=
  match findOpen p q.opens with
  | none => q
  | some ws => { q with opens := dropOpen p q.opens, words := q.words ++ packetWords ws }

/-- TRACE_DONE (R213): the capture has its POST records, commits, and the unit rearms or idles. -/
def execTraceDone (slot unit : Nat) (s : State) : Host.Outcome State Fault Refusal :=
  let s0 := s.traceFlush slot
  .next (
    if s0.traceState slot unit = 2 ∧ (s0.trace slot unit).left = 0 then
      match s0.namedQueue (s0.trace slot unit).queue with
      | none => s0.traceFail slot unit
      | some key =>
        let before := (s0.stream key).depth
        let s1 := (s0.setStream key ((s0.stream key).commitOpen (traceProducer slot unit))).threshold key before
        let s2 := s1.setTrace slot unit { s1.trace slot unit with ring := [], queue := 0 }
        (s2.setFld (F.REIN_TRC_STATUS_STATE slot unit) (s2.fld (F.REIN_TRC_CTRL_REARM slot unit))).slotEvent slot 0x35 unit
    else s0)

/-! ## The boundary (R188, R200, R203 to R205) -/

/-- Whether a block is lit from its first TCLK with no edge. -/
def Block.litAll (b : Block) : Bool := b.gate0 && b.e0.isNone && b.e1.isNone

/-- The loop enters CLOSED with fe and the supervision counts at zero (R205). -/
def State.enterClosed (s : State) (k : Nat) : State :=
  ((s.setRein k { s.rein k with
      since := 0, lost := 0, same := 0, lastM := none, frozenM := none, overLimit := false, fe := 0, lostRaised := false
      frozenRaised := false }).setLoop k loopClosed).setLevel k levelMid

/-- Whether a unit's first stroke starts at this boundary: the Awl enters RUN with it (R164). -/
def State.unitEnters (s : State) (k : Nat) : Bool := (s.awl k).held.any fun h => h.first && h.t0 == s.tclk

/-- The moves of R205 that the Awl's state and MODE make before the evaluation: OFF between units, and CLOSED on RUN. -/
def State.loopOpens (s : State) (k : Nat) : State :=
  let run := decide (s.awlState k = awlRun)
  let s1 := if s.unitEnters k then s.setLoop k loopOff else s
  if s1.loop k = loopOff ∧ run ∧ s1.flag (F.REIN_CTRL_MODE k) then s1.enterClosed k else s1

/-- The evaluation of a measured value: set-point, error, recovery, and the law when the loop is CLOSED and no supervision
falls due. -/
def State.evaluate (s : State) (k m : Nat) : State :=
  let a := s.awl k
  let ps := s.pset k a.pset
  let (sp, ramp) := s.setPoint k ps.setpoint (some m)
  let e : Int := (m : Int) - sp
  let r := s.rein k
  let same := if r.lastM = some m then r.same + 1 else 1
  let s1 := ((s.setRein k { r with ramp := ramp, e := e, lost := 0, same := same, lastM := some m }).setFld
    (F.REIN_MEAS_SP k) sp).setFld (F.REIN_MEAS_M k) m
  let limit := s1.fld (F.REIN_FE_FE_LIMIT k)
  let isOver := decide (limit < e.natAbs)
  if s1.loop k = loopFallback ∧ r.frozenM ≠ some m then
    ((s1.setRein k { s1.rein k with
        since := 0, lostRaised := false, frozenRaised := false, frozenM := none, overLimit := isOver
        fe := if isOver then r.fe + 1 else 0, feMoved := isOver }).setLoop k loopClosed).setLevel k levelMid
  else
    let frozenN := s1.fld (F.REIN_FB_FROZEN_N k)
    if frozenN ≠ 0 ∧ frozenN ≤ same ∧ !r.frozenRaised then s1.setRein k { s1.rein k with frozenDue := true }
    else if s1.loop k = loopFallback then s1.setRein k { s1.rein k with fe := r.fe + 1, feMoved := true }
    else
      let d := decideLevel (s1.fld (F.REIN_STATUS_LEVEL k)) r.since e ps.band ps.dwell
      let s2 := (s1.setRein k { s1.rein k with
        since := d.since, overLimit := isOver, fe := if isOver then r.fe + 1 else 0, feMoved := isOver }).setLevel k d.level
      let s3 := if d.switched then s2.bump (F.REIN_SWITCH_CNT_COUNT k) else s2
      let s4 := if d.refused then s3.bump (F.REIN_DWELL_CNT_COUNT k) else s3
      s4.setTrim k (integrateTrim r.ti d.level (s4.fld (F.REIN_TRIM_CFG_GAIN k)) (s4.fld (F.REIN_TRIM_CFG_TARGET k))
        (s4.fld (F.REIN_TRIM_MAX_VALUE k)))

/-- An emitting Stitch without a fresh value (R188, R201, R204). -/
def State.missing (s : State) (k : Nat) : State :=
  let r := s.rein k
  let lost := r.lost + 1
  let lostN := s.fld (F.REIN_FB_LOST_N k)
  if lostN ≠ 0 ∧ lostN ≤ lost ∧ !r.lostRaised then s.setRein k { r with lost := lost, lostDue := true }
  else if s.loop k = loopFallback ∨ r.overLimit then
    s.setRein k { r with lost := lost, fe := r.fe + 1, feMoved := true }
  else s.setRein k { r with lost := lost }

/-- FOLLOWING falls due when fe has moved to FE_TIME (R204). -/
def State.followCheck (s : State) (k : Nat) : State :=
  let r := s.rein k
  let t := s.fld (F.REIN_FE_FE_TIME k)
  s.setRein k { r with followDue := r.feMoved && t != 0 && decide (t ≤ r.fe) }

/-- What a boundary does to a slot's Rein, in the order of R200. -/
def State.reinBoundary (s : State) (k : Nat) : State :=
  let a := s.awl k
  let r := s.rein k
  let b := a.applied
  let lit := b.litAll && a.emit
  let emitting := r.lit && a.emit
  let start := lit && !emitting
  let run := decide (s.awlState k = awlRun)
  let area := decide (s.fld (F.REIN_CTRL_VAR k) = 2)
  let (s1, stat) := if area then s.takeStats k else (s, none)
  let begins := r.begun || a.held.any fun h => h.trace && !h.zero && decide (r.seenT < h.t0) && decide (h.t0 ≤ s.tclk)
  let trig := (if begins then [1] else []) ++ (if run && (!r.wasRun || s.unitEnters k) then [8] else [])
  let s2 := (s1.countGaps k r.pairs).setRein k { r with
    lastSeq := (seqGaps r.lastSeq r.pairs).2, lit := lit, emitting := emitting, captured := r.pairs, pairs := [], feMoved := false, lostDue := false
    frozenDue := false, followDue := false, clipNow := false, traceDue := true, wasRun := run, trig := trig ++ r.trig, seenT := s.tclk, begun := false
    fac := s1.hideFactor b.bedX b.bedY, area := stat.getD r.area
    since := if start then 0 else if lit || emitting then r.since + 1 else r.since
    ramp := if start then none else r.ramp, clipRaised := r.clipRaised && !start }
  let s3 := if start then s2.setLevel k levelMid else s2
  let s4 := (s3.trimBoundary k).loopOpens k
  let lv := s4.reinLevels k
  let watched := s4.loop k == loopClosed || s4.loop k == loopFallback
  let m := if area then stat.map areaValue else s4.measurePairs k r.pairs
  let s5 := if watched ∧ emitting then
      match m with
      | some v => s4.evaluate k v
      | none => s4.missing k
    else s4
  let s6 := if watched ∧ emitting ∧ m.isSome then s5
    else s5.setFld (F.REIN_MEAS_SP k) (s5.setPoint k (s5.pset k (s5.awl k).pset).setpoint none).1
  let s7 := s6.followCheck k
  let s8 := if (s7.awlState k ≠ awlRun ∧ s7.awlState k ≠ awlWait) ∨ !s7.flag (F.REIN_CTRL_MODE k) then
      if s7.loop k = loopOff then s7 else (s7.setLoop k loopOff).setLevel k levelMid
    else s7
  s8.reinCommand k lv

/-! ## Supervision events (R201 to R207) -/

/-- The loop enters FALLBACK at this boundary: the level reads MID, the command is P_FF, and fe takes the Stitch. -/
def State.enterFallback (s : State) (k : Nat) : State :=
  let r := s.rein k
  let s1 := s.setRein k { r with lostDue := false, frozenDue := false }
  let s2 := if r.emitting ∧ !r.feMoved then s1.setRein k { s1.rein k with fe := r.fe + 1, feMoved := true } else s1
  let s3 := if s2.loop k = loopClosed then (s2.setLoop k loopFallback).setLevel k levelMid else s2
  ((s3.followCheck k).reinCommand k (s3.shownLevels k)).formBlock k

/-- FEEDBACK_LOST (R201, R203). -/
def execFeedbackLost (slot : Nat) (s : State) : Host.Outcome State Fault Refusal :=
  .next (
    if (s.rein slot).lostDue then
      let s1 := s.setRein slot { s.rein slot with lostRaised := true }
      (((s1.setFld (F.REIN_STATUS_LOST slot) 1).slotEvent slot 0x31 0).noteTrigger slot 3).enterFallback slot
    else s)

/-- FEEDBACK_FROZEN (R202, R203). -/
def execFeedbackFrozen (slot : Nat) (s : State) : Host.Outcome State Fault Refusal :=
  .next (
    if (s.rein slot).frozenDue then
      let r := s.rein slot
      let s1 := s.setRein slot { r with frozenRaised := true, frozenM := r.lastM }
      (((s1.setFld (F.REIN_STATUS_FROZEN slot) 1).slotEvent slot 0x32 0).noteTrigger slot 4).enterFallback slot
    else s)

/-- A hand-back (R206): the Awl stops as under STOP, the service bit clears, and the Tree may sample the loss at the next
boundary. -/
def State.handBack (s : State) (k : Nat) : State :=
  let st := s.awlState k
  let s1 := if st = awlRun ∨ st = awlWait then s.stopAwl k 0 true else s
  let s2 := s1.setFld ⟨R.TREE_SLOT_SERVICE, k, k⟩ 0
  let s3 := match sget none s2.staged R.TREE_SLOT_SERVICE with
    | some w => s2.stage R.TREE_SLOT_SERVICE (putBits w k k 0)
    | none => s2
  let s4 := ((s3.setLoop k loopHanded).setLevel k levelMid).setFld (F.REIN_STATUS_HANDED k) 1
  ((s4.slotEvent k 0x34 0).setRein k { s4.rein k with cmd := 0 }).setFld (F.REIN_POWER_CMD k) 0

/-- FOLLOWING (R204 to R207): raised when fe reaches FE_TIME; the policy acts unless an ABORT stopped the job at this
boundary. A loop that is OFF because its Awl stopped at this boundary stays OFF. -/
def execFollowing (slot : Nat) (s : State) : Host.Outcome State Fault Refusal :=
  .next (
    if (s.rein slot).followDue then
      let s1 := (((s.setRein slot { s.rein slot with followDue := false }).setFld (F.REIN_STATUS_FOLLOWING slot) 1).slotEvent
        slot 0x30 0).noteTrigger slot 2
      let on := decide (s1.loop slot ≠ loopOff)
      let s2 :=
        if s1.jobState = 8 ∧ s1.tree.since = s1.now then s1
        else match s1.fld (F.REIN_CTRL_POLICY slot) with
          | 0 => if on then s1.setLoop slot loopContinue else s1
          | 1 => if on then s1.setLoop slot loopHoldLow else s1
          | _ => s1.handBack slot
      (s2.reinCommand slot (s2.shownLevels slot)).formBlock slot
    else s)

/-- CEILING_COMMIT (R208): a granted ceiling comes into force while the Awl is not in RUN. -/
def execCeilingCommit (slot : Nat) (s : State) : Host.Outcome State Fault Refusal :=
  .next (
    match (s.rein slot).ceilDue with
    | none => s
    | some w =>
      if s.awlState slot = awlRun then s
      else (s.setRein slot { s.rein slot with ceilDue := none }).setFld (F.REIN_CEILING_WATTS slot) w)

end Sys2Proof.Machine
end

