-- ==== Sys2Proof/Machine/Lanes.lean ====
section
/-! DEFINITION. Latigo lanes (R307 to R326): training and alignment, flits and their sequence, equalisation, test functions
and events. -/

namespace Sys2Proof.Machine

/-- A lane. -/
def State.lane (s : State) (k : Nat) : Lane := sget Lane.atReset s.lanes k

/-- The state with a lane replaced. -/
def State.setLane (s : State) (k : Nat) (l : Lane) : State := { s with lanes := sset Lane.atReset s.lanes k l }

/-- The requester of a lane (R269): LTk for k below 32 shares its slot's port, LT32 to LT39 ports 8 to 15. -/
def laneReq (k : Nat) : Nat := if k < 32 then k / 4 * 8 + 2 * (k % 4) + 1 else 64 + 8 * (k - 32) + 1

/-- LANE_STATUS.STATE (R317). -/
def State.laneState (s : State) (k : Nat) : Nat := s.fld (F.LANE_STATUS_STATE k)

/-- DOWN. -/
def laneDown : Nat := 0
/-- DETECT. -/
def laneDetect : Nat := 1
/-- RATE. -/
def laneRate : Nat := 2
/-- CHECK. -/
def laneCheck : Nat := 3
/-- ALIGN. -/
def laneAlign : Nat := 4
/-- READY. -/
def laneReady : Nat := 5
/-- RECOVERY. -/
def laneRecovery : Nat := 6
/-- TEST. -/
def laneTest : Nat := 7
/-- FAILED. -/
def laneFailed : Nat := 8

/-- Whether lanes are powered: READY and RUN (R380, R381). -/
def State.lanesPowered (s : State) : Bool := s.fld F.PWR_STATE_STATE == 3 || s.fld F.PWR_STATE_STATE == 4

/-- An event packet of a lane (R326). -/
def State.laneEvent (s : State) (k code cause : Nat) (w1 : Word) : State :=
  s.pushEvent (laneReq k) (s.reg (R.LANE_EVQ k)) [w32 (code * 2 ^ 24 + k * 2 ^ 16 + cause % 16), w1, s.stitchLo]

/-- The flit time F in TCLK of a rate code (R308). -/
def flitTime (rate : Nat) : Nat :=
  match rate with
  | 0 => 43
  | 1 => 22
  | 2 => 14
  | _ => 11

/-! ## Equalisation and rates (R318, R322) -/

/-- The board table's word for a lane, a rate and a band. -/
def State.eqWord (s : State) (k rate band : Nat) : Word := sget 0xFFFFFFFF s.board ((k * 4 + rate) * 4 + band)

/-- Whether the board table has an entry. -/
def State.hasEq (s : State) (k rate band : Nat) : Bool := s.eqWord k rate band != 0xFFFFFFFF

/-- The highest rate of a head's IDENT word, coded as in RATES. -/
def identRate (head : Word) : Nat := getBits head 19 16

/-- Whether a lane is one of the part's harness lanes (R3, R425). -/
def State.isHarness (s : State) (k : Nat) : Bool := s.part.row.harness && decide (36 ≤ k)

/-- Whether a rate qualifies: in RATES, not above the head's, and with an entry for the band; a harness lane runs at 12.5 and
16.0 Gb/s only (R428). -/
def State.rateOk (s : State) (k r : Nat) : Bool :=
  (!s.isHarness k || decide (2 ≤ r)) && natBit (s.fld (F.LANE_CFG_RATES k)) r && decide (2 ^ r ≤ identRate (s.reg (R.LANE_HEAD k)))
    && s.hasEq k r (s.fld (F.LANE_STATUS_BAND k))

/-- The highest qualifying rate below `n`. -/
def State.chooseRate (s : State) (k : Nat) : Nat → Option Nat
  | 0 => none
  | n + 1 => if s.rateOk k n then some n else State.chooseRate s k n

/-! ## States (R317) -/

/-- LANE_RECOVER counts an attempt. -/
def State.recoverAttempt (s : State) (k : Nat) : State :=
  let l := s.lane k
  (s.setLane k { l with attempts := l.attempts + 1, aligning := false, rtts := [], known := false }).bump
    (F.LANE_RECOVER_COUNT k)

/-- The lane enters a state. Leaving READY raises LANE_DOWN and stops the slot's Awl with fault LANE (R183, R321);
entering FAILED raises LANE_FAILED, entering READY LANE_UP. `why` numbers the reason for leaving READY. -/
def State.laneEnter (s : State) (k st cause why : Nat) : State :=
  let was := s.laneState k
  let s1 := (s.setFld (F.LANE_STATUS_STATE k) st).setFld (F.LANE_STATUS_CAUSE k) (if st = laneFailed then cause else 0)
  let s2 := if was = laneReady ∧ st ≠ laneReady then
      let t := (s1.laneEvent k 0x61 (Config.laneDownCause why).toNat 0).setFld (F.LANE_STATUS_MEAS_BUSY k) 0
      if k < t.part.row.lasers then t.awlDue k 7 else t
    else s1
  let l := { s2.lane k with pend := none }
  let s3 := s2.setLane k l
  if st = laneFailed then s3.laneEvent k 0x62 cause 0
  else if st = laneReady then
    let n := s3.period
    (s3.setLane k { l with
      serialWas := some (s3.reg (R.LANE_SERIAL_LO k), s3.reg (R.LANE_SERIAL_HI k))
      safe := false, early := false, bad := 0, lastAt := s3.now, ackAt := s3.now, attempts := 0
      told := [n, s3.fld (F.LANE_LAT_D k), s3.fld (F.LANE_LAT_U k), s3.fld (F.LANE_CFG_MISS_LIMIT k)] }).laneEvent
        k 0x60 0 0
  else if st = laneAlign then s3.setLane k { l with rtts := [], known := false }
  else if st = laneRecovery then (s3.setLane k { l with attempts := 0 }).recoverAttempt k
  else if st = laneDetect then s3.setLane k { l with tx := 0, rx := none, replay := [], nak := false, bad := 0 }
  else s3

/-- The state that the next boundary brings. -/
def State.lanePend (s : State) (k st cause : Nat) : State := s.setLane k { s.lane k with pend := some (st, cause) }

/-- A rate chosen below `n`: CHECK at it, or FAILED. -/
def State.laneChoose (s : State) (k n cause : Nat) : State :=
  match s.chooseRate k n with
  | some r => (s.setFld (F.LANE_STATUS_RATE k) r).laneEnter k laneCheck 0 5
  | none => s.laneEnter k laneFailed cause 5

/-- An attempt of RECOVERY has failed: another follows, or FAILED after three. -/
def State.recoveryFails (s : State) (k : Nat) : State :=
  if 3 ≤ (s.lane k).attempts then s.laneEnter k laneFailed 5 5 else s.recoverAttempt k

/-! ## Alignment (R319, R320) -/

/-- Whether a head type fits a lane; the peer on a harness lane identifies as 0x05 (R428). -/
def State.identFits (s : State) (k : Nat) : Bool :=
  let t := getBits (s.reg (R.LANE_HEAD k)) 7 0
  if k < s.part.row.lasers then t == 1 || t == 2
  else if s.isHarness k then t == 5
  else t == 3 || t == 4

/-- One-way latency: half of what the largest round trip leaves beside the head's turnaround, rounded up. -/
def oneWay (rtts : List Nat) (turn : Nat) : Nat := ceilDiv (rtts.foldl max 0 - turn) 2

/-- The fit of R319 for a latency, a rate and a period. -/
def latencyFits (d rate n : Nat) : Bool :=
  decide (64 + flitTime rate + d ≤ n - 8) && decide (d + flitTime rate + 8 < n)

/-- Whether a lane's latency fits: for a harness lane F + d is at most 32 TCLK as well (R428). -/
def State.laneFits (s : State) (k d rate : Nat) : Bool :=
  latencyFits d rate s.period && (!s.isHarness k || decide (flitTime rate + d ≤ 32))

/-- At a new period every READY lane tells its head and checks its fit again (R320). -/
def State.laneAtPeriod (s : State) (k : Nat) : State :=
  if s.laneState k = laneReady then
    let n := s.period
    let l := s.lane k
    let s1 := s.setLane k { l with told := n :: l.told.drop 1 }
    if s1.laneFits k (s1.fld (F.LANE_LAT_D k)) (s1.fld (F.LANE_STATUS_RATE k)) then s1
    else s1.laneEnter k laneFailed 4 5
  else s

/-- PERIOD_MIN (R33): 200 when any lane with a rate in use runs at 4.0 Gb/s. -/
def State.showPeriodMin (s : State) : State :=
  let slow := (List.range 40).any fun k =>
    let st := s.laneState k
    (st == laneCheck || st == laneAlign || st == laneReady || st == laneRecovery) && s.fld (F.LANE_STATUS_RATE k) == 0
  s.setFld F.STCH_STATUS_PERIOD_MIN (if slow then 200 else 160)

/-! ## The downstream flit (R309, R310) -/

/-- The four words of a block (R181). -/
def Block.words (b : Block) : List Word :=
  let z := unsigned 24 b.z
  [w32 (z % 256 * 2 ^ 24 + unsigned 24 b.x), w32 (z / 256 % 256 * 2 ^ 24 + unsigned 24 b.y),
    w32 (bitNat b.rest * 2 ^ 25 + bitNat b.gate0 * 2 ^ 24 + z / 65536 * 2 ^ 16 + b.power % 65536),
    w32 ((match b.e1 with | some e => 2 ^ 23 + e % 2048 * 2 ^ 12 | none => 0)
      + match b.e0 with | some e => 2 ^ 11 + e % 2048 | none => 0)]

/-- Words 6 to 9: the camera command of the head's source (R218, R219). -/
def State.cameraWords (s : State) (head : Nat) : List Word :=
  match s.sourceOf head with
  | none => [0, 0, 0, 0]
  | some (p, i) =>
    let c := s.cam p i
    match c.trigAt with
    | some (b, set) =>
      if b = s.now then
        w32 (2 ^ 31 + bitNat set * 2 ^ 30 + s.fld ⟨imgAddr p i 0x18, 7, 0⟩ * 2 ^ 16) ::
          (if set then [c.sent.getD 0 0, c.sent.getD 1 0, c.sent.getD 2 0] else [0, 0, 0])
      else [0, 0, 0, 0]
    | none => [0, 0, 0, 0]

/-- Whether the device sends LEAD 1: always while HARN_CFG.ENABLE is 0; in a pair, when it holds the lead or has decided to
take it over (R309, R430, R431). -/
def State.sendsLead (s : State) : Bool :=
  !s.flag F.HARN_CFG_ENABLE || s.fld F.HARN_STATUS_STATE == 6 || s.harn.decided

/-- A flit of 16 words with its CRC; an injected CRC error corrupts it (R324). -/
def flitOf (hdr : Word) (body : List Word) (spoil : Bool) : List Word :=
  let ws := hdr :: (body ++ List.replicate (14 - body.length) 0).take 14
  let c := crc32c (bytesOfWords ws)
  ws ++ [if spoil then c ^^^ 1 else c]

/-- The SETPOINT flit for this boundary, as the lane carried it in the ended Stitch; a full replay buffer sends
nothing (R313). -/
def State.sendSetpoint (s : State) (k : Nat) : State :=
  let l := s.lane k
  match s.part.headOfLane k with
  | none => s
  | some h =>
    if s.laneState k ≠ laneReady ∨ 64 ≤ l.replay.length then s
    else
      let block := if h < 32 then ((sget Awl.atReset s.awls h).applied).words else [0, 0, 0, 0]
      let spoil := l.inject == some (2, 1)
      let ack := match l.rx with
        | some r => (r + 4095) % 4096
        | none => 0
      let hdr := w32 (1 * 2 ^ 28 + l.tx * 2 ^ 16 + ack * 2 ^ 4 + bitNat l.nak * 2 ^ 3 + bitNat s.sendsLead * 2 ^ 2)
      let f := flitOf hdr (s.stitchLo :: block ++ s.cameraWords h) spoil
      s.setLane k { l with
        flit := f, tx := (l.tx + 1) % 4096, nak := false, inject := if spoil then none else l.inject
        ackAt := if l.replay = [] then s.now else l.ackAt, replay := l.replay ++ [f] }

/-! ## The boundary -/

/-- The band of the lanes at this boundary (R322): its entry is loaded, and a lane whose rate has none in the new band goes
through RECOVERY to RATE, which chooses again. -/
def State.laneBand (s : State) (k : Nat) : State :=
  let b := s.fld (F.THRM_BAND_GROUP_BAND 2)
  if b = s.fld (F.LANE_STATUS_BAND k) then s
  else
    let s1 := s.setFld (F.LANE_STATUS_BAND k) b
    let st := s1.laneState k
    if (st = laneReady ∨ st = laneRecovery ∨ st = laneCheck ∨ st = laneAlign)
        ∧ !s1.hasEq k (s1.fld (F.LANE_STATUS_RATE k)) b then
      s1.laneEnter k laneRate 0 5
    else s1

/-- A lane's move at the boundary (R317). A lane in RECOVERY at a rate without an entry for its band passes to RATE, which
chooses at the next boundary. -/
def State.laneMove (s : State) (k : Nat) : State :=
  let l := s.lane k
  let st := s.laneState k
  if l.drop ∨ !s.lanesPowered then
    let s1 := if st = laneDown then s else s.laneEnter k laneDown 0 5
    s1.setLane k { s1.lane k with drop := false, pend := none }
  else match l.pend with
    | some (dest, cause) =>
      if dest = laneCheck then s.laneChoose k (s.fld (F.LANE_STATUS_RATE k)) cause else s.laneEnter k dest cause 5
    | none =>
      if st = laneDown then (if s.flag (F.LANE_CFG_ENABLE k) then s.laneEnter k laneDetect 0 5 else s)
      else if st = laneRate then s.laneChoose k 4 1
      else if st = laneCheck ∧ s.fld (F.LANE_CFG_CHECK_MS k) = 0 then s.laneEnter k laneAlign 0 5
      else if st = laneRecovery ∧ !s.hasEq k (s.fld (F.LANE_STATUS_RATE k)) (s.fld (F.LANE_STATUS_BAND k)) then s.laneEnter k laneRate 0 5
      else if st = laneRecovery ∧ s.fld (F.LANE_CFG_CHECK_MS k) = 0 ∧ !l.aligning then
        s.setLane k { l with aligning := true }
      else s

/-- What a boundary does to a lane. A band without an entry moves it to RATE, which chooses at the next boundary (R322). -/
def State.laneBoundary (s : State) (k : Nat) : State :=
  if s.restarting 5 k then s
  else
  let s1 := s.sendSetpoint k
  let s2 := s1.laneBand k
  if s2.laneState k ≠ s1.laneState k ∧ !(s2.lane k).drop ∧ s2.lanesPowered then s2 else s2.laneMove k

/-! ## Commands of LANE_CMD -/

/-- RESULT of a lane command. -/
def State.laneResult (s : State) (k r : Nat) : State := s.setFld (F.LANE_STATUS_RESULT k) r

/-- Whether a lane's slot has its Awl in RUN. -/
def State.laneBusy (s : State) (k : Nat) : Bool := decide (k < s.part.row.lasers) && s.awlState k == awlRun

/-- RETRAIN (R317): from READY, unless the slot's Awl is in RUN, and from FAILED. -/
def State.laneRetrain (s : State) (k : Nat) : State :=
  let st := s.laneState k
  if (st = laneReady ∧ !s.laneBusy k) ∨ st = laneFailed then (s.laneEnter k laneDetect 0 5).laneResult k 0
  else s.laneResult k 1

/-- TEST (R325): from DOWN and FAILED. -/
def State.laneTestCmd (s : State) (k : Nat) : State :=
  let st := s.laneState k
  if st = laneDown ∨ st = laneFailed then (s.laneEnter k laneTest 0 5).laneResult k 0 else s.laneResult k 1

/-- MEASURE (R323): in READY; with no window it completes at once (R7). -/
def State.laneMeasure (s : State) (k : Nat) : State :=
  if s.laneState k ≠ laneReady ∨ s.flag (F.LANE_STATUS_MEAS_BUSY k) then s.laneResult k 1
  else if s.fld (F.LANE_CFG_CHECK_MS k) = 0 then s.laneResult k 0
  else (s.setFld (F.LANE_STATUS_MEAS_BUSY k) 1).laneResult k 0

/-- INJECT (R324): acts on the next flit sent after the boundary. A flipped payload bit in TEST, looped to the lane's own
checker, is one error it counts. -/
def State.laneInject (s : State) (k : Nat) : State :=
  let st := s.laneState k
  let mode := s.fld (F.LANE_TEST_INJ_MODE k)
  let ty := s.fld (F.LANE_TEST_INJ_TYPE k)
  if mode = 0 ∨ mode = 3 then s.laneResult k 0
  else if (st ≠ laneReady ∧ st ≠ laneTest) ∨ (mode = 2 ∧ ty = 1 ∧ s.laneBusy k) then s.laneResult k 1
  else
    let s1 := s.laneResult k 0
    if mode = 1 then
      if st = laneTest ∧ s1.fld (F.LANE_TEST_LOOP k) ≠ 0 ∧ s1.flag (F.LANE_TEST_GEN_EN k) ∧ s1.flag (F.LANE_TEST_CHK_EN k) then
        s1.bump (F.LANE_PRBS_ERR_COUNT k)
      else s1
    else s1.setLane k { s1.lane k with inject := some (mode, ty) }

/-- EXIT (R317): TEST ends. -/
def State.laneExit (s : State) (k : Nat) : State :=
  if s.laneState k = laneTest then
    (s.laneEnter k (if s.flag (F.LANE_CFG_ENABLE k) then laneDetect else laneDown) 0 5).laneResult k 0
  else s.laneResult k 1

/-- A command of LANE_CMD as it takes effect at a boundary. -/
def State.laneCommand (s : State) (k cmd : Nat) : State :=
  match cmd with
  | 1 => s.laneRetrain k
  | 2 => s.laneTestCmd k
  | 3 => s.laneMeasure k
  | 4 => s.laneInject k
  | 5 => s.laneExit k
  | _ => s

/-- A write of LANE_CFG (R317, R37): the limits are accepted in DOWN, FAILED and TEST, ENABLE always. While HARN_CFG.ENABLE is
1 a MISS_LIMIT below 2 is not accepted (R425). -/
def State.writeLaneCfg (s : State) (src : Source) (k : Nat) (val : Word) : State :=
  let a := R.LANE_CFG k
  let old := s.reg a
  let st := s.laneState k
  let free := st == laneDown || st == laneFailed || st == laneTest
  let lims : Word := 0x0FFFFFFF
  let f := F.LANE_CFG_MISS_LIMIT k
  let short := s.flag F.HARN_CFG_ENABLE && !s.isHarness k && decide (getBits val f.hi f.lo < 2)
  let kept := if !free then old else if short then putBits val f.hi f.lo (getBits old f.hi f.lo) else val
  let s1 := if (kept &&& lims) != (val &&& lims) then s.busyWrite src a else s
  let s2 := s1.setReg a ((kept &&& lims) ||| (val &&& 0x80000000))
  if old.msb && !val.msb then s2.setLane k { s2.lane k with drop := true }
  else if val.msb then s2.ungate 5 k
  else s2

/-- LANE_ENABLE (R317): a write of LANE_CFG. On a lane the part lacks it lands in an absent unit (R4). -/
def execLaneEnable (src : Source) (lane : Nat) (val : Word) (s : State) : Host.Outcome State Fault Refusal :=
  .next (s.gate src (R.LANE_CFG lane) val fun s => s.writeLaneCfg src lane val)

/-- RETRAIN (R317): the lane command takes effect. -/
def execRetrain (lane : Nat) (s : State) : Host.Outcome State Fault Refusal := .next (s.laneRetrain lane)

/-- TEST (R325): the lane command takes effect. -/
def execTest (lane : Nat) (s : State) : Host.Outcome State Fault Refusal := .next (s.laneTestCmd lane)

/-- MEASURE (R323): the lane command takes effect. -/
def execMeasure (lane : Nat) (s : State) : Host.Outcome State Fault Refusal := .next (s.laneMeasure lane)

/-- INJECT (R324): the lane command takes effect. -/
def execInject (lane : Nat) (s : State) : Host.Outcome State Fault Refusal := .next (s.laneInject lane)

/-- EXIT (R317): the lane command takes effect. -/
def execExit (lane : Nat) (s : State) : Host.Outcome State Fault Refusal := .next (s.laneExit lane)

/-- MEASURE_DONE (R323): the window ends; errors and payload bits, in units of 2^20, are counted. -/
def execMeasureDone (lane errs bits : Nat) (s : State) : Host.Outcome State Fault Refusal :=
  .next (
    if s.flag (F.LANE_STATUS_MEAS_BUSY lane) then
      (((s.setFld (F.LANE_STATUS_MEAS_BUSY lane) 0).bumpBy (F.LANE_PRBS_ERR_COUNT lane) errs).bumpBy
        (F.LANE_PRBS_BITS_COUNT lane) bits).laneEvent lane 0x65 0 0
    else s)

/-! ## Training flits -/

/-- IDENT_FLIT (R311, R317): in DETECT the head's IDENT flit (words 1 to 4) is taken, and the next boundary brings RATE. -/
def execIdentFlit (lane : Nat) (words : List Word) (s : State) : Host.Outcome State Fault Refusal :=
  let w := fun i => words.getD i 0
  .next (
    if s.laneState lane = laneDetect then
      let s1 := ((s.setReg (R.LANE_HEAD lane) (w 0)).setReg (R.LANE_SERIAL_LO lane) (w 1)).setReg (R.LANE_SERIAL_HI lane) (w 2)
      (s1.setLane lane { s1.lane lane with turn := getBits (w 3) 15 0 }).lanePend lane laneRate 0
    else s)

/-- CHECK_DONE (R318): the CHECK window ends; `errs` is the higher of the two checkers' counts. -/
def execCheckDone (lane errs : Nat) (s : State) : Host.Outcome State Fault Refusal :=
  let st := s.laneState lane
  let pass := decide (errs ≤ s.fld (F.LANE_CFG_CHECK_MAX lane))
  .next (
    if st = laneCheck then
      if pass then s.lanePend lane laneAlign 0
      else match s.chooseRate lane (s.fld (F.LANE_STATUS_RATE lane)) with
        | some _ => s.lanePend lane laneCheck 2
        | none => s.lanePend lane laneFailed 2
    else if st = laneRecovery ∧ !(s.lane lane).aligning then
      if pass then s.setLane lane { s.lane lane with aligning := true, rtts := [], known := false }
      else s.recoveryFails lane
    else s)

/-- ECHO_FLIT (R319): a TIMING flit is answered after a round trip of `rtt` TCLK. The first one of an ALIGN finds the head's
identification: a type that does not fit fails it, a new serial number raises HEAD_CHANGED. -/
def execEchoFlit (lane rtt : Nat) (s : State) : Host.Outcome State Fault Refusal :=
  let st := s.laneState lane
  let l := s.lane lane
  .next (
    if st = laneAlign ∨ (st = laneRecovery ∧ l.aligning) then
      if !s.identFits lane then
        if st = laneAlign then s.lanePend lane laneFailed 3 else s.recoveryFails lane
      else
        let new := match l.serialWas with
          | some (lo, hi) => lo != s.reg (R.LANE_SERIAL_LO lane) || hi != s.reg (R.LANE_SERIAL_HI lane)
          | none => false
        let s1 := if !l.known && new then s.laneEvent lane 0x63 0 (s.reg (R.LANE_SERIAL_LO lane)) else s
        if l.rtts.length < 16 then s1.setLane lane { l with known := true, rtts := l.rtts ++ [rtt] } else s1
    else s)

/-- LANE_UP (R319): the 16 round trips give the latency. A lane that fits enters READY; one that does not fails. -/
def execLaneUp (lane : Nat) (s : State) : Host.Outcome State Fault Refusal :=
  let st := s.laneState lane
  let l := s.lane lane
  .next (
    if (st = laneAlign ∨ (st = laneRecovery ∧ l.aligning)) ∧ l.rtts.length = 16 then
      let d := oneWay l.rtts l.turn
      let rate := s.fld (F.LANE_STATUS_RATE lane)
      let s1 := (s.setFld (F.LANE_LAT_D lane) d).setFld (F.LANE_LAT_U lane) (d + flitTime rate + 8)
      if s1.laneFits lane d rate then (s1.laneEnter lane laneReady 0 5).showPeriodMin
      else if st = laneAlign then s1.laneEnter lane laneFailed 4 5
      else s1.recoveryFails lane
    else s)

/-- Whether a READY lane meets condition `c` of R321, counted from 0 in its order. -/
def State.laneLost (s : State) (k c : Nat) : Bool :=
  let l := s.lane k
  match c with
  | 0 => l.safe
  | 1 => decide (l.lastAt + 2 ≤ s.now)
  | 2 => decide (8 ≤ l.bad)
  | 3 => l.replay != [] && decide (l.ackAt + 4 ≤ s.now)
  | 4 => l.early
  | _ => false

/-- LANE_DOWN (R321): a READY lane meets a condition and goes to RECOVERY. -/
def execLaneDown (lane cause : Nat) (s : State) : Host.Outcome State Fault Refusal :=
  .next (
    if s.laneState lane = laneReady ∧ s.laneLost lane cause then (s.laneEnter lane laneRecovery 0 cause).showPeriodMin
    else s)

/-! ## Upstream flits (R309, R311, R313) -/

/-- The replay buffer after an acknowledgement: flits up to ACK leave it. -/
def acked (ack : Nat) (l : List (List Word)) : List (List Word) :=
  match l.findIdx? fun f => getBits (f.getD 0 0) 27 16 == ack with
  | some i => l.drop (i + 1)
  | none => l

/-- An acknowledgement taken; a NAK replays what is left (R313). -/
def State.laneAck (s : State) (k ack : Nat) (nak : Bool) : State :=
  let l := s.lane k
  let left := acked ack l.replay
  let s1 := s.setLane k { l with replay := left, ackAt := if left.length < l.replay.length ∨ left = [] then s.now else l.ackAt }
  if nak then s1.bumpBy (F.LANE_REPLAY_COUNT k) left.length else s1

/-- An intact sequenced flit: its header's ACK and NAK are taken, and whether it is accepted in order (R313). -/
def State.laneAccept (s : State) (k : Nat) (hdr : Word) : State × Bool :=
  let seq := getBits hdr 27 16
  let s1 := s.laneAck k (getBits hdr 15 4) (getBits hdr 3 3 == 1)
  let l := { s1.lane k with lastAt := s1.now, bad := 0 }
  match l.rx with
  | some r =>
    if r = seq then (s1.setLane k { l with rx := some ((seq + 1) % 4096) }, true)
    else (s1.setLane k { l with nak := true }, false)
  | none => (s1.setLane k { l with rx := some ((seq + 1) % 4096) }, true)

/-- LATE_INPUT (R42): discarded and counted. -/
def State.lateInput (s : State) : State := (s.bump F.STCH_LATE_CNT_COUNT).setFld F.STCH_EVENT_LATE_INPUT 1

/-- EARLY_INPUT (R43): discarded and counted; its lane has lost its alignment. -/
def State.earlyInput (s : State) (k : Nat) : State :=
  let s1 := (s.bump F.STCH_EARLY_CNT_COUNT).setFld F.STCH_EVENT_EARLY_INPUT 1
  s1.setLane k { s1.lane k with early := true }

/-- LATE_INPUT (R42). -/
def execLateInput (s : State) : Host.Outcome State Fault Refusal := .next s.lateInput

/-- EARLY_INPUT (R43): an input of a lane, tagged with a later Stitch. -/
def execEarlyInput (lane : Nat) (s : State) : Host.Outcome State Fault Refusal := .next (s.earlyInput lane)

/-- How a Stitch tag stands to the present Stitch: 0 the same, 1 late, 2 early (R27, R42, R43). -/
def State.tagOrder (s : State) (tag : Word) : Nat :=
  let d := tag - s.stitchLo
  if d = 0 then 0 else if d.toNat < 2 ^ 31 then 2 else 1

/-- The pairs of a SAMPLES flit (R311). -/
def flitPairs (first n : Nat) (ws : List Word) : List Pair :=
  (List.range n).map fun i =>
    let w := ws.getD i 0
    ⟨getBits w 15 0, getBits w 31 16, (first + i) % 65536⟩

/-- SAMPLES_FLIT (R311): photodiode pairs of the present Stitch reach the slot's Rein. -/
def execSamplesFlit (lane : Nat) (hdr : Word) (words : List Word) (s : State) : Host.Outcome State Fault Refusal :=
  .next (
    if s.laneState lane ≠ laneReady then s
    else
      let (s1, ok) := s.laneAccept lane hdr
      if !ok then s1
      else match s1.tagOrder (words.getD 0 0) with
        | 1 => s1.lateInput
        | 2 => s1.earlyInput lane
        | _ =>
          if lane < s1.part.row.lasers then
            let w2 := words.getD 1 0
            let r := sget Rein.atReset s1.reins lane
            let px := flitPairs (getBits w2 31 16) (min 8 (getBits w2 3 0)) (words.drop 2)
            { s1 with reins := sset Rein.atReset s1.reins lane { r with pairs := r.pairs ++ px } }
          else s1)

/-- A lane's head status latched at a boundary (R29, R316): HEAD_STAT, SAFE and the gate-response report; MISSED is counted and
raises BLOCK_MISSED. -/
def State.latchStatus (s : State) (k : Nat) : State :=
  match (s.lane k).heard with
  | none => s
  | some ws =>
    let st := ws.getD 1 0
    let s0 := (s.setReg (R.LANE_HEAD_STAT k) st).setLane k
      { s.lane k with heard := none, safe := st.getLsbD 1, gate := ws.getD 3 0 }
    let s1 := s0.calReport k (s0.lane k).gate
    if st.getLsbD 0 then (s1.bump (F.LANE_MISSED_COUNT k)).laneEvent k 0x64 0 0 else s1

/-- STATUS_FLIT (R311): the head's status of the present Stitch, which the next boundary latches (R27, R29). -/
def execStatusFlit (lane : Nat) (hdr : Word) (words : List Word) (s : State) : Host.Outcome State Fault Refusal :=
  .next (
    if s.laneState lane ≠ laneReady then s
    else
      let (s1, ok) := s.laneAccept lane hdr
      if !ok then s1
      else match s1.tagOrder (words.getD 0 0) with
        | 1 => s1.lateInput
        | 2 => s1.earlyInput lane
        | _ =>
          s1.setLane lane { s1.lane lane with heard := some words })

/-- FRAGMENT_FLIT (R311): part of a camera frame of the lane's head, words 1 to 14. -/
def execFragmentFlit (lane : Nat) (hdr : Word) (words : Timed (List Word)) (s : State) : Host.Outcome State Fault Refusal :=
  .next (
    if s.laneState lane ≠ laneReady then s
    else
      let (s1, ok) := s.laneAccept lane hdr
      if !ok then s1
      else match s1.part.headOfLane lane with
        | some h => s1.fragment h (laneReq lane) words.tick words.what
        | none => s1)

/-- BAD_FLIT (R309): a flit whose CRC fails is counted in LANE_CRC_ERR and asks for a replay; an intact one of an undefined
type is counted in LANE_FORMAT_ERR. -/
def execBadFlit (lane : Nat) (crc : Bool) (s : State) : Host.Outcome State Fault Refusal :=
  let l := s.lane lane
  .next (
    if crc then (s.setLane lane { l with bad := l.bad + 1, nak := true }).bump (F.LANE_CRC_ERR_COUNT lane)
    else (s.setLane lane { l with bad := 0, lastAt := s.now }).bump (F.LANE_FORMAT_ERR_COUNT lane))

/-- NAK (R313): everything after ACK is replayed, and counted. -/
def execNak (lane ack : Nat) (s : State) : Host.Outcome State Fault Refusal := .next (s.laneAck lane ack true)

end Sys2Proof.Machine
end

