-- ==== Sys2Proof/Machine/Emission.lean ====
section
/-! DEFINITION. The power state's moves and the emission enables (R380 to R383, R391, R423): what other chapters ask of the
power manager. -/

namespace Sys2Proof.Machine

/-- OFF. -/
def pwrOff : Nat := 0
/-- STANDBY. -/
def pwrStandby : Nat := 1
/-- SERVICE. -/
def pwrService : Nat := 2
/-- READY. -/
def pwrReady : Nat := 3
/-- RUN. -/
def pwrRun : Nat := 4

/-- The power state (R380). -/
def State.pwrState (s : State) : Nat := s.fld F.PWR_STATE_STATE

/-- Whether boot has completed (R390). -/
def State.booted (s : State) : Bool := s.coreUp && s.flag F.PWR_STATE_BOOT_DONE

/-- An event packet of the power manager (R391). -/
def State.pwrEvent (s : State) (code low : Nat) (w1 : Word) : State :=
  s.pushEvent 256 (s.reg R.PWR_EVQ) [w32 (code * 2 ^ 24 + low), w1, s.stitchLo]

/-- The power state replaced, with STATE_CHANGED (R391). -/
def State.setPower (s : State) (st : Nat) : State :=
  (s.setFld F.PWR_STATE_STATE st).pwrEvent 0xA0 (st * 2 ^ 16) 0

/-- Whether both interlocks are inactive (R382). -/
def State.ilkClear (s : State) : Bool := !s.flag F.SEC_STATE_ILK_A && !s.flag F.SEC_STATE_ILK_B

/-- Whether the thermal latch is set (R383). -/
def State.latched (s : State) : Bool := s.flag F.PWR_STATE_LATCH

/-- The EMIT_EN pins that R382 makes active. -/
def State.emitWord (s : State) : Word :=
  if s.pwrState = pwrRun ∧ s.ilkClear ∧ !s.latched then
    s.reg R.SEC_EMIT_MASK &&& w32 (2 ^ s.part.row.lasers - 1)
  else 0

/-- Every EMIT_EN inactive. -/
def State.emitOff (s : State) : State := { s with emitEn := 0 }

/-- Every EMIT_EN inactive from TCLK `tick` of the present Stitch on: what the heads apply ends there (R25, R149). -/
def State.emitDrop (s : State) (tick : Nat) : State :=
  { s.emitOff with hide := { s.hide with emitCut := some (min tick (s.hide.emitCut.getD tick)) } }

/-- Lane numbers the part has. -/
def State.laneList (s : State) : List Nat := (List.range 40).filter fun k => s.part.hasLane k

/-- Every lane to DOWN, as a device without lane power has them (R381). -/
def State.lanesDown (s : State) : State :=
  s.laneList.foldl (fun (t : State) k => if t.laneState k = laneDown then t else t.laneEnter k laneDown 0 5) s

/-- The move to SERVICE (R381, R382). -/
def State.toService (s : State) : State := (s.emitOff.setPower pwrService).lanesDown

/-- The thermal latch set at TCLK `tick` (R383): every EMIT_EN inactive, and READY or RUN left for SERVICE. -/
def State.setLatch (s : State) (tick : Nat) : State :=
  let s1 := (s.setFld F.PWR_STATE_LATCH 1).emitDrop tick
  if s1.pwrState = pwrReady ∨ s1.pwrState = pwrRun then s1.toService else s1

end Sys2Proof.Machine
end

