-- ==== Sys2Proof/Machine/Time.lean ====
section
/-! DEFINITION. Time bases and machine time (R333 to R340), and the judgement of scheduled actions (R341 to R345). -/

namespace Sys2Proof.Machine

/-- Requester of the time block (R269). -/
def timeReq : Nat := 251

/-- An event packet of the time block (R346). -/
def State.timeEvent (s : State) (code low : Nat) (w1 : Word) : State :=
  s.pushEvent timeReq (s.reg R.TIME_EVQ) [w32 (code * 2 ^ 24 + low), w1, s.stitchLo]

/-- An integer quotient whose rounding no rule states: rounded down, or up by the free choice when it is not exact. -/
def State.freeDiv (s : State) (place : Nat) (a : Int) (b : Nat) : Int :=
  let q := a.fdiv b
  if q * b = a then q else if Config.roundUp s.fresh place then q + 1 else q

/-- A rate word held to ±2^30, and whether it was beyond. -/
def clampAdj (a : Int) : Int × Bool :=
  let c := clampInt (-(2 ^ 30)) (2 ^ 30) a
  (c, c != a)

/-- What `n` TCLK at a rate word add to a base, in 2^-43 ns (R334). -/
def advance (adj : Int) (n : Nat) : Int := (n : Int) * 25 * (2 ^ 40 + adj)

/-- One nanosecond. -/
def oneNs : Int := 2 ^ 43

/-- One second. -/
def oneSec : Int := 1000000000 * oneNs

/-- A base `k` TCLK after the last boundary. -/
def State.tbAt (s : State) (b k : Nat) : Int := s.time.tb.getD b 0 + advance (s.time.adj.getD b 0) k

/-- T(B) of the next boundary (R334). -/
def State.tbNext (s : State) (b : Nat) : Int := s.tbAt b s.period

/-- The seconds of a time. -/
def secOf (t : Int) : Nat := unsigned 64 (t.fdiv oneSec)

/-- The nanoseconds of a time. -/
def nsOf (t : Int) : Nat := ((t.fmod oneSec).fdiv oneNs).toNat

/-- The fraction of a time, in 2^-16 ns. -/
def fracOf (t : Int) : Nat := ((t.fmod oneNs).fdiv (2 ^ 27)).toNat

/-- SEC_LO, SEC_HI, NS and FRAC of a time (R6). -/
def timeWords (t : Int) : List Word :=
  [w32 (secOf t % 2 ^ 32), w32 (secOf t / 2 ^ 32), w32 (nsOf t), w32 (fracOf t)]

/-- The TCLK in the present Stitch at which something happens that no command places. -/
def State.someTclk (s : State) : Nat := Config.instant s.fresh % s.period

/-- Four words put into consecutive registers. -/
def State.setFour (s : State) (a : Nat) (ws : List Word) : State :=
  (((s.setReg a (ws.getD 0 0)).setReg (a + 4) (ws.getD 1 0)).setReg (a + 8) (ws.getD 2 0)).setReg (a + 12) (ws.getD 3 0)

/-- A read of TIME_TB_SEC_LO latches the other three registers of its base. -/
def State.latchTb (s : State) (b : Nat) : State :=
  (s.setFour (R.TIME_TB_SEC_LO b) (timeWords (s.tbAt b s.someTclk))).tookFree

/-- The five bases latched at one TCLK (R340). -/
def State.timeSnap (s : State) : State :=
  let k := s.someTclk
  let s1 := [0, 1, 2, 3].foldl (fun (t : State) b => t.setFour (R.TIME_SNAP_SEC_LO b) (timeWords (s.tbAt b k))) s
  (s1.setFour (R.TIME_SNAP_SEC_LO 4) [s.stitchLo, w32 (s.now / 2 ^ 32), 0, 0]).tookFree

/-- TIME_SNAP (R340): a write of CAPTURE latches the five bases at one TCLK. -/
def execTimeSnap (s : State) : Host.Outcome State Fault Refusal := .next s.timeSnap

/-! ## CLKREF (R335) -/

/-- REF_WINDOW (R335): a window of 10,000,000 CLKREF cycles took `tclks` TCLK; TB0 will advance 1 s per window. The first
window after missing edges raises REF_BACK. -/
def execRefWindow (tclks : Nat) (s : State) : Host.Outcome State Fault Refusal :=
  .next (
    if tclks = 0 then s
    else
      let (a, isOver) := clampAdj (s.freeDiv 20 ((320000000 - (tclks : Int)) * 2 ^ 40) tclks)
      let s1 := s.tookFree.setFld F.TIME_REF_STATUS_LOCKED 1
      let s2 := if s1.time.refGone then s1.timeEvent 0x71 0 0 else s1
      let s3 := if isOver then s2.timeEvent 0x7B 0 0 else s2
      { s3 with time := { s3.time with adj0 := some a, refGone := false } })

/-- REF_LOST (R335): 10 CLKREF edges in a row are missing. ADJ stands as the last window set it. -/
def execRefLost (s : State) : Host.Outcome State Fault Refusal :=
  .next (
    if s.time.refGone then s
    else
      let s1 := ((s.setFld F.TIME_REF_STATUS_LOCKED 0).setFld F.TIME_REF_STATUS_LOST 1).timeEvent 0x70 0 0
      { s1 with time := { s1.time with refGone := true } })

/-! ## Domains (R336) -/

/-- A domain. -/
def State.dom (s : State) (d : Nat) : Domain := s.time.doms.getD d Domain.atReset

/-- The state with a domain replaced. -/
def State.setDom (s : State) (d : Nat) (x : Domain) : State :=
  { s with time := { s.time with doms := s.time.doms.set d x } }

/-- Whether a domain is LOCKED. -/
def State.domLocked (s : State) (d : Nat) : Bool := s.flag (F.TIME_DOM_STATUS_LOCKED d)

/-- A domain unlocked. -/
def State.domUnlock (s : State) (d : Nat) : State :=
  (s.setFld (F.TIME_DOM_STATUS_LOCKED d) 0).setDom d { s.dom d with small := 0 }

/-- The domain servo at the boundary after a measurement `o` in 2^-16 ns (R336). -/
def State.servo (s : State) (d : Nat) (o : Int) : State :=
  let x := s.dom d
  let m := if x.first then 1 else max 1 (s.now - x.last)
  let n := s.period
  let stepTh : Int := (s.fld (F.TIME_DOM_CFG_STEP_TH d) * 1000 * 65536 : Nat)
  let lockTh : Int := (s.fld (F.TIME_DOM_CFG_LOCK_TH d) * 65536 : Nat)
  let kp : Int := (s.fld (F.TIME_DOM_GAIN_KP d) : Nat)
  let ki : Int := (s.fld (F.TIME_DOM_GAIN_KI d) : Nat)
  let big : Int := o.natAbs
  let s1 : State :=
    if stepTh ≤ big then
      let t := ((s.setFld (F.TIME_DOM_STATUS_LOCKED d) 0).bump (F.TIME_DOM_STATUS_STEPS d)).timeEvent 0x72 (d * 2 ^ 16)
        (w32 (unsigned 32 (o.fdiv 65536)))
      { t with time := { t.time with tb := t.time.tb.set (d + 1) (t.time.tb.getD (d + 1) 0 - o * 2 ^ 27) } }
    else
      let freq := if x.first then x.adj else x.adj - s.freeDiv (2 * d) (ki * o * 2 ^ 24 * 8) (m * 25 * n * 65536)
      let (a, isOver) := clampAdj freq
      let ph := s.freeDiv (2 * d + 1) ((kp * o) * 2 ^ 24 * 8) (65536 * m * 25 * n)
      let t := if isOver ∨ (clampAdj (a - ph)).2 then s.timeEvent 0x7B (d * 2 ^ 16) 0 else s
      t.setDom d { x with adj := a, phase := -ph, phaseLeft := m }
  let y := s1.dom d
  let small : Nat := if big < lockTh then y.small + 1 else 0
  let s2 := s1.setDom d { y with last := s.now, first := false, silent := false, small := min 8 small }
  let s3 := if 8 ≤ small ∧ !s2.domLocked d then (s2.setFld (F.TIME_DOM_STATUS_LOCKED d) 1).timeEvent 0x73 (d * 2 ^ 16) 0 else s2
  s3.tookFree

/-- The rate word of a domain's base in the coming Stitch: the servo's and its phase term, held to the limit. -/
def State.domRate (s : State) (d : Nat) : Int :=
  let x := s.dom d
  (clampAdj (x.adj + if x.phaseLeft = 0 then 0 else x.phase)).1

/-- A domain at the boundary: its enable, the measurement that waits, and the phase term's count. -/
def State.domBoundary (s : State) (d : Nat) : State :=
  let on := s.flag (F.TIME_DOM_CFG_ENABLE d)
  let x := s.dom d
  let x1 := { x with phaseLeft := x.phaseLeft - 1, wasOn := on }
  let s1 :=
    if on ∧ !x.wasOn then s.setDom d { x1 with first := true, last := s.now, small := 0, silent := false, meas := none }
    else if !on then (s.setFld (F.TIME_DOM_STATUS_LOCKED d) 0).setDom d { x1 with meas := none, small := 0 }
    else s.setDom d { x1 with meas := none }
  let s2 := match x.meas with
    | some o => if on then s1.servo d o else s1
    | none => s1
  s2.setFld (F.TIME_DOM_STATUS_ADJ d) (unsigned 24 ((s2.dom d).adj.fdiv 256))

/-- A write of TIME_DOM_MEAS_NS: the offset, with the fraction written last, takes effect at the next boundary. -/
def State.writeMeas (s : State) (d : Nat) (val : Word) : State :=
  if s.flag (F.TIME_DOM_CFG_ENABLE d) then
    s.setDom d { s.dom d with meas := some (val.toInt * 65536 + (s.fld (F.TIME_DOM_MEAS_FRAC_VALUE d) : Nat)) }
  else s

/-- DOMAIN_MEASUREMENT (R336): a write of TIME_DOM_MEAS_NS. -/
def execDomainMeasurement (src : Source) (dom : Nat) (val : Word) (s : State) : Host.Outcome State Fault Refusal :=
  .next (s.gate src (R.TIME_DOM_MEAS_NS dom) val fun s => s.writeMeas dom val)

/-- DOM_UNLOCK (R336): no measurement came for HOLD Stitches. -/
def execDomUnlock (dom : Nat) (s : State) : Host.Outcome State Fault Refusal :=
  let x := s.dom dom
  let hold := (s.reg (R.TIME_DOM_HOLD dom)).toNat
  .next (
    if dom < 2 ∧ s.flag (F.TIME_DOM_CFG_ENABLE dom) ∧ hold ≠ 0 ∧ x.last + hold ≤ s.now ∧ !x.silent then
      let s1 := s.domUnlock dom
      (s1.setDom dom { s1.dom dom with silent := true }).timeEvent 0x74 (dom * 2 ^ 16) 0
    else s)

/-! ## Machine time (R338, R339) -/

/-- The selected domain at a boundary: SEL, and the switch of R339. `written` says that firmware wrote SEL for this boundary;
`was` is whether the domain in force was locked at the last boundary. -/
def State.machineSelect (s : State) (written : Bool) : State :=
  let sel := s.fld F.TIME_MT_CFG_SEL
  let valid := s.flag F.TIME_MT_STATUS_VALID
  let s1 := s.setFld F.TIME_MT_STATUS_SEL_USED sel
  if s1.domLocked sel then s1.setFld F.TIME_MT_STATUS_HOLDOVER 0
  else if !valid ∨ s1.flag F.TIME_MT_STATUS_HOLDOVER then s1
  else if s1.flag F.TIME_MT_CFG_AUTO ∧ s1.domLocked (1 - sel) ∧ !written then
    ((s1.setFld F.TIME_MT_CFG_SEL (1 - sel)).setFld F.TIME_MT_STATUS_SEL_USED (1 - sel)).timeEvent 0x76 ((1 - sel) * 2 ^ 16) 0
  else (s1.setFld F.TIME_MT_STATUS_HOLDOVER 1).timeEvent 0x77 (sel * 2 ^ 16) 0

/-- The correction of R338, for an error `e` in 2^-43 ns. -/
def State.slewTerm (s : State) (e : Int) : Int :=
  let slew := min 100 (s.fld F.TIME_MT_CFG_SLEW)
  let c := s.freeDiv 6 (e * 8) (8 * 1024 * 25 * s.period)
  let lim : Int := (slew * 2 ^ 40 / 1000000 : Nat)
  if slew = 0 then 0 else clampInt (-lim) lim c

/-- Machine time at a boundary (R338): it is set once, and then follows the selected domain's rate with a slewed
correction. -/
def State.machineTime (s : State) : State :=
  let sel := s.fld F.TIME_MT_STATUS_SEL_USED
  let tsel := s.time.tb.getD (sel + 1) 0
  if !s.domLocked sel then
    { s with time := { s.time with adj := s.time.adj.set 3 (clampAdj s.time.adjSel).1 } }
  else
    let rate := s.domRate sel
    let s1 := if s.flag F.TIME_MT_STATUS_VALID then s
      else
        let t := (s.setFld F.TIME_MT_STATUS_VALID 1).timeEvent 0x75 (sel * 2 ^ 16) 0
        { t with time := { t.time with tb := t.time.tb.set 3 tsel } }
    let e := tsel - s1.time.tb.getD 3 0
    let (a, isOver) := clampAdj (rate + s1.slewTerm e)
    let s2 := if isOver then s1.timeEvent 0x7B 0 0 else s1
    let s3 := s2.setReg R.TIME_MT_ERR (w32 (unsigned 32 (clampInt (-(2 ^ 31)) (2 ^ 31 - 1) (e.tdiv oneNs))))
    { s3.tookFree with time := { s3.time with adj := s3.time.adj.set 3 a, adjSel := rate } }

/-! ## Scheduled actions (R341 to R345) -/

/-- The due time of an entry in its base's units: 2^-43 ns, or a Stitch count for TB4. -/
def State.actDue (s : State) (e : Nat) : Int :=
  let sec : Int := ((s.reg (R.TIME_ACT_DUE1 e)).toNat * 2 ^ 32 + (s.reg (R.TIME_ACT_DUE0 e)).toNat : Nat)
  if s.fld (F.TIME_ACT_CTRL_TB e) = 4 then sec
  else sec * oneSec + ((s.reg (R.TIME_ACT_DUE2 e)).toNat : Int) * oneNs
    + (getBits (s.reg (R.TIME_ACT_DUE3 e)) 15 0 : Nat) * 2 ^ 27

/-- T(B) of the next boundary in an entry's base. -/
def State.actNext (s : State) (e : Nat) : Int :=
  let b := s.fld (F.TIME_ACT_CTRL_TB e)
  if b = 4 then (s.now : Int) + 1 else s.tbNext b

/-- One Stitch in an entry's base. -/
def State.actPeriod (s : State) (e : Nat) : Int :=
  if s.fld (F.TIME_ACT_CTRL_TB e) = 4 then 1 else advance 0 s.period

/-- Whether an armed entry is due at the next boundary. -/
def State.actIsDue (s : State) (e : Nat) : Bool :=
  (sget none s.time.armed e).isSome && !s.time.cancels.contains e && !s.time.ran.contains e
    && decide (s.actDue e ≤ s.actNext e)

/-- Whether an entry may run now: due, no lower entry due before it, and fewer than 64 run (R342). -/
def State.actMayRun (s : State) (e : Nat) : Bool :=
  s.actIsDue e && decide (s.time.runs < 64) && !((s.time.armed.map fun x => x.1).any fun k => decide (k < e) && s.actIsDue k)

/-- L of R341. -/
def State.actLate (s : State) (e : Nat) : Nat := ((s.actNext e - s.actDue e).fdiv (s.actPeriod e)).toNat

/-- Whether a target lies in an AWL or REIN window or in the SEC block (R343). -/
def emissionTarget (a : Nat) : Bool :=
  match placeOf a with
  | some pl => pl.blk == .awl || pl.blk == .rein || pl.blk == .sec
  | none => false

/-- What becomes of a due entry: 0 it runs on time, 1 it runs late, 2 DISCARDED, 3 LATE_DROPPED (R343). -/
def State.actFate (s : State) (e : Nat) : Nat :=
  let l := s.actLate e
  if l = 0 then 0
  else if s.fld (F.TIME_ACT_CTRL_KIND e) = 1 ∧ emissionTarget (s.reg (R.TIME_ACT_TARGET e)).toNat
      ∧ s.fld F.TIME_LATE_MAX_VALUE < l then 3
  else if s.fld (F.TIME_ACT_CTRL_POLICY e) = 1 then 2
  else 1

/-- A due time written back into DUE0 to DUE3. -/
def State.setDue (s : State) (e : Nat) (t : Int) : State :=
  if s.fld (F.TIME_ACT_CTRL_TB e) = 4 then
    (s.setReg (R.TIME_ACT_DUE0 e) (w32 (unsigned 64 t % 2 ^ 32))).setReg (R.TIME_ACT_DUE1 e) (w32 (unsigned 64 t / 2 ^ 32))
  else s.setFour (R.TIME_ACT_DUE0 e) (timeWords t)

/-- An entry is no longer armed. -/
def State.disarm (s : State) (e st : Nat) : State :=
  let s1 := (s.setFld (F.TIME_ACT_STATUS_STATE e) st).setFld (F.TIME_ACT_CTRL_ARM e) 0
  { s1 with time := { s1.time with armed := sdel s1.time.armed e } }

/-- The end of a run or of a discarded occurrence: its STATUS, or the next due time of a repeating entry (R345). -/
def State.actAfter (s : State) (e st : Nat) : State :=
  let rep := (s.reg (R.TIME_ACT_REPEAT e)).toNat
  let s1 := ({ s with time := { s.time with ran := e :: s.time.ran } }).covers [w32 e, w32 st]
  if rep = 0 then s1.disarm e st
  else
    let step : Int := if s.fld (F.TIME_ACT_CTRL_TB e) = 4 then rep else rep * oneNs
    let t := s.actDue e + step
    let now := s.actNext e
    let skip := if now < t then 0 else ((now - t).fdiv step + 1).toNat
    (s1.setDue e (t + skip * step)).bumpBy (F.TIME_ACT_STATUS_SKIPPED e) skip

/-- A due entry of a kind judged and, when it is to run, run by `run`, which answers the STATUS of an action on time
(R343). -/
def State.actRun (s : State) (e kind : Nat) (run : State → State × Nat) : State :=
  if s.fld (F.TIME_ACT_CTRL_KIND e) ≠ kind ∨ !s.actMayRun e then s
  else
    let l := s.actLate e
    let s1 := s.setReg (R.TIME_ACT_LATENESS e) (w32 (min 0xFFFFFFFF l))
    let s2 : State := if s.actFate e ≤ 1 then { s1 with time := { s1.time with runs := s1.time.runs + 1 } } else s1
    match s.actFate e with
    | 0 => let (t, st) := run s2
      t.actAfter e st
    | 1 => let (t, st) := run (s2.timeEvent 0x78 e (w32 (min 0xFFFFFFFF l)))
      t.actAfter e (if st = 2 then 3 else st)
    | 2 => (s2.timeEvent 0x7A e (w32 (min 0xFFFFFFFF l))).actAfter e 4
    | _ => (s2.timeEvent 0x79 e (w32 (min 0xFFFFFFFF l))).actAfter e 5

/-- ACTION_PUSH (R344): a due PUSH commits a one-word packet. -/
def execActionPush (entry : Nat) (s : State) : Host.Outcome State Fault Refusal :=
  .next (s.actRun entry 2 fun s =>
    let h := s.reg (R.TIME_ACT_TARGET entry)
    (s.pushEvent timeReq h [s.reg (R.TIME_ACT_VALUE entry)], if s.hasRoom h 1 then 2 else 6))

/-- A pin's level after an operation; a pulse leaves it as it was. -/
def pinAfter (pins : BitVec 4) (p op : Nat) : BitVec 4 :=
  let b : BitVec 4 := BitVec.ofNat 4 (2 ^ p)
  match op with
  | 0 => pins &&& ~~~b
  | 1 => pins ||| b
  | 2 => pins ^^^ b
  | _ => pins

/-- The operations that have come by a TCLK, earliest first and at one TCLK in the order of their entries. -/
def pinsDue (ops : List (Nat × Nat × Nat)) (k : Nat) : List (Nat × Nat × Nat) :=
  (ops.filter fun o => decide (o.1 ≤ k)).mergeSort fun a b => decide (a.1 ≤ b.1)

/-- The levels of TIME_OUT `k` TCLK after the last boundary: what the operations up to then leave, and a pulse high for its 8
TCLK (R344). -/
def State.timeOut (s : State) (k : Nat) : BitVec 4 :=
  let due := pinsDue s.time.pinRun (s.tclk + k)
  due.foldl (fun l o => if o.2.2 = 3 ∧ s.tclk + k < o.1 + 8 then l ||| BitVec.ofNat 4 (2 ^ o.2.1) else l)
    (due.foldl (fun l o => pinAfter l o.2.1 o.2.2) s.time.pins)

/-- ACTION_PIN (R344): a due PIN drives TIME_OUT at its TCLK of Stitch B. -/
def execActionPin (entry : Nat) (s : State) : Host.Outcome State Fault Refusal :=
  .next (s.actRun entry 3 fun s =>
    let v := s.reg (R.TIME_ACT_VALUE entry)
    let p := getBits (s.reg (R.TIME_ACT_TARGET entry)) 1 0
    let op := getBits v 1 0
    ({ s with time := { s.time with
        pinOps := s.time.pinOps ++ [(p, getBits v 26 16, op)] } }, 2))

/-- A write of TIME_ACT CTRL: POLICY, TB and KIND take the written values; ARM and CANCEL act at the next boundary. -/
def State.writeActCtrl (s : State) (e : Nat) (val : Word) : State :=
  let a := R.TIME_ACT_CTRL e
  let s1 := s.setReg a ((s.reg a &&& 0x80000000) ||| (val &&& 0x8000037F))
  let s2 := if val.msb then s1.addCmd a 0x80000000 else s1
  if val.getLsbD 30 then { s2 with time := { s2.time with cancels := s2.time.cancels ++ [e] } } else s2

/-- An ARM that takes effect at a boundary (R341, R344). -/
def State.armAct (s : State) (e : Nat) : State :=
  let k := s.fld (F.TIME_ACT_CTRL_KIND e)
  if k = 0 ∨ 3 < k ∨ 4 < s.fld (F.TIME_ACT_CTRL_TB e) then s.disarm e 7
  else
    let s1 := s.setFld (F.TIME_ACT_STATUS_STATE e) 1
    { s1 with time := { s1.time with armed := sset none s1.time.armed e (some s.now) } }

/-- ACT_ARM (R341): a write of CTRL with ARM. -/
def execActArm (src : Source) (entry : Nat) (val : Word) (s : State) : Host.Outcome State Fault Refusal :=
  .next (s.gate src (R.TIME_ACT_CTRL entry) (val ||| 0x80000000) fun s => s.writeActCtrl entry (val ||| 0x80000000))

/-- ACT_CANCEL (R345): a write of CTRL with CANCEL; an entry due at that boundary does not run. -/
def execActCancel (src : Source) (entry : Nat) (val : Word) (s : State) : Host.Outcome State Fault Refusal :=
  .next (s.gate src (R.TIME_ACT_CTRL entry) (val ||| 0x40000000) fun s => s.writeActCtrl entry (val ||| 0x40000000))

/-! ## The boundary -/

/-- The bases move on by the ended Stitch of `n` TCLK, and TIME_OUT stands as the Stitch left it. -/
def State.timeAdvance (s : State) (n : Nat) : State :=
  { s with time := { s.time with
      pins := (pinsDue s.time.pinRun (s.tclk + n - 1)).foldl (fun l o => pinAfter l o.2.1 o.2.2) s.time.pins
      pinRun := s.time.pinRun.filter fun o => o.2.2 == 3 && decide (s.tclk + n < o.1 + 8)
      tb := (List.range 4).map fun b => s.time.tb.getD b 0 + advance (s.time.adj.getD b 0) n } }

/-- The time block at a boundary, after the bases have moved on: cancels, the servo, new rates and machine time. -/
def State.timeBoundary (s : State) (selWritten : Bool) : State :=
  let s0 := s.time.cancels.foldl (fun s e => if (sget none s.time.armed e).isSome then s.disarm e 0 else s) s
  let s1 := { s0 with time := { s0.time with
    cancels := [], ran := [], runs := 0, pinOps := []
    pinRun := s0.time.pinRun ++ s0.time.pinOps.map fun (o : Nat × Nat × Nat) => (s0.tclk + min (s0.period - 1) o.2.1, o.1, o.2.2) } }
  let s2 := (s1.domBoundary 0).domBoundary 1
  let a0 := s2.time.adj0.getD (s2.time.adj.getD 0 0)
  let s3 := { s2 with time := { s2.time with adj0 := none, adj := [a0, s2.domRate 0, s2.domRate 1, s2.time.adj.getD 3 0] } }
  let s4 := s3.setFld F.TIME_REF_STATUS_ADJ (unsigned 30 (a0.fdiv 4))
  (s4.machineSelect selWritten).machineTime

end Sys2Proof.Machine
end

