-- ==== Sys2Proof/Machine/Guard.lean ====
section
/-! DEFINITION. The one guarded request of the device and its keeper window (R415 to R418). What a grant does stands in
Machine/Secure.lean. -/

namespace Sys2Proof.Machine

/-- The state with the security block changed. -/
def State.onSec (s : State) (f : Sec → Sec) : State := { s with sec := f s.sec }

/-- An event packet of the security block (R435). -/
def State.secEvent (s : State) (code low : Nat) : State :=
  s.pushEvent 256 (s.reg R.SEC_EVQ) [w32 (code * 2 ^ 24 + low), 0, s.stitchLo]

/-- Whether a guarded request is pending, or granted for the next boundary. -/
def State.guardPending (s : State) : Bool := s.sec.request.isSome || s.sec.granted.isSome

/-- A guarded write or command: staged when no other is pending, BUSY otherwise (R416). -/
def State.guardRequest (s : State) (op addr : Nat) (val : Word) : State :=
  if s.guardPending then s.setFld F.SEC_GUARD_RESULT 3
  else
    ((((s.onSec fun x => { x with request := some ⟨op, addr, val, s.tbAt 0 0⟩ }).setFld F.SEC_GUARD_PENDING 1).setFld
      F.SEC_GUARD_OP op).setFld F.SEC_GUARD_RESULT 0).setFld F.SEC_GUARD_LEFT (s.fld F.SEC_KEEPER_SECONDS)

/-- The command registers whose START or UNLOCK a request keeps set. SEC_IMG_CMD is not one of them: its port is released
when its verification ends. -/
def State.guardStartOff (s : State) (a : Nat) : State :=
  if a = R.SEC_KEY_CMD ∨ a = R.CAL_CMD ∨ a = R.SEC_DEBUG then s.setReg a (s.reg a &&& 0x7FFFFFFF) else s

/-- The request ends with a RESULT. -/
def State.guardEnds (s : State) (result : Nat) : State :=
  let s1 := match s.sec.request with
    | some q => s.guardStartOff q.addr
    | none => s
  (((s1.onSec fun x => { x with request := none, granted := none }).setFld F.SEC_GUARD_PENDING 0).setFld
    F.SEC_GUARD_LEFT 0).setFld F.SEC_GUARD_RESULT result

/-- CANCEL (R416): a pending request ends with CANCELLED. -/
def State.guardCancel (s : State) : State := if s.sec.request.isSome then s.guardEnds 4 else s

/-- GUARD_CANCEL (R416): a write of SEC_GUARD.CANCEL. -/
def execGuardCancel (s : State) : Host.Outcome State Fault Refusal := .next s.guardCancel

/-- Whole seconds of TB0 since a request started. -/
def State.guardElapsed (s : State) (q : Guarded) : Nat := ((s.tbAt 0 0 - q.since).fdiv oneSec).toNat

/-- LEFT at a boundary (R418). -/
def State.guardBoundary (s : State) : State :=
  match s.sec.request with
  | some q => s.setFld F.SEC_GUARD_LEFT (s.fld F.SEC_KEEPER_SECONDS - s.guardElapsed q)
  | none => s

/-- PRESENCE_QUALIFIED (R417): PRESENT_N has been low for 20 ms; the request is granted at the next boundary when the press
began after it started. -/
def execPresenceQualified (pressAfterStart : Bool) (s : State) : Host.Outcome State Fault Refusal :=
  .next (
    let s1 := s.setFld F.SEC_STATE_PRESENT 1
    match s1.sec.request with
    | some q =>
      if pressAfterStart ∧ s1.guardElapsed q < s1.fld F.SEC_KEEPER_SECONDS then
        s1.onSec fun x => { x with request := none, granted := some q }
      else s1
    | none => s1)

/-- PRESENCE_TIMEOUT (R418): the keeper window ends without a grant. -/
def execPresenceTimeout (s : State) : Host.Outcome State Fault Refusal :=
  .next (
    match s.sec.request with
    | some q =>
      if s.fld F.SEC_KEEPER_SECONDS ≤ s.guardElapsed q then (s.guardEnds 2).secEvent 0xE1 (q.op * 2 ^ 16) else s
    | none => s)

end Sys2Proof.Machine
end

