-- ==== Sys2Proof/Machine/Thermal.lean ====
section
/-! DEFINITION. The thermal block (R392 to R399): samples, bands, throttle steps and the over-temperature shut-down. -/

namespace Sys2Proof.Machine

/-- An event packet of the thermal block (R411). -/
def State.thrmEvent (s : State) (code low : Nat) (w1 : Nat) : State :=
  s.pushEvent 256 (s.reg R.THRM_EVQ) [w32 (code * 2 ^ 24 + low), w32 w1, s.stitchLo]

/-- Number of sensors (R392). -/
def sensorCount : Nat := 28

/-- Whether a sensor is on the die; such a one is always enabled (R392). -/
def onDie (k : Nat) : Bool := decide (16 ≤ k)

/-- Whether a sensor is measured. -/
def State.sensorOn (s : State) (k : Nat) : Bool := decide (k < sensorCount) && (onDie k || s.flag (F.THRM_SENSOR_CFG_ENABLE k))

/-- Whether a sensor has been sampled since the reset. -/
def State.sensorRead (s : State) (k : Nat) : Bool := sget 0 s.therm.at_ k != 0

/-- A sensor's last reading. -/
def State.reading (s : State) (k : Nat) : Nat := s.fld (F.THRM_SENSOR_VALUE_READING k)

/-- The code that bands, steps and shut-down judge a sensor by; none when it is left out (R394). -/
def State.judged (s : State) (k : Nat) : Option Nat :=
  if !s.sensorOn k then none
  else if s.flag (F.THRM_SENSOR_VALUE_FAULT k) then
    if s.flag (F.THRM_SENSOR_CFG_FAULT_HOT k) then some (s.fld (F.THRM_SENSOR_LIMIT_SHUT k)) else none
  else some (s.reading k)

/-- The threshold of band `b`, 1 to 3. -/
def State.bandTh (s : State) (k b : Nat) : Nat :=
  if b = 1 then s.fld (F.THRM_SENSOR_BANDS_NORMAL k)
  else if b = 2 then s.fld (F.THRM_SENSOR_BANDS_WARM k)
  else s.fld (F.THRM_SENSOR_HOT_HOT k)

/-- The highest band up to `b` whose threshold a reading meets. -/
def State.bandUp (s : State) (k r : Nat) : Nat → Nat
  | 0 => 0
  | b + 1 => if s.bandTh k (b + 1) ≤ r then b + 1 else State.bandUp s k r b

/-- The band that a reading in band `b` falls to: it leaves each band whose threshold less HYST it is below. -/
def State.bandFall (s : State) (k r : Nat) : Nat → Nat
  | 0 => 0
  | b + 1 =>
    if r + s.fld (F.THRM_SENSOR_CFG_HYST k) < s.bandTh k (b + 1) then State.bandFall s k r b else b + 1

/-- A sensor's band after a reading (R395). -/
def State.bandAfter (s : State) (k r old : Nat) : Nat :=
  let up := s.bandUp k r 3
  if old < up then up else s.bandFall k r old

/-- The limits of a sensor (R393). -/
def State.sensorLimits (s : State) (k : Nat) : List Nat :=
  let steps := (List.range 8).filter fun j => natBit (s.fld (F.THRM_STEP_GROUP_SENSORS j)) k
  ([s.bandTh k 1, s.bandTh k 2, s.bandTh k 3, s.fld (F.THRM_SENSOR_LIMIT_SHUT k)]
    ++ steps.map fun j => s.fld (F.THRM_STEP_CTRL_ONSET j)).filter fun c => c != 0

/-- Microseconds to the next sample (R393); 20 codes are 1 K (R6). -/
def State.nextSample (s : State) (k r : Nat) : Nat :=
  let near := (s.sensorLimits k).foldl (fun d c => min d (max (c - r) (r - c))) 65536
  if 100 ≤ near then 10000 else if 40 ≤ near then 1000 else 250

/-- The over-temperature judgement of a sample taken at TCLK `tick` of the Stitch (R399). -/
def State.judgeHot (s : State) (k tick : Nat) : State :=
  let shut := s.fld (F.THRM_SENSOR_LIMIT_SHUT k)
  let need := s.fld (F.THRM_SENSOR_LIMIT_SHUT_N k)
  let n := match s.judged k with
    | some r => if shut ≠ 0 ∧ shut ≤ r then sget 0 s.therm.hot k + 1 else 0
    | none => 0
  let s1 := { s with therm := { s.therm with hot := sset 0 s.therm.hot k n } }
  if need ≠ 0 ∧ n ≠ 0 ∧ need ≤ n ∧ !s1.latched then
    let s2 := (s1.setLatch tick).setReg R.THRM_SHUT_CAUSE (w32 (2 ^ 31 + k * 2 ^ 16 + s1.reading k))
    s2.thrmEvent 0xB4 (k * 2 ^ 8) (s2.reading k)
  else s1

/-- Whether a sensor's input is a fault (R394): a diode outside 0.25 to 0.95 V, in mV; a thermistor above 98 % or below 2 % of
VREFX, in thousandths of it. -/
def inputFaulted (k input : Nat) : Bool :=
  if k < 8 then decide (input < 250) || decide (950 < input)
  else if k < 16 then decide (input < 20) || decide (980 < input)
  else false

/-- SENSOR_SAMPLE (R393 to R395, R399): a sensor is sampled. `input` is the level at its input and
`reading` the temperature code that its MODEL gives of the measurement (R392). -/
def execSensorSample (sensor reading : Nat) (input : Timed Nat) (s : State) : Host.Outcome State Fault Refusal :=
  .next (
    if !s.sensorOn sensor then s
    else
      let faulted := inputFaulted sensor input.what
      let code := if faulted then 0 else reading % 65536
      let was := s.flag (F.THRM_SENSOR_VALUE_FAULT sensor)
      let s1 := (s.setFld (F.THRM_SENSOR_VALUE_READING sensor) code).setFld (F.THRM_SENSOR_VALUE_FAULT sensor) (bitNat faulted)
      let s2 := if faulted && !was then s1.thrmEvent 0xB3 (sensor * 2 ^ 8) code else s1
      let s3 := match s2.judged sensor with
        | some r => s2.setFld (F.THRM_SENSOR_VALUE_BAND sensor) (s2.bandAfter sensor r (s2.fld (F.THRM_SENSOR_VALUE_BAND sensor)))
        | none => s2
      let s4 := { s3 with therm := { s3.therm with
        at_ := sset 0 s3.therm.at_ sensor (s3.tclk + 1), next := sset 10000 s3.therm.next sensor (s3.nextSample sensor code) } }
      s4.judgeHot sensor input.tick)

/-- AGE of a sensor's VALUE: milliseconds since its sample, saturating; 0 before the first. -/
def State.sensorAge (s : State) (k : Nat) : Nat :=
  let v := sget 0 s.therm.at_ k
  if v = 0 then 0 else min 4095 ((s.tclk + 1 - v) / 320000)

/-! ## Band groups (R396) -/

/-- Bands and readings of the sensors in a group that the last boundary found neither off nor left out. -/
def State.groupBands (s : State) (g : Nat) : List (Nat × Nat) :=
  ((List.range sensorCount).filter fun k => natBit (s.fld (F.THRM_BAND_GROUP_MASK g)) k).filterMap fun k => sget none s.therm.bands k

/-- The band a group reports: the highest, and normal for a group with none. -/
def State.groupBand (s : State) (g : Nat) : Nat :=
  let l := s.groupBands g
  if l = [] then 1 else (l.map fun p => p.1).foldl max 0

/-- BAND_CHANGED (R396): a group reports the band that the boundary found, with the highest reading in it; a DRAM channel's refresh
rate and timing set (R290) and the lanes' entries (R322) follow. -/
def execBandChanged (grp : Nat) (s : State) : Host.Outcome State Fault Refusal :=
  .next (
    let b := s.groupBand grp
    if 5 ≤ grp ∨ b = s.fld (F.THRM_BAND_GROUP_BAND grp) then s
    else
      let s1 := (s.setFld (F.THRM_BAND_GROUP_BAND grp) b).thrmEvent 0xB0 (grp * 2 ^ 16 + b)
        (((s.groupBands grp).map fun p => p.2).foldl max 0)
      if grp < 2 then (if grp < s1.part.row.chans then s1.dramBand grp b else s1)
      else if grp = 2 then s1.laneList.foldl (fun (t : State) k => t.laneBand k) s1
      else s1)

/-! ## Throttle steps (R397) -/

/-- The codes of the sensors in a step's group. -/
def State.stepCodes (s : State) (j : Nat) : List Nat :=
  ((List.range sensorCount).filter fun k => natBit (s.fld (F.THRM_STEP_GROUP_SENSORS j)) k).filterMap fun k => s.judged k

/-- Whether an idle step engages. -/
def State.stepHot (s : State) (j : Nat) : Bool :=
  let onset := s.fld (F.THRM_STEP_CTRL_ONSET j)
  onset != 0 && (s.stepCodes j).any fun r => decide (onset ≤ r)

/-- Whether an engaged step releases. -/
def State.stepCool (s : State) (j : Nat) : Bool :=
  let onset := s.fld (F.THRM_STEP_CTRL_ONSET j)
  onset == 0 || (s.stepCodes j).all fun r => decide (r + s.fld (F.THRM_STEP_CTRL_HYST j) < onset)

/-! ## Clock gating (R398) -/

/-- Whether a GATE step is engaged. -/
def State.gateOn (s : State) : Bool :=
  (List.range 8).any fun j => s.flag (F.THRM_STEP_CTRL_ENGAGED j) && s.fld (F.THRM_STEP_CTRL_ACTION j) == 3

/-- The units that a GATE step stops: lanes in DOWN or FAILED, and imaging pipes with no slot or bed source enabled. -/
def State.idleUnits (s : State) : List (Nat × Nat) :=
  ((s.laneList.filter fun k => s.laneState k == laneDown || s.laneState k == laneFailed).map fun k => (5, k))
    ++ (s.pipeList.filter fun p => !(List.range 5).any fun i => s.camOn p i).map fun p => (3, p)

/-- Clocks stopped and started as the engaged steps ask. -/
def State.gateClocks (s : State) : State :=
  { s with therm := { s.therm with stopped := if s.gateOn then s.idleUnits else [] } }

/-- Whether a unit's clock is stopped. -/
def State.clockStopped (s : State) (code unit : Nat) : Bool :=
  s.therm.stopped.contains (code, unit) && s.idleUnits.contains (code, unit)

/-- The reading that an event of a step carries: the highest in its group. -/
def State.stepReading (s : State) (j : Nat) : Nat := (s.stepCodes j).foldl max 0

/-- STEP_ON (R397): a throttle step engages; a GATE step stops clocks (R398). -/
def execStepOn (step : Nat) (s : State) : Host.Outcome State Fault Refusal :=
  .next (
    if 8 ≤ step ∨ s.flag (F.THRM_STEP_CTRL_ENGAGED step) ∨ !s.stepHot step then s
    else ((s.setFld (F.THRM_STEP_CTRL_ENGAGED step) 1).thrmEvent 0xB1 step (s.stepReading step)).gateClocks)

/-- STEP_OFF (R397): a throttle step releases; without a GATE step every clock runs (R398). -/
def execStepOff (step : Nat) (s : State) : Host.Outcome State Fault Refusal :=
  .next (
    if 8 ≤ step ∨ !s.flag (F.THRM_STEP_CTRL_ENGAGED step) ∨ !s.stepCool step then s
    else ((s.setFld (F.THRM_STEP_CTRL_ENGAGED step) 0).thrmEvent 0xB2 step (s.stepReading step)).gateClocks)

/-- The lowest CEIL among the engaged steps of an action that name a unit, at most `top`. -/
def State.ceilOf (s : State) (action top : Nat) (unit : Option Nat) : Nat :=
  ((List.range 8).filter fun j =>
    s.flag (F.THRM_STEP_CTRL_ENGAGED j) && s.fld (F.THRM_STEP_CTRL_ACTION j) == action
      && (match unit with | some k => natBit (s.fld (F.THRM_STEP_SLOTS_UNITS j)) k | none => true)).foldl
    (fun c j => min c (s.fld (F.THRM_STEP_CEIL_CEIL j) % (top + 1))) top

/-- The thermal block at a boundary: the ceilings in force, and the readings and bands the consumers take (R393, R396, R397). -/
def State.thrmBoundary (s : State) : State :=
  let s1 := s.setFld F.LAMP_THR_CEIL_CODE (s.ceilOf 0 0xFFF none)
  let s2 := (List.range s1.part.row.axes).foldl
    (fun (t : State) x => t.setFld (F.AXIS_THR_CEIL_CODE x) (s1.ceilOf 1 0xFFF (some x))) s1
  let s3 := (List.range s2.part.row.lasers).foldl
    (fun (t : State) k => t.setFld (F.REIN_THR_CEIL_CODE k) (s2.ceilOf 2 0xFFFF (some k))) s2
  { s3 with therm := { s3.therm with
    seen := (List.range sensorCount).foldl (fun m k => sset 0 m k (s3.reading k)) s3.therm.seen
    bands := (List.range sensorCount).foldl (fun m k =>
      sset none m k ((s3.judged k).map fun r => (s3.fld (F.THRM_SENSOR_VALUE_BAND k), r))) s3.therm.bands } }

end Sys2Proof.Machine
end

