-- ==== Sys2Proof/Machine/Calib.lean ====
section
/-! DEFINITION. The calibration engine (R400 to R405): its queue, the check of a result, the walk to it and the records. -/

namespace Sys2Proof.Machine

/-- The state with the calibration engine changed. -/
def State.onCal (s : State) (f : Cal → Cal) : State := { s with cal := f s.cal }

/-- Units of an item (R400). -/
def State.calUnits (s : State) (item : Nat) : List Nat :=
  match item with
  | 1 => List.range 9
  | 2 => s.laneList
  | 3 => List.range s.part.row.chans
  | 4 => List.range s.part.row.lamps
  | 5 => List.range s.part.row.lasers
  | _ => []

/-- Whether an instance's unit is in the state the item needs. -/
def State.calReady (s : State) (item unit : Nat) : Bool :=
  match item with
  | 2 => s.laneState unit == laneReady
  | 3 => s.dmcUp unit
  | 5 => s.laneState unit == laneReady
  | _ => true

/-- The item's temperature code. -/
def State.calTemp (s : State) (item : Nat) : Nat := s.reading (s.fld (F.CAL_ITEM_SENSOR (item - 1)))

/-- A result in its item's format. -/
def calWord (item : Nat) (v : CalVal) : Word :=
  if item = calGate then w32 (unsigned 16 v.b * 2 ^ 16 + unsigned 16 v.a) else Config.calFormat item v.a v.b

/-- An event packet of the calibration engine (R411). -/
def State.calEvent (s : State) (code result : Nat) (item unit : Nat) (w1 : Word) : State :=
  s.pushEvent 256 (s.reg R.CAL_EVQ) [w32 (code * 2 ^ 24 + item * 2 ^ 16 + unit * 2 ^ 8 + result), w1, s.stitchLo]

/-- CAL_STATUS brought up to date. -/
def State.calShow (s : State) : State :=
  let s1 := s.setFld F.CAL_STATUS_QUEUED (min 255 s.cal.queue.length)
  match s.cal.running with
  | some e => ((s1.setFld F.CAL_STATUS_BUSY 1).setFld F.CAL_STATUS_ITEM e.item).setFld F.CAL_STATUS_INSTANCE e.unit
  | none => ((s1.setFld F.CAL_STATUS_BUSY 0).setFld F.CAL_STATUS_ITEM 0).setFld F.CAL_STATUS_INSTANCE 0

/-- An instance queued, unless it is already (R401). -/
def State.calQueue (s : State) (trigger item unit : Nat) : State :=
  if s.cal.queue.any fun e => e.item == item && e.unit == unit then s
  else (s.onCal fun c => { c with queue := c.queue ++ [⟨trigger, item, unit⟩] }).calShow

/-- Every instance of an item, or one of them. -/
def State.calQueueAll (s : State) (trigger item : Nat) (unit : Option Nat) : State :=
  ((s.calUnits item).filter fun k => unit = none || unit = some k).foldl (fun (t : State) k => t.calQueue trigger item k) s

/-- The boot trigger (R401). -/
def State.calBoot (s : State) : State := [1, 2, 3, 4, 5].foldl (fun (t : State) i => t.calQueueAll 0 i none) s

/-- The drift trigger of an instance (R401). -/
def State.calDrift (s : State) (item unit : Nat) : State :=
  let dt := s.fld (F.CAL_ITEM_DT (item - 1))
  let now := s.calTemp item
  match sget none s.cal.lastTemp (calKey item unit) with
  | some t => if dt ≠ 0 ∧ s.sensorRead (s.fld (F.CAL_ITEM_SENSOR (item - 1))) ∧ dt < max (now - t) (t - now) then s.calQueue 2 item unit else s
  | none => s

/-- Whether one entry runs before another: boot, then command, then drift, each by item and unit (R401). -/
def CalEntry.before (a b : CalEntry) : Bool := decide (a.trigger * 2 ^ 16 + a.item * 2 ^ 8 + a.unit < b.trigger * 2 ^ 16 + b.item * 2 ^ 8 + b.unit)

/-- The entry that runs next. -/
def firstEntry : List CalEntry → Option CalEntry
  | [] => none
  | e :: l => match firstEntry l with
    | none => some e
    | some f => if e.before f then some e else some f

/-- The running entry ends. -/
def State.calEnds (s : State) : State := (s.onCal fun c => { c with running := none, goal := none }).calShow

/-- An instance ends as SKIPPED (R401). -/
def State.calSkip (s : State) (e : CalEntry) : State :=
  s.calEvent 0xC2 4 e.item e.unit (calWord e.item (s.calNow e.item e.unit))

/-- CAL_INSTANCE_START (R401): the engine starts the next queued instance; one whose unit is not in its state is
skipped. -/
def execCalInstanceStart (s : State) : Host.Outcome State Fault Refusal :=
  .next (
    match s.cal.running, firstEntry s.cal.queue with
    | none, some e =>
      let s1 := s.onCal fun c => { c with queue := c.queue.erase e }
      if s1.calReady e.item e.unit then
        (s1.onCal fun c => { c with running := some e, goal := none, reports := (0, 0, 0) }).calShow
      else (s1.calSkip e).calShow
    | _, _ => s)

/-- Whether a result lies within its item's absolute limits (R400). Gains are departures from 1 in 2^-16. -/
def calWithin (item : Nat) (v : CalVal) (run : Nat) : Bool :=
  match item with
  | 1 => decide (v.a.natAbs ≤ 512) && decide (v.b.natAbs ≤ 3276)
  | 2 => decide (16 ≤ run)
  | 3 => decide (12 ≤ run)
  | 4 => decide (v.a.natAbs ≤ 64) && decide (v.b.natAbs ≤ 3932)
  | _ => decide (v.a.natAbs ≤ 256) && decide (v.b.natAbs ≤ 256)

/-- What a result is judged: 0 accepted, 1 LIMIT, 2 MAXCHG, 3 REF_MISSING (R402, R404). -/
def State.calJudge (s : State) (e : CalEntry) (v : CalVal) (run : Nat) (vrefOk : Bool) : Nat :=
  let now := s.calNow e.item e.unit
  let m := s.fld (F.CAL_ITEM_MAXCHG (e.item - 1))
  if !vrefOk then 3
  else if !calWithin e.item v run then 1
  else if m < (v.a - now.a).natAbs ∨ m < (v.b - now.b).natAbs then 2
  else 0

/-- The temperature of an instance's last run. -/
def State.calMark (s : State) (e : CalEntry) : State :=
  s.onCal fun c => { c with lastTemp := sset none c.lastTemp (calKey e.item e.unit) (some (s.calTemp e.item)) }

/-- The trims that 256 gate-response reports give: their means, less DLY_ON and DLY_OFF (R400). -/
def State.gateMeans (s : State) (slot : Nat) : CalVal :=
  ⟨s.freeDiv 30 s.cal.reports.2.1 256 - s.fld (F.AWL_GATE_DLY_ON slot), s.freeDiv 31 s.cal.reports.2.2 256 - s.fld (F.AWL_GATE_DLY_OFF slot)⟩

/-- CAL_RESULT_FOUND (R402): a run finds its result: `result` and `gain` its codes, `run` the open run of taps, `vrefOk`
whether VREFX lies within its window. A GATE_TAP run has its result when it has gathered 256 reports. A run that fails
either check counts for the drift trigger. -/
def execCalResultFound (result gain : Int) (run : Nat) (vrefOk : Bool) (s0 : State) : Host.Outcome State Fault Refusal :=
  .next (
    match s0.cal.running, s0.cal.goal with
    | some e, none =>
      if e.item = calGate ∧ s0.cal.reports.1 < 256 then s0
      else
      let s := if e.item = calGate then s0.tookFree else s0
      let v : CalVal := if e.item = calGate then s0.gateMeans e.unit else ⟨result, if e.item = 2 ∨ e.item = 3 then 0 else gain⟩
      let r := s.calJudge e v run vrefOk
      if r = 0 then s.onCal fun c => { c with goal := some v }
      else ((if r = 3 then s else s.calMark e).calEvent 0xC1 r e.item e.unit (calWord e.item (s.calNow e.item e.unit))).calEnds
    | _, _ => s0)

/-- The record of an accepted run (R404). -/
def State.calRecord (s : State) (item unit result : Nat) (w1 : Word) (ref : Nat → Nat) : List Word :=
  let b := if s.flag F.TIME_MT_STATUS_VALID then 3 else 0
  let t := s.time.tb.getD b 0
  [w32 (item * 2 ^ 24 + unit * 2 ^ 16 + result), w1, w32 (secOf t % 2 ^ 32), w32 (nsOf t),
    w32 (s.calTemp item + (if b = 3 then 2 ^ 16 else 0) + s.fld F.TIME_REF_STATUS_LOCKED * 2 ^ 17),
    s.reg (ref 0), s.reg (ref 1), s.reg (ref 2)]

/-- The walk ends: the record is written and CAL_DONE raised (R402, R404). -/
def State.calFinish (s : State) (e : CalEntry) : State :=
  let v := s.calNow e.item e.unit
  let w := calWord e.item v
  let key := calKey e.item e.unit
  let s1 := (s.calMark e).onCal fun c => { c with
    accepted := sset ⟨0, 0⟩ c.accepted key v
    recs := sset [] c.recs key (s.calRecord e.item e.unit 0 w fun i => R.CAL_REF_ID i) }
  (s1.calEvent 0xC0 0 e.item e.unit w).calEnds

/-- CAL_DONE (R402): the walk to an accepted result ends. -/
def execCalDone (s : State) : Host.Outcome State Fault Refusal :=
  .next (
    match s.cal.running, s.cal.goal with
    | some e, some g => if s.calNow e.item e.unit = g then s.calFinish e else s
    | _, _ => s)

/-- A firmware write to the gate trim of a slot ends its walk, and the written value stands (R403). -/
def State.calWritten (s : State) (slot : Nat) : State :=
  match s.cal.running, s.cal.goal with
  | some e, some _ => if e.item = calGate ∧ e.unit = slot then s.calFinish e else s
  | _, _ => s

/-- GATE_TAP_TIMEOUT (R400): a GATE_TAP instance has gathered fewer than 256 reports within 1 s. -/
def execGateTapTimeout (s : State) : Host.Outcome State Fault Refusal :=
  .next (
    match s.cal.running, s.cal.goal with
    | some e, none => if e.item = calGate ∧ s.cal.reports.1 < 256 then (s.calSkip e).calEnds else s
    | _, _ => s)

/-- The running instance of a restarted unit ends as SKIPPED (R401). -/
def State.calRestarted (s : State) (item unit : Nat) : State :=
  match s.cal.running with
  | some e => if e.item = item ∧ e.unit = unit then (s.calSkip e).calEnds else s
  | none => s

/-! ## Commands -/

/-- A write of CAL_CMD (R401, R405): GEO_COMMIT is guarded; RUN waits for the next boundary. -/
def State.writeCalCmd (s : State) (val : Word) : State :=
  let a := R.CAL_CMD
  let kept := val &&& 0x300F003F
  if !val.msb then s.setReg a ((s.reg a &&& 0x80000000) ||| kept)
  else if getBits val 29 28 = 1 then
    if s.guardPending then s.guardRequest 5 a val else (s.setReg a (kept ||| 0x80000000)).guardRequest 5 a val
  else s.setReg a (kept ||| 0x80000000)

/-- CAL_RUN (R401): a write of CAL_CMD with RUN. -/
def execCalRun (src : Source) (val : Word) (s : State) : Host.Outcome State Fault Refusal :=
  .next (s.gate src R.CAL_CMD ((val &&& 0x000F003F) ||| 0x80000000) fun s => s.writeCalCmd ((val &&& 0x000F003F) ||| 0x80000000))

/-- GEO_COMMIT (R405): a write of CAL_CMD with GEO_COMMIT. -/
def execGeoCommit (src : Source) (val : Word) (s : State) : Host.Outcome State Fault Refusal :=
  .next (s.gate src R.CAL_CMD ((val &&& 0x000F003F) ||| 0x90000000) fun s => s.writeCalCmd ((val &&& 0x000F003F) ||| 0x90000000))

/-- A granted GEO_COMMIT: the CRC of the slot's idle grid goes into a record for item 6 (R405). -/
def State.geoCommit (s : State) (slot : Nat) : State :=
  let idle := if (s.awl slot).corrSel then s.reg (R.AWL_CORR_A slot) else s.reg (R.AWL_CORR_B slot)
  match s.namedBuffer idle with
  | none => s
  | some key =>
    let n := (s.stream key).size / 4
    let crc := crc32c (bytesOfWords ((s.bufWords key 0 n).map fun w => w.val))
    (s.useBuf idle n).onCal fun c => { c with
      recs := sset [] c.recs (calKey 6 slot) (s.calRecord 6 slot 0 (w32 crc.toNat) fun i => R.CAL_PLATE_ID i) }

/-- The calibration engine at a boundary: a RUN written before it, the drift triggers, and the taps of the items that step
at boundaries. -/
def State.calBoundary (s : State) : State :=
  let cmd := s.reg R.CAL_CMD
  let s1 := if cmd.msb ∧ getBits cmd 29 28 = 0 then
      let unit := getBits cmd 5 0
      (s.setReg R.CAL_CMD (cmd &&& 0x7FFFFFFF)).calQueueAll 1 (getBits cmd 19 16) (if unit = 63 then none else some unit)
    else if cmd.msb ∧ !s.guardPending then s.setReg R.CAL_CMD (cmd &&& 0x7FFFFFFF)
    else s
  let s2 := [1, 2, 3, 4, 5].foldl (fun (t : State) i => (t.calUnits i).foldl (fun (u : State) k => u.calDrift i k) t) s1
  s2.calTap [1, 2, 5] none

/-- The results of the records put in force at boot (R404). -/
def State.calLoad (s : State) : State :=
  let s1 := s.onCal fun c => { c with inForce := c.accepted.filter fun e => decide (e.1 < calGate * 64) }
  (List.range s1.part.row.lasers).foldl (fun (t : State) k =>
    if (sget [] t.cal.recs (calKey calGate k)) = [] then t
    else t.setCal calGate k (sget ⟨0, 0⟩ t.cal.accepted (calKey calGate k))) s1

end Sys2Proof.Machine
end

