-- ==== Sys2Proof/Machine/Fbus.lean ====
section
/-! DEFINITION. The field bus (R347 to R357): segments, node tables, Cinches, their frames and the stranger queue. Frames
are byte lists from the destination address up to the padding, without FCS. -/

namespace Sys2Proof.Machine

/-- The requester of FB0 and FB1 (R269). -/
def fbReq (g : Nat) : Nat := 234 + g

/-- A segment. -/
def State.seg (s : State) (g : Nat) : Segment := sget Segment.atReset s.segs g

/-- The state with a segment replaced. -/
def State.setSeg (s : State) (g : Nat) (x : Segment) : State := { s with segs := sset Segment.atReset s.segs g x }

/-- Whether a segment takes part: enabled and under no restart (R387). -/
def State.segRuns (s : State) (g : Nat) : Bool := s.flag (F.FBUS_SEG_CFG_ENABLE g) && !s.restarting 0xB g

/-- Whether a segment is enabled. -/
def State.segOn (s : State) (g : Nat) : Bool := s.flag (F.FBUS_SEG_CFG_ENABLE g)

/-- RESULT of a segment (R348, R349, R355). -/
def State.segResult (s : State) (g r : Nat) : State := s.setFld (F.FBUS_SEG_STATUS_RESULT g) r

/-- An event packet of the field bus (R357). -/
def State.fbEvent (s : State) (g code node : Nat) : State :=
  s.pushEvent (fbReq g) (s.reg R.FBUS_EVQ) [w32 (code * 2 ^ 24 + g * 2 ^ 16 + node), w32 (s.seg g).cinch, s.stitchLo]

/-- The two bytes of a number, low byte first. -/
def leHalf (n : Nat) : List Byte := [BitVec.ofNat 8 n, BitVec.ofNat 8 (n / 256)]

/-- A number from two bytes of a frame, low byte first. -/
def halfAt (f : List Byte) (i : Nat) : Nat := (f.getD i 0).toNat + 256 * (f.getD (i + 1) 0).toNat

/-- Six address bytes from a pair of registers, first byte in bits [7:0] of the low one. -/
def macBytes (lo hi : Word) : List Byte := (bytesOfWords [lo, hi]).take 6

/-- A frame filled with zeros to 60 bytes: 64 with its FCS (R350). -/
def padFrame (f : List Byte) : List Byte := f ++ List.replicate (60 - f.length) 0

/-- A Cinch frame: addresses, EtherType 0x88B5, header and body (R350). -/
def cinchFrame (dst src : List Byte) (type cinch node flags words : Nat) (body : List Byte) : List Byte :=
  padFrame (dst ++ src ++ [0x88, 0xB5, 0x01, BitVec.ofNat 8 type] ++ leHalf cinch ++
    [BitVec.ofNat 8 node, BitVec.ofNat 8 flags] ++ leHalf words ++ body)

/-! ## Node entries (R348) -/

/-- Entry `k` of a segment is enabled, as it reads. -/
def State.nodeOn (s : State) (g k : Nat) : Bool := s.flag (F.FBUS_NODE_MAC_HI_ENABLE g k)

/-- IN_WORDS. -/
def State.inWords (s : State) (g k : Nat) : Nat := s.fld (F.FBUS_NODE_IN_WORDS g k)

/-- OUT_WORDS. -/
def State.outWords (s : State) (g k : Nat) : Nat := s.fld (F.FBUS_NODE_OUT_WORDS g k)

/-- The point count (R348). -/
def State.pointCount (s : State) : Nat := min 131072 (s.bufSize (s.reg R.FBUS_POINTS) / 4)

/-- Whether two ranges of points overlap; a range of 0 words overlaps nothing. -/
def rangesMeet (b1 n1 b2 n2 : Nat) : Bool := decide (b1 < b2 + n2) && decide (b2 < b1 + n1) && n1 != 0 && n2 != 0

/-- Whether a node's IN range meets an enabled range of either segment, its own OUT range included, or one of its ranges
meets another's enabled IN range. -/
def State.nodeOverlap (s : State) (g k : Nat) : Bool :=
  let ib := s.fld (F.FBUS_NODE_IN_BASE g k)
  let iw := s.inWords g k
  let ob := s.fld (F.FBUS_NODE_OUT_BASE g k)
  let ow := s.outWords g k
  rangesMeet ib iw ob ow || [0, 1].any fun g' => (List.range 32).any fun k' =>
    s.nodeOn g' k' && !(g' == g && k' == k) &&
      (rangesMeet ib iw (s.fld (F.FBUS_NODE_IN_BASE g' k')) (s.inWords g' k')
        || rangesMeet ib iw (s.fld (F.FBUS_NODE_OUT_BASE g' k')) (s.outWords g' k')
        || rangesMeet ob ow (s.fld (F.FBUS_NODE_IN_BASE g' k')) (s.inWords g' k'))

/-- Whether an entry's enable is refused with RANGE. -/
def State.nodeRange (s : State) (g k : Nat) : Bool :=
  let n := s.pointCount
  decide (368 < s.inWords g k) || decide (368 < s.outWords g k)
    || (s.inWords g k != 0 && decide (n < s.fld (F.FBUS_NODE_IN_BASE g k) + s.inWords g k))
    || (s.outWords g k != 0 && decide (n < s.fld (F.FBUS_NODE_OUT_BASE g k) + s.outWords g k))
    || s.nodeOverlap g k

/-! ## OUT frames and the bus time (R350, R355) -/

/-- Records placed in frames in order, never split: each frame's list of nodes. A frame takes 1,484 bytes of records. -/
def packRecords (words : Nat → Nat) : List Nat → List Nat → Nat → List (List Nat)
  | [], cur, _ => [cur.reverse]
  | k :: ks, cur, used =>
    let n := 4 + 4 * words k
    if used + n ≤ 1484 then packRecords words ks (k :: cur) (used + n) else cur.reverse :: packRecords words ks [k] n

/-- The OUT frames' record lists for a set of nodes. -/
def State.outPlan (s : State) (g : Nat) (nodes : List Nat) : List (List Nat) :=
  packRecords (s.outWords g) (nodes.filter fun k => s.outWords g k != 0) [] 0

/-- Bytes of a frame on the bus for a payload, FCS included. -/
def frameBytes (payload : Nat) : Nat := max 64 (18 + payload)

/-- Whether the bus time of a Cinch exceeds 0.9 × CYCLE × P (R355); both sides in units of 1/80 ns. -/
def State.overBudget (s : State) (g cycle : Nat) (nodes : List Nat) : Bool :=
  let outs := (s.outPlan g nodes).map fun ks => frameBytes (16 + (ks.map fun k => 4 + 4 * s.outWords g k).foldl (· + ·) 0)
  let ins := nodes.map fun k => frameBytes (8 + 4 * s.inWords g k)
  let frames := ((outs ++ ins).map fun b => (b + 20) * 800).foldl (· + ·) 0
  let plca := if s.flag (F.FBUS_SEG_CFG_PLCA_EN g) then
      s.fld (F.FBUS_SEG_CFG_NODE_COUNT g) * (s.fld (F.FBUS_SEG_CFG_TO_TIMER g) + 2) * 100 else 0
  decide (225 * cycle * s.period < 80 * (frames + plca))

/-- Nodes whose entry reads enabled. -/
def State.nodesOn (s : State) (g : Nat) : List Nat := (List.range 32).filter fun k => s.nodeOn g k

/-! ## Writes -/

/-- A write of FBUS_SEG_CFG (R347, R349, R355, R37): the configuration is accepted while ENABLE is 0; an enable is checked. -/
def State.writeSegCfg (s : State) (src : Source) (g : Nat) (val : Word) : State :=
  let a := R.FBUS_SEG_CFG g
  let old := s.reg a
  let lims : Word := 0x7F3F00FF
  let on := old.msb
  let s1 := if on && (old &&& lims) != (val &&& lims) then s.busyWrite src a else s
  let s2 := s1.setReg a ((old &&& 0x80000000) ||| ((if on then old else val) &&& lims))
  if on then
    if val.msb then s2
    else ((s2.setFld (F.FBUS_SEG_CFG_ENABLE g) 0).setFld (F.FBUS_SEG_STATUS_PLCA_ACTIVE g) 0).setSeg g
      { s2.seg g with start := none, got := [], outs := [], syncs := [] }
  else if !val.msb then s2
  else
    let n := s2.fld (F.FBUS_SEG_CFG_NODE_COUNT g)
    let cyc := s2.written (R.FBUS_SEG_CYCLE g)
    let cycle := getBits cyc 15 0
    if n = 0 ∨ 32 < n ∨ s2.fld (F.FBUS_SEG_CFG_TO_TIMER g) = 0 ∨ (cycle ≠ 0 ∧ cycle ≤ getBits cyc 31 16) then s2.segResult g 2
    else if cycle ≠ 0 ∧ s2.overBudget g cycle (s2.nodesOn g) then s2.segResult g 3
    else
      let s3 := (s2.setFld (F.FBUS_SEG_CFG_ENABLE g) 1).setFld (F.FBUS_SEG_STATUS_PLCA_ACTIVE g)
        (s2.fld (F.FBUS_SEG_CFG_PLCA_EN g))
      (s3.setSeg g { Segment.atReset with misses := (s3.seg g).misses, lost := (s3.seg g).lost }).segResult g
        (if cycle = 0 then 1 else 0)

/-- SEGMENT_ENABLE (R347): a write of FBUS_SEG_CFG. -/
def execSegmentEnable (src : Source) (seg : Nat) (val : Word) (s : State) : Host.Outcome State Fault Refusal :=
  .next (s.gate src (R.FBUS_SEG_CFG seg) val fun s => s.writeSegCfg src seg val)

/-- A write of FBUS_SEG_CYCLE (R349, R355): accepted while ENABLE is 0; a PHASE at or above CYCLE is refused with RANGE, a
CYCLE too short for the bus time with BUDGET. It commits at the next boundary. -/
def State.writeSegCycle (s : State) (src : Source) (g : Nat) (val : Word) : State :=
  let a := R.FBUS_SEG_CYCLE g
  if s.segOn g then if s.written a = val then s else s.busyWrite src a
  else
    let cycle := getBits val 15 0
    if cycle ≠ 0 ∧ cycle ≤ getBits val 31 16 then s.segResult g 2
    else if cycle ≠ 0 ∧ s.overBudget g cycle (s.nodesOn g) then s.segResult g 3
    else (s.stage a val).segResult g (if cycle = 0 then 1 else 0)

/-- A write of FBUS_NODE MAC_HI (R348): LOST_N and MAC are accepted while ENABLE reads 0; an enable is checked, and one that
is refused changes nothing. -/
def State.writeNodeHi (s : State) (src : Source) (g k : Nat) (val : Word) : State :=
  let a := R.FBUS_NODE_MAC_HI g k
  let old := s.reg a
  let lims : Word := 0x00FFFFFF
  if old.msb then
    let s1 := if (old &&& lims) != (val &&& lims) then s.busyWrite src a else s
    s1.setReg a ((val &&& 0x80000000) ||| (old &&& lims))
  else
    let s1 := s.setReg a (val &&& lims)
    if !val.msb then s1
    else if s1.nodeRange g k then s.segResult g 2
    else
      let cycle := getBits (s1.written (R.FBUS_SEG_CYCLE g)) 15 0
      if cycle ≠ 0 ∧ s1.overBudget g cycle (k :: s1.nodesOn g) then s.segResult g 3
      else (s1.setFld (F.FBUS_NODE_MAC_HI_ENABLE g k) 1).segResult g 0

/-- NODE_ENABLE (R348): a write of a node's MAC_HI; it takes effect at the next Cinch start. -/
def execNodeEnable (src : Source) (seg node : Nat) (val : Word) (s : State) : Host.Outcome State Fault Refusal :=
  .next (s.gate src (R.FBUS_NODE_MAC_HI seg node) val fun s => s.writeNodeHi src seg node val)

/-! ## The Cinch (R349 to R352) -/

/-- A node misses the Cinch that closes (R352). -/
def State.nodeMisses (s : State) (g k : Nat) : State :=
  let x := s.seg g
  let n := sget 0 x.misses k + 1
  let s1 := (s.bump (F.FBUS_NODE_MISSED_COUNT g k)).setSeg g { x with misses := sset 0 x.misses k n }
  let limit := s1.fld (F.FBUS_NODE_MAC_HI_LOST_N g k)
  if limit ≠ 0 ∧ limit ≤ n ∧ !x.lost.contains k then
    let s2 := (s1.setFld (F.FBUS_NODE_STATUS_VALID g k) 0).fbEvent g 0x80 k
    s2.setSeg g { s2.seg g with lost := k :: (s2.seg g).lost.filter (· != k) }
  else s1

/-- The OUT words of a node. -/
def State.outData (s : State) (g k : Nat) : List Word :=
  let n := s.outWords g k
  match s.namedBuffer (s.reg R.FBUS_POINTS) with
  | some key => (s.bufWords key (s.fld (F.FBUS_NODE_OUT_BASE g k)) n).map fun w => w.val
  | none => List.replicate n 0

/-- One node's record of an OUT frame. -/
def State.outRecord (s : State) (g k : Nat) : List Byte :=
  let n := s.outWords g k
  let ws := s.outData g k
  [BitVec.ofNat 8 k, 0] ++ leHalf n ++ bytesOfWords ws

/-- Machine time at the last boundary as a frame carries it: seconds and nanoseconds, or zeros while TB3 is invalid. -/
def State.tb3Bytes (s : State) (t : Int) : List Byte :=
  if s.flag F.TIME_MT_STATUS_VALID then bytesOfWords [w32 (secOf t % 2 ^ 32), w32 (nsOf t)] else List.replicate 8 0

/-- The device's own address on a segment. -/
def State.segMac (s : State) (g : Nat) : List Byte := macBytes (s.reg (R.FBUS_SEG_MAC_LO g)) (s.reg (R.FBUS_SEG_MAC_HI g))

/-- The group address of a segment. -/
def State.groupMac (s : State) (g : Nat) : List Byte :=
  macBytes (s.reg (R.FBUS_SEG_GROUP_LO g)) (s.reg (R.FBUS_SEG_GROUP_HI g))

/-- The OUT frames of a Cinch. -/
def State.outFrames (s : State) (g cinch : Nat) (nodes : List Nat) : List (List Byte) :=
  let plan := s.outPlan g nodes
  (List.range plan.length).map fun i =>
    let ks := plan.getD i []
    cinchFrame (s.groupMac g) (s.segMac g) 1 cinch (s.fld (F.FBUS_SEG_CFG_LOCAL_ID g))
      (i % 32 + if i + 1 = plan.length then 128 else 0) ((ks.map fun k => s.outWords g k).foldl (· + ·) 0)
      (s.tb3Bytes (s.time.tb.getD 3 0) ++ ks.flatMap fun k => s.outRecord g k)

/-- CINCH_START (R349): at a boundary whose count mod CYCLE equals PHASE the open Cinch closes, entries come into force and
the OUT image is taken and put up to be sent. -/
def execCinchStart (seg : Nat) (s : State) : Host.Outcome State Fault Refusal :=
  let cycle := s.fld (F.FBUS_SEG_CYCLE_CYCLE seg)
  let x := s.seg seg
  .next (
    if !s.segRuns seg ∨ cycle = 0 ∨ s.now % cycle ≠ s.fld (F.FBUS_SEG_CYCLE_PHASE seg) ∨ x.start = some s.now then s
    else
      let s1 := if x.start.isNone then s
        else ((List.range 32).filter fun k => x.active.contains k && !x.got.contains k).foldl (fun s k => s.nodeMisses seg k) s
      let nodes := s1.nodesOn seg
      let n := if x.start.isNone then 0 else x.cinch + 1
      (s1.setSeg seg { s1.seg seg with
        cinch := n, start := some s1.now, active := nodes, got := [], outs := s1.outFrames seg n nodes }).covers
          (nodes.flatMap fun k => s1.outData seg k))

/-- TRANSMIT_OPPORTUNITY (R349, R350, R356): the device sends its next frame: a LAMP_SYNC before an OUT frame. -/
def execTransmitOpportunity (seg : Nat) (s : State) : Host.Outcome State Fault Refusal :=
  let x := s.seg seg
  .next (
    if !s.segRuns seg then s
    else if s.isWheel then s.setSeg seg { x with syncs := x.syncs.drop 1, outs := if x.syncs = [] then x.outs.drop 1 else x.outs }
    else match x.syncs, x.outs with
      | f :: fs, _ => s.setSeg seg { x with syncs := fs, sent := f }
      | [], f :: fs => (s.setSeg seg { x with outs := fs, sent := f }).bump (F.FBUS_SEG_OUT_SENT_COUNT seg)
      | [], [] => s)

/-! ## Received frames (R351 to R354) -/

/-- A copy of a frame to the segment's stranger queue (R354). -/
def State.strangerCopy (s : State) (g reason : Nat) (f : List Byte) : State :=
  s.pushEvent (fbReq g) (s.reg (R.FBUS_SEG_STRQ g))
    (w32 (reason * 2 ^ 24 + f.length % 65536) :: s.stitchLo :: wordsOfBytes (f ++ List.replicate ((4 - f.length % 4) % 4) 0))

/-- The node in force that an address is bound to. -/
def State.nodeOfMac (s : State) (g : Nat) (mac : List Byte) : Option Nat :=
  (s.seg g).active.find? fun k =>
    macBytes (s.reg (R.FBUS_NODE_MAC_LO g k)) (w32 (s.fld (F.FBUS_NODE_MAC_HI_MAC g k))) == mac

/-- What R351 says of a frame: none for an accepted one, with its node; else the counter it is counted in and the reason of
R354. -/
def State.judgeFrame (s : State) (g : Nat) (f : List Byte) : Nat ⊕ (Fld × Nat) :=
  let x := s.seg g
  match s.nodeOfMac g ((f.drop 6).take 6) with
  | none => .inr (F.FBUS_SEG_STRANGER_COUNT g, 1)
  | some k =>
    let words := halfAt f 20
    if f.getD 12 0 ≠ 0x88 ∨ f.getD 13 0 ≠ 0xB5 then .inr (F.FBUS_SEG_NONCINCH_COUNT g, 2)
    else if f.getD 14 0 ≠ 1 ∨ f.getD 15 0 ≠ 2 ∨ (f.getD 18 0).toNat ≠ k ∨ f.getD 19 0 ≠ 0 then .inr (F.FBUS_SEG_FORMAT_COUNT g, 3)
    else if x.start.isNone ∨ halfAt f 16 ≠ x.cinch % 65536 then .inr (F.FBUS_SEG_LATE_IN_COUNT g, 3)
    else if x.got.contains k then .inr (F.FBUS_SEG_DUP_COUNT g, 3)
    else if words ≠ s.inWords g k ∨ f.length < 22 + 4 * words then .inr (F.FBUS_SEG_FORMAT_COUNT g, 3)
    else .inl k

/-- An accepted IN frame: its words go to the point table in the next Stitch, when the node's CINCH shows it; the node is valid
(R351, R352). -/
def State.acceptIn (s : State) (g k : Nat) (f : List Byte) : State :=
  let x := s.seg g
  let words := wordsOfBytes ((f.drop 22).take (4 * s.inWords g k))
  let s1 := s.setSeg g { x with
    got := k :: x.got, misses := sset 0 x.misses k 0, lost := x.lost.filter (· != k)
    arriving := x.arriving ++ [⟨s.now, s.fld (F.FBUS_NODE_IN_BASE g k), words, k, x.cinch % 65536⟩] }
  let s2 := s1.setFld (F.FBUS_NODE_STATUS_VALID g k) 1
  if x.lost.contains k then s2.fbEvent g 0x81 k else s2

/-- A frame that updates no point: counted, and copied (R354). -/
def State.rejectFrame (s : State) (g : Nat) (c : Fld × Nat) (f : List Byte) : State :=
  let s1 := (s.bump c.1).strangerCopy g c.2 f
  if c.2 = 1 ∧ !s1.flag (F.FBUS_SEG_STATUS_STRANGER g) then (s1.setFld (F.FBUS_SEG_STATUS_STRANGER g) 1).fbEvent g 0x82 0
  else s1

/-- IN_FRAME (R351): a frame from a node is accepted into the point table, or rejected. -/
def execInFrame (seg : Nat) (frame : List Byte) (s : State) : Host.Outcome State Fault Refusal :=
  .next (
    if !s.segRuns seg then s
    else match s.judgeFrame seg frame with
      | .inl k => s.acceptIn seg k frame
      | .inr c => s.rejectFrame seg c frame)

/-- STRANGER_FRAME (R354): a frame that updates no point is counted and copied to the stranger queue. A frame that R351
accepts is no stranger. -/
def execStrangerFrame (seg : Nat) (frame : List Byte) (s : State) : Host.Outcome State Fault Refusal :=
  .next (
    if !s.segRuns seg then s
    else match s.judgeFrame seg frame with
      | .inl _ => s
      | .inr c => s.rejectFrame seg c frame)

/-- NOISE (R353): `node` below 32 is the node in whose opportunity it falls. -/
def execNoise (seg : Nat) (kind : NoiseKind) (node : Nat) (s : State) : Host.Outcome State Fault Refusal :=
  .next (
    if !s.segRuns seg then s
    else match kind with
      | .collision => s.bump (F.FBUS_SEG_COLLISION_COUNT seg)
      | _ =>
        if s.flag (F.FBUS_SEG_CFG_PLCA_EN seg) ∧ node < 32 then s.bump (F.FBUS_NODE_NOISE_COUNT seg node)
        else s.bump (F.FBUS_SEG_NOISE_COUNT seg))

/-- The words of one frame written into the point table; its node's STATUS records the Cinch. -/
def State.landIn (s : State) (g : Nat) (a : InWords) : State :=
  let s1 := match s.namedBuffer (s.reg R.FBUS_POINTS) with
    | some key => s.setBufWords key a.base (a.words.map PWord.clean)
    | none => s
  s1.setFld (F.FBUS_NODE_STATUS_CINCH g a.node) a.cinch

/-- The words of frames received in the ended Stitch written into the point table (R351). -/
def State.segBoundary (s : State) (g : Nat) : State :=
  let x := s.seg g
  let s1 := (x.arriving.filter fun a => decide (a.stitch < s.now)).foldl (fun (t : State) a => t.landIn g a) s
  s1.setSeg g { x with arriving := x.arriving.filter fun a => !decide (a.stitch < s.now) }

end Sys2Proof.Machine
end

