-- ==== Sys2Proof/Machine/Lamp.lean ====
section
/-! DEFINITION. Lamp drive (R358 to R371): frame ticks and pattern engines, page swaps, duty, measurement and diagnosis, the
chain port and LAMP_SYNC. -/

namespace Sys2Proof.Machine

/-- The state with the lamp drive changed. -/
def State.onLamp (s : State) (f : Lamp → Lamp) : State := { s with lamp := f s.lamp }

/-- A channel. -/
def State.lampChan (s : State) (c : Nat) : LampChan := sget LampChan.dark s.lamp.chans c

/-- The state with a channel replaced. -/
def State.setLampChan (s : State) (c : Nat) (x : LampChan) : State :=
  s.onLamp fun l => { l with chans := sset LampChan.dark l.chans c x }

/-- Whether the lamp drive runs. -/
def State.lampOn (s : State) : Bool := s.flag F.LAMP_CTRL_ENABLE

/-- Rows in use. -/
def State.lampRows (s : State) : Nat := if s.flag F.LAMP_CTRL_MATRIX then s.fld F.LAMP_CTRL_ROWS + 1 else 1

/-- Channels the part has. -/
def State.lampList (s : State) : List Nat := List.range s.part.row.lamps

/-- An event packet of the lamp drive (R371). -/
def State.lampEvent (s : State) (code row chan : Nat) : State :=
  s.pushEvent 250 (s.reg R.LAMP_EVQ) [w32 (code * 2 ^ 24 + row * 2 ^ 8 + chan), s.reg R.LAMP_SEQ, s.stitchLo]

/-- A halfword of a page (R363). -/
def State.lampHalf (s : State) (page i : Nat) : Nat := sget 0 s.lamp.mem (page * 1024 + i)

/-- Whether a page is in display (R363). -/
def State.lampShown (s : State) (p : Nat) : Bool :=
  if s.flag F.LAMP_CTRL_MODE then decide (p < s.fld F.LAMP_CTRL_SEQ_LEN) else p == s.fld F.LAMP_STATUS_FRONT

/-! ## Duty (R359, R361, R362, R366) -/

/-- round(65,535 × (L / 4,095)^2.2): the largest y with (2 y - 1) / 2 at most that. -/
def gammaDuty (l : Nat) : Nat :=
  largestBelow (fun y => decide ((2 * y - 1) ^ 5 * 4095 ^ 11 ≤ 131070 ^ 5 * l ^ 11)) 16 0

/-- 0 for 0; otherwise round(65,535 × 2^(12 × (L - 4,095) / 4,095)). -/
def logDuty (l : Nat) : Nat :=
  if l = 0 then 0
  else largestBelow (fun y => decide ((2 * y - 1) ^ 1365 * 2 ^ (4 * (4095 - l)) ≤ 131070 ^ 1365)) 16 0

/-- The duty of a level through a curve (R361). -/
def curveDuty (curve l : Nat) : Nat :=
  if curve = 1 then gammaDuty l else if curve = 2 then logDuty l else l * 16 + l / 256

/-- Duty of a member at position `pos` of an engine (R362). -/
def State.engineDuty (s : State) (e pos : Nat) : Nat :=
  let cfg := sget 0 s.lamp.cfg e
  let mode := getBits cfg 31 30
  let period := getBits cfg 29 16
  let high := s.fld (F.LAMP_ENG_LEVELS_HIGH e)
  let low := s.fld (F.LAMP_ENG_LEVELS_LOW e)
  if mode = 0 ∨ mode = 3 then 0
  else if period = 0 then low
  else
    let m := (sget 0 s.lamp.phase e % period + pos * getBits cfg 15 8) % period
    if mode = 1 then
      let w : Int := (65535 * (2 * min m (period - m)) / period : Nat)
      ((low : Int) + (((high : Int) - low) * w ^ 2).fdiv (2 ^ 32)).toNat
    else if m < s.fld (F.LAMP_ENG_CFG_WIDTH e) then high else low

/-- The level-or-engine duty of a channel in a row (R361, step 1). -/
def State.sourceDuty (s : State) (c r : Nat) : Nat :=
  let e := s.fld (F.LAMP_CH_CFG_ENGINE c)
  if 1 ≤ e ∧ e ≤ 8 then s.engineDuty (e - 1) (s.fld (F.LAMP_CH_CFG_POS c))
  else curveDuty (s.fld (F.LAMP_CH_CFG_CURVE c)) (s.lampHalf (s.fld F.LAMP_STATUS_FRONT) (r * 48 + c) % 4096)

/-- Coefficient `i` of a lamp's binning matrix, Q2.14. -/
def State.binCoef (s : State) (j i : Nat) : Int :=
  let w := s.reg (0x02201000 + 0x20 * j + 4 * (i / 2))
  signed 16 (if i % 2 = 0 then getBits w 15 0 else getBits w 31 16)

/-- The duty after binning (R361, step 2). -/
def State.binnedDuty (s : State) (c r : Nat) : Int :=
  if s.part.row.lampBin && s.flag F.LAMP_CTRL_BIN_EN then
    let j := c / 3
    let i := c % 3
    let term (n : Nat) : Int := s.binCoef j (3 * i + n) * (s.sourceDuty (3 * j + n) r : Int)
    roundShift (term 0 + term 1 + term 2) 14
  else s.sourceDuty c r

/-- The compensation factor of a channel, Q16.16 (R366). -/
def State.lampFactor (s : State) (c : Nat) : Int :=
  let set := if s.flag F.LAMP_CTRL_BAND_SET then s.fld (F.THRM_BAND_GROUP_BAND 4) else 0
  let i := 4 * set + s.fld (F.LAMP_CH_CFG_COLOUR c)
  let k := signed 16 (s.fld (F.LAMP_COMP_K i))
  let t : Int := (sget 0 s.therm.seen (8 + s.fld (F.LAMP_CH_CFG_TSRC c)) : Nat)
  clampInt 0 0x20000 (0x10000 + roundShift (k * (t - (s.fld (F.LAMP_COMP_TREF i) : Nat))) 8)

/-- The duty of a channel in a row at the start of a PWM period (R361). A channel of CURRENT 0 is dark. -/
def State.formDuty (s : State) (c r : Nat) : Nat :=
  if s.fld (F.LAMP_CH_CFG_CURRENT c) = 0 then 0
  else (clampInt 0 0xFFFF (roundShift (s.binnedDuty c r * s.lampFactor c) 16)).toNat

/-- TCLK of one row's window in a period (R359). -/
def State.lampWindow (s : State) : Nat :=
  let p := s.fld F.LAMP_TIMING_PWM_TCLK
  if s.flag F.LAMP_CTRL_MATRIX then p / s.lampRows else p

/-- On-time of a duty (R359). -/
def State.lampOnTime (s : State) (d : Nat) : Nat := (d * s.lampWindow + 0x8000) / 2 ^ 16

/-- Whether a channel's duty is above 0 in some row. -/
def LampChan.lit (x : LampChan) : Bool := x.duty.any fun d => d != 0

/-- STATE of a channel, unless a verdict is latched. -/
def State.showLamp (s : State) (c st : Nat) : State :=
  let x := s.lampChan c
  s.setFld (F.LAMP_CH_STATE_STATE c) (if x.latched ≠ 0 then x.latched else st)

/-- A channel at the start of a PWM period. -/
def State.startPeriod (s : State) (c : Nat) : State :=
  let x := s.lampChan c
  let duty := (List.range s.lampRows).map fun r : Nat => s.formDuty c r
  let y := { x with
    amp := min (s.fld (F.LAMP_CH_CFG_CURRENT c)) (s.fld F.LAMP_THR_CEIL_CODE)
    duty := duty, diag := x.diagDue, diagDue := false, off := x.short }
  let s1 := (s.setLampChan c y).setFld (F.LAMP_CH_STATE_DUTY c) (duty.getD 0 0)
  if !y.lit then s1.showLamp c 5
  else if s1.fld (F.LAMP_CH_STATE_STATE c) = 5 then s1.showLamp c 0
  else s1

/-- A PWM period starts: each channel's duty and amplitude are formed (R358, R361). -/
def State.pwmStart (s : State) : State := (s.lampList.foldl (fun (t : State) c => t.startPeriod c) s).calTap [4] none

/-- PWM_PERIOD (R358, R361): a PWM period starts after a whole one. The periods that a frame tick or a qualified LSYNC edge
restarts begin with those rows (R359). -/
def execPwmPeriod (s : State) : Host.Outcome State Fault Refusal := .next (if !s.lampOn then s else s.pwmStart)

/-! ## The chain port (R370) -/

/-- A shift of the front page's chain area starts, board BOARDS - 1 first; one that runs is abandoned. -/
def State.chainStart (s : State) : State :=
  let n := min 16 (s.fld F.LAMP_CHAIN_BOARDS)
  if n = 0 then s
  else
    let page := s.fld F.LAMP_STATUS_FRONT
    let ws := (List.range n).flatMap fun b : Nat => (List.range 16).map fun k : Nat => s.lampHalf page (768 + 16 * (n - 1 - b) + k)
    let s1 := if s.lamp.shift.isSome then (s.bump F.LAMP_CHAIN_SKIP_COUNT).lampEvent 0x93 0 0 else s
    s1.onLamp fun l => { l with shift := some ws }

/-- CHAIN_LATCH (R370): a chain shift ends and LLATCH pulses: the boards take their halfwords. -/
def execChainLatch (s : State) : Host.Outcome State Fault Refusal :=
  .next (
    match s.lamp.shift with
    | some ws => s.onLamp fun l => { l with shift := none, chain := ws }
    | none => s)

/-! ## Swaps (R364, R365, R369) -/

/-- The page that becomes the front page after `n` swaps that wait already. -/
def State.nextPage (s : State) (n : Nat) : Nat :=
  if s.flag F.LAMP_CTRL_MODE then (s.fld F.LAMP_STATUS_FRONT + 1 + n) % max 1 (s.fld F.LAMP_CTRL_SEQ_LEN)
  else if n % 2 = 0 then s.fld F.LAMP_CTRL_BACK else s.fld F.LAMP_STATUS_FRONT

/-- A swap: the front page, LAMP_SEQ, and SWAP while no other is asked for. -/
def State.lampSwap (s : State) : State :=
  let front := s.fld F.LAMP_STATUS_FRONT
  let s1 := s.setFld F.LAMP_STATUS_FRONT (s.nextPage 0)
  let s2 := if s.flag F.LAMP_CTRL_MODE then s1 else s1.setFld F.LAMP_CTRL_BACK front
  s2.setReg R.LAMP_SEQ (s.reg R.LAMP_SEQ + 1)

/-- The body of a LAMP_SYNC frame (R369). -/
def syncBody (seq : Word) (page : Nat) (t : Option Int) : List Byte :=
  bytesOfWords ([seq, w32 page] ++ match t with
    | some v => [w32 (secOf v % 2 ^ 32), w32 (nsOf v)]
    | none => [0, 0])

/-- A LAMP_SYNC frame put up on each selected segment that runs. -/
def State.sendSync (s : State) (seq : Word) (page : Nat) (t : Option Int) : State :=
  [0, 1].foldl (fun (u : State) g =>
    if natBit (u.fld F.LAMP_CTRL_BCAST_SEG) g && u.segRuns g then
      let x := u.seg g
      let f := cinchFrame (u.groupMac g) (u.segMac g) 3 x.cinch (u.fld (F.FBUS_SEG_CFG_LOCAL_ID g)) 0 0 (syncBody seq page t)
      u.setSeg g { x with syncs := x.syncs ++ [f] }
    else u) s

/-- A swap acts now: with BCAST its frame goes out in this Stitch unless it did before, and the chain port shifts. -/
def State.swapNow (s : State) (sent : Bool) : State :=
  let s1 := if s.flag F.LAMP_CTRL_BCAST && !sent then s.sendSync (s.reg R.LAMP_SEQ + 1) (s.nextPage 0) none else s
  s1.lampSwap.chainStart

/-- SWAP taken by an event. -/
def State.swapTaken (s : State) : State :=
  (s.setFld F.LAMP_CMD_SWAP 0).onLamp fun l => { l with asked := false }

/-- A swap event that swaps at a frame tick: at once, or held LEAD Stitches under R369. -/
def State.tickSwap (s : State) : State :=
  let lead := s.fld F.LAMP_CTRL_LEAD
  if !s.flag F.LAMP_CTRL_BCAST ∨ lead = 0 then
    let t := if s.flag F.TIME_MT_STATUS_VALID then some (s.time.tb.getD 3 0) else none
    let s1 := if s.flag F.LAMP_CTRL_BCAST then s.sendSync (s.reg R.LAMP_SEQ + 1) (s.nextPage 0) t else s
    s1.swapNow true
  else
    let n := s.lamp.held.length
    let valid := s.flag F.TIME_MT_STATUS_VALID
    let s1 := if valid then
        s.sendSync (s.reg R.LAMP_SEQ + w32 (n + 1)) (s.nextPage n) (some (s.tbAt 3 (lead * s.period)))
      else s
    s1.onLamp fun l => { l with held := l.held ++ [⟨s.now + lead, valid⟩] }

/-- Swaps whose boundary has come, in order. -/
def State.heldSwaps (s : State) : State :=
  (s.lamp.held.filter fun h => decide (h.when ≤ s.now)).foldl (fun (t : State) h => t.swapNow h.sent)
    (s.onLamp fun l => { l with held := l.held.filter fun h => decide (s.now < h.when) })

/-! ## Frame ticks (R360, R362, R367, R368) -/

/-- An engine at a frame tick: a committed write takes effect and restarts its phase. -/
def State.engineTick (s : State) (e : Nat) : State :=
  if s.lamp.due.contains e then
    s.onLamp fun l => { l with
      cfg := sset 0 l.cfg e (s.reg (R.LAMP_ENG_CFG e)), phase := sset 0 l.phase e 0, due := l.due.filter (· != e) }
  else s.onLamp fun l => { l with phase := sset 0 l.phase e (sget 0 l.phase e + 1) }

/-- Whether a channel's frames without a measurement have come to their limit: DIAG_PERIOD, or one when it is 0 (R368). -/
def State.diagReached (s : State) (x : LampChan) : Bool :=
  let p := s.fld F.LAMP_DIAG_DIAG_PERIOD
  x.lit && !x.short && decide (max 1 p ≤ x.unmeasured)

/-- A channel at a frame tick: CLEAR, and the count of frames without a measurement. -/
def State.chanTick (s : State) (c : Nat) : State :=
  let x := s.lampChan c
  let clear := s.flag (F.LAMP_CH_CFG_CLEAR c)
  let n := if x.measured ∨ !x.lit ∨ x.short then 0 else x.unmeasured + 1
  let y := { x with unmeasured := n, measured := false, starved := x.starved && x.lit }
  let z := { y with diagDue := s.diagReached y && s.flag F.LAMP_DIAG_DIAG_EN && s.fld F.LAMP_DIAG_DIAG_PERIOD != 0 }
  if clear then
    let s1 := (s.setLampChan c { z with latched := 0, short := false, runs := 0, verdict := 0 }).setFld (F.LAMP_CH_CFG_CLEAR c) 0
    if x.latched = 0 then s1 else s1.setFld (F.LAMP_CH_STATE_STATE c) (if x.lit then 0 else 5)
  else s.setLampChan c z

/-- FRAME_TICK (R360): at a boundary whose count is a multiple of FRAME_DIV the engines step, the swap event acts and the PWM
period restarts (R359). -/
def execFrameTick (s : State) : Host.Outcome State Fault Refusal :=
  let div := s.fld F.LAMP_TIMING_FRAME_DIV
  .next (
    if !s.lampOn ∨ div = 0 ∨ s.now % div ≠ 0 ∨ s.lamp.tick = some s.now then s
    else
      let s1 := (List.range 8).foldl (fun (t : State) e => t.engineTick e) (s.onLamp fun l => { l with tick := some s.now })
      let s2 := s1.lampList.foldl (fun (t : State) c => t.chanTick c) s1
      let s3 := if s2.flag F.LAMP_CTRL_SYNC then s2
        else if s2.flag F.LAMP_CTRL_MODE then s2.tickSwap
        else if s2.lamp.asked then s2.swapTaken.tickSwap
        else s2.chainStart
      s3.pwmStart)

/-- DIAG_STARVED (R368): a channel's frames without a measurement reach DIAG_PERIOD with diagnostics off. -/
def execDiagStarved (chan : Nat) (s : State) : Host.Outcome State Fault Refusal :=
  let x := s.lampChan chan
  .next (
    if !s.lampOn ∨ s.part.row.lamps ≤ chan ∨ !s.diagReached x ∨ x.starved then s
    else if s.flag F.LAMP_DIAG_DIAG_EN ∧ s.fld F.LAMP_DIAG_DIAG_PERIOD ≠ 0 then s
    else
      ((s.setLampChan chan { x with starved := true }).showLamp chan 4).lampEvent 0x92
        (s.fld (F.LAMP_CH_STATE_ROW chan)) chan)

/-! ## Measurement (R367) -/

/-- The row a diagnostic pulse lights: the lowest with a level above 0 in the column (R368). -/
def State.diagRow (s : State) (c : Nat) : Nat :=
  if s.flag F.LAMP_CTRL_MATRIX then
    (((List.range s.lampRows).find? fun r => s.lampHalf (s.fld F.LAMP_STATUS_FRONT) (r * 48 + c) % 4096 != 0)).getD 0
  else 0

/-- Whether a channel has an on-interval of at least 640 TCLK in a row. -/
def State.lampMeasurable (s : State) (c r : Nat) : Bool :=
  let x := s.lampChan c
  !x.off && decide (r < s.lampRows) &&
    (if x.diag then r == s.diagRow c else decide (640 ≤ s.lampOnTime (x.duty.getD r 0)))

/-- LAMP_MEASUREMENT (R367): a channel is sampled at TCLK 620 of an on-interval: `drainMv` at its drain sense, `isense` the
code of its current. The first verdict to qualify latches in STATE; a SHORT turns the gate off even after an OPEN. -/
def execLampMeasurement (chan row drainMv isense : Nat) (s : State) : Host.Outcome State Fault Refusal :=
  let x := s.lampChan chan
  .next (
    if !s.lampOn ∨ s.part.row.lamps ≤ chan ∨ !s.lampMeasurable chan row then s
    else
      let v := if s.fld F.LAMP_SENSE_SHORT_MV < drainMv then 3
        else if isense * 256 < x.amp * s.fld F.LAMP_SENSE_OPEN_FRAC then 2 else 1
      let n := if x.verdict = v then x.runs + 1 else 1
      let need := s.fld F.LAMP_DIAG_FAULT_N
      let y := { x with verdict := v, runs := n, measured := true, unmeasured := 0, starved := false }
      let s1 := ((s.setLampChan chan y).setFld (F.LAMP_CH_STATE_ROW chan) row).setFld (F.LAMP_CH_STATE_DUTY chan)
        (x.duty.getD row 0)
      if v = 1 ∨ need = 0 then s1.showLamp chan v
      else if n < need ∨ x.latched = v ∨ x.short then s1
      else if v = 2 ∧ x.latched ≠ 0 then s1
      else
        ((s1.setLampChan chan { y with latched := if x.latched = 0 then v else x.latched, short := v == 3 }).showLamp chan v).lampEvent
          (if v = 3 then 0x91 else 0x90) row chan)

/-! ## LSYNC and commands -/

/-- LSYNC_EDGE (R364, R365): an LSYNC edge of the selected polarity, `us` microseconds after the last qualified one. A qualified
one restarts the PWM period (R359). -/
def execLsyncEdge (us : Nat) (s : State) : Host.Outcome State Fault Refusal :=
  .next (
    if !s.lampOn ∨ !s.flag F.LAMP_CTRL_SYNC then s
    else if s.lamp.edge ∧ us < s.fld F.LAMP_CHAIN_LSYNC_MIN then s.bump F.LAMP_LSYNC_SKIP_COUNT
    else
      let s1 := s.onLamp fun l => { l with edge := true }
      let s2 := if s1.flag F.LAMP_CTRL_MODE then s1.swapNow false
        else if s1.flag F.LAMP_CMD_SWAP then s1.swapTaken.swapNow false
        else s1.chainStart
      ((s2.setReg R.LAMP_SEQ_LATCH (s2.reg R.LAMP_SEQ)).onLamp fun l => { l with
        strobes := ((s.now, s2.reg R.LAMP_SEQ) :: l.strobes).take 64 }).pwmStart)

/-- LAMP_SWAP (R364): a write of LAMP_CMD.SWAP asks for a swap at the next event. -/
def execLampSwap (s : State) : Host.Outcome State Fault Refusal := .next (s.setFld F.LAMP_CMD_SWAP 1)

/-! ## Enable -/

/-- RESULT of an enable: 0 OK, 1 ZERO_LEN, 2 RANGE (R360, R364, R370). -/
def State.lampCheck (s : State) : Nat :=
  let div := s.fld F.LAMP_TIMING_FRAME_DIV
  let p := s.fld F.LAMP_TIMING_PWM_TCLK
  if div = 0 ∨ (s.flag F.LAMP_CTRL_MODE ∧ s.fld F.LAMP_CTRL_SEQ_LEN = 0) then 1
  else if p < 320 ∨ div * s.period % p ≠ 0 ∨ 16 < s.fld F.LAMP_CHAIN_BOARDS then 2
  else 0

/-- A channel whose gate is off: dark, with what is latched until its CLEAR (R367). -/
def LampChan.stopped (x : LampChan) : LampChan := { LampChan.dark with latched := x.latched, short := x.short }

/-- CH_STATE of such a channel: the latched verdict and its row. -/
def LampChan.stoppedState (x : LampChan) (old : Word) : Word :=
  if x.latched = 0 then 0 else (old &&& 0xF00) ||| w32 x.latched

/-- Every gate off: nothing measured, swapped or shifted waits on; a latched OPEN or SHORT stays (R367). -/
def State.lampStop (s : State) : State :=
  let s1 := s.onLamp fun l => { l with tick := none, edge := false, held := [], shift := none }
  s1.lampList.foldl (fun (t : State) c =>
    (t.setLampChan c (t.lampChan c).stopped).setReg (R.LAMP_CH_STATE c)
      ((t.lampChan c).stoppedState (t.reg (R.LAMP_CH_STATE c)))) s1

/-- A write of LAMP_CTRL (R37, R360, R364): the configuration is accepted while ENABLE is 0; an enable is checked. BIN_EN
reads 0 on a part without binning. -/
def State.writeLampCtrl (s : State) (src : Source) (val : Word) : State :=
  let a := R.LAMP_CTRL
  let old := s.reg a
  let lims : Word := if s.part.row.lampBin then 0x7FFFFFFF else 0x7FFFDFFF
  let on := old.msb
  let s1 := if on && (old &&& lims) != (val &&& lims) then s.busyWrite src a else s
  let s2 := s1.setReg a ((old &&& 0x80000000) ||| ((if on then old else val) &&& lims))
  if on then (if val.msb then s2 else (s2.setFld F.LAMP_CTRL_ENABLE 0).lampStop)
  else if !val.msb then s2
  else
    let r := s2.lampCheck
    let s3 := s2.setFld F.LAMP_STATUS_RESULT r
    if r ≠ 0 then s3
    else (s3.lampStop.setFld F.LAMP_CTRL_ENABLE 1).setFld F.LAMP_STATUS_CUT 0

/-- LAMP_ENABLE (R360, R364): a write of LAMP_CTRL. -/
def execLampEnable (src : Source) (val : Word) (s : State) : Host.Outcome State Fault Refusal :=
  .next (s.gate src R.LAMP_CTRL val fun s => s.writeLampCtrl src val)

/-- The lamp drive at the boundary that brings a new Stitch period (R360). -/
def State.lampAtPeriod (s : State) : State :=
  let p := s.fld F.LAMP_TIMING_PWM_TCLK
  if s.lampOn ∧ s.fld F.LAMP_TIMING_FRAME_DIV * s.period % p ≠ 0 then s.setFld F.LAMP_STATUS_CUT 1 else s

/-- The lamp drive at a boundary: writes of SWAP before the cut-off count, and swaps that waited act. -/
def State.lampBoundary (s : State) : State :=
  let s1 := s.onLamp fun l => { l with asked := s.flag F.LAMP_CMD_SWAP }
  if s1.lampOn then s1.heldSwaps else s1

/-- A write of a word of the frame memory (R363). -/
def State.writeLampMem (s : State) (src : Source) (a : Nat) (val : Word) : State :=
  let off := a - 0x02208000
  let page := off / 0x800
  if s.lampShown page then s.busyWrite src a
  else
    let i := off / 4 * 2
    s.onLamp fun l => { l with mem := sset 0 (sset 0 l.mem i (getBits val 15 0)) (i + 1) (getBits val 31 16) }

/-- A word of the frame memory. -/
def State.readLampMem (s : State) (a : Nat) : Word :=
  let i := (a - 0x02208000) / 4 * 2
  w32 (sget 0 s.lamp.mem i + sget 0 s.lamp.mem (i + 1) * 2 ^ 16)

end Sys2Proof.Machine
end

