-- ==== Sys2Proof/Machine/Port.lean ====
section
/-! DEFINITION. The PCIe endpoint and the Ethernet ports (R327 to R332). -/

namespace Sys2Proof.Machine

/-! ## PCIe (R329, R330) -/

/-- A vector's pending message sent where it is unmasked and has not sent in this Stitch (R329). -/
def State.sendPending (s : State) (vec : Nat) : State :=
  let a := R.PCIE_MSIX_PBA (vec / 32)
  let bit := w32 (2 ^ (vec % 32))
  if s.reg a &&& bit = 0 ∨ s.flag (F.PCIE_MSIX_CTRL_MASK vec) ∨ s.msix.contains vec then s
  else (s.setReg a (s.reg a &&& ~~~bit)).signal vec

/-- A vector unmasked: a pending message is sent, at the next boundary where the vector has sent one in this Stitch (R329). -/
def State.unmask (s : State) (vec : Nat) : State := (s.setFld (F.PCIE_MSIX_CTRL_MASK vec) 0).sendPending vec

/-- The pending messages that a new Stitch lets go. -/
def State.sendAllPending (s : State) : State :=
  (List.range 8).foldl (fun (t : State) i =>
    if t.reg (R.PCIE_MSIX_PBA i) = 0 then t
    else (List.range 32).foldl (fun (u : State) j => u.sendPending (32 * i + j)) t) s

/-- MSIX_UNMASK (R329): a vector is unmasked; with its pending bit set it sends one message. -/
def execMsixUnmask (vec : Nat) (s : State) : Host.Outcome State Fault Refusal :=
  .next (if vec < 256 then s.unmask vec else s)

/-- The MSI-X table and its pending bits at their reset values. -/
def State.clearMsix (s : State) : State :=
  let s1 := (List.range 256).foldl (fun s v =>
    (((s.setReg (R.PCIE_MSIX_ADDR_LO v) 0).setReg (R.PCIE_MSIX_ADDR_HI v) 0).setReg (R.PCIE_MSIX_DATA v) 0).setReg
      (R.PCIE_MSIX_CTRL v) 1) s
  (List.range 8).foldl (fun s i => s.setReg (R.PCIE_MSIX_PBA i) 0) s1

/-- The live link fields. -/
def State.linkFields (s : State) (up speed width : Nat) : State :=
  ((s.setFld F.PCIE_STATUS_LINK_UP up).setFld F.PCIE_STATUS_SPEED speed).setFld F.PCIE_STATUS_WIDTH width

/-- What a reset of the endpoint does (R330): the MSI-X table and the live link fields clear, RESET_SEEN is set, and the open
packets of the apertures are marked bad. -/
def State.pcieReset (s : State) : State :=
  let s1 := (s.clearMsix.linkFields 0 0 0).setFld F.PCIE_STATUS_RESET_SEEN 1
  (List.range 16).foldl (fun s a => s.dropPackets (aperProducer a)) s1

/-- PCIE_RESET (R330): FLR, hot reset or PCIE_PERST_N restarts the PCIe block alone. -/
def execPcieReset (s : State) : Host.Outcome State Fault Refusal := .next s.pcieReset

/-- LINK_LOST (R330): the link leaves L0. -/
def execLinkLost (s : State) : Host.Outcome State Fault Refusal :=
  .next ((s.linkFields 0 0 0).setFld F.PCIE_STATUS_LINK_LOST 1)

/-- PCIE_LINK_UP (R330): the link trains into L0. -/
def execPcieLinkUp (speed width : Nat) (s : State) : Host.Outcome State Fault Refusal :=
  .next (s.linkFields 1 speed width)

/-! ## Ethernet (R331, R332) -/

/-- The requester of EG0 and EG1 (R269). -/
def ethReq (e : Nat) : Nat := 232 + e

/-- ETH_LINK_CHANGE (R331): a port's link comes up at a speed or goes down. A MODE above 0b01 gives no link. -/
def execEthLinkChange (port : Nat) (up : Bool) (speed : Nat) (s : State) : Host.Outcome State Fault Refusal :=
  let link := up && decide (s.fld (F.PCIE_EG_CFG_MODE port) ≤ 1) && s.flag (F.PCIE_EG_CFG_ENABLE port)
  .next ((s.setFld (F.PCIE_EG_STATUS_LINK port) (bitNat link)).setFld (F.PCIE_EG_STATUS_SPEED port)
    (if link then min 2 speed else 0))

/-- Whether a port accepts a destination address (R331). -/
def State.ethAccepts (s : State) (e : Nat) (dst : List Byte) : Bool :=
  let own := macBytes (s.reg (R.PCIE_EG_MAC_LO e)) (s.reg (R.PCIE_EG_MAC_HI e))
  s.flag (F.PCIE_EG_CFG_PROMISC e) || dst == own || dst == List.replicate 6 0xFF
    || dst == [0x01, 0x1B, 0x19, 0, 0, 0] || dst == [0x01, 0x80, 0xC2, 0, 0, 0x0E]
    || (s.flag (F.PCIE_EG_CFG_MCAST e) && (dst.getD 0 0).getLsbD 0)

/-- Whether a frame carries a VLAN tag. -/
def hasVlan (f : List Byte) : Bool := f.getD 12 0 == 0x81 && f.getD 13 0 == 0x00

/-- Whether a frame is a PTP event message (R332): EtherType 0x88F7, or UDP port 319 over IPv4 or IPv6. -/
def isPtp (f : List Byte) : Bool :=
  let o := if hasVlan f then 4 else 0
  let b := fun i => (f.getD (i + o) 0).toNat
  let et := b 12 * 256 + b 13
  let at' := fun u => b (u + 2) * 256 + b (u + 3) == 319
  et == 0x88F7 || (et == 0x0800 && b 23 == 17 && at' (14 + 4 * (b 14 % 16))) || (et == 0x86DD && b 20 == 17 && at' 54)

/-- TB0 at a start-frame delimiter in the present Stitch, in 2^-43 ns: at a place that no command gives, with the resolution
of 0.8 ns (R332). -/
def State.sfdTime (s : State) : Int :=
  let k := Config.instant s.fresh % (s.period * 125 / 32)
  s.tbAt 0 0 + (k : Int) * 4 * oneNs / 5

/-- ETH_RX_FRAME (R331, R332): a frame, from the destination address up to and without its FCS, is filtered, stamped and
queued; a long one or one with a bad FCS is counted in RX_BAD, one that the queue refuses in RX_DROP. -/
def execEthRxFrame (port : Nat) (frame : List Byte) (fcsOk : Bool) (s : State) : Host.Outcome State Fault Refusal :=
  let tag := hasVlan frame
  let q := s.reg (R.PCIE_EG_RXQ port)
  .next (
    if !s.flag (F.PCIE_EG_CFG_ENABLE port) then s
    else if !fcsOk ∨ (if tag then 1522 else 1518) < frame.length + 4 then s.bump (F.PCIE_EG_RX_BAD_COUNT port)
    else if !s.ethAccepts port (frame.take 6) ∨ (s.namedQueue q).isNone then s
    else
      let t := s.sfdTime - (s.fld (F.PCIE_EG_LAT_RX_NS port) : Nat) * oneNs
      let ws := w32 (bitNat tag * 2 ^ 17 + bitNat (isPtp frame) * 2 ^ 16 + frame.length % 65536) :: timeWords t
        ++ wordsOfBytes (frame ++ List.replicate ((4 - frame.length % 4) % 4) 0)
      if s.hasRoom q ws.length then
        ((s.pushEvent (ethReq port) q ws).bump (F.PCIE_EG_RX_OK_COUNT port)).tookFree
      else ((s.pushEvent (ethReq port) q ws).bump (F.PCIE_EG_RX_DROP_COUNT port)).tookFree)

/-- An Ethernet port. -/
def State.eth (s : State) (e : Nat) : Eth := sget ⟨[]⟩ s.eths e

/-- ETH_TX_PACKET (R332): the next transmit packet is popped, sent padded to 60 bytes, and its completion pushed. A length of
0, or above what a frame may hold, sends nothing. -/
def execEthTxPacket (port : Nat) (s : State) : Host.Outcome State Fault Refusal :=
  let q := s.reg (R.PCIE_EG_TXQ port)
  .next (
    if !s.flag (F.PCIE_EG_CFG_ENABLE port) ∨ !s.packetWaits q then s
    else
      let (s1, ws) := s.popPacket (ethReq port) q
      let w0 := (ws.getD 0 (PWord.clean 0)).val
      let len := getBits w0 15 0
      let frame := (bytesOfWords ((ws.drop 1).map fun w => w.val)).take len
      let code := if len = 0 then 1 else if (if hasVlan frame then 1522 else 1518) < len + 4 then 2 else 0
      let done := w32 (getBits w0 31 24 * 2 ^ 24 + code)
      let t := s1.sfdTime + (s1.fld (F.PCIE_EG_LAT_TX_NS port) : Nat) * oneNs
      let s2 := if code = 0 then
          { s1.bump (F.PCIE_EG_TX_OK_COUNT port) with eths := sset ⟨[]⟩ s1.eths port ⟨padFrame frame⟩ } else s1
      (s2.pushEvent (ethReq port) (s2.reg (R.PCIE_EG_TXDONEQ port))
        (done :: if code = 0 ∧ getBits w0 16 16 = 1 then timeWords t else [])).tookFree)

end Sys2Proof.Machine
end

