-- ==== Sys2Proof/Machine/Axis.lean ====
section
/-! DEFINITION. Axis engines (R238 to R255) and the Skiver (R256 to R260). -/

namespace Sys2Proof.Machine

/-- An axis engine. -/
def State.axis (s : State) (x : Nat) : Axis := sget Axis.atReset s.axes x

/-- The state with an axis engine's replaced. -/
def State.setAxis (s : State) (x : Nat) (a : Axis) : State := { s with axes := sset Axis.atReset s.axes x a }

/-- DISABLED. -/
def axDisabled : Nat := 0
/-- IDLE. -/
def axIdle : Nat := 1
/-- MOVE. -/
def axMove : Nat := 2
/-- VEL. -/
def axVel : Nat := 3
/-- STOPPING. -/
def axStopping : Nat := 4
/-- HOMING. -/
def axHoming : Nat := 5
/-- FAULT. -/
def axFault : Nat := 6

/-- AXIS_STATUS.STATE. -/
def State.axState (s : State) (x : Nat) : Nat := s.fld (F.AXIS_STATUS_STATE x)

/-- The state with AXIS_STATUS.STATE set. -/
def State.setAxState (s : State) (x v : Nat) : State := s.setFld (F.AXIS_STATUS_STATE x) v

/-- The state with AXIS_STATUS.RESULT set: 0 OK, 1 BUSY, 2 RANGE, 3 ZERO_LEN, 4 UNHOMED, 5 OWNED. -/
def State.axResult (s : State) (x r : Nat) : State := s.setFld (F.AXIS_STATUS_RESULT x) r

/-- The AXCLK edge at or after a TCLK (R30): AXCLK runs at 100 MHz beside 320 MHz. -/
def axclkAt (t : Nat) : Nat := ceilDiv (5 * t) 16

/-- The AXCLK edge of the present boundary. -/
def State.axNow (s : State) : Nat := axclkAt s.tclk

/-- The AXCLK edge of the next boundary. -/
def State.axNext (s : State) : Nat := axclkAt (s.tclk + s.period)

/-- Requester of the axis engines and the Skiver (R269). -/
def axisReq : Nat := 249

/-! ## Motion (R238, R243) -/

/-- A speed in microsteps per second as a word of 2^-44 microstep per AXCLK. -/
def axSpeedWord (v : Nat) : Nat := v * 2 ^ 44 / 10 ^ 8

/-- An acceleration as a word. -/
def axAccWord (a : Nat) : Nat := a * 2 ^ 60 / 10 ^ 16

/-- A jerk as a word. -/
def axJerkWord (j : Nat) : Nat := j * 2 ^ 60 / 10 ^ 24

/-- AXCLK of a motion. -/
def AxMotion.dur (m : AxMotion) : Nat := segsLen m.segs

/-- The AXCLK at which a motion ends. -/
def AxMotion.stop (m : AxMotion) : Nat := m.t0 + m.dur

/-- Distance, speed and acceleration `dt` AXCLK into a motion, which ends at rest. -/
def AxMotion.at (m : AxMotion) (dt : Nat) : PathState :=
  if m.dur ≤ dt then ⟨m.len, 0, 0⟩
  else
    let p := PathState.upToBy 24 ⟨0, m.v0, m.a0⟩ dt m.segs
    { p with s := if (m.len : Int) < p.s then m.len else p.s }

/-- A distance along a motion as a position. -/
def AxMotion.place (m : AxMotion) (d : Int) : Int := if m.down then m.from' - d else m.from' + d

/-- The motion that runs at an AXCLK, and is not over. -/
def Axis.running (a : Axis) (t : Nat) : Option AxMotion :=
  ((a.plan.filter fun m => decide (m.t0 ≤ t)).getLast?).filter fun m => decide (t < m.stop)

/-- A position as the 48-bit signed accumulator holds it (R238). -/
def wrap48 (p : Int) : Int := signed 48 (unsigned 48 p)

/-- The position along the plan at an AXCLK, in 2^-20 microstep. -/
def Axis.lineAt (a : Axis) (t : Nat) : Int :=
  match (a.plan.filter fun m => decide (m.t0 ≤ t)).getLast? with
  | some m => m.place (m.at (t - m.t0)).s
  | none => a.rest

/-- p at an AXCLK. -/
def Axis.posAt (a : Axis) (t : Nat) : Int := wrap48 (a.lineAt t)

/-- The signed speed word at an AXCLK. -/
def Axis.velAt (a : Axis) (t : Nat) : Int :=
  match a.running t with
  | some m => let v := (m.at (t - m.t0)).v; if m.down then -v else v
  | none => 0

/-- Where and when the plan ends. -/
def Axis.planEnd (a : Axis) : Nat × Int :=
  match a.plan.getLast? with
  | some m => (m.stop, m.place m.len)
  | none => (0, a.rest)

/-- Whether the axis has come to rest before an AXCLK. -/
def Axis.atRestBy (a : Axis) (t : Nat) : Bool := a.plan.isEmpty || decide (a.planEnd.1 < t)

/-- p[47:20]: a position in whole microsteps. -/
def wholeSteps (p : Int) : Int := wrap48 p / 2 ^ 20

/-- The microsteps passed from one whole microstep to another. -/
def stepsBetween (w0 w1 : Int) : List Int :=
  if w0 ≤ w1 then (List.range (w1 - w0).toNat).map fun i : Nat => w0 + 1 + i
  else (List.range (w0 - w1).toNat).map fun i : Nat => w0 - 1 - i

/-- The microsteps commanded after one AXCLK up to another (R248). -/
def Axis.walked (a : Axis) (t0 t1 : Nat) : List (Nat × Int × Int) :=
  if a.atRestBy t0 then []
  else (List.range (t1 - t0)).flatMap fun i : Nat =>
    (stepsBetween (a.lineAt (t0 + i) / 2 ^ 20) (a.lineAt (t0 + i + 1) / 2 ^ 20)).map fun w => (t0 + i + 1, a.posAt (t0 + i + 1), w)

/-- The limits that a plan is made with. -/
structure AxLimits where
  /-- Speed in microsteps per second. -/
  v : Nat
  /-- ACC. -/
  acc : Nat
  /-- JERK. -/
  jerk : Nat

/-- An axis's limits in force, with a speed of its own. -/
def State.axLimits (s : State) (x speed : Nat) : AxLimits := ⟨speed, (s.reg (R.AXIS_ACC x)).toNat, (s.reg (R.AXIS_JERK x)).toNat⟩

/-- Whether a limit is 0, so that nothing moves (R242). -/
def AxLimits.zero (l : AxLimits) : Bool := l.v == 0 || l.acc == 0 || l.jerk == 0

/-- A move from rest at a position to another. -/
def restMove (t : Nat) (p target : Int) (l : AxLimits) : AxMotion :=
  let d := (target - p).natAbs
  ⟨t, moveBy 24 (axJerkWord l.jerk) d (moveClocks (10 ^ 8) (2 ^ 20) d l.v l.acc l.jerk), 0, 0, d, decide (target < p), p,
    axAccWord l.acc, axJerkWord l.jerk⟩

/-- The stop of a motion at an AXCLK under limits given as words: the rest of one that already decelerates to rest. -/
def AxMotion.stopAt (m : AxMotion) (t aMax jMax : Nat) : AxMotion :=
  let dt := t - m.t0
  let p := m.at dt
  if m.dur ≤ dt + finalRamp m.segs then m
  else
    let segs := stopSegs p aMax jMax
    ⟨t, segs, p.v, p.a, (PathState.segsBy 24 ⟨0, p.v, p.a⟩ segs).s.toNat, m.down, m.place p.s, aMax, jMax⟩

/-- An emergency stop of a motion at an AXCLK (R245): a deceleration of EDEC at once, or none at all when EDEC is 0. -/
def AxMotion.emergency (m : AxMotion) (t edec : Nat) : AxMotion :=
  let p := m.at (t - m.t0)
  let e : Int := axAccWord edec
  let dec := ((-e) / 2 ^ 16).natAbs
  let n := if dec = 0 then 0 else ceilDiv p.v.toNat dec
  let len := (PathState.segsBy 24 ⟨0, p.v, -e⟩ [(n - 1, 0)]).s
  ⟨t, [(n, 0)], p.v, -e, if n = 0 then 0 else len.toNat, m.down, m.place p.s, m.aMax, m.jMax⟩

/-- A plan to a position from where an axis is at an AXCLK (R171, R244). -/
def Axis.planTo (a : Axis) (t : Nat) (target : Int) (l : AxLimits) : List AxMotion :=
  match a.running t with
  | none => [restMove t (a.posAt t) target l]
  | some m =>
    let p := m.at (t - m.t0)
    let pos := wrap48 (m.place p.s)
    let d := if m.down then pos - target else target - pos
    let onward := if d < 0 then none else onwardBy 24 p d.toNat (axSpeedWord l.v) (axAccWord l.acc) (axJerkWord l.jerk)
    match onward with
    | some segs => [⟨t, segs, p.v, p.a, d.toNat, m.down, pos, axAccWord l.acc, axJerkWord l.jerk⟩]
    | none =>
      let g := m.stopAt t m.aMax m.jMax
      let r := wrap48 (g.place g.len)
      if r = wrap48 target then [g] else [g, restMove g.stop r target l]

/-- The live registers at a boundary: POS and VEL. -/
def State.showAxis (s : State) (x : Nat) : State :=
  let a := s.axis x
  (s.setReg (R.AXIS_POS x) (BitVec.ofInt 32 (wholeSteps (a.posAt s.axNow)))).setReg (R.AXIS_VEL x)
    (BitVec.ofInt 32 ((a.velAt s.axNow * 10 ^ 8).tdiv (2 ^ 44)))

/-- The axis set on a plan, with the target it ends at. -/
def State.axGo (s : State) (x : Nat) (plan : List AxMotion) (target : Int) : State :=
  s.setAxis x { s.axis x with plan := plan, rest := (s.axis x).posAt s.axNow, target := target, hard := false }

/-! ## Events (R260) -/

/-- An event of an axis. -/
def State.axEvent (s : State) (x code : Nat) : State :=
  s.pushEvent axisReq (s.reg (R.AXIS_EVQ x)) [w32 (code * 2 ^ 24 + x * 2 ^ 16),
    BitVec.ofInt 32 (wholeSteps ((s.axis x).posAt s.axNow)), s.stitchLo]

/-- An event of the Skiver. -/
def State.skvEvent (s : State) (code x fault : Nat) : State :=
  s.pushEvent axisReq (s.reg (R.AXIS_SKV_EVQ 0)) [w32 (code * 2 ^ 24 + x * 2 ^ 16 + fault), s.tree.layerNo, s.stitchLo]

/-! ## The Skiver's roles (R256, R259) -/

/-- AXIS_SKV_STATUS.PHASE. -/
def State.skvPhase (s : State) : Nat := s.fld (F.AXIS_SKV_STATUS_PHASE 0)

/-- The state with AXIS_SKV_STATUS.PHASE set. -/
def State.setSkvPhase (s : State) (p : Nat) : State := s.setFld (F.AXIS_SKV_STATUS_PHASE 0) p

/-- The axis of a role; none for 0x1F. -/
def roleAxis (n : Nat) : Option Nat := if n = 0x1F then none else some n

/-- PLATFORM. -/
def State.skvPlatform (s : State) : Option Nat := roleAxis (s.fld (F.AXIS_SKV_CTRL_PLATFORM 0))

/-- DOSER. -/
def State.skvDoser (s : State) : Option Nat := roleAxis (s.fld (F.AXIS_SKV_CTRL_DOSER 0))

/-- RECOATER. -/
def State.skvRecoater (s : State) : Option Nat := roleAxis (s.fld (F.AXIS_SKV_CTRL_RECOATER 0))

/-- The axes in a role. -/
def State.skvAxes (s : State) : List Nat := s.skvPlatform.toList ++ s.skvDoser.toList ++ s.skvRecoater.toList

/-- Ownership of the role axes set or released. -/
def State.setOwned (s : State) (v : Nat) : State :=
  (s.skvAxes.filter fun x => decide (x < 16)).foldl (fun s x => s.setFld (F.AXIS_STATUS_OWNED x) v) s

/-- A moving axis brought to rest under ACC and JERK; the limits in flight where those are written as 0 since. -/
def State.axDecel (s : State) (x : Nat) : State :=
  let a := s.axis x
  match a.running s.axNow with
  | none => s.setAxis x { a with plan := [], rest := a.posAt s.axNow, target := wholeSteps (a.posAt s.axNow) }
  | some m =>
    let acc := (s.reg (R.AXIS_ACC x)).toNat
    let jerk := (s.reg (R.AXIS_JERK x)).toNat
    let g := if acc = 0 ∨ jerk = 0 then m.stopAt s.axNow m.aMax m.jMax
      else m.stopAt s.axNow (axAccWord acc) (axJerkWord jerk)
    s.axGo x [g] (wholeSteps (g.place g.len))

/-- A moving axis stopped under R245. -/
def State.axEmergency (s : State) (x : Nat) : State :=
  let a := s.axis x
  match a.running s.axNow with
  | none => s.setAxis x { a with plan := [], rest := a.posAt s.axNow, target := wholeSteps (a.posAt s.axNow) }
  | some m =>
    let g := m.emergency s.axNow (s.reg (R.AXIS_EDEC x)).toNat
    let s1 := s.axGo x [g] (wholeSteps (g.place g.len))
    s1.setAxis x { s1.axis x with hard := true }

/-- The Skiver enters FAULT (R257, R259): the axes are released for repair and SKIVER_FAULT is raised. -/
def State.skvFault (s : State) (code x : Nat) : State :=
  let p := s.skvPhase
  let s2 := { s with skiver := { s.skiver with
    faulted := if s.skiver.nextPhase = 0 then p else s.skiver.nextPhase, nextPhase := 0, settleAt := none } }
  (((s2.setSkvPhase 6).setFld (F.AXIS_SKV_STATUS_FAULT 0) code).setOwned 0).skvEvent 0x51 x code

/-- The Skiver's axes but one brought to rest under ACC and JERK (R259). -/
def State.skvStopOthers (s : State) (x : Nat) : State :=
  (s.skvAxes.filter fun y => y != x && decide (y < 16) && (s.axState y == axMove || s.axState y == axVel)).foldl
    (fun s y => (s.axDecel y).setAxState y axStopping) s

/-- The Skiver told that a role axis faulted or was stopped. -/
def State.skvHears (s : State) (x code : Nat) : State :=
  if s.flag (F.AXIS_STATUS_OWNED x) ∧ s.skvPhase ≠ 6 then (s.skvStopOthers x).skvFault code x else s

/-! ## Commands (R242, R244) -/

/-- Whether the axis refuses a move because it is not homed. -/
def State.axUnhomed (s : State) (x : Nat) : Bool := s.flag (F.AXIS_CTRL_REQ_HOME x) && !s.flag (F.AXIS_STATUS_HOMED x)

/-- Whether a position in microsteps lies within the soft limits, edges included. -/
def State.inSoft (s : State) (x : Nat) (t : Int) : Bool :=
  decide ((s.reg (R.AXIS_SOFT_MIN x)).toInt ≤ t) && decide (t ≤ (s.reg (R.AXIS_SOFT_MAX x)).toInt)

/-- Whether MOVE and VEL are accepted in the axis's state. -/
def State.axTakesMove (s : State) (x : Nat) : Bool :=
  s.axState x == axIdle || s.axState x == axMove || s.axState x == axVel

/-- Whether a period change waits: no move starts (R35). -/
def State.periodPending (s : State) : Bool := s.flag F.STCH_STATUS_PENDING

/-- VMAX. -/
def State.axVmax (s : State) (x : Nat) : Nat := (s.reg (R.AXIS_VMAX x)).toNat

/-- The command MOVE. -/
def State.axMoveCmd (s : State) (x : Nat) : State :=
  let t := (s.reg (R.AXIS_TARGET x)).toInt
  let l := s.axLimits x (s.axVmax x)
  let a := s.axis x
  if s.flag (F.AXIS_STATUS_OWNED x) then s.axResult x 5
  else if !s.axTakesMove x then s.axResult x 1
  else if s.axUnhomed x then s.axResult x 4
  else if !s.inSoft x t then s.axResult x 2
  else if l.zero ∨ ((a.running s.axNow).isNone ∧ a.posAt s.axNow = wrap48 (t * 2 ^ 20)) then s.axResult x 3
  else (((s.axGo x (a.planTo s.axNow (t * 2 ^ 20) l) t).setAxState x axMove).axResult x 0).showAxis x

/-- The commands VEL_POS and VEL_NEG. -/
def State.axVelCmd (s : State) (x : Nat) (down : Bool) : State :=
  let t := if down then (s.reg (R.AXIS_SOFT_MIN x)).toInt else (s.reg (R.AXIS_SOFT_MAX x)).toInt
  let l := s.axLimits x (s.axVmax x)
  let a := s.axis x
  let p := a.posAt s.axNow
  let none := if down then decide (p ≤ t * 2 ^ 20) else decide (t * 2 ^ 20 ≤ p)
  if s.flag (F.AXIS_STATUS_OWNED x) then s.axResult x 5
  else if !s.axTakesMove x then s.axResult x 1
  else if s.axUnhomed x then s.axResult x 4
  else if l.zero ∨ ((a.running s.axNow).isNone ∧ none) then s.axResult x 3
  else (((s.axGo x (a.planTo s.axNow (t * 2 ^ 20) l) t).setAxState x axVel).axResult x 0).showAxis x

/-- The role that an input has: 0 none, 1 MIN, 2 MAX, 3 HOME (R250). -/
def State.switchRole (s : State) (x k : Nat) : Nat := getBits (s.reg (R.AXIS_SWCFG x)) (3 * k + 1) (3 * k)

/-- Whether an input is active-low. -/
def State.switchLow (s : State) (x k : Nat) : Bool := getBits (s.reg (R.AXIS_SWCFG x)) (3 * k + 2) (3 * k + 2) == 1

/-- The inputs with the HOME role. -/
def State.homeInputs (s : State) (x : Nat) : List Nat := [0, 1, 2].filter fun k => s.switchRole x k == 3

/-- HOME_CFG.MODE: 0 SWITCH, 1 INDEX, 2 STALL. -/
def State.homeMode (s : State) (x : Nat) : Nat := s.fld (F.AXIS_HOME_CFG_MODE x)

/-- The speed of homing. -/
def State.homeSpeed (s : State) (x : Nat) : Nat := (s.reg (R.AXIS_HOME_SPEED x)).toNat

/-- A switch input's qualified active state. -/
def State.switchActive (s : State) (x k : Nat) : Bool :=
  ((s.axis x).switches.getD k ⟨s.switchLow x k, 0, s.switchLow x k⟩).qual != s.switchLow x k

/-- Whether an axis is in a state in which a fault condition acts: not DISABLED, not FAULT, and the code not found yet. -/
def State.axCanFault (s : State) (x code : Nat) : Bool :=
  s.axState x != axDisabled && s.axState x != axFault && !(s.axis x).codes.contains code

/-- Whether a homing in STALL mode runs (R247, R248). -/
def State.stallHoming (s : State) (x : Nat) : Bool := s.axState x == axHoming && s.homeMode x == 2

/-- Whether the axis was homing when its stop began at the present boundary or still is. -/
def State.homesNow (s : State) (x : Nat) : Bool :=
  s.axState x == axHoming || (s.axState x == axStopping && (s.axis x).home.step != 0)

/-- Whether a limit input stops the axis with LIMIT_HIT or, in a homing, with HOME_WRONG_LIMIT (R250, R253). -/
def State.limitActs (s : State) (x k : Nat) : Bool :=
  let role := s.switchRole x k
  let v := (s.axis x).velAt s.axNow
  s.switchActive x k && (role == 1 || role == 2)
    && (s.homesNow x || (role == 1 && decide (v < 0)) || (role == 2 && decide (0 < v)))

/-- Whether a fault condition sampled at the present boundary will stop the axis: a STOP or ESTOP beside it changes nothing
(R255). -/
def State.axFaultDue (s : State) (x : Nat) : Bool :=
  (s.axCanFault x 1 && !s.stallHoming x && (s.axis x).stallAt.isSome)
    || (s.axCanFault x 2 && s.flag (F.AXIS_CTRL_LOST_STOP x) && (s.axis x).lostDue)
    || ([0, 1, 2].any fun k => s.limitActs x k && s.axCanFault x (if s.homesNow x then 4 else 3))
    || (s.axState x == axHoming && (s.axis x).home.chatter && s.axCanFault x 5)

/-- The commands STOP and ESTOP. -/
def State.axStopCmd (s : State) (x : Nat) (hard : Bool) : State :=
  let st := s.axState x
  if st = axDisabled ∨ st = axFault then s.axResult x 1
  else if s.axFaultDue x then s.axResult x 0
  else
    let s1 :=
      if st = axIdle then s
      else if st = axStopping ∧ !hard then s
      else
        let s' := if hard then s.axEmergency x else s.axDecel x
        (s'.setAxis x { s'.axis x with home := Homing.none }).setAxState x axStopping
    (s1.axResult x 0).skvHears x 5

/-- AXCLK that a level must hold (R250). -/
def State.debounce (s : State) (x : Nat) : Nat := 100 * s.fld (F.AXIS_SWCFG_DEBOUNCE x)

/-- A HOME input judged up to an AXCLK: a level that has held for the debounce qualifies, and one that is active is noted. -/
def HomeInput.judge (h : HomeInput) (t deb : Nat) (low : Bool) : HomeInput :=
  match h.edge with
  | none => h
  | some e =>
    if h.held ∨ t < e + deb then h
    else { h with held := true, hit := if h.level = low then h.hit else some (e, h.pos) }

/-- The HOME input judged up to an AXCLK. -/
def State.homeJudged (s : State) (x t : Nat) : HomeInput :=
  match s.homeInputs x with
  | k :: _ => (s.axis x).homeIn.judge t (s.debounce x) (s.switchLow x k)
  | [] => (s.axis x).homeIn

/-- A run at a speed that goes on until the axis is stopped. -/
def endlessRun (t : Nat) (p : Int) (down : Bool) (l : AxLimits) : AxMotion :=
  let (n1, n2) := rampClocks (10 ^ 8) l.v l.acc l.jerk
  let shape : SegShape := [(n1, 1), (n2, 0), (n1, -1)]
  let w : Int := axSpeedWord l.v
  let ramp := withJerk shape (largestJerk shape (axJerkWord l.jerk) fun g => decide ((PathState.segs ⟨0, 0, 0⟩ g).v ≤ w))
  ⟨t, ramp ++ [(2 ^ 64, 0)], 0, 0, 2 ^ 128, down, p, axAccWord l.acc, axJerkWord l.jerk⟩

/-- The command HOME (R252). -/
def State.axHomeCmd (s : State) (x : Nat) : State :=
  let mode := s.homeMode x
  let l := s.axLimits x (s.homeSpeed x)
  let a := s.axis x
  if s.flag (F.AXIS_STATUS_OWNED x) then s.axResult x 5
  else if s.axState x ≠ axIdle then s.axResult x 1
  else if l.zero ∨ s.axVmax x = 0 then s.axResult x 3
  else if mode = 3 ∨ 1 < (s.homeInputs x).length ∨ (mode = 2 ∧ s.flag (F.AXIS_CTRL_LA_SRC x) ∧ l.v < 25600)
      ∨ (mode = 1 ∧ !s.flag (F.AXIS_CTRL_ENC_EN x)) then s.axResult x 2
  else
    let s1 := s.axGo x [endlessRun s.axNow (a.posAt s.axNow) (s.flag (F.AXIS_HOME_CFG_DIR x)) l] (wholeSteps (a.posAt s.axNow))
    let s2 := s1.setAxis x { s1.axis x with
      home := { Homing.none with step := 1 }, homeIn := { s.homeJudged x s.axNow with hit := none } }
    ((s2.setFld (F.AXIS_STATUS_HOMED x) 0).setAxState x axHoming).axResult x 0

/-- The command CLEAR. -/
def State.axClearCmd (s : State) (x : Nat) : State :=
  if s.flag (F.AXIS_STATUS_OWNED x) then s.axResult x 5
  else if s.axState x ≠ axFault then s.axResult x 1
  else ((((s.setAxis x { s.axis x with stopCode := 0, codes := [] }).setAxState x axIdle).setFld (F.AXIS_STATUS_FAULT x)
    0).axResult x 0)

/-- The position set to whole microsteps, with the encoder reference aligned and HOMED set. -/
def State.axSetTo (s : State) (x : Nat) (p : Int) : State :=
  let a := s.axis x
  ((s.setAxis x { a with plan := [], rest := wrap48 (p * 2 ^ 20), target := p, encRef := a.enc, encPos := p }).setFld
    (F.AXIS_STATUS_HOMED x) 1).showAxis x

/-- The command SET_POS. -/
def State.axSetPosCmd (s : State) (x : Nat) : State :=
  if s.flag (F.AXIS_STATUS_OWNED x) then s.axResult x 5
  else if s.axState x ≠ axIdle then s.axResult x 1
  else (s.axSetTo x (s.reg (R.AXIS_SETPOS x)).toInt).axResult x 0

/-- A command of AXIS_CMD carried out at the present boundary; a move waits for the next one while a period change does
(R35). -/
def State.axCommand (s : State) (x c : Nat) : State :=
  let later := s.addCmd (R.AXIS_CMD x) (w32 c)
  match c with
  | 1 => if s.periodPending then later else s.axMoveCmd x
  | 2 => if s.periodPending then later else s.axVelCmd x false
  | 3 => if s.periodPending then later else s.axVelCmd x true
  | 4 => s.axStopCmd x false
  | 5 => s.axStopCmd x true
  | 6 => if s.periodPending then later else s.axHomeCmd x
  | 7 => s.axClearCmd x
  | 8 => s.axSetPosCmd x
  | _ => s

/-- MOVE (R242, R244). -/
def execMove (axis : Nat) (s : State) : Host.Outcome State Fault Refusal := .next (s.axCommand axis 1)

/-- VEL_POS (R242). -/
def execVelPos (axis : Nat) (s : State) : Host.Outcome State Fault Refusal := .next (s.axCommand axis 2)

/-- VEL_NEG (R242). -/
def execVelNeg (axis : Nat) (s : State) : Host.Outcome State Fault Refusal := .next (s.axCommand axis 3)

/-- STOP (R242). -/
def execAxisStop (axis : Nat) (s : State) : Host.Outcome State Fault Refusal := .next (s.axCommand axis 4)

/-- ESTOP (R245). -/
def execEstop (axis : Nat) (s : State) : Host.Outcome State Fault Refusal := .next (s.axCommand axis 5)

/-- HOME (R252). -/
def execHome (axis : Nat) (s : State) : Host.Outcome State Fault Refusal := .next (s.axCommand axis 6)

/-- CLEAR (R242). -/
def execAxisClear (axis : Nat) (s : State) : Host.Outcome State Fault Refusal := .next (s.axCommand axis 7)

/-- SET_POS (R242). -/
def execSetPos (axis : Nat) (s : State) : Host.Outcome State Fault Refusal := .next (s.axCommand axis 8)

/-! ## The ends of moves -/

/-- The axis at the rest point of its plan. -/
def State.axLand (s : State) (x : Nat) : State :=
  let a := s.axis x
  s.setAxis x { a with plan := [], rest := wrap48 a.planEnd.2, target := wholeSteps a.planEnd.2 }

/-- Whether the axis comes to rest in the present Stitch or before. -/
def State.axAtRest (s : State) (x : Nat) : Bool := (s.axis x).atRestBy s.axNext

/-- MOVE_DONE (R260): a MOVE is at rest at its target. -/
def execMoveDone (axis : Nat) (s : State) : Host.Outcome State Fault Refusal :=
  .next (
    if s.axState axis = axMove ∧ s.axAtRest axis then (((s.axLand axis).setAxState axis axIdle).showAxis axis).axEvent axis 0x47
    else s)

/-- SOFT_LIMIT (R244): a VEL is at rest at the soft limit ahead. -/
def execSoftLimit (axis : Nat) (s : State) : Host.Outcome State Fault Refusal :=
  .next (
    if s.axState axis = axVel ∧ s.axAtRest axis then (((s.axLand axis).setAxState axis axIdle).showAxis axis).axEvent axis 0x46
    else s)

/-- AXIS_REST (R242, R255): a stopping axis is at rest: FAULT with the lowest code, DISABLED when ENABLE was cleared, else
IDLE. -/
def execAxisRest (axis : Nat) (s : State) : Host.Outcome State Fault Refusal :=
  .next (
    if s.axState axis = axStopping ∧ s.axAtRest axis then
      let code := (s.axis axis).stopCode
      let s0 := s.axLand axis
      let s1 := (s0.setAxis axis { s0.axis axis with home := Homing.none }).showAxis axis
      if !s.flag (F.AXIS_CTRL_ENABLE axis) then
        (s1.setAxis axis { s1.axis axis with stopCode := 0, codes := [], home := Homing.none }).setAxState axis axDisabled
      else if code = 0 then s1.setAxState axis axIdle
      else ((s1.setAxState axis axFault).setFld (F.AXIS_STATUS_FAULT axis) code).skvHears axis 4
    else s)

/-! ## Faults (R248 to R255) -/

/-- A fault condition found: its event, and the lowest code of the stop; the first one stops the axis, at once under R245
or under ACC and JERK. A homing it ends is remembered until the axis is at rest, for the other conditions of the boundary (R255). -/
def State.axFaults (s : State) (x code event : Nat) (hard : Bool) : State :=
  let a := s.axis x
  let s1 := s.setAxis x { a with
    codes := a.codes ++ [code], stopCode := if a.stopCode = 0 then code else min a.stopCode code }
  let s2 := if a.stopCode ≠ 0 then s1
    else ((if hard then s1.axEmergency x else s1.axDecel x).setAxState x axStopping)
  s2.axEvent x event

/-- The latch of L (R252 step 3). -/
def State.homeLatch (s : State) (x : Nat) (l : Int) (t step : Nat) : State :=
  (s.setAxis x { s.axis x with home := { (s.axis x).home with step := step, latched := some t, latchPos := l } }).setReg
    (R.AXIS_HOME_LATCH x) (BitVec.ofInt 32 (wholeSteps l))

/-- STALL (R248, R252): a qualified stall ends step 2 of STALL homing, and outside a homing in STALL mode it stops the axis in
FAULT. -/
def execStall (axis : Nat) (s : State) : Host.Outcome State Fault Refusal :=
  let a := s.axis axis
  .next (
    match a.stallAt with
    | none => s
    | some (t, p) =>
      if !s.axCanFault axis 1 then s
      else
        let s1 := s.setAxis axis { a with stall := 0, stallAt := none }
        if s1.stallHoming axis then
          if a.home.step = 1 then ((s1.homeLatch axis p t 4).axEmergency axis) else s1
        else (s1.axFaults axis 1 0x40 true).setFld (F.AXIS_STATUS_HOMED axis) 0)

/-- LOST_STEP (R249): raised once for each time the encoder leaves the window; with LOST_STOP it stops the axis. -/
def execLostStep (axis : Nat) (s : State) : Host.Outcome State Fault Refusal :=
  .next (
    if !(s.axis axis).lostDue then s
    else
      let s1 := s.setAxis axis { s.axis axis with lostDue := false }
      if s1.flag (F.AXIS_CTRL_LOST_STOP axis) ∧ s1.axCanFault axis 2 then
        (s1.axFaults axis 2 0x41 true).setFld (F.AXIS_STATUS_HOMED axis) 0
      else s1.axEvent axis 0x41)

/-- LIMIT_HIT (R250, R253): a limit active while the axis moves toward it, or during a homing any limit. -/
def execLimitHit (axis input : Nat) (s : State) : Host.Outcome State Fault Refusal :=
  .next (
    if !s.limitActs axis input then s
    else if s.homesNow axis then
      if s.axCanFault axis 4 then s.axFaults axis 4 0x44 true else s
    else if s.axCanFault axis 3 then s.axFaults axis 3 0x42 true
    else s)

/-- An edge of the HOME input after the latching edge at AXCLK `t0`, until step 5 (R254). -/
def State.homeCounts (s : State) (x t t0 : Nat) : State :=
  let a := s.axis x
  let h := a.home
  let counts := s.fld (F.AXIS_CHATTER_WIN x) != 0 && decide (t ≤ t0 + 10000 * s.fld (F.AXIS_CHATTER_WIN x))
  let edges := if counts then h.edges + 1 else h.edges
  let s1 := s.setAxis x { a with home := { h with
    edges := edges, chatter := h.chatter || (counts && decide (s.fld (F.AXIS_HOME_CFG_CHATTER_MAX x) < edges)) } }
  if t ≤ t0 + 100 * s.fld (F.AXIS_CHATTER_LOCKOUT x) then s1.bump (F.AXIS_CHATTER_CNT_COUNT x) else s1

/-- HOME_EDGE (R251, R254): a raw edge of the HOME input at an AXCLK of this Stitch begins a level that may qualify; the level
before it is judged first. From the latching edge until step 5 it is counted. -/
def execHomeEdge (axis : Nat) (level : Bool) (axclk : Nat) (s : State) : Host.Outcome State Fault Refusal :=
  let t := s.axNow + axclk
  let h := s.homeJudged axis t
  let s1 := s.setAxis axis { s.axis axis with
    homeIn := { h with level := level, edge := some t, pos := (s.axis axis).posAt t, held := false } }
  .next (
    if s.axState axis ≠ axHoming then s1
    else match (s.axis axis).home.step, (s.axis axis).home.latched, h.hit with
      | 3, some t0, _ => s1.homeCounts axis t t0
      | 4, some t0, _ => s1.homeCounts axis t t0
      | 1, _, some (t0, _) => if s.homeMode axis = 0 then s1.homeCounts axis t t0 else s1
      | _, _, _ => s1)

/-- INDEX_PULSE (R252): in INDEX homing, the first pulse after the HOME input qualified, or the first when no input has that
role, latches L at its AXCLK; the axis comes to rest from the next boundary. -/
def execIndexPulse (axis axclk : Nat) (s : State) : Host.Outcome State Fault Refusal :=
  let a := s.axis axis
  let t := s.axNow + axclk
  let seen := a.home.seen || (s.homeJudged axis t).hit.isSome || s.homeInputs axis == []
  .next (
    if s.axState axis = axHoming ∧ s.homeMode axis = 1 ∧ a.home.step = 1 ∧ seen then s.homeLatch axis (a.posAt t) t 3
    else s)

/-- CHATTER (R254): too many edges in the window; the axis comes to rest under ACC and JERK and homing fails. -/
def execChatter (axis : Nat) (s : State) : Host.Outcome State Fault Refusal :=
  .next (
    if s.homesNow axis ∧ (s.axis axis).home.chatter ∧ s.axCanFault axis 5 then s.axFaults axis 5 0x45 false else s)

/-- HOME_DONE (R252 step 6): at rest at the offset, the position is set and HOMED. -/
def execHomeDone (axis : Nat) (s : State) : Host.Outcome State Fault Refusal :=
  .next (
    if s.axState axis = axHoming ∧ (s.axis axis).home.step = 5 ∧ s.axAtRest axis then
      let s1 := s.axSetTo axis (s.reg (R.AXIS_HOME_POS axis)).toInt
      ((s1.setAxis axis { s1.axis axis with home := Homing.none }).setAxState axis axIdle).axEvent axis 0x43
    else s)

/-! ## Waveforms and current (R239 to R241, R247) -/

/-- A signed fixed-point value in 2^-62 units as a word of Q1.15 steps of 1 / 32,767. -/
def waveHalf (c : Int) : Nat := unsigned 16 (divRound (32767 * c) (2 ^ 62))

/-- The reset entry of every bank: A and B of a sine of 1,024 microsteps a cycle. -/
def resetWave (i : Nat) : Word :=
  let (c, sn) := trigCode (64 * i)
  w32 (waveHalf sn * 2 ^ 16 + waveHalf c)

/-- Entry `i` of a bank. -/
def State.waveEntry (s : State) (x bank i : Nat) : Word :=
  match sget none (s.axis x).wave (256 * bank + i) with
  | some w => w
  | none => resetWave i

/-- The coil fractions of phases A and B for a position, as signed Q1.15 (R239). -/
def State.coils (s : State) (x : Nat) (p : Int) : Int × Int :=
  let e := unsigned 10 (wholeSteps p)
  let w := s.waveEntry x (s.fld (F.AXIS_STATUS_BANK_USED x)) (e % 256)
  let a := signed 16 (getBits w 15 0)
  let b := signed 16 (getBits w 31 16)
  let (fa, fb) := match e / 256 with
    | 0 => (a, b)
    | 1 => (-b, a)
    | 2 => (-a, -b)
    | _ => (b, -a)
  (fa, if s.flag (F.AXIS_CTRL_INVERT x) then -fb else fb)

/-- The coil current targets of phases A and B for a position: the amplitude times its fraction, in 2^-15 of an amplitude code
(R239). -/
def State.coilTarget (s : State) (x : Nat) (p : Int) : Int × Int :=
  let c := s.coils x p
  let amp : Int := s.fld (F.AXIS_DRIVE_AMP x)
  (amp * c.1, amp * c.2)

/-- What the chopper does with a phase (R246). -/
inductive Bridge where
  /-- Switched on. -/
  | on
  /-- Fast decay. -/
  | fast
  /-- Slow decay. -/
  | slow
  /-- The bridge is off. -/
  | off
  deriving DecidableEq, Repr

/-- A phase at AXCLK `n` of a period of `div`: on until the sensed current reaches the target, at AXCLK `reach` of the period;
then decay, the first fast/256 of it fast (R246). -/
def chopPhase (div fast : Nat) (reach : Option Nat) (n : Nat) : Bridge :=
  match reach with
  | none => .on
  | some r => if n < r then .on else if (n - r) * 256 < fast * (div - r) then .fast else .slow

/-- A bridge phase of an axis at an AXCLK of its chopper period; a DISABLED axis has its bridges off (R246, R247). -/
def State.bridge (s : State) (x : Nat) (reach : Option Nat) (n : Nat) : Bridge :=
  if s.axState x = axDisabled then .off
  else chopPhase (s.fld (F.AXIS_CHOP_DIV x)) (s.fld (F.AXIS_CHOP_FAST x)) reach n

/-- Words written to a bank. -/
def putWave (m : Sparse (Option Word)) (k : Nat) : List PWord → Sparse (Option Word)
  | [] => m
  | w :: ws => putWave (sset none m k (some w.val)) (k + 1) ws

/-- The end of a waveform load, with its result. -/
def State.waveDone (s : State) (x r : Nat) : State :=
  (s.setFld (F.AXIS_WAVE_CMD_START x) 0).setFld (F.AXIS_WAVE_CMD_RESULT x) r

/-- The first `n` words of a buffer copied into a bank; POISON and no copy when one is poisoned. -/
def State.waveCopy (s : State) (x bank key n : Nat) : State :=
  let (s1, ws) := s.readBufs key 0 n
  if ws.any fun w => w.poison then s1.waveDone x 3
  else (s1.setAxis x { s1.axis x with wave := putWave (s1.axis x).wave (256 * bank) ws }).waveDone x 0

/-- A waveform load (R240). -/
def State.waveLoad (s : State) (x bank : Nat) : State :=
  if s.fld (F.AXIS_STATUS_BANK_USED x) = bank ∧ s.axState x ≠ axIdle ∧ s.axState x ≠ axDisabled then s.waveDone x 1
  else match s.namedBuffer (s.reg (R.AXIS_WAVE_SRC x)) with
    | none => s.waveDone x 2
    | some key =>
      if (s.stream key).size < 1024 ∨ (s.stream key).spill then s.waveDone x 2 else s.waveCopy x bank key 256

/-- WAVE_LOAD (R240): a write of AXIS_WAVE_CMD with START set. -/
def execWaveLoad (src : Source) (axis : Nat) (val : Word) (s : State) : Host.Outcome State Fault Refusal :=
  .next (s.gate src (R.AXIS_WAVE_CMD axis) (val ||| 0x80000000) fun s => (s.setFld (F.AXIS_WAVE_CMD_BANK axis) (getBits val 1 0)).waveLoad axis (getBits val 1 0))

/-- The bank that the configuration and the band select (R241). -/
def State.bankWanted (s : State) (x : Nat) : Nat :=
  if s.flag (F.AXIS_CTRL_BAND_BANK x) then s.fld (F.THRM_BAND_GROUP_BAND 3) else s.fld (F.AXIS_CTRL_BANK x)

/-- BANK_SWITCH (R241): at rest at once; on a moving axis where the table index wraps within the Stitch. -/
def execBankSwitch (axis : Nat) (s : State) : Host.Outcome State Fault Refusal :=
  let a := s.axis axis
  let wraps := a.posAt s.axNow / 2 ^ 28 != a.posAt s.axNext / 2 ^ 28
  .next (
    if s.bankWanted axis ≠ s.fld (F.AXIS_STATUS_BANK_USED axis) ∧ ((a.running s.axNow).isNone ∨ wraps) then
      s.setFld (F.AXIS_STATUS_BANK_USED axis) (s.bankWanted axis)
    else s)

/-- The amplitude's next value (R247). -/
def nextAmp (amp la hold ceil low high rise fall : Nat) : Nat :=
  let t0 : Int := if high ≤ la then ceil
    else if low < la then (hold : Int) + ((ceil : Int) - hold) * ((la : Int) - low) / ((high : Int) - low)
    else hold
  let t := (min t0 ceil).toNat
  if amp < t then min t (amp + rise) else if t < amp then max t (amp - fall) else amp

/-- The position that the encoder gives, in 2^-16 microstep (R249). -/
def State.encSteps (s : State) (x : Nat) : Int :=
  let a := s.axis x
  (a.enc - a.encRef) * (s.reg (R.AXIS_ENC_SCALE x)).toInt + a.encPos * 2 ^ 16

/-- The load angle of a commanded microstep against the encoder (R247, R249). -/
def State.rotorAngle (s : State) (x : Nat) (w : Int) : Int := (w - s.encSteps x / 2 ^ 16 + 512) % 1024 - 512

/-- Whether the encoder gives the rotor's index. -/
def State.encoderAngle (s : State) (x : Nat) : Bool := !s.flag (F.AXIS_CTRL_LA_SRC x) && s.flag (F.AXIS_CTRL_ENC_EN x)

/-- The load angle at a boundary (R247); what the spec gives no source for is a free value. -/
def State.loadAngle (s : State) (x : Nat) : State × Int :=
  let a := s.axis x
  let v := (a.velAt s.axNow).natAbs
  if s.flag (F.AXIS_CTRL_LA_SRC x) ∧ v < axSpeedWord 25600 then (s, 0)
  else if s.encoderAngle x then (s, s.rotorAngle x (wholeSteps (a.posAt s.axNow)))
  else (s.tookFree, signed 10 s.free.toNat)

/-- The count of microsteps in a row at which the stall conditions hold, over the microsteps of a Stitch, and the first of them
at which the count reached `n`. -/
def stallRun (ok : Int → Bool) (n : Nat) : Nat → List (Nat × Int × Int) → Nat × Option (Nat × Int)
  | run, [] => (run, none)
  | run, (t, p, w) :: l =>
    let run' := if ok w then run + 1 else 0
    let r := stallRun ok n run' l
    (r.1, if n ≠ 0 ∧ n ≤ run' then some (t, p) else r.2)

/-- The stall count over the ended Stitch (R248): the amplitude in force during it, and the load angle at each commanded microstep
against the rotor as sampled. -/
def State.axStall (s : State) (x : Nat) (la : Int) (ceil : Nat) : State :=
  let a := s.axis x
  let th := s.fld (F.AXIS_STALL_TH x)
  let full := s.fld (F.AXIS_DRIVE_AMP x) == ceil
  let angle := fun w : Int => if s.encoderAngle x then s.rotorAngle x w else la
  let (run, found) := stallRun (fun w => full && decide (th < (angle w).natAbs)) (s.fld (F.AXIS_STALL_N x)) a.stall a.walk
  s.setAxis x { a with stall := if full ∧ th < la.natAbs then run else 0, stallAt := found, walk := [] }

/-- The current work of a boundary for an axis that is not DISABLED. -/
def State.axDrive (s : State) (x : Nat) : State :=
  let (s1, la) := s.loadAngle x
  let run := if s1.stallHoming x then s1.fld (F.AXIS_HOME_CFG_HOME_CUR x) else s1.fld (F.AXIS_CURRENT_RUN_CEIL x)
  let ceil := min run (s1.fld (F.AXIS_THR_CEIL_CODE x))
  let amp := nextAmp (s1.fld (F.AXIS_DRIVE_AMP x)) la.natAbs (s1.fld (F.AXIS_CURRENT_HOLD x)) ceil
    (s1.fld (F.AXIS_LA_LAW_LA_LOW x)) (s1.fld (F.AXIS_LA_LAW_LA_HIGH x)) (s1.fld (F.AXIS_SLEW_RISE x))
    (s1.fld (F.AXIS_SLEW_FALL x))
  ((s1.axStall x la ceil).setFld (F.AXIS_DRIVE_AMP x) amp).setFld (F.AXIS_DRIVE_LA x) (unsigned 10 la)

/-- The comparison of the encoder with the position, at every boundary (R249). -/
def State.axCompare (s : State) (x : Nat) : State :=
  let a := s.axis x
  let win := (s.reg (R.AXIS_ENC_WIN x)).toNat
  let out := s.flag (F.AXIS_CTRL_ENC_EN x) && win != 0
    && decide (win * 2 ^ 16 < (s.encSteps x - wholeSteps (a.posAt s.axNow) * 2 ^ 16).natAbs)
  s.setAxis x { a with lostNow := out, lostDue := a.lostDue || (out && !a.lostNow) }

/-! ## The boundary -/

/-- A switch input after a boundary's sample. -/
def Switch.sample (w : Switch) (raw : Bool) (t debounce : Nat) : Switch :=
  let w1 := if raw = w.raw then w else { w with raw := raw, since := t }
  if debounce * 320 ≤ t - w1.since then { w1 with qual := w1.raw } else w1

/-- The three inputs sampled; an input the sample does not list is inactive. -/
def State.sampleSwitches (s : State) (x : Nat) (inp : BoundaryIn) : List Switch :=
  [0, 1, 2].map fun k =>
    ((s.axis x).switches.getD k ⟨s.switchLow x k, s.tclk, s.switchLow x k⟩).sample
      (inp.switches.getD (4 * x + k) (s.switchLow x k)) s.tclk (s.fld (F.AXIS_SWCFG_DEBOUNCE x))

/-- ENABLE as committed acts: cleared on a moving axis it acts as ESTOP (R255). Under a restart the axis waits (R387). -/
def State.axEnable (s : State) (x : Nat) : State :=
  let st := s.axState x
  if s.restarting 4 x then s
  else if s.flag (F.AXIS_CTRL_ENABLE x) then
    if st = axDisabled then s.setAxState x axIdle else s
  else if st = axDisabled then s
  else
    let s1 := if s.flag (F.AXIS_CTRL_ENC_EN x) then s else s.setFld (F.AXIS_STATUS_HOMED x) 0
    if ((s.axis x).running s.axNow).isSome then
      if (s.axis x).hard ∧ st = axStopping then s1
      else
        let s2 := s1.axEmergency x
        ((s2.setAxis x { s2.axis x with home := Homing.none }).setAxState x axStopping).skvHears x 5
    else if st = axStopping then s1
    else ((s1.setAxis x { s1.axis x with home := Homing.none, stopCode := 0, codes := [] }).setFld (F.AXIS_STATUS_FAULT x)
      0).setAxState x axDisabled

/-- The inputs of an axis sampled at a boundary: its switches and its encoder (R29, R250). -/
def State.axSample (s : State) (x : Nat) (inp : BoundaryIn) : State :=
  let a := s.axis x
  let enc := inp.enc.getD x a.enc
  (s.setAxis x { a with enc := enc, switches := s.sampleSwitches x inp }).setReg (R.AXIS_ENC x) (BitVec.ofInt 32 enc)

/-- What an axis does at a boundary before its commands: ENABLE acts, the encoder is compared, and the current follows its law. -/
def State.axJudge (s : State) (x : Nat) : State :=
  let s1 := (s.axEnable x).axCompare x
  if s1.axState x = axDisabled then (s1.setFld (F.AXIS_DRIVE_AMP x) 0).setAxis x { s1.axis x with stall := 0, stallAt := none, walk := [] }
  else s1.axDrive x

/-- The microsteps that an axis was commanded in the Stitch that ends. -/
def State.axWalk (s : State) (x : Nat) : State :=
  let a := s.axis x
  if a.plan = [] then s else s.setAxis x { a with walk := a.walked s.axNow s.axNext }

/-- The homing steps that a boundary moves (R252): a level that qualified, an index pulse that latched, and step 5 after rest. -/
def State.axHomeBoundary (s : State) (x : Nat) : State :=
  let a := s.axis x
  let h := a.home
  if s.axState x ≠ axHoming then s
  else if h.step = 1 then
    let j := s.homeJudged x s.axNow
    let s1 := s.setAxis x { a with homeIn := { j with hit := none } }
    match j.hit with
    | some (t, p) =>
      if s.homeMode x = 0 then (s1.homeLatch x p t 4).axDecel x
      else s1.setAxis x { s1.axis x with home := { h with seen := true } }
    | none => s1
  else if h.step = 3 then (s.setAxis x { a with home := { h with step := 4 } }).axDecel x
  else if h.step = 4 ∧ a.atRestBy s.axNow then
    let target := h.latchPos + (s.reg (R.AXIS_HOME_OFS x)).toInt * 2 ^ 20
    let s1 := s.axLand x
    let l := s1.axLimits x (s1.homeSpeed x)
    let s2 := s1.axGo x (if (s1.axis x).rest = wrap48 target then [] else [restMove s1.axNow (s1.axis x).rest target l])
      (wholeSteps target)
    s2.setAxis x { s2.axis x with home := { h with step := 5 } }
  else s

/-- What a boundary does to an axis engine after its commands. -/
def State.axisBoundary (s : State) (x : Nat) : State := (s.axHomeBoundary x).showAxis x

/-! ## The Skiver (R256 to R259) -/

/-- Whether a position lies within an axis's soft limits; true for no axis. -/
def State.softOk (s : State) (x : Option Nat) (t : Int) : Bool :=
  match x with
  | none => true
  | some x => s.inSoft x t

/-- The present target of a role's axis. -/
def State.roleTarget (s : State) (x : Option Nat) : Int :=
  match x with
  | none => 0
  | some x => (s.axis x).target

/-- A Skiver register's signed value. -/
def State.skvInt (s : State) (a : Nat) : Int := (s.reg a).toInt

/-- The targets fixed at the start: platform, doser, spread start, spread end, and RETURN's park position (R257). -/
def State.skvTargets (s : State) (dz : Nat) : List Int :=
  let scaled := fun k : Int => roundShift ((dz : Int) * k) 16
  let park := s.skvInt (R.AXIS_SKV_PARK 0)
  let stop := s.skvInt (R.AXIS_SKV_END 0)
  let back := s.flag (F.AXIS_SKV_CTRL_BIDIR 0) && s.flag (F.AXIS_SKV_STATUS_DIR 0)
  [s.roleTarget s.skvPlatform + scaled (s.skvInt (R.AXIS_SKV_PLAT_K 0)),
    s.roleTarget s.skvDoser + scaled (s.skvInt (R.AXIS_SKV_DOSE_K 0)) + s.skvInt (R.AXIS_SKV_DOSE_OFS 0),
    if back then stop else park, if back then park else stop, park]

/-- The checks of R257 in order: a code and the axis; none when all pass. The fourth applies only at the start. -/
def State.skvChecks (s : State) (targets : List Int) (start : Bool) : Option (Nat × Nat) :=
  let axes := s.skvAxes
  let t := fun i => targets.getD i 0
  match axes.find? (fun x => !s.part.hasUnit .axis x) with
  | some x => some (6, x)
  | none => match axes.find? (fun x => s.axState x != axIdle) with
    | some x => some (1, x)
    | none => match axes.find? (fun x => s.axUnhomed x) with
      | some x => some (3, x)
      | none =>
        if !start then none
        else if !s.softOk s.skvPlatform (t 0) then some (2, (s.skvPlatform).getD 0)
        else if !s.softOk s.skvDoser (t 1) then some (2, (s.skvDoser).getD 0)
        else if !s.softOk s.skvRecoater (t 2) ∨ !s.softOk s.skvRecoater (t 3) then some (2, (s.skvRecoater).getD 0)
        else none

/-- Layer-ready signalled in the present Stitch, the axes released, SKIVER_DONE raised. -/
def State.skvReady (s : State) : State :=
  let s1 := { s with
    tree := { s.tree with readyAt := some s.now }
    skiver := { s.skiver with nextPhase := 0, settleAt := none } }
  ((s1.setOwned 0).setSkvPhase 0).skvEvent 0x50 0 0

/-- SKIVER_START (R256): the Tree starts the Skiver with the layer's DZ. -/
def State.skvStart (s : State) (dz : Nat) : State :=
  let s0 := { s with skiver := { s.skiver with startAt := s.now, settleAt := none, nextPhase := 0 } }
  match s0.fld (F.AXIS_SKV_CTRL_MODE 0) with
  | 1 =>
    let ts := s0.skvTargets dz
    let s1 := { s0 with skiver := { s0.skiver with targets := ts, nextPhase := 1 } }
    match s1.skvChecks ts true with
    | some (code, x) => s1.skvFault code x
    | none => s1.setOwned 1
  | 2 => s0.setSkvPhase 5
  | _ => s0.skvReady

/-- The axis of a role that takes no move when a phase begins: it left IDLE since the checks. -/
def State.skvBusyAxis (s : State) : Option Nat := s.skvAxes.find? fun x => decide (x < 16) && !s.axTakesMove x

/-- One move of a phase: nothing for a role that is unused, ZERO_LEN for a move of no length or no speed. -/
def State.skvMove (s : State) (x : Option Nat) (target : Int) (speed : Option Nat) : State :=
  match x with
  | none => s
  | some x =>
    let l := s.axLimits x (speed.getD (s.axVmax x))
    let a := s.axis x
    if a.posAt s.axNow = wrap48 (target * 2 ^ 20) ∨ l.zero then s.axResult x 3
    else (((s.axGo x (a.planTo s.axNow (target * 2 ^ 20) l) target).setAxState x axMove).axResult x 0).showAxis x

/-- A phase begins: its moves start at the present boundary. A role axis that left IDLE since the checks of R257 ends the sequence
with BUSY (DESIGN CHOICE, log entry 124). SETTLE that RETRY begins anew counts from the Stitch before. -/
def State.skvBegin (s : State) (p : Nat) : State :=
  let t := fun i => s.skiver.targets.getD i 0
  let settle := if p = 4 ∧ s.skiver.settleAt.isNone then some (s.now - 1 + (s.reg (R.AXIS_SKV_SETTLE 0)).toNat) else s.skiver.settleAt
  let s1 := ({ s with skiver := { s.skiver with nextPhase := 0, settleAt := settle } }).setSkvPhase p
  match s1.skvBusyAxis, p with
  | some x, 1 => s1.skvFault 1 x
  | some x, 2 => s1.skvFault 1 x
  | some x, 3 => s1.skvFault 1 x
  | none, 1 => ((s1.skvMove s1.skvPlatform (t 0) none).skvMove s1.skvDoser (t 1) none).skvMove s1.skvRecoater (t 2) none
  | none, 2 => s1.skvMove s1.skvRecoater (t 3) (some (s1.reg (R.AXIS_SKV_SPREAD 0)).toNat)
  | none, 3 => s1.skvMove s1.skvRecoater (t 4) (some (s1.reg (R.AXIS_SKV_RETURN 0)).toNat)
  | _, _ => s1

/-- What a boundary does to the Skiver: a phase that waits begins. -/
def State.skvBoundary (s : State) : State :=
  if s.skiver.nextPhase = 0 ∨ s.now ≤ s.skiver.startAt then s else s.skvBegin s.skiver.nextPhase

/-- SKIVER_PHASE_END (R258): the last axis of the phase is at rest; the next phase starts at the next boundary, and SETTLE
counts from this Stitch. -/
def execSkiverPhaseEnd (s : State) : Host.Outcome State Fault Refusal :=
  let p := s.skvPhase
  let next := if p = 1 then 2 else if p = 2 ∧ !s.flag (F.AXIS_SKV_CTRL_BIDIR 0) then 3 else 4
  .next (
    if (p = 1 ∨ p = 2 ∨ p = 3) ∧ s.skiver.nextPhase = 0 ∧ s.skvAxes.all fun x => s.axAtRest x then
      { s with skiver := { s.skiver with
          nextPhase := next
          settleAt := if next = 4 then some (s.now + (s.reg (R.AXIS_SKV_SETTLE 0)).toNat) else none } }
    else s)

/-- SKIVER_DONE (R258): SETTLE has ended and the Skiver signals layer-ready; DIR turns when BIDIR is 1. -/
def execSkiverDone (s : State) : Host.Outcome State Fault Refusal :=
  .next (
    match s.skiver.settleAt with
    | none => s
    | some q =>
      if s.now < q then s
      else
        let s1 := if s.flag (F.AXIS_SKV_CTRL_BIDIR 0) then
            s.setFld (F.AXIS_SKV_STATUS_DIR 0) (1 - s.fld (F.AXIS_SKV_STATUS_DIR 0))
          else s
        s1.skvReady)

/-- The command READY (R256): counts in EXT_WAIT, at a boundary after the start. -/
def State.skvReadyCmd (s : State) : State := if s.skvPhase = 5 ∧ s.skiver.startAt < s.now then s.skvReady else s

/-- The command RETRY (R259): in FAULT, checks 1 to 3 again, and the faulted phase from the next boundary. -/
def State.skvRetryCmd (s : State) : State :=
  if s.skvPhase ≠ 6 then s
  else
    let s1 := { s with skiver := { s.skiver with nextPhase := s.skiver.faulted } }
    match s1.skvChecks s1.skiver.targets false with
    | some (code, x) => s1.skvFault code x
    | none => ((s1.setSkvPhase s1.skiver.faulted).setFld (F.AXIS_SKV_STATUS_FAULT 0) 0).setOwned 1

/-- SKV_READY (R256): the command READY. -/
def execSkvReady (s : State) : Host.Outcome State Fault Refusal := .next s.skvReadyCmd

/-- RETRY (R259): the command RETRY. -/
def execRetry (s : State) : Host.Outcome State Fault Refusal := .next s.skvRetryCmd

/-- A job ABORT stops the role axes under ACC and JERK and idles the Skiver with no event (R259). -/
def State.skvAbort (s : State) : State :=
  if s.skvPhase = 0 ∧ s.skiver.nextPhase = 0 then s
  else
    let moving := s.skvAxes.filter fun x =>
      decide (x < 16) && s.flag (F.AXIS_STATUS_OWNED x) && (s.axState x == axMove || s.axState x == axVel)
    let s1 := moving.foldl (fun s x => (s.axDecel x).setAxState x axStopping) s
    (({ s1 with skiver := { s1.skiver with nextPhase := 0, settleAt := none } }).setOwned 0).setSkvPhase 0

end Sys2Proof.Machine
end

