-- ==== Sys2Proof/Machine/Job.lean ====
section
/-! DEFINITION. Job tables and their validation (R95 to R109, R115 to R120): the header, slot records and parameter sets,
layers, patches and strokes, seam cuts, eligibility and duration estimates. -/

namespace Sys2Proof.Machine

/-- Requester of the Tree (R269). -/
def treeReq : Nat := 248

/-! ## Reading tables -/

/-- A word of a table in DRAM, by byte offset. -/
def State.jobWord (s : State) (off : Nat) : Word := (s.dramWord off).val

/-- A 64-bit offset from two words. -/
def State.jobOffset (s : State) (off : Nat) : Nat := pair64 (s.jobWord (off + 4)) (s.jobWord off)

/-- Whether any of `n` words from an offset is poisoned. -/
def State.jobPoison (s : State) (off n : Nat) : Bool := (s.dramWords off n).any fun w => w.poison

/-- Bytes of installed DRAM that BAR4 shows. -/
def State.dramSize (s : State) : Nat := s.dmcVisible 0 + s.dmcVisible 1

/-- Whether a table lies beyond the installed DRAM. -/
def State.beyond (s : State) (off len : Nat) : Bool := decide (len ≠ 0) && decide (s.dramSize < off + len)

/-- No item. -/
def noItem : Nat := 0xFFFFFFFF

/-- A failed check when its condition holds. -/
def failIf (b : Bool) (code layer patch stroke : Nat) : List Reject := if b then [⟨code, layer, patch, stroke⟩] else []

/-- The failed check to report: the lowest code, and of equals the first found (R108). -/
def firstReject : List Reject → Option Reject
  | [] => none
  | r :: rs => match firstReject rs with
    | none => some r
    | some b => if b.code < r.code then some b else some r

/-! ## Header and slot records (R95 to R98) -/

/-- The job header at an offset. -/
def State.readHeader (s : State) (b : Nat) : JobRec :=
  { layers := (s.jobWord (b + 4)).toNat, layerTable := s.jobOffset (b + 8), fieldTable := s.jobOffset (b + 16)
    psetTable := s.jobOffset (b + 24), slotMask := (s.jobWord (b + 32)).toNat, first := (s.jobWord (b + 36)).toNat
    static := getBits (s.jobWord (b + 40)) 0 0 == 1, slots := [] }

/-- TREE_JOB_BASE. -/
def State.jobBase (s : State) : Nat := pair64 (s.reg R.TREE_JOB_BASE_HI) (s.reg R.TREE_JOB_BASE_LO)

/-- The vertices of a slot record. -/
def State.readPoly (s : State) (b : Nat) : Nat → List (Int × Int)
  | 0 => []
  | n + 1 => State.readPoly s b n ++ [((s.jobWord (b + 16 + 8 * n)).toInt, (s.jobWord (b + 20 + 8 * n)).toInt)]

/-- Consecutive pairs of a closed polygon. -/
def polyEdges (p : List (Int × Int)) : List ((Int × Int) × (Int × Int)) := p.zip (p.drop 1 ++ p.take 1)

/-- The slot record of a slot, each edge's length computed once for all (R120). -/
def State.readSlot (s : State) (j : JobRec) (k : Nat) : SlotRec :=
  let b := j.fieldTable + 144 * k
  let poly := s.readPoly b (min 16 (getBits (s.jobWord b) 4 0))
  ⟨poly, (polyEdges poly).map fun e => ceilSqrt (sqLen (e.2.1 - e.1.1) (e.2.2 - e.1.2)), (s.jobWord (b + 4)).toNat,
    (s.jobWord (b + 8)).toNat⟩

/-- Strictly convex and counter-clockwise: every other vertex lies strictly left of every edge (R97). -/
def convexPoly (p : List (Int × Int)) : Bool :=
  (polyEdges p).all fun e => p.all fun v =>
    v == e.1 || v == e.2 || decide (0 < cross (e.2.1 - e.1.1) (e.2.2 - e.1.2) (v.1 - e.1.1) (v.2 - e.1.2))

/-- Whether no two vertices are the same point. -/
def distinctPoints : List (Int × Int) → Bool
  | [] => true
  | v :: vs => !vs.contains v && distinctPoints vs

/-- Whether the words of a parameter set keep their reserved bits zero (R98). -/
def psetReservedOk (ws : List PWord) : Bool :=
  let w := fun i => (ws.getD i (PWord.clean 0)).val
  getBits (w 3) 31 16 == 0 && getBits (w 5) 31 8 == 0 && getBits (w 6) 31 24 == 0
    && (ws.drop 7).all fun p => p.val == 0

/-- The failed checks of one slot's record and parameter sets. -/
def State.slotRejects (s : State) (j : JobRec) (k : Nat) : List Reject :=
  let b := j.fieldTable + 144 * k
  let n := getBits (s.jobWord b) 4 0
  let r := s.readSlot j k
  let sets := List.range (min 256 r.psets)
  let setAt := fun i => j.psetTable + 16384 * k + 64 * i
  failIf (getBits (s.jobWord b) 31 5 != 0 || s.jobWord (b + 12) != 0) 1 noItem noItem noItem
    ++ failIf (sets.any fun i => !psetReservedOk (s.dramWords (setAt i) 16)) 1 noItem noItem noItem
    ++ failIf (decide (256 < r.psets)) 3 noItem noItem noItem
    ++ failIf (n == 1 || n == 2 || decide (16 < n) || !convexPoly r.poly || !distinctPoints r.poly) 5 noItem noItem noItem
    ++ failIf (s.jobPoison b (4 + 2 * min 16 n) || sets.any fun i => s.jobPoison (setAt i) 16) 14 noItem noItem noItem

/-- The slots of a mask, in ascending order. -/
def slotsOf (mask : Nat) : List Nat := (List.range 32).filter fun k => natBit mask k

/-- The job with the records of its slots, as ARM and VALIDATE read it. -/
def State.readJob (s : State) : JobRec :=
  let j := s.readHeader s.jobBase
  { j with slots := (slotsOf j.slotMask).map fun k => (k, s.readSlot j k) }

/-- The job with the PSET_COUNT values read again (R112). -/
def State.rereadPsets (s : State) (j : JobRec) : JobRec :=
  { j with slots := j.slots.map fun e => (e.1, { e.2 with psets := (s.readSlot j e.1).psets }) }

/-- The failed checks of the job header and slot records (R108). -/
def State.headerRejects (s : State) : List Reject :=
  let b := s.jobBase
  if s.beyond b 64 then [⟨3, noItem, noItem, noItem⟩]
  else
    let j := s.readHeader b
    let w := fun i => s.jobWord (b + 4 * i)
    let format := getBits (w 0) 31 16 != 0xB9F0 || getBits (w 0) 15 0 != 1 || getBits (w 10) 31 1 != 0
      || [11, 12, 13, 14, 15].any fun i => w i != 0
    let align := j.layerTable % 8 != 0 || j.fieldTable % 64 != 0 || j.psetTable % 64 != 0
    let range := s.beyond j.layerTable (8 * j.layers) || s.beyond j.fieldTable (32 * 144)
      || s.beyond j.psetTable (32 * 16384)
    let absent := (slotsOf j.slotMask).any fun k => !s.part.hasSlot k
    failIf format 1 noItem noItem noItem ++ failIf align 2 noItem noItem noItem ++ failIf range 3 noItem noItem noItem
      ++ failIf absent 4 noItem noItem noItem ++ failIf (s.jobPoison b 16) 14 noItem noItem noItem
      ++ (if format || align || range then [] else (slotsOf j.slotMask).flatMap fun k => s.slotRejects j k)

/-! ## Strokes of a patch -/

/-- A stroke with its words and index. -/
structure RawStroke where
  /-- Stroke index in the layer. -/
  index : Nat
  /-- Words 0 to 3. -/
  words : List PWord
  /-- The stroke. -/
  k : Stroke

/-- The strokes of a patch. -/
def State.readStrokes (s : State) (area first : Nat) : Nat → List RawStroke
  | 0 => []
  | n + 1 =>
    let ws := s.dramWords (area + 16 * first) 4
    let w := fun i => (ws.getD i (PWord.clean 0)).val
    ⟨first, ws, strokeOf (w 0) (w 1) (w 2) (w 3)⟩ :: State.readStrokes s area (first + 1) n

/-- What a walk along a patch's strokes gives for each: the points it passes through, and whether R104 holds. -/
structure Walked where
  /-- The stroke. -/
  raw : RawStroke
  /-- Its points. -/
  pts : List (Int × Int)
  /-- R104 holds. -/
  arcOk : Bool
  /-- Of an arc-mark, the direction it inherits; else (0, 0). -/
  dir : Int × Int

/-- The walk: `prev` is the end point and end direction of the previous stroke that is not skipped, the direction none when
that stroke is a wait. Directions are exact vectors. -/
def walkStrokes (prev : Option ((Int × Int) × Option (Int × Int))) : List RawStroke → List Walked
  | [] => []
  | r :: rs =>
    let k := r.k
    if k.skipped then ⟨r, [(k.x, k.y)], true, (0, 0)⟩ :: walkStrokes prev rs
    else if k.kind = 3 then ⟨r, [(k.x, k.y)], true, (0, 0)⟩ :: walkStrokes (some ((k.x, k.y), none)) rs
    else
      let e := (k.x + k.dx, k.y + k.dy)
      let straight := (k.dx, k.dy)
      if k.kind = 2 then
        match prev with
        | some (p, some v) =>
          let ok := p == (k.x, k.y)
          match tangentArc k.x k.y v.1 v.2 k.dx k.dy with
          | some (.arc _ _ ux uy left radius, len, d) =>
            ⟨r, (k.x, k.y) :: e :: arcExtremes ux uy left radius len k.x k.y, ok, v⟩ :: walkStrokes (some (e, some d)) rs
          | _ => ⟨r, [(k.x, k.y), e], ok, v⟩ :: walkStrokes (some (e, some straight)) rs
        | _ => ⟨r, [(k.x, k.y), e], false, (0, 0)⟩ :: walkStrokes (some (e, some straight)) rs
      else ⟨r, [(k.x, k.y), e], true, (0, 0)⟩ :: walkStrokes (some (e, some straight)) rs

/-! ## Patches (R100) -/

/-- A patch record. -/
structure PatchRec where
  /-- STROKE_FIRST. -/
  first : Nat
  /-- STROKE_COUNT. -/
  count : Nat
  /-- ELIGIBLE. -/
  eligible : Nat
  /-- PRED_COUNT. -/
  preds : Nat
  /-- KIND. -/
  kind : Nat
  /-- SPLITTABLE. -/
  splittable : Bool
  /-- PINNED. -/
  pinned : Bool
  /-- PIN_LASER. -/
  pin : Nat
  /-- PSET. -/
  pset : Nat
  /-- PRED_OFS. -/
  predOfs : Nat
  /-- TAG. -/
  tag : Word
  /-- Bounding box. -/
  x0 : Int
  /-- Bounding box. -/
  y0 : Int
  /-- Bounding box. -/
  x1 : Int
  /-- Bounding box. -/
  y1 : Int

/-- The patch record at an offset. -/
def State.readPatch (s : State) (b : Nat) : PatchRec :=
  let w := fun i => s.jobWord (b + 4 * i)
  { first := (w 0).toNat, count := (w 1).toNat, eligible := (w 2).toNat, preds := getBits (w 3) 31 28
    kind := getBits (w 3) 27 24, splittable := getBits (w 3) 23 23 == 1, pinned := getBits (w 3) 22 22 == 1
    pin := getBits (w 3) 21 16, pset := getBits (w 3) 15 8, predOfs := (w 4).toNat, tag := w 5, x0 := (w 6).toInt, y0 := (w 7).toInt
    x1 := (w 8).toInt, y1 := (w 9).toInt }

/-! ## Eligibility (R120) -/

/-- Whether a point lies inside a slot's field shrunk by its margin. -/
def SlotRec.holds (r : SlotRec) (x y : Int) : Bool :=
  r.poly != [] && ((polyEdges r.poly).zip r.lens).all fun q =>
    let e := q.1
    decide ((r.margin : Int) * (q.2 : Nat) ≤ cross (e.2.1 - e.1.1) (e.2.2 - e.1.2) (x - e.1.1) (y - e.1.2))

/-- The slots a box is eligible for. -/
def eligibleMask (slots : List (Nat × SlotRec)) (p : PatchRec) (x0 y0 x1 y1 : Int) : Nat :=
  (slots.filter fun e => natBit p.eligible e.1 && (!p.pinned || p.pin == e.1) && e.2.psets != 0
      && e.2.holds x0 y0 && e.2.holds x1 y0 && e.2.holds x1 y1 && e.2.holds x0 y1).foldl (fun m e => m + 2 ^ e.1) 0

/-! ## Seams (R116, R117) -/

/-- A seam line through two points. -/
structure Seam where
  /-- First point. -/
  ax : Int
  /-- First point. -/
  ay : Int
  /-- Second point. -/
  bx : Int
  /-- Second point. -/
  by' : Int

/-- The seam lines of a table, those of no length left out (R101). -/
def State.readSeams (s : State) (b : Nat) : Nat → List Seam
  | 0 => []
  | n + 1 =>
    let q : Seam := ⟨(s.jobWord b).toInt, (s.jobWord (b + 4)).toInt, (s.jobWord (b + 8)).toInt, (s.jobWord (b + 12)).toInt⟩
    let rest := State.readSeams s (b + 16) n
    if q.ax = q.bx ∧ q.ay = q.by' then rest else q :: rest

/-- The cross product that tells the side of a point given twice over. -/
def Seam.side2 (q : Seam) (x2 y2 : Int) : Int := cross (q.bx - q.ax) (q.by' - q.ay) (x2 - 2 * q.ax) (y2 - 2 * q.ay)

/-- Whether a seam's segment meets a box, end points and borders included. -/
def Seam.applies (q : Seam) (x0 y0 x1 y1 : Int) : Bool :=
  decide (min q.ax q.bx ≤ x1) && decide (x0 ≤ max q.ax q.bx) && decide (min q.ay q.by' ≤ y1) && decide (y0 ≤ max q.ay q.by')
    && (let c := [(x0, y0), (x1, y0), (x1, y1), (x0, y1)].map fun p : Int × Int => q.side2 (2 * p.1) (2 * p.2)
        !(c.all fun v => decide (0 < v)) && !(c.all fun v => decide (v < 0)))

/-- Where a seam's line crosses a mark, as a fraction of the mark between 0 and 1; none when it does not. -/
def Seam.cut (q : Seam) (k : Stroke) : Option (Nat × Nat) :=
  let c0 := cross (q.bx - q.ax) (q.by' - q.ay) (k.x - q.ax) (k.y - q.ay)
  let cd := cross (q.bx - q.ax) (q.by' - q.ay) k.dx k.dy
  if cd = 0 ∨ (0 < cd ∧ 0 < c0) ∨ (cd < 0 ∧ c0 < 0) ∨ cd.natAbs < c0.natAbs then none else some (c0.natAbs, cd.natAbs)

/-- A fraction put in its place in a rising list. -/
def insertFraction (a : Nat × Nat) : List (Nat × Nat) → List (Nat × Nat)
  | [] => [a]
  | b :: bs => if a.1 * b.2 ≤ b.1 * a.2 then a :: b :: bs else b :: insertFraction a bs

/-- A fraction of a displacement, to the nearest bu, ties towards 0. -/
def partWay (d : Int) (n m : Nat) : Int :=
  let v : Int := ((2 * (d.natAbs * n) + m - 1) / (2 * m) : Nat)
  if d < 0 then -v else v

/-- Consecutive points without repeats, and without the end point. -/
def distinctCuts (p e : Int × Int) : List (Int × Int) → List (Int × Int)
  | [] => []
  | q :: qs => if q = p ∨ q = e then distinctCuts p e qs else q :: distinctCuts q e qs

/-- The cut points of a mark. -/
def cutPoints (seams : List Seam) (k : Stroke) : List (Int × Int) :=
  if k.kind ≠ 0 ∨ k.skipped then []
  else
    let ts := (seams.filterMap fun q => q.cut k).foldl (fun l t => insertFraction t l) []
    distinctCuts (k.x, k.y) (k.x + k.dx, k.y + k.dy) (ts.map fun t => (k.x + partWay k.dx t.1 t.2, k.y + partWay k.dy t.1 t.2))

/-- A part of a patch's strokes and the sides of its piece. -/
structure KeyedPart where
  /-- The part. -/
  part : UnitPart
  /-- Left of each applying seam. -/
  key : List Bool
  /-- The points it passes through. -/
  pts : List (Int × Int)

/-- The words of a mark's part from a point to another. -/
def partWords (w3 : Word) (p q : Int × Int) (last : Bool) : Word × Word × Word × Word :=
  let dx := unsigned 24 (q.1 - p.1)
  let dy := unsigned 24 (q.2 - p.2)
  let ctrl := getBits w3 31 16
  (BitVec.ofInt 32 p.1, BitVec.ofInt 32 p.2, w32 (dx + dy % 256 * 2 ^ 24),
    w32 (dy / 256 + (if last then ctrl else ctrl / 2 * 2) * 2 ^ 16))

/-- The parts of a mark along its points. -/
def markParts (index : Nat) (w3 : Word) (seams : List Seam) : List (Int × Int) → List KeyedPart
  | p :: q :: rest =>
    let (a, b, c, d) := partWords w3 p q rest.isEmpty
    ⟨⟨index, a, b, c, d, true, (0, 0)⟩, seams.map fun sm => decide (0 < sm.side2 (p.1 + q.1) (p.2 + q.2)), [p, q]⟩
      :: markParts index w3 seams (q :: rest)
  | _ => []

/-- The parts of one stroke. -/
def strokeParts (seams : List Seam) (v : Walked) : List KeyedPart :=
  let k := v.raw.k
  let w := fun i => (v.raw.words.getD i (PWord.clean 0)).val
  let cuts := cutPoints seams k
  if cuts = [] then
    let at2 := if k.kind = 1 then (2 * (k.x + k.dx), 2 * (k.y + k.dy))
      else if k.kind = 0 then (2 * k.x + k.dx, 2 * k.y + k.dy) else (2 * k.x, 2 * k.y)
    [⟨⟨v.raw.index, w 0, w 1, w 2, w 3, false, v.dir⟩, seams.map fun sm => decide (0 < sm.side2 at2.1 at2.2), v.pts⟩]
  else markParts v.raw.index (w 3) seams ((k.x, k.y) :: cuts ++ [(k.x + k.dx, k.y + k.dy)])

/-- The piece keys in the order of their first part. -/
def pieceKeys (l : List KeyedPart) : List (List Bool) :=
  l.foldl (fun ks p => if ks.contains p.key then ks else ks ++ [p.key]) []

/-- The box of points; of none, the point (0, 0). -/
def boxOf : List (Int × Int) → Int × Int × Int × Int
  | [] => (0, 0, 0, 0)
  | p :: ps => ps.foldl (fun b q => (min b.1 q.1, min b.2.1 q.2, max b.2.2.1 q.1, max b.2.2.2 q.2)) (p.1, p.2, p.1, p.2)

/-- A unit not started. -/
def PlaceUnit.fresh (patch piece : Nat) (parts : List UnitPart) (box : Int × Int × Int × Int) (preds : List Nat)
    (eligible pset : Nat) (tag : Word) : PlaceUnit :=
  { patch := patch, piece := piece, parts := parts, x0 := box.1, y0 := box.2.1, x1 := box.2.2.1, y1 := box.2.2.2
    preds := preds, eligible := eligible, pset := pset, tag := tag, est := 0, phase := .waiting, laser := 0, order := 0
    startStitch := 0, predLen := 0, pushed := 0, ended := 0, cut := false, lastEnd := none, remainder := none, rerun := false }

/-- The units of a patch (R115, R116). -/
def patchUnits (slots : List (Nat × SlotRec)) (i : Nat) (p : PatchRec) (preds : List Nat) (seams : List Seam)
    (walked : List Walked) : List PlaceUnit :=
  let apply := if p.splittable then seams.filter fun q => q.applies p.x0 p.y0 p.x1 p.y1 else []
  let parts := walked.flatMap fun v => strokeParts apply v
  if apply = [] ∨ parts.isEmpty then
    [PlaceUnit.fresh i 0 (parts.map fun q => q.part) (p.x0, p.y0, p.x1, p.y1) preds
      (eligibleMask slots p p.x0 p.y0 p.x1 p.y1) p.pset p.tag]
  else
    let keys := pieceKeys parts
    (List.range keys.length).map fun n =>
      let mine := parts.filter fun q => q.key == keys.getD n []
      let b := boxOf (mine.flatMap fun q => q.pts)
      PlaceUnit.fresh i n (mine.map fun q => q.part) b preds (eligibleMask slots p b.1 b.2.1 b.2.2.1 b.2.2.2) p.pset p.tag

/-- The stroke that a part spells. -/
def UnitPart.stroke (q : UnitPart) : Stroke := { strokeOf q.w0 q.w1 q.w2 q.w3 with dir := q.dir }

/-! ## Layers (R99, R108) -/

/-- Where a layer's header lies. -/
def State.layerOffset (s : State) (j : JobRec) (i : Nat) : Nat := s.jobOffset (j.layerTable + 8 * i)

/-- A layer's patches in index order, each with its predecessors and walked strokes; strokes outside the layer's area are
not read. -/
structure ReadPatch where
  /-- Its index. -/
  index : Nat
  /-- The record. -/
  p : PatchRec
  /-- Predecessors, without repeats. -/
  preds : List Nat
  /-- Its strokes. -/
  walked : List Walked
  /-- Its units. -/
  units : List PlaceUnit

/-- The predecessor entries of a patch. -/
def State.readPreds (s : State) (pool ofs : Nat) : Nat → List Nat
  | 0 => []
  | n + 1 => (s.jobWord (pool + 4 * ofs)).toNat :: State.readPreds s pool (ofs + 1) n

/-- The patches of a layer. -/
def State.readPatches (s : State) (slots : List (Nat × SlotRec)) (b : Nat) (i : Nat) : Nat → List ReadPatch
  | 0 => []
  | n + 1 =>
    let strokes := (s.jobWord (b + 8)).toNat
    let p := s.readPatch (s.jobOffset (b + 16) + 48 * i)
    let pool := s.jobOffset (b + 32)
    let preds := if p.predOfs + p.preds ≤ (s.jobWord (b + 56)).toNat then s.readPreds pool p.predOfs (min 8 p.preds) else []
    let walked := if p.first + p.count ≤ strokes then walkStrokes none (s.readStrokes (s.jobOffset (b + 24)) p.first p.count)
      else []
    let seams := s.readSeams (s.jobOffset (b + 40)) (min 256 (getBits (s.jobWord (b + 12)) 8 0))
    ⟨i, p, preds.eraseDups, walked, patchUnits slots i p preds.eraseDups seams walked⟩
      :: State.readPatches s slots b (i + 1) n

/-- Whether a value fits in 32 signed bits. -/
def fits32 (v : Int) : Bool := decide (-(2 ^ 31) ≤ v) && decide (v < 2 ^ 31)

/-- The failed checks of one stroke of a patch. -/
def strokeRejects (l : Nat) (r : ReadPatch) (v : Walked) : List Reject :=
  let k := v.raw.k
  let p := r.p
  let w3 := (v.raw.words.getD 3 (PWord.clean 0)).val
  let ends := k.kind != 3
  failIf (getBits w3 21 18 != 0 || (k.kind == 3 && k.dy != 0)) 1 l r.index v.raw.index
    ++ failIf (ends && (!fits32 (k.x + k.dx) || !fits32 (k.y + k.dy))) 3 l r.index v.raw.index
    ++ failIf (v.pts.any fun q => decide (q.1 < p.x0) || decide (p.x1 < q.1) || decide (q.2 < p.y0) || decide (p.y1 < q.2)) 9 l
      r.index v.raw.index
    ++ failIf (!v.arcOk) 10 l r.index v.raw.index
    ++ failIf (v.raw.words.any fun w => w.poison) 14 l r.index v.raw.index

/-- The failed checks of one patch. -/
def State.patchRejects (s : State) (j : JobRec) (slots : List (Nat × SlotRec)) (l b : Nat) (earlier : List ReadPatch)
    (r : ReadPatch) : List Reject :=
  let at' := s.jobOffset (b + 16) + 48 * r.index
  let p := r.p
  let strokes := (s.jobWord (b + 8)).toNat
  let preds := (s.jobWord (b + 56)).toNat
  let one := fun c => [(⟨c, l, r.index, noItem⟩ : Reject)]
  let iff := fun (q : Bool) c => if q then one c else []
  iff (p.kind == 0 || decide (3 < p.kind) || getBits (s.jobWord (at' + 12)) 7 0 != 0 || s.jobWord (at' + 40) != 0
      || s.jobWord (at' + 44) != 0) 1
    ++ iff (decide (strokes < p.first + p.count) || decide (preds < p.predOfs + p.preds)) 3
    ++ iff (p.pinned && !s.part.hasSlot p.pin) 4
    ++ iff (decide (8 < p.preds) || decide (16 < r.units.length)) 6
    ++ iff (p.count != 0 && earlier.any fun q =>
        q.p.count != 0 && decide (q.p.first < p.first + p.count) && decide (p.first < q.p.first + q.p.count)) 7
    ++ iff (r.preds.any fun q => decide (r.index ≤ q)) 8
    ++ r.walked.flatMap (fun v => strokeRejects l r v)
    ++ iff (p.count != 0 && r.units.any fun u => u.eligible == 0) 11
    ++ iff (j.static && !p.pinned) 12
    ++ (r.units.flatMap fun u => u.parts.flatMap fun q =>
        failIf (slots.any fun e => natBit u.eligible e.1 && decide (e.2.psets ≤ q.stroke.pset)) 13 l r.index q.index)
    ++ iff (s.jobPoison at' 12 || (List.range (min 8 p.preds)).any fun i =>
        (s.dramWord (s.jobOffset (b + 32) + 4 * (p.predOfs + i))).poison) 14

/-- The failed checks of the patches of a layer. -/
def State.patchesRejects (s : State) (j : JobRec) (slots : List (Nat × SlotRec)) (l b : Nat) (earlier : List ReadPatch) :
    List ReadPatch → List Reject
  | [] => []
  | r :: rs => s.patchRejects j slots l b earlier r ++ State.patchesRejects s j slots l b (earlier ++ [r]) rs

/-- The parameter sets of a slot's table in DRAM. -/
def State.tablePset (s : State) (j : JobRec) (k i : Nat) : Pset :=
  psetOf ((s.dramWords (j.psetTable + 16384 * k + 64 * i) 16).map fun w => w.val)

/-- The lowest-numbered slot of a mask. -/
def lowestSlot (mask : Nat) : Nat := ((slotsOf mask).head?).getD 0

/-- A unit with its estimate, made on its reference laser (R125). -/
def State.withEstimate (s : State) (j : JobRec) (u : PlaceUnit) : PlaceUnit :=
  let k := lowestSlot u.eligible
  { u with est := unitEstimate (s.awlParams k) s.period (s.tablePset j k) (u.parts.map UnitPart.stroke) }

/-- The failed checks of a layer's header, in their order, before any record is read (R108): the offset that the layer table gives
is judged first, since the header is read through it (DESIGN CHOICE, log entry 115); then checks 1, 2, the counts' limits, check
3 and check 14. -/
def State.headerFault (s : State) (j : JobRec) (l : Nat) : Nat :=
  let b := s.layerOffset j l
  let w := fun i => s.jobWord (b + 4 * i)
  let seams := getBits (w 3) 8 0
  if b % 64 ≠ 0 then 2
  else if s.beyond b 64 then 3
  else if getBits (w 3) 31 9 ≠ 0 ∨ w 15 ≠ 0 then 1
  else if s.jobOffset (b + 16) % 16 ≠ 0 ∨ s.jobOffset (b + 24) % 16 ≠ 0 ∨ s.jobOffset (b + 32) % 4 ≠ 0
      ∨ s.jobOffset (b + 40) % 16 ≠ 0 then 2
  else if 1048576 < (w 1).toNat ∨ 67108864 < (w 2).toNat ∨ 256 < seams then 6
  else if s.beyond (s.jobOffset (b + 16)) (48 * (w 1).toNat) ∨ s.beyond (s.jobOffset (b + 24)) (16 * (w 2).toNat)
      ∨ s.beyond (s.jobOffset (b + 32)) (4 * (w 14).toNat) ∨ s.beyond (s.jobOffset (b + 40)) (16 * seams) then 3
  else if s.jobPoison b 16 || s.jobPoison (j.layerTable + 8 * l) 2 then 14
  else 0

/-- The LIMIT of the first patch whose PRED_COUNT is above 8, unless that patch fails an earlier check (R108). -/
def predLimit (ps : List ReadPatch) (fails : List Reject) : Option Reject :=
  match ps.find? fun r => decide (8 < r.p.preds) with
  | none => none
  | some r => fails.find? fun f =>
      f.patch == r.index && f.code == 6 && !fails.any fun e => e.patch == r.index && decide (e.code < 6)

/-- A layer validated: its first failed check, or the layer. -/
def State.readLayer (s : State) (j : JobRec) (l : Nat) : LayerRec ⊕ Reject :=
  let b := s.layerOffset j l
  let w := fun i => s.jobWord (b + 4 * i)
  let patches := (w 1).toNat
  let seams := getBits (w 3) 8 0
  if s.headerFault j l ≠ 0 then .inr ⟨s.headerFault j l, l, noItem, noItem⟩
  else
    let ps := s.readPatches j.slots b 0 patches
    let units := ps.flatMap fun r => r.units
    let fails := s.patchesRejects j j.slots l b [] ps
      ++ failIf (decide (2097152 < units.length)) 6 l noItem noItem
      ++ failIf (s.jobPoison (s.jobOffset (b + 40)) (4 * seams)) 14 l noItem noItem
    match predLimit ps fails with
    | some r => .inr r
    | none => match firstReject fails with
      | some r => .inr r
      | none => .inl ⟨l, w 0, (w 12).toNat, (w 13).toNat, s.jobOffset (b + 24), patches == 0 || ps.any fun r => r.p.count == 0,
          units.map (s.withEstimate j)⟩

/-- What the reads of a layer's validation leave at the DRAM channels (R108, R297, R300): the layer-table entry, the header, and the
tables that a sound header describes. -/
def State.useLayer (s : State) (j : JobRec) (l : Nat) : State :=
  let b := s.layerOffset j l
  let s1 := (s.dramUse treeReq 2 (j.layerTable + 8 * l) 2).dramUse treeReq 2 b 16
  if s.headerFault j l ≠ 0 then s1
  else
    let w := fun i => s.jobWord (b + 4 * i)
    [(s.jobOffset (b + 16), 12 * (w 1).toNat), (s.jobOffset (b + 24), 4 * (w 2).toNat), (s.jobOffset (b + 32), (w 14).toNat),
      (s.jobOffset (b + 40), 4 * getBits (w 3) 8 0)].foldl (fun (t : State) e => t.dramUse treeReq 2 e.1 e.2) s1

/-- What the reads of the job header, the slot records and their parameter sets leave at the DRAM channels. -/
def State.useHeader (s : State) : State :=
  let j := s.readHeader s.jobBase
  let s1 := s.dramUse treeReq 2 s.jobBase 16
  if s.beyond s.jobBase 64 then s1
  else (slotsOf j.slotMask).foldl (fun (t : State) k =>
    (t.dramUse treeReq 2 (j.fieldTable + 144 * k) 36).dramUse treeReq 2 (j.psetTable + 16384 * k)
      (16 * min 256 (s.readSlot j k).psets)) s1

/-- What a walk over layers leaves at the DRAM channels: the layers up to the first that fails are read. -/
def State.useLayers (s : State) (j : JobRec) (l : Nat) : Nat → State
  | 0 => s
  | n + 1 => match s.readLayer j l with
    | .inr _ => s.useLayer j l
    | .inl _ => State.useLayers (s.useLayer j l) j (l + 1) n

/-- The first failed check of the layers from `l` on. -/
def State.walkLayers (s : State) (j : JobRec) (l : Nat) : Nat → Option Reject
  | 0 => none
  | n + 1 => match s.readLayer j l with
    | .inr r => some r
    | .inl _ => State.walkLayers s j (l + 1) n

end Sys2Proof.Machine
end

