-- ==== Sys2Proof/Machine/Tree.lean ====
section
/-! DEFINITION. The Tree (R110 to R142): the job's life, the plan, starts, losses of a laser and the placement log. -/

namespace Sys2Proof.Machine

/-- IDLE (R110). -/
def jobIdle : Nat := 0
/-- VALIDATING. -/
def jobValidating : Nat := 1
/-- PREPARE. -/
def jobPrepare : Nat := 2
/-- RUNNING. -/
def jobRunning : Nat := 3
/-- DRAINING. -/
def jobDraining : Nat := 4
/-- CLOSED. -/
def jobClosed : Nat := 5
/-- DONE. -/
def jobDone : Nat := 6
/-- HELD. -/
def jobHeld : Nat := 7
/-- STOPPED. -/
def jobStopped : Nat := 8
/-- REJECTED. -/
def jobRejected : Nat := 9

/-- The state with the Tree changed. -/
def State.onTree (s : State) (f : Tree → Tree) : State := { s with tree := f s.tree }

/-- The state with TREE_JOB_STATUS.STATE set, at the present boundary. -/
def State.setJob (s : State) (v : Nat) : State :=
  (s.setFld F.TREE_JOB_STATUS_STATE v).onTree fun t => { t with since := s.now }

/-- TREE_JOB_STATUS.RESULT: 0 OK, 1 BUSY, 2 REJECTED. -/
def State.jobResult (s : State) (r : Nat) : State := s.setFld F.TREE_JOB_STATUS_RESULT r

/-- A job event (R114). -/
def State.jobEvent (s : State) (code low : Nat) (layerNo : Word) : State :=
  s.pushEvent treeReq (s.reg R.TREE_JOB_EVQ) [w32 (code * 2 ^ 24 + low), layerNo, s.stitchLo]

/-- A job event that concerns no layer: its word 1 is a free value. -/
def State.jobEventNone (s : State) (code low : Nat) : State := (s.jobEvent code low s.free).tookFree

/-- A plan event (R142). -/
def State.planEvent (s : State) (code slot w2 : Nat) : State :=
  s.pushEvent treeReq (s.reg R.TREE_PLAN_EVQ) [w32 (code * 2 ^ 24 + slot * 2 ^ 16), s.tree.layerNo, w32 w2, s.stitchLo]

/-- The running layer's units. -/
def State.units (s : State) : List PlaceUnit :=
  match s.tree.layer with
  | some l => l.units
  | none => []

/-- A unit's name in an event. -/
def PlaceUnit.name (u : PlaceUnit) : Nat := u.piece * 2 ^ 20 + u.patch

/-- One unit of the running layer changed, by its place. -/
def State.onUnit (s : State) (i : Nat) (f : PlaceUnit → PlaceUnit) : State := s.mapUnits fun us => us.modify i f

/-- A unit by its place. -/
def State.unit (s : State) (i : Nat) : Option PlaceUnit := s.units[i]?

/-! ## In service (R121) -/

/-- Whether a slot takes part in placement at this boundary. -/
def State.inService (s : State) (k : Nat) : Bool :=
  getBits (s.reg R.TREE_SLOT_SERVICE) k k == 1 && s.awlState k != awlStopping && s.awlState k != awlFault
    && s.fld (F.LANE_STATUS_STATE k) == 5 && s.part.hasSlot k

/-- The slots of the part. -/
def State.slots (s : State) : List Nat := List.range s.part.row.lasers

/-- The slots in service, as a mask. -/
def State.serviceMask (s : State) : Nat := (s.slots.filter fun k => s.inService k).foldl (fun m k => m + 2 ^ k) 0

/-! ## Log records (R140, R141) -/

/-- Whether there is a placement log. -/
def State.logOn (s : State) : Bool := s.reg R.TREE_LOG_Q != 0

/-- A marker put into the hold buffer. -/
def State.logMarker (s : State) (kind : Nat) : State :=
  if !s.logOn then s
  else s.onTree fun t => { t with log := t.log ++
    [⟨[w32 (2 ^ 31 + kind * 2 ^ 28), t.layerNo, s.stitchLo, (s.stitch >>> 32).truncate 32], s.now, false, 0⟩] }

/-- Whether a record slot is free. -/
def State.logSpace (s : State) : Bool := !s.logOn || decide (s.tree.slotsUsed < 8192)

/-- PLACEMENT_LOG_RECORD (R140, R141): the oldest record enters the log queue in a Stitch after its own, and frees its slot. -/
def execPlacementLogRecord (s : State) : Host.Outcome State Fault Refusal :=
  .next (
    match s.tree.log with
    | [] => s
    | r :: rs =>
      if (r.stroke ∧ s.now ≤ r.stitch) ∨ !s.hasRoom (s.reg R.TREE_LOG_Q) 4 then s
      else
        let s1 := s.onTree fun t => { t with log := rs, slotsUsed := if r.stroke then t.slotsUsed - 1 else t.slotsUsed }
        (s1.pushEvent treeReq (s1.reg R.TREE_LOG_Q) r.words).covers r.words)

/-! ## Corridors and separation (R123, R124) -/

/-- The least and greatest projection of a box onto a direction in Q1.15, rounded outward. -/
def projectBox (u : PlaceUnit) (fx fy : Int) : Int × Int :=
  let l := [u.x0 * fx + u.y0 * fy, u.x1 * fx + u.y0 * fy, u.x0 * fx + u.y1 * fy, u.x1 * fx + u.y1 * fy]
  let lo := l.foldl min (l.headD 0)
  let hi := l.foldl max (l.headD 0)
  (lo / 2 ^ 15, -((-hi) / 2 ^ 15))

/-- Whether `v`'s box meets the plume corridor of `u`. -/
def meetsPlume (dir : Int × Int) (len width : Nat) (u v : PlaceUnit) : Bool :=
  let a := projectBox u dir.1 dir.2
  let c := projectBox u (-dir.2) dir.1
  let a' := projectBox v dir.1 dir.2
  let c' := projectBox v (-dir.2) dir.1
  decide (a.1 ≤ a'.2) && decide (a'.1 ≤ a.2 + len) && decide (2 * c.1 - width ≤ 2 * c'.2) && decide (2 * c'.1 ≤ 2 * c.2 + width)

/-- Twice over: neither box meets the other's corridor; true when the check is off. -/
def State.plumeClear (s : State) (u v : PlaceUnit) : Bool :=
  let len := (s.reg R.TREE_PLUME_LEN).toNat
  let width := (s.reg R.TREE_PLUME_WIDTH).toNat
  let dir := flowTable (s.fld F.TREE_FLOW_ANGLE)
  len == 0 || (!meetsPlume dir len width u v && !meetsPlume dir len width v u)

/-- Whether the centres of two boxes lie far enough apart; true when the check is off. -/
def State.apart (s : State) (u v : PlaceUnit) : Bool :=
  let d := (s.reg R.TREE_DSEP).toNat
  let cx := fun w : PlaceUnit => (w.x0 + w.x1) / 2
  let cy := fun w : PlaceUnit => (w.y0 + w.y1) / 2
  d == 0 || decide (d * d ≤ sqLen (cx u - cx v) (cy u - cy v))

/-- Whether the start temperature of a unit is checked: TSTART is not 0, the map is in use (R145), and it is no remainder that skips
the check (R122). -/
def State.tempChecked (s : State) (u : PlaceUnit) : Bool :=
  s.fld F.TREE_TSTART_TEMP != 0 && s.hideOn && !(u.remainder.isSome && !s.flag F.TREE_CTRL_RESUME_TCHECK)

/-- Whether a box lies where every cell is cool enough to start; true when the check is off. -/
def State.coolEnough (s : State) (u : PlaceUnit) : Bool :=
  !s.tempChecked u || (match s.boxMax u.x0 u.y0 u.x1 u.y1 with
    | none => true
    | some m => decide (m < s.fld F.TREE_TSTART_TEMP))

/-- A start-temperature query for a unit: a box with no cell inside the grid is counted (R156). -/
def State.queryTemp (s : State) (u : PlaceUnit) : State :=
  if s.tempChecked u ∧ (s.boxMax u.x0 u.y0 u.x1 u.y1).isNone then s.bump F.HIDE_OUTSIDE_COUNT else s

/-! ## The plan (R126 to R129, R137) -/

/-- Where a unit's first stroke starts. -/
def PlaceUnit.firstPoint (u : PlaceUnit) : Int × Int :=
  match u.parts with
  | [] => (0, 0)
  | q :: _ => (q.stroke.x, q.stroke.y)

/-- Where a unit leaves the spot: the end of its last stroke that is not skipped. -/
def PlaceUnit.endPoint (u : PlaceUnit) : Int × Int :=
  u.parts.foldl (fun p q =>
    let k := q.stroke
    if k.skipped then p else if k.kind = 3 then (k.x, k.y) else (k.x + k.dx, k.y + k.dy)) u.firstPoint

/-- The units started on a slot and not complete, in start order, with their places. -/
def State.runningOn (s : State) (k : Nat) : List (Nat × PlaceUnit) :=
  let l := ((List.range s.units.length).zip s.units).filter fun e => e.2.phase == .started && e.2.laser == k
  l.foldl (fun acc e => (acc.filter fun q => decide (q.2.order ≤ e.2.order)) ++ e :: (acc.filter fun q => decide (e.2.order < q.2.order))) []

/-- The Stitch at which a started unit is predicted to end. -/
def PlaceUnit.predEnd (u : PlaceUnit) : Nat := u.startStitch + u.predLen

/-- Where a laser's spot is predicted to stand after its started units; with none, at the end point of its last stroke (R128). -/
def State.predPos (s : State) (k : Nat) : Int × Int :=
  match (s.runningOn k).getLast? with
  | some e => e.2.endPoint
  | none => ((s.awl k).prevX, (s.awl k).prevY)

/-- J(k, u) from a position (R125). -/
def State.jumpLen (s : State) (k : Nat) (u : PlaceUnit) (p : Int × Int) : Nat :=
  let q := u.firstPoint
  if p = q then 0 else leadIn (s.awlParams k) s.period (s.pset k u.pset).jumpSpeed p.1 p.2 q.1 q.2

/-- A unit put in its place by priority, after those that come before it in patch and piece order: remainders in hand-over order, then
the longest first, and of equals the one that was there before (R126); under STATIC in patch and piece order (R139). -/
def byPriority (static : Bool) (a : Nat × PlaceUnit) : List (Nat × PlaceUnit) → List (Nat × PlaceUnit)
  | [] => [a]
  | b :: bs =>
    let before := match a.2.remainder, b.2.remainder with
      | some i, some j => decide (i < j)
      | some _, none => true
      | none, some _ => false
      | none, none => !static && decide (b.2.est < a.2.est)
    if before then a :: b :: bs else b :: byPriority static a bs

/-- A stretch of a laser's time that a unit occupies. -/
structure Occupant where
  /-- Laser. -/
  laser : Nat
  /-- The unit. -/
  unit : PlaceUnit
  /-- From. -/
  start : Nat
  /-- To. -/
  stop : Nat

/-- A pass in hand. -/
structure PassWork where
  /-- free[k]. -/
  free : List Nat
  /-- Predicted positions. -/
  pos : List (Int × Int)
  /-- The plans. -/
  plans : List (List Planned)
  /-- Units placed, with their predicted ends. -/
  ends : List (Nat × Nat)
  /-- Occupants of lasers. -/
  busy : List Occupant
  /-- Orphans. -/
  orphans : List Nat
  /-- Placements left. -/
  left : Nat

/-- clear(u, k, s): the earliest time from `t` at which the unit meets nothing that occupies another laser. -/
def State.clearFrom (s : State) (busy : List Occupant) (u : PlaceUnit) (k dur : Nat) (t : Nat) : Nat → Nat
  | 0 => t
  | n + 1 =>
    let hits := busy.filter fun o =>
      o.laser != k && decide (o.start < t + dur) && decide (t < o.stop) && !(s.plumeClear u o.unit && s.apart u o.unit)
    if hits.isEmpty then t else State.clearFrom s busy u k dur (hits.foldl (fun m o => max m o.stop) t) n

/-- predend of a patch as a predecessor: none when a unit of it is neither complete, nor started, nor placed. -/
def PassWork.patchEnd (w : PassWork) (us : List (Nat × PlaceUnit)) (now patch : Nat) : Option Nat :=
  (us.filter fun e => e.2.patch == patch).foldl (fun acc e =>
    match acc, e.2.phase, w.ends.find? (fun q => q.1 == e.1) with
    | none, _, _ => none
    | some m, .complete, _ => some m
    | some m, .started, _ => some (max m (max 1 (e.2.predEnd - now)))
    | some m, _, some q => some (max m q.2)
    | some _, _, none => none) (some 0)

/-- predend(u); none while the unit is not ready to be placed. -/
def PassWork.ready (w : PassWork) (us : List (Nat × PlaceUnit)) (now : Nat) (u : PlaceUnit) : Option Nat :=
  u.preds.foldl (fun acc p =>
    match acc, w.patchEnd us now p with
    | some m, some e => some (max m e)
    | _, _ => none) (some 0)

/-- The first unit of a priority list that is ready, with its predend. -/
def PassWork.pick (w : PassWork) (us : List (Nat × PlaceUnit)) (now : Nat) : List (Nat × PlaceUnit) → Option (Nat × PlaceUnit × Nat)
  | [] => none
  | e :: es => match w.ready us now e.2 with
    | some p => some (e.1, e.2, p)
    | none => PassWork.pick w us now es

/-- A unit's best laser: laser, start and end; the lower number wins a tie. -/
def State.bestLaser (s : State) (w : PassWork) (u : PlaceUnit) (predend : Nat) : Option (Nat × Nat × Nat) :=
  s.slots.foldl (fun best k =>
    if natBit u.eligible k ∧ s.inService k then
      let dur := s.jumpLen k u (w.pos.getD k (0, 0)) + u.est
      let t := s.clearFrom w.busy u k dur (max (w.free.getD k 0) predend) (w.busy.length + 1)
      match best with
      | none => some (k, t, t + dur)
      | some b => if t + dur < b.2.2 then some (k, t, t + dur) else some b
    else best) none

/-- The loop of R127. -/
def State.planLoop (s : State) (us : List (Nat × PlaceUnit)) (w : PassWork) (todo : List (Nat × PlaceUnit)) : Nat → PassWork
  | 0 => w
  | n + 1 =>
    if w.left = 0 then w
    else match w.pick us s.now todo with
      | none => w
      | some (i, u, p) =>
        let rest := todo.filter fun e => e.1 != i
        if u.parts.isEmpty then State.planLoop s us { w with ends := (i, p) :: w.ends } rest n
        else match s.bestLaser w u p with
          | none => State.planLoop s us { w with orphans := w.orphans ++ [i], left := w.left - 1 } rest n
          | some (k, t, f) =>
            State.planLoop s us { w with
              free := w.free.set k f, pos := w.pos.set k u.endPoint
              plans := w.plans.modify k fun l => l ++ [⟨i, t, f⟩], ends := (i, f) :: w.ends
              busy := w.busy ++ [⟨k, u, t, f⟩], left := w.left - 1 } rest n

/-- A plan pass over the running layer, from the present boundary (R127 to R129, R137): `limit` placements, `origin` Stitches
after RUNNING began. Under STATIC each laser's plan is its pinned units in order, and the pass gives only the predictions (R139). -/
def State.planNow (s : State) (limit : Option Nat) (origin : Nat) : PlanResult :=
  let us := (List.range s.units.length).zip s.units
  let todo := (us.filter fun e => e.2.phase == .waiting || e.2.phase == .orphan).foldl
    (fun l e => byPriority s.tree.job.static e l) []
  let running := s.slots.map fun k => (s.runningOn k).map fun e => (⟨k, e.2, 0, max 1 (e.2.predEnd - s.now)⟩ : Occupant)
  let w0 : PassWork :=
    { free := running.map fun l => l.foldl (fun m o => max m o.stop) 0
      pos := s.slots.map fun k => s.predPos k, plans := s.slots.map fun _ => [], ends := [], busy := running.flatten
      orphans := [], left := limit.getD (us.length + 1) }
  let w := s.planLoop us w0 todo (us.length + 1)
  let done := fun i => w.ends.any (fun q => q.1 == i) || w.orphans.contains i
  let tails := s.slots.map fun k => (s.tree.plans.getD k []).filter fun i =>
    !done i && (match s.unit i with | some u => u.phase == .waiting || u.phase == .orphan | none => false)
  let frees := s.slots.map fun k => (w.free.getD k 0)
    + (tails.getD k []).foldl (fun n i => n + (match s.unit i with | some u => u.est | none => 0)) 0
  { plans := s.slots.map fun k =>
      if s.tree.job.static then (todo.filter fun e => natBit e.2.eligible k).map fun e => ⟨e.1, 0, 0⟩
      else (w.plans.getD k []) ++ (tails.getD k []).map fun i => ⟨i, 0, 0⟩
    orphans := w.orphans
    predEnd := origin + ((s.slots.filter fun k => s.inService k).map fun k => frees.getD k 0).foldl max 0 }

/-- A plan comes into force: the lists, the orphans, the predictions, and LAYER_LONG once a layer (R129, R135, R138). -/
def State.planForce (s : State) (r : PlanResult) : State :=
  let budget := match s.tree.layer with
    | some l => l.budget
    | none => 0
  let isOver := if budget = 0 then 0 else r.predEnd - budget
  let new := (r.orphans.filter fun i => (match s.unit i with | some u => u.phase == .waiting | none => false))
  let s1 := (((s.onTree fun t => { t with plans := r.plans.map fun l => l.map fun p => p.unit }).mapUnits fun us =>
    (us.zip (List.range us.length)).map fun e =>
      if e.1.phase == .waiting ∧ r.orphans.contains e.2 then { e.1 with phase := .orphan }
      else if e.1.phase == .orphan ∧ !r.orphans.contains e.2 then { e.1 with phase := .waiting }
      else e.1).setReg R.TREE_PRED_END (w32 r.predEnd)).setReg R.TREE_PRED_OVER (w32 isOver)
  let s2 := new.foldl (fun s i => s.planEvent 0x04 0 (match s.unit i with | some u => u.name | none => 0)) s1
  let s3 := s2.setFld F.TREE_STATUS_ORPHANS ((s2.units.filter fun u => u.phase == .orphan).length)
  if isOver ≠ 0 ∧ !s3.tree.long then
    ((s3.onTree fun t => { t with long := true }).setFld F.TREE_STATUS_LONG 1).planEvent 0x01 0 isOver
  else s3

/-- PLAN_PASS_DONE (R127): the pass ends; its plan comes into force at the next boundary. -/
def execPlanPassDone (s : State) : Host.Outcome State Fault Refusal :=
  .next (
    match s.tree.pass with
    | some p => s.onTree fun t => { t with pass := some { p with ended := true } }
    | none => s)

/-- REPLAN (R129, R130): a re-plan that is due starts. -/
def execReplan (s : State) : Host.Outcome State Fault Refusal :=
  .next (
    if s.tree.replanDue ∧ (s.jobState = jobRunning ∨ s.jobState = jobDraining) then
      s.onTree fun t => { t with
        replanDue := false, pass := some ⟨s.planNow (some 16384) (s.now - t.runAt), false⟩ }
    else s)

/-- REPLAN_LATE (R130): the pass that had not ended at the cadence boundary is counted and raised; it was discarded there. -/
def execReplanLate (s : State) : Host.Outcome State Fault Refusal :=
  .next (
    if s.tree.lateDue then
      ((s.onTree fun t => { t with lateDue := false }).bump F.TREE_REPLAN_LATE_COUNT).planEvent 0x06 0 0
    else s)

/-! ## Starting units (R122, R131 to R133) -/

/-- Whether every predecessor of a unit is complete. -/
def State.predsDone (s : State) (u : PlaceUnit) : Bool :=
  u.preds.all fun p => s.units.all fun v => v.patch != p || v.phase == .complete

/-- The units active on other lasers. -/
def State.activeElsewhere (s : State) (k : Nat) : List PlaceUnit :=
  s.units.filter fun v => v.phase == .started && v.laser != k
    && (match v.lastEnd with | none => true | some e => decide (s.now ≤ e))

/-- Why a unit may not start on a laser now: 0 when it may, else the code of TREE_LASER.WAIT. -/
def State.holdReason (s : State) (k : Nat) (u : PlaceUnit) : Nat :=
  let act := s.activeElsewhere k
  if !s.predsDone u then 2
  else if !(act.all fun v => s.plumeClear u v) then 3
  else if !(act.all fun v => s.apart u v) then 4
  else if !s.coolEnough u then 5
  else if !s.logSpace then 6
  else 0

/-- Whether a laser's tail is free: every stroke of its started units is pushed. -/
def State.tailFree (s : State) (k : Nat) : Bool := (s.runningOn k).all fun e => decide (e.2.parts.length ≤ e.2.pushed)

/-- The units a laser examines, in order: remainders it is eligible for, then its plan; the first 16, or the first one under
STATIC. An orphan waits for the re-plan that places it (R135). -/
def State.candidates (s : State) (k : Nat) : List (Nat × PlaceUnit) :=
  let us := (List.range s.units.length).zip s.units
  let open' := fun e : Nat × PlaceUnit => e.2.phase == .waiting
  let rem := (us.filter fun e => open' e && e.2.remainder.isSome && natBit e.2.eligible k && decide (e.2.startStitch < s.now))
    |>.foldl (fun l e => byPriority false e l) []
  let planned := ((s.tree.plans.getD k []).filterMap fun i => (s.unit i).map fun u => (i, u)).filter fun e =>
    open' e && !rem.any (fun q => q.1 == e.1)
  (rem ++ planned).take (if s.tree.job.static then 1 else 16)

/-- What a laser does at this boundary: the unit it may start, and the code of TREE_LASER.WAIT. -/
def State.examine (s : State) (k : Nat) : Option Nat × Nat :=
  if !s.inService k then (none, 7)
  else if !s.tailFree k then (none, 0)
  else if !s.hasRoom (s.reg (R.AWL_STROKEQ k)) 8 then (none, 8)
  else match s.candidates k with
    | [] => (none, 1)
    | e :: es => match (e :: es).find? fun q => s.holdReason k q.2 == 0 with
      | some q => (some q.1, 0)
      | none => (none, s.holdReason k e.2)

/-- TREE_LASER.WAIT of every slot from `k` on; 0 outside RUNNING and DRAINING. -/
def State.showWaits (s : State) (k : Nat) : State :=
  (s.slots.filter fun j => decide (k ≤ j)).foldl (fun s' j =>
    s'.setFld (F.TREE_LASER_WAIT j)
      (if s.jobState = jobRunning ∨ s.jobState = jobDraining then (s.examine j).2 else 0)) s

/-- The packet of a part (R161). -/
def partPacket (u : PlaceUnit) (n : Nat) (q : UnitPart) : List PWord :=
  [q.w0, q.w1, q.w2, q.w3, w32 q.index,
    w32 (bitNat (n + 1 == u.parts.length) * 2 ^ 31 + bitNat (u.rerun && n == 0) * 2 ^ 30 + bitNat q.split * 2 ^ 29
      + u.piece * 2 ^ 20 + u.patch), 0, 0].map PWord.clean

/-- The next part of a started unit pushed to its laser; a poisoned one is logged and ends the unit (R133). -/
def State.pushPart (s : State) (i : Nat) : State :=
  match s.unit i, s.tree.layer with
  | some u, some l => match u.parts[u.pushed]? with
    | none => s
    | some q =>
      let area := l.strokeArea + 16 * q.index
      let bad := (s.dramWords area 4).any fun w => w.poison
      let s := s.dramUse treeReq 2 area 4
      if bad then
        let h : HeldStroke :=
          { index := q.index, last := false, rerun := u.rerun && u.pushed == 0, split := q.split, piece := u.piece
            patch := u.patch, trace := false, zero := false, t0 := 0, startStitch := s.now, endStitch := s.now, first := false
            nom := 0, pset := 0, focus := 0 }
        let s1 := s.onUnit i fun v => { v with parts := v.parts.take v.pushed, cut := true, lastEnd := some s.now }
        let s2 := s1.logStroke u.laser ⟨h, s.now, 2 ^ 31⟩
        let s3 := if s2.logOn then s2.onTree fun t => { t with slotsUsed := t.slotsUsed + 1 } else s2
        s3.planEvent 0x07 u.laser u.name
      else
        let s1 := s.onUnit i fun v => { v with pushed := v.pushed + 1 }
        let s2 := if s1.logOn then s1.onTree fun t => { t with slotsUsed := t.slotsUsed + 1 } else s1
        s2.pushWords treeReq (s2.reg (R.AWL_STROKEQ u.laser)) (partPacket u u.pushed q)
  | _, _ => s

/-- A unit started on a laser: it becomes active and its first stroke is pushed. -/
def State.startUnit (s : State) (k i : Nat) : State :=
  match s.unit i with
  | none => s
  | some u =>
    let base := (s.runningOn k).foldl (fun m e => max m e.2.predEnd) s.now
    let len := base - s.now + s.jumpLen k u (s.predPos k) + u.est
    let s1 := s.onUnit i fun v => { v with
      phase := .started, laser := k, order := s.tree.starts, startStitch := s.now, predLen := len, pushed := 0, ended := 0
      lastEnd := none }
    let s2 := s1.onTree fun t => { t with starts := t.starts + 1, plans := t.plans.map fun l => l.filter (· != i) }
    ((((s2.queryTemp u).setFld (F.TREE_LASER_BUSY k) 1).setFld (F.TREE_LASER_PIECE k) u.piece).setFld (F.TREE_LASER_PATCH k)
      u.patch).pushPart i

/-- Whether the Tree starts and pushes strokes: RUNNING or DRAINING, and no period change waits (R35). -/
def State.treeRuns (s : State) : Bool := (s.jobState == jobRunning || s.jobState == jobDraining) && !s.periodPending

/-- A laser considered at the present boundary: the first unit that it examines and that meets R122 starts. -/
def State.consider (s : State) (k : Nat) : State :=
  let s1 := s.onTree fun t => { t with considered := k + 1 }
  match (s.examine k).1 with
  | some i => ((s1.startUnit k i).setFld (F.TREE_LASER_WAIT k) 0).showWaits (k + 1)
  | none => s1

/-- UNIT_START (R131, R132): the lasers are considered in ascending slot order, each once at a boundary, up to the one the command
names. -/
def execUnitStart (slot : Nat) (s : State) : Host.Outcome State Fault Refusal :=
  .next (
    if s.treeRuns then
      (s.slots.filter fun k => decide (s.tree.considered ≤ k) && decide (k ≤ slot)).foldl (fun (t : State) k => t.consider k) s
    else s)

/-- STROKE_PUSH (R132, R141): the next stroke of the laser's started unit is pushed, when its queue and the hold buffer have
room. -/
def execStrokePush (slot : Nat) (s : State) : Host.Outcome State Fault Refusal :=
  .next (
    if s.treeRuns ∧ s.inService slot ∧ s.logSpace ∧ s.hasRoom (s.reg (R.AWL_STROKEQ slot)) 8 then
      match (s.runningOn slot).find? fun e => decide (e.2.pushed < e.2.parts.length) with
      | some e => s.pushPart e.1
      | none => s
    else s)

/-- Patches with no strokes complete as soon as they could be placed (R109). -/
def State.emptyUnits (s : State) : State :=
  (List.range s.units.length).foldl (fun s i =>
    match s.unit i with
    | some u => if u.parts.isEmpty && u.phase == .waiting && s.predsDone u then s.onUnit i fun v => { v with phase := .complete } else s
    | none => s) s

/-- Whether a started unit is complete: its last stroke has ended before this Stitch, and so has every stroke pushed before a poisoned
one that cut it short (R132, R133). -/
def State.unitOver (s : State) (u : PlaceUnit) : Bool :=
  (match u.lastEnd with | some t => decide (t < s.now) | none => false) && decide (u.pushed ≤ u.ended)

/-- UNIT_COMPLETE (R132): a unit on the laser whose strokes have ended before this Stitch is complete; patches with no strokes that
waited for it are complete with it (R109). -/
def execUnitComplete (slot : Nat) (s : State) : Host.Outcome State Fault Refusal :=
  .next (
    match (s.runningOn slot).find? fun e => s.unitOver e.2 with
    | some e =>
      let s1 := (s.onUnit e.1 fun v => { v with phase := .complete }).emptyUnits
      (s1.setFld (F.TREE_LASER_BUSY slot) (bitNat (!(s1.runningOn slot).isEmpty))).showWaits 0
    | none => s)

/-! ## Losing a laser (R134 to R136) -/

/-- Whether a stroke's motion began at or before this boundary, seen from a stop of its Awl. -/
def Awl.begun (a : Awl) (t : Nat) (h : HeldStroke) : Bool := decide (h.t0 ≤ t) && (decide (h.t0 ≤ a.stopT) || decide (h.t0 < a.planT))

/-- The strokes that a stopped Awl held: those that ended are recorded, the one in progress is recorded with a flag and the
present Stitch, the others are forgotten. The stroke in progress is returned. -/
def State.cutHeld (s : State) (k flag : Nat) : List HeldStroke → State × Option HeldStroke
  | [] => (s, none)
  | h :: hs =>
    if h.endStitch < s.now then State.cutHeld ((s.countEnd h h.endStitch).logStroke k ⟨h, h.endStitch, 0⟩) k flag hs
    else if (s.awl k).begun s.tclk h then (s.logStroke k ⟨h, s.now, flag⟩, some h)
    else (s, none)

/-- A slot's strokes cut off (R113, R134): the Awl's held strokes, its queue flushed, the record slots of strokes that never
started given back. -/
def State.cutSlot (s : State) (k flag : Nat) : State × Option HeldStroke :=
  let (s1, h) := s.cutHeld k flag (s.awl k).held
  let s2 := (s1.setAwl k { s1.awl k with held := [], lossDue := none }).flushHandle (s1.reg (R.AWL_STROKEQ k))
  let never := (s2.runningOn k).foldl (fun n e => n + (e.2.pushed - e.2.ended)) 0 - bitNat h.isSome
  let s3 := if s2.logOn then s2.onTree fun t => { t with slotsUsed := t.slotsUsed - never } else s2
  (s3.showWindow k, h)

/-- A unit that no eligible laser in service can take waits as an orphan (R135). -/
def State.orphanUnit (s : State) (i : Nat) : State :=
  match s.unit i with
  | none => s
  | some u =>
    if u.phase ≠ .waiting ∨ s.slots.any (fun k => natBit u.eligible k && s.inService k) then s
    else
      let s1 := (s.onUnit i fun v => { v with phase := .orphan }).planEvent 0x04 0 u.name
      s1.setFld F.TREE_STATUS_ORPHANS ((s1.units.filter fun v => v.phase == .orphan).length)

/-- A unit of a lost laser returned to the Tree as a remainder (R134), ranked by boundary, slot and order (R136); an orphan at once
where no eligible laser is in service (R135). It keeps the estimate of the whole unit, which the spec does not have made anew
(DESIGN CHOICE, log entry 117). -/
def State.handOver (s : State) (k i : Nat) (h : Option HeldStroke) : State :=
  match s.unit i with
  | none => s
  | some u =>
    let mine := match h with
      | some q => q.patch == u.patch && q.piece == u.piece
      | none => false
    let s1 := s.onUnit i fun v => { v with
      phase := .waiting, parts := v.parts.drop v.ended, pushed := 0, ended := 0, rerun := mine || (v.rerun && v.ended == 0)
      remainder := some ((s.now * 32 + k) * 2 ^ 32 + s.tree.remainders), startStitch := s.now, lastEnd := none }
    ((s1.onTree fun t => { t with remainders := t.remainders + 1 }).planEvent 0x03 k u.name).orphanUnit i

/-- LASER_LOST (R134): the Tree samples the loss: the queue is flushed, the stroke in progress logged, the remainders formed,
and an extra re-plan starts at the next boundary. -/
def execLaserLost (slot : Nat) (s : State) : Host.Outcome State Fault Refusal :=
  .next (
    match (s.awl slot).lossDue with
    | none => s
    | some f =>
      if s.now < f then s
      else
        let (s1, h) := s.cutSlot slot (2 ^ 27)
        let s2 := s1.planEvent 0x05 slot 0
        let left := (s2.runningOn slot).filter fun e =>
          (match e.2.lastEnd with | some t => decide (s2.now ≤ t) | none => true)
        let s3 := left.foldl (fun s e => s.handOver slot e.1 h) s2
        let s4 := s3.setFld (F.TREE_LASER_BUSY slot) (bitNat (!(s3.runningOn slot).isEmpty))
        (s4.onTree fun t => { t with extra := true }).showWaits 0)

/-! ## Layers (R108 to R113) -/

/-- Words as a buffer's data, from a word offset. -/
def fillData (k : Nat) : List PWord → Sparse PWord
  | [] => []
  | w :: ws => if w = PWord.clean 0 then fillData (k + 1) ws else (k, w) :: fillData (k + 1) ws

/-- The parameter sets of a slot read into its resident stream (R110); none when the stream cannot be placed. -/
def State.copyPsets (s : State) (k : Nat) : State :=
  let old := sget 0 s.tree.psetBufs k
  let s0 := if old = 0 then s else s.dropInternal old
  let n := min 256 (((s0.tree.job.slots.find? fun e => e.1 == k).map fun e => e.2.psets).getD 0)
  let (s1, h) := if n = 0 then (s0, (0 : Word)) else s0.makeInternal 2 (64 * n)
  let table := s1.tree.job.psetTable + 16384 * k
  let s2 := match s1.namedBuffer h with
    | some key => (s1.setStream key { s1.stream key with data := fillData 0 (s1.dramWords table (16 * n)) }).dramUse treeReq 2 table
        (16 * n)
    | none => s1
  s2.onTree fun t => { t with
    psetBufs := sset 0 t.psetBufs k h, psetCounts := sset 0 t.psetCounts k (if h = 0 then 0 else n) }

/-- Reject registers and the job in REJECTED, with its event. -/
def State.rejectJob (s : State) (r : Reject) : State :=
  let s1 := (((((s.setFld F.TREE_JOB_STATUS_REJECT r.code).setReg R.TREE_REJECT_LAYER (w32 r.layer)).setReg
    R.TREE_REJECT_PATCH (w32 r.patch)).setReg R.TREE_REJECT_STROKE (w32 r.stroke)).setReg R.TREE_JOB_LAYER
    0xFFFFFFFF).setReg R.TREE_JOB_VALID 0xFFFFFFFF
  let s2 := ((s1.setJob jobRejected).jobResult 2).onTree fun t => { t with
    layer := none, next := none, nextFail := none, validating := .nothing, reload := false }
  if r.layer = noItem then s2.jobEventNone 0x05 r.code
  else s2.jobEvent 0x05 r.code (s2.jobWord (s2.layerOffset s2.tree.job r.layer))

/-- The initial plan's pass begins, once the layer in PREPARE is validated. -/
def State.planInitial (s : State) : State := s.onTree fun t => { t with pass := some ⟨s.planNow none 0, false⟩, planned := false }

/-- A validated layer taken up as the one in PREPARE. -/
def State.takeLayer (s : State) (l : LayerRec) : State :=
  (s.onTree fun t => { t with
    layer := some l, next := none, layerNo := l.layerNo, nextIndex := l.index + 1, lastLayer := t.job.layers ≤ l.index + 1
    validating := if l.index + 1 < t.job.layers then .next else .nothing }).planInitial

/-- The factor of every slot read anew, after a carry at the boundary of its evaluation (R158). -/
def State.refactor (s : State) : State :=
  s.slots.foldl (fun (t : State) k =>
    t.setRein k { t.rein k with fac := t.hideFactor (t.awl k).applied.bedX (t.awl k).applied.bedY }) s

/-- Entry to PREPARE for the next layer (R110, R111): the map carries over, parameter sets are copied, the Skiver starts. -/
def State.enterPrepare (s : State) : State :=
  let i := s.tree.nextIndex
  let b := s.layerOffset s.tree.job i
  let dz := match s.tree.next with
    | some l => l.dz
    | none => (s.jobWord (b + 52)).toNat
  let no := match s.tree.next with
    | some l => l.layerNo
    | none => s.jobWord b
  let s1 := ((s.setJob jobPrepare).setReg R.TREE_JOB_LAYER (w32 i)).onTree fun t => { t with
    layer := none, layerNo := no, readyAt := none, plans := [], pass := none, planned := false, long := false, isOver := false
    extra := false, replanDue := false, lateDue := false, starts := 0, remainders := 0, zeros := 0, reload := false }
  let s2 := (slotsOf s1.tree.job.slotMask).foldl (fun s k => s.copyPsets k) s1
  let s3 := (if dz = 0 then s2 else s2.carry.refactor).rearmSat
  let s4 := if dz = 0 then s3.onTree fun t => { t with readyAt := some s.now } else s3.skvStart dz
  match s4.tree.next with
  | some l => s4.takeLayer l
  | none => s4

/-- The fields that ARM and VALIDATE share: into VALIDATING. -/
def State.startValidation (s : State) (v : Validating) : State :=
  (((s.setJob jobValidating).jobResult 0).setFld F.TREE_JOB_STATUS_REJECT 0).onTree fun t => { t with
    validating := v, layer := none, next := none, nextFail := none, layerNo := 0xFFFFFFFF, reload := false }

/-- ARM and VALIDATE are accepted in IDLE, DONE, STOPPED and REJECTED. -/
def State.jobValidate (s : State) (v : Validating) : State := if s.jobAtRest then s.startValidation v else s.jobResult 1

/-- HOLD (R112). -/
def State.jobHold (s : State) : State :=
  if s.jobState = jobRunning ∨ s.jobState = jobDraining ∨ s.jobState = jobClosed then
    (s.setFld F.TREE_JOB_STATUS_HOLD_PENDING 1).jobResult 0
  else s.jobResult 1

/-- RESUME (R112): HELD goes to PREPARE, or through VALIDATING after a PSET_RELOAD; to REJECTED where the next layer has failed its
validation meanwhile (R110). -/
def State.jobResume (s : State) : State :=
  if s.jobState ≠ jobHeld then s.jobResult 1
  else if s.tree.reload then ((s.setJob jobValidating).jobResult 0).onTree fun t => { t with validating := .reload }
  else match s.tree.nextFail with
    | some r => s.rejectJob r
    | none => (s.jobResult 0).enterPrepare

/-- PSET_RELOAD (R112). -/
def State.jobReload (s : State) : State :=
  if s.jobState = jobHeld then (s.jobResult 0).onTree fun t => { t with reload := true } else s.jobResult 1

/-- ABORT of one slot: the Awl gates off and stops, its strokes are cut, and no loss is sampled (R113). -/
def State.abortSlot (s : State) (k : Nat) : State :=
  let st := s.awlState k
  let s1 := if st = awlFault ∨ st = awlStopping then s else s.stopAwl k 0 false
  ((s1.cutSlot k (2 ^ 26)).1.setFld (F.TREE_LASER_BUSY k) 0)

/-- ABORT (R113): refused in IDLE. -/
def State.jobAbort (s : State) : State :=
  if s.jobState = jobIdle then s.jobResult 1
  else
    let had := decide (2 ≤ s.jobState) && decide (s.jobState ≤ 5)
    let no := s.tree.layerNo
    let s1 := (s.slots.foldl (fun s k => s.abortSlot k) s).skvAbort
    let s2 := ((s1.setJob jobStopped).jobResult 0).onTree fun t => { t with
      layer := none, next := none, nextFail := none, validating := .nothing, plans := [], pass := none, extra := false
      replanDue := false, lateDue := false, reload := false, layerNo := 0xFFFFFFFF }
    let s3 := ((((s2.setFld F.TREE_JOB_STATUS_HOLD_PENDING 0).setReg R.TREE_JOB_LAYER 0xFFFFFFFF).setReg R.TREE_JOB_VALID
      0xFFFFFFFF).setReg R.TREE_PRED_END 0).setReg R.TREE_PRED_OVER 0
    let s4 := (s3.setFld F.TREE_STATUS_ORPHANS 0).showWaits 0
    if had then s4.jobEvent 0x06 0 no else s4.jobEventNone 0x06 0

/-- A command of TREE_JOB_CMD carried out at the present boundary. -/
def State.jobCommand (s : State) (c : Nat) : State :=
  match c with
  | 1 => s.jobValidate .arm
  | 2 => s.jobValidate .walk
  | 3 => s.jobHold
  | 4 => s.jobResume
  | 5 => s.jobAbort
  | 6 => s.jobReload
  | _ => s

/-- ARM (R108, R112). -/
def execArm (s : State) : Host.Outcome State Fault Refusal := .next (s.jobCommand 1)

/-- VALIDATE (R108, R112). -/
def execValidate (s : State) : Host.Outcome State Fault Refusal := .next (s.jobCommand 2)

/-- HOLD (R112). -/
def execHold (s : State) : Host.Outcome State Fault Refusal := .next (s.jobCommand 3)

/-- RESUME (R112). -/
def execResume (s : State) : Host.Outcome State Fault Refusal := .next (s.jobCommand 4)

/-- ABORT (R113). -/
def execAbort (s : State) : Host.Outcome State Fault Refusal := .next (s.jobCommand 5)

/-- PSET_RELOAD (R112). -/
def execPsetReload (s : State) : Host.Outcome State Fault Refusal := .next (s.jobCommand 6)

/-- The job in DONE. -/
def State.jobEnds (s : State) : State :=
  ((((s.setJob jobDone).setFld F.TREE_JOB_STATUS_HOLD_PENDING 0).setReg R.TREE_JOB_LAYER 0xFFFFFFFF).setReg
    R.TREE_JOB_VALID 0xFFFFFFFF).onTree fun t => { t with layer := none, next := none, validating := .nothing }

/-- HELD before a layer, with its event, which names that layer (DESIGN CHOICE, log entry 118). -/
def State.enterHeld (s : State) (no : Word) : State :=
  (((s.setJob jobHeld).setFld F.TREE_JOB_STATUS_HOLD_PENDING 0).setReg R.TREE_JOB_LAYER 0xFFFFFFFF).jobEvent 0x03 0 no

/-- The validation that ARM asked for ends. -/
def State.armDone (s : State) : State :=
  let j := s.readJob
  match firstReject s.headerRejects with
  | some r => s.useHeader.rejectJob r
  | none =>
    let s1 := s.useHeader.onTree fun t => { t with job := j, nextIndex := j.first, validating := .nothing }
    if j.layers = 0 ∨ j.layers ≤ j.first then (((s1.setFld F.TREE_JOB_STATUS_ZERO_LEN 1).jobResult 0).jobEnds).jobEventNone 0x04 0
    else match s1.readLayer j j.first with
      | .inr r => (s1.useLayer j j.first).rejectJob r
      | .inl l =>
        (((s1.useLayer j j.first).onTree fun t => { t with next := some l }).setReg R.TREE_JOB_VALID (w32 j.first)).enterHeld
          l.layerNo

/-- The walk of VALIDATE ends. -/
def State.walkDone (s : State) : State :=
  let j := s.readJob
  match firstReject s.headerRejects with
  | some r => s.useHeader.rejectJob r
  | none =>
    let s1 := s.useHeader.onTree fun t => { t with job := j, validating := .nothing }
    let s2 := s1.useLayers j 0 j.layers
    match s1.walkLayers j 0 j.layers with
    | some r => s2.rejectJob r
    | none =>
      let s3 := if j.layers = 0 then s2.setFld F.TREE_JOB_STATUS_ZERO_LEN 1 else s2
      (s3.setJob jobIdle).jobResult 0

/-- The revalidation after a PSET_RELOAD ends: PREPARE follows. -/
def State.reloadDone (s : State) : State :=
  let j := s.rereadPsets s.tree.job
  match firstReject s.headerRejects with
  | some r => s.useHeader.rejectJob r
  | none =>
    let s1 := (s.useHeader.useLayer j s.tree.nextIndex).onTree fun t => { t with job := j }
    match s.readLayer j s.tree.nextIndex with
    | .inr r => s1.rejectJob r
    | .inl l => (s1.onTree fun t => { t with next := some l, nextFail := none, validating := .nothing, reload := false }).enterPrepare

/-- The validation of the next layer ends while the job runs, or of the layer in PREPARE. -/
def State.nextDone (s : State) : State :=
  let i := s.tree.nextIndex
  let waiting := s.tree.layer.isNone && s.jobState == jobPrepare
  let s0 := s.useLayer s.tree.job i
  match s.readLayer s.tree.job i with
  | .inr r => if waiting then s0.rejectJob r else s0.onTree fun t => { t with nextFail := some r, validating := .nothing }
  | .inl l =>
    let s1 := s0.setReg R.TREE_JOB_VALID (w32 i)
    if waiting then s1.takeLayer l else s1.onTree fun t => { t with next := some l, validating := .nothing }

/-- VALIDATION_DONE (R108): what is being validated passes, or is rejected with the first failed check. -/
def execValidationDone (s : State) : Host.Outcome State Fault Refusal :=
  .next (
    match s.tree.validating with
    | .nothing => s
    | .arm => s.armDone
    | .walk => s.walkDone
    | .reload => s.reloadDone
    | .next => s.nextDone)

/-- LAYER_START (R111, R128): the layer is validated and planned, and layer-ready was signalled in an earlier Stitch. -/
def execLayerStart (s : State) : Host.Outcome State Fault Refusal :=
  .next (
    match s.tree.layer, s.tree.readyAt with
    | some l, some q =>
      if s.jobState = jobPrepare ∧ s.tree.planned ∧ q < s.now then
        let s1 := (s.setJob jobRunning).onTree fun t => { t with runAt := s.now, cadence := s.now + 64 }
        let s2 := if l.zeroLen then s1.setFld F.TREE_JOB_STATUS_ZERO_LEN 1 else s1
        (((s2.jobEvent 0x01 0 l.layerNo).logMarker 0).emptyUnits).showWaits 0
      else s
    | _, _ => s)

/-- LAYER_CLOSED (R111): every unit of the layer is complete. -/
def execLayerClosed (s : State) : Host.Outcome State Fault Refusal :=
  .next (
    if (s.jobState = jobRunning ∨ s.jobState = jobDraining) ∧ s.tree.runAt < s.now ∧ (s.units.all fun u => u.phase == .complete) then
      let s1 := (((s.setJob jobClosed).setFld F.TREE_JOB_STATUS_ZERO_CNT (min 0xFF s.tree.zeros)).setReg R.TREE_PRED_END
        0).setReg R.TREE_PRED_OVER 0
      let s2 := s1.onTree fun t => { t with pass := none, extra := false, replanDue := false, lateDue := false, plans := [] }
      (((s2.jobEvent 0x02 0 s2.tree.layerNo).logMarker 1).snapshot).showWaits 0
    else s)

/-- LAYER_ADVANCE (R110): at the boundary that ends CLOSED. -/
def execLayerAdvance (s : State) : Host.Outcome State Fault Refusal :=
  .next (
    if s.jobState = jobClosed ∧ s.tree.since < s.now then
      match s.tree.lastLayer, s.tree.nextFail with
      | true, _ => (s.jobEnds).jobEvent 0x04 0 s.tree.layerNo
      | false, some r => s.rejectJob r
      | false, none =>
        if s.flag F.TREE_JOB_STATUS_HOLD_PENDING then
          (s.onTree fun t => { t with layer := none }).enterHeld (match s.tree.next with
            | some l => l.layerNo
            | none => s.jobWord (s.layerOffset s.tree.job s.tree.nextIndex))
        else s.enterPrepare
    else s)

/-- LAYER_OVER (R138): layer time reaches BUDGET, once a layer. -/
def execLayerOver (s : State) : Host.Outcome State Fault Refusal :=
  .next (
    match s.tree.layer with
    | some l =>
      if (s.jobState = jobRunning ∨ s.jobState = jobDraining) ∧ l.budget ≠ 0 ∧ !s.tree.isOver ∧ s.tree.runAt + l.budget ≤ s.now then
        ((s.onTree fun t => { t with isOver := true }).setFld F.TREE_STATUS_OVER 1).planEvent 0x02 0 l.budget
      else s
    | none => s)

/-! ## The boundary -/

/-- A service bit that firmware cleared is a loss of a slot that runs a unit, and stops its Awl, at the boundary of its commit
(R134). -/
def State.serviceCleared (s : State) : State :=
  let was := s.tree.serviceWas
  let now := s.reg R.TREE_SLOT_SERVICE
  let lost := s.slots.filter fun k => getBits was k k == 1 && getBits now k k == 0 && !(s.runningOn k).isEmpty
  let s1 := lost.foldl (fun s k =>
    let st := s.awlState k
    let s' := if st = awlFault ∨ st = awlStopping then s else s.stopAwl k 0 false
    s'.setAwl k { s'.awl k with lossDue := some ((s'.awl k).lossDue.getD s.now |> min s.now) }) s
  s1.onTree fun t => { t with serviceWas := now }

/-- RUNNING and DRAINING (R110): every unit started, or one returned to the Tree. -/
def State.drainMove (s : State) : State :=
  let waiting := s.units.any fun u => u.phase == .waiting || u.phase == .orphan
  if s.jobState = jobRunning ∧ !waiting ∧ s.tree.runAt < s.now then s.setJob jobDraining
  else if s.jobState = jobDraining ∧ waiting then s.setJob jobRunning
  else s

/-- The plan pass at a boundary: one that ended comes into force, the cadence makes the next one due, and a change of service
asks for an extra one at the boundary after it (R129, R130): in PREPARE the initial pass made anew. -/
def State.planBoundary (s : State) : State :=
  let runs := s.jobState = jobRunning ∨ s.jobState = jobDraining
  let m := s.serviceMask
  let s1 := match s.tree.pass with
    | some p =>
      if p.ended then
        (s.planForce p.result).onTree fun t => { t with pass := none, planned := true }
      else s
    | none => s
  let s2 :=
    if !s1.tree.extra then s1
    else if runs then s1.onTree fun t => { t with extra := false, pass := none, replanDue := true }
    else if s1.jobState = jobPrepare ∧ s1.tree.layer.isSome then (s1.planInitial).onTree fun t => { t with extra := false }
    else s1.onTree fun t => { t with extra := false }
  let s3 := if runs ∧ s2.now = s2.tree.cadence then
      s2.onTree fun t => { t with
        cadence := t.cadence + 64, lateDue := t.lateDue || t.pass.isSome, pass := none, replanDue := true }
    else s2
  s3.onTree fun t => { t with extra := t.extra || t.inServiceWas != m, inServiceWas := m }

/-- The start-temperature queries of units that only log space holds back, at a boundary that starts nothing (R122, R156). -/
def State.queryBlocked (s : State) : State :=
  if s.logSpace then s
  else (s.slots.filter fun k => (s.examine k).2 == 6).foldl (fun (t : State) k =>
    (s.candidates k).foldl (fun (t : State) e => if s.holdReason k e.2 = 6 then t.queryTemp e.2 else t) t) s

/-- Records that could not leave the hold buffer in the ended Stitch (R141). -/
def State.logStall (s : State) : State :=
  match s.tree.log with
  | r :: _ => if r.stitch + 1 < s.now ∧ !s.hasRoom (s.reg R.TREE_LOG_Q) 4 then s.bump F.TREE_LOG_STALL_COUNT else s
  | [] => s

/-- What a boundary does to the Tree, after the commits and the Awls. -/
def State.treeBoundary (s : State) : State :=
  let s1 := (s.logStall.serviceCleared).planBoundary
  let runs := s1.jobState = jobRunning ∨ s1.jobState = jobDraining
  let s2 := if runs then s1.emptyUnits.drainMove.queryBlocked else s1
  ((s2.setFld F.TREE_STATUS_LOG_OFF (bitNat (!s2.logOn))).onTree fun t => { t with considered := 0 }).showWaits 0

end Sys2Proof.Machine
end

