-- ==== Sys2Proof/Machine/Restart.lean ====
section
/-! DEFINITION. Resets and what survives them (R385 to R388): block restarts of one unit and the resets of the core
domain. -/

namespace Sys2Proof.Machine

/-! ## Registers through a reset (R8, R12, R388) -/

/-- A register's word after a reset through which fields of token rank `lvl` and above keep their values. -/
def fieldsKept (lvl : Nat) (old rst : Word) : List FieldDesc → Word
  | [] => rst
  | f :: fs =>
    let w := fieldsKept lvl old rst fs
    if lvl ≤ f.sv.rank then putBits w f.hi f.lo (getBits old f.hi f.lo) else w

/-- The word of the register at an offset after such a reset. -/
def survive (p : Part) (lvl a : Nat) (old : Word) : Word :=
  match placeOf a with
  | none => resetWord p a
  | some pl => match regAt pl.blk pl.off with
    | some r => fieldsKept lvl old (resetWord p a) r.flds
    | none => resetWord p a

/-- The registers of which a predicate holds through such a reset; the others stay. -/
def State.resetRegs (s : State) (lvl : Nat) (hit : Nat → Bool) : State :=
  { s with regs := s.regs.foldl (fun m e =>
      sset (resetWord s.part e.1) m e.1 (if hit e.1 then survive s.part lvl e.1 e.2 else e.2)) [] }

/-! ## Block restarts (R387) -/

/-- Whether the part has the unit that a restart names. -/
def State.restartPresent (s : State) (code unit : Nat) : Bool :=
  match code with
  | 1 => s.part.hasCore unit
  | 2 => s.part.hasSlot unit
  | 3 => decide (unit < s.part.row.pipes)
  | 4 => decide (unit < s.part.row.axes)
  | 5 => s.part.hasLane unit
  | 6 => decide (unit < s.part.row.chans)
  | 0xB => decide (unit < 2)
  | c => decide (7 ≤ c) && decide (c ≤ 0xD) && unit == 0

/-- Whether the table of R387 refuses a restart in the unit's present state. -/
def State.restartRefused (s : State) (code unit : Nat) : Bool :=
  match code with
  | 2 => !(s.awlState unit == awlIdle || s.awlState unit == awlFault)
  | 3 => (List.range 5).any fun i => s.camOn unit i
  | 4 => !(s.axState unit == axDisabled || s.axState unit == axIdle || s.axState unit == axFault) || s.flag (F.AXIS_STATUS_OWNED unit)
  | 5 => s.laneState unit == laneReady && s.laneBusy unit
  | 6 => (s.chan unit).fetchOn != []
  | 9 => !(s.jobState == jobIdle || s.jobState == jobDone || s.jobState == jobStopped || s.jobState == jobRejected)
  | 0xC => s.lampOn
  | 0xD => s.cal.running.isSome
  | _ => false

/-- The contexts of a core restarted and IDLE, its loads abandoned; the table and the memories are kept. -/
def State.restartCore (s : State) (k : Nat) : State :=
  let s1 := (List.range 16).foldl (fun (t : State) c =>
    let u := t.restartCtx k c
    u.setCtx k c { u.ctx k c with watch := none, policyDue := 0, due := 0 }) s
  let x := s1.core k
  s1.setCore k { x with cur := none, lds := [], load := none }

/-- A slot's trace units that hold a capture. -/
def State.capturing (s : State) (k : Nat) : List Nat := (List.range 4).filter fun u => s.traceState k u == 2

/-- The captures in progress of a slot end with their packets marked bad (R213). -/
def State.traceAbandon (s : State) (k : Nat) : State :=
  (s.capturing k).foldl (fun (t : State) u => t.traceFail k u) s

/-- What a unit keeps beside its registers through its restart (R387). -/
def State.restartBlock (s : State) (code unit : Nat) : State :=
  match code with
  | 1 => s.restartCore unit
  | 2 => ((s.traceAbandon unit).setAwl unit Awl.atReset).setRein unit { Rein.atReset with seenT := s.tclk }
  | 3 => (List.range 5).foldl (fun (t : State) i => (t.dropInternal (t.cam unit i).queue).setCam unit i Cam.atReset) s
  | 4 => s.setAxis unit Axis.atReset
  | 5 =>
    let s1 := if s.laneState unit = laneDown then s else s.laneEnter unit laneDown 0 5
    (s1.calRestarted 2 unit).setLane unit Lane.atReset
  | 6 =>
    let up := s.dmcUp unit
    let s1 := (s.calRestarted 3 unit).drainWrites unit
    let s2 := s1.setChan unit { DmcChan.off with remaps := (s1.chan unit).remaps }
    if up then s2
    else { s2 with
      mem := s2.mem.filter fun c => c.1 / 2 ^ 36 != unit
      badLines := s2.badLines.filter fun c => c.1 * 64 / 2 ^ 36 != unit }
  | 7 => s.hideRestart
  | 8 =>
    let s1 := match s.sb.port with
      | some (.creating _ str) =>
        s.setFld (F.SB_CLASS_USED_PAGES str.cls) (s.fld (F.SB_CLASS_USED_PAGES str.cls) - str.pages.length)
      | _ => s
    { s1 with sb := { s1.sb with port := none, spareOut := [] } }
  | 9 => { s with tree := Tree.atReset }
  | 0xA => s.pcieReset
  | 0xB => s.setSeg unit Segment.atReset
  | 0xC => { s with lamp := { Lamp.atReset with mem := s.lamp.mem } }
  | 0xD => { s with cal := { s.cal with queue := [], running := none, goal := none } }
  | _ => s

/-- What the unit's registers show once its window was reset: live fields that follow from what it kept, and the losses of
captures that the restart itself ended (R213). -/
def State.restartShow (s : State) (code unit dmc : Nat) (lost : List Nat) : State :=
  match code with
  | 2 => lost.foldl (fun (t : State) u => t.bump (F.REIN_TRC_STATUS_LOST unit u)) s
  | 6 =>
    let up := dmc == dmcReady || dmc == dmcSelfRefresh
    let s1 := s.setFld (F.DMC_STATUS_STATE unit)
      (if !s.flag (F.DMC_CFG_ENABLE unit) then dmcOff else if up then dmcReady else dmcTraining)
    let s2 := s1.setFld (F.DMC_REMAP_USED_PAIRS unit) (s1.chan unit).remaps.length
    if up ∧ s.flag (F.DMC_CFG_ENABLE unit) then s2.setFld (F.DMC_SIZE_MIB unit) (s2.dmcMib unit) else s2
  | 8 => s.sb.streams.foldl (fun (t : State) e => t.setStream e.1 e.2) s
  | 0xA => s.setFld F.PCIE_STATUS_RESET_SEEN 1
  | 0xB => s.setFld (F.FBUS_SEG_STATUS_PLCA_ACTIVE unit) (bitNat (s.segOn unit && s.flag (F.FBUS_SEG_CFG_PLCA_EN unit)))
  | _ => s

/-- A block restart takes effect. -/
def State.startRestart (s : State) (code unit : Nat) : State :=
  let dmc := s.dmcState unit
  let lost := s.capturing unit
  let s1 := s.restartBlock code unit
  let s2 := s1.resetRegs 2 fun a => restartUnit a == some (code, unit)
  let s3 := s2.restartShow code unit dmc lost
  { s3 with
    cmds := s3.cmds.filter fun e => restartUnit e.1 != some (code, unit)
    power := { s3.power with restarts := s3.power.restarts ++ [(code, unit)] } }

/-- PWR_BLOCK_RST at a boundary: a restart asked for is refused or takes effect (R387). -/
def State.restartBoundary (s : State) : State :=
  let code := s.fld F.PWR_BLOCK_RST_CODE
  let unit := s.fld F.PWR_BLOCK_RST_INSTANCE
  if !s.flag F.PWR_BLOCK_RST_START ∨ s.power.restarts ≠ [] then s
  else if !s.restartPresent code unit then (s.setFld F.PWR_BLOCK_RST_RESULT 2).setFld F.PWR_BLOCK_RST_START 0
  else if s.restartRefused code unit then (s.setFld F.PWR_BLOCK_RST_RESULT 1).setFld F.PWR_BLOCK_RST_START 0
  else (s.setFld F.PWR_BLOCK_RST_RESULT 0).startRestart code unit

/-- A write of PWR_BLOCK_RST. While a restart runs, another request is refused with BUSY. -/
def State.writeBlockRst (s : State) (val : Word) : State :=
  let a := R.PWR_BLOCK_RST
  if s.flag F.PWR_BLOCK_RST_START then (if val.msb then s.setFld F.PWR_BLOCK_RST_RESULT 1 else s)
  else s.setReg a ((s.reg a &&& 0x70000000) ||| (val &&& 0x80000F3F))

/-- BLOCK_RESTART (R387): a write of PWR_BLOCK_RST with START; it takes effect at the next boundary. -/
def execBlockRestart (src : Source) (val : Word) (s : State) : Host.Outcome State Fault Refusal :=
  .next (s.gate src R.PWR_BLOCK_RST (val ||| 0x80000000) fun s => s.writeBlockRst (val ||| 0x80000000))

/-- The contexts of a core's table in force WAITING, as from the boundary at which the core runs again (R387, R390). -/
def State.wakeContexts (s : State) (k : Nat) : State :=
  (List.range 16).foldl (fun (t : State) c =>
    if (t.core k).table.any fun sl => sl.ctx == c then
      (t.setCtxState k c ctxWaiting).setCtx k c { t.ctx k c with due := t.stitch }
    else t.setCtxState k c ctxIdle) s

/-- BLOCK_RESTARTED (R387, R391): a restarted unit runs again. -/
def execBlockRestarted (s : State) : Host.Outcome State Fault Refusal :=
  .next (
    match s.power.restarts with
    | [] => s
    | (code, unit) :: rest =>
      let s1 := ({ s with power := { s.power with restarts := rest } }).setFld F.PWR_BLOCK_RST_START 0
      let s2 := if code = 1 then s1.wakeContexts unit else s1
      s2.pwrEvent 0xA1 (code * 2 ^ 16 + unit) 0)

/-! ## Resets of the core domain (R385, R386, R388) -/

/-- Stream numbers freed with their generations kept (R262). -/
def keptGenerations (m : Sparse Stream) : Sparse Stream :=
  m.filterMap fun e => if e.2.gen = 0 then none else some (e.1, { Stream.never with gen := e.2.gen })

/-- A core's memories kept (R84). -/
def keptMemories (m : Sparse Core) : Sparse Core :=
  m.filterMap fun e =>
    let c : Core := { Core.idle with imem := e.2.imem, dmem := e.2.dmem }
    if c = Core.idle then none else some (e.1, c)

/-- Levels of pins that a reset does not move. -/
def State.livePins (s old : State) : State :=
  ((s.setFld F.SEC_STATE_ILK_A (old.fld F.SEC_STATE_ILK_A)).setFld F.SEC_STATE_ILK_B (old.fld F.SEC_STATE_ILK_B)).setFld
    F.SEC_STATE_LOOP_OPEN (old.fld F.SEC_STATE_LOOP_OPEN)

/-- What the Saddlebag's registers show once every stream is freed (R281): no page charged, and no queue live. -/
def State.noStreams (s : State) (was : Sparse Stream) : State :=
  let s1 := (List.range 4).foldl (fun (t : State) c => t.setFld (F.SB_CLASS_USED_PAGES c) 0) s
  was.foldl (fun (t : State) e => t.setStream e.1 { Stream.never with gen := (t.stream e.1).gen }) s1

/-- The core domain reset: fields of token rank `lvl` and above keep their values; 3 is a soft or watchdog reset, 4
RESET_N, 5 a loss of core power, 6 power-on. The standby domain, the VBAT domain and the parameter store keep theirs. -/
def State.coreReset (s : State) (lvl : Nat) : State :=
  let r : State := { State.reset with
    part := s.part
    pending := s.pending
    fresh := s.fresh
    readData := s.readData
    resp := s.resp
    regs := (s.resetRegs lvl fun _ => true).regs
    sb := { Saddle.empty with streams := if lvl ≤ 4 then keptGenerations s.sb.streams else [], remaps := s.sb.remaps }
    cores := if lvl ≤ 4 then keptMemories s.cores else []
    chans := s.chans.filterMap fun e =>
      if e.2.remaps = [] then none else some (e.1, { DmcChan.off with remaps := e.2.remaps })
    board := s.board
    time := if lvl ≤ 3 then { TimeBlock.atReset with tb := s.time.tb, adj := s.time.adj } else TimeBlock.atReset
    power := { s.power with shutting := false, target := 750, checking := true, fails := 0, good := 0, margin := none,
                            restarts := [], recovery := false }
    cal := { Cal.atReset with accepted := s.cal.accepted, recs := s.cal.recs, lastTemp := s.cal.lastTemp }
    sec := { Sec.atReset with secrets := s.sec.secrets, user := s.sec.user, wear := s.sec.wear, flash := s.sec.flash }
    harn := { Harn.atReset with beat := s.harn.beat } }
  (r.livePins s).noStreams s.sb.streams

/-- The widest reset since the last clear (R385). -/
def State.setKind (s : State) (k : Nat) : State := s.setFld F.PWR_CAUSE_KIND (max k (s.fld F.PWR_CAUSE_KIND))

/-- The core domain released (R373, step 5): BOOTS counts, TC32's table holds the boot slot, and the AVS loop writes
0.75 V (R378, R82). -/
def State.release (s : State) : State :=
  let k := s.core 32
  let s1 := s.setCore 32 { k with table := Core.boot.table }
  { s1.bump F.PWR_CAUSE_BOOTS with power := { s1.power with seq := .released } }

end Sys2Proof.Machine
end

