-- ==== Sys2Proof/Machine/Power.lean ====
section
/-! DEFINITION. Burnish (R406 to R410), the power sequencer (R372 to R376), the power states and their commands (R380 to
R384), the wide resets (R385), boot (R390, R413) and the AVS loop (R377 to R379). -/

namespace Sys2Proof.Machine

/-- The state with the power manager changed. -/
def State.onPower (s : State) (f : Power → Power) : State := { s with power := f s.power }

/-! ## Supplies (R372) -/

/-- The supplies in the order of R372, VBAT first: nominal (the least that VBAT may have), up above and brown-out below, in mV. -/
def supplies : List (Nat × Nat × Nat) :=
  [(1600, 1550, 1500), (3300, 2970, 2800), (3300, 2970, 2800), (1800, 1620, 1530), (1800, 1620, 1530),
   (750, 650, 620), (800, 720, 680), (900, 810, 765), (1200, 1080, 1020), (1100, 990, 935)]

/-- A supply of the table. -/
def supply (r : Nat) : Nat × Nat × Nat := supplies.getD r (0, 0, 0)

/-- Whether a rail at `mv` millivolts is up. -/
def railUp (r mv : Nat) : Bool := decide ((supply r).2.1 < mv)

/-- Whether a rail at `mv` millivolts is below its brown-out threshold. -/
def railLow (r mv : Nat) : Bool := decide (mv < (supply r).2.2)

/-- The rails of a group, 0 for A. -/
def groupRails (g : Nat) : List Nat := match g with
  | 0 => [2, 3, 4]
  | 1 => [5, 6]
  | 2 => [7, 8, 9]
  | _ => []

/-- The group of a rail from 2 to 9. -/
def railGroup (r : Nat) : Nat := if r ≤ 4 then 0 else if r ≤ 6 then 1 else 2

/-- Whether every rail of a group is up at the levels given, in the order of R372. -/
def groupUp (g : Nat) (mv : List Nat) : Bool := (List.range (groupRails g).length).all fun i =>
  railUp ((groupRails g).getD i 0) (mv.getD i 0)

/-! ## The sequencer (R373, R374) -/

/-- Whether the sequencer drives PEN of a group high. -/
def SeqStep.pen (q : SeqStep) (g : Nat) : Bool :=
  match q with
  | .off | .standby | .retryWait => false
  | .released => true
  | .waitUp k => decide (g ≤ k)
  | .settleUp k => decide (g < k)
  | .settleDown k => decide (g ≤ k)
  | .waitDown k => decide (g < k)

/-- Whether the sequencer is on its way down, or down. -/
def SeqStep.falling : SeqStep → Bool
  | .settleDown _ | .waitDown _ | .retryWait | .standby | .off => true
  | _ => false

/-- The power-down begins at the highest group that is enabled (R373, R374). -/
def State.powerDown (s : State) : State :=
  let step := if s.power.seq.pen 2 then SeqStep.waitDown 2
    else if s.power.seq.pen 1 then .settleDown 1
    else if s.power.seq.pen 0 then .settleDown 0
    else .standby
  (s.onPower fun p => { p with seq := step }).setFld F.PWR_STATE_STATE pwrStandby

/-- The core domain without power: its state is lost and the power-down begins. -/
def State.lossOfCore (s : State) : State := (s.coreReset 5).powerDown

/-- What follows the last step of a power-down. -/
def State.isDown (s : State) : State :=
  s.onPower fun p => { p with seq := if p.retry then .retryWait else .standby }

/-- The step after a group's absence, or after the wait for it was given up. -/
def State.downNext (s : State) (grp : Nat) : State :=
  match grp with
  | 0 => s.isDown
  | g + 1 => s.onPower fun p => { p with seq := .settleDown g }

/-- A sequence fault (R374): its code is recorded and the device powers down, with no retry. On the way down a wait that exceeds
its limit is given up, and every other fault is recorded only. -/
def State.seqFault (s : State) (code : Nat) : State :=
  let s1 := s.onPower fun p => { p with retry := false }
  match s.power.seq with
  | .off => s1.setFld F.PWR_CAUSE_SEQ_CODE code
  | .waitDown g => if code = 5 then (s1.setFld F.PWR_CAUSE_SEQ_CODE code).downNext g else s1.setFld F.PWR_CAUSE_SEQ_CODE code
  | .settleDown _ => s1.setFld F.PWR_CAUSE_SEQ_CODE code
  | .standby => s1.setFld F.PWR_CAUSE_SEQ_CODE code
  | .retryWait => (s1.setFld F.PWR_CAUSE_SEQ_CODE code).isDown
  | _ => (s1.setFld F.PWR_CAUSE_SEQ_CODE code).lossOfCore

/-- SEQ_FAULT (R374): a rail out of order (codes 1 to 4) or a lost power-good (6). -/
def execSeqFault (code : Nat) (s : State) : Host.Outcome State Fault Refusal :=
  .next (
    let off := s.power.seq == .off
    if code = 1 then (if off then s.seqFault 1 else s)
    else if off then s
    else if code = 2 then (if s.power.seq = .waitUp 0 then s.seqFault 2 else s)
    else if code = 3 ∨ code = 4 then s.seqFault code
    else if code = 6 ∧ s.power.present ≠ [] then s.seqFault 6
    else s)

/-- SEQ_TIMEOUT (R373, R374): a wait exceeds PG_TIMEOUT; a PG_TIMEOUT of 0 bounds none. -/
def execSeqTimeout (s : State) : Host.Outcome State Fault Refusal :=
  .next (
    if s.fld F.PWR_SEQ_CFG_PG_TIMEOUT = 0 then s
    else match s.power.seq with
      | .waitUp _ => s.seqFault 5
      | .waitDown _ => s.seqFault 5
      | _ => s)

/-- PG_RISE (R373): the group that the sequencer waits for has its power-good, and its rails are up; after
group C the core is released. -/
def execPgRise (rise : GroupRails) (s : State) : Host.Outcome State Fault Refusal :=
  .next (
    match s.power.seq with
    | .waitUp g =>
      if g ≠ rise.grp ∨ !groupUp g rise.mv then s
      else
        let s1 := s.onPower fun p => { p with present := p.present ++ [g] }
        if g = 2 then (s1.setFld F.PWR_STATE_STATE pwrService).release
        else s1.onPower fun p => { p with seq := .settleUp (g + 1) }
    | _ => s)

/-- SETTLE_EXPIRY (R373): the delay between groups ends: the next group's enable moves. -/
def execSettleExpiry (s : State) : Host.Outcome State Fault Refusal :=
  .next (
    match s.power.seq with
    | .settleUp g => s.onPower fun p => { p with seq := .waitUp g }
    | .settleDown g => s.onPower fun p => { p with seq := .waitDown g }
    | _ => s)

/-- The thermal latch clears when VDD_STBY and all three groups are absent together (R383). -/
def State.latchClears (s : State) : State :=
  if s.power.seq = .off ∧ s.power.present = [] then s.setFld F.PWR_STATE_LATCH 0 else s

/-- GROUP_ABSENT (R373): a group falls below 10 % of nominal; a power-down that waits for it goes on. -/
def execGroupAbsent (grp : Nat) (s : State) : Host.Outcome State Fault Refusal :=
  .next (
    let s1 := s.onPower fun p => { p with present := p.present.filter (· != grp) }
    match s.power.seq with
    | .waitDown g => if g = grp then s1.downNext g else s
    | .off => s1.latchClears
    | _ => s)

/-- BROWN_OUT (R375): an up rail of group A, B or C (2 to 9 in the order of R372), enabled, has stayed below its
threshold (R372). A power-down that runs already goes on and is then followed as a brown-out's. -/
def execBrownOut (low : RailLevel) (within10s : Bool) (s : State) : Host.Outcome State Fault Refusal :=
  let grp := railGroup low.rail
  .next (
    if low.rail < 2 ∨ 9 < low.rail ∨ !s.power.present.contains grp ∨ !s.power.seq.pen grp ∨ !railLow low.rail low.mv then s
    else
      let s1 := (s.setKind 6).setFld F.PWR_CAUSE_BO_COUNT (if within10s then min 15 (s.fld F.PWR_CAUSE_BO_COUNT + 1) else 1)
      let s2 := s1.onPower fun p => { p with retry := true, brownRun := if within10s then p.brownRun + 1 else 0 }
      if s2.power.seq.falling then s2 else s2.lossOfCore)

/-- The power-up begins: PEN_A high. -/
def State.powerUp (s : State) : State := s.onPower fun p => { p with seq := .waitUp 0, retry := false, fresh := false }

/-- BROWN_OUT_RETRY (R375): the 100 ms end: the device sequences up again, or stays in STANDBY with BO_LIMIT. -/
def execBrownOutRetry (s : State) : Host.Outcome State Fault Refusal :=
  let limit := s.fld F.PWR_SEQ_CFG_BO_RETRY
  .next (
    if s.power.seq ≠ .retryWait then s
    else if limit = 0 ∨ limit ≤ s.power.brownRun then
      (s.onPower fun p => { p with seq := .standby, retry := false }).setFld F.PWR_CAUSE_SEQ_CODE 7
    else s.powerUp)

/-- STBY_LOSS (R376): VDD_STBY falls below its threshold and all three enables drop at once. -/
def execStbyLoss (s : State) : Host.Outcome State Fault Refusal :=
  .next (
    if s.power.seq = .off then s
    else
      (((s.coreReset 5).onPower fun p => { p with seq := .off, retry := false }).setFld F.PWR_STATE_STATE pwrOff).latchClears)

/-- VBAT_LOSS (R376): VBAT falls below 1.50 V with VDD_STBY absent: the VBAT domain is erased. -/
def execVbatLoss (s : State) : Host.Outcome State Fault Refusal :=
  .next (
    if s.power.seq ≠ .off then s
    else
      let s1 := ((s.setReg R.PWR_VBAT_CNT 0).setFld F.SEC_STATE_VALID 0).setFld F.SEC_STATE_SEAL_OPENED 0
      (s1.onSec fun x => { x with secrets := Sec.atReset.secrets }).onPower fun p => { p with vbat := false, vbatLost := true })

/-- The VBAT counter after time that no command's clock carries. -/
def State.vbatElapsed (s : State) : State :=
  (s.setReg R.PWR_VBAT_CNT (s.reg R.PWR_VBAT_CNT + w32 (Config.elapsed s.fresh))).tookFree

/-- POWER_ON (R376, R385, R440): VDD_STBY rises: the straps are sampled and the device enters STANDBY. -/
def execPowerOn (spiQuad harnSide : Bool) (s : State) : Host.Outcome State Fault Refusal :=
  .next (
    if s.power.seq ≠ .off then s
    else
      let latch := s.fld F.PWR_STATE_LATCH
      let s1 := (((s.coreReset 6).setFld F.PWR_STATE_LATCH latch).setKind 7).setFld F.HARN_CFG_SIDE
        (if s.part.row.harness then bitNat harnSide else 0)
      let s2 := if s.power.vbatLost then s1.setFld F.PWR_CAUSE_VBAT_LOST 1 else s1.vbatElapsed
      (s2.onPower fun p => { p with
        seq := .standby, spiQuad := spiQuad, fresh := true, brownRun := 0, vbat := true, vbatLost := false }).setFld
        F.PWR_STATE_STATE pwrStandby)

/-- WAKE (R381): a wake from STANDBY starts the power-up. -/
def execWake (cause : WakeCause) (s : State) : Host.Outcome State Fault Refusal :=
  .next (
    if s.power.seq ≠ .standby then s
    else match cause with
      | .autoWake => if s.power.fresh ∧ s.flag F.PWR_SEQ_CFG_AUTO_WAKE then s.powerUp else s
      | .wakeN => if s.flag F.PWR_SEQ_CFG_WAKE_N_EN then s.vbatElapsed.powerUp else s
      | .vbatCounter =>
        if s.reg R.PWR_WAKE_AT = 0 then s else (s.setReg R.PWR_VBAT_CNT (s.reg R.PWR_WAKE_AT)).powerUp)

/-! ## Burnish (R406 to R410) -/

/-- An event packet of the burnish (R411). -/
def State.burnEvent (s : State) (outcome failed : Nat) : State :=
  s.pushEvent 256 (s.reg R.BURN_EVQ) [w32 (0xD0 * 2 ^ 24 + outcome), w32 failed, s.stitchLo]

/-- Slices the part has (R406). -/
def State.sliceCount (s : State) : Nat := if s.part.extended then 190 else 150

/-- Microseconds of a slice: at most 1,800. -/
def sliceMicros (n : Nat) : Nat := min 1800 (Config.sliceTime n).toNat

/-- BURN_SLICE of a slice, of which there are at most 190. -/
def State.showSlice (s : State) (n result : Nat) : State :=
  let u := sliceUnit n
  if n < 190 then s.setReg (R.BURN_SLICE n) (w32 (result * 2 ^ 30 + sliceMicros n * 2 ^ 16 + u.1 * 2 ^ 8 + u.2)) else s

/-- Whether a run in service leaves a slice out: its unit may not be restarted, or is a core with a context neither IDLE nor
HALTED (R408). -/
def State.sliceHeld (s : State) (n : Nat) : Bool :=
  let u := sliceUnit n
  !s.power.shutting && (s.restartRefused u.1 u.2 || (u.1 == 1 && (List.range 16).any fun c =>
    s.ctxState u.2 c != ctxIdle && s.ctxState u.2 c != ctxHalted))

/-- Whether a slice is marked NOT_RUN: by R408, or because it does not fit a budget (R407). -/
def State.sliceSkips (s : State) (n : Nat) : Bool :=
  s.sliceHeld n || decide (s.fld F.BURN_BUDGET_SLICE_BUDGET < sliceMicros n)
    || s.fld F.BURN_BUDGET_SLICE_BUDGET == 0
    || decide (s.fld F.BURN_BUDGET_RUN_BUDGET * 1000 < s.burn.used + sliceMicros n)
    || s.fld F.BURN_BUDGET_RUN_BUDGET == 0

/-- The outcome of a run is written (R410). -/
def State.burnEnds (s : State) : State :=
  let b := s.burn
  let outcome := if b.failed ≠ 0 then 2 else if b.notRun = 0 then 1 else 3
  let s1 := ((s.setFld F.BURN_RESULT_OUTCOME outcome).setFld F.BURN_RESULT_FAILED b.failed).setFld F.BURN_RESULT_NOT_RUN
    b.notRun
  let s2 := if b.failed ≠ 0 then s1.setFld F.BURN_RESULT_BURNISH_FAIL 1 else s1
  let s3 := if outcome = 1 ∧ s.power.shutting then s2.setFld F.BURN_RESULT_FRESH 1 else s2
  (({ (s3.burnEvent outcome b.failed) with burn := Burn.idle }).setFld F.BURN_CTRL_BUSY 0).setFld F.BURN_CTRL_SLICE 0

/-- A slice marked NOT_RUN. -/
def State.markNotRun (s : State) (n : Nat) : State :=
  let t := s.showSlice n 0
  { t with burn := { t.burn with notRun := t.burn.notRun + 1 } }

/-- The run goes on to the next slice that is not left out, or ends. -/
def State.burnNext (s : State) : List Nat → State
  | [] => s.burnEnds
  | n :: ns =>
    if s.sliceSkips n then State.burnNext (s.markNotRun n) ns
    else ({ s with burn := { s.burn with left := some (n :: ns) } }).setFld F.BURN_CTRL_SLICE n

/-- A run starts. -/
def State.burnStart (s : State) : State :=
  (({ s with burn := { Burn.idle with left := some [] } }).setFld F.BURN_CTRL_BUSY 1).burnNext (List.range s.sliceCount)

/-- A run is abandoned: the slice in progress and every later one are NOT_RUN (R409). -/
def State.burnCancel (s : State) : State :=
  match s.burn.left with
  | none => s
  | some l => (l.foldl (fun (t : State) n => t.markNotRun n) s).burnEnds

/-- RUN (R408): in SERVICE with the job at rest. -/
def State.burnRun (s : State) : State :=
  if s.pwrState = pwrService ∧ s.booted ∧ s.burn.left.isNone ∧ !s.power.shutting ∧ !s.restartRefused 9 0 then s.burnStart else s

/-- A write of BURN_CTRL. -/
def State.writeBurnCtrl (s : State) (val : Word) : State :=
  let s1 := if natBit val.toNat 30 then s.burnCancel else s
  if val.msb then s1.burnRun else s1

/-- BURN_RUN (R408): a write of BURN_CTRL.RUN. -/
def execBurnRun (src : Source) (val : Word) (s : State) : Host.Outcome State Fault Refusal :=
  .next (s.gate src R.BURN_CTRL (val ||| 0x80000000) fun s => s.writeBurnCtrl (val ||| 0x80000000))

/-! ## Power states (R380 to R384) -/

/-- RESULT of a power command. -/
def State.pwrResult (s : State) (r : Nat) : State := s.setFld F.PWR_STATE_RESULT r

/-- Step 4 of R384: the power-down after the burnish. -/
def State.shutDown (s : State) : State := s.lossOfCore

/-- SERVICE: from READY and RUN. -/
def State.cmdService (s : State) : State :=
  if s.pwrState = pwrReady ∨ s.pwrState = pwrRun then s.toService.pwrResult 0 else s.pwrResult 1

/-- READY: from SERVICE unless latched, and from RUN. -/
def State.cmdReady (s : State) : State :=
  if s.pwrState = pwrService ∧ s.booted ∧ !s.power.shutting then
    if s.latched then s.pwrResult 2 else (s.setPower pwrReady).pwrResult 0
  else if s.pwrState = pwrRun then (s.emitOff.setPower pwrReady).pwrResult 0
  else s.pwrResult 1

/-- RUN: from READY, unless latched or interlocked (R381, R423). -/
def State.cmdRun (s : State) : State :=
  if s.pwrState ≠ pwrReady then s.pwrResult 1
  else if s.latched then s.pwrResult 2
  else if !s.ilkClear ∨ s.sec.ilkHold then s.pwrResult 3
  else (s.setPower pwrRun).pwrResult 0

/-- SHUTDOWN: to SERVICE, then the burnish or the power-down (R384). -/
def State.cmdShutdown (s : State) : State :=
  if !s.booted ∨ s.power.shutting then s.pwrResult 1
  else
    let s1 := if s.pwrState = pwrService then s else s.toService
    let s2 := s1.pwrResult 0
    if s2.flag F.PWR_SEQ_CFG_BURNISH then
      let s3 := (s2.burnCancel.onPower fun p => { p with shutting := true }).burnStart
      if s3.burn.left.isNone then s3.shutDown else s3
    else s2.shutDown

/-- CANCEL of a shut-down before its power-down. -/
def State.cmdCancel (s : State) : State :=
  if s.power.shutting then (s.burnCancel.onPower fun p => { p with shutting := false }).pwrResult 0 else s.pwrResult 1

/-- A device soft reset (R385). -/
def State.softReset (s : State) (kind : Nat) : State := ((s.setKind kind).coreReset 3).release

/-- A command of PWR_CMD as it takes effect at a boundary. -/
def State.powerCommand (s : State) (c : Nat) : State :=
  match c with
  | 1 => s.cmdService
  | 2 => s.cmdReady
  | 3 => s.cmdRun
  | 4 => s.cmdShutdown
  | 5 => s.cmdCancel
  | 6 => s.softReset 3
  | _ => s

/-- A power command with the core domain up; nothing acts on PWR_CMD without it. -/
def State.powerRow (s : State) (c : Nat) : State := if s.coreUp then s.powerCommand c else s

/-- SERVICE (R381). -/
def execService (s : State) : Host.Outcome State Fault Refusal := .next (s.powerRow 1)

/-- READY (R381). -/
def execReady (s : State) : Host.Outcome State Fault Refusal := .next (s.powerRow 2)

/-- RUN (R381). -/
def execRun (s : State) : Host.Outcome State Fault Refusal := .next (s.powerRow 3)

/-- SHUTDOWN (R384). -/
def execShutdown (s : State) : Host.Outcome State Fault Refusal := .next (s.powerRow 4)

/-- CANCEL (R384). -/
def execCancel (s : State) : Host.Outcome State Fault Refusal := .next (s.powerRow 5)

/-- SOFT_RESET (R385). -/
def execSoftReset (s : State) : Host.Outcome State Fault Refusal := .next (s.powerRow 6)

/-- BURN_CANCEL (R409): a write of BURN_CTRL.CANCEL. -/
def execBurnCancel (src : Source) (val : Word) (s : State) : Host.Outcome State Fault Refusal :=
  .next (s.gate src R.BURN_CTRL ((val &&& 0x7FFFFFFF) ||| 0x40000000) fun s => s.writeBurnCtrl ((val &&& 0x7FFFFFFF) ||| 0x40000000))

/-- SLICE_DONE (R406, R410): a slice ends with its signature compared; a shut-down's last one is followed by the
power-down. -/
def execSliceDone (pass : Bool) (s : State) : Host.Outcome State Fault Refusal :=
  .next (
    match s.burn.left with
    | some (n :: ns) =>
      let s1 := s.showSlice n (if pass then 1 else 2)
      let s2 := { s1 with burn := { s1.burn with
        used := s1.burn.used + sliceMicros n, failed := s1.burn.failed + bitNat (!pass) } }
      let s3 := s2.burnNext ns
      if s3.burn.left.isNone ∧ s3.power.shutting then s3.shutDown else s3
    | _ => s)

/-- RESET_N (R385): the pin is held low, and boot follows when it rises. -/
def execResetN (s : State) : Host.Outcome State Fault Refusal :=
  .next (if s.coreUp then ((s.setKind 5).coreReset 4).release else s)

/-- WATCHDOG_RESET (R94, R385): twice LIMIT Stitches have passed without a kick. -/
def execWatchdogReset (s : State) : Host.Outcome State Fault Refusal :=
  .next (
    if s.coreUp ∧ s.flag F.SYS_WDOG_CTRL_ENABLE ∧ 2 * s.fld F.SYS_WDOG_CTRL_LIMIT ≤ s.wdog.count then s.softReset 4 else s)

/-! ## Boot (R390, R410, R413) -/

/-- Whether an image passes (R413). -/
def State.imagePasses (s : State) (h : ImageHdr) : Bool :=
  h.magic == 0xB9B01A6E && decide (h.length ≤ 2 ^ 24 - 512) && decide (h.key < 4)
    && !natBit (s.fld F.SEC_BOOT_REVOKED) h.key && decide (s.fld F.SEC_BOOT_MIN_VER ≤ h.version) && h.signed

/-- The start-up logic test, run unless a fresh burnish passed (R410). -/
def State.bootTest (s : State) (testOk : Bool) : State :=
  let s1 := if s.fld F.BURN_RESULT_OUTCOME = 1 ∧ s.flag F.BURN_RESULT_FRESH ∨ testOk then s
    else s.setFld F.BURN_RESULT_BURNISH_FAIL 1
  s1.setFld F.BURN_RESULT_FRESH 0

/-- The boot from an image in slot `slot`. -/
def State.bootFrom (s : State) (slot : Nat) (h : ImageHdr) (testOk : Bool) : State :=
  let fallback := slot != s.fld F.SEC_BOOT_PREF
  let s1 := ((s.setFld F.SEC_BOOT_SLOT slot).setFld F.SEC_BOOT_KEY h.key).setFld F.SEC_BOOT_RESULT (bitNat fallback)
  let s2 := (((s1.bootTest testOk).calLoad.calBoot).setFld F.PWR_STATE_BOOT_DONE 1).onPower fun p => { p with recovery := false }
  let s3 := (List.range 40).foldl (fun (t : State) k => if (t.core k).table = [] then t else t.wakeContexts k) s2
  let s4 := (s3.setPower pwrService).pwrEvent 0xA5 0 0
  if fallback then s4.secEvent 0xE6 0 else s4

/-- BOOT_DONE (R390, R413): the boot ROM has tried PREF and then the other slot, whose images it finds to be `a` (slot A) and
`b` (slot B); `testOk` is the result of the start-up logic test where it runs. With no image that passes the device stays in
recovery. -/
def execBootDone (a b : ImageHdr) (testOk : Bool) (s : State) : Host.Outcome State Fault Refusal :=
  .next (
    if !s.coreUp ∨ s.flag F.PWR_STATE_BOOT_DONE then s
    else
      let pref := s.fld F.SEC_BOOT_PREF
      let first := if pref = 0 then a else b
      let second := if pref = 0 then b else a
      if s.imagePasses first then s.bootFrom pref first testOk
      else if s.imagePasses second then s.bootFrom (1 - pref) second testOk
      else (s.setFld F.SEC_BOOT_RESULT 2).onPower fun p => { p with recovery := true })

/-! ## AVS (R377 to R379) -/

/-- Millivolts held to 680 to 850 (R378). -/
def avsClip (mv : Nat) : Nat := max 680 (min 850 mv)

/-- A new VDD_CORE target written to the regulator, when it moves. -/
def State.avsTarget (s : State) (mv good : Nat) : State :=
  s.onPower fun p => { p with good := good, target := mv, checking := p.checking || mv != p.target }

/-- AVS_STEP (R378): the interval ends and the loop moves the target: `margins` are the slacks of the path monitors in
ps. -/
def execAvsStep (margins : List Nat) (s : State) : Host.Outcome State Fault Refusal :=
  .next (
    match margins with
    | [] => s
    | x :: xs =>
      if !s.coreUp ∨ !s.flag F.PWR_AVS_CFG_AVS_EN ∨ s.fld F.PWR_AVS_CFG_INT = 0 ∨ s.power.checking
          ∨ s.flag F.PWR_AVS_STATUS_FAULT then s
      else
        let m := xs.foldl min x % 65536
        let step := min 10 (s.fld F.PWR_AVS_CFG_STEP)
        let hi := avsClip (s.fld F.PWR_AVS_LIM_VMAX)
        let lo := avsClip (s.fld F.PWR_AVS_LIM_VMIN)
        let (t1, g1) := if m < s.fld F.PWR_AVS_MARGIN_LOW then (min (s.power.target + step) hi, 0)
          else (s.power.target, s.power.good)
        let g2 := if s.fld F.PWR_AVS_MARGIN_HIGH < m then g1 + 1 else g1
        let (t2, g3) := if 8 ≤ g2 then (max (t1 - step) lo, 0) else (t1, g2)
        (s.avsTarget t2 g3).onPower fun p => { p with margin := some m })

/-- The AVS loop stops (R377, R379). -/
def State.avsStops (s : State) : State :=
  ((s.onPower fun p => { p with checking := false }).setFld F.PWR_AVS_STATUS_FAULT 1).pwrEvent 0xA2 0 0

/-- AVS_CHECK (R378, R379): READ_VOUT `readMv` 100 µs after a change; `ok` says that the exchange had no NAK and no PEC
error. `linear` is what VOUT_MODE was read to be at the loop's start: any other format stops the loop there (R377). -/
def execAvsCheck (back : ReadBack) (readMv : Nat) (s : State) : Host.Outcome State Fault Refusal :=
  .next (
    if !s.coreUp ∨ !s.power.checking ∨ s.flag F.PWR_AVS_STATUS_FAULT then s
    else if !back.linear ∧ s.fld F.PWR_AVS_STATUS_TARGET = 0 then s.avsStops
    else
      let t := s.power.target
      let s1 := if back.ok then s.setFld F.PWR_AVS_STATUS_READ_VOUT (min 1023 readMv) else s
      if back.ok ∧ max (readMv - t) (t - readMv) ≤ 10 then
        (s1.setFld F.PWR_AVS_STATUS_TARGET t).onPower fun p => { p with checking := false, fails := 0 }
      else
        let s2 := s1.onPower fun p => { p with fails := p.fails + 1 }
        if s2.power.fails < 3 then s2
        else s2.avsStops)

/-- MARGIN_CRIT (R379): once per Stitch-aligned second while the margin stays below CRIT. -/
def execMarginCrit (s : State) : Host.Outcome State Fault Refusal :=
  .next (
    match s.power.margin with
    | some m => if m < s.fld F.PWR_AVS_MARGIN_CRIT then s.pwrEvent 0xA3 0 (w32 m) else s
    | none => s)

/-- REG_ALERT (R377): PMB_ALERT_N asserts: STATUS_WORD is read and reported. -/
def execRegAlert (status : Nat) (s : State) : Host.Outcome State Fault Refusal :=
  .next (if s.coreUp then s.pwrEvent 0xA4 0 (w32 (status % 65536)) else s)

/-- PWR_RAILS: the rails that are up, from VBAT as bit 0 to VDDQ as bit 9 (R372). -/
def State.rails (s : State) : Word :=
  let g := s.power.present
  w32 (bitNat s.power.vbat + (if s.power.seq = .off then 0 else 2) + (if g.contains 0 then 0x1C else 0)
    + (if g.contains 1 then 0x60 else 0) + if g.contains 2 then 0x380 else 0)

end Sys2Proof.Machine
end

