-- ==== Sys2Proof/Machine/Secure.lean ====
section
/-! DEFINITION. What presence guards and what it protects (R412 to R424, R434): guarded writes and grants, the key store,
images, the parameter store, the seal and the interlocks. -/

namespace Sys2Proof.Machine

/-! ## Secrets (R419, R420, R422) -/

/-- Every secret overwritten with zeros and every VALID bit cleared. -/
def State.eraseSecrets (s : State) : State :=
  (s.onSec fun x => { x with secrets := Sec.atReset.secrets }).setFld F.SEC_STATE_VALID 0

/-- Secret `i` replaced, with its VALID bit. -/
def State.setSecret (s : State) (i : Nat) (ws : List Word) (valid : Bool) : State :=
  let v := s.fld F.SEC_STATE_VALID
  let v' := if valid then v ||| 2 ^ i else v &&& (255 - 2 ^ i)
  (s.onSec fun x => { x with secrets := x.secrets.set i ws }).setFld F.SEC_STATE_VALID v'

/-- The twelve words of HMAC-SHA-384 with secret `i` over a buffer; none for an empty secret or a handle that names no
buffer. -/
def State.hmacWords (s : State) (i : Nat) (h : Word) : Option (List Word) :=
  if !natBit (s.fld F.SEC_STATE_VALID) i then none
  else match s.namedBuffer h with
    | none => none
    | some key =>
      let n := (s.stream key).size
      let bytes := (bytesOfWords ((s.bufWords key 0 ((n + 3) / 4)).map fun w => w.val)).take n
      some (wordsOfBytes (hmac384 (bytesOfWords (s.sec.secrets.getD i [])) bytes))

/-- Consecutive registers written. -/
def State.setRegs (s : State) (a : Nat) : List Word → State
  | [] => s
  | w :: ws => State.setRegs (s.setReg a w) (a + 4) ws

/-- A key operation of SEC_KEY_CMD as it runs, with its RESULT: 0 OK, 2 REFUSED. LOAD is refused while the debug port is
open, RESEAL while the seal loop is open, and a key slot or a version that SEC_BOOT cannot hold is refused. -/
def State.keyOp (s : State) (val : Word) : State × Nat :=
  let i := getBits val 10 8
  let arg := (s.reg R.SEC_KEY_ARG).toNat
  match getBits val 30 28 with
  | 1 =>
    if s.flag F.SEC_DEBUG_OPEN then (s, 2)
    else ((s.setSecret i s.sec.stage true).onSec fun x => { x with stage := Sec.atReset.stage }, 0)
  | 2 => (s.setSecret i (List.replicate 8 0) false, 0)
  | 3 => if s.flag F.SEC_STATE_LOOP_OPEN then (s, 2) else (s.setFld F.SEC_STATE_SEAL_OPENED 0, 0)
  | 4 => if 4 ≤ i then (s, 2) else (s.setFld F.SEC_BOOT_REVOKED (s.fld F.SEC_BOOT_REVOKED ||| 2 ^ i), 0)
  | 5 =>
    if 2 ^ 16 ≤ arg then (s, 2) else (s.setFld F.SEC_BOOT_MIN_VER (max arg (s.fld F.SEC_BOOT_MIN_VER)), 0)
  | _ => (s, 2)

/-- RESULT of a key command. -/
def State.keyResult (s : State) (r : Nat) : State := s.setFld F.SEC_KEY_CMD_RESULT r

/-- A write of SEC_KEY_CMD. HMAC runs at once; every other OP is guarded, and START reads 1 while it waits. A START while
one waits gets BUSY. -/
def State.writeKeyCmd (s : State) (val : Word) : State :=
  let a := R.SEC_KEY_CMD
  let busy := s.flag F.SEC_KEY_CMD_START
  if !val.msb then s.setReg a ((s.reg a &&& 0x8E000000) ||| (val &&& 0x70000700))
  else if busy then s.keyResult 1
  else
    let s1 := s.setReg a ((s.reg a &&& 0x0E000000) ||| (val &&& 0x70000700))
    match getBits val 30 28 with
    | 0 => s1.keyResult 2
    | 7 => s1.keyResult 2
    | 6 => match s1.hmacWords (getBits val 10 8) (s1.reg R.SEC_KEY_ARG) with
      | some ws => ((s1.useBuf (s1.reg R.SEC_KEY_ARG) (((s1.bufSize (s1.reg R.SEC_KEY_ARG)) + 3) / 4)).setRegs (R.SEC_MAC 0) ws).keyResult 0
      | none => s1.keyResult 2
    | op =>
      if op = 1 ∧ s1.flag F.SEC_DEBUG_OPEN then s1.keyResult 2
      else if op = 3 ∧ s1.flag F.SEC_STATE_LOOP_OPEN then s1.keyResult 2
      else if s1.guardPending then (s1.guardRequest 4 a val).keyResult 1
      else (s1.setFld F.SEC_KEY_CMD_START 1).guardRequest 4 a val

/-- The word of a key command with its OP and START. -/
def keyWord (op : Nat) (val : Word) : Word := w32 (2 ^ 31 + op * 2 ^ 28) ||| (val &&& 0x00000700)

/-- KEY_LOAD (R419): a write of SEC_KEY_CMD with LOAD. -/
def execKeyLoad (src : Source) (val : Word) (s : State) : Host.Outcome State Fault Refusal :=
  .next (s.gate src R.SEC_KEY_CMD (keyWord 1 val) fun s => s.writeKeyCmd (keyWord 1 val))

/-- ERASE (R415): a write of SEC_KEY_CMD with ERASE. -/
def execErase (src : Source) (val : Word) (s : State) : Host.Outcome State Fault Refusal :=
  .next (s.gate src R.SEC_KEY_CMD (keyWord 2 val) fun s => s.writeKeyCmd (keyWord 2 val))

/-- RESEAL (R420): a write of SEC_KEY_CMD with RESEAL, the seal loop being found closed or open. -/
def execReseal (src : Source) (val : Word) (closed : Bool) (s : State) : Host.Outcome State Fault Refusal :=
  .next (s.gate src R.SEC_KEY_CMD (keyWord 3 val) fun s => (s.setFld F.SEC_STATE_LOOP_OPEN (bitNat (!closed))).writeKeyCmd (keyWord 3 val))

/-- REVOKE (R415): a write of SEC_KEY_CMD with REVOKE. -/
def execRevoke (src : Source) (val : Word) (s : State) : Host.Outcome State Fault Refusal :=
  .next (s.gate src R.SEC_KEY_CMD (keyWord 4 val) fun s => s.writeKeyCmd (keyWord 4 val))

/-- MIN_VER (R415): a write of SEC_KEY_CMD with MIN_VER. -/
def execMinVer (src : Source) (val : Word) (s : State) : Host.Outcome State Fault Refusal :=
  .next (s.gate src R.SEC_KEY_CMD (keyWord 5 val) fun s => s.writeKeyCmd (keyWord 5 val))

/-- HMAC (R419): a write of SEC_KEY_CMD with HMAC. -/
def execHmac (src : Source) (val : Word) (s : State) : Host.Outcome State Fault Refusal :=
  .next (s.gate src R.SEC_KEY_CMD (keyWord 6 val) fun s => s.writeKeyCmd (keyWord 6 val))

/-- SEAL_OPENED (R420): the loop opens: the secrets go, and SEAL_OPENED is latched and raised. -/
def execSealOpened (s : State) : Host.Outcome State Fault Refusal :=
  .next (((s.eraseSecrets.setFld F.SEC_STATE_LOOP_OPEN 1).setFld F.SEC_STATE_SEAL_OPENED 1).secEvent 0xE2 0)

/-- A write of SEC_DEBUG: UNLOCK starts the guarded unlock (R422). -/
def State.writeDebug (s : State) (val : Word) : State :=
  if !val.msb then s
  else if s.guardPending then s.guardRequest 7 R.SEC_DEBUG val
  else (s.setFld F.SEC_DEBUG_UNLOCK 1).guardRequest 7 R.SEC_DEBUG val

/-- DEBUG_UNLOCK (R422): a write of SEC_DEBUG.UNLOCK. -/
def execDebugUnlock (src : Source) (s : State) : Host.Outcome State Fault Refusal :=
  .next (s.gate src R.SEC_DEBUG 0x80000000 fun s => s.writeDebug 0x80000000)

/-! ## Guarded registers (R415, R416) -/

/-- The operation of R415 that a write of a register starts; none for a register that is not guarded. -/
def guardedOp (a : Nat) : Option Nat :=
  match placeOf a with
  | none => none
  | some pl =>
    match pl.blk with
    | .rein => if pl.off = 0x38 then some 1 else none
    | .sec => if pl.off = 0x8 then some 2 else if pl.off = 0x4 then some 4 else none
    | .cal => if (0x40 ≤ pl.off ∧ pl.off ≤ 0x60) ∧ pl.off % 4 = 0 then some 5 else none
    | _ => none

/-- A write of a guarded register: SEC_KEEPER outside 5 to 600 is discarded with BUSY_WRITE; every other value is staged
until presence. -/
def State.writeGuarded (s : State) (src : Source) (a : Nat) (val : Word) : State :=
  match guardedOp a with
  | none => s
  | some op =>
    let secs := getBits val 15 0
    if a = R.SEC_KEEPER ∧ (secs < 5 ∨ 600 < secs) then s.busyWrite src a else s.guardRequest op a val

/-- POWER_CEILING (R208): a write of REIN_CEILING. -/
def execPowerCeiling (src : Source) (slot : Nat) (val : Word) (s : State) : Host.Outcome State Fault Refusal :=
  .next (s.gate src (R.REIN_CEILING slot) val fun s => s.guardRequest 1 (R.REIN_CEILING slot) val)

/-- RESIGN (R431): at the lead, with the wheel TRACKING, a guarded request; elsewhere BUSY. -/
def State.writeResign (s : State) : State :=
  if s.fld F.HARN_STATUS_STATE = 6 ∧ s.harn.peerTracks then (s.setFld F.HARN_STATUS_RESULT 0).guardRequest 6 R.HARN_CMD 1
  else s.setFld F.HARN_STATUS_RESULT 1

/-- RESIGN (R431): a write of HARN_CMD with RESIGN. -/
def execResign (src : Source) (s : State) : Host.Outcome State Fault Refusal :=
  .next (s.gate src R.HARN_CMD 1 fun s => s.writeResign)

/-! ## Images (R413, R414) -/

/-- The slot that PROGRAM and COMMIT address: the one that did not boot; in recovery PREF. -/
def State.imageSlot (s : State) : Nat := if s.power.recovery then s.fld F.SEC_BOOT_PREF else 1 - s.fld F.SEC_BOOT_SLOT

/-- RESULT of an image command. -/
def State.imageResult (s : State) (r : Nat) : State := s.setFld F.SEC_IMG_CMD_RESULT r

/-- A write of SEC_IMG_CMD. A START while a command runs is discarded with BUSY_WRITE. -/
def State.writeImgCmd (s : State) (src : Source) (val : Word) : State :=
  let a := R.SEC_IMG_CMD
  if s.flag F.SEC_IMG_CMD_START ∧ val.msb then s.busyWrite src a
  else
    let s1 := s.setReg a ((s.reg a &&& 0x9C000000) ||| (val &&& 0x6000FFFF))
    if !val.msb then s1
    else match getBits val 30 29 with
      | 1 =>
        if 256 ≤ getBits val 15 0 then s1.imageResult 1
        else (s1.setFld F.SEC_IMG_CMD_START 1).onSec fun x => { x with imgJob := some (1, getBits val 15 0) }
      | 2 => (s1.setFld F.SEC_IMG_CMD_START 1).onSec fun x => { x with imgJob := some (2, 0) }
      | _ => s1.imageResult 2

/-- PROGRAM (R414): a write of SEC_IMG_CMD with PROGRAM. -/
def execProgram (src : Source) (val : Word) (s : State) : Host.Outcome State Fault Refusal :=
  .next (s.gate src R.SEC_IMG_CMD ((val &&& 0x0000FFFF) ||| 0xA0000000) fun s => s.writeImgCmd src ((val &&& 0x0000FFFF) ||| 0xA0000000))

/-- IMG_COMMIT (R414): a write of SEC_IMG_CMD with COMMIT. -/
def execImgCommit (src : Source) (val : Word) (s : State) : Host.Outcome State Fault Refusal :=
  .next (s.gate src R.SEC_IMG_CMD ((val &&& 0x0000FFFF) ||| 0xC0000000) fun s => s.writeImgCmd src ((val &&& 0x0000FFFF) ||| 0xC0000000))

/-- IMG_CMD_DONE (R414): the running image command ends and its port is released. A COMMIT finds `hdr` at the slot: one
that fails gets REFUSED, one that passes starts the guarded commit. -/
def execImgCmdDone (hdr : ImageHdr) (s : State) : Host.Outcome State Fault Refusal :=
  .next (
    match s.sec.imgJob with
    | none => s
    | some (op, chunk) =>
      let s1 := (s.onSec fun x => { x with imgJob := none }).setFld F.SEC_IMG_CMD_START 0
      if op = 1 then
        (s1.onSec fun x => { x with flash := sset none x.flash (s1.imageSlot * 256 + chunk) (some x.imgBuf) }).imageResult 0
      else if !s1.imagePasses hdr then s1.imageResult 2
      else if s1.guardPending then (s1.guardRequest 3 R.SEC_IMG_CMD 0).imageResult 3
      else (s1.guardRequest 3 R.SEC_IMG_CMD 0).imageResult 0)

/-! ## The grant (R417) -/

/-- What a granted request does at its boundary, with the RESULT of SEC_GUARD: 1 GRANTED, 5 REFUSED. -/
def State.grantEffect (s : State) (q : Guarded) : State × Nat :=
  match q.op with
  | 1 =>
    let slot := (q.addr - R.REIN_CEILING 0) / 0x800
    (s.setRein slot { s.rein slot with ceilDue := some (getBits q.val 19 0) }, 1)
  | 2 => (s.setReg R.SEC_EMIT_MASK (q.val &&& w32 (2 ^ s.part.row.lasers - 1)), 1)
  | 3 => (s.setFld F.SEC_BOOT_PREF s.imageSlot, 1)
  | 4 =>
    if q.addr = R.SEC_KEEPER then (s.setFld F.SEC_KEEPER_SECONDS (getBits q.val 15 0), 1)
    else
      let (s1, r) := s.keyOp q.val
      (s1.keyResult r, if r = 0 then 1 else 5)
  | 5 => (if q.addr = R.CAL_CMD then s.geoCommit (getBits q.val 5 0) else s.setReg q.addr q.val, 1)
  | 6 => ({ s with harn := { s.harn with resigning := some (s.now + 1) } }, 1)
  | 7 =>
    (((s.eraseSecrets.setFld F.SEC_DEBUG_OPEN 1).setFld F.SEC_STATE_DEBUG_OPEN 1).secEvent 0xE3 (7 * 2 ^ 16), 1)
  | _ => (s, 1)

/-- A request granted in the ended Stitch takes effect, and GRANTED is raised. -/
def State.grantBoundary (s : State) : State :=
  match s.sec.granted with
  | none => s
  | some q =>
    let s1 := (s.guardStartOff q.addr).secEvent 0xE0 (q.op * 2 ^ 16)
    let (s2, r) := s1.grantEffect q
    s2.guardEnds r

/-- GUARDED_REQUEST (R416): a write of a guarded register, or of a register with a guarded command. -/
def execGuardedRequest (src : Source) (addr : Word) (val : Word) (s : State) : Host.Outcome State Fault Refusal :=
  let a := addr.toNat
  .next (s.gate src a val fun s =>
    if (guardedOp a).isSome then s.writeGuarded src a val
    else if a = R.SEC_KEY_CMD then s.writeKeyCmd (val ||| 0x80000000)
    else if a = R.SEC_IMG_CMD then s.writeImgCmd src (val ||| 0x80000000)
    else if a = R.CAL_CMD then s.writeCalCmd (val ||| 0x90000000)
    else if a = R.SEC_DEBUG then s.writeDebug (val ||| 0x80000000)
    else if a = R.HARN_CMD then s.writeResign
    else s)

/-! ## The parameter store (R434) -/

/-- Whether SEC_PSTORE_CMD takes a word: the board equalisation table, at the indices below 640, or the user area. -/
def pstoreTakes (i : Nat) : Bool := decide (i < 640) || Config.userArea i

/-- A write of SEC_PSTORE_CMD. -/
def State.writePstoreCmd (s : State) (src : Source) (val : Word) : State :=
  let a := R.SEC_PSTORE_CMD
  let i := (s.reg R.SEC_PSTORE_ADDR).toNat
  if !val.msb then s
  else if s.sec.storing.isSome then s.busyWrite src a
  else if pstoreTakes i then
    (((s.setFld F.SEC_PSTORE_CMD_WRITE 1).setFld F.SEC_PSTORE_CMD_DONE 0).setFld F.SEC_PSTORE_CMD_RESULT 0).onSec
      fun x => { x with storing := some (i, s.reg R.SEC_PSTORE_DATA) }
  else (s.setFld F.SEC_PSTORE_CMD_DONE 0).setFld F.SEC_PSTORE_CMD_RESULT 1

/-- PSTORE_WRITE (R434): a write of SEC_PSTORE_CMD with WRITE. -/
def execPstoreWrite (src : Source) (val : Word) (s : State) : Host.Outcome State Fault Refusal :=
  .next (s.gate src R.SEC_PSTORE_CMD (val ||| 0x80000000) fun s => s.writePstoreCmd src (val ||| 0x80000000))

/-- PSTORE_DONE (R434): the word is durable; passing 9 × 10^8 writes of it raises PSTORE_WEAR. -/
def execPstoreDone (s : State) : Host.Outcome State Fault Refusal :=
  .next (
    match s.sec.storing with
    | none => s
    | some (i, w) =>
      let n := sget 0 s.sec.wear i + 1
      let s1 := if i < 640 then { s with board := sset 0xFFFFFFFF s.board i w }
        else s.onSec fun x => { x with user := sset 0 x.user i w }
      let s2 := ((s1.onSec fun x => { x with storing := none, wear := sset 0 x.wear i n }).setFld
        F.SEC_PSTORE_CMD_WRITE 0).setFld F.SEC_PSTORE_CMD_DONE 1
      if n = 900000001 then s2.secEvent 0xE7 0 else s2)

/-! ## Interlocks (R423) -/

/-- An interlock's level: input 0 is A, 1 is B. -/
def ilkFld (input : Nat) : Fld := if input = 0 then F.SEC_STATE_ILK_A else F.SEC_STATE_ILK_B

/-- ILK_ACTIVE (R423, R382): an interlock goes active: every EMIT_EN drops. -/
def execIlkActive (input : Timed Nat) (s : State) : Host.Outcome State Fault Refusal :=
  .next (
    if 1 < input.what ∨ s.flag (ilkFld input.what) then s
    else (((s.setFld (ilkFld input.what) 1).emitDrop input.tick).onSec fun x => { x with ilkClear := 0 }).secEvent 0xE4 input.what)

/-- ILK_RELEASED (R423): an interlock goes inactive. -/
def execIlkReleased (input : Nat) (s : State) : Host.Outcome State Fault Refusal :=
  .next (
    if 1 < input then s
    else (s.setFld (ilkFld input) 0).onSec fun x => { x with ilkClear := 0 })

/-- ILK_MISMATCH (R423): the two inputs have differed for more than 100 ms. -/
def execIlkMismatch (s : State) : Host.Outcome State Fault Refusal :=
  .next (
    if s.flag F.SEC_STATE_ILK_A = s.flag F.SEC_STATE_ILK_B then s
    else ((s.setFld F.SEC_STATE_ILK_MISMATCH 1).onSec fun x => { x with ilkHold := true }).secEvent 0xE5 0)

/-- The 100 ms that both interlocks must be inactive together: 32,000,000 TCLK, counted at boundaries, `n` for the ended
Stitch. -/
def State.ilkBoundary (s : State) (n : Nat) : State :=
  if !s.sec.ilkHold then s
  else if !s.ilkClear then s.onSec fun x => { x with ilkClear := 0 }
  else if 32000000 ≤ s.sec.ilkClear + n then s.onSec fun x => { x with ilkHold := false, ilkClear := 0 }
  else s.onSec fun x => { x with ilkClear := x.ilkClear + n }

end Sys2Proof.Machine
end

