-- ==== Sys2Proof/Machine/Harn.lean ====
section
/-! DEFINITION. The harness pair (R425 to R433): enabling, digests and how the peer's copies are judged, joining, the
hand-over and the take-over. -/

namespace Sys2Proof.Machine

/-- The state with the harness changed. -/
def State.onHarn (s : State) (f : Harn → Harn) : State := { s with harn := f s.harn }

/-- SOLO. -/
def harnSolo : Nat := 0
/-- JOINING. -/
def harnJoining : Nat := 1
/-- COPY. -/
def harnCopy : Nat := 2
/-- REPLICA. -/
def harnReplica : Nat := 3
/-- TRACKING. -/
def harnTracking : Nat := 4
/-- UNTRACKED. -/
def harnUntracked : Nat := 5
/-- LEAD. -/
def harnLead : Nat := 6

/-- HARN_STATUS.STATE. -/
def State.harnState (s : State) : Nat := s.fld F.HARN_STATUS_STATE

/-- The state with HARN_STATUS.STATE replaced. -/
def State.setHarn (s : State) (st : Nat) : State := s.setFld F.HARN_STATUS_STATE st

/-- RESULT of the harness. -/
def State.harnResult (s : State) (r : Nat) : State := s.setFld F.HARN_STATUS_RESULT r

/-- Whether the harness takes part in a pair. -/
def State.harnOn (s : State) : Bool := s.part.row.harness && s.flag F.HARN_CFG_ENABLE

/-- An event packet of the harness (R435): `stitch` is the digest Stitch. -/
def State.harnEvent (s : State) (code low : Nat) (stitch : Word) : State :=
  s.pushEvent 256 (s.reg R.HARN_EVQ) [w32 (code * 2 ^ 24 + low), stitch, s.stitchLo]

/-- LANES: which harness lanes are READY. -/
def State.harnLanes (s : State) : Nat :=
  ((List.range 4).map fun (c : Nat) => if s.laneState (36 + c) = laneReady then 2 ^ c else 0).foldl (· + ·) 0

/-! ## Enable (R425, R428) -/

/-- Whether an enabled head lane has a MISS_LIMIT below 2. -/
def State.shortMissLimit (s : State) : Bool :=
  s.laneList.any fun k => !s.isHarness k && s.flag (F.LANE_CFG_ENABLE k) && decide (s.fld (F.LANE_CFG_MISS_LIMIT k) < 2)

/-- The harness lanes enabled or disabled. -/
def State.harnTrain (s : State) (on : Bool) : State :=
  [36, 37, 38, 39].foldl (fun (t : State) k =>
    t.writeLaneCfg .device k (if on then t.reg (R.LANE_CFG k) ||| 0x80000000 else t.reg (R.LANE_CFG k) &&& 0x7FFFFFFF)) s

/-- A write of HARN_CFG: setting ENABLE is refused with RANGE where a head could go SAFE, and else trains the harness lanes;
clearing it ends the pair. -/
def State.writeHarnCfg (s : State) (val : Word) : State :=
  let s1 := s.setFld F.HARN_CFG_AUTO_JOIN (getBits val 30 30)
  let was := s.flag F.HARN_CFG_ENABLE
  if val.msb = was then s1
  else if val.msb then
    if s1.shortMissLimit then s1.harnResult 2
    else ((s1.setFld F.HARN_CFG_ENABLE 1).harnResult 0).harnTrain true
  else
    (((s1.setFld F.HARN_CFG_ENABLE 0).setHarn harnSolo).harnTrain false).onHarn fun h => { Harn.atReset with beat := h.beat }

/-- HARN_ENABLE (R425): a write of HARN_CFG. -/
def execHarnEnable (src : Source) (val : Word) (s : State) : Host.Outcome State Fault Refusal :=
  .next (s.gate src R.HARN_CFG val fun s => s.writeHarnCfg val)

/-- LEAD_SEARCH (R432): with its harness lanes READY the device has found no lead in its time, and leads. -/
def execLeadSearch (s : State) : Host.Outcome State Fault Refusal :=
  .next (
    if s.harnOn ∧ s.harnState = harnSolo ∧ s.harnLanes = 15 ∧ !s.harn.peer then (s.setHarn harnLead).harnResult 0 else s)

/-! ## Joining (R433) -/

/-- A join fails: RESULT, JOIN_REFUSED, and SOLO. -/
def State.joinFails (s : State) (r : Nat) : State :=
  ((s.setHarn harnSolo).harnResult r).harnEvent 0xF6 0 s.stitchLo

/-- COPY_LEFT from what was copied of the job region. -/
def State.showCopyLeft (s : State) : State :=
  s.setFld F.HARN_STATUS_COPY_LEFT
    (min 0xFFFF (ceilDiv (mib (s.reg R.HARN_JOB_SIZE).toNat - s.harn.copied) (2 ^ 20)))

/-- JOIN taken at HARN_CMD, or by AUTO_JOIN. -/
def State.joinStarts (s : State) : State :=
  if s.harnOn ∧ s.harnState = harnSolo then s.setHarn harnJoining else s.harnResult 1

/-- JOIN (R433, R422): steps 1 and 2. `check` is what the exchange with the lead finds: 0 it passes, 3 AUTH, 4 MISMATCH; with
no lead it fails with NO_LEAD. -/
def execJoin (check : Nat) (s : State) : Host.Outcome State Fault Refusal :=
  .next (
    if !s.harnOn then s
    else if s.harnState ≠ harnSolo ∧ s.harnState ≠ harnJoining then s.harnResult 1
    else if !s.harn.peer then s.joinFails 5
    else if s.flag F.SEC_STATE_SEAL_OPENED ∨ s.flag F.SEC_DEBUG_OPEN ∨ !natBit (s.fld F.SEC_STATE_VALID) 0 then s.joinFails 3
    else if check = 0 then
      (((s.setHarn harnCopy).harnResult 0).onHarn fun h => { h with copied := 0, good := 0, missed := 0, lost := 0 }).showCopyLeft
    else s.joinFails check)

/-- A word of a live stream of the lead: the stream is made here with the same handle when it is not there yet. -/
def State.copyStream (s : State) (h : Word) (cls size : Nat) (spill : Bool) (off : Nat) (w : PWord) : State :=
  match handleKey h with
  | none => s
  | some key =>
    let gen := getBits h 31 24
    let there := (s.stream key).live && (s.stream key).gen == gen
    let s1 := if there then s
      else
        let r : CreateReq := ⟨if isQueue key then 0 else 1, cls, spill, 1, size⟩
        let str := { s.placed key r false with gen := gen }
        (s.tookFree.setStream key str).bumpBy (F.SB_CLASS_USED_PAGES cls) str.pages.length
    if isQueue key then s1.setStream key { s1.stream key with words := (s1.stream key).words ++ [⟨w, true⟩] }
    else s1.setBufWord key off w

/-- A context with the state of an image: addresses are word addresses, and g0 carries nothing (R44, R45). -/
def Ctx.ofImage (x : Ctx) (m : CtxImage) : Ctx :=
  { x with
    g := (List.range 31).foldl (fun t i => sset 0 t (i + 1) (m.g.getD i 0)) []
    v := (List.range 8).foldl (fun t i => sset 0 t i (m.v.getD i 0)) []
    p := m.p, pc := m.pc &&& 0xFFFC, calls := (m.calls.map fun a => a &&& 0xFFFC).take 8
    loops := (m.loops.map fun l => ⟨l.1 / 4 * 4, l.2.1, l.2.2.1, l.2.2.2⟩).take 2
    gpois := m.special.getD 0 0 &&& ~~~1, vpois := (m.special.getD 1 0).truncate 8, stat := m.special.getD 2 0, qst := m.special.getD 3 0
    epc := m.special.getD 4 0, ecause := m.special.getD 5 0, eaddr := m.special.getD 6 0, trapvec := m.special.getD 7 0 &&& ~~~3 }

/-- A piece of the lead's state put in place (R433). -/
def State.copyOne (s : State) (data : CopyData) : State :=
  match data with
  | .reg addr val => s.setReg addr.toNat val
  | .stream h cls size spill off w => s.copyStream h cls size spill off w
  | .line off bytes =>
    let s1 := match s.dmcOfBar4 off with
      | some (c, o) => s.storeLine (dramAddr c o) ⟨padTo 64 bytes, false⟩
      | none => s
    (s1.onHarn fun h => { h with copied := h.copied + 64 }).showCopyLeft
  | .stitch count => { s with stitch := count }
  | .grid h fill => { s with hide := { s.hide with grid := h, fill := fill } }
  | .local k data i w =>
    let c := s.core k
    s.setCore k (if data then { c with dmem := sset (PWord.clean 0) c.dmem i w } else { c with imem := sset (PWord.clean 0) c.imem i w })
  | .context k c m => s.setCtx k c ((s.ctx k c).ofImage m)

/-- COPY_FLIT (R433, steps 3 and 4): a piece of the lead's state, taken at once in COPY; in REPLICA a change of the present Stitch,
which the wheel applies one Stitch behind. -/
def execCopyFlit (data : CopyData) (s : State) : Host.Outcome State Fault Refusal :=
  .next (
    if !s.harnOn then s
    else if s.harnState = harnCopy then s.copyOne data
    else if s.harnState = harnReplica then s.onHarn fun h => { h with changes := h.changes ++ [data] }
    else s)

/-- COPY_DONE (R433): the copy ends and the device is a REPLICA; it computes from the boundary after the next one on. -/
def execCopyDone (s : State) : Host.Outcome State Fault Refusal :=
  .next (
    if s.harnOn ∧ s.harnState = harnCopy then
      ((s.setHarn harnReplica).setFld F.HARN_STATUS_COPY_LEFT 0).onHarn fun h => { h with cut := some (s.now + 1), good := 0 }
    else s)

/-- WHEEL_READY (R433): 64 good copies in a row since the cut. -/
def execWheelReady (s : State) : Host.Outcome State Fault Refusal :=
  .next (
    if s.harnOn ∧ s.harnState = harnReplica ∧ 64 ≤ s.harn.good then (s.setHarn harnTracking).harnEvent 0xF5 0 s.stitchLo
    else s)

/-- LEAVE as it takes effect: a wheel returns to SOLO; elsewhere BUSY. -/
def State.harnLeave (s : State) : State :=
  if s.isWheel then (s.setHarn harnSolo).harnResult 0 else s.harnResult 1

/-- LEAVE (R433). -/
def execLeave (s : State) : Host.Outcome State Fault Refusal := .next (if s.harnOn then s.harnLeave else s)

/-- A command of HARN_CMD as it takes effect: RESIGN acts at its write. -/
def State.harnCommand (s : State) (c : Nat) : State :=
  match c with
  | 2 => s.joinStarts
  | 3 => s.harnLeave
  | _ => s

/-! ## Handing over and taking over (R430, R431) -/

/-- RESIGNED (R431): at the boundary after the Stitch whose copies carried RESIGN the roles swap. -/
def execResigned (s : State) : Host.Outcome State Fault Refusal :=
  .next (
    if s.harnState = harnLead then match s.harn.resigning with
      | some q =>
        if q < s.now then
          ((s.setHarn harnTracking).onHarn fun h => { h with resigning := none, missed := 0, lost := 0 }).harnEvent 0xF1 0 s.stitchLo
        else s
      | none => s
    else if s.harnState = harnTracking ∧ s.harn.peerResigns then
      ((s.setHarn harnLead).onHarn fun h => { h with peerResigns := false, peerTracks := true, missed := 0, lost := 0 }).harnEvent
        0xF1 0 s.stitchLo
    else s)

/-- TAKEOVER (R430): the wheel leads from the boundary after its decision. -/
def execTakeover (s : State) : Host.Outcome State Fault Refusal :=
  .next (
    if s.harn.decided then
      (((s.setHarn harnLead).onHarn fun h => { h with decided := false, peerTracks := false, missed := 0 }).bump
        F.HARN_TAKEOVER_CNT_COUNT).harnEvent 0xF0 0 s.stitchLo
    else s)

/-! ## Forwarding (R427) -/

/-- FORWARD_FLIT (R427): a host write that reached the lead, applied at the wheel in the next boundary cycle. -/
def execForwardFlit (place : ForwardPlace) (data : ForwardData) (s : State) : Host.Outcome State Fault Refusal :=
  .next (if s.harnOn ∧ s.isWheel then s.forwardAs (forwarded place data) else s)

/-! ## Digests (R429, R430) -/

/-- What the digest of this Stitch covers, as words in the order of R429. -/
def State.digestWords (s : State) : List Word :=
  let slots := List.range s.part.row.lasers
  (slots.flatMap fun k => ((sget Awl.atReset s.awls k).formed).words) ++ [s.emitEn]
    ++ ((List.range s.part.row.axes).flatMap fun x => [s.reg (R.AXIS_POS x), w32 (s.fld (F.AXIS_DRIVE_AMP x))])
    ++ (s.lampList.flatMap fun c => (s.lampChan c).duty.map w32) ++ s.harn.covered

/-- The device's digest of this Stitch. -/
def State.digest (s : State) : BitVec 64 := crc64 (Config.digestBytes s.digestWords)

/-- Word 4 of a DIGEST flit. -/
def State.digestMarks (s : State) (copy : Nat) : Word :=
  w32 (copy % 4 * 16 + bitNat (s.harn.resigning == some s.now) * 4 + bitNat (s.harnState == harnTracking) * 2
    + bitNat s.sendsLead)

/-- DIGEST_SEND (R429): a copy leaves on LT(36+copy) when the lane is READY, and HARN_BEAT_OUT toggles. -/
def execDigestSend (copy : Nat) (s : State) : Host.Outcome State Fault Refusal :=
  .next (
    if !s.harnOn ∨ 4 ≤ copy then s
    else
      let mine := if (s.harn.mine.head?.map fun e => e.1) = some s.stitchLo then s.harn.mine
        else ((s.stitchLo, s.digest) :: s.harn.mine).take 2
      let d := ((mine.head?.map fun e => e.2).getD 0)
      let f := flitOf (w32 (0xD * 2 ^ 28)) [s.stitchLo, d.setWidth 32, (d >>> 32).setWidth 32, s.digestMarks copy] false
      s.onHarn fun h => { h with
        mine := mine, beat := !h.beat
        sent := if s.laneState (36 + copy) = laneReady then h.sent.set copy f else h.sent })

/-- DIGEST_FLIT (R429): the peer's copy arrives on LT(36+copy): words 1 to 4. A lead that is found is joined with AUTO_JOIN
(R432). -/
def execDigestFlit (copy : Nat) (words : List Word) (s : State) : Host.Outcome State Fault Refusal :=
  let k := 36 + copy
  let marks := words.getD 3 0
  .next (
    if !s.harnOn ∨ 4 ≤ copy ∨ s.laneState k ≠ laneReady then s
    else
      let s1 := (s.setLane k { s.lane k with lastAt := s.now, bad := 0 }).onHarn fun h => { h with
        arrived := h.arrived ++ [(copy, words)]
        peer := h.peer || marks.getLsbD 0
        peerTracks := marks.getLsbD 1
        peerResigns := marks.getLsbD 2 }
      if marks.getLsbD 0 ∧ s1.harnState = harnSolo ∧ s1.flag F.HARN_CFG_AUTO_JOIN then s1.setHarn harnJoining else s1)

/-- The class of a copy (R430). -/
inductive CopyClass where
  /-- Arrived, with the device's own digest. -/
  | good
  /-- Arrived, with another. -/
  | divergent
  /-- Absent, with the beat. -/
  | lost
  /-- Absent, without it. -/
  | missed
  deriving DecidableEq, Repr

/-- How a copy that falls due is classed: `words` is what arrived. -/
def State.classOf (s : State) (words : Option (List Word)) (beat : Bool) : CopyClass :=
  match words with
  | none => if beat then .lost else .missed
  | some ws =>
    let d : BitVec 64 := (ws.getD 2 0 ++ ws.getD 1 0 : BitVec 64)
    if s.harn.mine.contains (ws.getD 0 0, d) then .good else .divergent

/-- A wheel that loses its feed or differs is UNTRACKED; one that has not joined yet fails its join. -/
def State.untrack (s : State) (r : Nat) : State :=
  if s.harnState = harnTracking then s.setHarn harnUntracked
  else if s.harnState = harnCopy ∨ s.harnState = harnReplica then s.joinFails r
  else s

/-- The consequence of the class of copy `lane`. -/
def State.copyJudged (s : State) (lane : Nat) (c : CopyClass) (stitch : Word) (beat : Bool) : State :=
  let h := s.harn
  match c with
  | .good =>
    let counts := match h.cut with
      | some b => decide (b < s.now)
      | none => false
    let s1 := s.onHarn fun h => { h with missed := 0, lost := 0, good := if counts then h.good + 1 else h.good, beatLost := !beat }
    if !beat ∧ !h.beatLost then s1.harnEvent 0xF7 lane stitch else s1
  | .divergent =>
    (((s.onHarn fun h => { h with missed := 0, lost := 0, good := 0 }).bump F.HARN_DIVERGE_CNT_COUNT).harnEvent 0xF2 lane
      stitch).untrack 4
  | .lost =>
    let s1 := (s.onHarn fun h => { h with missed := 0, lost := h.lost + 1, good := 0, beatLost := false }).bump F.HARN_LOST_CNT_COUNT
    if s1.harn.lost = 3 then (s1.harnEvent 0xF3 lane stitch).untrack 5 else s1
  | .missed =>
    let s1 := (s.onHarn fun h => { h with lost := 0, missed := h.missed + 1, good := 0 }).bump F.HARN_MISS_CNT_COUNT
    if s1.harn.missed ≠ 3 then s1
    else if s1.harnState = harnTracking then s1.onHarn fun h => { h with decided := true }
    else if s1.harnState = harnLead then
      (s1.onHarn fun h => { h with peerTracks := false }).harnEvent 0xF4 lane stitch
    else (s1.harnEvent 0xF8 lane stitch).untrack 5

/-- The first entry of a copy, and the rest. -/
def takeCopy (copy : Nat) : List (Nat × List Word) → Option (List Word) × List (Nat × List Word)
  | [] => (none, [])
  | (c, ws) :: l =>
    if c = copy then (some ws, l)
    else
      let (r, l') := takeCopy copy l
      (r, (c, ws) :: l')

/-- DIGEST_DUE (R430): a copy of the peer falls due; `beat` says whether HARN_BEAT_IN toggled since the due time before. -/
def execDigestDue (copy : Nat) (beat : Bool) (s : State) : Host.Outcome State Fault Refusal :=
  .next (
    if !s.harnOn ∨ s.harnState = harnSolo ∨ s.harnState = harnJoining ∨ s.harn.decided then s
    else
      let (ws, rest) := takeCopy copy s.harn.arrived
      let s1 := (s.onHarn fun h => { h with arrived := rest }).setFld F.HARN_STATUS_PEER_BEAT (bitNat beat)
      let stitch := match ws with
        | some l => l.getD 0 0
        | none => s1.stitchLo
      s1.copyJudged (copy % 4) (s1.classOf ws beat) stitch beat)

/-- Whether an enabled head lane is not READY. -/
def State.headLaneOut (s : State) : Bool :=
  s.laneList.any fun k => !s.isHarness k && s.flag (F.LANE_CFG_ENABLE k) && s.laneState k != laneReady

/-- The harness at a boundary: what the last Stitch's digest covered has been sent; a replica applies the changes that the lead
sent (R433); a wheel with a head lane that is not READY is UNTRACKED (R434). -/
def State.harnBoundary (s : State) : State :=
  let s1 := s.harn.changes.foldl (fun (t : State) d => t.copyOne d) (s.onHarn fun h => { h with covered := [], changes := [] })
  if s1.harnState = harnTracking ∧ s1.headLaneOut then s1.setHarn harnUntracked else s1

end Sys2Proof.Machine
end

