-- ==== Sys2Proof/Machine/Stch.lean ====
section
/-! DEFINITION. The Stitch registers (R26 to R40): the period, the holds and the count. -/

namespace Sys2Proof.Machine

/-! ## The period (R33 to R35) -/

/-- Whether an Awl executes a stroke: one whose motion has begun and that has not ended. -/
def State.strokeRuns (s : State) (k : Nat) : Bool :=
  (s.awl k).held.any fun h => !h.zero && decide (h.t0 < s.tclk + s.period)

/-- The first condition of R34 that a period fails; 0 for none. -/
def State.periodCheck (s : State) (n : Nat) : Nat :=
  if n = 0 then 1
  else if n < s.fld F.STCH_STATUS_PERIOD_MIN ∨ 1280 < n then 2
  else if (List.range s.part.row.lasers).any (fun k => s.strokeRuns k)
      ∨ (List.range s.part.row.axes).any (fun x => ((s.axis x).running s.axNow).isSome) ∨ s.periodPending then 3
  else if (List.range 40).any (fun k => s.part.hasCore k && decide (5 * n < s.tableWorst k)) then 4
  else 0

/-- What a write that reaches STCH_PERIOD does. -/
def State.writePeriod (s : State) (val : Word) : State :=
  let n := getBits val 10 0
  let r := s.periodCheck n
  let s1 := s.setFld F.STCH_STATUS_RESULT r
  if r = 0 then (s1.stage R.STCH_PERIOD (w32 n)).setFld F.STCH_STATUS_PENDING 1 else s1

/-- STCH_PERIOD_WRITE (R34): a write of STCH_PERIOD. -/
def execStchPeriodWrite (src : Source) (val : Word) (s : State) : Host.Outcome State Fault Refusal :=
  .next (s.gate src R.STCH_PERIOD val fun s => s.writePeriod val)

/-! ## Holds (R39, R40) -/

/-- The group of STCH_HOLD that a block's sh registers belong to; none for a block that no bit holds. -/
def holdGroup : Blk → Option Nat
  | .awl => some 0 | .rein => some 1 | .hide => some 2 | .axis => some 3 | .lamp => some 4 | .tree => some 5
  | .lane => some 6
  | .sys => none | .stch => none | .tc => none | .img => none | .sb => none | .dmc => none | .pcie => none
  | .time => none | .fbus => none | .pwr => none | .thrm => none | .cal => none | .burn => none | .sec => none
  | .harn => none

/-- Whether a group's bit of STCH_HOLD is 1. -/
def State.holdOn (s : State) (g : Nat) : Bool := (s.reg R.STCH_HOLD).getLsbD g

/-- What a write that reaches STCH_HOLD does: with a limit of zero a write that sets a bit has no effect (R40). -/
def State.writeHold (s : State) (val : Word) : State :=
  let new := val &&& 0x7F
  if s.fld F.STCH_HOLD_LIMIT_STITCHES = 0 ∧ new &&& ~~~(s.reg R.STCH_HOLD) ≠ 0 then s.setFld F.STCH_STATUS_ZERO_LEN 1
  else s.setReg R.STCH_HOLD new

/-- STCH_HOLD_WRITE (R39): a write of STCH_HOLD. -/
def execStchHoldWrite (src : Source) (val : Word) (s : State) : Host.Outcome State Fault Refusal :=
  .next (s.gate src R.STCH_HOLD val fun s => s.writeHold val)

/-- HOLD_EXPIRED (R40): a group has been held at STCH_HOLD_LIMIT consecutive boundaries; its bit is cleared, so that its
pending values commit at the boundary that follows. -/
def execHoldExpired (grp : Nat) (s : State) : Host.Outcome State Fault Refusal :=
  .next (
    if grp < 7 ∧ s.holdOn grp ∧ s.fld F.STCH_HOLD_LIMIT_STITCHES ≤ sget 0 s.holds grp then
      (s.setReg R.STCH_HOLD (s.reg R.STCH_HOLD &&& ~~~(w32 (2 ^ grp)))).setFld F.STCH_EVENT_HOLD_EXPIRED 1
    else s)

/-- The consecutive held boundaries of the groups, this boundary included. -/
def State.countHolds (s : State) : State :=
  { s with holds := (List.range 7).foldl (fun h g => sset 0 h g (if s.holdOn g then sget 0 s.holds g + 1 else 0)) s.holds }

/-! ## The count (R28) -/

/-- A read of STCH_COUNT_LO: the low half, with the high half copied into STCH_COUNT_HI. -/
def State.readCount (s : State) : State × Word :=
  (s.setReg R.STCH_COUNT_HI ((s.stitch >>> 32).truncate 32), s.stitchLo)

end Sys2Proof.Machine
end

