-- ==== Sys2Proof/Machine/Access.lean ====
section
/-! DEFINITION. Register access (R4, R9 to R11, R21, R37): what a write that reaches a register does to each of its
fields, which registers act on a write beyond that, and what a read returns. -/

namespace Sys2Proof.Machine

/-! ## Where configuration is accepted (R37) -/

/-- Whether no spill queue exists, nor is being made (R267). -/
def State.noSpill (s : State) : Bool :=
  (s.sb.streams.all fun e => !(e.2.live && e.2.spill)) && match s.sb.port with
    | some (.creating _ str) => !str.spill
    | _ => true

/-- Whether the configuration field at an offset is accepted now: the states that its chapter names as stopped. -/
def State.acceptsCfg (s : State) (pl : Place) : Bool :=
  let k := pl.unit
  match pl.blk with
  | .tree => s.jobAtRest
  | .hide => if 0x38 ≤ pl.off then !s.flag F.HIDE_STATUS_ARCH_BUSY else !s.flag F.HIDE_CTRL_ENABLE
  | .awl => s.awlState k == awlIdle || s.awlState k == awlFault
  | .rein => s.awlState k != awlRun
  | .img => if pl.off < 0x800 then !s.camOn k ((pl.off - 0x100) / 0x100) else !s.camOn k bedSource
  | .axis =>
    if 0x200 ≤ pl.off then s.skvPhase == 0 || s.skvPhase == 6
    else s.axState k == axDisabled || s.axState k == axIdle || s.axState k == axFault
  | .sb => s.noSpill
  | .dmc => !s.flag (F.DMC_ISO_CTRL_EN k ((pl.off - 0x100) / 0x20))
  | .lane => s.laneState k == laneDown || s.laneState k == laneFailed || s.laneState k == laneTest
  | .pcie => !s.flag (F.PCIE_EG_CFG_ENABLE ((pl.off - 0x80000) / 0x1000))
  | .time => s.fld (F.TIME_ACT_STATUS_STATE ((pl.off - 0x10000) / 0x40)) != 1
  | .fbus =>
    let g := pl.off / 0x10000 - 1
    if pl.off < 0x10000 then !s.segOn 0 && !s.segOn 1
    else if pl.off % 0x10000 < 0x1000 then !s.segOn g
    else !s.nodeOn g ((pl.off % 0x10000 - 0x1000) / 0x20)
  | .lamp => !s.lampOn
  | .thrm => !s.flag (F.THRM_SENSOR_CFG_ENABLE (pl.off / 0x20))
  | .sys => true | .stch => true | .tc => true | .pwr => true | .cal => true | .burn => true | .sec => true
  | .harn => true

/-! ## Field by field (R11, R37) -/

/-- A register on its way through a write: the value in force, the written value of its shadowed fields, and whether a
configuration field was to change that its unit does not accept. -/
structure Writing where
  /-- The value in force. -/
  now : Word
  /-- The written value. -/
  next : Word
  /-- Whether a shadowed field is among the fields. -/
  shadow : Bool
  /-- Whether BUSY_WRITE is due. -/
  busy : Bool

/-- One field of a write. -/
def Writing.field (accepts : Bool) (val : Word) (p : Writing) (f : FieldDesc) : Writing :=
  let v := getBits val f.hi f.lo
  let old := getBits p.now f.hi f.lo
  match f.acc with
  | .ro => p | .wo => p | .rc => p | .gd => p
  | .rw => { p with now := putBits p.now f.hi f.lo v }
  | .cfg => if accepts then { p with now := putBits p.now f.hi f.lo v } else { p with busy := p.busy || v != old }
  | .w1c => { p with now := p.now &&& ~~~(val &&& bitMask f.hi f.lo) }
  | .w1s => { p with now := p.now ||| (val &&& bitMask f.hi f.lo) }
  | .sh => { p with next := putBits p.next f.hi f.lo v, shadow := true }
  | .cam => { p with next := putBits p.next f.hi f.lo v, shadow := true }
  | .pipe => { p with next := putBits p.next f.hi f.lo v, shadow := true }

/-- The register at an offset, with its place: none for a hole. The Skiver's registers lie in the window of AX0 alone,
the bed camera's in that of the bed pipe, and the repeat table in that of channel 0. -/
def State.regHere (s : State) (a : Nat) : Option (Place × RegDesc) :=
  match placeOf a with
  | none => none
  | some pl =>
    if pl.blk = .axis ∧ 0x200 ≤ pl.off ∧ pl.unit ≠ 0 then none
    else if pl.blk = .img ∧ 0x800 ≤ pl.off ∧ !s.isBedPipe pl.unit then none
    else if pl.blk = .dmc ∧ 0x400 ≤ pl.off ∧ pl.off < 0x600 ∧ pl.unit ≠ 0 then none
    else (regAt pl.blk pl.off).map fun r => (pl, r)

/-- A write taken field by field. `extra` is a further reason to raise BUSY_WRITE, which it raises once. -/
def State.writeFields (s : State) (src : Source) (a : Nat) (val : Word) (extra : Bool) : State :=
  match s.regHere a with
  | none => s.unmapped src .b0 (BitVec.ofNat 64 a)
  | some (pl, r) =>
    let p := r.flds.foldl (Writing.field (s.acceptsCfg pl) val) ⟨s.reg a, s.written a, false, extra⟩
    let s1 := s.setReg a p.now
    let s2 := if p.shadow then s1.stage a p.next else s1
    if p.busy then s2.busyWrite src a else s2

/-- A write of a register that only takes its fields. -/
def State.writePlain (s : State) (src : Source) (a : Nat) (val : Word) : State := s.writeFields src a val false

/-- A write whose field at bits hi to lo keeps its value and raises BUSY_WRITE where `bad`. -/
def State.writeKeeping (s : State) (src : Source) (a : Nat) (val : Word) (hi lo : Nat) (bad : Bool) : State :=
  if bad then s.writeFields src a (putBits val hi lo (getBits (s.written a) hi lo)) true else s.writePlain src a val

/-! ## Registers that act when they are written -/

/-- SYS: the watchdog, and the first access event (R22, R94). -/
def State.writeSys (s : State) (src : Source) (pl : Place) (a : Nat) (val : Word) : State :=
  if pl.off = 0x40 then s.writeWdogCtrl src val
  else if pl.off = 0x44 then s.writeKick val
  else if pl.off = 0x4C then
    if val.msb then (s.setFld F.SYS_ACC_INFO_VALID 0).setFld F.SYS_ACC_INFO_COUNT 0 else s
  else s.writePlain src a val

/-- STCH: the period and the holds. -/
def State.writeStch (s : State) (src : Source) (pl : Place) (a : Nat) (val : Word) : State :=
  if pl.off = 0x0 then s.writePeriod val
  else if pl.off = 0xC then s.writeHold val
  else s.writePlain src a val

/-- TC: loads and context control (R45, R85 to R89). -/
def State.writeTc (s : State) (src : Source) (pl : Place) (a : Nat) (val : Word) : State :=
  let k := pl.unit
  if pl.off = 0x18 then s.writeLoadCmd src k val
  else if (s.regHere a).isNone then s.unmapped src .b0 (BitVec.ofNat 64 a)
  else if 0x400 ≤ pl.off ∧ pl.off % 0x20 = 0 then s.writeCtxCtrl k ((pl.off - 0x400) / 0x20) val
  else if 0x400 ≤ pl.off ∧ pl.off % 0x20 = 4 then s.writePlain src a (val &&& 0xFFFFFFFC)
  else s.writePlain src a val

/-- TREE: commands, the service mask (R134) and the log's queue (R140). -/
def State.writeTree (s : State) (src : Source) (pl : Place) (a : Nat) (val : Word) : State :=
  if pl.off = 0x8 then if val &&& 7 = 0 then s else s.addCmd a (val &&& 7)
  else if pl.off = 0x104 then s.writePlain src a (val &&& w32 (2 ^ s.part.row.lasers - 1))
  else if pl.off = 0x11C then
    let s1 := s.writePlain src a val
    s1.setFld F.TREE_STATUS_LOG_OFF (bitNat (!s1.logOn))
  else s.writePlain src a val

/-- HIDE: the enable, COND's limit, the ring's size and the rearming of SATURATED (R144, R150, R152, R159). -/
def State.writeHide (s : State) (src : Source) (pl : Place) (a : Nat) (val : Word) : State :=
  if pl.off = 0x0 then s.writeHideCtrl src val
  else if pl.off = 0x4 then (s.writePlain src a val).sweepMin
  else if pl.off = 0x1C then if 0x2000 < getBits val 15 0 then s.busyWrite src a else s.writePlain src a val
  else if pl.off = 0x40 then
    let s1 := s.writePlain src a val
    if s.flag F.HIDE_STATUS_ARCH_BUSY then s1
    else
      let n := getBits val 15 0
      s1.setFld F.HIDE_STATUS_ARCH_NEXT (if n = 0 then 0 else s1.fld F.HIDE_STATUS_ARCH_NEXT % n)
  else if pl.off = 0x48 then
    let s1 := s.writePlain src a val
    if val.getLsbD 3 then s1.rearmSat else s1
  else s.writePlain src a val

/-- AWL: commands, the gate trims (R403) and the shift's range (R175). -/
def State.writeAwl (s : State) (src : Source) (pl : Place) (a : Nat) (val : Word) : State :=
  if pl.off = 0x4 then if val &&& 3 = 0 then s else s.addCmd a (val &&& 3)
  else if pl.off = 0x34 then (s.writePlain src a val).calWritten pl.unit
  else if pl.off = 0x48 then
    if getBits val 23 0 < 12 ∨ 18 < getBits val 23 0 then s.busyWrite src a else s.writePlain src a val
  else s.writePlain src a val

/-- REIN: TRIM_LOAD (R199), the guarded ceiling (R208) and the trace units (R213). -/
def State.writeRein (s : State) (src : Source) (pl : Place) (a : Nat) (val : Word) : State :=
  if pl.off = 0x4 then
    if val.getLsbD 0 then s.setRein pl.unit { s.rein pl.unit with loadDue := true } else s
  else if pl.off = 0x38 then s.writeGuarded src a val
  else if pl.off = 0x400 ∨ pl.off = 0x440 ∨ pl.off = 0x480 ∨ pl.off = 0x4C0 then
    s.writeTraceCtrl pl.unit ((pl.off - 0x400) / 0x40) val
  else s.writePlain src a val

/-- IMG: enables, commits, triggers and captures. A PHASE at or above PERIOD is refused (R218), and a PERIOD that would exceed
capacity (R217). -/
def State.writeImg (s : State) (src : Source) (pl : Place) (a : Nat) (val : Word) : State :=
  if pl.off = 0x0 then s.writeImgCtrl pl.unit val
  else if pl.off = 0x4 then s.writeImgCommit src pl.unit val
  else if (s.regHere a).isNone then s.unmapped src .b0 (BitVec.ofNat 64 a)
  else if pl.off < 0x800 ∧ pl.off % 0x100 = 0x4 ∧ getBits val 15 0 ≠ 0 ∧ getBits val 15 0 ≤ getBits val 31 16 then
    if s.camOn pl.unit (pl.off / 0x100 - 1) then s.writePlain src a val else s.imgResult pl.unit 3
  else if pl.off < 0x800 ∧ pl.off % 0x100 = 0x4 ∧ !s.camOn pl.unit (pl.off / 0x100 - 1)
      ∧ s.periodOver pl.unit (pl.off / 0x100 - 1) (getBits val 15 0) then s.imgResult pl.unit 2
  else if pl.off = 0x804 ∧ s.isBedPipe pl.unit then s.writeBedCmd pl.unit val
  else s.writePlain src a val

/-- AXIS and the Skiver: commands, waveform loads (R240) and the chopper's range (R246). -/
def State.writeAxis (s : State) (src : Source) (pl : Place) (a : Nat) (val : Word) : State :=
  if pl.off = 0x4 then if val &&& 15 = 0 ∨ 8 < val &&& 15 then s else s.addCmd a (val &&& 15)
  else if pl.off = 0x54 then
    s.writeKeeping src a val 7 0 (decide (getBits val 7 0 < 20) || decide (200 < getBits val 7 0))
  else if pl.off = 0x7C then
    let s1 := s.writePlain src a (val &&& 0x7FFFFFFF)
    if val.msb then s1.waveLoad pl.unit (s1.fld (F.AXIS_WAVE_CMD_BANK pl.unit)) else s1
  else if pl.off = 0x224 ∧ pl.unit = 0 then if val &&& 3 = 0 then s else s.addCmd a (val &&& 3)
  else s.writePlain src a val

/-- SB: the command port (R263), the carve-out's base, which is kept in whole MiB (R267), and the apertures (R279). -/
def State.writeSb (s : State) (src : Source) (pl : Place) (a : Nat) (val : Word) : State :=
  if pl.off = 0x0 then s.writePort src val
  else if 0x100 ≤ pl.off ∧ pl.off < 0x140 ∧ pl.off % 4 = 0 then s.writeAper ((pl.off - 0x100) / 4) val
  else s.writePlain src a val

/-- DMC: the channel and its fetchers. -/
def State.writeDmc (s : State) (src : Source) (pl : Place) (a : Nat) (val : Word) : State :=
  if pl.off = 0x0 then s.writeDmcCfg src pl.unit val
  else if 0x100 ≤ pl.off ∧ pl.off < 0x200 ∧ pl.off % 0x20 = 0 then s.writeIsoCtrl pl.unit ((pl.off - 0x100) / 0x20) val
  else s.writePlain src a val

/-- LANE: configuration and commands. -/
def State.writeLane (s : State) (src : Source) (pl : Place) (a : Nat) (val : Word) : State :=
  if pl.off = 0x0 then s.writeLaneCfg src pl.unit val
  else if pl.off = 0x4 then if val &&& 7 = 0 then s else (s.ungate 5 pl.unit).addCmd a (val &&& 7)
  else s.writePlain src a val

/-- PCIE: a vector's mask (R329). -/
def State.writePcie (s : State) (src : Source) (pl : Place) (a : Nat) (val : Word) : State :=
  if 0x10000 ≤ pl.off ∧ pl.off < 0x11000 ∧ pl.off % 0x10 = 0xC then
    if val.getLsbD 0 then s.setFld (F.PCIE_MSIX_CTRL_MASK ((pl.off - 0x10000) / 0x10)) 1
    else s.unmask ((pl.off - 0x10000) / 0x10)
  else s.writePlain src a val

/-- TIME: the capture, the measurements and the action entries (R336, R340, R344). -/
def State.writeTime (s : State) (src : Source) (pl : Place) (a : Nat) (val : Word) : State :=
  if pl.off = 0x40 then if val.msb then s.timeSnap else s
  else if pl.off = 0x10C ∨ pl.off = 0x12C then s.setReg a (val &&& 0xFFFF)
  else if pl.off = 0x110 ∨ pl.off = 0x130 then s.writeMeas ((pl.off - 0x110) / 0x20) val
  else if 0x10000 ≤ pl.off ∧ pl.off < 0x20000 ∧ pl.off % 0x40 = 0 then s.writeActCtrl ((pl.off - 0x10000) / 0x40) val
  else s.writePlain src a val

/-- FBUS: segments, nodes and the point table (R347 to R355). -/
def State.writeFbus (s : State) (src : Source) (pl : Place) (a : Nat) (val : Word) : State :=
  let g := pl.off / 0x10000 - 1
  let o := pl.off % 0x10000
  if pl.off < 0x10000 ∨ 0x30000 ≤ pl.off then
    let s1 := s.writePlain src a val
    if pl.off = 0x0 then s1.setReg R.FBUS_POINT_CNT (w32 s1.pointCount) else s1
  else if o = 0x0 then s.writeSegCfg src g val
  else if o = 0x4 then s.writeSegCycle src g val
  else if 0x1000 ≤ o ∧ o < 0x1400 ∧ o % 0x20 = 0x4 then s.writeNodeHi src g ((o - 0x1000) / 0x20) val
  else s.writePlain src a val

/-- Whether a BAR0 offset is a word of the lamp frame memory (R363). -/
def inLampMem (a : Nat) : Bool := decide (0x02208000 ≤ a) && decide (a < 0x0220C000) && a % 4 == 0

/-- Whether a BAR0 offset is a word of the image buffer (R414). -/
def inImgBuf (a : Nat) : Bool := decide (0x02710000 ≤ a) && decide (a < 0x02720000) && a % 4 == 0

/-- LAMP: the enable, the frame memory and swaps (R360 to R364). -/
def State.writeLamp (s : State) (src : Source) (pl : Place) (a : Nat) (val : Word) : State :=
  if inLampMem a then s.writeLampMem src a val
  else if pl.off = 0x0 then s.writeLampCtrl src val
  else s.writePlain src a val

/-- PWR: commands, block restarts and the clipped limits of AVS (R378, R387). -/
def State.writePwr (s : State) (src : Source) (pl : Place) (a : Nat) (val : Word) : State :=
  if pl.off = 0x4 then if val &&& 7 = 0 then s else s.addCmd a (val &&& 7)
  else if pl.off = 0x8 then
    let whole (hi lo : Nat) (w : Word) : Word := if getBits val hi lo = 0xF then w else putBits w hi lo 0
    s.writePlain src a (whole 31 28 (whole 23 20 val))
  else if pl.off = 0x1C then
    s.setReg a (w32 (avsClip (getBits val 25 16) * 2 ^ 16 + avsClip (getBits val 9 0)))
  else if pl.off = 0x28 then s.writeBlockRst val
  else s.writePlain src a val

/-- THRM: the on-die sensors are always enabled, their SHUT has a floor and their SHUT_N is at least 1 (R399). -/
def State.writeThrm (s : State) (src : Source) (pl : Place) (a : Nat) (val : Word) : State :=
  let k := pl.off / 0x20
  if pl.off < 0x380 ∧ onDie k then
    if pl.off % 0x20 = 0x0 then s.writePlain src a (val ||| 0x80000000)
    else if pl.off % 0x20 = 0x8 then
      let floor := if s.part.extended then 0x1E53 else 0x1DEF
      s.writeKeeping src a (putBits val 15 0 (max floor (getBits val 15 0))) 31 16 (getBits val 31 16 == 0)
    else s.writePlain src a val
  else s.writePlain src a val

/-- CAL: runs and the guarded identifiers (R401, R415). -/
def State.writeCal (s : State) (src : Source) (pl : Place) (a : Nat) (val : Word) : State :=
  if pl.off = 0x0 then s.writeCalCmd val
  else if (guardedOp a).isSome then s.writeGuarded src a val
  else s.writePlain src a val

/-- BURN: runs. -/
def State.writeBurn (s : State) (src : Source) (pl : Place) (a : Nat) (val : Word) : State :=
  if pl.off = 0x0 then s.writeBurnCtrl val else s.writePlain src a val

/-- SEC: everything that presence guards, the key store, images and the parameter store. -/
def State.writeSec (s : State) (src : Source) (pl : Place) (a : Nat) (val : Word) : State :=
  if inImgBuf a then s.onSec fun x => { x with imgBuf := sset 0 x.imgBuf ((a - 0x02710000) / 4) val }
  else if pl.off = 0x0 then if val.getLsbD 30 then s.guardCancel else s
  else if (guardedOp a).isSome then s.writeGuarded src a val
  else if pl.off = 0x10 then s.writeKeyCmd val
  else if 0x20 ≤ pl.off ∧ pl.off < 0x40 ∧ pl.off % 4 = 0 then
    s.onSec fun x => { x with stage := x.stage.set ((pl.off - 0x20) / 4) val }
  else if pl.off = 0x84 then s.writeImgCmd src val
  else if pl.off = 0x98 then s.writePstoreCmd src val
  else if pl.off = 0xA0 then s.writeDebug val
  else s.writePlain src a val

/-- HARN: the enable and the commands, of which RESIGN is guarded (R425, R431). -/
def State.writeHarn (s : State) (src : Source) (pl : Place) (a : Nat) (val : Word) : State :=
  if pl.off = 0x0 then s.writeHarnCfg val
  else if pl.off = 0x4 then
    match getBits val 2 0 with
    | 0 => s
    | 1 => s.writeResign
    | _ => s.addCmd a (val &&& 7)
  else s.writePlain src a val

/-- What a write that reaches an offset of BAR0 does. -/
def State.regWrite (s : State) (src : Source) (a : Nat) (val : Word) : State :=
  match placeOf a with
  | none => s.unmapped src .b0 (BitVec.ofNat 64 a)
  | some pl =>
    match pl.blk with
    | .sys => s.writeSys src pl a val
    | .stch => s.writeStch src pl a val
    | .tc => s.writeTc src pl a val
    | .tree => s.writeTree src pl a val
    | .hide => s.writeHide src pl a val
    | .awl => s.writeAwl src pl a val
    | .rein => s.writeRein src pl a val
    | .img => s.writeImg src pl a val
    | .axis => s.writeAxis src pl a val
    | .sb => s.writeSb src pl a val
    | .dmc => s.writeDmc src pl a val
    | .lane => s.writeLane src pl a val
    | .pcie => s.writePcie src pl a val
    | .time => s.writeTime src pl a val
    | .fbus => s.writeFbus src pl a val
    | .lamp => s.writeLamp src pl a val
    | .pwr => s.writePwr src pl a val
    | .thrm => s.writeThrm src pl a val
    | .cal => s.writeCal src pl a val
    | .burn => s.writeBurn src pl a val
    | .sec => s.writeSec src pl a val
    | .harn => s.writeHarn src pl a val

/-- A write of BAR0 through the fabric (R4, R21, R23, R387, R390, R427). -/
def State.busWrite (s : State) (src : Source) (a : Nat) (val : Word) : State :=
  s.gate src a val fun t => (t.regWrite src a val).bound a val

/-- A host's write that a pair forwarded, in the boundary cycle after it (R427). -/
def State.forwarded (s : State) (a : Nat) (val : Word) : State :=
  if !s.unitThere a then s.absentAccess .host a
  else if s.underRestart a then s.busyWrite .host a
  else (s.regWrite .host a val).bound a val

/-! ## Reads -/

/-- The raw word behind a read: the register's value, or what the device works out when it is read. -/
def State.shown (s : State) (pl : Place) (a : Nat) : Word :=
  match pl.blk with
  | .thrm => if pl.off < 0x380 ∧ pl.off % 0x20 = 0x4 then putBits (s.reg a) 31 20 (min 0xFFF (s.sensorAge (pl.off / 0x20))) else s.reg a
  | .pwr => if pl.off = 0x2C then s.rails else s.reg a
  | .dmc =>
    if 0x400 ≤ pl.off ∧ pl.off < 0x600 ∧ pl.off % 8 = 4 then
      putBits (s.reg a) 23 0 (s.repeatLeft ((pl.off - 0x400) / 8) (getBits (s.reg a) 23 0))
    else s.reg a
  | .harn => if pl.off = 0x8 then putBits (s.reg a) 23 20 s.harnLanes else s.reg a
  | .cal =>
    if 0x80 ≤ pl.off then
      (sget [] s.cal.recs (calKey (s.fld F.CAL_REC_SEL_ITEM) (s.fld F.CAL_REC_SEL_INSTANCE))).getD ((pl.off - 0x80) / 4) 0
    else s.reg a
  | .sys => s.reg a | .stch => s.reg a | .tc => s.reg a | .tree => s.reg a | .hide => s.reg a | .awl => s.reg a
  | .rein => s.reg a | .img => s.reg a | .axis => s.reg a | .sb => s.reg a | .lane => s.reg a
  | .pcie => s.reg a | .time => s.reg a | .fbus => s.reg a | .lamp => s.reg a | .burn => s.reg a | .sec => s.reg a

/-- One field of a read: a write-only field reads zero, a shadowed field its written value, every other its value in force. -/
def readField (now next : Word) (w : Word) (f : FieldDesc) : Word :=
  match f.acc with
  | .wo => w
  | .sh => putBits w f.hi f.lo (getBits next f.hi f.lo)
  | .cam => putBits w f.hi f.lo (getBits next f.hi f.lo)
  | .pipe => putBits w f.hi f.lo (getBits next f.hi f.lo)
  | .ro => putBits w f.hi f.lo (getBits now f.hi f.lo)
  | .rw => putBits w f.hi f.lo (getBits now f.hi f.lo)
  | .cfg => putBits w f.hi f.lo (getBits now f.hi f.lo)
  | .w1c => putBits w f.hi f.lo (getBits now f.hi f.lo)
  | .w1s => putBits w f.hi f.lo (getBits now f.hi f.lo)
  | .rc => putBits w f.hi f.lo (getBits now f.hi f.lo)
  | .gd => putBits w f.hi f.lo (getBits now f.hi f.lo)

/-- What a read of a register returns; reserved fields read zero (R10). -/
def State.readWord (s : State) (pl : Place) (a : Nat) (r : RegDesc) : Word :=
  r.flds.foldl (readField (s.shown pl a) (s.written a)) 0

/-- A register's value with its rc fields cleared. -/
def clearRc (w : Word) (fs : List FieldDesc) : Word :=
  fs.foldl (fun (v : Word) (f : FieldDesc) => if f.acc = .rc then putBits v f.hi f.lo 0 else v) w

/-- Whether an offset is of a register that identifies a unit: on a lane, its head's (R4). -/
def isIdentity (a : Nat) : Bool :=
  match placeOf a with
  | some pl => pl.blk == .lane && (pl.off == 0xC || pl.off == 0x10 || pl.off == 0x14)
  | none => false

/-- What a read that reaches an offset of BAR0 returns and does: the count and the time bases are latched, and rc fields are
cleared. -/
def State.regRead (s : State) (src : Source) (a : Nat) : State × Word :=
  if inLampMem a then (s, s.readLampMem a)
  else if inImgBuf a then (s, sget 0 s.sec.imgBuf ((a - 0x02710000) / 4))
  else if a = R.STCH_COUNT_LO then s.readCount
  else match s.regHere a with
    | none => (s.unmapped src .b0 (BitVec.ofNat 64 a), deadWord)
    | some (pl, r) =>
      let s1 := if pl.blk = .time ∧ pl.off < 0x40 ∧ pl.off % 0x10 = 0 then s.latchTb (pl.off / 0x10) else s
      let w := s1.readWord pl a r
      if r.flds.any fun f => f.acc == .rc then (s1.setReg a (clearRc (s1.reg a) r.flds), w) else (s1, w)

/-- A read of BAR0 through the fabric (R4, R21, R387, R390). With the core domain down nothing answers. -/
def State.busRead (s : State) (src : Source) (a : Nat) : State × Word :=
  if !s.coreUp then (s, deadWord)
  else if src = .host ∧ !s.mapped a then (s.unmapped src .b0 (BitVec.ofNat 64 a), deadWord)
  else if !s.unitThere a then (s.absentAccess src a, if isIdentity a then 0 else deadWord)
  else if s.underRestart a then (s, resetWord s.part a)
  else s.regRead src a

/-- The answer of a read kept for its requester. -/
def State.answered (r : State × Word) : State := { r.1 with readData := r.2 }

end Sys2Proof.Machine
end

