-- ==== Sys2Proof/Machine/Outstanding.lean ====
section
/-! DEFINITION. The cycles of a core: outstanding LDS, STS and BPW complete in time order as its cycle count moves on (R61,
R62, R67), queue instructions act in their cycle (R65, R271), the budget guard ends a slot (R71, R88), and a slot starts (R70, R79, R80). -/

namespace Sys2Proof.Machine

/-! ## Registers of a context -/

/-- A general register; g0 reads zero. -/
def Ctx.rd (x : Ctx) (k : Nat) : Word := if k = 0 then 0 else sget 0 x.g k

/-- The poison bit of a general register. -/
def Ctx.gPoisoned (x : Ctx) (k : Nat) : Bool := k != 0 && x.gpois.getLsbD k

/-- A context with a general register and its poison bit written; a write of g0 is discarded. -/
def Ctx.wr (x : Ctx) (k : Nat) (w : Word) (poison : Bool) : Ctx :=
  if k = 0 then x
  else { x with
    g := sset 0 x.g k w
    gpois := if poison then x.gpois ||| w32 (2 ^ k) else x.gpois &&& ~~~(w32 (2 ^ k)) }

/-! ## Completions -/

/-- The data of the oldest outstanding LDS arrives (R61): the word of the stream as it stands, with its poison; a free value
where the stream went since the issue. An overrun or a restart has cut off the register. -/
def State.finishLds (s : State) (core : Nat) : State :=
  let k := s.core core
  match k.lds with
  | [] => s
  | l :: rest =>
    let s1 := s.setCore core { k with lds := rest }
    match s1.namedBuffer l.handle with
    | none => if l.keep then s1.tookFree.setCtx core l.ctx ((s1.ctx core l.ctx).wr l.rd s1.free false) else s1
    | some key =>
      let r := s1.readBuf key l.off
      if l.keep then r.1.setCtx core l.ctx ((r.1.ctx core l.ctx).wr l.rd r.2.val r.2.poison) else r.1

/-- The oldest outstanding STS completes (R62): its word is in the stream; nothing where the stream went since the issue. -/
def State.finishSts (s : State) (core : Nat) : State :=
  let k := s.core core
  match k.sts with
  | [] => s
  | x :: rest =>
    let s1 := s.setCore core { k with sts := rest }
    match s1.namedBuffer x.handle with
    | none => s1
    | some key => s1.setBufWord key x.off x.word

/-- A context's oldest BPW completes at the register fabric (R24, R67). -/
def State.finishBpw (s : State) (core c : Nat) : State :=
  let x := s.ctx core c
  match x.bpws with
  | [] => s
  | b :: rest => (s.setCtx core c { x with bpws := rest }).busWrite (.core core c) b.addr.toNat b.val

/-! ## Queue instructions at their queue (R65, R271) -/

/-- QST as a queue instruction sets it (R46). -/
def qstWord (code : Nat) (eop poison : Bool) : Word := w32 (32 * bitNat poison + 16 * bitNat eop + code)

/-- What a queue instruction brings back: QST's word, and for QPOP and QLEN the value for rd with its poison. -/
structure QueueBack where
  /-- QST. -/
  qst : Word
  /-- The value for rd. -/
  val : Option (Word × Bool)

/-- A queue instruction's code with no word. -/
def QueueBack.code (c : Nat) : QueueBack := ⟨qstWord c false false, none⟩

/-- What a queue instruction does to a live queue, and what it brings back (R53, R64, R270, R275, R277). -/
def State.queueDo (s : State) (core c key : Nat) : QueueAct → State × QueueBack
  | .push w last =>
    let r := (s.stream key).push (ctxProducer core c) w last
    (s.applyQueue (coreReq core) key r, .code r.code)
  | .bad =>
    let r := (s.stream key).markBad (ctxProducer core c)
    (s.applyQueue (coreReq core) key r, .code r.code)
  | .pop =>
    let r := (s.stream key).pop
    let s1 := s.applyQueue (coreReq core) key r
    match r.word with
    | none => (s1, .code r.code)
    | some q =>
      let p := s1.checkWord key (s.stream key).popped q.word
      (p.1, ⟨qstWord 0 q.last p.2.poison, some (p.2.val, p.2.poison)⟩)
  | .len => (s, ⟨qstWord 0 false false, some (w32 (s.stream key).depth, false)⟩)
  | .flush => (s.flushQueue key, .code 0)

/-- A queue instruction in its cycle at its queue (R65, R266, R271): nothing and no answer where the handle then names no
queue or a spill queue; ABSENT_UNIT where the queue is bound to an absent unit, which for QPOP and QLEN leaves rd
unchanged (DESIGN CHOICE, log entry 104). -/
def State.queueAct (s : State) (core c : Nat) (h : Word) (a : QueueAct) : State × Option QueueBack :=
  match s.namedQueue h with
  | none => (s, none)
  | some key =>
    if (s.stream key).spill then (s, none)
    else if (s.stream key).absent then (s, some (.code 6))
    else
      let r := s.queueDo core c key a
      (r.1, some r.2)

/-- The cycle in which a queue instruction of a core that issues at cycle `t` acts on its queue: the first at or after t + 8
whose number modulo 40 is the core's (R271). Cycles are numbered from boundary 0 (DEDUCED, log entry 105). -/
def State.queueCycle (s : State) (core t : Nat) : Nat :=
  let n := 5 * s.tclk + t + 8
  t + 8 + (core + 40 - n % 40) % 40

/-- An abandoned queue instruction acts on its queue; what it would bring back is lost (R88). -/
def State.finishQueue (s : State) (core : Nat) : State :=
  let k := s.core core
  match k.qops with
  | [] => s
  | q :: rest => ((s.setCore core { k with qops := rest }).queueAct core q.ctx q.handle q.act).1

/-- What can complete next on a core. -/
inductive Due where
  /-- The oldest STS. -/
  | sts
  /-- The oldest LDS. -/
  | lds
  /-- The oldest BPW of a context. -/
  | bpw (c : Nat)
  /-- The oldest abandoned queue instruction. -/
  | queue
  deriving DecidableEq, Repr

/-- The oldest operation of each kind with the cycle at which it completes: at one cycle an STS before an LDS, then the
BPWs, then a queue instruction. -/
def State.dueList (s : State) (core : Nat) : List (Int × Due) :=
  ((s.core core).sts.take 1).map (fun x => (x.ready, Due.sts))
    ++ ((s.core core).lds.take 1).map (fun l => (l.ready, Due.lds))
    ++ ((List.range 16).flatMap fun c => ((s.ctx core c).bpws.take 1).map fun b => (b.ready, Due.bpw c))
    ++ ((s.core core).qops.take 1).map fun q => (q.ready, Due.queue)

/-- The earliest entry of a list; the first of those at one cycle. -/
def earliest : List (Int × Due) → Option (Int × Due)
  | [] => none
  | e :: l => match earliest l with
    | none => some e
    | some m => if m.1 < e.1 then some m else some e

/-- One operation completes. -/
def State.finish (s : State) (core : Nat) : Due → State
  | .sts => s.finishSts core
  | .lds => s.finishLds core
  | .bpw c => s.finishBpw core c
  | .queue => s.finishQueue core

/-- At most `n` operations due at or before a cycle complete, in time order. -/
def State.finishUpTo (s : State) (core : Nat) (t : Int) : Nat → State
  | 0 => s
  | n + 1 => match earliest (s.dueList core) with
    | none => s
    | some e => if e.1 ≤ t then State.finishUpTo (s.finish core e.2) core t n else s

/-- A core's outstanding operations: at most 8 LDS, 8 STS, 4 BPW of each context and a queue instruction of each slot. -/
def outstandingMax : Nat := 112

/-- Everything due at or before a cycle completes. -/
def State.passTo (s : State) (core : Nat) (t : Int) : State := s.finishUpTo core t outstandingMax

/-! ## The slot's end and the boundary -/

/-- The cycle at which a slot ends. -/
def Slot.stop (sl : Slot) : Nat := sl.start + sl.len

/-- The guard acts on the slot that runs, at its end (R88): what arrives before that cycle reaches its register. -/
def State.endSlot (s : State) (core : Nat) : State :=
  match s.runningSlot core with
  | none => s
  | some sl =>
    let s1 := (s.passTo core ((sl.stop : Int) - 1)).overrunCtx core sl.ctx
    s1.setCore core { s1.core core with cyc := sl.stop, cur := none }

/-- The end of the Stitch for every core: the guard ends a slot still running, and what is due within the Stitch completes. -/
def State.endSlots (s : State) : State :=
  (List.range 40).foldl (fun (t : State) k => (t.endSlot k).passTo k ((t.cycles : Int) - 1)) s

/-- A core's cycle count comes to `t`: a slot that ends at or before it is ended, and what is due completes. -/
def State.timeTo (s : State) (core : Nat) (t : Int) : State :=
  let s1 := match s.runningSlot core with
    | some sl => if (sl.stop : Int) ≤ t then s.endSlot core else s
    | none => s
  let s2 := s1.passTo core t
  s2.setCore core { s2.core core with cyc := max (s2.core core).cyc t.toNat }

/-- A completion's cycle comes, unless it lies in a later Stitch. -/
def State.comesTo (s : State) (core : Nat) : Option Int → State
  | none => s
  | some t => if (s.cycles : Int) ≤ t then s else s.timeTo core t

/-! ## The commands -/

/-- CONTEXT_SLOT_START (R79, R70): the slot of a due context begins and the context runs from its entry. A slot still
running before it is ended by the guard. A context that is not due, or is halted or idle, leaves its slot idle (R80). -/
def execContextSlotStart (core slot : Nat) (s : State) : Host.Outcome State Fault Refusal :=
  .next (
    match s.coresRun core, (s.core core).table[slot]? with
    | true, some sl =>
      if sl.start < (s.core core).cyc ∧ (s.core core).cur ≠ none then s
      else
        let s1 := (s.endSlot core).passTo core sl.start
        let s2 := s1.setCore core { s1.core core with cyc := sl.start, cur := some slot }
        let x := s2.ctx core sl.ctx
        if s2.ctxState core sl.ctx = ctxWaiting ∧ x.due ≤ s2.stitch then
          (s2.setCtx core sl.ctx { x with pc := x.entry }).setCtxState core sl.ctx ctxRunning
        else s2
    | _, _ => s)

/-- OVERRUN (R88): a context reaches its slot end without completing WAITSTITCH. -/
def execOverrun (core : Nat) (s : State) : Host.Outcome State Fault Refusal := .next (s.endSlot core)

/-- LDS_COMPLETE (R61): the cycle comes at which the oldest outstanding LDS of a core delivers its data. -/
def execLdsComplete (core : Nat) (s : State) : Host.Outcome State Fault Refusal :=
  .next (s.comesTo core ((s.core core).lds.head?.map fun l => l.ready))

/-- STS_COMPLETE (R62): the cycle comes at which the oldest outstanding STS of a core completes. -/
def execStsComplete (core : Nat) (s : State) : Host.Outcome State Fault Refusal :=
  .next (s.comesTo core ((s.core core).sts.head?.map fun x => x.ready))

/-- BPW_COMPLETE (R67): the cycle comes at which the oldest posted BPW of a context completes at the register fabric. -/
def execBpwComplete (core ctx : Nat) (s : State) : Host.Outcome State Fault Refusal :=
  .next (s.comesTo core ((s.ctx core ctx).bpws.head?.map fun b => b.ready))

end Sys2Proof.Machine
end

