-- ==== Sys2Proof/Machine/Operands.lean ====
section
/-! DEFINITION. Adtuak instruction words (R47 to R54): the operation a word names, its fields, and the operands they reach:
general, vector and predicate registers with their poison, local memory words and addresses. -/

namespace Sys2Proof.Machine

/-- The Adtuak operations, one for each row of the tables of R50 to R54. -/
inductive Adt where
  | add | sub | and | or | xor | shl | shr | sar | min | max | minu | maxu | adds | subs | abs | clz
  | mul | mulh | mulhu | mulq | pscl | div | divu | sel
  | addi | andi | ori | xori | shiShl | shiShr | shiSar | cmpeqi | cmplti | cmpltui | li | lhi | llo
  | ldl | ldlh | stl | stlh | ldv | stv | lds | sts | bpr | bpw | bpf
  | qpsh | qend | qbad | qpop | qlen | qflush
  | b | call | ret | loop | waitstitch | mfsp | mtsp | trap
  | cmpeq | cmpne | cmplt | cmple | cmpltu | cmpleu | pand | por | pxor | pnot | pset | pclr
  | vadd | vsub | vadds | vsubs | vmulq | vmacq | vmin | vmax | vabs | vshr | vsplat | vget | vput | vsum | vmov
  deriving DecidableEq, Repr

/-! ## Fields (R47, R48) -/

/-- The opcode. -/
def opField (w : Word) : Nat := getBits w 27 22
/-- rd. -/
def rdField (w : Word) : Nat := getBits w 21 17
/-- ra; the count register of the P form stands in rd's place. -/
def raField (w : Word) : Nat := getBits w 16 12
/-- rb. -/
def rbField (w : Word) : Nat := getBits w 11 7
/-- fn. -/
def fnField (w : Word) : Nat := getBits w 6 0
/-- imm12 sign-extended. -/
def simm12 (w : Word) : Word := (w.truncate 12 : BitVec 12).signExtend 32
/-- imm12 zero-extended. -/
def zimm12 (w : Word) : Word := w &&& 0xFFF
/-- imm17 sign-extended. -/
def simm17 (w : Word) : Word := (w.truncate 17 : BitVec 17).signExtend 32
/-- imm17. -/
def zimm17 (w : Word) : Nat := getBits w 16 0
/-- off22. -/
def off22 (w : Word) : Int := signed 22 (getBits w 21 0)
/-- len of the P form. -/
def lenField (w : Word) : Nat := getBits w 16 10
/-- max of the P form. -/
def maxField (w : Word) : Nat := getBits w 9 0

/-- Whether a guard value is one of R47. -/
def guardLegal (w : Word) : Bool := getBits w 31 28 == 0 || decide (8 ≤ getBits w 31 28)

/-- A predicate. -/
def Ctx.pred (x : Ctx) (k : Nat) : Bool := x.p.getLsbD k

/-- Whether an instruction's guard passes (R47). -/
def Ctx.guardPasses (x : Ctx) (w : Word) : Bool :=
  let g := getBits w 31 28
  if g = 0 then true else if g < 12 then x.pred (g % 4) else !x.pred (g % 4)

/-! ## The operation of a word (R49 to R54) -/

/-- The ALU group by fn (R51). -/
def aluOf (w : Word) : Option Adt :=
  let one (a : Adt) : Option Adt := if rbField w = 0 then some a else none
  match fnField w with
  | 0x00 => some .add | 0x01 => some .sub | 0x02 => some .and | 0x03 => some .or | 0x04 => some .xor
  | 0x05 => some .shl | 0x06 => some .shr | 0x07 => some .sar | 0x08 => some .min | 0x09 => some .max
  | 0x0A => some .minu | 0x0B => some .maxu | 0x0C => some .adds | 0x0D => some .subs
  | 0x0E => one .abs | 0x0F => one .clz
  | 0x10 => some .mul | 0x11 => some .mulh | 0x12 => some .mulhu | 0x13 => some .mulq | 0x14 => some .pscl
  | 0x15 => some .div | 0x16 => some .divu
  | 0x60 => some .sel | 0x61 => some .sel | 0x62 => some .sel | 0x63 => some .sel
  | _ => none

/-- The PRED group by fn (R52). -/
def predOf (w : Word) : Option Adt :=
  let d := rdField w < 4
  let cmp (a : Adt) : Option Adt := if d then some a else none
  let two (a : Adt) : Option Adt := if d ∧ raField w < 4 ∧ rbField w < 4 then some a else none
  let zero (a : Adt) : Option Adt := if d ∧ raField w = 0 ∧ rbField w = 0 then some a else none
  match fnField w with
  | 0x00 => cmp .cmpeq | 0x01 => cmp .cmpne | 0x02 => cmp .cmplt | 0x03 => cmp .cmple | 0x04 => cmp .cmpltu
  | 0x05 => cmp .cmpleu
  | 0x08 => two .pand | 0x09 => two .por | 0x0A => two .pxor
  | 0x0B => if d ∧ raField w < 4 ∧ rbField w = 0 then some .pnot else none
  | 0x0C => zero .pset | 0x0D => zero .pclr
  | _ => none

/-- The QUE group by fn[6:2] (R53). -/
def queOf (w : Word) : Option Adt :=
  if rbField w ≠ 0 then none
  else match fnField w / 4 with
  | 0 => some .qpsh | 1 => some .qend | 2 => some .qbad | 3 => some .qpop | 4 => some .qlen | 5 => some .qflush
  | _ => none

/-- The VEC group by fn (R54): which of rd, ra and rb name vector registers, and which must be zero. -/
def vecOf (w : Word) : Option Adt :=
  let d := rdField w < 8
  let a := raField w < 8
  let b := rbField w < 8
  let z := rbField w = 0
  let lane := rbField w < 4
  let three (o : Adt) : Option Adt := if d ∧ a ∧ b then some o else none
  match fnField w with
  | 0x00 => three .vadd | 0x01 => three .vsub | 0x02 => three .vadds | 0x03 => three .vsubs
  | 0x04 => three .vmulq | 0x05 => three .vmacq | 0x06 => three .vmin | 0x07 => three .vmax
  | 0x08 => if d ∧ a ∧ z then some .vabs else none
  | 0x09 => if d ∧ a then some .vshr else none
  | 0x0A => if d ∧ z then some .vsplat else none
  | 0x0B => if a ∧ lane then some .vget else none
  | 0x0C => if d ∧ lane then some .vput else none
  | 0x0D => if a ∧ z then some .vsum else none
  | 0x0E => if d ∧ a ∧ z then some .vmov else none
  | _ => none

/-- The operation that an instruction word names; none where it is ILLEGAL (R46, R47, R49, R50). -/
def adtOf (w : Word) : Option Adt :=
  let d (o : Adt) : Option Adt := if rdField w < 4 then some o else none
  let v (o : Adt) : Option Adt := if rdField w < 8 then some o else none
  let half (o : Adt) : Option Adt := if getBits w 16 16 = 0 then some o else none
  let fn0 (o : Adt) : Option Adt := if fnField w = 0 then some o else none
  let bare (o : Adt) : Option Adt := if getBits w 21 0 = 0 then some o else none
  let noRd (o : Adt) : Option Adt := if rdField w = 0 then some o else none
  if !guardLegal w then none
  else match opField w with
  | 0x01 => aluOf w
  | 0x02 => predOf w
  | 0x03 => some .addi | 0x04 => some .andi | 0x05 => some .ori | 0x06 => some .xori
  | 0x07 =>
    if getBits w 11 7 ≠ 0 then none
    else match getBits w 6 5 with
      | 0 => some .shiShl | 1 => some .shiShr | 2 => some .shiSar | _ => none
  | 0x08 => d .cmpeqi | 0x09 => d .cmplti | 0x0A => d .cmpltui
  | 0x0B => some .li | 0x0C => half .lhi | 0x0D => half .llo
  | 0x10 => some .ldl | 0x11 => some .ldlh | 0x12 => some .stl | 0x13 => some .stlh
  | 0x14 => v .ldv | 0x15 => v .stv
  | 0x18 => fn0 .lds | 0x19 => fn0 .sts
  | 0x1A => some .bpr | 0x1B => some .bpw | 0x1C => bare .bpf
  | 0x1D => queOf w
  | 0x20 => if 0 < off22 w then some .b else none
  | 0x21 => some .call | 0x22 => bare .ret | 0x23 => some .loop
  | 0x24 => noRd .waitstitch
  | 0x25 => if zimm17 w ≤ 12 then some .mfsp else none
  | 0x26 => if zimm17 w = 0 ∨ zimm17 w = 5 then some .mtsp else none
  | 0x27 => noRd .trap
  | 0x28 => vecOf w
  | _ => none

/-! ## Registers -/

/-- A vector register. -/
def Ctx.vrd (x : Ctx) (k : Nat) : BitVec 64 := sget 0 x.v k

/-- The poison bit of a vector register. -/
def Ctx.vPoisoned (x : Ctx) (k : Nat) : Bool := x.vpois.getLsbD k

/-- A context with a vector register and its poison bit written. -/
def Ctx.vwr (x : Ctx) (k : Nat) (v : BitVec 64) (poison : Bool) : Ctx :=
  { x with
    v := sset 0 x.v k v
    vpois := if poison then x.vpois ||| BitVec.ofNat 8 (2 ^ k) else x.vpois &&& ~~~(BitVec.ofNat 8 (2 ^ k)) }

/-- A context with a predicate written. -/
def Ctx.pwr (x : Ctx) (k : Nat) (b : Bool) : Ctx :=
  { x with p := if b then x.p ||| BitVec.ofNat 4 (2 ^ k) else x.p &&& ~~~(BitVec.ofNat 4 (2 ^ k)) }

/-- ra of an instruction. -/
def Ctx.a (x : Ctx) (w : Word) : Word := x.rd (raField w)
/-- rb of an instruction. -/
def Ctx.b (x : Ctx) (w : Word) : Word := x.rd (rbField w)
/-- rd of an instruction. -/
def Ctx.d (x : Ctx) (w : Word) : Word := x.rd (rdField w)

/-- The general registers that an operation reads or writes, which wait for an outstanding LDS (R61). -/
def Adt.gRegs (o : Adt) (w : Word) : List Nat :=
  match o with
  | .add | .sub | .and | .or | .xor | .shl | .shr | .sar | .min | .max | .minu | .maxu | .adds | .subs | .abs | .clz
  | .mul | .mulh | .mulhu | .mulq | .pscl | .div | .divu | .sel | .lds | .sts => [rdField w, raField w, rbField w]
  | .addi | .andi | .ori | .xori | .shiShl | .shiShr | .shiSar | .ldl | .ldlh | .stl | .stlh | .bpr | .bpw
  | .qpsh | .qend | .qpop | .qlen => [rdField w, raField w]
  | .cmpeqi | .cmplti | .cmpltui | .ldv | .stv | .qbad | .qflush | .vsplat | .vput => [raField w]
  | .cmpeq | .cmpne | .cmplt | .cmple | .cmpltu | .cmpleu => [raField w, rbField w]
  | .li | .lhi | .llo | .mfsp | .mtsp | .loop | .vget | .vsum => [rdField w]
  | .vshr => [rbField w]
  | .bpf | .b | .call | .ret | .waitstitch | .trap | .pand | .por | .pxor | .pnot | .pset | .pclr
  | .vadd | .vsub | .vadds | .vsubs | .vmulq | .vmacq | .vmin | .vmax | .vabs | .vmov => []

/-! ## Vector lanes (R54) -/

/-- Lane `i` of a vector register. -/
def vlane (v : BitVec 64) (i : Nat) : BitVec 16 := (v >>> (16 * i)).truncate 16

/-- A vector from its four lanes. -/
def vjoin (a b c d : BitVec 16) : BitVec 64 :=
  a.zeroExtend 64 ||| b.zeroExtend 64 <<< 16 ||| c.zeroExtend 64 <<< 32 ||| d.zeroExtend 64 <<< 48

/-- A vector with each lane made by a function of its number. -/
def vmake (f : Nat → BitVec 16) : BitVec 64 := vjoin (f 0) (f 1) (f 2) (f 3)

/-! ## Local memory (R58, R59, R83) -/

/-- Whether a byte address lies in a partition of whole granules. -/
def inPartition (first last a : Nat) : Bool := decide (a < 65536) && decide (first ≤ a / 256) && decide (a / 256 ≤ last)

/-- The address ra + imm12 of a local access or a block-port access. -/
def Ctx.addr (x : Ctx) (w : Word) : Word := x.a w + simm12 w

/-- What a data word delivers: its value, and its poison, which a double-bit error also gives (R59). -/
def delivered (p : PWord) : Word × Bool := (p.val, p.poison || p.err == .double)

/-- A data word by byte address. -/
def State.dword (s : State) (core a : Nat) : PWord := sget (PWord.clean 0) (s.core core).dmem (a / 4)

/-- The state with a data word written, by byte address. -/
def State.setDword (s : State) (core a : Nat) (p : PWord) : State :=
  s.setCore core { s.core core with dmem := sset (PWord.clean 0) (s.core core).dmem (a / 4) p }

/-- A data word corrected and written back after a read that found a single-bit error (R59). -/
def State.correctDword (s : State) (core a : Nat) : State :=
  let p := s.dword core a
  if p.err = .single then s.setDword core a { p with err := .clean } else s

end Sys2Proof.Machine
end

