-- ==== Sys2Proof/Machine/Flags.lean ====
section
/-! DEFINITION. The status an Adtuak instruction leaves (R46): the sticky bits of STAT, and the clipping
and rounding that set SAT (R51, R54 to R57). -/

namespace Sys2Proof.Machine

/-- STAT.SAT. -/
def statSat : Word := 0x01
/-- STAT.DZ. -/
def statDz : Word := 0x02
/-- STAT.ZL. -/
def statZl : Word := 0x04
/-- STAT.LC. -/
def statLc : Word := 0x08
/-- STAT.EXC. -/
def statExc : Word := 0x10

/-- A context with sticky bits of STAT set. -/
def Ctx.sticky (x : Ctx) (bits : Word) : Ctx := { x with stat := x.stat ||| bits }

/-- A context after a write of STAT (w1c bits 3 to 0; EXC is ro). -/
def Ctx.clearStat (x : Ctx) (w : Word) : Ctx := { x with stat := x.stat &&& ~~~(w &&& 0xF) }

/-- A result and the STAT bits it sets. -/
abbrev Res := Word × Word

/-- A result that sets no STAT bit. -/
def plain (w : Word) : Res := (w, 0)

/-- An exact value held to a signed 32-bit register; SAT when it was clipped. -/
def sat32 (z : Int) : Res :=
  (BitVec.ofInt 32 (clampInt (-2147483648) 2147483647 z), if -2147483648 ≤ z ∧ z ≤ 2147483647 then 0 else statSat)

/-- An exact value held to a signed 16-bit lane, and whether it was clipped. -/
def sat16 (z : Int) : BitVec 16 × Bool :=
  (BitVec.ofInt 16 (clampInt (-32768) 32767 z), !(decide (-32768 ≤ z) && decide (z ≤ 32767)))

end Sys2Proof.Machine
end

