-- ==== Sys2Proof/Machine/Issue.lean ====
section
/-! DEFINITION. How a core runs one Adtuak instruction: fetch, guard, stall, its exact cycles and the budget (R44, R47, R49,
R59, R61, R71, R75, R76, R88), exceptions (R72), the back edge of loops (R69), and the common shapes of instructions. -/

namespace Sys2Proof.Machine

/-! ## Causes of exceptions (R72) -/

/-- ILLEGAL. -/
def causeIllegal : Nat := 0x01
/-- ALIGN. -/
def causeAlign : Nat := 0x02
/-- BOUNDS. -/
def causeBounds : Nat := 0x03
/-- POISON. -/
def causePoison : Nat := 0x04
/-- FETCH. -/
def causeFetch : Nat := 0x05
/-- STACK. -/
def causeStack : Nat := 0x06
/-- LOOP. -/
def causeLoop : Nat := 0x07
/-- STREAM. -/
def causeStream : Nat := 0x08
/-- TRAP. -/
def causeTrap : Nat := 0x09
/-- DOUBLE. -/
def causeDouble : Nat := 0x0A

/-- A cause with its EADDR. -/
abbrev FaultOf := Nat × Word

/-! ## Cycles (R75) -/

/-- The cycles of an operation whose guard passes, stalls and exception entry apart. -/
def Adt.cost : Adt → Nat
  | .mul | .mulh | .mulhu | .mulq | .pscl | .vmulq | .vmacq => 3
  | .div | .divu => 34
  | .ldl | .ldlh | .ldv => 2
  | .bpr => 24
  | .qpsh | .qend | .qbad | .qpop | .qlen | .qflush => 56
  | .b | .call | .ret | .loop => 2
  | .add | .sub | .and | .or | .xor | .shl | .shr | .sar | .min | .max | .minu | .maxu | .adds | .subs | .abs | .clz
  | .sel | .addi | .andi | .ori | .xori | .shiShl | .shiShr | .shiSar | .cmpeqi | .cmplti | .cmpltui | .li | .lhi | .llo
  | .stl | .stlh | .stv | .lds | .sts | .bpw | .bpf | .waitstitch | .mfsp | .mtsp | .trap
  | .cmpeq | .cmpne | .cmplt | .cmple | .cmpltu | .cmpleu | .pand | .por | .pxor | .pnot | .pset | .pclr
  | .vadd | .vsub | .vadds | .vsubs | .vmin | .vmax | .vabs | .vshr | .vsplat | .vget | .vput | .vsum | .vmov => 1

/-- Exception entry. -/
def entryCost : Nat := 4

/-- The slot end of the context that runs. -/
def State.slotEnd (s : State) (core : Nat) : Nat :=
  match s.runningSlot core with
  | some sl => sl.stop
  | none => 0

/-- A core's cycle count comes to `t` within a slot that ends at `stop`: what is due completes, but nothing of the cycle of
the slot's end, at which the guard acts first (R88). -/
def State.runTo (s : State) (core t stop : Nat) : State :=
  (s.setCore core { s.core core with cyc := t }).passTo core (min (t : Int) ((stop : Int) - 1))

/-- An instruction that issues now and takes `n` cycles: its effect `f`, and the cycles; where the slot ends before them the
instruction is abandoned and the guard acts (R88). -/
def State.spend (s : State) (core n : Nat) (f : State → State) : State :=
  let t := (s.core core).cyc + n
  if s.slotEnd core < t then s.endSlot core else (f s).runTo core t (s.slotEnd core)

/-- A stall until cycle `t`; the guard acts where the slot ends first. -/
def State.stall (s : State) (core : Nat) (t : Int) (f : State → State) : State :=
  if t ≤ (s.core core).cyc then f s
  else if (s.slotEnd core : Int) ≤ t then s.endSlot core
  else
    let s1 := s.setCore core { s.core core with cyc := t.toNat }
    f (s1.passTo core t)

/-! ## Exceptions (R72) -/

/-- Exception entry: EPC, ECAUSE, EADDR and STAT.EXC; the handler runs, or the context halts where there is none or an
exception was already being handled. -/
def State.enter (s : State) (core c : Nat) (e : FaultOf) : State :=
  let x := s.ctx core c
  let again := x.stat &&& statExc != 0
  let cause := if again then causeDouble else e.1
  let x1 := { x with
    epc := x.pc.zeroExtend 32
    ecause := w32 cause
    eaddr := e.2
    stat := x.stat ||| statExc
    pc := if again ∨ x.trapvec = 0 then x.pc else x.trapvec.truncate 16 }
  let s1 := s.setCtx core c x1
  if again ∨ x.trapvec = 0 then s1.haltByException core c cause else s1

/-- A faulting instruction: its cycles, then exception entry. -/
def State.raise (s : State) (core c cost : Nat) (e : FaultOf) : State :=
  s.spend core (cost + entryCost) fun u => u.enter core c e

/-! ## The next instruction (R69) -/

/-- Whether an address lies in a loop's body. -/
def LoopFrame.holds (l : LoopFrame) (a : Nat) : Bool := decide (l.start ≤ a) && decide (a < l.stop)

/-- Where execution goes on when the instruction at `pc` leads to `next`: at the end of an active body the back edge is taken
while trips are left. -/
def backEdge (depth pc next : Nat) (ret : Bool) : List LoopFrame → Nat × List LoopFrame
  | [] => (next, [])
  | l :: ls =>
    if next = l.stop ∧ l.depth = depth ∧ (ret || l.holds pc) then
      if 1 < l.trips then (l.start, { l with trips := l.trips - 1 } :: ls) else backEdge depth pc next ret ls
    else (next, l :: ls)

/-- A context that goes on at an address. -/
def Ctx.goTo (x : Ctx) (next : Nat) (ret : Bool) : Ctx :=
  let r := backEdge x.calls.length x.pc.toNat next ret x.loops
  { x with pc := BitVec.ofNat 16 r.1, loops := r.2 }

/-- A context that goes on with the next instruction. -/
def Ctx.next (x : Ctx) : Ctx := x.goTo (x.pc.toNat + 4) false

/-! ## Fetch and issue -/

/-- The latest of a list of cycles and a first one. -/
def latest (t : Int) (l : List Int) : Int := l.foldl max t

/-- When an operation can issue: no register of it waits for an LDS (R61), an LDS, STS or BPW has a place, and what it waits
for has completed (R61, R62, R66, R67, R70). -/
def State.readyAt (s : State) (core c : Nat) (o : Adt) (w : Word) : Int :=
  let k := s.core core
  let posted := (s.ctx core c).bpws.map fun b => b.ready
  let hazards := (k.lds.filter fun l => l.keep && l.ctx == c && l.rd != 0 && (o.gRegs w).contains l.rd).map fun l => l.ready
  let own := match o with
    | .lds => if 8 ≤ k.lds.length then (k.lds.take 1).map fun l => l.ready else []
    | .sts => if 8 ≤ k.sts.length then (k.sts.take 1).map fun x => x.ready else []
    | .bpw => if 4 ≤ posted.length then posted.take 1 else []
    | .bpr => posted
    | .bpf => posted
    | .waitstitch =>
      if zimm17 w = 0 then []
      else ((k.lds.filter fun l => l.ctx == c).map fun l => l.ready)
        ++ ((k.sts.filter fun x => x.ctx == c).map fun x => x.ready) ++ posted
    | _ => []
  latest k.cyc (hazards ++ own)

/-- What the fetch at the running context's PC finds: the word with its memory corrected, or the fault (R44, R59, R68). -/
def State.fetch (s : State) (core c : Nat) : State × (FaultOf ⊕ Word) :=
  let x := s.ctx core c
  let pc := x.pc.toNat
  if !inPartition x.iFirst x.iLast pc then (s, .inl (causeBounds, w32 pc))
  else
    let k := s.core core
    let p := sget (PWord.clean 0) k.imem (pc / 4)
    match p.err with
    | .double => (s, .inl (causeFetch, w32 pc))
    | .single => (s.setCore core { k with imem := sset (PWord.clean 0) k.imem (pc / 4) { p with err := .clean } }, .inr p.val)
    | .clean => (s, .inr p.val)

/-- The instruction `o` of the context that runs on a core: `run` is its effect from the moment it issues. Where the word at
the PC names another operation nothing happens; a fetch fault and an illegal word raise their exception. A guard that fails
takes one cycle. -/
def State.issue (s : State) (core : Nat) (o : Adt) (run : State → Nat → Word → State) : State :=
  match s.coresRun core, s.runningSlot core with
  | true, some sl =>
    if sl.stop ≤ (s.core core).cyc then s.endSlot core
    else match s.fetch core sl.ctx with
      | (_, .inl e) => s.raise core sl.ctx 1 e
      | (t, .inr w) =>
        match adtOf w with
        | none => t.raise core sl.ctx 1 (causeIllegal, w)
        | some o' =>
          if o' ≠ o then s
          else if !(t.ctx core sl.ctx).guardPasses w then
            t.spend core 1 fun u => u.setCtx core sl.ctx (u.ctx core sl.ctx).next
          else t.stall core (t.readyAt core sl.ctx o w) fun u => run u sl.ctx w
  | _, _ => s

/-! ## Common shapes -/

/-- The poison check of general registers used as an address, a handle, an offset, a compared value or a count, in order
(R74). -/
def Ctx.bite (x : Ctx) : List Nat → Option FaultOf
  | [] => none
  | k :: ks => if x.gPoisoned k then some (causePoison, w32 k) else Ctx.bite x ks

/-- An instruction that changes only its context, after a check that may raise an exception. -/
def State.onCtx (s : State) (core : Nat) (o : Adt) (check : Ctx → Word → Option FaultOf) (f : Ctx → Word → Ctx) : State :=
  s.issue core o fun u c w =>
    match check (u.ctx core c) w with
    | some e => u.raise core c o.cost e
    | none => u.spend core o.cost fun t => t.setCtx core c (f (t.ctx core c) w).next

/-- An instruction that cannot fault once it issues. -/
def noCheck (_ : Ctx) (_ : Word) : Option FaultOf := none

/-- An ALU instruction of ra and rb (R51): its result to rd, poisoned as its operands are (R74). -/
def State.alu (s : State) (core : Nat) (o : Adt) (f : Word → Word → Res) : State :=
  s.onCtx core o noCheck fun x w =>
    let r := f (x.a w) (x.b w)
    (x.sticky r.2).wr (rdField w) r.1 (x.gPoisoned (raField w) || x.gPoisoned (rbField w))

/-- An ALU instruction of ra and an immediate (R50). -/
def State.aluImm (s : State) (core : Nat) (o : Adt) (f : Word → Word → Word) : State :=
  s.onCtx core o noCheck fun x w => x.wr (rdField w) (f (x.a w) w) (x.gPoisoned (raField w))

end Sys2Proof.Machine
end

