-- ==== Sys2Proof/Machine/AdtAlu.lean ====
section
/-! DEFINITION. The ALU group, the immediate instructions and the register moves of Adtuak (R50, R51, R55 to R57). -/

namespace Sys2Proof.Machine

/-! ## Arithmetic -/

/-- Leading zeros of a word: bits examined from the top. -/
def leadingZeros (w : Word) : Nat → Nat
  | 0 => 0
  | n + 1 => if w.getLsbD n then 0 else 1 + leadingZeros w n

/-- ABS: the absolute value; 0x80000000 clips (R51). -/
def absOf (a : Word) : Res := if a = 0x80000000 then (0x7FFFFFFF, statSat) else plain (if a.msb then -a else a)

/-- MULQ: the Q16.16 product, rounded half away from zero and saturated (R55). -/
def mulqOf (a b : Word) : Res := sat32 (roundShift (a.toInt * b.toInt) 16)

/-- PSCL: the power code ra[15:0] scaled by a Q16.16 factor (R56). -/
def psclOf (a b : Word) : Res :=
  if b.msb then (0, statSat)
  else
    let r := (getBits a 15 0 * b.toNat + 0x8000) / 65536
    if 0xFFFF < r then (0xFFFF, statSat) else plain (w32 r)

/-- DIV: the signed quotient toward zero, with its corner values (R57). -/
def divOf (a b : Word) : Res :=
  if b = 0 then (if a.msb then 0x80000000 else 0x7FFFFFFF, statDz)
  else if a = 0x80000000 ∧ b = 0xFFFFFFFF then (0x7FFFFFFF, statSat)
  else plain (BitVec.ofInt 32 (a.toInt.tdiv b.toInt))

/-- DIVU: the unsigned quotient (R57). -/
def divuOf (a b : Word) : Res := if b = 0 then (0xFFFFFFFF, statDz) else plain (w32 (a.toNat / b.toNat))

/-- A shift amount: rb[4:0]. -/
def shiftAmount (b : Word) : Nat := getBits b 4 0

/-! ## The ALU group (R51) -/

/-- ADD (R51): ra + rb, wrapping. -/
def execAdd (core : Nat) (s : State) : Host.Outcome State Fault Refusal :=
  .next (s.alu core .add fun a b => plain (a + b))

/-- SUB (R51): ra − rb, wrapping. -/
def execSub (core : Nat) (s : State) : Host.Outcome State Fault Refusal :=
  .next (s.alu core .sub fun a b => plain (a - b))

/-- AND (R51). -/
def execAnd (core : Nat) (s : State) : Host.Outcome State Fault Refusal :=
  .next (s.alu core .and fun a b => plain (a &&& b))

/-- OR (R51). -/
def execOr (core : Nat) (s : State) : Host.Outcome State Fault Refusal :=
  .next (s.alu core .or fun a b => plain (a ||| b))

/-- XOR (R51). -/
def execXor (core : Nat) (s : State) : Host.Outcome State Fault Refusal :=
  .next (s.alu core .xor fun a b => plain (a ^^^ b))

/-- SHL (R51): ra shifted left by rb[4:0]. -/
def execShl (core : Nat) (s : State) : Host.Outcome State Fault Refusal :=
  .next (s.alu core .shl fun a b => plain (a <<< shiftAmount b))

/-- SHR (R51): ra shifted right logically by rb[4:0]. -/
def execShr (core : Nat) (s : State) : Host.Outcome State Fault Refusal :=
  .next (s.alu core .shr fun a b => plain (a >>> shiftAmount b))

/-- SAR (R51): ra shifted right arithmetically by rb[4:0]. -/
def execSar (core : Nat) (s : State) : Host.Outcome State Fault Refusal :=
  .next (s.alu core .sar fun a b => plain (a.sshiftRight (shiftAmount b)))

/-- MIN (R51): the signed minimum. -/
def execMin (core : Nat) (s : State) : Host.Outcome State Fault Refusal :=
  .next (s.alu core .min fun a b => plain (if a.toInt ≤ b.toInt then a else b))

/-- MAX (R51): the signed maximum. -/
def execMax (core : Nat) (s : State) : Host.Outcome State Fault Refusal :=
  .next (s.alu core .max fun a b => plain (if a.toInt ≤ b.toInt then b else a))

/-- MINU (R51): the unsigned minimum. -/
def execMinu (core : Nat) (s : State) : Host.Outcome State Fault Refusal :=
  .next (s.alu core .minu fun a b => plain (if a ≤ b then a else b))

/-- MAXU (R51): the unsigned maximum. -/
def execMaxu (core : Nat) (s : State) : Host.Outcome State Fault Refusal :=
  .next (s.alu core .maxu fun a b => plain (if a ≤ b then b else a))

/-- ADDS (R51): signed saturating add. -/
def execAdds (core : Nat) (s : State) : Host.Outcome State Fault Refusal :=
  .next (s.alu core .adds fun a b => sat32 (a.toInt + b.toInt))

/-- SUBS (R51): signed saturating subtract. -/
def execSubs (core : Nat) (s : State) : Host.Outcome State Fault Refusal :=
  .next (s.alu core .subs fun a b => sat32 (a.toInt - b.toInt))

/-- ABS (R51). -/
def execAbs (core : Nat) (s : State) : Host.Outcome State Fault Refusal :=
  .next (s.alu core .abs fun a _ => absOf a)

/-- CLZ (R51): leading zeros of ra, 0 to 32. -/
def execClz (core : Nat) (s : State) : Host.Outcome State Fault Refusal :=
  .next (s.alu core .clz fun a _ => plain (w32 (leadingZeros a 32)))

/-- MUL (R51): the low 32 bits of ra × rb. -/
def execMul (core : Nat) (s : State) : Host.Outcome State Fault Refusal :=
  .next (s.alu core .mul fun a b => plain (a * b))

/-- MULH (R51): the high 32 bits of the signed product. -/
def execMulh (core : Nat) (s : State) : Host.Outcome State Fault Refusal :=
  .next (s.alu core .mulh fun a b => plain (BitVec.ofInt 32 (a.toInt * b.toInt / 4294967296)))

/-- MULHU (R51): the high 32 bits of the unsigned product. -/
def execMulhu (core : Nat) (s : State) : Host.Outcome State Fault Refusal :=
  .next (s.alu core .mulhu fun a b => plain (w32 (a.toNat * b.toNat / 4294967296)))

/-- MULQ (R51, R55). -/
def execMulq (core : Nat) (s : State) : Host.Outcome State Fault Refusal :=
  .next (s.alu core .mulq mulqOf)

/-- PSCL (R51, R56). -/
def execPscl (core : Nat) (s : State) : Host.Outcome State Fault Refusal :=
  .next (s.alu core .pscl psclOf)

/-- DIV (R51, R57). -/
def execDiv (core : Nat) (s : State) : Host.Outcome State Fault Refusal :=
  .next (s.alu core .div divOf)

/-- DIVU (R51, R57). -/
def execDivu (core : Nat) (s : State) : Host.Outcome State Fault Refusal :=
  .next (s.alu core .divu divuOf)

/-- SEL (R51, R74): ra if p(fn[1:0]) is 1, otherwise rb; poisoned as the operand it selects. -/
def execSel (core : Nat) (s : State) : Host.Outcome State Fault Refusal :=
  .next (s.onCtx core .sel noCheck fun x w =>
    let k := if x.pred (fnField w % 4) then raField w else rbField w
    x.wr (rdField w) (x.rd k) (x.gPoisoned k))

/-! ## Immediates (R50) -/

/-- ADDI (R50): ra + imm12, wrapping. -/
def execAddi (core : Nat) (s : State) : Host.Outcome State Fault Refusal :=
  .next (s.aluImm core .addi fun a w => a + simm12 w)

/-- ANDI (R50): the immediate zero-extended. -/
def execAndi (core : Nat) (s : State) : Host.Outcome State Fault Refusal :=
  .next (s.aluImm core .andi fun a w => a &&& zimm12 w)

/-- ORI (R50): the immediate zero-extended. -/
def execOri (core : Nat) (s : State) : Host.Outcome State Fault Refusal :=
  .next (s.aluImm core .ori fun a w => a ||| zimm12 w)

/-- XORI (R50): the immediate zero-extended. -/
def execXori (core : Nat) (s : State) : Host.Outcome State Fault Refusal :=
  .next (s.aluImm core .xori fun a w => a ^^^ zimm12 w)

/-- SHI, SHL (R50): ra shifted left by imm12[4:0]. -/
def execShiShl (core : Nat) (s : State) : Host.Outcome State Fault Refusal :=
  .next (s.aluImm core .shiShl fun a w => a <<< getBits w 4 0)

/-- SHI, SHR (R50): ra shifted right logically by imm12[4:0]. -/
def execShiShr (core : Nat) (s : State) : Host.Outcome State Fault Refusal :=
  .next (s.aluImm core .shiShr fun a w => a >>> getBits w 4 0)

/-- SHI, SAR (R50): ra shifted right arithmetically by imm12[4:0]. -/
def execShiSar (core : Nat) (s : State) : Host.Outcome State Fault Refusal :=
  .next (s.aluImm core .shiSar fun a w => a.sshiftRight (getBits w 4 0))

/-- LI (R50): imm17 sign-extended; it clears the poison of rd (R74). -/
def execLi (core : Nat) (s : State) : Host.Outcome State Fault Refusal :=
  .next (s.onCtx core .li noCheck fun x w => x.wr (rdField w) (simm17 w) false)

/-- LHI (R50): rd[31:16] = imm17[15:0]; rd[15:0] and the poison of rd, an operand, are kept (R74). -/
def execLhi (core : Nat) (s : State) : Host.Outcome State Fault Refusal :=
  .next (s.onCtx core .lhi noCheck fun x w =>
    x.wr (rdField w) (putBits (x.d w) 31 16 (getBits w 15 0)) (x.gPoisoned (rdField w)))

/-- LLO (R50): rd[15:0] = imm17[15:0]; rd[31:16] and the poison of rd, an operand, are kept (R74). -/
def execLlo (core : Nat) (s : State) : Host.Outcome State Fault Refusal :=
  .next (s.onCtx core .llo noCheck fun x w =>
    x.wr (rdField w) (putBits (x.d w) 15 0 (getBits w 15 0)) (x.gPoisoned (rdField w)))

end Sys2Proof.Machine
end

