-- ==== Sys2Proof/Machine/AdtFlow.lean ====
section
/-! DEFINITION. Control flow, WAITSTITCH, the special registers and TRAP of Adtuak (R46, R68 to R73, R93). -/

namespace Sys2Proof.Machine

/-! ## Branches (R68, R69) -/

/-- The target of a B or CALL, in bytes. -/
def Ctx.target (x : Ctx) (w : Word) : Int := (x.pc.toNat : Int) + 4 * off22 w

/-- Whether a target lies in the context's instruction partition. -/
def Ctx.inCode (x : Ctx) (a : Int) : Bool := decide (0 ≤ a) && inPartition x.iFirst x.iLast a.toNat

/-- What a B does to the loops whose body it stands in, innermost first: none where the target is neither inside a body nor
just after it, else the loops that stay (R69). -/
def branchLoops (depth pc target : Nat) : List LoopFrame → Option (List LoopFrame)
  | [] => some []
  | l :: ls =>
    if l.depth ≠ depth ∨ !l.holds pc then some (l :: ls)
    else if l.holds target then some (l :: ls)
    else if target = l.stop then branchLoops depth pc target ls
    else none

/-- The checks of a B: its target in the partition, and in the body of a loop that runs (R68, R69). -/
def branchCheck (x : Ctx) (w : Word) : Option FaultOf :=
  let a := x.target w
  if !x.inCode a then some (causeBounds, BitVec.ofInt 32 a)
  else if (branchLoops x.calls.length x.pc.toNat a.toNat x.loops).isNone then some (causeLoop, x.pc.zeroExtend 32)
  else none

/-- B (R68, R69). -/
def execB (core : Nat) (s : State) : Host.Outcome State Fault Refusal :=
  .next (s.issue core .b fun u c w =>
    match branchCheck (u.ctx core c) w with
    | some e => u.raise core c Adt.b.cost e
    | none => u.spend core Adt.b.cost fun t =>
      let x := t.ctx core c
      let a := (x.target w).toNat
      t.setCtx core c { x with
        pc := BitVec.ofNat 16 a
        loops := (branchLoops x.calls.length x.pc.toNat a x.loops).getD [] })

/-- Calls that may nest. -/
def callMax : Nat := 8

/-- The checks of a CALL (R68). One that is both a ninth nested call and aimed outside the partition is a BOUNDS fault (DESIGN
CHOICE: the spec puts neither first; log entry 112). -/
def callCheck (x : Ctx) (w : Word) : Option FaultOf :=
  if !x.inCode (x.target w) then some (causeBounds, BitVec.ofInt 32 (x.target w))
  else if callMax ≤ x.calls.length then some (causeStack, w32 x.calls.length)
  else none

/-- CALL (R68): it pushes PC + 4 and jumps. -/
def execCall (core : Nat) (s : State) : Host.Outcome State Fault Refusal :=
  .next (s.issue core .call fun u c w =>
    match callCheck (u.ctx core c) w with
    | some e => u.raise core c Adt.call.cost e
    | none => u.spend core Adt.call.cost fun t =>
      let x := t.ctx core c
      t.setCtx core c { x with pc := BitVec.ofInt 16 (x.target w), calls := (x.pc + 4) :: x.calls })

/-- The checks of a RET (R68). -/
def retCheck (x : Ctx) (_ : Word) : Option FaultOf :=
  match x.calls with
  | [] => some (causeStack, 0)
  | a :: _ => if !x.inCode a.toNat then some (causeBounds, a.zeroExtend 32) else none

/-- A context after a RET: loops opened since the CALL end, and the back edge is taken where the CALL was the last
instruction of a body (R68, R69). -/
def Ctx.returned (x : Ctx) : Ctx :=
  match x.calls with
  | [] => x
  | a :: rest =>
    { x with calls := rest, loops := x.loops.filter fun l => decide (l.depth ≤ rest.length) }.goTo a.toNat true

/-- RET (R68). -/
def execRet (core : Nat) (s : State) : Host.Outcome State Fault Refusal :=
  .next (s.issue core .ret fun u c w =>
    match retCheck (u.ctx core c) w with
    | some e => u.raise core c Adt.ret.cost e
    | none => u.spend core Adt.ret.cost fun t => t.setCtx core c (t.ctx core c).returned)

/-! ## LOOP (R69) -/

/-- Trips of a LOOP: min(ra, max). -/
def Ctx.trips (x : Ctx) (w : Word) : Nat := min (x.d w).toNat (maxField w)

/-- The address just after a LOOP's body. -/
def Ctx.loopStop (x : Ctx) (w : Word) : Nat := x.pc.toNat + 4 + 4 * lenField w

/-- The checks of a LOOP: the count's poison; and where the body is to run, no third level, and a body of the same call level
that ends inside the outer one (R69, R74). A LOOP in a routine called from a body counts as nested in it, and its own body may
lie anywhere (DESIGN CHOICE: R69 names no rule for it; log entry 113). -/
def loopCheck (x : Ctx) (w : Word) : Option FaultOf :=
  match x.bite [rdField w] with
  | some e => some e
  | none =>
    let past := match x.loops with
      | [] => false
      | l :: _ => l.depth == x.calls.length && decide (l.stop < x.loopStop w)
    if x.trips w ≠ 0 ∧ lenField w ≠ 0 ∧ (decide (2 ≤ x.loops.length) || past) then some (causeLoop, x.pc.zeroExtend 32) else none

/-- A context after a LOOP. -/
def Ctx.looped (x : Ctx) (w : Word) : Ctx :=
  let x1 := if maxField w < (x.d w).toNat then x.sticky statLc else x
  if x.trips w = 0 ∨ lenField w = 0 then (x1.sticky statZl).goTo (x.loopStop w) false
  else { x1 with
    pc := x.pc + 4
    loops := ⟨x.pc.toNat + 4, x.loopStop w, x.trips w, x.calls.length⟩ :: x.loops }

/-- LOOP (R69). -/
def execLoop (core : Nat) (s : State) : Host.Outcome State Fault Refusal :=
  .next (s.issue core .loop fun u c w =>
    match loopCheck (u.ctx core c) w with
    | some e => u.raise core c Adt.loop.cost e
    | none => u.spend core Adt.loop.cost fun t => t.setCtx core c ((t.ctx core c).looped w))

/-! ## WAITSTITCH (R70, R93) -/

/-- A context that ends its work until Stitch `due`: STAT.EXC clear, stacks empty, and the context watchdog loaded where it is
on. -/
def Ctx.waits (x : Ctx) (due : BitVec 64) (watch : Option Nat) : Ctx :=
  { x with pc := x.entry, stat := x.stat &&& ~~~statExc, calls := [], loops := [], due := due, watch := watch }

/-- WAITSTITCH (R70): k of 0 only sets STAT.ZL; else, with everything outstanding completed, one cycle, and the rest of the
slot stays idle. -/
def execWaitstitch (core : Nat) (s : State) : Host.Outcome State Fault Refusal :=
  .next (s.issue core .waitstitch fun u c w =>
    let k := zimm17 w
    if k = 0 then
      u.spend core Adt.waitstitch.cost fun t => t.setCtx core c ((t.ctx core c).sticky statZl).next
    else u.spend core Adt.waitstitch.cost fun t =>
      let starve := t.fld (F.TC_CTX_CTRL_STARVE core c)
      let x := t.ctx core c
      let t1 := t.setCtx core c (x.waits (t.stitch + BitVec.ofNat 64 k) (if starve = 0 then none else some (starve + k)))
      let t2 := t1.setCtxState core c ctxWaiting
      t2.setCore core { t2.core core with cur := none })

/-! ## Special registers and TRAP (R46, R72) -/

/-- TICK: cycles since the start of the slot that runs. -/
def State.tick (s : State) (core : Nat) : Nat :=
  match s.runningSlot core with
  | some sl => (s.core core).cyc - sl.start
  | none => 0

/-- A special register's value (R46). -/
def State.special (s : State) (core c k : Nat) : Word :=
  let x := s.ctx core c
  match k with
  | 0 => x.stat
  | 1 => x.qst
  | 2 => x.epc
  | 3 => x.ecause
  | 4 => x.eaddr
  | 5 => x.trapvec
  | 6 => s.stitchLo
  | 7 => (s.stitch >>> 32).truncate 32
  | 8 => w32 (s.core core).cyc
  | 9 => w32 (s.tick core)
  | 10 => w32 (core * 256 + c)
  | 11 => x.gpois
  | 12 => x.vpois.zeroExtend 32
  | _ => 0

/-- MFSP (R46, R50): rd = a special register, as it stands in the issue cycle. -/
def execMfsp (core : Nat) (s : State) : Host.Outcome State Fault Refusal :=
  .next (s.issue core .mfsp fun u c w => u.spend core Adt.mfsp.cost fun t =>
    t.setCtx core c (((t.ctx core c).wr (rdField w) (t.special core c (zimm17 w)) false).next))

/-- MTSP (R46, R50): STAT's w1c bits, or TRAPVEC, whose bits [1:0] are forced to zero; poisoned data bites (R74). -/
def execMtsp (core : Nat) (s : State) : Host.Outcome State Fault Refusal :=
  .next (s.onCtx core .mtsp (fun x w => x.bite [rdField w]) fun x w =>
    if zimm17 w = 0 then x.clearStat (x.d w) else { x with trapvec := x.d w &&& ~~~3 })

/-- TRAP (R50, R72): it raises TRAP with its code. -/
def execTrap (core : Nat) (s : State) : Host.Outcome State Fault Refusal :=
  .next (s.issue core .trap fun u c w => u.raise core c Adt.trap.cost (causeTrap, w32 (zimm17 w)))

end Sys2Proof.Machine
end

