-- ==== Sys2Proof/Machine/AdtMem.lean ====
section
/-! DEFINITION. Memory, stream and block-port instructions of Adtuak (R58 to R62, R66, R67, R74). -/

namespace Sys2Proof.Machine

/-! ## Local data memory (R58, R59) -/

/-- The checks of a local access of `n` bytes: the base's poison, the partition, the alignment (R58, R74). -/
def localCheck (n : Nat) (x : Ctx) (w : Word) : Option FaultOf :=
  match x.bite [raField w] with
  | some e => some e
  | none =>
    let a := x.addr w
    if !inPartition x.dFirst x.dLast a.toNat then some (causeBounds, a)
    else if a.toNat % n ≠ 0 then some (causeAlign, a)
    else none

/-- A local access: `f` is its effect on the state, given the address; the context then goes on. -/
def State.localAccess (s : State) (core : Nat) (o : Adt) (n : Nat) (f : State → Nat → Nat → Word → State) : State :=
  s.issue core o fun u c w =>
    match localCheck n (u.ctx core c) w with
    | some e => u.raise core c o.cost e
    | none => u.spend core o.cost fun t =>
      let t1 := f t c ((t.ctx core c).addr w).toNat w
      t1.setCtx core c (t1.ctx core c).next

/-- LDL (R50, R58). -/
def execLdl (core : Nat) (s : State) : Host.Outcome State Fault Refusal :=
  .next (s.localAccess core .ldl 4 fun t c a w =>
    let r := delivered (t.dword core a)
    (t.correctDword core a).setCtx core c ((t.ctx core c).wr (rdField w) r.1 r.2))

/-- The halfword of a word at a byte address: the lower half at an address that is a multiple of 4. -/
def halfOf (w : Word) (a : Nat) : Nat := if a % 4 = 0 then getBits w 15 0 else getBits w 31 16

/-- LDLH (R50, R58): the halfword, zero-extended. -/
def execLdlh (core : Nat) (s : State) : Host.Outcome State Fault Refusal :=
  .next (s.localAccess core .ldlh 2 fun t c a w =>
    let r := delivered (t.dword core a)
    (t.correctDword core a).setCtx core c ((t.ctx core c).wr (rdField w) (w32 (halfOf r.1 a)) r.2))

/-- STL (R50, R58): the word takes the poison of the stored register alone (R74). -/
def execStl (core : Nat) (s : State) : Host.Outcome State Fault Refusal :=
  .next (s.localAccess core .stl 4 fun t c a w =>
    let x := t.ctx core c
    t.setDword core a ⟨x.d w, x.gPoisoned (rdField w), .clean⟩)

/-- STLH (R50, R58): a clean halfword never clears a poisoned word (R74). -/
def execStlh (core : Nat) (s : State) : Host.Outcome State Fault Refusal :=
  .next (s.localAccess core .stlh 2 fun t c a w =>
    let x := t.ctx core c
    let r := delivered (t.dword core a)
    let v := getBits (x.d w) 15 0
    t.setDword core a
      ⟨if a % 4 = 0 then putBits r.1 15 0 v else putBits r.1 31 16 v, r.2 || x.gPoisoned (rdField w), .clean⟩)

/-- LDV (R50, R58): the word at the lower address is bits [31:0]. -/
def execLdv (core : Nat) (s : State) : Host.Outcome State Fault Refusal :=
  .next (s.localAccess core .ldv 8 fun t c a w =>
    let lo := delivered (t.dword core a)
    let hi := delivered (t.dword core (a + 4))
    ((t.correctDword core a).correctDword core (a + 4)).setCtx core c
      ((t.ctx core c).vwr (rdField w) (hi.1.zeroExtend 64 <<< 32 ||| lo.1.zeroExtend 64) (lo.2 || hi.2)))

/-- STV (R50, R58): both words take the poison of the stored register (R74). -/
def execStv (core : Nat) (s : State) : Host.Outcome State Fault Refusal :=
  .next (s.localAccess core .stv 8 fun t c a w =>
    let x := t.ctx core c
    let v := x.vrd (rdField w)
    let p := x.vPoisoned (rdField w)
    (t.setDword core a ⟨v.truncate 32, p, .clean⟩).setDword core (a + 4) ⟨(v >>> 32).truncate 32, p, .clean⟩)

/-! ## Streams (R60 to R62) -/

/-- The checks of an LDS or STS: poison of the handle and of the offset, the handle, the alignment, the size (R60, R74). -/
def State.streamCheck (s : State) (x : Ctx) (w : Word) : Option FaultOf :=
  match x.bite [raField w, rbField w] with
  | some e => some e
  | none =>
    match s.namedBuffer (x.a w) with
    | none => some (causeStream, x.a w)
    | some key =>
      if (x.b w).toNat % 4 ≠ 0 then some (causeAlign, x.b w)
      else if (s.stream key).size ≤ (x.b w).toNat then some (causeStream, x.a w)
      else none

/-- Cycles from the issue of an LDS or an STS to its completion. -/
def streamLatency : Nat := 56

/-- LDS (R50, R60, R61): it issues in one cycle, and its data arrives 56 cycles after its issue cycle. -/
def execLds (core : Nat) (s : State) : Host.Outcome State Fault Refusal :=
  .next (s.issue core .lds fun u c w =>
    match u.streamCheck (u.ctx core c) w with
    | some e => u.raise core c Adt.lds.cost e
    | none => u.spend core Adt.lds.cost fun t =>
      let x := t.ctx core c
      let k := t.core core
      let t1 := t.setCore core { k with
        lds := k.lds ++ [⟨((k.cyc + streamLatency : Nat) : Int), c, rdField w, x.a w, (x.b w).toNat / 4, true⟩] }
      t1.setCtx core c x.next)

/-- STS (R50, R60, R62): it issues in one cycle and completes 56 cycles after issue; it carries the poison of rd (R74). -/
def execSts (core : Nat) (s : State) : Host.Outcome State Fault Refusal :=
  .next (s.issue core .sts fun u c w =>
    match u.streamCheck (u.ctx core c) w with
    | some e => u.raise core c Adt.sts.cost e
    | none => u.spend core Adt.sts.cost fun t =>
      let x := t.ctx core c
      let k := t.core core
      let t1 := t.setCore core { k with
        sts := k.sts ++ [⟨((k.cyc + streamLatency : Nat) : Int), c, x.a w, (x.b w).toNat / 4,
          ⟨x.d w, x.gPoisoned (rdField w), .clean⟩⟩] }
      t1.setCtx core c x.next)

/-! ## The block port (R66, R67) -/

/-- The checks of a BPR or BPW: poison of the address and, of a BPW, of the data, and the alignment (R66, R74). -/
def portCheck (write : Bool) (x : Ctx) (w : Word) : Option FaultOf :=
  match x.bite (if write then [raField w, rdField w] else [raField w]) with
  | some e => some e
  | none => if (x.addr w).toNat % 4 ≠ 0 then some (causeAlign, x.addr w) else none

/-- BPR (R50, R66): it waits for the context's BPWs and takes 24 cycles. At which of them the register is read and its rc fields
clear the rule does not say: at its issue (DESIGN CHOICE, log entry 106). -/
def execBpr (core : Nat) (s : State) : Host.Outcome State Fault Refusal :=
  .next (s.issue core .bpr fun u c w =>
    match portCheck false (u.ctx core c) w with
    | some e => u.raise core c Adt.bpr.cost e
    | none => u.spend core Adt.bpr.cost fun t =>
      let r := t.busRead (.core core c) ((t.ctx core c).addr w).toNat
      r.1.setCtx core c (((r.1.ctx core c).wr (rdField w) r.2 false).next))

/-- Cycles from the issue of a BPW to its completion at the register fabric. -/
def portLatency : Nat := 20

/-- BPW (R50, R67): it issues in one cycle and completes at the register fabric 20 cycles after issue. -/
def execBpw (core : Nat) (s : State) : Host.Outcome State Fault Refusal :=
  .next (s.issue core .bpw fun u c w =>
    match portCheck true (u.ctx core c) w with
    | some e => u.raise core c Adt.bpw.cost e
    | none => u.spend core Adt.bpw.cost fun t =>
      let x := t.ctx core c
      let b : Bpw := ⟨(((t.core core).cyc + portLatency : Nat) : Int), x.addr w, x.d w⟩
      t.setCtx core c { x.next with bpws := x.bpws ++ [b] })

/-- BPF (R50, R75): it waits until the context's BPWs have completed, then takes one cycle. -/
def execBpf (core : Nat) (s : State) : Host.Outcome State Fault Refusal :=
  .next (s.onCtx core .bpf noCheck fun x _ => x)

end Sys2Proof.Machine
end

