-- ==== Sys2Proof/Machine/AdtPred.lean ====
section
/-! DEFINITION. Compares and predicate logic of Adtuak (R50, R52). -/

namespace Sys2Proof.Machine

/-- A compare of ra and rb (R52); a poisoned operand bites (R74). -/
def State.compare (s : State) (core : Nat) (o : Adt) (f : Word → Word → Bool) : State :=
  s.onCtx core o (fun x w => x.bite [raField w, rbField w]) fun x w => x.pwr (rdField w) (f (x.a w) (x.b w))

/-- A compare of ra and an immediate (R50). -/
def State.compareImm (s : State) (core : Nat) (o : Adt) (f : Word → Word → Bool) : State :=
  s.onCtx core o (fun x w => x.bite [raField w]) fun x w => x.pwr (rdField w) (f (x.a w) w)

/-- Predicate logic (R52): of p(ra) and p(rb). -/
def State.predLogic (s : State) (core : Nat) (o : Adt) (f : Bool → Bool → Bool) : State :=
  s.onCtx core o noCheck fun x w => x.pwr (rdField w) (f (x.pred (raField w)) (x.pred (rbField w)))

/-- CMPEQ (R52): p(rd) = (ra = rb). -/
def execCmpeq (core : Nat) (s : State) : Host.Outcome State Fault Refusal :=
  .next (s.compare core .cmpeq fun a b => a == b)

/-- CMPNE (R52): p(rd) = (ra ≠ rb). -/
def execCmpne (core : Nat) (s : State) : Host.Outcome State Fault Refusal :=
  .next (s.compare core .cmpne fun a b => a != b)

/-- CMPLT (R52): p(rd) = (ra < rb, signed). -/
def execCmplt (core : Nat) (s : State) : Host.Outcome State Fault Refusal :=
  .next (s.compare core .cmplt fun a b => decide (a.toInt < b.toInt))

/-- CMPLE (R52): p(rd) = (ra ≤ rb, signed). -/
def execCmple (core : Nat) (s : State) : Host.Outcome State Fault Refusal :=
  .next (s.compare core .cmple fun a b => decide (a.toInt ≤ b.toInt))

/-- CMPLTU (R52): p(rd) = (ra < rb, unsigned). -/
def execCmpltu (core : Nat) (s : State) : Host.Outcome State Fault Refusal :=
  .next (s.compare core .cmpltu fun a b => decide (a < b))

/-- CMPLEU (R52): p(rd) = (ra ≤ rb, unsigned). -/
def execCmpleu (core : Nat) (s : State) : Host.Outcome State Fault Refusal :=
  .next (s.compare core .cmpleu fun a b => decide (a ≤ b))

/-- CMPEQI (R50): p(rd) = (ra = imm12). -/
def execCmpeqi (core : Nat) (s : State) : Host.Outcome State Fault Refusal :=
  .next (s.compareImm core .cmpeqi fun a w => a == simm12 w)

/-- CMPLTI (R50): p(rd) = (ra < imm12, signed). -/
def execCmplti (core : Nat) (s : State) : Host.Outcome State Fault Refusal :=
  .next (s.compareImm core .cmplti fun a w => decide (a.toInt < (simm12 w).toInt))

/-- CMPLTUI (R50): p(rd) = (ra < imm12, unsigned, the immediate zero-extended). -/
def execCmpltui (core : Nat) (s : State) : Host.Outcome State Fault Refusal :=
  .next (s.compareImm core .cmpltui fun a w => decide (a < zimm12 w))

/-- PAND (R52): p(rd) = p(ra) AND p(rb). -/
def execPand (core : Nat) (s : State) : Host.Outcome State Fault Refusal :=
  .next (s.predLogic core .pand fun a b => a && b)

/-- POR (R52): p(rd) = p(ra) OR p(rb). -/
def execPor (core : Nat) (s : State) : Host.Outcome State Fault Refusal :=
  .next (s.predLogic core .por fun a b => a || b)

/-- PXOR (R52): p(rd) = p(ra) XOR p(rb). -/
def execPxor (core : Nat) (s : State) : Host.Outcome State Fault Refusal :=
  .next (s.predLogic core .pxor fun a b => a != b)

/-- PNOT (R52): p(rd) = NOT p(ra). -/
def execPnot (core : Nat) (s : State) : Host.Outcome State Fault Refusal :=
  .next (s.predLogic core .pnot fun a _ => !a)

/-- PSET (R52): p(rd) = 1. -/
def execPset (core : Nat) (s : State) : Host.Outcome State Fault Refusal :=
  .next (s.predLogic core .pset fun _ _ => true)

/-- PCLR (R52): p(rd) = 0. -/
def execPclr (core : Nat) (s : State) : Host.Outcome State Fault Refusal :=
  .next (s.predLogic core .pclr fun _ _ => false)

end Sys2Proof.Machine
end

