-- ==== Sys2Proof/Machine/AdtQueue.lean ====
section
/-! DEFINITION. The queue instructions of Adtuak (R53, R63 to R65, R74, R271). -/

namespace Sys2Proof.Machine

/-- The common shape of the queue instructions (R63, R65, R74, R88, R271): the queue is acted on in its cycle, whether or not
the slot lasts to the end of the 56 cycles; registers, QST and the predicate change at their end, where STREAM is raised
when the handle named no queue in that cycle. -/
def State.queueOp (s : State) (core : Nat) (o : Adt) (f : Ctx → Word → QueueAct) : State :=
  s.issue core o fun u c w =>
    let x := u.ctx core c
    match x.bite [raField w] with
    | some e => u.raise core c o.cost e
    | none =>
      let t := (u.core core).cyc
      let at' := u.queueCycle core t
      let stop := u.slotEnd core
      if stop < t + o.cost then
        let k := u.core core
        (u.setCore core { k with qops := k.qops ++ [⟨at', c, x.a w, f x w⟩] }).endSlot core
      else
        let r := (u.passTo core at').queueAct core c (x.a w) (f x w)
        match r.2 with
        | none => r.1.raise core c o.cost (causeStream, x.a w)
        | some back => r.1.spend core o.cost fun v =>
          let x1 := { v.ctx core c with qst := back.qst }
          let x2 := x1.pwr (fnField w % 4) (getBits back.qst 3 0 == 0)
          let x3 := match back.val with
            | some r => x2.wr (rdField w) r.1 r.2
            | none => x2
          v.setCtx core c x3.next

/-- The word that QPSH and QEND carry, with its poison (R74). -/
def pushWord (x : Ctx) (w : Word) : PWord := ⟨x.d w, x.gPoisoned (rdField w), .clean⟩

/-- QPSH (R53). -/
def execQpsh (core : Nat) (s : State) : Host.Outcome State Fault Refusal :=
  .next (s.queueOp core .qpsh fun x w => .push (pushWord x w) false)

/-- QEND (R53). -/
def execQend (core : Nat) (s : State) : Host.Outcome State Fault Refusal :=
  .next (s.queueOp core .qend fun x w => .push (pushWord x w) true)

/-- QBAD (R53, R64): with no open packet ZERO_LEN. -/
def execQbad (core : Nat) (s : State) : Host.Outcome State Fault Refusal :=
  .next (s.queueOp core .qbad fun _ _ => .bad)

/-- QPOP (R53, R74, R277): the next word, its end mark and its poison; on EMPTY rd is unchanged. -/
def execQpop (core : Nat) (s : State) : Host.Outcome State Fault Refusal :=
  .next (s.queueOp core .qpop fun _ _ => .pop)

/-- QLEN (R53, R270): the committed words. -/
def execQlen (core : Nat) (s : State) : Host.Outcome State Fault Refusal :=
  .next (s.queueOp core .qlen fun _ _ => .len)

/-- QFLUSH (R53, R275). -/
def execQflush (core : Nat) (s : State) : Host.Outcome State Fault Refusal :=
  .next (s.queueOp core .qflush fun _ _ => .flush)

end Sys2Proof.Machine
end

