-- ==== Sys2Proof/Machine/AdtVec.lean ====
section
/-! DEFINITION. The vector instructions of Adtuak (R54, R55). -/

namespace Sys2Proof.Machine

/-- The lanes of a result with their clips: SAT when any lane clipped. -/
def vclip (f : Nat → BitVec 16 × Bool) : BitVec 64 × Word :=
  (vmake fun i => (f i).1, if (f 0).2 || (f 1).2 || (f 2).2 || (f 3).2 then statSat else 0)

/-- VMULQ of one lane: the Q1.15 product, rounded half away from zero and saturated (R55). -/
def vmulqLane (a b : BitVec 16) : BitVec 16 × Bool := sat16 (roundShift (a.toInt * b.toInt) 15)

/-- VMACQ of one lane: the accumulator plus the exact product, rounded once and saturated once (R55). -/
def vmacqLane (acc a b : BitVec 16) : BitVec 16 × Bool :=
  sat16 (roundShift (acc.toInt * 32768 + a.toInt * b.toInt) 15)

/-- A lane by lane instruction of v(ra) and v(rb): v(rd), poisoned as its operands are (R54, R74). -/
def State.vec2 (s : State) (core : Nat) (o : Adt) (f : BitVec 16 → BitVec 16 → BitVec 16 × Bool) : State :=
  s.onCtx core o noCheck fun x w =>
    let r := vclip fun i => f (vlane (x.vrd (raField w)) i) (vlane (x.vrd (rbField w)) i)
    (x.sticky r.2).vwr (rdField w) r.1 (x.vPoisoned (raField w) || x.vPoisoned (rbField w))

/-- A lane result that clips nothing. -/
def whole (v : BitVec 16) : BitVec 16 × Bool := (v, false)

/-- VADD (R54): lane sums, wrapping. -/
def execVadd (core : Nat) (s : State) : Host.Outcome State Fault Refusal :=
  .next (s.vec2 core .vadd fun a b => whole (a + b))

/-- VSUB (R54): lane differences, wrapping. -/
def execVsub (core : Nat) (s : State) : Host.Outcome State Fault Refusal :=
  .next (s.vec2 core .vsub fun a b => whole (a - b))

/-- VADDS (R54): lane sums, saturating. -/
def execVadds (core : Nat) (s : State) : Host.Outcome State Fault Refusal :=
  .next (s.vec2 core .vadds fun a b => sat16 (a.toInt + b.toInt))

/-- VSUBS (R54): lane differences, saturating. -/
def execVsubs (core : Nat) (s : State) : Host.Outcome State Fault Refusal :=
  .next (s.vec2 core .vsubs fun a b => sat16 (a.toInt - b.toInt))

/-- VMULQ (R54, R55). -/
def execVmulq (core : Nat) (s : State) : Host.Outcome State Fault Refusal :=
  .next (s.vec2 core .vmulq vmulqLane)

/-- VMACQ (R54, R55): v(rd) is an operand too, and its poison moves to the result (R74). -/
def execVmacq (core : Nat) (s : State) : Host.Outcome State Fault Refusal :=
  .next (s.onCtx core .vmacq noCheck fun x w =>
    let r := vclip fun i =>
      vmacqLane (vlane (x.vrd (rdField w)) i) (vlane (x.vrd (raField w)) i) (vlane (x.vrd (rbField w)) i)
    (x.sticky r.2).vwr (rdField w) r.1
      (x.vPoisoned (rdField w) || x.vPoisoned (raField w) || x.vPoisoned (rbField w)))

/-- VMIN (R54): signed lane minima. -/
def execVmin (core : Nat) (s : State) : Host.Outcome State Fault Refusal :=
  .next (s.vec2 core .vmin fun a b => whole (if a.toInt ≤ b.toInt then a else b))

/-- VMAX (R54): signed lane maxima. -/
def execVmax (core : Nat) (s : State) : Host.Outcome State Fault Refusal :=
  .next (s.vec2 core .vmax fun a b => whole (if a.toInt ≤ b.toInt then b else a))

/-- VABS (R54): lane absolute values; −32,768 gives 32,767 and sets SAT. -/
def execVabs (core : Nat) (s : State) : Host.Outcome State Fault Refusal :=
  .next (s.onCtx core .vabs noCheck fun x w =>
    let r := vclip fun i => sat16 ((vlane (x.vrd (raField w)) i).toInt.natAbs : Int)
    (x.sticky r.2).vwr (rdField w) r.1 (x.vPoisoned (raField w)))

/-- VSHR (R54): each lane of v(ra) shifted right arithmetically by g(rb)[3:0]. -/
def execVshr (core : Nat) (s : State) : Host.Outcome State Fault Refusal :=
  .next (s.onCtx core .vshr noCheck fun x w =>
    x.vwr (rdField w) (vmake fun i => (vlane (x.vrd (raField w)) i).sshiftRight (getBits (x.b w) 3 0))
      (x.vPoisoned (raField w) || x.gPoisoned (rbField w)))

/-- VSPLAT (R54): every lane of v(rd) = g(ra)[15:0]. -/
def execVsplat (core : Nat) (s : State) : Host.Outcome State Fault Refusal :=
  .next (s.onCtx core .vsplat noCheck fun x w =>
    x.vwr (rdField w) (vmake fun _ => (x.a w).truncate 16) (x.gPoisoned (raField w)))

/-- VGET (R54): g(rd) = lane rb[1:0] of v(ra), sign-extended. -/
def execVget (core : Nat) (s : State) : Host.Outcome State Fault Refusal :=
  .next (s.onCtx core .vget noCheck fun x w =>
    x.wr (rdField w) ((vlane (x.vrd (raField w)) (rbField w)).signExtend 32) (x.vPoisoned (raField w)))

/-- VPUT (R54): lane rb[1:0] of v(rd) = g(ra)[15:0]; the other lanes of v(rd) are operands (R74). -/
def execVput (core : Nat) (s : State) : Host.Outcome State Fault Refusal :=
  .next (s.onCtx core .vput noCheck fun x w =>
    x.vwr (rdField w)
      (vmake fun i => if i = rbField w then (x.a w).truncate 16 else vlane (x.vrd (rdField w)) i)
      (x.vPoisoned (rdField w) || x.gPoisoned (raField w)))

/-- VSUM (R54): g(rd) = the 32-bit sum of the four sign-extended lanes of v(ra). -/
def execVsum (core : Nat) (s : State) : Host.Outcome State Fault Refusal :=
  .next (s.onCtx core .vsum noCheck fun x w =>
    let l := fun i => (vlane (x.vrd (raField w)) i).signExtend 32
    x.wr (rdField w) (l 0 + l 1 + l 2 + l 3) (x.vPoisoned (raField w)))

/-- VMOV (R54): v(rd) = v(ra). -/
def execVmov (core : Nat) (s : State) : Host.Outcome State Fault Refusal :=
  .next (s.onCtx core .vmov noCheck fun x w => x.vwr (rdField w) (x.vrd (raField w)) (x.vPoisoned (raField w)))

end Sys2Proof.Machine
end

