-- ==== Sys2Proof/Machine/Boundary.lean ====
section
/-! DEFINITION. The Stitch boundary (R26 to R31, R36, R39): the end of the Stitch, the three steps of R29, and what every
block does at TCLK 0 of the new Stitch. -/

namespace Sys2Proof.Machine

/-! ## The end of the Stitch -/

/-- What the blocks finish in the Stitch that ends: trace records, the fetch packets, the axes' microsteps, the map's work and the
slots that still run. -/
def State.endOfStitch (s : State) : State :=
  let s1 := (List.range s.part.row.lasers).foldl (fun (t : State) k => t.traceFlush k) s
  let s2 := (List.range s1.part.row.chans).foldl (fun (t : State) c => t.isoDeliver c) s1
  let s3 := (List.range s2.part.row.axes).foldl (fun (t : State) x => t.axWalk x) s2
  s3.hideEnd.endSlots

/-- The count, the clocks and the bases move on by the ended Stitch of `n` TCLK; vectors may send again (R28, R273). -/
def State.countOn (s : State) (n : Nat) : State :=
  let secs := (s.tclk + n) / 320000000 - s.tclk / 320000000
  let s1 := s.timeAdvance n
  let s2 := if s1.power.vbat then s1.setReg R.PWR_VBAT_CNT (s1.reg R.PWR_VBAT_CNT + w32 secs) else s1
  ({ s2 with stitch := s2.stitch + 1, tclk := s2.tclk + n, msix := [] }).sendAllPending

/-! ## Sample (R29, step 1) -/

/-- The inputs sampled at the boundary (R27), head status words among them; the axes sample theirs at the AXCLK edge (R30). -/
def State.sample (s : State) (inp : BoundaryIn) : State :=
  let s1 : State := { s with
    ain := (List.range 8).map fun c : Nat => inp.ain.getD c 0 % 2 ^ 16
    spt := (List.range 8).map fun c : Nat => (inp.spt.getD c 0 :: s.spt.getD c []).take 1024 }
  let s0 := if inp.pressed then s1 else s1.setFld F.SEC_STATE_PRESENT 0
  let s2 := s0.laneList.foldl (fun (t : State) k => t.latchStatus k) s0
  (List.range s2.part.row.axes).foldl (fun (t : State) x => t.axSample x inp) s2

/-! ## Commit (R29, step 2) -/

/-- One register's shadowed fields moved into force, unless its group is held. Fields that commit otherwise keep waiting. A
committed engine write restarts the engine at its next tick (R362). -/
def State.commitReg (s : State) (a : Nat) (w : Word) : State :=
  match placeOf a with
  | none => s
  | some pl =>
    let held : Bool := match holdGroup pl.blk with
      | some g => s.holdOn g
      | none => false
    match regAt pl.blk pl.off with
    | none => s
    | some r =>
      let fs := r.flds.filter fun f => f.acc == .sh
      if held || fs.isEmpty then s
      else
        let v := fs.foldl (fun (u : Word) (f : FieldDesc) => putBits u f.hi f.lo (getBits w f.hi f.lo)) (s.reg a)
        let s1 := s.setReg a v
        let s2 := { s1 with staged := sdel s1.staged a }
        if pl.blk = .lamp ∧ 0x600 ≤ pl.off ∧ pl.off < 0x680 ∧ pl.off % 16 = 0 then
          s2.onLamp fun l => { l with due := ((pl.off - 0x600) / 16) :: l.due.filter (· != (pl.off - 0x600) / 16) }
        else s2

/-- Every register whose commit is due and not held (R36, R39). -/
def State.commitAll (s : State) : State :=
  s.staged.foldl (fun (t : State) (e : Nat × Option Word) => match e.2 with
    | some w => t.commitReg e.1 w
    | none => t) s

/-- A new period comes into force (R35): PERIOD_CHANGED, and what checks itself against the new period. -/
def State.periodChange (s : State) : State :=
  match sget none s.staged R.STCH_PERIOD with
  | none => s
  | some w =>
    let s1 := { (s.setReg R.STCH_PERIOD w) with staged := sdel s.staged R.STCH_PERIOD }
    let s2 := (s1.setFld F.STCH_STATUS_PENDING 0).setFld F.STCH_EVENT_PERIOD_CHANGED 1
    let s3 := s2.laneList.foldl (fun (t : State) k => t.laneAtPeriod k) s2
    let s4 := s3.pipeList.foldl (fun (t : State) p => t.imgOverload p) s3
    let s5 := (List.range s4.part.row.chans).foldl (fun (t : State) c => t.fetchersAtPeriod c t.period) s4
    s5.lampAtPeriod

/-- The register writes of actions, after every other write of the ended Stitch (R342). -/
def State.actionWrites (s : State) : State :=
  s.time.writes.foldl (fun (t : State) (e : Word × Word) => t.busWrite .action e.1.toNat e.2)
    { s with time := { s.time with writes := [] } }

/-- The commit step: grants, actions' writes, shadowed registers, the period, thermal ceilings. -/
def State.commit (s : State) : State :=
  let s1 := (s.countHolds.grantBoundary.actionWrites).periodChange
  s1.commitAll.thrmBoundary

/-! ## Command registers (R36) -/

/-- A write of a command register carried out at the boundary. -/
def State.runCmd (s : State) (e : Nat × Word) : State :=
  match placeOf e.1 with
  | none => s
  | some pl =>
    let w := e.2
    match pl.blk with
    | .tree => s.jobCommand (getBits w 2 0)
    | .awl =>
      match getBits w 1 0 with
      | 1 => s.awlGotoCmd pl.unit
      | 2 => s.awlStopCmd pl.unit
      | 3 => s.awlClearCmd pl.unit
      | _ => s
    | .axis =>
      if pl.off < 0x200 then s.axCommand pl.unit (getBits w 3 0)
      else
        let s1 := if w.getLsbD 0 then s.skvReadyCmd else s
        if w.getLsbD 1 then s1.skvRetryCmd else s1
    | .lane => s.laneCommand pl.unit (getBits w 2 0)
    | .pwr => s.powerCommand (getBits w 2 0)
    | .harn => s.harnCommand (getBits w 2 0)
    | .time => s.armAct ((pl.off - 0x10000) / 0x40)
    | .sys => s | .stch => s | .tc => s | .hide => s | .rein => s | .img => s | .sb => s | .dmc => s | .pcie => s
    | .fbus => s | .lamp => s | .thrm => s | .cal => s | .burn => s | .sec => s

/-- Whether a waiting command is the power manager's. -/
def isPwrCmd (e : Nat × Word) : Bool :=
  match placeOf e.1 with
  | some pl => pl.blk == .pwr
  | none => false

/-- The power manager's commands and block restarts. -/
def State.powerStep (s : State) : State :=
  let due := s.cmds.filter isPwrCmd
  let s1 := due.foldl State.runCmd { s with cmds := s.cmds.filter fun e => !isPwrCmd e }
  s1.restartBoundary

/-- Whether a waiting command is an ABORT of the job. -/
def isAbort (e : Nat × Word) : Bool := e.1 == R.TREE_JOB_CMD && getBits e.2 2 0 == 5

/-- Whether a waiting command is an axis's ESTOP. -/
def isEstop (e : Nat × Word) : Bool := getBits e.2 3 0 == 5

/-- Whether an address is an AXIS_CMD. -/
def isAxisCmd (a : Nat) : Bool :=
  match placeOf a with
  | some pl => pl.blk == .axis && pl.off == 4
  | none => false

/-- The commands of a boundary that act, oldest first: an ABORT overrides the job's other commands (R112); of an axis's commands an
ESTOP wins, and else the last one stands (R242). `all` is every command of the boundary. -/
def actingCmds (all : List (Nat × Word)) : List (Nat × Word) → List (Nat × Word)
  | [] => []
  | e :: es =>
    let rest := actingCmds all es
    let same := all.filter fun o => o.1 == e.1
    let acts :=
      if e.1 = R.TREE_JOB_CMD then isAbort e || !all.any isAbort
      else if isAxisCmd e.1 then
        if same.any isEstop then isEstop e && !es.any (fun o => o.1 == e.1 && isEstop o)
        else !es.any fun o => o.1 == e.1
      else true
    if acts then e :: rest else rest

/-- The commands of every other block. -/
def State.commandStep (s : State) : State := (actingCmds s.cmds s.cmds).foldl State.runCmd { s with cmds := [] }

/-! ## What the blocks do at the boundary -/

/-- The cores, the Saddlebag's port and the DRAM channels. -/
def State.storeStep (s : State) (old : Nat) : State :=
  let s1 := (List.range 40).foldl (fun (t : State) k => if t.part.hasCore k then t.coreBoundary k old else t) s
  let s2 := s1.portBoundary
  (List.range s2.part.row.chans).foldl (fun (t : State) c => t.dramBoundary c) s2

/-- Whether STCH_MARK pulses at the present boundary: its count is a multiple of MARK_DIV. -/
def State.markDue (s : State) : Bool :=
  let d := s.fld F.STCH_CTRL_MARK_DIV
  d != 0 && s.now % d == 0

/-- Emit (R29, step 3): the EMIT_EN pins take their new state, STCH_MARK pulses when due, and every head applies the block of
the ended Stitch. -/
def State.emit (s : State) : State :=
  let s1 := { s with emitEn := s.emitWord, mark := s.markDue }
  (List.range s1.part.row.lasers).foldl (fun (t : State) k => t.awlBoundary k) s1

/-- A slot's Rein and Awl in the windows of R31: the law's power command, then the block that carries it. -/
def State.slotStep (s : State) (k : Nat) : State := (((s.formBlock k).reinBoundary k).formBlock k)

/-- The Hide map, the Reins and the Awls (R31); the map does the Stitch's work by its end. -/
def State.meltStep (s : State) : State := (List.range s.part.row.lasers).foldl State.slotStep s.hideBoundary

/-- The axes' work before their commands. -/
def State.axesStep (s : State) : State := (List.range s.part.row.axes).foldl (fun (t : State) x => t.axJudge x) s

/-- The motion engines, the Tree and the imaging pipes. -/
def State.motionStep (s : State) : State :=
  let s1 := (List.range s.part.row.axes).foldl (fun (t : State) x => t.axisBoundary x) s
  let s2 := s1.skvBoundary.treeBoundary
  s2.pipeList.foldl (fun (t : State) p => t.imgBoundary p) s2

/-- Lanes, lamps, calibration, presence, watchdog and harness. -/
def State.outerStep (s : State) (old : Nat) : State :=
  let s1 := s.laneList.foldl (fun (t : State) k => t.laneBoundary k) s
  let s2 := s1.showPeriodMin.lampBoundary.calBoundary.guardBoundary
  ((s2.wdogBoundary).ilkBoundary old).harnBoundary

/-- A host write that a pair forwarded, as it acts (R427). -/
def State.forwardOne (s : State) : Forwarded → State
  | .bar0 a v => s.forwarded a.toNat v
  | .bar2 aper off v => s.aperWrite aper off v
  | .bar4 c off data poison => s.forwardedLine c off data poison

/-- The host writes that a pair forwarded, applied in the boundary cycle (R427). -/
def State.forwardStep (s : State) : State :=
  s.harn.forwards.foldl (fun (t : State) e => t.forwardOne e) (s.onHarn fun h => { h with forwards := [] })

/-- Whether SEL of machine time waits to commit: firmware wrote it for this boundary (R339). -/
def State.selWritten (s : State) : Bool := (sget none s.staged R.TIME_MT_CFG).isSome

/-- A boundary up to the power manager's step. -/
def State.boundaryStart (s : State) (inp : BoundaryIn) : State :=
  ((s.endOfStitch.countOn s.period).sample inp).commit.powerStep

/-- The rest of a boundary: `old` is the ended Stitch in TCLK. -/
def State.boundaryRest (s : State) (old : Nat) (sel : Bool) : State :=
  let s1 := ((s.storeStep (5 * old)).emit.axesStep.commandStep.timeBoundary sel)
  let s2 := [0, 1].foldl (fun (t : State) g => t.segBoundary g) s1
  ((s2.meltStep.motionStep).outerStep old).forwardStep.gateClocks

/-- STITCH_BOUNDARY (R29): the boundary that ends the present Stitch. With the core domain down there is none. A command to
the power manager that resets the core domain or takes it down ends the boundary there. -/
def execStitchBoundary (inp : BoundaryIn) (s : State) : Host.Outcome State Fault Refusal :=
  .next (
    if !s.coreUp then s
    else
      let s1 := s.boundaryStart inp
      if !s1.coreUp ∨ s1.stitch ≠ s.stitch + 1 then s1
      else s1.boundaryRest s.period s.selWritten)

end Sys2Proof.Machine
end

