-- ==== Sys2Proof/Machine/Writes.lean ====
section
/-! DEFINITION. The rows of register access (R4, R11, R21, R28), of the registers whose writes have a row beside their
blocks, of a due WRITE action (R344) and of the debug port (R421). -/

namespace Sys2Proof.Machine

/-! ## Accesses -/

/-- A read or a write of BAR0, by whether a value is written. -/
def State.busAccess (s : State) (src : Source) (a : Nat) (wr : Option Word) : State :=
  match wr with
  | some v => s.busWrite src a v
  | none => State.answered (s.busRead src a)

/-- ABSENT_UNIT_ACCESS (R4): an access lands in the window of a unit that the part lacks. -/
def execAbsentUnitAccess (src : Source) (addr : Word) (wr : Option Word) (s : State) : Host.Outcome State Fault Refusal :=
  .next (if s.unitThere addr.toNat then s else s.busAccess src addr.toNat wr)

/-- Whether a BAR2 offset is one where nothing is for a host: an aperture that is bound to no live stream, or before boot. -/
def State.bar2Dead (s : State) (off : Nat) : Bool :=
  !s.flag F.PWR_STATE_BOOT_DONE || decide (2 ^ 28 ≤ off) || (s.named (s.reg (R.SB_APER (off / 2 ^ 24)))).isNone

/-- Whether a BAR4 offset is one where nothing is for a host: above the installed DRAM, in the carve-out, or before boot. -/
def State.bar4Dead (s : State) (off : Nat) : Bool :=
  !s.flag F.PWR_STATE_BOOT_DONE || (s.dmcOfBar4 off).isNone || s.inCarveOut off

/-- Whether a BAR0 offset holds no register of a present unit. -/
def State.bar0Dead (s : State) (src : Source) (a : Nat) : Bool :=
  (src == .host && !s.mapped a) || (s.unitThere a && !inLampMem a && !inImgBuf a && (s.regHere a).isNone)

/-- HOLE_ACCESS (R21): an access lands where nothing is: a BAR0 hole, an unbound BAR2 aperture or BAR4 above installed
DRAM. -/
def execHoleAccess (src : Source) (bar : Bar) (off : BitVec 64) (wr : Option Word) (s : State) :
    Host.Outcome State Fault Refusal :=
  .next (
    if !s.coreUp then s
    else
      let dead := match bar with
        | .b0 => s.bar0Dead src off.toNat
        | .b2 => s.bar2Dead off.toNat
        | .b4 => s.bar4Dead off.toNat
      if !dead then s
      else
        let s1 := s.unmapped src bar off
        if wr.isNone then { s1 with readData := deadWord } else s1)

/-- REGISTER_WRITE (R11): a write of BAR0. -/
def execRegisterWrite (src : Source) (addr val : Word) (s : State) : Host.Outcome State Fault Refusal :=
  .next (s.busWrite src addr.toNat val)

/-- READ_CLEAR (R11): a read of BAR0; its rc fields are cleared. -/
def execReadClear (src : Source) (addr : Word) (s : State) : Host.Outcome State Fault Refusal :=
  .next (State.answered (s.busRead src addr.toNat))

/-- STCH_COUNT_READ (R28): a read of STCH_COUNT_LO. -/
def execStchCountRead (src : Source) (s : State) : Host.Outcome State Fault Refusal :=
  .next (State.answered (s.busRead src R.STCH_COUNT_LO))

/-! ## Registers whose writes have a row -/

/-- TREE_SLOT_SERVICE_WRITE (R121, R134): a write of TREE_SLOT_SERVICE, in force from the next boundary. -/
def execTreeSlotServiceWrite (src : Source) (val : Word) (s : State) : Host.Outcome State Fault Refusal :=
  .next (s.busWrite src R.TREE_SLOT_SERVICE val)

/-- AXIS_ENABLE_WRITE (R255): a write of AXIS_CTRL; ENABLE acts at the next boundary. -/
def execAxisEnableWrite (src : Source) (axis : Nat) (val : Word) (s : State) : Host.Outcome State Fault Refusal :=
  .next (s.busWrite src (R.AXIS_CTRL axis) val)

/-- LAMP_CLEAR (R367): a write of LAMP_CH_CFG with CLEAR, which acts at the next frame tick. -/
def execLampClear (src : Source) (chan : Nat) (val : Word) (s : State) : Host.Outcome State Fault Refusal :=
  .next (s.busWrite src (R.LAMP_CH_CFG chan) (val ||| 0x80000000))

/-! ## Actions (R342, R344) -/

/-- ACTION_WRITE (R344): a due WRITE writes a register in the commit step of its boundary (R342). -/
def execActionWrite (entry : Nat) (s : State) : Host.Outcome State Fault Refusal :=
  .next (s.actRun entry 1 fun t =>
    ({ t with time := { t.time with
        writes := t.time.writes ++ [(t.reg (R.TIME_ACT_TARGET entry), t.reg (R.TIME_ACT_VALUE entry))] } }, 2))

/-! ## The debug port (R421, R422) -/

/-- The answer of the debug port. -/
def State.jtagAnswer (s : State) (w : Word) : State := s.onSec fun x => { x with jtag := w }

/-- A value that no rule gives, shifted out of the debug port. -/
def State.jtagFree (s : State) : State := (s.jtagAnswer s.free).tookFree

/-- DEBUG_INSTRUCTION (R421): BYPASS, IDCODE and SAMPLE are answered at all times, every other instruction only while the
port is open. -/
def execDebugInstruction (ir : DebugIr) (s : State) : Host.Outcome State Fault Refusal :=
  .next (
    match ir with
    | .bypass => s.jtagAnswer 0
    | .idcode => s.jtagAnswer Config.idcode
    | .sample => s.jtagFree
    | .extest => if s.flag F.SEC_DEBUG_OPEN then s.jtagFree else s
    | .regRead addr =>
      if s.flag F.SEC_DEBUG_OPEN then
        let r := s.busRead .device addr.toNat
        r.1.jtagAnswer r.2
      else s
    | .regWrite addr val => if s.flag F.SEC_DEBUG_OPEN then s.busWrite .device addr.toNat val else s
    | .other _ => if s.flag F.SEC_DEBUG_OPEN then s.jtagFree else s)

end Sys2Proof.Machine
end

