-- ==== Sys2Proof/Machine/Dispatch.lean ====
section
/-! DEFINITION. Which meaning each command has: one arm per constructor of Instr. -/

namespace Sys2Proof.Machine

/-- The effect of a command on everything but the queue of commands. -/
def exec (i : Instr) (s : State) : Host.Outcome State Fault Refusal :=
  match i with
  | .absentUnitAccess src addr wr => Sys2Proof.Machine.execAbsentUnitAccess src addr wr s
  | .holeAccess src bar off wr => Sys2Proof.Machine.execHoleAccess src bar off wr s
  | .registerWrite src addr val => Sys2Proof.Machine.execRegisterWrite src addr val s
  | .readClear src addr => Sys2Proof.Machine.execReadClear src addr s
  | .stchCountRead src => Sys2Proof.Machine.execStchCountRead src s
  | .stitchBoundary inp => Sys2Proof.Machine.execStitchBoundary inp s
  | .stchPeriodWrite src val => Sys2Proof.Machine.execStchPeriodWrite src val s
  | .stchHoldWrite src val => Sys2Proof.Machine.execStchHoldWrite src val s
  | .holdExpired grp => Sys2Proof.Machine.execHoldExpired grp s
  | .lateInput => Sys2Proof.Machine.execLateInput s
  | .earlyInput lane => Sys2Proof.Machine.execEarlyInput lane s
  | .add core => Sys2Proof.Machine.execAdd core s
  | .sub core => Sys2Proof.Machine.execSub core s
  | .and core => Sys2Proof.Machine.execAnd core s
  | .or core => Sys2Proof.Machine.execOr core s
  | .xor core => Sys2Proof.Machine.execXor core s
  | .shl core => Sys2Proof.Machine.execShl core s
  | .shr core => Sys2Proof.Machine.execShr core s
  | .sar core => Sys2Proof.Machine.execSar core s
  | .min core => Sys2Proof.Machine.execMin core s
  | .max core => Sys2Proof.Machine.execMax core s
  | .minu core => Sys2Proof.Machine.execMinu core s
  | .maxu core => Sys2Proof.Machine.execMaxu core s
  | .adds core => Sys2Proof.Machine.execAdds core s
  | .subs core => Sys2Proof.Machine.execSubs core s
  | .abs core => Sys2Proof.Machine.execAbs core s
  | .clz core => Sys2Proof.Machine.execClz core s
  | .mul core => Sys2Proof.Machine.execMul core s
  | .mulh core => Sys2Proof.Machine.execMulh core s
  | .mulhu core => Sys2Proof.Machine.execMulhu core s
  | .mulq core => Sys2Proof.Machine.execMulq core s
  | .pscl core => Sys2Proof.Machine.execPscl core s
  | .div core => Sys2Proof.Machine.execDiv core s
  | .divu core => Sys2Proof.Machine.execDivu core s
  | .sel core => Sys2Proof.Machine.execSel core s
  | .addi core => Sys2Proof.Machine.execAddi core s
  | .andi core => Sys2Proof.Machine.execAndi core s
  | .ori core => Sys2Proof.Machine.execOri core s
  | .xori core => Sys2Proof.Machine.execXori core s
  | .shiShl core => Sys2Proof.Machine.execShiShl core s
  | .shiShr core => Sys2Proof.Machine.execShiShr core s
  | .shiSar core => Sys2Proof.Machine.execShiSar core s
  | .cmpeqi core => Sys2Proof.Machine.execCmpeqi core s
  | .cmplti core => Sys2Proof.Machine.execCmplti core s
  | .cmpltui core => Sys2Proof.Machine.execCmpltui core s
  | .li core => Sys2Proof.Machine.execLi core s
  | .lhi core => Sys2Proof.Machine.execLhi core s
  | .llo core => Sys2Proof.Machine.execLlo core s
  | .ldl core => Sys2Proof.Machine.execLdl core s
  | .ldlh core => Sys2Proof.Machine.execLdlh core s
  | .stl core => Sys2Proof.Machine.execStl core s
  | .stlh core => Sys2Proof.Machine.execStlh core s
  | .ldv core => Sys2Proof.Machine.execLdv core s
  | .stv core => Sys2Proof.Machine.execStv core s
  | .lds core => Sys2Proof.Machine.execLds core s
  | .ldsComplete core => Sys2Proof.Machine.execLdsComplete core s
  | .sts core => Sys2Proof.Machine.execSts core s
  | .stsComplete core => Sys2Proof.Machine.execStsComplete core s
  | .bpr core => Sys2Proof.Machine.execBpr core s
  | .bpw core => Sys2Proof.Machine.execBpw core s
  | .bpwComplete core ctx => Sys2Proof.Machine.execBpwComplete core ctx s
  | .bpf core => Sys2Proof.Machine.execBpf core s
  | .qpsh core => Sys2Proof.Machine.execQpsh core s
  | .qend core => Sys2Proof.Machine.execQend core s
  | .qbad core => Sys2Proof.Machine.execQbad core s
  | .qpop core => Sys2Proof.Machine.execQpop core s
  | .qlen core => Sys2Proof.Machine.execQlen core s
  | .qflush core => Sys2Proof.Machine.execQflush core s
  | .b core => Sys2Proof.Machine.execB core s
  | .call core => Sys2Proof.Machine.execCall core s
  | .ret core => Sys2Proof.Machine.execRet core s
  | .loop core => Sys2Proof.Machine.execLoop core s
  | .waitstitch core => Sys2Proof.Machine.execWaitstitch core s
  | .mfsp core => Sys2Proof.Machine.execMfsp core s
  | .mtsp core => Sys2Proof.Machine.execMtsp core s
  | .trap core => Sys2Proof.Machine.execTrap core s
  | .cmpeq core => Sys2Proof.Machine.execCmpeq core s
  | .cmpne core => Sys2Proof.Machine.execCmpne core s
  | .cmplt core => Sys2Proof.Machine.execCmplt core s
  | .cmple core => Sys2Proof.Machine.execCmple core s
  | .cmpltu core => Sys2Proof.Machine.execCmpltu core s
  | .cmpleu core => Sys2Proof.Machine.execCmpleu core s
  | .pand core => Sys2Proof.Machine.execPand core s
  | .por core => Sys2Proof.Machine.execPor core s
  | .pxor core => Sys2Proof.Machine.execPxor core s
  | .pnot core => Sys2Proof.Machine.execPnot core s
  | .pset core => Sys2Proof.Machine.execPset core s
  | .pclr core => Sys2Proof.Machine.execPclr core s
  | .vadd core => Sys2Proof.Machine.execVadd core s
  | .vsub core => Sys2Proof.Machine.execVsub core s
  | .vadds core => Sys2Proof.Machine.execVadds core s
  | .vsubs core => Sys2Proof.Machine.execVsubs core s
  | .vmulq core => Sys2Proof.Machine.execVmulq core s
  | .vmacq core => Sys2Proof.Machine.execVmacq core s
  | .vmin core => Sys2Proof.Machine.execVmin core s
  | .vmax core => Sys2Proof.Machine.execVmax core s
  | .vabs core => Sys2Proof.Machine.execVabs core s
  | .vshr core => Sys2Proof.Machine.execVshr core s
  | .vsplat core => Sys2Proof.Machine.execVsplat core s
  | .vget core => Sys2Proof.Machine.execVget core s
  | .vput core => Sys2Proof.Machine.execVput core s
  | .vsum core => Sys2Proof.Machine.execVsum core s
  | .vmov core => Sys2Proof.Machine.execVmov core s
  | .contextSlotStart core slot => Sys2Proof.Machine.execContextSlotStart core slot s
  | .overrun core => Sys2Proof.Machine.execOverrun core s
  | .tableCommit core => Sys2Proof.Machine.execTableCommit core s
  | .load src core val => Sys2Proof.Machine.execLoad src core val s
  | .loadDone core => Sys2Proof.Machine.execLoadDone core s
  | .swap src core ctx val => Sys2Proof.Machine.execSwap src core ctx val s
  | .restart src core ctx val => Sys2Proof.Machine.execRestart src core ctx val s
  | .halt src core ctx val => Sys2Proof.Machine.execHalt src core ctx val s
  | .starved core ctx => Sys2Proof.Machine.execStarved core ctx s
  | .wdogEnable src val => Sys2Proof.Machine.execWdogEnable src val s
  | .kick val => Sys2Proof.Machine.execKick val s
  | .wdogWarn => Sys2Proof.Machine.execWdogWarn s
  | .watchdogReset => Sys2Proof.Machine.execWatchdogReset s
  | .arm => Sys2Proof.Machine.execArm s
  | .validate => Sys2Proof.Machine.execValidate s
  | .hold => Sys2Proof.Machine.execHold s
  | .resume => Sys2Proof.Machine.execResume s
  | .abort => Sys2Proof.Machine.execAbort s
  | .psetReload => Sys2Proof.Machine.execPsetReload s
  | .validationDone => Sys2Proof.Machine.execValidationDone s
  | .layerStart => Sys2Proof.Machine.execLayerStart s
  | .layerClosed => Sys2Proof.Machine.execLayerClosed s
  | .layerAdvance => Sys2Proof.Machine.execLayerAdvance s
  | .planPassDone => Sys2Proof.Machine.execPlanPassDone s
  | .replan => Sys2Proof.Machine.execReplan s
  | .replanLate => Sys2Proof.Machine.execReplanLate s
  | .unitStart slot => Sys2Proof.Machine.execUnitStart slot s
  | .strokePush slot => Sys2Proof.Machine.execStrokePush slot s
  | .unitComplete slot => Sys2Proof.Machine.execUnitComplete slot s
  | .laserLost slot => Sys2Proof.Machine.execLaserLost slot s
  | .layerOver => Sys2Proof.Machine.execLayerOver s
  | .placementLogRecord => Sys2Proof.Machine.execPlacementLogRecord s
  | .treeSlotServiceWrite src val => Sys2Proof.Machine.execTreeSlotServiceWrite src val s
  | .hideEnable src val => Sys2Proof.Machine.execHideEnable src val s
  | .hideFillDone => Sys2Proof.Machine.execHideFillDone s
  | .hideDisable src val => Sys2Proof.Machine.execHideDisable src val s
  | .sweepPassStart => Sys2Proof.Machine.execSweepPassStart s
  | .sweepPassEnd => Sys2Proof.Machine.execSweepPassEnd s
  | .assimRecord => Sys2Proof.Machine.execAssimRecord s
  | .archived => Sys2Proof.Machine.execArchived s
  | .strokePop slot => Sys2Proof.Machine.execStrokePop slot s
  | .strokeEnd slot => Sys2Proof.Machine.execStrokeEnd slot s
  | .goto slot => Sys2Proof.Machine.execGoto slot s
  | .gotoDone slot => Sys2Proof.Machine.execGotoDone slot s
  | .awlStop slot => Sys2Proof.Machine.execAwlStop slot s
  | .awlClear slot => Sys2Proof.Machine.execAwlClear slot s
  | .awlFault slot code => Sys2Proof.Machine.execAwlFault slot code s
  | .awlRest slot => Sys2Proof.Machine.execAwlRest slot s
  | .corrChange slot => Sys2Proof.Machine.execCorrChange slot s
  | .trimLoad slot => Sys2Proof.Machine.execTrimLoad slot s
  | .feedbackLost slot => Sys2Proof.Machine.execFeedbackLost slot s
  | .feedbackFrozen slot => Sys2Proof.Machine.execFeedbackFrozen slot s
  | .following slot => Sys2Proof.Machine.execFollowing slot s
  | .powerCeiling src slot val => Sys2Proof.Machine.execPowerCeiling src slot val s
  | .ceilingCommit slot => Sys2Proof.Machine.execCeilingCommit slot s
  | .traceArm src slot unit val => Sys2Proof.Machine.execTraceArm src slot unit val s
  | .traceStop src slot unit val => Sys2Proof.Machine.execTraceStop src slot unit val s
  | .force src slot unit val => Sys2Proof.Machine.execForce src slot unit val s
  | .traceDone slot unit => Sys2Proof.Machine.execTraceDone slot unit s
  | .imgSlotEnable src pipe val => Sys2Proof.Machine.execImgSlotEnable src pipe val s
  | .camCommit pipe slot => Sys2Proof.Machine.execCamCommit pipe slot s
  | .pipeCommit src pipe slot => Sys2Proof.Machine.execPipeCommit src pipe slot s
  | .bedCamCommit pipe => Sys2Proof.Machine.execBedCamCommit pipe s
  | .bedPipeCommit src pipe => Sys2Proof.Machine.execBedPipeCommit src pipe s
  | .fragmentFlit lane hdr words => Sys2Proof.Machine.execFragmentFlit lane hdr words s
  | .memoryFrameStart pipe => Sys2Proof.Machine.execMemoryFrameStart pipe s
  | .statsPacket pipe slot => Sys2Proof.Machine.execStatsPacket pipe slot s
  | .capture src pipe val => Sys2Proof.Machine.execCapture src pipe val s
  | .bedDone pipe => Sys2Proof.Machine.execBedDone pipe s
  | .move axis => Sys2Proof.Machine.execMove axis s
  | .velPos axis => Sys2Proof.Machine.execVelPos axis s
  | .velNeg axis => Sys2Proof.Machine.execVelNeg axis s
  | .axisStop axis => Sys2Proof.Machine.execAxisStop axis s
  | .estop axis => Sys2Proof.Machine.execEstop axis s
  | .home axis => Sys2Proof.Machine.execHome axis s
  | .axisClear axis => Sys2Proof.Machine.execAxisClear axis s
  | .setPos axis => Sys2Proof.Machine.execSetPos axis s
  | .axisEnableWrite src axis val => Sys2Proof.Machine.execAxisEnableWrite src axis val s
  | .waveLoad src axis val => Sys2Proof.Machine.execWaveLoad src axis val s
  | .bankSwitch axis => Sys2Proof.Machine.execBankSwitch axis s
  | .moveDone axis => Sys2Proof.Machine.execMoveDone axis s
  | .softLimit axis => Sys2Proof.Machine.execSoftLimit axis s
  | .stall axis => Sys2Proof.Machine.execStall axis s
  | .lostStep axis => Sys2Proof.Machine.execLostStep axis s
  | .limitHit axis input => Sys2Proof.Machine.execLimitHit axis input s
  | .homeEdge axis level axclk => Sys2Proof.Machine.execHomeEdge axis level axclk s
  | .chatter axis => Sys2Proof.Machine.execChatter axis s
  | .homeDone axis => Sys2Proof.Machine.execHomeDone axis s
  | .skiverPhaseEnd => Sys2Proof.Machine.execSkiverPhaseEnd s
  | .skiverDone => Sys2Proof.Machine.execSkiverDone s
  | .skvReady => Sys2Proof.Machine.execSkvReady s
  | .retry => Sys2Proof.Machine.execRetry s
  | .create src val => Sys2Proof.Machine.execCreate src val s
  | .createDone => Sys2Proof.Machine.execCreateDone s
  | .destroy src val => Sys2Proof.Machine.execDestroy src val s
  | .queuePush req handle word last turn => Sys2Proof.Machine.execQueuePush req handle word last turn s
  | .queuePop req handle turn => Sys2Proof.Machine.execQueuePop req handle turn s
  | .spillMove handle toDram => Sys2Proof.Machine.execSpillMove handle toDram s
  | .scrub addr err => Sys2Proof.Machine.execScrub addr err s
  | .aperBind src aper val => Sys2Proof.Machine.execAperBind src aper val s
  | .aperPush aper val => Sys2Proof.Machine.execAperPush aper val s
  | .aperEnd aper val => Sys2Proof.Machine.execAperEnd aper val s
  | .aperBad aper val => Sys2Proof.Machine.execAperBad aper val s
  | .aperPop aper => Sys2Proof.Machine.execAperPop aper s
  | .aperDepth aper => Sys2Proof.Machine.execAperDepth aper s
  | .aperBufferAccess aper off wr => Sys2Proof.Machine.execAperBufferAccess aper off wr s
  | .dramEnable src chan val => Sys2Proof.Machine.execDramEnable src chan val s
  | .trainingDone chan found => Sys2Proof.Machine.execTrainingDone chan found s
  | .dramRead chan req off err delayed => Sys2Proof.Machine.execDramRead chan req off err delayed s
  | .dramWrite chan req off data poison turn => Sys2Proof.Machine.execDramWrite chan req off data poison turn s
  | .commandParityAlert chan replays => Sys2Proof.Machine.execCommandParityAlert chan replays s
  | .refresh chan iso => Sys2Proof.Machine.execRefresh chan iso s
  | .isoLate chan fetch => Sys2Proof.Machine.execIsoLate chan fetch s
  | .fetcherEnable src chan fetch val => Sys2Proof.Machine.execFetcherEnable src chan fetch val s
  | .selfRefreshEntry chan => Sys2Proof.Machine.execSelfRefreshEntry chan s
  | .patrol chan err => Sys2Proof.Machine.execPatrol chan err s
  | .laneEnable src lane val => Sys2Proof.Machine.execLaneEnable src lane val s
  | .identFlit lane words => Sys2Proof.Machine.execIdentFlit lane words s
  | .checkDone lane errs => Sys2Proof.Machine.execCheckDone lane errs s
  | .echoFlit lane rtt => Sys2Proof.Machine.execEchoFlit lane rtt s
  | .laneUp lane => Sys2Proof.Machine.execLaneUp lane s
  | .laneDown lane cause => Sys2Proof.Machine.execLaneDown lane cause s
  | .retrain lane => Sys2Proof.Machine.execRetrain lane s
  | .test lane => Sys2Proof.Machine.execTest lane s
  | .measure lane => Sys2Proof.Machine.execMeasure lane s
  | .measureDone lane errs bits => Sys2Proof.Machine.execMeasureDone lane errs bits s
  | .inject lane => Sys2Proof.Machine.execInject lane s
  | .exit lane => Sys2Proof.Machine.execExit lane s
  | .samplesFlit lane hdr words => Sys2Proof.Machine.execSamplesFlit lane hdr words s
  | .statusFlit lane hdr words => Sys2Proof.Machine.execStatusFlit lane hdr words s
  | .badFlit lane crc => Sys2Proof.Machine.execBadFlit lane crc s
  | .nak lane ack => Sys2Proof.Machine.execNak lane ack s
  | .pcieReset => Sys2Proof.Machine.execPcieReset s
  | .linkLost => Sys2Proof.Machine.execLinkLost s
  | .msixUnmask vec => Sys2Proof.Machine.execMsixUnmask vec s
  | .ethRxFrame port frame fcsOk => Sys2Proof.Machine.execEthRxFrame port frame fcsOk s
  | .ethTxPacket port => Sys2Proof.Machine.execEthTxPacket port s
  | .refWindow tclks => Sys2Proof.Machine.execRefWindow tclks s
  | .refLost => Sys2Proof.Machine.execRefLost s
  | .domainMeasurement src dom val => Sys2Proof.Machine.execDomainMeasurement src dom val s
  | .domUnlock dom => Sys2Proof.Machine.execDomUnlock dom s
  | .timeSnap => Sys2Proof.Machine.execTimeSnap s
  | .actArm src entry val => Sys2Proof.Machine.execActArm src entry val s
  | .actCancel src entry val => Sys2Proof.Machine.execActCancel src entry val s
  | .actionWrite entry => Sys2Proof.Machine.execActionWrite entry s
  | .actionPush entry => Sys2Proof.Machine.execActionPush entry s
  | .actionPin entry => Sys2Proof.Machine.execActionPin entry s
  | .segmentEnable src seg val => Sys2Proof.Machine.execSegmentEnable src seg val s
  | .nodeEnable src seg node val => Sys2Proof.Machine.execNodeEnable src seg node val s
  | .cinchStart seg => Sys2Proof.Machine.execCinchStart seg s
  | .inFrame seg frame => Sys2Proof.Machine.execInFrame seg frame s
  | .strangerFrame seg frame => Sys2Proof.Machine.execStrangerFrame seg frame s
  | .noise seg kind node => Sys2Proof.Machine.execNoise seg kind node s
  | .lampEnable src val => Sys2Proof.Machine.execLampEnable src val s
  | .frameTick => Sys2Proof.Machine.execFrameTick s
  | .pwmPeriod => Sys2Proof.Machine.execPwmPeriod s
  | .lampMeasurement chan row drainMv isense => Sys2Proof.Machine.execLampMeasurement chan row drainMv isense s
  | .diagStarved chan => Sys2Proof.Machine.execDiagStarved chan s
  | .lsyncEdge us => Sys2Proof.Machine.execLsyncEdge us s
  | .chainLatch => Sys2Proof.Machine.execChainLatch s
  | .lampSwap => Sys2Proof.Machine.execLampSwap s
  | .lampClear src chan val => Sys2Proof.Machine.execLampClear src chan val s
  | .powerOn spiQuad harnSide => Sys2Proof.Machine.execPowerOn spiQuad harnSide s
  | .wake cause => Sys2Proof.Machine.execWake cause s
  | .pgRise rise => Sys2Proof.Machine.execPgRise rise s
  | .settleExpiry => Sys2Proof.Machine.execSettleExpiry s
  | .seqTimeout => Sys2Proof.Machine.execSeqTimeout s
  | .seqFault code => Sys2Proof.Machine.execSeqFault code s
  | .brownOut low within10s => Sys2Proof.Machine.execBrownOut low within10s s
  | .brownOutRetry => Sys2Proof.Machine.execBrownOutRetry s
  | .stbyLoss => Sys2Proof.Machine.execStbyLoss s
  | .vbatLoss => Sys2Proof.Machine.execVbatLoss s
  | .resetN => Sys2Proof.Machine.execResetN s
  | .service => Sys2Proof.Machine.execService s
  | .ready => Sys2Proof.Machine.execReady s
  | .run => Sys2Proof.Machine.execRun s
  | .shutdown => Sys2Proof.Machine.execShutdown s
  | .cancel => Sys2Proof.Machine.execCancel s
  | .softReset => Sys2Proof.Machine.execSoftReset s
  | .blockRestart src val => Sys2Proof.Machine.execBlockRestart src val s
  | .blockRestarted => Sys2Proof.Machine.execBlockRestarted s
  | .bootDone a b testOk => Sys2Proof.Machine.execBootDone a b testOk s
  | .avsStep margins => Sys2Proof.Machine.execAvsStep margins s
  | .avsCheck back readMv => Sys2Proof.Machine.execAvsCheck back readMv s
  | .marginCrit => Sys2Proof.Machine.execMarginCrit s
  | .regAlert status => Sys2Proof.Machine.execRegAlert status s
  | .sensorSample sensor reading input => Sys2Proof.Machine.execSensorSample sensor reading input s
  | .bandChanged grp => Sys2Proof.Machine.execBandChanged grp s
  | .stepOn step => Sys2Proof.Machine.execStepOn step s
  | .stepOff step => Sys2Proof.Machine.execStepOff step s
  | .calRun src val => Sys2Proof.Machine.execCalRun src val s
  | .geoCommit src val => Sys2Proof.Machine.execGeoCommit src val s
  | .calInstanceStart => Sys2Proof.Machine.execCalInstanceStart s
  | .calResultFound result gain run vrefOk => Sys2Proof.Machine.execCalResultFound result gain run vrefOk s
  | .calDone => Sys2Proof.Machine.execCalDone s
  | .burnRun src val => Sys2Proof.Machine.execBurnRun src val s
  | .burnCancel src val => Sys2Proof.Machine.execBurnCancel src val s
  | .sliceDone pass => Sys2Proof.Machine.execSliceDone pass s
  | .guardedRequest src addr val => Sys2Proof.Machine.execGuardedRequest src addr val s
  | .presenceQualified pressAfterStart => Sys2Proof.Machine.execPresenceQualified pressAfterStart s
  | .presenceTimeout => Sys2Proof.Machine.execPresenceTimeout s
  | .guardCancel => Sys2Proof.Machine.execGuardCancel s
  | .keyLoad src val => Sys2Proof.Machine.execKeyLoad src val s
  | .erase src val => Sys2Proof.Machine.execErase src val s
  | .reseal src val closed => Sys2Proof.Machine.execReseal src val closed s
  | .revoke src val => Sys2Proof.Machine.execRevoke src val s
  | .minVer src val => Sys2Proof.Machine.execMinVer src val s
  | .hmac src val => Sys2Proof.Machine.execHmac src val s
  | .sealOpened => Sys2Proof.Machine.execSealOpened s
  | .debugUnlock src => Sys2Proof.Machine.execDebugUnlock src s
  | .program src val => Sys2Proof.Machine.execProgram src val s
  | .imgCommit src val => Sys2Proof.Machine.execImgCommit src val s
  | .pstoreWrite src val => Sys2Proof.Machine.execPstoreWrite src val s
  | .pstoreDone => Sys2Proof.Machine.execPstoreDone s
  | .ilkActive input => Sys2Proof.Machine.execIlkActive input s
  | .ilkMismatch => Sys2Proof.Machine.execIlkMismatch s
  | .harnEnable src val => Sys2Proof.Machine.execHarnEnable src val s
  | .leadSearch => Sys2Proof.Machine.execLeadSearch s
  | .join check => Sys2Proof.Machine.execJoin check s
  | .copyFlit data => Sys2Proof.Machine.execCopyFlit data s
  | .copyDone => Sys2Proof.Machine.execCopyDone s
  | .wheelReady => Sys2Proof.Machine.execWheelReady s
  | .leave => Sys2Proof.Machine.execLeave s
  | .resign src => Sys2Proof.Machine.execResign src s
  | .resigned => Sys2Proof.Machine.execResigned s
  | .forwardFlit place data => Sys2Proof.Machine.execForwardFlit place data s
  | .digestSend copy => Sys2Proof.Machine.execDigestSend copy s
  | .digestFlit copy words => Sys2Proof.Machine.execDigestFlit copy words s
  | .digestDue copy beat => Sys2Proof.Machine.execDigestDue copy beat s
  | .takeover => Sys2Proof.Machine.execTakeover s
  | .axisRest axis => Sys2Proof.Machine.execAxisRest axis s
  | .indexPulse axis axclk => Sys2Proof.Machine.execIndexPulse axis axclk s
  | .ilkReleased input => Sys2Proof.Machine.execIlkReleased input s
  | .pcieLinkUp speed width => Sys2Proof.Machine.execPcieLinkUp speed width s
  | .ethLinkChange port up speed => Sys2Proof.Machine.execEthLinkChange port up speed s
  | .groupAbsent grp => Sys2Proof.Machine.execGroupAbsent grp s
  | .rhWindowEnd chan => Sys2Proof.Machine.execRhWindowEnd chan s
  | .repeatEntryExpiry entry => Sys2Proof.Machine.execRepeatEntryExpiry entry s
  | .mr4Poll chan rate => Sys2Proof.Machine.execMr4Poll chan rate s
  | .gateTapTimeout => Sys2Proof.Machine.execGateTapTimeout s
  | .imgCmdDone hdr => Sys2Proof.Machine.execImgCmdDone hdr s
  | .transmitOpportunity seg => Sys2Proof.Machine.execTransmitOpportunity seg s
  | .debugInstruction ir => Sys2Proof.Machine.execDebugInstruction ir s

end Sys2Proof.Machine
end

