-- ==== Sys2Proof/Safety.lean ====
section
/-! DEFINITION. The terms in which claims are stated: which pieces of the state a command leaves as they are, and the
canonical form of the tables that the state holds. -/

namespace Sys2Proof.Machine

/-- The pieces of the state, one for each field of State. -/
inductive Piece where
  /-- State.part. -/
  | part
  /-- State.pending. -/
  | pending
  /-- State.stitch. -/
  | stitch
  /-- State.regs. -/
  | regs
  /-- State.staged. -/
  | staged
  /-- State.cmds. -/
  | cmds
  /-- State.holds. -/
  | holds
  /-- State.readData. -/
  | readData
  /-- State.resp. -/
  | resp
  /-- State.msix. -/
  | msix
  /-- State.fresh. -/
  | fresh
  /-- State.sb. -/
  | sb
  /-- State.cores. -/
  | cores
  /-- State.ctxs. -/
  | ctxs
  /-- State.wdog. -/
  | wdog
  /-- State.mem. -/
  | mem
  /-- State.badLines. -/
  | badLines
  /-- State.chans. -/
  | chans
  /-- State.repeatAge. -/
  | repeatAge
  /-- State.tclk. -/
  | tclk
  /-- State.emitEn. -/
  | emitEn
  /-- State.ain. -/
  | ain
  /-- State.spt. -/
  | spt
  /-- State.awls. -/
  | awls
  /-- State.reins. -/
  | reins
  /-- State.hide. -/
  | hide
  /-- State.tree. -/
  | tree
  /-- State.axes. -/
  | axes
  /-- State.skiver. -/
  | skiver
  /-- State.cams. -/
  | cams
  /-- State.bed. -/
  | bed
  /-- State.lanes. -/
  | lanes
  /-- State.board. -/
  | board
  /-- State.time. -/
  | time
  /-- State.segs. -/
  | segs
  /-- State.eths. -/
  | eths
  /-- State.lamp. -/
  | lamp
  /-- State.power. -/
  | power
  /-- State.therm. -/
  | therm
  /-- State.cal. -/
  | cal
  /-- State.burn. -/
  | burn
  /-- State.sec. -/
  | sec
  /-- State.harn. -/
  | harn
  /-- State.mark. -/
  | mark
  deriving DecidableEq, Repr

/-- `t` differs from `s` at most in the pieces that `ps` names. -/
def SameBut (ps : List Piece) (s t : State) : Prop :=
  (.part ∈ ps ∨ t.part = s.part) ∧
  (.pending ∈ ps ∨ t.pending = s.pending) ∧
  (.stitch ∈ ps ∨ t.stitch = s.stitch) ∧
  (.regs ∈ ps ∨ t.regs = s.regs) ∧
  (.staged ∈ ps ∨ t.staged = s.staged) ∧
  (.cmds ∈ ps ∨ t.cmds = s.cmds) ∧
  (.holds ∈ ps ∨ t.holds = s.holds) ∧
  (.readData ∈ ps ∨ t.readData = s.readData) ∧
  (.resp ∈ ps ∨ t.resp = s.resp) ∧
  (.msix ∈ ps ∨ t.msix = s.msix) ∧
  (.fresh ∈ ps ∨ t.fresh = s.fresh) ∧
  (.sb ∈ ps ∨ t.sb = s.sb) ∧
  (.cores ∈ ps ∨ t.cores = s.cores) ∧
  (.ctxs ∈ ps ∨ t.ctxs = s.ctxs) ∧
  (.wdog ∈ ps ∨ t.wdog = s.wdog) ∧
  (.mem ∈ ps ∨ t.mem = s.mem) ∧
  (.badLines ∈ ps ∨ t.badLines = s.badLines) ∧
  (.chans ∈ ps ∨ t.chans = s.chans) ∧
  (.repeatAge ∈ ps ∨ t.repeatAge = s.repeatAge) ∧
  (.tclk ∈ ps ∨ t.tclk = s.tclk) ∧
  (.emitEn ∈ ps ∨ t.emitEn = s.emitEn) ∧
  (.ain ∈ ps ∨ t.ain = s.ain) ∧
  (.spt ∈ ps ∨ t.spt = s.spt) ∧
  (.awls ∈ ps ∨ t.awls = s.awls) ∧
  (.reins ∈ ps ∨ t.reins = s.reins) ∧
  (.hide ∈ ps ∨ t.hide = s.hide) ∧
  (.tree ∈ ps ∨ t.tree = s.tree) ∧
  (.axes ∈ ps ∨ t.axes = s.axes) ∧
  (.skiver ∈ ps ∨ t.skiver = s.skiver) ∧
  (.cams ∈ ps ∨ t.cams = s.cams) ∧
  (.bed ∈ ps ∨ t.bed = s.bed) ∧
  (.lanes ∈ ps ∨ t.lanes = s.lanes) ∧
  (.board ∈ ps ∨ t.board = s.board) ∧
  (.time ∈ ps ∨ t.time = s.time) ∧
  (.segs ∈ ps ∨ t.segs = s.segs) ∧
  (.eths ∈ ps ∨ t.eths = s.eths) ∧
  (.lamp ∈ ps ∨ t.lamp = s.lamp) ∧
  (.power ∈ ps ∨ t.power = s.power) ∧
  (.therm ∈ ps ∨ t.therm = s.therm) ∧
  (.cal ∈ ps ∨ t.cal = s.cal) ∧
  (.burn ∈ ps ∨ t.burn = s.burn) ∧
  (.sec ∈ ps ∨ t.sec = s.sec) ∧
  (.harn ∈ ps ∨ t.harn = s.harn) ∧
  (.mark ∈ ps ∨ t.mark = s.mark)

/-- Every table of the state is in canonical form, so that equal contents are equal data. -/
structure State.Canon (s : State) : Prop where
  /-- Every register's value in force. -/
  regs : swf (resetWord s.part) s.regs = true
  /-- Written values of sh registers that have not committed. -/
  staged : swf (fun _ => none) s.staged = true
  /-- Consecutive held boundaries of the seven groups of STCH_HOLD. -/
  holds : swf (fun _ => 0) s.holds = true
  /-- Tack cores by number. -/
  cores : swf (fun _ => Core.idle) s.cores = true
  /-- Contexts by core × 16 + context. -/
  ctxs : swf (fun _ => Ctx.atReset) s.ctxs = true
  /-- DRAM. -/
  mem : Memory.wf s.mem = true
  /-- DRAM lines stored with the poison mark. -/
  badLines : swf (fun _ => false) s.badLines = true
  /-- DRAM channels. -/
  chans : swf (fun _ => DmcChan.off) s.chans = true
  /-- Awls by slot. -/
  awls : swf (fun _ => Awl.atReset) s.awls = true
  /-- Reins by slot. -/
  reins : swf (fun _ => Rein.atReset) s.reins = true
  /-- Axis engines by number. -/
  axes : swf (fun _ => Axis.atReset) s.axes = true
  /-- Camera sources by pipe × 8 + source. -/
  cams : swf (fun _ => Cam.atReset) s.cams = true
  /-- Latigo lanes by number. -/
  lanes : swf (fun _ => Lane.atReset) s.lanes = true
  /-- The board equalisation table in the parameter store. -/
  board : swf (fun _ => 0xFFFFFFFF) s.board = true
  /-- Field-bus segments. -/
  segs : swf (fun _ => Segment.atReset) s.segs = true
  /-- Ethernet ports. -/
  eths : swf (fun _ => ⟨[]⟩) s.eths = true
  /-- Streams by number. -/
  streams : swf (fun _ => Stream.never) s.sb.streams = true

/-- The registers that an event or a queue operation can change on its way: the refusals of a requester, the status and the
counts of a queue, and the pending bits of the messages. -/
def EventReg (a : Nat) : Prop :=
  (0x01A01400 ≤ a ∧ a < 0x01A01800) ∨ (0x01A10000 ≤ a ∧ a < 0x01A20000) ∨ (0x01F11000 ≤ a ∧ a < 0x01F11020)

/-- A write by `src` reaches the register at `a` at once: the core domain runs, the window is mapped for the host (R390), the
unit is on the part and not under restart (R4, R387), and for the host the device is neither a wheel nor the lead of a pair
(R427). -/
def State.Reaches (s : State) (src : Source) (a : Nat) : Prop :=
  s.coreUp = true ∧
  (src = .host → s.mapped a = true ∧ (s.isWheel = true → wheelTakes a = true) ∧ s.leadsPair = false) ∧
  s.unitThere a = true ∧ s.underRestart a = false

/-- The pair that a command of the retry buffer stores. -/
def RetryCmd.stores : RetryCmd → List WqEntry
  | .write e => [e]
  | _ => []

/-- A command is carried out: exec answers a next state, of which `P` holds. -/
def Answers (i : Instr) (s : State) (P : State → Prop) : Prop := ∃ t, exec i s = .next t ∧ P t

/-- Every register but those of a list, and but those that an event can change, is as it was. -/
def RegsBut (l : List Nat) (s t : State) : Prop := ∀ a, a ∉ l → ¬ EventReg a → t.reg a = s.reg a

/-- What a write of `v` leaves of a field of the register at `a` (R11): `s` before the write, `t` after it. -/
def FieldTaken (f : FieldDesc) (v : Word) (a : Nat) (s t : State) : Prop :=
  let bits := fun w : Word => getBits w f.hi f.lo
  match f.acc with
  | .rw => bits (t.reg a) = bits v
  | .cfg => bits (t.reg a) = bits v
  | .w1c => bits (t.reg a) = bits (s.reg a &&& ~~~v)
  | .w1s => bits (t.reg a) = bits (s.reg a ||| v)
  | .sh => bits (t.reg a) = bits (s.reg a) ∧ bits (t.written a) = bits v
  | .cam => bits (t.reg a) = bits (s.reg a) ∧ bits (t.written a) = bits v
  | .pipe => bits (t.reg a) = bits (s.reg a) ∧ bits (t.written a) = bits v
  | .ro => bits (t.reg a) = bits (s.reg a)
  | .wo => bits (t.reg a) = bits (s.reg a)
  | .rc => bits (t.reg a) = bits (s.reg a)
  | .gd => bits (t.reg a) = bits (s.reg a)

/-- The registers that an access event can change beside those of its queue (R22). -/
def AccRegs : List Nat := [R.SYS_ACC_INFO, R.SYS_ACC_ADDR_LO, R.SYS_ACC_ADDR_HI]

/-- Every register but those at places of which `P` holds, and but those that an event can change, is as it was. -/
def RegsWhere (P : Place → Prop) (s t : State) : Prop :=
  ∀ a, (∀ pl, placeOf a = some pl → ¬ P pl) → ¬ EventReg a → t.reg a = s.reg a

/-- Of a kind of unit, every one but that of a number is as it was. -/
def ButAt {α : Type} (get : State → Nat → α) (k : Nat) (s t : State) : Prop := ∀ j, j ≠ k → get t j = get s j

/-- Every context but one is as it was. -/
def CtxsBut (core c : Nat) (s t : State) : Prop := ∀ k d, 16 * k + d ≠ 16 * core + c → t.ctx k d = s.ctx k d

/-- Every stream but one, and but the queue that the Saddlebag's own events go to, is as it was. -/
def StreamsBut (key : Nat) (s t : State) : Prop :=
  ∀ j, j ≠ key → s.namedQueue (s.reg R.SB_EVQ) ≠ some j → t.stream j = s.stream j

/-- No written value but that of a register waits otherwise than before. -/
def StagedBut (l : List Nat) (s t : State) : Prop := ∀ a, a ∉ l → sget none t.staged a = sget none s.staged a

/-- A packet of `n` words from a requester of the device goes whole into the queue of a handle: the queue is live and resident and
has room, no packet of that requester is open or cut in it, and the Saddlebag's own events do not go there. -/
structure State.Takes (s : State) (req : Nat) (h : Word) (n key : Nat) : Prop where
  /-- The queue. -/
  live : s.namedQueue h = some key
  /-- There is room. -/
  room : s.hasRoom h n = true
  /-- Its words stay in the Saddlebag. -/
  resident : (s.stream key).spill = false
  /-- No packet of the requester is open. -/
  closed : findOpen (deviceProducer req) (s.stream key).opens = none
  /-- None is cut. -/
  whole : deviceProducer req ∉ (s.stream key).cut
  /-- Threshold events go elsewhere. -/
  apart : s.namedQueue (s.reg R.SB_EVQ) ≠ some key

/-- What R44 to R46, R68 and R69 say every context keeps: word addresses, at most 8 calls and 2 loops, and g0 never written. -/
structure Ctx.Legal (x : Ctx) : Prop where
  /-- The PC. -/
  pc : x.pc.toNat % 4 = 0
  /-- The entry. -/
  entry : x.entry.toNat % 4 = 0
  /-- The handler. -/
  trapvec : x.trapvec.toNat % 4 = 0
  /-- The return addresses. -/
  calls : ∀ a ∈ x.calls, a.toNat % 4 = 0
  /-- At most 8 calls. -/
  depth : x.calls.length ≤ 8
  /-- At most 2 loops. -/
  nest : x.loops.length ≤ 2
  /-- Where the bodies of loops begin. -/
  starts : ∀ l ∈ x.loops, l.start % 4 = 0
  /-- g0 holds nothing. -/
  zero : sget 0 x.g 0 = 0

/-- Every context is legal. -/
def State.ContextsLegal (s : State) : Prop := ∀ core c, (s.ctx core c).Legal

/-! ## Adtuak -/

/-- The instruction `o`, in the word `w`, of context `c` issues on a core now and completes within its slot `sl` (R44, R47, R49,
R59, R61, R71, R75): the word at the PC is in the partition and has no memory error, its guard passes, it waits for nothing, it
fits the slot, and no earlier operation completes before its last cycle has passed. -/
structure State.Issues (s : State) (core c : Nat) (o : Adt) (w : Word) (sl : Slot) : Prop where
  /-- The core runs. -/
  runs : s.coresRun core = true
  /-- The slot that runs. -/
  slot : s.runningSlot core = some sl
  /-- Its context. -/
  owner : sl.ctx = c
  /-- The PC lies in the instruction partition. -/
  inside : inPartition (s.ctx core c).iFirst (s.ctx core c).iLast (s.ctx core c).pc.toNat = true
  /-- The word at the PC. -/
  word : (sget (PWord.clean 0) (s.core core).imem ((s.ctx core c).pc.toNat / 4)).val = w
  /-- It has no memory error. -/
  clean : (sget (PWord.clean 0) (s.core core).imem ((s.ctx core c).pc.toNat / 4)).err = .clean
  /-- It names the operation. -/
  names : adtOf w = some o
  /-- Its guard passes. -/
  guard : (s.ctx core c).guardPasses w = true
  /-- It waits for nothing. -/
  ready : s.readyAt core c o w ≤ (s.core core).cyc
  /-- Its cycles lie within the slot. -/
  fits : (s.core core).cyc + o.cost ≤ sl.stop
  /-- Nothing completes up to its end. -/
  quiet : ∀ e ∈ s.dueList core, (((s.core core).cyc + o.cost : Nat) : Int) < e.1

/-- From `s` to `t` a core has spent `n` cycles on one of its contexts: its cycle count and that context changed, and nothing
else. -/
structure Ran (s t : State) (core c n : Nat) : Prop where
  /-- Every other piece of the state. -/
  rest : SameBut [.cores, .ctxs] s t
  /-- The cycles. -/
  cycles : t.core core = { s.core core with cyc := (s.core core).cyc + n }
  /-- The other cores. -/
  cores : ∀ k, k ≠ core → t.core k = s.core k
  /-- The other contexts. -/
  ctxs : ∀ k d, 16 * k + d ≠ 16 * core + c → t.ctx k d = s.ctx k d

/-- From `x` to `y` a context went on with the next instruction, with bits of STAT set, and wrote a general register and its
poison bit: g0 takes nothing. -/
structure WroteG (x y : Ctx) (k : Nat) (v : Word) (poison : Bool) (stat : Word) : Prop where
  /-- The register. -/
  val : y.rd k = if k = 0 then 0 else v
  /-- Its poison. -/
  bad : y.gPoisoned k = (k != 0 && poison)
  /-- The other registers. -/
  others : ∀ j, j ≠ k → j < 32 → y.rd j = x.rd j ∧ y.gPoisoned j = x.gPoisoned j
  /-- STAT, the PC and the loops, and nothing else. -/
  rest : y = { x with g := y.g, gpois := y.gpois, stat := x.stat ||| stat, pc := x.next.pc, loops := x.next.loops }

/-- The same of a predicate. -/
structure WroteP (x y : Ctx) (k : Nat) (b : Bool) : Prop where
  /-- The predicate. -/
  val : y.pred k = b
  /-- The others. -/
  others : ∀ j, j ≠ k → j < 4 → y.pred j = x.pred j
  /-- The PC and the loops, and nothing else. -/
  rest : y = { x with p := y.p, pc := x.next.pc, loops := x.next.loops }

/-- The same of a vector register with its lanes. -/
structure WroteV (x y : Ctx) (k : Nat) (f : Nat → BitVec 16) (poison : Bool) (stat : Word) : Prop where
  /-- The lanes. -/
  val : ∀ i, i < 4 → vlane (y.vrd k) i = f i
  /-- Its poison. -/
  bad : y.vPoisoned k = poison
  /-- The other registers. -/
  others : ∀ j, j ≠ k → j < 8 → y.vrd j = x.vrd j ∧ y.vPoisoned j = x.vPoisoned j
  /-- STAT, the PC and the loops, and nothing else. -/
  rest : y = { x with v := y.v, vpois := y.vpois, stat := x.stat ||| stat, pc := x.next.pc, loops := x.next.loops }

/-- A general register without poison, or g0. -/
def Ctx.Clean (x : Ctx) (k : Nat) : Prop := x.gPoisoned k = false

/-- As Ran, with local data words of the core written besides, those of a list of byte addresses. -/
structure RanMem (s t : State) (core c n : Nat) (at4 : List Nat) : Prop where
  /-- Every other piece of the state. -/
  rest : SameBut [.cores, .ctxs] s t
  /-- The cycles. -/
  cycles : t.core core = { s.core core with cyc := (s.core core).cyc + n, dmem := (t.core core).dmem }
  /-- The data words. -/
  words : ∀ a, (∀ b ∈ at4, a / 4 ≠ b / 4) → t.dword core a = s.dword core a
  /-- The other cores. -/
  cores : ∀ k, k ≠ core → t.core k = s.core k
  /-- The other contexts. -/
  ctxs : ∀ k d, 16 * k + d ≠ 16 * core + c → t.ctx k d = s.ctx k d

/-- The base of a local access of `n` bytes at `a` is clean and the address fits the partition and the access (R58, R74). -/
structure Ctx.Reaches (x : Ctx) (w : Word) (n a : Nat) : Prop where
  /-- The base. -/
  base : x.Clean (raField w)
  /-- The address. -/
  addr : (x.a w + simm12 w).toNat = a
  /-- In the partition. -/
  inside : inPartition x.dFirst x.dLast a = true
  /-- Aligned. -/
  aligned : a % n = 0

/-- A data word after a read has corrected its single-bit error (R59). -/
def corrected (p : PWord) : PWord := if p.err = .single then { p with err := .clean } else p

/-- Whether a read of a data word delivers poison (R59, R74). -/
def poisoned (p : PWord) : Bool := p.poison || p.err == .double

/-- The core domain was reset (R385 to R388): fields of token rank `lvl` and above keep their values, and of what the domain holds
beside its registers only what survives is left; `l` names the registers of which more is to be said. -/
structure State.WasReset (s t : State) (lvl : Nat) (l : List Nat) : Prop where
  /-- Every other piece is as reset leaves it. -/
  rest : SameBut [.part, .pending, .fresh, .readData, .resp, .regs, .sb, .cores, .chans, .board, .time, .power, .cal, .sec,
    .harn] State.reset t
  /-- The device itself and its bus. -/
  device : t.part = s.part ∧ t.pending = s.pending ∧ t.board = s.board ∧ t.readData = s.readData ∧ t.resp = s.resp
  /-- The registers. -/
  regs : ∀ a, a ∉ l → a ∉ [R.SEC_STATE, R.SB_CLASS_USED 0, R.SB_CLASS_USED 1, R.SB_CLASS_USED 2, R.SB_CLASS_USED 3] →
    ¬ EventReg a → t.reg a = survive s.part lvl a (s.reg a)
  /-- No page is charged. -/
  charged : ∀ c, c < 4 → t.fld (F.SB_CLASS_USED_PAGES c) = 0
  /-- The levels of the interlock pins. -/
  pins : t.fld F.SEC_STATE_ILK_A = s.fld F.SEC_STATE_ILK_A ∧ t.fld F.SEC_STATE_ILK_B = s.fld F.SEC_STATE_ILK_B ∧
    t.fld F.SEC_STATE_LOOP_OPEN = s.fld F.SEC_STATE_LOOP_OPEN
  /-- Streams: none lives, and generations survive what keeps the core domain's power. -/
  streams : ∀ key, t.stream key = { Stream.never with gen := if lvl ≤ 4 then (s.stream key).gen else 0 }
  /-- The rest of the Saddlebag. -/
  saddle : t.sb = { Saddle.empty with streams := t.sb.streams, remaps := s.sb.remaps }
  /-- The memories of the cores. -/
  memories : ∀ k, (t.core k).imem = (if lvl ≤ 4 then (s.core k).imem else []) ∧
    (t.core k).dmem = if lvl ≤ 4 then (s.core k).dmem else []
  /-- DRAM channels keep their remapped rows. -/
  channels : ∀ c, t.chan c = { DmcChan.off with remaps := (s.chan c).remaps }
  /-- Time runs on through what keeps the clock. -/
  time : t.time = if lvl ≤ 3 then { TimeBlock.atReset with tb := s.time.tb, adj := s.time.adj } else TimeBlock.atReset
  /-- Calibration records. -/
  records : t.cal = { Cal.atReset with accepted := s.cal.accepted, recs := s.cal.recs, lastTemp := s.cal.lastTemp }
  /-- Secrets, the parameter store and the flash. -/
  secrets : t.sec = { Sec.atReset with secrets := s.sec.secrets, user := s.sec.user, wear := s.sec.wear, flash := s.sec.flash }
  /-- The harness. -/
  harness : t.harn = { Harn.atReset with beat := s.harn.beat }

/-- What the power manager holds of a core domain that was reset. -/
def Power.cleared (p : Power) : Power :=
  { p with
    shutting := false, target := 750, checking := true, fails := 0, good := 0, margin := none, restarts := [], recovery := false }

end Sys2Proof.Machine
end

