-- ==== Sys2Proof/Certificates/Slice0/Obligations.lean ====
section
/-! DEFINITION. The statements for the provers. -/

open Sys2Proof Sys2Proof.Machine

/-! ## The machine -/

/-- A step carries out the command at the front of the queue, on the state that holds the rest of it; with nothing waiting the
block idles (the model's choice, log entry 1). -/
def Obligations.StepRunsTheFront : Prop :=
  (∀ (s : State) (c : Instr) (q : List Instr), s.pending = c :: q → step s = exec c { s with pending := q }) ∧
  (∀ s : State, s.pending = [] → step s = .next s)

/-- At reset every table is in canonical form, no command waits, the Stitch counter is 0, the period is 320 TCLK, and every
slot table is empty except that of TC32, which holds one slot of 1,600 cycles for c0 (R82). -/
def Obligations.ResetState : Prop :=
  State.reset.Canon ∧ State.reset.pending = [] ∧ State.reset.stitch = 0 ∧ State.reset.period = 320 ∧
  (∀ k, (State.reset.core k).table = if k = 32 then [⟨0, 0, 1600⟩] else []) ∧
  State.reset.fld (F.TC_TABLE_CTRL_END 32) = 0x640

/-- Every step keeps every table of the state in canonical form: keys rise strictly and nothing is listed that reads as an
unlisted key does; the registers, the DRAM, the streams and the state of every unit. -/
def Obligations.StepKeepsCanonicalForm : Prop :=
  ∀ s t : State, s.Canon → step s = .next t → t.Canon

/-- Every command is carried out in every state, and changes neither which part the device is (R1, R3) nor the queue of the commands
that wait. -/
def Obligations.CommandsKeepPartAndQueue : Prop :=
  ∀ (i : Instr) (s : State), Answers i s fun t => t.part = s.part ∧ t.pending = s.pending

/-- In every step every context stays legal: its PC, its entry, its return addresses and its handler are word addresses, g0 is
never written, and its stacks keep to 8 calls and 2 loops (R44, R45, R46, R68, R69). -/
def Obligations.StepKeepsContextsLegal : Prop :=
  ∀ s t : State, s.ContextsLegal → step s = .next t → t.ContextsLegal

/-! ## Accesses and the Stitch -/

/-- An access to a unit that the part lacks reads 0xDEAD0000, or zero at an identity register, and is recorded as the first
access event when none is; a write that binds a queue there is refused with ABSENT_UNIT (R4, R22, R65).
An access to a BAR0 hole: a read returns 0xDEAD0000, a write is discarded, and UNMAPPED is recorded with the offset (R21,
R22). -/
def Obligations.AbsentAndHoles : Prop :=
  (
  ∀ (s : State) (src : Source) (addr : Word), s.coreUp = true → (src = .host → s.mapped addr.toNat = true) →
    s.unitThere addr.toNat = false →
    (∀ v, Answers (.absentUnitAccess src addr (some v)) s fun t =>
      RegsBut [R.SYS_ACC_INFO, R.SYS_ACC_ADDR_LO, R.SYS_ACC_ADDR_HI] s t ∧
      (isHandleReg addr.toNat = true → v ≠ 0 → t.resp.code = 6) ∧
      (s.flag F.SYS_ACC_INFO_VALID = false → t.flag F.SYS_ACC_INFO_VALID = true ∧ t.fld F.SYS_ACC_INFO_CODE = 1 ∧
        t.reg R.SYS_ACC_ADDR_LO = addr)) ∧
    Answers (.absentUnitAccess src addr none) s fun t =>
      t.readData = (if isIdentity addr.toNat then 0 else 0xDEAD0000) ∧
      (s.flag F.SYS_ACC_INFO_VALID = false → t.fld F.SYS_ACC_INFO_CODE = 1)) ∧
  (
  ∀ (s : State) (src : Source) (off : BitVec 64) (wr : Option Word), s.coreUp = true →
    s.bar0Dead src off.toNat = true →
    Answers (.holeAccess src .b0 off wr) s fun t =>
      (wr = none → t.readData = 0xDEAD0000) ∧
      RegsBut [R.SYS_ACC_INFO, R.SYS_ACC_ADDR_LO, R.SYS_ACC_ADDR_HI] s t ∧
      (s.flag F.SYS_ACC_INFO_VALID = false → t.fld F.SYS_ACC_INFO_CODE = 2 ∧ t.reg R.SYS_ACC_ADDR_LO = off.truncate 32 ∧
        t.fld F.SYS_ACC_INFO_SOURCE = srcCode src))

/-- Every register write and every read is carried out. A write that reaches a register which only takes its fields, in a state in
which its unit accepts configuration, leaves each field as its access code says, a shadowed one with the written value waiting,
and the bits outside every field as they are; a unit under restart and a wheel turn a write away with BUSY_WRITE, and at the lead
of a pair a host's write waits. A read returns each field, a reserved bit as zero, and clears the rc fields; a read of
STCH_COUNT_LO copies the high half of the Stitch count; the lamp memory and a unit under restart are read as their rules say (R10,
R11, R28, R37, R387, R427). -/
def Obligations.RegisterAccess : Prop :=
  (∀ (s : State) (src : Source) (addr v : Word), Answers (.registerWrite src addr v) s fun t =>
    t.stitch = s.stitch ∧ t.period = s.period ∧ t.ctxs = s.ctxs ∧ t.mem = s.mem ∧ t.awls = s.awls ∧ t.tree = s.tree ∧
    t.emitEn = s.emitEn ∧ t.power = s.power ∧ (s.coreUp = false → t = s)) ∧
  (∀ (s : State) (src : Source) (addr v : Word), s.Reaches src addr.toNat →
    s.regWrite src addr.toNat v = s.writePlain src addr.toNat v →
    ∀ e, s.regHere addr.toNat = some e → s.acceptsCfg e.1 = true →
    Answers (.registerWrite src addr v) s fun t =>
      (∀ f ∈ e.2.flds, FieldTaken f v addr.toNat s t) ∧
      (∀ i, (∀ f ∈ e.2.flds, i < f.lo ∨ f.hi < i) → (t.reg addr.toNat).getLsbD i = (s.reg addr.toNat).getLsbD i) ∧
      RegsBut [addr.toNat] s t ∧ StagedBut [addr.toNat] s t ∧ SameBut [.regs, .staged, .sb] s t) ∧
  (∀ (s : State) (src : Source) (addr v : Word), s.coreUp = true → s.unitThere addr.toNat = true →
    (src = .host → s.mapped addr.toNat = true) →
    (src = .host → s.isWheel = true → wheelTakes addr.toNat = false →
      Answers (.registerWrite src addr v) s fun t => RegsBut AccRegs s t ∧
        (s.flag F.SYS_ACC_INFO_VALID = false → t.fld F.SYS_ACC_INFO_CODE = 3 ∧ t.reg R.SYS_ACC_ADDR_LO = addr)) ∧
    (src = .host → (s.isWheel = true → wheelTakes addr.toNat = true) → s.leadsPair = true →
      Answers (.registerWrite src addr v) s fun t =>
        t.harn.forwards = s.harn.forwards ++ [.bar0 addr v] ∧ SameBut [.harn] s t) ∧
    ((src = .host → (s.isWheel = true → wheelTakes addr.toNat = true) ∧ s.leadsPair = false) → s.underRestart addr.toNat = true →
      Answers (.registerWrite src addr v) s fun t => RegsBut AccRegs s t ∧
        (s.flag F.SYS_ACC_INFO_VALID = false → t.fld F.SYS_ACC_INFO_CODE = 3 ∧ t.reg R.SYS_ACC_ADDR_LO = addr)) ∧
    (s.underRestart addr.toNat = true → Answers (.readClear src addr) s fun t =>
      t.readData = resetWord s.part addr.toNat ∧ SameBut [.readData] s t)) ∧
  (∀ (s : State) (src : Source) (addr : Word), Answers (.readClear src addr) s fun t =>
    t.stitch = s.stitch ∧ t.staged = s.staged ∧ t.cmds = s.cmds ∧ t.mem = s.mem ∧ SameBut [.regs, .readData, .resp, .msix, .fresh, .sb] s t) ∧
  (∀ (s : State) (src : Source) (addr : Word), s.Reaches src addr.toNat → addr.toNat ≠ R.STCH_COUNT_LO →
    inLampMem addr.toNat = false → inImgBuf addr.toNat = false → ∀ e, s.regHere addr.toNat = some e →
    ¬ (e.1.blk = .time ∧ e.1.off < 0x40 ∧ e.1.off % 0x10 = 0) →
    Answers (.readClear src addr) s fun t =>
      (∀ f ∈ e.2.flds, f.acc ≠ .wo → getBits t.readData f.hi f.lo =
        (if f.acc = .sh ∨ f.acc = .cam ∨ f.acc = .pipe then getBits (s.written addr.toNat) f.hi f.lo
          else getBits (s.shown e.1 addr.toNat) f.hi f.lo)) ∧
      (∀ i, (∀ f ∈ e.2.flds, i < f.lo ∨ f.hi < i) → t.readData.getLsbD i = false) ∧
      (∀ f ∈ e.2.flds, getBits (t.reg addr.toNat) f.hi f.lo = if f.acc = .rc then 0 else getBits (s.reg addr.toNat) f.hi f.lo) ∧
      RegsBut [addr.toNat] s t ∧ SameBut [.regs, .readData] s t) ∧
  (∀ (s : State) (src : Source) (addr : Word), s.Reaches src addr.toNat → inLampMem addr.toNat = true →
    Answers (.readClear src addr) s fun t => t.readData = s.readLampMem addr.toNat ∧ SameBut [.readData] s t) ∧
  (∀ (s : State) (src : Source) (addr : Word), s.Reaches src addr.toNat → inLampMem addr.toNat = false →
    inImgBuf addr.toNat = true → Answers (.readClear src addr) s fun t =>
      t.readData = sget 0 s.sec.imgBuf ((addr.toNat - 0x02710000) / 4) ∧ SameBut [.readData] s t) ∧
  (∀ (s : State) (src : Source), Answers (.stchCountRead src) s fun t =>
    (s.Reaches src R.STCH_COUNT_LO →
      t.readData = s.stitch.truncate 32 ∧ t.reg R.STCH_COUNT_HI = (s.stitch >>> 32).truncate 32) ∧
    RegsBut (R.STCH_COUNT_HI :: AccRegs) s t ∧ SameBut [.regs, .readData, .resp, .msix, .sb] s t)

/-- At a boundary the Stitch counter goes on by one and the TCLK count by the period of the Stitch that ended (R26, R28), unless a
command to the power manager waits once the Stitch has ended: that one may reset the counter. -/
def Obligations.BoundaryCounts : Prop :=
  ∀ (s : State) (inp : BoundaryIn), s.coreUp = true → s.endOfStitch.cmds.filter isPwrCmd = [] →
    Answers (.stitchBoundary inp) s fun t => t.stitch = s.stitch + 1 ∧ t.tclk = s.tclk + s.period ∧ t.pending = s.pending

/-- A write of STCH_PERIOD is checked in order: zero, the range, work that runs, the slot tables; the first check that fails
is recorded and nothing is staged, and a value that passes all waits for its boundary (R34). -/
def Obligations.PeriodWriteIsChecked : Prop :=
  ∀ (s : State) (src : Source) (v : Word), s.Reaches src R.STCH_PERIOD →
    let n := getBits v 10 0
    let busy := ((List.range s.part.row.lasers).any fun k => s.strokeRuns k) = true ∨
      ((List.range s.part.row.axes).any fun x => ((s.axis x).running s.axNow).isSome) = true ∨ s.periodPending = true
    let isOver := ((List.range 40).any fun k => s.part.hasCore k && decide (5 * n < s.tableWorst k)) = true
    let low := s.fld F.STCH_STATUS_PERIOD_MIN
    Answers (.stchPeriodWrite src v) s fun t =>
      (n = 0 → t.fld F.STCH_STATUS_RESULT = 1 ∧ SameBut [.regs] s t) ∧
      (n ≠ 0 → (n < low ∨ 1280 < n) → t.fld F.STCH_STATUS_RESULT = 2 ∧ SameBut [.regs] s t) ∧
      (n ≠ 0 → low ≤ n → n ≤ 1280 → busy → t.fld F.STCH_STATUS_RESULT = 3 ∧ SameBut [.regs] s t) ∧
      (n ≠ 0 → low ≤ n → n ≤ 1280 → ¬ busy → isOver → t.fld F.STCH_STATUS_RESULT = 4 ∧ SameBut [.regs] s t) ∧
      (n ≠ 0 → low ≤ n → n ≤ 1280 → ¬ busy → ¬ isOver → t.fld F.STCH_STATUS_RESULT = 0 ∧ t.fld F.STCH_STATUS_PENDING = 1 ∧
        t.written R.STCH_PERIOD = w32 n) ∧
      t.reg R.STCH_PERIOD = s.reg R.STCH_PERIOD ∧ RegsBut [R.STCH_STATUS] s t ∧ SameBut [.regs, .staged] s t

/-- Holds (R39, R40): a write of STCH_HOLD takes the seven bits at once, but with a limit of zero a write that sets a bit has
no effect and sets ZERO_LEN; a group held for the limit is released with HOLD_EXPIRED. -/
def Obligations.GroupHolds : Prop :=
  (∀ (s : State) (src : Source) (v : Word), s.Reaches src R.STCH_HOLD →
    Answers (.stchHoldWrite src v) s fun t =>
      (s.fld F.STCH_HOLD_LIMIT_STITCHES = 0 → (v &&& 0x7F) &&& ~~~(s.reg R.STCH_HOLD) ≠ 0 →
        t.reg R.STCH_HOLD = s.reg R.STCH_HOLD ∧ t.fld F.STCH_STATUS_ZERO_LEN = 1) ∧
      (s.fld F.STCH_HOLD_LIMIT_STITCHES ≠ 0 ∨ (v &&& 0x7F) &&& ~~~(s.reg R.STCH_HOLD) = 0 → t.reg R.STCH_HOLD = v &&& 0x7F) ∧
      RegsBut [R.STCH_HOLD, R.STCH_STATUS] s t ∧ SameBut [.regs] s t) ∧
  (∀ (s : State) (g : Nat), g < 7 → s.holdOn g = true → s.fld F.STCH_HOLD_LIMIT_STITCHES ≤ sget 0 s.holds g →
    Answers (.holdExpired g) s fun t =>
      t.holdOn g = false ∧ (∀ h, h ≠ g → h < 7 → t.holdOn h = s.holdOn h) ∧ t.fld F.STCH_EVENT_HOLD_EXPIRED = 1 ∧
      RegsBut [R.STCH_HOLD, R.STCH_EVENT] s t ∧ SameBut [.regs] s t)

/-- A late input is discarded, counted in STCH_LATE_CNT and raises LATE_INPUT (R42); an early one is discarded, counted in
STCH_EARLY_CNT and raises EARLY_INPUT, and a READY lane it came on goes to RECOVERY (R43). -/
def Obligations.LateAndEarlyInputs : Prop :=
  (∀ s : State, Answers .lateInput s fun t =>
    (t.reg R.STCH_LATE_CNT).toNat = min 0xFFFFFFFF ((s.reg R.STCH_LATE_CNT).toNat + 1) ∧
    t.fld F.STCH_EVENT_LATE_INPUT = 1 ∧ RegsBut [R.STCH_LATE_CNT, R.STCH_EVENT] s t ∧ SameBut [.regs] s t) ∧
  (∀ (s : State) (k : Nat), Answers (.earlyInput k) s fun t =>
    (t.reg R.STCH_EARLY_CNT).toNat = min 0xFFFFFFFF ((s.reg R.STCH_EARLY_CNT).toNat + 1) ∧
    t.fld F.STCH_EVENT_EARLY_INPUT = 1 ∧ t.laneLost k 4 = true ∧
    (t.laneState k = laneReady → Answers (.laneDown k 4) t fun u => u.laneState k = laneRecovery) ∧ (∀ j, j ≠ k → t.lane j = s.lane j) ∧
    RegsBut [R.STCH_EARLY_CNT, R.STCH_EVENT] s t ∧ SameBut [.regs, .lanes] s t)

/-! ## Adtuak -/

/-- The wrapping, logical, shift and compare-select instructions of the ALU group take ra and rb, one cycle each but for the
multiplies, which take three: the result goes to rd, poisoned as its operands are, and STAT does not change (R51, R74, R75).
The saturating and dividing instructions of the ALU group: ADDS, SUBS and MULQ hold the exact value to 32 bits and set
STAT.SAT when they clip, MULQ after rounding half away from zero; ABS of 0x80000000 and PSCL clip likewise; a division by zero
gives the largest value of the dividend's sign, or 0xFFFFFFFF, and sets STAT.DZ (R51, R55 to R57). -/
def Obligations.AluInstructions : Prop :=
  (
  ∀ (s : State) (core c : Nat) (w : Word) (sl : Slot),
  let x := s.ctx core c
  ∀ e ∈ ([(Instr.add, Adt.add, 1, fun a b => a + b), (Instr.sub, Adt.sub, 1, fun a b => a - b),
      (Instr.and, Adt.and, 1, fun a b => a &&& b), (Instr.or, Adt.or, 1, fun a b => a ||| b),
      (Instr.xor, Adt.xor, 1, fun a b => a ^^^ b), (Instr.shl, Adt.shl, 1, fun a b => a <<< (b.toNat % 32)),
      (Instr.shr, Adt.shr, 1, fun a b => a >>> (b.toNat % 32)),
      (Instr.sar, Adt.sar, 1, fun a b => a.sshiftRight (b.toNat % 32)),
      (Instr.min, Adt.min, 1, fun a b => if b.slt a then b else a), (Instr.max, Adt.max, 1, fun a b => if a.slt b then b else a),
      (Instr.minu, Adt.minu, 1, fun a b => if b < a then b else a), (Instr.maxu, Adt.maxu, 1, fun a b => if a < b then b else a),
      (Instr.clz, Adt.clz, 1, fun a _ => if a = 0 then 32 else w32 (31 - a.toNat.log2)),
      (Instr.mul, Adt.mul, 3, fun a b => a * b),
      (Instr.mulh, Adt.mulh, 3, fun a b => BitVec.ofInt 32 (a.toInt * b.toInt / 2 ^ 32)),
      (Instr.mulhu, Adt.mulhu, 3, fun a b => w32 (a.toNat * b.toNat / 2 ^ 32))] :
      List ((Nat → Instr) × Adt × Nat × (Word → Word → Word))),
    s.Issues core c e.2.1 w sl →
    Answers (e.1 core) s fun t => Ran s t core c e.2.2.1 ∧
      WroteG x (t.ctx core c) (rdField w) (e.2.2.2 (x.a w) (x.b w)) (x.gPoisoned (raField w) || x.gPoisoned (rbField w)) 0) ∧
  (
  ∀ (s : State) (core c : Nat) (w : Word) (sl : Slot),
  let x := s.ctx core c
  let clip : Int → Word × Word := fun z =>
    if 2 ^ 31 ≤ z then (0x7FFFFFFF, statSat) else if z < -2 ^ 31 then (0x80000000, statSat) else (BitVec.ofInt 32 z, 0)
  ∀ e ∈ ([(Instr.adds, Adt.adds, 1, fun a b => clip (a.toInt + b.toInt)),
      (Instr.subs, Adt.subs, 1, fun a b => clip (a.toInt - b.toInt)),
      (Instr.abs, Adt.abs, 1, fun a _ => clip a.toInt.natAbs),
      (Instr.mulq, Adt.mulq, 3, fun a b =>
        let p := a.toInt * b.toInt
        clip (if 0 ≤ p then (p + 2 ^ 15) / 2 ^ 16 else -((-p + 2 ^ 15) / 2 ^ 16))),
      (Instr.pscl, Adt.pscl, 3, fun a b =>
        let r : Int := (getBits a 15 0 * b.toInt + 2 ^ 15) / 2 ^ 16
        if b.toInt < 0 then (0, statSat) else if 2 ^ 16 ≤ r then (0xFFFF, statSat) else (BitVec.ofInt 32 r, 0)),
      (Instr.div, Adt.div, 34, fun a b =>
        if b = 0 then (if a.toInt < 0 then 0x80000000 else 0x7FFFFFFF, statDz) else clip (a.toInt.tdiv b.toInt)),
      (Instr.divu, Adt.divu, 34, fun a b => if b = 0 then (0xFFFFFFFF, statDz) else (w32 (a.toNat / b.toNat), 0))] :
      List ((Nat → Instr) × Adt × Nat × (Word → Word → Word × Word))),
    s.Issues core c e.2.1 w sl →
    Answers (e.1 core) s fun t => Ran s t core c e.2.2.1 ∧
      WroteG x (t.ctx core c) (rdField w) (e.2.2.2 (x.a w) (x.b w)).1
        (x.gPoisoned (raField w) || x.gPoisoned (rbField w)) (e.2.2.2 (x.a w) (x.b w)).2)

/-- SEL takes ra or rb as its predicate says, with that register's poison; the immediate forms take ra and imm12, signed for
ADDI and zero-extended for the logical ones; LI loads a signed imm17 and clears the poison of rd; LHI and LLO replace one half of
rd (R50, R51, R74).
Compares of clean operands and predicate logic write one predicate (R50, R52). -/
def Obligations.ImmediatesAndPredicates : Prop :=
  (
  ∀ (s : State) (core c : Nat) (w : Word) (sl : Slot),
  let x := s.ctx core c
  (s.Issues core c .sel w sl → Answers (.sel core) s fun t => Ran s t core c 1 ∧
    let k := if x.pred (getBits w 1 0) = true then raField w else rbField w
    WroteG x (t.ctx core c) (rdField w) (x.rd k) (x.gPoisoned k) 0) ∧
  (∀ e ∈ ([(Instr.addi, Adt.addi, fun a => a + simm12 w), (Instr.andi, Adt.andi, fun a => a &&& zimm12 w),
      (Instr.ori, Adt.ori, fun a => a ||| zimm12 w), (Instr.xori, Adt.xori, fun a => a ^^^ zimm12 w),
      (Instr.shiShl, Adt.shiShl, fun a => a <<< (w.toNat % 32)), (Instr.shiShr, Adt.shiShr, fun a => a >>> (w.toNat % 32)),
      (Instr.shiSar, Adt.shiSar, fun a => a.sshiftRight (w.toNat % 32))] : List ((Nat → Instr) × Adt × (Word → Word))),
    s.Issues core c e.2.1 w sl → Answers (e.1 core) s fun t => Ran s t core c 1 ∧
      WroteG x (t.ctx core c) (rdField w) (e.2.2 (x.a w)) (x.gPoisoned (raField w)) 0) ∧
  (s.Issues core c .li w sl → Answers (.li core) s fun t => Ran s t core c 1 ∧
    WroteG x (t.ctx core c) (rdField w) (BitVec.ofInt 32 (signed 17 (w.toNat % 2 ^ 17))) false 0) ∧
  (s.Issues core c .lhi w sl → Answers (.lhi core) s fun t => Ran s t core c 1 ∧
    WroteG x (t.ctx core c) (rdField w) (w32 (w.toNat % 2 ^ 16 * 2 ^ 16 + (x.d w).toNat % 2 ^ 16)) (x.gPoisoned (rdField w)) 0) ∧
  (s.Issues core c .llo w sl → Answers (.llo core) s fun t => Ran s t core c 1 ∧
    WroteG x (t.ctx core c) (rdField w) (w32 ((x.d w).toNat / 2 ^ 16 * 2 ^ 16 + w.toNat % 2 ^ 16)) (x.gPoisoned (rdField w)) 0)) ∧
  (
  ∀ (s : State) (core c : Nat) (w : Word) (sl : Slot),
  let x := s.ctx core c
  (∀ e ∈ ([(Instr.cmpeq, Adt.cmpeq, fun a b => a = b), (Instr.cmpne, Adt.cmpne, fun a b => a ≠ b),
      (Instr.cmplt, Adt.cmplt, fun a b => a.toInt < b.toInt), (Instr.cmple, Adt.cmple, fun a b => a.toInt ≤ b.toInt),
      (Instr.cmpltu, Adt.cmpltu, fun a b => a.toNat < b.toNat), (Instr.cmpleu, Adt.cmpleu, fun a b => a.toNat ≤ b.toNat)] :
      List ((Nat → Instr) × Adt × (Word → Word → Prop))),
    s.Issues core c e.2.1 w sl → x.Clean (raField w) → x.Clean (rbField w) → Answers (e.1 core) s fun t => Ran s t core c 1 ∧
      ∃ b, (b = true ↔ e.2.2 (x.a w) (x.b w)) ∧ WroteP x (t.ctx core c) (rdField w) b) ∧
  (∀ e ∈ ([(Instr.cmpeqi, Adt.cmpeqi, fun a => a = simm12 w), (Instr.cmplti, Adt.cmplti, fun a => a.toInt < (simm12 w).toInt),
      (Instr.cmpltui, Adt.cmpltui, fun a => a.toNat < w.toNat % 2 ^ 12)] : List ((Nat → Instr) × Adt × (Word → Prop))),
    s.Issues core c e.2.1 w sl → x.Clean (raField w) → Answers (e.1 core) s fun t => Ran s t core c 1 ∧
      ∃ b, (b = true ↔ e.2.2 (x.a w)) ∧ WroteP x (t.ctx core c) (rdField w) b) ∧
  (∀ e ∈ ([(Instr.pand, Adt.pand, fun a b => a && b), (Instr.por, Adt.por, fun a b => a || b),
      (Instr.pxor, Adt.pxor, fun a b => a ^^ b), (Instr.pnot, Adt.pnot, fun a _ => !a), (Instr.pset, Adt.pset, fun _ _ => true),
      (Instr.pclr, Adt.pclr, fun _ _ => false)] : List ((Nat → Instr) × Adt × (Bool → Bool → Bool))),
    s.Issues core c e.2.1 w sl → Answers (e.1 core) s fun t => Ran s t core c 1 ∧
      WroteP x (t.ctx core c) (rdField w) (e.2.2 (x.pred (raField w)) (x.pred (rbField w)))))

/-- The lane by lane instructions: each lane of v(rd) from the lanes of v(ra) and v(rb), held to 16 bits where they saturate, with
SAT set when any lane clips; the products round half away from zero (R54, R55, R74, R75).
The other vector instructions: VSHR shifts each lane by g(rb)[3:0], VSPLAT and VPUT take g(ra)[15:0], VGET and VSUM give a
general register, VMOV copies; poison goes with the operands (R54, R74). -/
def Obligations.VectorInstructions : Prop :=
  (
  ∀ (s : State) (core c : Nat) (w : Word) (sl : Slot),
  let x := s.ctx core c
  let va := vlane (x.vrd (raField w))
  let vb := vlane (x.vrd (rbField w))
  let vd := vlane (x.vrd (rdField w))
  let clip : Int → Int := fun z => max (-2 ^ 15) (min (2 ^ 15 - 1) z)
  let round : Int → Int := fun p => if 0 ≤ p then (p + 2 ^ 14) / 2 ^ 15 else -((-p + 2 ^ 14) / 2 ^ 15)
  (∀ e ∈ ([(Instr.vadd, Adt.vadd, fun a b => a + b), (Instr.vsub, Adt.vsub, fun a b => a - b),
      (Instr.vmin, Adt.vmin, fun a b => if b.slt a then b else a), (Instr.vmax, Adt.vmax, fun a b => if a.slt b then b else a)] :
      List ((Nat → Instr) × Adt × (BitVec 16 → BitVec 16 → BitVec 16))),
    s.Issues core c e.2.1 w sl → Answers (e.1 core) s fun t => Ran s t core c 1 ∧
      WroteV x (t.ctx core c) (rdField w) (fun i => e.2.2 (va i) (vb i)) (x.vPoisoned (raField w) || x.vPoisoned (rbField w)) 0) ∧
  (∀ e ∈ ([(Instr.vadds, Adt.vadds, 1, fun a b => a.toInt + b.toInt), (Instr.vsubs, Adt.vsubs, 1, fun a b => a.toInt - b.toInt),
      (Instr.vmulq, Adt.vmulq, 3, fun a b => round (a.toInt * b.toInt))] :
      List ((Nat → Instr) × Adt × Nat × (BitVec 16 → BitVec 16 → Int))),
    s.Issues core c e.2.1 w sl → Answers (e.1 core) s fun t => Ran s t core c e.2.2.1 ∧
      WroteV x (t.ctx core c) (rdField w) (fun i => BitVec.ofInt 16 (clip (e.2.2.2 (va i) (vb i))))
        (x.vPoisoned (raField w) || x.vPoisoned (rbField w))
        (if (List.range 4).any (fun i => decide (clip (e.2.2.2 (va i) (vb i)) ≠ e.2.2.2 (va i) (vb i))) = true then statSat else 0)) ∧
  (s.Issues core c .vmacq w sl → Answers (.vmacq core) s fun t => Ran s t core c 3 ∧
    let z := fun i => round ((vd i).toInt * 2 ^ 15 + (va i).toInt * (vb i).toInt)
    WroteV x (t.ctx core c) (rdField w) (fun i => BitVec.ofInt 16 (clip (z i)))
      (x.vPoisoned (rdField w) || x.vPoisoned (raField w) || x.vPoisoned (rbField w))
      (if (List.range 4).any (fun i => decide (clip (z i) ≠ z i)) = true then statSat else 0)) ∧
  (s.Issues core c .vabs w sl → Answers (.vabs core) s fun t => Ran s t core c 1 ∧
    WroteV x (t.ctx core c) (rdField w) (fun i => BitVec.ofInt 16 (clip (va i).toInt.natAbs)) (x.vPoisoned (raField w))
      (if (List.range 4).any (fun i => decide (va i = 0x8000)) = true then statSat else 0))) ∧
  (
  ∀ (s : State) (core c : Nat) (w : Word) (sl : Slot),
  let x := s.ctx core c
  let va := vlane (x.vrd (raField w))
  (s.Issues core c .vshr w sl → Answers (.vshr core) s fun t => Ran s t core c 1 ∧
    WroteV x (t.ctx core c) (rdField w) (fun i => (va i).sshiftRight ((x.b w).toNat % 16))
      (x.vPoisoned (raField w) || x.gPoisoned (rbField w)) 0) ∧
  (s.Issues core c .vsplat w sl → Answers (.vsplat core) s fun t => Ran s t core c 1 ∧
    WroteV x (t.ctx core c) (rdField w) (fun _ => (x.a w).truncate 16) (x.gPoisoned (raField w)) 0) ∧
  (s.Issues core c .vput w sl → Answers (.vput core) s fun t => Ran s t core c 1 ∧
    WroteV x (t.ctx core c) (rdField w)
      (fun i => if i = rbField w then (x.a w).truncate 16 else vlane (x.vrd (rdField w)) i)
      (x.vPoisoned (rdField w) || x.gPoisoned (raField w)) 0) ∧
  (s.Issues core c .vmov w sl → Answers (.vmov core) s fun t => Ran s t core c 1 ∧
    WroteV x (t.ctx core c) (rdField w) va (x.vPoisoned (raField w)) 0) ∧
  (s.Issues core c .vget w sl → Answers (.vget core) s fun t => Ran s t core c 1 ∧
    WroteG x (t.ctx core c) (rdField w) (BitVec.ofInt 32 (va (rbField w)).toInt) (x.vPoisoned (raField w)) 0) ∧
  (s.Issues core c .vsum w sl → Answers (.vsum core) s fun t => Ran s t core c 1 ∧
    WroteG x (t.ctx core c) (rdField w)
      (BitVec.ofInt 32 ((va 0).toInt + (va 1).toInt + (va 2).toInt + (va 3).toInt)) (x.vPoisoned (raField w)) 0))

/-- Loads from local memory take two cycles and give the word, the zero-extended halfword or the two words at the address, with
their poison; a single-bit error is corrected in place (R50, R58, R59, R74, R75).
Stores to local memory take one cycle: a word or two words take the stored register and its poison; a halfword keeps the
other half, and a clean halfword leaves a poisoned word poisoned (R50, R58, R59, R74, R75). -/
def Obligations.LocalMemory : Prop :=
  (
  ∀ (s : State) (core c a : Nat) (w : Word) (sl : Slot),
  let x := s.ctx core c
  let p := s.dword core a
  let q := s.dword core (a + 4)
  (s.Issues core c .ldl w sl → x.Reaches w 4 a → Answers (.ldl core) s fun t => RanMem s t core c 2 [a] ∧
    WroteG x (t.ctx core c) (rdField w) p.val (poisoned p) 0 ∧ t.dword core a = corrected p) ∧
  (s.Issues core c .ldlh w sl → x.Reaches w 2 a → Answers (.ldlh core) s fun t => RanMem s t core c 2 [a] ∧
    WroteG x (t.ctx core c) (rdField w) (w32 (p.val.toNat / 2 ^ (8 * (a % 4)) % 2 ^ 16)) (poisoned p) 0 ∧
    t.dword core a = corrected p) ∧
  (s.Issues core c .ldv w sl → x.Reaches w 8 a → Answers (.ldv core) s fun t => RanMem s t core c 2 [a, a + 4] ∧
    WroteV x (t.ctx core c) (rdField w) (fun i => vlane (q.val ++ p.val) i) (poisoned p || poisoned q) 0 ∧
    t.dword core a = corrected p ∧ t.dword core (a + 4) = corrected q)) ∧
  (
  ∀ (s : State) (core c a : Nat) (w : Word) (sl : Slot),
  let x := s.ctx core c
  let p := s.dword core a
  let rd := rdField w
  (s.Issues core c .stl w sl → x.Reaches w 4 a → Answers (.stl core) s fun t => RanMem s t core c 1 [a] ∧
    t.ctx core c = x.next ∧ t.dword core a = ⟨x.rd rd, x.gPoisoned rd, .clean⟩) ∧
  (s.Issues core c .stlh w sl → x.Reaches w 2 a → Answers (.stlh core) s fun t => RanMem s t core c 1 [a] ∧
    t.ctx core c = x.next ∧ (t.dword core a).poison = (poisoned p || x.gPoisoned rd) ∧ (t.dword core a).err = .clean ∧
    (t.dword core a).val = if a % 4 = 0 then w32 (p.val.toNat / 2 ^ 16 * 2 ^ 16 + (x.rd rd).toNat % 2 ^ 16)
      else w32 ((x.rd rd).toNat % 2 ^ 16 * 2 ^ 16 + p.val.toNat % 2 ^ 16)) ∧
  (s.Issues core c .stv w sl → x.Reaches w 8 a → Answers (.stv core) s fun t => RanMem s t core c 1 [a, a + 4] ∧
    t.ctx core c = x.next ∧ t.dword core a = ⟨(x.vrd rd).truncate 32, x.vPoisoned rd, .clean⟩ ∧
    t.dword core (a + 4) = ⟨(x.vrd rd >>> 32).truncate 32, x.vPoisoned rd, .clean⟩))

/-- LDS and STS issue in one cycle and stay outstanding for 56 cycles from their issue; when the oldest one's cycle comes, an LDS
brings the stream's word to its register and an STS puts its word into the stream (R60, R61, R62). -/
def Obligations.StreamAccess : Prop :=
  (∀ (s : State) (core c key : Nat) (w : Word) (sl : Slot),
    let x := s.ctx core c
    let k := s.core core
    x.Clean (raField w) → x.Clean (rbField w) → s.namedBuffer (x.a w) = some key → (s.stream key).absent = false →
    (x.b w).toNat % 4 = 0 → (x.b w).toNat < (s.stream key).size →
    (s.Issues core c .lds w sl → Answers (.lds core) s fun t => SameBut [.cores, .ctxs] s t ∧ t.ctx core c = x.next ∧
      ButAt State.core core s t ∧ CtxsBut core c s t ∧
      t.core core = { k with
        cyc := k.cyc + 1, lds := k.lds ++ [⟨(k.cyc + 56 : Nat), c, rdField w, x.a w, (x.b w).toNat / 4, true⟩] }) ∧
    (s.Issues core c .sts w sl → Answers (.sts core) s fun t => SameBut [.cores, .ctxs] s t ∧ t.ctx core c = x.next ∧
      ButAt State.core core s t ∧ CtxsBut core c s t ∧
      t.core core = { k with
        cyc := k.cyc + 1
        sts := k.sts ++ [⟨(k.cyc + 56 : Nat), c, x.a w, (x.b w).toNat / 4, ⟨x.d w, x.gPoisoned (rdField w), .clean⟩⟩] })) ∧
  (∀ (s : State) (core key : Nat) (l : Lds), s.runningSlot core = none → (s.core core).sts = [] →
    (∀ c, (s.ctx core c).bpws = []) → (s.core core).qops = [] → (s.core core).lds = [l] → l.ready < s.cycles → l.keep = true →
    s.namedBuffer l.handle = some key → (s.bufWord key l.off).err = .clean → (s.wordIn key (l.off ^^^ 1)).err = .clean →
    Answers (.ldsComplete core) s fun t => SameBut [.cores, .ctxs] s t ∧ ButAt State.core core s t ∧ CtxsBut core l.ctx s t ∧
      t.ctx core l.ctx = (s.ctx core l.ctx).wr l.rd (s.bufWord key l.off).val (s.bufWord key l.off).poison ∧
      t.core core = { s.core core with lds := [], cyc := max (s.core core).cyc l.ready.toNat }) ∧
  (∀ (s : State) (core key : Nat) (x : Sts), s.runningSlot core = none → (s.core core).lds = [] →
    (∀ c, (s.ctx core c).bpws = []) → (s.core core).qops = [] → (s.core core).sts = [x] → x.ready < s.cycles →
    s.namedBuffer x.handle = some key →
    Answers (.stsComplete core) s fun t => SameBut (if s.isGrid key then [.cores, .sb, .hide] else [.cores, .sb]) s t ∧
      ButAt State.core core s t ∧ t.bufWord key x.off = x.word ∧
      (∀ off, off ≠ x.off → t.bufWord key off = s.bufWord key off) ∧
      (∀ j, j ≠ key → t.stream j = s.stream j) ∧
      t.core core = { s.core core with sts := [], cyc := max (s.core core).cyc x.ready.toNat })

/-- The block port: BPR takes 24 cycles and gives the register as the fabric reads it; BPW takes one cycle and completes 20 cycles
after its issue, when its write reaches the fabric; BPF takes one cycle once nothing of its context is outstanding there (R24,
R66, R67, R75). -/
def Obligations.BlockPort : Prop :=
  ∀ (s : State) (core c : Nat) (w : Word) (sl : Slot),
  let x := s.ctx core c
  let a := x.a w + simm12 w
  (s.Issues core c .bpr w sl → x.Clean (raField w) → a.toNat % 4 = 0 → Answers (.bpr core) s fun t =>
    SameBut [.cores, .ctxs] (s.busRead (.core core c) a.toNat).1 t ∧ ButAt State.core core s t ∧ CtxsBut core c s t ∧
    WroteG x (t.ctx core c) (rdField w) (s.busRead (.core core c) a.toNat).2 false 0 ∧
    t.core core = { s.core core with cyc := (s.core core).cyc + 24 }) ∧
  (s.Issues core c .bpw w sl → x.Clean (raField w) → x.Clean (rdField w) → a.toNat % 4 = 0 → Answers (.bpw core) s fun t =>
    Ran s t core c 1 ∧ t.ctx core c = { x.next with bpws := x.bpws ++ [⟨((s.core core).cyc + 20 : Nat), a, x.d w⟩] }) ∧
  (s.Issues core c .bpf w sl → Answers (.bpf core) s fun t => Ran s t core c 1 ∧ t.ctx core c = x.next) ∧
  (∀ b : Bpw, s.runningSlot core = none → (s.core core).lds = [] → (s.core core).sts = [] → (s.core core).qops = [] →
    (∀ d, d < 16 → d ≠ c → (s.ctx core d).bpws = []) → c < 16 → x.bpws = [b] → b.ready < s.cycles →
    let u := s.busWrite (.core core c) b.addr.toNat b.val
    Answers (.bpwComplete core c) s fun t =>
      t.ctx core c = { x with bpws := [] } ∧ CtxsBut core c s t ∧
      t.core core = { u.core core with cyc := max (u.core core).cyc b.ready.toNat } ∧ ButAt State.core core u t ∧
      SameBut [.cores, .ctxs] u t ∧
      (b.addr = w32 R.STCH_HOLD_LIMIT → s.Reaches (.core core c) R.STCH_HOLD_LIMIT →
        t.reg R.STCH_HOLD_LIMIT = ((s.reg R.STCH_HOLD_LIMIT &&& 0xFFFF0000) ||| (b.val &&& 0xFFFF)) ∧
        RegsBut [R.STCH_HOLD_LIMIT] s t))

/-- The queue instructions take 56 cycles and act on a live queue of the Saddlebag alone. QPSH adds a word to the context's open
packet and QEND commits it, both REFUSED where the queue is full; after a flush QPSH is DISCARDED and QEND ABORTED; QBAD rewinds
the packet, and reports ZERO_LEN with none open; QPOP takes the oldest committed word with its end mark and its poison; QLEN
counts the committed words; QFLUSH removes them and rewinds every packet. QST holds the code, and the predicate says whether it
is OK. A handle that names no queue or a spill queue raises STREAM, and a queue bound to an absent unit answers ABSENT_UNIT, with
rd then as it was (the model's choice, log entry 104) (R53, R63, R64, R65, R72, R266, R270, R275, R277). -/
def Obligations.QueueInstructions : Prop :=
  ∀ (s : State) (core c key : Nat) (w : Word) (sl : Slot),
  let x := s.ctx core c
  let q := s.stream key
  let me := 16 * core + c
  let word : PWord := ⟨x.d w, x.gPoisoned (rdField w), .clean⟩
  let full := q.size ≤ q.occupancy ∨ ((findOpen me q.opens).isNone = true ∧ 16 ≤ q.opens.length)
  let back : Word → Ctx := fun qst => ({ x with qst := qst }).pwr (getBits w 1 0) (getBits qst 3 0 == 0)
  let took : State → Ctx → Stream → Prop := fun t y r => SameBut [.regs, .msix, .sb, .cores, .ctxs] s t ∧
    t.core core = { s.core core with cyc := (s.core core).cyc + 56 } ∧ ButAt State.core core s t ∧ CtxsBut core c s t ∧
    t.ctx core c = y.next ∧ t.stream key = r ∧ StreamsBut key s t ∧ RegsBut [] s t
  x.Clean (raField w) →
  (s.namedQueue (x.a w) = some key → q.spill = false → q.absent = false →
    (s.Issues core c .qpsh w sl →
      (me ∉ q.cut → ¬ full → Answers (.qpsh core) s fun t => took t (back 0) { q with opens := addOpen me word q.opens }) ∧
      (me ∉ q.cut → full → Answers (.qpsh core) s fun t => took t (back 2) q) ∧
      (me ∈ q.cut → Answers (.qpsh core) s fun t => took t (back 4) q)) ∧
    (s.Issues core c .qend w sl →
      (me ∉ q.cut → ¬ full → Answers (.qend core) s fun t => took t (back 0) { q with
        opens := dropOpen me q.opens, words := q.words ++ packetWords ((findOpen me q.opens).getD [] ++ [word]) }) ∧
      (me ∉ q.cut → full → Answers (.qend core) s fun t => took t (back 2) q) ∧
      (me ∈ q.cut → Answers (.qend core) s fun t => took t (back 3) { q with cut := q.cut.filter (· != me) })) ∧
    (s.Issues core c .qbad w sl →
      (me ∉ q.cut → (findOpen me q.opens).isSome = true → Answers (.qbad core) s fun t =>
        took t (back 0) { q with opens := dropOpen me q.opens }) ∧
      (me ∉ q.cut → findOpen me q.opens = none → Answers (.qbad core) s fun t => took t (back 5) q) ∧
      (me ∈ q.cut → Answers (.qbad core) s fun t => took t (back 0) { q with cut := q.cut.filter (· != me) })) ∧
    (s.Issues core c .qpop w sl →
      (∀ (v : QWord) (rest : List QWord), q.words = v :: rest →
        worseError v.word.err (q.pop.q.ringWord (q.popped ^^^ 1)).err = .clean → Answers (.qpop core) s fun t =>
        took t ((back (w32 (32 * bitNat v.word.poison + 16 * bitNat v.last))).wr (rdField w) v.word.val v.word.poison)
          { q with words := rest, popped := q.popped + 1, headWords := if q.dramWords = 0 then 0 else q.headWords - 1 }) ∧
      (∀ (v : QWord) (rest : List QWord), q.words = v :: rest → v.word.err = .double → Answers (.qpop core) s fun t =>
        t.ctx core c = ((back (w32 (32 + 16 * bitNat v.last))).wr (rdField w) v.word.val true).next ∧ CtxsBut core c s t) ∧
      (q.words = [] → Answers (.qpop core) s fun t => took t (back 1) q)) ∧
    (s.Issues core c .qlen w sl →
      Answers (.qlen core) s fun t => took t ((back 0).wr (rdField w) (w32 q.words.length) false) q) ∧
    (s.Issues core c .qflush w sl → (∀ e ∈ s.sb.waits, e.key ≠ key) → Answers (.qflush core) s fun t => took t (back 0) q.flush ∧
      q.flush.words = [] ∧ q.flush.opens = [])) ∧
  (∀ e ∈ ([(Instr.qpsh, Adt.qpsh), (.qend, .qend), (.qbad, .qbad), (.qpop, .qpop), (.qlen, .qlen), (.qflush, .qflush)] :
      List ((Nat → Instr) × Adt)), s.Issues core c e.2 w sl →
    (s.namedQueue (x.a w) = some key → q.spill = false → q.absent = true → Answers (e.1 core) s fun t =>
      Ran s t core c 56 ∧ t.ctx core c = (back 6).next) ∧
    ((s.namedQueue (x.a w) = none ∨ (s.namedQueue (x.a w) = some key ∧ q.spill = true)) →
      (s.core core).cyc + 60 ≤ sl.stop → (∀ d ∈ s.dueList core, (((s.core core).cyc + 60 : Nat) : Int) < d.1) →
      x.stat &&& statExc = 0 → x.trapvec ≠ 0 → Answers (e.1 core) s fun t => Ran s t core c 60 ∧ t.ctx core c = { x with
        epc := x.pc.zeroExtend 32, ecause := 8, eaddr := x.a w, stat := x.stat ||| statExc, pc := x.trapvec.truncate 16 }))

/-- B jumps to a target in the partition, within the body of the loops it stands in or to just after one, which ends that loop;
CALL jumps to any target in the partition and pushes PC + 4, and RET pops it, in two cycles each; a ninth nested CALL and a RET
with no CALL to return from raise STACK (R68, R69).
LOOP runs its body min(ra, max) times, with STAT.LC when the count is above max; no trips or an empty body skips it with
STAT.ZL; a third nested one, and one whose body ends past the body it stands in, raise LOOP; while trips are left the end of the
body leads back to its start (R69). -/
def Obligations.BranchesAndLoops : Prop :=
  (
  ∀ (s : State) (core c : Nat) (w : Word) (sl : Slot),
  let x := s.ctx core c
  let target : Int := x.pc.toNat + 4 * signed 22 (w.toNat % 2 ^ 22)
  let inside : Int → Prop := fun a => 0 ≤ a ∧ inPartition x.iFirst x.iLast a.toNat = true
  (s.Issues core c .b w sl → inside target → x.loops = [] → Answers (.b core) s fun t => Ran s t core c 2 ∧
    t.ctx core c = { x with pc := BitVec.ofInt 16 target }) ∧
  (∀ l, s.Issues core c .b w sl → inside target → x.loops = [l] → l.depth = x.calls.length → l.start ≤ x.pc.toNat →
    x.pc.toNat < l.stop → (l.start : Int) ≤ target → target ≤ l.stop → Answers (.b core) s fun t => Ran s t core c 2 ∧
    t.ctx core c = { x with pc := BitVec.ofInt 16 target, loops := if target = l.stop then [] else [l] }) ∧
  (∀ ls, s.Issues core c .b w sl → inside target → branchLoops x.calls.length x.pc.toNat target.toNat x.loops = some ls →
    Answers (.b core) s fun t => Ran s t core c 2 ∧ t.ctx core c = { x with pc := BitVec.ofInt 16 target, loops := ls }) ∧
  (s.Issues core c .call w sl → inside target → x.calls.length < 8 → Answers (.call core) s fun t => Ran s t core c 2 ∧
    t.ctx core c = { x with pc := BitVec.ofInt 16 target, calls := (x.pc + 4) :: x.calls }) ∧
  (∀ a rest, s.Issues core c .ret w sl → x.calls = a :: rest → inside a.toNat → x.loops = [] → Answers (.ret core) s fun t =>
    Ran s t core c 2 ∧ t.ctx core c = { x with pc := a, calls := rest }) ∧
  (∀ a rest, s.Issues core c .ret w sl → x.calls = a :: rest → inside a.toNat → Answers (.ret core) s fun t =>
    Ran s t core c 2 ∧ t.ctx core c = x.returned) ∧
  (s.Issues core c .call w sl → inside target → 8 ≤ x.calls.length → (s.core core).cyc + 6 ≤ sl.stop →
    (∀ e ∈ s.dueList core, (((s.core core).cyc + 6 : Nat) : Int) < e.1) → x.stat &&& statExc = 0 → x.trapvec ≠ 0 →
    Answers (.call core) s fun t => Ran s t core c 6 ∧ (t.ctx core c).ecause = 6 ∧ (t.ctx core c).calls = x.calls) ∧
  (s.Issues core c .ret w sl → x.calls = [] → (s.core core).cyc + 6 ≤ sl.stop →
    (∀ e ∈ s.dueList core, (((s.core core).cyc + 6 : Nat) : Int) < e.1) → x.stat &&& statExc = 0 → x.trapvec ≠ 0 →
    Answers (.ret core) s fun t => Ran s t core c 6 ∧ (t.ctx core c).ecause = 6)) ∧
  (
  ∀ (s : State) (core c : Nat) (w : Word) (sl : Slot),
  let x := s.ctx core c
  let trips := min (x.d w).toNat (w.toNat % 2 ^ 10)
  let len := w.toNat / 2 ^ 10 % 2 ^ 7
  let stat := if w.toNat % 2 ^ 10 < (x.d w).toNat then x.stat ||| statLc else x.stat
  (s.Issues core c .loop w sl → x.Clean (rdField w) → x.loops = [] → trips ≠ 0 → len ≠ 0 →
    Answers (.loop core) s fun t => Ran s t core c 2 ∧ t.ctx core c = { x with
      pc := x.pc + 4, stat := stat, loops := [⟨x.pc.toNat + 4, x.pc.toNat + 4 + 4 * len, trips, x.calls.length⟩] }) ∧
  (s.Issues core c .loop w sl → x.Clean (rdField w) → x.loops = [] → trips = 0 ∨ len = 0 →
    Answers (.loop core) s fun t => Ran s t core c 2 ∧ t.ctx core c = { x with
      pc := BitVec.ofNat 16 (x.pc.toNat + 4 + 4 * len), stat := stat ||| statZl }) ∧
  (s.Issues core c .loop w sl → loopCheck x w = none → Answers (.loop core) s fun t => Ran s t core c 2 ∧
    t.ctx core c = x.looped w) ∧
  (∀ l, s.Issues core c .loop w sl → x.Clean (rdField w) → trips ≠ 0 → len ≠ 0 →
    (2 ≤ x.loops.length ∨ (x.loops = [l] ∧ l.depth = x.calls.length ∧ l.stop < x.pc.toNat + 4 + 4 * len)) →
    (s.core core).cyc + 6 ≤ sl.stop → (∀ e ∈ s.dueList core, (((s.core core).cyc + 6 : Nat) : Int) < e.1) →
    x.stat &&& statExc = 0 → x.trapvec ≠ 0 → Answers (.loop core) s fun t => Ran s t core c 6 ∧ (t.ctx core c).ecause = 7 ∧
      (t.ctx core c).loops = x.loops) ∧
  (∀ l rest, x.loops = l :: rest → x.pc.toNat + 4 = l.stop → l.start ≤ x.pc.toNat → l.depth = x.calls.length → 1 < l.trips →
    x.next.pc = BitVec.ofNat 16 l.start ∧ x.next.loops = { l with trips := l.trips - 1 } :: rest))

/-- MFSP gives a special register as it stands; MTSP clears the bits of STAT that are written as ones, but not EXC, or takes a
word address into TRAPVEC; WAITSTITCH ends the work, and the context waits for its Stitch at its entry, with its stacks empty and
STAT.EXC clear; k = 0 only sets STAT.ZL (R46, R70). -/
def Obligations.SpecialAndWait : Prop :=
  ∀ (s : State) (core c : Nat) (w : Word) (sl : Slot),
  let x := s.ctx core c
  let k := w.toNat % 2 ^ 17
  (s.Issues core c .mfsp w sl → Answers (.mfsp core) s fun t => Ran s t core c 1 ∧
    WroteG x (t.ctx core c) (rdField w) ([x.stat, x.qst, x.epc, x.ecause, x.eaddr, x.trapvec, s.stitch.truncate 32,
      (s.stitch >>> 32).truncate 32, w32 (s.core core).cyc, w32 ((s.core core).cyc - sl.start), w32 (core * 256 + c), x.gpois,
      x.vpois.zeroExtend 32].getD k 0) false 0) ∧
  (s.Issues core c .mtsp w sl → x.Clean (rdField w) → Answers (.mtsp core) s fun t => Ran s t core c 1 ∧
    t.ctx core c = if k = 0 then { x.next with stat := x.stat &&& ~~~(x.d w &&& 0xF) }
      else { x.next with trapvec := x.d w &&& 0xFFFFFFFC }) ∧
  (s.Issues core c .waitstitch w sl → k = 0 → Answers (.waitstitch core) s fun t => Ran s t core c 1 ∧
    t.ctx core c = { x.next with stat := x.stat ||| statZl }) ∧
  (s.Issues core c .waitstitch w sl → k ≠ 0 → Answers (.waitstitch core) s fun t =>
    t.core core = { s.core core with cyc := (s.core core).cyc + 1, cur := none } ∧ t.ctxState core c = 1 ∧
    t.ctx core c = { x with
      pc := x.entry, stat := x.stat &&& ~~~statExc, calls := [], loops := [], due := s.stitch + BitVec.ofNat 64 k
      watch := if s.fld (F.TC_CTX_CTRL_STARVE core c) = 0 then none else some (s.fld (F.TC_CTX_CTRL_STARVE core c) + k) } ∧
    ButAt State.core core s t ∧ CtxsBut core c s t ∧ RegsBut [R.TC_CTX_STATE core c] s t ∧ SameBut [.regs, .cores, .ctxs] s t)

/-- A faulting instruction has no effect; four cycles later EPC holds its address, ECAUSE the cause and EADDR its value, STAT.EXC
is set, and the handler runs; with no handler, or within one, the context halts (R49, R58, R68, R72). TRAP is the instruction
whose effect this is; an illegal word, a misaligned access and one outside the partition are shown beside it. -/
def Obligations.ExceptionEntry : Prop :=
  ∀ (s : State) (core c : Nat) (w : Word) (sl : Slot),
  let x := s.ctx core c
  let room : Nat → Prop := fun n => (s.core core).cyc + n ≤ sl.stop ∧
    ∀ e ∈ s.dueList core, (((s.core core).cyc + n : Nat) : Int) < e.1
  let entered : State → Nat → Nat → Word → Prop := fun t n cause addr => Ran s t core c n ∧ t.ctx core c = { x with
    epc := x.pc.zeroExtend 32, ecause := w32 cause, eaddr := addr, stat := x.stat ||| statExc, pc := x.trapvec.truncate 16 }
  (s.Issues core c .trap w sl → room 5 → x.stat &&& statExc = 0 → x.trapvec ≠ 0 →
    Answers (.trap core) s fun t => entered t 5 9 (w32 (w.toNat % 2 ^ 17))) ∧
  (s.Issues core c .trap w sl → room 5 → x.stat &&& statExc ≠ 0 ∨ x.trapvec = 0 → Answers (.trap core) s fun t =>
    t.ctxState core c = 3 ∧ (t.ctx core c).pc = x.pc ∧ (t.ctx core c).stat = x.stat ||| statExc ∧
    (t.ctx core c).epc = x.pc.zeroExtend 32 ∧
    (t.ctx core c).ecause = (if x.stat &&& statExc ≠ 0 then 0x0A else 0x09) ∧ CtxsBut core c s t ∧
    RegsBut [R.TC_CTX_STATE core c] s t ∧ SameBut [.regs, .msix, .sb, .cores, .ctxs] s t) ∧
  (s.Issues core c .ldl w sl → room 6 → x.stat &&& statExc = 0 → x.trapvec ≠ 0 → x.Clean (raField w) →
    let a := x.a w + simm12 w
    (inPartition x.dFirst x.dLast a.toNat = false → Answers (.ldl core) s fun t => entered t 6 3 a) ∧
    (inPartition x.dFirst x.dLast a.toNat = true → a.toNat % 4 ≠ 0 → Answers (.ldl core) s fun t => entered t 6 2 a)) ∧
  (s.coresRun core = true → s.runningSlot core = some sl → sl.ctx = c →
    inPartition x.iFirst x.iLast x.pc.toNat = true →
    sget (PWord.clean 0) (s.core core).imem (x.pc.toNat / 4) = ⟨w, false, .clean⟩ → adtOf w = none → room 5 →
    (s.core core).cyc < sl.stop → x.stat &&& statExc = 0 → x.trapvec ≠ 0 →
    Answers (.add core) s fun t => entered t 5 1 w)

/-! ## Cores and watchdogs -/

/-- A slot begins at its cycle: a context that waits and is due then runs from its entry, any other leaves the slot idle. A
context that has not completed WAITSTITCH by the end of its slot overruns: OVERRUN is set and counted and, under the policy
HALT, it halts (R70, R79, R80, R87, R88).
A context watchdog that has counted to zero raises STARVED once. The device watchdog starts with a limit other than zero and
then takes no other write; a kick is its two keys in order, and anything else withdraws the first; WDOG_WARN comes when LIMIT
Stitches have passed (R22, R93, R94). -/
def Obligations.SlotsAndWatchdogs : Prop :=
  (
  ∀ (s : State) (core i : Nat) (sl : Slot), core < 40 → sl.ctx < 16 → (s.core core).table[i]? = some sl →
  let x := s.ctx core sl.ctx
  let k := s.core core
  let ready := s.coresRun core = true ∧ k.cur = none ∧ ∀ e ∈ s.dueList core, (sl.start : Int) < e.1
  (ready → s.ctxState core sl.ctx = 1 → x.due ≤ s.stitch → Answers (.contextSlotStart core i) s fun t =>
    t.core core = { k with cyc := sl.start, cur := some i } ∧ t.ctxState core sl.ctx = 2 ∧
    t.ctx core sl.ctx = { x with pc := x.entry } ∧ ButAt State.core core s t ∧ CtxsBut core sl.ctx s t ∧
    RegsBut [R.TC_CTX_STATE core sl.ctx] s t ∧ SameBut [.regs, .cores, .ctxs] s t) ∧
  (ready → s.ctxState core sl.ctx ≠ 1 ∨ s.stitch < x.due → Answers (.contextSlotStart core i) s fun t =>
    t.core core = { k with cyc := sl.start, cur := some i } ∧ ButAt State.core core s t ∧ SameBut [.cores] s t) ∧
  (s.runningSlot core = some sl → (∀ e ∈ s.dueList core, (sl.stop : Int) ≤ e.1) →
    s.fld (F.TC_CTX_CTRL_OVR_POLICY core sl.ctx) = 0 → Answers (.overrun core) s fun t =>
    t.ctxState core sl.ctx = 3 ∧ t.fld (F.TC_CTX_STATE_OVERRUN core sl.ctx) = 1 ∧
    t.fld (F.TC_CTX_STATE_OVERRUNS core sl.ctx) = min 0xFFFF (s.fld (F.TC_CTX_STATE_OVERRUNS core sl.ctx) + 1) ∧
    (t.core core).cyc = sl.stop ∧ (t.core core).cur = none ∧ ButAt State.core core s t ∧
    RegsBut [R.TC_CTX_STATE core sl.ctx] s t ∧ SameBut [.regs, .msix, .sb, .cores] s t) ∧
  (s.runningSlot core = some sl → (∀ e ∈ s.dueList core, (sl.stop : Int) ≤ e.1) →
    s.fld (F.TC_CTX_CTRL_OVR_POLICY core sl.ctx) = 1 ∨ s.fld (F.TC_CTX_CTRL_OVR_POLICY core sl.ctx) = 2 →
    Answers (.overrun core) s fun t => t.ctxState core sl.ctx = 1 ∧ (t.ctx core sl.ctx).due = s.stitch + 1 ∧
    (t.core core).cyc = sl.stop ∧ (t.core core).cur = none ∧ t.fld (F.TC_CTX_STATE_OVERRUN core sl.ctx) = 1 ∧
    ButAt State.core core s t ∧ CtxsBut core sl.ctx s t ∧ RegsBut [R.TC_CTX_STATE core sl.ctx] s t ∧
    SameBut [.regs, .msix, .sb, .cores, .ctxs] s t) ∧
  (s.coresRun core = false → Answers (.contextSlotStart core i) s fun t => t = s) ∧
  (s.runningSlot core = none → Answers (.overrun core) s fun t => t = s)) ∧
  (
  (∀ (s : State) (core c : Nat), core < 40 → c < 16 → (s.ctx core c).watch = some 0 → Answers (.starved core c) s fun t =>
    t.ctx core c = { s.ctx core c with watch := none } ∧ CtxsBut core c s t ∧ t.fld (F.TC_CTX_STATE_STARVED core c) = 1 ∧
    RegsBut [R.TC_CTX_STATE core c] s t ∧ SameBut [.regs, .msix, .sb, .ctxs] s t) ∧
  (∀ (s : State) (src : Source) (v : Word), s.Reaches src R.SYS_WDOG_CTRL → s.fld F.SYS_WDOG_CTRL_ENABLE = 0 →
    let limit := v.toNat % 2 ^ 24
    (limit ≠ 0 → Answers (.wdogEnable src v) s fun t => t.fld F.SYS_WDOG_CTRL_ENABLE = 1 ∧ t.fld F.SYS_WDOG_CTRL_LIMIT = limit ∧
      t.wdog = ⟨0, false, false⟩ ∧ RegsBut [R.SYS_WDOG_CTRL] s t ∧ SameBut [.regs, .wdog] s t) ∧
    (limit = 0 → Answers (.wdogEnable src v) s fun t => t.fld F.SYS_WDOG_CTRL_ENABLE = 0 ∧ t.fld F.SYS_WDOG_CTRL_ZERO_LEN = 1 ∧
      RegsBut [R.SYS_WDOG_CTRL] s t ∧ SameBut [.regs] s t)) ∧
  (∀ (s : State) (src : Source) (v : Word), s.Reaches src R.SYS_WDOG_CTRL → s.fld F.SYS_WDOG_CTRL_ENABLE = 1 →
    Answers (.wdogEnable src v) s fun t => t.fld F.SYS_WDOG_CTRL_ENABLE = 1 ∧
      t.reg R.SYS_WDOG_CTRL = s.reg R.SYS_WDOG_CTRL ∧ RegsBut AccRegs s t ∧ SameBut [.regs, .msix, .sb] s t) ∧
  (∀ (s : State) (v : Word), Answers (.kick v) s fun t => SameBut [.wdog] s t ∧
    (v.truncate 16 = 0x5A5A#16 → t.wdog = { s.wdog with armed := true }) ∧
    (v.truncate 16 = 0xA5A5#16 → s.wdog.armed = true → t.wdog = ⟨0, false, false⟩) ∧
    (v.truncate 16 = 0xA5A5#16 → s.wdog.armed = false → t.wdog = s.wdog) ∧
    (v.truncate 16 ≠ 0x5A5A#16 → v.truncate 16 ≠ 0xA5A5#16 → t.wdog = { s.wdog with armed := false })) ∧
  (∀ s : State, s.fld F.SYS_WDOG_CTRL_ENABLE = 1 → s.fld F.SYS_WDOG_CTRL_LIMIT ≤ s.wdog.count → s.wdog.warned = false →
    Answers .wdogWarn s fun t => t.fld F.SYS_WDOG_CTRL_WARNED = 1 ∧ t.wdog = { s.wdog with warned := true } ∧
      (s.fld F.SYS_ACC_INFO_VALID = 0 → t.fld F.SYS_ACC_INFO_VALID = 1 ∧ t.fld F.SYS_ACC_INFO_CODE = 4) ∧
      RegsBut [R.SYS_WDOG_CTRL, R.SYS_ACC_INFO, R.SYS_ACC_ADDR_LO, R.SYS_ACC_ADDR_HI] s t ∧
      SameBut [.regs, .msix, .sb, .wdog] s t))

/-- TABLE_COMMIT asks for a commit; at the boundary a table is accepted if its lengths fit the Stitch, it names no context twice
and every slot is at least its context's worst case, and its slots then lie back to back from cycle 0; a refused one changes
nothing (R79, R81).
LOAD checks its length, its offset, its source, its range and what uses the destination in this order, and takes the words
through their checks, up to the first poisoned pair; while a load runs a write changes no field; LOAD_DONE leaves the words in
local memory, clears START and shows the result (R37, R84, R85, R261, R277). -/
def Obligations.TablesAndLoading : Prop :=
  (
  (∀ (s : State) (core : Nat), Answers (.tableCommit core) s fun t => t.fld (F.TC_TABLE_CTRL_COMMIT core) = 1 ∧
    RegsBut [R.TC_TABLE_CTRL core] s t ∧ SameBut [.regs] s t) ∧
  (∀ (s : State) (core : Nat), core < 40 → s.fld (F.TC_TABLE_CTRL_COMMIT core) = 1 →
    let l := s.stagedSlots core
    let t := s.commitTable core
    let fits := (l.map fun e => e.2).sum ≤ 5 * s.period
    let once := (l.map fun e => e.1).Nodup
    let roomy := ∀ e ∈ l, s.wcetAfter core e.1 ≤ e.2
    t.fld (F.TC_TABLE_CTRL_COMMIT core) = 0 ∧
    (¬ fits → t.fld (F.TC_TABLE_CTRL_RESULT core) = 2) ∧
    (fits → ¬ once → t.fld (F.TC_TABLE_CTRL_RESULT core) = 4) ∧
    (fits → once → ¬ roomy → t.fld (F.TC_TABLE_CTRL_RESULT core) = 3) ∧
    (fits → once → roomy → t.fld (F.TC_TABLE_CTRL_RESULT core) = if l = [] then 1 else 0) ∧
    (fits → once → roomy → (t.core core).table = layOut 0 l ∧
      t.fld (F.TC_TABLE_CTRL_END core) = (l.map fun e => e.2).sum) ∧
    (¬ (fits ∧ once ∧ roomy) → t.core core = s.core core))) ∧
  (
  (∀ (s : State) (src : Source) (core : Nat) (v : Word), s.Reaches src (R.TC_LOAD_CMD core) →
    s.fld (F.TC_LOAD_CMD_START core) = 0 → Answers (.load src core v) s fun t =>
    let len := t.fld (F.TC_LOAD_CMD_LEN core)
    let dst := t.fld (F.TC_LOAD_CMD_DST core)
    let ofs := (s.reg (R.TC_LOAD_OFS core)).toNat
    t.reg (R.TC_LOAD_CMD core) = ((s.reg (R.TC_LOAD_CMD core) &&& 0x38000000) ||| (v &&& 0x47FFFFFF) ||| 0x80000000) ∧
    ((∀ key, s.namedBuffer (s.reg (R.TC_LOAD_SRC core)) = some key → ∀ i, (s.wordIn key i).err = .clean) →
      RegsBut [R.TC_LOAD_CMD core] s t ∧ SameBut [.regs, .cores] s t) ∧ ButAt State.core core s t ∧
    t.core core = { s.core core with load := (t.core core).load } ∧ ∃ j : LoadJob, (t.core core).load = some j ∧
      (len = 0 → j.result = 1) ∧
      (len ≠ 0 → ofs % 8 ≠ 0 → j.result = 2) ∧
      (len ≠ 0 → ofs % 8 = 0 → s.namedBuffer (s.reg (R.TC_LOAD_SRC core)) = none → j.result = 6) ∧
      (∀ key, len ≠ 0 → ofs % 8 = 0 → s.namedBuffer (s.reg (R.TC_LOAD_SRC core)) = some key →
        let inside := ofs + 8 * len ≤ (s.stream key).size ∧ 8 * dst + 8 * len ≤ 65536
        (¬ inside → j.result = 3) ∧
        (inside → t.loadInUse core (t.flag (F.TC_LOAD_CMD_MEM core)) dst len = true → j.result = 4) ∧
        (inside → t.loadInUse core (t.flag (F.TC_LOAD_CMD_MEM core)) dst len = false →
          (∀ w ∈ s.bufWords key (ofs / 4) (2 * len), w.poison = false) →
          j = ⟨0, t.flag (F.TC_LOAD_CMD_MEM core), 2 * dst, s.bufWords key (ofs / 4) (2 * len)⟩) ∧
        (inside → t.loadInUse core (t.flag (F.TC_LOAD_CMD_MEM core)) dst len = false →
          (∃ w ∈ s.bufWords key (ofs / 4) (2 * len), w.poison = true) →
          j = ⟨5, t.flag (F.TC_LOAD_CMD_MEM core), 2 * dst, cleanPairs (s.bufWords key (ofs / 4) (2 * len))⟩))) ∧
  (∀ (s : State) (src : Source) (core : Nat) (v : Word), s.Reaches src (R.TC_LOAD_CMD core) →
    s.fld (F.TC_LOAD_CMD_START core) = 1 → Answers (.load src core v) s fun t =>
      t.reg (R.TC_LOAD_CMD core) = s.reg (R.TC_LOAD_CMD core) ∧ RegsBut AccRegs s t ∧ SameBut [.regs, .msix, .sb] s t) ∧
  (∀ (s : State) (core : Nat) (j : LoadJob), core < 40 → (s.core core).load = some j → Answers (.loadDone core) s fun t =>
    t.fld (F.TC_LOAD_CMD_START core) = 0 ∧ t.fld (F.TC_LOAD_CMD_RESULT core) = j.result % 8 ∧ (t.core core).load = none ∧
    (∀ i, sget (PWord.clean 0) (if j.toData then (t.core core).dmem else (t.core core).imem) i =
      if j.dst ≤ i ∧ i < j.dst + j.words.length then j.words.getD (i - j.dst) (PWord.clean 0)
      else sget (PWord.clean 0) (if j.toData then (s.core core).dmem else (s.core core).imem) i) ∧
    (if j.toData then (t.core core).imem = (s.core core).imem else (t.core core).dmem = (s.core core).dmem) ∧
    ButAt State.core core s t ∧
    RegsBut [R.TC_LOAD_CMD core] s t ∧ SameBut [.regs, .msix, .sb, .cores] s t))

/-- SWAP, RESTART and HALT are requests that wait for the boundary. There a swap that passes its checks brings the staged entry,
worst case and partitions into force and one that fails changes none of them; a restart gives the context its reset registers at
its entry, WAITING; a halt stops a context that waits or runs (R45, R87, R89, R90). -/
def Obligations.ContextRequests : Prop :=
  (∀ (s : State) (src : Source) (core c : Nat) (v : Word), s.Reaches src (R.TC_CTX_CTRL core c) →
    let took : State → Word → Prop := fun t bit =>
      t.reg (R.TC_CTX_CTRL core c) = ((s.reg (R.TC_CTX_CTRL core c) &&& 0xE3000000) ||| ((v ||| bit) &&& 0xFC00FFFF)) ∧
      RegsBut [R.TC_CTX_CTRL core c] s t ∧ SameBut [.regs] s t
    Answers (.swap src core c v) s (fun t => took t 0x80000000) ∧ Answers (.restart src core c v) s (fun t => took t 0x40000000) ∧
    Answers (.halt src core c v) s (fun t => took t 0x20000000)) ∧
  (∀ (s : State) (core c : Nat), core < 40 → c < 16 →
    let x := s.ctx core c
    let t := s.ctxBoundary core c
    let y := t.ctx core c
    (s.fld (F.TC_CTX_CTRL_SWAP core c) = 1 → t.fld (F.TC_CTX_CTRL_SWAP core c) = 0 ∧
      t.fld (F.TC_CTX_CTRL_SWAP_RESULT core c) = s.swapCheck core c ∧
      (s.swapCheck core c = 0 → y.entry.toNat = s.fld (F.TC_CTX_ENTRY_ENTRY core c) / 4 * 4 ∧
        y.wcet = s.fld (F.TC_CTX_ENTRY_WCET core c) ∧ y.iFirst = s.fld (F.TC_CTX_PART_I_FIRST core c) ∧
        y.iLast = s.fld (F.TC_CTX_PART_I_LAST core c) ∧ y.dFirst = s.fld (F.TC_CTX_PART_D_FIRST core c) ∧
        y.dLast = s.fld (F.TC_CTX_PART_D_LAST core c)) ∧
      (s.swapCheck core c ≠ 0 → y.entry = x.entry ∧ y.wcet = x.wcet ∧ y.iFirst = x.iFirst ∧ y.iLast = x.iLast ∧
        y.dFirst = x.dFirst ∧ y.dLast = x.dLast)) ∧
    (s.fld (F.TC_CTX_CTRL_SWAP core c) = 0 → s.fld (F.TC_CTX_CTRL_RESTART core c) = 1 → s.fld (F.TC_CTX_CTRL_HALT core c) = 0 →
      s.ctxState core c ≠ 0 → t.ctxState core c = 1 ∧ t.fld (F.TC_CTX_CTRL_RESTART core c) = 0 ∧
      y = { x.restarted with policyDue := 0, due := s.stitch }) ∧
    (s.fld (F.TC_CTX_CTRL_SWAP core c) = 0 → s.fld (F.TC_CTX_CTRL_RESTART core c) = 0 → x.policyDue = 0 →
      s.fld (F.TC_CTX_CTRL_HALT core c) = 1 → s.ctxState core c = 1 ∨ s.ctxState core c = 2 →
      t.ctxState core c = 3 ∧ t.fld (F.TC_CTX_CTRL_HALT core c) = 0 ∧ y = x) ∧
    CtxsBut core c s t ∧ RegsBut [R.TC_CTX_CTRL core c, R.TC_CTX_STATE core c] s t)

/-! ## The Tree -/

/-- The commands of TREE_JOB_CMD: each is taken only in its states of R112 and is otherwise refused with BUSY and without effect.
ARM and VALIDATE start a validation, HOLD asks for a stop after the layer, RESUME leaves HELD, through a validation after
PSET_RELOAD and to REJECTED where the next layer has failed its checks, and ABORT stops the job from any state but IDLE, with
nothing left of its layer and every Awl's strokes cut (R108, R110, R112, R113). -/
def Obligations.JobCommands : Prop :=
  ∀ s : State,
  let st := s.jobState
  let atRest := st = 0 ∨ st = 6 ∨ st = 8 ∨ st = 9
  let status : State → Prop := fun t => RegsBut [R.TREE_JOB_STATUS] s t
  let busy : State → Prop := fun t => t.fld F.TREE_JOB_STATUS_RESULT = 1 ∧ t.jobState = st ∧ status t ∧ SameBut [.regs] s t
  let begun : Validating → State → Prop := fun v t => t.jobState = 1 ∧ t.fld F.TREE_JOB_STATUS_RESULT = 0 ∧
    t.fld F.TREE_JOB_STATUS_REJECT = 0 ∧ t.tree = { s.tree with
      validating := v, layer := none, next := none, nextFail := none, layerNo := 0xFFFFFFFF, reload := false
      since := t.tree.since } ∧ status t ∧ SameBut [.regs, .tree] s t
  (atRest → Answers .arm s (begun .arm) ∧ Answers .validate s (begun .walk)) ∧
  (¬ atRest → Answers .arm s busy ∧ Answers .validate s busy) ∧
  (st = 3 ∨ st = 4 ∨ st = 5 → Answers .hold s fun t => t.fld F.TREE_JOB_STATUS_HOLD_PENDING = 1 ∧
    t.fld F.TREE_JOB_STATUS_RESULT = 0 ∧ t.jobState = st ∧ status t ∧ SameBut [.regs] s t) ∧
  (¬ (st = 3 ∨ st = 4 ∨ st = 5) → Answers .hold s busy) ∧
  (st = 7 → s.tree.reload = false → s.tree.nextFail = none → Answers .resume s fun t => t.jobState = 2 ∧
    t.fld F.TREE_JOB_STATUS_RESULT = 0 ∧ t.reg R.TREE_JOB_LAYER = w32 s.tree.nextIndex ∧ t.tree.job = s.tree.job ∧
    RegsWhere (fun pl => pl.blk = .tree ∨ pl.blk = .hide ∨ pl.blk = .axis ∨ pl.blk = .sb ∨ pl.blk = .dmc) s t ∧
    SameBut [.regs, .readData, .resp, .msix, .fresh, .sb, .chans, .reins, .hide, .tree, .skiver] s t) ∧
  (∀ r, st = 7 → s.tree.reload = false → s.tree.nextFail = some r → Answers .resume s fun t => t.jobState = 9 ∧
    t.fld F.TREE_JOB_STATUS_RESULT = 2 ∧ t.fld F.TREE_JOB_STATUS_REJECT = r.code % 256 ∧
    t.reg R.TREE_REJECT_LAYER = w32 r.layer ∧ RegsWhere (fun pl => pl.blk = .tree) s t ∧
    SameBut [.regs, .msix, .fresh, .sb, .tree] s t) ∧
  (st = 7 → s.tree.reload = true → Answers .resume s fun t => t.jobState = 1 ∧ t.fld F.TREE_JOB_STATUS_RESULT = 0 ∧
    t.tree = { s.tree with validating := .reload, since := t.tree.since } ∧ status t ∧ SameBut [.regs, .tree] s t) ∧
  (st ≠ 7 → Answers .resume s busy) ∧
  (st = 7 → Answers .psetReload s fun t => t.tree = { s.tree with reload := true } ∧ t.fld F.TREE_JOB_STATUS_RESULT = 0 ∧
    t.jobState = 7 ∧ status t ∧ SameBut [.regs, .tree] s t) ∧
  (st ≠ 7 → Answers .psetReload s busy) ∧
  (st ≠ 0 → Answers .abort s fun t => t.jobState = 8 ∧ t.fld F.TREE_JOB_STATUS_RESULT = 0 ∧
    t.fld F.TREE_JOB_STATUS_HOLD_PENDING = 0 ∧ t.reg R.TREE_JOB_LAYER = 0xFFFFFFFF ∧ t.reg R.TREE_JOB_VALID = 0xFFFFFFFF ∧
    t.tree.layer = none ∧ t.tree.next = none ∧ t.tree.plans = [] ∧ t.tree.pass = none ∧
    (∀ k, k < s.part.row.lasers → (t.awl k).held = [] ∧ (t.awlState k = 4 ∨ t.awlState k = 5)) ∧
    (∀ k, s.part.row.lasers ≤ k → t.awl k = s.awl k ∧ t.rein k = s.rein k) ∧
    RegsWhere (fun pl => pl.blk = .tree ∨ pl.blk = .awl ∨ pl.blk = .rein ∨ pl.blk = .axis ∨ pl.blk = .sb ∨ pl.blk = .dmc) s t ∧
    SameBut [.regs, .readData, .resp, .msix, .fresh, .sb, .repeatAge, .awls, .reins, .hide, .tree, .axes, .skiver] s t) ∧
  (st = 0 → Answers .abort s busy)

/-- The life of a job: a validation that ARM asked for ends in HELD before the first layer, in DONE when no layer is left from
the first one on, or in REJECTED with the first failed check; a planned layer runs once ready was signalled in an earlier Stitch;
it closes when every unit is complete; then the job is done, rejected, held, or prepares the next layer, which is validated
meanwhile; a layer that reaches its budget is marked once (R108, R109, R110, R111, R138). -/
def Obligations.LayerFlow : Prop :=
  ∀ s : State,
  let j := s.readJob
  let i := s.tree.nextIndex
  let read : State → Prop := fun t => RegsWhere (fun pl => pl.blk = .tree ∨ pl.blk = .dmc ∨ pl.blk = .sb) s t ∧
    SameBut [.regs, .msix, .fresh, .sb, .chans, .tree] s t
  let prepares : State → Prop := fun t => t.jobState = 2 ∧ t.reg R.TREE_JOB_LAYER = w32 i ∧
    RegsWhere (fun pl => pl.blk = .tree ∨ pl.blk = .hide ∨ pl.blk = .axis ∨ pl.blk = .sb ∨ pl.blk = .dmc) s t ∧
    SameBut [.regs, .readData, .resp, .msix, .fresh, .sb, .chans, .reins, .hide, .tree, .skiver] s t
  let rejected : Reject → State → Prop := fun r t => t.jobState = 9 ∧ t.fld F.TREE_JOB_STATUS_RESULT = 2 ∧
    t.fld F.TREE_JOB_STATUS_REJECT = r.code % 256 ∧ t.reg R.TREE_REJECT_LAYER = w32 r.layer ∧
    t.reg R.TREE_REJECT_PATCH = w32 r.patch ∧ t.reg R.TREE_REJECT_STROKE = w32 r.stroke ∧ t.tree.validating = .nothing ∧ read t
  (s.tree.validating = .nothing → Answers .validationDone s fun t => t = s) ∧
  (∀ r, s.tree.validating = .arm ∨ s.tree.validating = .walk ∨ s.tree.validating = .reload →
    firstReject s.headerRejects = some r → Answers .validationDone s (rejected r)) ∧
  (∀ r, s.tree.validating = .arm → firstReject s.headerRejects = none → j.first < j.layers →
    s.useHeader.readLayer j j.first = .inr r → Answers .validationDone s (rejected r)) ∧
  (∀ l, s.tree.validating = .arm → firstReject s.headerRejects = none → j.first < j.layers →
    s.useHeader.readLayer j j.first = .inl l → Answers .validationDone s fun t => t.jobState = 7 ∧ t.tree.next = some l ∧
    t.tree.job = j ∧ t.tree.nextIndex = j.first ∧ t.tree.validating = .nothing ∧ t.reg R.TREE_JOB_VALID = w32 j.first ∧
    t.reg R.TREE_JOB_LAYER = 0xFFFFFFFF ∧ read t) ∧
  (s.tree.validating = .arm → firstReject s.headerRejects = none → j.layers ≤ j.first → Answers .validationDone s fun t =>
    t.jobState = 6 ∧ t.fld F.TREE_JOB_STATUS_ZERO_LEN = 1 ∧ t.reg R.TREE_JOB_LAYER = 0xFFFFFFFF ∧ read t) ∧
  (s.tree.validating = .walk → firstReject s.headerRejects = none → s.useHeader.walkLayers j 0 j.layers = none →
    Answers .validationDone s fun t => t.jobState = 0 ∧ t.fld F.TREE_JOB_STATUS_RESULT = 0 ∧ read t) ∧
  (∀ r, s.tree.validating = .walk → firstReject s.headerRejects = none → s.useHeader.walkLayers j 0 j.layers = some r →
    Answers .validationDone s (rejected r)) ∧
  (∀ l, s.tree.validating = .reload → firstReject s.headerRejects = none →
    s.readLayer (s.rereadPsets s.tree.job) i = .inl l → Answers .validationDone s prepares) ∧
  (s.tree.validating = .next → ¬ (s.tree.layer = none ∧ s.jobState = 2) →
    (∀ r, s.readLayer s.tree.job i = .inr r → Answers .validationDone s fun t => t.tree.nextFail = some r ∧
      t.tree.validating = .nothing ∧ t.jobState = s.jobState ∧ read t) ∧
    (∀ l, s.readLayer s.tree.job i = .inl l → Answers .validationDone s fun t => t.tree.next = some l ∧
      t.tree.validating = .nothing ∧ t.reg R.TREE_JOB_VALID = w32 i ∧ t.jobState = s.jobState ∧ read t)) ∧
  (s.tree.validating = .next → s.tree.layer = none → s.jobState = 2 →
    (∀ r, s.readLayer s.tree.job i = .inr r → Answers .validationDone s (rejected r)) ∧
    (∀ l, s.readLayer s.tree.job i = .inl l → Answers .validationDone s fun t => t.tree.layer = some l ∧
      t.reg R.TREE_JOB_VALID = w32 i ∧ t.tree.nextIndex = l.index + 1 ∧ t.jobState = 2 ∧ read t)) ∧
  (∀ l q, s.jobState = 2 → s.tree.layer = some l → s.tree.readyAt = some q → s.tree.planned = true → q < s.now →
    Answers .layerStart s fun t => t.jobState = 3 ∧ t.tree.runAt = s.now ∧ t.tree.cadence = s.now + 64 ∧
      (l.zeroLen = true → t.fld F.TREE_JOB_STATUS_ZERO_LEN = 1) ∧ RegsWhere (fun pl => pl.blk = .tree) s t ∧
      SameBut [.regs, .msix, .sb, .tree] s t) ∧
  (s.jobState = 3 ∨ s.jobState = 4 → s.tree.runAt < s.now → (∀ u ∈ s.units, u.phase = .complete) →
    Answers .layerClosed s fun t => t.jobState = 5 ∧ t.fld F.TREE_JOB_STATUS_ZERO_CNT = min 0xFF s.tree.zeros ∧
      t.reg R.TREE_PRED_END = 0 ∧ t.reg R.TREE_PRED_OVER = 0 ∧ t.tree.plans = [] ∧ t.tree.pass = none ∧
      RegsWhere (fun pl => pl.blk = .tree ∨ pl.blk = .hide) s t ∧ SameBut [.regs, .msix, .sb, .tree, .hide] s t) ∧
  (s.jobState = 5 → s.tree.since < s.now →
    (s.tree.lastLayer = true → Answers .layerAdvance s fun t => t.jobState = 6 ∧ t.reg R.TREE_JOB_LAYER = 0xFFFFFFFF ∧
      t.tree.layer = none ∧ RegsWhere (fun pl => pl.blk = .tree) s t ∧ SameBut [.regs, .msix, .sb, .tree] s t) ∧
    (∀ r, s.tree.lastLayer = false → s.tree.nextFail = some r → Answers .layerAdvance s (rejected r)) ∧
    (s.tree.lastLayer = false → s.tree.nextFail = none → s.fld F.TREE_JOB_STATUS_HOLD_PENDING = 1 →
      Answers .layerAdvance s fun t => t.jobState = 7 ∧ t.fld F.TREE_JOB_STATUS_HOLD_PENDING = 0 ∧
        t.reg R.TREE_JOB_LAYER = 0xFFFFFFFF ∧ RegsWhere (fun pl => pl.blk = .tree) s t ∧ SameBut [.regs, .msix, .sb, .tree] s t) ∧
    (s.tree.lastLayer = false → s.tree.nextFail = none → s.fld F.TREE_JOB_STATUS_HOLD_PENDING = 0 →
      Answers .layerAdvance s prepares)) ∧
  (∀ l, s.jobState = 3 ∨ s.jobState = 4 → s.tree.layer = some l → l.budget ≠ 0 → s.tree.isOver = false →
    s.tree.runAt + l.budget ≤ s.now → Answers .layerOver s fun t => t.tree = { s.tree with isOver := true } ∧
      t.fld F.TREE_STATUS_OVER = 1 ∧ RegsBut [R.TREE_STATUS] s t ∧ SameBut [.regs, .msix, .sb, .tree] s t)

/-- Placement: a plan pass ends and the next starts when it is due, and a late one is counted; a unit starts on a laser only when
its predecessors are complete, it is clear of the plumes of the units that other lasers run and far enough from them, its box is
cool enough and the log has room, and its first stroke is pushed; the strokes that follow go to the laser's queue one by one, and
a poisoned one ends its unit; a unit whose strokes have ended is complete; a lost laser's strokes are cut, its units return to the
Tree and an extra re-plan is asked for (R122, R127, R129, R130, R131, R132, R133, R134, R136, R140). -/
def Obligations.Placement : Prop :=
  ∀ s : State,
  let read : State → Prop := fun t =>
    RegsWhere (fun pl => pl.blk = .tree ∨ pl.blk = .dmc ∨ pl.blk = .sb ∨ pl.blk = .hide) s t ∧
    SameBut [.regs, .msix, .sb, .chans, .tree] s t
  (∀ p, s.tree.pass = some p → Answers .planPassDone s fun t =>
    t.tree = { s.tree with pass := some { p with ended := true } } ∧ SameBut [.tree] s t) ∧
  (s.tree.replanDue = true → s.jobState = 3 ∨ s.jobState = 4 → Answers .replan s fun t => SameBut [.tree] s t ∧
    t.tree = { s.tree with
      replanDue := false, pass := some ⟨s.planNow (some 16384) (s.now - s.tree.runAt), false⟩ }) ∧
  (s.tree.lateDue = true → Answers .replanLate s fun t => t.tree = { s.tree with lateDue := false } ∧
    (t.reg R.TREE_REPLAN_LATE).toNat = min 0xFFFFFFFF ((s.reg R.TREE_REPLAN_LATE).toNat + 1) ∧
    RegsBut [R.TREE_REPLAN_LATE] s t ∧ SameBut [.regs, .msix, .sb, .tree] s t) ∧
  (∀ (slot i : Nat) (u : PlaceUnit) (q : UnitPart) (l : LayerRec) (w : Nat), s.treeRuns = true →
    slot ∈ s.slots → s.tree.considered = slot → s.examine slot = (some i, w) →
    s.unit i = some u → u.parts[0]? = some q → s.tree.layer = some l →
    (∀ x ∈ s.dramWords (l.strokeArea + 16 * q.index) 4, x.poison = false) →
    Answers (.unitStart slot) s fun t =>
      (s.predsDone u = true ∧ (∀ v ∈ s.activeElsewhere slot, s.plumeClear u v = true ∧ s.apart u v = true) ∧
        s.coolEnough u = true ∧ s.logSpace = true) ∧
      (∃ len, t.unit i = some { u with
        phase := .started, laser := slot, order := s.tree.starts, startStitch := s.now, predLen := len, pushed := 1, ended := 0
        lastEnd := none }) ∧
      (∀ k, k ≠ i → t.unit k = s.unit k) ∧ t.fld (F.TREE_LASER_BUSY slot) = 1 ∧ t.tree.considered = slot + 1 ∧
      t.fld (F.TREE_LASER_PIECE slot) = u.piece % 16 ∧ t.fld (F.TREE_LASER_PATCH slot) = u.patch % 2 ^ 20 ∧ read t) ∧
  (∀ (slot w : Nat), s.treeRuns = true → slot ∈ s.slots → s.tree.considered = slot → s.examine slot = (none, w) →
    Answers (.unitStart slot) s fun t => t.tree = { s.tree with considered := slot + 1 } ∧ SameBut [.tree] s t) ∧
  (∀ (slot : Nat), s.treeRuns = true → slot < s.tree.considered → Answers (.unitStart slot) s fun t => t = s) ∧
  (∀ (slot i key : Nat) (u : PlaceUnit) (q : UnitPart) (l : LayerRec), s.treeRuns = true → s.inService slot = true →
    s.logSpace = true → s.namedQueue (s.reg (R.AWL_STROKEQ slot)) = some key → s.hasRoom (s.reg (R.AWL_STROKEQ slot)) 8 = true →
    ((s.runningOn slot).find? fun e => decide (e.2.pushed < e.2.parts.length)) = some (i, u) → s.unit i = some u →
    u.laser = slot → u.parts[u.pushed]? = some q → s.tree.layer = some l → (s.stream key).spill = false →
    ((∀ x ∈ s.dramWords (l.strokeArea + 16 * q.index) 4, x.poison = false) →
    Answers (.strokePush slot) s fun t => t.unit i = some { u with pushed := u.pushed + 1 } ∧
      (∀ k, k ≠ i → t.unit k = s.unit k) ∧
      (s.namedQueue (s.reg (R.DMC_EVQ 0)) ≠ some key → s.namedQueue (s.reg (R.DMC_EVQ 1)) ≠ some key →
        s.namedQueue (s.reg (R.DMC_EVQ 2)) ≠ some key → s.namedQueue (s.reg (R.DMC_EVQ 3)) ≠ some key →
        s.namedQueue (s.reg R.SB_EVQ) ≠ some key →
        5000 + treeReq ∉ (s.stream key).cut → findOpen (5000 + treeReq) (s.stream key).opens = none →
        (t.stream key).words = (s.stream key).words ++ packetWords (partPacket u u.pushed q)) ∧ read t) ∧
    ((∃ x ∈ s.dramWords (l.strokeArea + 16 * q.index) 4, x.poison = true) →
    Answers (.strokePush slot) s fun t =>
      t.unit i = some { u with parts := u.parts.take u.pushed, cut := true, lastEnd := some s.now } ∧
      (∀ k, k ≠ i → t.unit k = s.unit k) ∧ read t)) ∧
  (∀ (slot i : Nat) (u : PlaceUnit), slot < 32 → ((s.runningOn slot).find? fun e => s.unitOver e.2) = some (i, u) →
    s.unit i = some u → Answers (.unitComplete slot) s fun t => (∃ e, u.lastEnd = some e ∧ e < s.now) ∧
      t.unit i = some { u with phase := .complete } ∧
      (∀ k, k ≠ i → t.unit k = s.unit k ∨
        ∃ v, s.unit k = some v ∧ v.parts = [] ∧ t.unit k = some { v with phase := .complete }) ∧
      RegsWhere (fun pl => pl.blk = .tree) s t ∧ SameBut [.regs, .tree] s t) ∧
  (∀ (slot f : Nat), slot < 32 → (s.awl slot).lossDue = some f → f ≤ s.now →
    Answers (.laserLost slot) s fun t => t.tree.extra = true ∧
      t.awl slot = { s.awl slot with held := [], lossDue := none } ∧ ButAt State.awl slot s t ∧
      (∀ e ∈ s.runningOn slot, e.2.lastEnd = none → ∀ v, t.unit e.1 = some v → v.phase ≠ .started ∧ v.remainder ≠ none) ∧
      RegsWhere (fun pl => pl.blk = .tree ∨ (pl.blk = .awl ∧ pl.unit = slot) ∨ pl.blk = .sb ∨ pl.blk = .dmc) s t ∧
      SameBut [.regs, .readData, .resp, .msix, .fresh, .sb, .repeatAge, .awls, .hide, .tree] s t) ∧
  (∀ (r : LogRec) (rs : List LogRec), s.tree.log = r :: rs → (r.stroke = true → r.stitch < s.now) →
    s.hasRoom (s.reg R.TREE_LOG_Q) 4 = true → Answers .placementLogRecord s fun t =>
      t.tree = { s.tree with log := rs, slotsUsed := if r.stroke then s.tree.slotsUsed - 1 else s.tree.slotsUsed } ∧
      RegsBut [] s t ∧ SameBut [.regs, .msix, .sb, .tree, .harn] s t) ∧
  (∀ (src : Source) (v : Word), s.Reaches src R.TREE_SLOT_SERVICE → Answers (.treeSlotServiceWrite src v) s fun t =>
    t.reg R.TREE_SLOT_SERVICE = s.reg R.TREE_SLOT_SERVICE ∧
    t.written R.TREE_SLOT_SERVICE = v &&& w32 (2 ^ s.part.row.lasers - 1) ∧ RegsBut [] s t ∧
    StagedBut [R.TREE_SLOT_SERVICE] s t ∧ SameBut [.regs, .staged] s t)

/-! ## The map -/

/-- The map is enabled only with no job in hand, and otherwise the write is refused with BUSY_WRITE and keeps ENABLE: a size of
zero and sizes or a pitch out of range are refused at the next boundary, and otherwise the grid is placed, or not placed for want
of space, and filled with BASE; a fill that ends makes ENABLED read 1 at the boundary; a disable releases the grid (R37, R144).
Readers see the cells as the boundary left them (R147).
A pass that is due starts with the coefficients in force, and ends in the sweep window that writes its last cell: a pass that
one window holds gives every cell the sweep step of it and its four neighbours as they stood, an edge standing for its own
neighbour, up to the top of the code; a record waits for the window, or is discarded while the gain is zero, or dropped and
counted when it is malformed; a record for one cell moves it towards the measured value by the gain; a deposit with a footprint of
one cell heats its cell by the absorbed part of the power over the on-time; an archive that ends frees the copy and moves the ring
on (R149, R151, R152, R154, R155, R159). -/
def Obligations.HideMap : Prop :=
  (
  (∀ (s : State) (src : Source) (v : Word), s.Reaches src R.HIDE_CTRL →
    let w := s.fld F.HIDE_GRID_WIDTH
    let h := s.fld F.HIDE_GRID_HEIGHT
    let p := (s.reg R.HIDE_PITCH).toNat
    let fits := w ≤ 2048 ∧ h ≤ 2048 ∧ 1600 ≤ p ∧ p ≤ 32000
    let foot : State → Prop := fun t => t.written R.HIDE_CTRL = putBits (s.written R.HIDE_CTRL) 2 1 (getBits v 2 1) ∧
      StagedBut [R.HIDE_CTRL] s t
    let busy : State → Prop := fun t => t.fld F.HIDE_CTRL_ENABLE = s.fld F.HIDE_CTRL_ENABLE ∧
      (s.flag F.SYS_ACC_INFO_VALID = false → t.flag F.SYS_ACC_INFO_VALID = true ∧ t.fld F.SYS_ACC_INFO_CODE = 3) ∧
      foot t ∧ RegsBut AccRegs s t ∧ SameBut [.regs, .staged, .msix, .sb] s t
    let refused : Nat → State → Prop := fun r t => t.fld F.HIDE_CTRL_ENABLE = 1 ∧ t.hide = { s.hide with refused := some r } ∧
      foot t ∧ RegsBut [R.HIDE_CTRL] s t ∧ SameBut [.regs, .staged, .hide] s t
    (s.fld F.HIDE_CTRL_ENABLE = 1 → Answers (.hideEnable src v) s fun t => foot t ∧ RegsBut [] s t ∧ SameBut [.staged] s t) ∧
    (s.fld F.HIDE_CTRL_ENABLE = 0 → s.jobAtRest = false → Answers (.hideEnable src v) s busy) ∧
    (s.fld F.HIDE_CTRL_ENABLE = 0 → s.jobAtRest = true → w = 0 ∨ h = 0 → Answers (.hideEnable src v) s (refused 1)) ∧
    (s.fld F.HIDE_CTRL_ENABLE = 0 → s.jobAtRest = true → w ≠ 0 → h ≠ 0 → ¬ fits → Answers (.hideEnable src v) s (refused 2)) ∧
    (s.fld F.HIDE_CTRL_ENABLE = 0 → s.jobAtRest = true → w ≠ 0 → h ≠ 0 → fits → Answers (.hideEnable src v) s fun t =>
      refused 3 t ∨ (t.fld F.HIDE_CTRL_ENABLE = 1 ∧ t.hide.grid ≠ 0 ∧
        t.hide = { s.hide with grid := t.hide.grid, filling := true, fill := s.fld F.HIDE_BASE_VALUE, cells := [] } ∧
        (∀ j, t.stream j = s.stream j ∨ t.named t.hide.grid = some j) ∧ foot t ∧
        RegsBut [R.HIDE_CTRL, R.SB_CLASS_USED 0] s t ∧ SameBut [.regs, .staged, .fresh, .sb, .hide] s t)) ∧
    (s.fld F.HIDE_CTRL_ENABLE = 0 → Answers (.hideDisable src v) s fun t => foot t ∧ RegsBut [] s t ∧ SameBut [.staged] s t) ∧
    (s.fld F.HIDE_CTRL_ENABLE = 1 → s.jobAtRest = false → Answers (.hideDisable src v) s busy) ∧
    (s.fld F.HIDE_CTRL_ENABLE = 1 → s.jobAtRest = true → Answers (.hideDisable src v) s fun t =>
      t.fld F.HIDE_CTRL_ENABLE = 0 ∧ t.fld F.HIDE_STATUS_ENABLED = 0 ∧ t.fld F.HIDE_STATUS_PASS = 0 ∧ t.hide.grid = 0 ∧
      t.hide.cells = [] ∧ t.hide.pass = none ∧ t.hide.work = [] ∧ (∀ j, t.stream j = s.stream j ∨ s.named s.hide.grid = some j) ∧
      foot t ∧ RegsWhere (fun pl => pl.blk = .hide ∨ pl.blk = .sb) s t ∧
      SameBut [.regs, .staged, .readData, .resp, .sb, .hide] s t)) ∧
  (∀ s : State, (s.hide.filling = true → Answers .hideFillDone s fun t => SameBut [.hide] s t ∧
    t.hide = { s.hide with filling := false, filled := true }) ∧
    (s.hide.filling = false → Answers .hideFillDone s fun t => t = s)) ∧
  (∀ s : State, s.hide.filled = true → s.hide.refused = none → s.hideBoundary.fld F.HIDE_STATUS_ENABLED = 1 ∧
    s.hideBoundary.fld F.HIDE_STATUS_RESULT = 0) ∧
  (∀ (s : State) (r : Nat), s.hide.refused = some r → s.hide.filled = false → r < 4 →
    s.hideBoundary.fld F.HIDE_STATUS_RESULT = r ∧ s.hideBoundary.fld F.HIDE_CTRL_ENABLE = 0) ∧
  (∀ (s : State) (k : Nat), s.hideBoundary.cellSeen k = s.hideBoundary.cell k)) ∧
  (
  ∀ s : State,
  (s.hide.passDue = true → s.hide.pass = none → s.hideOn = true → Answers .sweepPassStart s fun t =>
    t.hide = { s.hide with
      passDue := false, swept := false
      pass := some ⟨0, s.fld F.HIDE_BASE_VALUE, s.fld F.HIDE_COOL_VALUE, s.fld F.HIDE_COND_VALUE, [], [], []⟩ } ∧
    t.fld F.HIDE_STATUS_PASS = 1 ∧ RegsBut [R.HIDE_STATUS] s t ∧ SameBut [.regs, .hide] s t) ∧
  (¬ (s.hide.passDue = true ∧ s.hide.pass = none ∧ s.hideOn = true) → Answers .sweepPassStart s fun t => t = s) ∧
  (∀ p, s.hide.pass = some p → s.hide.swept = false → s.hideW * s.hideH ≤ p.pos + s.sweepRate → Answers .sweepPassEnd s fun t =>
    t.hide.pass = none ∧ t.hide.swept = true ∧ t.hide.worked = true ∧ t.fld F.HIDE_STATUS_PASS = 0 ∧
    (∀ k, s.hideW * s.hideH ≤ k ∨ k < p.pos → t.cell k = s.hideWork.cell k) ∧
    (p.pos = 0 → ∀ i j, i < s.hideW → j < s.hideH →
      let c : Nat → Nat → Int := fun i j => s.hideWork.cell (j * s.hideW + i)
      t.cell (j * s.hideW + i) = min 0xFFFF (sweepStep (c i j) (c i (j - 1)) (c i (min (j + 1) (s.hideH - 1)))
        (c (min (i + 1) (s.hideW - 1)) j) (c (i - 1) j) p.base p.cool p.cond).toNat) ∧
    RegsBut [R.HIDE_STATUS, R.HIDE_OUTSIDE] s t ∧ SameBut [.regs, .msix, .sb, .hide] s t) ∧
  (let r := s.popPacket 240 (s.reg R.HIDE_ASSIM_Q)
   let gain := s.fld F.HIDE_ASSIM_GAIN_VALUE
   s.hide.worked = false → s.hide.assimLeft ≠ 0 → s.packetWaits (s.reg R.HIDE_ASSIM_Q) = true →
    (gain = 0 → Answers .assimRecord s fun t => t = r.1) ∧
    (gain ≠ 0 → assimRecord r.2 = none → Answers .assimRecord s fun t =>
      (t.reg R.HIDE_ASSIM_DROP).toNat = min 0xFFFFFFFF ((s.reg R.HIDE_ASSIM_DROP).toNat + 1) ∧
      RegsBut [R.HIDE_ASSIM_DROP] r.1 t ∧ SameBut [.regs] r.1 t) ∧
    (∀ rec, gain ≠ 0 → assimRecord r.2 = some rec → s.hideOn = true → s.hide.restarting = false → Answers .assimRecord s fun t =>
      t = { r.1 with hide := { r.1.hide with
        work := r.1.hide.work ++ [rec], assimLeft := r.1.hide.assimLeft - rec.w * rec.h } })) ∧
  (∀ (i j m : Nat), s.hide.work = [⟨i, j, 1, 1, [m], 0⟩] → s.inGrid i j = true → i < 4096 → j < 4096 → m ≠ 0 → m ≤ 0xFFFF →
    s.cell (s.cellKey i j) ≤ 0xFFFF →
    let t := s.assimRun 320 322
    let old : Int := s.cell (s.cellKey i j)
    t.cell (s.cellKey i j) = (old + roundShift (((m : Int) - old) * (s.fld F.HIDE_ASSIM_GAIN_VALUE : Int)) 16).toNat ∧
    (∀ k, k ≠ s.cellKey i j → t.cell k = s.cell k) ∧ t.hide.work = [] ∧ SameBut [.hide] s t) ∧
  (∀ (k code on : Nat) (x y : Int), on ≠ 0 → s.hideOn = true → s.hide.restarting = false → s.hideFoot = 0 →
    let t := s.deposit k code on x y
    let w := (code * (s.reg (R.HIDE_DEPK k)).toNat + 0x8000) / 2 ^ 16
    let d := (w * on + s.period / 2) / s.period
    let key := s.cellKey (s.hideCol x) (s.hideRow y)
    (s.inGrid (s.hideCol x) (s.hideRow y) = true → s.cell key ≤ 0xFFFF → t.cell key = min 0xFFFF (s.cell key + d) ∧
      (∀ j, j ≠ key → t.cell j = s.cell j) ∧ RegsBut [R.HIDE_STATUS] s t ∧ SameBut [.regs, .msix, .sb, .hide] s t) ∧
    (s.inGrid (s.hideCol x) (s.hideRow y) = false →
      (t.reg R.HIDE_OUTSIDE).toNat = min 0xFFFFFFFF ((s.reg R.HIDE_OUTSIDE).toNat + 1) ∧ t.hide = s.hide ∧
      RegsBut [R.HIDE_OUTSIDE] s t ∧ SameBut [.regs] s t)) ∧
  (∀ a, s.hide.arch = some a → Answers .archived s fun t => t.hide = { s.hide with arch := none } ∧
    t.fld F.HIDE_STATUS_ARCH_BUSY = 0 ∧
    (s.fld F.HIDE_ARCH_SLOTS_VALUE ≠ 0 → t.fld F.HIDE_STATUS_ARCH_NEXT = (a.slot + 1) % s.fld F.HIDE_ARCH_SLOTS_VALUE) ∧
    t.mem = (s.copyOut a.base (wordsOfBytes a.bytes)).mem ∧ 
    (∀ b, b ≠ R.HIDE_STATUS → ¬ EventReg b → (∀ pl, placeOf b = some pl → pl.blk ≠ .dmc) → t.reg b = s.reg b) ∧
    SameBut [.regs, .msix, .sb, .mem, .badLines, .chans, .repeatAge, .hide] s t))

/-! ## The Awls -/

/-- An Awl pops a packet when its window has room: a malformed packet, a poisoned one, one that names no parameter set or whose
plan fails falls due as a fault, and so does a stroke queue that is no live queue; a stroke that its plan takes puts the slot in
RUN with the stroke in its window; a stroke whose end has come leaves the window, becomes the slot's last one unless it was
skipped, is counted to its unit and goes to the placement log (R132, R140, R161, R162, R163). -/
def Obligations.Strokes : Prop :=
  ∀ (s : State) (slot : Nat), slot < 32 →
  (let q := s.reg (R.AWL_STROKEQ slot)
   let r := s.popPacket (slotReq slot) q
   let w : Nat → Word := fun i => (r.2.getD i (PWord.clean 0)).val
   let h := heldOf (w 4) (w 5) (getBits (w 3) 17 17 == 1)
   let k := { strokeOf (w 0) (w 1) (w 2) (w 3) with dir := r.1.inherited h }
   let pl := (r.1.planCtx slot).stroke k (r.1.pset slot k.pset) h
   let frame : State → State → Prop := fun u t => ButAt State.awl slot u t ∧
     RegsBut [R.AWL_STATUS slot, R.AWL_POS_X slot, R.AWL_POS_Y slot, R.AWL_DEFER_CNT slot, R.AWL_ARC_SLOW_CNT slot] u t ∧
     SameBut [.regs, .msix, .sb, .awls] u t
   let due : Nat → State → Prop := fun c t => c ∈ (t.awl slot).due ∧ (t.awl slot).held = (s.awl slot).held ∧
     (t.awl slot).motions = (s.awl slot).motions ∧ t.awlState slot = s.awlState slot ∧ frame r.1 t
   (q = 0 ∨ 3 ≤ s.awlState slot ∨ (s.awl slot).due ≠ [] ∨ 4 ≤ s.awlWindow slot → Answers (.strokePop slot) s fun t => t = s) ∧
   (q ≠ 0 → s.awlState slot ≤ 2 → (s.awl slot).due = [] → s.awlWindow slot < 4 →
    (s.namedQueue q = none → Answers (.strokePop slot) s fun t =>
      t.awl slot = { s.awl slot with due := [5] } ∧ ButAt State.awl slot s t ∧ SameBut [.awls] s t) ∧
    (s.namedQueue q ≠ none → s.packetWaits q = false → Answers (.strokePop slot) s fun t => t = s) ∧
    (s.packetWaits q = true →
    (badPacket r.2 = true → Answers (.strokePop slot) s (due 1)) ∧
    (badPacket r.2 = false → (∃ p ∈ r.2, p.poison = true) → Answers (.strokePop slot) s (due 2)) ∧
    (badPacket r.2 = false → (∀ p ∈ r.2, p.poison = false) → r.1.psetCount slot ≤ k.pset → Answers (.strokePop slot) s (due 1)) ∧
    (badPacket r.2 = false → (∀ p ∈ r.2, p.poison = false) → k.pset < r.1.psetCount slot →
      (∃ p ∈ (r.1.psetWords slot k.pset).take 7, p.poison = true) → Answers (.strokePop slot) s (due 2)) ∧
    (badPacket r.2 = false → (∀ p ∈ r.2, p.poison = false) → k.pset < r.1.psetCount slot →
      (∀ p ∈ (r.1.psetWords slot k.pset).take 7, p.poison = false) →
      (pl.fault = 0 → Answers (.strokePop slot) s fun t => t.awlState slot = 1 ∧ (t.awl slot).held = pl.a.held ∧
        (t.awl slot).motions = pl.a.motions ∧ (t.awl slot).lits = pl.a.lits ∧ frame r.1 t) ∧
      (pl.fault ≠ 0 → Answers (.strokePop slot) s (due pl.fault)))))) ∧
  (∀ (h : HeldStroke) (hs : List HeldStroke), (s.awl slot).held = h :: hs → h.endStitch ≤ s.now → s.awlState slot ≤ 2 →
    Answers (.strokeEnd slot) s fun t =>
      t.awl slot = (if h.zero then { s.awl slot with held := hs }
        else { s.awl slot with held := hs, nom := h.nom, pset := h.pset, focus := h.focus }) ∧
      ButAt State.awl slot s t ∧ ButAt State.rein slot s t ∧
      (t.rein slot = s.rein slot ∨ t.rein slot = { s.rein slot with begun := true }) ∧
      (∀ (i : Nat) (u : PlaceUnit), s.unit i = some u → ¬ (u.patch = h.patch ∧ u.piece = h.piece) → t.unit i = some u) ∧
      (s.reg R.TREE_LOG_Q ≠ 0 → t.tree.log.length = s.tree.log.length + 1 ∧
        ∃ rec ∈ t.tree.log, rec.words = strokeRecord slot ⟨h, h.endStitch, 0⟩) ∧
      (s.reg R.TREE_LOG_Q = 0 → t.tree.log = s.tree.log) ∧
      RegsBut [R.AWL_STATUS slot] s t ∧ SameBut [.regs, .awls, .reins, .tree] s t) ∧
  ((∀ h ∈ (s.awl slot).held.head?, s.now < h.endStitch) ∨ 3 ≤ s.awlState slot → Answers (.strokeEnd slot) s fun t => t = s)

/-- STOP and a sampled fault, the lowest code first, gate the laser off at once, turn its loop OFF once the boundary has evaluated
and stop the spot along its path; at rest the slot is IDLE, or in FAULT with the lowest code of the stop; only CLEAR leaves
FAULT, and nothing else is cleared (R164, R183, R184).
GOTO is taken in IDLE and GOTO for a target inside the field and with a speed, an acceleration and a jerk, and is otherwise
refused or falls due as a fault; the slot is IDLE again once the spot is there; a pending grid or focus change comes into force in
IDLE, WAIT, FAULT or at rest after a GOTO (R171, R175). -/
def Obligations.StopsAndMoves : Prop :=
  (
  ∀ (s : State) (slot : Nat), slot < 32 →
  let a := s.awl slot
  let frame : List Nat → State → Prop := fun l t => ButAt State.awl slot s t ∧ RegsBut l s t ∧
    SameBut [.regs, .msix, .sb, .awls] s t
  let spot := [R.AWL_STATUS slot, R.AWL_POS_X slot, R.AWL_POS_Y slot]
  let stopped : State → Prop := fun t => t.awlState slot = 4 ∧ (t.awl slot).lits = [] ∧ (t.awl slot).formed.gate0 = false ∧
    (t.awl slot).formed.e0 = none ∧ (t.awl slot).lossDue = some (s.now + 1) ∧ (t.awl slot).held = a.held ∧
    ((s.rein slot).seenT = s.tclk → t.loop slot = 0) ∧ ((s.rein slot).seenT ≠ s.tclk → t.loop slot = s.loop slot) ∧
    ButAt State.awl slot s t ∧ ButAt State.rein slot s t ∧ (t.rein slot = s.rein slot ∨
      t.rein slot = { s.rein slot with trig := 5 :: (s.rein slot).trig }) ∧
    RegsBut (spot ++ [R.REIN_STATUS slot]) s t ∧ SameBut [.regs, .msix, .sb, .awls, .reins] s t
  let result : Nat → State → Prop := fun r t => t.fld (F.AWL_STATUS_RESULT slot) = r ∧ t.awlState slot = s.awlState slot ∧
    RegsBut [R.AWL_STATUS slot] s t ∧ SameBut [.regs] s t
  (s.awlState slot < 4 → Answers (.awlStop slot) s fun t => stopped t ∧ t.fld (F.AWL_STATUS_RESULT slot) = 0 ∧
    (t.awl slot).stopCode = 0) ∧
  (s.awlState slot = 4 → Answers (.awlStop slot) s (result 0)) ∧
  (s.awlState slot = 5 → Answers (.awlStop slot) s (result 1)) ∧
  (∀ code, code ∈ a.due → code ≠ 0 → (∀ c ∈ a.due, code ≤ c) → s.awlState slot < 4 → Answers (.awlFault slot code) s fun t =>
    stopped t ∧ (t.awl slot).stopCode = code ∧ (t.awl slot).codes = [code] ∧ code ∉ (t.awl slot).due) ∧
  (∀ code, code ∈ a.due → (∀ c ∈ a.due, code ≤ c) → s.awlState slot = 4 → Answers (.awlFault slot code) s fun t =>
    t.awl slot = { a with
      due := a.due.filter (fun c => c != code), codes := insertSorted code a.codes
      stopCode := if a.stopCode = 0 then code else min a.stopCode code } ∧ ButAt State.awl slot s t ∧ SameBut [.awls] s t) ∧
  (∀ code, code ∉ a.due ∨ (∃ c ∈ a.due, c < code) ∨ s.awlState slot = 5 → Answers (.awlFault slot code) s fun t => t = s) ∧
  (s.awlState slot = 4 → a.planT ≤ s.tclk → Answers (.awlRest slot) s fun t => (t.awl slot).motions = [] ∧
    (t.awl slot).restX = a.planX ∧ (t.awl slot).restY = a.planY ∧ (t.awl slot).held = a.held ∧
    (if a.stopCode = 0 then t.awlState slot = 0 else t.awlState slot = 5 ∧ t.fld (F.AWL_STATUS_FAULT slot) = a.stopCode % 256) ∧
    frame spot t) ∧
  (¬ (s.awlState slot = 4 ∧ a.planT ≤ s.tclk) → Answers (.awlRest slot) s fun t => t = s) ∧
  (s.awlState slot = 5 → Answers (.awlClear slot) s fun t => t.awlState slot = 0 ∧ t.fld (F.AWL_STATUS_FAULT slot) = 0 ∧
    t.fld (F.AWL_STATUS_RESULT slot) = 0 ∧ (t.awl slot).stopCode = 0 ∧ (t.awl slot).codes = [] ∧ (t.awl slot).held = a.held ∧
    frame spot t) ∧
  (s.awlState slot ≠ 5 → Answers (.awlClear slot) s (result 1))) ∧
  (
  ∀ (s : State) (slot : Nat), slot < 32 →
  let a := s.awl slot
  let x := (s.reg (R.AWL_GOTO_X slot)).toInt
  let y := (s.reg (R.AWL_GOTO_Y slot)).toInt
  let inside := (s.awlParams slot).inside x y = true
  let moves := s.reg (R.AWL_ACC slot) ≠ 0 ∧ s.reg (R.AWL_JERK slot) ≠ 0 ∧ s.reg (R.AWL_GOTO_SPEED slot) ≠ 0
  let frame : State → Prop := fun t => ButAt State.awl slot s t ∧
    RegsBut [R.AWL_STATUS slot, R.AWL_POS_X slot, R.AWL_POS_Y slot] s t ∧ SameBut [.regs, .msix, .sb, .awls] s t
  let result : State → Nat → Prop := fun t r => t.fld (F.AWL_STATUS_RESULT slot) = r
  (s.awlState slot = 0 ∨ s.awlState slot = 3 → inside → moves → Answers (.goto slot) s fun t => t.awlState slot = 3 ∧
    result t 0 ∧ (t.awl slot).gotoX = x ∧ (t.awl slot).gotoY = y ∧ frame t) ∧
  (s.awlState slot = 0 ∨ s.awlState slot = 3 → ¬ inside → Answers (.goto slot) s fun t => result t 2 ∧
    t.awlState slot = s.awlState slot ∧ RegsBut [R.AWL_STATUS slot] s t ∧ SameBut [.regs] s t) ∧
  (s.awlState slot = 0 ∨ s.awlState slot = 3 → inside → ¬ moves → Answers (.goto slot) s fun t => result t 0 ∧
    t.awl slot = { a with due := if 3 ∈ a.due then a.due else a.due ++ [3] } ∧
    t.awlState slot = s.awlState slot ∧ ButAt State.awl slot s t ∧ RegsBut [R.AWL_STATUS slot] s t ∧
    SameBut [.regs, .awls] s t) ∧
  (s.awlState slot ≠ 0 → s.awlState slot ≠ 3 → Answers (.goto slot) s fun t => result t 1 ∧
    t.awlState slot = s.awlState slot ∧ RegsBut [R.AWL_STATUS slot] s t ∧ SameBut [.regs] s t) ∧
  (s.awlState slot = 3 → a.planT ≤ s.tclk → Answers (.gotoDone slot) s fun t => t.awlState slot = 0 ∧
    (t.awl slot).motions = [] ∧ (t.awl slot).restX = a.planX ∧ (t.awl slot).restY = a.planY ∧ frame t) ∧
  (¬ (s.awlState slot = 3 ∧ a.planT ≤ s.tclk) → Answers (.gotoDone slot) s fun t => t = s) ∧
  (let rests := s.awlState slot = 0 ∨ s.awlState slot = 2 ∨ s.awlState slot = 5 ∨ (s.awlState slot = 3 ∧ a.planT ≤ s.tclk)
   (s.corrPending slot = true → rests → Answers (.corrChange slot) s fun t => t.corrPending slot = false ∧
    t.fld (F.AWL_STATUS_CORR_PEND slot) = 0 ∧ (t.awl slot).corrSel = s.flag (F.AWL_CTRL_CORR_SEL slot) ∧
    (t.awl slot).corrEn = s.flag (F.AWL_CTRL_CORR_EN slot) ∧ (t.awl slot).focusEn = s.flag (F.AWL_CTRL_FOCUS_EN slot) ∧
    (t.awl slot).shift = s.fld (F.AWL_CORR_SHIFT_VALUE slot) ∧
    (t.awl slot).motions = a.motions ∧ t.awlState slot = s.awlState slot ∧ frame t) ∧
   (¬ (s.corrPending slot = true ∧ rests) → Answers (.corrChange slot) s fun t => t = s)))

/-! ## The Reins -/

/-- A loss of feedback and a frozen measurement are shown and put a closed loop in FALLBACK with the level MID; a following error
acts by the policy, unless an ABORT stopped the job at this boundary: CONTINUE, HOLD_LOW, or a hand-back, which takes the slot out
of service with the command at zero; a trim load waits for the boundary, where it is clamped; a granted ceiling comes into force
while the Awl is not in RUN (R199, R200, R201, R202, R203, R204, R206, R207, R208).
A write of REIN_TRC_CTRL takes its settings; ARM and FORCE wait for the boundary, and STOP acts at once: it empties an armed
unit's ring, and abandons a capture, whose open packet is marked bad, and counts it. A capture that has its last record is
committed and its unit idles, or is armed again under REARM (R211, R213). -/
def Obligations.ReinAndTraces : Prop :=
  (
  ∀ (s : State) (slot : Nat), slot < 32 →
  let r := s.rein slot
  let regs := [R.REIN_STATUS slot, R.REIN_POWER slot, R.REIN_CLIP_CNT slot, R.AWL_POS_X slot, R.AWL_POS_Y slot]
  let others : State → Prop := fun t => ButAt State.rein slot s t ∧ ButAt State.awl slot s t
  let frame : State → Prop := fun t => others t ∧ RegsBut regs s t ∧ SameBut [.regs, .msix, .sb, .awls, .reins] s t
  (Answers (.trimLoad slot) s fun t => t.rein slot = { r with loadDue := true } ∧ ButAt State.rein slot s t ∧
    SameBut [.reins] s t) ∧
  (r.loadDue = true → ((s.trimBoundary slot).rein slot).loadDue = false ∧ ((s.trimBoundary slot).rein slot).ti =
    clampTrim (s.fld (F.REIN_TRIM_MAX_VALUE slot)) (signed 16 (s.fld (F.REIN_TRIM_LOAD_VALUE slot)) * 65536)) ∧
  (r.lostDue = true → Answers (.feedbackLost slot) s fun t => t.fld (F.REIN_STATUS_LOST slot) = 1 ∧
    (t.rein slot).lostRaised = true ∧ (t.rein slot).lostDue = false ∧
    (s.loop slot = 1 → t.loop slot = 2 ∧ t.fld (F.REIN_STATUS_LEVEL slot) = 0) ∧ (s.loop slot ≠ 1 → t.loop slot = s.loop slot) ∧
    frame t) ∧
  (r.lostDue = false → Answers (.feedbackLost slot) s fun t => t = s) ∧
  (r.frozenDue = true → Answers (.feedbackFrozen slot) s fun t => t.fld (F.REIN_STATUS_FROZEN slot) = 1 ∧
    (t.rein slot).frozenRaised = true ∧ (t.rein slot).frozenM = r.lastM ∧ (t.rein slot).frozenDue = false ∧
    (s.loop slot = 1 → t.loop slot = 2 ∧ t.fld (F.REIN_STATUS_LEVEL slot) = 0) ∧ (s.loop slot ≠ 1 → t.loop slot = s.loop slot) ∧
    frame t) ∧
  (r.frozenDue = false → Answers (.feedbackFrozen slot) s fun t => t = s) ∧
  (r.followDue = true → Answers (.following slot) s fun t => t.fld (F.REIN_STATUS_FOLLOWING slot) = 1 ∧
    (t.rein slot).followDue = false ∧ others t ∧
    (s.jobState = 8 → s.tree.since = s.now → t.loop slot = s.loop slot ∧ t.awlState slot = s.awlState slot ∧ frame t) ∧
    (¬ (s.jobState = 8 ∧ s.tree.since = s.now) →
      (s.fld (F.REIN_CTRL_POLICY slot) = 0 → t.loop slot = (if s.loop slot = 0 then 0 else 3) ∧ frame t) ∧
      (s.fld (F.REIN_CTRL_POLICY slot) = 1 → t.loop slot = (if s.loop slot = 0 then 0 else 4) ∧ frame t) ∧
      (2 ≤ s.fld (F.REIN_CTRL_POLICY slot) → t.loop slot = 5 ∧ t.fld (F.REIN_STATUS_HANDED slot) = 1 ∧
        (t.rein slot).cmd = 0 ∧ t.fld (F.REIN_POWER_CMD slot) = 0 ∧ getBits (t.reg R.TREE_SLOT_SERVICE) slot slot = 0 ∧
        getBits (t.written R.TREE_SLOT_SERVICE) slot slot = 0 ∧
        (∀ j, j < 32 → j ≠ slot → getBits (t.reg R.TREE_SLOT_SERVICE) j j = getBits (s.reg R.TREE_SLOT_SERVICE) j j ∧
          getBits (t.written R.TREE_SLOT_SERVICE) j j = getBits (s.written R.TREE_SLOT_SERVICE) j j) ∧
        (s.awlState slot = 1 ∨ s.awlState slot = 2 → t.awlState slot = 4) ∧
        (s.awlState slot ≠ 1 → s.awlState slot ≠ 2 → t.awlState slot = s.awlState slot) ∧
        RegsBut ([R.TREE_SLOT_SERVICE, R.AWL_STATUS slot] ++ regs) s t ∧ StagedBut [R.TREE_SLOT_SERVICE] s t ∧
        SameBut [.regs, .staged, .msix, .sb, .awls, .reins] s t))) ∧
  (r.followDue = false → Answers (.following slot) s fun t => t = s) ∧
  (∀ w, r.ceilDue = some w → s.awlState slot ≠ 1 → Answers (.ceilingCommit slot) s fun t =>
    t.rein slot = { r with ceilDue := none } ∧ t.fld (F.REIN_CEILING_WATTS slot) = w % 2 ^ 20 ∧
    ButAt State.rein slot s t ∧ RegsBut [R.REIN_CEILING slot] s t ∧ SameBut [.regs, .reins] s t) ∧
  (r.ceilDue = none ∨ s.awlState slot = 1 → Answers (.ceilingCommit slot) s fun t => t = s)) ∧
  (
  ∀ (s : State) (slot u : Nat), slot < 32 → u < 4 → (s.rein slot).traceDue = false →
  let a := R.REIN_TRC_CTRL slot u
  let taken : Word → Word := fun v => (s.reg a &&& 0xA0000000) ||| (v &&& 0xB007FFFF)
  let others : State → Prop := fun t => ButAt State.rein slot s t ∧ (∀ j, j < 4 → j ≠ u → t.trace slot j = s.trace slot j) ∧
    t.rein slot = { s.rein slot with traces := (t.rein slot).traces }
  (∀ (src : Source) (v : Word), s.Reaches src a →
    (v &&& 0x40000000 = 0 → Answers (.traceArm src slot u v) s fun t => t.reg a = taken (v ||| 0x80000000) ∧ RegsBut [a] s t ∧
      SameBut [.regs] s t) ∧
    (v &&& 0x40000000 = 0 → Answers (.force src slot u v) s fun t => t.reg a = taken (v ||| 0x20000000) ∧ RegsBut [a] s t ∧
      SameBut [.regs] s t) ∧
    (s.traceState slot u ≠ 2 → Answers (.traceStop src slot u v) s fun t => t.reg a = taken v ∧ t.traceState slot u = 0 ∧
      t.trace slot u = { s.trace slot u with ring := [] } ∧ others t ∧ RegsBut [a, R.REIN_TRC_STATUS slot u] s t ∧
      SameBut [.regs, .reins] s t) ∧
    (s.traceState slot u = 2 → Answers (.traceStop src slot u v) s fun t => t.reg a = taken v ∧ t.traceState slot u = 0 ∧
      t.fld (F.REIN_TRC_STATUS_LOST slot u) = min 0xFFFF (s.fld (F.REIN_TRC_STATUS_LOST slot u) + 1) ∧
      t.trace slot u = { s.trace slot u with ring := [], left := 0, queue := 0 } ∧ others t ∧
      (∀ j, t.stream j = if s.namedQueue (s.trace slot u).queue = some j then ((s.stream j).markBad (traceProducer slot u)).q
        else s.stream j) ∧
      RegsBut [a, R.REIN_TRC_STATUS slot u] s t ∧ SameBut [.regs, .sb, .reins] s t)) ∧
  (∀ (key : Nat) (ws : List PWord), s.traceState slot u = 2 → (s.trace slot u).left = 0 →
    s.namedQueue (s.trace slot u).queue = some key → s.namedQueue (s.reg (R.TC_SUPQ slot)) ≠ some key →
    s.namedQueue (s.reg R.SB_EVQ) ≠ some key →
    findOpen (traceProducer slot u) (s.stream key).opens = some ws → Answers (.traceDone slot u) s fun t =>
      (t.stream key).words = (s.stream key).words ++ packetWords ws ∧
      findOpen (traceProducer slot u) (t.stream key).opens = none ∧
      t.trace slot u = { s.trace slot u with ring := [], queue := 0 } ∧ others t ∧
      t.traceState slot u = s.fld (F.REIN_TRC_CTRL_REARM slot u) ∧ RegsBut [R.REIN_TRC_STATUS slot u] s t ∧
      SameBut [.regs, .msix, .sb, .reins] s t) ∧
  (¬ (s.traceState slot u = 2 ∧ (s.trace slot u).left = 0) → Answers (.traceDone slot u) s fun t => t = s))

/-! ## Axes and the Skiver -/

/-- The commands of AXIS_CMD (R35, R242, R244, R245, R252, R255, R259): one for an axis that the Skiver owns is refused with OWNED,
except STOP and ESTOP, which put the Skiver in FAULT; one in another state than its own with BUSY; a move of an unhomed axis with
UNHOMED, one beyond the soft limits with RANGE, one of no length or at a limit of zero with ZERO_LEN; a homing that its settings
do not allow with RANGE; while a change of the period waits a move waits with it; a STOP beside a fault condition of the same
boundary changes nothing. -/
def Obligations.AxisCommands : Prop :=
  ∀ (s : State) (x : Nat), x < 16 →
  let a := s.axis x
  let st := s.axState x
  let owned := s.fld (F.AXIS_STATUS_OWNED x) = 1
  let spot := [R.AXIS_STATUS x, R.AXIS_POS x, R.AXIS_VEL x]
  let refused : State → Nat → Prop := fun t r => t.fld (F.AXIS_STATUS_RESULT x) = r ∧ t.axState x = st ∧
    RegsBut [R.AXIS_STATUS x] s t ∧ SameBut [.regs] s t
  let took : State → Nat → Prop := fun t v => t.fld (F.AXIS_STATUS_RESULT x) = 0 ∧ t.axState x = v ∧
    ButAt State.axis x s t ∧ RegsBut spot s t ∧ SameBut [.regs, .axes] s t
  let late := s.periodPending = true
  let speed := s.reg (R.AXIS_VMAX x) ≠ 0 ∧ s.reg (R.AXIS_ACC x) ≠ 0 ∧ s.reg (R.AXIS_JERK x) ≠ 0
  let homed := s.fld (F.AXIS_CTRL_REQ_HOME x) = 0 ∨ s.fld (F.AXIS_STATUS_HOMED x) = 1
  let atRest := a.running s.axNow = none
  let goal := (s.reg (R.AXIS_TARGET x)).toInt
  let low := (s.reg (R.AXIS_SOFT_MIN x)).toInt
  let high := (s.reg (R.AXIS_SOFT_MAX x)).toInt
  let free := ¬ owned ∧ (st = 1 ∨ st = 2 ∨ st = 3)
  let there := atRest ∧ a.posAt s.axNow = wrap48 (goal * 2 ^ 20)
  let waits : Nat → State → Prop := fun c t => t = s.addCmd (R.AXIS_CMD x) (w32 c)
  (late → Answers (.move x) s (waits 1) ∧ Answers (.velPos x) s (waits 2) ∧ Answers (.velNeg x) s (waits 3) ∧
    Answers (.home x) s (waits 6)) ∧
  (¬ late → owned → (Answers (.move x) s (refused · 5)) ∧ (Answers (.velPos x) s (refused · 5)) ∧
    (Answers (.velNeg x) s (refused · 5)) ∧ Answers (.home x) s (refused · 5)) ∧
  (owned → (Answers (.axisClear x) s (refused · 5)) ∧ Answers (.setPos x) s (refused · 5)) ∧
  (¬ late → ¬ owned → ¬ free → (Answers (.move x) s (refused · 1)) ∧ (Answers (.velPos x) s (refused · 1)) ∧
    Answers (.velNeg x) s (refused · 1)) ∧
  (¬ late → free → ¬ homed → (Answers (.move x) s (refused · 4)) ∧ (Answers (.velPos x) s (refused · 4)) ∧
    Answers (.velNeg x) s (refused · 4)) ∧
  (¬ late → free → homed → ¬ (low ≤ goal ∧ goal ≤ high) → Answers (.move x) s (refused · 2)) ∧
  (¬ late → free → homed → low ≤ goal → goal ≤ high → ¬ speed ∨ there → Answers (.move x) s (refused · 3)) ∧
  (¬ late → free → homed → low ≤ goal → goal ≤ high → speed → ¬ there →
    Answers (.move x) s fun t => took t 2 ∧ (t.axis x).target = goal) ∧
  (¬ late → free → homed → speed → ¬ (atRest ∧ high * 2 ^ 20 ≤ a.posAt s.axNow) →
    Answers (.velPos x) s fun t => took t 3 ∧ (t.axis x).target = high) ∧
  (¬ late → free → homed → speed → ¬ (atRest ∧ a.posAt s.axNow ≤ low * 2 ^ 20) →
    Answers (.velNeg x) s fun t => took t 3 ∧ (t.axis x).target = low) ∧
  (¬ late → free → homed → (¬ speed ∨ (atRest ∧ high * 2 ^ 20 ≤ a.posAt s.axNow) → Answers (.velPos x) s (refused · 3)) ∧
    (¬ speed ∨ (atRest ∧ a.posAt s.axNow ≤ low * 2 ^ 20) → Answers (.velNeg x) s (refused · 3))) ∧
  (st = 0 ∨ st = 6 → (Answers (.axisStop x) s (refused · 1)) ∧ Answers (.estop x) s (refused · 1)) ∧
  (s.axFaultDue x = true → st ≠ 0 → st ≠ 6 → (Answers (.axisStop x) s (refused · 0)) ∧ Answers (.estop x) s (refused · 0)) ∧
  (s.axFaultDue x = false →
    (¬ owned → st = 2 ∨ st = 3 ∨ st = 5 → (Answers (.axisStop x) s fun t => took t 4 ∧ (t.axis x).home = Homing.none ∧
      (t.axis x).stopCode = a.stopCode) ∧ Answers (.estop x) s fun t => took t 4 ∧ (t.axis x).home = Homing.none ∧
      (t.axis x).stopCode = a.stopCode) ∧
    (¬ owned → st = 1 → (Answers (.axisStop x) s (refused · 0)) ∧ Answers (.estop x) s (refused · 0)) ∧
    (¬ owned → st = 4 → (Answers (.axisStop x) s (refused · 0)) ∧ Answers (.estop x) s fun t => took t 4 ∧
      (t.axis x).home = Homing.none) ∧
    (owned → s.skvPhase ≠ 6 → st = 2 ∨ st = 3 ∨ st = 5 → ∀ i ∈ [Instr.axisStop x, .estop x], Answers i s fun t =>
      t.fld (F.AXIS_STATUS_RESULT x) = 0 ∧ t.axState x = 4 ∧ t.skvPhase = 6 ∧ t.fld (F.AXIS_SKV_STATUS_FAULT 0) = 5 ∧
      (∀ y ∈ s.skvAxes, y < 16 → t.fld (F.AXIS_STATUS_OWNED y) = 0) ∧
      (∀ y, y ≠ x → y ∉ s.skvAxes → t.axis y = s.axis y) ∧
      RegsBut (R.AXIS_SKV_STATUS 0 :: R.AXIS_STATUS x :: s.skvAxes.map R.AXIS_STATUS) s t ∧
      SameBut [.regs, .msix, .sb, .axes, .skiver] s t)) ∧
  (let v := s.reg (R.AXIS_HOME_SPEED x)
   let mode := s.homeMode x
   let fits := mode < 3 ∧ (s.homeInputs x).length ≤ 1 ∧ (mode = 1 → s.fld (F.AXIS_CTRL_ENC_EN x) = 1) ∧
    (mode = 2 → s.fld (F.AXIS_CTRL_LA_SRC x) = 1 → 25600 ≤ v.toNat)
   ¬ late → ¬ owned →
    (st = 1 → speed → v ≠ 0 → fits → Answers (.home x) s fun t => took t 5 ∧ t.fld (F.AXIS_STATUS_HOMED x) = 0 ∧
      (t.axis x).home = { Homing.none with step := 1 } ∧ (t.axis x).homeIn.hit = none) ∧
    (st = 1 → ¬ (speed ∧ v ≠ 0) → Answers (.home x) s (refused · 3)) ∧
    (st = 1 → speed → v ≠ 0 → ¬ fits → Answers (.home x) s (refused · 2)) ∧
    (st ≠ 1 → Answers (.home x) s (refused · 1))) ∧
  (¬ owned → st = 6 → Answers (.axisClear x) s fun t => took t 1 ∧ t.fld (F.AXIS_STATUS_FAULT x) = 0 ∧
    t.axis x = { a with stopCode := 0, codes := [] }) ∧
  (¬ owned → st ≠ 6 → Answers (.axisClear x) s (refused · 1)) ∧
  (¬ owned → st = 1 → Answers (.setPos x) s fun t => took t 1 ∧ t.fld (F.AXIS_STATUS_HOMED x) = 1 ∧
    t.reg (R.AXIS_POS x) = BitVec.ofInt 32 (wholeSteps ((s.reg (R.AXIS_SETPOS x)).toInt * 2 ^ 20)) ∧
    t.axis x = { a with
      plan := [], rest := wrap48 ((s.reg (R.AXIS_SETPOS x)).toInt * 2 ^ 20), target := (s.reg (R.AXIS_SETPOS x)).toInt
      encRef := a.enc, encPos := (s.reg (R.AXIS_SETPOS x)).toInt }) ∧
  (¬ owned → st ≠ 1 → Answers (.setPos x) s (refused · 1)) ∧
  (∀ (src : Source) (v : Word), s.Reaches src (R.AXIS_CTRL x) → Answers (.axisEnableWrite src x v) s fun t =>
    t.fld (F.AXIS_CTRL_ENABLE x) = s.fld (F.AXIS_CTRL_ENABLE x) ∧
    getBits (t.written (R.AXIS_CTRL x)) 0 0 = getBits v 0 0 ∧ RegsBut (R.AXIS_CTRL x :: AccRegs) s t ∧
    StagedBut [R.AXIS_CTRL x] s t ∧ SameBut [.regs, .staged, .msix, .sb] s t)

/-- An axis that has come to rest ends its move, its run to the soft limit, its stop or its homing, in the state that each rule
gives; a stall, a lost step, a limit and chatter stop an axis at once or along its limits with the lowest code; a level that holds
at the HOME input, an index pulse and a stall end the search of a homing with the position of their edge, and edges after it are
counted (R242, R244, R248, R249, R250, R251, R252, R253, R254, R255, R260). -/
def Obligations.AxisEnds : Prop :=
  ∀ (s : State) (x : Nat), x < 16 →
  let a := s.axis x
  let st := s.axState x
  let frame : List Nat → State → Prop := fun l t => ButAt State.axis x s t ∧ RegsBut l s t ∧ SameBut [.regs, .msix, .sb, .axes] s t
  let spot := [R.AXIS_STATUS x, R.AXIS_POS x, R.AXIS_VEL x]
  let landed : State → Prop := fun t => (t.axis x).plan = [] ∧ (t.axis x).rest = wrap48 a.planEnd.2 ∧ frame spot t
  let fault : Nat → State → Prop := fun code t => (t.axis x).codes = a.codes ++ [code] ∧ (t.axis x).home = a.home ∧
    (t.axis x).stopCode = (if a.stopCode = 0 then code else min a.stopCode code) ∧
    t.axState x = (if a.stopCode = 0 then 4 else st) ∧ frame [R.AXIS_STATUS x] t
  let owned := s.fld (F.AXIS_STATUS_OWNED x) = 1
  let still : Instr → Prop := fun i => Answers i s fun t => t = s
  (st = 2 → s.axAtRest x = true → Answers (.moveDone x) s fun t => t.axState x = 1 ∧ landed t) ∧
  (¬ (st = 2 ∧ s.axAtRest x = true) → still (.moveDone x)) ∧
  (st = 3 → s.axAtRest x = true → Answers (.softLimit x) s fun t => t.axState x = 1 ∧ landed t) ∧
  (¬ (st = 3 ∧ s.axAtRest x = true) → still (.softLimit x)) ∧
  (st = 4 → s.axAtRest x = true →
    (s.fld (F.AXIS_CTRL_ENABLE x) = 0 → Answers (.axisRest x) s fun t => t.axState x = 0 ∧ landed t ∧
      (t.axis x).stopCode = 0 ∧ (t.axis x).codes = []) ∧
    (s.fld (F.AXIS_CTRL_ENABLE x) = 1 → a.stopCode = 0 → Answers (.axisRest x) s fun t => t.axState x = 1 ∧ landed t) ∧
    (s.fld (F.AXIS_CTRL_ENABLE x) = 1 → a.stopCode ≠ 0 → ¬ owned → Answers (.axisRest x) s fun t =>
      t.axState x = 6 ∧ t.fld (F.AXIS_STATUS_FAULT x) = a.stopCode % 256 ∧ landed t) ∧
    (s.fld (F.AXIS_CTRL_ENABLE x) = 1 → a.stopCode ≠ 0 → owned → s.skvPhase ≠ 6 →
      Answers (.axisRest x) s fun t => t.axState x = 6 ∧ t.fld (F.AXIS_STATUS_FAULT x) = a.stopCode % 256 ∧
        (t.axis x).plan = [] ∧ t.skvPhase = 6 ∧ t.fld (F.AXIS_SKV_STATUS_FAULT 0) = 4 ∧
        (∀ y, y ≠ x → y ∉ s.skvAxes → t.axis y = s.axis y) ∧
        RegsBut (R.AXIS_SKV_STATUS 0 :: spot ++ s.skvAxes.map R.AXIS_STATUS) s t ∧
        SameBut [.regs, .msix, .sb, .axes, .skiver] s t)) ∧
  (¬ (st = 4 ∧ s.axAtRest x = true) → still (.axisRest x)) ∧
  (∀ q p, a.stallAt = some (q, p) → s.axCanFault x 1 = true →
    (s.stallHoming x = false → Answers (.stall x) s fun t => fault 1 t ∧ t.fld (F.AXIS_STATUS_HOMED x) = 0 ∧
      (t.axis x).stallAt = none) ∧
    (s.stallHoming x = true → a.home.step = 1 → Answers (.stall x) s fun t => (t.axis x).home.step = 4 ∧
      (t.axis x).home.latched = some q ∧ (t.axis x).home.latchPos = p ∧ (t.axis x).stallAt = none ∧
      t.reg (R.AXIS_HOME_LATCH x) = BitVec.ofInt 32 (wholeSteps p) ∧ frame [R.AXIS_HOME_LATCH x] t) ∧
    (s.stallHoming x = true → a.home.step ≠ 1 → Answers (.stall x) s fun t =>
      t.axis x = { a with stall := 0, stallAt := none } ∧ ButAt State.axis x s t ∧ SameBut [.axes] s t)) ∧
  (a.stallAt = none ∨ s.axCanFault x 1 = false → still (.stall x)) ∧
  (let stops := s.fld (F.AXIS_CTRL_LOST_STOP x) = 1 ∧ s.axCanFault x 2 = true
   (a.lostDue = true → ¬ stops → Answers (.lostStep x) s fun t => t.axis x = { a with lostDue := false } ∧ frame [] t) ∧
   (a.lostDue = true → stops → Answers (.lostStep x) s fun t =>
    fault 2 t ∧ (t.axis x).lostDue = false ∧ t.fld (F.AXIS_STATUS_HOMED x) = 0)) ∧
  (a.lostDue = false → still (.lostStep x)) ∧
  (∀ input,
    let role := s.switchRole x input
    let toward := (role = 1 ∧ a.velAt s.axNow < 0) ∨ (role = 2 ∧ 0 < a.velAt s.axNow)
    (s.switchActive x input = true → s.homesNow x = false → toward → s.axCanFault x 3 = true →
      Answers (.limitHit x input) s (fault 3)) ∧
    (s.switchActive x input = true → s.homesNow x = true → role = 1 ∨ role = 2 → s.axCanFault x 4 = true →
      Answers (.limitHit x input) s (fault 4)) ∧
    (s.switchActive x input = false ∨ (role ≠ 1 ∧ role ≠ 2) ∨ (s.homesNow x = false ∧ ¬ toward) ∨
      s.axCanFault x (if s.homesNow x then 4 else 3) = false → still (.limitHit x input))) ∧
  (s.homesNow x = true → a.home.chatter = true → s.axCanFault x 5 = true → Answers (.chatter x) s (fault 5)) ∧
  (s.homesNow x = false ∨ a.home.chatter = false ∨ s.axCanFault x 5 = false → still (.chatter x)) ∧
  (∀ level n,
    let q := s.axNow + n
    let h := s.homeJudged x q
    let seen := { h with level := level, edge := some q, pos := a.posAt q, held := false }
    let counted : Nat → State → Prop := fun t0 t =>
      let counts := 0 < s.fld (F.AXIS_CHATTER_WIN x) ∧ q ≤ t0 + 10000 * s.fld (F.AXIS_CHATTER_WIN x)
      let edges := if counts then a.home.edges + 1 else a.home.edges
      t.axis x = { a with
        homeIn := seen
        home := { a.home with
          edges := edges
          chatter := a.home.chatter || decide (counts ∧ s.fld (F.AXIS_HOME_CFG_CHATTER_MAX x) < edges) } } ∧
      (t.reg (R.AXIS_CHATTER_CNT x)).toNat = (if q ≤ t0 + 100 * s.fld (F.AXIS_CHATTER_LOCKOUT x) then
        min 0xFFFFFFFF ((s.reg (R.AXIS_CHATTER_CNT x)).toNat + 1) else (s.reg (R.AXIS_CHATTER_CNT x)).toNat) ∧
      ButAt State.axis x s t ∧ RegsBut [R.AXIS_CHATTER_CNT x] s t ∧ SameBut [.regs, .axes] s t
    let noted : State → Prop := fun t => t.axis x = { a with homeIn := seen } ∧ ButAt State.axis x s t ∧ SameBut [.axes] s t
    (st ≠ 5 ∨ a.home.step = 2 ∨ a.home.step = 5 → Answers (.homeEdge x level n) s noted) ∧
    (∀ t0, st = 5 → a.home.step = 3 ∨ a.home.step = 4 → a.home.latched = some t0 →
      Answers (.homeEdge x level n) s (counted t0)) ∧
    (∀ t0 p, st = 5 → a.home.step = 1 → h.hit = some (t0, p) → s.homeMode x = 0 →
      Answers (.homeEdge x level n) s (counted t0)) ∧
    (st = 5 → a.home.step = 1 → h.hit = none ∨ s.homeMode x ≠ 0 → Answers (.homeEdge x level n) s noted)) ∧
  (∀ n,
    let q := s.axNow + n
    let searches := st = 5 ∧ s.homeMode x = 1 ∧ a.home.step = 1 ∧
      (a.home.seen = true ∨ (s.homeJudged x q).hit ≠ none ∨ s.homeInputs x = [])
    (searches → Answers (.indexPulse x n) s fun t =>
      t.axis x = { a with home := { a.home with step := 3, latched := some q, latchPos := a.posAt q } } ∧
      t.reg (R.AXIS_HOME_LATCH x) = BitVec.ofInt 32 (wholeSteps (a.posAt q)) ∧ ButAt State.axis x s t ∧
      RegsBut [R.AXIS_HOME_LATCH x] s t ∧ SameBut [.regs, .axes] s t) ∧
    (¬ searches → still (.indexPulse x n))) ∧
  (st = 5 → a.home.step = 5 → s.axAtRest x = true → Answers (.homeDone x) s fun t => t.axState x = 1 ∧
    t.fld (F.AXIS_STATUS_HOMED x) = 1 ∧ (t.axis x).rest = wrap48 ((s.reg (R.AXIS_HOME_POS x)).toInt * 2 ^ 20) ∧
    (t.axis x).plan = [] ∧ (t.axis x).home = Homing.none ∧ frame spot t) ∧
  (¬ (st = 5 ∧ a.home.step = 5 ∧ s.axAtRest x = true) → still (.homeDone x))

/-- A waveform load copies 256 words of a live buffer to a bank that no moving axis uses, and none when one of them is poisoned; a
bank changes at once on an axis at rest, and on a moving one in the Stitch in which the table index wraps (R240, R241).
The Skiver goes on to its next phase when every axis of the one that runs is at rest, signals layer-ready once it has settled,
and on READY outside its own sequence; RETRY in FAULT checks again and starts the faulted phase over, or stays in FAULT with the
code of the check that fails (R256, R257, R258, R259). -/
def Obligations.WavesAndSkiver : Prop :=
  (
  ∀ (s : State) (x : Nat), x < 16 →
  (∀ (src : Source) (v : Word), s.Reaches src (R.AXIS_WAVE_CMD x) →
    let bank := v.toNat % 4
    let busy := s.fld (F.AXIS_STATUS_BANK_USED x) = bank ∧ s.axState x ≠ 1 ∧ s.axState x ≠ 0
    let result : State → State → Nat → Prop := fun u t r => t.fld (F.AXIS_WAVE_CMD_RESULT x) = r ∧
      t.fld (F.AXIS_WAVE_CMD_START x) = 0 ∧ t.fld (F.AXIS_WAVE_CMD_BANK x) = bank ∧ RegsBut [R.AXIS_WAVE_CMD x] u t
    (busy → Answers (.waveLoad src x v) s fun t => result s t 1 ∧ SameBut [.regs] s t) ∧
    (¬ busy → s.namedBuffer (s.reg (R.AXIS_WAVE_SRC x)) = none → Answers (.waveLoad src x v) s fun t => result s t 2 ∧
      SameBut [.regs] s t) ∧
    (∀ key, ¬ busy → s.namedBuffer (s.reg (R.AXIS_WAVE_SRC x)) = some key →
      let fits := 1024 ≤ (s.stream key).size ∧ (s.stream key).spill = false
      let r := (s.setFld (F.AXIS_WAVE_CMD_BANK x) bank).readBufs key 0 256
      (¬ fits → Answers (.waveLoad src x v) s fun t => result s t 2 ∧ SameBut [.regs] s t) ∧
      (fits → (∃ w ∈ r.2, w.poison = true) → Answers (.waveLoad src x v) s fun t => result r.1 t 3 ∧ SameBut [.regs] r.1 t) ∧
      (fits → (∀ w ∈ r.2, w.poison = false) → Answers (.waveLoad src x v) s fun t => result r.1 t 0 ∧
        (∀ i, i < 256 → t.waveEntry x bank i = (r.2.getD i (PWord.clean 0)).val) ∧
        (∀ b i, b ≠ bank → i < 256 → t.waveEntry x b i = s.waveEntry x b i) ∧ ButAt State.axis x s t ∧
        SameBut [.regs, .axes] r.1 t))) ∧
  (let wraps := (s.axis x).posAt s.axNow / 2 ^ 28 ≠ (s.axis x).posAt s.axNext / 2 ^ 28
   let acts := s.bankWanted x ≠ s.fld (F.AXIS_STATUS_BANK_USED x) ∧ ((s.axis x).running s.axNow = none ∨ wraps)
   (acts → Answers (.bankSwitch x) s fun t =>
    t.fld (F.AXIS_STATUS_BANK_USED x) = s.bankWanted x ∧ RegsBut [R.AXIS_STATUS x] s t ∧ SameBut [.regs] s t) ∧
   (¬ acts → Answers (.bankSwitch x) s fun t => t = s))) ∧
  (
  ∀ s : State,
  let p := s.skvPhase
  let bidir := s.fld (F.AXIS_SKV_CTRL_BIDIR 0) = 1
  let regs := RegsBut (R.AXIS_SKV_STATUS 0 :: s.skvAxes.map R.AXIS_STATUS) s
  let still : Instr → Prop := fun i => Answers i s fun t => t = s
  let ready : State → Prop := fun t => t.skvPhase = 0 ∧ t.tree = { s.tree with readyAt := some s.now } ∧
    t.skiver = { s.skiver with nextPhase := 0, settleAt := none } ∧
    (∀ x ∈ s.skvAxes, x < 16 → t.fld (F.AXIS_STATUS_OWNED x) = 0) ∧ regs t ∧ SameBut [.regs, .msix, .sb, .tree, .skiver] s t
  let ends := s.skiver.nextPhase = 0 ∧ ∀ x ∈ s.skvAxes, s.axAtRest x = true
  (ends →
    let settle := some (s.now + (s.reg (R.AXIS_SKV_SETTLE 0)).toNat)
    (p = 1 → Answers .skiverPhaseEnd s fun t => t = { s with
      skiver := { s.skiver with nextPhase := 2, settleAt := none } }) ∧
    (p = 2 → ¬ bidir → Answers .skiverPhaseEnd s fun t => t = { s with
      skiver := { s.skiver with nextPhase := 3, settleAt := none } }) ∧
    (p = 3 ∨ (p = 2 ∧ bidir) → Answers .skiverPhaseEnd s fun t => t = { s with
      skiver := { s.skiver with nextPhase := 4, settleAt := settle } })) ∧
  (¬ (ends ∧ (p = 1 ∨ p = 2 ∨ p = 3)) → still .skiverPhaseEnd) ∧
  (∀ q, s.skiver.settleAt = some q → q ≤ s.now → Answers .skiverDone s fun t => ready t ∧
    t.fld (F.AXIS_SKV_STATUS_DIR 0) = if bidir then 1 - s.fld (F.AXIS_SKV_STATUS_DIR 0) else s.fld (F.AXIS_SKV_STATUS_DIR 0)) ∧
  ((∀ q, s.skiver.settleAt = some q → s.now < q) → still .skiverDone) ∧
  (p = 5 → s.skiver.startAt < s.now → Answers .skvReady s ready) ∧
  (¬ (p = 5 ∧ s.skiver.startAt < s.now) → still .skvReady) ∧
  (p = 6 → s.skvChecks s.skiver.targets false = none → Answers .retry s fun t => t.skvPhase = s.skiver.faulted % 16 ∧
    t.skiver = { s.skiver with nextPhase := s.skiver.faulted } ∧ t.fld (F.AXIS_SKV_STATUS_FAULT 0) = 0 ∧
    (∀ x ∈ s.skvAxes, x < 16 → t.fld (F.AXIS_STATUS_OWNED x) = 1) ∧ regs t ∧ SameBut [.regs, .skiver] s t) ∧
  (∀ code x, p = 6 → s.skvChecks s.skiver.targets false = some (code, x) → Answers .retry s fun t => t.skvPhase = 6 ∧
    t.fld (F.AXIS_SKV_STATUS_FAULT 0) = code % 256 ∧ t.skiver.nextPhase = 0 ∧ t.skiver.settleAt = none ∧
    (∀ x ∈ s.skvAxes, x < 16 → t.fld (F.AXIS_STATUS_OWNED x) = 0) ∧ regs t ∧ SameBut [.regs, .msix, .sb, .skiver] s t) ∧
  (p ≠ 6 → still .retry))

/-! ## Imaging -/

/-- A write of IMG_CTRL whose bit rises enables a slot that passes the checks of R217, and otherwise leaves it off with the result
of the first check that fails, and so for the bed camera of the highest pipe; no other pipe and no slot whose bit did not rise is
enabled; the commits of a camera's and a pipe's sets wait for the boundary, a pipe set not while a frame still needs the older one,
which is BUSY_WRITE; a camera set that commits is in force under the next id, or that of the set it replaces, and a pipe set puts
its written values in force (R217, R219, R221). -/
def Obligations.ImagingSlots : Prop :=
  ∀ (s : State) (p i : Nat), p < 8 → i < 4 →
  let mine : State → Prop := fun t => RegsWhere (fun pl => (pl.blk = .img ∧ pl.unit = p) ∨ pl.blk = .sb) s t
  (∀ src : Source, s.Reaches src (R.IMG_CTRL p) →
    (∀ v, Answers (.imgSlotEnable src p v) s fun t =>
      (∀ j, j < 4 → natBit (t.fld (F.IMG_STATUS_ENABLED p)) j = true → natBit (s.fld (F.IMG_STATUS_ENABLED p)) j = true ∨
        v.getLsbD j = true) ∧
      (∀ j, j < 4 → natBit (s.fld (F.IMG_STATUS_ENABLED p)) j = true → natBit (t.fld (F.IMG_STATUS_ENABLED p)) j = true ∧
        natBit (t.fld (F.IMG_CTRL_EN p)) j = v.getLsbD j ∧ t.cam p j = s.cam p j) ∧
      (∀ q j, j < 8 → q ≠ p → t.cam q j = s.cam q j) ∧ mine t ∧
      SameBut [.regs, .readData, .resp, .fresh, .sb, .cams, .bed, .therm] s t) ∧
    (s.camOn p 4 = false → s.fld (F.IMG_STATUS_ENABLED p) = 0 → s.camCheck p i = 0 →
      Answers (.imgSlotEnable src p (w32 (2 ^ i))) s fun t => t.fld (F.IMG_STATUS_ENABLED p) = 2 ^ i ∧
        t.fld (F.IMG_STATUS_RESULT p) = 0 ∧ t.fld (F.IMG_CTRL_EN p) = 2 ^ i ∧ (t.cam p i).triggers = [] ∧
        (t.cam p i).frame = none ∧ (t.cam p i).processed = 0 ∧ (t.cam p i).lastId = (s.cam p i).lastId ∧
        (∀ j, j < 8 → j ≠ i → t.cam p j = s.cam p j) ∧ mine t ∧
        SameBut [.regs, .readData, .resp, .fresh, .sb, .cams, .therm] s t) ∧
    (s.camOn p 4 = false → s.fld (F.IMG_STATUS_ENABLED p) = 0 → s.camCheck p i ≠ 0 →
      Answers (.imgSlotEnable src p (w32 (2 ^ i))) s fun t => t.fld (F.IMG_STATUS_ENABLED p) = 0 ∧
        t.fld (F.IMG_STATUS_RESULT p) = s.camCheck p i ∧
        (s.camCheck p i = 1 → t.fld (F.IMG_STATUS_ZERO_LEN p) = 1) ∧ RegsBut [R.IMG_CTRL p, R.IMG_STATUS p] s t ∧
        SameBut [.regs] s t) ∧
    (s.isBedPipe p = true → s.camOn p 4 = false → s.fld (F.IMG_STATUS_ENABLED p) = 0 →
      (s.bedSizeCheck p = 0 → Answers (.imgSlotEnable src p 0x100) s fun t => t.fld (F.IMG_CTRL_BED_EN p) = 1 ∧
        t.fld (F.IMG_STATUS_RESULT p) = 0 ∧ t.cam p 4 = (s.cam p 4).started 0 ∧
        (∀ j, j < 8 → j ≠ 4 → t.cam p j = s.cam p j) ∧ RegsBut [R.IMG_CTRL p, R.IMG_STATUS p] s t ∧
        SameBut [.regs, .cams, .therm] s t) ∧
      (s.bedSizeCheck p ≠ 0 → Answers (.imgSlotEnable src p 0x100) s fun t => t.fld (F.IMG_CTRL_BED_EN p) = 0 ∧
        t.fld (F.IMG_STATUS_RESULT p) = s.bedSizeCheck p ∧ RegsBut [R.IMG_CTRL p, R.IMG_STATUS p] s t ∧ SameBut [.regs] s t))) ∧
  (Answers (.camCommit p i) s fun t => natBit (t.fld (F.IMG_COMMIT_CAM p)) i = true ∧
    (∀ j, j < 4 → j ≠ i → natBit (t.fld (F.IMG_COMMIT_CAM p)) j = natBit (s.fld (F.IMG_COMMIT_CAM p)) j) ∧
    t.fld (F.IMG_COMMIT_PIPE p) = s.fld (F.IMG_COMMIT_PIPE p) ∧ RegsBut [R.IMG_COMMIT p] s t ∧ SameBut [.regs] s t) ∧
  (let t := s.camSetCommit p i
   let waits := s.fld ⟨imgAddr p i 0x18, 15, 8⟩
   let id := if waits ≠ 0 then waits else if (s.cam p i).lastId = 255 then 1 else (s.cam p i).lastId + 1
   (∀ rel ∈ camOffs, t.reg (imgAddr p i rel) = s.written (imgAddr p i rel)) ∧
   t.cam p i = { s.cam p i with lastId := id } ∧ (id < 256 → t.fld ⟨imgAddr p i 0x18, 15, 8⟩ = id) ∧
   (∀ q j, 8 * q + j ≠ 8 * p + i → t.cam q j = s.cam q j) ∧
   RegsBut ([imgAddr p i 0xC, imgAddr p i 0x10, imgAddr p i 0x14, imgAddr p i 0x18]) s t ∧
   StagedBut [imgAddr p i 0xC, imgAddr p i 0x10, imgAddr p i 0x14] s t ∧ SameBut [.regs, .staged, .cams] s t) ∧
  (s.camOn p i = false → let t := s.pipeSetCommit p i
   (∀ rel ∈ pipeOffs, t.reg (imgAddr p i rel) = s.written (imgAddr p i rel)) ∧ (t.cam p i).commitAt = some s.now ∧
   (∀ q j, 8 * q + j ≠ 8 * p + i → t.cam q j = s.cam q j) ∧ RegsBut (pipeOffs.map (imgAddr p i)) s t ∧
   SameBut [.regs, .staged, .cams] s t) ∧
  (∀ src : Source, s.Reaches src (R.IMG_COMMIT p) →
    let asked : State → Prop := fun t => natBit (t.fld (F.IMG_COMMIT_PIPE p)) i = true ∧
      (∀ j, j < 4 → j ≠ i → natBit (t.fld (F.IMG_COMMIT_PIPE p)) j = natBit (s.fld (F.IMG_COMMIT_PIPE p)) j) ∧
      t.fld (F.IMG_COMMIT_CAM p) = s.fld (F.IMG_COMMIT_CAM p) ∧ RegsBut [R.IMG_COMMIT p] s t ∧ SameBut [.regs] s t
    let busy : State → Prop := fun t => t.reg (R.IMG_COMMIT p) = s.reg (R.IMG_COMMIT p) ∧
      (s.fld F.SYS_ACC_INFO_VALID = 0 → t.fld F.SYS_ACC_INFO_CODE = 3) ∧ RegsBut AccRegs s t ∧ SameBut [.regs, .msix, .sb] s t
    (s.needsOld p i = false → Answers (.pipeCommit src p i) s asked) ∧
    (s.needsOld p i = true → Answers (.pipeCommit src p i) s busy) ∧
    (s.isBedPipe p = true → s.needsOld p 4 = false → Answers (.bedPipeCommit src p) s fun t =>
      t.fld (F.IMG_COMMIT_BED_PIPE p) = 1 ∧ RegsBut [R.IMG_COMMIT p] s t ∧ SameBut [.regs] s t) ∧
    (s.isBedPipe p = true → s.needsOld p 4 = true → Answers (.bedPipeCommit src p) s busy) ∧
    (s.isBedPipe p = false → Answers (.bedPipeCommit src p) s fun t => t = s)) ∧
  (s.isBedPipe p = true → Answers (.bedCamCommit p) s fun t => t.fld (F.IMG_COMMIT_BED_CAM p) = 1 ∧
    RegsBut [R.IMG_COMMIT p] s t ∧ SameBut [.regs] s t) ∧
  (s.isBedPipe p = false → Answers (.bedCamCommit p) s fun t => t = s)

/-- The fragments of a frame, from a lane that is READY and a flit accepted in order: a header opens a frame, and closes one that is
open; pixels join it, on the in-line path while the input buffer has room and on a memory path in its queue, and are dropped with
OVERFLOW once they do not fit; its end counts it, and processes it, writes it whole for the bed camera, or lets it wait on a memory
path until the pipe takes it up, the oldest trigger first (R215, R216, R222, R223, R235, R311, R313). -/
def Obligations.Frames : Prop :=
  ∀ (s : State) (p : Nat), p < 8 →
  (∀ (lane h i : Nat) (hdr : Word) (ws : List Word) (tick : Nat), lane < 40 → s.laneState lane = 5 →
    (s.lane lane).rx = none ∨ (s.lane lane).rx = some (getBits hdr 27 16) → s.part.headOfLane lane = some h →
    s.sourceOf h = some (p, i) → i < 5 →
    let kind := getBits (ws.getD 0 0) 31 30
    let head := (List.range 8).map fun k => ws.getD (k + 1) 0
    let px := (halves (ws.drop 1)).take (min 26 (getBits (ws.getD 0 0) 5 0))
    let now := s.tclk + tick
    let fits : Nat → Prop := fun n => (s.cam p 0).inLeft now + n ≤ 16384
    let frame : State → Prop := fun t => (t.lane lane).rx = some ((getBits hdr 27 16 + 1) % 4096) ∧ ButAt State.lane lane s t ∧
      (∀ q j, 8 * q + j ≠ 8 * p + i → t.cam q j = s.cam q j) ∧
      RegsWhere (fun pl => (pl.blk = .img ∧ pl.unit = p) ∨ (pl.blk = .lane ∧ pl.unit = lane) ∨ pl.blk = .sb ∨ pl.blk = .dmc) s t ∧
      SameBut [.regs, .msix, .fresh, .sb, .repeatAge, .hide, .cams, .bed, .lanes] s t
    let flit := Instr.fragmentFlit lane hdr ⟨ws, tick⟩
    (kind = 0 → Answers flit s fun t => frame t ∧
      ∃ f, (t.cam p i).frame = some f ∧ (i < 4 → f.header = head) ∧ f.pixels = [] ∧ f.arrived = 0 ∧
        natBit f.flags 3 = f.dropping ∧ (t.cam p i).lastNo = some (ws.getD 2 0) ∧
        (i = 0 → (s.cam p 0).frame = none → (f.dropping = true ↔ ¬ fits 16)) ∧ (i = 4 → f.dropping = false)) ∧
    (∀ f, kind = 0 → (s.cam p 0).frame = some f → i = 0 → Answers flit s fun t =>
      (t.reg (imgAddr p 0 0x80)).toNat = min 0xFFFFFFFF ((s.reg (imgAddr p 0 0x80)).toNat + 1) ∧
      ∃ r, (t.cam p 0).results = (s.cam p 0).results ++ [r] ∧ r.header = f.header ∧ natBit r.flags 1 = true) ∧
    (∀ f, kind = 1 → (s.cam p i).frame = some f →
      (f.dropping = true → Answers flit s fun t => frame t ∧
        t.cam p i = { s.cam p i with frame := some { f with arrived := f.arrived + px.length } }) ∧
      (i = 4 → f.dropping = false → Answers flit s fun t => frame t ∧
        t.cam p i = { s.cam p i with frame := some { f with pixels := f.pixels ++ px, arrived := f.arrived + px.length } }) ∧
      (i = 0 → f.dropping = false → fits px.length → Answers flit s fun t => frame t ∧
        (t.cam p i).frame = some { f with pixels := f.pixels ++ px, arrived := f.arrived + px.length } ∧
        (t.cam p i).inFill = (s.cam p 0).inLeft now + px.length) ∧
      (i = 0 → f.dropping = false → ¬ fits px.length → Answers flit s fun t => frame t ∧
        (t.cam p i).frame = some { f with arrived := f.arrived + px.length, dropping := true, flags := withBit f.flags 3 true }) ∧
      (1 ≤ i → i ≤ 3 → f.dropping = false → Answers flit s fun t => frame t ∧
        ((t.cam p i).frame = some { f with arrived := f.arrived + px.length, queued := f.queued + px.length } ∨
         (t.cam p i).frame = some { f with arrived := f.arrived + px.length, dropping := true, flags := withBit f.flags 3 true }))) ∧
    (kind = 1 → (s.cam p i).frame = none → Answers flit s fun t => frame t ∧ t.cam p i = s.cam p i) ∧
    (∀ f, kind = 2 → (s.cam p i).frame = some f → Answers flit s fun t => frame t ∧ (t.cam p i).frame = none ∧
      (i < 4 → (t.reg (imgAddr p i 0x80)).toNat = min 0xFFFFFFFF ((s.reg (imgAddr p i 0x80)).toNat + 1)) ∧
      (i = 0 → (t.cam p 0).processed = (s.cam p 0).processed + 1 ∧
        ∃ r, (t.cam p 0).results = (s.cam p 0).results ++ [r] ∧ r.header = f.header ∧ r.expected = f.expected) ∧
      (1 ≤ i → i ≤ 3 → ∃ g, (t.cam p i).waiting = (s.cam p i).waiting ++ [g] ∧ g.header = f.header ∧ g.pixels = f.pixels ∧
        g.trig = f.trig) ∧
      (i = 4 → (t.cam p 4).processed = (s.cam p 4).processed + 1 ∧ t.bed.frames = s.bed.frames - 1 ∧
        t.bed.lastNo = f.header.getD 1 0))) ∧
  (∀ (lane : Nat) (hdr : Word) (ws : List Word) (tick : Nat), s.laneState lane ≠ 5 →
    Answers (.fragmentFlit lane hdr ⟨ws, tick⟩) s fun t => t = s) ∧
  (∀ (i : Nat) (f : CamFrame) (rest : List CamFrame), (∀ j, 1 ≤ j → j ≤ 3 → (s.cam p j).results = []) →
    s.nextMemory p = some i → (s.cam p i).waiting = f :: rest → Answers (.memoryFrameStart p) s fun t =>
      (t.cam p i).waiting = rest ∧ (t.cam p i).processed = (s.cam p i).processed + 1 ∧
      (∃ r, (t.cam p i).results = [r] ∧ r.header = f.header ∧ r.expected = f.expected) ∧
      (∀ q j, 8 * q + j ≠ 8 * p + i → t.cam q j = s.cam q j) ∧
      RegsWhere (fun pl => (pl.blk = .img ∧ pl.unit = p) ∨ pl.blk = .sb ∨ pl.blk = .dmc) s t ∧
      SameBut [.regs, .readData, .resp, .msix, .fresh, .sb, .chans, .repeatAge, .hide, .cams] s t) ∧
  ((∃ j, 1 ≤ j ∧ j ≤ 3 ∧ (s.cam p j).results ≠ []) ∨ s.nextMemory p = none → Answers (.memoryFrameStart p) s fun t => t = s)

/-- The statistics of a processed frame leave as one packet of 48 words, marked LATE when its deadline is past, and its retained
copy follows; a packet that finds no room is counted and shown as refused; a capture of the bed camera checks its count, its period
and its queue, then that the camera is on, and ends with its last frame (R230, R231, R232, R234, R235, R236). -/
def Obligations.StatisticsAndBed : Prop :=
  ∀ (s : State) (p : Nat), p < 8 →
  (∀ (i : Nat) (r : CamResult) (rest : List CamResult), i < 4 → (s.cam p i).results = r :: rest →
    let late := r.deadline ≠ 0 ∧ tsOf r.header + r.deadline < s.now
    let flags := if late then withBit r.flags 4 true else r.flags
    let w := fun k => r.header.getD k 0
    let words := [w32 (getBits (w 0) 31 24 * 2 ^ 24 + getBits (w 0) 23 16 * 2 ^ 16 + r.expected * 2 ^ 8 + flags), w 1, w 2,
      w 3 &&& 0xFFFF07FF, w32 (p * 2 ^ 20 + i * 2 ^ 16)] ++ r.stat
    let sent : State → Prop := fun t => t.cam p i = { s.cam p i with results := rest } ∧
      (∀ q j, 8 * q + j ≠ 8 * p + i → t.cam q j = s.cam q j) ∧ RegsWhere (fun pl => pl.blk = .img ∧ pl.unit = p) s t ∧
      SameBut [.regs, .msix, .sb, .cams] s t
    Answers (.statsPacket p i) s sent ∧
    (∀ key, s.Takes (imgReq p) r.statq (5 + r.stat.length) key → s.namedQueue r.assimq ≠ some key →
      s.namedQueue r.retainq ≠ some key → Answers (.statsPacket p i) s fun t => sent t ∧
        (t.stream key).words = (s.stream key).words ++ packetWords (words.map PWord.clean)) ∧
    (s.namedQueue r.statq ≠ none → s.hasRoom r.statq (5 + r.stat.length) = false → Answers (.statsPacket p i) s fun t =>
      t.fld (F.IMG_STATUS_STAT_REFUSED p) = 1 ∧
      (t.reg (imgAddr p i 0x94)).toNat = min 0xFFFFFFFF ((s.reg (imgAddr p i 0x94)).toNat + 1)) ∧
    (∀ key copy, r.retain = some copy → s.Takes (imgReq p) r.retainq (8 + copy.length) key →
      s.namedQueue r.statq ≠ some key → s.namedQueue r.assimq ≠ some key → s.namedQueue (s.reg (R.IMG_EVQ p)) ≠ some key →
      Answers (.statsPacket p i) s fun t => (t.stream key).words = (s.stream key).words ++
        packetWords ((r.header.take 7 ++ [w32 flags] ++ copy).map PWord.clean))) ∧
  (∀ i, i < 4 → (s.cam p i).results = [] → Answers (.statsPacket p i) s fun t => t = s) ∧
  (∀ (src : Source) (v : Word), s.Reaches src (R.IMG_BED_CMD p) → s.isBedPipe p = true →
    let count := v.toNat % 2 ^ 15
    let period := v.toNat / 2 ^ 16
    let zero := count = 0 ∨ period = 0 ∨ s.reg (R.IMG_BED_OUT p) = 0
    let result : State → Nat → Prop := fun t r => t.fld (F.IMG_STATUS_RESULT p) = r ∧
      t.reg (R.IMG_BED_CMD p) = (v &&& 0xFFFF7FFF) ∧ RegsBut [R.IMG_BED_CMD p, R.IMG_STATUS p] s t
    (s.bed.running = true → Answers (.capture src p v) s fun t => result t 4 ∧ SameBut [.regs] s t) ∧
    (s.bed.running = false → zero → Answers (.capture src p v) s fun t => result t 1 ∧
      t.fld (F.IMG_STATUS_ZERO_LEN p) = 1 ∧ SameBut [.regs] s t) ∧
    (s.bed.running = false → ¬ zero → s.fld (F.IMG_CTRL_BED_EN p) = 0 → Answers (.capture src p v) s fun t => result t 3 ∧
      SameBut [.regs] s t) ∧
    (s.bed.running = false → ¬ zero → s.fld (F.IMG_CTRL_BED_EN p) = 1 → Answers (.capture src p v) s fun t => result t 0 ∧
      t.bed = ⟨true, count, s.now + 2, period, count, 0, 0⟩ ∧ SameBut [.regs, .bed] s t)) ∧
  (∀ (src : Source) (v : Word), s.Reaches src (R.IMG_BED_CMD p) → s.isBedPipe p = false → Answers (.capture src p v) s fun t =>
    (s.flag F.SYS_ACC_INFO_VALID = false → t.fld F.SYS_ACC_INFO_CODE = 2) ∧ RegsBut AccRegs s t ∧
    SameBut [.regs, .msix, .sb] s t) ∧
  (s.isBedPipe p = true → s.bed.running = true → s.bed.triggers = 0 → s.bed.frames = 0 → Answers (.bedDone p) s fun t =>
    t.bed = BedRun.none ∧ RegsBut [] s t ∧ SameBut [.regs, .msix, .sb, .bed] s t) ∧
  (¬ (s.isBedPipe p = true ∧ s.bed.running = true ∧ s.bed.triggers = 0 ∧ s.bed.frames = 0) →
    Answers (.bedDone p) s fun t => t = s)

/-! ## The Saddlebag -/

/-- The command port: a CREATE is checked in order and then takes a free number and its pages, which go live with the fill's end
under a new generation; a DESTROY is refused for an invalid handle and for one in use, and otherwise frees the stream at the
boundary, whose generation stays; a START while the port is busy is BUSY_WRITE (R37, R261, R262, R263, R264). -/
def Obligations.StreamPort : Prop :=
  (∀ (s : State) (src : Source) (v : Word), s.Reaches src R.SB_CMD →
    let bit := fun n => getBits v n n
    let r : CreateReq := ⟨bit 28, getBits v 27 26, bit 25 == 1, getBits v 24 16, (s.reg R.SB_CMD_ARG).toNat⟩
    let h := s.reg R.SB_CMD_ARG
    let taken : Nat → State → Prop := fun cmd t =>
      t.reg R.SB_CMD = (putBits v 30 29 cmd &&& 0x7FFF0000) ∧ (∀ k, t.stream k = s.stream k)
    let ended : Nat → Nat → State → Prop := fun cmd e t => t.fld F.SB_CMD_STATUS_RESULT = e ∧ t.fld F.SB_CMD_STATUS_BUSY = 0 ∧
      t.reg R.SB_CMD_HANDLE = 0 ∧ t.sb.port = none ∧ taken cmd t ∧
      RegsBut [R.SB_CMD, R.SB_CMD_STATUS, R.SB_CMD_HANDLE] s t ∧ SameBut [.regs, .sb] s t
    let busy : Nat → State → Prop := fun cmd t => t.reg R.SB_CMD = (putBits v 30 29 cmd &&& 0x7FFF0000) ∧
      t.sb.port = s.sb.port ∧
      (s.flag F.SYS_ACC_INFO_VALID = false → t.fld F.SYS_ACC_INFO_CODE = 3) ∧ RegsBut (R.SB_CMD :: AccRegs) s t ∧
      SameBut [.regs, .msix, .sb] s t
    (s.fld F.SB_CMD_STATUS_BUSY = 1 → Answers (.create src v) s (busy 1) ∧ Answers (.destroy src v) s (busy 2)) ∧
    (s.fld F.SB_CMD_STATUS_BUSY = 0 →
    (r.size = 0 → Answers (.create src v) s (ended 1 1)) ∧
    (s.createCheck r ≠ 0 → Answers (.create src v) s (ended 1 (s.createCheck r))) ∧
    (s.createCheck r = 0 → Answers (.create src v) s fun t => t.fld F.SB_CMD_STATUS_BUSY = 1 ∧
      (∃ key str, t.sb.port = some (.creating key str) ∧ key / 4096 = r.kind ∧ (s.stream key).live = false ∧
        str.gen = nextGen (s.stream key).gen ∧ str.live = true ∧ str.size = r.size ∧ str.pages.length = r.pages ∧
        (∀ p ∈ str.pages, p ∈ s.freePages)) ∧ taken 1 t ∧
      RegsBut [R.SB_CMD, R.SB_CMD_STATUS, R.SB_CLASS_USED r.cls] s t ∧ SameBut [.regs, .sb, .fresh] s t) ∧
    (s.named h = none → Answers (.destroy src v) s (ended 2 6)) ∧
    (∀ key, s.named h = some key →
      ((s.stream key).internal = true → Answers (.destroy src v) s (ended 2 6)) ∧
      ((s.stream key).internal = false → s.refCount h ≠ 0 → Answers (.destroy src v) s (ended 2 5)) ∧
      ((s.stream key).internal = false → s.refCount h = 0 → Answers (.destroy src v) s fun t =>
        t.sb.port = some (.destroying key) ∧ t.fld F.SB_CMD_STATUS_BUSY = 1 ∧ taken 2 t ∧
        RegsBut [R.SB_CMD, R.SB_CMD_STATUS] s t ∧ SameBut [.regs, .sb] s t)))) ∧
  (∀ (s : State) (key : Nat) (str : Stream), s.sb.port = some (.creating key str) → Answers .createDone s fun t =>
    t.stream key = str ∧ (∀ k, k ≠ key → t.stream k = s.stream k) ∧ t.sb.port = none ∧ t.fld F.SB_CMD_STATUS_RESULT = 0 ∧
    t.fld F.SB_CMD_STATUS_BUSY = 0 ∧ t.reg R.SB_CMD_HANDLE = mkHandle key str.gen ∧
    RegsBut [R.SB_CMD_STATUS, R.SB_CMD_HANDLE] s t ∧ SameBut [.regs, .sb] s t) ∧
  (∀ s : State, s.sb.port = none → Answers .createDone s fun t => t = s) ∧
  (∀ (s : State) (key : Nat), s.sb.port = some (.destroying key) → Answers .createDone s fun t => t = s) ∧
  (∀ (s : State) (key : Nat), s.sb.port = some (.destroying key) →
    s.portBoundary.stream key = { Stream.never with gen := (s.stream key).gen } ∧ s.portBoundary.sb.port = none ∧
    (∀ k, k ≠ key → s.portBoundary.stream k = s.stream k) ∧
    s.portBoundary.fld F.SB_CMD_STATUS_BUSY = 0 ∧ s.portBoundary.fld F.SB_CMD_STATUS_RESULT = 0 ∧
    SameBut [.regs, .readData, .resp, .sb] s s.portBoundary)

/-- A block pushes and pops a queue word by word: a word joins its open packet, an end word commits it, a full queue refuses and a
packet that was cut is aborted; a pop takes the oldest committed word, or finds the queue empty; a second operation of a cycle is
judged on the queue as the cycle began; an operation that a spill queue must hold waits; an error in the word or its neighbour is
corrected or delivered as poison; an invalid handle and a queue bound to an absent unit are told. A spill move changes where words
lie and none of them (R266, R269, R270, R271, R272, R275, R277). -/
def Obligations.BlockQueues : Prop :=
  ∀ (s : State) (req : Nat) (h : Word) (same d : Bool),
  let none' := { s with resp := ⟨req, 7, false, false, false, []⟩ }
  (∀ (w : PWord) (last : Bool), s.namedQueue h = none → (Answers (.queuePush req h w last ⟨same, d⟩) s fun t => t = none') ∧
    (Answers (.queuePop req h ⟨same, d⟩) s fun t => t = none') ∧ ∀ toDram, Answers (.spillMove h toDram) s fun t => t = s) ∧
  (∀ key, s.namedQueue h = some key → (∀ w ∈ s.sb.waits, w.key ≠ key) →
    let q := s.stream key
    let me := 1000 + req
    let late : State → Prop := fun t => (req < 256 → (t.reg (R.SB_REQ_DELAYED req)).toNat =
      min 0xFFFFFFFF ((s.reg (R.SB_REQ_DELAYED req)).toNat + if d then 1 else 0)) ∧ RegsBut [R.SB_REQ_DELAYED req] s t
    let frame : State → Prop := fun t => StreamsBut key s t ∧ late t ∧ SameBut [.regs, .msix, .sb, .resp] s t
    let told : State → Nat → Prop := fun t code => t.resp = ⟨req, code, d, false, false, []⟩
    let waits : SpillWait → State → Prop := fun w t => t.sb.waits = s.sb.waits ++ [w] ∧ (∀ k, t.stream k = s.stream k) ∧
      SameBut [.sb] s t
    ((∀ c, c < 4 → s.namedQueue (s.reg (R.DMC_EVQ c)) ≠ some key) → s.namedQueue (s.reg R.SB_EVQ) ≠ some key → ∀ toDram,
      Answers (.spillMove h toDram) s fun t =>
      (t.stream key).words.map (fun x => x.last) = q.words.map (fun x => x.last) ∧ (t.stream key).popped = q.popped ∧
      (toDram = true → (t.stream key).dramWords = q.dramWords ∨ (t.stream key).dramWords = q.dramWords + 1024) ∧
      (toDram = false → (t.stream key).dramWords = q.dramWords ∨ (t.stream key).dramWords = q.dramWords - 1024) ∧
      (∀ k, isQueue k = false → t.stream k = s.stream k) ∧
      RegsWhere (fun pl => pl.blk = .dmc ∨ pl.blk = .sb) s t ∧
      SameBut [.regs, .msix, .sb, .mem, .badLines, .chans, .repeatAge, .hide] s t) ∧
    (q.spill = false → ∀ toDram, Answers (.spillMove h toDram) s fun t => t = s) ∧
    (∀ (w : PWord) (last : Bool), q.absent = true → (Answers (.queuePush req h w last ⟨same, d⟩) s fun t => told t 6 ∧
      (∀ k, t.stream k = s.stream k) ∧ late t ∧ SameBut [.regs, .resp, .sb] s t) ∧
      Answers (.queuePop req h ⟨same, d⟩) s fun t => told t 6 ∧ (∀ k, t.stream k = s.stream k) ∧ late t ∧
        SameBut [.regs, .resp, .sb] s t) ∧
    (∀ (w : PWord) (last : Bool), q.absent = false → s.pushHeld key me = true →
      Answers (.queuePush req h w last ⟨same, d⟩) s (waits ⟨key, req, none, some (me, w, last)⟩)) ∧
    (∀ (w : PWord), q.absent = false → me ∉ q.cut → s.pushHeld key me = false →
      let fits := q.occupancy < q.size ∧ ((findOpen me q.opens).isSome = true ∨ q.opens.length < 16) ∧
        ¬ (same = true ∧ s.startFull key = true)
      (fits → Answers (.queuePush req h w false ⟨same, d⟩) s fun t => told t 0 ∧ (t.stream key).words = q.words ∧
        findOpen me (t.stream key).opens = some ((findOpen me q.opens).getD [] ++ [w]) ∧ frame t) ∧
      (fits → Answers (.queuePush req h w true ⟨same, d⟩) s fun t => told t 0 ∧ findOpen me (t.stream key).opens = none ∧
        (t.stream key).words = q.words ++ packetWords ((findOpen me q.opens).getD [] ++ [w]) ∧ frame t) ∧
      (∀ last, ¬ fits → Answers (.queuePush req h w last ⟨same, d⟩) s fun t => told t 2 ∧ t.stream key = q ∧ frame t)) ∧
    (∀ (w : PWord), q.absent = false → me ∈ q.cut →
      (Answers (.queuePush req h w false ⟨same, d⟩) s fun t => told t 4 ∧ t.stream key = q ∧ frame t) ∧
      Answers (.queuePush req h w true ⟨same, d⟩) s fun t => told t 3 ∧
        t.stream key = { q with cut := q.cut.filter (fun p => p != me) } ∧ frame t) ∧
    (q.absent = false → s.popHeld key = true → Answers (.queuePop req h ⟨same, d⟩) s (waits ⟨key, req, none, none⟩)) ∧
    (∀ (v : QWord) (rest : List QWord), q.absent = false → s.popHeld key = false → ¬ (same = true ∧ s.startEmpty key = true) →
      q.words = v :: rest → s.namedQueue (s.reg R.SB_EVQ) ≠ some key → s.namedQueue (s.reg (R.DMC_EVQ 0)) ≠ some key →
      let err := worseError v.word.err (q.pop.q.ringWord (q.popped ^^^ 1)).err
      (err = .clean → Answers (.queuePop req h ⟨same, d⟩) s fun t => (t.stream key).words = rest ∧
        (t.stream key).popped = q.popped + 1 ∧ t.resp = ⟨req, 0, d, v.last, v.word.poison, [v.word.val]⟩ ∧ frame t) ∧
      (err ≠ .clean → Answers (.queuePop req h ⟨same, d⟩) s fun t => (t.stream key).words.length = rest.length ∧
        t.resp = ⟨req, 0, d, v.last, v.word.poison || err == .double, [v.word.val]⟩ ∧
        (∀ k, isQueue k = false → t.stream k = s.stream k) ∧
        RegsWhere (fun pl => pl.blk = .sb ∨ pl.blk = .dmc) s t ∧ SameBut [.regs, .msix, .sb, .resp, .repeatAge] s t)) ∧
    (q.absent = false → s.popHeld key = false → q.words = [] ∨ (same = true ∧ s.startEmpty key = true) →
      Answers (.queuePop req h ⟨same, d⟩) s fun t => told t 1 ∧ t.stream key = q ∧ frame t))

/-- A host reaches a stream through an aperture: writes push, end and mark bad its packet, reads pop and give the depth, with the
outcome in SB_APER_QST; a bound buffer reads and writes word by word, at any of these offsets, and beyond its end and at an unbound
aperture is a hole; a wheel turns writes away and at the lead of a pair they wait. Binding marks the aperture's open packet bad
(R274, R279, R427).
The scrubber corrects a single-bit error of a 64-bit word in place and counts it, for a queue in the queue's own count too, and
poisons and counts a word with a double-bit error; a word without an error, a page of no stream and an interval of zero leave
everything as it is (R277, R278). -/
def Obligations.AperturesAndScrub : Prop :=
  (
  ∀ (s : State) (a : Nat), a < 16 → s.coreUp = true →
  let h := s.reg (R.SB_APER a)
  let me := 2000 + a
  let qst : State → Nat → Prop := fun t v => t.reg (R.SB_APER_QST a) = w32 v
  let regs : State → Prop := fun t => RegsBut [R.SB_APER_QST a] s t
  let hole : Option Word → State → Prop := fun wr t => (wr = none → t.readData = 0xDEAD0000) ∧
    (s.flag F.SYS_ACC_INFO_VALID = false → t.fld F.SYS_ACC_INFO_CODE = 2) ∧ (∀ k, isQueue k = false → t.stream k = s.stream k) ∧
    RegsBut AccRegs s t ∧ SameBut [.regs, .msix, .sb, .readData] s t
  (∀ (src : Source) (v : Word), s.Reaches src (R.SB_APER a) → Answers (.aperBind src a v) s fun t =>
    t.reg (R.SB_APER a) = (if (s.named v).isSome then v else 0) ∧
    (∀ key, s.namedQueue h = some key → me ∉ (s.stream key).cut → findOpen me (t.stream key).opens = none ∧
      (t.stream key).words = (s.stream key).words) ∧ (∀ k, s.namedQueue h ≠ some k → t.stream k = s.stream k) ∧
    RegsBut [R.SB_APER a] s t ∧ SameBut [.regs, .sb] s t) ∧
  (∀ off wr, s.fld F.PWR_STATE_BOOT_DONE = 0 → Answers (.aperBufferAccess a off wr) s (hole wr)) ∧
  (s.fld F.PWR_STATE_BOOT_DONE = 1 →
  (∀ (v : Word) (off : Nat), s.isWheel = true → Answers (.aperBufferAccess a off (some v)) s fun t =>
    (s.flag F.SYS_ACC_INFO_VALID = false → t.fld F.SYS_ACC_INFO_CODE = 3) ∧ RegsBut AccRegs s t ∧
    SameBut [.regs, .msix, .sb] s t) ∧
  (∀ (v : Word) (off : Nat), s.isWheel = false → s.leadsPair = true → Answers (.aperBufferAccess a off (some v)) s fun t =>
    t = { s with harn := { s.harn with forwards := s.harn.forwards ++ [.bar2 a off v] } }) ∧
  (∀ v : Word, s.isWheel = true ∨ s.leadsPair = true ∨ s.namedQueue h = none →
    exec (.aperPush a v) s = exec (.aperBufferAccess a 0 (some v)) s ∧
    exec (.aperEnd a v) s = exec (.aperBufferAccess a 4 (some v)) s ∧
    exec (.aperBad a v) s = exec (.aperBufferAccess a 8 (some v)) s) ∧
  (s.namedQueue h = none → exec (.aperPop a) s = exec (.aperBufferAccess a 0x10 none) s ∧
    exec (.aperDepth a) s = exec (.aperBufferAccess a 0x14 none) s) ∧
  (∀ key, s.namedQueue h = some key → (∀ w ∈ s.sb.waits, w.key ≠ key) →
    let q := s.stream key
    let fits := q.occupancy < q.size ∧ ((findOpen me q.opens).isSome = true ∨ q.opens.length < 16)
    let pushed : State → Prop := fun t => StreamsBut key s t ∧ regs t ∧ SameBut [.regs, .msix, .sb, .resp] s t
    let popped : State → Prop := fun t => StreamsBut key s t ∧ regs t ∧ SameBut [.regs, .msix, .sb, .resp, .readData] s t
    (∀ v : Word, s.isWheel = false → s.leadsPair = false → q.absent = true →
      ∀ i ∈ [Instr.aperPush a v, .aperEnd a v, .aperBad a v], Answers i s fun t => qst t 6 ∧ t.stream key = q ∧ pushed t) ∧
    (∀ v : Word, s.isWheel = false → s.leadsPair = false → q.absent = false →
      (s.pushHeld key me = true → Answers (.aperPush a v) s fun t =>
        t.sb.waits = s.sb.waits ++ [⟨key, 224, some a, some (me, PWord.clean v, false)⟩] ∧ (∀ k, t.stream k = s.stream k) ∧
        SameBut [.sb] s t) ∧
      (me ∉ q.cut → s.pushHeld key me = false →
        (fits → Answers (.aperPush a v) s fun t => qst t 0 ∧ (t.stream key).words = q.words ∧
          findOpen me (t.stream key).opens = some ((findOpen me q.opens).getD [] ++ [PWord.clean v]) ∧ pushed t) ∧
        (fits → Answers (.aperEnd a v) s fun t => qst t 0 ∧ findOpen me (t.stream key).opens = none ∧
          (t.stream key).words = q.words ++ packetWords ((findOpen me q.opens).getD [] ++ [PWord.clean v]) ∧ pushed t) ∧
        (¬ fits → (Answers (.aperPush a v) s fun t => qst t 2 ∧ t.stream key = q ∧ pushed t) ∧
          Answers (.aperEnd a v) s fun t => qst t 2 ∧ t.stream key = q ∧ pushed t)) ∧
      (me ∈ q.cut → (Answers (.aperPush a v) s fun t => qst t 4 ∧ t.stream key = q ∧ pushed t) ∧
        Answers (.aperEnd a v) s fun t => qst t 3 ∧ t.stream key = { q with cut := q.cut.filter (fun p => p != me) } ∧ pushed t) ∧
      (me ∉ q.cut → Answers (.aperBad a v) s fun t => qst t (if (findOpen me q.opens).isSome then 0 else 5) ∧
        findOpen me (t.stream key).opens = none ∧ (t.stream key).words = q.words ∧ pushed t) ∧
      (me ∈ q.cut → Answers (.aperBad a v) s fun t => qst t 0 ∧
        t.stream key = { q with cut := q.cut.filter (fun p => p != me) } ∧ pushed t)) ∧
    (q.absent = true → ∀ i ∈ [Instr.aperPop a, .aperDepth a], Answers i s fun t => qst t 6 ∧ t.stream key = q ∧ regs t ∧
      StreamsBut key s t ∧ SameBut [.regs, .resp, .readData, .fresh, .sb] s t) ∧
    (∀ (v : QWord) (rest : List QWord), q.absent = false → q.words = v :: rest → s.popHeld key = false →
      worseError v.word.err (q.pop.q.ringWord (q.popped ^^^ 1)).err = .clean →
      Answers (.aperPop a) s fun t => t.readData = v.word.val ∧ (t.stream key).words = rest ∧
        qst t (32 * bitNat v.word.poison + 16 * bitNat v.last) ∧ popped t) ∧
    (q.absent = false → q.words = [] → s.popHeld key = false → Answers (.aperPop a) s fun t => t.readData = 0 ∧ qst t 1 ∧
      t.stream key = q ∧ popped t) ∧
    (q.absent = false → s.popHeld key = true → Answers (.aperPop a) s fun t =>
      t.sb.waits = s.sb.waits ++ [⟨key, 224, some a, none⟩] ∧ (∀ k, t.stream k = s.stream k) ∧ SameBut [.sb] s t) ∧
    (q.absent = false → Answers (.aperDepth a) s fun t => t.readData = w32 q.words.length ∧ qst t 0 ∧ t.sb = s.sb ∧
      regs t ∧ SameBut [.regs, .resp, .readData] s t)) ∧
  (∀ key off, s.namedBuffer h = some key → off < (s.stream key).size →
    let w := s.bufWord key (off / 4)
    let err := worseError w.err (s.bufWord key (off / 4 ^^^ 1)).err
    (∀ v : Word, s.isWheel = false → s.leadsPair = false → Answers (.aperBufferAccess a off (some v)) s fun t =>
      t.bufWord key (off / 4) = PWord.clean v ∧ (∀ i, i ≠ off / 4 → t.bufWord key i = s.bufWord key i) ∧
      (∀ k, k ≠ key → t.stream k = s.stream k) ∧ SameBut [.sb, .resp, .hide] s t) ∧
    (err = .clean → Answers (.aperBufferAccess a off none) s fun t => t.readData = w.val ∧
      t.resp = ⟨224, 0, false, false, w.poison, [w.val]⟩ ∧ SameBut [.resp, .readData] s t) ∧
    (err ≠ .clean → Answers (.aperBufferAccess a off none) s fun t => t.readData = w.val ∧
      t.resp = ⟨224, 0, false, false, w.poison || err == .double, [w.val]⟩ ∧
      RegsWhere (fun pl => pl.blk = .sb ∨ pl.blk = .dmc) s t ∧
      SameBut [.regs, .msix, .sb, .resp, .readData, .repeatAge, .hide] s t)) ∧
  (∀ off wr, s.namedBuffer h = none ∨ (∃ key, s.namedBuffer h = some key ∧ (s.stream key).size ≤ off) →
    (wr.isSome = true → s.isWheel = false ∧ s.leadsPair = false) → Answers (.aperBufferAccess a off wr) s (hole wr)))) ∧
  (
  ∀ (s : State) (addr : Nat) (err : WordError), addr < 2 ^ 26 →
  (pageOwner (addr / 4096) s.sb.streams = none ∨ s.reg R.SB_SCRUB_INT = 0 → Answers (.scrub addr err) s fun t => t = s) ∧
  (∀ (key i : Nat), s.reg R.SB_SCRUB_INT ≠ 0 → pageOwner (addr / 4096) s.sb.streams = some (key, i) →
  let off := i * 1024 + addr % 4096 / 4
  let w := s.wordIn key off
  let x := s.wordIn key (off ^^^ 1)
  let worst := worseError (worseError err w.err) x.err
  let b := addr / 2 ^ 20
  let kept : State → Prop := fun t =>
    (isQueue key = false → ∀ j, j ≠ off → j ≠ off ^^^ 1 → t.bufWord key j = s.bufWord key j) ∧
    (∀ k, isQueue k = false → k ≠ key → t.stream k = s.stream k)
  (worst = .clean → Answers (.scrub addr err) s fun t => t = s) ∧
  (worst = .single → Answers (.scrub addr err) s fun t =>
    (isQueue key = false → t.wordIn key off = { w with err := .clean } ∧
      t.wordIn key (off ^^^ 1) = { x with err := .clean }) ∧ kept t ∧
    (isQueue key = true → t.fld (F.SB_Q_ERRS_CE key) = min 0xFFFF (s.fld (F.SB_Q_ERRS_CE key) + 1)) ∧
    RegsWhere (fun pl => pl.blk = .sb ∨ pl.blk = .dmc) s t ∧ SameBut [.regs, .msix, .sb, .repeatAge, .hide] s t) ∧
  (worst = .double → Answers (.scrub addr err) s fun t =>
    (isQueue key = false → t.wordIn key off = { w with poison := true, err := .clean } ∧
      t.wordIn key (off ^^^ 1) = { x with poison := true, err := .clean }) ∧ kept t ∧
    RegsWhere (fun pl => pl.blk = .sb) s t ∧ SameBut [.regs, .msix, .sb, .hide] s t) ∧
  ((s.stream key).pages.getD i 0 = addr / 4096 → i < (s.stream key).pages.length → b < 64 →
    (worst = .single → Answers (.scrub addr err) s fun t => (t.reg (R.SB_BANK_CE b)).toNat =
      min 0xFFFFFFFF ((s.reg (R.SB_BANK_CE b)).toNat + 1)) ∧
    (worst = .double → Answers (.scrub addr err) s fun t => (t.reg (R.SB_BANK_UE b)).toNat =
      min 0xFFFFFFFF ((s.reg (R.SB_BANK_UE b)).toNat + 1)))))

/-! ## DRAM -/

/-- A read of a line is answered with the queued data or with what memory gives, by the class of its symbol errors: clean,
corrected and written back, stored poison, or uncorrectable and marked; a write joins the write queues, whose oldest pair goes to
memory when they are full, through a read of its partner line when only one line of it is queued. A failed channel poisons reads
and loses writes; a host request that meets no memory is a hole; a wheel turns a host's write away and at the lead of a pair it
waits (R21, R284, R286, R287, R289, R299, R300, R427). -/
def Obligations.DramRequests : Prop :=
  ∀ (s : State) (chan req off : Nat), chan < 2 → req < 256 →
  (s.noMemory chan req off = true → ∀ err delayed data poison,
    (Answers (.dramRead chan req off err delayed) s fun t => t.readData = 0xDEAD0000 ∧
      t.resp = ⟨224, 0, false, false, false, List.replicate 16 0xDEAD0000⟩ ∧ RegsBut AccRegs s t ∧
      SameBut [.regs, .msix, .sb, .readData, .resp] s t) ∧
    Answers (.dramWrite chan req off data poison ⟨delayed, err⟩) s fun t => RegsBut AccRegs s t ∧
      SameBut [.regs, .msix, .sb] s t) ∧
  (s.noMemory chan req off = false → ∀ err delayed data poison,
    (req = 224 → s.isWheel = true → Answers (.dramWrite chan req off data poison ⟨delayed, err⟩) s fun t =>
      (s.flag F.SYS_ACC_INFO_VALID = false → t.fld F.SYS_ACC_INFO_CODE = 3) ∧ RegsBut AccRegs s t ∧
      SameBut [.regs, .msix, .sb] s t) ∧
    (req = 224 → s.isWheel = false → s.leadsPair = true → Answers (.dramWrite chan req off data poison ⟨delayed, err⟩) s fun t =>
      t = { s with harn := { s.harn with forwards := s.harn.forwards ++ [.bar4 chan off data poison] } })) ∧
  (let mine := ¬ (req = 224 ∧ (s.isWheel = true ∨ s.leadsPair = true))
  let counts : State → Bool → Prop := fun t d => (t.reg (R.SB_REQ_DELAYED req)).toNat =
    min 0xFFFFFFFF ((s.reg (R.SB_REQ_DELAYED req)).toNat + if d then 1 else 0)
  (s.noMemory chan req off = false → s.dmcState chan = dmcFailed → ∀ err delayed data poison,
    (Answers (.dramRead chan req off err delayed) s fun t =>
      t.resp = ⟨req, 0, delayed, false, true, wordsOfBytes (s.lineNow chan off).bytes⟩ ∧ counts t delayed ∧
      RegsBut [R.SB_REQ_DELAYED req] s t ∧ SameBut [.regs, .resp] s t) ∧
    (mine → Answers (.dramWrite chan req off data poison ⟨delayed, err⟩) s fun t =>
      t.resp = ⟨req, 0, delayed, false, false, []⟩ ∧
      (t.reg (R.DMC_WRITE_LOST chan)).toNat = min 0xFFFFFFFF ((s.reg (R.DMC_WRITE_LOST chan)).toNat + 1) ∧ counts t delayed ∧
      RegsBut [R.DMC_WRITE_LOST chan, R.SB_REQ_DELAYED req] s t ∧ SameBut [.regs, .resp] s t)) ∧
  (s.noMemory chan req off = false → s.dmcUp chan = true →
    let a := dramAddr chan off
    let late := fun d => d || s.dmcState chan == dmcSelfRefresh || s.rhLimited chan req off
    let up : State → Nat → Prop := fun t r => (t.reg r).toNat = min 0xFFFFFFFF ((s.reg r).toNat + 1)
    let frame : State → Bool → Prop := fun t d => t.dmcState chan = dmcReady ∧ ButAt State.chan chan s t ∧ counts t (late d) ∧
      ∀ b, b ≠ R.SB_REQ_DELAYED req → (∀ pl, placeOf b = some pl → pl.blk ≠ .dmc) → ¬ EventReg b → t.reg b = s.reg b
    let read : State → Bool → Prop := fun t d => t.mem = s.mem ∧ (t.chan chan).wq = (s.chan chan).wq ∧ frame t d
    (∀ l err d, queuedLine (s.chan chan).wq (off / 64) = some l → Answers (.dramRead chan req off err d) s fun t =>
      t.resp = ⟨req, 0, late d, false, l.poison, wordsOfBytes l.bytes⟩ ∧ read t d ∧
      SameBut [.regs, .chans, .msix, .sb, .resp] s t) ∧
    (∀ err d, queuedLine (s.chan chan).wq (off / 64) = none →
      let errs := err.map symErr
      let got := wordsOfBytes (applyErrs (s.bytesAt (a / 64 * 64) 64) errs)
      let cls := classify (if s.lineBad a then poisonMark ++ errs else errs)
      (errs = [] → got = wordsOfBytes (s.bytesAt (a / 64 * 64) 64)) ∧
      (cls = .clean → Answers (.dramRead chan req off err d) s fun t =>
        t.resp = ⟨req, 0, late d, false, false, got⟩ ∧ read t d ∧ SameBut [.regs, .chans, .msix, .sb, .resp] s t) ∧
      (cls = .storedPoison → Answers (.dramRead chan req off err d) s fun t =>
        t.resp = ⟨req, 0, late d, false, true, got⟩ ∧ up t (R.DMC_POISON_CNT chan) ∧ read t d ∧
        SameBut [.regs, .chans, .msix, .sb, .resp] s t) ∧
      (cls = .uncorrectable → Answers (.dramRead chan req off err d) s fun t =>
        t.resp = ⟨req, 0, late d, false, true, got⟩ ∧ up t (R.DMC_UE_CNT chan) ∧ t.lineBad a = true ∧
        (∀ b, b / 64 ≠ a / 64 → t.lineBad b = s.lineBad b) ∧ read t d ∧
        SameBut [.regs, .chans, .msix, .sb, .resp, .badLines] s t) ∧
      ∀ k, cls = .corrected k → Answers (.dramRead chan req off err d) s fun t =>
        let fixed := correctLine (s.bytesAt (a / 64 * 64) 64) errs k
        t.resp = ⟨req, 0, late d, false, false, wordsOfBytes fixed⟩ ∧ t.bytesAt (a / 64 * 64) 64 = padTo 64 fixed ∧
        (∀ b, b / 64 ≠ a / 64 → t.byteAt b = s.byteAt b ∧ t.lineBad b = s.lineBad b) ∧ t.lineBad a = false ∧
        up t (R.DMC_CE_CNT chan) ∧ (t.chan chan).wq = (s.chan chan).wq ∧ frame t d ∧
        SameBut [.regs, .chans, .msix, .sb, .resp, .mem, .badLines, .repeatAge] s t) ∧
    (∀ data poison d err, mine →
      let line : Line := ⟨padTo 64 (bytesOfWords data), poison⟩
      let joined : State → List WqEntry → Prop := fun t before => t.resp = ⟨req, 0, late d, false, false, []⟩ ∧
        queuedLine (t.chan chan).wq (off / 64) = some line ∧ frame t d ∧
        ∀ o, o ≠ off / 64 → queuedLine (t.chan chan).wq o = queuedLine before o
      ((s.chan chan).wq.length < 64 ∨ ((s.chan chan).wq.find? fun e => e.pair == off / 128).isSome = true →
        Answers (.dramWrite chan req off data poison ⟨d, err⟩) s fun t => joined t (s.chan chan).wq ∧ t.mem = s.mem ∧
          SameBut [.regs, .chans, .msix, .sb, .resp] s t) ∧
      ∀ e es, (s.chan chan).wq = e :: es → 64 ≤ (e :: es).length →
        ((s.chan chan).wq.find? fun e => e.pair == off / 128).isNone = true →
        Answers (.dramWrite chan req off data poison ⟨d, err⟩) s fun t =>
          let p := dramAddr chan (e.pair * 128)
          joined t es ∧ (∀ l, e.even = some l → t.bytesAt p 64 = padTo 64 l.bytes ∧ t.lineBad p = l.poison) ∧
          (∀ l, e.odd = some l → t.bytesAt (p + 64) 64 = padTo 64 l.bytes ∧ t.lineBad (p + 64) = l.poison) ∧
          (∀ b, b / 128 ≠ p / 128 → t.byteAt b = s.byteAt b ∧ t.lineBad b = s.lineBad b) ∧
          (e.even.isSome ≠ e.odd.isSome → up t (R.DMC_RMW_CNT chan)) ∧
          SameBut [.regs, .chans, .msix, .sb, .resp, .mem, .badLines, .repeatAge] s t)))

/-- A channel's life: its enable and configuration, which it takes only in OFF and FAILED; the end of its training, in READY with
every byte zero or in FAILED with the first cause that holds; the replays of a parity alert; refreshes and the debt of postponed
ones; its rate; self-refresh; the patrol; the end of a row-disturbance window and of an entry of the repeat table; and the checks
and the lateness of its fetchers (R282, R288, R290 to R297, R301 to R305). -/
def Obligations.DramUpkeep : Prop :=
  ∀ (s : State) (chan : Nat), chan < 2 →
  let others : State → Prop := ButAt State.chan chan s
  let still : Instr → Prop := fun i => Answers i s fun t => t = s
  (∀ (src : Source) (v : Word), s.Reaches src (R.DMC_CFG chan) →
    let stopped := s.dmcState chan = dmcOff ∨ s.dmcState chan = dmcFailed
    let conf := [R.DMC_CFG chan, R.DMC_STATUS chan, R.DMC_SIZE chan]
    (getBits v 31 31 = 0 → Answers (.dramEnable src chan v) s fun t => t.dmcState chan = dmcOff ∧
      t.chan chan = { s.chan chan with wq := [], fetchOn := [], inflight := [] } ∧ t.fld (F.DMC_SIZE_MIB chan) = 0 ∧
      t.fld (F.DMC_CFG_ENABLE chan) = 0 ∧ t.fld (F.DMC_STATUS_CAUSE chan) = 0 ∧ others t ∧ RegsBut (conf ++ AccRegs) s t ∧
      SameBut [.regs, .chans, .msix, .sb] s t) ∧
    (getBits v 31 31 = 1 → stopped → s.fld (F.DMC_CFG_ENABLE chan) = 0 →
      Answers (.dramEnable src chan v) s fun t => t.dmcState chan = dmcTraining ∧ t.fld (F.DMC_STATUS_CAUSE chan) = 0 ∧
        t.fld (F.DMC_SIZE_MIB chan) = 0 ∧ t.reg (R.DMC_CFG chan) = v &&& 0x800FE000 ∧ RegsBut conf s t ∧ SameBut [.regs] s t) ∧
    (getBits v 31 31 = 1 → stopped → s.fld (F.DMC_CFG_ENABLE chan) = 1 →
      Answers (.dramEnable src chan v) s fun t => t.reg (R.DMC_CFG chan) = v &&& 0x800FE000 ∧
        RegsBut [R.DMC_CFG chan] s t ∧ SameBut [.regs] s t) ∧
    (getBits v 31 31 = 1 → ¬ stopped →
      Answers (.dramEnable src chan v) s fun t => t.reg (R.DMC_CFG chan) = putBits (s.reg (R.DMC_CFG chan)) 31 31 1 ∧
        (getBits (s.reg (R.DMC_CFG chan)) 19 13 ≠ getBits v 19 13 → s.flag F.SYS_ACC_INFO_VALID = false →
          t.fld F.SYS_ACC_INFO_CODE = 3) ∧ RegsBut (R.DMC_CFG chan :: AccRegs) s t ∧ SameBut [.regs, .msix, .sb] s t)) ∧
  (∀ result repaired, s.dmcState chan = dmcTraining →
    let failed : Nat → State → Prop := fun cause t => t.dmcState chan = dmcFailed ∧
      t.fld (F.DMC_STATUS_CAUSE chan) = cause ∧ (t.chan chan).wq = [] ∧ t.fld (F.DMC_SIZE_MIB chan) = 0 ∧ others t ∧
      RegsBut [R.DMC_STATUS chan, R.DMC_SIZE chan, R.DMC_WRITE_LOST chan] s t ∧ SameBut [.regs, .chans] s t
    (3 ≤ result → Answers (.trainingDone chan ⟨result, repaired⟩) s fun t => failed 1 t ∧ t.fld (F.DMC_STATUS_SELFTEST chan) = 1) ∧
    (result < 3 → s.dmcConfigOk chan = false ∨ result = 2 → Answers (.trainingDone chan ⟨result, repaired⟩) s (failed 4)) ∧
    (s.dmcConfigOk chan = true → result = 1 → Answers (.trainingDone chan ⟨result, repaired⟩) s (failed 3)) ∧
    (s.dmcConfigOk chan = true → result = 0 → Answers (.trainingDone chan ⟨result, repaired⟩) s fun t =>
      t.dmcState chan = dmcReady ∧ t.fld (F.DMC_SIZE_MIB chan) = s.dmcMib chan % 2 ^ 17 ∧
      t.fld (F.DMC_STATUS_SELFTEST chan) = 0 ∧
      (∀ a, t.byteAt a = if a / 2 ^ 36 = chan then 0 else s.byteAt a) ∧
      (∀ a, t.lineBad a = if a / 2 ^ 36 = chan then false else s.lineBad a) ∧
      (∀ p ∈ (t.chan chan).remaps, p ∈ (s.chan chan).remaps ∧ (p ∈ repaired → s.fld F.PWR_STATE_BOOT_DONE = 1)) ∧
      (s.fld F.PWR_STATE_BOOT_DONE = 1 → (t.chan chan).remaps = (s.chan chan).remaps) ∧ others t ∧
      RegsBut [R.DMC_STATUS chan, R.DMC_SIZE chan, R.DMC_REMAP_USED chan] s t ∧
      SameBut [.regs, .mem, .badLines, .chans] s t)) ∧
  (∀ result repaired, s.dmcState chan ≠ dmcTraining → still (.trainingDone chan ⟨result, repaired⟩)) ∧
  (∀ n since, s.dmcUp chan = true →
    (n < 3 → Answers (.commandParityAlert chan ⟨n, since⟩) s fun t =>
      (t.reg (R.DMC_REPLAY_CNT chan)).toNat = min 0xFFFFFFFF ((s.reg (R.DMC_REPLAY_CNT chan)).toNat + (n + 1)) ∧
      (∀ b, (∀ e ∈ ((s.chan chan).retry.take since).flatMap RetryCmd.stores, b / 128 ≠ dramAddr chan (e.pair * 128) / 128) →
        t.byteAt b = s.byteAt b ∧ t.lineBad b = s.lineBad b) ∧
      t.chan chan = { s.chan chan with inflight := (s.chan chan).inflight.map fun p => { p with held := true } } ∧ others t ∧
      RegsBut [R.DMC_REPLAY_CNT chan] s t ∧ SameBut [.regs, .mem, .badLines, .chans] s t) ∧
    (3 ≤ n → Answers (.commandParityAlert chan ⟨n, since⟩) s fun t => t.dmcState chan = dmcFailed ∧
      (t.reg (R.DMC_REPLAY_CNT chan)).toNat = min 0xFFFFFFFF ((s.reg (R.DMC_REPLAY_CNT chan)).toNat + 3) ∧
      t.fld (F.DMC_STATUS_CAUSE chan) = 2 ∧ (t.chan chan).wq = [] ∧
      (∀ p ∈ (t.chan chan).inflight, ∀ w ∈ p.words.drop 1, w.poison = true) ∧ others t ∧
      RegsBut [R.DMC_REPLAY_CNT chan, R.DMC_STATUS chan, R.DMC_SIZE chan, R.DMC_WRITE_LOST chan] s t ∧
      SameBut [.regs, .chans, .msix, .sb] s t)) ∧
  (∀ n since, s.dmcUp chan = false → still (.commandParityAlert chan ⟨n, since⟩)) ∧
  (s.dmcState chan = dmcReady →
    let debt := s.fld (F.DMC_STATUS_DEBT chan)
    let done : Nat → State → Prop := fun n t => t.fld (F.DMC_STATUS_DEBT chan) = n ∧
      t.fld (F.DMC_STATUS_TSET chan) = (s.chan chan).tsetNext % 4 ∧
      t.chan chan = { s.chan chan with retry := (.refresh :: (s.chan chan).retry).take 64 } ∧ others t ∧
      RegsBut [R.DMC_STATUS chan] s t ∧ SameBut [.regs, .chans, .cal] s t
    (debt < 4 → Answers (.refresh chan true) s fun t => t.fld (F.DMC_STATUS_DEBT chan) = debt + 1 ∧
      t.fld (F.DMC_STATUS_TSET chan) = s.fld (F.DMC_STATUS_TSET chan) ∧
      (t.reg (R.DMC_POSTPONE_CNT chan)).toNat = min 0xFFFFFFFF ((s.reg (R.DMC_POSTPONE_CNT chan)).toNat + 1) ∧
      RegsBut [R.DMC_STATUS chan, R.DMC_POSTPONE_CNT chan] s t ∧ SameBut [.regs] s t) ∧
    (4 ≤ debt → Answers (.refresh chan true) s (done debt)) ∧
    Answers (.refresh chan false) s (done (debt - 1))) ∧
  (∀ iso, s.dmcState chan ≠ dmcReady → still (.refresh chan iso)) ∧
  (∀ rate, s.dmcState chan ≠ dmcOff → s.dmcState chan ≠ dmcFailed →
    let new := max (s.chan chan).bandRate (min rate 2)
    let rise := s.fld (F.DMC_STATUS_RATE chan) < new
    Answers (.mr4Poll chan rate) s fun t => t.fld (F.DMC_STATUS_RATE chan) = new % 4 ∧
      t.chan chan = { s.chan chan with mr4Rate := min rate 2 } ∧
      t.fld (F.DMC_STATUS_DEBT chan) = (if rise then 0 else s.fld (F.DMC_STATUS_DEBT chan)) ∧
      (rise → s.fld (F.DMC_STATUS_DEBT chan) ≠ 0 → t.fld (F.DMC_STATUS_TSET chan) = (s.chan chan).tsetNext % 4) ∧ others t ∧
      RegsBut [R.DMC_STATUS chan] s t ∧ SameBut [.regs, .chans, .msix, .sb] s t) ∧
  (∀ rate, s.dmcState chan = dmcOff ∨ s.dmcState chan = dmcFailed → still (.mr4Poll chan rate)) ∧
  (∀ fetch (p : Fetch), (s.chan chan).inflight.find? (fun p => p.fetcher == fetch) = some p →
    Answers (.isoLate chan fetch) s fun t =>
      t.chan chan = { s.chan chan with inflight := (s.chan chan).inflight.erase p } ∧
      (t.reg (R.DMC_ISO_LATE chan)).toNat = min 0xFFFFFFFF ((s.reg (R.DMC_ISO_LATE chan)).toNat + 1) ∧ others t ∧
      RegsBut [R.DMC_ISO_LATE chan] s t ∧ SameBut [.regs, .chans, .msix, .sb] s t) ∧
  (∀ fetch, (s.chan chan).inflight.find? (fun p => p.fetcher == fetch) = none → still (.isoLate chan fetch)) ∧
  (∀ (src : Source) (f : Nat) (v : Word), f < 8 → s.Reaches src (R.DMC_ISO_CTRL chan f) →
    let a := R.DMC_ISO_CTRL chan f
    let taken := (s.reg a &&& 0x70000000) ||| (v &&& 0x80FF007F)
    let r := (s.setReg a taken).fetcherCheck chan f
    (getBits v 31 31 = 0 ∨ f ∈ (s.chan chan).fetchOn → Answers (.fetcherEnable src chan f v) s fun t => t.reg a = taken ∧
      RegsBut [a] s t ∧ SameBut [.regs] s t) ∧
    (getBits v 31 31 = 1 → f ∉ (s.chan chan).fetchOn → Answers (.fetcherEnable src chan f v) s fun t =>
      t.fld (F.DMC_ISO_CTRL_RESULT chan f) = r ∧ t.fld (F.DMC_ISO_CTRL_EN chan f) = (if r = 0 then 1 else 0) ∧
      (t.chan chan).fetchOn = (s.chan chan).fetchOn ++ (if r = 0 then [f] else []) ∧ others t ∧ RegsBut [a] s t ∧
      SameBut [.regs, .chans] s t)) ∧
  (let enters := s.dmcState chan = dmcReady ∧ s.fld (F.DMC_SR_IDLE_VALUE chan) ≠ 0 ∧ (s.chan chan).fetchOn = []
   (enters → Answers (.selfRefreshEntry chan) s fun t => t.dmcState chan = dmcSelfRefresh ∧
      t.fld (F.DMC_STATUS_DEBT chan) = 0 ∧ (t.chan chan).wq = [] ∧
      (t.reg (R.DMC_SR_CNT chan)).toNat = min 0xFFFFFFFF ((s.reg (R.DMC_SR_CNT chan)).toNat + 1) ∧
      (∀ q e q', (s.chan chan).wq = q ++ e :: q' → (∀ f ∈ q', f.pair ≠ e.pair) →
        (∀ l, e.even = some l → t.bytesAt (dramAddr chan (e.pair * 128)) 64 = padTo 64 l.bytes) ∧
        (∀ l, e.odd = some l → t.bytesAt (dramAddr chan (e.pair * 128) + 64) 64 = padTo 64 l.bytes)) ∧ others t ∧
      RegsWhere (fun pl => pl.blk = .dmc) s t ∧ SameBut [.regs, .msix, .sb, .chans, .mem, .badLines, .repeatAge] s t) ∧
   (¬ enters → still (.selfRefreshEntry chan))) ∧
  (∀ err, s.fld (F.DMC_PATROL_HOURS chan) ≠ 0 → s.dmcUp chan = true → Answers (.patrol chan err) s fun t =>
    let pos := (s.chan chan).patrolPos
    (t.chan chan).patrolPos = (pos + 64) % max 64 ((s.dmcMib chan + 1) * 8192) ∧ (t.chan chan).wq = (s.chan chan).wq ∧
    t.dmcState chan = dmcReady ∧
    (err = [] → (∀ i, i < 128 → s.lineBad (dramAddr chan (pos * 128 + 64 * i)) = false) →
      SameBut [.regs, .msix, .sb, .chans] s t) ∧ others t ∧
    (t.reg (R.SB_REQ_DELAYED (dmcReq chan))).toNat = min 0xFFFFFFFF ((s.reg (R.SB_REQ_DELAYED (dmcReq chan))).toNat +
      if s.dmcState chan = dmcSelfRefresh then 1 else 0) ∧
    (∀ b, b ≠ R.SB_REQ_DELAYED (dmcReq chan) → (∀ pl, placeOf b = some pl → pl.blk ≠ .dmc) → ¬ EventReg b →
      t.reg b = s.reg b) ∧
    SameBut [.regs, .chans, .msix, .sb, .mem, .badLines, .repeatAge] s t) ∧
  (∀ err, s.fld (F.DMC_PATROL_HOURS chan) = 0 ∨ s.dmcUp chan = false → still (.patrol chan err)) ∧
  (Answers (.rhWindowEnd chan) s fun t => t.chan chan = { s.chan chan with rh := [], limited := [] } ∧ others t ∧
    SameBut [.chans] s t) ∧
  (∀ k, k < 64 →
    (s.repeatValid k = true → s.repeatSticky k = false → Answers (.repeatEntryExpiry k) s fun t =>
      t.repeatValid k = false ∧ (∀ e ∈ t.repeatAge, e.1 ≠ k) ∧ (∀ e ∈ s.repeatAge, e.1 ≠ k → e ∈ t.repeatAge) ∧
      RegsBut [R.DMC_REPEAT 0 k, R.DMC_REPEAT_INFO 0 k] s t ∧ SameBut [.regs, .repeatAge] s t) ∧
    (s.repeatValid k = false ∨ s.repeatSticky k = true → still (.repeatEntryExpiry k)))

/-! ## Latigo lanes and the host's ports -/

/-- The commands of a lane and its configuration: each is taken in the states R317 names for it and answers BUSY in the others;
a MISS_LIMIT below 2 is not taken while HARN_CFG.ENABLE is 1; a flit that fails its check is counted, and a NAK replays what is
left (R309, R313, R317, R323 to R325, R425). -/
def Obligations.LaneCommands : Prop :=
  ∀ (s : State) (k : Nat), k < 40 →
  let st := s.laneState k
  let kept : State → Prop := ButAt State.lane k s
  let refused : Instr → Prop := fun i => Answers i s fun t => t.fld (F.LANE_STATUS_RESULT k) = 1 ∧
    t.laneState k = st ∧ RegsBut [R.LANE_STATUS k] s t ∧ SameBut [.regs] s t
  let taken : State → Nat → Prop := fun t dest => t.laneState k = dest ∧ t.fld (F.LANE_STATUS_RESULT k) = 0 ∧ kept t ∧
    RegsBut [R.LANE_STATUS k] s t
  (∀ (src : Source) (v : Word), s.Reaches src (R.LANE_CFG k) →
    let free := st = laneDown ∨ st = laneFailed ∨ st = laneTest
    let drop := (s.reg (R.LANE_CFG k)).msb && !v.msb
    let short := s.fld F.HARN_CFG_ENABLE = 1 ∧ s.isHarness k = false ∧ getBits v 23 16 < 2
    let dropped : State → Prop := fun t => t.lane k = (if drop then { s.lane k with drop := true } else s.lane k) ∧ kept t ∧
      (¬ (v.msb = true) → t.therm = s.therm) ∧
      (v.msb = true → (5, k) ∉ t.therm.stopped ∧ ∀ u, u ≠ (5, k) → (u ∈ t.therm.stopped ↔ u ∈ s.therm.stopped))
    (free → ¬ short → Answers (.laneEnable src k v) s fun t => t.reg (R.LANE_CFG k) = v &&& 0x8FFFFFFF ∧ dropped t ∧
        RegsBut [R.LANE_CFG k] s t ∧ SameBut [.regs, .lanes, .therm] s t) ∧
    (free → short → Answers (.laneEnable src k v) s fun t =>
      t.reg (R.LANE_CFG k) = putBits v 23 16 (getBits (s.reg (R.LANE_CFG k)) 23 16) &&& 0x8FFFFFFF ∧ dropped t ∧
      (getBits (s.reg (R.LANE_CFG k)) 23 16 ≠ getBits v 23 16 → s.fld F.SYS_ACC_INFO_VALID = 0 →
        t.fld F.SYS_ACC_INFO_CODE = 3) ∧
      RegsBut (R.LANE_CFG k :: AccRegs) s t ∧ SameBut [.regs, .lanes, .msix, .sb, .therm] s t) ∧
    (¬ free → Answers (.laneEnable src k v) s fun t =>
      t.reg (R.LANE_CFG k) = (s.reg (R.LANE_CFG k) &&& 0x0FFFFFFF) ||| (v &&& 0x80000000) ∧ dropped t ∧
      (s.reg (R.LANE_CFG k) &&& 0x0FFFFFFF ≠ v &&& 0x0FFFFFFF → s.fld F.SYS_ACC_INFO_VALID = 0 →
        t.fld F.SYS_ACC_INFO_CODE = 3) ∧
      RegsBut (R.LANE_CFG k :: AccRegs) s t ∧ SameBut [.regs, .lanes, .msix, .sb, .therm] s t)) ∧
  ((st = laneReady ∧ s.laneBusy k = false) ∨ st = laneFailed → Answers (.retrain k) s fun t => taken t laneDetect ∧
    t.fld (F.LANE_STATUS_CAUSE k) = 0 ∧
    t.lane k = { s.lane k with pend := none, tx := 0, rx := none, replay := [], nak := false, bad := 0 } ∧
    (st = laneReady → k < s.part.row.lasers → 7 ∈ (t.awl k).due ∧ ButAt State.awl k s t) ∧
    (st = laneFailed ∨ s.part.row.lasers ≤ k → t.awls = s.awls) ∧ SameBut [.regs, .lanes, .awls, .msix, .sb] s t) ∧
  (¬ ((st = laneReady ∧ s.laneBusy k = false) ∨ st = laneFailed) → refused (.retrain k)) ∧
  (st = laneDown ∨ st = laneFailed → Answers (.test k) s fun t => taken t laneTest ∧ t.lane k = { s.lane k with pend := none } ∧
    SameBut [.regs, .lanes] s t) ∧
  (¬ (st = laneDown ∨ st = laneFailed) → refused (.test k)) ∧
  (st = laneTest → Answers (.exit k) s fun t =>
    taken t (if s.fld (F.LANE_CFG_ENABLE k) = 1 then laneDetect else laneDown) ∧ (t.lane k).pend = none ∧
    SameBut [.regs, .lanes] s t) ∧
  (st ≠ laneTest → refused (.exit k)) ∧
  (st = laneReady → s.fld (F.LANE_STATUS_MEAS_BUSY k) = 0 → Answers (.measure k) s fun t => taken t st ∧
    t.fld (F.LANE_STATUS_MEAS_BUSY k) = (if s.fld (F.LANE_CFG_CHECK_MS k) = 0 then 0 else 1) ∧
    SameBut [.regs] s t) ∧
  (st ≠ laneReady ∨ s.fld (F.LANE_STATUS_MEAS_BUSY k) = 1 → refused (.measure k)) ∧
  (∀ errs bits, s.fld (F.LANE_STATUS_MEAS_BUSY k) = 1 → Answers (.measureDone k errs bits) s fun t =>
    t.fld (F.LANE_STATUS_MEAS_BUSY k) = 0 ∧
    (t.reg (R.LANE_PRBS_ERR k)).toNat = min 0xFFFFFFFF ((s.reg (R.LANE_PRBS_ERR k)).toNat + errs) ∧
    (t.reg (R.LANE_PRBS_BITS k)).toNat = min 0xFFFFFFFF ((s.reg (R.LANE_PRBS_BITS k)).toNat + bits) ∧
    t.laneState k = st ∧
    RegsBut [R.LANE_STATUS k, R.LANE_PRBS_ERR k, R.LANE_PRBS_BITS k] s t ∧ SameBut [.regs, .msix, .sb] s t) ∧
  (∀ errs bits, s.fld (F.LANE_STATUS_MEAS_BUSY k) = 0 → Answers (.measureDone k errs bits) s fun t => t = s) ∧
  (let mode := s.fld (F.LANE_TEST_INJ_MODE k)
   let ty := s.fld (F.LANE_TEST_INJ_TYPE k)
   let closed := (st ≠ laneReady ∧ st ≠ laneTest) ∨ (mode = 2 ∧ ty = 1 ∧ s.laneBusy k = true)
   let looped := st = laneTest ∧ s.fld (F.LANE_TEST_LOOP k) ≠ 0 ∧ s.fld (F.LANE_TEST_GEN_EN k) = 1 ∧
     s.fld (F.LANE_TEST_CHK_EN k) = 1
   (mode = 0 ∨ mode = 3 → Answers (.inject k) s fun t => taken t st ∧
     SameBut [.regs] s t) ∧
   (mode = 1 ∨ mode = 2 → closed → refused (.inject k)) ∧
   (mode = 1 → ¬ closed → Answers (.inject k) s fun t => t.laneState k = st ∧ t.fld (F.LANE_STATUS_RESULT k) = 0 ∧
     (t.reg (R.LANE_PRBS_ERR k)).toNat = min 0xFFFFFFFF ((s.reg (R.LANE_PRBS_ERR k)).toNat + if looped then 1 else 0) ∧
     RegsBut [R.LANE_STATUS k, R.LANE_PRBS_ERR k] s t ∧ SameBut [.regs] s t) ∧
   (mode = 2 → ¬ closed → Answers (.inject k) s fun t => taken t st ∧
     t.lane k = { s.lane k with inject := some (2, ty) } ∧ SameBut [.regs, .lanes] s t)) ∧
  (Answers (.badFlit k true) s fun t => t.lane k = { s.lane k with bad := (s.lane k).bad + 1, nak := true } ∧ kept t ∧
    (t.reg (R.LANE_CRC_ERR k)).toNat = min 0xFFFFFFFF ((s.reg (R.LANE_CRC_ERR k)).toNat + 1) ∧
    RegsBut [R.LANE_CRC_ERR k] s t ∧ SameBut [.regs, .lanes] s t) ∧
  (Answers (.badFlit k false) s fun t => t.lane k = { s.lane k with bad := 0, lastAt := s.now } ∧ kept t ∧
    (t.reg (R.LANE_FORMAT_ERR k)).toNat = min 0xFFFFFFFF ((s.reg (R.LANE_FORMAT_ERR k)).toNat + 1) ∧
    RegsBut [R.LANE_FORMAT_ERR k] s t ∧ SameBut [.regs, .lanes] s t) ∧
  ∀ ack, Answers (.nak k ack) s fun t => 
    let left := acked ack (s.lane k).replay
    t.lane k = { s.lane k with
      replay := left, ackAt := if left.length < (s.lane k).replay.length ∨ left = [] then s.now else (s.lane k).ackAt } ∧ kept t ∧
    (t.reg (R.LANE_REPLAY k)).toNat =
      min 0xFFFFFFFF ((s.reg (R.LANE_REPLAY k)).toNat + (acked ack (s.lane k).replay).length) ∧
    RegsBut [R.LANE_REPLAY k] s t ∧ SameBut [.regs, .lanes] s t

/-- A lane's way from DETECT to READY and out of it, and its upstream flits: the head's IDENT, the end of CHECK, the sixteen
round trips of ALIGN and the latency they give, RECOVERY with its three attempts, the loss of a READY lane, and a SAMPLES or STATUS
flit of the present Stitch, of another Stitch and out of sequence; the boundary latches the status that was heard (R29, R311, R313,
R316 to R321). -/
def Obligations.LaneLife : Prop :=
  ∀ (s : State) (k : Nat), k < 40 →
  let st := s.laneState k
  let l := s.lane k
  let kept : State → Prop := ButAt State.lane k s
  let still : Instr → Prop := fun i => Answers i s fun t => t = s
  let again : State → Prop := fun t => t.laneState k = laneRecovery ∧
    t.lane k = { l with attempts := l.attempts + 1, aligning := false, rtts := [], known := false } ∧
    (t.reg (R.LANE_RECOVER k)).toNat = min 0xFFFFFFFF ((s.reg (R.LANE_RECOVER k)).toNat + 1) ∧ kept t
  let lost : Nat → State → Prop := fun cause t => t.laneState k = laneFailed ∧ t.fld (F.LANE_STATUS_CAUSE k) = cause ∧
    t.lane k = { l with pend := none } ∧ kept t
  let align := st = laneAlign ∨ (st = laneRecovery ∧ l.aligning = true)
  (∀ words, (st = laneDetect → Answers (.identFlit k words) s fun t =>
    t.reg (R.LANE_HEAD k) = words.getD 0 0 ∧ t.reg (R.LANE_SERIAL_LO k) = words.getD 1 0 ∧
    t.reg (R.LANE_SERIAL_HI k) = words.getD 2 0 ∧
    t.lane k = { l with turn := getBits (words.getD 3 0) 15 0, pend := some (laneRate, 0) } ∧ kept t ∧
    RegsBut [R.LANE_HEAD k, R.LANE_SERIAL_LO k, R.LANE_SERIAL_HI k] s t ∧ SameBut [.regs, .lanes] s t) ∧
    (st ≠ laneDetect → still (.identFlit k words))) ∧
  (∀ errs, let pass := errs ≤ s.fld (F.LANE_CFG_CHECK_MAX k)
    let again3 := st = laneRecovery ∧ l.aligning = false
    (st = laneCheck → Answers (.checkDone k errs) s fun t => t.lane k = { l with pend := some (
      if pass then (laneAlign, 0)
      else if (s.chooseRate k (s.fld (F.LANE_STATUS_RATE k))).isSome then (laneCheck, 2) else (laneFailed, 2)) } ∧
      kept t ∧ SameBut [.lanes] s t) ∧
    (again3 → pass → Answers (.checkDone k errs) s fun t =>
      t.lane k = { l with aligning := true, rtts := [], known := false } ∧ kept t ∧ SameBut [.lanes] s t) ∧
    (again3 → ¬ pass → l.attempts < 3 → Answers (.checkDone k errs) s fun t =>
      again t ∧ RegsBut [R.LANE_RECOVER k] s t ∧ SameBut [.regs, .lanes] s t) ∧
    (again3 → ¬ pass → 3 ≤ l.attempts → Answers (.checkDone k errs) s fun t =>
      lost 5 t ∧ RegsBut [R.LANE_STATUS k] s t ∧ SameBut [.regs, .lanes, .msix, .sb] s t) ∧
    (st ≠ laneCheck → ¬ again3 → still (.checkDone k errs))) ∧
  (∀ rtt,
    (align → s.identFits k = true → Answers (.echoFlit k rtt) s fun t =>
      t.lane k = (if l.rtts.length < 16 then { l with known := true, rtts := l.rtts ++ [rtt] } else l) ∧ kept t ∧
      RegsBut [] s t ∧ SameBut [.regs, .lanes, .msix, .sb] s t ∧
      (∀ key lo hi, l.known = false → l.serialWas = some (lo, hi) →
        lo ≠ s.reg (R.LANE_SERIAL_LO k) ∨ hi ≠ s.reg (R.LANE_SERIAL_HI k) →
        s.Takes (laneReq k) (s.reg (R.LANE_EVQ k)) 3 key → (t.stream key).words = (s.stream key).words ++
          packetWords ([w32 (0x63 * 2 ^ 24 + k * 2 ^ 16), s.reg (R.LANE_SERIAL_LO k), s.stitchLo].map PWord.clean))) ∧
    (st = laneAlign → s.identFits k = false → Answers (.echoFlit k rtt) s fun t =>
      t.lane k = { l with pend := some (laneFailed, 3) } ∧ kept t ∧ SameBut [.lanes] s t) ∧
    (st = laneRecovery → l.aligning = true → s.identFits k = false → l.attempts < 3 → Answers (.echoFlit k rtt) s fun t =>
      again t ∧ RegsBut [R.LANE_RECOVER k] s t ∧ SameBut [.regs, .lanes] s t) ∧
    (st = laneRecovery → l.aligning = true → s.identFits k = false → 3 ≤ l.attempts → Answers (.echoFlit k rtt) s fun t =>
      lost 5 t ∧ RegsBut [R.LANE_STATUS k] s t ∧ SameBut [.regs, .lanes, .msix, .sb] s t) ∧
    (¬ align → still (.echoFlit k rtt))) ∧
  (align → l.rtts.length = 16 →
    let rate := s.fld (F.LANE_STATUS_RATE k)
    let d := oneWay l.rtts l.turn
    let lat : State → Prop := fun t => t.fld (F.LANE_LAT_D k) = d % 2 ^ 11 ∧
      t.fld (F.LANE_LAT_U k) = (d + flitTime rate + 8) % 2 ^ 11 ∧
      RegsBut [R.LANE_LAT k, R.LANE_STATUS k, R.LANE_RECOVER k, R.STCH_STATUS] s t ∧
      SameBut [.regs, .lanes, .msix, .sb] s t
    (s.laneFits k d rate = true → Answers (.laneUp k) s fun t => t.laneState k = laneReady ∧
      (t.lane k).attempts = 0 ∧ (t.lane k).lastAt = s.now ∧ (t.lane k).pend = none ∧
      (t.lane k).serialWas = some (s.reg (R.LANE_SERIAL_LO k), s.reg (R.LANE_SERIAL_HI k)) ∧
      t.reg (R.LANE_RECOVER k) = s.reg (R.LANE_RECOVER k) ∧ kept t ∧ lat t) ∧
    (s.laneFits k d rate = false → st = laneAlign → Answers (.laneUp k) s fun t => lost 4 t ∧
      t.reg (R.LANE_RECOVER k) = s.reg (R.LANE_RECOVER k) ∧ lat t) ∧
    (s.laneFits k d rate = false → st = laneRecovery → l.attempts < 3 → Answers (.laneUp k) s fun t => again t ∧ lat t) ∧
    (s.laneFits k d rate = false → st = laneRecovery → 3 ≤ l.attempts → Answers (.laneUp k) s fun t => lost 5 t ∧ lat t)) ∧
  (¬ (align ∧ l.rtts.length = 16) → still (.laneUp k)) ∧
  (∀ c, (st = laneReady → s.laneLost k c = true → Answers (.laneDown k c) s fun t => t.laneState k = laneRecovery ∧
    (t.reg (R.LANE_RECOVER k)).toNat = min 0xFFFFFFFF ((s.reg (R.LANE_RECOVER k)).toNat + 1) ∧
    (t.lane k).attempts = 1 ∧ (t.lane k).pend = none ∧
    (k < s.part.row.lasers → 7 ∈ (t.awl k).due ∧ ButAt State.awl k s t) ∧
    (s.part.row.lasers ≤ k → t.awls = s.awls) ∧ kept t ∧
    RegsBut [R.LANE_STATUS k, R.LANE_RECOVER k, R.STCH_STATUS] s t ∧ SameBut [.regs, .lanes, .awls, .msix, .sb] s t) ∧
    (¬ (st = laneReady ∧ s.laneLost k c = true) → still (.laneDown k c))) ∧
  (∀ (hdr : Word) (words : List Word),
    (st ≠ laneReady → still (.samplesFlit k hdr words) ∧ still (.statusFlit k hdr words)) ∧
    (st = laneReady →
    let seq := getBits hdr 27 16
    let inOrder := l.rx = none ∨ l.rx = some seq
    let tag := words.getD 0 0
    let left := acked (getBits hdr 15 4) l.replay
    let took := { l with
      replay := left, ackAt := if left.length < l.replay.length ∨ left = [] then s.now else l.ackAt, lastAt := s.now, bad := 0 }
    let resent : State → Prop := fun t => (t.reg (R.LANE_REPLAY k)).toNat = min 0xFFFFFFFF
      ((s.reg (R.LANE_REPLAY k)).toNat + if getBits hdr 3 3 = 1 then left.length else 0) ∧ kept t
    let heard := { took with rx := some ((seq + 1) % 4096) }
    (inOrder → tag = s.stitchLo → k < s.part.row.lasers → Answers (.samplesFlit k hdr words) s fun t => t.lane k = heard ∧
      t.rein k = { s.rein k with
        pairs := (s.rein k).pairs ++
          flitPairs (getBits (words.getD 1 0) 31 16) (min 8 (getBits (words.getD 1 0) 3 0)) (words.drop 2) } ∧
      ButAt State.rein k s t ∧ resent t ∧ RegsBut [R.LANE_REPLAY k] s t ∧ SameBut [.regs, .lanes, .reins] s t) ∧
    (inOrder → tag = s.stitchLo → s.part.row.lasers ≤ k → Answers (.samplesFlit k hdr words) s fun t => t.lane k = heard ∧
      resent t ∧ RegsBut [R.LANE_REPLAY k] s t ∧ SameBut [.regs, .lanes] s t) ∧
    (inOrder → tag = s.stitchLo → Answers (.statusFlit k hdr words) s fun t =>
      t.lane k = { heard with heard := some words } ∧ resent t ∧
      RegsBut [R.LANE_REPLAY k] s t ∧ SameBut [.regs, .lanes] s t) ∧
    (inOrder → s.tagOrder tag = 1 →
      let late : State → Prop := fun t => (t.reg R.STCH_LATE_CNT).toNat = min 0xFFFFFFFF ((s.reg R.STCH_LATE_CNT).toNat + 1) ∧
        t.fld F.STCH_EVENT_LATE_INPUT = 1 ∧ t.lane k = heard ∧ resent t ∧
        RegsBut [R.LANE_REPLAY k, R.STCH_LATE_CNT, R.STCH_EVENT] s t ∧ SameBut [.regs, .lanes] s t
      (Answers (.samplesFlit k hdr words) s late) ∧ Answers (.statusFlit k hdr words) s late) ∧
    (inOrder → s.tagOrder tag = 2 →
      let early : State → Prop := fun t =>
        (t.reg R.STCH_EARLY_CNT).toNat = min 0xFFFFFFFF ((s.reg R.STCH_EARLY_CNT).toNat + 1) ∧
        t.fld F.STCH_EVENT_EARLY_INPUT = 1 ∧ t.lane k = { heard with early := true } ∧ resent t ∧
        RegsBut [R.LANE_REPLAY k, R.STCH_EARLY_CNT, R.STCH_EVENT] s t ∧ SameBut [.regs, .lanes] s t
      (Answers (.samplesFlit k hdr words) s early) ∧ Answers (.statusFlit k hdr words) s early) ∧
    (∀ r, l.rx = some r → r ≠ seq →
      let missed : State → Prop := fun t => t.lane k = { took with nak := true } ∧ resent t ∧
        RegsBut [R.LANE_REPLAY k] s t ∧ SameBut [.regs, .lanes] s t
      (Answers (.samplesFlit k hdr words) s missed) ∧ Answers (.statusFlit k hdr words) s missed))) ∧
  (l.heard = none → s.latchStatus k = s) ∧
  ∀ ws, l.heard = some ws →
    let t := s.latchStatus k
    t.reg (R.LANE_HEAD_STAT k) = ws.getD 1 0 ∧
    t.lane k = { l with heard := none, safe := (ws.getD 1 0).getLsbD 1, gate := ws.getD 3 0 } ∧
    (t.reg (R.LANE_MISSED k)).toNat =
      min 0xFFFFFFFF ((s.reg (R.LANE_MISSED k)).toNat + bitNat ((ws.getD 1 0).getLsbD 0)) ∧ kept t ∧
    RegsBut [R.LANE_HEAD_STAT k, R.LANE_MISSED k] s t ∧ SameBut [.regs, .lanes, .cal, .msix, .sb] s t

/-- The PCIe endpoint and the Ethernet ports: a reset clears the MSI-X table and the live link fields and drops the apertures'
open packets, the link comes and goes, an unmasked vector sends the message that waits unless it has sent one in this Stitch, and
frames are filtered, counted, stamped, queued and sent, with their completions (R329 to R332). -/
def Obligations.Ports : Prop :=
  ∀ s : State,
  let link : State → Nat → Nat → Nat → Prop := fun t up speed width => t.fld F.PCIE_STATUS_LINK_UP = up ∧
    t.fld F.PCIE_STATUS_SPEED = speed % 16 ∧ t.fld F.PCIE_STATUS_WIDTH = width % 8
  let still : Instr → Prop := fun i => Answers i s fun t => t = s
  (Answers .pcieReset s fun t => link t 0 0 0 ∧ t.fld F.PCIE_STATUS_RESET_SEEN = 1 ∧
    t.fld F.PCIE_STATUS_LINK_LOST = s.fld F.PCIE_STATUS_LINK_LOST ∧
    (∀ v, v < 256 → t.reg (R.PCIE_MSIX_CTRL v) = 1 ∧ t.reg (R.PCIE_MSIX_DATA v) = 0 ∧
      t.reg (R.PCIE_MSIX_ADDR_LO v) = 0 ∧ t.reg (R.PCIE_MSIX_ADDR_HI v) = 0) ∧
    (∀ i, i < 8 → t.reg (R.PCIE_MSIX_PBA i) = 0) ∧
    (∀ a key, a < 16 → isQueue key = true → aperProducer a ∉ (s.stream key).cut →
      findOpen (aperProducer a) (t.stream key).opens = none) ∧
    (∀ key, (t.stream key).words = (s.stream key).words) ∧
    (s.Canon → ∀ key, (∀ a, a < 16 → findOpen (aperProducer a) (s.stream key).opens = none) →
      t.stream key = s.stream key) ∧
    (∀ a, a ≠ R.PCIE_STATUS → (∀ v, v < 256 → a ≠ R.PCIE_MSIX_CTRL v ∧ a ≠ R.PCIE_MSIX_DATA v ∧
      a ≠ R.PCIE_MSIX_ADDR_LO v ∧ a ≠ R.PCIE_MSIX_ADDR_HI v) → (∀ i, i < 8 → a ≠ R.PCIE_MSIX_PBA i) →
      t.reg a = s.reg a) ∧ SameBut [.regs, .sb] s t) ∧
  (Answers .linkLost s fun t => link t 0 0 0 ∧ t.fld F.PCIE_STATUS_LINK_LOST = 1 ∧
    t.fld F.PCIE_STATUS_RESET_SEEN = s.fld F.PCIE_STATUS_RESET_SEEN ∧ RegsBut [R.PCIE_STATUS] s t ∧ SameBut [.regs] s t) ∧
  (∀ speed width, Answers (.pcieLinkUp speed width) s fun t => link t 1 speed width ∧
    t.fld F.PCIE_STATUS_LINK_LOST = s.fld F.PCIE_STATUS_LINK_LOST ∧
    t.fld F.PCIE_STATUS_RESET_SEEN = s.fld F.PCIE_STATUS_RESET_SEEN ∧ RegsBut [R.PCIE_STATUS] s t ∧ SameBut [.regs] s t) ∧
  (∀ v, (v < 256 →
    let waits := (s.reg (R.PCIE_MSIX_PBA (v / 32))).getLsbD (v % 32) = true
    Answers (.msixUnmask v) s fun t => t.fld (F.PCIE_MSIX_CTRL_MASK v) = 0 ∧
    (waits → v ∉ s.msix → t.msix = v :: s.msix ∧ (t.reg (R.PCIE_MSIX_PBA (v / 32))).getLsbD (v % 32) = false ∧
      ∀ j, j < 32 → j ≠ v % 32 →
        (t.reg (R.PCIE_MSIX_PBA (v / 32))).getLsbD j = (s.reg (R.PCIE_MSIX_PBA (v / 32))).getLsbD j) ∧
    (¬ waits ∨ v ∈ s.msix → t.msix = s.msix ∧ t.reg (R.PCIE_MSIX_PBA (v / 32)) = s.reg (R.PCIE_MSIX_PBA (v / 32))) ∧
    (∀ a, a ≠ R.PCIE_MSIX_CTRL v → a ≠ R.PCIE_MSIX_PBA (v / 32) → t.reg a = s.reg a) ∧ SameBut [.regs, .msix] s t) ∧
    (256 ≤ v → still (.msixUnmask v))) ∧
  (∀ p, p < 2 →
    let on := s.fld (F.PCIE_EG_CFG_ENABLE p) = 1
    let up : State → Nat → Prop := fun t r => (t.reg r).toNat = min 0xFFFFFFFF ((s.reg r).toNat + 1)
    (∀ (b : Bool) speed, Answers (.ethLinkChange p b speed) s fun t =>
      let live := b = true ∧ s.fld (F.PCIE_EG_CFG_MODE p) ≤ 1 ∧ on
      t.fld (F.PCIE_EG_STATUS_LINK p) = (if live then 1 else 0) ∧
      t.fld (F.PCIE_EG_STATUS_SPEED p) = (if live then min 2 speed else 0) ∧ RegsBut [R.PCIE_EG_STATUS p] s t ∧
      SameBut [.regs] s t) ∧
    (∀ (frame : List Byte) (ok : Bool),
      let long := (if hasVlan frame then 1522 else 1518) < frame.length + 4
      let takes := ok = true ∧ ¬ long ∧ s.ethAccepts p (frame.take 6) = true
      (¬ on → still (.ethRxFrame p frame ok)) ∧
      (on → ok = false ∨ long → Answers (.ethRxFrame p frame ok) s fun t => up t (R.PCIE_EG_RX_BAD p) ∧
        RegsBut [R.PCIE_EG_RX_BAD p] s t ∧ SameBut [.regs] s t) ∧
      (on → ok = true → ¬ long → s.ethAccepts p (frame.take 6) = false → still (.ethRxFrame p frame ok)) ∧
      (on → takes → s.namedQueue (s.reg (R.PCIE_EG_RXQ p)) = none → still (.ethRxFrame p frame ok)) ∧
      ∀ key, on → takes → s.namedQueue (s.reg (R.PCIE_EG_RXQ p)) = some key →
        let hdr := w32 (bitNat (hasVlan frame) * 2 ^ 17 + bitNat (isPtp frame) * 2 ^ 16 + frame.length % 65536)
        let data := wordsOfBytes (frame ++ List.replicate ((4 - frame.length % 4) % 4) 0)
        let time := timeWords (s.sfdTime - (s.fld (F.PCIE_EG_LAT_RX_NS p) : Nat) * oneNs)
        (s.hasRoom (s.reg (R.PCIE_EG_RXQ p)) (5 + data.length) = true → Answers (.ethRxFrame p frame ok) s fun t =>
          up t (R.PCIE_EG_RX_OK p) ∧ RegsBut [R.PCIE_EG_RX_OK p] s t ∧
          (s.Takes (ethReq p) (s.reg (R.PCIE_EG_RXQ p)) (5 + data.length) key → (t.stream key).words =
            (s.stream key).words ++ packetWords ((hdr :: time ++ data).map PWord.clean)) ∧ StreamsBut key s t ∧
          SameBut [.regs, .msix, .sb, .fresh] s t) ∧
        (s.hasRoom (s.reg (R.PCIE_EG_RXQ p)) (5 + data.length) = false → Answers (.ethRxFrame p frame ok) s fun t =>
          up t (R.PCIE_EG_RX_DROP p) ∧ RegsBut [R.PCIE_EG_RX_DROP p] s t ∧
          (s.namedQueue (s.reg R.SB_EVQ) ≠ some key → t.stream key = s.stream key) ∧ StreamsBut key s t ∧
          SameBut [.regs, .msix, .sb, .fresh] s t)) ∧
    (¬ on ∨ s.packetWaits (s.reg (R.PCIE_EG_TXQ p)) = false → still (.ethTxPacket p)) ∧
    (on → s.packetWaits (s.reg (R.PCIE_EG_TXQ p)) = true → Answers (.ethTxPacket p) s fun t =>
      let r := s.popPacket (ethReq p) (s.reg (R.PCIE_EG_TXQ p))
      let w0 := (r.2.getD 0 (PWord.clean 0)).val
      let len := getBits w0 15 0
      let frame := (bytesOfWords ((r.2.drop 1).map fun w => w.val)).take len
      let long := (if hasVlan frame then 1522 else 1518) < len + 4
      let sends := len ≠ 0 ∧ ¬ long
      let code := if len = 0 then 1 else if long then 2 else 0
      let done := w32 (getBits w0 31 24 * 2 ^ 24 + code) :: if sends ∧ getBits w0 16 16 = 1 then
        timeWords (r.1.sfdTime + (r.1.fld (F.PCIE_EG_LAT_TX_NS p) : Nat) * oneNs) else []
      (sends → (t.eth p).sent = padFrame frame ∧ up t (R.PCIE_EG_TX_OK p)) ∧
      (¬ sends → t.eths = s.eths ∧ t.reg (R.PCIE_EG_TX_OK p) = s.reg (R.PCIE_EG_TX_OK p)) ∧
      ButAt State.eth p s t ∧ RegsBut [R.PCIE_EG_TX_OK p] r.1 t ∧
      (∀ key, r.1.Takes (ethReq p) (r.1.reg (R.PCIE_EG_TXDONEQ p)) done.length key →
        (t.stream key).words = (r.1.stream key).words ++ packetWords (done.map PWord.clean) ∧ StreamsBut key r.1 t) ∧
      SameBut [.regs, .readData, .resp, .msix, .fresh, .sb, .chans, .repeatAge, .hide, .eths] s t))

/-! ## Time and the field bus -/

/-- The reference, the domains and the snapshot: a window of CLKREF gives TB0 its rate, held to its limit, and locks it, its loss
unlocks it and is told, a domain's measurement waits for the boundary, a domain that is silent for HOLD Stitches unlocks and says
so, and a capture latches the five bases at one TCLK (R6, R335, R336, R340). The rounding of the rate is free (the model's choice,
log entry 41). -/
def Obligations.Clocks : Prop :=
  ∀ s : State,
  let told : State → Nat → Nat → Prop := fun t code low => ∀ key, s.Takes timeReq (s.reg R.TIME_EVQ) 3 key →
    (t.stream key).words = (s.stream key).words ++
      packetWords ([w32 (code * 2 ^ 24 + low), 0, s.stitchLo].map PWord.clean)
  (∀ n, n ≠ 0 → Answers (.refWindow n) s fun t => t.fld F.TIME_REF_STATUS_LOCKED = 1 ∧
    t.fld F.TIME_REF_STATUS_LOST = s.fld F.TIME_REF_STATUS_LOST ∧
    (∃ q : Int, (320000000 - (n : Int)) * 2 ^ 40 - n < q * n ∧ q * n < (320000000 - (n : Int)) * 2 ^ 40 + n ∧
      t.time = { s.time with refGone := false, adj0 := some (max (-(2 ^ 30)) (min (2 ^ 30) q)) } ∧
      (-(2 ^ 30) ≤ q → q ≤ 2 ^ 30 → s.time.refGone = true → told t 0x71 0) ∧
      (q < -(2 ^ 30) ∨ 2 ^ 30 < q → s.time.refGone = false → told t 0x7B 0)) ∧
    RegsBut [R.TIME_REF_STATUS] s t ∧ SameBut [.regs, .msix, .sb, .time, .fresh] s t) ∧
  (Answers (.refWindow 0) s fun t => t = s) ∧
  (s.time.refGone = false → Answers .refLost s fun t => t.fld F.TIME_REF_STATUS_LOCKED = 0 ∧
    t.fld F.TIME_REF_STATUS_LOST = 1 ∧ t.time = { s.time with refGone := true } ∧ told t 0x70 0 ∧
    RegsBut [R.TIME_REF_STATUS] s t ∧ SameBut [.regs, .msix, .sb, .time] s t) ∧
  (s.time.refGone = true → Answers .refLost s fun t => t = s) ∧
  (∀ d,
    let moved : State → Domain → Prop := fun t x => t.time = { s.time with doms := s.time.doms.set d x }
    let due := s.fld (F.TIME_DOM_CFG_ENABLE d) = 1 ∧ s.reg (R.TIME_DOM_HOLD d) ≠ 0 ∧ (s.dom d).silent = false ∧
      (s.dom d).last + (s.reg (R.TIME_DOM_HOLD d)).toNat ≤ s.now
    (d < 2 → ∀ (src : Source) (v : Word), s.Reaches src (R.TIME_DOM_MEAS_NS d) →
      (s.fld (F.TIME_DOM_CFG_ENABLE d) = 1 → Answers (.domainMeasurement src d v) s fun t =>
        moved t { s.dom d with meas := some (v.toInt * 65536 + (s.fld (F.TIME_DOM_MEAS_FRAC_VALUE d) : Nat)) } ∧
        SameBut [.time] s t) ∧
      (s.fld (F.TIME_DOM_CFG_ENABLE d) = 0 → Answers (.domainMeasurement src d v) s fun t => t = s)) ∧
    (d < 2 → due → Answers (.domUnlock d) s fun t =>
        t.fld (F.TIME_DOM_STATUS_LOCKED d) = 0 ∧ t.time.tb = s.time.tb ∧ t.time.adj = s.time.adj ∧
        (d < s.time.doms.length → moved t { s.dom d with small := 0, silent := true }) ∧ told t 0x74 (d * 2 ^ 16) ∧
        RegsBut [R.TIME_DOM_STATUS d] s t ∧ SameBut [.regs, .msix, .sb, .time] s t) ∧
    (¬ (d < 2 ∧ due) → Answers (.domUnlock d) s fun t => t = s)) ∧
  Answers .timeSnap s fun t => (∃ k, (s.period ≠ 0 → k < s.period) ∧ ∀ b, b < 4 →
      [t.reg (R.TIME_SNAP_SEC_LO b), t.reg (R.TIME_SNAP_SEC_HI b), t.reg (R.TIME_SNAP_NS b), t.reg (R.TIME_SNAP_FRAC b)] =
        timeWords (s.tbAt b k)) ∧
    t.reg (R.TIME_SNAP_SEC_LO 4) = s.stitchLo ∧ t.reg (R.TIME_SNAP_SEC_HI 4) = w32 (s.now / 2 ^ 32) ∧
    t.reg (R.TIME_SNAP_NS 4) = 0 ∧ t.reg (R.TIME_SNAP_FRAC 4) = 0 ∧
    (∀ a, a < 0x02000080 ∨ 0x020000D0 ≤ a → t.reg a = s.reg a) ∧ SameBut [.regs, .fresh] s t

/-- Scheduled actions: ARM and CANCEL wait for the boundary, where an entry of a bad kind or base is refused; a due entry that may
run hands its write to the boundary's commit, commits its packet or drives its pin when it is on time, does so late and says so when
it is late, and is discarded or dropped as R343 says, with its lateness shown; an entry that does not repeat is then done, and one
that repeats is due again at the first of its times that lies after, with those it passed counted (R341 to R345). An entry that may
not run, or of another kind, is left alone. -/
def Obligations.Actions : Prop :=
  ∀ (s : State) (e : Nat), e < 1024 →
  let a := R.TIME_ACT_CTRL e
  let fate := s.actFate e
  let rep := (s.reg (R.TIME_ACT_REPEAT e)).toNat
  let step : Int := if s.fld (F.TIME_ACT_CTRL_TB e) = 4 then rep else rep * oneNs
  let words : State → List Word := fun t =>
    [t.reg (R.TIME_ACT_DUE0 e), t.reg (R.TIME_ACT_DUE1 e), t.reg (R.TIME_ACT_DUE2 e), t.reg (R.TIME_ACT_DUE3 e)]
  let others : State → Prop := fun t => ∀ f, f ≠ e → sget none t.time.armed f = sget none s.time.armed f
  let ends : State → Nat → Prop := fun t st => t.reg (R.TIME_ACT_LATENESS e) = w32 (min 0xFFFFFFFF (s.actLate e)) ∧
    t.time.ran = e :: s.time.ran ∧ t.time.runs = s.time.runs + (if fate ≤ 1 then 1 else 0) ∧ others t ∧
    (rep = 0 → t.fld (F.TIME_ACT_STATUS_STATE e) = st ∧ t.fld (F.TIME_ACT_CTRL_ARM e) = 0 ∧
      sget none t.time.armed e = none ∧ words t = words s) ∧
    (rep ≠ 0 → t.fld (F.TIME_ACT_STATUS_STATE e) = s.fld (F.TIME_ACT_STATUS_STATE e) ∧ t.reg a = s.reg a ∧
      t.time.armed = s.time.armed ∧ ∃ skip : Nat,
        let due := s.actDue e + (skip + 1) * step
        s.actNext e < due ∧ (skip = 0 ∨ due - step ≤ s.actNext e) ∧
        t.fld (F.TIME_ACT_STATUS_SKIPPED e) = min 0xFFFF (s.fld (F.TIME_ACT_STATUS_SKIPPED e) + skip) ∧
        words t = if s.fld (F.TIME_ACT_CTRL_TB e) = 4 then
          [w32 (unsigned 64 due % 2 ^ 32), w32 (unsigned 64 due / 2 ^ 32), s.reg (R.TIME_ACT_DUE2 e), s.reg (R.TIME_ACT_DUE3 e)]
          else timeWords due) ∧
    RegsBut [R.TIME_ACT_LATENESS e, R.TIME_ACT_STATUS e, a, R.TIME_ACT_DUE0 e, R.TIME_ACT_DUE1 e, R.TIME_ACT_DUE2 e,
      R.TIME_ACT_DUE3 e] s t ∧ SameBut [.regs, .msix, .sb, .time, .harn] s t
  (∀ (src : Source) (v : Word), s.Reaches src a →
    (Answers (.actArm src e v) s fun t => t.cmds = s.cmds ++ [(a, 0x80000000)] ∧ t.reg a = (v &&& 0x37F) ||| 0x80000000 ∧
      t.time = { s.time with cancels := s.time.cancels ++ if v.getLsbD 30 then [e] else [] } ∧
      RegsBut [a] s t ∧ SameBut [.regs, .cmds, .time] s t) ∧
    (Answers (.actCancel src e v) s fun t => t.time = { s.time with cancels := s.time.cancels ++ [e] } ∧
      t.reg a = (s.reg a &&& 0x80000000) ||| (v &&& 0x8000037F) ∧
      t.cmds = s.cmds ++ (if v.msb then [(a, 0x80000000)] else []) ∧
      RegsBut [a] s t ∧ SameBut [.regs, .cmds, .time] s t)) ∧
  (let k := s.fld (F.TIME_ACT_CTRL_KIND e)
   let bad := k = 0 ∨ 3 < k ∨ 4 < s.fld (F.TIME_ACT_CTRL_TB e)
   let t := s.armAct e
   others t ∧ RegsBut [R.TIME_ACT_STATUS e, a] s t ∧ SameBut [.regs, .time] s t ∧
   (bad → t.fld (F.TIME_ACT_STATUS_STATE e) = 7 ∧ t.fld (F.TIME_ACT_CTRL_ARM e) = 0 ∧ sget none t.time.armed e = none) ∧
   (¬ bad → t.fld (F.TIME_ACT_STATUS_STATE e) = 1 ∧ t.reg a = s.reg a ∧ sget none t.time.armed e = some s.now)) ∧
  (let kind := s.fld (F.TIME_ACT_CTRL_KIND e)
   let run := [(Instr.actionWrite e, 1), (.actionPush e, 2), (.actionPin e, 3)]
   (∀ p ∈ run, s.actMayRun e = false ∨ kind ≠ p.2 → Answers p.1 s fun t => t = s) ∧
   (s.actMayRun e = true →
    let v := s.reg (R.TIME_ACT_VALUE e)
    let target := s.reg (R.TIME_ACT_TARGET e)
    let told : State → Nat → Prop := fun t code => ∀ key, s.Takes timeReq (s.reg R.TIME_EVQ) 3 key →
      (kind = 2 → s.namedQueue target ≠ some key) → (t.stream key).words = (s.stream key).words ++
        packetWords ([w32 (code * 2 ^ 24 + e), w32 (min 0xFFFFFFFF (s.actLate e)), s.stitchLo].map PWord.clean)
    (∀ p ∈ run, kind = p.2 → 2 ≤ fate → Answers p.1 s fun t => ends t (if fate = 2 then 4 else 5) ∧
      t.time.pinOps = s.time.pinOps ∧ t.time.writes = s.time.writes ∧ told t (if fate = 2 then 0x7A else 0x79)) ∧
    (kind = 1 → fate < 2 → Answers (.actionWrite e) s fun t => ends t (2 + fate) ∧
        t.time.writes = s.time.writes ++ [(target, v)] ∧ t.time.pinOps = s.time.pinOps ∧ (fate = 1 → told t 0x78)) ∧
    (kind = 2 → fate < 2 → Answers (.actionPush e) s fun t =>
        let r := if fate = 1 then s.timeEvent 0x78 e (w32 (min 0xFFFFFFFF (s.actLate e))) else s
        ends t (if r.hasRoom target 1 = true then 2 + fate else 6) ∧ t.time.pinOps = s.time.pinOps ∧
        t.time.writes = s.time.writes ∧ (fate = 1 → told t 0x78) ∧
        (∀ key, r.Takes timeReq target 1 key →
          (t.stream key).words = (r.stream key).words ++ [⟨PWord.clean v, true⟩] ∧ StreamsBut key r t) ∧
        (∀ key, s.namedQueue target = some key → r.hasRoom target 1 = false → s.namedQueue (s.reg R.SB_EVQ) ≠ some key →
          t.stream key = r.stream key)) ∧
    (kind = 3 → fate < 2 → Answers (.actionPin e) s fun t => ends t (2 + fate) ∧ t.time.writes = s.time.writes ∧
      t.time.pinOps = s.time.pinOps ++ [(getBits target 1 0, getBits v 26 16, getBits v 1 0)] ∧
      (fate = 1 → told t 0x78)))) ∧
  (∀ v, s.time.writes = [(w32 R.STCH_HOLD_LIMIT, v)] → s.Reaches .action R.STCH_HOLD_LIMIT →
    s.actionWrites.reg R.STCH_HOLD_LIMIT = (s.reg R.STCH_HOLD_LIMIT &&& 0xFFFF0000) ||| (v &&& 0xFFFF) ∧
    s.actionWrites.time = { s.time with writes := [] })

/-- The field bus: a segment and a node are enabled after their checks; a Cinch closes the one before it, counts the nodes that
missed it and puts up its OUT frames; an accepted IN frame keeps its words for the boundary, any other is counted and copied; noise
is counted; and a transmit opportunity sends the next frame, which a wheel lets pass. The words kept land in the point table at
their boundary. A segment that is not enabled, or is under a
block restart, takes part in nothing (R347 to R356, R387, R427). -/
def Obligations.FieldBus : Prop :=
  ∀ (s : State) (g : Nat), g < 2 →
  let cfg := R.FBUS_SEG_CFG g
  let x := s.seg g
  let on := s.fld (F.FBUS_SEG_CFG_ENABLE g) = 1
  let still : Instr → Prop := fun i => Answers i s fun t => t = s
  let up : State → Nat → Prop := fun t r => (t.reg r).toNat = min 0xFFFFFFFF ((s.reg r).toNat + 1)
  let busy : State → Prop := fun t => s.fld F.SYS_ACC_INFO_VALID = 0 → t.fld F.SYS_ACC_INFO_CODE = 3
  (∀ (src : Source) (v : Word), s.Reaches src cfg →
    let s2 := s.setReg cfg (v &&& 0x7F3F00FF)
    let cyc := s.written (R.FBUS_SEG_CYCLE g)
    let cycle := getBits cyc 15 0
    let n := getBits v 21 16
    let range := n = 0 ∨ 32 < n ∨ getBits v 7 0 = 0 ∨ (cycle ≠ 0 ∧ cycle ≤ getBits cyc 31 16)
    let isOver := cycle ≠ 0 ∧ s2.overBudget g cycle (s2.nodesOn g) = true
    let differs := s.reg cfg &&& 0x7F3F00FF ≠ v &&& 0x7F3F00FF
    let refused : State → Nat → Prop := fun t r => t.fld (F.FBUS_SEG_CFG_ENABLE g) = 0 ∧ t.reg cfg = v &&& 0x7F3F00FF ∧
      t.fld (F.FBUS_SEG_STATUS_RESULT g) = r ∧ RegsBut [cfg, R.FBUS_SEG_STATUS g] s t ∧ SameBut [.regs] s t
    (¬ on → v.msb = false → Answers (.segmentEnable src g v) s fun t => t.reg cfg = v &&& 0x7F3F00FF ∧
      RegsBut [cfg] s t ∧ SameBut [.regs] s t) ∧
    (¬ on → v.msb = true → range → Answers (.segmentEnable src g v) s (refused · 2)) ∧
    (¬ on → v.msb = true → ¬ range → isOver → Answers (.segmentEnable src g v) s (refused · 3)) ∧
    (¬ on → v.msb = true → ¬ range → ¬ isOver → Answers (.segmentEnable src g v) s fun t =>
      t.reg cfg = (v &&& 0x7F3F00FF) ||| 0x80000000 ∧
      t.seg g = { Segment.atReset with misses := x.misses, lost := x.lost } ∧
      t.fld (F.FBUS_SEG_STATUS_RESULT g) = (if cycle = 0 then 1 else 0) ∧
      t.fld (F.FBUS_SEG_STATUS_PLCA_ACTIVE g) = getBits v 30 30 ∧ ButAt State.seg g s t ∧
      RegsBut [cfg, R.FBUS_SEG_STATUS g] s t ∧ SameBut [.regs, .segs] s t) ∧
    (on → v.msb = true → Answers (.segmentEnable src g v) s fun t => t.reg cfg = s.reg cfg &&& 0xFF3F00FF ∧
      (differs → busy t) ∧ RegsBut (cfg :: AccRegs) s t ∧ SameBut [.regs, .msix, .sb] s t) ∧
    (on → v.msb = false → Answers (.segmentEnable src g v) s fun t => t.reg cfg = s.reg cfg &&& 0x7F3F00FF ∧
      t.fld (F.FBUS_SEG_STATUS_PLCA_ACTIVE g) = 0 ∧
      t.seg g = { x with start := none, got := [], outs := [], syncs := [] } ∧ (differs → busy t) ∧
      ButAt State.seg g s t ∧ RegsBut (cfg :: R.FBUS_SEG_STATUS g :: AccRegs) s t ∧
      SameBut [.regs, .segs, .msix, .sb] s t)) ∧
  (∀ (src : Source) (k : Nat) (v : Word), k < 32 → s.Reaches src (R.FBUS_NODE_MAC_HI g k) →
    let hi := R.FBUS_NODE_MAC_HI g k
    let s1 := s.setReg hi (v &&& 0xFFFFFF)
    let cycle := getBits (s.written (R.FBUS_SEG_CYCLE g)) 15 0
    let isOver := cycle ≠ 0 ∧ s1.overBudget g cycle (k :: s1.nodesOn g) = true
    let refused : State → Nat → Prop := fun t r => t.fld (F.FBUS_SEG_STATUS_RESULT g) = r ∧
      RegsBut [R.FBUS_SEG_STATUS g] s t ∧ SameBut [.regs] s t
    (s.nodeOn g k = true → Answers (.nodeEnable src g k v) s fun t =>
      t.reg hi = (v &&& 0x80000000) ||| (s.reg hi &&& 0xFFFFFF) ∧
      (s.reg hi &&& 0xFFFFFF ≠ v &&& 0xFFFFFF → busy t) ∧ RegsBut (hi :: AccRegs) s t ∧ SameBut [.regs, .msix, .sb] s t) ∧
    (s.nodeOn g k = false → v.msb = false → Answers (.nodeEnable src g k v) s fun t => t.reg hi = v &&& 0xFFFFFF ∧
      RegsBut [hi] s t ∧ SameBut [.regs] s t) ∧
    (s.nodeOn g k = false → v.msb = true → s1.nodeRange g k = true → Answers (.nodeEnable src g k v) s (refused · 2)) ∧
    (s.nodeOn g k = false → v.msb = true → s1.nodeRange g k = false → isOver →
      Answers (.nodeEnable src g k v) s (refused · 3)) ∧
    (s.nodeOn g k = false → v.msb = true → s1.nodeRange g k = false → ¬ isOver →
      Answers (.nodeEnable src g k v) s fun t => t.reg hi = (v &&& 0xFFFFFF) ||| 0x80000000 ∧
        t.fld (F.FBUS_SEG_STATUS_RESULT g) = 0 ∧ RegsBut [hi, R.FBUS_SEG_STATUS g] s t ∧ SameBut [.regs] s t)) ∧
  (let cycle := s.fld (F.FBUS_SEG_CYCLE_CYCLE g)
   let due := s.segRuns g = true ∧ cycle ≠ 0 ∧ s.now % cycle = s.fld (F.FBUS_SEG_CYCLE_PHASE g) ∧ x.start ≠ some s.now
   (due → Answers (.cinchStart g) s fun t =>
      let n := if x.start = none then 0 else x.cinch + 1
      (t.seg g).start = some s.now ∧ (t.seg g).got = [] ∧ (t.seg g).cinch = n ∧
      (t.seg g).active = s.nodesOn g ∧ (t.seg g).outs = t.outFrames g n (s.nodesOn g) ∧
      (t.seg g).syncs = x.syncs ∧ (t.seg g).arriving = x.arriving ∧ (t.seg g).sent = x.sent ∧ ButAt State.seg g s t ∧
      (∀ a, (∀ k, k < 32 → a ≠ R.FBUS_NODE_MISSED g k ∧ a ≠ R.FBUS_NODE_STATUS g k) → ¬ EventReg a → t.reg a = s.reg a) ∧
      SameBut [.regs, .msix, .sb, .segs, .harn] s t ∧
      (x.start = none → RegsBut [] s t ∧ (t.seg g).misses = x.misses ∧ (t.seg g).lost = x.lost) ∧
      (x.start ≠ none → ∀ k, k < 32 →
        let missed := k ∈ x.active ∧ k ∉ x.got
        let n := sget 0 x.misses k + 1
        let limit := s.fld (F.FBUS_NODE_MAC_HI_LOST_N g k)
        (missed → up t (R.FBUS_NODE_MISSED g k) ∧ sget 0 (t.seg g).misses k = n ∧
          (k ∈ (t.seg g).lost ↔ k ∈ x.lost ∨ (limit ≠ 0 ∧ limit ≤ n)) ∧
          (k ∉ x.lost → limit ≠ 0 → limit ≤ n → t.fld (F.FBUS_NODE_STATUS_VALID g k) = 0)) ∧
        (¬ missed → t.reg (R.FBUS_NODE_MISSED g k) = s.reg (R.FBUS_NODE_MISSED g k) ∧
          t.reg (R.FBUS_NODE_STATUS g k) = s.reg (R.FBUS_NODE_STATUS g k) ∧
          sget 0 (t.seg g).misses k = sget 0 x.misses k ∧ (k ∈ (t.seg g).lost ↔ k ∈ x.lost)))) ∧
   (¬ due → still (.cinchStart g))) ∧
  (∀ frame,
    (s.segRuns g = false → still (.inFrame g frame) ∧ still (.strangerFrame g frame)) ∧
    (s.segRuns g = true →
    (∀ k, s.judgeFrame g frame = .inl k → (Answers (.inFrame g frame) s fun t =>
        (t.seg g = { x with
          got := k :: x.got, misses := (t.seg g).misses, lost := x.lost.filter (· != k)
          arriving := x.arriving ++ [⟨s.now, s.fld (F.FBUS_NODE_IN_BASE g k),
            wordsOfBytes ((frame.drop 22).take (4 * s.inWords g k)), k, x.cinch % 65536⟩] } ∧
          ∀ j, sget 0 (t.seg g).misses j = if j = k then 0 else sget 0 x.misses j) ∧
        t.fld (F.FBUS_NODE_STATUS_VALID g k) = 1 ∧ ButAt State.seg g s t ∧
        t.fld (F.FBUS_NODE_STATUS_CINCH g k) = s.fld (F.FBUS_NODE_STATUS_CINCH g k) ∧
        RegsBut [R.FBUS_NODE_STATUS g k] s t ∧ SameBut [.regs, .msix, .sb, .segs] s t) ∧
      still (.strangerFrame g frame)) ∧
    (∀ c, s.judgeFrame g frame = .inr c → ∀ i ∈ [Instr.inFrame g frame, .strangerFrame g frame], Answers i s fun t =>
      t.fld c.1 = min 0xFFFFFFFF (s.fld c.1 + 1) ∧
      t.fld (F.FBUS_SEG_STATUS_STRANGER g) = (if c.2 = 1 then 1 else s.fld (F.FBUS_SEG_STATUS_STRANGER g)) ∧
      (let copy := w32 (c.2 * 2 ^ 24 + frame.length % 65536) :: s.stitchLo ::
          wordsOfBytes (frame ++ List.replicate ((4 - frame.length % 4) % 4) 0)
       ∀ key, s.Takes (fbReq g) (s.reg (R.FBUS_SEG_STRQ g)) copy.length key → s.namedQueue (s.reg R.FBUS_EVQ) ≠ some key →
        (t.stream key).words = (s.stream key).words ++ packetWords (copy.map PWord.clean)) ∧
      RegsBut [c.1.addr, R.FBUS_SEG_STATUS g] s t ∧ SameBut [.regs, .msix, .sb] s t))) ∧
  (∀ kind node,
    let plca := s.fld (F.FBUS_SEG_CFG_PLCA_EN g) = 1
    let counts : Nat → Prop := fun r => Answers (.noise g kind node) s fun t => up t r ∧ RegsBut [r] s t ∧ SameBut [.regs] s t
    (s.segRuns g = false → still (.noise g kind node)) ∧
    (s.segRuns g = true →
      (kind = .collision → counts (R.FBUS_SEG_COLLISION g)) ∧
      (kind ≠ .collision → plca → node < 32 → counts (R.FBUS_NODE_NOISE g node)) ∧
      (kind ≠ .collision → ¬ (plca ∧ node < 32) → counts (R.FBUS_SEG_NOISE g)))) ∧
  (s.segRuns g = true →
    (s.isWheel = true → Answers (.transmitOpportunity g) s fun t => t.seg g = { x with
        syncs := x.syncs.drop 1, outs := if x.syncs = [] then x.outs.drop 1 else x.outs } ∧
      ButAt State.seg g s t ∧ SameBut [.segs] s t) ∧
    (∀ f fs, s.isWheel = false → x.syncs = f :: fs → Answers (.transmitOpportunity g) s fun t =>
      t.seg g = { x with syncs := fs, sent := f } ∧ ButAt State.seg g s t ∧ SameBut [.segs] s t) ∧
    (∀ f fs, s.isWheel = false → x.syncs = [] → x.outs = f :: fs → Answers (.transmitOpportunity g) s fun t =>
      t.seg g = { x with outs := fs, sent := f } ∧ up t (R.FBUS_SEG_OUT_SENT g) ∧ ButAt State.seg g s t ∧
      RegsBut [R.FBUS_SEG_OUT_SENT g] s t ∧ SameBut [.regs, .segs] s t) ∧
    (s.isWheel = false → x.syncs = [] → x.outs = [] → still (.transmitOpportunity g))) ∧
  (s.segRuns g = false → still (.transmitOpportunity g)) ∧
  ∀ w : InWords, w.node < 32 →
    let t := s.landIn g w
    t.fld (F.FBUS_NODE_STATUS_CINCH g w.node) = w.cinch % 65536 ∧ RegsBut [R.FBUS_NODE_STATUS g w.node] s t ∧
    (s.namedBuffer (s.reg R.FBUS_POINTS) = none → t.sb = s.sb) ∧
    ∀ key, s.namedBuffer (s.reg R.FBUS_POINTS) = some key → s.isGrid key = false → ButAt State.stream key s t ∧
      SameBut [.regs, .sb] s t ∧ ∀ j, sget (PWord.clean 0) (t.stream key).data j =
        if w.base ≤ j ∧ j < w.base + w.words.length then PWord.clean (w.words.getD (j - w.base) 0)
        else sget (PWord.clean 0) (s.stream key).data j

/-! ## Lamp drive -/

/-- The lamp drive: its enable is checked, a frame tick steps the engines, counts and clears the channels, and makes the swap that
is due or holds it LEAD Stitches, an LSYNC edge swaps or is skipped, a PWM period forms each duty, a swap starts a chain shift and a
LAMP_SYNC frame, a shift ends, and a measurement, its absence and CLEAR move a channel's diagnosis (R358 to R370). -/
def Obligations.LampDrive : Prop :=
  ∀ s : State,
  let on := s.fld F.LAMP_CTRL_ENABLE = 1
  let still : Instr → Prop := fun i => Answers i s fun t => t = s
  let rows : List Nat → State → Prop := fun l t => ∀ a, a ∉ l →
    (∀ c, c < s.part.row.lamps → a ≠ R.LAMP_CH_CFG c ∧ a ≠ R.LAMP_CH_STATE c) → ¬ EventReg a → t.reg a = s.reg a
  let swapped : State → Prop := fun t => t.fld F.LAMP_STATUS_FRONT = s.nextPage 0 ∧
    t.reg R.LAMP_SEQ = s.reg R.LAMP_SEQ + 1 ∧
    t.fld F.LAMP_CTRL_BACK = (if s.fld F.LAMP_CTRL_MODE = 0 then s.fld F.LAMP_STATUS_FRONT else s.fld F.LAMP_CTRL_BACK)
  let stays : State → Prop := fun t => t.fld F.LAMP_STATUS_FRONT = s.fld F.LAMP_STATUS_FRONT ∧
    t.reg R.LAMP_SEQ = s.reg R.LAMP_SEQ ∧ t.fld F.LAMP_CTRL_BACK = s.fld F.LAMP_CTRL_BACK
  let synced : State → Word → Nat → Option Int → Prop := fun t seq page time => ∀ g, t.seg g =
    if g < 2 ∧ natBit (s.fld F.LAMP_CTRL_BCAST_SEG) g = true ∧ s.segRuns g = true then
      { s.seg g with
        syncs := (s.seg g).syncs ++ [cinchFrame (s.groupMac g) (s.segMac g) 3 (s.seg g).cinch
          (s.fld (F.FBUS_SEG_CFG_LOCAL_ID g)) 0 0 (syncBody seq page time)] }
    else s.seg g
  let chained : State → Prop := fun t =>
    let n := min 16 (s.fld F.LAMP_CHAIN_BOARDS)
    let area := 1024 * t.fld F.LAMP_STATUS_FRONT + 768
    t.lamp.shift = (if n = 0 then s.lamp.shift else some ((List.range n).flatMap fun b : Nat => (List.range 16).map fun k : Nat =>
      sget 0 s.lamp.mem (area + 16 * (n - 1 - b) + k))) ∧
    (t.reg R.LAMP_CHAIN_SKIP).toNat = min 0xFFFFFFFF ((s.reg R.LAMP_CHAIN_SKIP).toNat +
      if n ≠ 0 ∧ s.lamp.shift.isSome = true then 1 else 0)
  let began : State → Nat → LampChan → Nat → Prop := fun t c z st =>
    let y := { z with
      amp := min (s.fld (F.LAMP_CH_CFG_CURRENT c)) (s.fld F.LAMP_THR_CEIL_CODE)
      duty := (List.range s.lampRows).map (fun r => t.formDuty c r), diag := z.diagDue, diagDue := false, off := z.short }
    t.lampChan c = y ∧ t.fld (F.LAMP_CH_STATE_DUTY c) = t.formDuty c 0 ∧
    t.fld (F.LAMP_CH_STATE_STATE c) = (if y.lit = false then if z.latched ≠ 0 then z.latched % 8 else 5
      else if st = 5 then z.latched % 8 else st)
  let kept : State → Prop := fun t => t.lamp.mem = s.lamp.mem ∧ t.lamp.chain = s.lamp.chain
  (∀ (src : Source) (v : Word), s.Reaches src R.LAMP_CTRL →
    let lims : Word := if s.part.row.lampBin then 0x7FFFFFFF else 0x7FFFDFFF
    let cfg := v &&& lims
    let r := (s.setReg R.LAMP_CTRL cfg).lampCheck
    let busy : State → Prop := fun t => s.reg R.LAMP_CTRL &&& lims ≠ cfg → s.fld F.SYS_ACC_INFO_VALID = 0 →
      t.fld F.SYS_ACC_INFO_CODE = 3
    let stopped : State → Prop := fun t =>
      t.lamp = { s.lamp with tick := none, edge := false, held := [], shift := none, chans := t.lamp.chans } ∧
      ∀ c, c < s.part.row.lamps →
        let x := s.lampChan c
        t.lampChan c = { LampChan.dark with latched := x.latched, short := x.short } ∧
        t.reg (R.LAMP_CH_STATE c) = if x.latched = 0 then 0 else (s.reg (R.LAMP_CH_STATE c) &&& 0xF00) ||| w32 x.latched
    (¬ on → v.msb = false → Answers (.lampEnable src v) s fun t => t.reg R.LAMP_CTRL = cfg ∧ RegsBut [R.LAMP_CTRL] s t ∧
      SameBut [.regs] s t) ∧
    (¬ on → v.msb = true → r ≠ 0 → Answers (.lampEnable src v) s fun t => t.reg R.LAMP_CTRL = cfg ∧
      t.fld F.LAMP_STATUS_RESULT = r ∧ RegsBut [R.LAMP_CTRL, R.LAMP_STATUS] s t ∧ SameBut [.regs] s t) ∧
    (¬ on → v.msb = true → r = 0 → Answers (.lampEnable src v) s fun t => t.reg R.LAMP_CTRL = cfg ||| 0x80000000 ∧
      t.fld F.LAMP_STATUS_RESULT = 0 ∧ t.fld F.LAMP_STATUS_CUT = 0 ∧ stopped t ∧
      rows [R.LAMP_CTRL, R.LAMP_STATUS] t ∧ SameBut [.regs, .lamp] s t) ∧
    (on → v.msb = true → Answers (.lampEnable src v) s fun t => t.reg R.LAMP_CTRL = s.reg R.LAMP_CTRL &&& (lims ||| 0x80000000) ∧
      busy t ∧ RegsBut (R.LAMP_CTRL :: AccRegs) s t ∧ SameBut [.regs, .msix, .sb] s t) ∧
    (on → v.msb = false → Answers (.lampEnable src v) s fun t => t.reg R.LAMP_CTRL = s.reg R.LAMP_CTRL &&& lims ∧
      stopped t ∧ busy t ∧ rows (R.LAMP_CTRL :: AccRegs) t ∧ SameBut [.regs, .lamp, .msix, .sb] s t)) ∧
  (let div := s.fld F.LAMP_TIMING_FRAME_DIV
   let due := on ∧ div ≠ 0 ∧ s.now % div = 0 ∧ s.lamp.tick ≠ some s.now
   (¬ due → still .frameTick) ∧
   (due → Answers .frameTick s fun t =>
     t.lamp.tick = some s.now ∧ kept t ∧ t.lamp.edge = s.lamp.edge ∧ t.lamp.strobes = s.lamp.strobes ∧
     (∀ e, e < 8 → e ∉ t.lamp.due ∧
       (e ∈ s.lamp.due → sget 0 t.lamp.cfg e = s.reg (R.LAMP_ENG_CFG e) ∧ sget 0 t.lamp.phase e = 0) ∧
       (e ∉ s.lamp.due → sget 0 t.lamp.cfg e = sget 0 s.lamp.cfg e ∧
         sget 0 t.lamp.phase e = sget 0 s.lamp.phase e + 1)) ∧
     (∀ c, c < s.part.row.lamps →
       let x := s.lampChan c
       let st := s.fld (F.LAMP_CH_STATE_STATE c)
       let clear := s.fld (F.LAMP_CH_CFG_CLEAR c) = 1
       let period := s.fld F.LAMP_DIAG_DIAG_PERIOD
       let n := if x.measured = true ∨ x.lit = false ∨ x.short = true then 0 else x.unmeasured + 1
       let reached := x.lit && !x.short && decide (max 1 period ≤ n)
       let counted := { x with
         unmeasured := n, measured := false, starved := x.starved && x.lit
         diagDue := reached && decide (s.fld F.LAMP_DIAG_DIAG_EN = 1) && decide (period ≠ 0) }
       (¬ clear → began t c counted st) ∧
       (clear → t.fld (F.LAMP_CH_CFG_CLEAR c) = 0 ∧
         began t c { counted with latched := 0, short := false, runs := 0, verdict := 0 }
           (if x.latched = 0 then st else if x.lit then 0 else 5)) ∧
       getBits (t.reg (R.LAMP_CH_CFG c)) 30 0 = getBits (s.reg (R.LAMP_CH_CFG c)) 30 0) ∧
     rows [R.LAMP_CHAIN_SKIP, R.LAMP_CMD, R.LAMP_CTRL, R.LAMP_SEQ, R.LAMP_STATUS] t ∧
     SameBut [.regs, .lamp, .segs, .msix, .sb, .cal] s t ∧
     let mode := s.fld F.LAMP_CTRL_MODE = 1
     let lead := s.fld F.LAMP_CTRL_LEAD
     let bcast := s.fld F.LAMP_CTRL_BCAST = 1
     let valid := s.fld F.TIME_MT_STATUS_VALID = 1
     let n := s.lamp.held.length
     (s.fld F.LAMP_CTRL_SYNC = 1 → stays t ∧ t.lamp.held = s.lamp.held ∧ t.lamp.shift = s.lamp.shift ∧ t.segs = s.segs ∧
       t.reg R.LAMP_CMD = s.reg R.LAMP_CMD) ∧
     (s.fld F.LAMP_CTRL_SYNC = 0 → ¬ mode → s.lamp.asked = false → stays t ∧ t.lamp.held = s.lamp.held ∧ chained t ∧
       t.segs = s.segs ∧ t.reg R.LAMP_CMD = s.reg R.LAMP_CMD) ∧
     (s.fld F.LAMP_CTRL_SYNC = 0 → mode ∨ s.lamp.asked = true →
       (mode → t.reg R.LAMP_CMD = s.reg R.LAMP_CMD) ∧ (¬ mode → t.fld F.LAMP_CMD_SWAP = 0 ∧ t.lamp.asked = false) ∧
       (¬ bcast ∨ lead = 0 → swapped t ∧ t.lamp.held = s.lamp.held ∧ chained t ∧ (¬ bcast → t.segs = s.segs) ∧
         (bcast → synced t (s.reg R.LAMP_SEQ + 1) (s.nextPage 0) (if valid then some (s.time.tb.getD 3 0) else none))) ∧
       (bcast → lead ≠ 0 → stays t ∧ t.lamp.shift = s.lamp.shift ∧
         t.lamp.held = s.lamp.held ++ [⟨s.now + lead, decide valid⟩] ∧ (¬ valid → t.segs = s.segs) ∧
         (valid → synced t (s.reg R.LAMP_SEQ + w32 (n + 1)) (s.nextPage n) (some (s.tbAt 3 (lead * s.period)))))))) ∧
  (¬ on → still .pwmPeriod) ∧
  (on → Answers .pwmPeriod s fun t => rows [] t ∧ SameBut [.regs, .lamp, .cal] s t ∧
    t.lamp = { s.lamp with chans := t.lamp.chans } ∧ ∀ c, c < s.part.row.lamps →
    began t c (s.lampChan c) (s.fld (F.LAMP_CH_STATE_STATE c)) ∧ t.reg (R.LAMP_CH_CFG c) = s.reg (R.LAMP_CH_CFG c)) ∧
  (Answers .lampSwap s fun t => t.fld F.LAMP_CMD_SWAP = 1 ∧ RegsBut [R.LAMP_CMD] s t ∧ SameBut [.regs] s t) ∧
  (∀ us,
    let skip := s.lamp.edge = true ∧ us < s.fld F.LAMP_CHAIN_LSYNC_MIN
    let mode := s.fld F.LAMP_CTRL_MODE = 1
    let asked := s.fld F.LAMP_CMD_SWAP = 1
    let bcast := s.fld F.LAMP_CTRL_BCAST = 1
    let taken : State → Prop := fun t => t.reg R.LAMP_SEQ_LATCH = t.reg R.LAMP_SEQ ∧ t.lamp.edge = true ∧
      t.lamp.strobes = ((s.now, t.reg R.LAMP_SEQ) :: s.lamp.strobes).take 64 ∧ chained t ∧ kept t ∧
      t.lamp.held = s.lamp.held ∧ t.lamp.tick = s.lamp.tick ∧ t.lamp.cfg = s.lamp.cfg ∧ t.lamp.phase = s.lamp.phase ∧
      t.lamp.due = s.lamp.due ∧
      (∀ c, c < s.part.row.lamps → began t c (s.lampChan c) (s.fld (F.LAMP_CH_STATE_STATE c)) ∧
        t.reg (R.LAMP_CH_CFG c) = s.reg (R.LAMP_CH_CFG c)) ∧
      rows [R.LAMP_CHAIN_SKIP, R.LAMP_CMD, R.LAMP_CTRL, R.LAMP_SEQ, R.LAMP_SEQ_LATCH, R.LAMP_STATUS] t ∧
      SameBut [.regs, .lamp, .segs, .msix, .sb, .cal] s t
    (¬ on ∨ s.fld F.LAMP_CTRL_SYNC = 0 → still (.lsyncEdge us)) ∧
    (on → s.fld F.LAMP_CTRL_SYNC = 1 →
      (skip → Answers (.lsyncEdge us) s fun t =>
        (t.reg R.LAMP_LSYNC_SKIP).toNat = min 0xFFFFFFFF ((s.reg R.LAMP_LSYNC_SKIP).toNat + 1) ∧
        RegsBut [R.LAMP_LSYNC_SKIP] s t ∧ SameBut [.regs] s t) ∧
      (¬ skip → mode ∨ asked → Answers (.lsyncEdge us) s fun t => swapped t ∧ taken t ∧
        (mode → t.reg R.LAMP_CMD = s.reg R.LAMP_CMD) ∧ (¬ mode → t.fld F.LAMP_CMD_SWAP = 0 ∧ t.lamp.asked = false) ∧
        (¬ bcast → t.segs = s.segs) ∧ (bcast → synced t (s.reg R.LAMP_SEQ + 1) (s.nextPage 0) none)) ∧
      (¬ skip → ¬ mode → ¬ asked → Answers (.lsyncEdge us) s fun t => stays t ∧ taken t ∧ t.segs = s.segs ∧
        t.reg R.LAMP_CMD = s.reg R.LAMP_CMD))) ∧
  (∀ ws, s.lamp.shift = some ws → Answers .chainLatch s fun t => t.lamp = { s.lamp with shift := none, chain := ws } ∧
    SameBut [.lamp] s t) ∧
  (s.lamp.shift = none → still .chainLatch) ∧
  (∀ (src : Source) (c : Nat) (v : Word), c < s.part.row.lamps → s.Reaches src (R.LAMP_CH_CFG c) → Answers (.lampClear src c v) s fun t =>
    t.fld (F.LAMP_CH_CFG_CLEAR c) = 1 ∧ getBits (t.reg (R.LAMP_CH_CFG c)) 30 0 = getBits (s.reg (R.LAMP_CH_CFG c)) 30 0 ∧
    t.written (R.LAMP_CH_CFG c) &&& 0x3FF7FFFF = v &&& 0x3FF7FFFF ∧ RegsBut [R.LAMP_CH_CFG c] s t ∧
    StagedBut [R.LAMP_CH_CFG c] s t ∧ SameBut [.regs, .staged] s t) ∧
  (∀ c,
    let x := s.lampChan c
    let there := on ∧ c < s.part.row.lamps
    let frame : State → Prop := fun t => ButAt State.lampChan c s t ∧ t.lamp = { s.lamp with chans := t.lamp.chans } ∧
      RegsBut [R.LAMP_CH_STATE c] s t ∧ SameBut [.regs, .lamp, .msix, .sb] s t
    (∀ row mv i,
      let v := if s.fld F.LAMP_SENSE_SHORT_MV < mv then 3
        else if i * 256 < x.amp * s.fld F.LAMP_SENSE_OPEN_FRAC then 2 else 1
      let n := if x.verdict = v then x.runs + 1 else 1
      let need := s.fld F.LAMP_DIAG_FAULT_N
      let qualifies := v ≠ 1 ∧ need ≠ 0 ∧ need ≤ n ∧ x.latched ≠ v ∧ x.short = false ∧ ¬ (v = 2 ∧ x.latched ≠ 0)
      (there → s.lampMeasurable c row = true → Answers (.lampMeasurement c row mv i) s fun t =>
        t.lampChan c = { x with
          verdict := v, runs := n, measured := true, unmeasured := 0, starved := false
          latched := if qualifies ∧ x.latched = 0 then v else x.latched, short := x.short || (decide qualifies && v == 3) } ∧
        t.fld (F.LAMP_CH_STATE_STATE c) = (
          if v = 1 ∨ need = 0 ∨ qualifies then if x.latched ≠ 0 then x.latched % 8 else v
          else s.fld (F.LAMP_CH_STATE_STATE c)) ∧
        t.fld (F.LAMP_CH_STATE_ROW c) = row ∧ t.fld (F.LAMP_CH_STATE_DUTY c) = x.duty.getD row 0 % 2 ^ 16 ∧
        (∀ key, qualifies → s.Takes 250 (s.reg R.LAMP_EVQ) 3 key → (t.stream key).words = (s.stream key).words ++
          packetWords ([w32 ((if v = 3 then 0x91 else 0x90) * 2 ^ 24 + row * 2 ^ 8 + c), s.reg R.LAMP_SEQ,
            s.stitchLo].map PWord.clean)) ∧
        (¬ qualifies → t.sb = s.sb ∧ t.msix = s.msix) ∧ frame t) ∧
      (¬ (there ∧ s.lampMeasurable c row = true) → still (.lampMeasurement c row mv i))) ∧
    (let starves := there ∧ s.diagReached x = true ∧ x.starved = false ∧
       ¬ (s.fld F.LAMP_DIAG_DIAG_EN = 1 ∧ s.fld F.LAMP_DIAG_DIAG_PERIOD ≠ 0)
     (starves → Answers (.diagStarved c) s fun t => t.lampChan c = { x with starved := true } ∧
        t.fld (F.LAMP_CH_STATE_STATE c) = (if x.latched ≠ 0 then x.latched % 8 else 4) ∧ frame t) ∧
     (¬ starves → still (.diagStarved c))))

/-! ## Power, reset and boot -/

/-- The sequencer: VDD_STBY and a wake start it, each group's power-good with its rails up and the settling bring the next, a
timeout, a fault, a brown-out or a loss takes the core domain down from the highest group that is enabled, on the way down a fault is
recorded and a wait that is too long given up, and a brown-out is retried up to its limit; a command that its step does not wait
for changes nothing (R372 to R376, R381, R383, R385). -/
def Obligations.PowerSequence : Prop :=
  ∀ s : State, s.Canon →
  let seq := s.power.seq
  let still : Instr → Prop := fun i => Answers i s fun t => t = s
  let down : SeqStep := if seq.pen 2 then .waitDown 2 else if seq.pen 1 then .settleDown 1 else if seq.pen 0 then .settleDown 0
    else .standby
  let core := [R.PWR_CAUSE, R.PWR_STATE]
  let held : State → Prop := fun t => t.latched = s.latched
  let fell : State → Bool → Prop := fun t retry => t.power = { s.power.cleared with seq := down, retry := retry } ∧
    t.pwrState = pwrStandby ∧ held t ∧ (∀ k, (t.core k).table = []) ∧ t.fresh = s.fresh ∧ s.WasReset t 5 core
  let cause : State → Nat → Prop := fun t n => t.fld F.PWR_CAUSE_SEQ_CODE = n ∧
    t.fld F.PWR_CAUSE_KIND = s.fld F.PWR_CAUSE_KIND ∧ t.fld F.PWR_CAUSE_BOOTS = s.fld F.PWR_CAUSE_BOOTS ∧
    t.fld F.PWR_CAUSE_BO_COUNT = s.fld F.PWR_CAUSE_BO_COUNT
  let power : State → SeqStep → Bool → Prop := fun t step retry => t.power = { s.power with seq := step, retry := retry }
  let noted : State → Prop := fun t => RegsBut [R.PWR_CAUSE] s t ∧ SameBut [.power, .regs] s t
  let next : Nat → Bool → SeqStep := fun g retry => if g = 0 then (if retry then .retryWait else .standby) else .settleDown (g - 1)
  (∀ quad side, (seq ≠ .off → still (.powerOn quad side)) ∧
    (seq = .off → Answers (.powerOn quad side) s fun t =>
      t.power = { s.power.cleared with
        seq := .standby, spiQuad := quad, fresh := true, brownRun := 0, vbat := true, vbatLost := false } ∧
      t.pwrState = pwrStandby ∧ held t ∧ s.WasReset t 6 [R.PWR_CAUSE, R.PWR_STATE, R.PWR_VBAT_CNT, R.HARN_CFG] ∧
      t.fld F.PWR_CAUSE_KIND = max 7 (s.fld F.PWR_CAUSE_KIND) ∧
      t.fld F.HARN_CFG_SIDE = (if s.part.row.harness then bitNat side else 0) ∧
      (s.power.vbatLost = true → t.fld F.PWR_CAUSE_VBAT_LOST = 1 ∧ t.reg R.PWR_VBAT_CNT = s.reg R.PWR_VBAT_CNT) ∧
      (s.power.vbatLost = false → t.fld F.PWR_CAUSE_VBAT_LOST = s.fld F.PWR_CAUSE_VBAT_LOST ∧
        ∃ n : Nat, t.reg R.PWR_VBAT_CNT = s.reg R.PWR_VBAT_CNT + w32 n))) ∧
  (let up : State → Prop := fun t => t.power = { s.power with seq := .waitUp 0, retry := false, fresh := false } ∧
      RegsBut [R.PWR_VBAT_CNT] s t
   let may : WakeCause → Prop := fun c => match c with
     | .autoWake => s.power.fresh = true ∧ s.fld F.PWR_SEQ_CFG_AUTO_WAKE = 1
     | .wakeN => s.fld F.PWR_SEQ_CFG_WAKE_N_EN = 1
     | .vbatCounter => s.reg R.PWR_WAKE_AT ≠ 0
   (∀ c, ¬ (seq = .standby ∧ may c) → still (.wake c)) ∧
   (seq = .standby →
    (may .autoWake → Answers (.wake .autoWake) s fun t => up t ∧ SameBut [.power] s t) ∧
    (may .wakeN → Answers (.wake .wakeN) s fun t => up t ∧
      (∃ n : Nat, t.reg R.PWR_VBAT_CNT = s.reg R.PWR_VBAT_CNT + w32 n) ∧ SameBut [.power, .regs, .fresh] s t) ∧
    (may .vbatCounter → Answers (.wake .vbatCounter) s fun t => up t ∧
      t.reg R.PWR_VBAT_CNT = s.reg R.PWR_WAKE_AT ∧ SameBut [.power, .regs] s t))) ∧
  (∀ g mv,
    let good := seq = .waitUp g ∧ groupUp g mv = true
    (¬ good → still (.pgRise ⟨g, mv⟩)) ∧
    (good → g ≠ 2 → Answers (.pgRise ⟨g, mv⟩) s fun t =>
      t.power = { s.power with seq := .settleUp (g + 1), present := s.power.present ++ [g] } ∧ SameBut [.power] s t) ∧
    (good → g = 2 → Answers (.pgRise ⟨g, mv⟩) s fun t =>
      t.power = { s.power with seq := .released, present := s.power.present ++ [g] } ∧ t.pwrState = pwrService ∧
      t.fld F.PWR_CAUSE_BOOTS = min 0xFFFF (s.fld F.PWR_CAUSE_BOOTS + 1) ∧
      t.core 32 = { s.core 32 with table := [⟨0, 0, 1600⟩] } ∧ ButAt State.core 32 s t ∧ held t ∧
      RegsBut core s t ∧ SameBut [.power, .regs, .cores] s t)) ∧
  (let bounded := s.fld F.PWR_SEQ_CFG_PG_TIMEOUT ≠ 0
   (∀ g, bounded → seq = .waitUp g → Answers .seqTimeout s fun t => fell t false ∧ cause t 5) ∧
   (∀ g, bounded → seq = .waitDown g → Answers .seqTimeout s fun t => cause t 5 ∧ power t (next g false) false ∧ noted t) ∧
   (¬ bounded ∨ (∀ g, seq ≠ .waitUp g ∧ seq ≠ .waitDown g) → still .seqTimeout)) ∧
  (∀ n,
    let told := (n = 1 ∧ seq = .off) ∨ (n = 2 ∧ seq = .waitUp 0) ∨ ((n = 3 ∨ n = 4) ∧ seq ≠ .off) ∨
      (n = 6 ∧ seq ≠ .off ∧ s.power.present ≠ [])
    (¬ told → still (.seqFault n)) ∧
    (told → seq.falling = false → Answers (.seqFault n) s fun t => fell t false ∧ cause t n) ∧
    (told → seq.falling = true → Answers (.seqFault n) s fun t => cause t n ∧
      power t (if seq = .retryWait then .standby else seq) false ∧ noted t)) ∧
  ((∀ g, seq = .settleUp g → Answers .settleExpiry s fun t => t = { s with power := { s.power with seq := .waitUp g } }) ∧
   (∀ g, seq = .settleDown g → Answers .settleExpiry s fun t => t = { s with power := { s.power with seq := .waitDown g } }) ∧
   ((∀ g, seq ≠ .settleUp g ∧ seq ≠ .settleDown g) → still .settleExpiry)) ∧
  (∀ g,
    let left := s.power.present.filter (· != g)
    (seq = .waitDown g → Answers (.groupAbsent g) s fun t =>
      t = { s with power := { s.power with seq := next g s.power.retry, present := left } }) ∧
    (seq = .off → Answers (.groupAbsent g) s fun t => t.power = { s.power with present := left } ∧
      t.latched = (s.latched && left != []) ∧ t.pwrState = s.pwrState ∧ RegsBut [R.PWR_STATE] s t ∧
      SameBut [.power, .regs] s t) ∧
    (seq ≠ .waitDown g → seq ≠ .off → still (.groupAbsent g))) ∧
  (seq = .off → Answers .vbatLoss s fun t => t.reg R.PWR_VBAT_CNT = 0 ∧ t.fld F.SEC_STATE_VALID = 0 ∧
      t.fld F.SEC_STATE_SEAL_OPENED = 0 ∧ t.sec = { s.sec with secrets := List.replicate 8 (List.replicate 8 0) } ∧
      t.power = { s.power with vbat := false, vbatLost := true } ∧
      RegsBut [R.PWR_VBAT_CNT, R.SEC_STATE] s t ∧ SameBut [.power, .regs, .sec] s t) ∧
  (seq ≠ .off → still .vbatLoss) ∧
  (∀ rail mv within,
    let low := 2 ≤ rail ∧ rail ≤ 9 ∧ s.power.present.contains (railGroup rail) = true ∧ seq.pen (railGroup rail) = true ∧
      railLow rail mv = true
    let counted : State → Prop := fun t => t.fld F.PWR_CAUSE_KIND = max 6 (s.fld F.PWR_CAUSE_KIND) ∧
      t.fld F.PWR_CAUSE_SEQ_CODE = s.fld F.PWR_CAUSE_SEQ_CODE ∧
      t.fld F.PWR_CAUSE_BO_COUNT = (if within then min 15 (s.fld F.PWR_CAUSE_BO_COUNT + 1) else 1)
    let run := if within then s.power.brownRun + 1 else 0
    (¬ low → still (.brownOut ⟨rail, mv⟩ within)) ∧
    (low → seq.falling = false → Answers (.brownOut ⟨rail, mv⟩ within) s fun t => counted t ∧
      t.power = { s.power.cleared with seq := down, retry := true, brownRun := run } ∧ t.pwrState = pwrStandby ∧ held t ∧
      (∀ k, (t.core k).table = []) ∧ s.WasReset t 5 core) ∧
    (low → seq.falling = true → Answers (.brownOut ⟨rail, mv⟩ within) s fun t => counted t ∧
      t.power = { s.power with retry := true, brownRun := run } ∧ noted t)) ∧
  (let limit := s.fld F.PWR_SEQ_CFG_BO_RETRY
   let reached := limit = 0 ∨ limit ≤ s.power.brownRun
   (seq ≠ .retryWait → still .brownOutRetry) ∧
   (seq = .retryWait → reached → Answers .brownOutRetry s fun t => power t .standby false ∧ cause t 7 ∧ noted t) ∧
   (seq = .retryWait → ¬ reached → Answers .brownOutRetry s fun t =>
     t = { s with power := { s.power with seq := .waitUp 0, retry := false, fresh := false } })) ∧
  (seq = .off → still .stbyLoss) ∧
  (seq ≠ .off → Answers .stbyLoss s fun t => t.power = { s.power.cleared with seq := .off, retry := false } ∧
    t.pwrState = pwrOff ∧ t.latched = (s.latched && s.power.present != []) ∧ (∀ k, (t.core k).table = []) ∧
    s.WasReset t 5 [R.PWR_STATE])

/-- The commands of the power states, with their refusals: ORDER, LATCHED and INTERLOCK; a shut-down and its burnish; the loop that
sets VDD_CORE, its check and its events. With the core domain down none of them acts (R377 to R381, R384, R423). -/
def Obligations.PowerStates : Prop :=
  ∀ s : State,
  let still : Instr → Prop := fun i => Answers i s fun t => t = s
  (s.coreUp = false → ∀ i ∈ [Instr.service, .ready, .run, .shutdown, .cancel], still i) ∧
  (s.coreUp = true →
  let st := s.pwrState
  let res : State → Nat → Prop := fun t r => t.fld F.PWR_STATE_RESULT = r
  let refused : Instr → Nat → Prop := fun i r => Answers i s fun t => res t r ∧ t.pwrState = st ∧ t.latched = s.latched ∧
    RegsBut [R.PWR_STATE] s t ∧ SameBut [.regs] s t
  let moved : State → Nat → Prop := fun t dest => t.pwrState = dest ∧ res t 0 ∧ t.latched = s.latched
  let frame : State → Prop := fun t => RegsBut [R.PWR_STATE] s t ∧ SameBut [.regs, .emitEn, .msix, .sb] s t
  let lanes : State → Prop := fun t => (∀ k, k < 40 → s.part.hasLane k = true → t.laneState k = laneDown) ∧ t.emitEn = 0 ∧
    (∀ k, k < s.part.row.lasers → s.part.hasLane k = true → s.laneState k = laneReady → 7 ∈ (t.awl k).due) ∧
    ∀ k, s.laneState k ≠ laneReady → t.awl k = s.awl k
  (st = pwrReady ∨ st = pwrRun → Answers .service s fun t => moved t pwrService ∧ lanes t ∧
    RegsWhere (fun pl => pl.blk = .pwr ∨ pl.blk = .lane) s t ∧ SameBut [.regs, .emitEn, .msix, .sb, .lanes, .awls] s t) ∧
  (st ≠ pwrReady → st ≠ pwrRun → refused .service 1) ∧
  (st = pwrService → s.fld F.PWR_STATE_BOOT_DONE = 1 → s.power.shutting = false →
    (s.latched = true → refused .ready 2) ∧
    (s.latched = false → Answers .ready s fun t => moved t pwrReady ∧ t.emitEn = s.emitEn ∧ frame t)) ∧
  (st = pwrRun → Answers .ready s fun t => moved t pwrReady ∧ t.emitEn = 0 ∧ frame t) ∧
  (st ≠ pwrRun → st ≠ pwrService ∨ s.fld F.PWR_STATE_BOOT_DONE = 0 ∨ s.power.shutting = true → refused .ready 1) ∧
  (st ≠ pwrReady → refused .run 1) ∧
  (st = pwrReady → s.latched = true → refused .run 2) ∧
  (st = pwrReady → s.latched = false → s.ilkClear = false ∨ s.sec.ilkHold = true → refused .run 3) ∧
  (st = pwrReady → s.latched = false → s.ilkClear = true → s.sec.ilkHold = false → Answers .run s fun t => moved t pwrRun ∧
    t.emitEn = s.emitEn ∧ frame t) ∧
  (s.booted = false ∨ s.power.shutting = true → refused .shutdown 1) ∧
  (s.Canon → s.booted = true → s.power.shutting = false →
    let off : State → Prop := fun t => t.pwrState = pwrStandby ∧ t.power = { s.power.cleared with seq := .waitDown 2 } ∧
      t.latched = s.latched
    (s.fld F.PWR_SEQ_CFG_BURNISH = 0 → Answers .shutdown s fun t => off t ∧ (∀ k, (t.core k).table = []) ∧
      s.WasReset t 5 [R.PWR_STATE]) ∧
    (s.fld F.PWR_SEQ_CFG_BURNISH = 1 → Answers .shutdown s fun t =>
      (t.power = { s.power with shutting := true } ∧ moved t pwrService ∧ (∃ n l, t.burn.left = some (n :: l)) ∧
        t.fld F.BURN_CTRL_BUSY = 1 ∧ (st ≠ pwrService → lanes t) ∧
        RegsWhere (fun pl => pl.blk = .pwr ∨ pl.blk = .lane ∨ pl.blk = .burn) s t ∧
        SameBut [.regs, .emitEn, .msix, .sb, .lanes, .awls, .power, .burn] s t) ∨ off t)) ∧
  (s.power.shutting = false → refused .cancel 1) ∧
  (s.power.shutting = true → Answers .cancel s fun t => t.power = { s.power with shutting := false } ∧ res t 0 ∧ t.pwrState = st ∧
    t.burn.left = none ∧ RegsWhere (fun pl => pl.blk = .pwr ∨ pl.blk = .burn) s t ∧
    SameBut [.regs, .power, .burn, .msix, .sb] s t)) ∧
  (∀ margins : List Nat,
    let runs := margins ≠ [] ∧ s.coreUp = true ∧ s.fld F.PWR_AVS_CFG_AVS_EN = 1 ∧ s.fld F.PWR_AVS_CFG_INT ≠ 0 ∧
      s.power.checking = false ∧ s.fld F.PWR_AVS_STATUS_FAULT = 0
    let m := margins.tail.foldl min (margins.headD 0) % 65536
    let step := min 10 (s.fld F.PWR_AVS_CFG_STEP)
    let low := m < s.fld F.PWR_AVS_MARGIN_LOW
    let high := s.fld F.PWR_AVS_MARGIN_HIGH < m
    let good := s.power.good
    let set : Nat → Nat → Prop := fun target n => Answers (.avsStep margins) s fun t =>
      t.power = { s.power with margin := some m, target := target, good := n, checking := target != s.power.target } ∧
      SameBut [.power] s t
    let raised := min (s.power.target + step) (avsClip (s.fld F.PWR_AVS_LIM_VMAX))
    let lowered := max (s.power.target - step) (avsClip (s.fld F.PWR_AVS_LIM_VMIN))
    (¬ runs → still (.avsStep margins)) ∧
    (runs → low → set raised (if high then 1 else 0)) ∧
    (runs → ¬ low → ¬ high → good < 8 → set s.power.target good) ∧
    (runs → ¬ low → high → good < 7 → set s.power.target (good + 1)) ∧
    (runs → ¬ low → 8 ≤ good ∨ (high ∧ good = 7) → set lowered 0)) ∧
  (∀ linear ok mv,
    let due := s.coreUp = true ∧ s.power.checking = true ∧ s.fld F.PWR_AVS_STATUS_FAULT = 0
    let foreign := linear = false ∧ s.fld F.PWR_AVS_STATUS_TARGET = 0
    let good := ok = true ∧ mv ≤ s.power.target + 10 ∧ s.power.target ≤ mv + 10
    let read := if ok then min 1023 mv else s.fld F.PWR_AVS_STATUS_READ_VOUT
    let stopped : State → Nat → Nat → Prop := fun t fails r => t.fld F.PWR_AVS_STATUS_FAULT = 1 ∧
      t.power = { s.power with checking := false, fails := fails } ∧ t.fld F.PWR_AVS_STATUS_READ_VOUT = r ∧
      t.fld F.PWR_AVS_STATUS_TARGET = s.fld F.PWR_AVS_STATUS_TARGET ∧
      (∀ key, s.Takes 256 (s.reg R.PWR_EVQ) 3 key → (t.stream key).words = (s.stream key).words ++
        packetWords ([w32 (0xA2 * 2 ^ 24), 0, s.stitchLo].map PWord.clean)) ∧
      RegsBut [R.PWR_AVS_STATUS] s t ∧ SameBut [.regs, .power, .msix, .sb] s t
    let i := Instr.avsCheck ⟨linear, ok⟩ mv
    (¬ due → still i) ∧
    (due → foreign → Answers i s (stopped · s.power.fails (s.fld F.PWR_AVS_STATUS_READ_VOUT))) ∧
    (due → ¬ foreign → good → Answers i s fun t => t.fld F.PWR_AVS_STATUS_TARGET = s.power.target % 1024 ∧
      t.fld F.PWR_AVS_STATUS_READ_VOUT = read ∧ t.fld F.PWR_AVS_STATUS_FAULT = 0 ∧
      t.power = { s.power with checking := false, fails := 0 } ∧ RegsBut [R.PWR_AVS_STATUS] s t ∧ SameBut [.regs, .power] s t) ∧
    (due → ¬ foreign → ¬ good → s.power.fails < 2 → Answers i s fun t =>
      t.power = { s.power with fails := s.power.fails + 1 } ∧ t.fld F.PWR_AVS_STATUS_READ_VOUT = read ∧
      t.fld F.PWR_AVS_STATUS_FAULT = 0 ∧ t.fld F.PWR_AVS_STATUS_TARGET = s.fld F.PWR_AVS_STATUS_TARGET ∧
      RegsBut [R.PWR_AVS_STATUS] s t ∧ SameBut [.regs, .power] s t) ∧
    (due → ¬ foreign → ¬ good → 2 ≤ s.power.fails → Answers i s (stopped · (s.power.fails + 1) read))) ∧
  (let told : State → Nat → Nat → Prop := fun t c w => RegsBut [] s t ∧ SameBut [.regs, .msix, .sb] s t ∧
     ∀ key, s.Takes 256 (s.reg R.PWR_EVQ) 3 key → (t.stream key).words = (s.stream key).words ++
      packetWords ([w32 (c * 2 ^ 24), w32 w, s.stitchLo].map PWord.clean)
   (∀ m, s.power.margin = some m → m < s.fld F.PWR_AVS_MARGIN_CRIT → Answers .marginCrit s (told · 0xA3 m)) ∧
   ((∀ m, s.power.margin = some m → s.fld F.PWR_AVS_MARGIN_CRIT ≤ m) → still .marginCrit) ∧
   ∀ n, (s.coreUp = true → Answers (.regAlert n) s (told · 0xA4 (n % 65536))) ∧ (s.coreUp = false → still (.regAlert n)))

/-- The resets of the core domain: what a soft, a watchdog and a RESET_N reset keep and clear; a block restart asked for, refused,
taken and ended; and the boot from the image that passes (R82, R84, R94, R262, R385 to R391, R410, R413). -/
def Obligations.Resets : Prop :=
  ∀ s : State, s.Canon →
  let still : Instr → Prop := fun i => Answers i s fun t => t = s
  let reset : State → Nat → Nat → Prop := fun t lvl kind => t.power = s.power.cleared ∧
    s.WasReset t lvl [R.PWR_CAUSE] ∧ (∀ k, (t.core k).table = if k = 32 then [⟨0, 0, 1600⟩] else []) ∧
    t.fld F.PWR_CAUSE_KIND = max kind (s.fld F.PWR_CAUSE_KIND) ∧
    t.fld F.PWR_CAUSE_BOOTS = min 0xFFFF (s.fld F.PWR_CAUSE_BOOTS + 1) ∧
    t.fld F.PWR_CAUSE_SEQ_CODE = s.fld F.PWR_CAUSE_SEQ_CODE ∧ t.fld F.PWR_CAUSE_BO_COUNT = s.fld F.PWR_CAUSE_BO_COUNT ∧
    t.fld F.PWR_CAUSE_VBAT_LOST = s.fld F.PWR_CAUSE_VBAT_LOST
  let late := s.fld F.SYS_WDOG_CTRL_ENABLE = 1 ∧ 2 * s.fld F.SYS_WDOG_CTRL_LIMIT ≤ s.wdog.count
  (s.coreUp = false → ∀ i ∈ [Instr.softReset, .resetN, .watchdogReset], still i) ∧
  (s.coreUp = true → (Answers .softReset s (reset · 3 3)) ∧ (Answers .resetN s (reset · 4 5)) ∧
    (late → Answers .watchdogReset s (reset · 3 4)) ∧ (¬ late → still .watchdogReset)) ∧
  (∀ (src : Source) (v : Word), s.Reaches src R.PWR_BLOCK_RST →
    let frame : State → Prop := fun t => RegsBut [R.PWR_BLOCK_RST] s t ∧ SameBut [.regs] s t
    (s.fld F.PWR_BLOCK_RST_START = 0 → Answers (.blockRestart src v) s fun t =>
      t.reg R.PWR_BLOCK_RST = (s.reg R.PWR_BLOCK_RST &&& 0x70000000) ||| (v &&& 0xF3F) ||| 0x80000000 ∧ frame t) ∧
    (s.fld F.PWR_BLOCK_RST_START = 1 → Answers (.blockRestart src v) s fun t => t.fld F.PWR_BLOCK_RST_RESULT = 1 ∧
      t.fld F.PWR_BLOCK_RST_START = 1 ∧ t.fld F.PWR_BLOCK_RST_CODE = s.fld F.PWR_BLOCK_RST_CODE ∧
      t.fld F.PWR_BLOCK_RST_INSTANCE = s.fld F.PWR_BLOCK_RST_INSTANCE ∧ frame t)) ∧
  (let t := s.restartBoundary
   let c := s.fld F.PWR_BLOCK_RST_CODE
   let u := s.fld F.PWR_BLOCK_RST_INSTANCE
   let asked := s.fld F.PWR_BLOCK_RST_START = 1 ∧ s.power.restarts = []
   let turned := fun r => t.fld F.PWR_BLOCK_RST_RESULT = r ∧ t.fld F.PWR_BLOCK_RST_START = 0 ∧
      RegsBut [R.PWR_BLOCK_RST] s t ∧ SameBut [.regs] s t
   (¬ asked → t = s) ∧
   (asked → s.restartPresent c u = false → turned 2) ∧
   (asked → s.restartPresent c u = true → s.restartRefused c u = true → turned 1) ∧
   (asked → s.restartPresent c u = true → s.restartRefused c u = false →
      t.power = { s.power with restarts := [(c, u)] } ∧ t.fld F.PWR_BLOCK_RST_START = 1 ∧ t.fld F.PWR_BLOCK_RST_RESULT = 0 ∧
      t.cmds = s.cmds.filter (fun e => restartUnit e.1 != some (c, u)) ∧
      (c = 1 → (t.core u).cur = none ∧ (t.core u).load = none ∧ (t.core u).table = (s.core u).table ∧
        (t.core u).imem = (s.core u).imem ∧ (t.core u).dmem = (s.core u).dmem ∧
        ∀ k, k < 16 → t.ctxState u k = ctxIdle) ∧
      (c = 2 → t.awl u = Awl.atReset ∧ t.rein u = { Rein.atReset with seenT := s.tclk }) ∧
      (c = 3 → ∀ i, i < 5 → t.cam u i = Cam.atReset) ∧ (c = 4 → t.axis u = Axis.atReset) ∧
      (c = 5 → t.lane u = Lane.atReset ∧ t.laneState u = laneDown) ∧
      (c = 6 → t.chan u = { DmcChan.off with remaps := (s.chan u).remaps }) ∧ (c = 9 → t.tree = Tree.atReset) ∧
      (c = 0xB → t.seg u = Segment.atReset) ∧ (c = 0xC → t.lamp = { Lamp.atReset with mem := s.lamp.mem }) ∧
      (c = 0xD → t.cal = { s.cal with queue := [], running := none, goal := none }) ∧
      (∀ a, restartUnit a ≠ some (c, u) → a ≠ R.PWR_BLOCK_RST → a ≠ R.CAL_STATUS → ¬ EventReg a → t.reg a = s.reg a) ∧
      SameBut [.regs, .cmds, .readData, .resp, .msix, .fresh, .sb, .cores, .ctxs, .mem, .badLines, .chans, .repeatAge, .awls,
        .reins, .hide, .tree, .axes, .cams, .lanes, .segs, .lamp, .power, .cal] s t)) ∧
  (s.power.restarts = [] → still .blockRestarted) ∧
  (∀ c u rest, s.power.restarts = (c, u) :: rest → Answers .blockRestarted s fun t =>
    t.power = { s.power with restarts := rest } ∧ t.fld F.PWR_BLOCK_RST_START = 0 ∧
    (c ≠ 1 → t.ctxs = s.ctxs ∧ RegsBut [R.PWR_BLOCK_RST] s t) ∧
    (c = 1 → u < 40 → (∀ k, k < 16 → if ((s.core u).table.any fun sl => sl.ctx == k) = true
        then t.ctxState u k = ctxWaiting ∧ (t.ctx u k).due = s.stitch
        else t.ctxState u k = ctxIdle ∧ t.ctx u k = s.ctx u k) ∧
      (∀ j k, j ≠ u → k < 16 → t.ctx j k = s.ctx j k) ∧ RegsWhere (fun pl => pl.blk = .tc ∨ pl.blk = .pwr) s t) ∧
    (∀ key, s.Takes 256 (s.reg R.PWR_EVQ) 3 key → (t.stream key).words = (s.stream key).words ++
      packetWords ([w32 (0xA1 * 2 ^ 24 + (c * 2 ^ 16 + u)), 0, s.stitchLo].map PWord.clean)) ∧
    SameBut [.regs, .power, .ctxs, .msix, .sb] s t) ∧
  (∀ a b ok,
    let boots := s.coreUp = true ∧ s.fld F.PWR_STATE_BOOT_DONE = 0
    let pref := s.fld F.SEC_BOOT_PREF
    let first := if pref = 0 then a else b
    let second := if pref = 0 then b else a
    let booted : State → ImageHdr → Nat → Nat → Prop := fun t h slot r => t.fld F.PWR_STATE_BOOT_DONE = 1 ∧
      t.pwrState = pwrService ∧ t.fld F.SEC_BOOT_SLOT = slot ∧ t.fld F.SEC_BOOT_KEY = h.key % 16 ∧
      t.fld F.SEC_BOOT_RESULT = r ∧ t.power = { s.power with recovery := false } ∧ t.fld F.BURN_RESULT_FRESH = 0 ∧
      t.fld F.BURN_RESULT_BURNISH_FAIL = (if (s.fld F.BURN_RESULT_OUTCOME = 1 ∧ s.fld F.BURN_RESULT_FRESH = 1) ∨ ok = true
        then s.fld F.BURN_RESULT_BURNISH_FAIL else 1) ∧
      (∀ k c, k < 40 → c < 16 → (s.core k).table ≠ [] → if ((s.core k).table.any fun sl => sl.ctx == c) = true
        then t.ctxState k c = ctxWaiting ∧ (t.ctx k c).due = s.stitch else t.ctxState k c = ctxIdle) ∧
      RegsWhere (fun pl => pl.blk = .tc ∨ pl.blk = .pwr ∨ pl.blk = .sec ∨ pl.blk = .burn ∨ pl.blk = .cal ∨ pl.blk = .awl) s t ∧
      SameBut [.regs, .power, .ctxs, .cal, .msix, .sb] s t
    (¬ boots → still (.bootDone a b ok)) ∧
    (boots → s.imagePasses first = true → Answers (.bootDone a b ok) s (booted · first pref 0)) ∧
    (boots → s.imagePasses first = false → s.imagePasses second = true →
      Answers (.bootDone a b ok) s (booted · second (1 - pref) 1)) ∧
    (boots → s.imagePasses first = false → s.imagePasses second = false → Answers (.bootDone a b ok) s fun t =>
      t.fld F.SEC_BOOT_RESULT = 2 ∧ t.power = { s.power with recovery := true } ∧ t.fld F.PWR_STATE_BOOT_DONE = 0 ∧
      RegsBut [R.SEC_BOOT] s t ∧ SameBut [.regs, .power] s t))

/-! ## Temperature, calibration and burnish -/

/-- A sample sets a sensor's reading, fault and band and its count at the over-temperature limit, whose last sample sets the
latch and ends the emission; a group reports its band, which a DRAM channel and the lanes follow; and a throttle step engages and
releases at its codes and stops and starts clocks (R290, R322, R393 to R399). -/
def Obligations.Temperatures : Prop :=
  ∀ s : State,
  let still : Instr → Prop := fun i => Answers i s fun t => t = s
  let told : State → Word → Nat → Prop := fun t w0 w1 => ∀ key, s.Takes 256 (s.reg R.THRM_EVQ) 3 key →
    (t.stream key).words = (s.stream key).words ++ packetWords ([w0, w32 w1, s.stitchLo].map PWord.clean)
  (∀ k r inp tick,
    let faulted := (k < 8 ∧ (inp < 250 ∨ 950 < inp)) ∨ (8 ≤ k ∧ k < 16 ∧ (inp < 20 ∨ 980 < inp))
    let shut := s.fld (F.THRM_SENSOR_LIMIT_SHUT k)
    let need := s.fld (F.THRM_SENSOR_LIMIT_SHUT_N k)
    let code := if faulted then 0 else r % 65536
    let band := s.fld (F.THRM_SENSOR_VALUE_BAND k)
    let hot := s.fld (F.THRM_SENSOR_CFG_FAULT_HOT k) = 1
    let n := if faulted then if hot ∧ shut ≠ 0 then sget 0 s.therm.hot k + 1 else 0
      else if shut ≠ 0 ∧ shut ≤ code then sget 0 s.therm.hot k + 1 else 0
    let latches := need ≠ 0 ∧ n ≠ 0 ∧ need ≤ n ∧ s.latched = false
    let read : State → Prop := fun t => t.reading k = code ∧ t.fld (F.THRM_SENSOR_VALUE_FAULT k) = (if faulted then 1 else 0) ∧
      t.fld (F.THRM_SENSOR_VALUE_BAND k) = (if faulted then if hot then s.bandAfter k shut band else band
        else s.bandAfter k code band) ∧
      (∀ j, sget 0 t.therm.hot j = if j = k then n else sget 0 s.therm.hot j) ∧
      (∀ j, sget 0 t.therm.at_ j = if j = k then s.tclk + 1 else sget 0 s.therm.at_ j) ∧
      (∀ j, sget 10000 t.therm.next j = if j = k then s.nextSample k code else sget 10000 s.therm.next j) ∧
      t.therm.seen = s.therm.seen ∧ t.therm.bands = s.therm.bands ∧ t.therm.stopped = s.therm.stopped
    let i := Instr.sensorSample k r ⟨inp, tick⟩
    (s.sensorOn k = false → still i) ∧
    (s.sensorOn k = true → ¬ latches → Answers i s fun t => read t ∧ RegsBut [R.THRM_SENSOR_VALUE k] s t ∧
      (faulted ∧ s.fld (F.THRM_SENSOR_VALUE_FAULT k) = 0 → told t (w32 (0xB3 * 2 ^ 24 + k * 2 ^ 8)) 0) ∧
      (¬ (faulted ∧ s.fld (F.THRM_SENSOR_VALUE_FAULT k) = 0) → t.sb = s.sb ∧ t.msix = s.msix) ∧
      SameBut [.regs, .therm, .msix, .sb] s t) ∧
    (s.sensorOn k = true → latches → Answers i s fun t => read t ∧ t.latched = true ∧ t.emitEn = 0 ∧
      t.hide = { s.hide with emitCut := some (min tick (s.hide.emitCut.getD tick)) } ∧
      t.reg R.THRM_SHUT_CAUSE = w32 (2 ^ 31 + k * 2 ^ 16 + code) ∧
      (s.pwrState = pwrReady ∨ s.pwrState = pwrRun → t.pwrState = pwrService ∧
        ∀ j, j < 40 → s.part.hasLane j = true → t.laneState j = laneDown) ∧
      (s.pwrState ≠ pwrReady → s.pwrState ≠ pwrRun → t.pwrState = s.pwrState ∧ t.lanes = s.lanes ∧ t.awls = s.awls) ∧
      RegsWhere (fun pl => (pl.blk = .thrm ∨ pl.blk = .pwr) ∨ pl.blk = .lane) s t ∧
      SameBut [.regs, .therm, .emitEn, .hide, .lanes, .awls, .msix, .sb] s t)) ∧
  (∀ g,
    let b := s.groupBand g
    let moved := g < 5 ∧ b ≠ s.fld (F.THRM_BAND_GROUP_BAND g)
    let grp := R.THRM_BAND_GROUP g
    (¬ moved → still (.bandChanged g)) ∧
    (moved → Answers (.bandChanged g) s fun t => t.fld (F.THRM_BAND_GROUP_BAND g) = b % 4 ∧
      t.fld (F.THRM_BAND_GROUP_MASK g) = s.fld (F.THRM_BAND_GROUP_MASK g) ∧
      (g < 2 → g < s.part.row.chans → (t.chan g).tsetNext = b ∧ (t.chan g).bandRate = bandRefresh b ∧ ButAt State.chan g s t ∧
        RegsBut [grp, R.DMC_STATUS g] s t ∧ SameBut [.regs, .chans, .msix, .sb] s t) ∧
      (g = 2 → (∀ k, k < 40 → s.part.hasLane k = true → t.fld (F.LANE_STATUS_BAND k) = b % 4) ∧
        RegsWhere (fun pl => pl.blk = .thrm ∨ pl.blk = .lane) s t ∧ SameBut [.regs, .lanes, .awls, .msix, .sb] s t) ∧
      (3 ≤ g ∨ s.part.row.chans ≤ g ∧ g ≠ 2 → RegsBut [grp] s t ∧ SameBut [.regs, .msix, .sb] s t ∧
        told t (w32 (0xB0 * 2 ^ 24 + (g * 2 ^ 16 + b))) (((s.groupBands g).map fun p => p.2).foldl max 0)))) ∧
  (∀ j,
    let gated : State → Prop := fun t => t.therm = { s.therm with stopped := if t.gateOn then s.idleUnits else [] }
    let frame : State → Prop := fun t => gated t ∧ t.fld (F.THRM_STEP_CTRL_ACTION j) = s.fld (F.THRM_STEP_CTRL_ACTION j) ∧
      t.fld (F.THRM_STEP_CTRL_ONSET j) = s.fld (F.THRM_STEP_CTRL_ONSET j) ∧ RegsBut [R.THRM_STEP_CTRL j] s t ∧
      SameBut [.regs, .therm, .msix, .sb] s t
    let on := j < 8 ∧ s.fld (F.THRM_STEP_CTRL_ENGAGED j) = 0 ∧ s.stepHot j = true
    let off := j < 8 ∧ s.fld (F.THRM_STEP_CTRL_ENGAGED j) = 1 ∧ s.stepCool j = true
    (on → Answers (.stepOn j) s fun t => t.fld (F.THRM_STEP_CTRL_ENGAGED j) = 1 ∧ frame t ∧
      told t (w32 (0xB1 * 2 ^ 24 + j)) (s.stepReading j)) ∧ (¬ on → still (.stepOn j)) ∧
    (off → Answers (.stepOff j) s fun t => t.fld (F.THRM_STEP_CTRL_ENGAGED j) = 0 ∧ frame t ∧
      told t (w32 (0xB2 * 2 ^ 24 + j)) (s.stepReading j)) ∧ (¬ off → still (.stepOff j)))

/-- The calibration engine: a RUN waits for the boundary and a GEO_COMMIT for presence, the first entry starts or is skipped,
its result becomes the goal of a walk or is turned down, and a walk that has come to its goal is recorded and ends; a gate-response
run has its result with its 256th report and is skipped when they do not come in time (R400 to R405). The rounding of a mean is free
(the model's choice, log entry 41). -/
def Obligations.Calibration : Prop :=
  ∀ s : State,
  let still : Instr → Prop := fun i => Answers i s fun t => t = s
  let frame : State → Prop := fun t => RegsBut [R.CAL_STATUS] s t ∧ SameBut [.regs, .cal, .msix, .sb, .fresh] s t
  let idle : State → Prop := fun t => t.fld F.CAL_STATUS_BUSY = 0 ∧ t.fld F.CAL_STATUS_ITEM = 0 ∧
    t.fld F.CAL_STATUS_INSTANCE = 0 ∧ t.fld F.CAL_STATUS_QUEUED = min 255 t.cal.queue.length
  let told : State → Nat → Nat → CalEntry → Word → Prop := fun t code r e w => ∀ key, s.Takes 256 (s.reg R.CAL_EVQ) 3 key →
    (t.stream key).words = (s.stream key).words ++
      packetWords ([w32 (code * 2 ^ 24 + e.item * 2 ^ 16 + e.unit * 2 ^ 8 + r), w, s.stitchLo].map PWord.clean)
  let nowWord : CalEntry → Word := fun e => calWord e.item (s.calNow e.item e.unit)
  let marked : CalEntry → Sparse (Option Nat) := fun e =>
    sset none s.cal.lastTemp (calKey e.item e.unit) (some (s.calTemp e.item))
  (∀ (src : Source) (v : Word), s.Reaches src R.CAL_CMD →
    (Answers (.calRun src v) s fun t => t.reg R.CAL_CMD = (v &&& 0x000F003F) ||| 0x80000000 ∧ RegsBut [R.CAL_CMD] s t ∧
      SameBut [.regs] s t) ∧
    (s.guardPending = false → Answers (.geoCommit src v) s fun t =>
      t.sec = { s.sec with request := some ⟨5, R.CAL_CMD, (v &&& 0x000F003F) ||| 0x90000000, s.tbAt 0 0⟩ } ∧
      t.reg R.CAL_CMD = (v &&& 0x000F003F) ||| 0x90000000 ∧ t.fld F.SEC_GUARD_PENDING = 1 ∧ t.fld F.SEC_GUARD_OP = 5 ∧
      RegsBut [R.CAL_CMD, R.SEC_GUARD] s t ∧ SameBut [.regs, .sec] s t) ∧
    (s.guardPending = true → Answers (.geoCommit src v) s fun t => t.fld F.SEC_GUARD_RESULT = 3 ∧
      RegsBut [R.SEC_GUARD] s t ∧ SameBut [.regs] s t)) ∧
  (s.cal.running ≠ none ∨ s.cal.queue = [] → still .calInstanceStart) ∧
  (∀ e, s.cal.running = none → firstEntry s.cal.queue = some e →
    (s.calReady e.item e.unit = true → Answers .calInstanceStart s fun t =>
      t.cal = { s.cal with queue := s.cal.queue.erase e, running := some e, goal := none, reports := (0, 0, 0) } ∧
      t.fld F.CAL_STATUS_BUSY = 1 ∧ t.fld F.CAL_STATUS_ITEM = e.item % 16 ∧ t.fld F.CAL_STATUS_INSTANCE = e.unit % 64 ∧
      t.fld F.CAL_STATUS_QUEUED = min 255 (s.cal.queue.erase e).length ∧ t.sb = s.sb ∧ frame t) ∧
    (s.calReady e.item e.unit = false → Answers .calInstanceStart s fun t =>
      t.cal = { s.cal with queue := s.cal.queue.erase e } ∧ idle t ∧ told t 0xC2 4 e (nowWord e) ∧ frame t)) ∧
  (∀ r gain run ok,
    let i := Instr.calResultFound r gain run ok
    (s.cal.running = none ∨ s.cal.goal ≠ none → still i) ∧
    ∀ e, s.cal.running = some e → s.cal.goal = none →
      let gate := e.item = calGate
      (gate → s.cal.reports.1 < 256 → still i) ∧
      (¬ gate ∨ 256 ≤ s.cal.reports.1 → Answers i s fun t => ∃ v : CalVal,
        (¬ gate → v = ⟨r, if e.item = 2 ∨ e.item = 3 then 0 else gain⟩ ∧ t.fresh = s.fresh) ∧
        (gate → ((v.a + s.fld (F.AWL_GATE_DLY_ON e.unit)) * 256 - s.cal.reports.2.1 : Int).natAbs < 256 ∧
          ((v.b + s.fld (F.AWL_GATE_DLY_OFF e.unit)) * 256 - s.cal.reports.2.2 : Int).natAbs < 256) ∧
        let j := s.calJudge e v run ok
        (j = 0 → t.cal = { s.cal with goal := some v } ∧ SameBut [.cal, .fresh] s t) ∧
        (j ≠ 0 → t.cal = { s.cal with
            running := none, goal := none, lastTemp := if j = 3 then s.cal.lastTemp else marked e } ∧ idle t ∧
          told t 0xC1 j e (nowWord e) ∧ frame t))) ∧
  (∀ e g, s.cal.running = some e → s.cal.goal = some g → s.calNow e.item e.unit = g → Answers .calDone s fun t =>
    let key := calKey e.item e.unit
    let tb3 := s.fld F.TIME_MT_STATUS_VALID
    let time := s.time.tb.getD (3 * tb3) 0
    t.cal = { s.cal with
      running := none, goal := none, lastTemp := marked e, accepted := sset ⟨0, 0⟩ s.cal.accepted key g
      recs := sset [] s.cal.recs key [w32 (e.item * 2 ^ 24 + e.unit * 2 ^ 16), calWord e.item g, w32 (secOf time % 2 ^ 32),
        w32 (nsOf time), w32 (s.calTemp e.item + tb3 * 2 ^ 16 + s.fld F.TIME_REF_STATUS_LOCKED * 2 ^ 17),
        s.reg (R.CAL_REF_ID 0), s.reg (R.CAL_REF_ID 1), s.reg (R.CAL_REF_ID 2)] } ∧
    idle t ∧ told t 0xC0 0 e (nowWord e) ∧ frame t) ∧
  ((∀ e g, s.cal.running = some e → s.cal.goal = some g → s.calNow e.item e.unit ≠ g) → still .calDone) ∧
  (let short : CalEntry → Prop := fun e => s.cal.running = some e ∧ s.cal.goal = none ∧ e.item = calGate ∧ s.cal.reports.1 < 256
   (∀ e, short e → Answers .gateTapTimeout s fun t => t.cal = { s.cal with running := none, goal := none } ∧ idle t ∧
     told t 0xC2 4 e (nowWord e) ∧ frame t) ∧
   ((∀ e, ¬ short e) → still .gateTapTimeout))

/-- The burnish: RUN starts the first slice that is not left out, in SERVICE with the job at rest, and is ended at once when every
one is; a slice that ends brings the next that is not left out, or the outcome, and the power-down of a shut-down; CANCEL ends the
run, before a RUN of the same write (R384, R406 to R410). -/
def Obligations.BurnishRuns : Prop :=
  ∀ s : State,
  let still : Instr → Prop := fun i => Answers i s fun t => t = s
  let frame : State → Prop := fun t => RegsWhere (fun pl => pl.blk = .burn) s t ∧ SameBut [.regs, .burn, .msix, .sb] s t
  let outcome := fun failed notRun : Nat => if failed ≠ 0 then 2 else if notRun = 0 then 1 else 3
  let shown : State → Nat → Nat → Prop := fun t failed notRun => t.fld F.BURN_RESULT_OUTCOME = outcome failed notRun ∧
    t.fld F.BURN_RESULT_FAILED = failed % 256 ∧ t.fld F.BURN_RESULT_NOT_RUN = notRun % 256 ∧
    t.fld F.BURN_RESULT_BURNISH_FAIL = (if failed ≠ 0 then 1 else s.fld F.BURN_RESULT_BURNISH_FAIL) ∧
    t.fld F.BURN_RESULT_FRESH = (if outcome failed notRun = 1 ∧ s.power.shutting = true then 1 else s.fld F.BURN_RESULT_FRESH)
  let isOver : State → Nat → Nat → Prop := fun t failed notRun => shown t failed notRun ∧ t.burn = Burn.idle ∧
    t.fld F.BURN_CTRL_BUSY = 0 ∧ t.fld F.BURN_CTRL_SLICE = 0 ∧
    (∀ key, s.Takes 256 (s.reg R.BURN_EVQ) 3 key → (t.stream key).words = (s.stream key).words ++
      packetWords ([w32 (0xD0 * 2 ^ 24 + outcome failed notRun), w32 failed, s.stitchLo].map PWord.clean)) ∧ frame t
  (∀ (src : Source) (v : Word), s.Reaches src R.BURN_CTRL →
    let may := s.pwrState = pwrService ∧ s.booted = true ∧ s.burn.left = none ∧ s.power.shutting = false ∧
      s.restartRefused 9 0 = false
    let first := (List.range s.sliceCount).find? fun n => !(State.sliceSkips { s with burn := Burn.idle } n)
    let plain := v.getLsbD 30 = false ∨ s.burn.left = none
    (plain → ¬ may → still (.burnRun src v)) ∧
    (∀ n, plain → may → first = some n → Answers (.burnRun src v) s fun t =>
      t.burn = ⟨some ((List.range s.sliceCount).drop n), 0, 0, n⟩ ∧ t.fld F.BURN_CTRL_BUSY = 1 ∧
      t.fld F.BURN_CTRL_SLICE = n ∧ (∀ m, m < n → getBits (t.reg (R.BURN_SLICE m)) 31 30 = 0) ∧ frame t) ∧
    (plain → may → first = none → Answers (.burnRun src v) s fun t => isOver t 0 s.sliceCount ∧
      ∀ m, m < s.sliceCount → getBits (t.reg (R.BURN_SLICE m)) 31 30 = 0) ∧
    (¬ plain → ∀ r, exec (.burnCancel src v) s = .next r → r.Reaches src R.BURN_CTRL →
      exec (.burnRun src v) s = exec (.burnRun src (v &&& 0xBFFFFFFF)) r) ∧
    (∀ l, s.burn.left = some l → Answers (.burnCancel src v) s fun t =>
      isOver t s.burn.failed (s.burn.notRun + l.length) ∧ ∀ m ∈ l, m < 190 → getBits (t.reg (R.BURN_SLICE m)) 31 30 = 0) ∧
    (s.burn.left = none → still (.burnCancel src v))) ∧
  (∀ pass, ((∀ n ns, s.burn.left ≠ some (n :: ns)) → still (.sliceDone pass)) ∧
    ∀ n ns, s.burn.left = some (n :: ns) →
    let failed := s.burn.failed + bitNat (!pass)
    let used := s.burn.used + sliceMicros n
    let skips := State.sliceSkips { s with burn := { s.burn with used := used } }
    let result : State → Prop := fun t => (n < 190 → getBits (t.reg (R.BURN_SLICE n)) 31 30 = if pass then 1 else 2) ∧
      (n ∉ ns → ∀ m ∈ ns.takeWhile skips, m < 190 → getBits (t.reg (R.BURN_SLICE m)) 31 30 = 0)
    (ns.dropWhile skips = [] → s.power.shutting = false → Answers (.sliceDone pass) s fun t =>
      isOver t failed (s.burn.notRun + ns.length) ∧ (n ∉ ns → result t)) ∧
    (ns.dropWhile skips = [] → s.power.shutting = true → s.Canon → s.coreUp = true → Answers (.sliceDone pass) s fun t =>
      shown t failed (s.burn.notRun + ns.length) ∧ t.pwrState = pwrStandby ∧ t.latched = s.latched ∧
      t.power = { s.power.cleared with seq := .waitDown 2 } ∧ (∀ k, (t.core k).table = []) ∧
      s.WasReset t 5 (R.PWR_STATE :: R.BURN_RESULT :: R.BURN_CTRL :: (n :: ns).map R.BURN_SLICE)) ∧
    (∀ m ms, ns.dropWhile skips = m :: ms → Answers (.sliceDone pass) s fun t =>
      t.burn = ⟨some (m :: ms), used, failed, s.burn.notRun + (ns.takeWhile skips).length⟩ ∧
      t.fld F.BURN_CTRL_SLICE = m % 256 ∧ t.fld F.BURN_CTRL_BUSY = s.fld F.BURN_CTRL_BUSY ∧ (n ∉ ns → result t) ∧
      RegsWhere (fun pl => pl.blk = .burn) s t ∧ SameBut [.regs, .burn] s t))

/-! ## Presence, secrets and the harness -/

/-- A guarded write, command or hand-over waits for presence, one at a time: the ceiling, the emission mask, the keeper window, the
calibration acceptances, the keys, the debug port and RESIGN; one that comes while another waits gets BUSY. Presence in time grants
it for the boundary, the window's end and CANCEL end it, and without one nothing ends (R208, R415 to R419, R422, R431). -/
def Obligations.Guards : Prop :=
  ∀ s : State,
  let idle := s.guardPending = false
  let still : Instr → Prop := fun i => Answers i s fun t => t = s
  let asked : State → Nat → Nat → Word → Prop := fun t op a v => t.sec = { s.sec with request := some ⟨op, a, v, s.tbAt 0 0⟩ } ∧
    t.fld F.SEC_GUARD_PENDING = 1 ∧ t.fld F.SEC_GUARD_OP = op ∧ t.fld F.SEC_GUARD_RESULT = 0 ∧
    t.fld F.SEC_GUARD_LEFT = s.fld F.SEC_KEEPER_SECONDS ∧ SameBut [.regs, .sec] s t
  let busy : State → Prop := fun t => t.fld F.SEC_GUARD_RESULT = 3 ∧ SameBut [.regs] s t
  let guard : State → Prop := fun t => RegsBut [R.SEC_GUARD] s t
  let told : State → Nat → Nat → Prop := fun t code op => ∀ key, s.Takes 256 (s.reg R.SEC_EVQ) 3 key →
    (t.stream key).words = (s.stream key).words ++
      packetWords ([w32 (code * 2 ^ 24 + op * 2 ^ 16), 0, s.stitchLo].map PWord.clean)
  let ends : State → Guarded → Nat → Prop := fun t q r => t.sec = { s.sec with request := none, granted := none } ∧
    t.fld F.SEC_GUARD_PENDING = 0 ∧ t.fld F.SEC_GUARD_RESULT = r ∧ t.fld F.SEC_GUARD_LEFT = 0 ∧
    (∀ a ∈ [R.SEC_KEY_CMD, R.CAL_CMD, R.SEC_DEBUG], t.reg a = if q.addr = a then s.reg a &&& 0x7FFFFFFF else s.reg a) ∧
    RegsBut [R.SEC_GUARD, R.SEC_KEY_CMD, R.CAL_CMD, R.SEC_DEBUG] s t
  (∀ (src : Source) (k : Nat) (v : Word), k < 32 → s.Reaches src (R.REIN_CEILING k) →
    (idle → Answers (.powerCeiling src k v) s fun t => asked t 1 (R.REIN_CEILING k) v ∧ guard t) ∧
    (¬ idle → Answers (.powerCeiling src k v) s fun t => busy t ∧ guard t)) ∧
  (∀ (src : Source) (a op : Nat) (v : Word), guardedOp a = some op → a < 2 ^ 32 → a ≠ R.SEC_KEEPER → s.Reaches src a →
    (idle → Answers (.guardedRequest src (w32 a) v) s fun t => asked t op a v ∧ guard t) ∧
    (¬ idle → Answers (.guardedRequest src (w32 a) v) s fun t => busy t ∧ guard t)) ∧
  (∀ (src : Source) (v : Word), s.Reaches src R.SEC_KEEPER →
    let i := Instr.guardedRequest src (w32 R.SEC_KEEPER) v
    let n := getBits v 15 0
    (5 ≤ n → n ≤ 600 → idle → Answers i s fun t => asked t 4 R.SEC_KEEPER v ∧ guard t) ∧
    (5 ≤ n → n ≤ 600 → ¬ idle → Answers i s fun t => busy t ∧ guard t) ∧
    (n < 5 ∨ 600 < n → Answers i s fun t => t.sec = s.sec ∧
      (s.fld F.SYS_ACC_INFO_VALID = 0 → t.fld F.SYS_ACC_INFO_CODE = 3 ∧ t.reg R.SYS_ACC_ADDR_LO = w32 R.SEC_KEEPER) ∧
      RegsBut AccRegs s t ∧ SameBut [.regs, .msix, .sb] s t)) ∧
  (∀ (src : Source) (v : Word), s.Reaches src R.SEC_DEBUG →
    ∀ p ∈ [(Instr.debugUnlock src, 0x80000000), (.guardedRequest src (w32 R.SEC_DEBUG) v, v ||| 0x80000000)],
    (idle → Answers p.1 s fun t => asked t 7 R.SEC_DEBUG p.2 ∧ t.fld F.SEC_DEBUG_UNLOCK = 1 ∧
      RegsBut [R.SEC_GUARD, R.SEC_DEBUG] s t) ∧
    (¬ idle → Answers p.1 s fun t => busy t ∧ guard t)) ∧
  (∀ (src : Source) (v : Word), s.Reaches src R.HARN_CMD →
    let may := s.harnState = harnLead ∧ s.harn.peerTracks = true
    ∀ i ∈ [Instr.resign src, .guardedRequest src (w32 R.HARN_CMD) v],
    (may → idle → Answers i s fun t => asked t 6 R.HARN_CMD 1 ∧ t.fld F.HARN_STATUS_RESULT = 0 ∧
      RegsBut [R.SEC_GUARD, R.HARN_STATUS] s t) ∧
    (may → ¬ idle → Answers i s fun t => busy t ∧ t.fld F.HARN_STATUS_RESULT = 0 ∧ RegsBut [R.SEC_GUARD, R.HARN_STATUS] s t) ∧
    (¬ may → Answers i s fun t => t.fld F.HARN_STATUS_RESULT = 1 ∧ RegsBut [R.HARN_STATUS] s t ∧ SameBut [.regs] s t)) ∧
  (∀ (src : Source) (v : Word), s.Reaches src R.CAL_CMD →
    let w := (v &&& 0x300F003F) ||| 0x90000000
    getBits w 29 28 = 1 → idle → Answers (.guardedRequest src (w32 R.CAL_CMD) v) s fun t =>
      asked t 5 R.CAL_CMD (v ||| 0x90000000) ∧ t.reg R.CAL_CMD = w ∧ RegsBut [R.SEC_GUARD, R.CAL_CMD] s t) ∧
  (∀ press,
    let on : State → Prop := fun t => t.fld F.SEC_STATE_PRESENT = 1 ∧ RegsBut [R.SEC_STATE] s t
    let seen := ∃ q, s.sec.request = some q ∧ s.guardElapsed q < s.fld F.SEC_KEEPER_SECONDS ∧ press = true
    (∀ q, s.sec.request = some q → s.guardElapsed q < s.fld F.SEC_KEEPER_SECONDS → press = true →
      Answers (.presenceQualified press) s fun t => on t ∧ t.sec = { s.sec with request := none, granted := some q } ∧
        SameBut [.regs, .sec] s t) ∧
    (¬ seen → Answers (.presenceQualified press) s fun t => on t ∧ SameBut [.regs] s t)) ∧
  (∀ q, s.sec.request = some q →
    (s.fld F.SEC_KEEPER_SECONDS ≤ s.guardElapsed q → Answers .presenceTimeout s fun t => ends t q 2 ∧ told t 0xE1 q.op ∧
      SameBut [.regs, .sec, .msix, .sb] s t) ∧
    (s.guardElapsed q < s.fld F.SEC_KEEPER_SECONDS → still .presenceTimeout) ∧
    Answers .guardCancel s fun t => ends t q 4 ∧ SameBut [.regs, .sec] s t) ∧
  (s.sec.request = none → still .presenceTimeout ∧ still .guardCancel) ∧
  (∀ q, s.sec.granted = some q →
    let t := s.grantBoundary
    t.sec.request = none ∧ t.sec.granted = none ∧ t.fld F.SEC_GUARD_PENDING = 0 ∧
    (q.op ≠ 4 ∨ q.addr = R.SEC_KEEPER → t.fld F.SEC_GUARD_RESULT = 1) ∧
    (q.op ≠ 7 → told t 0xE0 q.op) ∧
    (∀ k, q.op = 1 → q.addr = R.REIN_CEILING k → (t.rein k).ceilDue = some (getBits q.val 19 0) ∧ ButAt State.rein k s t) ∧
    (q.op = 2 → t.reg R.SEC_EMIT_MASK = q.val &&& w32 (2 ^ s.part.row.lasers - 1)) ∧
    (q.op = 3 → t.fld F.SEC_BOOT_PREF = s.imageSlot % 4) ∧
    (q.op = 4 → q.addr = R.SEC_KEEPER → t.fld F.SEC_KEEPER_SECONDS = getBits q.val 15 0) ∧
    (q.op = 5 → guardedOp q.addr = some 5 → t.reg q.addr = q.val) ∧
    (q.op = 6 → t.harn = { s.harn with resigning := some (s.now + 1) }) ∧
    (q.op = 7 → t.fld F.SEC_DEBUG_OPEN = 1 ∧ t.fld F.SEC_STATE_DEBUG_OPEN = 1 ∧ t.fld F.SEC_STATE_VALID = 0 ∧
      t.sec.secrets = List.replicate 8 (List.replicate 8 0)))

/-- A command of SEC_KEY_CMD, by its row or by GUARDED_REQUEST: BUSY while one waits, REFUSED for a LOAD with the debug port open, a
RESEAL with the seal loop open, no operation and an HMAC with no secret or no buffer; HMAC answers at once, with the model's SHA-384
over the words as their checks deliver them, and every other one waits for presence; what a granted one does to a secret, its VALID
bit, the seal, the revoked keys and the least version (R415, R419, R420). -/
def Obligations.Keys : Prop :=
  ∀ s : State,
  let idle := s.guardPending = false
  let cmd := R.SEC_KEY_CMD
  (∀ (src : Source) (v : Word), s.Reaches src cmd →
    let idx := getBits v 10 8
    let loop : Instr → Nat := fun i => match i with
      | .reseal _ _ closed => if closed then 0 else 1
      | _ => s.fld F.SEC_STATE_LOOP_OPEN
    let rows := [(Instr.keyLoad src v, 1, keyWord 1 v), (Instr.erase src v, 2, keyWord 2 v), (Instr.reseal src v true, 3, keyWord 3 v),
      (Instr.reseal src v false, 3, keyWord 3 v), (Instr.revoke src v, 4, keyWord 4 v), (Instr.minVer src v, 5, keyWord 5 v),
      (Instr.hmac src v, 6, keyWord 6 v), (Instr.guardedRequest src (w32 cmd) v, getBits v 30 28, v ||| 0x80000000)]
    let turned : Instr → Nat → Prop := fun i r => Answers i s fun t => t.fld F.SEC_KEY_CMD_RESULT = r ∧
      t.fld F.SEC_KEY_CMD_START = s.fld F.SEC_KEY_CMD_START ∧ t.fld F.SEC_STATE_LOOP_OPEN = loop i ∧
      RegsBut [cmd, R.SEC_GUARD, R.SEC_STATE] s t ∧ SameBut [.regs] s t
    ∀ p ∈ rows,
    let i := p.1
    let op := p.2.1
    let bars := op = 0 ∨ op = 7 ∨ (op = 1 ∧ s.fld F.SEC_DEBUG_OPEN = 1) ∨ (op = 3 ∧ loop i = 1)
    let free := s.fld F.SEC_KEY_CMD_START = 0
    (¬ free → turned i 1) ∧
    (free → bars → turned i 2) ∧
    (free → ¬ bars → op ≠ 6 → idle → Answers i s fun t =>
      t.sec = { s.sec with request := some ⟨4, cmd, p.2.2, s.tbAt 0 0⟩ } ∧ t.fld F.SEC_GUARD_PENDING = 1 ∧
      t.fld F.SEC_GUARD_OP = 4 ∧ t.fld F.SEC_GUARD_RESULT = 0 ∧ t.fld F.SEC_GUARD_LEFT = s.fld F.SEC_KEEPER_SECONDS ∧
      t.fld F.SEC_KEY_CMD_START = 1 ∧ t.fld F.SEC_KEY_CMD_OP = op ∧ t.fld F.SEC_KEY_CMD_INDEX = idx ∧
      t.fld F.SEC_STATE_LOOP_OPEN = loop i ∧ RegsBut [R.SEC_GUARD, cmd, R.SEC_STATE] s t ∧ SameBut [.regs, .sec] s t) ∧
    (free → ¬ bars → op ≠ 6 → ¬ idle → turned i 1 ∧ Answers i s fun t => t.fld F.SEC_GUARD_RESULT = 3) ∧
    (free → op = 6 → s.hmacWords idx (s.reg R.SEC_KEY_ARG) = none → turned i 2) ∧
    (free → op = 6 → ∀ ws, s.hmacWords idx (s.reg R.SEC_KEY_ARG) = some ws → Answers i s fun t =>
      t.fld F.SEC_KEY_CMD_RESULT = 0 ∧ t.fld F.SEC_KEY_CMD_START = 0 ∧
      (∀ j, j < 12 → ws.length = 12 → t.reg (R.SEC_MAC j) = ws.getD j 0) ∧ t.sec = s.sec ∧
      SameBut [.regs, .msix, .sb, .repeatAge, .hide] s t)) ∧
  (∀ v : Word,
    let idx := getBits v 10 8
    let arg := (s.reg R.SEC_KEY_ARG).toNat
    let refuses : State × Nat → Prop := fun t => t.2 = 2 ∧ t.1 = s
    let secret : State × Nat → List Word → Bool → Prop := fun t ws valid =>
      t.2 = 0 ∧ t.1.sec.secrets = s.sec.secrets.set idx ws ∧ natBit (t.1.fld F.SEC_STATE_VALID) idx = valid ∧
      (∀ j, j < 8 → j ≠ idx → natBit (t.1.fld F.SEC_STATE_VALID) j = natBit (s.fld F.SEC_STATE_VALID) j) ∧
      RegsBut [R.SEC_STATE] s t.1 ∧ SameBut [.regs, .sec] s t.1
    (s.fld F.SEC_DEBUG_OPEN = 1 → refuses (s.keyOp (keyWord 1 v))) ∧
    (s.fld F.SEC_DEBUG_OPEN = 0 → secret (s.keyOp (keyWord 1 v)) s.sec.stage true ∧
      (s.keyOp (keyWord 1 v)).1.sec.stage = List.replicate 8 0) ∧
    secret (s.keyOp (keyWord 2 v)) (List.replicate 8 0) false ∧ (s.keyOp (keyWord 2 v)).1.sec.stage = s.sec.stage ∧
    (s.fld F.SEC_STATE_LOOP_OPEN = 1 → refuses (s.keyOp (keyWord 3 v))) ∧
    (s.fld F.SEC_STATE_LOOP_OPEN = 0 → let t := s.keyOp (keyWord 3 v)
      t.2 = 0 ∧ t.1.fld F.SEC_STATE_SEAL_OPENED = 0 ∧ RegsBut [R.SEC_STATE] s t.1 ∧ SameBut [.regs] s t.1) ∧
    (4 ≤ idx → refuses (s.keyOp (keyWord 4 v))) ∧
    (idx < 4 → let t := s.keyOp (keyWord 4 v)
      t.2 = 0 ∧ t.1.fld F.SEC_BOOT_REVOKED = s.fld F.SEC_BOOT_REVOKED ||| 2 ^ idx ∧ RegsBut [R.SEC_BOOT] s t.1 ∧
      SameBut [.regs] s t.1) ∧
    (2 ^ 16 ≤ arg → refuses (s.keyOp (keyWord 5 v))) ∧
    (arg < 2 ^ 16 → let t := s.keyOp (keyWord 5 v)
      t.2 = 0 ∧ t.1.fld F.SEC_BOOT_MIN_VER = max arg (s.fld F.SEC_BOOT_MIN_VER) ∧ RegsBut [R.SEC_BOOT] s t.1 ∧
      SameBut [.regs] s t.1))

/-- Images, the parameter store, the seal, the interlocks and the debug port: a command that runs keeps its port, a PROGRAM puts
its chunk into the slot that did not boot, a COMMIT that passes asks for presence, a word of the store becomes durable, an open
seal erases the secrets, an interlock drops every emission enable, and a closed port answers only what it may; what boundary scan
shifts out is free (R413, R414, R420 to R423, R434). -/
def Obligations.StoresAndInterlocks : Prop :=
  ∀ s : State,
  let idle := s.guardPending = false
  let still : Instr → Prop := fun i => Answers i s fun t => t = s
  let ran : State → Prop := fun t => t.sec.imgJob = none ∧ t.fld F.SEC_IMG_CMD_START = 0
  let told : State → Nat → Nat → Prop := fun t code low => ∀ key, s.Takes 256 (s.reg R.SEC_EVQ) 3 key →
    (t.stream key).words = (s.stream key).words ++ packetWords ([w32 (code * 2 ^ 24 + low), 0, s.stitchLo].map PWord.clean)
  let late : State → Nat → Prop := fun t a =>
    (s.fld F.SYS_ACC_INFO_VALID = 0 → t.fld F.SYS_ACC_INFO_CODE = 3 ∧ t.reg R.SYS_ACC_ADDR_LO = w32 a) ∧
    RegsBut AccRegs s t ∧ SameBut [.regs, .msix, .sb] s t
  (∀ (src : Source) (v : Word), s.Reaches src R.SEC_IMG_CMD →
    let chunk := getBits v 15 0
    let frame : State → Prop := fun t => RegsBut [R.SEC_IMG_CMD] s t ∧ SameBut [.regs, .sec] s t
    let asks := Instr.guardedRequest src (w32 R.SEC_IMG_CMD) v
    let op := getBits v 30 29
    let rows := [(Instr.program src v, 1), (.imgCommit src v, 2), (asks, op)]
    (s.fld F.SEC_IMG_CMD_START = 0 →
      (∀ p ∈ rows, p.2 = 1 → chunk < 256 → Answers p.1 s fun t => t.sec = { s.sec with imgJob := some (1, chunk) } ∧
        t.fld F.SEC_IMG_CMD_START = 1 ∧ t.fld F.SEC_IMG_CMD_OP = 1 ∧ t.fld F.SEC_IMG_CMD_OFS = chunk ∧ frame t) ∧
      (∀ p ∈ rows, p.2 = 1 → 256 ≤ chunk → Answers p.1 s fun t => t.fld F.SEC_IMG_CMD_RESULT = 1 ∧
        t.fld F.SEC_IMG_CMD_START = 0 ∧ t.sec = s.sec ∧ frame t) ∧
      (∀ p ∈ rows, p.2 = 2 → Answers p.1 s fun t => t.sec = { s.sec with imgJob := some (2, 0) } ∧
        t.fld F.SEC_IMG_CMD_START = 1 ∧ t.fld F.SEC_IMG_CMD_OP = 2 ∧ frame t) ∧
      (op = 0 ∨ op = 3 → Answers asks s fun t => t.fld F.SEC_IMG_CMD_RESULT = 2 ∧ t.fld F.SEC_IMG_CMD_START = 0 ∧
        t.sec = s.sec ∧ frame t)) ∧
    (s.fld F.SEC_IMG_CMD_START = 1 → ∀ i ∈ [Instr.program src v, .imgCommit src v, asks], Answers i s fun t =>
      late t R.SEC_IMG_CMD)) ∧
  (s.sec.imgJob = none → ∀ hdr, still (.imgCmdDone hdr)) ∧
  (∀ op chunk hdr, s.sec.imgJob = some (op, chunk) →
    let i := Instr.imgCmdDone hdr
    let frame : State → Prop := fun t => RegsBut [R.SEC_IMG_CMD, R.SEC_GUARD] s t ∧ SameBut [.regs, .sec] s t
    let pass := hdr.magic = 0xB9B01A6E ∧ hdr.length ≤ 2 ^ 24 - 512 ∧ hdr.key < 4 ∧
      natBit (s.fld F.SEC_BOOT_REVOKED) hdr.key = false ∧ s.fld F.SEC_BOOT_MIN_VER ≤ hdr.version ∧ hdr.signed = true
    (op = 1 → Answers i s fun t => ran t ∧ t.fld F.SEC_IMG_CMD_RESULT = 0 ∧
      t.sec = { s.sec with imgJob := none, flash := t.sec.flash } ∧
      (∀ k, sget none t.sec.flash k =
        if k = s.imageSlot * 256 + chunk then some s.sec.imgBuf else sget none s.sec.flash k) ∧ frame t) ∧
    (op ≠ 1 → ¬ pass → Answers i s fun t => ran t ∧ t.fld F.SEC_IMG_CMD_RESULT = 2 ∧
      t.sec = { s.sec with imgJob := none } ∧ frame t) ∧
    (op ≠ 1 → pass → idle → Answers i s fun t => ran t ∧ t.fld F.SEC_IMG_CMD_RESULT = 0 ∧
      t.sec = { s.sec with imgJob := none, request := some ⟨3, R.SEC_IMG_CMD, 0, s.tbAt 0 0⟩ } ∧
      t.fld F.SEC_GUARD_PENDING = 1 ∧ t.fld F.SEC_GUARD_OP = 3 ∧ frame t) ∧
    (op ≠ 1 → pass → ¬ idle → Answers i s fun t => ran t ∧ t.fld F.SEC_IMG_CMD_RESULT = 3 ∧ t.fld F.SEC_GUARD_RESULT = 3 ∧
      t.sec = { s.sec with imgJob := none } ∧ frame t)) ∧
  (∀ (src : Source) (v : Word), s.Reaches src R.SEC_PSTORE_CMD →
    let i := (s.reg R.SEC_PSTORE_ADDR).toNat
    let frame : State → Prop := fun t => RegsBut [R.SEC_PSTORE_CMD] s t ∧ SameBut [.regs, .sec] s t
    (s.sec.storing = none → pstoreTakes i = true → Answers (.pstoreWrite src v) s fun t =>
      t.sec = { s.sec with storing := some (i, s.reg R.SEC_PSTORE_DATA) } ∧ t.fld F.SEC_PSTORE_CMD_WRITE = 1 ∧
      t.fld F.SEC_PSTORE_CMD_DONE = 0 ∧ t.fld F.SEC_PSTORE_CMD_RESULT = 0 ∧ frame t) ∧
    (s.sec.storing = none → pstoreTakes i = false → Answers (.pstoreWrite src v) s fun t => t.sec = s.sec ∧
      t.fld F.SEC_PSTORE_CMD_DONE = 0 ∧ t.fld F.SEC_PSTORE_CMD_RESULT = 1 ∧ frame t) ∧
    (s.sec.storing ≠ none → Answers (.pstoreWrite src v) s fun t => late t R.SEC_PSTORE_CMD)) ∧
  (s.sec.storing = none → still .pstoreDone) ∧
  (∀ i w, s.sec.storing = some (i, w) → Answers .pstoreDone s fun t =>
    t.sec = { s.sec with storing := none, wear := t.sec.wear, user := t.sec.user } ∧
    t.fld F.SEC_PSTORE_CMD_WRITE = 0 ∧ t.fld F.SEC_PSTORE_CMD_DONE = 1 ∧
    (i < 640 → sget 0xFFFFFFFF t.board i = w ∧ t.sec.user = s.sec.user) ∧
    (640 ≤ i → sget 0 t.sec.user i = w ∧ t.board = s.board) ∧
    (∀ j, sget 0 t.sec.wear j = if j = i then sget 0 s.sec.wear i + 1 else sget 0 s.sec.wear j) ∧
    (∀ j, j ≠ i → sget 0xFFFFFFFF t.board j = sget 0xFFFFFFFF s.board j ∧ sget 0 t.sec.user j = sget 0 s.sec.user j) ∧
    (sget 0 s.sec.wear i = 900000000 → told t 0xE7 0) ∧ (sget 0 s.sec.wear i ≠ 900000000 → t.sb = s.sb) ∧
    RegsBut [R.SEC_PSTORE_CMD] s t ∧ SameBut [.regs, .sec, .board, .msix, .sb] s t) ∧
  (Answers .sealOpened s fun t => t.sec = { s.sec with secrets := List.replicate 8 (List.replicate 8 0) } ∧
    t.fld F.SEC_STATE_VALID = 0 ∧ t.fld F.SEC_STATE_LOOP_OPEN = 1 ∧ t.fld F.SEC_STATE_SEAL_OPENED = 1 ∧ told t 0xE2 0 ∧
    RegsBut [R.SEC_STATE] s t ∧ SameBut [.regs, .sec, .msix, .sb] s t) ∧
  (∀ i tick,
    (2 ≤ i ∨ s.fld (ilkFld i) = 1 → still (.ilkActive ⟨i, tick⟩)) ∧ (2 ≤ i → still (.ilkReleased i)) ∧
    (i < 2 → s.fld (ilkFld i) = 0 → Answers (.ilkActive ⟨i, tick⟩) s fun t => t.fld (ilkFld i) = 1 ∧ t.emitEn = 0 ∧
      t.hide = { s.hide with emitCut := some (min tick (s.hide.emitCut.getD tick)) } ∧ t.sec = { s.sec with ilkClear := 0 } ∧
      t.fld (ilkFld (1 - i)) = s.fld (ilkFld (1 - i)) ∧ told t 0xE4 i ∧ RegsBut [R.SEC_STATE] s t ∧
      SameBut [.regs, .emitEn, .hide, .sec, .msix, .sb] s t) ∧
    (i < 2 → Answers (.ilkReleased i) s fun t => t.fld (ilkFld i) = 0 ∧ t.fld (ilkFld (1 - i)) = s.fld (ilkFld (1 - i)) ∧
      t.sec = { s.sec with ilkClear := 0 } ∧ RegsBut [R.SEC_STATE] s t ∧ SameBut [.regs, .sec] s t)) ∧
  (s.fld F.SEC_STATE_ILK_A ≠ s.fld F.SEC_STATE_ILK_B → Answers .ilkMismatch s fun t =>
    t.fld F.SEC_STATE_ILK_MISMATCH = 1 ∧ t.sec = { s.sec with ilkHold := true } ∧ told t 0xE5 0 ∧ RegsBut [R.SEC_STATE] s t ∧
    SameBut [.regs, .sec, .msix, .sb] s t) ∧
  (s.fld F.SEC_STATE_ILK_A = s.fld F.SEC_STATE_ILK_B → still .ilkMismatch) ∧
  (let shifts : DebugIr → Word → Prop := fun ir w => Answers (.debugInstruction ir) s fun t =>
     t.sec = { s.sec with jtag := w } ∧ SameBut [.sec] s t
   let free : DebugIr → Prop := fun ir => Answers (.debugInstruction ir) s fun t =>
     t.sec = { s.sec with jtag := s.free } ∧ t.fresh = s.fresh + 1 ∧ SameBut [.sec, .fresh] s t
   shifts .idcode Config.idcode ∧ shifts .bypass 0 ∧ free .sample ∧
   (s.fld F.SEC_DEBUG_OPEN = 0 → ∀ ir, ir ≠ .idcode → ir ≠ .bypass → ir ≠ .sample → still (.debugInstruction ir)) ∧
   (s.fld F.SEC_DEBUG_OPEN = 1 → free .extest ∧ (∀ c, free (.other c)) ∧
     (∀ a v, Answers (.debugInstruction (.regWrite a v)) s fun t => t = s.busWrite .device a.toNat v) ∧
     (∀ a, Answers (.debugInstruction (.regRead a)) s fun t =>
       t.sec.jtag = (s.busRead .device a.toNat).2 ∧ t.regs = (s.busRead .device a.toNat).1.regs) ∧
     ∀ v : Word, s.Reaches .device R.STCH_HOLD_LIMIT →
       (Answers (.debugInstruction (.regRead (w32 R.STCH_HOLD_LIMIT))) s fun t =>
         t.sec.jtag = s.reg R.STCH_HOLD_LIMIT &&& 0xFFFF ∧ SameBut [.regs, .sec] s t ∧ RegsBut [] s t) ∧
       Answers (.debugInstruction (.regWrite (w32 R.STCH_HOLD_LIMIT) v)) s fun t =>
         t.reg R.STCH_HOLD_LIMIT = ((s.reg R.STCH_HOLD_LIMIT &&& 0xFFFF0000) ||| (v &&& 0xFFFF)) ∧
         RegsBut [R.STCH_HOLD_LIMIT] s t ∧ SameBut [.regs] s t))

/-- The harness: its enable and end, the search for a lead, a join from its checks to TRACKING, the copies of the lead's state, at
once in COPY and at the next boundary in REPLICA, and the commands that end it; without the harness, and in the other states, each
changes nothing or answers BUSY (R422, R425, R427, R428, R432, R433). -/
def Obligations.HarnessJoin : Prop :=
  ∀ s : State,
  let still : Instr → Prop := fun i => Answers i s fun t => t = s
  let on := s.harnOn = true
  let st := s.harnState
  let res : State → Nat → Prop := fun t r => t.fld F.HARN_STATUS_RESULT = r
  let regs : State → Prop := fun t => RegsBut [R.HARN_STATUS] s t
  let told : State → Nat → Prop := fun t code => ∀ key, s.Takes 256 (s.reg R.HARN_EVQ) 3 key →
    (t.stream key).words = (s.stream key).words ++ packetWords ([w32 (code * 2 ^ 24), s.stitchLo, s.stitchLo].map PWord.clean)
  let left : Nat → Nat := fun n => min 0xFFFF (ceilDiv (mib (s.reg R.HARN_JOB_SIZE).toNat - n) (2 ^ 20))
  (∀ (src : Source) (v : Word), s.Reaches src R.HARN_CFG →
    let i := Instr.harnEnable src v
    let was := s.fld F.HARN_CFG_ENABLE = 1
    let joins : State → Prop := fun t => t.fld F.HARN_CFG_AUTO_JOIN = getBits v 30 30
    let cfgs := [R.HARN_CFG, R.HARN_STATUS, R.LANE_CFG 36, R.LANE_CFG 37, R.LANE_CFG 38, R.LANE_CFG 39]
    ((was ↔ v.msb = true) → Answers i s fun t => joins t ∧ t.fld F.HARN_CFG_ENABLE = s.fld F.HARN_CFG_ENABLE ∧
      RegsBut [R.HARN_CFG] s t ∧ SameBut [.regs] s t) ∧
    (¬ was → v.msb = true → s.shortMissLimit = true → Answers i s fun t => joins t ∧ res t 2 ∧
      t.fld F.HARN_CFG_ENABLE = 0 ∧ RegsBut [R.HARN_CFG, R.HARN_STATUS] s t ∧ SameBut [.regs] s t) ∧
    (¬ was → v.msb = true → s.shortMissLimit = false → Answers i s fun t => joins t ∧ res t 0 ∧
      t.fld F.HARN_CFG_ENABLE = 1 ∧ (∀ k, 36 ≤ k → k < 40 → t.fld (F.LANE_CFG_ENABLE k) = 1 ∧ (5, k) ∉ t.therm.stopped) ∧
      (∀ u : Nat × Nat, ¬ (u.1 = 5 ∧ 36 ≤ u.2 ∧ u.2 < 40) → (u ∈ t.therm.stopped ↔ u ∈ s.therm.stopped)) ∧
      RegsBut cfgs s t ∧ SameBut [.regs, .therm] s t) ∧
    (was → v.msb = false → Answers i s fun t => joins t ∧ t.harnState = harnSolo ∧
      t.fld F.HARN_CFG_ENABLE = 0 ∧ t.harn = { Harn.atReset with beat := s.harn.beat } ∧
      (∀ k, 36 ≤ k → k < 40 → t.fld (F.LANE_CFG_ENABLE k) = 0 ∧
        t.lane k = (if s.fld (F.LANE_CFG_ENABLE k) = 1 then { s.lane k with drop := true } else s.lane k)) ∧
      (∀ k, k < 36 ∨ 40 ≤ k → t.lane k = s.lane k) ∧ RegsBut cfgs s t ∧ SameBut [.regs, .lanes, .harn] s t)) ∧
  (let alone := on ∧ st = harnSolo ∧ s.harnLanes = 15 ∧ s.harn.peer = false
   (alone → Answers .leadSearch s fun t => t.harnState = harnLead ∧ res t 0 ∧ regs t ∧ SameBut [.regs] s t) ∧
   (¬ alone → still .leadSearch)) ∧
  (∀ check,
    let i := Instr.join check
    let from_ := st = harnSolo ∨ st = harnJoining
    let bars := s.fld F.SEC_STATE_SEAL_OPENED = 1 ∨ s.fld F.SEC_DEBUG_OPEN = 1 ∨ natBit (s.fld F.SEC_STATE_VALID) 0 = false
    let fails : Nat → Prop := fun r => Answers i s fun t => t.harnState = harnSolo ∧ res t r ∧ t.harn = s.harn ∧
      told t 0xF6 ∧ regs t ∧ SameBut [.regs, .msix, .sb] s t
    (¬ on → still i) ∧
    (on → ¬ from_ → Answers i s fun t => res t 1 ∧ t.harnState = st ∧ regs t ∧ SameBut [.regs] s t) ∧
    (on → from_ → s.harn.peer = false → fails 5) ∧
    (on → from_ → s.harn.peer = true → bars → fails 3) ∧
    (on → from_ → s.harn.peer = true → ¬ bars → check ≠ 0 → fails (check % 8)) ∧
    (on → from_ → s.harn.peer = true → ¬ bars → check = 0 → Answers i s fun t => t.harnState = harnCopy ∧ res t 0 ∧
      t.fld F.HARN_STATUS_COPY_LEFT = left 0 ∧ t.harn = { s.harn with copied := 0, good := 0, missed := 0, lost := 0 } ∧
      regs t ∧ SameBut [.regs, .harn] s t)) ∧
  (¬ (on ∧ (st = harnCopy ∨ st = harnReplica)) → ∀ d, still (.copyFlit d)) ∧
  (on → st = harnReplica → ∀ d, Answers (.copyFlit d) s fun t =>
    t.harn = { s.harn with changes := s.harn.changes ++ [d] } ∧ SameBut [.harn] s t) ∧
  (on → st = harnCopy →
    (∀ addr val, Answers (.copyFlit (.reg addr val)) s fun t => t.reg addr.toNat = val ∧
      (∀ a, a ≠ addr.toNat → t.reg a = s.reg a) ∧ SameBut [.regs] s t) ∧
    (∀ n, Answers (.copyFlit (.stitch n)) s fun t => t.stitch = n ∧ SameBut [.stitch] s t) ∧
    (∀ off bytes,
      let took : State → Prop := fun t => t.harn = { s.harn with copied := s.harn.copied + 64 } ∧
        t.fld F.HARN_STATUS_COPY_LEFT = left (s.harn.copied + 64) ∧ regs t
      (s.dmcOfBar4 off = none → Answers (.copyFlit (.line off bytes)) s fun t => took t ∧ SameBut [.regs, .harn] s t) ∧
      (∀ c o, s.dmcOfBar4 off = some (c, o) → Answers (.copyFlit (.line off bytes)) s fun t =>
        took t ∧ t.bytesAt (dramAddr c o / 64 * 64) 64 = padTo 64 bytes ∧ t.lineBad (dramAddr c o) = false ∧
        (∀ a, a / 64 ≠ dramAddr c o / 64 → t.byteAt a = s.byteAt a ∧ t.lineBad a = s.lineBad a) ∧
        SameBut [.regs, .mem, .badLines, .harn] s t)) ∧
    (∀ h fill, Answers (.copyFlit (.grid h fill)) s fun t => t.hide = { s.hide with grid := h, fill := fill } ∧
      SameBut [.hide] s t) ∧
    (∀ k data i w, Answers (.copyFlit (.local k data i w)) s fun t =>
      (∀ j, sget (PWord.clean 0) (t.core k).dmem j =
        if data = true ∧ j = i then w else sget (PWord.clean 0) (s.core k).dmem j) ∧
      (∀ j, sget (PWord.clean 0) (t.core k).imem j =
        if data = false ∧ j = i then w else sget (PWord.clean 0) (s.core k).imem j) ∧
      t.core k = { s.core k with dmem := (t.core k).dmem, imem := (t.core k).imem } ∧ ButAt State.core k s t ∧
      SameBut [.cores] s t) ∧
    (∀ k c m, Answers (.copyFlit (.context k c m)) s fun t => CtxsBut k c s t ∧ SameBut [.ctxs] s t ∧
      let x := t.ctx k c
      (∀ i, 1 ≤ i → i < 32 → sget 0 x.g i = m.g.getD (i - 1) 0) ∧ (∀ i, i < 8 → sget 0 x.v i = m.v.getD i 0) ∧
      x.p = m.p ∧ x.pc = m.pc &&& 0xFFFC ∧ x.stat = m.special.getD 2 0 ∧ x.epc = m.special.getD 4 0) ∧
    (∀ h cls size spill off w,
      let i := Instr.copyFlit (.stream h cls size spill off w)
      (handleKey h = none → still i) ∧
      ∀ key, handleKey h = some key →
        let there := (s.stream key).live = true ∧ (s.stream key).gen = getBits h 31 24
        (there → isQueue key = true → Answers i s fun t =>
          t.stream key = { s.stream key with words := (s.stream key).words ++ [⟨w, true⟩] } ∧ ButAt State.stream key s t ∧
          RegsBut [] s t ∧ SameBut [.regs, .sb] s t) ∧
        (there → isQueue key = false → s.isGrid key = false → Answers i s fun t =>
          t.stream key = { s.stream key with data := sset (PWord.clean 0) (s.stream key).data off w } ∧
          ButAt State.stream key s t ∧ SameBut [.sb] s t) ∧
        (¬ there → isQueue key = true → Answers i s fun t =>
          (t.stream key).live = true ∧ (t.stream key).gen = getBits h 31 24 ∧ (t.stream key).cls = cls ∧
          (t.stream key).size = size ∧ (t.stream key).words = [⟨w, true⟩] ∧ t.fresh = s.fresh + 1 ∧
          ButAt State.stream key s t ∧ RegsBut [R.SB_CLASS_USED cls] s t ∧ SameBut [.regs, .sb, .fresh] s t)) ∧
    Answers .copyDone s fun t => t.harnState = harnReplica ∧ t.fld F.HARN_STATUS_COPY_LEFT = 0 ∧
      t.harn = { s.harn with cut := some (s.now + 1), good := 0 } ∧ regs t ∧ SameBut [.regs, .harn] s t) ∧
  (¬ (on ∧ st = harnCopy) → still .copyDone) ∧
  (on → st = harnReplica → 64 ≤ s.harn.good → Answers .wheelReady s fun t => t.harnState = harnTracking ∧
    t.harn = s.harn ∧ told t 0xF5 ∧ regs t ∧ SameBut [.regs, .msix, .sb] s t) ∧
  (¬ (on ∧ st = harnReplica ∧ 64 ≤ s.harn.good) → still .wheelReady) ∧
  (¬ on → still .leave) ∧
  (on → (s.isWheel = true → Answers .leave s fun t => t.harnState = harnSolo ∧ res t 0 ∧ regs t ∧ SameBut [.regs] s t) ∧
    (s.isWheel = false → Answers .leave s fun t => t.harnState = st ∧ res t 1 ∧ regs t ∧ SameBut [.regs] s t)) ∧
  (∀ p d, (on ∧ s.isWheel = true → Answers (.forwardFlit p d) s fun t =>
      t.harn = { s.harn with forwards := s.harn.forwards ++ [forwarded p d] } ∧ SameBut [.harn] s t) ∧
    (¬ (on ∧ s.isWheel = true) → still (.forwardFlit p d)))

/-- Digests: a copy is sent with the beat, one that arrives waits for its due time, and there it is good, divergent, lost or
missed, which is counted, told and after three moves the device; the roles swap after RESIGN, and a wheel that has decided leads;
outside the states that take them nothing changes (R429 to R432). -/
def Obligations.Digests : Prop :=
  ∀ s : State,
  let still : Instr → Prop := fun i => Answers i s fun t => t = s
  let on := s.harnOn = true
  let st := s.harnState
  let joining := st = harnCopy ∨ st = harnReplica
  let up : State → Nat → Prop := fun t r => (t.reg r).toNat = min 0xFFFFFFFF ((s.reg r).toNat + 1)
  let told : State → Nat → Word → Prop := fun t w0 n => ∀ key, s.Takes 256 (s.reg R.HARN_EVQ) 3 key →
    (t.stream key).words = (s.stream key).words ++ packetWords ([w32 w0, n, s.stitchLo].map PWord.clean)
  (∀ c,
    let known := (s.harn.mine.head?.map fun e => e.1) = some s.stitchLo
    let mine : List (Word × BitVec 64) := if known then s.harn.mine else ((s.stitchLo, s.digest) :: s.harn.mine).take 2
    let d : BitVec 64 := (mine.head?.map fun e => e.2).getD 0
    (¬ on ∨ 4 ≤ c → still (.digestSend c)) ∧
    (on → c < 4 → Answers (.digestSend c) s fun t => t.harn = { s.harn with
        mine := mine, beat := !s.harn.beat
        sent := if s.laneState (36 + c) = laneReady then s.harn.sent.set c (flitOf (w32 (0xD * 2 ^ 28))
          [s.stitchLo, d.setWidth 32, (d >>> 32).setWidth 32, s.digestMarks c] false) else s.harn.sent } ∧
      SameBut [.harn] s t)) ∧
  (∀ c words,
    let marks := words.getD 3 0
    let i := Instr.digestFlit c words
    let l := s.lane (36 + c)
    let takes := on ∧ c < 4 ∧ s.laneState (36 + c) = laneReady
    (¬ takes → still i) ∧
    (takes → Answers i s fun t => t.harn = { s.harn with
        arrived := s.harn.arrived ++ [(c, words)], peer := s.harn.peer || marks.getLsbD 0
        peerTracks := marks.getLsbD 1, peerResigns := marks.getLsbD 2 } ∧
      t.lane (36 + c) = { l with lastAt := s.now, bad := 0 } ∧ ButAt State.lane (36 + c) s t ∧
      t.harnState = (if marks.getLsbD 0 = true ∧ st = harnSolo ∧ s.fld F.HARN_CFG_AUTO_JOIN = 1 then harnJoining else st) ∧
      RegsBut [R.HARN_STATUS] s t ∧ SameBut [.regs, .lanes, .harn] s t)) ∧
  (∀ c beat,
    let i := Instr.digestDue c beat
    let got := (takeCopy c s.harn.arrived).1
    let rest := (takeCopy c s.harn.arrived).2
    let same := fun ws : List Word => s.harn.mine.contains (ws.getD 0 0, (ws.getD 2 0 ++ ws.getD 1 0 : BitVec 64)) = true
    let counts := ∃ b, s.harn.cut = some b ∧ b < s.now
    let due : State → Prop := fun t => t.fld F.HARN_STATUS_PEER_BEAT = bitNat beat ∧ SameBut [.regs, .harn, .msix, .sb] s t
    let judges := on ∧ st ≠ harnSolo ∧ st ≠ harnJoining ∧ s.harn.decided = false
    let moves : State → Nat → Prop := fun t r =>
      t.harnState = (if st = harnTracking then harnUntracked else if joining then harnSolo else st) ∧
      (joining → t.fld F.HARN_STATUS_RESULT = r)
    (¬ judges → still i) ∧
    (judges → (∀ ws, got = some ws → same ws → Answers i s fun t => due t ∧ (∃ g, (counts → g = s.harn.good + 1) ∧
          (¬ counts → g = s.harn.good) ∧
          t.harn = { s.harn with arrived := rest, missed := 0, lost := 0, good := g, beatLost := !beat }) ∧
        (beat = false → s.harn.beatLost = false → told t (0xF7 * 2 ^ 24 + c % 4) (ws.getD 0 0)) ∧
        (beat = true ∨ s.harn.beatLost = true → t.sb = s.sb) ∧ t.harnState = st ∧ RegsBut [R.HARN_STATUS] s t) ∧
      (∀ ws, got = some ws → ¬ same ws → Answers i s fun t => due t ∧ up t R.HARN_DIVERGE_CNT ∧
        t.harn = { s.harn with arrived := rest, missed := 0, lost := 0, good := 0 } ∧ moves t 4 ∧
        (¬ joining → told t (0xF2 * 2 ^ 24 + c % 4) (ws.getD 0 0)) ∧ RegsBut [R.HARN_STATUS, R.HARN_DIVERGE_CNT] s t) ∧
      (got = none → beat = true → Answers i s fun t => due t ∧ up t R.HARN_LOST_CNT ∧
        t.harn = { s.harn with arrived := rest, missed := 0, lost := s.harn.lost + 1, good := 0, beatLost := false } ∧
        (s.harn.lost ≠ 2 → t.harnState = st ∧ t.sb = s.sb) ∧
        (s.harn.lost = 2 → moves t 5 ∧ (¬ joining → told t (0xF3 * 2 ^ 24 + c % 4) s.stitchLo)) ∧
        RegsBut [R.HARN_STATUS, R.HARN_LOST_CNT] s t) ∧
      (got = none → beat = false → Answers i s fun t => due t ∧ up t R.HARN_MISS_CNT ∧
        t.harn = { s.harn with
          arrived := rest, lost := 0, missed := s.harn.missed + 1, good := 0
          decided := s.harn.missed == 2 && st == harnTracking
          peerTracks := if s.harn.missed = 2 ∧ st = harnLead then false else s.harn.peerTracks } ∧
        (s.harn.missed ≠ 2 ∨ st = harnTracking → t.harnState = st ∧ t.sb = s.sb) ∧
        (s.harn.missed = 2 → st = harnLead → t.harnState = st ∧ told t (0xF4 * 2 ^ 24 + c % 4) s.stitchLo) ∧
        (s.harn.missed = 2 → st ≠ harnTracking → st ≠ harnLead → moves t 5 ∧
          (¬ joining → told t (0xF8 * 2 ^ 24 + c % 4) s.stitchLo)) ∧
        RegsBut [R.HARN_STATUS, R.HARN_MISS_CNT] s t))) ∧
  (let gives := st = harnLead ∧ ∃ q, s.harn.resigning = some q ∧ q < s.now
   let takes := st = harnTracking ∧ s.harn.peerResigns = true
   let frame : State → Prop := fun t => told t (0xF1 * 2 ^ 24) s.stitchLo ∧ RegsBut [R.HARN_STATUS] s t ∧
     SameBut [.regs, .harn, .msix, .sb] s t
   (gives → Answers .resigned s fun t => t.harnState = harnTracking ∧
     t.harn = { s.harn with resigning := none, missed := 0, lost := 0 } ∧ frame t) ∧
   (takes → Answers .resigned s fun t => t.harnState = harnLead ∧
     t.harn = { s.harn with peerResigns := false, peerTracks := true, missed := 0, lost := 0 } ∧ frame t) ∧
   (¬ gives → ¬ takes → still .resigned)) ∧
  (s.harn.decided = true → Answers .takeover s fun t => t.harnState = harnLead ∧
    t.harn = { s.harn with decided := false, peerTracks := false, missed := 0 } ∧ up t R.HARN_TAKEOVER_CNT ∧
    told t (0xF0 * 2 ^ 24) s.stitchLo ∧
    RegsBut [R.HARN_STATUS, R.HARN_TAKEOVER_CNT] s t ∧ SameBut [.regs, .harn, .msix, .sb] s t) ∧
  (s.harn.decided = false → still .takeover)
end

