-- ==== Sys2Proof/Laws/Sparse.lean ====
section
/-! SUPPORT. Laws of sparse tables: a read after a write, and the canonical form through every change. -/

namespace Sys2Proof.Machine

variable {α : Type}

/-- A key taken out reads as unlisted. -/
theorem sget_sdel_same (d : α) (m : Sparse α) (k : Nat) : sget d (sdel m k) k = d := by
  induction m with
  | nil => rfl
  | cons e m ih =>
    obtain ⟨k', v⟩ := e
    by_cases h : k = k'
    · subst h; simpa [sdel] using ih
    · simp [sdel, h, sget, ih]

/-- Taking out a key leaves every other key. -/
theorem sget_sdel_other (d : α) (m : Sparse α) {k j : Nat} (hj : j ≠ k) : sget d (sdel m k) j = sget d m j := by
  induction m with
  | nil => rfl
  | cons e m ih =>
    obtain ⟨k', v⟩ := e
    by_cases h : k = k'
    · subst h; simpa [sdel, sget, hj] using ih
    · by_cases h2 : j = k'
      · simp [sdel, h, sget, h2]
      · simp [sdel, h, sget, h2, ih]

/-- A key put in reads as its value. -/
theorem sget_sins_same (d : α) (m : Sparse α) (k : Nat) (v : α) : sget d (sins m k v) k = v := by
  induction m with
  | nil => simp [sins, sget]
  | cons e m ih =>
    obtain ⟨k', w⟩ := e
    unfold sins
    split
    · simp [sget]
    · split
      · simp [sget]
      · rename_i h1 h2
        simp [sget, h2, ih]

/-- Putting in a key leaves every other key. -/
theorem sget_sins_other (d : α) (m : Sparse α) {k j : Nat} (v : α) (hj : j ≠ k) : sget d (sins m k v) j = sget d m j := by
  induction m with
  | nil => simp [sins, sget, hj]
  | cons e m ih =>
    obtain ⟨k', w⟩ := e
    unfold sins
    split
    · simp [sget, hj]
    · split
      · rename_i h1 h2
        subst h2
        simp [sget, hj]
      · simp [sget, ih]

variable [DecidableEq α]

/-- A read of the key written. -/
@[simp] theorem sget_sset_same (d : α) (m : Sparse α) (k : Nat) (v : α) : sget d (sset d m k v) k = v := by
  unfold sset
  split
  · rename_i h; rw [sget_sdel_same, h]
  · exact sget_sins_same d m k v

/-- A read of another key. -/
theorem sget_sset_other (d d' : α) (m : Sparse α) {k j : Nat} (v : α) (hj : j ≠ k) :
    sget d' (sset d m k v) j = sget d' m j := by
  unfold sset
  split
  · exact sget_sdel_other d' m hj
  · exact sget_sins_other d' m v hj

/-- A read after a write. -/
theorem sget_sset (d : α) (m : Sparse α) (k j : Nat) (v : α) :
    sget d (sset d m k v) j = if j = k then v else sget d m j := by
  split
  · rename_i h; subst h; exact sget_sset_same d m j v
  · rename_i h; exact sget_sset_other d d m v h

/-! ## The canonical form -/

omit [DecidableEq α] in
/-- Keys above a bound are above a lower one. -/
theorem keysAbove_mono {a b : Nat} (h : a ≤ b) {m : Sparse α} (hm : keysAbove b m = true) : keysAbove a m = true := by
  simp only [keysAbove, List.all_eq_true, decide_eq_true_eq] at hm ⊢
  intro e he
  exact Nat.lt_of_le_of_lt h (hm e he)

omit [DecidableEq α] in
/-- A table whose keys are above `k` keeps them so when a key is taken out. -/
theorem keysAbove_sdel {a : Nat} {m : Sparse α} (hm : keysAbove a m = true) (k : Nat) : keysAbove a (sdel m k) = true := by
  induction m with
  | nil => rfl
  | cons e m ih =>
    obtain ⟨k', v⟩ := e
    simp only [keysAbove, List.all_cons, Bool.and_eq_true, decide_eq_true_eq] at hm
    unfold sdel
    split
    · exact ih hm.2
    · simp only [keysAbove, List.all_cons, Bool.and_eq_true, decide_eq_true_eq]
      exact ⟨hm.1, ih hm.2⟩

omit [DecidableEq α] in
/-- The same when a key above `k` is put in. -/
theorem keysAbove_sins {a k : Nat} {m : Sparse α} (hm : keysAbove a m = true) (hk : a < k) (v : α) :
    keysAbove a (sins m k v) = true := by
  induction m with
  | nil => simp [sins, keysAbove, hk]
  | cons e m ih =>
    obtain ⟨k', w⟩ := e
    have hm2 := hm
    simp only [keysAbove, List.all_cons, Bool.and_eq_true, decide_eq_true_eq] at hm2
    unfold sins
    split
    · simp only [keysAbove, List.all_cons, Bool.and_eq_true, decide_eq_true_eq]
      exact ⟨hk, hm2.1, hm2.2⟩
    · split
      · simp only [keysAbove, List.all_cons, Bool.and_eq_true, decide_eq_true_eq]
        exact ⟨hk, hm2.2⟩
      · simp only [keysAbove, List.all_cons, Bool.and_eq_true, decide_eq_true_eq]
        exact ⟨hm2.1, ih hm2.2⟩

/-- Taking out a key keeps the canonical form. -/
theorem swf_sdel {d : Nat → α} {m : Sparse α} (hm : swf d m = true) (k : Nat) : swf d (sdel m k) = true := by
  induction m with
  | nil => rfl
  | cons e m ih =>
    obtain ⟨k', v⟩ := e
    simp only [swf, Bool.and_eq_true, decide_eq_true_eq] at hm
    unfold sdel
    split
    · exact ih hm.2
    · simp only [swf, Bool.and_eq_true, decide_eq_true_eq]
      exact ⟨⟨hm.1.1, keysAbove_sdel hm.1.2 k⟩, ih hm.2⟩

/-- Putting in a value that the key does not read as unlisted keeps it. -/
theorem swf_sins {d : Nat → α} {m : Sparse α} (hm : swf d m = true) {k : Nat} {v : α} (hv : v ≠ d k) :
    swf d (sins m k v) = true := by
  induction m with
  | nil => simp [sins, swf, keysAbove, hv]
  | cons e m ih =>
    obtain ⟨k', w⟩ := e
    have hm2 := hm
    simp only [swf, Bool.and_eq_true, decide_eq_true_eq] at hm2
    unfold sins
    split
    · rename_i h
      simp only [swf, Bool.and_eq_true, decide_eq_true_eq]
      refine ⟨⟨hv, ?_⟩, hm2⟩
      simp only [keysAbove, List.all_cons, Bool.and_eq_true, decide_eq_true_eq]
      exact ⟨h, keysAbove_mono (Nat.le_of_lt h) hm2.1.2⟩
    · split
      · rename_i h1 h2
        subst h2
        simp only [swf, Bool.and_eq_true, decide_eq_true_eq]
        exact ⟨⟨hv, hm2.1.2⟩, hm2.2⟩
      · rename_i h1 h2
        simp only [swf, Bool.and_eq_true, decide_eq_true_eq]
        exact ⟨⟨hm2.1.1, keysAbove_sins hm2.1.2 (by omega) v⟩, ih hm2.2⟩

/-- A write keeps the canonical form. -/
theorem swf_sset {d : Nat → α} {m : Sparse α} (hm : swf d m = true) (k : Nat) (v : α) : swf d (sset (d k) m k v) = true := by
  unfold sset
  split
  · exact swf_sdel hm k
  · rename_i h; exact swf_sins hm h

/-- Entries picked out of a table keep it. -/
theorem swf_filterMap {β : Type} [DecidableEq β] {d : Nat → α} {d' : Nat → β} {m : Sparse α} (hm : swf d m = true)
    {f : Nat × α → Option (Nat × β)} (hk : ∀ e r, f e = some r → r.1 = e.1 ∧ r.2 ≠ d' r.1) :
    swf d' (m.filterMap f) = true := by
  induction m with
  | nil => rfl
  | cons e m ih =>
    have hm2 := hm
    obtain ⟨k, v⟩ := e
    simp only [swf, Bool.and_eq_true, decide_eq_true_eq] at hm2
    rw [List.filterMap_cons]
    split
    · exact ih hm2.2
    · rename_i r hr
      obtain ⟨h1, h2⟩ := hk _ _ hr
      obtain ⟨rk, rv⟩ := r
      simp only [swf, Bool.and_eq_true, decide_eq_true_eq]
      refine ⟨⟨h2, ?_⟩, ih hm2.2⟩
      have ha := hm2.1.2
      simp only [keysAbove, List.all_eq_true, decide_eq_true_eq] at ha ⊢
      intro x hx
      obtain ⟨y, hy, hy2⟩ := List.mem_filterMap.1 hx
      have := (hk _ _ hy2).1
      simp only at h1
      rw [h1, this]
      exact ha y hy

/-- Entries kept by a test keep it. -/
theorem swf_filter {d : Nat → α} {m : Sparse α} (hm : swf d m = true) (p : Nat × α → Bool) : swf d (m.filter p) = true := by
  induction m with
  | nil => rfl
  | cons e m ih =>
    obtain ⟨k, v⟩ := e
    simp only [swf, Bool.and_eq_true, decide_eq_true_eq] at hm
    rw [List.filter_cons]
    split
    · simp only [swf, Bool.and_eq_true, decide_eq_true_eq]
      refine ⟨⟨hm.1.1, ?_⟩, ih hm.2⟩
      have ha := hm.1.2
      simp only [keysAbove, List.all_eq_true, decide_eq_true_eq] at ha ⊢
      exact fun x hx => ha x (List.mem_filter.1 hx).1
    · exact ih hm.2

end Sys2Proof.Machine
end

