-- ==== Sys2Proof/Laws/Keeps.lean ====
section
/-! SUPPORT. Keeps: what an operation leaves. It changes only the pieces of the state that a mask names, not the part, and
it keeps every table in canonical form. The relation composes, so each operation's law follows from those of the operations it
is made of. -/

namespace Sys2Proof.Machine

/-- The state with the pieces that `m` names replaced by a fixed value. -/
def blank (m : Piece → Bool) (s : State) : State :=
  { part := if m .part then State.reset.part else s.part
    pending := if m .pending then State.reset.pending else s.pending
    stitch := if m .stitch then State.reset.stitch else s.stitch
    regs := if m .regs then State.reset.regs else s.regs
    staged := if m .staged then State.reset.staged else s.staged
    cmds := if m .cmds then State.reset.cmds else s.cmds
    holds := if m .holds then State.reset.holds else s.holds
    readData := if m .readData then State.reset.readData else s.readData
    resp := if m .resp then State.reset.resp else s.resp
    msix := if m .msix then State.reset.msix else s.msix
    fresh := if m .fresh then State.reset.fresh else s.fresh
    sb := if m .sb then State.reset.sb else s.sb
    cores := if m .cores then State.reset.cores else s.cores
    ctxs := if m .ctxs then State.reset.ctxs else s.ctxs
    wdog := if m .wdog then State.reset.wdog else s.wdog
    mem := if m .mem then State.reset.mem else s.mem
    badLines := if m .badLines then State.reset.badLines else s.badLines
    chans := if m .chans then State.reset.chans else s.chans
    repeatAge := if m .repeatAge then State.reset.repeatAge else s.repeatAge
    tclk := if m .tclk then State.reset.tclk else s.tclk
    emitEn := if m .emitEn then State.reset.emitEn else s.emitEn
    ain := if m .ain then State.reset.ain else s.ain
    spt := if m .spt then State.reset.spt else s.spt
    awls := if m .awls then State.reset.awls else s.awls
    reins := if m .reins then State.reset.reins else s.reins
    hide := if m .hide then State.reset.hide else s.hide
    tree := if m .tree then State.reset.tree else s.tree
    axes := if m .axes then State.reset.axes else s.axes
    skiver := if m .skiver then State.reset.skiver else s.skiver
    cams := if m .cams then State.reset.cams else s.cams
    bed := if m .bed then State.reset.bed else s.bed
    lanes := if m .lanes then State.reset.lanes else s.lanes
    board := if m .board then State.reset.board else s.board
    time := if m .time then State.reset.time else s.time
    segs := if m .segs then State.reset.segs else s.segs
    eths := if m .eths then State.reset.eths else s.eths
    lamp := if m .lamp then State.reset.lamp else s.lamp
    power := if m .power then State.reset.power else s.power
    therm := if m .therm then State.reset.therm else s.therm
    cal := if m .cal then State.reset.cal else s.cal
    burn := if m .burn then State.reset.burn else s.burn
    sec := if m .sec then State.reset.sec else s.sec
    harn := if m .harn then State.reset.harn else s.harn
    mark := if m .mark then State.reset.mark else s.mark }

/-- A piece that is blanked or the same. -/
theorem same_of_ite {α : Type} {c : Prop} [Decidable c] {d a b : α} (h : (if c then d else a) = if c then d else b) :
    c ∨ a = b := by
  by_cases hc : c
  · exact .inl hc
  · simp only [hc, if_false] at h
    exact .inr h

/-- What the equality of blanked states says of the pieces not blanked. -/
theorem sameBut_of_blank {ps : List Piece} {s t : State}
    (h : blank (fun p => decide (p ∈ ps)) t = blank (fun p => decide (p ∈ ps)) s) : SameBut ps s t := by
  simp only [blank, State.mk.injEq, decide_eq_true_eq] at h
  obtain ⟨h0, h1, h2, h3, h4, h5, h6, h7, h8, h9, h10, h11, h12, h13, h14, h15, h16, h17, h18, h19, h20, h21,
    h22, h23, h24, h25, h26, h27, h28, h29, h30, h31, h32, h33, h34, h35, h36, h37, h38, h39, h40, h41,
    h42, h43⟩ := h
  exact ⟨same_of_ite h0, same_of_ite h1, same_of_ite h2, same_of_ite h3, same_of_ite h4, same_of_ite h5,
    same_of_ite h6, same_of_ite h7, same_of_ite h8, same_of_ite h9, same_of_ite h10, same_of_ite h11,
    same_of_ite h12, same_of_ite h13, same_of_ite h14, same_of_ite h15, same_of_ite h16,
    same_of_ite h17, same_of_ite h18, same_of_ite h19, same_of_ite h20, same_of_ite h21,
    same_of_ite h22, same_of_ite h23, same_of_ite h24, same_of_ite h25, same_of_ite h26,
    same_of_ite h27, same_of_ite h28, same_of_ite h29, same_of_ite h30, same_of_ite h31,
    same_of_ite h32, same_of_ite h33, same_of_ite h34, same_of_ite h35, same_of_ite h36,
    same_of_ite h37, same_of_ite h38, same_of_ite h39, same_of_ite h40, same_of_ite h41,
    same_of_ite h42, same_of_ite h43⟩

/-- What an operation from `s` to `t` leaves: the pieces not in `m`, the part, the canonical form. -/
structure Keeps (m : Piece → Bool) (s t : State) : Prop where
  /-- The pieces not in the mask. -/
  frame : blank m t = blank m s
  /-- The part. -/
  part : t.part = s.part
  /-- The canonical form of every table. -/
  canon : s.Canon → t.Canon

/-- Nothing done keeps everything. -/
theorem Keeps.refl (m : Piece → Bool) (s : State) : Keeps m s s := ⟨rfl, rfl, id⟩

/-- One operation after another. -/
theorem Keeps.trans {m : Piece → Bool} {s t u : State} (h : Keeps m s t) (g : Keeps m t u) : Keeps m s u :=
  ⟨g.1.trans h.1, g.2.trans h.2, g.3 ∘ h.3⟩

/-- One operation before another. -/
theorem Keeps.after {m : Piece → Bool} {s t u : State} (g : Keeps m t u) (h : Keeps m s t) : Keeps m s u := h.trans g

/-- A frame in terms of the fields. -/
theorem Keeps.sameBut {ps : List Piece} {s t : State} (h : Keeps (fun p => decide (p ∈ ps)) s t) : SameBut ps s t :=
  sameBut_of_blank h.1

/-- A fold of steps each of which keeps its state. -/
theorem keeps_foldl {α : Type} {m : Piece → Bool} {g : State → α → State} (h : ∀ t k, Keeps m t (g t k)) (l : List α)
    (s : State) : Keeps m s (l.foldl g s) := by
  induction l generalizing s with
  | nil => exact Keeps.refl m s
  | cons a l ih => exact (h s a).trans (ih (g s a))

/-- A state that is named on the way. -/
theorem keeps_let {m : Piece → Bool} {s e : State} {f : State → State} (h : Keeps m s e)
    (g : ∀ t, Keeps m s t → Keeps m s (f t)) : Keeps m s (let t := e; f t) := g e h

/-- A pair that is named on the way. -/
theorem keeps_let_pair {β : Type} {m : Piece → Bool} {s : State} {e : State × β} {f : State × β → State}
    (h : Keeps m s e.1) (g : ∀ p : State × β, Keeps m s p.1 → Keeps m s (f p)) : Keeps m s (let p := e; f p) := g e h

/-- A value that is named on the way. -/
theorem keeps_let_any {α : Type} {m : Piece → Bool} {s : State} {e : α} {f : α → State}
    (g : ∀ x, Keeps m s (f x)) : Keeps m s (let x := e; f x) := g e

/-- Ain, spt replaced. -/
theorem keeps_ain_spt {m : Piece → Bool} (h_ain : m .ain = true) (h_spt : m .spt = true) {s : State} {x0 : List Nat} {x1 : List (List Nat)} :
    Keeps m s { s with ain := x0, spt := x1 } :=
  ⟨by simp only [blank, h_ain, h_spt, if_true], rfl, fun hc => { hc with }⟩

/-- awls replaced. -/
theorem keeps_awls {m : Piece → Bool} (h_awls : m .awls = true) {s : State} {x0 : Sparse Awl}
    (w0 : s.Canon → swf (fun _ => Awl.atReset) x0 = true) :
    Keeps m s { s with awls := x0 } :=
  ⟨by simp only [blank, h_awls, if_true], rfl, fun hc => { hc with awls := w0 hc }⟩

/-- axes replaced. -/
theorem keeps_axes {m : Piece → Bool} (h_axes : m .axes = true) {s : State} {x0 : Sparse Axis}
    (w0 : s.Canon → swf (fun _ => Axis.atReset) x0 = true) :
    Keeps m s { s with axes := x0 } :=
  ⟨by simp only [blank, h_axes, if_true], rfl, fun hc => { hc with axes := w0 hc }⟩

/-- badLines replaced. -/
theorem keeps_badLines {m : Piece → Bool} (h_badLines : m .badLines = true) {s : State} {x0 : Sparse Bool}
    (w0 : s.Canon → swf (fun _ => false) x0 = true) :
    Keeps m s { s with badLines := x0 } :=
  ⟨by simp only [blank, h_badLines, if_true], rfl, fun hc => { hc with badLines := w0 hc }⟩

/-- bed replaced. -/
theorem keeps_bed {m : Piece → Bool} (h_bed : m .bed = true) {s : State} {x0 : BedRun} :
    Keeps m s { s with bed := x0 } :=
  ⟨by simp only [blank, h_bed, if_true], rfl, fun hc => { hc with }⟩

/-- burn replaced. -/
theorem keeps_burn {m : Piece → Bool} (h_burn : m .burn = true) {s : State} {x0 : Burn} :
    Keeps m s { s with burn := x0 } :=
  ⟨by simp only [blank, h_burn, if_true], rfl, fun hc => { hc with }⟩

/-- cal replaced. -/
theorem keeps_cal {m : Piece → Bool} (h_cal : m .cal = true) {s : State} {x0 : Cal} :
    Keeps m s { s with cal := x0 } :=
  ⟨by simp only [blank, h_cal, if_true], rfl, fun hc => { hc with }⟩

/-- cams replaced. -/
theorem keeps_cams {m : Piece → Bool} (h_cams : m .cams = true) {s : State} {x0 : Sparse Cam}
    (w0 : s.Canon → swf (fun _ => Cam.atReset) x0 = true) :
    Keeps m s { s with cams := x0 } :=
  ⟨by simp only [blank, h_cams, if_true], rfl, fun hc => { hc with cams := w0 hc }⟩

/-- chans replaced. -/
theorem keeps_chans {m : Piece → Bool} (h_chans : m .chans = true) {s : State} {x0 : Sparse DmcChan}
    (w0 : s.Canon → swf (fun _ => DmcChan.off) x0 = true) :
    Keeps m s { s with chans := x0 } :=
  ⟨by simp only [blank, h_chans, if_true], rfl, fun hc => { hc with chans := w0 hc }⟩

/-- cmds replaced. -/
theorem keeps_cmds {m : Piece → Bool} (h_cmds : m .cmds = true) {s : State} {x0 : List (Nat × Word)} :
    Keeps m s { s with cmds := x0 } :=
  ⟨by simp only [blank, h_cmds, if_true], rfl, fun hc => { hc with }⟩

/-- Cmds, power replaced. -/
theorem keeps_cmds_power {m : Piece → Bool} (h_cmds : m .cmds = true) (h_power : m .power = true) {s : State} {x0 : List (Nat × Word)} {x1 : Power} :
    Keeps m s { s with cmds := x0, power := x1 } :=
  ⟨by simp only [blank, h_cmds, h_power, if_true], rfl, fun hc => { hc with }⟩

/-- cores replaced. -/
theorem keeps_cores {m : Piece → Bool} (h_cores : m .cores = true) {s : State} {x0 : Sparse Core}
    (w0 : s.Canon → swf (fun _ => Core.idle) x0 = true) :
    Keeps m s { s with cores := x0 } :=
  ⟨by simp only [blank, h_cores, if_true], rfl, fun hc => { hc with cores := w0 hc }⟩

/-- ctxs replaced. -/
theorem keeps_ctxs {m : Piece → Bool} (h_ctxs : m .ctxs = true) {s : State} {x0 : Sparse Ctx}
    (w0 : s.Canon → swf (fun _ => Ctx.atReset) x0 = true) :
    Keeps m s { s with ctxs := x0 } :=
  ⟨by simp only [blank, h_ctxs, if_true], rfl, fun hc => { hc with ctxs := w0 hc }⟩

/-- emitEn replaced. -/
theorem keeps_emitEn {m : Piece → Bool} (h_emitEn : m .emitEn = true) {s : State} {x0 : Word} :
    Keeps m s { s with emitEn := x0 } :=
  ⟨by simp only [blank, h_emitEn, if_true], rfl, fun hc => { hc with }⟩

/-- Emiten, mark replaced. -/
theorem keeps_emitEn_mark {m : Piece → Bool} (h_emitEn : m .emitEn = true) (h_mark : m .mark = true) {s : State} {x0 : Word} {x1 : Bool} :
    Keeps m s { s with emitEn := x0, mark := x1 } :=
  ⟨by simp only [blank, h_emitEn, h_mark, if_true], rfl, fun hc => { hc with }⟩

/-- fresh replaced. -/
theorem keeps_fresh {m : Piece → Bool} (h_fresh : m .fresh = true) {s : State} {x0 : Nat} :
    Keeps m s { s with fresh := x0 } :=
  ⟨by simp only [blank, h_fresh, if_true], rfl, fun hc => { hc with }⟩

/-- harn replaced. -/
theorem keeps_harn {m : Piece → Bool} (h_harn : m .harn = true) {s : State} {x0 : Harn} :
    Keeps m s { s with harn := x0 } :=
  ⟨by simp only [blank, h_harn, if_true], rfl, fun hc => { hc with }⟩

/-- hide replaced. -/
theorem keeps_hide {m : Piece → Bool} (h_hide : m .hide = true) {s : State} {x0 : Hide} :
    Keeps m s { s with hide := x0 } :=
  ⟨by simp only [blank, h_hide, if_true], rfl, fun hc => { hc with }⟩

/-- holds replaced. -/
theorem keeps_holds {m : Piece → Bool} (h_holds : m .holds = true) {s : State} {x0 : Sparse Nat}
    (w0 : s.Canon → swf (fun _ => 0) x0 = true) :
    Keeps m s { s with holds := x0 } :=
  ⟨by simp only [blank, h_holds, if_true], rfl, fun hc => { hc with holds := w0 hc }⟩

/-- lamp replaced. -/
theorem keeps_lamp {m : Piece → Bool} (h_lamp : m .lamp = true) {s : State} {x0 : Lamp} :
    Keeps m s { s with lamp := x0 } :=
  ⟨by simp only [blank, h_lamp, if_true], rfl, fun hc => { hc with }⟩

/-- lanes replaced. -/
theorem keeps_lanes {m : Piece → Bool} (h_lanes : m .lanes = true) {s : State} {x0 : Sparse Lane}
    (w0 : s.Canon → swf (fun _ => Lane.atReset) x0 = true) :
    Keeps m s { s with lanes := x0 } :=
  ⟨by simp only [blank, h_lanes, if_true], rfl, fun hc => { hc with lanes := w0 hc }⟩

/-- mem replaced. -/
theorem keeps_mem {m : Piece → Bool} (h_mem : m .mem = true) {s : State} {x0 : List Host.Cell}
    (w0 : s.Canon → swf (fun _ => 0) x0 = true) :
    Keeps m s { s with mem := x0 } :=
  ⟨by simp only [blank, h_mem, if_true], rfl, fun hc => { hc with mem := w0 hc }⟩

/-- Mem, badlines replaced. -/
theorem keeps_mem_badLines {m : Piece → Bool} (h_mem : m .mem = true) (h_badLines : m .badLines = true) {s : State} {x0 : List Host.Cell} {x1 : Sparse Bool}
    (w0 : s.Canon → swf (fun _ => 0) x0 = true)
    (w1 : s.Canon → swf (fun _ => false) x1 = true) :
    Keeps m s { s with mem := x0, badLines := x1 } :=
  ⟨by simp only [blank, h_mem, h_badLines, if_true], rfl, fun hc => { hc with mem := w0 hc, badLines := w1 hc }⟩

/-- msix replaced. -/
theorem keeps_msix {m : Piece → Bool} (h_msix : m .msix = true) {s : State} {x0 : List Nat} :
    Keeps m s { s with msix := x0 } :=
  ⟨by simp only [blank, h_msix, if_true], rfl, fun hc => { hc with }⟩

/-- power replaced. -/
theorem keeps_power {m : Piece → Bool} (h_power : m .power = true) {s : State} {x0 : Power} :
    Keeps m s { s with power := x0 } :=
  ⟨by simp only [blank, h_power, if_true], rfl, fun hc => { hc with }⟩

/-- readData replaced. -/
theorem keeps_readData {m : Piece → Bool} (h_readData : m .readData = true) {s : State} {x0 : Word} :
    Keeps m s { s with readData := x0 } :=
  ⟨by simp only [blank, h_readData, if_true], rfl, fun hc => { hc with }⟩

/-- Readdata, resp replaced. -/
theorem keeps_readData_resp {m : Piece → Bool} (h_readData : m .readData = true) (h_resp : m .resp = true) {s : State} {x0 : Word} {x1 : Resp} :
    Keeps m s { s with readData := x0, resp := x1 } :=
  ⟨by simp only [blank, h_readData, h_resp, if_true], rfl, fun hc => { hc with }⟩

/-- regs replaced. -/
theorem keeps_regs {m : Piece → Bool} (h_regs : m .regs = true) {s : State} {x0 : Sparse Word}
    (w0 : s.Canon → swf (resetWord s.part) x0 = true) :
    Keeps m s { s with regs := x0 } :=
  ⟨by simp only [blank, h_regs, if_true], rfl, fun hc => { hc with regs := w0 hc }⟩

/-- reins replaced. -/
theorem keeps_reins {m : Piece → Bool} (h_reins : m .reins = true) {s : State} {x0 : Sparse Rein}
    (w0 : s.Canon → swf (fun _ => Rein.atReset) x0 = true) :
    Keeps m s { s with reins := x0 } :=
  ⟨by simp only [blank, h_reins, if_true], rfl, fun hc => { hc with reins := w0 hc }⟩

/-- repeatAge replaced. -/
theorem keeps_repeatAge {m : Piece → Bool} (h_repeatAge : m .repeatAge = true) {s : State} {x0 : List (Nat × Nat)} :
    Keeps m s { s with repeatAge := x0 } :=
  ⟨by simp only [blank, h_repeatAge, if_true], rfl, fun hc => { hc with }⟩

/-- resp replaced. -/
theorem keeps_resp {m : Piece → Bool} (h_resp : m .resp = true) {s : State} {x0 : Resp} :
    Keeps m s { s with resp := x0 } :=
  ⟨by simp only [blank, h_resp, if_true], rfl, fun hc => { hc with }⟩

/-- sb replaced. -/
theorem keeps_sb {m : Piece → Bool} (h_sb : m .sb = true) {s : State} {x0 : Saddle}
    (w0 : s.Canon → swf (fun _ => Stream.never) x0.streams = true) :
    Keeps m s { s with sb := x0 } :=
  ⟨by simp only [blank, h_sb, if_true], rfl, fun hc => { hc with streams := w0 hc }⟩

/-- sec replaced. -/
theorem keeps_sec {m : Piece → Bool} (h_sec : m .sec = true) {s : State} {x0 : Sec} :
    Keeps m s { s with sec := x0 } :=
  ⟨by simp only [blank, h_sec, if_true], rfl, fun hc => { hc with }⟩

/-- segs replaced. -/
theorem keeps_segs {m : Piece → Bool} (h_segs : m .segs = true) {s : State} {x0 : Sparse Segment}
    (w0 : s.Canon → swf (fun _ => Segment.atReset) x0 = true) :
    Keeps m s { s with segs := x0 } :=
  ⟨by simp only [blank, h_segs, if_true], rfl, fun hc => { hc with segs := w0 hc }⟩

/-- skiver replaced. -/
theorem keeps_skiver {m : Piece → Bool} (h_skiver : m .skiver = true) {s : State} {x0 : Skiver} :
    Keeps m s { s with skiver := x0 } :=
  ⟨by simp only [blank, h_skiver, if_true], rfl, fun hc => { hc with }⟩

/-- staged replaced. -/
theorem keeps_staged {m : Piece → Bool} (h_staged : m .staged = true) {s : State} {x0 : Sparse (Option Word)}
    (w0 : s.Canon → swf (fun _ => none) x0 = true) :
    Keeps m s { s with staged := x0 } :=
  ⟨by simp only [blank, h_staged, if_true], rfl, fun hc => { hc with staged := w0 hc }⟩

/-- stitch replaced. -/
theorem keeps_stitch {m : Piece → Bool} (h_stitch : m .stitch = true) {s : State} {x0 : BitVec 64} :
    Keeps m s { s with stitch := x0 } :=
  ⟨by simp only [blank, h_stitch, if_true], rfl, fun hc => { hc with }⟩

/-- Stitch, msix, tclk replaced. -/
theorem keeps_stitch_msix_tclk {m : Piece → Bool} (h_stitch : m .stitch = true) (h_msix : m .msix = true) (h_tclk : m .tclk = true) {s : State} {x0 : BitVec 64} {x1 : List Nat} {x2 : Nat} :
    Keeps m s { s with stitch := x0, msix := x1, tclk := x2 } :=
  ⟨by simp only [blank, h_stitch, h_msix, h_tclk, if_true], rfl, fun hc => { hc with }⟩

/-- therm replaced. -/
theorem keeps_therm {m : Piece → Bool} (h_therm : m .therm = true) {s : State} {x0 : Therm} :
    Keeps m s { s with therm := x0 } :=
  ⟨by simp only [blank, h_therm, if_true], rfl, fun hc => { hc with }⟩

/-- time replaced. -/
theorem keeps_time {m : Piece → Bool} (h_time : m .time = true) {s : State} {x0 : TimeBlock} :
    Keeps m s { s with time := x0 } :=
  ⟨by simp only [blank, h_time, if_true], rfl, fun hc => { hc with }⟩

/-- tree replaced. -/
theorem keeps_tree {m : Piece → Bool} (h_tree : m .tree = true) {s : State} {x0 : Tree} :
    Keeps m s { s with tree := x0 } :=
  ⟨by simp only [blank, h_tree, if_true], rfl, fun hc => { hc with }⟩

/-- Tree, skiver replaced. -/
theorem keeps_tree_skiver {m : Piece → Bool} (h_tree : m .tree = true) (h_skiver : m .skiver = true) {s : State} {x0 : Tree} {x1 : Skiver} :
    Keeps m s { s with tree := x0, skiver := x1 } :=
  ⟨by simp only [blank, h_tree, h_skiver, if_true], rfl, fun hc => { hc with }⟩

/-- wdog replaced. -/
theorem keeps_wdog {m : Piece → Bool} (h_wdog : m .wdog = true) {s : State} {x0 : Wdog} :
    Keeps m s { s with wdog := x0 } :=
  ⟨by simp only [blank, h_wdog, if_true], rfl, fun hc => { hc with }⟩

end Sys2Proof.Machine
end

