-- ==== Sys2Proof/Laws/KeepsOps.lean ====
section
/-! SUPPORT. What each operation of Machine/Ops.lean leaves: the pieces of the state that it does not name, the part, and
the canonical form. -/

namespace Sys2Proof.Machine

/-- What State.setReg leaves. -/
theorem State.setReg_keeps {pm : Piece → Bool} (h_regs : pm .regs = true) (s : State) (a : Nat) (w : Word) :
    Keeps pm s (State.setReg s a w) := by
  unfold State.setReg
  try dsimp only
  repeat' first
    | with_reducible exact Keeps.refl _ _
    | assumption
    | split
    | (with_reducible refine (keeps_regs h_regs ?_).after ?_)
    | (with_reducible exact fun hc => swf_sset hc.regs _ _)
    | (intro)
    | (dsimp only)

/-- What State.setFld leaves. -/
theorem State.setFld_keeps {pm : Piece → Bool} (h_regs : pm .regs = true) (s : State) (f : Fld) (v : Nat) :
    Keeps pm s (State.setFld s f v) := by
  unfold State.setFld
  try dsimp only
  repeat' first
    | with_reducible exact Keeps.refl _ _
    | assumption
    | (with_reducible refine (State.setReg_keeps h_regs _ _ _).after ?_)
    | split
    | (intro)
    | (dsimp only)

/-- What State.bump leaves. -/
theorem State.bump_keeps {pm : Piece → Bool} (h_regs : pm .regs = true) (s : State) (f : Fld) :
    Keeps pm s (State.bump s f) := by
  unfold State.bump
  try dsimp only
  repeat' first
    | with_reducible exact Keeps.refl _ _
    | assumption
    | (with_reducible refine (State.setFld_keeps h_regs _ _ _).after ?_)
    | split
    | (intro)
    | (dsimp only)

/-- What State.bumpBy leaves. -/
theorem State.bumpBy_keeps {pm : Piece → Bool} (h_regs : pm .regs = true) (s : State) (f : Fld) (n : Nat) :
    Keeps pm s (State.bumpBy s f n) := by
  unfold State.bumpBy
  try dsimp only
  repeat' first
    | with_reducible exact Keeps.refl _ _
    | assumption
    | (with_reducible refine (State.setFld_keeps h_regs _ _ _).after ?_)
    | split
    | (intro)
    | (dsimp only)

/-- What State.stage leaves. -/
theorem State.stage_keeps {pm : Piece → Bool} (h_staged : pm .staged = true) (s : State) (a : Nat) (w : Word) :
    Keeps pm s (State.stage s a w) := by
  unfold State.stage
  try dsimp only
  repeat' first
    | with_reducible exact Keeps.refl _ _
    | assumption
    | split
    | (with_reducible refine (keeps_staged h_staged ?_).after ?_)
    | (with_reducible exact fun hc => swf_sset hc.staged _ _)
    | (intro)
    | (dsimp only)

/-- What State.addCmd leaves. -/
theorem State.addCmd_keeps {pm : Piece → Bool} (h_cmds : pm .cmds = true) (s : State) (a : Nat) (w : Word) :
    Keeps pm s (State.addCmd s a w) := by
  unfold State.addCmd
  try dsimp only
  repeat' first
    | with_reducible exact Keeps.refl _ _
    | assumption
    | split
    | (with_reducible refine (keeps_cmds h_cmds).after ?_)
    | (intro)
    | (dsimp only)

/-- What State.tookFree leaves. -/
theorem State.tookFree_keeps {pm : Piece → Bool} (h_fresh : pm .fresh = true) (s : State) :
    Keeps pm s (State.tookFree s) := by
  unfold State.tookFree
  try dsimp only
  repeat' first
    | with_reducible exact Keeps.refl _ _
    | assumption
    | split
    | (with_reducible refine (keeps_fresh h_fresh).after ?_)
    | (intro)
    | (dsimp only)

/-- What State.covers leaves. -/
theorem State.covers_keeps {pm : Piece → Bool} (h_harn : pm .harn = true) (s : State) (ws : List Word) :
    Keeps pm s (State.covers s ws) := by
  unfold State.covers
  try dsimp only
  repeat' first
    | with_reducible exact Keeps.refl _ _
    | assumption
    | split
    | (with_reducible refine (keeps_harn h_harn).after ?_)
    | (intro)
    | (dsimp only)

/-- What State.setCore leaves. -/
theorem State.setCore_keeps {pm : Piece → Bool} (h_cores : pm .cores = true) (s : State) (k : Nat) (c : Core) :
    Keeps pm s (State.setCore s k c) := by
  unfold State.setCore
  try dsimp only
  repeat' first
    | with_reducible exact Keeps.refl _ _
    | assumption
    | split
    | (with_reducible refine (keeps_cores h_cores ?_).after ?_)
    | (with_reducible exact fun hc => swf_sset hc.cores _ _)
    | (intro)
    | (dsimp only)

/-- What State.setCtx leaves. -/
theorem State.setCtx_keeps {pm : Piece → Bool} (h_ctxs : pm .ctxs = true) (s : State) (core c : Nat) (x : Ctx) :
    Keeps pm s (State.setCtx s core c x) := by
  unfold State.setCtx
  try dsimp only
  repeat' first
    | with_reducible exact Keeps.refl _ _
    | assumption
    | split
    | (with_reducible refine (keeps_ctxs h_ctxs ?_).after ?_)
    | (with_reducible exact fun hc => swf_sset hc.ctxs _ _)
    | (intro)
    | (dsimp only)

/-- What State.setStream leaves. -/
theorem State.setStream_keeps {pm : Piece → Bool} (h_regs : pm .regs = true) (h_sb : pm .sb = true) (s : State) (key : Nat) (str : Stream) :
    Keeps pm s (State.setStream s key str) := by
  unfold State.setStream
  try dsimp only
  repeat' first
    | with_reducible exact Keeps.refl _ _
    | assumption
    | (with_reducible refine (State.setFld_keeps h_regs _ _ _).after ?_)
    | split
    | (with_reducible refine (keeps_sb h_sb ?_).after ?_)
    | (exact fun hc => hc.streams)
    | (with_reducible exact fun hc => swf_sset hc.streams _ _)
    | (intro)
    | (dsimp only)

/-- What State.signal leaves. -/
theorem State.signal_keeps {pm : Piece → Bool} (h_regs : pm .regs = true) (h_msix : pm .msix = true) (s : State) (vec : Nat) :
    Keeps pm s (State.signal s vec) := by
  unfold State.signal
  try dsimp only
  repeat' first
    | with_reducible exact Keeps.refl _ _
    | assumption
    | (with_reducible refine (State.setReg_keeps h_regs _ _ _).after ?_)
    | split
    | (with_reducible refine (keeps_msix h_msix).after ?_)
    | (intro)
    | (dsimp only)

/-- What State.countRefused leaves. -/
theorem State.countRefused_keeps {pm : Piece → Bool} (h_regs : pm .regs = true) (s : State) (req : Nat) :
    Keeps pm s (State.countRefused s req) := by
  unfold State.countRefused
  try dsimp only
  repeat' first
    | with_reducible exact Keeps.refl _ _
    | assumption
    | (with_reducible refine (State.bump_keeps h_regs _ _).after ?_)
    | split
    | (intro)
    | (dsimp only)

/-- What State.counted leaves. -/
theorem State.counted_keeps {pm : Piece → Bool} (h_regs : pm .regs = true) (h_sb : pm .sb = true) (s : State) (req key : Nat) (r : QueueResult) :
    Keeps pm s (State.counted s req key r) := by
  unfold State.counted
  try dsimp only
  repeat' first
    | with_reducible exact Keeps.refl _ _
    | assumption
    | (with_reducible refine (State.bump_keeps h_regs _ _).after ?_)
    | (with_reducible refine (State.bumpBy_keeps h_regs _ _ _).after ?_)
    | (with_reducible refine (State.setStream_keeps h_regs h_sb _ _ _).after ?_)
    | (with_reducible refine (State.countRefused_keeps h_regs _ _).after ?_)
    | split
    | (intro)
    | (dsimp only)

/-- What State.addWait leaves. -/
theorem State.addWait_keeps {pm : Piece → Bool} (h_sb : pm .sb = true) (s : State) (w : SpillWait) :
    Keeps pm s (State.addWait s w) := by
  unfold State.addWait
  try dsimp only
  repeat' first
    | with_reducible exact Keeps.refl _ _
    | assumption
    | split
    | (with_reducible refine (keeps_sb h_sb ?_).after ?_)
    | (exact fun hc => hc.streams)
    | (with_reducible exact fun hc => swf_sset hc.streams _ _)
    | (intro)
    | (dsimp only)

/-- What State.landAll leaves. -/
theorem State.landAll_keeps {pm : Piece → Bool} (h_regs : pm .regs = true) (h_sb : pm .sb = true) (s : State) (req key p : Nat) (z0 : List PWord) :
    Keeps pm s (State.landAll s req key p z0) := by
  fun_induction State.landAll s req key p z0
  all_goals (try dsimp +zetaDelta only at *)
  repeat' first
    | with_reducible exact Keeps.refl _ _
    | assumption
    | (with_reducible refine (State.counted_keeps h_regs h_sb _ _ _ _).after ?_)
    | (with_reducible refine (State.addWait_keeps h_sb _ _).after ?_)
    | (with_reducible refine Keeps.trans ?_ (by assumption))
    | split
    | (intro)
    | (dsimp only)

/-- What State.pushQuiet leaves. -/
theorem State.pushQuiet_keeps {pm : Piece → Bool} (h_regs : pm .regs = true) (h_sb : pm .sb = true) (s : State) (req key : Nat) (ws : List PWord) :
    Keeps pm s (State.pushQuiet s req key ws) := by
  unfold State.pushQuiet
  try dsimp only
  repeat' first
    | with_reducible exact Keeps.refl _ _
    | assumption
    | (with_reducible refine (State.bump_keeps h_regs _ _).after ?_)
    | (with_reducible refine (State.setStream_keeps h_regs h_sb _ _ _).after ?_)
    | (with_reducible refine (State.countRefused_keeps h_regs _ _).after ?_)
    | (with_reducible refine (State.landAll_keeps h_regs h_sb _ _ _ _ _).after ?_)
    | split
    | (intro)
    | (dsimp only)

/-- What State.markThreshold leaves. -/
theorem State.markThreshold_keeps {pm : Piece → Bool} (h_regs : pm .regs = true) (h_msix : pm .msix = true) (s : State) (key before : Nat) :
    Keeps pm s (State.markThreshold s key before) := by
  unfold State.markThreshold
  try dsimp only
  repeat' first
    | with_reducible exact Keeps.refl _ _
    | assumption
    | (with_reducible refine (State.setFld_keeps h_regs _ _ _).after ?_)
    | (with_reducible refine (State.signal_keeps h_regs h_msix _ _).after ?_)
    | split
    | (intro)
    | (dsimp only)

/-- What State.threshold leaves. -/
theorem State.threshold_keeps {pm : Piece → Bool} (h_regs : pm .regs = true) (h_msix : pm .msix = true) (h_sb : pm .sb = true) (s : State) (key before : Nat) :
    Keeps pm s (State.threshold s key before) := by
  unfold State.threshold
  try dsimp only
  repeat' first
    | with_reducible exact Keeps.refl _ _
    | assumption
    | (with_reducible refine (State.pushQuiet_keeps h_regs h_sb _ _ _ _).after ?_)
    | (with_reducible refine (State.markThreshold_keeps h_regs h_msix _ _ _).after ?_)
    | split
    | (intro)
    | (dsimp only)

/-- What State.pushEvent leaves. -/
theorem State.pushEvent_keeps {pm : Piece → Bool} (h_regs : pm .regs = true) (h_msix : pm .msix = true) (h_sb : pm .sb = true) (s : State) (req : Nat) (h : Word) (ws : List Word) :
    Keeps pm s (State.pushEvent s req h ws) := by
  unfold State.pushEvent
  try dsimp only
  repeat' first
    | with_reducible exact Keeps.refl _ _
    | assumption
    | (with_reducible refine (State.pushQuiet_keeps h_regs h_sb _ _ _ _).after ?_)
    | (with_reducible refine (State.threshold_keeps h_regs h_msix h_sb _ _ _).after ?_)
    | split
    | (intro)
    | (dsimp only)

/-- What State.pushWords leaves. -/
theorem State.pushWords_keeps {pm : Piece → Bool} (h_regs : pm .regs = true) (h_msix : pm .msix = true) (h_sb : pm .sb = true) (s : State) (req : Nat) (h : Word) (ws : List PWord) :
    Keeps pm s (State.pushWords s req h ws) := by
  unfold State.pushWords
  try dsimp only
  repeat' first
    | with_reducible exact Keeps.refl _ _
    | assumption
    | (with_reducible refine (State.pushQuiet_keeps h_regs h_sb _ _ _ _).after ?_)
    | (with_reducible refine (State.threshold_keeps h_regs h_msix h_sb _ _ _).after ?_)
    | split
    | (intro)
    | (dsimp only)

/-- What State.applyQueue leaves. -/
theorem State.applyQueue_keeps {pm : Piece → Bool} (h_regs : pm .regs = true) (h_msix : pm .msix = true) (h_sb : pm .sb = true) (s : State) (req key : Nat) (r : QueueResult) :
    Keeps pm s (State.applyQueue s req key r) := by
  unfold State.applyQueue
  try dsimp only
  repeat' first
    | with_reducible exact Keeps.refl _ _
    | assumption
    | (with_reducible refine (State.counted_keeps h_regs h_sb _ _ _ _).after ?_)
    | (with_reducible refine (State.threshold_keeps h_regs h_msix h_sb _ _ _).after ?_)
    | split
    | (with_reducible refine (keeps_sb h_sb ?_).after ?_)
    | (exact fun hc => hc.streams)
    | (with_reducible exact fun hc => swf_sset hc.streams _ _)
    | (intro)
    | (dsimp only)

/-- What State.dropPackets leaves. -/
theorem State.dropPackets_keeps {pm : Piece → Bool} (h_regs : pm .regs = true) (h_sb : pm .sb = true) (s : State) (p : Nat) :
    Keeps pm s (State.dropPackets s p) := by
  unfold State.dropPackets
  try dsimp only
  repeat' first
    | with_reducible exact Keeps.refl _ _
    | assumption
    | (with_reducible refine (State.setStream_keeps h_regs h_sb _ _ _).after ?_)
    | (with_reducible refine (keeps_foldl ?_ _ _).after ?_)
    | split
    | (intro)
    | (dsimp only)

/-- What State.sbEvent leaves. -/
theorem State.sbEvent_keeps {pm : Piece → Bool} (h_regs : pm .regs = true) (h_msix : pm .msix = true) (h_sb : pm .sb = true) (s : State) (code low : Nat) (w1 : Word) :
    Keeps pm s (State.sbEvent s code low w1) := by
  unfold State.sbEvent
  try dsimp only
  repeat' first
    | with_reducible exact Keeps.refl _ _
    | assumption
    | (with_reducible refine (State.pushEvent_keeps h_regs h_msix h_sb _ _ _ _).after ?_)
    | split
    | (intro)
    | (dsimp only)

/-- What State.setGridCell leaves. -/
theorem State.setGridCell_keeps {pm : Piece → Bool} (h_hide : pm .hide = true) (s : State) (k v : Nat) :
    Keeps pm s (State.setGridCell s k v) := by
  unfold State.setGridCell
  try dsimp only
  repeat' first
    | with_reducible exact Keeps.refl _ _
    | assumption
    | split
    | (with_reducible refine (keeps_hide h_hide).after ?_)
    | (intro)
    | (dsimp only)

/-- What State.setBufWord leaves. -/
theorem State.setBufWord_keeps {pm : Piece → Bool} (h_regs : pm .regs = true) (h_sb : pm .sb = true) (h_hide : pm .hide = true) (s : State) (key off : Nat) (w : PWord) :
    Keeps pm s (State.setBufWord s key off w) := by
  unfold State.setBufWord
  try dsimp only
  repeat' first
    | with_reducible exact Keeps.refl _ _
    | assumption
    | (with_reducible refine (State.setStream_keeps h_regs h_sb _ _ _).after ?_)
    | (with_reducible refine (State.setGridCell_keeps h_hide _ _ _).after ?_)
    | split
    | (intro)
    | (dsimp only)

/-- What State.setBufWords leaves. -/
theorem State.setBufWords_keeps {pm : Piece → Bool} (h_regs : pm .regs = true) (h_sb : pm .sb = true) (h_hide : pm .hide = true) (s : State) (key off : Nat) (z0 : List PWord) :
    Keeps pm s (State.setBufWords s key off z0) := by
  fun_induction State.setBufWords s key off z0
  all_goals (try dsimp +zetaDelta only at *)
  repeat' first
    | with_reducible exact Keeps.refl _ _
    | assumption
    | (with_reducible refine (State.setBufWord_keeps h_regs h_sb h_hide _ _ _ _).after ?_)
    | (with_reducible refine Keeps.trans ?_ (by assumption))
    | split
    | (intro)
    | (dsimp only)

/-- What State.dmcEvent leaves. -/
theorem State.dmcEvent_keeps {pm : Piece → Bool} (h_regs : pm .regs = true) (h_msix : pm .msix = true) (h_sb : pm .sb = true) (s : State) (q code c low w1 : Nat) :
    Keeps pm s (State.dmcEvent s q code c low w1) := by
  unfold State.dmcEvent
  try dsimp only
  repeat' first
    | with_reducible exact Keeps.refl _ _
    | assumption
    | (with_reducible refine (State.pushEvent_keeps h_regs h_msix h_sb _ _ _ _).after ?_)
    | split
    | (intro)
    | (dsimp only)

/-- What State.repeatDrop leaves. -/
theorem State.repeatDrop_keeps {pm : Piece → Bool} (h_regs : pm .regs = true) (h_repeatAge : pm .repeatAge = true) (s : State) (k : Nat) :
    Keeps pm s (State.repeatDrop s k) := by
  unfold State.repeatDrop
  try dsimp only
  repeat' first
    | with_reducible exact Keeps.refl _ _
    | assumption
    | (with_reducible refine (State.setReg_keeps h_regs _ _ _).after ?_)
    | split
    | (with_reducible refine (keeps_repeatAge h_repeatAge).after ?_)
    | (intro)
    | (dsimp only)

/-- What State.repeatPut leaves. -/
theorem State.repeatPut_keeps {pm : Piece → Bool} (h_regs : pm .regs = true) (h_repeatAge : pm .repeatAge = true) (s : State) (k src c a secs : Nat) :
    Keeps pm s (State.repeatPut s k src c a secs) := by
  unfold State.repeatPut
  try dsimp only
  repeat' first
    | with_reducible exact Keeps.refl _ _
    | assumption
    | (with_reducible refine (State.setReg_keeps h_regs _ _ _).after ?_)
    | split
    | (with_reducible refine (keeps_repeatAge h_repeatAge).after ?_)
    | (intro)
    | (dsimp only)

/-- What State.correction leaves. -/
theorem State.correction_keeps {pm : Piece → Bool} (h_regs : pm .regs = true) (h_msix : pm .msix = true) (h_sb : pm .sb = true) (h_repeatAge : pm .repeatAge = true) (s : State) (src c a secs : Nat) :
    Keeps pm s (State.correction s src c a secs).1 := by
  unfold State.correction
  try dsimp only
  repeat' first
    | with_reducible exact Keeps.refl _ _
    | assumption
    | (with_reducible refine (State.setReg_keeps h_regs _ _ _).after ?_)
    | (with_reducible refine (State.bump_keeps h_regs _ _).after ?_)
    | (with_reducible refine (State.dmcEvent_keeps h_regs h_msix h_sb _ _ _ _ _ _).after ?_)
    | (with_reducible refine (State.repeatDrop_keeps h_regs h_repeatAge _ _).after ?_)
    | (with_reducible refine (State.repeatPut_keeps h_regs h_repeatAge _ _ _ _ _ _).after ?_)
    | split
    | (intro)
    | (dsimp only)

/-- What State.correction leaves, its answer taken apart. -/
theorem State.correction_keeps_eq {pm : Piece → Bool} (h_regs : pm .regs = true) (h_msix : pm .msix = true) (h_sb : pm .sb = true) (h_repeatAge : pm .repeatAge = true) (s : State) (src c a secs : Nat) {t : State} {r : Option Nat}
    (e : State.correction s src c a secs = (t, r)) : Keeps pm s t := by
  have q := State.correction_keeps (pm := pm) h_regs h_msix h_sb h_repeatAge s src c a secs
  rw [e] at q
  exact q

/-- What State.changeIn leaves. -/
theorem State.changeIn_keeps {pm : Piece → Bool} (h_regs : pm .regs = true) (h_sb : pm .sb = true) (h_hide : pm .hide = true) (s : State) (key off : Nat) (f : PWord → PWord) :
    Keeps pm s (State.changeIn s key off f) := by
  unfold State.changeIn
  try dsimp only
  repeat' first
    | with_reducible exact Keeps.refl _ _
    | assumption
    | (with_reducible refine (State.setStream_keeps h_regs h_sb _ _ _).after ?_)
    | (with_reducible refine (State.setBufWord_keeps h_regs h_sb h_hide _ _ _ _).after ?_)
    | split
    | (intro)
    | (dsimp only)

/-- What State.sbCorrected leaves. -/
theorem State.sbCorrected_keeps {pm : Piece → Bool} (h_regs : pm .regs = true) (h_msix : pm .msix = true) (h_sb : pm .sb = true) (h_repeatAge : pm .repeatAge = true) (s : State) (key a : Nat) :
    Keeps pm s (State.sbCorrected s key a) := by
  unfold State.sbCorrected
  try dsimp only
  repeat' first
    | with_reducible exact Keeps.refl _ _
    | assumption
    | (with_reducible refine (State.setFld_keeps h_regs _ _ _).after ?_)
    | (with_reducible refine (State.bump_keeps h_regs _ _).after ?_)
    | (with_reducible refine (State.sbEvent_keeps h_regs h_msix h_sb _ _ _ _).after ?_)
    | (with_reducible refine (State.repeatDrop_keeps h_regs h_repeatAge _ _).after ?_)
    | (with_reducible refine (State.correction_keeps h_regs h_msix h_sb h_repeatAge _ _ _ _ _).after ?_)
    | (with_reducible refine (State.correction_keeps_eq h_regs h_msix h_sb h_repeatAge _ _ _ _ _ (by assumption)).after ?_)
    | split
    | (with_reducible refine (keeps_sb h_sb ?_).after ?_)
    | (exact fun hc => hc.streams)
    | (with_reducible exact fun hc => swf_sset hc.streams _ _)
    | (intro)
    | (dsimp only)

/-- What State.sbUncorrectable leaves. -/
theorem State.sbUncorrectable_keeps {pm : Piece → Bool} (h_regs : pm .regs = true) (h_msix : pm .msix = true) (h_sb : pm .sb = true) (s : State) (a : Nat) :
    Keeps pm s (State.sbUncorrectable s a) := by
  unfold State.sbUncorrectable
  try dsimp only
  repeat' first
    | with_reducible exact Keeps.refl _ _
    | assumption
    | (with_reducible refine (State.bump_keeps h_regs _ _).after ?_)
    | (with_reducible refine (State.sbEvent_keeps h_regs h_msix h_sb _ _ _ _).after ?_)
    | split
    | (intro)
    | (dsimp only)

/-- What State.checkWord leaves. -/
theorem State.checkWord_keeps {pm : Piece → Bool} (h_regs : pm .regs = true) (h_msix : pm .msix = true) (h_sb : pm .sb = true) (h_repeatAge : pm .repeatAge = true) (h_hide : pm .hide = true) (s : State) (key off : Nat) (w : PWord) :
    Keeps pm s (State.checkWord s key off w).1 := by
  unfold State.checkWord
  try dsimp only
  repeat' first
    | with_reducible exact Keeps.refl _ _
    | assumption
    | (with_reducible refine (State.changeIn_keeps h_regs h_sb h_hide _ _ _ _).after ?_)
    | (with_reducible refine (State.sbCorrected_keeps h_regs h_msix h_sb h_repeatAge _ _ _).after ?_)
    | (with_reducible refine (State.sbUncorrectable_keeps h_regs h_msix h_sb _ _).after ?_)
    | split
    | (intro)
    | (dsimp only)

/-- What State.checkWord leaves, its answer taken apart. -/
theorem State.checkWord_keeps_eq {pm : Piece → Bool} (h_regs : pm .regs = true) (h_msix : pm .msix = true) (h_sb : pm .sb = true) (h_repeatAge : pm .repeatAge = true) (h_hide : pm .hide = true) (s : State) (key off : Nat) (w : PWord) {t : State} {r : PWord}
    (e : State.checkWord s key off w = (t, r)) : Keeps pm s t := by
  have q := State.checkWord_keeps (pm := pm) h_regs h_msix h_sb h_repeatAge h_hide s key off w
  rw [e] at q
  exact q

/-- What State.readBuf leaves. -/
theorem State.readBuf_keeps {pm : Piece → Bool} (h_regs : pm .regs = true) (h_msix : pm .msix = true) (h_sb : pm .sb = true) (h_repeatAge : pm .repeatAge = true) (h_hide : pm .hide = true) (s : State) (key off : Nat) :
    Keeps pm s (State.readBuf s key off).1 := by
  unfold State.readBuf
  try dsimp only
  repeat' first
    | with_reducible exact Keeps.refl _ _
    | assumption
    | (with_reducible refine (State.setBufWord_keeps h_regs h_sb h_hide _ _ _ _).after ?_)
    | (with_reducible refine (State.checkWord_keeps h_regs h_msix h_sb h_repeatAge h_hide _ _ _ _).after ?_)
    | (with_reducible refine (State.checkWord_keeps_eq h_regs h_msix h_sb h_repeatAge h_hide _ _ _ _ (by assumption)).after ?_)
    | split
    | (intro)
    | (dsimp only)

/-- What State.readBuf leaves, its answer taken apart. -/
theorem State.readBuf_keeps_eq {pm : Piece → Bool} (h_regs : pm .regs = true) (h_msix : pm .msix = true) (h_sb : pm .sb = true) (h_repeatAge : pm .repeatAge = true) (h_hide : pm .hide = true) (s : State) (key off : Nat) {t : State} {r : PWord}
    (e : State.readBuf s key off = (t, r)) : Keeps pm s t := by
  have q := State.readBuf_keeps (pm := pm) h_regs h_msix h_sb h_repeatAge h_hide s key off
  rw [e] at q
  exact q

/-- What State.readBufs leaves. -/
theorem State.readBufs_keeps {pm : Piece → Bool} (h_regs : pm .regs = true) (h_msix : pm .msix = true) (h_sb : pm .sb = true) (h_repeatAge : pm .repeatAge = true) (h_hide : pm .hide = true) (s : State) (key off : Nat) (z0 : Nat) :
    Keeps pm s (State.readBufs s key off z0).1 := by
  fun_induction State.readBufs s key off z0
  all_goals (try dsimp +zetaDelta only at *)
  repeat' first
    | with_reducible exact Keeps.refl _ _
    | assumption
    | (with_reducible refine (State.readBuf_keeps h_regs h_msix h_sb h_repeatAge h_hide _ _ _).after ?_)
    | (with_reducible refine (State.readBuf_keeps_eq h_regs h_msix h_sb h_repeatAge h_hide _ _ _ (by assumption)).after ?_)
    | (with_reducible refine Keeps.trans ?_ (by assumption))
    | split
    | (intro)
    | (dsimp only)

/-- What State.readBufs leaves, its answer taken apart. -/
theorem State.readBufs_keeps_eq {pm : Piece → Bool} (h_regs : pm .regs = true) (h_msix : pm .msix = true) (h_sb : pm .sb = true) (h_repeatAge : pm .repeatAge = true) (h_hide : pm .hide = true) (s : State) (key off : Nat) (z0 : Nat) {t : State} {r : List PWord}
    (e : State.readBufs s key off z0 = (t, r)) : Keeps pm s t := by
  have q := State.readBufs_keeps (pm := pm) h_regs h_msix h_sb h_repeatAge h_hide s key off z0
  rw [e] at q
  exact q

/-- What State.useBuf leaves. -/
theorem State.useBuf_keeps {pm : Piece → Bool} (h_regs : pm .regs = true) (h_msix : pm .msix = true) (h_sb : pm .sb = true) (h_repeatAge : pm .repeatAge = true) (h_hide : pm .hide = true) (s : State) (h : Word) (n : Nat) :
    Keeps pm s (State.useBuf s h n) := by
  unfold State.useBuf
  try dsimp only
  repeat' first
    | with_reducible exact Keeps.refl _ _
    | assumption
    | (with_reducible refine (State.readBufs_keeps h_regs h_msix h_sb h_repeatAge h_hide _ _ _ _).after ?_)
    | (with_reducible refine (State.readBufs_keeps_eq h_regs h_msix h_sb h_repeatAge h_hide _ _ _ _ (by assumption)).after ?_)
    | split
    | (intro)
    | (dsimp only)

/-- What State.countDelayed leaves. -/
theorem State.countDelayed_keeps {pm : Piece → Bool} (h_regs : pm .regs = true) (s : State) (req : Nat) (delayed : Bool) :
    Keeps pm s (State.countDelayed s req delayed) := by
  unfold State.countDelayed
  try dsimp only
  repeat' first
    | with_reducible exact Keeps.refl _ _
    | assumption
    | (with_reducible refine (State.bump_keeps h_regs _ _).after ?_)
    | split
    | (intro)
    | (dsimp only)

/-- What State.setAperQst leaves. -/
theorem State.setAperQst_keeps {pm : Piece → Bool} (h_regs : pm .regs = true) (s : State) (a code : Nat) (eop poison : Bool) :
    Keeps pm s (State.setAperQst s a code eop poison) := by
  unfold State.setAperQst
  try dsimp only
  repeat' first
    | with_reducible exact Keeps.refl _ _
    | assumption
    | (with_reducible refine (State.setReg_keeps h_regs _ _ _).after ?_)
    | split
    | (intro)
    | (dsimp only)

/-- What State.respond leaves. -/
theorem State.respond_keeps {pm : Piece → Bool} (h_regs : pm .regs = true) (h_readData : pm .readData = true) (h_resp : pm .resp = true) (s : State) (w : SpillWait) (code : Nat) (delayed eop poison : Bool) (ws : List Word) :
    Keeps pm s (State.respond s w code delayed eop poison ws) := by
  unfold State.respond
  try dsimp only
  repeat' first
    | with_reducible exact Keeps.refl _ _
    | assumption
    | (with_reducible refine (State.countDelayed_keeps h_regs _ _ _).after ?_)
    | (with_reducible refine (State.setAperQst_keeps h_regs _ _ _ _ _).after ?_)
    | split
    | (with_reducible refine (keeps_readData h_readData).after ?_)
    | (with_reducible refine (keeps_resp h_resp).after ?_)
    | (intro)
    | (dsimp only)

/-- What State.request leaves. -/
theorem State.request_keeps {pm : Piece → Bool} (h_regs : pm .regs = true) (h_readData : pm .readData = true) (h_resp : pm .resp = true) (h_msix : pm .msix = true) (h_fresh : pm .fresh = true) (h_sb : pm .sb = true) (h_repeatAge : pm .repeatAge = true) (h_hide : pm .hide = true) (s : State) (w : SpillWait) (same delayed : Bool) :
    Keeps pm s (State.request s w same delayed) := by
  unfold State.request
  try dsimp only
  repeat' first
    | with_reducible exact Keeps.refl _ _
    | assumption
    | (with_reducible refine (State.tookFree_keeps h_fresh _).after ?_)
    | (with_reducible refine (State.addWait_keeps h_sb _ _).after ?_)
    | (with_reducible refine (State.applyQueue_keeps h_regs h_msix h_sb _ _ _ _).after ?_)
    | (with_reducible refine (State.checkWord_keeps h_regs h_msix h_sb h_repeatAge h_hide _ _ _ _).after ?_)
    | (with_reducible refine (State.checkWord_keeps_eq h_regs h_msix h_sb h_repeatAge h_hide _ _ _ _ (by assumption)).after ?_)
    | (with_reducible refine (State.respond_keeps h_regs h_readData h_resp _ _ _ _ _ _ _).after ?_)
    | split
    | (with_reducible refine (keeps_sb h_sb ?_).after ?_)
    | (exact fun hc => hc.streams)
    | (with_reducible exact fun hc => swf_sset hc.streams _ _)
    | (intro)
    | (dsimp only)

/-- What State.serveWaits leaves. -/
theorem State.serveWaits_keeps {pm : Piece → Bool} (h_regs : pm .regs = true) (h_readData : pm .readData = true) (h_resp : pm .resp = true) (h_msix : pm .msix = true) (h_fresh : pm .fresh = true) (h_sb : pm .sb = true) (h_repeatAge : pm .repeatAge = true) (h_hide : pm .hide = true) (s : State) (key : Nat) :
    Keeps pm s (State.serveWaits s key) := by
  unfold State.serveWaits
  try dsimp only
  repeat' first
    | with_reducible exact Keeps.refl _ _
    | assumption
    | (with_reducible refine (State.request_keeps h_regs h_readData h_resp h_msix h_fresh h_sb h_repeatAge h_hide _ _ _ _).after ?_)
    | (with_reducible refine (keeps_foldl ?_ _ _).after ?_)
    | split
    | (with_reducible refine (keeps_sb h_sb ?_).after ?_)
    | (exact fun hc => hc.streams)
    | (with_reducible exact fun hc => swf_sset hc.streams _ _)
    | (intro)
    | (dsimp only)

/-- What State.flushQueue leaves. -/
theorem State.flushQueue_keeps {pm : Piece → Bool} (h_regs : pm .regs = true) (h_readData : pm .readData = true) (h_resp : pm .resp = true) (h_msix : pm .msix = true) (h_fresh : pm .fresh = true) (h_sb : pm .sb = true) (h_repeatAge : pm .repeatAge = true) (h_hide : pm .hide = true) (s : State) (key : Nat) :
    Keeps pm s (State.flushQueue s key) := by
  unfold State.flushQueue
  try dsimp only
  repeat' first
    | with_reducible exact Keeps.refl _ _
    | assumption
    | (with_reducible refine (State.setFld_keeps h_regs _ _ _).after ?_)
    | (with_reducible refine (State.setStream_keeps h_regs h_sb _ _ _).after ?_)
    | (with_reducible refine (State.serveWaits_keeps h_regs h_readData h_resp h_msix h_fresh h_sb h_repeatAge h_hide _ _).after ?_)
    | split
    | (intro)
    | (dsimp only)

/-- What State.flushHandle leaves. -/
theorem State.flushHandle_keeps {pm : Piece → Bool} (h_regs : pm .regs = true) (h_readData : pm .readData = true) (h_resp : pm .resp = true) (h_msix : pm .msix = true) (h_fresh : pm .fresh = true) (h_sb : pm .sb = true) (h_repeatAge : pm .repeatAge = true) (h_hide : pm .hide = true) (s : State) (h : Word) :
    Keeps pm s (State.flushHandle s h) := by
  unfold State.flushHandle
  try dsimp only
  repeat' first
    | with_reducible exact Keeps.refl _ _
    | assumption
    | (with_reducible refine (State.flushQueue_keeps h_regs h_readData h_resp h_msix h_fresh h_sb h_repeatAge h_hide _ _).after ?_)
    | split
    | (intro)
    | (dsimp only)

/-- What State.accessEvent leaves. -/
theorem State.accessEvent_keeps {pm : Piece → Bool} (h_regs : pm .regs = true) (h_msix : pm .msix = true) (h_sb : pm .sb = true) (s : State) (code : Nat) (src : Source) (bar : Bar) (off : BitVec 64) :
    Keeps pm s (State.accessEvent s code src bar off) := by
  unfold State.accessEvent
  try dsimp only
  repeat' first
    | with_reducible exact Keeps.refl _ _
    | assumption
    | (with_reducible refine (State.setReg_keeps h_regs _ _ _).after ?_)
    | (with_reducible refine (State.bump_keeps h_regs _ _).after ?_)
    | (with_reducible refine (State.pushEvent_keeps h_regs h_msix h_sb _ _ _ _).after ?_)
    | split
    | (intro)
    | (dsimp only)

/-- What State.busyWrite leaves. -/
theorem State.busyWrite_keeps {pm : Piece → Bool} (h_regs : pm .regs = true) (h_msix : pm .msix = true) (h_sb : pm .sb = true) (s : State) (src : Source) (a : Nat) :
    Keeps pm s (State.busyWrite s src a) := by
  unfold State.busyWrite
  try dsimp only
  repeat' first
    | with_reducible exact Keeps.refl _ _
    | assumption
    | (with_reducible refine (State.accessEvent_keeps h_regs h_msix h_sb _ _ _ _ _).after ?_)
    | split
    | (intro)
    | (dsimp only)

/-- What State.absentAccess leaves. -/
theorem State.absentAccess_keeps {pm : Piece → Bool} (h_regs : pm .regs = true) (h_msix : pm .msix = true) (h_sb : pm .sb = true) (s : State) (src : Source) (a : Nat) :
    Keeps pm s (State.absentAccess s src a) := by
  unfold State.absentAccess
  try dsimp only
  repeat' first
    | with_reducible exact Keeps.refl _ _
    | assumption
    | (with_reducible refine (State.accessEvent_keeps h_regs h_msix h_sb _ _ _ _ _).after ?_)
    | split
    | (intro)
    | (dsimp only)

/-- What State.unmapped leaves. -/
theorem State.unmapped_keeps {pm : Piece → Bool} (h_regs : pm .regs = true) (h_msix : pm .msix = true) (h_sb : pm .sb = true) (s : State) (src : Source) (bar : Bar) (off : BitVec 64) :
    Keeps pm s (State.unmapped s src bar off) := by
  unfold State.unmapped
  try dsimp only
  repeat' first
    | with_reducible exact Keeps.refl _ _
    | assumption
    | (with_reducible refine (State.accessEvent_keeps h_regs h_msix h_sb _ _ _ _ _).after ?_)
    | split
    | (intro)
    | (dsimp only)

/-- What State.superEvent leaves. -/
theorem State.superEvent_keeps {pm : Piece → Bool} (h_regs : pm .regs = true) (h_msix : pm .msix = true) (h_sb : pm .sb = true) (s : State) (core code detail c : Nat) :
    Keeps pm s (State.superEvent s core code detail c) := by
  unfold State.superEvent
  try dsimp only
  repeat' first
    | with_reducible exact Keeps.refl _ _
    | assumption
    | (with_reducible refine (State.pushEvent_keeps h_regs h_msix h_sb _ _ _ _).after ?_)
    | split
    | (intro)
    | (dsimp only)

/-- What State.ungate leaves. -/
theorem State.ungate_keeps {pm : Piece → Bool} (h_therm : pm .therm = true) (s : State) (code unit : Nat) :
    Keeps pm s (State.ungate s code unit) := by
  unfold State.ungate
  try dsimp only
  repeat' first
    | with_reducible exact Keeps.refl _ _
    | assumption
    | split
    | (with_reducible refine (keeps_therm h_therm).after ?_)
    | (intro)
    | (dsimp only)

/-- What State.forwardAs leaves. -/
theorem State.forwardAs_keeps {pm : Piece → Bool} (h_harn : pm .harn = true) (s : State) (f : Forwarded) :
    Keeps pm s (State.forwardAs s f) := by
  unfold State.forwardAs
  try dsimp only
  repeat' first
    | with_reducible exact Keeps.refl _ _
    | assumption
    | split
    | (with_reducible refine (keeps_harn h_harn).after ?_)
    | (intro)
    | (dsimp only)

/-- What State.markAbsent leaves. -/
theorem State.markAbsent_keeps {pm : Piece → Bool} (h_regs : pm .regs = true) (h_sb : pm .sb = true) (s : State) (h : Word) (absent : Bool) :
    Keeps pm s (State.markAbsent s h absent) := by
  unfold State.markAbsent
  try dsimp only
  repeat' first
    | with_reducible exact Keeps.refl _ _
    | assumption
    | (with_reducible refine (State.setStream_keeps h_regs h_sb _ _ _).after ?_)
    | split
    | (intro)
    | (dsimp only)

/-- What State.absentWrite leaves. -/
theorem State.absentWrite_keeps {pm : Piece → Bool} (h_regs : pm .regs = true) (h_resp : pm .resp = true) (h_msix : pm .msix = true) (h_sb : pm .sb = true) (s : State) (src : Source) (a : Nat) (val : Word) :
    Keeps pm s (State.absentWrite s src a val) := by
  unfold State.absentWrite
  try dsimp only
  repeat' first
    | with_reducible exact Keeps.refl _ _
    | assumption
    | (with_reducible refine (State.absentAccess_keeps h_regs h_msix h_sb _ _ _).after ?_)
    | (with_reducible refine (State.markAbsent_keeps h_regs h_sb _ _ _).after ?_)
    | split
    | (with_reducible refine (keeps_resp h_resp).after ?_)
    | (intro)
    | (dsimp only)

/-- What State.bound leaves. -/
theorem State.bound_keeps {pm : Piece → Bool} (h_regs : pm .regs = true) (h_sb : pm .sb = true) (s : State) (a : Nat) (val : Word) :
    Keeps pm s (State.bound s a val) := by
  unfold State.bound
  try dsimp only
  repeat' first
    | with_reducible exact Keeps.refl _ _
    | assumption
    | (with_reducible refine (State.markAbsent_keeps h_regs h_sb _ _ _).after ?_)
    | split
    | (intro)
    | (dsimp only)

/-- What State.gate leaves. -/
theorem State.gate_keeps {pm : Piece → Bool} (h_regs : pm .regs = true) (h_resp : pm .resp = true) (h_msix : pm .msix = true) (h_sb : pm .sb = true) (h_harn : pm .harn = true) (s : State) (src : Source) (a : Nat) (val : Word) (f : State → State) (hf_f : ∀ (y0 : State), Keeps pm y0 (f y0)) :
    Keeps pm s (State.gate s src a val f) := by
  unfold State.gate
  try dsimp only
  repeat' first
    | with_reducible exact Keeps.refl _ _
    | assumption
    | (with_reducible refine (hf_f _).after ?_)
    | (with_reducible refine (State.busyWrite_keeps h_regs h_msix h_sb _ _ _).after ?_)
    | (with_reducible refine (State.unmapped_keeps h_regs h_msix h_sb _ _ _ _).after ?_)
    | (with_reducible refine (State.forwardAs_keeps h_harn _ _).after ?_)
    | (with_reducible refine (State.absentWrite_keeps h_regs h_resp h_msix h_sb _ _ _ _).after ?_)
    | split
    | (intro)
    | (dsimp only)

end Sys2Proof.Machine
end

