-- ==== Sys2Proof/Laws/KeepsCalWalk.lean ====
section
/-! SUPPORT. What each operation of Machine/CalWalk.lean leaves: the pieces of the state that it does not name, the part, and
the canonical form. -/

namespace Sys2Proof.Machine

/-- What State.setCal leaves. -/
theorem State.setCal_keeps {pm : Piece → Bool} (h_regs : pm .regs = true) (h_cal : pm .cal = true) (s : State) (item unit : Nat) (v : CalVal) :
    Keeps pm s (State.setCal s item unit v) := by
  unfold State.setCal
  try dsimp only
  repeat' first
    | with_reducible exact Keeps.refl _ _
    | assumption
    | (with_reducible refine (State.setFld_keeps h_regs _ _ _).after ?_)
    | split
    | (with_reducible refine (keeps_cal h_cal).after ?_)
    | (intro)
    | (dsimp only)

/-- What State.calTap leaves. -/
theorem State.calTap_keeps {pm : Piece → Bool} (h_regs : pm .regs = true) (h_cal : pm .cal = true) (s : State) (items : List Nat) (units : Option Nat) :
    Keeps pm s (State.calTap s items units) := by
  unfold State.calTap
  try dsimp only
  repeat' first
    | with_reducible exact Keeps.refl _ _
    | assumption
    | (with_reducible refine (State.setCal_keeps h_regs h_cal _ _ _ _).after ?_)
    | split
    | (intro)
    | (dsimp only)

/-- What State.calReport leaves. -/
theorem State.calReport_keeps {pm : Piece → Bool} (h_cal : pm .cal = true) (s : State) (slot : Nat) (w : Word) :
    Keeps pm s (State.calReport s slot w) := by
  unfold State.calReport
  try dsimp only
  repeat' first
    | with_reducible exact Keeps.refl _ _
    | assumption
    | split
    | (with_reducible refine (keeps_cal h_cal).after ?_)
    | (intro)
    | (dsimp only)

end Sys2Proof.Machine
end

