-- ==== Sys2Proof/Laws/KeepsDram.lean ====
section
/-! SUPPORT. What each operation of Machine/Dram.lean leaves: the pieces of the state that it does not name, the part, and
the canonical form. -/

namespace Sys2Proof.Machine

/-- What State.setChan leaves. -/
theorem State.setChan_keeps {pm : Piece → Bool} (h_chans : pm .chans = true) (s : State) (c : Nat) (d : DmcChan) :
    Keeps pm s (State.setChan s c d) := by
  unfold State.setChan
  try dsimp only
  repeat' first
    | with_reducible exact Keeps.refl _ _
    | assumption
    | split
    | (with_reducible refine (keeps_chans h_chans ?_).after ?_)
    | (with_reducible exact fun hc => swf_sset hc.chans _ _)
    | (intro)
    | (dsimp only)

/-- What State.setByte leaves. -/
theorem State.setByte_keeps {pm : Piece → Bool} (h_mem : pm .mem = true) (s : State) (a : Nat) (b : Byte) :
    Keeps pm s (State.setByte s a b) := by
  unfold State.setByte
  try dsimp only
  repeat' first
    | with_reducible exact Keeps.refl _ _
    | assumption
    | split
    | (with_reducible refine (keeps_mem h_mem ?_).after ?_)
    | (exact fun hc => swf_sset (d := fun _ => 0) hc.mem _ _)
    | (exact fun hc => swf_filter (d := fun _ => 0) hc.mem _)
    | (intro)
    | (dsimp only)

/-- What State.setBytes leaves. -/
theorem State.setBytes_keeps {pm : Piece → Bool} (h_mem : pm .mem = true) (s : State) (a : Nat) (z0 : List Byte) :
    Keeps pm s (State.setBytes s a z0) := by
  fun_induction State.setBytes s a z0
  all_goals (try dsimp +zetaDelta only at *)
  repeat' first
    | with_reducible exact Keeps.refl _ _
    | assumption
    | (with_reducible refine (State.setByte_keeps h_mem _ _ _).after ?_)
    | (with_reducible refine Keeps.trans ?_ (by assumption))
    | split
    | (intro)
    | (dsimp only)

/-- What State.markLine leaves. -/
theorem State.markLine_keeps {pm : Piece → Bool} (h_badLines : pm .badLines = true) (s : State) (a : Nat) (bad : Bool) :
    Keeps pm s (State.markLine s a bad) := by
  unfold State.markLine
  try dsimp only
  repeat' first
    | with_reducible exact Keeps.refl _ _
    | assumption
    | split
    | (with_reducible refine (keeps_badLines h_badLines ?_).after ?_)
    | (with_reducible exact fun hc => swf_sset hc.badLines _ _)
    | (intro)
    | (dsimp only)

/-- What State.storeLine leaves. -/
theorem State.storeLine_keeps {pm : Piece → Bool} (h_mem : pm .mem = true) (h_badLines : pm .badLines = true) (s : State) (a : Nat) (l : Line) :
    Keeps pm s (State.storeLine s a l) := by
  unfold State.storeLine
  try dsimp only
  repeat' first
    | with_reducible exact Keeps.refl _ _
    | assumption
    | (with_reducible refine (State.setBytes_keeps h_mem _ _ _).after ?_)
    | (with_reducible refine (State.markLine_keeps h_badLines _ _ _).after ?_)
    | split
    | (intro)
    | (dsimp only)

/-- What State.remapPair leaves. -/
theorem State.remapPair_keeps {pm : Piece → Bool} (h_regs : pm .regs = true) (h_msix : pm .msix = true) (h_sb : pm .sb = true) (h_chans : pm .chans = true) (h_repeatAge : pm .repeatAge = true) (s : State) (c pair k : Nat) :
    Keeps pm s (State.remapPair s c pair k) := by
  unfold State.remapPair
  try dsimp only
  repeat' first
    | with_reducible exact Keeps.refl _ _
    | assumption
    | (with_reducible refine (State.setFld_keeps h_regs _ _ _).after ?_)
    | (with_reducible refine (State.dmcEvent_keeps h_regs h_msix h_sb _ _ _ _ _ _).after ?_)
    | (with_reducible refine (State.repeatDrop_keeps h_regs h_repeatAge _ _).after ?_)
    | (with_reducible refine (State.setChan_keeps h_chans _ _ _).after ?_)
    | split
    | (intro)
    | (dsimp only)

/-- What State.issued leaves. -/
theorem State.issued_keeps {pm : Piece → Bool} (h_chans : pm .chans = true) (s : State) (c : Nat) (cmd : RetryCmd) :
    Keeps pm s (State.issued s c cmd) := by
  unfold State.issued
  try dsimp only
  repeat' first
    | with_reducible exact Keeps.refl _ _
    | assumption
    | (with_reducible refine (State.setChan_keeps h_chans _ _ _).after ?_)
    | split
    | (intro)
    | (dsimp only)

/-- What State.readLine leaves. -/
theorem State.readLine_keeps {pm : Piece → Bool} (h_regs : pm .regs = true) (h_msix : pm .msix = true) (h_sb : pm .sb = true) (h_mem : pm .mem = true) (h_badLines : pm .badLines = true) (h_chans : pm .chans = true) (h_repeatAge : pm .repeatAge = true) (s : State) (c off : Nat) (errs : List SymErr) :
    Keeps pm s (State.readLine s c off errs).1 := by
  unfold State.readLine
  try dsimp only
  repeat' first
    | with_reducible exact Keeps.refl _ _
    | assumption
    | (with_reducible refine (State.setFld_keeps h_regs _ _ _).after ?_)
    | (with_reducible refine (State.bump_keeps h_regs _ _).after ?_)
    | (with_reducible refine (State.dmcEvent_keeps h_regs h_msix h_sb _ _ _ _ _ _).after ?_)
    | (with_reducible refine (State.correction_keeps h_regs h_msix h_sb h_repeatAge _ _ _ _ _).after ?_)
    | (with_reducible refine (State.correction_keeps_eq h_regs h_msix h_sb h_repeatAge _ _ _ _ _ (by assumption)).after ?_)
    | (with_reducible refine (State.markLine_keeps h_badLines _ _ _).after ?_)
    | (with_reducible refine (State.storeLine_keeps h_mem h_badLines _ _ _).after ?_)
    | (with_reducible refine (State.remapPair_keeps h_regs h_msix h_sb h_chans h_repeatAge _ _ _ _).after ?_)
    | split
    | (intro)
    | (dsimp only)

/-- What State.readLine leaves, its answer taken apart. -/
theorem State.readLine_keeps_eq {pm : Piece → Bool} (h_regs : pm .regs = true) (h_msix : pm .msix = true) (h_sb : pm .sb = true) (h_mem : pm .mem = true) (h_badLines : pm .badLines = true) (h_chans : pm .chans = true) (h_repeatAge : pm .repeatAge = true) (s : State) (c off : Nat) (errs : List SymErr) {t : State} {r : Line}
    (e : State.readLine s c off errs = (t, r)) : Keeps pm s t := by
  have q := State.readLine_keeps (pm := pm) h_regs h_msix h_sb h_mem h_badLines h_chans h_repeatAge s c off errs
  rw [e] at q
  exact q

/-- What State.retirePair leaves. -/
theorem State.retirePair_keeps {pm : Piece → Bool} (h_regs : pm .regs = true) (h_msix : pm .msix = true) (h_sb : pm .sb = true) (h_mem : pm .mem = true) (h_badLines : pm .badLines = true) (h_chans : pm .chans = true) (h_repeatAge : pm .repeatAge = true) (s : State) (c : Nat) (e : WqEntry) (errs : List SymErr) :
    Keeps pm s (State.retirePair s c e errs) := by
  unfold State.retirePair
  try dsimp only
  repeat' first
    | with_reducible exact Keeps.refl _ _
    | assumption
    | (with_reducible refine (State.bump_keeps h_regs _ _).after ?_)
    | (with_reducible refine (State.storeLine_keeps h_mem h_badLines _ _ _).after ?_)
    | (with_reducible refine (State.issued_keeps h_chans _ _ _).after ?_)
    | (with_reducible refine (State.readLine_keeps h_regs h_msix h_sb h_mem h_badLines h_chans h_repeatAge _ _ _ _).after ?_)
    | (with_reducible refine (State.readLine_keeps_eq h_regs h_msix h_sb h_mem h_badLines h_chans h_repeatAge _ _ _ _ (by assumption)).after ?_)
    | split
    | (intro)
    | (dsimp only)

/-- What State.drainWrites leaves. -/
theorem State.drainWrites_keeps {pm : Piece → Bool} (h_regs : pm .regs = true) (h_msix : pm .msix = true) (h_sb : pm .sb = true) (h_mem : pm .mem = true) (h_badLines : pm .badLines = true) (h_chans : pm .chans = true) (h_repeatAge : pm .repeatAge = true) (s : State) (c : Nat) :
    Keeps pm s (State.drainWrites s c) := by
  unfold State.drainWrites
  try dsimp only
  repeat' first
    | with_reducible exact Keeps.refl _ _
    | assumption
    | (with_reducible refine (State.setChan_keeps h_chans _ _ _).after ?_)
    | (with_reducible refine (State.retirePair_keeps h_regs h_msix h_sb h_mem h_badLines h_chans h_repeatAge _ _ _ _).after ?_)
    | (with_reducible refine (keeps_foldl ?_ _ _).after ?_)
    | split
    | (intro)
    | (dsimp only)

/-- What State.acceptLine leaves. -/
theorem State.acceptLine_keeps {pm : Piece → Bool} (h_regs : pm .regs = true) (h_msix : pm .msix = true) (h_sb : pm .sb = true) (h_mem : pm .mem = true) (h_badLines : pm .badLines = true) (h_chans : pm .chans = true) (h_repeatAge : pm .repeatAge = true) (s : State) (c off : Nat) (l : Line) (errs : List SymErr) :
    Keeps pm s (State.acceptLine s c off l errs) := by
  unfold State.acceptLine
  try dsimp only
  repeat' first
    | with_reducible exact Keeps.refl _ _
    | assumption
    | (with_reducible refine (State.setChan_keeps h_chans _ _ _).after ?_)
    | (with_reducible refine (State.retirePair_keeps h_regs h_msix h_sb h_mem h_badLines h_chans h_repeatAge _ _ _ _).after ?_)
    | split
    | (intro)
    | (dsimp only)

/-- What State.dmcWake leaves. -/
theorem State.dmcWake_keeps {pm : Piece → Bool} (h_regs : pm .regs = true) (s : State) (c : Nat) :
    Keeps pm s (State.dmcWake s c) := by
  unfold State.dmcWake
  try dsimp only
  repeat' first
    | with_reducible exact Keeps.refl _ _
    | assumption
    | (with_reducible refine (State.setFld_keeps h_regs _ _ _).after ?_)
    | split
    | (intro)
    | (dsimp only)

/-- What State.activate leaves. -/
theorem State.activate_keeps {pm : Piece → Bool} (h_regs : pm .regs = true) (h_msix : pm .msix = true) (h_sb : pm .sb = true) (h_chans : pm .chans = true) (s : State) (c req cls off : Nat) :
    Keeps pm s (State.activate s c req cls off) := by
  unfold State.activate
  try dsimp only
  repeat' first
    | with_reducible exact Keeps.refl _ _
    | assumption
    | (with_reducible refine (State.setReg_keeps h_regs _ _ _).after ?_)
    | (with_reducible refine (State.dmcEvent_keeps h_regs h_msix h_sb _ _ _ _ _ _).after ?_)
    | (with_reducible refine (State.setChan_keeps h_chans _ _ _).after ?_)
    | split
    | (intro)
    | (dsimp only)

/-- What State.readUse leaves. -/
theorem State.readUse_keeps {pm : Piece → Bool} (h_regs : pm .regs = true) (h_msix : pm .msix = true) (h_sb : pm .sb = true) (h_chans : pm .chans = true) (s : State) (req cls c off : Nat) (first : Bool) :
    Keeps pm s (State.readUse s req cls c off first) := by
  unfold State.readUse
  try dsimp only
  repeat' first
    | with_reducible exact Keeps.refl _ _
    | assumption
    | (with_reducible refine (State.bump_keeps h_regs _ _).after ?_)
    | (with_reducible refine (State.countDelayed_keeps h_regs _ _ _).after ?_)
    | (with_reducible refine (State.issued_keeps h_chans _ _ _).after ?_)
    | (with_reducible refine (State.dmcWake_keeps h_regs _ _).after ?_)
    | (with_reducible refine (State.activate_keeps h_regs h_msix h_sb h_chans _ _ _ _ _).after ?_)
    | split
    | (intro)
    | (dsimp only)

/-- What State.dramUse leaves. -/
theorem State.dramUse_keeps {pm : Piece → Bool} (h_regs : pm .regs = true) (h_msix : pm .msix = true) (h_sb : pm .sb = true) (h_chans : pm .chans = true) (s : State) (req cls off n : Nat) :
    Keeps pm s (State.dramUse s req cls off n) := by
  unfold State.dramUse
  try dsimp only
  repeat' first
    | with_reducible exact Keeps.refl _ _
    | assumption
    | (with_reducible refine (State.readUse_keeps h_regs h_msix h_sb h_chans _ _ _ _ _ _).after ?_)
    | (with_reducible refine (keeps_foldl ?_ _ _).after ?_)
    | split
    | (intro)
    | (dsimp only)

/-- What State.setDramWord leaves. -/
theorem State.setDramWord_keeps {pm : Piece → Bool} (h_regs : pm .regs = true) (h_msix : pm .msix = true) (h_sb : pm .sb = true) (h_mem : pm .mem = true) (h_badLines : pm .badLines = true) (h_chans : pm .chans = true) (h_repeatAge : pm .repeatAge = true) (s : State) (off : Nat) (w : PWord) :
    Keeps pm s (State.setDramWord s off w) := by
  unfold State.setDramWord
  try dsimp only
  repeat' first
    | with_reducible exact Keeps.refl _ _
    | assumption
    | (with_reducible refine (State.bump_keeps h_regs _ _).after ?_)
    | (with_reducible refine (State.acceptLine_keeps h_regs h_msix h_sb h_mem h_badLines h_chans h_repeatAge _ _ _ _ _).after ?_)
    | (with_reducible refine (State.dmcWake_keeps h_regs _ _).after ?_)
    | (with_reducible refine (State.activate_keeps h_regs h_msix h_sb h_chans _ _ _ _ _).after ?_)
    | split
    | (intro)
    | (dsimp only)

/-- What State.setDramWords leaves. -/
theorem State.setDramWords_keeps {pm : Piece → Bool} (h_regs : pm .regs = true) (h_msix : pm .msix = true) (h_sb : pm .sb = true) (h_mem : pm .mem = true) (h_badLines : pm .badLines = true) (h_chans : pm .chans = true) (h_repeatAge : pm .repeatAge = true) (s : State) (off : Nat) (z0 : List PWord) :
    Keeps pm s (State.setDramWords s off z0) := by
  fun_induction State.setDramWords s off z0
  all_goals (try dsimp +zetaDelta only at *)
  repeat' first
    | with_reducible exact Keeps.refl _ _
    | assumption
    | (with_reducible refine (State.setDramWord_keeps h_regs h_msix h_sb h_mem h_badLines h_chans h_repeatAge _ _ _).after ?_)
    | (with_reducible refine Keeps.trans ?_ (by assumption))
    | split
    | (intro)
    | (dsimp only)

/-- What State.refreshRate leaves. -/
theorem State.refreshRate_keeps {pm : Piece → Bool} (h_regs : pm .regs = true) (h_msix : pm .msix = true) (h_sb : pm .sb = true) (s : State) (c : Nat) :
    Keeps pm s (State.refreshRate s c) := by
  unfold State.refreshRate
  try dsimp only
  repeat' first
    | with_reducible exact Keeps.refl _ _
    | assumption
    | (with_reducible refine (State.setFld_keeps h_regs _ _ _).after ?_)
    | (with_reducible refine (State.dmcEvent_keeps h_regs h_msix h_sb _ _ _ _ _ _).after ?_)
    | split
    | (intro)
    | (dsimp only)

/-- What State.dramBand leaves. -/
theorem State.dramBand_keeps {pm : Piece → Bool} (h_regs : pm .regs = true) (h_msix : pm .msix = true) (h_sb : pm .sb = true) (h_chans : pm .chans = true) (s : State) (c band : Nat) :
    Keeps pm s (State.dramBand s c band) := by
  unfold State.dramBand
  try dsimp only
  repeat' first
    | with_reducible exact Keeps.refl _ _
    | assumption
    | (with_reducible refine (State.setChan_keeps h_chans _ _ _).after ?_)
    | (with_reducible refine (State.refreshRate_keeps h_regs h_msix h_sb _ _).after ?_)
    | split
    | (intro)
    | (dsimp only)

/-- What State.fetchersAtPeriod leaves. -/
theorem State.fetchersAtPeriod_keeps {pm : Piece → Bool} (h_regs : pm .regs = true) (h_chans : pm .chans = true) (s : State) (c period : Nat) :
    Keeps pm s (State.fetchersAtPeriod s c period) := by
  unfold State.fetchersAtPeriod
  try dsimp only
  repeat' first
    | with_reducible exact Keeps.refl _ _
    | assumption
    | (with_reducible refine (State.setFld_keeps h_regs _ _ _).after ?_)
    | (with_reducible refine (State.setChan_keeps h_chans _ _ _).after ?_)
    | (with_reducible refine (keeps_foldl ?_ _ _).after ?_)
    | split
    | (intro)
    | (dsimp only)

/-- What State.isoFetch leaves. -/
theorem State.isoFetch_keeps {pm : Piece → Bool} (h_regs : pm .regs = true) (h_msix : pm .msix = true) (h_sb : pm .sb = true) (h_chans : pm .chans = true) (s : State) (c f : Nat) :
    Keeps pm s (State.isoFetch s c f) := by
  unfold State.isoFetch
  try dsimp only
  repeat' first
    | with_reducible exact Keeps.refl _ _
    | assumption
    | (with_reducible refine (State.setChan_keeps h_chans _ _ _).after ?_)
    | (with_reducible refine (State.dramUse_keeps h_regs h_msix h_sb h_chans _ _ _ _ _).after ?_)
    | (with_reducible refine (keeps_foldl ?_ _ _).after ?_)
    | split
    | (intro)
    | (dsimp only)

/-- What State.isoDeliver leaves. -/
theorem State.isoDeliver_keeps {pm : Piece → Bool} (h_regs : pm .regs = true) (h_msix : pm .msix = true) (h_sb : pm .sb = true) (h_chans : pm .chans = true) (s : State) (c : Nat) :
    Keeps pm s (State.isoDeliver s c) := by
  unfold State.isoDeliver
  try dsimp only
  repeat' first
    | with_reducible exact Keeps.refl _ _
    | assumption
    | (with_reducible refine (State.pushWords_keeps h_regs h_msix h_sb _ _ _ _).after ?_)
    | (with_reducible refine (State.setChan_keeps h_chans _ _ _).after ?_)
    | (with_reducible refine (keeps_foldl ?_ _ _).after ?_)
    | split
    | (intro)
    | (dsimp only)

/-- What State.dramBoundary leaves. -/
theorem State.dramBoundary_keeps {pm : Piece → Bool} (h_regs : pm .regs = true) (h_msix : pm .msix = true) (h_sb : pm .sb = true) (h_chans : pm .chans = true) (s : State) (c : Nat) :
    Keeps pm s (State.dramBoundary s c) := by
  unfold State.dramBoundary
  try dsimp only
  repeat' first
    | with_reducible exact Keeps.refl _ _
    | assumption
    | (with_reducible refine (State.setChan_keeps h_chans _ _ _).after ?_)
    | (with_reducible refine (State.dramBand_keeps h_regs h_msix h_sb h_chans _ _ _).after ?_)
    | (with_reducible refine (State.isoFetch_keeps h_regs h_msix h_sb h_chans _ _ _).after ?_)
    | (with_reducible refine (keeps_foldl ?_ _ _).after ?_)
    | split
    | (intro)
    | (dsimp only)

/-- What State.answer leaves. -/
theorem State.answer_keeps {pm : Piece → Bool} (h_regs : pm .regs = true) (h_resp : pm .resp = true) (s : State) (req code : Nat) (delayed poison : Bool) (ws : List Word) :
    Keeps pm s (State.answer s req code delayed poison ws) := by
  unfold State.answer
  try dsimp only
  repeat' first
    | with_reducible exact Keeps.refl _ _
    | assumption
    | (with_reducible refine (State.countDelayed_keeps h_regs _ _ _).after ?_)
    | split
    | (with_reducible refine (keeps_resp h_resp).after ?_)
    | (intro)
    | (dsimp only)

/-- What State.bar4Hole leaves. -/
theorem State.bar4Hole_keeps {pm : Piece → Bool} (h_regs : pm .regs = true) (h_readData : pm .readData = true) (h_resp : pm .resp = true) (h_msix : pm .msix = true) (h_sb : pm .sb = true) (s : State) (off : Nat) (read : Bool) :
    Keeps pm s (State.bar4Hole s off read) := by
  unfold State.bar4Hole
  try dsimp only
  repeat' first
    | with_reducible exact Keeps.refl _ _
    | assumption
    | (with_reducible refine (State.unmapped_keeps h_regs h_msix h_sb _ _ _ _).after ?_)
    | split
    | (with_reducible refine (keeps_readData_resp h_readData h_resp).after ?_)
    | (intro)
    | (dsimp only)

/-- What State.writeDmcCfg leaves. -/
theorem State.writeDmcCfg_keeps {pm : Piece → Bool} (h_regs : pm .regs = true) (h_msix : pm .msix = true) (h_sb : pm .sb = true) (h_chans : pm .chans = true) (s : State) (src : Source) (chan : Nat) (val : Word) :
    Keeps pm s (State.writeDmcCfg s src chan val) := by
  unfold State.writeDmcCfg
  try dsimp only
  repeat' first
    | with_reducible exact Keeps.refl _ _
    | assumption
    | (with_reducible refine (State.setReg_keeps h_regs _ _ _).after ?_)
    | (with_reducible refine (State.setFld_keeps h_regs _ _ _).after ?_)
    | (with_reducible refine (State.busyWrite_keeps h_regs h_msix h_sb _ _ _).after ?_)
    | (with_reducible refine (State.setChan_keeps h_chans _ _ _).after ?_)
    | split
    | (intro)
    | (dsimp only)

/-- What State.dmcFail leaves. -/
theorem State.dmcFail_keeps {pm : Piece → Bool} (h_regs : pm .regs = true) (h_chans : pm .chans = true) (s : State) (c cause : Nat) :
    Keeps pm s (State.dmcFail s c cause) := by
  unfold State.dmcFail
  try dsimp only
  repeat' first
    | with_reducible exact Keeps.refl _ _
    | assumption
    | (with_reducible refine (State.setFld_keeps h_regs _ _ _).after ?_)
    | (with_reducible refine (State.bumpBy_keeps h_regs _ _ _).after ?_)
    | (with_reducible refine (State.setChan_keeps h_chans _ _ _).after ?_)
    | (with_reducible refine (keeps_foldl ?_ _ _).after ?_)
    | split
    | (intro)
    | (dsimp only)

/-- What State.fillChannel leaves. -/
theorem State.fillChannel_keeps {pm : Piece → Bool} (h_mem : pm .mem = true) (h_badLines : pm .badLines = true) (s : State) (c : Nat) :
    Keeps pm s (State.fillChannel s c) := by
  unfold State.fillChannel
  try dsimp only
  repeat' first
    | with_reducible exact Keeps.refl _ _
    | assumption
    | split
    | (with_reducible refine (keeps_mem_badLines h_mem h_badLines ?_ ?_).after ?_)
    | (with_reducible exact fun hc => swf_sset hc.badLines _ _)
    | (with_reducible exact fun hc => swf_filter hc.badLines _)
    | (exact fun hc => swf_sset (d := fun _ => 0) hc.mem _ _)
    | (exact fun hc => swf_filter (d := fun _ => 0) hc.mem _)
    | (intro)
    | (dsimp only)

/-- What State.bootRepair leaves. -/
theorem State.bootRepair_keeps {pm : Piece → Bool} (h_regs : pm .regs = true) (h_chans : pm .chans = true) (s : State) (c : Nat) (repaired : List Nat) :
    Keeps pm s (State.bootRepair s c repaired) := by
  unfold State.bootRepair
  try dsimp only
  repeat' first
    | with_reducible exact Keeps.refl _ _
    | assumption
    | (with_reducible refine (State.setFld_keeps h_regs _ _ _).after ?_)
    | (with_reducible refine (State.setChan_keeps h_chans _ _ _).after ?_)
    | split
    | (intro)
    | (dsimp only)

/-- What State.forwardedLine leaves. -/
theorem State.forwardedLine_keeps {pm : Piece → Bool} (h_regs : pm .regs = true) (h_readData : pm .readData = true) (h_resp : pm .resp = true) (h_msix : pm .msix = true) (h_sb : pm .sb = true) (h_mem : pm .mem = true) (h_badLines : pm .badLines = true) (h_chans : pm .chans = true) (h_repeatAge : pm .repeatAge = true) (s : State) (chan off : Nat) (data : List Word) (poison : Bool) :
    Keeps pm s (State.forwardedLine s chan off data poison) := by
  unfold State.forwardedLine
  try dsimp only
  repeat' first
    | with_reducible exact Keeps.refl _ _
    | assumption
    | (with_reducible refine (State.bump_keeps h_regs _ _).after ?_)
    | (with_reducible refine (State.acceptLine_keeps h_regs h_msix h_sb h_mem h_badLines h_chans h_repeatAge _ _ _ _ _).after ?_)
    | (with_reducible refine (State.dmcWake_keeps h_regs _ _).after ?_)
    | (with_reducible refine (State.activate_keeps h_regs h_msix h_sb h_chans _ _ _ _ _).after ?_)
    | (with_reducible refine (State.bar4Hole_keeps h_regs h_readData h_resp h_msix h_sb _ _ _).after ?_)
    | split
    | (intro)
    | (dsimp only)

/-- What State.reissue leaves. -/
theorem State.reissue_keeps {pm : Piece → Bool} (h_mem : pm .mem = true) (h_badLines : pm .badLines = true) (s : State) (c : Nat) (z0 : RetryCmd) :
    Keeps pm s (State.reissue s c z0) := by
  unfold State.reissue
  try dsimp only
  repeat' first
    | with_reducible exact Keeps.refl _ _
    | assumption
    | (with_reducible refine (State.storeLine_keeps h_mem h_badLines _ _ _).after ?_)
    | split
    | (intro)
    | (dsimp only)

/-- What State.replay leaves. -/
theorem State.replay_keeps {pm : Piece → Bool} (h_mem : pm .mem = true) (h_badLines : pm .badLines = true) (h_chans : pm .chans = true) (s : State) (c since : Nat) :
    Keeps pm s (State.replay s c since) := by
  unfold State.replay
  try dsimp only
  repeat' first
    | with_reducible exact Keeps.refl _ _
    | assumption
    | (with_reducible refine (State.setChan_keeps h_chans _ _ _).after ?_)
    | (with_reducible refine (State.reissue_keeps h_mem h_badLines _ _ _).after ?_)
    | (with_reducible refine (keeps_foldl ?_ _ _).after ?_)
    | split
    | (intro)
    | (dsimp only)

/-- What State.writeIsoCtrl leaves. -/
theorem State.writeIsoCtrl_keeps {pm : Piece → Bool} (h_regs : pm .regs = true) (h_chans : pm .chans = true) (s : State) (chan fetch : Nat) (val : Word) :
    Keeps pm s (State.writeIsoCtrl s chan fetch val) := by
  unfold State.writeIsoCtrl
  try dsimp only
  repeat' first
    | with_reducible exact Keeps.refl _ _
    | assumption
    | (with_reducible refine (State.setReg_keeps h_regs _ _ _).after ?_)
    | (with_reducible refine (State.setFld_keeps h_regs _ _ _).after ?_)
    | (with_reducible refine (State.setChan_keeps h_chans _ _ _).after ?_)
    | split
    | (intro)
    | (dsimp only)

end Sys2Proof.Machine
end

