-- ==== Sys2Proof/Laws/KeepsSaddlebag.lean ====
section
/-! SUPPORT. What each operation of Machine/Saddlebag.lean leaves: the pieces of the state that it does not name, the part, and
the canonical form. -/

namespace Sys2Proof.Machine

/-- What State.portEnds leaves. -/
theorem State.portEnds_keeps {pm : Piece → Bool} (h_regs : pm .regs = true) (h_sb : pm .sb = true) (s : State) (result : Nat) (h : Word) :
    Keeps pm s (State.portEnds s result h) := by
  unfold State.portEnds
  try dsimp only
  repeat' first
    | with_reducible exact Keeps.refl _ _
    | assumption
    | (with_reducible refine (State.setReg_keeps h_regs _ _ _).after ?_)
    | (with_reducible refine (State.setFld_keeps h_regs _ _ _).after ?_)
    | split
    | (with_reducible refine (keeps_sb h_sb ?_).after ?_)
    | (exact fun hc => hc.streams)
    | (with_reducible exact fun hc => swf_sset hc.streams _ _)
    | (intro)
    | (dsimp only)

/-- What State.sbCreate leaves. -/
theorem State.sbCreate_keeps {pm : Piece → Bool} (h_regs : pm .regs = true) (h_fresh : pm .fresh = true) (h_sb : pm .sb = true) (s : State) :
    Keeps pm s (State.sbCreate s) := by
  unfold State.sbCreate
  try dsimp only
  repeat' first
    | with_reducible exact Keeps.refl _ _
    | assumption
    | (with_reducible refine (State.setFld_keeps h_regs _ _ _).after ?_)
    | (with_reducible refine (State.bumpBy_keeps h_regs _ _ _).after ?_)
    | (with_reducible refine (State.tookFree_keeps h_fresh _).after ?_)
    | (with_reducible refine (State.portEnds_keeps h_regs h_sb _ _ _).after ?_)
    | split
    | (with_reducible refine (keeps_sb h_sb ?_).after ?_)
    | (exact fun hc => hc.streams)
    | (with_reducible exact fun hc => swf_sset hc.streams _ _)
    | (intro)
    | (dsimp only)

/-- What State.sbDestroy leaves. -/
theorem State.sbDestroy_keeps {pm : Piece → Bool} (h_regs : pm .regs = true) (h_sb : pm .sb = true) (s : State) :
    Keeps pm s (State.sbDestroy s) := by
  unfold State.sbDestroy
  try dsimp only
  repeat' first
    | with_reducible exact Keeps.refl _ _
    | assumption
    | (with_reducible refine (State.setFld_keeps h_regs _ _ _).after ?_)
    | (with_reducible refine (State.portEnds_keeps h_regs h_sb _ _ _).after ?_)
    | split
    | (with_reducible refine (keeps_sb h_sb ?_).after ?_)
    | (exact fun hc => hc.streams)
    | (with_reducible exact fun hc => swf_sset hc.streams _ _)
    | (intro)
    | (dsimp only)

/-- What State.dropWaits leaves. -/
theorem State.dropWaits_keeps {pm : Piece → Bool} (h_regs : pm .regs = true) (h_readData : pm .readData = true) (h_resp : pm .resp = true) (h_sb : pm .sb = true) (s : State) (key : Nat) :
    Keeps pm s (State.dropWaits s key) := by
  unfold State.dropWaits
  try dsimp only
  repeat' first
    | with_reducible exact Keeps.refl _ _
    | assumption
    | (with_reducible refine (State.respond_keeps h_regs h_readData h_resp _ _ _ _ _ _ _).after ?_)
    | (with_reducible refine (keeps_foldl ?_ _ _).after ?_)
    | split
    | (with_reducible refine (keeps_sb h_sb ?_).after ?_)
    | (exact fun hc => hc.streams)
    | (with_reducible exact fun hc => swf_sset hc.streams _ _)
    | (intro)
    | (dsimp only)

/-- What State.freeStream leaves. -/
theorem State.freeStream_keeps {pm : Piece → Bool} (h_regs : pm .regs = true) (h_readData : pm .readData = true) (h_resp : pm .resp = true) (h_sb : pm .sb = true) (s : State) (key : Nat) :
    Keeps pm s (State.freeStream s key) := by
  unfold State.freeStream
  try dsimp only
  repeat' first
    | with_reducible exact Keeps.refl _ _
    | assumption
    | (with_reducible refine (State.setFld_keeps h_regs _ _ _).after ?_)
    | (with_reducible refine (State.setStream_keeps h_regs h_sb _ _ _).after ?_)
    | (with_reducible refine (State.dropWaits_keeps h_regs h_readData h_resp h_sb _ _).after ?_)
    | split
    | (intro)
    | (dsimp only)

/-- What State.portBoundary leaves. -/
theorem State.portBoundary_keeps {pm : Piece → Bool} (h_regs : pm .regs = true) (h_readData : pm .readData = true) (h_resp : pm .resp = true) (h_sb : pm .sb = true) (s : State) :
    Keeps pm s (State.portBoundary s) := by
  unfold State.portBoundary
  try dsimp only
  repeat' first
    | with_reducible exact Keeps.refl _ _
    | assumption
    | (with_reducible refine (State.portEnds_keeps h_regs h_sb _ _ _).after ?_)
    | (with_reducible refine (State.freeStream_keeps h_regs h_readData h_resp h_sb _ _).after ?_)
    | split
    | (intro)
    | (dsimp only)

/-- What State.makeInternal leaves. -/
theorem State.makeInternal_keeps {pm : Piece → Bool} (h_regs : pm .regs = true) (h_fresh : pm .fresh = true) (h_sb : pm .sb = true) (s : State) (cls size : Nat) :
    Keeps pm s (State.makeInternal s cls size).1 := by
  unfold State.makeInternal
  try dsimp only
  repeat' first
    | with_reducible exact Keeps.refl _ _
    | assumption
    | (with_reducible refine (State.bumpBy_keeps h_regs _ _ _).after ?_)
    | (with_reducible refine (State.tookFree_keeps h_fresh _).after ?_)
    | (with_reducible refine (State.setStream_keeps h_regs h_sb _ _ _).after ?_)
    | split
    | (intro)
    | (dsimp only)

/-- What State.makeInternal leaves, its answer taken apart. -/
theorem State.makeInternal_keeps_eq {pm : Piece → Bool} (h_regs : pm .regs = true) (h_fresh : pm .fresh = true) (h_sb : pm .sb = true) (s : State) (cls size : Nat) {t : State} {r : Word}
    (e : State.makeInternal s cls size = (t, r)) : Keeps pm s t := by
  have q := State.makeInternal_keeps (pm := pm) h_regs h_fresh h_sb s cls size
  rw [e] at q
  exact q

/-- What State.dropInternal leaves. -/
theorem State.dropInternal_keeps {pm : Piece → Bool} (h_regs : pm .regs = true) (h_readData : pm .readData = true) (h_resp : pm .resp = true) (h_sb : pm .sb = true) (s : State) (h : Word) :
    Keeps pm s (State.dropInternal s h) := by
  unfold State.dropInternal
  try dsimp only
  repeat' first
    | with_reducible exact Keeps.refl _ _
    | assumption
    | (with_reducible refine (State.freeStream_keeps h_regs h_readData h_resp h_sb _ _).after ?_)
    | split
    | (intro)
    | (dsimp only)

/-- What State.writeSbCmd leaves. -/
theorem State.writeSbCmd_keeps {pm : Piece → Bool} (h_regs : pm .regs = true) (s : State) (val : Word) :
    Keeps pm s (State.writeSbCmd s val) := by
  unfold State.writeSbCmd
  try dsimp only
  repeat' first
    | with_reducible exact Keeps.refl _ _
    | assumption
    | (with_reducible refine (State.setReg_keeps h_regs _ _ _).after ?_)
    | split
    | (intro)
    | (dsimp only)

/-- What State.writePort leaves. -/
theorem State.writePort_keeps {pm : Piece → Bool} (h_regs : pm .regs = true) (h_msix : pm .msix = true) (h_fresh : pm .fresh = true) (h_sb : pm .sb = true) (s : State) (src : Source) (val : Word) :
    Keeps pm s (State.writePort s src val) := by
  unfold State.writePort
  try dsimp only
  repeat' first
    | with_reducible exact Keeps.refl _ _
    | assumption
    | (with_reducible refine (State.busyWrite_keeps h_regs h_msix h_sb _ _ _).after ?_)
    | (with_reducible refine (State.sbCreate_keeps h_regs h_fresh h_sb _).after ?_)
    | (with_reducible refine (State.sbDestroy_keeps h_regs h_sb _).after ?_)
    | (with_reducible refine (State.writeSbCmd_keeps h_regs _ _).after ?_)
    | split
    | (intro)
    | (dsimp only)

/-- What State.blockRequest leaves. -/
theorem State.blockRequest_keeps {pm : Piece → Bool} (h_regs : pm .regs = true) (h_readData : pm .readData = true) (h_resp : pm .resp = true) (h_msix : pm .msix = true) (h_fresh : pm .fresh = true) (h_sb : pm .sb = true) (h_repeatAge : pm .repeatAge = true) (h_hide : pm .hide = true) (s : State) (req : Nat) (h : Word) (push : Option (Nat × PWord × Bool)) (same delayed : Bool) :
    Keeps pm s (State.blockRequest s req h push same delayed) := by
  unfold State.blockRequest
  try dsimp only
  repeat' first
    | with_reducible exact Keeps.refl _ _
    | assumption
    | (with_reducible refine (State.request_keeps h_regs h_readData h_resp h_msix h_fresh h_sb h_repeatAge h_hide _ _ _ _).after ?_)
    | (with_reducible refine (State.serveWaits_keeps h_regs h_readData h_resp h_msix h_fresh h_sb h_repeatAge h_hide _ _).after ?_)
    | split
    | (with_reducible refine (keeps_resp h_resp).after ?_)
    | (intro)
    | (dsimp only)

/-- What State.checkWords leaves. -/
theorem State.checkWords_keeps {pm : Piece → Bool} (h_regs : pm .regs = true) (h_msix : pm .msix = true) (h_sb : pm .sb = true) (h_repeatAge : pm .repeatAge = true) (h_hide : pm .hide = true) (s : State) (key off : Nat) (z0 : List PWord) :
    Keeps pm s (State.checkWords s key off z0).1 := by
  fun_induction State.checkWords s key off z0
  all_goals (try dsimp +zetaDelta only at *)
  repeat' first
    | with_reducible exact Keeps.refl _ _
    | assumption
    | (with_reducible refine (State.checkWord_keeps h_regs h_msix h_sb h_repeatAge h_hide _ _ _ _).after ?_)
    | (with_reducible refine (State.checkWord_keeps_eq h_regs h_msix h_sb h_repeatAge h_hide _ _ _ _ (by assumption)).after ?_)
    | (with_reducible refine Keeps.trans ?_ (by assumption))
    | split
    | (intro)
    | (dsimp only)

/-- What State.checkWords leaves, its answer taken apart. -/
theorem State.checkWords_keeps_eq {pm : Piece → Bool} (h_regs : pm .regs = true) (h_msix : pm .msix = true) (h_sb : pm .sb = true) (h_repeatAge : pm .repeatAge = true) (h_hide : pm .hide = true) (s : State) (key off : Nat) (z0 : List PWord) {t : State} {r : List PWord}
    (e : State.checkWords s key off z0 = (t, r)) : Keeps pm s t := by
  have q := State.checkWords_keeps (pm := pm) h_regs h_msix h_sb h_repeatAge h_hide s key off z0
  rw [e] at q
  exact q

/-- What State.moveOut leaves. -/
theorem State.moveOut_keeps {pm : Piece → Bool} (h_regs : pm .regs = true) (h_msix : pm .msix = true) (h_sb : pm .sb = true) (h_mem : pm .mem = true) (h_badLines : pm .badLines = true) (h_chans : pm .chans = true) (h_repeatAge : pm .repeatAge = true) (h_hide : pm .hide = true) (s : State) (key : Nat) :
    Keeps pm s (State.moveOut s key) := by
  unfold State.moveOut
  try dsimp only
  repeat' first
    | with_reducible exact Keeps.refl _ _
    | assumption
    | (with_reducible refine (State.setStream_keeps h_regs h_sb _ _ _).after ?_)
    | (with_reducible refine (State.setDramWords_keeps h_regs h_msix h_sb h_mem h_badLines h_chans h_repeatAge _ _ _).after ?_)
    | (with_reducible refine (State.checkWords_keeps h_regs h_msix h_sb h_repeatAge h_hide _ _ _ _).after ?_)
    | (with_reducible refine (State.checkWords_keeps_eq h_regs h_msix h_sb h_repeatAge h_hide _ _ _ _ (by assumption)).after ?_)
    | split
    | (intro)
    | (dsimp only)

/-- What State.moveIn leaves. -/
theorem State.moveIn_keeps {pm : Piece → Bool} (h_regs : pm .regs = true) (h_msix : pm .msix = true) (h_sb : pm .sb = true) (h_chans : pm .chans = true) (s : State) (key : Nat) :
    Keeps pm s (State.moveIn s key) := by
  unfold State.moveIn
  try dsimp only
  repeat' first
    | with_reducible exact Keeps.refl _ _
    | assumption
    | (with_reducible refine (State.setStream_keeps h_regs h_sb _ _ _).after ?_)
    | (with_reducible refine (State.dramUse_keeps h_regs h_msix h_sb h_chans _ _ _ _ _).after ?_)
    | split
    | (intro)
    | (dsimp only)

/-- What State.popUntilEnd leaves. -/
theorem State.popUntilEnd_keeps {pm : Piece → Bool} (h_regs : pm .regs = true) (h_msix : pm .msix = true) (h_sb : pm .sb = true) (h_chans : pm .chans = true) (h_repeatAge : pm .repeatAge = true) (h_hide : pm .hide = true) (s : State) (req key : Nat) (z0 : Nat) :
    Keeps pm s (State.popUntilEnd s req key z0).1 := by
  induction z0 generalizing s with
  | zero => exact Keeps.refl _ _
  | succ n ih =>
    unfold State.popUntilEnd
    dsimp only
    generalize hs0 : (if (s.stream key).popWaits = true then s.moveIn key else s) = s0
    have h0 : Keeps pm s s0 := by
      rw [← hs0]
      split
      · exact State.moveIn_keeps h_regs h_msix h_sb h_chans _ _
      · exact Keeps.refl _ _
    generalize (s.stream key).popWaits = waits
    generalize hr : (s0.stream key).pop = r
    split
    · exact h0
    · rename_i w _
      have h1 := ((h0.trans (State.applyQueue_keeps h_regs h_msix h_sb s0 req key r)).trans
        (State.countDelayed_keeps h_regs (s0.applyQueue req key r) req waits)).trans
        (State.checkWord_keeps h_regs h_msix h_sb h_repeatAge h_hide ((s0.applyQueue req key r).countDelayed req waits) key (s0.stream key).popped w.word)
      split
      · exact h1
      · exact h1.trans (ih _)

/-- What State.popUntilEnd leaves, its answer taken apart. -/
theorem State.popUntilEnd_keeps_eq {pm : Piece → Bool} (h_regs : pm .regs = true) (h_msix : pm .msix = true) (h_sb : pm .sb = true) (h_chans : pm .chans = true) (h_repeatAge : pm .repeatAge = true) (h_hide : pm .hide = true) (s : State) (req key : Nat) (z0 : Nat) {t : State} {r : List PWord}
    (e : State.popUntilEnd s req key z0 = (t, r)) : Keeps pm s t := by
  have q := State.popUntilEnd_keeps (pm := pm) h_regs h_msix h_sb h_chans h_repeatAge h_hide s req key z0
  rw [e] at q
  exact q

/-- What State.popPacket leaves. -/
theorem State.popPacket_keeps {pm : Piece → Bool} (h_regs : pm .regs = true) (h_readData : pm .readData = true) (h_resp : pm .resp = true) (h_msix : pm .msix = true) (h_fresh : pm .fresh = true) (h_sb : pm .sb = true) (h_chans : pm .chans = true) (h_repeatAge : pm .repeatAge = true) (h_hide : pm .hide = true) (s : State) (req : Nat) (h : Word) :
    Keeps pm s (State.popPacket s req h).1 := by
  unfold State.popPacket
  try dsimp only
  repeat' first
    | with_reducible exact Keeps.refl _ _
    | assumption
    | (with_reducible refine (State.serveWaits_keeps h_regs h_readData h_resp h_msix h_fresh h_sb h_repeatAge h_hide _ _).after ?_)
    | (with_reducible refine (State.popUntilEnd_keeps h_regs h_msix h_sb h_chans h_repeatAge h_hide _ _ _ _).after ?_)
    | (with_reducible refine (State.popUntilEnd_keeps_eq h_regs h_msix h_sb h_chans h_repeatAge h_hide _ _ _ _ (by assumption)).after ?_)
    | split
    | (intro)
    | (dsimp only)

/-- What State.popPacket leaves, its answer taken apart. -/
theorem State.popPacket_keeps_eq {pm : Piece → Bool} (h_regs : pm .regs = true) (h_readData : pm .readData = true) (h_resp : pm .resp = true) (h_msix : pm .msix = true) (h_fresh : pm .fresh = true) (h_sb : pm .sb = true) (h_chans : pm .chans = true) (h_repeatAge : pm .repeatAge = true) (h_hide : pm .hide = true) (s : State) (req : Nat) (h : Word) {t : State} {r : List PWord}
    (e : State.popPacket s req h = (t, r)) : Keeps pm s t := by
  have q := State.popPacket_keeps (pm := pm) h_regs h_readData h_resp h_msix h_fresh h_sb h_chans h_repeatAge h_hide s req h
  rw [e] at q
  exact q

/-- What State.aperHole leaves. -/
theorem State.aperHole_keeps {pm : Piece → Bool} (h_regs : pm .regs = true) (h_readData : pm .readData = true) (h_msix : pm .msix = true) (h_sb : pm .sb = true) (s : State) (a off : Nat) (read : Bool) :
    Keeps pm s (State.aperHole s a off read) := by
  unfold State.aperHole
  try dsimp only
  repeat' first
    | with_reducible exact Keeps.refl _ _
    | assumption
    | (with_reducible refine (State.unmapped_keeps h_regs h_msix h_sb _ _ _ _).after ?_)
    | split
    | (with_reducible refine (keeps_readData h_readData).after ?_)
    | (intro)
    | (dsimp only)

/-- What State.aperGate leaves. -/
theorem State.aperGate_keeps {pm : Piece → Bool} (h_regs : pm .regs = true) (h_readData : pm .readData = true) (h_msix : pm .msix = true) (h_sb : pm .sb = true) (h_harn : pm .harn = true) (s : State) (a off : Nat) (wr : Option Word) (f : State → State) (hf_f : ∀ (y0 : State), Keeps pm y0 (f y0)) :
    Keeps pm s (State.aperGate s a off wr f) := by
  unfold State.aperGate
  try dsimp only
  repeat' first
    | with_reducible exact Keeps.refl _ _
    | assumption
    | (with_reducible refine (hf_f _).after ?_)
    | (with_reducible refine (State.accessEvent_keeps h_regs h_msix h_sb _ _ _ _ _).after ?_)
    | (with_reducible refine (State.forwardAs_keeps h_harn _ _).after ?_)
    | (with_reducible refine (State.aperHole_keeps h_regs h_readData h_msix h_sb _ _ _ _).after ?_)
    | split
    | (intro)
    | (dsimp only)

/-- What State.aperBuffer leaves. -/
theorem State.aperBuffer_keeps {pm : Piece → Bool} (h_regs : pm .regs = true) (h_readData : pm .readData = true) (h_resp : pm .resp = true) (h_msix : pm .msix = true) (h_sb : pm .sb = true) (h_repeatAge : pm .repeatAge = true) (h_hide : pm .hide = true) (s : State) (a off : Nat) (wr : Option Word) :
    Keeps pm s (State.aperBuffer s a off wr) := by
  unfold State.aperBuffer
  try dsimp only
  repeat' first
    | with_reducible exact Keeps.refl _ _
    | assumption
    | (with_reducible refine (State.setBufWord_keeps h_regs h_sb h_hide _ _ _ _).after ?_)
    | (with_reducible refine (State.readBuf_keeps h_regs h_msix h_sb h_repeatAge h_hide _ _ _).after ?_)
    | (with_reducible refine (State.readBuf_keeps_eq h_regs h_msix h_sb h_repeatAge h_hide _ _ _ (by assumption)).after ?_)
    | (with_reducible refine (State.aperHole_keeps h_regs h_readData h_msix h_sb _ _ _ _).after ?_)
    | split
    | (with_reducible refine (keeps_readData_resp h_readData h_resp).after ?_)
    | (with_reducible refine (keeps_resp h_resp).after ?_)
    | (intro)
    | (dsimp only)

/-- What State.aperRequest leaves. -/
theorem State.aperRequest_keeps {pm : Piece → Bool} (h_regs : pm .regs = true) (h_readData : pm .readData = true) (h_resp : pm .resp = true) (h_msix : pm .msix = true) (h_fresh : pm .fresh = true) (h_sb : pm .sb = true) (h_repeatAge : pm .repeatAge = true) (h_hide : pm .hide = true) (s : State) (a off : Nat) (wr : Option Word) (last : Bool) :
    Keeps pm s (State.aperRequest s a off wr last) := by
  unfold State.aperRequest
  try dsimp only
  repeat' first
    | with_reducible exact Keeps.refl _ _
    | assumption
    | (with_reducible refine (State.request_keeps h_regs h_readData h_resp h_msix h_fresh h_sb h_repeatAge h_hide _ _ _ _).after ?_)
    | (with_reducible refine (State.serveWaits_keeps h_regs h_readData h_resp h_msix h_fresh h_sb h_repeatAge h_hide _ _).after ?_)
    | (with_reducible refine (State.aperBuffer_keeps h_regs h_readData h_resp h_msix h_sb h_repeatAge h_hide _ _ _ _).after ?_)
    | split
    | (intro)
    | (dsimp only)

/-- What State.writeAper leaves. -/
theorem State.writeAper_keeps {pm : Piece → Bool} (h_regs : pm .regs = true) (h_sb : pm .sb = true) (s : State) (aper : Nat) (val : Word) :
    Keeps pm s (State.writeAper s aper val) := by
  unfold State.writeAper
  try dsimp only
  repeat' first
    | with_reducible exact Keeps.refl _ _
    | assumption
    | (with_reducible refine (State.setReg_keeps h_regs _ _ _).after ?_)
    | (with_reducible refine (State.setStream_keeps h_regs h_sb _ _ _).after ?_)
    | split
    | (intro)
    | (dsimp only)

/-- What State.aperAnswer leaves. -/
theorem State.aperAnswer_keeps {pm : Piece → Bool} (h_regs : pm .regs = true) (h_resp : pm .resp = true) (s : State) (a code : Nat) (ws : List Word) :
    Keeps pm s (State.aperAnswer s a code ws) := by
  unfold State.aperAnswer
  try dsimp only
  repeat' first
    | with_reducible exact Keeps.refl _ _
    | assumption
    | (with_reducible refine (State.setAperQst_keeps h_regs _ _ _ _ _).after ?_)
    | split
    | (with_reducible refine (keeps_resp h_resp).after ?_)
    | (intro)
    | (dsimp only)

/-- What State.aperBad leaves. -/
theorem State.aperBad_keeps {pm : Piece → Bool} (h_regs : pm .regs = true) (h_readData : pm .readData = true) (h_resp : pm .resp = true) (h_msix : pm .msix = true) (h_sb : pm .sb = true) (h_repeatAge : pm .repeatAge = true) (h_hide : pm .hide = true) (s : State) (aper : Nat) (val : Word) :
    Keeps pm s (State.aperBad s aper val) := by
  unfold State.aperBad
  try dsimp only
  repeat' first
    | with_reducible exact Keeps.refl _ _
    | assumption
    | (with_reducible refine (State.applyQueue_keeps h_regs h_msix h_sb _ _ _ _).after ?_)
    | (with_reducible refine (State.aperBuffer_keeps h_regs h_readData h_resp h_msix h_sb h_repeatAge h_hide _ _ _ _).after ?_)
    | (with_reducible refine (State.aperAnswer_keeps h_regs h_resp _ _ _ _).after ?_)
    | split
    | (intro)
    | (dsimp only)

/-- What State.aperWrite leaves. -/
theorem State.aperWrite_keeps {pm : Piece → Bool} (h_regs : pm .regs = true) (h_readData : pm .readData = true) (h_resp : pm .resp = true) (h_msix : pm .msix = true) (h_fresh : pm .fresh = true) (h_sb : pm .sb = true) (h_repeatAge : pm .repeatAge = true) (h_hide : pm .hide = true) (s : State) (aper off : Nat) (val : Word) :
    Keeps pm s (State.aperWrite s aper off val) := by
  unfold State.aperWrite
  try dsimp only
  repeat' first
    | with_reducible exact Keeps.refl _ _
    | assumption
    | (with_reducible refine (State.aperBuffer_keeps h_regs h_readData h_resp h_msix h_sb h_repeatAge h_hide _ _ _ _).after ?_)
    | (with_reducible refine (State.aperRequest_keeps h_regs h_readData h_resp h_msix h_fresh h_sb h_repeatAge h_hide _ _ _ _ _).after ?_)
    | (with_reducible refine (State.aperBad_keeps h_regs h_readData h_resp h_msix h_sb h_repeatAge h_hide _ _ _).after ?_)
    | split
    | (intro)
    | (dsimp only)

end Sys2Proof.Machine
end

