-- ==== Sys2Proof/Laws/KeepsHide.lean ====
section
/-! SUPPORT. What each operation of Machine/Hide.lean leaves: the pieces of the state that it does not name, the part, and
the canonical form. -/

namespace Sys2Proof.Machine

/-- What State.hideEvent leaves. -/
theorem State.hideEvent_keeps {pm : Piece → Bool} (h_regs : pm .regs = true) (h_msix : pm .msix = true) (h_sb : pm .sb = true) (s : State) (code low : Nat) :
    Keeps pm s (State.hideEvent s code low) := by
  unfold State.hideEvent
  try dsimp only
  repeat' first
    | with_reducible exact Keeps.refl _ _
    | assumption
    | (with_reducible refine (State.pushEvent_keeps h_regs h_msix h_sb _ _ _ _).after ?_)
    | split
    | (intro)
    | (dsimp only)

/-- What State.setCell leaves. -/
theorem State.setCell_keeps {pm : Piece → Bool} (h_hide : pm .hide = true) (s : State) (k v : Nat) :
    Keeps pm s (State.setCell s k v) := by
  unfold State.setCell
  try dsimp only
  repeat' first
    | with_reducible exact Keeps.refl _ _
    | assumption
    | split
    | (with_reducible refine (keeps_hide h_hide).after ?_)
    | (intro)
    | (dsimp only)

/-- What State.saturate leaves. -/
theorem State.saturate_keeps {pm : Piece → Bool} (h_regs : pm .regs = true) (h_msix : pm .msix = true) (h_sb : pm .sb = true) (h_hide : pm .hide = true) (s : State) :
    Keeps pm s (State.saturate s) := by
  unfold State.saturate
  try dsimp only
  repeat' first
    | with_reducible exact Keeps.refl _ _
    | assumption
    | (with_reducible refine (State.setFld_keeps h_regs _ _ _).after ?_)
    | (with_reducible refine (State.hideEvent_keeps h_regs h_msix h_sb _ _ _).after ?_)
    | split
    | (with_reducible refine (keeps_hide h_hide).after ?_)
    | (intro)
    | (dsimp only)

/-- What State.heatCell leaves. -/
theorem State.heatCell_keeps {pm : Piece → Bool} (h_regs : pm .regs = true) (h_msix : pm .msix = true) (h_sb : pm .sb = true) (h_hide : pm .hide = true) (s : State) (k q : Nat) :
    Keeps pm s (State.heatCell s k q) := by
  unfold State.heatCell
  try dsimp only
  repeat' first
    | with_reducible exact Keeps.refl _ _
    | assumption
    | (with_reducible refine (State.setCell_keeps h_hide _ _ _).after ?_)
    | (with_reducible refine (State.saturate_keeps h_regs h_msix h_sb h_hide _).after ?_)
    | split
    | (intro)
    | (dsimp only)

/-- What State.deposit leaves. -/
theorem State.deposit_keeps {pm : Piece → Bool} (h_regs : pm .regs = true) (h_msix : pm .msix = true) (h_sb : pm .sb = true) (h_hide : pm .hide = true) (s : State) (k code on : Nat) (x y : Int) :
    Keeps pm s (State.deposit s k code on x y) := by
  unfold State.deposit
  try dsimp only
  repeat' first
    | with_reducible exact Keeps.refl _ _
    | assumption
    | (with_reducible refine (State.bump_keeps h_regs _ _).after ?_)
    | (with_reducible refine (State.heatCell_keeps h_regs h_msix h_sb h_hide _ _ _).after ?_)
    | (with_reducible refine (keeps_foldl ?_ _ _).after ?_)
    | split
    | (intro)
    | (dsimp only)

/-- What State.sweepCell leaves. -/
theorem State.sweepCell_keeps {pm : Piece → Bool} (h_regs : pm .regs = true) (h_msix : pm .msix = true) (h_sb : pm .sb = true) (h_hide : pm .hide = true) (s : State) (p : Pass) :
    Keeps pm s (State.sweepCell s p).1 := by
  unfold State.sweepCell
  try dsimp only
  repeat' first
    | with_reducible exact Keeps.refl _ _
    | assumption
    | (with_reducible refine (State.setCell_keeps h_hide _ _ _).after ?_)
    | (with_reducible refine (State.saturate_keeps h_regs h_msix h_sb h_hide _).after ?_)
    | split
    | (intro)
    | (dsimp only)

/-- What State.sweepCell leaves, its answer taken apart. -/
theorem State.sweepCell_keeps_eq {pm : Piece → Bool} (h_regs : pm .regs = true) (h_msix : pm .msix = true) (h_sb : pm .sb = true) (h_hide : pm .hide = true) (s : State) (p : Pass) {t : State} {r : Pass}
    (e : State.sweepCell s p = (t, r)) : Keeps pm s t := by
  have q := State.sweepCell_keeps (pm := pm) h_regs h_msix h_sb h_hide s p
  rw [e] at q
  exact q

/-- What State.sweepCells leaves. -/
theorem State.sweepCells_keeps {pm : Piece → Bool} (h_regs : pm .regs = true) (h_msix : pm .msix = true) (h_sb : pm .sb = true) (h_hide : pm .hide = true) (s : State) (p : Pass) (total : Nat) (z0 : Nat) :
    Keeps pm s (State.sweepCells s p total z0).1 := by
  fun_induction State.sweepCells s p total z0
  all_goals (try dsimp +zetaDelta only at *)
  repeat' first
    | with_reducible exact Keeps.refl _ _
    | assumption
    | (with_reducible refine (State.sweepCell_keeps h_regs h_msix h_sb h_hide _ _).after ?_)
    | (with_reducible refine (State.sweepCell_keeps_eq h_regs h_msix h_sb h_hide _ _ (by assumption)).after ?_)
    | (with_reducible refine Keeps.trans ?_ (by assumption))
    | split
    | (intro)
    | (dsimp only)

/-- What State.sweepCells leaves, its answer taken apart. -/
theorem State.sweepCells_keeps_eq {pm : Piece → Bool} (h_regs : pm .regs = true) (h_msix : pm .msix = true) (h_sb : pm .sb = true) (h_hide : pm .hide = true) (s : State) (p : Pass) (total : Nat) (z0 : Nat) {t : State} {r : Pass}
    (e : State.sweepCells s p total z0 = (t, r)) : Keeps pm s t := by
  have q := State.sweepCells_keeps (pm := pm) h_regs h_msix h_sb h_hide s p total z0
  rw [e] at q
  exact q

/-- What State.sweepWindow leaves. -/
theorem State.sweepWindow_keeps {pm : Piece → Bool} (h_regs : pm .regs = true) (h_msix : pm .msix = true) (h_sb : pm .sb = true) (h_hide : pm .hide = true) (s : State) :
    Keeps pm s (State.sweepWindow s) := by
  unfold State.sweepWindow
  try dsimp only
  repeat' first
    | with_reducible exact Keeps.refl _ _
    | assumption
    | (with_reducible refine (State.setFld_keeps h_regs _ _ _).after ?_)
    | (with_reducible refine (State.sweepCells_keeps h_regs h_msix h_sb h_hide _ _ _ _).after ?_)
    | (with_reducible refine (State.sweepCells_keeps_eq h_regs h_msix h_sb h_hide _ _ _ _ (by assumption)).after ?_)
    | split
    | (with_reducible refine (keeps_hide h_hide).after ?_)
    | (intro)
    | (dsimp only)

/-- What State.sweepMin leaves. -/
theorem State.sweepMin_keeps {pm : Piece → Bool} (h_regs : pm .regs = true) (s : State) :
    Keeps pm s (State.sweepMin s) := by
  unfold State.sweepMin
  try dsimp only
  repeat' first
    | with_reducible exact Keeps.refl _ _
    | assumption
    | (with_reducible refine (State.setReg_keeps h_regs _ _ _).after ?_)
    | split
    | (intro)
    | (dsimp only)

/-- What State.sweepCadence leaves. -/
theorem State.sweepCadence_keeps {pm : Piece → Bool} (h_regs : pm .regs = true) (h_msix : pm .msix = true) (h_sb : pm .sb = true) (h_hide : pm .hide = true) (s : State) :
    Keeps pm s (State.sweepCadence s) := by
  unfold State.sweepCadence
  try dsimp only
  repeat' first
    | with_reducible exact Keeps.refl _ _
    | assumption
    | (with_reducible refine (State.bump_keeps h_regs _ _).after ?_)
    | (with_reducible refine (State.hideEvent_keeps h_regs h_msix h_sb _ _ _).after ?_)
    | split
    | (with_reducible refine (keeps_hide h_hide).after ?_)
    | (intro)
    | (dsimp only)

/-- What State.assimPos leaves. -/
theorem State.assimPos_keeps {pm : Piece → Bool} (h_regs : pm .regs = true) (h_msix : pm .msix = true) (h_sb : pm .sb = true) (h_hide : pm .hide = true) (s : State) (r : AssimRec) :
    Keeps pm s (State.assimPos s r) := by
  unfold State.assimPos
  try dsimp only
  repeat' first
    | with_reducible exact Keeps.refl _ _
    | assumption
    | (with_reducible refine (State.setCell_keeps h_hide _ _ _).after ?_)
    | (with_reducible refine (State.saturate_keeps h_regs h_msix h_sb h_hide _).after ?_)
    | split
    | (intro)
    | (dsimp only)

/-- What State.assimRun leaves. -/
theorem State.assimRun_keeps {pm : Piece → Bool} (h_regs : pm .regs = true) (h_msix : pm .msix = true) (h_sb : pm .sb = true) (h_hide : pm .hide = true) (s : State) (left : Nat) (z0 : Nat) :
    Keeps pm s (State.assimRun s left z0) := by
  fun_induction State.assimRun s left z0
  all_goals (try dsimp +zetaDelta only at *)
  repeat' first
    | with_reducible exact Keeps.refl _ _
    | assumption
    | (with_reducible refine (State.assimPos_keeps h_regs h_msix h_sb h_hide _ _).after ?_)
    | (with_reducible refine Keeps.trans ?_ (by assumption))
    | split
    | (with_reducible refine (keeps_hide h_hide).after ?_)
    | (intro)
    | (dsimp only)

/-- What State.depositStep leaves. -/
theorem State.depositStep_keeps {pm : Piece → Bool} (h_regs : pm .regs = true) (h_msix : pm .msix = true) (h_sb : pm .sb = true) (h_hide : pm .hide = true) (s : State) (k : Nat) :
    Keeps pm s (State.depositStep s k) := by
  unfold State.depositStep
  try dsimp only
  repeat' first
    | with_reducible exact Keeps.refl _ _
    | assumption
    | (with_reducible refine (State.deposit_keeps h_regs h_msix h_sb h_hide _ _ _ _ _ _).after ?_)
    | (with_reducible refine (State.emit_keeps h_regs h_msix h_sb h_emitEn h_awls h_mark _).after ?_)
    | split
    | (intro)
    | (dsimp only)

/-- What State.hideWork leaves. -/
theorem State.hideWork_keeps {pm : Piece → Bool} (h_regs : pm .regs = true) (h_msix : pm .msix = true) (h_sb : pm .sb = true) (h_hide : pm .hide = true) (s : State) :
    Keeps pm s (State.hideWork s) := by
  unfold State.hideWork
  try dsimp only
  repeat' first
    | with_reducible exact Keeps.refl _ _
    | assumption
    | (with_reducible refine (State.assimRun_keeps h_regs h_msix h_sb h_hide _ _ _).after ?_)
    | (with_reducible refine (State.depositStep_keeps h_regs h_msix h_sb h_hide _ _).after ?_)
    | (with_reducible refine (keeps_foldl ?_ _ _).after ?_)
    | split
    | (with_reducible refine (keeps_hide h_hide).after ?_)
    | (intro)
    | (dsimp only)

/-- What State.hideEnd leaves. -/
theorem State.hideEnd_keeps {pm : Piece → Bool} (h_regs : pm .regs = true) (h_msix : pm .msix = true) (h_sb : pm .sb = true) (h_hide : pm .hide = true) (s : State) :
    Keeps pm s (State.hideEnd s) := by
  unfold State.hideEnd
  try dsimp only
  repeat' first
    | with_reducible exact Keeps.refl _ _
    | assumption
    | (with_reducible refine (State.sweepWindow_keeps h_regs h_msix h_sb h_hide _).after ?_)
    | (with_reducible refine (State.hideWork_keeps h_regs h_msix h_sb h_hide _).after ?_)
    | split
    | (intro)
    | (dsimp only)

/-- What State.carry leaves. -/
theorem State.carry_keeps {pm : Piece → Bool} (h_regs : pm .regs = true) (h_msix : pm .msix = true) (h_sb : pm .sb = true) (h_hide : pm .hide = true) (s : State) :
    Keeps pm s (State.carry s) := by
  unfold State.carry
  try dsimp only
  repeat' first
    | with_reducible exact Keeps.refl _ _
    | assumption
    | (with_reducible refine (State.setFld_keeps h_regs _ _ _).after ?_)
    | (with_reducible refine (State.hideEvent_keeps h_regs h_msix h_sb _ _ _).after ?_)
    | split
    | (with_reducible refine (keeps_hide h_hide).after ?_)
    | (intro)
    | (dsimp only)

/-- What State.rearmSat leaves. -/
theorem State.rearmSat_keeps {pm : Piece → Bool} (h_hide : pm .hide = true) (s : State) :
    Keeps pm s (State.rearmSat s) := by
  unfold State.rearmSat
  try dsimp only
  repeat' first
    | with_reducible exact Keeps.refl _ _
    | assumption
    | split
    | (with_reducible refine (keeps_hide h_hide).after ?_)
    | (intro)
    | (dsimp only)

/-- What State.snapshot leaves. -/
theorem State.snapshot_keeps {pm : Piece → Bool} (h_regs : pm .regs = true) (h_msix : pm .msix = true) (h_sb : pm .sb = true) (h_hide : pm .hide = true) (s : State) :
    Keeps pm s (State.snapshot s) := by
  unfold State.snapshot
  try dsimp only
  repeat' first
    | with_reducible exact Keeps.refl _ _
    | assumption
    | (with_reducible refine (State.setFld_keeps h_regs _ _ _).after ?_)
    | (with_reducible refine (State.hideEvent_keeps h_regs h_msix h_sb _ _ _).after ?_)
    | split
    | (with_reducible refine (keeps_hide h_hide).after ?_)
    | (intro)
    | (dsimp only)

/-- What State.copyOut leaves. -/
theorem State.copyOut_keeps {pm : Piece → Bool} (h_regs : pm .regs = true) (h_msix : pm .msix = true) (h_sb : pm .sb = true) (h_mem : pm .mem = true) (h_badLines : pm .badLines = true) (h_chans : pm .chans = true) (h_repeatAge : pm .repeatAge = true) (s : State) (off : Nat) (z0 : List Word) :
    Keeps pm s (State.copyOut s off z0) := by
  fun_induction State.copyOut s off z0
  all_goals (try dsimp +zetaDelta only at *)
  repeat' first
    | with_reducible exact Keeps.refl _ _
    | assumption
    | (with_reducible refine (State.setDramWord_keeps h_regs h_msix h_sb h_mem h_badLines h_chans h_repeatAge _ _ _).after ?_)
    | (with_reducible refine Keeps.trans ?_ (by assumption))
    | split
    | (intro)
    | (dsimp only)

/-- What State.hidePlace leaves. -/
theorem State.hidePlace_keeps {pm : Piece → Bool} (h_regs : pm .regs = true) (h_fresh : pm .fresh = true) (h_sb : pm .sb = true) (h_hide : pm .hide = true) (s : State) :
    Keeps pm s (State.hidePlace s).1 := by
  unfold State.hidePlace
  try dsimp only
  repeat' first
    | with_reducible exact Keeps.refl _ _
    | assumption
    | (with_reducible refine (State.makeInternal_keeps h_regs h_fresh h_sb _ _ _).after ?_)
    | (with_reducible refine (State.makeInternal_keeps_eq h_regs h_fresh h_sb _ _ _ (by assumption)).after ?_)
    | split
    | (with_reducible refine (keeps_hide h_hide).after ?_)
    | (intro)
    | (dsimp only)

/-- What State.hidePlace leaves, its answer taken apart. -/
theorem State.hidePlace_keeps_eq {pm : Piece → Bool} (h_regs : pm .regs = true) (h_fresh : pm .fresh = true) (h_sb : pm .sb = true) (h_hide : pm .hide = true) (s : State) {t : State} {r : Nat}
    (e : State.hidePlace s = (t, r)) : Keeps pm s t := by
  have q := State.hidePlace_keeps (pm := pm) h_regs h_fresh h_sb h_hide s
  rw [e] at q
  exact q

/-- What State.hideRelease leaves. -/
theorem State.hideRelease_keeps {pm : Piece → Bool} (h_regs : pm .regs = true) (h_readData : pm .readData = true) (h_resp : pm .resp = true) (h_sb : pm .sb = true) (h_hide : pm .hide = true) (s : State) :
    Keeps pm s (State.hideRelease s) := by
  unfold State.hideRelease
  try dsimp only
  repeat' first
    | with_reducible exact Keeps.refl _ _
    | assumption
    | (with_reducible refine (State.setFld_keeps h_regs _ _ _).after ?_)
    | (with_reducible refine (State.dropInternal_keeps h_regs h_readData h_resp h_sb _ _).after ?_)
    | split
    | (with_reducible refine (keeps_hide h_hide).after ?_)
    | (intro)
    | (dsimp only)

/-- What State.writeHideCtrl leaves. -/
theorem State.writeHideCtrl_keeps {pm : Piece → Bool} (h_regs : pm .regs = true) (h_staged : pm .staged = true) (h_readData : pm .readData = true) (h_resp : pm .resp = true) (h_msix : pm .msix = true) (h_fresh : pm .fresh = true) (h_sb : pm .sb = true) (h_hide : pm .hide = true) (s : State) (src : Source) (val : Word) :
    Keeps pm s (State.writeHideCtrl s src val) := by
  unfold State.writeHideCtrl
  try dsimp only
  repeat' first
    | with_reducible exact Keeps.refl _ _
    | assumption
    | (with_reducible refine (State.setFld_keeps h_regs _ _ _).after ?_)
    | (with_reducible refine (State.stage_keeps h_staged _ _ _).after ?_)
    | (with_reducible refine (State.busyWrite_keeps h_regs h_msix h_sb _ _ _).after ?_)
    | (with_reducible refine (State.hidePlace_keeps h_regs h_fresh h_sb h_hide _).after ?_)
    | (with_reducible refine (State.hidePlace_keeps_eq h_regs h_fresh h_sb h_hide _ (by assumption)).after ?_)
    | (with_reducible refine (State.hideRelease_keeps h_regs h_readData h_resp h_sb h_hide _).after ?_)
    | split
    | (with_reducible refine (keeps_hide h_hide).after ?_)
    | (intro)
    | (dsimp only)

/-- What State.hideBoundary leaves. -/
theorem State.hideBoundary_keeps {pm : Piece → Bool} (h_regs : pm .regs = true) (h_msix : pm .msix = true) (h_sb : pm .sb = true) (h_hide : pm .hide = true) (s : State) :
    Keeps pm s (State.hideBoundary s) := by
  unfold State.hideBoundary
  try dsimp only
  repeat' first
    | with_reducible exact Keeps.refl _ _
    | assumption
    | (with_reducible refine (State.setFld_keeps h_regs _ _ _).after ?_)
    | (with_reducible refine (State.sweepMin_keeps h_regs _).after ?_)
    | (with_reducible refine (State.sweepCadence_keeps h_regs h_msix h_sb h_hide _).after ?_)
    | split
    | (with_reducible refine (keeps_hide h_hide).after ?_)
    | (intro)
    | (dsimp only)

/-- What State.hideRestart leaves. -/
theorem State.hideRestart_keeps {pm : Piece → Bool} (h_regs : pm .regs = true) (h_msix : pm .msix = true) (h_fresh : pm .fresh = true) (h_sb : pm .sb = true) (h_mem : pm .mem = true) (h_badLines : pm .badLines = true) (h_chans : pm .chans = true) (h_repeatAge : pm .repeatAge = true) (h_hide : pm .hide = true) (s : State) :
    Keeps pm s (State.hideRestart s) := by
  unfold State.hideRestart
  try dsimp only
  repeat' first
    | with_reducible exact Keeps.refl _ _
    | assumption
    | (with_reducible refine (State.setFld_keeps h_regs _ _ _).after ?_)
    | (with_reducible refine (State.tookFree_keeps h_fresh _).after ?_)
    | (with_reducible refine (State.copyOut_keeps h_regs h_msix h_sb h_mem h_badLines h_chans h_repeatAge _ _ _).after ?_)
    | split
    | (with_reducible refine (keeps_hide h_hide).after ?_)
    | (intro)
    | (dsimp only)

end Sys2Proof.Machine
end

