-- ==== Sys2Proof/Laws/KeepsCores.lean ====
section
/-! SUPPORT. What each operation of Machine/Cores.lean leaves: the pieces of the state that it does not name, the part, and
the canonical form. -/

namespace Sys2Proof.Machine

/-- What State.setCtxState leaves. -/
theorem State.setCtxState_keeps {pm : Piece → Bool} (h_regs : pm .regs = true) (s : State) (core c v : Nat) :
    Keeps pm s (State.setCtxState s core c v) := by
  unfold State.setCtxState
  try dsimp only
  repeat' first
    | with_reducible exact Keeps.refl _ _
    | assumption
    | (with_reducible refine (State.setFld_keeps h_regs _ _ _).after ?_)
    | split
    | (intro)
    | (dsimp only)

/-- What State.forgetLds leaves. -/
theorem State.forgetLds_keeps {pm : Piece → Bool} (h_cores : pm .cores = true) (s : State) (core c : Nat) :
    Keeps pm s (State.forgetLds s core c) := by
  unfold State.forgetLds
  try dsimp only
  repeat' first
    | with_reducible exact Keeps.refl _ _
    | assumption
    | (with_reducible refine (State.setCore_keeps h_cores _ _ _).after ?_)
    | split
    | (intro)
    | (dsimp only)

/-- What State.restartCtx leaves. -/
theorem State.restartCtx_keeps {pm : Piece → Bool} (h_regs : pm .regs = true) (h_sb : pm .sb = true) (h_cores : pm .cores = true) (h_ctxs : pm .ctxs = true) (s : State) (core c : Nat) :
    Keeps pm s (State.restartCtx s core c) := by
  unfold State.restartCtx
  try dsimp only
  repeat' first
    | with_reducible exact Keeps.refl _ _
    | assumption
    | (with_reducible refine (State.setCtx_keeps h_ctxs _ _ _ _).after ?_)
    | (with_reducible refine (State.dropPackets_keeps h_regs h_sb _ _).after ?_)
    | (with_reducible refine (State.forgetLds_keeps h_cores _ _ _).after ?_)
    | split
    | (intro)
    | (dsimp only)

/-- What State.haltCtx leaves. -/
theorem State.haltCtx_keeps {pm : Piece → Bool} (h_regs : pm .regs = true) (h_sb : pm .sb = true) (s : State) (core c : Nat) :
    Keeps pm s (State.haltCtx s core c) := by
  unfold State.haltCtx
  try dsimp only
  repeat' first
    | with_reducible exact Keeps.refl _ _
    | assumption
    | (with_reducible refine (State.dropPackets_keeps h_regs h_sb _ _).after ?_)
    | (with_reducible refine (State.setCtxState_keeps h_regs _ _ _ _).after ?_)
    | split
    | (intro)
    | (dsimp only)

/-- What State.haltByException leaves. -/
theorem State.haltByException_keeps {pm : Piece → Bool} (h_regs : pm .regs = true) (h_msix : pm .msix = true) (h_sb : pm .sb = true) (s : State) (core c cause : Nat) :
    Keeps pm s (State.haltByException s core c cause) := by
  unfold State.haltByException
  try dsimp only
  repeat' first
    | with_reducible exact Keeps.refl _ _
    | assumption
    | (with_reducible refine (State.setFld_keeps h_regs _ _ _).after ?_)
    | (with_reducible refine (State.superEvent_keeps h_regs h_msix h_sb _ _ _ _ _).after ?_)
    | (with_reducible refine (State.haltCtx_keeps h_regs h_sb _ _ _).after ?_)
    | split
    | (intro)
    | (dsimp only)

/-- What State.overrunCtx leaves. -/
theorem State.overrunCtx_keeps {pm : Piece → Bool} (h_regs : pm .regs = true) (h_msix : pm .msix = true) (h_sb : pm .sb = true) (h_cores : pm .cores = true) (h_ctxs : pm .ctxs = true) (s : State) (core c : Nat) :
    Keeps pm s (State.overrunCtx s core c) := by
  unfold State.overrunCtx
  try dsimp only
  repeat' first
    | with_reducible exact Keeps.refl _ _
    | assumption
    | (with_reducible refine (State.setFld_keeps h_regs _ _ _).after ?_)
    | (with_reducible refine (State.bump_keeps h_regs _ _).after ?_)
    | (with_reducible refine (State.setCtx_keeps h_ctxs _ _ _ _).after ?_)
    | (with_reducible refine (State.dropPackets_keeps h_regs h_sb _ _).after ?_)
    | (with_reducible refine (State.superEvent_keeps h_regs h_msix h_sb _ _ _ _ _).after ?_)
    | (with_reducible refine (State.setCtxState_keeps h_regs _ _ _ _).after ?_)
    | (with_reducible refine (State.forgetLds_keeps h_cores _ _ _).after ?_)
    | (with_reducible refine (State.haltCtx_keeps h_regs h_sb _ _ _).after ?_)
    | split
    | (intro)
    | (dsimp only)

/-- What State.tableCtx leaves. -/
theorem State.tableCtx_keeps {pm : Piece → Bool} (h_regs : pm .regs = true) (s : State) (core : Nat) (l : List (Nat × Nat)) (c : Nat) :
    Keeps pm s (State.tableCtx s core l c) := by
  unfold State.tableCtx
  try dsimp only
  repeat' first
    | with_reducible exact Keeps.refl _ _
    | assumption
    | (with_reducible refine (State.setCtxState_keeps h_regs _ _ _ _).after ?_)
    | split
    | (intro)
    | (dsimp only)

/-- What State.commitTable leaves. -/
theorem State.commitTable_keeps {pm : Piece → Bool} (h_regs : pm .regs = true) (h_cores : pm .cores = true) (s : State) (core : Nat) :
    Keeps pm s (State.commitTable s core) := by
  unfold State.commitTable
  try dsimp only
  repeat' first
    | with_reducible exact Keeps.refl _ _
    | assumption
    | (with_reducible refine (State.setFld_keeps h_regs _ _ _).after ?_)
    | (with_reducible refine (State.setCore_keeps h_cores _ _ _).after ?_)
    | (with_reducible refine (State.tableCtx_keeps h_regs _ _ _ _).after ?_)
    | (with_reducible refine (keeps_foldl ?_ _ _).after ?_)
    | split
    | (intro)
    | (dsimp only)

/-- What State.swapIn leaves. -/
theorem State.swapIn_keeps {pm : Piece → Bool} (h_regs : pm .regs = true) (h_sb : pm .sb = true) (h_cores : pm .cores = true) (h_ctxs : pm .ctxs = true) (s : State) (core c : Nat) :
    Keeps pm s (State.swapIn s core c) := by
  unfold State.swapIn
  try dsimp only
  repeat' first
    | with_reducible exact Keeps.refl _ _
    | assumption
    | (with_reducible refine (State.setCtx_keeps h_ctxs _ _ _ _).after ?_)
    | (with_reducible refine (State.setCtxState_keeps h_regs _ _ _ _).after ?_)
    | (with_reducible refine (State.restartCtx_keeps h_regs h_sb h_cores h_ctxs _ _ _).after ?_)
    | split
    | (intro)
    | (dsimp only)

/-- What State.swapBoundary leaves. -/
theorem State.swapBoundary_keeps {pm : Piece → Bool} (h_regs : pm .regs = true) (h_msix : pm .msix = true) (h_sb : pm .sb = true) (h_cores : pm .cores = true) (h_ctxs : pm .ctxs = true) (s : State) (core c r : Nat) :
    Keeps pm s (State.swapBoundary s core c r) := by
  unfold State.swapBoundary
  try dsimp only
  repeat' first
    | with_reducible exact Keeps.refl _ _
    | assumption
    | (with_reducible refine (State.setFld_keeps h_regs _ _ _).after ?_)
    | (with_reducible refine (State.superEvent_keeps h_regs h_msix h_sb _ _ _ _ _).after ?_)
    | (with_reducible refine (State.swapIn_keeps h_regs h_sb h_cores h_ctxs _ _ _).after ?_)
    | split
    | (intro)
    | (dsimp only)

/-- What State.restartAsked leaves. -/
theorem State.restartAsked_keeps {pm : Piece → Bool} (h_regs : pm .regs = true) (h_msix : pm .msix = true) (h_sb : pm .sb = true) (h_cores : pm .cores = true) (h_ctxs : pm .ctxs = true) (s : State) (core c : Nat) (told : Bool) :
    Keeps pm s (State.restartAsked s core c told) := by
  unfold State.restartAsked
  try dsimp only
  repeat' first
    | with_reducible exact Keeps.refl _ _
    | assumption
    | (with_reducible refine (State.setFld_keeps h_regs _ _ _).after ?_)
    | (with_reducible refine (State.setCtx_keeps h_ctxs _ _ _ _).after ?_)
    | (with_reducible refine (State.superEvent_keeps h_regs h_msix h_sb _ _ _ _ _).after ?_)
    | (with_reducible refine (State.setCtxState_keeps h_regs _ _ _ _).after ?_)
    | (with_reducible refine (State.restartCtx_keeps h_regs h_sb h_cores h_ctxs _ _ _).after ?_)
    | split
    | (intro)
    | (dsimp only)

/-- What State.haltBoundary leaves. -/
theorem State.haltBoundary_keeps {pm : Piece → Bool} (h_regs : pm .regs = true) (h_sb : pm .sb = true) (s : State) (core c : Nat) :
    Keeps pm s (State.haltBoundary s core c) := by
  unfold State.haltBoundary
  try dsimp only
  repeat' first
    | with_reducible exact Keeps.refl _ _
    | assumption
    | (with_reducible refine (State.setFld_keeps h_regs _ _ _).after ?_)
    | (with_reducible refine (State.haltCtx_keeps h_regs h_sb _ _ _).after ?_)
    | split
    | (intro)
    | (dsimp only)

/-- What State.ctxBoundary leaves. -/
theorem State.ctxBoundary_keeps {pm : Piece → Bool} (h_regs : pm .regs = true) (h_msix : pm .msix = true) (h_sb : pm .sb = true) (h_cores : pm .cores = true) (h_ctxs : pm .ctxs = true) (s : State) (core c : Nat) :
    Keeps pm s (State.ctxBoundary s core c) := by
  unfold State.ctxBoundary
  try dsimp only
  repeat' first
    | with_reducible exact Keeps.refl _ _
    | assumption
    | (with_reducible refine (State.setCtx_keeps h_ctxs _ _ _ _).after ?_)
    | (with_reducible refine (State.swapBoundary_keeps h_regs h_msix h_sb h_cores h_ctxs _ _ _ _).after ?_)
    | (with_reducible refine (State.restartAsked_keeps h_regs h_msix h_sb h_cores h_ctxs _ _ _ _).after ?_)
    | (with_reducible refine (State.haltBoundary_keeps h_regs h_sb _ _ _).after ?_)
    | split
    | (intro)
    | (dsimp only)

/-- What State.watchBoundary leaves. -/
theorem State.watchBoundary_keeps {pm : Piece → Bool} (h_ctxs : pm .ctxs = true) (s : State) (core c : Nat) :
    Keeps pm s (State.watchBoundary s core c) := by
  unfold State.watchBoundary
  try dsimp only
  repeat' first
    | with_reducible exact Keeps.refl _ _
    | assumption
    | (with_reducible refine (State.setCtx_keeps h_ctxs _ _ _ _).after ?_)
    | split
    | (intro)
    | (dsimp only)

/-- What State.rebaseCore leaves. -/
theorem State.rebaseCore_keeps {pm : Piece → Bool} (h_cores : pm .cores = true) (h_ctxs : pm .ctxs = true) (s : State) (core : Nat) (old : Nat) :
    Keeps pm s (State.rebaseCore s core old) := by
  unfold State.rebaseCore
  try dsimp only
  repeat' first
    | with_reducible exact Keeps.refl _ _
    | assumption
    | (with_reducible refine (State.setCore_keeps h_cores _ _ _).after ?_)
    | (with_reducible refine (State.setCtx_keeps h_ctxs _ _ _ _).after ?_)
    | (with_reducible refine (keeps_foldl ?_ _ _).after ?_)
    | split
    | (intro)
    | (dsimp only)

/-- What State.coreBoundary leaves. -/
theorem State.coreBoundary_keeps {pm : Piece → Bool} (h_regs : pm .regs = true) (h_msix : pm .msix = true) (h_sb : pm .sb = true) (h_cores : pm .cores = true) (h_ctxs : pm .ctxs = true) (s : State) (core old : Nat) :
    Keeps pm s (State.coreBoundary s core old) := by
  unfold State.coreBoundary
  try dsimp only
  repeat' first
    | with_reducible exact Keeps.refl _ _
    | assumption
    | (with_reducible refine (State.commitTable_keeps h_regs h_cores _ _).after ?_)
    | (with_reducible refine (State.ctxBoundary_keeps h_regs h_msix h_sb h_cores h_ctxs _ _ _).after ?_)
    | (with_reducible refine (State.watchBoundary_keeps h_ctxs _ _ _).after ?_)
    | (with_reducible refine (State.rebaseCore_keeps h_cores h_ctxs _ _ _).after ?_)
    | (with_reducible refine (keeps_foldl ?_ _ _).after ?_)
    | split
    | (intro)
    | (dsimp only)

/-- What State.loadJob leaves. -/
theorem State.loadJob_keeps {pm : Piece → Bool} (h_regs : pm .regs = true) (h_msix : pm .msix = true) (h_sb : pm .sb = true) (h_repeatAge : pm .repeatAge = true) (h_hide : pm .hide = true) (s : State) (core : Nat) :
    Keeps pm s (State.loadJob s core).1 := by
  unfold State.loadJob
  try dsimp only
  repeat' first
    | with_reducible exact Keeps.refl _ _
    | assumption
    | (with_reducible refine (State.readBufs_keeps h_regs h_msix h_sb h_repeatAge h_hide _ _ _ _).after ?_)
    | (with_reducible refine (State.readBufs_keeps_eq h_regs h_msix h_sb h_repeatAge h_hide _ _ _ _ (by assumption)).after ?_)
    | split
    | (intro)
    | (dsimp only)

/-- What State.loadJob leaves, its answer taken apart. -/
theorem State.loadJob_keeps_eq {pm : Piece → Bool} (h_regs : pm .regs = true) (h_msix : pm .msix = true) (h_sb : pm .sb = true) (h_repeatAge : pm .repeatAge = true) (h_hide : pm .hide = true) (s : State) (core : Nat) {t : State} {r : LoadJob}
    (e : State.loadJob s core = (t, r)) : Keeps pm s t := by
  have q := State.loadJob_keeps (pm := pm) h_regs h_msix h_sb h_repeatAge h_hide s core
  rw [e] at q
  exact q

/-- What State.startLoad leaves. -/
theorem State.startLoad_keeps {pm : Piece → Bool} (h_regs : pm .regs = true) (h_msix : pm .msix = true) (h_sb : pm .sb = true) (h_cores : pm .cores = true) (h_repeatAge : pm .repeatAge = true) (h_hide : pm .hide = true) (s : State) (core : Nat) (val : Word) :
    Keeps pm s (State.startLoad s core val) := by
  unfold State.startLoad
  try dsimp only
  repeat' first
    | with_reducible exact Keeps.refl _ _
    | assumption
    | (with_reducible refine (State.setReg_keeps h_regs _ _ _).after ?_)
    | (with_reducible refine (State.setCore_keeps h_cores _ _ _).after ?_)
    | (with_reducible refine (State.loadJob_keeps h_regs h_msix h_sb h_repeatAge h_hide _ _).after ?_)
    | (with_reducible refine (State.loadJob_keeps_eq h_regs h_msix h_sb h_repeatAge h_hide _ _ (by assumption)).after ?_)
    | split
    | (intro)
    | (dsimp only)

/-- What State.writeLoadCmd leaves. -/
theorem State.writeLoadCmd_keeps {pm : Piece → Bool} (h_regs : pm .regs = true) (h_msix : pm .msix = true) (h_sb : pm .sb = true) (h_cores : pm .cores = true) (h_repeatAge : pm .repeatAge = true) (h_hide : pm .hide = true) (s : State) (src : Source) (core : Nat) (val : Word) :
    Keeps pm s (State.writeLoadCmd s src core val) := by
  unfold State.writeLoadCmd
  try dsimp only
  repeat' first
    | with_reducible exact Keeps.refl _ _
    | assumption
    | (with_reducible refine (State.setReg_keeps h_regs _ _ _).after ?_)
    | (with_reducible refine (State.busyWrite_keeps h_regs h_msix h_sb _ _ _).after ?_)
    | (with_reducible refine (State.startLoad_keeps h_regs h_msix h_sb h_cores h_repeatAge h_hide _ _ _).after ?_)
    | split
    | (intro)
    | (dsimp only)

/-- What State.writeWdogCtrl leaves. -/
theorem State.writeWdogCtrl_keeps {pm : Piece → Bool} (h_regs : pm .regs = true) (h_msix : pm .msix = true) (h_sb : pm .sb = true) (h_wdog : pm .wdog = true) (s : State) (src : Source) (val : Word) :
    Keeps pm s (State.writeWdogCtrl s src val) := by
  unfold State.writeWdogCtrl
  try dsimp only
  repeat' first
    | with_reducible exact Keeps.refl _ _
    | assumption
    | (with_reducible refine (State.setReg_keeps h_regs _ _ _).after ?_)
    | (with_reducible refine (State.setFld_keeps h_regs _ _ _).after ?_)
    | (with_reducible refine (State.busyWrite_keeps h_regs h_msix h_sb _ _ _).after ?_)
    | split
    | (with_reducible refine (keeps_wdog h_wdog).after ?_)
    | (intro)
    | (dsimp only)

/-- What State.writeKick leaves. -/
theorem State.writeKick_keeps {pm : Piece → Bool} (h_wdog : pm .wdog = true) (s : State) (val : Word) :
    Keeps pm s (State.writeKick s val) := by
  unfold State.writeKick
  try dsimp only
  repeat' first
    | with_reducible exact Keeps.refl _ _
    | assumption
    | split
    | (with_reducible refine (keeps_wdog h_wdog).after ?_)
    | (intro)
    | (dsimp only)

/-- What State.wdogBoundary leaves. -/
theorem State.wdogBoundary_keeps {pm : Piece → Bool} (h_wdog : pm .wdog = true) (s : State) :
    Keeps pm s (State.wdogBoundary s) := by
  unfold State.wdogBoundary
  try dsimp only
  repeat' first
    | with_reducible exact Keeps.refl _ _
    | assumption
    | split
    | (with_reducible refine (keeps_wdog h_wdog).after ?_)
    | (intro)
    | (dsimp only)

/-- What State.writeCtxCtrl leaves. -/
theorem State.writeCtxCtrl_keeps {pm : Piece → Bool} (h_regs : pm .regs = true) (s : State) (core ctx : Nat) (val : Word) :
    Keeps pm s (State.writeCtxCtrl s core ctx val) := by
  unfold State.writeCtxCtrl
  try dsimp only
  repeat' first
    | with_reducible exact Keeps.refl _ _
    | assumption
    | (with_reducible refine (State.setReg_keeps h_regs _ _ _).after ?_)
    | split
    | (intro)
    | (dsimp only)

end Sys2Proof.Machine
end

