-- ==== Sys2Proof/Laws/KeepsAwl.lean ====
section
/-! SUPPORT. What each operation of Machine/Awl.lean leaves: the pieces of the state that it does not name, the part, and
the canonical form. -/

namespace Sys2Proof.Machine

/-- What State.setAwl leaves. -/
theorem State.setAwl_keeps {pm : Piece → Bool} (h_awls : pm .awls = true) (s : State) (k : Nat) (a : Awl) :
    Keeps pm s (State.setAwl s k a) := by
  unfold State.setAwl
  try dsimp only
  repeat' first
    | with_reducible exact Keeps.refl _ _
    | assumption
    | split
    | (with_reducible refine (keeps_awls h_awls ?_).after ?_)
    | (with_reducible exact fun hc => swf_sset hc.awls _ _)
    | (intro)
    | (dsimp only)

/-- What State.setRein leaves. -/
theorem State.setRein_keeps {pm : Piece → Bool} (h_reins : pm .reins = true) (s : State) (k : Nat) (r : Rein) :
    Keeps pm s (State.setRein s k r) := by
  unfold State.setRein
  try dsimp only
  repeat' first
    | with_reducible exact Keeps.refl _ _
    | assumption
    | split
    | (with_reducible refine (keeps_reins h_reins ?_).after ?_)
    | (with_reducible exact fun hc => swf_sset hc.reins _ _)
    | (intro)
    | (dsimp only)

/-- What State.setAwlState leaves. -/
theorem State.setAwlState_keeps {pm : Piece → Bool} (h_regs : pm .regs = true) (s : State) (k v : Nat) :
    Keeps pm s (State.setAwlState s k v) := by
  unfold State.setAwlState
  try dsimp only
  repeat' first
    | with_reducible exact Keeps.refl _ _
    | assumption
    | (with_reducible refine (State.setFld_keeps h_regs _ _ _).after ?_)
    | split
    | (intro)
    | (dsimp only)

/-- What State.slotEvent leaves. -/
theorem State.slotEvent_keeps {pm : Piece → Bool} (h_regs : pm .regs = true) (h_msix : pm .msix = true) (h_sb : pm .sb = true) (s : State) (k code low : Nat) :
    Keeps pm s (State.slotEvent s k code low) := by
  unfold State.slotEvent
  try dsimp only
  repeat' first
    | with_reducible exact Keeps.refl _ _
    | assumption
    | (with_reducible refine (State.pushEvent_keeps h_regs h_msix h_sb _ _ _ _).after ?_)
    | split
    | (intro)
    | (dsimp only)

/-- What State.formBlock leaves. -/
theorem State.formBlock_keeps {pm : Piece → Bool} (h_regs : pm .regs = true) (h_msix : pm .msix = true) (h_sb : pm .sb = true) (h_awls : pm .awls = true) (s : State) (k : Nat) :
    Keeps pm s (State.formBlock s k) := by
  unfold State.formBlock
  try dsimp only
  repeat' first
    | with_reducible exact Keeps.refl _ _
    | assumption
    | (with_reducible refine (State.setReg_keeps h_regs _ _ _).after ?_)
    | (with_reducible refine (State.setAwl_keeps h_awls _ _ _).after ?_)
    | (with_reducible refine (State.slotEvent_keeps h_regs h_msix h_sb _ _ _ _).after ?_)
    | (with_reducible refine (keeps_foldl ?_ _ _).after ?_)
    | split
    | (intro)
    | (dsimp only)

/-- What State.showWindow leaves. -/
theorem State.showWindow_keeps {pm : Piece → Bool} (h_regs : pm .regs = true) (s : State) (k : Nat) :
    Keeps pm s (State.showWindow s k) := by
  unfold State.showWindow
  try dsimp only
  repeat' first
    | with_reducible exact Keeps.refl _ _
    | assumption
    | (with_reducible refine (State.setFld_keeps h_regs _ _ _).after ?_)
    | split
    | (intro)
    | (dsimp only)

/-- What State.awlDue leaves. -/
theorem State.awlDue_keeps {pm : Piece → Bool} (h_awls : pm .awls = true) (s : State) (k code : Nat) :
    Keeps pm s (State.awlDue s k code) := by
  unfold State.awlDue
  try dsimp only
  repeat' first
    | with_reducible exact Keeps.refl _ _
    | assumption
    | (with_reducible refine (State.setAwl_keeps h_awls _ _ _).after ?_)
    | split
    | (intro)
    | (dsimp only)

/-- What State.takePacket leaves. -/
theorem State.takePacket_keeps {pm : Piece → Bool} (h_regs : pm .regs = true) (h_awls : pm .awls = true) (s : State) (k : Nat) (ws : List PWord) :
    Keeps pm s (State.takePacket s k ws) := by
  unfold State.takePacket
  try dsimp only
  repeat' first
    | with_reducible exact Keeps.refl _ _
    | assumption
    | (with_reducible refine (State.bumpBy_keeps h_regs _ _ _).after ?_)
    | (with_reducible refine (State.setAwl_keeps h_awls _ _ _).after ?_)
    | (with_reducible refine (State.setAwlState_keeps h_regs _ _ _).after ?_)
    | (with_reducible refine (State.awlDue_keeps h_awls _ _ _).after ?_)
    | split
    | (intro)
    | (dsimp only)

/-- What State.awlSettle leaves. -/
theorem State.awlSettle_keeps {pm : Piece → Bool} (h_regs : pm .regs = true) (h_msix : pm .msix = true) (h_sb : pm .sb = true) (h_awls : pm .awls = true) (s : State) (k : Nat) :
    Keeps pm s (State.awlSettle s k) := by
  unfold State.awlSettle
  try dsimp only
  repeat' first
    | with_reducible exact Keeps.refl _ _
    | assumption
    | (with_reducible refine (State.setAwl_keeps h_awls _ _ _).after ?_)
    | (with_reducible refine (State.setAwlState_keeps h_regs _ _ _).after ?_)
    | (with_reducible refine (State.slotEvent_keeps h_regs h_msix h_sb _ _ _ _).after ?_)
    | split
    | (intro)
    | (dsimp only)

/-- What State.logStroke leaves. -/
theorem State.logStroke_keeps {pm : Piece → Bool} (h_tree : pm .tree = true) (s : State) (k : Nat) (d : StrokeDone) :
    Keeps pm s (State.logStroke s k d) := by
  unfold State.logStroke
  try dsimp only
  repeat' first
    | with_reducible exact Keeps.refl _ _
    | assumption
    | split
    | (with_reducible refine (keeps_tree h_tree).after ?_)
    | (intro)
    | (dsimp only)

/-- What State.mapUnits leaves. -/
theorem State.mapUnits_keeps {pm : Piece → Bool} (h_tree : pm .tree = true) (s : State) (f : List PlaceUnit → List PlaceUnit) :
    Keeps pm s (State.mapUnits s f) := by
  unfold State.mapUnits
  try dsimp only
  repeat' first
    | with_reducible exact Keeps.refl _ _
    | assumption
    | split
    | (with_reducible refine (keeps_tree h_tree).after ?_)
    | (intro)
    | (dsimp only)

/-- What State.countEnd leaves. -/
theorem State.countEnd_keeps {pm : Piece → Bool} (h_tree : pm .tree = true) (s : State) (h : HeldStroke) (stitch : Nat) :
    Keeps pm s (State.countEnd s h stitch) := by
  unfold State.countEnd
  try dsimp only
  repeat' first
    | with_reducible exact Keeps.refl _ _
    | assumption
    | (with_reducible refine (State.mapUnits_keeps h_tree _ _).after ?_)
    | split
    | (with_reducible refine (keeps_tree h_tree).after ?_)
    | (intro)
    | (dsimp only)

/-- What State.noteTrigger leaves. -/
theorem State.noteTrigger_keeps {pm : Piece → Bool} (h_reins : pm .reins = true) (s : State) (k src : Nat) :
    Keeps pm s (State.noteTrigger s k src) := by
  unfold State.noteTrigger
  try dsimp only
  repeat' first
    | with_reducible exact Keeps.refl _ _
    | assumption
    | (with_reducible refine (State.setRein_keeps h_reins _ _ _).after ?_)
    | split
    | (intro)
    | (dsimp only)

/-- What State.setLevel leaves. -/
theorem State.setLevel_keeps {pm : Piece → Bool} (h_regs : pm .regs = true) (h_reins : pm .reins = true) (s : State) (k v : Nat) :
    Keeps pm s (State.setLevel s k v) := by
  unfold State.setLevel
  try dsimp only
  repeat' first
    | with_reducible exact Keeps.refl _ _
    | assumption
    | (with_reducible refine (State.setFld_keeps h_regs _ _ _).after ?_)
    | (with_reducible refine (State.noteTrigger_keeps h_reins _ _ _).after ?_)
    | split
    | (intro)
    | (dsimp only)

/-- What State.reinOff leaves. -/
theorem State.reinOff_keeps {pm : Piece → Bool} (h_regs : pm .regs = true) (h_reins : pm .reins = true) (s : State) (k : Nat) :
    Keeps pm s (State.reinOff s k) := by
  unfold State.reinOff
  try dsimp only
  repeat' first
    | with_reducible exact Keeps.refl _ _
    | assumption
    | (with_reducible refine (State.setFld_keeps h_regs _ _ _).after ?_)
    | (with_reducible refine (State.setLevel_keeps h_regs h_reins _ _ _).after ?_)
    | split
    | (intro)
    | (dsimp only)

/-- What State.stopAwl leaves. -/
theorem State.stopAwl_keeps {pm : Piece → Bool} (h_regs : pm .regs = true) (h_msix : pm .msix = true) (h_sb : pm .sb = true) (h_awls : pm .awls = true) (h_reins : pm .reins = true) (s : State) (k code : Nat) (loss : Bool) :
    Keeps pm s (State.stopAwl s k code loss) := by
  unfold State.stopAwl
  try dsimp only
  repeat' first
    | with_reducible exact Keeps.refl _ _
    | assumption
    | (with_reducible refine (State.setAwl_keeps h_awls _ _ _).after ?_)
    | (with_reducible refine (State.setAwlState_keeps h_regs _ _ _).after ?_)
    | (with_reducible refine (State.formBlock_keeps h_regs h_msix h_sb h_awls _ _).after ?_)
    | (with_reducible refine (State.showWindow_keeps h_regs _ _).after ?_)
    | (with_reducible refine (State.reinOff_keeps h_regs h_reins _ _).after ?_)
    | split
    | (intro)
    | (dsimp only)

/-- What State.awlResult leaves. -/
theorem State.awlResult_keeps {pm : Piece → Bool} (h_regs : pm .regs = true) (s : State) (k r : Nat) :
    Keeps pm s (State.awlResult s k r) := by
  unfold State.awlResult
  try dsimp only
  repeat' first
    | with_reducible exact Keeps.refl _ _
    | assumption
    | (with_reducible refine (State.setFld_keeps h_regs _ _ _).after ?_)
    | split
    | (intro)
    | (dsimp only)

/-- What State.awlStopCmd leaves. -/
theorem State.awlStopCmd_keeps {pm : Piece → Bool} (h_regs : pm .regs = true) (h_msix : pm .msix = true) (h_sb : pm .sb = true) (h_awls : pm .awls = true) (h_reins : pm .reins = true) (s : State) (k : Nat) :
    Keeps pm s (State.awlStopCmd s k) := by
  unfold State.awlStopCmd
  try dsimp only
  repeat' first
    | with_reducible exact Keeps.refl _ _
    | assumption
    | (with_reducible refine (State.stopAwl_keeps h_regs h_msix h_sb h_awls h_reins _ _ _ _).after ?_)
    | (with_reducible refine (State.awlResult_keeps h_regs _ _ _).after ?_)
    | split
    | (intro)
    | (dsimp only)

/-- What State.awlClearCmd leaves. -/
theorem State.awlClearCmd_keeps {pm : Piece → Bool} (h_regs : pm .regs = true) (h_msix : pm .msix = true) (h_sb : pm .sb = true) (h_awls : pm .awls = true) (s : State) (k : Nat) :
    Keeps pm s (State.awlClearCmd s k) := by
  unfold State.awlClearCmd
  try dsimp only
  repeat' first
    | with_reducible exact Keeps.refl _ _
    | assumption
    | (with_reducible refine (State.setFld_keeps h_regs _ _ _).after ?_)
    | (with_reducible refine (State.setAwl_keeps h_awls _ _ _).after ?_)
    | (with_reducible refine (State.setAwlState_keeps h_regs _ _ _).after ?_)
    | (with_reducible refine (State.formBlock_keeps h_regs h_msix h_sb h_awls _ _).after ?_)
    | (with_reducible refine (State.awlResult_keeps h_regs _ _ _).after ?_)
    | split
    | (intro)
    | (dsimp only)

/-- What State.awlGotoCmd leaves. -/
theorem State.awlGotoCmd_keeps {pm : Piece → Bool} (h_regs : pm .regs = true) (h_msix : pm .msix = true) (h_sb : pm .sb = true) (h_awls : pm .awls = true) (s : State) (k : Nat) :
    Keeps pm s (State.awlGotoCmd s k) := by
  unfold State.awlGotoCmd
  try dsimp only
  repeat' first
    | with_reducible exact Keeps.refl _ _
    | assumption
    | (with_reducible refine (State.setAwl_keeps h_awls _ _ _).after ?_)
    | (with_reducible refine (State.setAwlState_keeps h_regs _ _ _).after ?_)
    | (with_reducible refine (State.formBlock_keeps h_regs h_msix h_sb h_awls _ _).after ?_)
    | (with_reducible refine (State.awlDue_keeps h_awls _ _ _).after ?_)
    | (with_reducible refine (State.awlResult_keeps h_regs _ _ _).after ?_)
    | split
    | (intro)
    | (dsimp only)

/-- What State.fixLink leaves. -/
theorem State.fixLink_keeps {pm : Piece → Bool} (h_regs : pm .regs = true) (h_awls : pm .awls = true) (s : State) (k : Nat) :
    Keeps pm s (State.fixLink s k) := by
  unfold State.fixLink
  try dsimp only
  repeat' first
    | with_reducible exact Keeps.refl _ _
    | assumption
    | (with_reducible refine (State.bump_keeps h_regs _ _).after ?_)
    | (with_reducible refine (State.setAwl_keeps h_awls _ _ _).after ?_)
    | split
    | (intro)
    | (dsimp only)

/-- What State.judgeLits leaves. -/
theorem State.judgeLits_keeps {pm : Piece → Bool} (h_regs : pm .regs = true) (h_msix : pm .msix = true) (h_sb : pm .sb = true) (h_awls : pm .awls = true) (s : State) (k : Nat) :
    Keeps pm s (State.judgeLits s k) := by
  unfold State.judgeLits
  try dsimp only
  repeat' first
    | with_reducible exact Keeps.refl _ _
    | assumption
    | (with_reducible refine (State.bump_keeps h_regs _ _).after ?_)
    | (with_reducible refine (State.setAwl_keeps h_awls _ _ _).after ?_)
    | (with_reducible refine (State.slotEvent_keeps h_regs h_msix h_sb _ _ _ _).after ?_)
    | (with_reducible refine (keeps_foldl ?_ _ _).after ?_)
    | split
    | (intro)
    | (dsimp only)

/-- What State.awlBoundary leaves. -/
theorem State.awlBoundary_keeps {pm : Piece → Bool} (h_regs : pm .regs = true) (h_msix : pm .msix = true) (h_sb : pm .sb = true) (h_awls : pm .awls = true) (s : State) (k : Nat) :
    Keeps pm s (State.awlBoundary s k) := by
  unfold State.awlBoundary
  try dsimp only
  repeat' first
    | with_reducible exact Keeps.refl _ _
    | assumption
    | (with_reducible refine (State.setFld_keeps h_regs _ _ _).after ?_)
    | (with_reducible refine (State.setAwl_keeps h_awls _ _ _).after ?_)
    | (with_reducible refine (State.showWindow_keeps h_regs _ _).after ?_)
    | (with_reducible refine (State.awlSettle_keeps h_regs h_msix h_sb h_awls _ _).after ?_)
    | (with_reducible refine (State.fixLink_keeps h_regs h_awls _ _).after ?_)
    | (with_reducible refine (State.judgeLits_keeps h_regs h_msix h_sb h_awls _ _).after ?_)
    | (with_reducible refine (State.emit_keeps h_regs h_msix h_sb h_emitEn h_awls h_mark _).after ?_)
    | split
    | (intro)
    | (dsimp only)

end Sys2Proof.Machine
end

