-- ==== Sys2Proof/Laws/KeepsRein.lean ====
section
/-! SUPPORT. What each operation of Machine/Rein.lean leaves: the pieces of the state that it does not name, the part, and
the canonical form. -/

namespace Sys2Proof.Machine

/-- What State.setLoop leaves. -/
theorem State.setLoop_keeps {pm : Piece → Bool} (h_regs : pm .regs = true) (s : State) (k v : Nat) :
    Keeps pm s (State.setLoop s k v) := by
  unfold State.setLoop
  try dsimp only
  repeat' first
    | with_reducible exact Keeps.refl _ _
    | assumption
    | (with_reducible refine (State.setFld_keeps h_regs _ _ _).after ?_)
    | split
    | (intro)
    | (dsimp only)

/-- What State.countGaps leaves. -/
theorem State.countGaps_keeps {pm : Piece → Bool} (h_regs : pm .regs = true) (h_reins : pm .reins = true) (s : State) (k : Nat) (ps : List Pair) :
    Keeps pm s (State.countGaps s k ps) := by
  unfold State.countGaps
  try dsimp only
  repeat' first
    | with_reducible exact Keeps.refl _ _
    | assumption
    | (with_reducible refine (State.bumpBy_keeps h_regs _ _ _).after ?_)
    | (with_reducible refine (State.setRein_keeps h_reins _ _ _).after ?_)
    | split
    | (intro)
    | (dsimp only)

/-- What State.popStats leaves. -/
theorem State.popStats_keeps {pm : Piece → Bool} (h_regs : pm .regs = true) (h_readData : pm .readData = true) (h_resp : pm .resp = true) (h_msix : pm .msix = true) (h_fresh : pm .fresh = true) (h_sb : pm .sb = true) (h_chans : pm .chans = true) (h_repeatAge : pm .repeatAge = true) (h_hide : pm .hide = true) (s : State) (k : Nat) (z0 : Nat) :
    Keeps pm s (State.popStats s k z0).1 := by
  induction z0 generalizing s with
  | zero => exact Keeps.refl _ _
  | succ n ih =>
    unfold State.popStats
    split
    · have h1 := State.popPacket_keeps (pm := pm) h_regs h_readData h_resp h_msix h_fresh h_sb h_chans h_repeatAge h_hide s (slotReq k) (s.reg (R.REIN_STATQ k))
      have h2 := ih (s.popPacket (slotReq k) (s.reg (R.REIN_STATQ k))).1
      dsimp only
      split
      · exact h1.trans h2
      · exact h1.trans h2
    · exact Keeps.refl _ _

/-- What State.popStats leaves, its answer taken apart. -/
theorem State.popStats_keeps_eq {pm : Piece → Bool} (h_regs : pm .regs = true) (h_readData : pm .readData = true) (h_resp : pm .resp = true) (h_msix : pm .msix = true) (h_fresh : pm .fresh = true) (h_sb : pm .sb = true) (h_chans : pm .chans = true) (h_repeatAge : pm .repeatAge = true) (h_hide : pm .hide = true) (s : State) (k : Nat) (z0 : Nat) {t : State} {r : List (Nat × Nat) × Nat}
    (e : State.popStats s k z0 = (t, r)) : Keeps pm s t := by
  have q := State.popStats_keeps (pm := pm) h_regs h_readData h_resp h_msix h_fresh h_sb h_chans h_repeatAge h_hide s k z0
  rw [e] at q
  exact q

/-- What State.takeStats leaves. -/
theorem State.takeStats_keeps {pm : Piece → Bool} (h_regs : pm .regs = true) (h_readData : pm .readData = true) (h_resp : pm .resp = true) (h_msix : pm .msix = true) (h_fresh : pm .fresh = true) (h_sb : pm .sb = true) (h_chans : pm .chans = true) (h_repeatAge : pm .repeatAge = true) (h_hide : pm .hide = true) (s : State) (k : Nat) :
    Keeps pm s (State.takeStats s k).1 := by
  unfold State.takeStats
  try dsimp only
  repeat' first
    | with_reducible exact Keeps.refl _ _
    | assumption
    | (with_reducible refine (State.bumpBy_keeps h_regs _ _ _).after ?_)
    | (with_reducible refine (State.popStats_keeps h_regs h_readData h_resp h_msix h_fresh h_sb h_chans h_repeatAge h_hide _ _ _).after ?_)
    | (with_reducible refine (State.popStats_keeps_eq h_regs h_readData h_resp h_msix h_fresh h_sb h_chans h_repeatAge h_hide _ _ _ (by assumption)).after ?_)
    | split
    | (intro)
    | (dsimp only)

/-- What State.takeStats leaves, its answer taken apart. -/
theorem State.takeStats_keeps_eq {pm : Piece → Bool} (h_regs : pm .regs = true) (h_readData : pm .readData = true) (h_resp : pm .resp = true) (h_msix : pm .msix = true) (h_fresh : pm .fresh = true) (h_sb : pm .sb = true) (h_chans : pm .chans = true) (h_repeatAge : pm .repeatAge = true) (h_hide : pm .hide = true) (s : State) (k : Nat) {t : State} {r : Option Nat}
    (e : State.takeStats s k = (t, r)) : Keeps pm s t := by
  have q := State.takeStats_keeps (pm := pm) h_regs h_readData h_resp h_msix h_fresh h_sb h_chans h_repeatAge h_hide s k
  rw [e] at q
  exact q

/-- What State.reinPower leaves. -/
theorem State.reinPower_keeps {pm : Piece → Bool} (h_regs : pm .regs = true) (h_reins : pm .reins = true) (s : State) (k : Nat) (lv : Levels) :
    Keeps pm s (State.reinPower s k lv).1 := by
  unfold State.reinPower
  try dsimp only
  repeat' first
    | with_reducible exact Keeps.refl _ _
    | assumption
    | (with_reducible refine (State.setFld_keeps h_regs _ _ _).after ?_)
    | (with_reducible refine (State.setRein_keeps h_reins _ _ _).after ?_)
    | split
    | (intro)
    | (dsimp only)

/-- What State.reinPower leaves, its answer taken apart. -/
theorem State.reinPower_keeps_eq {pm : Piece → Bool} (h_regs : pm .regs = true) (h_reins : pm .reins = true) (s : State) (k : Nat) (lv : Levels) {t : State} {r : Bool}
    (e : State.reinPower s k lv = (t, r)) : Keeps pm s t := by
  have q := State.reinPower_keeps (pm := pm) h_regs h_reins s k lv
  rw [e] at q
  exact q

/-- What State.countClip leaves. -/
theorem State.countClip_keeps {pm : Piece → Bool} (h_regs : pm .regs = true) (h_msix : pm .msix = true) (h_sb : pm .sb = true) (h_reins : pm .reins = true) (s : State) (k : Nat) :
    Keeps pm s (State.countClip s k) := by
  unfold State.countClip
  try dsimp only
  repeat' first
    | with_reducible exact Keeps.refl _ _
    | assumption
    | (with_reducible refine (State.setFld_keeps h_regs _ _ _).after ?_)
    | (with_reducible refine (State.bump_keeps h_regs _ _).after ?_)
    | (with_reducible refine (State.setRein_keeps h_reins _ _ _).after ?_)
    | (with_reducible refine (State.slotEvent_keeps h_regs h_msix h_sb _ _ _ _).after ?_)
    | split
    | (intro)
    | (dsimp only)

/-- What State.reinCommand leaves. -/
theorem State.reinCommand_keeps {pm : Piece → Bool} (h_regs : pm .regs = true) (h_msix : pm .msix = true) (h_sb : pm .sb = true) (h_reins : pm .reins = true) (s : State) (k : Nat) (lv : Levels) :
    Keeps pm s (State.reinCommand s k lv) := by
  unfold State.reinCommand
  try dsimp only
  repeat' first
    | with_reducible exact Keeps.refl _ _
    | assumption
    | (with_reducible refine (State.reinPower_keeps h_regs h_reins _ _ _).after ?_)
    | (with_reducible refine (State.reinPower_keeps_eq h_regs h_reins _ _ _ (by assumption)).after ?_)
    | (with_reducible refine (State.countClip_keeps h_regs h_msix h_sb h_reins _ _).after ?_)
    | split
    | (intro)
    | (dsimp only)

/-- What State.setTrim leaves. -/
theorem State.setTrim_keeps {pm : Piece → Bool} (h_regs : pm .regs = true) (h_reins : pm .reins = true) (s : State) (k : Nat) (ti : Int) :
    Keeps pm s (State.setTrim s k ti) := by
  unfold State.setTrim
  try dsimp only
  repeat' first
    | with_reducible exact Keeps.refl _ _
    | assumption
    | (with_reducible refine (State.setReg_keeps h_regs _ _ _).after ?_)
    | (with_reducible refine (State.setFld_keeps h_regs _ _ _).after ?_)
    | (with_reducible refine (State.setRein_keeps h_reins _ _ _).after ?_)
    | split
    | (intro)
    | (dsimp only)

/-- What State.forceTrim leaves. -/
theorem State.forceTrim_keeps {pm : Piece → Bool} (h_regs : pm .regs = true) (h_msix : pm .msix = true) (h_sb : pm .sb = true) (h_reins : pm .reins = true) (s : State) (k : Nat) (ti : Int) :
    Keeps pm s (State.forceTrim s k ti) := by
  unfold State.forceTrim
  try dsimp only
  repeat' first
    | with_reducible exact Keeps.refl _ _
    | assumption
    | (with_reducible refine (State.setFld_keeps h_regs _ _ _).after ?_)
    | (with_reducible refine (State.slotEvent_keeps h_regs h_msix h_sb _ _ _ _).after ?_)
    | (with_reducible refine (State.setTrim_keeps h_regs h_reins _ _ _).after ?_)
    | split
    | (intro)
    | (dsimp only)

/-- What State.trimBoundary leaves. -/
theorem State.trimBoundary_keeps {pm : Piece → Bool} (h_regs : pm .regs = true) (h_msix : pm .msix = true) (h_sb : pm .sb = true) (h_reins : pm .reins = true) (s : State) (k : Nat) :
    Keeps pm s (State.trimBoundary s k) := by
  unfold State.trimBoundary
  try dsimp only
  repeat' first
    | with_reducible exact Keeps.refl _ _
    | assumption
    | (with_reducible refine (State.setFld_keeps h_regs _ _ _).after ?_)
    | (with_reducible refine (State.setRein_keeps h_reins _ _ _).after ?_)
    | (with_reducible refine (State.forceTrim_keeps h_regs h_msix h_sb h_reins _ _ _).after ?_)
    | split
    | (intro)
    | (dsimp only)

/-- What State.setTrace leaves. -/
theorem State.setTrace_keeps {pm : Piece → Bool} (h_reins : pm .reins = true) (s : State) (k u : Nat) (t : Trace) :
    Keeps pm s (State.setTrace s k u t) := by
  unfold State.setTrace
  try dsimp only
  repeat' first
    | with_reducible exact Keeps.refl _ _
    | assumption
    | (with_reducible refine (State.setRein_keeps h_reins _ _ _).after ?_)
    | split
    | (intro)
    | (dsimp only)

/-- What State.tracePush leaves. -/
theorem State.tracePush_keeps {pm : Piece → Bool} (h_regs : pm .regs = true) (h_msix : pm .msix = true) (h_sb : pm .sb = true) (s : State) (k u key : Nat) (z0 : List Word) :
    Keeps pm s (State.tracePush s k u key z0).1 := by
  fun_induction State.tracePush s k u key z0
  all_goals (try dsimp +zetaDelta only at *)
  repeat' first
    | with_reducible exact Keeps.refl _ _
    | assumption
    | (with_reducible refine (State.applyQueue_keeps h_regs h_msix h_sb _ _ _ _).after ?_)
    | (with_reducible refine Keeps.trans ?_ (by assumption))
    | split
    | (intro)
    | (dsimp only)

/-- What State.tracePush leaves, its answer taken apart. -/
theorem State.tracePush_keeps_eq {pm : Piece → Bool} (h_regs : pm .regs = true) (h_msix : pm .msix = true) (h_sb : pm .sb = true) (s : State) (k u key : Nat) (z0 : List Word) {t : State} {r : Bool}
    (e : State.tracePush s k u key z0 = (t, r)) : Keeps pm s t := by
  have q := State.tracePush_keeps (pm := pm) h_regs h_msix h_sb s k u key z0
  rw [e] at q
  exact q

/-- What State.traceFail leaves. -/
theorem State.traceFail_keeps {pm : Piece → Bool} (h_regs : pm .regs = true) (h_sb : pm .sb = true) (h_reins : pm .reins = true) (s : State) (k u : Nat) :
    Keeps pm s (State.traceFail s k u) := by
  unfold State.traceFail
  try dsimp only
  repeat' first
    | with_reducible exact Keeps.refl _ _
    | assumption
    | (with_reducible refine (State.setFld_keeps h_regs _ _ _).after ?_)
    | (with_reducible refine (State.bump_keeps h_regs _ _).after ?_)
    | (with_reducible refine (State.setStream_keeps h_regs h_sb _ _ _).after ?_)
    | (with_reducible refine (State.setTrace_keeps h_reins _ _ _ _).after ?_)
    | split
    | (intro)
    | (dsimp only)

/-- What State.traceRecordInto leaves. -/
theorem State.traceRecordInto_keeps {pm : Piece → Bool} (h_regs : pm .regs = true) (h_msix : pm .msix = true) (h_sb : pm .sb = true) (h_reins : pm .reins = true) (s : State) (k u : Nat) (ws : List Word) :
    Keeps pm s (State.traceRecordInto s k u ws) := by
  unfold State.traceRecordInto
  try dsimp only
  repeat' first
    | with_reducible exact Keeps.refl _ _
    | assumption
    | (with_reducible refine (State.tracePush_keeps h_regs h_msix h_sb _ _ _ _ _).after ?_)
    | (with_reducible refine (State.tracePush_keeps_eq h_regs h_msix h_sb _ _ _ _ _ (by assumption)).after ?_)
    | (with_reducible refine (State.traceFail_keeps h_regs h_sb h_reins _ _ _).after ?_)
    | split
    | (intro)
    | (dsimp only)

/-- What State.traceOpen leaves. -/
theorem State.traceOpen_keeps {pm : Piece → Bool} (h_regs : pm .regs = true) (h_msix : pm .msix = true) (h_sb : pm .sb = true) (h_reins : pm .reins = true) (s : State) (k u : Nat) :
    Keeps pm s (State.traceOpen s k u) := by
  unfold State.traceOpen
  try dsimp only
  repeat' first
    | with_reducible exact Keeps.refl _ _
    | assumption
    | (with_reducible refine (State.setFld_keeps h_regs _ _ _).after ?_)
    | (with_reducible refine (State.setTrace_keeps h_reins _ _ _ _).after ?_)
    | (with_reducible refine (State.traceRecordInto_keeps h_regs h_msix h_sb h_reins _ _ _ _).after ?_)
    | split
    | (intro)
    | (dsimp only)

/-- What State.traceUnit leaves. -/
theorem State.traceUnit_keeps {pm : Piece → Bool} (h_regs : pm .regs = true) (h_msix : pm .msix = true) (h_sb : pm .sb = true) (h_reins : pm .reins = true) (s : State) (k u : Nat) :
    Keeps pm s (State.traceUnit s k u) := by
  unfold State.traceUnit
  try dsimp only
  repeat' first
    | with_reducible exact Keeps.refl _ _
    | assumption
    | (with_reducible refine (State.setFld_keeps h_regs _ _ _).after ?_)
    | (with_reducible refine (State.setTrace_keeps h_reins _ _ _ _).after ?_)
    | (with_reducible refine (State.traceRecordInto_keeps h_regs h_msix h_sb h_reins _ _ _ _).after ?_)
    | (with_reducible refine (State.traceOpen_keeps h_regs h_msix h_sb h_reins _ _ _).after ?_)
    | split
    | (intro)
    | (dsimp only)

/-- What State.traceFlush leaves. -/
theorem State.traceFlush_keeps {pm : Piece → Bool} (h_regs : pm .regs = true) (h_msix : pm .msix = true) (h_sb : pm .sb = true) (h_reins : pm .reins = true) (s : State) (k : Nat) :
    Keeps pm s (State.traceFlush s k) := by
  unfold State.traceFlush
  try dsimp only
  repeat' first
    | with_reducible exact Keeps.refl _ _
    | assumption
    | (with_reducible refine (State.setRein_keeps h_reins _ _ _).after ?_)
    | (with_reducible refine (State.traceUnit_keeps h_regs h_msix h_sb h_reins _ _ _).after ?_)
    | split
    | (intro)
    | (dsimp only)

/-- What State.writeTraceCtrl leaves. -/
theorem State.writeTraceCtrl_keeps {pm : Piece → Bool} (h_regs : pm .regs = true) (h_msix : pm .msix = true) (h_sb : pm .sb = true) (h_reins : pm .reins = true) (s : State) (k u : Nat) (val : Word) :
    Keeps pm s (State.writeTraceCtrl s k u val) := by
  unfold State.writeTraceCtrl
  try dsimp only
  repeat' first
    | with_reducible exact Keeps.refl _ _
    | assumption
    | (with_reducible refine (State.setReg_keeps h_regs _ _ _).after ?_)
    | (with_reducible refine (State.setFld_keeps h_regs _ _ _).after ?_)
    | (with_reducible refine (State.setTrace_keeps h_reins _ _ _ _).after ?_)
    | (with_reducible refine (State.traceFail_keeps h_regs h_sb h_reins _ _ _).after ?_)
    | (with_reducible refine (State.traceFlush_keeps h_regs h_msix h_sb h_reins _ _).after ?_)
    | split
    | (intro)
    | (dsimp only)

/-- What State.enterClosed leaves. -/
theorem State.enterClosed_keeps {pm : Piece → Bool} (h_regs : pm .regs = true) (h_reins : pm .reins = true) (s : State) (k : Nat) :
    Keeps pm s (State.enterClosed s k) := by
  unfold State.enterClosed
  try dsimp only
  repeat' first
    | with_reducible exact Keeps.refl _ _
    | assumption
    | (with_reducible refine (State.setRein_keeps h_reins _ _ _).after ?_)
    | (with_reducible refine (State.setLevel_keeps h_regs h_reins _ _ _).after ?_)
    | (with_reducible refine (State.setLoop_keeps h_regs _ _ _).after ?_)
    | split
    | (intro)
    | (dsimp only)

/-- What State.loopOpens leaves. -/
theorem State.loopOpens_keeps {pm : Piece → Bool} (h_regs : pm .regs = true) (h_reins : pm .reins = true) (s : State) (k : Nat) :
    Keeps pm s (State.loopOpens s k) := by
  unfold State.loopOpens
  try dsimp only
  repeat' first
    | with_reducible exact Keeps.refl _ _
    | assumption
    | (with_reducible refine (State.setLoop_keeps h_regs _ _ _).after ?_)
    | (with_reducible refine (State.enterClosed_keeps h_regs h_reins _ _).after ?_)
    | split
    | (intro)
    | (dsimp only)

/-- What State.evaluate leaves. -/
theorem State.evaluate_keeps {pm : Piece → Bool} (h_regs : pm .regs = true) (h_reins : pm .reins = true) (s : State) (k m : Nat) :
    Keeps pm s (State.evaluate s k m) := by
  unfold State.evaluate
  extract_lets +onlyGivenNames a
  clear_value a
  extract_lets +onlyGivenNames ps
  clear_value ps
  split
  rename_i sp ramp e_sp
  clear e_sp
  extract_lets +onlyGivenNames e
  clear_value e
  extract_lets +onlyGivenNames r
  clear_value r
  extract_lets +onlyGivenNames same
  clear_value same
  extract_lets +onlyGivenNames s1
  have h_s1 : Keeps pm s s1 := by
    unfold s1
    repeat' first
        | with_reducible exact Keeps.refl _ _
        | assumption
        | (with_reducible refine (State.setFld_keeps h_regs _ _ _).after ?_)
        | (with_reducible refine (State.bump_keeps h_regs _ _).after ?_)
        | (with_reducible refine (State.setRein_keeps h_reins _ _ _).after ?_)
        | (with_reducible refine (State.setLevel_keeps h_regs h_reins _ _ _).after ?_)
        | (with_reducible refine (State.setLoop_keeps h_regs _ _ _).after ?_)
        | (with_reducible refine (State.setTrim_keeps h_regs h_reins _ _ _).after ?_)
        | split
        | (intro)
        | (dsimp only)
  clear_value s1
  extract_lets +onlyGivenNames limit
  clear_value limit
  extract_lets +onlyGivenNames isOver
  clear_value isOver
  repeat' first
    | with_reducible exact Keeps.refl _ _
    | assumption
    | (with_reducible refine (State.setFld_keeps h_regs _ _ _).after ?_)
    | (with_reducible refine (State.bump_keeps h_regs _ _).after ?_)
    | (with_reducible refine (State.setRein_keeps h_reins _ _ _).after ?_)
    | (with_reducible refine (State.setLevel_keeps h_regs h_reins _ _ _).after ?_)
    | (with_reducible refine (State.setLoop_keeps h_regs _ _ _).after ?_)
    | (with_reducible refine (State.setTrim_keeps h_regs h_reins _ _ _).after ?_)
    | split
    | (intro)
    | (dsimp only)

/-- What State.missing leaves. -/
theorem State.missing_keeps {pm : Piece → Bool} (h_reins : pm .reins = true) (s : State) (k : Nat) :
    Keeps pm s (State.missing s k) := by
  unfold State.missing
  try dsimp only
  repeat' first
    | with_reducible exact Keeps.refl _ _
    | assumption
    | (with_reducible refine (State.setRein_keeps h_reins _ _ _).after ?_)
    | split
    | (intro)
    | (dsimp only)

/-- What State.followCheck leaves. -/
theorem State.followCheck_keeps {pm : Piece → Bool} (h_reins : pm .reins = true) (s : State) (k : Nat) :
    Keeps pm s (State.followCheck s k) := by
  unfold State.followCheck
  try dsimp only
  repeat' first
    | with_reducible exact Keeps.refl _ _
    | assumption
    | (with_reducible refine (State.setRein_keeps h_reins _ _ _).after ?_)
    | split
    | (intro)
    | (dsimp only)

/-- What State.reinBoundary leaves. -/
theorem State.reinBoundary_keeps {pm : Piece → Bool} (h_regs : pm .regs = true) (h_readData : pm .readData = true) (h_resp : pm .resp = true) (h_msix : pm .msix = true) (h_fresh : pm .fresh = true) (h_sb : pm .sb = true) (h_chans : pm .chans = true) (h_repeatAge : pm .repeatAge = true) (h_reins : pm .reins = true) (h_hide : pm .hide = true) (s : State) (k : Nat) :
    Keeps pm s (State.reinBoundary s k) := by
  unfold State.reinBoundary
  extract_lets +onlyGivenNames a
  clear_value a
  extract_lets +onlyGivenNames r
  clear_value r
  extract_lets +onlyGivenNames b
  clear_value b
  extract_lets +onlyGivenNames lit
  clear_value lit
  extract_lets +onlyGivenNames emitting
  clear_value emitting
  extract_lets +onlyGivenNames start
  clear_value start
  extract_lets +onlyGivenNames run
  clear_value run
  extract_lets +onlyGivenNames area
  clear_value area
  split
  rename_i s1 stat e_s1
  have h_s1 : Keeps pm s s1 := by
    have q := congrArg Prod.fst e_s1
    dsimp only at q
    rw [← q]
    repeat' first
        | with_reducible exact Keeps.refl _ _
        | assumption
        | (with_reducible refine (State.setFld_keeps h_regs _ _ _).after ?_)
        | (with_reducible refine (State.setRein_keeps h_reins _ _ _).after ?_)
        | (with_reducible refine (State.setLevel_keeps h_regs h_reins _ _ _).after ?_)
        | (with_reducible refine (State.setLoop_keeps h_regs _ _ _).after ?_)
        | (with_reducible refine (State.countGaps_keeps h_regs h_reins _ _ _).after ?_)
        | (with_reducible refine (State.takeStats_keeps h_regs h_readData h_resp h_msix h_fresh h_sb h_chans h_repeatAge h_hide _ _).after ?_)
        | (with_reducible refine (State.takeStats_keeps_eq h_regs h_readData h_resp h_msix h_fresh h_sb h_chans h_repeatAge h_hide _ _ (by assumption)).after ?_)
        | (with_reducible refine (State.reinCommand_keeps h_regs h_msix h_sb h_reins _ _ _).after ?_)
        | (with_reducible refine (State.trimBoundary_keeps h_regs h_msix h_sb h_reins _ _).after ?_)
        | (with_reducible refine (State.loopOpens_keeps h_regs h_reins _ _).after ?_)
        | (with_reducible refine (State.evaluate_keeps h_regs h_reins _ _ _).after ?_)
        | (with_reducible refine (State.missing_keeps h_reins _ _).after ?_)
        | (with_reducible refine (State.followCheck_keeps h_reins _ _).after ?_)
        | (with_reducible refine (State.emit_keeps h_regs h_msix h_sb h_emitEn h_awls h_mark _).after ?_)
        | split
        | (intro)
        | (dsimp only)
  clear e_s1
  extract_lets +onlyGivenNames begins
  clear_value begins
  extract_lets +onlyGivenNames trig
  clear_value trig
  extract_lets +onlyGivenNames s2
  have h_s2 : Keeps pm s s2 := by
    unfold s2
    repeat' first
        | with_reducible exact Keeps.refl _ _
        | assumption
        | (with_reducible refine (State.setFld_keeps h_regs _ _ _).after ?_)
        | (with_reducible refine (State.setRein_keeps h_reins _ _ _).after ?_)
        | (with_reducible refine (State.setLevel_keeps h_regs h_reins _ _ _).after ?_)
        | (with_reducible refine (State.setLoop_keeps h_regs _ _ _).after ?_)
        | (with_reducible refine (State.countGaps_keeps h_regs h_reins _ _ _).after ?_)
        | (with_reducible refine (State.takeStats_keeps h_regs h_readData h_resp h_msix h_fresh h_sb h_chans h_repeatAge h_hide _ _).after ?_)
        | (with_reducible refine (State.takeStats_keeps_eq h_regs h_readData h_resp h_msix h_fresh h_sb h_chans h_repeatAge h_hide _ _ (by assumption)).after ?_)
        | (with_reducible refine (State.reinCommand_keeps h_regs h_msix h_sb h_reins _ _ _).after ?_)
        | (with_reducible refine (State.trimBoundary_keeps h_regs h_msix h_sb h_reins _ _).after ?_)
        | (with_reducible refine (State.loopOpens_keeps h_regs h_reins _ _).after ?_)
        | (with_reducible refine (State.evaluate_keeps h_regs h_reins _ _ _).after ?_)
        | (with_reducible refine (State.missing_keeps h_reins _ _).after ?_)
        | (with_reducible refine (State.followCheck_keeps h_reins _ _).after ?_)
        | (with_reducible refine (State.emit_keeps h_regs h_msix h_sb h_emitEn h_awls h_mark _).after ?_)
        | split
        | (intro)
        | (dsimp only)
  clear_value s2
  extract_lets +onlyGivenNames s3
  have h_s3 : Keeps pm s s3 := by
    unfold s3
    repeat' first
        | with_reducible exact Keeps.refl _ _
        | assumption
        | (with_reducible refine (State.setFld_keeps h_regs _ _ _).after ?_)
        | (with_reducible refine (State.setRein_keeps h_reins _ _ _).after ?_)
        | (with_reducible refine (State.setLevel_keeps h_regs h_reins _ _ _).after ?_)
        | (with_reducible refine (State.setLoop_keeps h_regs _ _ _).after ?_)
        | (with_reducible refine (State.countGaps_keeps h_regs h_reins _ _ _).after ?_)
        | (with_reducible refine (State.takeStats_keeps h_regs h_readData h_resp h_msix h_fresh h_sb h_chans h_repeatAge h_hide _ _).after ?_)
        | (with_reducible refine (State.takeStats_keeps_eq h_regs h_readData h_resp h_msix h_fresh h_sb h_chans h_repeatAge h_hide _ _ (by assumption)).after ?_)
        | (with_reducible refine (State.reinCommand_keeps h_regs h_msix h_sb h_reins _ _ _).after ?_)
        | (with_reducible refine (State.trimBoundary_keeps h_regs h_msix h_sb h_reins _ _).after ?_)
        | (with_reducible refine (State.loopOpens_keeps h_regs h_reins _ _).after ?_)
        | (with_reducible refine (State.evaluate_keeps h_regs h_reins _ _ _).after ?_)
        | (with_reducible refine (State.missing_keeps h_reins _ _).after ?_)
        | (with_reducible refine (State.followCheck_keeps h_reins _ _).after ?_)
        | (with_reducible refine (State.emit_keeps h_regs h_msix h_sb h_emitEn h_awls h_mark _).after ?_)
        | split
        | (intro)
        | (dsimp only)
  clear_value s3
  extract_lets +onlyGivenNames s4
  have h_s4 : Keeps pm s s4 := by
    unfold s4
    repeat' first
        | with_reducible exact Keeps.refl _ _
        | assumption
        | (with_reducible refine (State.setFld_keeps h_regs _ _ _).after ?_)
        | (with_reducible refine (State.setRein_keeps h_reins _ _ _).after ?_)
        | (with_reducible refine (State.setLevel_keeps h_regs h_reins _ _ _).after ?_)
        | (with_reducible refine (State.setLoop_keeps h_regs _ _ _).after ?_)
        | (with_reducible refine (State.countGaps_keeps h_regs h_reins _ _ _).after ?_)
        | (with_reducible refine (State.takeStats_keeps h_regs h_readData h_resp h_msix h_fresh h_sb h_chans h_repeatAge h_hide _ _).after ?_)
        | (with_reducible refine (State.takeStats_keeps_eq h_regs h_readData h_resp h_msix h_fresh h_sb h_chans h_repeatAge h_hide _ _ (by assumption)).after ?_)
        | (with_reducible refine (State.reinCommand_keeps h_regs h_msix h_sb h_reins _ _ _).after ?_)
        | (with_reducible refine (State.trimBoundary_keeps h_regs h_msix h_sb h_reins _ _).after ?_)
        | (with_reducible refine (State.loopOpens_keeps h_regs h_reins _ _).after ?_)
        | (with_reducible refine (State.evaluate_keeps h_regs h_reins _ _ _).after ?_)
        | (with_reducible refine (State.missing_keeps h_reins _ _).after ?_)
        | (with_reducible refine (State.followCheck_keeps h_reins _ _).after ?_)
        | (with_reducible refine (State.emit_keeps h_regs h_msix h_sb h_emitEn h_awls h_mark _).after ?_)
        | split
        | (intro)
        | (dsimp only)
  clear_value s4
  extract_lets +onlyGivenNames lv
  clear_value lv
  extract_lets +onlyGivenNames watched
  clear_value watched
  extract_lets +onlyGivenNames m
  clear_value m
  extract_lets +onlyGivenNames s5
  have h_s5 : Keeps pm s s5 := by
    unfold s5
    repeat' first
        | with_reducible exact Keeps.refl _ _
        | assumption
        | (with_reducible refine (State.setFld_keeps h_regs _ _ _).after ?_)
        | (with_reducible refine (State.setRein_keeps h_reins _ _ _).after ?_)
        | (with_reducible refine (State.setLevel_keeps h_regs h_reins _ _ _).after ?_)
        | (with_reducible refine (State.setLoop_keeps h_regs _ _ _).after ?_)
        | (with_reducible refine (State.countGaps_keeps h_regs h_reins _ _ _).after ?_)
        | (with_reducible refine (State.takeStats_keeps h_regs h_readData h_resp h_msix h_fresh h_sb h_chans h_repeatAge h_hide _ _).after ?_)
        | (with_reducible refine (State.takeStats_keeps_eq h_regs h_readData h_resp h_msix h_fresh h_sb h_chans h_repeatAge h_hide _ _ (by assumption)).after ?_)
        | (with_reducible refine (State.reinCommand_keeps h_regs h_msix h_sb h_reins _ _ _).after ?_)
        | (with_reducible refine (State.trimBoundary_keeps h_regs h_msix h_sb h_reins _ _).after ?_)
        | (with_reducible refine (State.loopOpens_keeps h_regs h_reins _ _).after ?_)
        | (with_reducible refine (State.evaluate_keeps h_regs h_reins _ _ _).after ?_)
        | (with_reducible refine (State.missing_keeps h_reins _ _).after ?_)
        | (with_reducible refine (State.followCheck_keeps h_reins _ _).after ?_)
        | (with_reducible refine (State.emit_keeps h_regs h_msix h_sb h_emitEn h_awls h_mark _).after ?_)
        | split
        | (intro)
        | (dsimp only)
  clear_value s5
  extract_lets +onlyGivenNames s6
  have h_s6 : Keeps pm s s6 := by
    unfold s6
    repeat' first
        | with_reducible exact Keeps.refl _ _
        | assumption
        | (with_reducible refine (State.setFld_keeps h_regs _ _ _).after ?_)
        | (with_reducible refine (State.setRein_keeps h_reins _ _ _).after ?_)
        | (with_reducible refine (State.setLevel_keeps h_regs h_reins _ _ _).after ?_)
        | (with_reducible refine (State.setLoop_keeps h_regs _ _ _).after ?_)
        | (with_reducible refine (State.countGaps_keeps h_regs h_reins _ _ _).after ?_)
        | (with_reducible refine (State.takeStats_keeps h_regs h_readData h_resp h_msix h_fresh h_sb h_chans h_repeatAge h_hide _ _).after ?_)
        | (with_reducible refine (State.takeStats_keeps_eq h_regs h_readData h_resp h_msix h_fresh h_sb h_chans h_repeatAge h_hide _ _ (by assumption)).after ?_)
        | (with_reducible refine (State.reinCommand_keeps h_regs h_msix h_sb h_reins _ _ _).after ?_)
        | (with_reducible refine (State.trimBoundary_keeps h_regs h_msix h_sb h_reins _ _).after ?_)
        | (with_reducible refine (State.loopOpens_keeps h_regs h_reins _ _).after ?_)
        | (with_reducible refine (State.evaluate_keeps h_regs h_reins _ _ _).after ?_)
        | (with_reducible refine (State.missing_keeps h_reins _ _).after ?_)
        | (with_reducible refine (State.followCheck_keeps h_reins _ _).after ?_)
        | (with_reducible refine (State.emit_keeps h_regs h_msix h_sb h_emitEn h_awls h_mark _).after ?_)
        | split
        | (intro)
        | (dsimp only)
  clear_value s6
  extract_lets +onlyGivenNames s7
  have h_s7 : Keeps pm s s7 := by
    unfold s7
    repeat' first
        | with_reducible exact Keeps.refl _ _
        | assumption
        | (with_reducible refine (State.setFld_keeps h_regs _ _ _).after ?_)
        | (with_reducible refine (State.setRein_keeps h_reins _ _ _).after ?_)
        | (with_reducible refine (State.setLevel_keeps h_regs h_reins _ _ _).after ?_)
        | (with_reducible refine (State.setLoop_keeps h_regs _ _ _).after ?_)
        | (with_reducible refine (State.countGaps_keeps h_regs h_reins _ _ _).after ?_)
        | (with_reducible refine (State.takeStats_keeps h_regs h_readData h_resp h_msix h_fresh h_sb h_chans h_repeatAge h_hide _ _).after ?_)
        | (with_reducible refine (State.takeStats_keeps_eq h_regs h_readData h_resp h_msix h_fresh h_sb h_chans h_repeatAge h_hide _ _ (by assumption)).after ?_)
        | (with_reducible refine (State.reinCommand_keeps h_regs h_msix h_sb h_reins _ _ _).after ?_)
        | (with_reducible refine (State.trimBoundary_keeps h_regs h_msix h_sb h_reins _ _).after ?_)
        | (with_reducible refine (State.loopOpens_keeps h_regs h_reins _ _).after ?_)
        | (with_reducible refine (State.evaluate_keeps h_regs h_reins _ _ _).after ?_)
        | (with_reducible refine (State.missing_keeps h_reins _ _).after ?_)
        | (with_reducible refine (State.followCheck_keeps h_reins _ _).after ?_)
        | (with_reducible refine (State.emit_keeps h_regs h_msix h_sb h_emitEn h_awls h_mark _).after ?_)
        | split
        | (intro)
        | (dsimp only)
  clear_value s7
  extract_lets +onlyGivenNames s8
  have h_s8 : Keeps pm s s8 := by
    unfold s8
    repeat' first
        | with_reducible exact Keeps.refl _ _
        | assumption
        | (with_reducible refine (State.setFld_keeps h_regs _ _ _).after ?_)
        | (with_reducible refine (State.setRein_keeps h_reins _ _ _).after ?_)
        | (with_reducible refine (State.setLevel_keeps h_regs h_reins _ _ _).after ?_)
        | (with_reducible refine (State.setLoop_keeps h_regs _ _ _).after ?_)
        | (with_reducible refine (State.countGaps_keeps h_regs h_reins _ _ _).after ?_)
        | (with_reducible refine (State.takeStats_keeps h_regs h_readData h_resp h_msix h_fresh h_sb h_chans h_repeatAge h_hide _ _).after ?_)
        | (with_reducible refine (State.takeStats_keeps_eq h_regs h_readData h_resp h_msix h_fresh h_sb h_chans h_repeatAge h_hide _ _ (by assumption)).after ?_)
        | (with_reducible refine (State.reinCommand_keeps h_regs h_msix h_sb h_reins _ _ _).after ?_)
        | (with_reducible refine (State.trimBoundary_keeps h_regs h_msix h_sb h_reins _ _).after ?_)
        | (with_reducible refine (State.loopOpens_keeps h_regs h_reins _ _).after ?_)
        | (with_reducible refine (State.evaluate_keeps h_regs h_reins _ _ _).after ?_)
        | (with_reducible refine (State.missing_keeps h_reins _ _).after ?_)
        | (with_reducible refine (State.followCheck_keeps h_reins _ _).after ?_)
        | (with_reducible refine (State.emit_keeps h_regs h_msix h_sb h_emitEn h_awls h_mark _).after ?_)
        | split
        | (intro)
        | (dsimp only)
  clear_value s8
  repeat' first
    | with_reducible exact Keeps.refl _ _
    | assumption
    | (with_reducible refine (State.setFld_keeps h_regs _ _ _).after ?_)
    | (with_reducible refine (State.setRein_keeps h_reins _ _ _).after ?_)
    | (with_reducible refine (State.setLevel_keeps h_regs h_reins _ _ _).after ?_)
    | (with_reducible refine (State.setLoop_keeps h_regs _ _ _).after ?_)
    | (with_reducible refine (State.countGaps_keeps h_regs h_reins _ _ _).after ?_)
    | (with_reducible refine (State.takeStats_keeps h_regs h_readData h_resp h_msix h_fresh h_sb h_chans h_repeatAge h_hide _ _).after ?_)
    | (with_reducible refine (State.takeStats_keeps_eq h_regs h_readData h_resp h_msix h_fresh h_sb h_chans h_repeatAge h_hide _ _ (by assumption)).after ?_)
    | (with_reducible refine (State.reinCommand_keeps h_regs h_msix h_sb h_reins _ _ _).after ?_)
    | (with_reducible refine (State.trimBoundary_keeps h_regs h_msix h_sb h_reins _ _).after ?_)
    | (with_reducible refine (State.loopOpens_keeps h_regs h_reins _ _).after ?_)
    | (with_reducible refine (State.evaluate_keeps h_regs h_reins _ _ _).after ?_)
    | (with_reducible refine (State.missing_keeps h_reins _ _).after ?_)
    | (with_reducible refine (State.followCheck_keeps h_reins _ _).after ?_)
    | (with_reducible refine (State.emit_keeps h_regs h_msix h_sb h_emitEn h_awls h_mark _).after ?_)
    | split
    | (intro)
    | (dsimp only)

/-- What State.enterFallback leaves. -/
theorem State.enterFallback_keeps {pm : Piece → Bool} (h_regs : pm .regs = true) (h_msix : pm .msix = true) (h_sb : pm .sb = true) (h_awls : pm .awls = true) (h_reins : pm .reins = true) (s : State) (k : Nat) :
    Keeps pm s (State.enterFallback s k) := by
  unfold State.enterFallback
  try dsimp only
  repeat' first
    | with_reducible exact Keeps.refl _ _
    | assumption
    | (with_reducible refine (State.setRein_keeps h_reins _ _ _).after ?_)
    | (with_reducible refine (State.formBlock_keeps h_regs h_msix h_sb h_awls _ _).after ?_)
    | (with_reducible refine (State.setLevel_keeps h_regs h_reins _ _ _).after ?_)
    | (with_reducible refine (State.setLoop_keeps h_regs _ _ _).after ?_)
    | (with_reducible refine (State.reinCommand_keeps h_regs h_msix h_sb h_reins _ _ _).after ?_)
    | (with_reducible refine (State.followCheck_keeps h_reins _ _).after ?_)
    | split
    | (intro)
    | (dsimp only)

/-- What State.handBack leaves. -/
theorem State.handBack_keeps {pm : Piece → Bool} (h_regs : pm .regs = true) (h_staged : pm .staged = true) (h_msix : pm .msix = true) (h_sb : pm .sb = true) (h_awls : pm .awls = true) (h_reins : pm .reins = true) (s : State) (k : Nat) :
    Keeps pm s (State.handBack s k) := by
  unfold State.handBack
  try dsimp only
  repeat' first
    | with_reducible exact Keeps.refl _ _
    | assumption
    | (with_reducible refine (State.setFld_keeps h_regs _ _ _).after ?_)
    | (with_reducible refine (State.stage_keeps h_staged _ _ _).after ?_)
    | (with_reducible refine (State.setRein_keeps h_reins _ _ _).after ?_)
    | (with_reducible refine (State.slotEvent_keeps h_regs h_msix h_sb _ _ _ _).after ?_)
    | (with_reducible refine (State.setLevel_keeps h_regs h_reins _ _ _).after ?_)
    | (with_reducible refine (State.stopAwl_keeps h_regs h_msix h_sb h_awls h_reins _ _ _ _).after ?_)
    | (with_reducible refine (State.setLoop_keeps h_regs _ _ _).after ?_)
    | split
    | (intro)
    | (dsimp only)

end Sys2Proof.Machine
end

