-- ==== Sys2Proof/Laws/KeepsJob.lean ====
section
/-! SUPPORT. What each operation of Machine/Job.lean leaves: the pieces of the state that it does not name, the part, and
the canonical form. -/

namespace Sys2Proof.Machine

/-- What State.useLayer leaves. -/
theorem State.useLayer_keeps {pm : Piece → Bool} (h_regs : pm .regs = true) (h_msix : pm .msix = true) (h_sb : pm .sb = true) (h_chans : pm .chans = true) (s : State) (j : JobRec) (l : Nat) :
    Keeps pm s (State.useLayer s j l) := by
  unfold State.useLayer
  try dsimp only
  repeat' first
    | with_reducible exact Keeps.refl _ _
    | assumption
    | (with_reducible refine (State.dramUse_keeps h_regs h_msix h_sb h_chans _ _ _ _ _).after ?_)
    | (with_reducible refine (keeps_foldl ?_ _ _).after ?_)
    | split
    | (intro)
    | (dsimp only)

/-- What State.useHeader leaves. -/
theorem State.useHeader_keeps {pm : Piece → Bool} (h_regs : pm .regs = true) (h_msix : pm .msix = true) (h_sb : pm .sb = true) (h_chans : pm .chans = true) (s : State) :
    Keeps pm s (State.useHeader s) := by
  unfold State.useHeader
  try dsimp only
  repeat' first
    | with_reducible exact Keeps.refl _ _
    | assumption
    | (with_reducible refine (State.dramUse_keeps h_regs h_msix h_sb h_chans _ _ _ _ _).after ?_)
    | (with_reducible refine (keeps_foldl ?_ _ _).after ?_)
    | split
    | (intro)
    | (dsimp only)

/-- What State.useLayers leaves. -/
theorem State.useLayers_keeps {pm : Piece → Bool} (h_regs : pm .regs = true) (h_msix : pm .msix = true) (h_sb : pm .sb = true) (h_chans : pm .chans = true) (s : State) (j : JobRec) (l : Nat) (z0 : Nat) :
    Keeps pm s (State.useLayers s j l z0) := by
  fun_induction State.useLayers s j l z0
  all_goals (try dsimp +zetaDelta only at *)
  repeat' first
    | with_reducible exact Keeps.refl _ _
    | assumption
    | (with_reducible refine (State.useLayer_keeps h_regs h_msix h_sb h_chans _ _ _).after ?_)
    | (with_reducible refine Keeps.trans ?_ (by assumption))
    | split
    | (intro)
    | (dsimp only)

end Sys2Proof.Machine
end

