-- ==== Sys2Proof/Laws/KeepsAxis.lean ====
section
/-! SUPPORT. What each operation of Machine/Axis.lean leaves: the pieces of the state that it does not name, the part, and
the canonical form. -/

namespace Sys2Proof.Machine

/-- What State.setAxis leaves. -/
theorem State.setAxis_keeps {pm : Piece → Bool} (h_axes : pm .axes = true) (s : State) (x : Nat) (a : Axis) :
    Keeps pm s (State.setAxis s x a) := by
  unfold State.setAxis
  try dsimp only
  repeat' first
    | with_reducible exact Keeps.refl _ _
    | assumption
    | split
    | (with_reducible refine (keeps_axes h_axes ?_).after ?_)
    | (with_reducible exact fun hc => swf_sset hc.axes _ _)
    | (intro)
    | (dsimp only)

/-- What State.setAxState leaves. -/
theorem State.setAxState_keeps {pm : Piece → Bool} (h_regs : pm .regs = true) (s : State) (x v : Nat) :
    Keeps pm s (State.setAxState s x v) := by
  unfold State.setAxState
  try dsimp only
  repeat' first
    | with_reducible exact Keeps.refl _ _
    | assumption
    | (with_reducible refine (State.setFld_keeps h_regs _ _ _).after ?_)
    | split
    | (intro)
    | (dsimp only)

/-- What State.axResult leaves. -/
theorem State.axResult_keeps {pm : Piece → Bool} (h_regs : pm .regs = true) (s : State) (x r : Nat) :
    Keeps pm s (State.axResult s x r) := by
  unfold State.axResult
  try dsimp only
  repeat' first
    | with_reducible exact Keeps.refl _ _
    | assumption
    | (with_reducible refine (State.setFld_keeps h_regs _ _ _).after ?_)
    | split
    | (intro)
    | (dsimp only)

/-- What State.showAxis leaves. -/
theorem State.showAxis_keeps {pm : Piece → Bool} (h_regs : pm .regs = true) (s : State) (x : Nat) :
    Keeps pm s (State.showAxis s x) := by
  unfold State.showAxis
  try dsimp only
  repeat' first
    | with_reducible exact Keeps.refl _ _
    | assumption
    | (with_reducible refine (State.setReg_keeps h_regs _ _ _).after ?_)
    | split
    | (intro)
    | (dsimp only)

/-- What State.axGo leaves. -/
theorem State.axGo_keeps {pm : Piece → Bool} (h_axes : pm .axes = true) (s : State) (x : Nat) (plan : List AxMotion) (target : Int) :
    Keeps pm s (State.axGo s x plan target) := by
  unfold State.axGo
  try dsimp only
  repeat' first
    | with_reducible exact Keeps.refl _ _
    | assumption
    | (with_reducible refine (State.setAxis_keeps h_axes _ _ _).after ?_)
    | split
    | (intro)
    | (dsimp only)

/-- What State.axEvent leaves. -/
theorem State.axEvent_keeps {pm : Piece → Bool} (h_regs : pm .regs = true) (h_msix : pm .msix = true) (h_sb : pm .sb = true) (s : State) (x code : Nat) :
    Keeps pm s (State.axEvent s x code) := by
  unfold State.axEvent
  try dsimp only
  repeat' first
    | with_reducible exact Keeps.refl _ _
    | assumption
    | (with_reducible refine (State.pushEvent_keeps h_regs h_msix h_sb _ _ _ _).after ?_)
    | split
    | (intro)
    | (dsimp only)

/-- What State.skvEvent leaves. -/
theorem State.skvEvent_keeps {pm : Piece → Bool} (h_regs : pm .regs = true) (h_msix : pm .msix = true) (h_sb : pm .sb = true) (s : State) (code x fault : Nat) :
    Keeps pm s (State.skvEvent s code x fault) := by
  unfold State.skvEvent
  try dsimp only
  repeat' first
    | with_reducible exact Keeps.refl _ _
    | assumption
    | (with_reducible refine (State.pushEvent_keeps h_regs h_msix h_sb _ _ _ _).after ?_)
    | split
    | (intro)
    | (dsimp only)

/-- What State.setSkvPhase leaves. -/
theorem State.setSkvPhase_keeps {pm : Piece → Bool} (h_regs : pm .regs = true) (s : State) (p : Nat) :
    Keeps pm s (State.setSkvPhase s p) := by
  unfold State.setSkvPhase
  try dsimp only
  repeat' first
    | with_reducible exact Keeps.refl _ _
    | assumption
    | (with_reducible refine (State.setFld_keeps h_regs _ _ _).after ?_)
    | split
    | (intro)
    | (dsimp only)

/-- What State.setOwned leaves. -/
theorem State.setOwned_keeps {pm : Piece → Bool} (h_regs : pm .regs = true) (s : State) (v : Nat) :
    Keeps pm s (State.setOwned s v) := by
  unfold State.setOwned
  try dsimp only
  repeat' first
    | with_reducible exact Keeps.refl _ _
    | assumption
    | (with_reducible refine (State.setFld_keeps h_regs _ _ _).after ?_)
    | (with_reducible refine (keeps_foldl ?_ _ _).after ?_)
    | split
    | (intro)
    | (dsimp only)

/-- What State.axDecel leaves. -/
theorem State.axDecel_keeps {pm : Piece → Bool} (h_axes : pm .axes = true) (s : State) (x : Nat) :
    Keeps pm s (State.axDecel s x) := by
  unfold State.axDecel
  try dsimp only
  repeat' first
    | with_reducible exact Keeps.refl _ _
    | assumption
    | (with_reducible refine (State.setAxis_keeps h_axes _ _ _).after ?_)
    | (with_reducible refine (State.axGo_keeps h_axes _ _ _ _).after ?_)
    | split
    | (intro)
    | (dsimp only)

/-- What State.axEmergency leaves. -/
theorem State.axEmergency_keeps {pm : Piece → Bool} (h_axes : pm .axes = true) (s : State) (x : Nat) :
    Keeps pm s (State.axEmergency s x) := by
  unfold State.axEmergency
  try dsimp only
  repeat' first
    | with_reducible exact Keeps.refl _ _
    | assumption
    | (with_reducible refine (State.setAxis_keeps h_axes _ _ _).after ?_)
    | (with_reducible refine (State.axGo_keeps h_axes _ _ _ _).after ?_)
    | split
    | (intro)
    | (dsimp only)

/-- What State.skvFault leaves. -/
theorem State.skvFault_keeps {pm : Piece → Bool} (h_regs : pm .regs = true) (h_msix : pm .msix = true) (h_sb : pm .sb = true) (h_skiver : pm .skiver = true) (s : State) (code x : Nat) :
    Keeps pm s (State.skvFault s code x) := by
  unfold State.skvFault
  try dsimp only
  repeat' first
    | with_reducible exact Keeps.refl _ _
    | assumption
    | (with_reducible refine (State.setFld_keeps h_regs _ _ _).after ?_)
    | (with_reducible refine (State.skvEvent_keeps h_regs h_msix h_sb _ _ _ _).after ?_)
    | (with_reducible refine (State.setSkvPhase_keeps h_regs _ _).after ?_)
    | (with_reducible refine (State.setOwned_keeps h_regs _ _).after ?_)
    | split
    | (with_reducible refine (keeps_skiver h_skiver).after ?_)
    | (intro)
    | (dsimp only)

/-- What State.skvStopOthers leaves. -/
theorem State.skvStopOthers_keeps {pm : Piece → Bool} (h_regs : pm .regs = true) (h_axes : pm .axes = true) (s : State) (x : Nat) :
    Keeps pm s (State.skvStopOthers s x) := by
  unfold State.skvStopOthers
  try dsimp only
  repeat' first
    | with_reducible exact Keeps.refl _ _
    | assumption
    | (with_reducible refine (State.setAxState_keeps h_regs _ _ _).after ?_)
    | (with_reducible refine (State.axDecel_keeps h_axes _ _).after ?_)
    | (with_reducible refine (keeps_foldl ?_ _ _).after ?_)
    | split
    | (intro)
    | (dsimp only)

/-- What State.skvHears leaves. -/
theorem State.skvHears_keeps {pm : Piece → Bool} (h_regs : pm .regs = true) (h_msix : pm .msix = true) (h_sb : pm .sb = true) (h_axes : pm .axes = true) (h_skiver : pm .skiver = true) (s : State) (x code : Nat) :
    Keeps pm s (State.skvHears s x code) := by
  unfold State.skvHears
  try dsimp only
  repeat' first
    | with_reducible exact Keeps.refl _ _
    | assumption
    | (with_reducible refine (State.skvFault_keeps h_regs h_msix h_sb h_skiver _ _ _).after ?_)
    | (with_reducible refine (State.skvStopOthers_keeps h_regs h_axes _ _).after ?_)
    | split
    | (intro)
    | (dsimp only)

/-- What State.axMoveCmd leaves. -/
theorem State.axMoveCmd_keeps {pm : Piece → Bool} (h_regs : pm .regs = true) (h_axes : pm .axes = true) (s : State) (x : Nat) :
    Keeps pm s (State.axMoveCmd s x) := by
  unfold State.axMoveCmd
  try dsimp only
  repeat' first
    | with_reducible exact Keeps.refl _ _
    | assumption
    | (with_reducible refine (State.setAxState_keeps h_regs _ _ _).after ?_)
    | (with_reducible refine (State.axResult_keeps h_regs _ _ _).after ?_)
    | (with_reducible refine (State.showAxis_keeps h_regs _ _).after ?_)
    | (with_reducible refine (State.axGo_keeps h_axes _ _ _ _).after ?_)
    | split
    | (intro)
    | (dsimp only)

/-- What State.axVelCmd leaves. -/
theorem State.axVelCmd_keeps {pm : Piece → Bool} (h_regs : pm .regs = true) (h_axes : pm .axes = true) (s : State) (x : Nat) (down : Bool) :
    Keeps pm s (State.axVelCmd s x down) := by
  unfold State.axVelCmd
  try dsimp only
  repeat' first
    | with_reducible exact Keeps.refl _ _
    | assumption
    | (with_reducible refine (State.setAxState_keeps h_regs _ _ _).after ?_)
    | (with_reducible refine (State.axResult_keeps h_regs _ _ _).after ?_)
    | (with_reducible refine (State.showAxis_keeps h_regs _ _).after ?_)
    | (with_reducible refine (State.axGo_keeps h_axes _ _ _ _).after ?_)
    | split
    | (intro)
    | (dsimp only)

/-- What State.axStopCmd leaves. -/
theorem State.axStopCmd_keeps {pm : Piece → Bool} (h_regs : pm .regs = true) (h_msix : pm .msix = true) (h_sb : pm .sb = true) (h_axes : pm .axes = true) (h_skiver : pm .skiver = true) (s : State) (x : Nat) (hard : Bool) :
    Keeps pm s (State.axStopCmd s x hard) := by
  unfold State.axStopCmd
  try dsimp only
  repeat' first
    | with_reducible exact Keeps.refl _ _
    | assumption
    | (with_reducible refine (State.setAxis_keeps h_axes _ _ _).after ?_)
    | (with_reducible refine (State.setAxState_keeps h_regs _ _ _).after ?_)
    | (with_reducible refine (State.axResult_keeps h_regs _ _ _).after ?_)
    | (with_reducible refine (State.axDecel_keeps h_axes _ _).after ?_)
    | (with_reducible refine (State.axEmergency_keeps h_axes _ _).after ?_)
    | (with_reducible refine (State.skvHears_keeps h_regs h_msix h_sb h_axes h_skiver _ _ _).after ?_)
    | split
    | (intro)
    | (dsimp only)

/-- What State.axHomeCmd leaves. -/
theorem State.axHomeCmd_keeps {pm : Piece → Bool} (h_regs : pm .regs = true) (h_axes : pm .axes = true) (s : State) (x : Nat) :
    Keeps pm s (State.axHomeCmd s x) := by
  unfold State.axHomeCmd
  try dsimp only
  repeat' first
    | with_reducible exact Keeps.refl _ _
    | assumption
    | (with_reducible refine (State.setFld_keeps h_regs _ _ _).after ?_)
    | (with_reducible refine (State.setAxis_keeps h_axes _ _ _).after ?_)
    | (with_reducible refine (State.setAxState_keeps h_regs _ _ _).after ?_)
    | (with_reducible refine (State.axResult_keeps h_regs _ _ _).after ?_)
    | (with_reducible refine (State.axGo_keeps h_axes _ _ _ _).after ?_)
    | split
    | (intro)
    | (dsimp only)

/-- What State.axClearCmd leaves. -/
theorem State.axClearCmd_keeps {pm : Piece → Bool} (h_regs : pm .regs = true) (h_axes : pm .axes = true) (s : State) (x : Nat) :
    Keeps pm s (State.axClearCmd s x) := by
  unfold State.axClearCmd
  try dsimp only
  repeat' first
    | with_reducible exact Keeps.refl _ _
    | assumption
    | (with_reducible refine (State.setFld_keeps h_regs _ _ _).after ?_)
    | (with_reducible refine (State.setAxis_keeps h_axes _ _ _).after ?_)
    | (with_reducible refine (State.setAxState_keeps h_regs _ _ _).after ?_)
    | (with_reducible refine (State.axResult_keeps h_regs _ _ _).after ?_)
    | split
    | (intro)
    | (dsimp only)

/-- What State.axSetTo leaves. -/
theorem State.axSetTo_keeps {pm : Piece → Bool} (h_regs : pm .regs = true) (h_axes : pm .axes = true) (s : State) (x : Nat) (p : Int) :
    Keeps pm s (State.axSetTo s x p) := by
  unfold State.axSetTo
  try dsimp only
  repeat' first
    | with_reducible exact Keeps.refl _ _
    | assumption
    | (with_reducible refine (State.setFld_keeps h_regs _ _ _).after ?_)
    | (with_reducible refine (State.setAxis_keeps h_axes _ _ _).after ?_)
    | (with_reducible refine (State.showAxis_keeps h_regs _ _).after ?_)
    | split
    | (intro)
    | (dsimp only)

/-- What State.axSetPosCmd leaves. -/
theorem State.axSetPosCmd_keeps {pm : Piece → Bool} (h_regs : pm .regs = true) (h_axes : pm .axes = true) (s : State) (x : Nat) :
    Keeps pm s (State.axSetPosCmd s x) := by
  unfold State.axSetPosCmd
  try dsimp only
  repeat' first
    | with_reducible exact Keeps.refl _ _
    | assumption
    | (with_reducible refine (State.axResult_keeps h_regs _ _ _).after ?_)
    | (with_reducible refine (State.axSetTo_keeps h_regs h_axes _ _ _).after ?_)
    | split
    | (intro)
    | (dsimp only)

/-- What State.axCommand leaves. -/
theorem State.axCommand_keeps {pm : Piece → Bool} (h_regs : pm .regs = true) (h_cmds : pm .cmds = true) (h_msix : pm .msix = true) (h_sb : pm .sb = true) (h_axes : pm .axes = true) (h_skiver : pm .skiver = true) (s : State) (x c : Nat) :
    Keeps pm s (State.axCommand s x c) := by
  unfold State.axCommand
  try dsimp only
  repeat' first
    | with_reducible exact Keeps.refl _ _
    | assumption
    | (with_reducible refine (State.addCmd_keeps h_cmds _ _ _).after ?_)
    | (with_reducible refine (State.axMoveCmd_keeps h_regs h_axes _ _).after ?_)
    | (with_reducible refine (State.axVelCmd_keeps h_regs h_axes _ _ _).after ?_)
    | (with_reducible refine (State.axStopCmd_keeps h_regs h_msix h_sb h_axes h_skiver _ _ _).after ?_)
    | (with_reducible refine (State.axHomeCmd_keeps h_regs h_axes _ _).after ?_)
    | (with_reducible refine (State.axClearCmd_keeps h_regs h_axes _ _).after ?_)
    | (with_reducible refine (State.axSetPosCmd_keeps h_regs h_axes _ _).after ?_)
    | split
    | (intro)
    | (dsimp only)

/-- What State.axLand leaves. -/
theorem State.axLand_keeps {pm : Piece → Bool} (h_axes : pm .axes = true) (s : State) (x : Nat) :
    Keeps pm s (State.axLand s x) := by
  unfold State.axLand
  try dsimp only
  repeat' first
    | with_reducible exact Keeps.refl _ _
    | assumption
    | (with_reducible refine (State.setAxis_keeps h_axes _ _ _).after ?_)
    | split
    | (intro)
    | (dsimp only)

/-- What State.axFaults leaves. -/
theorem State.axFaults_keeps {pm : Piece → Bool} (h_regs : pm .regs = true) (h_msix : pm .msix = true) (h_sb : pm .sb = true) (h_axes : pm .axes = true) (s : State) (x code event : Nat) (hard : Bool) :
    Keeps pm s (State.axFaults s x code event hard) := by
  unfold State.axFaults
  try dsimp only
  repeat' first
    | with_reducible exact Keeps.refl _ _
    | assumption
    | (with_reducible refine (State.setAxis_keeps h_axes _ _ _).after ?_)
    | (with_reducible refine (State.setAxState_keeps h_regs _ _ _).after ?_)
    | (with_reducible refine (State.axEvent_keeps h_regs h_msix h_sb _ _ _).after ?_)
    | (with_reducible refine (State.axDecel_keeps h_axes _ _).after ?_)
    | (with_reducible refine (State.axEmergency_keeps h_axes _ _).after ?_)
    | split
    | (intro)
    | (dsimp only)

/-- What State.homeLatch leaves. -/
theorem State.homeLatch_keeps {pm : Piece → Bool} (h_regs : pm .regs = true) (h_axes : pm .axes = true) (s : State) (x : Nat) (l : Int) (t step : Nat) :
    Keeps pm s (State.homeLatch s x l t step) := by
  unfold State.homeLatch
  try dsimp only
  repeat' first
    | with_reducible exact Keeps.refl _ _
    | assumption
    | (with_reducible refine (State.setReg_keeps h_regs _ _ _).after ?_)
    | (with_reducible refine (State.setAxis_keeps h_axes _ _ _).after ?_)
    | split
    | (intro)
    | (dsimp only)

/-- What State.homeCounts leaves. -/
theorem State.homeCounts_keeps {pm : Piece → Bool} (h_regs : pm .regs = true) (h_axes : pm .axes = true) (s : State) (x t t0 : Nat) :
    Keeps pm s (State.homeCounts s x t t0) := by
  unfold State.homeCounts
  try dsimp only
  repeat' first
    | with_reducible exact Keeps.refl _ _
    | assumption
    | (with_reducible refine (State.bump_keeps h_regs _ _).after ?_)
    | (with_reducible refine (State.setAxis_keeps h_axes _ _ _).after ?_)
    | split
    | (intro)
    | (dsimp only)

/-- What State.waveDone leaves. -/
theorem State.waveDone_keeps {pm : Piece → Bool} (h_regs : pm .regs = true) (s : State) (x r : Nat) :
    Keeps pm s (State.waveDone s x r) := by
  unfold State.waveDone
  try dsimp only
  repeat' first
    | with_reducible exact Keeps.refl _ _
    | assumption
    | (with_reducible refine (State.setFld_keeps h_regs _ _ _).after ?_)
    | split
    | (intro)
    | (dsimp only)

/-- What State.waveCopy leaves. -/
theorem State.waveCopy_keeps {pm : Piece → Bool} (h_regs : pm .regs = true) (h_msix : pm .msix = true) (h_sb : pm .sb = true) (h_repeatAge : pm .repeatAge = true) (h_hide : pm .hide = true) (h_axes : pm .axes = true) (s : State) (x bank key n : Nat) :
    Keeps pm s (State.waveCopy s x bank key n) := by
  unfold State.waveCopy
  try dsimp only
  repeat' first
    | with_reducible exact Keeps.refl _ _
    | assumption
    | (with_reducible refine (State.readBufs_keeps h_regs h_msix h_sb h_repeatAge h_hide _ _ _ _).after ?_)
    | (with_reducible refine (State.readBufs_keeps_eq h_regs h_msix h_sb h_repeatAge h_hide _ _ _ _ (by assumption)).after ?_)
    | (with_reducible refine (State.setAxis_keeps h_axes _ _ _).after ?_)
    | (with_reducible refine (State.waveDone_keeps h_regs _ _ _).after ?_)
    | split
    | (intro)
    | (dsimp only)

/-- What State.waveLoad leaves. -/
theorem State.waveLoad_keeps {pm : Piece → Bool} (h_regs : pm .regs = true) (h_msix : pm .msix = true) (h_sb : pm .sb = true) (h_repeatAge : pm .repeatAge = true) (h_hide : pm .hide = true) (h_axes : pm .axes = true) (s : State) (x bank : Nat) :
    Keeps pm s (State.waveLoad s x bank) := by
  unfold State.waveLoad
  try dsimp only
  repeat' first
    | with_reducible exact Keeps.refl _ _
    | assumption
    | (with_reducible refine (State.waveDone_keeps h_regs _ _ _).after ?_)
    | (with_reducible refine (State.waveCopy_keeps h_regs h_msix h_sb h_repeatAge h_hide h_axes _ _ _ _ _).after ?_)
    | split
    | (intro)
    | (dsimp only)

/-- What State.loadAngle leaves. -/
theorem State.loadAngle_keeps {pm : Piece → Bool} (h_fresh : pm .fresh = true) (s : State) (x : Nat) :
    Keeps pm s (State.loadAngle s x).1 := by
  unfold State.loadAngle
  try dsimp only
  repeat' first
    | with_reducible exact Keeps.refl _ _
    | assumption
    | (with_reducible refine (State.tookFree_keeps h_fresh _).after ?_)
    | split
    | (intro)
    | (dsimp only)

/-- What State.loadAngle leaves, its answer taken apart. -/
theorem State.loadAngle_keeps_eq {pm : Piece → Bool} (h_fresh : pm .fresh = true) (s : State) (x : Nat) {t : State} {r : Int}
    (e : State.loadAngle s x = (t, r)) : Keeps pm s t := by
  have q := State.loadAngle_keeps (pm := pm) h_fresh s x
  rw [e] at q
  exact q

/-- What State.axStall leaves. -/
theorem State.axStall_keeps {pm : Piece → Bool} (h_axes : pm .axes = true) (s : State) (x : Nat) (la : Int) (ceil : Nat) :
    Keeps pm s (State.axStall s x la ceil) := by
  unfold State.axStall
  try dsimp only
  repeat' first
    | with_reducible exact Keeps.refl _ _
    | assumption
    | (with_reducible refine (State.setAxis_keeps h_axes _ _ _).after ?_)
    | (with_reducible refine (State.stall_keeps h_regs h_staged h_cmds h_readData h_resp h_msix h_fresh h_sb h_cores h_ctxs h_wdog h_chans h_repeatAge h_reins h_hide h_axes h_cams h_bed h_lanes h_time h_segs h_lamp h_therm h_cal h_burn h_sec h_harn _ _ _ _ ?_).after ?_)
    | split
    | (intro)
    | (dsimp only)

/-- What State.axDrive leaves. -/
theorem State.axDrive_keeps {pm : Piece → Bool} (h_regs : pm .regs = true) (h_fresh : pm .fresh = true) (h_axes : pm .axes = true) (s : State) (x : Nat) :
    Keeps pm s (State.axDrive s x) := by
  unfold State.axDrive
  try dsimp only
  repeat' first
    | with_reducible exact Keeps.refl _ _
    | assumption
    | (with_reducible refine (State.setFld_keeps h_regs _ _ _).after ?_)
    | (with_reducible refine (State.loadAngle_keeps h_fresh _ _).after ?_)
    | (with_reducible refine (State.loadAngle_keeps_eq h_fresh _ _ (by assumption)).after ?_)
    | (with_reducible refine (State.axStall_keeps h_axes _ _ _ _).after ?_)
    | split
    | (intro)
    | (dsimp only)

/-- What State.axCompare leaves. -/
theorem State.axCompare_keeps {pm : Piece → Bool} (h_axes : pm .axes = true) (s : State) (x : Nat) :
    Keeps pm s (State.axCompare s x) := by
  unfold State.axCompare
  try dsimp only
  repeat' first
    | with_reducible exact Keeps.refl _ _
    | assumption
    | (with_reducible refine (State.setAxis_keeps h_axes _ _ _).after ?_)
    | split
    | (intro)
    | (dsimp only)

/-- What State.axEnable leaves. -/
theorem State.axEnable_keeps {pm : Piece → Bool} (h_regs : pm .regs = true) (h_msix : pm .msix = true) (h_sb : pm .sb = true) (h_axes : pm .axes = true) (h_skiver : pm .skiver = true) (s : State) (x : Nat) :
    Keeps pm s (State.axEnable s x) := by
  unfold State.axEnable
  try dsimp only
  repeat' first
    | with_reducible exact Keeps.refl _ _
    | assumption
    | (with_reducible refine (State.setFld_keeps h_regs _ _ _).after ?_)
    | (with_reducible refine (State.setAxis_keeps h_axes _ _ _).after ?_)
    | (with_reducible refine (State.setAxState_keeps h_regs _ _ _).after ?_)
    | (with_reducible refine (State.axEmergency_keeps h_axes _ _).after ?_)
    | (with_reducible refine (State.skvHears_keeps h_regs h_msix h_sb h_axes h_skiver _ _ _).after ?_)
    | split
    | (intro)
    | (dsimp only)

/-- What State.axSample leaves. -/
theorem State.axSample_keeps {pm : Piece → Bool} (h_regs : pm .regs = true) (h_axes : pm .axes = true) (s : State) (x : Nat) (inp : BoundaryIn) :
    Keeps pm s (State.axSample s x inp) := by
  unfold State.axSample
  try dsimp only
  repeat' first
    | with_reducible exact Keeps.refl _ _
    | assumption
    | (with_reducible refine (State.setReg_keeps h_regs _ _ _).after ?_)
    | (with_reducible refine (State.setAxis_keeps h_axes _ _ _).after ?_)
    | split
    | (intro)
    | (dsimp only)

/-- What State.axJudge leaves. -/
theorem State.axJudge_keeps {pm : Piece → Bool} (h_regs : pm .regs = true) (h_msix : pm .msix = true) (h_fresh : pm .fresh = true) (h_sb : pm .sb = true) (h_axes : pm .axes = true) (h_skiver : pm .skiver = true) (s : State) (x : Nat) :
    Keeps pm s (State.axJudge s x) := by
  unfold State.axJudge
  try dsimp only
  repeat' first
    | with_reducible exact Keeps.refl _ _
    | assumption
    | (with_reducible refine (State.setFld_keeps h_regs _ _ _).after ?_)
    | (with_reducible refine (State.setAxis_keeps h_axes _ _ _).after ?_)
    | (with_reducible refine (State.axDrive_keeps h_regs h_fresh h_axes _ _).after ?_)
    | (with_reducible refine (State.axCompare_keeps h_axes _ _).after ?_)
    | (with_reducible refine (State.axEnable_keeps h_regs h_msix h_sb h_axes h_skiver _ _).after ?_)
    | split
    | (intro)
    | (dsimp only)

/-- What State.axWalk leaves. -/
theorem State.axWalk_keeps {pm : Piece → Bool} (h_axes : pm .axes = true) (s : State) (x : Nat) :
    Keeps pm s (State.axWalk s x) := by
  unfold State.axWalk
  try dsimp only
  repeat' first
    | with_reducible exact Keeps.refl _ _
    | assumption
    | (with_reducible refine (State.setAxis_keeps h_axes _ _ _).after ?_)
    | split
    | (intro)
    | (dsimp only)

/-- What State.axHomeBoundary leaves. -/
theorem State.axHomeBoundary_keeps {pm : Piece → Bool} (h_regs : pm .regs = true) (h_axes : pm .axes = true) (s : State) (x : Nat) :
    Keeps pm s (State.axHomeBoundary s x) := by
  unfold State.axHomeBoundary
  try dsimp only
  repeat' first
    | with_reducible exact Keeps.refl _ _
    | assumption
    | (with_reducible refine (State.setAxis_keeps h_axes _ _ _).after ?_)
    | (with_reducible refine (State.axGo_keeps h_axes _ _ _ _).after ?_)
    | (with_reducible refine (State.axDecel_keeps h_axes _ _).after ?_)
    | (with_reducible refine (State.axLand_keeps h_axes _ _).after ?_)
    | (with_reducible refine (State.homeLatch_keeps h_regs h_axes _ _ _ _ _).after ?_)
    | split
    | (intro)
    | (dsimp only)

/-- What State.axisBoundary leaves. -/
theorem State.axisBoundary_keeps {pm : Piece → Bool} (h_regs : pm .regs = true) (h_axes : pm .axes = true) (s : State) (x : Nat) :
    Keeps pm s (State.axisBoundary s x) := by
  unfold State.axisBoundary
  try dsimp only
  repeat' first
    | with_reducible exact Keeps.refl _ _
    | assumption
    | (with_reducible refine (State.showAxis_keeps h_regs _ _).after ?_)
    | (with_reducible refine (State.axHomeBoundary_keeps h_regs h_axes _ _).after ?_)
    | split
    | (intro)
    | (dsimp only)

/-- What State.skvReady leaves. -/
theorem State.skvReady_keeps {pm : Piece → Bool} (h_regs : pm .regs = true) (h_msix : pm .msix = true) (h_sb : pm .sb = true) (h_tree : pm .tree = true) (h_skiver : pm .skiver = true) (s : State) :
    Keeps pm s (State.skvReady s) := by
  unfold State.skvReady
  try dsimp only
  repeat' first
    | with_reducible exact Keeps.refl _ _
    | assumption
    | (with_reducible refine (State.skvEvent_keeps h_regs h_msix h_sb _ _ _ _).after ?_)
    | (with_reducible refine (State.setSkvPhase_keeps h_regs _ _).after ?_)
    | (with_reducible refine (State.setOwned_keeps h_regs _ _).after ?_)
    | split
    | (with_reducible refine (keeps_tree_skiver h_tree h_skiver).after ?_)
    | (intro)
    | (dsimp only)

/-- What State.skvStart leaves. -/
theorem State.skvStart_keeps {pm : Piece → Bool} (h_regs : pm .regs = true) (h_msix : pm .msix = true) (h_sb : pm .sb = true) (h_tree : pm .tree = true) (h_skiver : pm .skiver = true) (s : State) (dz : Nat) :
    Keeps pm s (State.skvStart s dz) := by
  unfold State.skvStart
  try dsimp only
  repeat' first
    | with_reducible exact Keeps.refl _ _
    | assumption
    | (with_reducible refine (State.setSkvPhase_keeps h_regs _ _).after ?_)
    | (with_reducible refine (State.setOwned_keeps h_regs _ _).after ?_)
    | (with_reducible refine (State.skvFault_keeps h_regs h_msix h_sb h_skiver _ _ _).after ?_)
    | (with_reducible refine (State.skvReady_keeps h_regs h_msix h_sb h_tree h_skiver _).after ?_)
    | split
    | (with_reducible refine (keeps_skiver h_skiver).after ?_)
    | (intro)
    | (dsimp only)

/-- What State.skvMove leaves. -/
theorem State.skvMove_keeps {pm : Piece → Bool} (h_regs : pm .regs = true) (h_axes : pm .axes = true) (s : State) (x : Option Nat) (target : Int) (speed : Option Nat) :
    Keeps pm s (State.skvMove s x target speed) := by
  unfold State.skvMove
  try dsimp only
  repeat' first
    | with_reducible exact Keeps.refl _ _
    | assumption
    | (with_reducible refine (State.setAxState_keeps h_regs _ _ _).after ?_)
    | (with_reducible refine (State.axResult_keeps h_regs _ _ _).after ?_)
    | (with_reducible refine (State.showAxis_keeps h_regs _ _).after ?_)
    | (with_reducible refine (State.axGo_keeps h_axes _ _ _ _).after ?_)
    | split
    | (intro)
    | (dsimp only)

/-- What State.skvBegin leaves. -/
theorem State.skvBegin_keeps {pm : Piece → Bool} (h_regs : pm .regs = true) (h_msix : pm .msix = true) (h_sb : pm .sb = true) (h_axes : pm .axes = true) (h_skiver : pm .skiver = true) (s : State) (p : Nat) :
    Keeps pm s (State.skvBegin s p) := by
  unfold State.skvBegin
  try dsimp only
  repeat' first
    | with_reducible exact Keeps.refl _ _
    | assumption
    | (with_reducible refine (State.setSkvPhase_keeps h_regs _ _).after ?_)
    | (with_reducible refine (State.skvFault_keeps h_regs h_msix h_sb h_skiver _ _ _).after ?_)
    | (with_reducible refine (State.skvMove_keeps h_regs h_axes _ _ _ _).after ?_)
    | split
    | (with_reducible refine (keeps_skiver h_skiver).after ?_)
    | (intro)
    | (dsimp only)

/-- What State.skvBoundary leaves. -/
theorem State.skvBoundary_keeps {pm : Piece → Bool} (h_regs : pm .regs = true) (h_msix : pm .msix = true) (h_sb : pm .sb = true) (h_axes : pm .axes = true) (h_skiver : pm .skiver = true) (s : State) :
    Keeps pm s (State.skvBoundary s) := by
  unfold State.skvBoundary
  try dsimp only
  repeat' first
    | with_reducible exact Keeps.refl _ _
    | assumption
    | (with_reducible refine (State.skvBegin_keeps h_regs h_msix h_sb h_axes h_skiver _ _).after ?_)
    | split
    | (intro)
    | (dsimp only)

/-- What State.skvReadyCmd leaves. -/
theorem State.skvReadyCmd_keeps {pm : Piece → Bool} (h_regs : pm .regs = true) (h_msix : pm .msix = true) (h_sb : pm .sb = true) (h_tree : pm .tree = true) (h_skiver : pm .skiver = true) (s : State) :
    Keeps pm s (State.skvReadyCmd s) := by
  unfold State.skvReadyCmd
  try dsimp only
  repeat' first
    | with_reducible exact Keeps.refl _ _
    | assumption
    | (with_reducible refine (State.skvReady_keeps h_regs h_msix h_sb h_tree h_skiver _).after ?_)
    | split
    | (intro)
    | (dsimp only)

/-- What State.skvRetryCmd leaves. -/
theorem State.skvRetryCmd_keeps {pm : Piece → Bool} (h_regs : pm .regs = true) (h_msix : pm .msix = true) (h_sb : pm .sb = true) (h_skiver : pm .skiver = true) (s : State) :
    Keeps pm s (State.skvRetryCmd s) := by
  unfold State.skvRetryCmd
  try dsimp only
  repeat' first
    | with_reducible exact Keeps.refl _ _
    | assumption
    | (with_reducible refine (State.setFld_keeps h_regs _ _ _).after ?_)
    | (with_reducible refine (State.setSkvPhase_keeps h_regs _ _).after ?_)
    | (with_reducible refine (State.setOwned_keeps h_regs _ _).after ?_)
    | (with_reducible refine (State.skvFault_keeps h_regs h_msix h_sb h_skiver _ _ _).after ?_)
    | split
    | (with_reducible refine (keeps_skiver h_skiver).after ?_)
    | (intro)
    | (dsimp only)

/-- What State.skvAbort leaves. -/
theorem State.skvAbort_keeps {pm : Piece → Bool} (h_regs : pm .regs = true) (h_axes : pm .axes = true) (h_skiver : pm .skiver = true) (s : State) :
    Keeps pm s (State.skvAbort s) := by
  unfold State.skvAbort
  try dsimp only
  repeat' first
    | with_reducible exact Keeps.refl _ _
    | assumption
    | (with_reducible refine (State.setAxState_keeps h_regs _ _ _).after ?_)
    | (with_reducible refine (State.setSkvPhase_keeps h_regs _ _).after ?_)
    | (with_reducible refine (State.setOwned_keeps h_regs _ _).after ?_)
    | (with_reducible refine (State.axDecel_keeps h_axes _ _).after ?_)
    | (with_reducible refine (keeps_foldl ?_ _ _).after ?_)
    | split
    | (with_reducible refine (keeps_skiver h_skiver).after ?_)
    | (intro)
    | (dsimp only)

end Sys2Proof.Machine
end

