-- ==== Sys2Proof/Laws/KeepsTree.lean ====
section
/-! SUPPORT. What each operation of Machine/Tree.lean leaves: the pieces of the state that it does not name, the part, and
the canonical form. -/

namespace Sys2Proof.Machine

/-- What State.onTree leaves. -/
theorem State.onTree_keeps {pm : Piece → Bool} (h_tree : pm .tree = true) (s : State) (f : Tree → Tree) :
    Keeps pm s (State.onTree s f) := by
  unfold State.onTree
  try dsimp only
  repeat' first
    | with_reducible exact Keeps.refl _ _
    | assumption
    | split
    | (with_reducible refine (keeps_tree h_tree).after ?_)
    | (intro)
    | (dsimp only)

/-- What State.setJob leaves. -/
theorem State.setJob_keeps {pm : Piece → Bool} (h_regs : pm .regs = true) (h_tree : pm .tree = true) (s : State) (v : Nat) :
    Keeps pm s (State.setJob s v) := by
  unfold State.setJob
  try dsimp only
  repeat' first
    | with_reducible exact Keeps.refl _ _
    | assumption
    | (with_reducible refine (State.setFld_keeps h_regs _ _ _).after ?_)
    | (with_reducible refine (State.onTree_keeps h_tree _ _).after ?_)
    | split
    | (intro)
    | (dsimp only)

/-- What State.jobResult leaves. -/
theorem State.jobResult_keeps {pm : Piece → Bool} (h_regs : pm .regs = true) (s : State) (r : Nat) :
    Keeps pm s (State.jobResult s r) := by
  unfold State.jobResult
  try dsimp only
  repeat' first
    | with_reducible exact Keeps.refl _ _
    | assumption
    | (with_reducible refine (State.setFld_keeps h_regs _ _ _).after ?_)
    | split
    | (intro)
    | (dsimp only)

/-- What State.jobEvent leaves. -/
theorem State.jobEvent_keeps {pm : Piece → Bool} (h_regs : pm .regs = true) (h_msix : pm .msix = true) (h_sb : pm .sb = true) (s : State) (code low : Nat) (layerNo : Word) :
    Keeps pm s (State.jobEvent s code low layerNo) := by
  unfold State.jobEvent
  try dsimp only
  repeat' first
    | with_reducible exact Keeps.refl _ _
    | assumption
    | (with_reducible refine (State.pushEvent_keeps h_regs h_msix h_sb _ _ _ _).after ?_)
    | split
    | (intro)
    | (dsimp only)

/-- What State.jobEventNone leaves. -/
theorem State.jobEventNone_keeps {pm : Piece → Bool} (h_regs : pm .regs = true) (h_msix : pm .msix = true) (h_fresh : pm .fresh = true) (h_sb : pm .sb = true) (s : State) (code low : Nat) :
    Keeps pm s (State.jobEventNone s code low) := by
  unfold State.jobEventNone
  try dsimp only
  repeat' first
    | with_reducible exact Keeps.refl _ _
    | assumption
    | (with_reducible refine (State.tookFree_keeps h_fresh _).after ?_)
    | (with_reducible refine (State.jobEvent_keeps h_regs h_msix h_sb _ _ _ _).after ?_)
    | split
    | (intro)
    | (dsimp only)

/-- What State.planEvent leaves. -/
theorem State.planEvent_keeps {pm : Piece → Bool} (h_regs : pm .regs = true) (h_msix : pm .msix = true) (h_sb : pm .sb = true) (s : State) (code slot w2 : Nat) :
    Keeps pm s (State.planEvent s code slot w2) := by
  unfold State.planEvent
  try dsimp only
  repeat' first
    | with_reducible exact Keeps.refl _ _
    | assumption
    | (with_reducible refine (State.pushEvent_keeps h_regs h_msix h_sb _ _ _ _).after ?_)
    | split
    | (intro)
    | (dsimp only)

/-- What State.onUnit leaves. -/
theorem State.onUnit_keeps {pm : Piece → Bool} (h_tree : pm .tree = true) (s : State) (i : Nat) (f : PlaceUnit → PlaceUnit) :
    Keeps pm s (State.onUnit s i f) := by
  unfold State.onUnit
  try dsimp only
  repeat' first
    | with_reducible exact Keeps.refl _ _
    | assumption
    | (with_reducible refine (State.mapUnits_keeps h_tree _ _).after ?_)
    | split
    | (intro)
    | (dsimp only)

/-- What State.logMarker leaves. -/
theorem State.logMarker_keeps {pm : Piece → Bool} (h_tree : pm .tree = true) (s : State) (kind : Nat) :
    Keeps pm s (State.logMarker s kind) := by
  unfold State.logMarker
  try dsimp only
  repeat' first
    | with_reducible exact Keeps.refl _ _
    | assumption
    | (with_reducible refine (State.onTree_keeps h_tree _ _).after ?_)
    | split
    | (intro)
    | (dsimp only)

/-- What State.queryTemp leaves. -/
theorem State.queryTemp_keeps {pm : Piece → Bool} (h_regs : pm .regs = true) (s : State) (u : PlaceUnit) :
    Keeps pm s (State.queryTemp s u) := by
  unfold State.queryTemp
  try dsimp only
  repeat' first
    | with_reducible exact Keeps.refl _ _
    | assumption
    | (with_reducible refine (State.bump_keeps h_regs _ _).after ?_)
    | split
    | (intro)
    | (dsimp only)

/-- What State.planForce leaves. -/
theorem State.planForce_keeps {pm : Piece → Bool} (h_regs : pm .regs = true) (h_msix : pm .msix = true) (h_sb : pm .sb = true) (h_tree : pm .tree = true) (s : State) (r : PlanResult) :
    Keeps pm s (State.planForce s r) := by
  unfold State.planForce
  try dsimp only
  repeat' first
    | with_reducible exact Keeps.refl _ _
    | assumption
    | (with_reducible refine (State.setReg_keeps h_regs _ _ _).after ?_)
    | (with_reducible refine (State.setFld_keeps h_regs _ _ _).after ?_)
    | (with_reducible refine (State.mapUnits_keeps h_tree _ _).after ?_)
    | (with_reducible refine (State.onTree_keeps h_tree _ _).after ?_)
    | (with_reducible refine (State.planEvent_keeps h_regs h_msix h_sb _ _ _ _).after ?_)
    | (with_reducible refine (keeps_foldl ?_ _ _).after ?_)
    | split
    | (intro)
    | (dsimp only)

/-- What State.showWaits leaves. -/
theorem State.showWaits_keeps {pm : Piece → Bool} (h_regs : pm .regs = true) (s : State) (k : Nat) :
    Keeps pm s (State.showWaits s k) := by
  unfold State.showWaits
  try dsimp only
  repeat' first
    | with_reducible exact Keeps.refl _ _
    | assumption
    | (with_reducible refine (State.setFld_keeps h_regs _ _ _).after ?_)
    | (with_reducible refine (keeps_foldl ?_ _ _).after ?_)
    | split
    | (intro)
    | (dsimp only)

/-- What State.pushPart leaves. -/
theorem State.pushPart_keeps {pm : Piece → Bool} (h_regs : pm .regs = true) (h_msix : pm .msix = true) (h_sb : pm .sb = true) (h_chans : pm .chans = true) (h_tree : pm .tree = true) (s : State) (i : Nat) :
    Keeps pm s (State.pushPart s i) := by
  unfold State.pushPart
  try dsimp only
  repeat' first
    | with_reducible exact Keeps.refl _ _
    | assumption
    | (with_reducible refine (State.pushWords_keeps h_regs h_msix h_sb _ _ _ _).after ?_)
    | (with_reducible refine (State.dramUse_keeps h_regs h_msix h_sb h_chans _ _ _ _ _).after ?_)
    | (with_reducible refine (State.logStroke_keeps h_tree _ _ _).after ?_)
    | (with_reducible refine (State.onTree_keeps h_tree _ _).after ?_)
    | (with_reducible refine (State.planEvent_keeps h_regs h_msix h_sb _ _ _ _).after ?_)
    | (with_reducible refine (State.onUnit_keeps h_tree _ _ _).after ?_)
    | split
    | (intro)
    | (dsimp only)

/-- What State.startUnit leaves. -/
theorem State.startUnit_keeps {pm : Piece → Bool} (h_regs : pm .regs = true) (h_msix : pm .msix = true) (h_sb : pm .sb = true) (h_chans : pm .chans = true) (h_tree : pm .tree = true) (s : State) (k i : Nat) :
    Keeps pm s (State.startUnit s k i) := by
  unfold State.startUnit
  try dsimp only
  repeat' first
    | with_reducible exact Keeps.refl _ _
    | assumption
    | (with_reducible refine (State.setFld_keeps h_regs _ _ _).after ?_)
    | (with_reducible refine (State.onTree_keeps h_tree _ _).after ?_)
    | (with_reducible refine (State.onUnit_keeps h_tree _ _ _).after ?_)
    | (with_reducible refine (State.queryTemp_keeps h_regs _ _).after ?_)
    | (with_reducible refine (State.pushPart_keeps h_regs h_msix h_sb h_chans h_tree _ _).after ?_)
    | (with_reducible refine (keeps_foldl ?_ _ _).after ?_)
    | split
    | (intro)
    | (dsimp only)

/-- What State.consider leaves. -/
theorem State.consider_keeps {pm : Piece → Bool} (h_regs : pm .regs = true) (h_msix : pm .msix = true) (h_sb : pm .sb = true) (h_chans : pm .chans = true) (h_tree : pm .tree = true) (s : State) (k : Nat) :
    Keeps pm s (State.consider s k) := by
  unfold State.consider
  try dsimp only
  repeat' first
    | with_reducible exact Keeps.refl _ _
    | assumption
    | (with_reducible refine (State.setFld_keeps h_regs _ _ _).after ?_)
    | (with_reducible refine (State.onTree_keeps h_tree _ _).after ?_)
    | (with_reducible refine (State.showWaits_keeps h_regs _ _).after ?_)
    | (with_reducible refine (State.startUnit_keeps h_regs h_msix h_sb h_chans h_tree _ _ _).after ?_)
    | split
    | (intro)
    | (dsimp only)

/-- What State.emptyUnits leaves. -/
theorem State.emptyUnits_keeps {pm : Piece → Bool} (h_tree : pm .tree = true) (s : State) :
    Keeps pm s (State.emptyUnits s) := by
  unfold State.emptyUnits
  try dsimp only
  repeat' first
    | with_reducible exact Keeps.refl _ _
    | assumption
    | (with_reducible refine (State.onUnit_keeps h_tree _ _ _).after ?_)
    | (with_reducible refine (keeps_foldl ?_ _ _).after ?_)
    | split
    | (intro)
    | (dsimp only)

/-- What State.cutHeld leaves. -/
theorem State.cutHeld_keeps {pm : Piece → Bool} (h_tree : pm .tree = true) (s : State) (k flag : Nat) (z0 : List HeldStroke) :
    Keeps pm s (State.cutHeld s k flag z0).1 := by
  fun_induction State.cutHeld s k flag z0
  all_goals (try dsimp +zetaDelta only at *)
  repeat' first
    | with_reducible exact Keeps.refl _ _
    | assumption
    | (with_reducible refine (State.logStroke_keeps h_tree _ _ _).after ?_)
    | (with_reducible refine (State.countEnd_keeps h_tree _ _ _).after ?_)
    | (with_reducible refine Keeps.trans ?_ (by assumption))
    | split
    | (intro)
    | (dsimp only)

/-- What State.cutHeld leaves, its answer taken apart. -/
theorem State.cutHeld_keeps_eq {pm : Piece → Bool} (h_tree : pm .tree = true) (s : State) (k flag : Nat) (z0 : List HeldStroke) {t : State} {r : Option HeldStroke}
    (e : State.cutHeld s k flag z0 = (t, r)) : Keeps pm s t := by
  have q := State.cutHeld_keeps (pm := pm) h_tree s k flag z0
  rw [e] at q
  exact q

/-- What State.cutSlot leaves. -/
theorem State.cutSlot_keeps {pm : Piece → Bool} (h_regs : pm .regs = true) (h_readData : pm .readData = true) (h_resp : pm .resp = true) (h_msix : pm .msix = true) (h_fresh : pm .fresh = true) (h_sb : pm .sb = true) (h_repeatAge : pm .repeatAge = true) (h_awls : pm .awls = true) (h_hide : pm .hide = true) (h_tree : pm .tree = true) (s : State) (k flag : Nat) :
    Keeps pm s (State.cutSlot s k flag).1 := by
  unfold State.cutSlot
  try dsimp only
  repeat' first
    | with_reducible exact Keeps.refl _ _
    | assumption
    | (with_reducible refine (State.flushHandle_keeps h_regs h_readData h_resp h_msix h_fresh h_sb h_repeatAge h_hide _ _).after ?_)
    | (with_reducible refine (State.setAwl_keeps h_awls _ _ _).after ?_)
    | (with_reducible refine (State.showWindow_keeps h_regs _ _).after ?_)
    | (with_reducible refine (State.onTree_keeps h_tree _ _).after ?_)
    | (with_reducible refine (State.cutHeld_keeps h_tree _ _ _ _).after ?_)
    | (with_reducible refine (State.cutHeld_keeps_eq h_tree _ _ _ _ (by assumption)).after ?_)
    | (with_reducible refine (keeps_foldl ?_ _ _).after ?_)
    | split
    | (intro)
    | (dsimp only)

/-- What State.cutSlot leaves, its answer taken apart. -/
theorem State.cutSlot_keeps_eq {pm : Piece → Bool} (h_regs : pm .regs = true) (h_readData : pm .readData = true) (h_resp : pm .resp = true) (h_msix : pm .msix = true) (h_fresh : pm .fresh = true) (h_sb : pm .sb = true) (h_repeatAge : pm .repeatAge = true) (h_awls : pm .awls = true) (h_hide : pm .hide = true) (h_tree : pm .tree = true) (s : State) (k flag : Nat) {t : State} {r : Option HeldStroke}
    (e : State.cutSlot s k flag = (t, r)) : Keeps pm s t := by
  have q := State.cutSlot_keeps (pm := pm) h_regs h_readData h_resp h_msix h_fresh h_sb h_repeatAge h_awls h_hide h_tree s k flag
  rw [e] at q
  exact q

/-- What State.orphanUnit leaves. -/
theorem State.orphanUnit_keeps {pm : Piece → Bool} (h_regs : pm .regs = true) (h_msix : pm .msix = true) (h_sb : pm .sb = true) (h_tree : pm .tree = true) (s : State) (i : Nat) :
    Keeps pm s (State.orphanUnit s i) := by
  unfold State.orphanUnit
  try dsimp only
  repeat' first
    | with_reducible exact Keeps.refl _ _
    | assumption
    | (with_reducible refine (State.setFld_keeps h_regs _ _ _).after ?_)
    | (with_reducible refine (State.planEvent_keeps h_regs h_msix h_sb _ _ _ _).after ?_)
    | (with_reducible refine (State.onUnit_keeps h_tree _ _ _).after ?_)
    | split
    | (intro)
    | (dsimp only)

/-- What State.handOver leaves. -/
theorem State.handOver_keeps {pm : Piece → Bool} (h_regs : pm .regs = true) (h_msix : pm .msix = true) (h_sb : pm .sb = true) (h_tree : pm .tree = true) (s : State) (k i : Nat) (h : Option HeldStroke) :
    Keeps pm s (State.handOver s k i h) := by
  unfold State.handOver
  try dsimp only
  repeat' first
    | with_reducible exact Keeps.refl _ _
    | assumption
    | (with_reducible refine (State.onTree_keeps h_tree _ _).after ?_)
    | (with_reducible refine (State.planEvent_keeps h_regs h_msix h_sb _ _ _ _).after ?_)
    | (with_reducible refine (State.onUnit_keeps h_tree _ _ _).after ?_)
    | (with_reducible refine (State.orphanUnit_keeps h_regs h_msix h_sb h_tree _ _).after ?_)
    | split
    | (intro)
    | (dsimp only)

/-- What State.copyPsets leaves. -/
theorem State.copyPsets_keeps {pm : Piece → Bool} (h_regs : pm .regs = true) (h_readData : pm .readData = true) (h_resp : pm .resp = true) (h_msix : pm .msix = true) (h_fresh : pm .fresh = true) (h_sb : pm .sb = true) (h_chans : pm .chans = true) (h_tree : pm .tree = true) (s : State) (k : Nat) :
    Keeps pm s (State.copyPsets s k) := by
  unfold State.copyPsets
  try dsimp only
  repeat' first
    | with_reducible exact Keeps.refl _ _
    | assumption
    | (with_reducible refine (State.setStream_keeps h_regs h_sb _ _ _).after ?_)
    | (with_reducible refine (State.dramUse_keeps h_regs h_msix h_sb h_chans _ _ _ _ _).after ?_)
    | (with_reducible refine (State.makeInternal_keeps h_regs h_fresh h_sb _ _ _).after ?_)
    | (with_reducible refine (State.makeInternal_keeps_eq h_regs h_fresh h_sb _ _ _ (by assumption)).after ?_)
    | (with_reducible refine (State.dropInternal_keeps h_regs h_readData h_resp h_sb _ _).after ?_)
    | (with_reducible refine (State.onTree_keeps h_tree _ _).after ?_)
    | split
    | (intro)
    | (dsimp only)

/-- What State.rejectJob leaves. -/
theorem State.rejectJob_keeps {pm : Piece → Bool} (h_regs : pm .regs = true) (h_msix : pm .msix = true) (h_fresh : pm .fresh = true) (h_sb : pm .sb = true) (h_tree : pm .tree = true) (s : State) (r : Reject) :
    Keeps pm s (State.rejectJob s r) := by
  unfold State.rejectJob
  try dsimp only
  repeat' first
    | with_reducible exact Keeps.refl _ _
    | assumption
    | (with_reducible refine (State.setReg_keeps h_regs _ _ _).after ?_)
    | (with_reducible refine (State.setFld_keeps h_regs _ _ _).after ?_)
    | (with_reducible refine (State.onTree_keeps h_tree _ _).after ?_)
    | (with_reducible refine (State.setJob_keeps h_regs h_tree _ _).after ?_)
    | (with_reducible refine (State.jobResult_keeps h_regs _ _).after ?_)
    | (with_reducible refine (State.jobEvent_keeps h_regs h_msix h_sb _ _ _ _).after ?_)
    | (with_reducible refine (State.jobEventNone_keeps h_regs h_msix h_fresh h_sb _ _ _).after ?_)
    | split
    | (intro)
    | (dsimp only)

/-- What State.planInitial leaves. -/
theorem State.planInitial_keeps {pm : Piece → Bool} (h_tree : pm .tree = true) (s : State) :
    Keeps pm s (State.planInitial s) := by
  unfold State.planInitial
  try dsimp only
  repeat' first
    | with_reducible exact Keeps.refl _ _
    | assumption
    | (with_reducible refine (State.onTree_keeps h_tree _ _).after ?_)
    | split
    | (intro)
    | (dsimp only)

/-- What State.takeLayer leaves. -/
theorem State.takeLayer_keeps {pm : Piece → Bool} (h_tree : pm .tree = true) (s : State) (l : LayerRec) :
    Keeps pm s (State.takeLayer s l) := by
  unfold State.takeLayer
  try dsimp only
  repeat' first
    | with_reducible exact Keeps.refl _ _
    | assumption
    | (with_reducible refine (State.onTree_keeps h_tree _ _).after ?_)
    | (with_reducible refine (State.planInitial_keeps h_tree _).after ?_)
    | split
    | (intro)
    | (dsimp only)

/-- What State.refactor leaves. -/
theorem State.refactor_keeps {pm : Piece → Bool} (h_reins : pm .reins = true) (s : State) :
    Keeps pm s (State.refactor s) := by
  unfold State.refactor
  try dsimp only
  repeat' first
    | with_reducible exact Keeps.refl _ _
    | assumption
    | (with_reducible refine (State.setRein_keeps h_reins _ _ _).after ?_)
    | (with_reducible refine (keeps_foldl ?_ _ _).after ?_)
    | split
    | (intro)
    | (dsimp only)

/-- What State.enterPrepare leaves. -/
theorem State.enterPrepare_keeps {pm : Piece → Bool} (h_regs : pm .regs = true) (h_readData : pm .readData = true) (h_resp : pm .resp = true) (h_msix : pm .msix = true) (h_fresh : pm .fresh = true) (h_sb : pm .sb = true) (h_chans : pm .chans = true) (h_reins : pm .reins = true) (h_hide : pm .hide = true) (h_tree : pm .tree = true) (h_skiver : pm .skiver = true) (s : State) :
    Keeps pm s (State.enterPrepare s) := by
  unfold State.enterPrepare
  try dsimp only
  repeat' first
    | with_reducible exact Keeps.refl _ _
    | assumption
    | (with_reducible refine (State.setReg_keeps h_regs _ _ _).after ?_)
    | (with_reducible refine (State.carry_keeps h_regs h_msix h_sb h_hide _).after ?_)
    | (with_reducible refine (State.rearmSat_keeps h_hide _).after ?_)
    | (with_reducible refine (State.skvStart_keeps h_regs h_msix h_sb h_tree h_skiver _ _).after ?_)
    | (with_reducible refine (State.onTree_keeps h_tree _ _).after ?_)
    | (with_reducible refine (State.setJob_keeps h_regs h_tree _ _).after ?_)
    | (with_reducible refine (State.copyPsets_keeps h_regs h_readData h_resp h_msix h_fresh h_sb h_chans h_tree _ _).after ?_)
    | (with_reducible refine (State.takeLayer_keeps h_tree _ _).after ?_)
    | (with_reducible refine (State.refactor_keeps h_reins _).after ?_)
    | (with_reducible refine (keeps_foldl ?_ _ _).after ?_)
    | split
    | (intro)
    | (dsimp only)

/-- What State.startValidation leaves. -/
theorem State.startValidation_keeps {pm : Piece → Bool} (h_regs : pm .regs = true) (h_tree : pm .tree = true) (s : State) (v : Validating) :
    Keeps pm s (State.startValidation s v) := by
  unfold State.startValidation
  try dsimp only
  repeat' first
    | with_reducible exact Keeps.refl _ _
    | assumption
    | (with_reducible refine (State.setFld_keeps h_regs _ _ _).after ?_)
    | (with_reducible refine (State.onTree_keeps h_tree _ _).after ?_)
    | (with_reducible refine (State.setJob_keeps h_regs h_tree _ _).after ?_)
    | (with_reducible refine (State.jobResult_keeps h_regs _ _).after ?_)
    | split
    | (intro)
    | (dsimp only)

/-- What State.jobValidate leaves. -/
theorem State.jobValidate_keeps {pm : Piece → Bool} (h_regs : pm .regs = true) (h_tree : pm .tree = true) (s : State) (v : Validating) :
    Keeps pm s (State.jobValidate s v) := by
  unfold State.jobValidate
  try dsimp only
  repeat' first
    | with_reducible exact Keeps.refl _ _
    | assumption
    | (with_reducible refine (State.jobResult_keeps h_regs _ _).after ?_)
    | (with_reducible refine (State.startValidation_keeps h_regs h_tree _ _).after ?_)
    | split
    | (intro)
    | (dsimp only)

/-- What State.jobHold leaves. -/
theorem State.jobHold_keeps {pm : Piece → Bool} (h_regs : pm .regs = true) (s : State) :
    Keeps pm s (State.jobHold s) := by
  unfold State.jobHold
  try dsimp only
  repeat' first
    | with_reducible exact Keeps.refl _ _
    | assumption
    | (with_reducible refine (State.setFld_keeps h_regs _ _ _).after ?_)
    | (with_reducible refine (State.jobResult_keeps h_regs _ _).after ?_)
    | split
    | (intro)
    | (dsimp only)

/-- What State.jobResume leaves. -/
theorem State.jobResume_keeps {pm : Piece → Bool} (h_regs : pm .regs = true) (h_readData : pm .readData = true) (h_resp : pm .resp = true) (h_msix : pm .msix = true) (h_fresh : pm .fresh = true) (h_sb : pm .sb = true) (h_chans : pm .chans = true) (h_reins : pm .reins = true) (h_hide : pm .hide = true) (h_tree : pm .tree = true) (h_skiver : pm .skiver = true) (s : State) :
    Keeps pm s (State.jobResume s) := by
  unfold State.jobResume
  try dsimp only
  repeat' first
    | with_reducible exact Keeps.refl _ _
    | assumption
    | (with_reducible refine (State.onTree_keeps h_tree _ _).after ?_)
    | (with_reducible refine (State.setJob_keeps h_regs h_tree _ _).after ?_)
    | (with_reducible refine (State.jobResult_keeps h_regs _ _).after ?_)
    | (with_reducible refine (State.rejectJob_keeps h_regs h_msix h_fresh h_sb h_tree _ _).after ?_)
    | (with_reducible refine (State.enterPrepare_keeps h_regs h_readData h_resp h_msix h_fresh h_sb h_chans h_reins h_hide h_tree h_skiver _).after ?_)
    | split
    | (intro)
    | (dsimp only)

/-- What State.jobReload leaves. -/
theorem State.jobReload_keeps {pm : Piece → Bool} (h_regs : pm .regs = true) (h_tree : pm .tree = true) (s : State) :
    Keeps pm s (State.jobReload s) := by
  unfold State.jobReload
  try dsimp only
  repeat' first
    | with_reducible exact Keeps.refl _ _
    | assumption
    | (with_reducible refine (State.onTree_keeps h_tree _ _).after ?_)
    | (with_reducible refine (State.jobResult_keeps h_regs _ _).after ?_)
    | split
    | (intro)
    | (dsimp only)

/-- What State.abortSlot leaves. -/
theorem State.abortSlot_keeps {pm : Piece → Bool} (h_regs : pm .regs = true) (h_readData : pm .readData = true) (h_resp : pm .resp = true) (h_msix : pm .msix = true) (h_fresh : pm .fresh = true) (h_sb : pm .sb = true) (h_repeatAge : pm .repeatAge = true) (h_awls : pm .awls = true) (h_reins : pm .reins = true) (h_hide : pm .hide = true) (h_tree : pm .tree = true) (s : State) (k : Nat) :
    Keeps pm s (State.abortSlot s k) := by
  unfold State.abortSlot
  try dsimp only
  repeat' first
    | with_reducible exact Keeps.refl _ _
    | assumption
    | (with_reducible refine (State.setFld_keeps h_regs _ _ _).after ?_)
    | (with_reducible refine (State.stopAwl_keeps h_regs h_msix h_sb h_awls h_reins _ _ _ _).after ?_)
    | (with_reducible refine (State.cutSlot_keeps h_regs h_readData h_resp h_msix h_fresh h_sb h_repeatAge h_awls h_hide h_tree _ _ _).after ?_)
    | (with_reducible refine (State.cutSlot_keeps_eq h_regs h_readData h_resp h_msix h_fresh h_sb h_repeatAge h_awls h_hide h_tree _ _ _ (by assumption)).after ?_)
    | split
    | (intro)
    | (dsimp only)

/-- What State.jobAbort leaves. -/
theorem State.jobAbort_keeps {pm : Piece → Bool} (h_regs : pm .regs = true) (h_readData : pm .readData = true) (h_resp : pm .resp = true) (h_msix : pm .msix = true) (h_fresh : pm .fresh = true) (h_sb : pm .sb = true) (h_repeatAge : pm .repeatAge = true) (h_awls : pm .awls = true) (h_reins : pm .reins = true) (h_hide : pm .hide = true) (h_tree : pm .tree = true) (h_axes : pm .axes = true) (h_skiver : pm .skiver = true) (s : State) :
    Keeps pm s (State.jobAbort s) := by
  unfold State.jobAbort
  try dsimp only
  repeat' first
    | with_reducible exact Keeps.refl _ _
    | assumption
    | (with_reducible refine (State.setReg_keeps h_regs _ _ _).after ?_)
    | (with_reducible refine (State.setFld_keeps h_regs _ _ _).after ?_)
    | (with_reducible refine (State.skvAbort_keeps h_regs h_axes h_skiver _).after ?_)
    | (with_reducible refine (State.onTree_keeps h_tree _ _).after ?_)
    | (with_reducible refine (State.setJob_keeps h_regs h_tree _ _).after ?_)
    | (with_reducible refine (State.jobResult_keeps h_regs _ _).after ?_)
    | (with_reducible refine (State.jobEvent_keeps h_regs h_msix h_sb _ _ _ _).after ?_)
    | (with_reducible refine (State.jobEventNone_keeps h_regs h_msix h_fresh h_sb _ _ _).after ?_)
    | (with_reducible refine (State.showWaits_keeps h_regs _ _).after ?_)
    | (with_reducible refine (State.abortSlot_keeps h_regs h_readData h_resp h_msix h_fresh h_sb h_repeatAge h_awls h_reins h_hide h_tree _ _).after ?_)
    | (with_reducible refine (keeps_foldl ?_ _ _).after ?_)
    | split
    | (intro)
    | (dsimp only)

/-- What State.jobCommand leaves. -/
theorem State.jobCommand_keeps {pm : Piece → Bool} (h_regs : pm .regs = true) (h_readData : pm .readData = true) (h_resp : pm .resp = true) (h_msix : pm .msix = true) (h_fresh : pm .fresh = true) (h_sb : pm .sb = true) (h_chans : pm .chans = true) (h_repeatAge : pm .repeatAge = true) (h_awls : pm .awls = true) (h_reins : pm .reins = true) (h_hide : pm .hide = true) (h_tree : pm .tree = true) (h_axes : pm .axes = true) (h_skiver : pm .skiver = true) (s : State) (c : Nat) :
    Keeps pm s (State.jobCommand s c) := by
  unfold State.jobCommand
  try dsimp only
  repeat' first
    | with_reducible exact Keeps.refl _ _
    | assumption
    | (with_reducible refine (State.jobValidate_keeps h_regs h_tree _ _).after ?_)
    | (with_reducible refine (State.jobHold_keeps h_regs _).after ?_)
    | (with_reducible refine (State.jobResume_keeps h_regs h_readData h_resp h_msix h_fresh h_sb h_chans h_reins h_hide h_tree h_skiver _).after ?_)
    | (with_reducible refine (State.jobReload_keeps h_regs h_tree _).after ?_)
    | (with_reducible refine (State.jobAbort_keeps h_regs h_readData h_resp h_msix h_fresh h_sb h_repeatAge h_awls h_reins h_hide h_tree h_axes h_skiver _).after ?_)
    | split
    | (intro)
    | (dsimp only)

/-- What State.jobEnds leaves. -/
theorem State.jobEnds_keeps {pm : Piece → Bool} (h_regs : pm .regs = true) (h_tree : pm .tree = true) (s : State) :
    Keeps pm s (State.jobEnds s) := by
  unfold State.jobEnds
  try dsimp only
  repeat' first
    | with_reducible exact Keeps.refl _ _
    | assumption
    | (with_reducible refine (State.setReg_keeps h_regs _ _ _).after ?_)
    | (with_reducible refine (State.setFld_keeps h_regs _ _ _).after ?_)
    | (with_reducible refine (State.onTree_keeps h_tree _ _).after ?_)
    | (with_reducible refine (State.setJob_keeps h_regs h_tree _ _).after ?_)
    | split
    | (intro)
    | (dsimp only)

/-- What State.enterHeld leaves. -/
theorem State.enterHeld_keeps {pm : Piece → Bool} (h_regs : pm .regs = true) (h_msix : pm .msix = true) (h_sb : pm .sb = true) (h_tree : pm .tree = true) (s : State) (no : Word) :
    Keeps pm s (State.enterHeld s no) := by
  unfold State.enterHeld
  try dsimp only
  repeat' first
    | with_reducible exact Keeps.refl _ _
    | assumption
    | (with_reducible refine (State.setReg_keeps h_regs _ _ _).after ?_)
    | (with_reducible refine (State.setFld_keeps h_regs _ _ _).after ?_)
    | (with_reducible refine (State.setJob_keeps h_regs h_tree _ _).after ?_)
    | (with_reducible refine (State.jobEvent_keeps h_regs h_msix h_sb _ _ _ _).after ?_)
    | split
    | (intro)
    | (dsimp only)

/-- What State.armDone leaves. -/
theorem State.armDone_keeps {pm : Piece → Bool} (h_regs : pm .regs = true) (h_msix : pm .msix = true) (h_fresh : pm .fresh = true) (h_sb : pm .sb = true) (h_chans : pm .chans = true) (h_tree : pm .tree = true) (s : State) :
    Keeps pm s (State.armDone s) := by
  unfold State.armDone
  extract_lets +onlyGivenNames j
  clear_value j
  repeat' first
    | with_reducible exact Keeps.refl _ _
    | assumption
    | (with_reducible refine (State.setReg_keeps h_regs _ _ _).after ?_)
    | (with_reducible refine (State.setFld_keeps h_regs _ _ _).after ?_)
    | (with_reducible refine (State.useLayer_keeps h_regs h_msix h_sb h_chans _ _ _).after ?_)
    | (with_reducible refine (State.useHeader_keeps h_regs h_msix h_sb h_chans _).after ?_)
    | (with_reducible refine (State.onTree_keeps h_tree _ _).after ?_)
    | (with_reducible refine (State.jobResult_keeps h_regs _ _).after ?_)
    | (with_reducible refine (State.jobEventNone_keeps h_regs h_msix h_fresh h_sb _ _ _).after ?_)
    | (with_reducible refine (State.rejectJob_keeps h_regs h_msix h_fresh h_sb h_tree _ _).after ?_)
    | (with_reducible refine (State.jobEnds_keeps h_regs h_tree _).after ?_)
    | (with_reducible refine (State.enterHeld_keeps h_regs h_msix h_sb h_tree _ _).after ?_)
    | split
    | (intro)
    | (dsimp only)

/-- What State.walkDone leaves. -/
theorem State.walkDone_keeps {pm : Piece → Bool} (h_regs : pm .regs = true) (h_msix : pm .msix = true) (h_fresh : pm .fresh = true) (h_sb : pm .sb = true) (h_chans : pm .chans = true) (h_tree : pm .tree = true) (s : State) :
    Keeps pm s (State.walkDone s) := by
  unfold State.walkDone
  extract_lets +onlyGivenNames j
  clear_value j
  repeat' first
    | with_reducible exact Keeps.refl _ _
    | assumption
    | (with_reducible refine (State.setFld_keeps h_regs _ _ _).after ?_)
    | (with_reducible refine (State.useHeader_keeps h_regs h_msix h_sb h_chans _).after ?_)
    | (with_reducible refine (State.useLayers_keeps h_regs h_msix h_sb h_chans _ _ _ _).after ?_)
    | (with_reducible refine (State.onTree_keeps h_tree _ _).after ?_)
    | (with_reducible refine (State.setJob_keeps h_regs h_tree _ _).after ?_)
    | (with_reducible refine (State.jobResult_keeps h_regs _ _).after ?_)
    | (with_reducible refine (State.rejectJob_keeps h_regs h_msix h_fresh h_sb h_tree _ _).after ?_)
    | split
    | (intro)
    | (dsimp only)

/-- What State.reloadDone leaves. -/
theorem State.reloadDone_keeps {pm : Piece → Bool} (h_regs : pm .regs = true) (h_readData : pm .readData = true) (h_resp : pm .resp = true) (h_msix : pm .msix = true) (h_fresh : pm .fresh = true) (h_sb : pm .sb = true) (h_chans : pm .chans = true) (h_reins : pm .reins = true) (h_hide : pm .hide = true) (h_tree : pm .tree = true) (h_skiver : pm .skiver = true) (s : State) :
    Keeps pm s (State.reloadDone s) := by
  unfold State.reloadDone
  extract_lets +onlyGivenNames j
  clear_value j
  repeat' first
    | with_reducible exact Keeps.refl _ _
    | assumption
    | (with_reducible refine (State.useLayer_keeps h_regs h_msix h_sb h_chans _ _ _).after ?_)
    | (with_reducible refine (State.useHeader_keeps h_regs h_msix h_sb h_chans _).after ?_)
    | (with_reducible refine (State.onTree_keeps h_tree _ _).after ?_)
    | (with_reducible refine (State.rejectJob_keeps h_regs h_msix h_fresh h_sb h_tree _ _).after ?_)
    | (with_reducible refine (State.enterPrepare_keeps h_regs h_readData h_resp h_msix h_fresh h_sb h_chans h_reins h_hide h_tree h_skiver _).after ?_)
    | split
    | (intro)
    | (dsimp only)

/-- What State.nextDone leaves. -/
theorem State.nextDone_keeps {pm : Piece → Bool} (h_regs : pm .regs = true) (h_msix : pm .msix = true) (h_fresh : pm .fresh = true) (h_sb : pm .sb = true) (h_chans : pm .chans = true) (h_tree : pm .tree = true) (s : State) :
    Keeps pm s (State.nextDone s) := by
  unfold State.nextDone
  extract_lets +onlyGivenNames i
  clear_value i
  extract_lets +onlyGivenNames waiting
  clear_value waiting
  extract_lets +onlyGivenNames s0
  have h_s0 : Keeps pm s s0 := by
    unfold s0
    repeat' first
        | with_reducible exact Keeps.refl _ _
        | assumption
        | (with_reducible refine (State.setReg_keeps h_regs _ _ _).after ?_)
        | (with_reducible refine (State.useLayer_keeps h_regs h_msix h_sb h_chans _ _ _).after ?_)
        | (with_reducible refine (State.onTree_keeps h_tree _ _).after ?_)
        | (with_reducible refine (State.rejectJob_keeps h_regs h_msix h_fresh h_sb h_tree _ _).after ?_)
        | (with_reducible refine (State.takeLayer_keeps h_tree _ _).after ?_)
        | split
        | (intro)
        | (dsimp only)
  clear_value s0
  repeat' first
    | with_reducible exact Keeps.refl _ _
    | assumption
    | (with_reducible refine (State.setReg_keeps h_regs _ _ _).after ?_)
    | (with_reducible refine (State.useLayer_keeps h_regs h_msix h_sb h_chans _ _ _).after ?_)
    | (with_reducible refine (State.onTree_keeps h_tree _ _).after ?_)
    | (with_reducible refine (State.rejectJob_keeps h_regs h_msix h_fresh h_sb h_tree _ _).after ?_)
    | (with_reducible refine (State.takeLayer_keeps h_tree _ _).after ?_)
    | split
    | (intro)
    | (dsimp only)

/-- What State.serviceCleared leaves. -/
theorem State.serviceCleared_keeps {pm : Piece → Bool} (h_regs : pm .regs = true) (h_msix : pm .msix = true) (h_sb : pm .sb = true) (h_awls : pm .awls = true) (h_reins : pm .reins = true) (h_tree : pm .tree = true) (s : State) :
    Keeps pm s (State.serviceCleared s) := by
  unfold State.serviceCleared
  try dsimp only
  repeat' first
    | with_reducible exact Keeps.refl _ _
    | assumption
    | (with_reducible refine (State.setAwl_keeps h_awls _ _ _).after ?_)
    | (with_reducible refine (State.stopAwl_keeps h_regs h_msix h_sb h_awls h_reins _ _ _ _).after ?_)
    | (with_reducible refine (State.onTree_keeps h_tree _ _).after ?_)
    | (with_reducible refine (keeps_foldl ?_ _ _).after ?_)
    | split
    | (intro)
    | (dsimp only)

/-- What State.drainMove leaves. -/
theorem State.drainMove_keeps {pm : Piece → Bool} (h_regs : pm .regs = true) (h_tree : pm .tree = true) (s : State) :
    Keeps pm s (State.drainMove s) := by
  unfold State.drainMove
  try dsimp only
  repeat' first
    | with_reducible exact Keeps.refl _ _
    | assumption
    | (with_reducible refine (State.setJob_keeps h_regs h_tree _ _).after ?_)
    | split
    | (intro)
    | (dsimp only)

/-- What State.planBoundary leaves. -/
theorem State.planBoundary_keeps {pm : Piece → Bool} (h_regs : pm .regs = true) (h_msix : pm .msix = true) (h_sb : pm .sb = true) (h_tree : pm .tree = true) (s : State) :
    Keeps pm s (State.planBoundary s) := by
  unfold State.planBoundary
  try dsimp only
  repeat' first
    | with_reducible exact Keeps.refl _ _
    | assumption
    | (with_reducible refine (State.onTree_keeps h_tree _ _).after ?_)
    | (with_reducible refine (State.planForce_keeps h_regs h_msix h_sb h_tree _ _).after ?_)
    | (with_reducible refine (State.planInitial_keeps h_tree _).after ?_)
    | split
    | (intro)
    | (dsimp only)

/-- What State.queryBlocked leaves. -/
theorem State.queryBlocked_keeps {pm : Piece → Bool} (h_regs : pm .regs = true) (s : State) :
    Keeps pm s (State.queryBlocked s) := by
  unfold State.queryBlocked
  try dsimp only
  repeat' first
    | with_reducible exact Keeps.refl _ _
    | assumption
    | (with_reducible refine (State.queryTemp_keeps h_regs _ _).after ?_)
    | (with_reducible refine (keeps_foldl ?_ _ _).after ?_)
    | split
    | (intro)
    | (dsimp only)

/-- What State.logStall leaves. -/
theorem State.logStall_keeps {pm : Piece → Bool} (h_regs : pm .regs = true) (s : State) :
    Keeps pm s (State.logStall s) := by
  unfold State.logStall
  try dsimp only
  repeat' first
    | with_reducible exact Keeps.refl _ _
    | assumption
    | (with_reducible refine (State.bump_keeps h_regs _ _).after ?_)
    | split
    | (intro)
    | (dsimp only)

/-- What State.treeBoundary leaves. -/
theorem State.treeBoundary_keeps {pm : Piece → Bool} (h_regs : pm .regs = true) (h_msix : pm .msix = true) (h_sb : pm .sb = true) (h_awls : pm .awls = true) (h_reins : pm .reins = true) (h_tree : pm .tree = true) (s : State) :
    Keeps pm s (State.treeBoundary s) := by
  unfold State.treeBoundary
  try dsimp only
  repeat' first
    | with_reducible exact Keeps.refl _ _
    | assumption
    | (with_reducible refine (State.setFld_keeps h_regs _ _ _).after ?_)
    | (with_reducible refine (State.onTree_keeps h_tree _ _).after ?_)
    | (with_reducible refine (State.showWaits_keeps h_regs _ _).after ?_)
    | (with_reducible refine (State.emptyUnits_keeps h_tree _).after ?_)
    | (with_reducible refine (State.serviceCleared_keeps h_regs h_msix h_sb h_awls h_reins h_tree _).after ?_)
    | (with_reducible refine (State.drainMove_keeps h_regs h_tree _).after ?_)
    | (with_reducible refine (State.planBoundary_keeps h_regs h_msix h_sb h_tree _).after ?_)
    | (with_reducible refine (State.queryBlocked_keeps h_regs _).after ?_)
    | (with_reducible refine (State.logStall_keeps h_regs _).after ?_)
    | split
    | (intro)
    | (dsimp only)

end Sys2Proof.Machine
end

