-- ==== Sys2Proof/Laws/KeepsImg.lean ====
section
/-! SUPPORT. What each operation of Machine/Img.lean leaves: the pieces of the state that it does not name, the part, and
the canonical form. -/

namespace Sys2Proof.Machine

/-- What State.setCam leaves. -/
theorem State.setCam_keeps {pm : Piece → Bool} (h_cams : pm .cams = true) (s : State) (p i : Nat) (c : Cam) :
    Keeps pm s (State.setCam s p i c) := by
  unfold State.setCam
  try dsimp only
  repeat' first
    | with_reducible exact Keeps.refl _ _
    | assumption
    | split
    | (with_reducible refine (keeps_cams h_cams ?_).after ?_)
    | (with_reducible exact fun hc => swf_sset hc.cams _ _)
    | (intro)
    | (dsimp only)

/-- What State.imgResult leaves. -/
theorem State.imgResult_keeps {pm : Piece → Bool} (h_regs : pm .regs = true) (s : State) (p r : Nat) :
    Keeps pm s (State.imgResult s p r) := by
  unfold State.imgResult
  try dsimp only
  repeat' first
    | with_reducible exact Keeps.refl _ _
    | assumption
    | (with_reducible refine (State.setFld_keeps h_regs _ _ _).after ?_)
    | split
    | (intro)
    | (dsimp only)

/-- What State.imgZero leaves. -/
theorem State.imgZero_keeps {pm : Piece → Bool} (h_regs : pm .regs = true) (s : State) (p : Nat) :
    Keeps pm s (State.imgZero s p) := by
  unfold State.imgZero
  try dsimp only
  repeat' first
    | with_reducible exact Keeps.refl _ _
    | assumption
    | (with_reducible refine (State.setFld_keeps h_regs _ _ _).after ?_)
    | split
    | (intro)
    | (dsimp only)

/-- What State.imgEvent leaves. -/
theorem State.imgEvent_keeps {pm : Piece → Bool} (h_regs : pm .regs = true) (h_msix : pm .msix = true) (h_sb : pm .sb = true) (s : State) (p code slot flags : Nat) (no : Word) :
    Keeps pm s (State.imgEvent s p code slot flags no) := by
  unfold State.imgEvent
  try dsimp only
  repeat' first
    | with_reducible exact Keeps.refl _ _
    | assumption
    | (with_reducible refine (State.pushEvent_keeps h_regs h_msix h_sb _ _ _ _).after ?_)
    | split
    | (intro)
    | (dsimp only)

/-- What State.camBump leaves. -/
theorem State.camBump_keeps {pm : Piece → Bool} (h_regs : pm .regs = true) (s : State) (p i rel n : Nat) :
    Keeps pm s (State.camBump s p i rel n) := by
  unfold State.camBump
  try dsimp only
  repeat' first
    | with_reducible exact Keeps.refl _ _
    | assumption
    | (with_reducible refine (State.bumpBy_keeps h_regs _ _ _).after ?_)
    | split
    | (intro)
    | (dsimp only)

/-- What State.imgOverload leaves. -/
theorem State.imgOverload_keeps {pm : Piece → Bool} (h_regs : pm .regs = true) (s : State) (p : Nat) :
    Keeps pm s (State.imgOverload s p) := by
  unfold State.imgOverload
  try dsimp only
  repeat' first
    | with_reducible exact Keeps.refl _ _
    | assumption
    | (with_reducible refine (State.setFld_keeps h_regs _ _ _).after ?_)
    | split
    | (intro)
    | (dsimp only)

/-- What State.makeQueue leaves. -/
theorem State.makeQueue_keeps {pm : Piece → Bool} (h_regs : pm .regs = true) (h_fresh : pm .fresh = true) (h_sb : pm .sb = true) (s : State) (cls size : Nat) :
    Keeps pm s (State.makeQueue s cls size).1 := by
  unfold State.makeQueue
  try dsimp only
  repeat' first
    | with_reducible exact Keeps.refl _ _
    | assumption
    | (with_reducible refine (State.bumpBy_keeps h_regs _ _ _).after ?_)
    | (with_reducible refine (State.tookFree_keeps h_fresh _).after ?_)
    | (with_reducible refine (State.setStream_keeps h_regs h_sb _ _ _).after ?_)
    | split
    | (intro)
    | (dsimp only)

/-- What State.makeQueue leaves, its answer taken apart. -/
theorem State.makeQueue_keeps_eq {pm : Piece → Bool} (h_regs : pm .regs = true) (h_fresh : pm .fresh = true) (h_sb : pm .sb = true) (s : State) (cls size : Nat) {t : State} {r : Word}
    (e : State.makeQueue s cls size = (t, r)) : Keeps pm s t := by
  have q := State.makeQueue_keeps (pm := pm) h_regs h_fresh h_sb s cls size
  rw [e] at q
  exact q

/-- What State.camEnable leaves. -/
theorem State.camEnable_keeps {pm : Piece → Bool} (h_regs : pm .regs = true) (h_readData : pm .readData = true) (h_resp : pm .resp = true) (h_fresh : pm .fresh = true) (h_sb : pm .sb = true) (h_cams : pm .cams = true) (h_therm : pm .therm = true) (s : State) (p i : Nat) :
    Keeps pm s (State.camEnable s p i) := by
  unfold State.camEnable
  try dsimp only
  repeat' first
    | with_reducible exact Keeps.refl _ _
    | assumption
    | (with_reducible refine (State.setFld_keeps h_regs _ _ _).after ?_)
    | (with_reducible refine (State.ungate_keeps h_therm _ _ _).after ?_)
    | (with_reducible refine (State.dropInternal_keeps h_regs h_readData h_resp h_sb _ _).after ?_)
    | (with_reducible refine (State.setCam_keeps h_cams _ _ _ _).after ?_)
    | (with_reducible refine (State.imgResult_keeps h_regs _ _ _).after ?_)
    | (with_reducible refine (State.imgZero_keeps h_regs _ _).after ?_)
    | (with_reducible refine (State.makeQueue_keeps h_regs h_fresh h_sb _ _ _).after ?_)
    | (with_reducible refine (State.makeQueue_keeps_eq h_regs h_fresh h_sb _ _ _ (by assumption)).after ?_)
    | split
    | (intro)
    | (dsimp only)

/-- What State.writeImgCtrl leaves. -/
theorem State.writeImgCtrl_keeps {pm : Piece → Bool} (h_regs : pm .regs = true) (h_readData : pm .readData = true) (h_resp : pm .resp = true) (h_fresh : pm .fresh = true) (h_sb : pm .sb = true) (h_cams : pm .cams = true) (h_bed : pm .bed = true) (h_therm : pm .therm = true) (s : State) (p : Nat) (val : Word) :
    Keeps pm s (State.writeImgCtrl s p val) := by
  unfold State.writeImgCtrl
  try dsimp only
  repeat' first
    | with_reducible exact Keeps.refl _ _
    | assumption
    | (with_reducible refine (State.setFld_keeps h_regs _ _ _).after ?_)
    | (with_reducible refine (State.ungate_keeps h_therm _ _ _).after ?_)
    | (with_reducible refine (State.setCam_keeps h_cams _ _ _ _).after ?_)
    | (with_reducible refine (State.imgResult_keeps h_regs _ _ _).after ?_)
    | (with_reducible refine (State.imgZero_keeps h_regs _ _).after ?_)
    | (with_reducible refine (State.camEnable_keeps h_regs h_readData h_resp h_fresh h_sb h_cams h_therm _ _ _).after ?_)
    | (with_reducible refine (keeps_foldl ?_ _ _).after ?_)
    | split
    | (with_reducible refine (keeps_bed h_bed).after ?_)
    | (intro)
    | (dsimp only)

/-- What State.usePix leaves. -/
theorem State.usePix_keeps {pm : Piece → Bool} (h_regs : pm .regs = true) (h_msix : pm .msix = true) (h_sb : pm .sb = true) (h_repeatAge : pm .repeatAge = true) (h_hide : pm .hide = true) (s : State) (p i trig : Nat) :
    Keeps pm s (State.usePix s p i trig) := by
  unfold State.usePix
  try dsimp only
  repeat' first
    | with_reducible exact Keeps.refl _ _
    | assumption
    | (with_reducible refine (State.useBuf_keeps h_regs h_msix h_sb h_repeatAge h_hide _ _ _).after ?_)
    | (with_reducible refine (keeps_foldl ?_ _ _).after ?_)
    | split
    | (intro)
    | (dsimp only)

/-- What State.processFrame leaves. -/
theorem State.processFrame_keeps {pm : Piece → Bool} (h_regs : pm .regs = true) (h_msix : pm .msix = true) (h_fresh : pm .fresh = true) (h_sb : pm .sb = true) (h_repeatAge : pm .repeatAge = true) (h_hide : pm .hide = true) (h_cams : pm .cams = true) (s : State) (p i : Nat) (f : CamFrame) :
    Keeps pm s (State.processFrame s p i f) := by
  unfold State.processFrame
  try dsimp only
  repeat' first
    | with_reducible exact Keeps.refl _ _
    | assumption
    | (with_reducible refine (State.tookFree_keeps h_fresh _).after ?_)
    | (with_reducible refine (State.setCam_keeps h_cams _ _ _ _).after ?_)
    | (with_reducible refine (State.imgZero_keeps h_regs _ _).after ?_)
    | (with_reducible refine (State.camBump_keeps h_regs _ _ _ _ _).after ?_)
    | (with_reducible refine (State.usePix_keeps h_regs h_msix h_sb h_repeatAge h_hide _ _ _ _).after ?_)
    | split
    | (intro)
    | (dsimp only)

/-- What State.writeBedFrame leaves. -/
theorem State.writeBedFrame_keeps {pm : Piece → Bool} (h_regs : pm .regs = true) (h_msix : pm .msix = true) (h_fresh : pm .fresh = true) (h_sb : pm .sb = true) (h_repeatAge : pm .repeatAge = true) (h_hide : pm .hide = true) (h_cams : pm .cams = true) (h_bed : pm .bed = true) (s : State) (p : Nat) (f : CamFrame) :
    Keeps pm s (State.writeBedFrame s p f) := by
  unfold State.writeBedFrame
  try dsimp only
  repeat' first
    | with_reducible exact Keeps.refl _ _
    | assumption
    | (with_reducible refine (State.tookFree_keeps h_fresh _).after ?_)
    | (with_reducible refine (State.pushWords_keeps h_regs h_msix h_sb _ _ _ _).after ?_)
    | (with_reducible refine (State.setCam_keeps h_cams _ _ _ _).after ?_)
    | (with_reducible refine (State.usePix_keeps h_regs h_msix h_sb h_repeatAge h_hide _ _ _ _).after ?_)
    | split
    | (with_reducible refine (keeps_bed h_bed).after ?_)
    | (intro)
    | (dsimp only)

/-- What State.commitOpen leaves. -/
theorem State.commitOpen_keeps {pm : Piece → Bool} (h_regs : pm .regs = true) (h_msix : pm .msix = true) (h_sb : pm .sb = true) (s : State) (producer key : Nat) :
    Keeps pm s (State.commitOpen s producer key) := by
  unfold State.commitOpen
  try dsimp only
  repeat' first
    | with_reducible exact Keeps.refl _ _
    | assumption
    | (with_reducible refine (State.setStream_keeps h_regs h_sb _ _ _).after ?_)
    | (with_reducible refine (State.threshold_keeps h_regs h_msix h_sb _ _ _).after ?_)
    | split
    | (intro)
    | (dsimp only)

/-- What State.closeFrame leaves. -/
theorem State.closeFrame_keeps {pm : Piece → Bool} (h_regs : pm .regs = true) (h_msix : pm .msix = true) (h_fresh : pm .fresh = true) (h_sb : pm .sb = true) (h_repeatAge : pm .repeatAge = true) (h_hide : pm .hide = true) (h_cams : pm .cams = true) (h_bed : pm .bed = true) (s : State) (p i extra : Nat) :
    Keeps pm s (State.closeFrame s p i extra) := by
  unfold State.closeFrame
  try dsimp only
  repeat' first
    | with_reducible exact Keeps.refl _ _
    | assumption
    | (with_reducible refine (State.setCam_keeps h_cams _ _ _ _).after ?_)
    | (with_reducible refine (State.camBump_keeps h_regs _ _ _ _ _).after ?_)
    | (with_reducible refine (State.processFrame_keeps h_regs h_msix h_fresh h_sb h_repeatAge h_hide h_cams _ _ _ _).after ?_)
    | (with_reducible refine (State.writeBedFrame_keeps h_regs h_msix h_fresh h_sb h_repeatAge h_hide h_cams h_bed _ _ _).after ?_)
    | (with_reducible refine (State.commitOpen_keeps h_regs h_msix h_sb _ _ _).after ?_)
    | split
    | (intro)
    | (dsimp only)

/-- What State.pushFragment leaves. -/
theorem State.pushFragment_keeps {pm : Piece → Bool} (h_regs : pm .regs = true) (h_sb : pm .sb = true) (s : State) (p i req : Nat) (ws : List Word) :
    Keeps pm s (State.pushFragment s p i req ws).1 := by
  unfold State.pushFragment
  try dsimp only
  repeat' first
    | with_reducible exact Keeps.refl _ _
    | assumption
    | (with_reducible refine (State.bump_keeps h_regs _ _).after ?_)
    | (with_reducible refine (State.setStream_keeps h_regs h_sb _ _ _).after ?_)
    | (with_reducible refine (State.countRefused_keeps h_regs _ _).after ?_)
    | (with_reducible refine (keeps_foldl ?_ _ _).after ?_)
    | split
    | (intro)
    | (dsimp only)

/-- What State.pushFragment leaves, its answer taken apart. -/
theorem State.pushFragment_keeps_eq {pm : Piece → Bool} (h_regs : pm .regs = true) (h_sb : pm .sb = true) (s : State) (p i req : Nat) (ws : List Word) {t : State} {r : Bool}
    (e : State.pushFragment s p i req ws = (t, r)) : Keeps pm s t := by
  have q := State.pushFragment_keeps (pm := pm) h_regs h_sb s p i req ws
  rw [e] at q
  exact q

/-- What State.takeInline leaves. -/
theorem State.takeInline_keeps {pm : Piece → Bool} (h_cams : pm .cams = true) (s : State) (p tick n : Nat) :
    Keeps pm s (State.takeInline s p tick n).1 := by
  unfold State.takeInline
  try dsimp only
  repeat' first
    | with_reducible exact Keeps.refl _ _
    | assumption
    | (with_reducible refine (State.setCam_keeps h_cams _ _ _ _).after ?_)
    | split
    | (intro)
    | (dsimp only)

/-- What State.takeInline leaves, its answer taken apart. -/
theorem State.takeInline_keeps_eq {pm : Piece → Bool} (h_cams : pm .cams = true) (s : State) (p tick n : Nat) {t : State} {r : Bool}
    (e : State.takeInline s p tick n = (t, r)) : Keeps pm s t := by
  have q := State.takeInline_keeps (pm := pm) h_cams s p tick n
  rw [e] at q
  exact q

/-- What State.frameHeader leaves. -/
theorem State.frameHeader_keeps {pm : Piece → Bool} (h_regs : pm .regs = true) (h_msix : pm .msix = true) (h_fresh : pm .fresh = true) (h_sb : pm .sb = true) (h_repeatAge : pm .repeatAge = true) (h_hide : pm .hide = true) (h_cams : pm .cams = true) (h_bed : pm .bed = true) (s : State) (p i req tick : Nat) (hdr0 : List Word) :
    Keeps pm s (State.frameHeader s p i req tick hdr0) := by
  unfold State.frameHeader
  extract_lets +onlyGivenNames s0
  have h_s0 : Keeps pm s s0 := by
    unfold s0
    repeat' first
        | with_reducible exact Keeps.refl _ _
        | assumption
        | (with_reducible refine (State.setFld_keeps h_regs _ _ _).after ?_)
        | (with_reducible refine (State.setCam_keeps h_cams _ _ _ _).after ?_)
        | (with_reducible refine (State.imgEvent_keeps h_regs h_msix h_sb _ _ _ _ _ _).after ?_)
        | (with_reducible refine (State.camBump_keeps h_regs _ _ _ _ _).after ?_)
        | (with_reducible refine (State.closeFrame_keeps h_regs h_msix h_fresh h_sb h_repeatAge h_hide h_cams h_bed _ _ _ _).after ?_)
        | (with_reducible refine (State.pushFragment_keeps h_regs h_sb _ _ _ _ _).after ?_)
        | (with_reducible refine (State.pushFragment_keeps_eq h_regs h_sb _ _ _ _ _ (by assumption)).after ?_)
        | (with_reducible refine (State.takeInline_keeps h_cams _ _ _ _).after ?_)
        | (with_reducible refine (State.takeInline_keeps_eq h_cams _ _ _ _ (by assumption)).after ?_)
        | (with_reducible refine (State.answered_keeps h_readData _).after ?_)
        | split
        | (intro)
        | (dsimp only)
  clear_value s0
  extract_lets +onlyGivenNames c
  clear_value c
  extract_lets +onlyGivenNames hdr
  clear_value hdr
  extract_lets +onlyGivenNames ts
  clear_value ts
  extract_lets +onlyGivenNames found
  clear_value found
  extract_lets +onlyGivenNames expected
  clear_value expected
  extract_lets +onlyGivenNames no
  clear_value no
  extract_lets +onlyGivenNames rise
  clear_value rise
  extract_lets +onlyGivenNames back
  clear_value back
  extract_lets +onlyGivenNames tag
  clear_value tag
  extract_lets +onlyGivenNames trig
  clear_value trig
  extract_lets +onlyGivenNames flags
  clear_value flags
  split
  rename_i s1 ok e_s1
  have h_s1 : Keeps pm s s1 := by
    have q := congrArg Prod.fst e_s1
    dsimp only at q
    rw [← q]
    repeat' first
        | with_reducible exact Keeps.refl _ _
        | assumption
        | (with_reducible refine (State.setFld_keeps h_regs _ _ _).after ?_)
        | (with_reducible refine (State.setCam_keeps h_cams _ _ _ _).after ?_)
        | (with_reducible refine (State.imgEvent_keeps h_regs h_msix h_sb _ _ _ _ _ _).after ?_)
        | (with_reducible refine (State.camBump_keeps h_regs _ _ _ _ _).after ?_)
        | (with_reducible refine (State.closeFrame_keeps h_regs h_msix h_fresh h_sb h_repeatAge h_hide h_cams h_bed _ _ _ _).after ?_)
        | (with_reducible refine (State.pushFragment_keeps h_regs h_sb _ _ _ _ _).after ?_)
        | (with_reducible refine (State.pushFragment_keeps_eq h_regs h_sb _ _ _ _ _ (by assumption)).after ?_)
        | (with_reducible refine (State.takeInline_keeps h_cams _ _ _ _).after ?_)
        | (with_reducible refine (State.takeInline_keeps_eq h_cams _ _ _ _ (by assumption)).after ?_)
        | (with_reducible refine (State.answered_keeps h_readData _).after ?_)
        | split
        | (intro)
        | (dsimp only)
  clear e_s1
  extract_lets +onlyGivenNames f
  clear_value f
  extract_lets +onlyGivenNames c1
  clear_value c1
  extract_lets +onlyGivenNames raise
  clear_value raise
  extract_lets +onlyGivenNames s2
  have h_s2 : Keeps pm s s2 := by
    unfold s2
    repeat' first
        | with_reducible exact Keeps.refl _ _
        | assumption
        | (with_reducible refine (State.setFld_keeps h_regs _ _ _).after ?_)
        | (with_reducible refine (State.setCam_keeps h_cams _ _ _ _).after ?_)
        | (with_reducible refine (State.imgEvent_keeps h_regs h_msix h_sb _ _ _ _ _ _).after ?_)
        | (with_reducible refine (State.camBump_keeps h_regs _ _ _ _ _).after ?_)
        | (with_reducible refine (State.closeFrame_keeps h_regs h_msix h_fresh h_sb h_repeatAge h_hide h_cams h_bed _ _ _ _).after ?_)
        | (with_reducible refine (State.pushFragment_keeps h_regs h_sb _ _ _ _ _).after ?_)
        | (with_reducible refine (State.pushFragment_keeps_eq h_regs h_sb _ _ _ _ _ (by assumption)).after ?_)
        | (with_reducible refine (State.takeInline_keeps h_cams _ _ _ _).after ?_)
        | (with_reducible refine (State.takeInline_keeps_eq h_cams _ _ _ _ (by assumption)).after ?_)
        | (with_reducible refine (State.answered_keeps h_readData _).after ?_)
        | split
        | (intro)
        | (dsimp only)
  clear_value s2
  extract_lets +onlyGivenNames s3
  have h_s3 : Keeps pm s s3 := by
    unfold s3
    repeat' first
        | with_reducible exact Keeps.refl _ _
        | assumption
        | (with_reducible refine (State.setFld_keeps h_regs _ _ _).after ?_)
        | (with_reducible refine (State.setCam_keeps h_cams _ _ _ _).after ?_)
        | (with_reducible refine (State.imgEvent_keeps h_regs h_msix h_sb _ _ _ _ _ _).after ?_)
        | (with_reducible refine (State.camBump_keeps h_regs _ _ _ _ _).after ?_)
        | (with_reducible refine (State.closeFrame_keeps h_regs h_msix h_fresh h_sb h_repeatAge h_hide h_cams h_bed _ _ _ _).after ?_)
        | (with_reducible refine (State.pushFragment_keeps h_regs h_sb _ _ _ _ _).after ?_)
        | (with_reducible refine (State.pushFragment_keeps_eq h_regs h_sb _ _ _ _ _ (by assumption)).after ?_)
        | (with_reducible refine (State.takeInline_keeps h_cams _ _ _ _).after ?_)
        | (with_reducible refine (State.takeInline_keeps_eq h_cams _ _ _ _ (by assumption)).after ?_)
        | (with_reducible refine (State.answered_keeps h_readData _).after ?_)
        | split
        | (intro)
        | (dsimp only)
  clear_value s3
  extract_lets +onlyGivenNames s4
  have h_s4 : Keeps pm s s4 := by
    unfold s4
    repeat' first
        | with_reducible exact Keeps.refl _ _
        | assumption
        | (with_reducible refine (State.setFld_keeps h_regs _ _ _).after ?_)
        | (with_reducible refine (State.setCam_keeps h_cams _ _ _ _).after ?_)
        | (with_reducible refine (State.imgEvent_keeps h_regs h_msix h_sb _ _ _ _ _ _).after ?_)
        | (with_reducible refine (State.camBump_keeps h_regs _ _ _ _ _).after ?_)
        | (with_reducible refine (State.closeFrame_keeps h_regs h_msix h_fresh h_sb h_repeatAge h_hide h_cams h_bed _ _ _ _).after ?_)
        | (with_reducible refine (State.pushFragment_keeps h_regs h_sb _ _ _ _ _).after ?_)
        | (with_reducible refine (State.pushFragment_keeps_eq h_regs h_sb _ _ _ _ _ (by assumption)).after ?_)
        | (with_reducible refine (State.takeInline_keeps h_cams _ _ _ _).after ?_)
        | (with_reducible refine (State.takeInline_keeps_eq h_cams _ _ _ _ (by assumption)).after ?_)
        | (with_reducible refine (State.answered_keeps h_readData _).after ?_)
        | split
        | (intro)
        | (dsimp only)
  clear_value s4
  extract_lets +onlyGivenNames s5
  have h_s5 : Keeps pm s s5 := by
    unfold s5
    repeat' first
        | with_reducible exact Keeps.refl _ _
        | assumption
        | (with_reducible refine (State.setFld_keeps h_regs _ _ _).after ?_)
        | (with_reducible refine (State.setCam_keeps h_cams _ _ _ _).after ?_)
        | (with_reducible refine (State.imgEvent_keeps h_regs h_msix h_sb _ _ _ _ _ _).after ?_)
        | (with_reducible refine (State.camBump_keeps h_regs _ _ _ _ _).after ?_)
        | (with_reducible refine (State.closeFrame_keeps h_regs h_msix h_fresh h_sb h_repeatAge h_hide h_cams h_bed _ _ _ _).after ?_)
        | (with_reducible refine (State.pushFragment_keeps h_regs h_sb _ _ _ _ _).after ?_)
        | (with_reducible refine (State.pushFragment_keeps_eq h_regs h_sb _ _ _ _ _ (by assumption)).after ?_)
        | (with_reducible refine (State.takeInline_keeps h_cams _ _ _ _).after ?_)
        | (with_reducible refine (State.takeInline_keeps_eq h_cams _ _ _ _ (by assumption)).after ?_)
        | (with_reducible refine (State.answered_keeps h_readData _).after ?_)
        | split
        | (intro)
        | (dsimp only)
  clear_value s5
  repeat' first
    | with_reducible exact Keeps.refl _ _
    | assumption
    | (with_reducible refine (State.setFld_keeps h_regs _ _ _).after ?_)
    | (with_reducible refine (State.setCam_keeps h_cams _ _ _ _).after ?_)
    | (with_reducible refine (State.imgEvent_keeps h_regs h_msix h_sb _ _ _ _ _ _).after ?_)
    | (with_reducible refine (State.camBump_keeps h_regs _ _ _ _ _).after ?_)
    | (with_reducible refine (State.closeFrame_keeps h_regs h_msix h_fresh h_sb h_repeatAge h_hide h_cams h_bed _ _ _ _).after ?_)
    | (with_reducible refine (State.pushFragment_keeps h_regs h_sb _ _ _ _ _).after ?_)
    | (with_reducible refine (State.pushFragment_keeps_eq h_regs h_sb _ _ _ _ _ (by assumption)).after ?_)
    | (with_reducible refine (State.takeInline_keeps h_cams _ _ _ _).after ?_)
    | (with_reducible refine (State.takeInline_keeps_eq h_cams _ _ _ _ (by assumption)).after ?_)
    | (with_reducible refine (State.answered_keeps h_readData _).after ?_)
    | split
    | (intro)
    | (dsimp only)

/-- What State.framePixels leaves. -/
theorem State.framePixels_keeps {pm : Piece → Bool} (h_regs : pm .regs = true) (h_sb : pm .sb = true) (h_cams : pm .cams = true) (s : State) (p i req tick : Nat) (px : List Nat) :
    Keeps pm s (State.framePixels s p i req tick px) := by
  unfold State.framePixels
  try dsimp only
  repeat' first
    | with_reducible exact Keeps.refl _ _
    | assumption
    | (with_reducible refine (State.setCam_keeps h_cams _ _ _ _).after ?_)
    | (with_reducible refine (State.pushFragment_keeps h_regs h_sb _ _ _ _ _).after ?_)
    | (with_reducible refine (State.pushFragment_keeps_eq h_regs h_sb _ _ _ _ _ (by assumption)).after ?_)
    | (with_reducible refine (State.takeInline_keeps h_cams _ _ _ _).after ?_)
    | (with_reducible refine (State.takeInline_keeps_eq h_cams _ _ _ _ (by assumption)).after ?_)
    | split
    | (intro)
    | (dsimp only)

/-- What State.fragment leaves. -/
theorem State.fragment_keeps {pm : Piece → Bool} (h_regs : pm .regs = true) (h_msix : pm .msix = true) (h_fresh : pm .fresh = true) (h_sb : pm .sb = true) (h_repeatAge : pm .repeatAge = true) (h_hide : pm .hide = true) (h_cams : pm .cams = true) (h_bed : pm .bed = true) (s : State) (head req tick : Nat) (ws : List Word) :
    Keeps pm s (State.fragment s head req tick ws) := by
  unfold State.fragment
  try dsimp only
  repeat' first
    | with_reducible exact Keeps.refl _ _
    | assumption
    | (with_reducible refine (State.closeFrame_keeps h_regs h_msix h_fresh h_sb h_repeatAge h_hide h_cams h_bed _ _ _ _).after ?_)
    | (with_reducible refine (State.frameHeader_keeps h_regs h_msix h_fresh h_sb h_repeatAge h_hide h_cams h_bed _ _ _ _ _ _).after ?_)
    | (with_reducible refine (State.framePixels_keeps h_regs h_sb h_cams _ _ _ _ _ _).after ?_)
    | split
    | (intro)
    | (dsimp only)

/-- What State.commitOffs leaves. -/
theorem State.commitOffs_keeps {pm : Piece → Bool} (h_regs : pm .regs = true) (h_staged : pm .staged = true) (s : State) (p i : Nat) (offs : List Nat) :
    Keeps pm s (State.commitOffs s p i offs) := by
  unfold State.commitOffs
  try dsimp only
  repeat' first
    | with_reducible exact Keeps.refl _ _
    | assumption
    | (with_reducible refine (State.setReg_keeps h_regs _ _ _).after ?_)
    | (with_reducible refine (keeps_foldl ?_ _ _).after ?_)
    | split
    | (with_reducible refine (keeps_staged h_staged ?_).after ?_)
    | (with_reducible exact fun hc => swf_sset hc.staged _ _)
    | (with_reducible exact fun hc => swf_sdel hc.staged _)
    | (intro)
    | (dsimp only)

/-- What State.camTrigger leaves. -/
theorem State.camTrigger_keeps {pm : Piece → Bool} (h_regs : pm .regs = true) (h_cams : pm .cams = true) (s : State) (p i : Nat) :
    Keeps pm s (State.camTrigger s p i) := by
  unfold State.camTrigger
  try dsimp only
  repeat' first
    | with_reducible exact Keeps.refl _ _
    | assumption
    | (with_reducible refine (State.setFld_keeps h_regs _ _ _).after ?_)
    | (with_reducible refine (State.setCam_keeps h_cams _ _ _ _).after ?_)
    | split
    | (intro)
    | (dsimp only)

/-- What State.camSetCommit leaves. -/
theorem State.camSetCommit_keeps {pm : Piece → Bool} (h_regs : pm .regs = true) (h_staged : pm .staged = true) (h_cams : pm .cams = true) (s : State) (p i : Nat) :
    Keeps pm s (State.camSetCommit s p i) := by
  unfold State.camSetCommit
  try dsimp only
  repeat' first
    | with_reducible exact Keeps.refl _ _
    | assumption
    | (with_reducible refine (State.setFld_keeps h_regs _ _ _).after ?_)
    | (with_reducible refine (State.setCam_keeps h_cams _ _ _ _).after ?_)
    | (with_reducible refine (State.commitOffs_keeps h_regs h_staged _ _ _ _).after ?_)
    | split
    | (intro)
    | (dsimp only)

/-- What State.camStop leaves. -/
theorem State.camStop_keeps {pm : Piece → Bool} (h_regs : pm .regs = true) (h_msix : pm .msix = true) (h_fresh : pm .fresh = true) (h_sb : pm .sb = true) (h_repeatAge : pm .repeatAge = true) (h_hide : pm .hide = true) (h_cams : pm .cams = true) (h_bed : pm .bed = true) (s : State) (p i : Nat) :
    Keeps pm s (State.camStop s p i) := by
  unfold State.camStop
  try dsimp only
  repeat' first
    | with_reducible exact Keeps.refl _ _
    | assumption
    | (with_reducible refine (State.setFld_keeps h_regs _ _ _).after ?_)
    | (with_reducible refine (State.imgOverload_keeps h_regs _ _).after ?_)
    | (with_reducible refine (State.closeFrame_keeps h_regs h_msix h_fresh h_sb h_repeatAge h_hide h_cams h_bed _ _ _ _).after ?_)
    | split
    | (with_reducible refine (keeps_bed h_bed).after ?_)
    | (intro)
    | (dsimp only)

/-- What State.pipeSetCommit leaves. -/
theorem State.pipeSetCommit_keeps {pm : Piece → Bool} (h_regs : pm .regs = true) (h_staged : pm .staged = true) (h_msix : pm .msix = true) (h_fresh : pm .fresh = true) (h_sb : pm .sb = true) (h_repeatAge : pm .repeatAge = true) (h_hide : pm .hide = true) (h_cams : pm .cams = true) (h_bed : pm .bed = true) (s : State) (p i : Nat) :
    Keeps pm s (State.pipeSetCommit s p i) := by
  unfold State.pipeSetCommit
  try dsimp only
  repeat' first
    | with_reducible exact Keeps.refl _ _
    | assumption
    | (with_reducible refine (State.setCam_keeps h_cams _ _ _ _).after ?_)
    | (with_reducible refine (State.imgResult_keeps h_regs _ _ _).after ?_)
    | (with_reducible refine (State.commitOffs_keeps h_regs h_staged _ _ _ _).after ?_)
    | (with_reducible refine (State.camStop_keeps h_regs h_msix h_fresh h_sb h_repeatAge h_hide h_cams h_bed _ _ _).after ?_)
    | (with_reducible refine (keeps_foldl ?_ _ _).after ?_)
    | split
    | (intro)
    | (dsimp only)

/-- What State.camPoint leaves. -/
theorem State.camPoint_keeps {pm : Piece → Bool} (h_cams : pm .cams = true) (s : State) (p i : Nat) :
    Keeps pm s (State.camPoint s p i) := by
  unfold State.camPoint
  try dsimp only
  repeat' first
    | with_reducible exact Keeps.refl _ _
    | assumption
    | (with_reducible refine (State.setCam_keeps h_cams _ _ _ _).after ?_)
    | split
    | (intro)
    | (dsimp only)

/-- What State.camResize leaves. -/
theorem State.camResize_keeps {pm : Piece → Bool} (h_regs : pm .regs = true) (h_readData : pm .readData = true) (h_resp : pm .resp = true) (h_fresh : pm .fresh = true) (h_sb : pm .sb = true) (h_cams : pm .cams = true) (s : State) (p i : Nat) :
    Keeps pm s (State.camResize s p i) := by
  unfold State.camResize
  try dsimp only
  repeat' first
    | with_reducible exact Keeps.refl _ _
    | assumption
    | (with_reducible refine (State.dropInternal_keeps h_regs h_readData h_resp h_sb _ _).after ?_)
    | (with_reducible refine (State.setCam_keeps h_cams _ _ _ _).after ?_)
    | (with_reducible refine (State.makeQueue_keeps h_regs h_fresh h_sb _ _ _).after ?_)
    | (with_reducible refine (State.makeQueue_keeps_eq h_regs h_fresh h_sb _ _ _ (by assumption)).after ?_)
    | split
    | (intro)
    | (dsimp only)

/-- What State.camBoundary leaves. -/
theorem State.camBoundary_keeps {pm : Piece → Bool} (h_regs : pm .regs = true) (h_staged : pm .staged = true) (h_readData : pm .readData = true) (h_resp : pm .resp = true) (h_msix : pm .msix = true) (h_fresh : pm .fresh = true) (h_sb : pm .sb = true) (h_repeatAge : pm .repeatAge = true) (h_hide : pm .hide = true) (h_cams : pm .cams = true) (h_bed : pm .bed = true) (s : State) (p i : Nat) :
    Keeps pm s (State.camBoundary s p i) := by
  unfold State.camBoundary
  try dsimp only
  repeat' first
    | with_reducible exact Keeps.refl _ _
    | assumption
    | (with_reducible refine (State.camTrigger_keeps h_regs h_cams _ _ _).after ?_)
    | (with_reducible refine (State.camSetCommit_keeps h_regs h_staged h_cams _ _ _).after ?_)
    | (with_reducible refine (State.camStop_keeps h_regs h_msix h_fresh h_sb h_repeatAge h_hide h_cams h_bed _ _ _).after ?_)
    | (with_reducible refine (State.pipeSetCommit_keeps h_regs h_staged h_msix h_fresh h_sb h_repeatAge h_hide h_cams h_bed _ _ _).after ?_)
    | (with_reducible refine (State.camPoint_keeps h_cams _ _ _).after ?_)
    | (with_reducible refine (State.camResize_keeps h_regs h_readData h_resp h_fresh h_sb h_cams _ _ _).after ?_)
    | split
    | (with_reducible refine (keeps_bed h_bed).after ?_)
    | (intro)
    | (dsimp only)

/-- What State.imgBoundary leaves. -/
theorem State.imgBoundary_keeps {pm : Piece → Bool} (h_regs : pm .regs = true) (h_staged : pm .staged = true) (h_readData : pm .readData = true) (h_resp : pm .resp = true) (h_msix : pm .msix = true) (h_fresh : pm .fresh = true) (h_sb : pm .sb = true) (h_repeatAge : pm .repeatAge = true) (h_hide : pm .hide = true) (h_cams : pm .cams = true) (h_bed : pm .bed = true) (s : State) (p : Nat) :
    Keeps pm s (State.imgBoundary s p) := by
  unfold State.imgBoundary
  try dsimp only
  repeat' first
    | with_reducible exact Keeps.refl _ _
    | assumption
    | (with_reducible refine (State.setReg_keeps h_regs _ _ _).after ?_)
    | (with_reducible refine (State.camBoundary_keeps h_regs h_staged h_readData h_resp h_msix h_fresh h_sb h_repeatAge h_hide h_cams h_bed _ _ _).after ?_)
    | (with_reducible refine (keeps_foldl ?_ _ _).after ?_)
    | split
    | (intro)
    | (dsimp only)

/-- What State.askPipeCommit leaves. -/
theorem State.askPipeCommit_keeps {pm : Piece → Bool} (h_regs : pm .regs = true) (h_msix : pm .msix = true) (h_sb : pm .sb = true) (s : State) (src : Source) (p i : Nat) :
    Keeps pm s (State.askPipeCommit s src p i) := by
  unfold State.askPipeCommit
  try dsimp only
  repeat' first
    | with_reducible exact Keeps.refl _ _
    | assumption
    | (with_reducible refine (State.setFld_keeps h_regs _ _ _).after ?_)
    | (with_reducible refine (State.busyWrite_keeps h_regs h_msix h_sb _ _ _).after ?_)
    | split
    | (intro)
    | (dsimp only)

/-- What State.writeImgCommit leaves. -/
theorem State.writeImgCommit_keeps {pm : Piece → Bool} (h_regs : pm .regs = true) (h_msix : pm .msix = true) (h_sb : pm .sb = true) (s : State) (src : Source) (p : Nat) (val : Word) :
    Keeps pm s (State.writeImgCommit s src p val) := by
  unfold State.writeImgCommit
  try dsimp only
  repeat' first
    | with_reducible exact Keeps.refl _ _
    | assumption
    | (with_reducible refine (State.setFld_keeps h_regs _ _ _).after ?_)
    | (with_reducible refine (State.askPipeCommit_keeps h_regs h_msix h_sb _ _ _ _).after ?_)
    | (with_reducible refine (keeps_foldl ?_ _ _).after ?_)
    | split
    | (intro)
    | (dsimp only)

/-- What State.writeBedCmd leaves. -/
theorem State.writeBedCmd_keeps {pm : Piece → Bool} (h_regs : pm .regs = true) (h_bed : pm .bed = true) (s : State) (p : Nat) (val : Word) :
    Keeps pm s (State.writeBedCmd s p val) := by
  unfold State.writeBedCmd
  try dsimp only
  repeat' first
    | with_reducible exact Keeps.refl _ _
    | assumption
    | (with_reducible refine (State.setReg_keeps h_regs _ _ _).after ?_)
    | (with_reducible refine (State.imgResult_keeps h_regs _ _ _).after ?_)
    | (with_reducible refine (State.imgZero_keeps h_regs _ _).after ?_)
    | split
    | (with_reducible refine (keeps_bed h_bed).after ?_)
    | (intro)
    | (dsimp only)

end Sys2Proof.Machine
end

