-- ==== Sys2Proof/Laws/KeepsLanes.lean ====
section
/-! SUPPORT. What each operation of Machine/Lanes.lean leaves: the pieces of the state that it does not name, the part, and
the canonical form. -/

namespace Sys2Proof.Machine

/-- What State.setLane leaves. -/
theorem State.setLane_keeps {pm : Piece → Bool} (h_lanes : pm .lanes = true) (s : State) (k : Nat) (l : Lane) :
    Keeps pm s (State.setLane s k l) := by
  unfold State.setLane
  try dsimp only
  repeat' first
    | with_reducible exact Keeps.refl _ _
    | assumption
    | split
    | (with_reducible refine (keeps_lanes h_lanes ?_).after ?_)
    | (with_reducible exact fun hc => swf_sset hc.lanes _ _)
    | (intro)
    | (dsimp only)

/-- What State.laneEvent leaves. -/
theorem State.laneEvent_keeps {pm : Piece → Bool} (h_regs : pm .regs = true) (h_msix : pm .msix = true) (h_sb : pm .sb = true) (s : State) (k code cause : Nat) (w1 : Word) :
    Keeps pm s (State.laneEvent s k code cause w1) := by
  unfold State.laneEvent
  try dsimp only
  repeat' first
    | with_reducible exact Keeps.refl _ _
    | assumption
    | (with_reducible refine (State.pushEvent_keeps h_regs h_msix h_sb _ _ _ _).after ?_)
    | split
    | (intro)
    | (dsimp only)

/-- What State.recoverAttempt leaves. -/
theorem State.recoverAttempt_keeps {pm : Piece → Bool} (h_regs : pm .regs = true) (h_lanes : pm .lanes = true) (s : State) (k : Nat) :
    Keeps pm s (State.recoverAttempt s k) := by
  unfold State.recoverAttempt
  try dsimp only
  repeat' first
    | with_reducible exact Keeps.refl _ _
    | assumption
    | (with_reducible refine (State.bump_keeps h_regs _ _).after ?_)
    | (with_reducible refine (State.setLane_keeps h_lanes _ _ _).after ?_)
    | split
    | (intro)
    | (dsimp only)

/-- What State.laneEnter leaves. -/
theorem State.laneEnter_keeps {pm : Piece → Bool} (h_regs : pm .regs = true) (h_msix : pm .msix = true) (h_sb : pm .sb = true) (h_awls : pm .awls = true) (h_lanes : pm .lanes = true) (s : State) (k st cause why : Nat) :
    Keeps pm s (State.laneEnter s k st cause why) := by
  unfold State.laneEnter
  try dsimp only
  repeat' first
    | with_reducible exact Keeps.refl _ _
    | assumption
    | (with_reducible refine (State.setFld_keeps h_regs _ _ _).after ?_)
    | (with_reducible refine (State.awlDue_keeps h_awls _ _ _).after ?_)
    | (with_reducible refine (State.setLane_keeps h_lanes _ _ _).after ?_)
    | (with_reducible refine (State.laneEvent_keeps h_regs h_msix h_sb _ _ _ _ _).after ?_)
    | (with_reducible refine (State.recoverAttempt_keeps h_regs h_lanes _ _).after ?_)
    | split
    | (intro)
    | (dsimp only)

/-- What State.lanePend leaves. -/
theorem State.lanePend_keeps {pm : Piece → Bool} (h_lanes : pm .lanes = true) (s : State) (k st cause : Nat) :
    Keeps pm s (State.lanePend s k st cause) := by
  unfold State.lanePend
  try dsimp only
  repeat' first
    | with_reducible exact Keeps.refl _ _
    | assumption
    | (with_reducible refine (State.setLane_keeps h_lanes _ _ _).after ?_)
    | split
    | (intro)
    | (dsimp only)

/-- What State.laneChoose leaves. -/
theorem State.laneChoose_keeps {pm : Piece → Bool} (h_regs : pm .regs = true) (h_msix : pm .msix = true) (h_sb : pm .sb = true) (h_awls : pm .awls = true) (h_lanes : pm .lanes = true) (s : State) (k n cause : Nat) :
    Keeps pm s (State.laneChoose s k n cause) := by
  unfold State.laneChoose
  try dsimp only
  repeat' first
    | with_reducible exact Keeps.refl _ _
    | assumption
    | (with_reducible refine (State.setFld_keeps h_regs _ _ _).after ?_)
    | (with_reducible refine (State.laneEnter_keeps h_regs h_msix h_sb h_awls h_lanes _ _ _ _ _).after ?_)
    | split
    | (intro)
    | (dsimp only)

/-- What State.recoveryFails leaves. -/
theorem State.recoveryFails_keeps {pm : Piece → Bool} (h_regs : pm .regs = true) (h_msix : pm .msix = true) (h_sb : pm .sb = true) (h_awls : pm .awls = true) (h_lanes : pm .lanes = true) (s : State) (k : Nat) :
    Keeps pm s (State.recoveryFails s k) := by
  unfold State.recoveryFails
  try dsimp only
  repeat' first
    | with_reducible exact Keeps.refl _ _
    | assumption
    | (with_reducible refine (State.recoverAttempt_keeps h_regs h_lanes _ _).after ?_)
    | (with_reducible refine (State.laneEnter_keeps h_regs h_msix h_sb h_awls h_lanes _ _ _ _ _).after ?_)
    | split
    | (intro)
    | (dsimp only)

/-- What State.laneAtPeriod leaves. -/
theorem State.laneAtPeriod_keeps {pm : Piece → Bool} (h_regs : pm .regs = true) (h_msix : pm .msix = true) (h_sb : pm .sb = true) (h_awls : pm .awls = true) (h_lanes : pm .lanes = true) (s : State) (k : Nat) :
    Keeps pm s (State.laneAtPeriod s k) := by
  unfold State.laneAtPeriod
  try dsimp only
  repeat' first
    | with_reducible exact Keeps.refl _ _
    | assumption
    | (with_reducible refine (State.setLane_keeps h_lanes _ _ _).after ?_)
    | (with_reducible refine (State.laneEnter_keeps h_regs h_msix h_sb h_awls h_lanes _ _ _ _ _).after ?_)
    | split
    | (intro)
    | (dsimp only)

/-- What State.showPeriodMin leaves. -/
theorem State.showPeriodMin_keeps {pm : Piece → Bool} (h_regs : pm .regs = true) (s : State) :
    Keeps pm s (State.showPeriodMin s) := by
  unfold State.showPeriodMin
  try dsimp only
  repeat' first
    | with_reducible exact Keeps.refl _ _
    | assumption
    | (with_reducible refine (State.setFld_keeps h_regs _ _ _).after ?_)
    | split
    | (intro)
    | (dsimp only)

/-- What State.sendSetpoint leaves. -/
theorem State.sendSetpoint_keeps {pm : Piece → Bool} (h_lanes : pm .lanes = true) (s : State) (k : Nat) :
    Keeps pm s (State.sendSetpoint s k) := by
  unfold State.sendSetpoint
  try dsimp only
  repeat' first
    | with_reducible exact Keeps.refl _ _
    | assumption
    | (with_reducible refine (State.replay_keeps h_mem h_badLines h_chans _ _ _).after ?_)
    | (with_reducible refine (State.setLane_keeps h_lanes _ _ _).after ?_)
    | split
    | (intro)
    | (dsimp only)

/-- What State.laneBand leaves. -/
theorem State.laneBand_keeps {pm : Piece → Bool} (h_regs : pm .regs = true) (h_msix : pm .msix = true) (h_sb : pm .sb = true) (h_awls : pm .awls = true) (h_lanes : pm .lanes = true) (s : State) (k : Nat) :
    Keeps pm s (State.laneBand s k) := by
  unfold State.laneBand
  try dsimp only
  repeat' first
    | with_reducible exact Keeps.refl _ _
    | assumption
    | (with_reducible refine (State.setFld_keeps h_regs _ _ _).after ?_)
    | (with_reducible refine (State.laneEnter_keeps h_regs h_msix h_sb h_awls h_lanes _ _ _ _ _).after ?_)
    | split
    | (intro)
    | (dsimp only)

/-- What State.laneMove leaves. -/
theorem State.laneMove_keeps {pm : Piece → Bool} (h_regs : pm .regs = true) (h_msix : pm .msix = true) (h_sb : pm .sb = true) (h_awls : pm .awls = true) (h_lanes : pm .lanes = true) (s : State) (k : Nat) :
    Keeps pm s (State.laneMove s k) := by
  unfold State.laneMove
  try dsimp only
  repeat' first
    | with_reducible exact Keeps.refl _ _
    | assumption
    | (with_reducible refine (State.setLane_keeps h_lanes _ _ _).after ?_)
    | (with_reducible refine (State.laneEnter_keeps h_regs h_msix h_sb h_awls h_lanes _ _ _ _ _).after ?_)
    | (with_reducible refine (State.laneChoose_keeps h_regs h_msix h_sb h_awls h_lanes _ _ _ _).after ?_)
    | split
    | (intro)
    | (dsimp only)

/-- What State.laneBoundary leaves. -/
theorem State.laneBoundary_keeps {pm : Piece → Bool} (h_regs : pm .regs = true) (h_msix : pm .msix = true) (h_sb : pm .sb = true) (h_awls : pm .awls = true) (h_lanes : pm .lanes = true) (s : State) (k : Nat) :
    Keeps pm s (State.laneBoundary s k) := by
  unfold State.laneBoundary
  try dsimp only
  repeat' first
    | with_reducible exact Keeps.refl _ _
    | assumption
    | (with_reducible refine (State.sendSetpoint_keeps h_lanes _ _).after ?_)
    | (with_reducible refine (State.laneBand_keeps h_regs h_msix h_sb h_awls h_lanes _ _).after ?_)
    | (with_reducible refine (State.laneMove_keeps h_regs h_msix h_sb h_awls h_lanes _ _).after ?_)
    | split
    | (intro)
    | (dsimp only)

/-- What State.laneResult leaves. -/
theorem State.laneResult_keeps {pm : Piece → Bool} (h_regs : pm .regs = true) (s : State) (k r : Nat) :
    Keeps pm s (State.laneResult s k r) := by
  unfold State.laneResult
  try dsimp only
  repeat' first
    | with_reducible exact Keeps.refl _ _
    | assumption
    | (with_reducible refine (State.setFld_keeps h_regs _ _ _).after ?_)
    | split
    | (intro)
    | (dsimp only)

/-- What State.laneRetrain leaves. -/
theorem State.laneRetrain_keeps {pm : Piece → Bool} (h_regs : pm .regs = true) (h_msix : pm .msix = true) (h_sb : pm .sb = true) (h_awls : pm .awls = true) (h_lanes : pm .lanes = true) (s : State) (k : Nat) :
    Keeps pm s (State.laneRetrain s k) := by
  unfold State.laneRetrain
  try dsimp only
  repeat' first
    | with_reducible exact Keeps.refl _ _
    | assumption
    | (with_reducible refine (State.laneEnter_keeps h_regs h_msix h_sb h_awls h_lanes _ _ _ _ _).after ?_)
    | (with_reducible refine (State.laneResult_keeps h_regs _ _ _).after ?_)
    | split
    | (intro)
    | (dsimp only)

/-- What State.laneTestCmd leaves. -/
theorem State.laneTestCmd_keeps {pm : Piece → Bool} (h_regs : pm .regs = true) (h_msix : pm .msix = true) (h_sb : pm .sb = true) (h_awls : pm .awls = true) (h_lanes : pm .lanes = true) (s : State) (k : Nat) :
    Keeps pm s (State.laneTestCmd s k) := by
  unfold State.laneTestCmd
  try dsimp only
  repeat' first
    | with_reducible exact Keeps.refl _ _
    | assumption
    | (with_reducible refine (State.laneEnter_keeps h_regs h_msix h_sb h_awls h_lanes _ _ _ _ _).after ?_)
    | (with_reducible refine (State.laneResult_keeps h_regs _ _ _).after ?_)
    | split
    | (intro)
    | (dsimp only)

/-- What State.laneMeasure leaves. -/
theorem State.laneMeasure_keeps {pm : Piece → Bool} (h_regs : pm .regs = true) (s : State) (k : Nat) :
    Keeps pm s (State.laneMeasure s k) := by
  unfold State.laneMeasure
  try dsimp only
  repeat' first
    | with_reducible exact Keeps.refl _ _
    | assumption
    | (with_reducible refine (State.setFld_keeps h_regs _ _ _).after ?_)
    | (with_reducible refine (State.laneResult_keeps h_regs _ _ _).after ?_)
    | split
    | (intro)
    | (dsimp only)

/-- What State.laneInject leaves. -/
theorem State.laneInject_keeps {pm : Piece → Bool} (h_regs : pm .regs = true) (h_lanes : pm .lanes = true) (s : State) (k : Nat) :
    Keeps pm s (State.laneInject s k) := by
  unfold State.laneInject
  try dsimp only
  repeat' first
    | with_reducible exact Keeps.refl _ _
    | assumption
    | (with_reducible refine (State.bump_keeps h_regs _ _).after ?_)
    | (with_reducible refine (State.setLane_keeps h_lanes _ _ _).after ?_)
    | (with_reducible refine (State.laneResult_keeps h_regs _ _ _).after ?_)
    | split
    | (intro)
    | (dsimp only)

/-- What State.laneExit leaves. -/
theorem State.laneExit_keeps {pm : Piece → Bool} (h_regs : pm .regs = true) (h_msix : pm .msix = true) (h_sb : pm .sb = true) (h_awls : pm .awls = true) (h_lanes : pm .lanes = true) (s : State) (k : Nat) :
    Keeps pm s (State.laneExit s k) := by
  unfold State.laneExit
  try dsimp only
  repeat' first
    | with_reducible exact Keeps.refl _ _
    | assumption
    | (with_reducible refine (State.laneEnter_keeps h_regs h_msix h_sb h_awls h_lanes _ _ _ _ _).after ?_)
    | (with_reducible refine (State.laneResult_keeps h_regs _ _ _).after ?_)
    | split
    | (intro)
    | (dsimp only)

/-- What State.laneCommand leaves. -/
theorem State.laneCommand_keeps {pm : Piece → Bool} (h_regs : pm .regs = true) (h_msix : pm .msix = true) (h_sb : pm .sb = true) (h_awls : pm .awls = true) (h_lanes : pm .lanes = true) (s : State) (k cmd : Nat) :
    Keeps pm s (State.laneCommand s k cmd) := by
  unfold State.laneCommand
  try dsimp only
  repeat' first
    | with_reducible exact Keeps.refl _ _
    | assumption
    | (with_reducible refine (State.laneRetrain_keeps h_regs h_msix h_sb h_awls h_lanes _ _).after ?_)
    | (with_reducible refine (State.laneTestCmd_keeps h_regs h_msix h_sb h_awls h_lanes _ _).after ?_)
    | (with_reducible refine (State.laneMeasure_keeps h_regs _ _).after ?_)
    | (with_reducible refine (State.laneInject_keeps h_regs h_lanes _ _).after ?_)
    | (with_reducible refine (State.laneExit_keeps h_regs h_msix h_sb h_awls h_lanes _ _).after ?_)
    | split
    | (intro)
    | (dsimp only)

/-- What State.writeLaneCfg leaves. -/
theorem State.writeLaneCfg_keeps {pm : Piece → Bool} (h_regs : pm .regs = true) (h_msix : pm .msix = true) (h_sb : pm .sb = true) (h_lanes : pm .lanes = true) (h_therm : pm .therm = true) (s : State) (src : Source) (k : Nat) (val : Word) :
    Keeps pm s (State.writeLaneCfg s src k val) := by
  unfold State.writeLaneCfg
  try dsimp only
  repeat' first
    | with_reducible exact Keeps.refl _ _
    | assumption
    | (with_reducible refine (State.setReg_keeps h_regs _ _ _).after ?_)
    | (with_reducible refine (State.busyWrite_keeps h_regs h_msix h_sb _ _ _).after ?_)
    | (with_reducible refine (State.ungate_keeps h_therm _ _ _).after ?_)
    | (with_reducible refine (State.setLane_keeps h_lanes _ _ _).after ?_)
    | split
    | (intro)
    | (dsimp only)

/-- What State.laneAck leaves. -/
theorem State.laneAck_keeps {pm : Piece → Bool} (h_regs : pm .regs = true) (h_lanes : pm .lanes = true) (s : State) (k ack : Nat) (nak : Bool) :
    Keeps pm s (State.laneAck s k ack nak) := by
  unfold State.laneAck
  try dsimp only
  repeat' first
    | with_reducible exact Keeps.refl _ _
    | assumption
    | (with_reducible refine (State.bumpBy_keeps h_regs _ _ _).after ?_)
    | (with_reducible refine (State.replay_keeps h_mem h_badLines h_chans _ _ _).after ?_)
    | (with_reducible refine (State.setLane_keeps h_lanes _ _ _).after ?_)
    | split
    | (intro)
    | (dsimp only)

/-- What State.laneAccept leaves. -/
theorem State.laneAccept_keeps {pm : Piece → Bool} (h_regs : pm .regs = true) (h_lanes : pm .lanes = true) (s : State) (k : Nat) (hdr : Word) :
    Keeps pm s (State.laneAccept s k hdr).1 := by
  unfold State.laneAccept
  try dsimp only
  repeat' first
    | with_reducible exact Keeps.refl _ _
    | assumption
    | (with_reducible refine (State.setLane_keeps h_lanes _ _ _).after ?_)
    | (with_reducible refine (State.laneAck_keeps h_regs h_lanes _ _ _ _).after ?_)
    | split
    | (intro)
    | (dsimp only)

/-- What State.laneAccept leaves, its answer taken apart. -/
theorem State.laneAccept_keeps_eq {pm : Piece → Bool} (h_regs : pm .regs = true) (h_lanes : pm .lanes = true) (s : State) (k : Nat) (hdr : Word) {t : State} {r : Bool}
    (e : State.laneAccept s k hdr = (t, r)) : Keeps pm s t := by
  have q := State.laneAccept_keeps (pm := pm) h_regs h_lanes s k hdr
  rw [e] at q
  exact q

/-- What State.lateInput leaves. -/
theorem State.lateInput_keeps {pm : Piece → Bool} (h_regs : pm .regs = true) (s : State) :
    Keeps pm s (State.lateInput s) := by
  unfold State.lateInput
  try dsimp only
  repeat' first
    | with_reducible exact Keeps.refl _ _
    | assumption
    | (with_reducible refine (State.setFld_keeps h_regs _ _ _).after ?_)
    | (with_reducible refine (State.bump_keeps h_regs _ _).after ?_)
    | split
    | (intro)
    | (dsimp only)

/-- What State.earlyInput leaves. -/
theorem State.earlyInput_keeps {pm : Piece → Bool} (h_regs : pm .regs = true) (h_lanes : pm .lanes = true) (s : State) (k : Nat) :
    Keeps pm s (State.earlyInput s k) := by
  unfold State.earlyInput
  try dsimp only
  repeat' first
    | with_reducible exact Keeps.refl _ _
    | assumption
    | (with_reducible refine (State.setFld_keeps h_regs _ _ _).after ?_)
    | (with_reducible refine (State.bump_keeps h_regs _ _).after ?_)
    | (with_reducible refine (State.setLane_keeps h_lanes _ _ _).after ?_)
    | split
    | (intro)
    | (dsimp only)

/-- What State.latchStatus leaves. -/
theorem State.latchStatus_keeps {pm : Piece → Bool} (h_regs : pm .regs = true) (h_msix : pm .msix = true) (h_sb : pm .sb = true) (h_lanes : pm .lanes = true) (h_cal : pm .cal = true) (s : State) (k : Nat) :
    Keeps pm s (State.latchStatus s k) := by
  unfold State.latchStatus
  try dsimp only
  repeat' first
    | with_reducible exact Keeps.refl _ _
    | assumption
    | (with_reducible refine (State.setReg_keeps h_regs _ _ _).after ?_)
    | (with_reducible refine (State.bump_keeps h_regs _ _).after ?_)
    | (with_reducible refine (State.gate_keeps h_regs h_resp h_msix h_sb h_harn _ _ _ _ _ ?_).after ?_)
    | (with_reducible refine (State.calReport_keeps h_cal _ _ _).after ?_)
    | (with_reducible refine (State.setLane_keeps h_lanes _ _ _).after ?_)
    | (with_reducible refine (State.laneEvent_keeps h_regs h_msix h_sb _ _ _ _ _).after ?_)
    | split
    | (intro)
    | (dsimp only)

end Sys2Proof.Machine
end

