-- ==== Sys2Proof/Laws/KeepsEmission.lean ====
section
/-! SUPPORT. What each operation of Machine/Emission.lean leaves: the pieces of the state that it does not name, the part, and
the canonical form. -/

namespace Sys2Proof.Machine

/-- What State.pwrEvent leaves. -/
theorem State.pwrEvent_keeps {pm : Piece → Bool} (h_regs : pm .regs = true) (h_msix : pm .msix = true) (h_sb : pm .sb = true) (s : State) (code low : Nat) (w1 : Word) :
    Keeps pm s (State.pwrEvent s code low w1) := by
  unfold State.pwrEvent
  try dsimp only
  repeat' first
    | with_reducible exact Keeps.refl _ _
    | assumption
    | (with_reducible refine (State.pushEvent_keeps h_regs h_msix h_sb _ _ _ _).after ?_)
    | split
    | (intro)
    | (dsimp only)

/-- What State.setPower leaves. -/
theorem State.setPower_keeps {pm : Piece → Bool} (h_regs : pm .regs = true) (h_msix : pm .msix = true) (h_sb : pm .sb = true) (s : State) (st : Nat) :
    Keeps pm s (State.setPower s st) := by
  unfold State.setPower
  try dsimp only
  repeat' first
    | with_reducible exact Keeps.refl _ _
    | assumption
    | (with_reducible refine (State.setFld_keeps h_regs _ _ _).after ?_)
    | (with_reducible refine (State.pwrEvent_keeps h_regs h_msix h_sb _ _ _ _).after ?_)
    | split
    | (intro)
    | (dsimp only)

/-- What State.emitOff leaves. -/
theorem State.emitOff_keeps {pm : Piece → Bool} (h_emitEn : pm .emitEn = true) (s : State) :
    Keeps pm s (State.emitOff s) := by
  unfold State.emitOff
  try dsimp only
  repeat' first
    | with_reducible exact Keeps.refl _ _
    | assumption
    | split
    | (with_reducible refine (keeps_emitEn h_emitEn).after ?_)
    | (intro)
    | (dsimp only)

/-- What State.emitDrop leaves. -/
theorem State.emitDrop_keeps {pm : Piece → Bool} (h_emitEn : pm .emitEn = true) (h_hide : pm .hide = true) (s : State) (tick : Nat) :
    Keeps pm s (State.emitDrop s tick) := by
  unfold State.emitDrop
  try dsimp only
  repeat' first
    | with_reducible exact Keeps.refl _ _
    | assumption
    | (with_reducible refine (State.emitOff_keeps h_emitEn _).after ?_)
    | split
    | (with_reducible refine (keeps_hide h_hide).after ?_)
    | (intro)
    | (dsimp only)

/-- What State.lanesDown leaves. -/
theorem State.lanesDown_keeps {pm : Piece → Bool} (h_regs : pm .regs = true) (h_msix : pm .msix = true) (h_sb : pm .sb = true) (h_awls : pm .awls = true) (h_lanes : pm .lanes = true) (s : State) :
    Keeps pm s (State.lanesDown s) := by
  unfold State.lanesDown
  try dsimp only
  repeat' first
    | with_reducible exact Keeps.refl _ _
    | assumption
    | (with_reducible refine (State.laneEnter_keeps h_regs h_msix h_sb h_awls h_lanes _ _ _ _ _).after ?_)
    | (with_reducible refine (keeps_foldl ?_ _ _).after ?_)
    | split
    | (intro)
    | (dsimp only)

/-- What State.toService leaves. -/
theorem State.toService_keeps {pm : Piece → Bool} (h_regs : pm .regs = true) (h_msix : pm .msix = true) (h_sb : pm .sb = true) (h_emitEn : pm .emitEn = true) (h_awls : pm .awls = true) (h_lanes : pm .lanes = true) (s : State) :
    Keeps pm s (State.toService s) := by
  unfold State.toService
  try dsimp only
  repeat' first
    | with_reducible exact Keeps.refl _ _
    | assumption
    | (with_reducible refine (State.setPower_keeps h_regs h_msix h_sb _ _).after ?_)
    | (with_reducible refine (State.emitOff_keeps h_emitEn _).after ?_)
    | (with_reducible refine (State.lanesDown_keeps h_regs h_msix h_sb h_awls h_lanes _).after ?_)
    | split
    | (intro)
    | (dsimp only)

/-- What State.setLatch leaves. -/
theorem State.setLatch_keeps {pm : Piece → Bool} (h_regs : pm .regs = true) (h_msix : pm .msix = true) (h_sb : pm .sb = true) (h_emitEn : pm .emitEn = true) (h_awls : pm .awls = true) (h_hide : pm .hide = true) (h_lanes : pm .lanes = true) (s : State) (tick : Nat) :
    Keeps pm s (State.setLatch s tick) := by
  unfold State.setLatch
  try dsimp only
  repeat' first
    | with_reducible exact Keeps.refl _ _
    | assumption
    | (with_reducible refine (State.setFld_keeps h_regs _ _ _).after ?_)
    | (with_reducible refine (State.emitDrop_keeps h_emitEn h_hide _ _).after ?_)
    | (with_reducible refine (State.toService_keeps h_regs h_msix h_sb h_emitEn h_awls h_lanes _).after ?_)
    | split
    | (intro)
    | (dsimp only)

end Sys2Proof.Machine
end

