-- ==== Sys2Proof/Laws/KeepsThermal.lean ====
section
/-! SUPPORT. What each operation of Machine/Thermal.lean leaves: the pieces of the state that it does not name, the part, and
the canonical form. -/

namespace Sys2Proof.Machine

/-- What State.thrmEvent leaves. -/
theorem State.thrmEvent_keeps {pm : Piece → Bool} (h_regs : pm .regs = true) (h_msix : pm .msix = true) (h_sb : pm .sb = true) (s : State) (code low : Nat) (w1 : Nat) :
    Keeps pm s (State.thrmEvent s code low w1) := by
  unfold State.thrmEvent
  try dsimp only
  repeat' first
    | with_reducible exact Keeps.refl _ _
    | assumption
    | (with_reducible refine (State.pushEvent_keeps h_regs h_msix h_sb _ _ _ _).after ?_)
    | split
    | (intro)
    | (dsimp only)

/-- What State.judgeHot leaves. -/
theorem State.judgeHot_keeps {pm : Piece → Bool} (h_regs : pm .regs = true) (h_msix : pm .msix = true) (h_sb : pm .sb = true) (h_emitEn : pm .emitEn = true) (h_awls : pm .awls = true) (h_hide : pm .hide = true) (h_lanes : pm .lanes = true) (h_therm : pm .therm = true) (s : State) (k tick : Nat) :
    Keeps pm s (State.judgeHot s k tick) := by
  unfold State.judgeHot
  try dsimp only
  repeat' first
    | with_reducible exact Keeps.refl _ _
    | assumption
    | (with_reducible refine (State.setReg_keeps h_regs _ _ _).after ?_)
    | (with_reducible refine (State.setLatch_keeps h_regs h_msix h_sb h_emitEn h_awls h_hide h_lanes _ _).after ?_)
    | (with_reducible refine (State.thrmEvent_keeps h_regs h_msix h_sb _ _ _ _).after ?_)
    | split
    | (with_reducible refine (keeps_therm h_therm).after ?_)
    | (intro)
    | (dsimp only)

/-- What State.gateClocks leaves. -/
theorem State.gateClocks_keeps {pm : Piece → Bool} (h_therm : pm .therm = true) (s : State) :
    Keeps pm s (State.gateClocks s) := by
  unfold State.gateClocks
  try dsimp only
  repeat' first
    | with_reducible exact Keeps.refl _ _
    | assumption
    | split
    | (with_reducible refine (keeps_therm h_therm).after ?_)
    | (intro)
    | (dsimp only)

/-- What State.thrmBoundary leaves. -/
theorem State.thrmBoundary_keeps {pm : Piece → Bool} (h_regs : pm .regs = true) (h_therm : pm .therm = true) (s : State) :
    Keeps pm s (State.thrmBoundary s) := by
  unfold State.thrmBoundary
  try dsimp only
  repeat' first
    | with_reducible exact Keeps.refl _ _
    | assumption
    | (with_reducible refine (State.setFld_keeps h_regs _ _ _).after ?_)
    | (with_reducible refine (keeps_foldl ?_ _ _).after ?_)
    | split
    | (with_reducible refine (keeps_therm h_therm).after ?_)
    | (intro)
    | (dsimp only)

end Sys2Proof.Machine
end

