-- ==== Sys2Proof/Laws/KeepsTime.lean ====
section
/-! SUPPORT. What each operation of Machine/Time.lean leaves: the pieces of the state that it does not name, the part, and
the canonical form. -/

namespace Sys2Proof.Machine

/-- What State.timeEvent leaves. -/
theorem State.timeEvent_keeps {pm : Piece → Bool} (h_regs : pm .regs = true) (h_msix : pm .msix = true) (h_sb : pm .sb = true) (s : State) (code low : Nat) (w1 : Word) :
    Keeps pm s (State.timeEvent s code low w1) := by
  unfold State.timeEvent
  try dsimp only
  repeat' first
    | with_reducible exact Keeps.refl _ _
    | assumption
    | (with_reducible refine (State.pushEvent_keeps h_regs h_msix h_sb _ _ _ _).after ?_)
    | split
    | (intro)
    | (dsimp only)

/-- What State.setFour leaves. -/
theorem State.setFour_keeps {pm : Piece → Bool} (h_regs : pm .regs = true) (s : State) (a : Nat) (ws : List Word) :
    Keeps pm s (State.setFour s a ws) := by
  unfold State.setFour
  try dsimp only
  repeat' first
    | with_reducible exact Keeps.refl _ _
    | assumption
    | (with_reducible refine (State.setReg_keeps h_regs _ _ _).after ?_)
    | split
    | (intro)
    | (dsimp only)

/-- What State.latchTb leaves. -/
theorem State.latchTb_keeps {pm : Piece → Bool} (h_regs : pm .regs = true) (h_fresh : pm .fresh = true) (s : State) (b : Nat) :
    Keeps pm s (State.latchTb s b) := by
  unfold State.latchTb
  try dsimp only
  repeat' first
    | with_reducible exact Keeps.refl _ _
    | assumption
    | (with_reducible refine (State.tookFree_keeps h_fresh _).after ?_)
    | (with_reducible refine (State.setFour_keeps h_regs _ _ _).after ?_)
    | split
    | (intro)
    | (dsimp only)

/-- What State.timeSnap leaves. -/
theorem State.timeSnap_keeps {pm : Piece → Bool} (h_regs : pm .regs = true) (h_fresh : pm .fresh = true) (s : State) :
    Keeps pm s (State.timeSnap s) := by
  unfold State.timeSnap
  try dsimp only
  repeat' first
    | with_reducible exact Keeps.refl _ _
    | assumption
    | (with_reducible refine (State.tookFree_keeps h_fresh _).after ?_)
    | (with_reducible refine (State.setFour_keeps h_regs _ _ _).after ?_)
    | (with_reducible refine (keeps_foldl ?_ _ _).after ?_)
    | split
    | (intro)
    | (dsimp only)

/-- What State.setDom leaves. -/
theorem State.setDom_keeps {pm : Piece → Bool} (h_time : pm .time = true) (s : State) (d : Nat) (x : Domain) :
    Keeps pm s (State.setDom s d x) := by
  unfold State.setDom
  try dsimp only
  repeat' first
    | with_reducible exact Keeps.refl _ _
    | assumption
    | split
    | (with_reducible refine (keeps_time h_time).after ?_)
    | (intro)
    | (dsimp only)

/-- What State.domUnlock leaves. -/
theorem State.domUnlock_keeps {pm : Piece → Bool} (h_regs : pm .regs = true) (h_time : pm .time = true) (s : State) (d : Nat) :
    Keeps pm s (State.domUnlock s d) := by
  unfold State.domUnlock
  try dsimp only
  repeat' first
    | with_reducible exact Keeps.refl _ _
    | assumption
    | (with_reducible refine (State.setFld_keeps h_regs _ _ _).after ?_)
    | (with_reducible refine (State.setDom_keeps h_time _ _ _).after ?_)
    | split
    | (intro)
    | (dsimp only)

/-- What State.servo leaves. -/
theorem State.servo_keeps {pm : Piece → Bool} (h_regs : pm .regs = true) (h_msix : pm .msix = true) (h_fresh : pm .fresh = true) (h_sb : pm .sb = true) (h_time : pm .time = true) (s : State) (d : Nat) (o : Int) :
    Keeps pm s (State.servo s d o) := by
  unfold State.servo
  try dsimp only
  repeat' first
    | with_reducible exact Keeps.refl _ _
    | assumption
    | (with_reducible refine (State.setFld_keeps h_regs _ _ _).after ?_)
    | (with_reducible refine (State.bump_keeps h_regs _ _).after ?_)
    | (with_reducible refine (State.tookFree_keeps h_fresh _).after ?_)
    | (with_reducible refine (State.timeEvent_keeps h_regs h_msix h_sb _ _ _ _).after ?_)
    | (with_reducible refine (State.setDom_keeps h_time _ _ _).after ?_)
    | split
    | (with_reducible refine (keeps_time h_time).after ?_)
    | (intro)
    | (dsimp only)

/-- What State.domBoundary leaves. -/
theorem State.domBoundary_keeps {pm : Piece → Bool} (h_regs : pm .regs = true) (h_msix : pm .msix = true) (h_fresh : pm .fresh = true) (h_sb : pm .sb = true) (h_time : pm .time = true) (s : State) (d : Nat) :
    Keeps pm s (State.domBoundary s d) := by
  unfold State.domBoundary
  try dsimp only
  repeat' first
    | with_reducible exact Keeps.refl _ _
    | assumption
    | (with_reducible refine (State.setFld_keeps h_regs _ _ _).after ?_)
    | (with_reducible refine (State.setDom_keeps h_time _ _ _).after ?_)
    | (with_reducible refine (State.servo_keeps h_regs h_msix h_fresh h_sb h_time _ _ _).after ?_)
    | split
    | (intro)
    | (dsimp only)

/-- What State.writeMeas leaves. -/
theorem State.writeMeas_keeps {pm : Piece → Bool} (h_time : pm .time = true) (s : State) (d : Nat) (val : Word) :
    Keeps pm s (State.writeMeas s d val) := by
  unfold State.writeMeas
  try dsimp only
  repeat' first
    | with_reducible exact Keeps.refl _ _
    | assumption
    | (with_reducible refine (State.setDom_keeps h_time _ _ _).after ?_)
    | split
    | (intro)
    | (dsimp only)

/-- What State.machineSelect leaves. -/
theorem State.machineSelect_keeps {pm : Piece → Bool} (h_regs : pm .regs = true) (h_msix : pm .msix = true) (h_sb : pm .sb = true) (s : State) (written : Bool) :
    Keeps pm s (State.machineSelect s written) := by
  unfold State.machineSelect
  try dsimp only
  repeat' first
    | with_reducible exact Keeps.refl _ _
    | assumption
    | (with_reducible refine (State.setFld_keeps h_regs _ _ _).after ?_)
    | (with_reducible refine (State.timeEvent_keeps h_regs h_msix h_sb _ _ _ _).after ?_)
    | split
    | (intro)
    | (dsimp only)

/-- What State.machineTime leaves. -/
theorem State.machineTime_keeps {pm : Piece → Bool} (h_regs : pm .regs = true) (h_msix : pm .msix = true) (h_fresh : pm .fresh = true) (h_sb : pm .sb = true) (h_time : pm .time = true) (s : State) :
    Keeps pm s (State.machineTime s) := by
  unfold State.machineTime
  try dsimp only
  repeat' first
    | with_reducible exact Keeps.refl _ _
    | assumption
    | (with_reducible refine (State.setReg_keeps h_regs _ _ _).after ?_)
    | (with_reducible refine (State.setFld_keeps h_regs _ _ _).after ?_)
    | (with_reducible refine (State.tookFree_keeps h_fresh _).after ?_)
    | (with_reducible refine (State.timeEvent_keeps h_regs h_msix h_sb _ _ _ _).after ?_)
    | split
    | (with_reducible refine (keeps_time h_time).after ?_)
    | (intro)
    | (dsimp only)

/-- What State.setDue leaves. -/
theorem State.setDue_keeps {pm : Piece → Bool} (h_regs : pm .regs = true) (s : State) (e : Nat) (t : Int) :
    Keeps pm s (State.setDue s e t) := by
  unfold State.setDue
  try dsimp only
  repeat' first
    | with_reducible exact Keeps.refl _ _
    | assumption
    | (with_reducible refine (State.setReg_keeps h_regs _ _ _).after ?_)
    | (with_reducible refine (State.setFour_keeps h_regs _ _ _).after ?_)
    | split
    | (intro)
    | (dsimp only)

/-- What State.disarm leaves. -/
theorem State.disarm_keeps {pm : Piece → Bool} (h_regs : pm .regs = true) (h_time : pm .time = true) (s : State) (e st : Nat) :
    Keeps pm s (State.disarm s e st) := by
  unfold State.disarm
  try dsimp only
  repeat' first
    | with_reducible exact Keeps.refl _ _
    | assumption
    | (with_reducible refine (State.setFld_keeps h_regs _ _ _).after ?_)
    | split
    | (with_reducible refine (keeps_time h_time).after ?_)
    | (intro)
    | (dsimp only)

/-- What State.actAfter leaves. -/
theorem State.actAfter_keeps {pm : Piece → Bool} (h_regs : pm .regs = true) (h_time : pm .time = true) (h_harn : pm .harn = true) (s : State) (e st : Nat) :
    Keeps pm s (State.actAfter s e st) := by
  unfold State.actAfter
  try dsimp only
  repeat' first
    | with_reducible exact Keeps.refl _ _
    | assumption
    | (with_reducible refine (State.bumpBy_keeps h_regs _ _ _).after ?_)
    | (with_reducible refine (State.covers_keeps h_harn _ _).after ?_)
    | (with_reducible refine (State.setDue_keeps h_regs _ _ _).after ?_)
    | (with_reducible refine (State.disarm_keeps h_regs h_time _ _ _).after ?_)
    | split
    | (with_reducible refine (keeps_time h_time).after ?_)
    | (intro)
    | (dsimp only)

/-- What State.actRun leaves. -/
theorem State.actRun_keeps {pm : Piece → Bool} (h_regs : pm .regs = true) (h_msix : pm .msix = true) (h_sb : pm .sb = true) (h_time : pm .time = true) (h_harn : pm .harn = true) (s : State) (e kind : Nat) (run : State → State × Nat) (hf_run : ∀ (y0 : State), Keeps pm y0 (run y0).1) :
    Keeps pm s (State.actRun s e kind run) := by
  unfold State.actRun
  try dsimp only
  repeat' first
    | with_reducible exact Keeps.refl _ _
    | assumption
    | (with_reducible refine (hf_run _).after ?_)
    | (with_reducible refine (State.setReg_keeps h_regs _ _ _).after ?_)
    | (with_reducible refine (State.timeEvent_keeps h_regs h_msix h_sb _ _ _ _).after ?_)
    | (with_reducible refine (State.actAfter_keeps h_regs h_time h_harn _ _ _).after ?_)
    | split
    | (with_reducible refine (keeps_time h_time).after ?_)
    | (intro)
    | (dsimp only)

/-- What State.writeActCtrl leaves. -/
theorem State.writeActCtrl_keeps {pm : Piece → Bool} (h_regs : pm .regs = true) (h_cmds : pm .cmds = true) (h_time : pm .time = true) (s : State) (e : Nat) (val : Word) :
    Keeps pm s (State.writeActCtrl s e val) := by
  unfold State.writeActCtrl
  try dsimp only
  repeat' first
    | with_reducible exact Keeps.refl _ _
    | assumption
    | (with_reducible refine (State.setReg_keeps h_regs _ _ _).after ?_)
    | (with_reducible refine (State.addCmd_keeps h_cmds _ _ _).after ?_)
    | split
    | (with_reducible refine (keeps_time h_time).after ?_)
    | (intro)
    | (dsimp only)

/-- What State.armAct leaves. -/
theorem State.armAct_keeps {pm : Piece → Bool} (h_regs : pm .regs = true) (h_time : pm .time = true) (s : State) (e : Nat) :
    Keeps pm s (State.armAct s e) := by
  unfold State.armAct
  try dsimp only
  repeat' first
    | with_reducible exact Keeps.refl _ _
    | assumption
    | (with_reducible refine (State.setFld_keeps h_regs _ _ _).after ?_)
    | (with_reducible refine (State.disarm_keeps h_regs h_time _ _ _).after ?_)
    | split
    | (with_reducible refine (keeps_time h_time).after ?_)
    | (intro)
    | (dsimp only)

/-- What State.timeAdvance leaves. -/
theorem State.timeAdvance_keeps {pm : Piece → Bool} (h_time : pm .time = true) (s : State) (n : Nat) :
    Keeps pm s (State.timeAdvance s n) := by
  unfold State.timeAdvance
  try dsimp only
  repeat' first
    | with_reducible exact Keeps.refl _ _
    | assumption
    | (with_reducible refine (keeps_foldl ?_ _ _).after ?_)
    | split
    | (with_reducible refine (keeps_time h_time).after ?_)
    | (intro)
    | (dsimp only)

/-- What State.timeBoundary leaves. -/
theorem State.timeBoundary_keeps {pm : Piece → Bool} (h_regs : pm .regs = true) (h_msix : pm .msix = true) (h_fresh : pm .fresh = true) (h_sb : pm .sb = true) (h_time : pm .time = true) (s : State) (selWritten : Bool) :
    Keeps pm s (State.timeBoundary s selWritten) := by
  unfold State.timeBoundary
  try dsimp only
  repeat' first
    | with_reducible exact Keeps.refl _ _
    | assumption
    | (with_reducible refine (State.setFld_keeps h_regs _ _ _).after ?_)
    | (with_reducible refine (State.domBoundary_keeps h_regs h_msix h_fresh h_sb h_time _ _).after ?_)
    | (with_reducible refine (State.machineSelect_keeps h_regs h_msix h_sb _ _).after ?_)
    | (with_reducible refine (State.machineTime_keeps h_regs h_msix h_fresh h_sb h_time _).after ?_)
    | (with_reducible refine (State.disarm_keeps h_regs h_time _ _ _).after ?_)
    | (with_reducible refine (keeps_foldl ?_ _ _).after ?_)
    | split
    | (with_reducible refine (keeps_time h_time).after ?_)
    | (intro)
    | (dsimp only)

end Sys2Proof.Machine
end

