-- ==== Sys2Proof/Laws/KeepsFbus.lean ====
section
/-! SUPPORT. What each operation of Machine/Fbus.lean leaves: the pieces of the state that it does not name, the part, and
the canonical form. -/

namespace Sys2Proof.Machine

/-- What State.setSeg leaves. -/
theorem State.setSeg_keeps {pm : Piece → Bool} (h_segs : pm .segs = true) (s : State) (g : Nat) (x : Segment) :
    Keeps pm s (State.setSeg s g x) := by
  unfold State.setSeg
  try dsimp only
  repeat' first
    | with_reducible exact Keeps.refl _ _
    | assumption
    | split
    | (with_reducible refine (keeps_segs h_segs ?_).after ?_)
    | (with_reducible exact fun hc => swf_sset hc.segs _ _)
    | (intro)
    | (dsimp only)

/-- What State.segResult leaves. -/
theorem State.segResult_keeps {pm : Piece → Bool} (h_regs : pm .regs = true) (s : State) (g r : Nat) :
    Keeps pm s (State.segResult s g r) := by
  unfold State.segResult
  try dsimp only
  repeat' first
    | with_reducible exact Keeps.refl _ _
    | assumption
    | (with_reducible refine (State.setFld_keeps h_regs _ _ _).after ?_)
    | split
    | (intro)
    | (dsimp only)

/-- What State.fbEvent leaves. -/
theorem State.fbEvent_keeps {pm : Piece → Bool} (h_regs : pm .regs = true) (h_msix : pm .msix = true) (h_sb : pm .sb = true) (s : State) (g code node : Nat) :
    Keeps pm s (State.fbEvent s g code node) := by
  unfold State.fbEvent
  try dsimp only
  repeat' first
    | with_reducible exact Keeps.refl _ _
    | assumption
    | (with_reducible refine (State.pushEvent_keeps h_regs h_msix h_sb _ _ _ _).after ?_)
    | split
    | (intro)
    | (dsimp only)

/-- What State.writeSegCfg leaves. -/
theorem State.writeSegCfg_keeps {pm : Piece → Bool} (h_regs : pm .regs = true) (h_msix : pm .msix = true) (h_sb : pm .sb = true) (h_segs : pm .segs = true) (s : State) (src : Source) (g : Nat) (val : Word) :
    Keeps pm s (State.writeSegCfg s src g val) := by
  unfold State.writeSegCfg
  try dsimp only
  repeat' first
    | with_reducible exact Keeps.refl _ _
    | assumption
    | (with_reducible refine (State.setReg_keeps h_regs _ _ _).after ?_)
    | (with_reducible refine (State.setFld_keeps h_regs _ _ _).after ?_)
    | (with_reducible refine (State.busyWrite_keeps h_regs h_msix h_sb _ _ _).after ?_)
    | (with_reducible refine (State.setSeg_keeps h_segs _ _ _).after ?_)
    | (with_reducible refine (State.segResult_keeps h_regs _ _ _).after ?_)
    | split
    | (intro)
    | (dsimp only)

/-- What State.writeSegCycle leaves. -/
theorem State.writeSegCycle_keeps {pm : Piece → Bool} (h_regs : pm .regs = true) (h_staged : pm .staged = true) (h_msix : pm .msix = true) (h_sb : pm .sb = true) (s : State) (src : Source) (g : Nat) (val : Word) :
    Keeps pm s (State.writeSegCycle s src g val) := by
  unfold State.writeSegCycle
  try dsimp only
  repeat' first
    | with_reducible exact Keeps.refl _ _
    | assumption
    | (with_reducible refine (State.stage_keeps h_staged _ _ _).after ?_)
    | (with_reducible refine (State.busyWrite_keeps h_regs h_msix h_sb _ _ _).after ?_)
    | (with_reducible refine (State.segResult_keeps h_regs _ _ _).after ?_)
    | split
    | (intro)
    | (dsimp only)

/-- What State.writeNodeHi leaves. -/
theorem State.writeNodeHi_keeps {pm : Piece → Bool} (h_regs : pm .regs = true) (h_msix : pm .msix = true) (h_sb : pm .sb = true) (s : State) (src : Source) (g k : Nat) (val : Word) :
    Keeps pm s (State.writeNodeHi s src g k val) := by
  unfold State.writeNodeHi
  try dsimp only
  repeat' first
    | with_reducible exact Keeps.refl _ _
    | assumption
    | (with_reducible refine (State.setReg_keeps h_regs _ _ _).after ?_)
    | (with_reducible refine (State.setFld_keeps h_regs _ _ _).after ?_)
    | (with_reducible refine (State.busyWrite_keeps h_regs h_msix h_sb _ _ _).after ?_)
    | (with_reducible refine (State.segResult_keeps h_regs _ _ _).after ?_)
    | split
    | (intro)
    | (dsimp only)

/-- What State.nodeMisses leaves. -/
theorem State.nodeMisses_keeps {pm : Piece → Bool} (h_regs : pm .regs = true) (h_msix : pm .msix = true) (h_sb : pm .sb = true) (h_segs : pm .segs = true) (s : State) (g k : Nat) :
    Keeps pm s (State.nodeMisses s g k) := by
  unfold State.nodeMisses
  try dsimp only
  repeat' first
    | with_reducible exact Keeps.refl _ _
    | assumption
    | (with_reducible refine (State.setFld_keeps h_regs _ _ _).after ?_)
    | (with_reducible refine (State.bump_keeps h_regs _ _).after ?_)
    | (with_reducible refine (State.setSeg_keeps h_segs _ _ _).after ?_)
    | (with_reducible refine (State.fbEvent_keeps h_regs h_msix h_sb _ _ _ _).after ?_)
    | split
    | (intro)
    | (dsimp only)

/-- What State.strangerCopy leaves. -/
theorem State.strangerCopy_keeps {pm : Piece → Bool} (h_regs : pm .regs = true) (h_msix : pm .msix = true) (h_sb : pm .sb = true) (s : State) (g reason : Nat) (f : List Byte) :
    Keeps pm s (State.strangerCopy s g reason f) := by
  unfold State.strangerCopy
  try dsimp only
  repeat' first
    | with_reducible exact Keeps.refl _ _
    | assumption
    | (with_reducible refine (State.pushEvent_keeps h_regs h_msix h_sb _ _ _ _).after ?_)
    | split
    | (intro)
    | (dsimp only)

/-- What State.acceptIn leaves. -/
theorem State.acceptIn_keeps {pm : Piece → Bool} (h_regs : pm .regs = true) (h_msix : pm .msix = true) (h_sb : pm .sb = true) (h_segs : pm .segs = true) (s : State) (g k : Nat) (f : List Byte) :
    Keeps pm s (State.acceptIn s g k f) := by
  unfold State.acceptIn
  try dsimp only
  repeat' first
    | with_reducible exact Keeps.refl _ _
    | assumption
    | (with_reducible refine (State.setFld_keeps h_regs _ _ _).after ?_)
    | (with_reducible refine (State.setSeg_keeps h_segs _ _ _).after ?_)
    | (with_reducible refine (State.fbEvent_keeps h_regs h_msix h_sb _ _ _ _).after ?_)
    | split
    | (intro)
    | (dsimp only)

/-- What State.rejectFrame leaves. -/
theorem State.rejectFrame_keeps {pm : Piece → Bool} (h_regs : pm .regs = true) (h_msix : pm .msix = true) (h_sb : pm .sb = true) (s : State) (g : Nat) (c : Fld × Nat) (f : List Byte) :
    Keeps pm s (State.rejectFrame s g c f) := by
  unfold State.rejectFrame
  try dsimp only
  repeat' first
    | with_reducible exact Keeps.refl _ _
    | assumption
    | (with_reducible refine (State.setFld_keeps h_regs _ _ _).after ?_)
    | (with_reducible refine (State.bump_keeps h_regs _ _).after ?_)
    | (with_reducible refine (State.fbEvent_keeps h_regs h_msix h_sb _ _ _ _).after ?_)
    | (with_reducible refine (State.strangerCopy_keeps h_regs h_msix h_sb _ _ _ _).after ?_)
    | split
    | (intro)
    | (dsimp only)

/-- What State.landIn leaves. -/
theorem State.landIn_keeps {pm : Piece → Bool} (h_regs : pm .regs = true) (h_sb : pm .sb = true) (h_hide : pm .hide = true) (s : State) (g : Nat) (a : InWords) :
    Keeps pm s (State.landIn s g a) := by
  unfold State.landIn
  try dsimp only
  repeat' first
    | with_reducible exact Keeps.refl _ _
    | assumption
    | (with_reducible refine (State.setFld_keeps h_regs _ _ _).after ?_)
    | (with_reducible refine (State.setBufWords_keeps h_regs h_sb h_hide _ _ _ _).after ?_)
    | split
    | (intro)
    | (dsimp only)

/-- What State.segBoundary leaves. -/
theorem State.segBoundary_keeps {pm : Piece → Bool} (h_regs : pm .regs = true) (h_sb : pm .sb = true) (h_hide : pm .hide = true) (h_segs : pm .segs = true) (s : State) (g : Nat) :
    Keeps pm s (State.segBoundary s g) := by
  unfold State.segBoundary
  try dsimp only
  repeat' first
    | with_reducible exact Keeps.refl _ _
    | assumption
    | (with_reducible refine (State.setSeg_keeps h_segs _ _ _).after ?_)
    | (with_reducible refine (State.landIn_keeps h_regs h_sb h_hide _ _ _).after ?_)
    | (with_reducible refine (keeps_foldl ?_ _ _).after ?_)
    | split
    | (intro)
    | (dsimp only)

end Sys2Proof.Machine
end

