-- ==== Sys2Proof/Laws/KeepsLamp.lean ====
section
/-! SUPPORT. What each operation of Machine/Lamp.lean leaves: the pieces of the state that it does not name, the part, and
the canonical form. -/

namespace Sys2Proof.Machine

/-- What State.onLamp leaves. -/
theorem State.onLamp_keeps {pm : Piece → Bool} (h_lamp : pm .lamp = true) (s : State) (f : Lamp → Lamp) :
    Keeps pm s (State.onLamp s f) := by
  unfold State.onLamp
  try dsimp only
  repeat' first
    | with_reducible exact Keeps.refl _ _
    | assumption
    | split
    | (with_reducible refine (keeps_lamp h_lamp).after ?_)
    | (intro)
    | (dsimp only)

/-- What State.setLampChan leaves. -/
theorem State.setLampChan_keeps {pm : Piece → Bool} (h_lamp : pm .lamp = true) (s : State) (c : Nat) (x : LampChan) :
    Keeps pm s (State.setLampChan s c x) := by
  unfold State.setLampChan
  try dsimp only
  repeat' first
    | with_reducible exact Keeps.refl _ _
    | assumption
    | (with_reducible refine (State.onLamp_keeps h_lamp _ _).after ?_)
    | split
    | (with_reducible refine (keeps_chans h_chans ?_).after ?_)
    | (with_reducible exact fun hc => swf_sset hc.chans _ _)
    | (intro)
    | (dsimp only)

/-- What State.lampEvent leaves. -/
theorem State.lampEvent_keeps {pm : Piece → Bool} (h_regs : pm .regs = true) (h_msix : pm .msix = true) (h_sb : pm .sb = true) (s : State) (code row chan : Nat) :
    Keeps pm s (State.lampEvent s code row chan) := by
  unfold State.lampEvent
  try dsimp only
  repeat' first
    | with_reducible exact Keeps.refl _ _
    | assumption
    | (with_reducible refine (State.pushEvent_keeps h_regs h_msix h_sb _ _ _ _).after ?_)
    | split
    | (intro)
    | (dsimp only)

/-- What State.showLamp leaves. -/
theorem State.showLamp_keeps {pm : Piece → Bool} (h_regs : pm .regs = true) (s : State) (c st : Nat) :
    Keeps pm s (State.showLamp s c st) := by
  unfold State.showLamp
  try dsimp only
  repeat' first
    | with_reducible exact Keeps.refl _ _
    | assumption
    | (with_reducible refine (State.setFld_keeps h_regs _ _ _).after ?_)
    | split
    | (intro)
    | (dsimp only)

/-- What State.startPeriod leaves. -/
theorem State.startPeriod_keeps {pm : Piece → Bool} (h_regs : pm .regs = true) (h_lamp : pm .lamp = true) (s : State) (c : Nat) :
    Keeps pm s (State.startPeriod s c) := by
  unfold State.startPeriod
  try dsimp only
  repeat' first
    | with_reducible exact Keeps.refl _ _
    | assumption
    | (with_reducible refine (State.setFld_keeps h_regs _ _ _).after ?_)
    | (with_reducible refine (State.setLampChan_keeps h_lamp _ _ _).after ?_)
    | (with_reducible refine (State.showLamp_keeps h_regs _ _ _).after ?_)
    | split
    | (intro)
    | (dsimp only)

/-- What State.pwmStart leaves. -/
theorem State.pwmStart_keeps {pm : Piece → Bool} (h_regs : pm .regs = true) (h_lamp : pm .lamp = true) (h_cal : pm .cal = true) (s : State) :
    Keeps pm s (State.pwmStart s) := by
  unfold State.pwmStart
  try dsimp only
  repeat' first
    | with_reducible exact Keeps.refl _ _
    | assumption
    | (with_reducible refine (State.calTap_keeps h_regs h_cal _ _ _).after ?_)
    | (with_reducible refine (State.startPeriod_keeps h_regs h_lamp _ _).after ?_)
    | (with_reducible refine (keeps_foldl ?_ _ _).after ?_)
    | split
    | (intro)
    | (dsimp only)

/-- What State.chainStart leaves. -/
theorem State.chainStart_keeps {pm : Piece → Bool} (h_regs : pm .regs = true) (h_msix : pm .msix = true) (h_sb : pm .sb = true) (h_lamp : pm .lamp = true) (s : State) :
    Keeps pm s (State.chainStart s) := by
  unfold State.chainStart
  try dsimp only
  repeat' first
    | with_reducible exact Keeps.refl _ _
    | assumption
    | (with_reducible refine (State.bump_keeps h_regs _ _).after ?_)
    | (with_reducible refine (State.onLamp_keeps h_lamp _ _).after ?_)
    | (with_reducible refine (State.lampEvent_keeps h_regs h_msix h_sb _ _ _ _).after ?_)
    | split
    | (intro)
    | (dsimp only)

/-- What State.lampSwap leaves. -/
theorem State.lampSwap_keeps {pm : Piece → Bool} (h_regs : pm .regs = true) (s : State) :
    Keeps pm s (State.lampSwap s) := by
  unfold State.lampSwap
  try dsimp only
  repeat' first
    | with_reducible exact Keeps.refl _ _
    | assumption
    | (with_reducible refine (State.setReg_keeps h_regs _ _ _).after ?_)
    | (with_reducible refine (State.setFld_keeps h_regs _ _ _).after ?_)
    | split
    | (intro)
    | (dsimp only)

/-- What State.sendSync leaves. -/
theorem State.sendSync_keeps {pm : Piece → Bool} (h_segs : pm .segs = true) (s : State) (seq : Word) (page : Nat) (t : Option Int) :
    Keeps pm s (State.sendSync s seq page t) := by
  unfold State.sendSync
  try dsimp only
  repeat' first
    | with_reducible exact Keeps.refl _ _
    | assumption
    | (with_reducible refine (State.setSeg_keeps h_segs _ _ _).after ?_)
    | (with_reducible refine (keeps_foldl ?_ _ _).after ?_)
    | split
    | (intro)
    | (dsimp only)

/-- What State.swapNow leaves. -/
theorem State.swapNow_keeps {pm : Piece → Bool} (h_regs : pm .regs = true) (h_msix : pm .msix = true) (h_sb : pm .sb = true) (h_segs : pm .segs = true) (h_lamp : pm .lamp = true) (s : State) (sent : Bool) :
    Keeps pm s (State.swapNow s sent) := by
  unfold State.swapNow
  try dsimp only
  repeat' first
    | with_reducible exact Keeps.refl _ _
    | assumption
    | (with_reducible refine (State.chainStart_keeps h_regs h_msix h_sb h_lamp _).after ?_)
    | (with_reducible refine (State.lampSwap_keeps h_regs _).after ?_)
    | (with_reducible refine (State.sendSync_keeps h_segs _ _ _ _).after ?_)
    | split
    | (intro)
    | (dsimp only)

/-- What State.swapTaken leaves. -/
theorem State.swapTaken_keeps {pm : Piece → Bool} (h_regs : pm .regs = true) (h_lamp : pm .lamp = true) (s : State) :
    Keeps pm s (State.swapTaken s) := by
  unfold State.swapTaken
  try dsimp only
  repeat' first
    | with_reducible exact Keeps.refl _ _
    | assumption
    | (with_reducible refine (State.setFld_keeps h_regs _ _ _).after ?_)
    | (with_reducible refine (State.onLamp_keeps h_lamp _ _).after ?_)
    | split
    | (intro)
    | (dsimp only)

/-- What State.tickSwap leaves. -/
theorem State.tickSwap_keeps {pm : Piece → Bool} (h_regs : pm .regs = true) (h_msix : pm .msix = true) (h_sb : pm .sb = true) (h_segs : pm .segs = true) (h_lamp : pm .lamp = true) (s : State) :
    Keeps pm s (State.tickSwap s) := by
  unfold State.tickSwap
  try dsimp only
  repeat' first
    | with_reducible exact Keeps.refl _ _
    | assumption
    | (with_reducible refine (State.onLamp_keeps h_lamp _ _).after ?_)
    | (with_reducible refine (State.sendSync_keeps h_segs _ _ _ _).after ?_)
    | (with_reducible refine (State.swapNow_keeps h_regs h_msix h_sb h_segs h_lamp _ _).after ?_)
    | split
    | (intro)
    | (dsimp only)

/-- What State.heldSwaps leaves. -/
theorem State.heldSwaps_keeps {pm : Piece → Bool} (h_regs : pm .regs = true) (h_msix : pm .msix = true) (h_sb : pm .sb = true) (h_segs : pm .segs = true) (h_lamp : pm .lamp = true) (s : State) :
    Keeps pm s (State.heldSwaps s) := by
  unfold State.heldSwaps
  try dsimp only
  repeat' first
    | with_reducible exact Keeps.refl _ _
    | assumption
    | (with_reducible refine (State.onLamp_keeps h_lamp _ _).after ?_)
    | (with_reducible refine (State.swapNow_keeps h_regs h_msix h_sb h_segs h_lamp _ _).after ?_)
    | (with_reducible refine (keeps_foldl ?_ _ _).after ?_)
    | split
    | (intro)
    | (dsimp only)

/-- What State.engineTick leaves. -/
theorem State.engineTick_keeps {pm : Piece → Bool} (h_lamp : pm .lamp = true) (s : State) (e : Nat) :
    Keeps pm s (State.engineTick s e) := by
  unfold State.engineTick
  try dsimp only
  repeat' first
    | with_reducible exact Keeps.refl _ _
    | assumption
    | (with_reducible refine (State.onLamp_keeps h_lamp _ _).after ?_)
    | split
    | (intro)
    | (dsimp only)

/-- What State.chanTick leaves. -/
theorem State.chanTick_keeps {pm : Piece → Bool} (h_regs : pm .regs = true) (h_lamp : pm .lamp = true) (s : State) (c : Nat) :
    Keeps pm s (State.chanTick s c) := by
  unfold State.chanTick
  try dsimp only
  repeat' first
    | with_reducible exact Keeps.refl _ _
    | assumption
    | (with_reducible refine (State.setFld_keeps h_regs _ _ _).after ?_)
    | (with_reducible refine (State.setLampChan_keeps h_lamp _ _ _).after ?_)
    | split
    | (intro)
    | (dsimp only)

/-- What State.lampStop leaves. -/
theorem State.lampStop_keeps {pm : Piece → Bool} (h_regs : pm .regs = true) (h_lamp : pm .lamp = true) (s : State) :
    Keeps pm s (State.lampStop s) := by
  unfold State.lampStop
  try dsimp only
  repeat' first
    | with_reducible exact Keeps.refl _ _
    | assumption
    | (with_reducible refine (State.setReg_keeps h_regs _ _ _).after ?_)
    | (with_reducible refine (State.onLamp_keeps h_lamp _ _).after ?_)
    | (with_reducible refine (State.setLampChan_keeps h_lamp _ _ _).after ?_)
    | (with_reducible refine (keeps_foldl ?_ _ _).after ?_)
    | split
    | (intro)
    | (dsimp only)

/-- What State.writeLampCtrl leaves. -/
theorem State.writeLampCtrl_keeps {pm : Piece → Bool} (h_regs : pm .regs = true) (h_msix : pm .msix = true) (h_sb : pm .sb = true) (h_lamp : pm .lamp = true) (s : State) (src : Source) (val : Word) :
    Keeps pm s (State.writeLampCtrl s src val) := by
  unfold State.writeLampCtrl
  try dsimp only
  repeat' first
    | with_reducible exact Keeps.refl _ _
    | assumption
    | (with_reducible refine (State.setReg_keeps h_regs _ _ _).after ?_)
    | (with_reducible refine (State.setFld_keeps h_regs _ _ _).after ?_)
    | (with_reducible refine (State.busyWrite_keeps h_regs h_msix h_sb _ _ _).after ?_)
    | (with_reducible refine (State.lampStop_keeps h_regs h_lamp _).after ?_)
    | split
    | (intro)
    | (dsimp only)

/-- What State.lampAtPeriod leaves. -/
theorem State.lampAtPeriod_keeps {pm : Piece → Bool} (h_regs : pm .regs = true) (s : State) :
    Keeps pm s (State.lampAtPeriod s) := by
  unfold State.lampAtPeriod
  try dsimp only
  repeat' first
    | with_reducible exact Keeps.refl _ _
    | assumption
    | (with_reducible refine (State.setFld_keeps h_regs _ _ _).after ?_)
    | split
    | (intro)
    | (dsimp only)

/-- What State.lampBoundary leaves. -/
theorem State.lampBoundary_keeps {pm : Piece → Bool} (h_regs : pm .regs = true) (h_msix : pm .msix = true) (h_sb : pm .sb = true) (h_segs : pm .segs = true) (h_lamp : pm .lamp = true) (s : State) :
    Keeps pm s (State.lampBoundary s) := by
  unfold State.lampBoundary
  try dsimp only
  repeat' first
    | with_reducible exact Keeps.refl _ _
    | assumption
    | (with_reducible refine (State.onLamp_keeps h_lamp _ _).after ?_)
    | (with_reducible refine (State.heldSwaps_keeps h_regs h_msix h_sb h_segs h_lamp _).after ?_)
    | split
    | (intro)
    | (dsimp only)

/-- What State.writeLampMem leaves. -/
theorem State.writeLampMem_keeps {pm : Piece → Bool} (h_regs : pm .regs = true) (h_msix : pm .msix = true) (h_sb : pm .sb = true) (h_lamp : pm .lamp = true) (s : State) (src : Source) (a : Nat) (val : Word) :
    Keeps pm s (State.writeLampMem s src a val) := by
  unfold State.writeLampMem
  try dsimp only
  repeat' first
    | with_reducible exact Keeps.refl _ _
    | assumption
    | (with_reducible refine (State.busyWrite_keeps h_regs h_msix h_sb _ _ _).after ?_)
    | (with_reducible refine (State.onLamp_keeps h_lamp _ _).after ?_)
    | split
    | (with_reducible refine (keeps_mem h_mem ?_).after ?_)
    | (exact fun hc => swf_sset (d := fun _ => 0) hc.mem _ _)
    | (exact fun hc => swf_filter (d := fun _ => 0) hc.mem _)
    | (intro)
    | (dsimp only)

end Sys2Proof.Machine
end

