-- ==== Sys2Proof/Laws/KeepsStch.lean ====
section
/-! SUPPORT. What each operation of Machine/Stch.lean leaves: the pieces of the state that it does not name, the part, and
the canonical form. -/

namespace Sys2Proof.Machine

/-- What State.writePeriod leaves. -/
theorem State.writePeriod_keeps {pm : Piece → Bool} (h_regs : pm .regs = true) (h_staged : pm .staged = true) (s : State) (val : Word) :
    Keeps pm s (State.writePeriod s val) := by
  unfold State.writePeriod
  try dsimp only
  repeat' first
    | with_reducible exact Keeps.refl _ _
    | assumption
    | (with_reducible refine (State.setFld_keeps h_regs _ _ _).after ?_)
    | (with_reducible refine (State.stage_keeps h_staged _ _ _).after ?_)
    | split
    | (intro)
    | (dsimp only)

/-- What State.writeHold leaves. -/
theorem State.writeHold_keeps {pm : Piece → Bool} (h_regs : pm .regs = true) (s : State) (val : Word) :
    Keeps pm s (State.writeHold s val) := by
  unfold State.writeHold
  try dsimp only
  repeat' first
    | with_reducible exact Keeps.refl _ _
    | assumption
    | (with_reducible refine (State.setReg_keeps h_regs _ _ _).after ?_)
    | (with_reducible refine (State.setFld_keeps h_regs _ _ _).after ?_)
    | split
    | (intro)
    | (dsimp only)

/-- What State.countHolds leaves. -/
theorem State.countHolds_keeps {pm : Piece → Bool} (h_holds : pm .holds = true) (s : State) :
    Keeps pm s (State.countHolds s) := by
  unfold State.countHolds
  exact keeps_holds h_holds (by
    intro hc
    have aux : ∀ (l : List Nat) (h : Sparse Nat), swf (fun _ => 0) h = true →
        swf (fun _ => 0) (l.foldl (fun h g => sset 0 h g (if s.holdOn g then sget 0 s.holds g + 1 else 0)) h) = true := by
      intro l
      induction l with
      | nil => intro h hh; exact hh
      | cons g l ih => intro h hh; exact ih _ (swf_sset (d := fun _ => 0) hh _ _)
    exact aux _ _ hc.holds)

/-- What State.readCount leaves. -/
theorem State.readCount_keeps {pm : Piece → Bool} (h_regs : pm .regs = true) (s : State) :
    Keeps pm s (State.readCount s).1 := by
  unfold State.readCount
  try dsimp only
  repeat' first
    | with_reducible exact Keeps.refl _ _
    | assumption
    | (with_reducible refine (State.setReg_keeps h_regs _ _ _).after ?_)
    | split
    | (intro)
    | (dsimp only)

/-- What State.readCount leaves, its answer taken apart. -/
theorem State.readCount_keeps_eq {pm : Piece → Bool} (h_regs : pm .regs = true) (s : State) {t : State} {r : Word}
    (e : State.readCount s = (t, r)) : Keeps pm s t := by
  have q := State.readCount_keeps (pm := pm) h_regs s
  rw [e] at q
  exact q

end Sys2Proof.Machine
end

