-- ==== Sys2Proof/Laws/KeepsGuard.lean ====
section
/-! SUPPORT. What each operation of Machine/Guard.lean leaves: the pieces of the state that it does not name, the part, and
the canonical form. -/

namespace Sys2Proof.Machine

/-- What State.onSec leaves. -/
theorem State.onSec_keeps {pm : Piece → Bool} (h_sec : pm .sec = true) (s : State) (f : Sec → Sec) :
    Keeps pm s (State.onSec s f) := by
  unfold State.onSec
  try dsimp only
  repeat' first
    | with_reducible exact Keeps.refl _ _
    | assumption
    | split
    | (with_reducible refine (keeps_sec h_sec).after ?_)
    | (intro)
    | (dsimp only)

/-- What State.secEvent leaves. -/
theorem State.secEvent_keeps {pm : Piece → Bool} (h_regs : pm .regs = true) (h_msix : pm .msix = true) (h_sb : pm .sb = true) (s : State) (code low : Nat) :
    Keeps pm s (State.secEvent s code low) := by
  unfold State.secEvent
  try dsimp only
  repeat' first
    | with_reducible exact Keeps.refl _ _
    | assumption
    | (with_reducible refine (State.pushEvent_keeps h_regs h_msix h_sb _ _ _ _).after ?_)
    | split
    | (intro)
    | (dsimp only)

/-- What State.guardRequest leaves. -/
theorem State.guardRequest_keeps {pm : Piece → Bool} (h_regs : pm .regs = true) (h_sec : pm .sec = true) (s : State) (op addr : Nat) (val : Word) :
    Keeps pm s (State.guardRequest s op addr val) := by
  unfold State.guardRequest
  try dsimp only
  repeat' first
    | with_reducible exact Keeps.refl _ _
    | assumption
    | (with_reducible refine (State.setFld_keeps h_regs _ _ _).after ?_)
    | (with_reducible refine (State.onSec_keeps h_sec _ _).after ?_)
    | split
    | (intro)
    | (dsimp only)

/-- What State.guardStartOff leaves. -/
theorem State.guardStartOff_keeps {pm : Piece → Bool} (h_regs : pm .regs = true) (s : State) (a : Nat) :
    Keeps pm s (State.guardStartOff s a) := by
  unfold State.guardStartOff
  try dsimp only
  repeat' first
    | with_reducible exact Keeps.refl _ _
    | assumption
    | (with_reducible refine (State.setReg_keeps h_regs _ _ _).after ?_)
    | split
    | (intro)
    | (dsimp only)

/-- What State.guardEnds leaves. -/
theorem State.guardEnds_keeps {pm : Piece → Bool} (h_regs : pm .regs = true) (h_sec : pm .sec = true) (s : State) (result : Nat) :
    Keeps pm s (State.guardEnds s result) := by
  unfold State.guardEnds
  try dsimp only
  repeat' first
    | with_reducible exact Keeps.refl _ _
    | assumption
    | (with_reducible refine (State.setFld_keeps h_regs _ _ _).after ?_)
    | (with_reducible refine (State.request_keeps h_regs h_readData h_resp h_msix h_fresh h_sb h_repeatAge h_hide _ _ _ _).after ?_)
    | (with_reducible refine (State.onSec_keeps h_sec _ _).after ?_)
    | (with_reducible refine (State.guardStartOff_keeps h_regs _ _).after ?_)
    | split
    | (intro)
    | (dsimp only)

/-- What State.guardCancel leaves. -/
theorem State.guardCancel_keeps {pm : Piece → Bool} (h_regs : pm .regs = true) (h_sec : pm .sec = true) (s : State) :
    Keeps pm s (State.guardCancel s) := by
  unfold State.guardCancel
  try dsimp only
  repeat' first
    | with_reducible exact Keeps.refl _ _
    | assumption
    | (with_reducible refine (State.request_keeps h_regs h_readData h_resp h_msix h_fresh h_sb h_repeatAge h_hide _ _ _ _).after ?_)
    | (with_reducible refine (State.guardEnds_keeps h_regs h_sec _ _).after ?_)
    | split
    | (intro)
    | (dsimp only)

/-- What State.guardBoundary leaves. -/
theorem State.guardBoundary_keeps {pm : Piece → Bool} (h_regs : pm .regs = true) (s : State) :
    Keeps pm s (State.guardBoundary s) := by
  unfold State.guardBoundary
  try dsimp only
  repeat' first
    | with_reducible exact Keeps.refl _ _
    | assumption
    | (with_reducible refine (State.setFld_keeps h_regs _ _ _).after ?_)
    | (with_reducible refine (State.request_keeps h_regs h_readData h_resp h_msix h_fresh h_sb h_repeatAge h_hide _ _ _ _).after ?_)
    | split
    | (intro)
    | (dsimp only)

end Sys2Proof.Machine
end

