-- ==== Sys2Proof/Laws/KeepsCalib.lean ====
section
/-! SUPPORT. What each operation of Machine/Calib.lean leaves: the pieces of the state that it does not name, the part, and
the canonical form. -/

namespace Sys2Proof.Machine

/-- What State.onCal leaves. -/
theorem State.onCal_keeps {pm : Piece → Bool} (h_cal : pm .cal = true) (s : State) (f : Cal → Cal) :
    Keeps pm s (State.onCal s f) := by
  unfold State.onCal
  try dsimp only
  repeat' first
    | with_reducible exact Keeps.refl _ _
    | assumption
    | split
    | (with_reducible refine (keeps_cal h_cal).after ?_)
    | (intro)
    | (dsimp only)

/-- What State.calEvent leaves. -/
theorem State.calEvent_keeps {pm : Piece → Bool} (h_regs : pm .regs = true) (h_msix : pm .msix = true) (h_sb : pm .sb = true) (s : State) (code result : Nat) (item unit : Nat) (w1 : Word) :
    Keeps pm s (State.calEvent s code result item unit w1) := by
  unfold State.calEvent
  try dsimp only
  repeat' first
    | with_reducible exact Keeps.refl _ _
    | assumption
    | (with_reducible refine (State.pushEvent_keeps h_regs h_msix h_sb _ _ _ _).after ?_)
    | split
    | (intro)
    | (dsimp only)

/-- What State.calShow leaves. -/
theorem State.calShow_keeps {pm : Piece → Bool} (h_regs : pm .regs = true) (s : State) :
    Keeps pm s (State.calShow s) := by
  unfold State.calShow
  try dsimp only
  repeat' first
    | with_reducible exact Keeps.refl _ _
    | assumption
    | (with_reducible refine (State.setFld_keeps h_regs _ _ _).after ?_)
    | split
    | (intro)
    | (dsimp only)

/-- What State.calQueue leaves. -/
theorem State.calQueue_keeps {pm : Piece → Bool} (h_regs : pm .regs = true) (h_cal : pm .cal = true) (s : State) (trigger item unit : Nat) :
    Keeps pm s (State.calQueue s trigger item unit) := by
  unfold State.calQueue
  try dsimp only
  repeat' first
    | with_reducible exact Keeps.refl _ _
    | assumption
    | (with_reducible refine (State.onCal_keeps h_cal _ _).after ?_)
    | (with_reducible refine (State.calShow_keeps h_regs _).after ?_)
    | split
    | (intro)
    | (dsimp only)

/-- What State.calQueueAll leaves. -/
theorem State.calQueueAll_keeps {pm : Piece → Bool} (h_regs : pm .regs = true) (h_cal : pm .cal = true) (s : State) (trigger item : Nat) (unit : Option Nat) :
    Keeps pm s (State.calQueueAll s trigger item unit) := by
  unfold State.calQueueAll
  try dsimp only
  repeat' first
    | with_reducible exact Keeps.refl _ _
    | assumption
    | (with_reducible refine (State.calQueue_keeps h_regs h_cal _ _ _ _).after ?_)
    | (with_reducible refine (keeps_foldl ?_ _ _).after ?_)
    | split
    | (intro)
    | (dsimp only)

/-- What State.calBoot leaves. -/
theorem State.calBoot_keeps {pm : Piece → Bool} (h_regs : pm .regs = true) (h_cal : pm .cal = true) (s : State) :
    Keeps pm s (State.calBoot s) := by
  unfold State.calBoot
  try dsimp only
  repeat' first
    | with_reducible exact Keeps.refl _ _
    | assumption
    | (with_reducible refine (State.calQueueAll_keeps h_regs h_cal _ _ _ _).after ?_)
    | (with_reducible refine (keeps_foldl ?_ _ _).after ?_)
    | split
    | (intro)
    | (dsimp only)

/-- What State.calDrift leaves. -/
theorem State.calDrift_keeps {pm : Piece → Bool} (h_regs : pm .regs = true) (h_cal : pm .cal = true) (s : State) (item unit : Nat) :
    Keeps pm s (State.calDrift s item unit) := by
  unfold State.calDrift
  try dsimp only
  repeat' first
    | with_reducible exact Keeps.refl _ _
    | assumption
    | (with_reducible refine (State.calQueue_keeps h_regs h_cal _ _ _ _).after ?_)
    | split
    | (intro)
    | (dsimp only)

/-- What State.calEnds leaves. -/
theorem State.calEnds_keeps {pm : Piece → Bool} (h_regs : pm .regs = true) (h_cal : pm .cal = true) (s : State) :
    Keeps pm s (State.calEnds s) := by
  unfold State.calEnds
  try dsimp only
  repeat' first
    | with_reducible exact Keeps.refl _ _
    | assumption
    | (with_reducible refine (State.onCal_keeps h_cal _ _).after ?_)
    | (with_reducible refine (State.calShow_keeps h_regs _).after ?_)
    | split
    | (intro)
    | (dsimp only)

/-- What State.calSkip leaves. -/
theorem State.calSkip_keeps {pm : Piece → Bool} (h_regs : pm .regs = true) (h_msix : pm .msix = true) (h_sb : pm .sb = true) (s : State) (e : CalEntry) :
    Keeps pm s (State.calSkip s e) := by
  unfold State.calSkip
  try dsimp only
  repeat' first
    | with_reducible exact Keeps.refl _ _
    | assumption
    | (with_reducible refine (State.calEvent_keeps h_regs h_msix h_sb _ _ _ _ _ _).after ?_)
    | split
    | (intro)
    | (dsimp only)

/-- What State.calMark leaves. -/
theorem State.calMark_keeps {pm : Piece → Bool} (h_cal : pm .cal = true) (s : State) (e : CalEntry) :
    Keeps pm s (State.calMark s e) := by
  unfold State.calMark
  try dsimp only
  repeat' first
    | with_reducible exact Keeps.refl _ _
    | assumption
    | (with_reducible refine (State.onCal_keeps h_cal _ _).after ?_)
    | split
    | (intro)
    | (dsimp only)

/-- What State.calFinish leaves. -/
theorem State.calFinish_keeps {pm : Piece → Bool} (h_regs : pm .regs = true) (h_msix : pm .msix = true) (h_sb : pm .sb = true) (h_cal : pm .cal = true) (s : State) (e : CalEntry) :
    Keeps pm s (State.calFinish s e) := by
  unfold State.calFinish
  try dsimp only
  repeat' first
    | with_reducible exact Keeps.refl _ _
    | assumption
    | (with_reducible refine (State.onCal_keeps h_cal _ _).after ?_)
    | (with_reducible refine (State.calEvent_keeps h_regs h_msix h_sb _ _ _ _ _ _).after ?_)
    | (with_reducible refine (State.calEnds_keeps h_regs h_cal _).after ?_)
    | (with_reducible refine (State.calMark_keeps h_cal _ _).after ?_)
    | split
    | (intro)
    | (dsimp only)

/-- What State.calWritten leaves. -/
theorem State.calWritten_keeps {pm : Piece → Bool} (h_regs : pm .regs = true) (h_msix : pm .msix = true) (h_sb : pm .sb = true) (h_cal : pm .cal = true) (s : State) (slot : Nat) :
    Keeps pm s (State.calWritten s slot) := by
  unfold State.calWritten
  try dsimp only
  repeat' first
    | with_reducible exact Keeps.refl _ _
    | assumption
    | (with_reducible refine (State.calFinish_keeps h_regs h_msix h_sb h_cal _ _).after ?_)
    | split
    | (intro)
    | (dsimp only)

/-- What State.calRestarted leaves. -/
theorem State.calRestarted_keeps {pm : Piece → Bool} (h_regs : pm .regs = true) (h_msix : pm .msix = true) (h_sb : pm .sb = true) (h_cal : pm .cal = true) (s : State) (item unit : Nat) :
    Keeps pm s (State.calRestarted s item unit) := by
  unfold State.calRestarted
  try dsimp only
  repeat' first
    | with_reducible exact Keeps.refl _ _
    | assumption
    | (with_reducible refine (State.calEnds_keeps h_regs h_cal _).after ?_)
    | (with_reducible refine (State.calSkip_keeps h_regs h_msix h_sb _ _).after ?_)
    | split
    | (intro)
    | (dsimp only)

/-- What State.writeCalCmd leaves. -/
theorem State.writeCalCmd_keeps {pm : Piece → Bool} (h_regs : pm .regs = true) (h_sec : pm .sec = true) (s : State) (val : Word) :
    Keeps pm s (State.writeCalCmd s val) := by
  unfold State.writeCalCmd
  try dsimp only
  repeat' first
    | with_reducible exact Keeps.refl _ _
    | assumption
    | (with_reducible refine (State.setReg_keeps h_regs _ _ _).after ?_)
    | (with_reducible refine (State.guardRequest_keeps h_regs h_sec _ _ _ _).after ?_)
    | split
    | (intro)
    | (dsimp only)

/-- What State.geoCommit leaves. -/
theorem State.geoCommit_keeps {pm : Piece → Bool} (h_regs : pm .regs = true) (h_msix : pm .msix = true) (h_sb : pm .sb = true) (h_repeatAge : pm .repeatAge = true) (h_hide : pm .hide = true) (h_cal : pm .cal = true) (s : State) (slot : Nat) :
    Keeps pm s (State.geoCommit s slot) := by
  unfold State.geoCommit
  try dsimp only
  repeat' first
    | with_reducible exact Keeps.refl _ _
    | assumption
    | (with_reducible refine (State.useBuf_keeps h_regs h_msix h_sb h_repeatAge h_hide _ _ _).after ?_)
    | (with_reducible refine (State.onCal_keeps h_cal _ _).after ?_)
    | split
    | (intro)
    | (dsimp only)

/-- What State.calBoundary leaves. -/
theorem State.calBoundary_keeps {pm : Piece → Bool} (h_regs : pm .regs = true) (h_cal : pm .cal = true) (s : State) :
    Keeps pm s (State.calBoundary s) := by
  unfold State.calBoundary
  try dsimp only
  repeat' first
    | with_reducible exact Keeps.refl _ _
    | assumption
    | (with_reducible refine (State.setReg_keeps h_regs _ _ _).after ?_)
    | (with_reducible refine (State.calTap_keeps h_regs h_cal _ _ _).after ?_)
    | (with_reducible refine (State.calQueueAll_keeps h_regs h_cal _ _ _ _).after ?_)
    | (with_reducible refine (State.calDrift_keeps h_regs h_cal _ _ _).after ?_)
    | (with_reducible refine (keeps_foldl ?_ _ _).after ?_)
    | split
    | (intro)
    | (dsimp only)

/-- What State.calLoad leaves. -/
theorem State.calLoad_keeps {pm : Piece → Bool} (h_regs : pm .regs = true) (h_cal : pm .cal = true) (s : State) :
    Keeps pm s (State.calLoad s) := by
  unfold State.calLoad
  try dsimp only
  repeat' first
    | with_reducible exact Keeps.refl _ _
    | assumption
    | (with_reducible refine (State.setCal_keeps h_regs h_cal _ _ _ _).after ?_)
    | (with_reducible refine (State.onCal_keeps h_cal _ _).after ?_)
    | (with_reducible refine (keeps_foldl ?_ _ _).after ?_)
    | split
    | (intro)
    | (dsimp only)

end Sys2Proof.Machine
end

