-- ==== Sys2Proof/Laws/KeepsPort.lean ====
section
/-! SUPPORT. What each operation of Machine/Port.lean leaves: the pieces of the state that it does not name, the part, and
the canonical form. -/

namespace Sys2Proof.Machine

/-- What State.sendPending leaves. -/
theorem State.sendPending_keeps {pm : Piece → Bool} (h_regs : pm .regs = true) (h_msix : pm .msix = true) (s : State) (vec : Nat) :
    Keeps pm s (State.sendPending s vec) := by
  unfold State.sendPending
  try dsimp only
  repeat' first
    | with_reducible exact Keeps.refl _ _
    | assumption
    | (with_reducible refine (State.setReg_keeps h_regs _ _ _).after ?_)
    | (with_reducible refine (State.signal_keeps h_regs h_msix _ _).after ?_)
    | split
    | (intro)
    | (dsimp only)

/-- What State.unmask leaves. -/
theorem State.unmask_keeps {pm : Piece → Bool} (h_regs : pm .regs = true) (h_msix : pm .msix = true) (s : State) (vec : Nat) :
    Keeps pm s (State.unmask s vec) := by
  unfold State.unmask
  try dsimp only
  repeat' first
    | with_reducible exact Keeps.refl _ _
    | assumption
    | (with_reducible refine (State.setFld_keeps h_regs _ _ _).after ?_)
    | (with_reducible refine (State.sendPending_keeps h_regs h_msix _ _).after ?_)
    | split
    | (intro)
    | (dsimp only)

/-- What State.sendAllPending leaves. -/
theorem State.sendAllPending_keeps {pm : Piece → Bool} (h_regs : pm .regs = true) (h_msix : pm .msix = true) (s : State) :
    Keeps pm s (State.sendAllPending s) := by
  unfold State.sendAllPending
  try dsimp only
  repeat' first
    | with_reducible exact Keeps.refl _ _
    | assumption
    | (with_reducible refine (State.sendPending_keeps h_regs h_msix _ _).after ?_)
    | (with_reducible refine (keeps_foldl ?_ _ _).after ?_)
    | split
    | (intro)
    | (dsimp only)

/-- What State.clearMsix leaves. -/
theorem State.clearMsix_keeps {pm : Piece → Bool} (h_regs : pm .regs = true) (s : State) :
    Keeps pm s (State.clearMsix s) := by
  unfold State.clearMsix
  try dsimp only
  repeat' first
    | with_reducible exact Keeps.refl _ _
    | assumption
    | (with_reducible refine (State.setReg_keeps h_regs _ _ _).after ?_)
    | (with_reducible refine (keeps_foldl ?_ _ _).after ?_)
    | split
    | (intro)
    | (dsimp only)

/-- What State.linkFields leaves. -/
theorem State.linkFields_keeps {pm : Piece → Bool} (h_regs : pm .regs = true) (s : State) (up speed width : Nat) :
    Keeps pm s (State.linkFields s up speed width) := by
  unfold State.linkFields
  try dsimp only
  repeat' first
    | with_reducible exact Keeps.refl _ _
    | assumption
    | (with_reducible refine (State.setFld_keeps h_regs _ _ _).after ?_)
    | split
    | (intro)
    | (dsimp only)

/-- What State.pcieReset leaves. -/
theorem State.pcieReset_keeps {pm : Piece → Bool} (h_regs : pm .regs = true) (h_sb : pm .sb = true) (s : State) :
    Keeps pm s (State.pcieReset s) := by
  unfold State.pcieReset
  try dsimp only
  repeat' first
    | with_reducible exact Keeps.refl _ _
    | assumption
    | (with_reducible refine (State.setFld_keeps h_regs _ _ _).after ?_)
    | (with_reducible refine (State.dropPackets_keeps h_regs h_sb _ _).after ?_)
    | (with_reducible refine (State.clearMsix_keeps h_regs _).after ?_)
    | (with_reducible refine (State.linkFields_keeps h_regs _ _ _ _).after ?_)
    | (with_reducible refine (keeps_foldl ?_ _ _).after ?_)
    | split
    | (intro)
    | (dsimp only)

end Sys2Proof.Machine
end

