-- ==== Sys2Proof/Laws/KeepsRestart.lean ====
section
/-! SUPPORT. What each operation of Machine/Restart.lean leaves: the pieces of the state that it does not name, the part, and
the canonical form. -/

namespace Sys2Proof.Machine

/-- What State.resetRegs leaves. -/
theorem State.resetRegs_keeps {pm : Piece → Bool} (h_regs : pm .regs = true) (s : State) (lvl : Nat) (hit : Nat → Bool) :
    Keeps pm s (State.resetRegs s lvl hit) := by
  unfold State.resetRegs
  exact keeps_regs h_regs (by
    intro _
    have aux : ∀ (l m : Sparse Word), swf (resetWord s.part) m = true →
        swf (resetWord s.part) (l.foldl (fun m e =>
          sset (resetWord s.part e.1) m e.1 (if hit e.1 then survive s.part lvl e.1 e.2 else e.2)) m) = true := by
      intro l
      induction l with
      | nil => intro h hh; exact hh
      | cons g l ih => intro h hh; exact ih _ (swf_sset hh _ _)
    exact aux _ _ rfl)

/-- What State.restartCore leaves. -/
theorem State.restartCore_keeps {pm : Piece → Bool} (h_regs : pm .regs = true) (h_sb : pm .sb = true) (h_cores : pm .cores = true) (h_ctxs : pm .ctxs = true) (s : State) (k : Nat) :
    Keeps pm s (State.restartCore s k) := by
  unfold State.restartCore
  try dsimp only
  repeat' first
    | with_reducible exact Keeps.refl _ _
    | assumption
    | (with_reducible refine (State.setCore_keeps h_cores _ _ _).after ?_)
    | (with_reducible refine (State.setCtx_keeps h_ctxs _ _ _ _).after ?_)
    | (with_reducible refine (State.restartCtx_keeps h_regs h_sb h_cores h_ctxs _ _ _).after ?_)
    | (with_reducible refine (keeps_foldl ?_ _ _).after ?_)
    | split
    | (intro)
    | (dsimp only)

/-- What State.traceAbandon leaves. -/
theorem State.traceAbandon_keeps {pm : Piece → Bool} (h_regs : pm .regs = true) (h_sb : pm .sb = true) (h_reins : pm .reins = true) (s : State) (k : Nat) :
    Keeps pm s (State.traceAbandon s k) := by
  unfold State.traceAbandon
  try dsimp only
  repeat' first
    | with_reducible exact Keeps.refl _ _
    | assumption
    | (with_reducible refine (State.traceFail_keeps h_regs h_sb h_reins _ _ _).after ?_)
    | (with_reducible refine (keeps_foldl ?_ _ _).after ?_)
    | split
    | (intro)
    | (dsimp only)

/-- What State.restartBlock leaves. -/
theorem State.restartBlock_keeps {pm : Piece → Bool} (h_regs : pm .regs = true) (h_readData : pm .readData = true) (h_resp : pm .resp = true) (h_msix : pm .msix = true) (h_fresh : pm .fresh = true) (h_sb : pm .sb = true) (h_cores : pm .cores = true) (h_ctxs : pm .ctxs = true) (h_mem : pm .mem = true) (h_badLines : pm .badLines = true) (h_chans : pm .chans = true) (h_repeatAge : pm .repeatAge = true) (h_awls : pm .awls = true) (h_reins : pm .reins = true) (h_hide : pm .hide = true) (h_tree : pm .tree = true) (h_axes : pm .axes = true) (h_cams : pm .cams = true) (h_lanes : pm .lanes = true) (h_segs : pm .segs = true) (h_lamp : pm .lamp = true) (h_cal : pm .cal = true) (s : State) (code unit : Nat) :
    Keeps pm s (State.restartBlock s code unit) := by
  unfold State.restartBlock
  try dsimp only
  repeat' first
    | with_reducible exact Keeps.refl _ _
    | assumption
    | (with_reducible refine (State.setFld_keeps h_regs _ _ _).after ?_)
    | (with_reducible refine (State.setChan_keeps h_chans _ _ _).after ?_)
    | (with_reducible refine (State.drainWrites_keeps h_regs h_msix h_sb h_mem h_badLines h_chans h_repeatAge _ _).after ?_)
    | (with_reducible refine (State.dropInternal_keeps h_regs h_readData h_resp h_sb _ _).after ?_)
    | (with_reducible refine (State.hideRestart_keeps h_regs h_msix h_fresh h_sb h_mem h_badLines h_chans h_repeatAge h_hide _).after ?_)
    | (with_reducible refine (State.setAwl_keeps h_awls _ _ _).after ?_)
    | (with_reducible refine (State.setRein_keeps h_reins _ _ _).after ?_)
    | (with_reducible refine (State.setAxis_keeps h_axes _ _ _).after ?_)
    | (with_reducible refine (State.setCam_keeps h_cams _ _ _ _).after ?_)
    | (with_reducible refine (State.setLane_keeps h_lanes _ _ _).after ?_)
    | (with_reducible refine (State.laneEnter_keeps h_regs h_msix h_sb h_awls h_lanes _ _ _ _ _).after ?_)
    | (with_reducible refine (State.setSeg_keeps h_segs _ _ _).after ?_)
    | (with_reducible refine (State.calRestarted_keeps h_regs h_msix h_sb h_cal _ _ _).after ?_)
    | (with_reducible refine (State.pcieReset_keeps h_regs h_sb _).after ?_)
    | (with_reducible refine (State.restartCore_keeps h_regs h_sb h_cores h_ctxs _ _).after ?_)
    | (with_reducible refine (State.traceAbandon_keeps h_regs h_sb h_reins _ _).after ?_)
    | (with_reducible refine (keeps_foldl ?_ _ _).after ?_)
    | split
    | (with_reducible refine (keeps_cal h_cal).after ?_)
    | (with_reducible refine (keeps_lamp h_lamp).after ?_)
    | (with_reducible refine (keeps_mem h_mem ?_).after ?_)
    | (with_reducible refine (keeps_mem_badLines h_mem h_badLines ?_ ?_).after ?_)
    | (with_reducible refine (keeps_sb h_sb ?_).after ?_)
    | (with_reducible refine (keeps_tree h_tree).after ?_)
    | (with_reducible exact fun hc => swf_sset hc.badLines _ _)
    | (with_reducible exact fun hc => swf_filter hc.badLines _)
    | (exact fun hc => swf_sset (d := fun _ => 0) hc.mem _ _)
    | (exact fun hc => swf_filter (d := fun _ => 0) hc.mem _)
    | (exact fun hc => hc.streams)
    | (with_reducible exact fun hc => swf_sset hc.streams _ _)
    | (intro)
    | (dsimp only)

/-- What State.restartShow leaves. -/
theorem State.restartShow_keeps {pm : Piece → Bool} (h_regs : pm .regs = true) (h_sb : pm .sb = true) (s : State) (code unit dmc : Nat) (lost : List Nat) :
    Keeps pm s (State.restartShow s code unit dmc lost) := by
  unfold State.restartShow
  try dsimp only
  repeat' first
    | with_reducible exact Keeps.refl _ _
    | assumption
    | (with_reducible refine (State.setFld_keeps h_regs _ _ _).after ?_)
    | (with_reducible refine (State.bump_keeps h_regs _ _).after ?_)
    | (with_reducible refine (State.setStream_keeps h_regs h_sb _ _ _).after ?_)
    | (with_reducible refine (keeps_foldl ?_ _ _).after ?_)
    | split
    | (intro)
    | (dsimp only)

/-- What State.startRestart leaves. -/
theorem State.startRestart_keeps {pm : Piece → Bool} (h_regs : pm .regs = true) (h_cmds : pm .cmds = true) (h_readData : pm .readData = true) (h_resp : pm .resp = true) (h_msix : pm .msix = true) (h_fresh : pm .fresh = true) (h_sb : pm .sb = true) (h_cores : pm .cores = true) (h_ctxs : pm .ctxs = true) (h_mem : pm .mem = true) (h_badLines : pm .badLines = true) (h_chans : pm .chans = true) (h_repeatAge : pm .repeatAge = true) (h_awls : pm .awls = true) (h_reins : pm .reins = true) (h_hide : pm .hide = true) (h_tree : pm .tree = true) (h_axes : pm .axes = true) (h_cams : pm .cams = true) (h_lanes : pm .lanes = true) (h_segs : pm .segs = true) (h_lamp : pm .lamp = true) (h_power : pm .power = true) (h_cal : pm .cal = true) (s : State) (code unit : Nat) :
    Keeps pm s (State.startRestart s code unit) := by
  unfold State.startRestart
  try dsimp only
  repeat' first
    | with_reducible exact Keeps.refl _ _
    | assumption
    | (with_reducible refine (State.resetRegs_keeps h_regs _ _ _).after ?_)
    | (with_reducible refine (State.restartBlock_keeps h_regs h_readData h_resp h_msix h_fresh h_sb h_cores h_ctxs h_mem h_badLines h_chans h_repeatAge h_awls h_reins h_hide h_tree h_axes h_cams h_lanes h_segs h_lamp h_cal _ _ _).after ?_)
    | (with_reducible refine (State.restartShow_keeps h_regs h_sb _ _ _ _ _).after ?_)
    | split
    | (with_reducible refine (keeps_cmds_power h_cmds h_power).after ?_)
    | (intro)
    | (dsimp only)

/-- What State.restartBoundary leaves. -/
theorem State.restartBoundary_keeps {pm : Piece → Bool} (h_regs : pm .regs = true) (h_cmds : pm .cmds = true) (h_readData : pm .readData = true) (h_resp : pm .resp = true) (h_msix : pm .msix = true) (h_fresh : pm .fresh = true) (h_sb : pm .sb = true) (h_cores : pm .cores = true) (h_ctxs : pm .ctxs = true) (h_mem : pm .mem = true) (h_badLines : pm .badLines = true) (h_chans : pm .chans = true) (h_repeatAge : pm .repeatAge = true) (h_awls : pm .awls = true) (h_reins : pm .reins = true) (h_hide : pm .hide = true) (h_tree : pm .tree = true) (h_axes : pm .axes = true) (h_cams : pm .cams = true) (h_lanes : pm .lanes = true) (h_segs : pm .segs = true) (h_lamp : pm .lamp = true) (h_power : pm .power = true) (h_cal : pm .cal = true) (s : State) :
    Keeps pm s (State.restartBoundary s) := by
  unfold State.restartBoundary
  try dsimp only
  repeat' first
    | with_reducible exact Keeps.refl _ _
    | assumption
    | (with_reducible refine (State.setFld_keeps h_regs _ _ _).after ?_)
    | (with_reducible refine (State.startRestart_keeps h_regs h_cmds h_readData h_resp h_msix h_fresh h_sb h_cores h_ctxs h_mem h_badLines h_chans h_repeatAge h_awls h_reins h_hide h_tree h_axes h_cams h_lanes h_segs h_lamp h_power h_cal _ _ _).after ?_)
    | split
    | (intro)
    | (dsimp only)

/-- What State.writeBlockRst leaves. -/
theorem State.writeBlockRst_keeps {pm : Piece → Bool} (h_regs : pm .regs = true) (s : State) (val : Word) :
    Keeps pm s (State.writeBlockRst s val) := by
  unfold State.writeBlockRst
  try dsimp only
  repeat' first
    | with_reducible exact Keeps.refl _ _
    | assumption
    | (with_reducible refine (State.setReg_keeps h_regs _ _ _).after ?_)
    | (with_reducible refine (State.setFld_keeps h_regs _ _ _).after ?_)
    | split
    | (intro)
    | (dsimp only)

/-- What State.wakeContexts leaves. -/
theorem State.wakeContexts_keeps {pm : Piece → Bool} (h_regs : pm .regs = true) (h_ctxs : pm .ctxs = true) (s : State) (k : Nat) :
    Keeps pm s (State.wakeContexts s k) := by
  unfold State.wakeContexts
  try dsimp only
  repeat' first
    | with_reducible exact Keeps.refl _ _
    | assumption
    | (with_reducible refine (State.setCtx_keeps h_ctxs _ _ _ _).after ?_)
    | (with_reducible refine (State.setCtxState_keeps h_regs _ _ _ _).after ?_)
    | (with_reducible refine (keeps_foldl ?_ _ _).after ?_)
    | split
    | (intro)
    | (dsimp only)

/-- What State.livePins leaves. -/
theorem State.livePins_keeps {pm : Piece → Bool} (h_regs : pm .regs = true) (s old : State) :
    Keeps pm s (State.livePins s old) := by
  unfold State.livePins
  try dsimp only
  repeat' first
    | with_reducible exact Keeps.refl _ _
    | assumption
    | (with_reducible refine (State.setFld_keeps h_regs _ _ _).after ?_)
    | split
    | (intro)
    | (dsimp only)

/-- What State.noStreams leaves. -/
theorem State.noStreams_keeps {pm : Piece → Bool} (h_regs : pm .regs = true) (h_sb : pm .sb = true) (s : State) (was : Sparse Stream) :
    Keeps pm s (State.noStreams s was) := by
  unfold State.noStreams
  try dsimp only
  repeat' first
    | with_reducible exact Keeps.refl _ _
    | assumption
    | (with_reducible refine (State.setFld_keeps h_regs _ _ _).after ?_)
    | (with_reducible refine (State.setStream_keeps h_regs h_sb _ _ _).after ?_)
    | (with_reducible refine (keeps_foldl ?_ _ _).after ?_)
    | split
    | (intro)
    | (dsimp only)

/-- What State.coreReset leaves. -/
theorem State.coreReset_keeps {pm : Piece → Bool} (h_stitch : pm .stitch = true) (h_regs : pm .regs = true) (h_staged : pm .staged = true) (h_cmds : pm .cmds = true) (h_holds : pm .holds = true) (h_msix : pm .msix = true) (h_sb : pm .sb = true) (h_cores : pm .cores = true) (h_ctxs : pm .ctxs = true) (h_wdog : pm .wdog = true) (h_mem : pm .mem = true) (h_badLines : pm .badLines = true) (h_chans : pm .chans = true) (h_repeatAge : pm .repeatAge = true) (h_tclk : pm .tclk = true) (h_emitEn : pm .emitEn = true) (h_ain : pm .ain = true) (h_spt : pm .spt = true) (h_awls : pm .awls = true) (h_reins : pm .reins = true) (h_hide : pm .hide = true) (h_tree : pm .tree = true) (h_axes : pm .axes = true) (h_skiver : pm .skiver = true) (h_cams : pm .cams = true) (h_bed : pm .bed = true) (h_lanes : pm .lanes = true) (h_time : pm .time = true) (h_segs : pm .segs = true) (h_eths : pm .eths = true) (h_lamp : pm .lamp = true) (h_power : pm .power = true) (h_therm : pm .therm = true) (h_cal : pm .cal = true) (h_burn : pm .burn = true) (h_sec : pm .sec = true) (h_harn : pm .harn = true) (h_mark : pm .mark = true) (s : State) (lvl : Nat) :
    Keeps pm s (State.coreReset s lvl) := by
  have hg : ∀ m : Sparse Stream, swf (fun _ => Stream.never) m = true →
      swf (fun _ => Stream.never) (keptGenerations m) = true := by
    intro m hm
    refine swf_filterMap hm ?_
    intro e r h
    by_cases hz : e.2.gen = 0
    · simp [hz] at h
    · simp only [hz, if_false, Option.some.injEq] at h
      subst h
      refine ⟨rfl, fun h2 => hz ?_⟩
      exact congrArg Stream.gen h2
  have hm : ∀ m : Sparse Core, swf (fun _ => Core.idle) m = true →
      swf (fun _ => Core.idle) (keptMemories m) = true := by
    intro m hm
    refine swf_filterMap hm ?_
    intro e r h
    dsimp only at h
    split at h
    · cases h
    · rename_i hne
      cases h
      exact ⟨rfl, hne⟩
  have hd : ∀ m : Sparse DmcChan, swf (fun _ => DmcChan.off) m = true →
      swf (fun _ => DmcChan.off) (m.filterMap fun e =>
        if e.2.remaps = [] then none else some (e.1, { DmcChan.off with remaps := e.2.remaps })) = true := by
    intro m hm
    refine swf_filterMap hm ?_
    intro e r h
    dsimp only at h
    split at h
    · cases h
    · rename_i hne
      cases h
      exact ⟨rfl, fun h2 => hne (congrArg DmcChan.remaps h2)⟩
  refine (State.noStreams_keeps h_regs h_sb _ _).after ?_
  refine (State.livePins_keeps h_regs _ _).after ⟨?_, rfl, fun hc => ?_⟩
  · simp only [blank, h_stitch, h_regs, h_staged, h_cmds, h_holds, h_msix, h_sb, h_cores, h_ctxs, h_wdog, h_mem, h_badLines, h_chans, h_repeatAge, h_tclk, h_emitEn, h_ain, h_spt, h_awls, h_reins, h_hide, h_tree, h_axes, h_skiver, h_cams, h_bed, h_lanes, h_time, h_segs, h_eths, h_lamp, h_power, h_therm, h_cal, h_burn, h_sec, h_harn, h_mark, if_true]
  · have hr := ((State.resetRegs_keeps (pm := fun _ => true) rfl s lvl fun _ => true).3 hc).regs
    exact
    { regs := hr
      staged := rfl
      holds := rfl
      cores := by
        dsimp only
        split
        · exact hm _ hc.cores
        · rfl
      ctxs := rfl
      mem := rfl
      badLines := rfl
      chans := hd _ hc.chans
      awls := rfl
      reins := rfl
      axes := rfl
      cams := rfl
      lanes := rfl
      board := hc.board
      segs := rfl
      eths := rfl
      streams := by
        dsimp only
        split
        · exact hg _ hc.streams
        · rfl }

/-- What State.setKind leaves. -/
theorem State.setKind_keeps {pm : Piece → Bool} (h_regs : pm .regs = true) (s : State) (k : Nat) :
    Keeps pm s (State.setKind s k) := by
  unfold State.setKind
  try dsimp only
  repeat' first
    | with_reducible exact Keeps.refl _ _
    | assumption
    | (with_reducible refine (State.setFld_keeps h_regs _ _ _).after ?_)
    | split
    | (intro)
    | (dsimp only)

/-- What State.release leaves. -/
theorem State.release_keeps {pm : Piece → Bool} (h_regs : pm .regs = true) (h_cores : pm .cores = true) (h_power : pm .power = true) (s : State) :
    Keeps pm s (State.release s) := by
  unfold State.release
  try dsimp only
  repeat' first
    | with_reducible exact Keeps.refl _ _
    | assumption
    | (with_reducible refine (State.bump_keeps h_regs _ _).after ?_)
    | (with_reducible refine (State.setCore_keeps h_cores _ _ _).after ?_)
    | split
    | (with_reducible refine (keeps_power h_power).after ?_)
    | (intro)
    | (dsimp only)

end Sys2Proof.Machine
end

