-- ==== Sys2Proof/Laws/KeepsPower.lean ====
section
/-! SUPPORT. What each operation of Machine/Power.lean leaves: the pieces of the state that it does not name, the part, and
the canonical form. -/

namespace Sys2Proof.Machine

/-- What State.onPower leaves. -/
theorem State.onPower_keeps {pm : Piece → Bool} (h_power : pm .power = true) (s : State) (f : Power → Power) :
    Keeps pm s (State.onPower s f) := by
  unfold State.onPower
  try dsimp only
  repeat' first
    | with_reducible exact Keeps.refl _ _
    | assumption
    | split
    | (with_reducible refine (keeps_power h_power).after ?_)
    | (intro)
    | (dsimp only)

/-- What State.powerDown leaves. -/
theorem State.powerDown_keeps {pm : Piece → Bool} (h_regs : pm .regs = true) (h_power : pm .power = true) (s : State) :
    Keeps pm s (State.powerDown s) := by
  unfold State.powerDown
  try dsimp only
  repeat' first
    | with_reducible exact Keeps.refl _ _
    | assumption
    | (with_reducible refine (State.setFld_keeps h_regs _ _ _).after ?_)
    | (with_reducible refine (State.onPower_keeps h_power _ _).after ?_)
    | split
    | (intro)
    | (dsimp only)

/-- What State.lossOfCore leaves. -/
theorem State.lossOfCore_keeps {pm : Piece → Bool} (h_stitch : pm .stitch = true) (h_regs : pm .regs = true) (h_staged : pm .staged = true) (h_cmds : pm .cmds = true) (h_holds : pm .holds = true) (h_msix : pm .msix = true) (h_sb : pm .sb = true) (h_cores : pm .cores = true) (h_ctxs : pm .ctxs = true) (h_wdog : pm .wdog = true) (h_mem : pm .mem = true) (h_badLines : pm .badLines = true) (h_chans : pm .chans = true) (h_repeatAge : pm .repeatAge = true) (h_tclk : pm .tclk = true) (h_emitEn : pm .emitEn = true) (h_ain : pm .ain = true) (h_spt : pm .spt = true) (h_awls : pm .awls = true) (h_reins : pm .reins = true) (h_hide : pm .hide = true) (h_tree : pm .tree = true) (h_axes : pm .axes = true) (h_skiver : pm .skiver = true) (h_cams : pm .cams = true) (h_bed : pm .bed = true) (h_lanes : pm .lanes = true) (h_time : pm .time = true) (h_segs : pm .segs = true) (h_eths : pm .eths = true) (h_lamp : pm .lamp = true) (h_power : pm .power = true) (h_therm : pm .therm = true) (h_cal : pm .cal = true) (h_burn : pm .burn = true) (h_sec : pm .sec = true) (h_harn : pm .harn = true) (h_mark : pm .mark = true) (s : State) :
    Keeps pm s (State.lossOfCore s) := by
  unfold State.lossOfCore
  try dsimp only
  repeat' first
    | with_reducible exact Keeps.refl _ _
    | assumption
    | (with_reducible refine (State.coreReset_keeps h_stitch h_regs h_staged h_cmds h_holds h_msix h_sb h_cores h_ctxs h_wdog h_mem h_badLines h_chans h_repeatAge h_tclk h_emitEn h_ain h_spt h_awls h_reins h_hide h_tree h_axes h_skiver h_cams h_bed h_lanes h_time h_segs h_eths h_lamp h_power h_therm h_cal h_burn h_sec h_harn h_mark _ _).after ?_)
    | (with_reducible refine (State.powerDown_keeps h_regs h_power _).after ?_)
    | split
    | (intro)
    | (dsimp only)

/-- What State.isDown leaves. -/
theorem State.isDown_keeps {pm : Piece → Bool} (h_power : pm .power = true) (s : State) :
    Keeps pm s (State.isDown s) := by
  unfold State.isDown
  try dsimp only
  repeat' first
    | with_reducible exact Keeps.refl _ _
    | assumption
    | (with_reducible refine (State.onPower_keeps h_power _ _).after ?_)
    | split
    | (intro)
    | (dsimp only)

/-- What State.downNext leaves. -/
theorem State.downNext_keeps {pm : Piece → Bool} (h_power : pm .power = true) (s : State) (grp : Nat) :
    Keeps pm s (State.downNext s grp) := by
  unfold State.downNext
  try dsimp only
  repeat' first
    | with_reducible exact Keeps.refl _ _
    | assumption
    | (with_reducible refine (State.onPower_keeps h_power _ _).after ?_)
    | (with_reducible refine (State.isDown_keeps h_power _).after ?_)
    | split
    | (intro)
    | (dsimp only)

/-- What State.seqFault leaves. -/
theorem State.seqFault_keeps {pm : Piece → Bool} (h_stitch : pm .stitch = true) (h_regs : pm .regs = true) (h_staged : pm .staged = true) (h_cmds : pm .cmds = true) (h_holds : pm .holds = true) (h_msix : pm .msix = true) (h_sb : pm .sb = true) (h_cores : pm .cores = true) (h_ctxs : pm .ctxs = true) (h_wdog : pm .wdog = true) (h_mem : pm .mem = true) (h_badLines : pm .badLines = true) (h_chans : pm .chans = true) (h_repeatAge : pm .repeatAge = true) (h_tclk : pm .tclk = true) (h_emitEn : pm .emitEn = true) (h_ain : pm .ain = true) (h_spt : pm .spt = true) (h_awls : pm .awls = true) (h_reins : pm .reins = true) (h_hide : pm .hide = true) (h_tree : pm .tree = true) (h_axes : pm .axes = true) (h_skiver : pm .skiver = true) (h_cams : pm .cams = true) (h_bed : pm .bed = true) (h_lanes : pm .lanes = true) (h_time : pm .time = true) (h_segs : pm .segs = true) (h_eths : pm .eths = true) (h_lamp : pm .lamp = true) (h_power : pm .power = true) (h_therm : pm .therm = true) (h_cal : pm .cal = true) (h_burn : pm .burn = true) (h_sec : pm .sec = true) (h_harn : pm .harn = true) (h_mark : pm .mark = true) (s : State) (code : Nat) :
    Keeps pm s (State.seqFault s code) := by
  unfold State.seqFault
  try dsimp only
  repeat' first
    | with_reducible exact Keeps.refl _ _
    | assumption
    | (with_reducible refine (State.setFld_keeps h_regs _ _ _).after ?_)
    | (with_reducible refine (State.onPower_keeps h_power _ _).after ?_)
    | (with_reducible refine (State.lossOfCore_keeps h_stitch h_regs h_staged h_cmds h_holds h_msix h_sb h_cores h_ctxs h_wdog h_mem h_badLines h_chans h_repeatAge h_tclk h_emitEn h_ain h_spt h_awls h_reins h_hide h_tree h_axes h_skiver h_cams h_bed h_lanes h_time h_segs h_eths h_lamp h_power h_therm h_cal h_burn h_sec h_harn h_mark _).after ?_)
    | (with_reducible refine (State.isDown_keeps h_power _).after ?_)
    | (with_reducible refine (State.downNext_keeps h_power _ _).after ?_)
    | split
    | (intro)
    | (dsimp only)

/-- What State.latchClears leaves. -/
theorem State.latchClears_keeps {pm : Piece → Bool} (h_regs : pm .regs = true) (s : State) :
    Keeps pm s (State.latchClears s) := by
  unfold State.latchClears
  try dsimp only
  repeat' first
    | with_reducible exact Keeps.refl _ _
    | assumption
    | (with_reducible refine (State.setFld_keeps h_regs _ _ _).after ?_)
    | split
    | (intro)
    | (dsimp only)

/-- What State.powerUp leaves. -/
theorem State.powerUp_keeps {pm : Piece → Bool} (h_power : pm .power = true) (s : State) :
    Keeps pm s (State.powerUp s) := by
  unfold State.powerUp
  try dsimp only
  repeat' first
    | with_reducible exact Keeps.refl _ _
    | assumption
    | (with_reducible refine (State.onPower_keeps h_power _ _).after ?_)
    | split
    | (intro)
    | (dsimp only)

/-- What State.vbatElapsed leaves. -/
theorem State.vbatElapsed_keeps {pm : Piece → Bool} (h_regs : pm .regs = true) (h_fresh : pm .fresh = true) (s : State) :
    Keeps pm s (State.vbatElapsed s) := by
  unfold State.vbatElapsed
  try dsimp only
  repeat' first
    | with_reducible exact Keeps.refl _ _
    | assumption
    | (with_reducible refine (State.setReg_keeps h_regs _ _ _).after ?_)
    | (with_reducible refine (State.tookFree_keeps h_fresh _).after ?_)
    | split
    | (intro)
    | (dsimp only)

/-- What State.burnEvent leaves. -/
theorem State.burnEvent_keeps {pm : Piece → Bool} (h_regs : pm .regs = true) (h_msix : pm .msix = true) (h_sb : pm .sb = true) (s : State) (outcome failed : Nat) :
    Keeps pm s (State.burnEvent s outcome failed) := by
  unfold State.burnEvent
  try dsimp only
  repeat' first
    | with_reducible exact Keeps.refl _ _
    | assumption
    | (with_reducible refine (State.pushEvent_keeps h_regs h_msix h_sb _ _ _ _).after ?_)
    | split
    | (intro)
    | (dsimp only)

/-- What State.showSlice leaves. -/
theorem State.showSlice_keeps {pm : Piece → Bool} (h_regs : pm .regs = true) (s : State) (n result : Nat) :
    Keeps pm s (State.showSlice s n result) := by
  unfold State.showSlice
  try dsimp only
  repeat' first
    | with_reducible exact Keeps.refl _ _
    | assumption
    | (with_reducible refine (State.setReg_keeps h_regs _ _ _).after ?_)
    | split
    | (intro)
    | (dsimp only)

/-- What State.burnEnds leaves. -/
theorem State.burnEnds_keeps {pm : Piece → Bool} (h_regs : pm .regs = true) (h_msix : pm .msix = true) (h_sb : pm .sb = true) (h_burn : pm .burn = true) (s : State) :
    Keeps pm s (State.burnEnds s) := by
  unfold State.burnEnds
  try dsimp only
  repeat' first
    | with_reducible exact Keeps.refl _ _
    | assumption
    | (with_reducible refine (State.setFld_keeps h_regs _ _ _).after ?_)
    | (with_reducible refine (State.burnEvent_keeps h_regs h_msix h_sb _ _ _).after ?_)
    | split
    | (with_reducible refine (keeps_burn h_burn).after ?_)
    | (intro)
    | (dsimp only)

/-- What State.markNotRun leaves. -/
theorem State.markNotRun_keeps {pm : Piece → Bool} (h_regs : pm .regs = true) (h_burn : pm .burn = true) (s : State) (n : Nat) :
    Keeps pm s (State.markNotRun s n) := by
  unfold State.markNotRun
  try dsimp only
  repeat' first
    | with_reducible exact Keeps.refl _ _
    | assumption
    | (with_reducible refine (State.showSlice_keeps h_regs _ _ _).after ?_)
    | split
    | (with_reducible refine (keeps_burn h_burn).after ?_)
    | (intro)
    | (dsimp only)

/-- What State.burnNext leaves. -/
theorem State.burnNext_keeps {pm : Piece → Bool} (h_regs : pm .regs = true) (h_msix : pm .msix = true) (h_sb : pm .sb = true) (h_burn : pm .burn = true) (s : State) (z0 : List Nat) :
    Keeps pm s (State.burnNext s z0) := by
  fun_induction State.burnNext s z0
  all_goals (try dsimp +zetaDelta only at *)
  repeat' first
    | with_reducible exact Keeps.refl _ _
    | assumption
    | (with_reducible refine (State.setFld_keeps h_regs _ _ _).after ?_)
    | (with_reducible refine (State.burnEnds_keeps h_regs h_msix h_sb h_burn _).after ?_)
    | (with_reducible refine (State.markNotRun_keeps h_regs h_burn _ _).after ?_)
    | (with_reducible refine Keeps.trans ?_ (by assumption))
    | split
    | (with_reducible refine (keeps_burn h_burn).after ?_)
    | (intro)
    | (dsimp only)

/-- What State.burnStart leaves. -/
theorem State.burnStart_keeps {pm : Piece → Bool} (h_regs : pm .regs = true) (h_msix : pm .msix = true) (h_sb : pm .sb = true) (h_burn : pm .burn = true) (s : State) :
    Keeps pm s (State.burnStart s) := by
  unfold State.burnStart
  try dsimp only
  repeat' first
    | with_reducible exact Keeps.refl _ _
    | assumption
    | (with_reducible refine (State.setFld_keeps h_regs _ _ _).after ?_)
    | (with_reducible refine (State.burnNext_keeps h_regs h_msix h_sb h_burn _ _).after ?_)
    | split
    | (with_reducible refine (keeps_burn h_burn).after ?_)
    | (intro)
    | (dsimp only)

/-- What State.burnCancel leaves. -/
theorem State.burnCancel_keeps {pm : Piece → Bool} (h_regs : pm .regs = true) (h_msix : pm .msix = true) (h_sb : pm .sb = true) (h_burn : pm .burn = true) (s : State) :
    Keeps pm s (State.burnCancel s) := by
  unfold State.burnCancel
  try dsimp only
  repeat' first
    | with_reducible exact Keeps.refl _ _
    | assumption
    | (with_reducible refine (State.burnEnds_keeps h_regs h_msix h_sb h_burn _).after ?_)
    | (with_reducible refine (State.markNotRun_keeps h_regs h_burn _ _).after ?_)
    | (with_reducible refine (keeps_foldl ?_ _ _).after ?_)
    | split
    | (intro)
    | (dsimp only)

/-- What State.burnRun leaves. -/
theorem State.burnRun_keeps {pm : Piece → Bool} (h_regs : pm .regs = true) (h_msix : pm .msix = true) (h_sb : pm .sb = true) (h_burn : pm .burn = true) (s : State) :
    Keeps pm s (State.burnRun s) := by
  unfold State.burnRun
  try dsimp only
  repeat' first
    | with_reducible exact Keeps.refl _ _
    | assumption
    | (with_reducible refine (State.burnStart_keeps h_regs h_msix h_sb h_burn _).after ?_)
    | split
    | (intro)
    | (dsimp only)

/-- What State.writeBurnCtrl leaves. -/
theorem State.writeBurnCtrl_keeps {pm : Piece → Bool} (h_regs : pm .regs = true) (h_msix : pm .msix = true) (h_sb : pm .sb = true) (h_burn : pm .burn = true) (s : State) (val : Word) :
    Keeps pm s (State.writeBurnCtrl s val) := by
  unfold State.writeBurnCtrl
  try dsimp only
  repeat' first
    | with_reducible exact Keeps.refl _ _
    | assumption
    | (with_reducible refine (State.burnCancel_keeps h_regs h_msix h_sb h_burn _).after ?_)
    | (with_reducible refine (State.burnRun_keeps h_regs h_msix h_sb h_burn _).after ?_)
    | split
    | (intro)
    | (dsimp only)

/-- What State.pwrResult leaves. -/
theorem State.pwrResult_keeps {pm : Piece → Bool} (h_regs : pm .regs = true) (s : State) (r : Nat) :
    Keeps pm s (State.pwrResult s r) := by
  unfold State.pwrResult
  try dsimp only
  repeat' first
    | with_reducible exact Keeps.refl _ _
    | assumption
    | (with_reducible refine (State.setFld_keeps h_regs _ _ _).after ?_)
    | split
    | (intro)
    | (dsimp only)

/-- What State.shutDown leaves. -/
theorem State.shutDown_keeps {pm : Piece → Bool} (h_stitch : pm .stitch = true) (h_regs : pm .regs = true) (h_staged : pm .staged = true) (h_cmds : pm .cmds = true) (h_holds : pm .holds = true) (h_msix : pm .msix = true) (h_sb : pm .sb = true) (h_cores : pm .cores = true) (h_ctxs : pm .ctxs = true) (h_wdog : pm .wdog = true) (h_mem : pm .mem = true) (h_badLines : pm .badLines = true) (h_chans : pm .chans = true) (h_repeatAge : pm .repeatAge = true) (h_tclk : pm .tclk = true) (h_emitEn : pm .emitEn = true) (h_ain : pm .ain = true) (h_spt : pm .spt = true) (h_awls : pm .awls = true) (h_reins : pm .reins = true) (h_hide : pm .hide = true) (h_tree : pm .tree = true) (h_axes : pm .axes = true) (h_skiver : pm .skiver = true) (h_cams : pm .cams = true) (h_bed : pm .bed = true) (h_lanes : pm .lanes = true) (h_time : pm .time = true) (h_segs : pm .segs = true) (h_eths : pm .eths = true) (h_lamp : pm .lamp = true) (h_power : pm .power = true) (h_therm : pm .therm = true) (h_cal : pm .cal = true) (h_burn : pm .burn = true) (h_sec : pm .sec = true) (h_harn : pm .harn = true) (h_mark : pm .mark = true) (s : State) :
    Keeps pm s (State.shutDown s) := by
  unfold State.shutDown
  try dsimp only
  repeat' first
    | with_reducible exact Keeps.refl _ _
    | assumption
    | (with_reducible refine (State.lossOfCore_keeps h_stitch h_regs h_staged h_cmds h_holds h_msix h_sb h_cores h_ctxs h_wdog h_mem h_badLines h_chans h_repeatAge h_tclk h_emitEn h_ain h_spt h_awls h_reins h_hide h_tree h_axes h_skiver h_cams h_bed h_lanes h_time h_segs h_eths h_lamp h_power h_therm h_cal h_burn h_sec h_harn h_mark _).after ?_)
    | split
    | (intro)
    | (dsimp only)

/-- What State.cmdService leaves. -/
theorem State.cmdService_keeps {pm : Piece → Bool} (h_regs : pm .regs = true) (h_msix : pm .msix = true) (h_sb : pm .sb = true) (h_emitEn : pm .emitEn = true) (h_awls : pm .awls = true) (h_lanes : pm .lanes = true) (s : State) :
    Keeps pm s (State.cmdService s) := by
  unfold State.cmdService
  try dsimp only
  repeat' first
    | with_reducible exact Keeps.refl _ _
    | assumption
    | (with_reducible refine (State.toService_keeps h_regs h_msix h_sb h_emitEn h_awls h_lanes _).after ?_)
    | (with_reducible refine (State.pwrResult_keeps h_regs _ _).after ?_)
    | split
    | (intro)
    | (dsimp only)

/-- What State.cmdReady leaves. -/
theorem State.cmdReady_keeps {pm : Piece → Bool} (h_regs : pm .regs = true) (h_msix : pm .msix = true) (h_sb : pm .sb = true) (h_emitEn : pm .emitEn = true) (s : State) :
    Keeps pm s (State.cmdReady s) := by
  unfold State.cmdReady
  try dsimp only
  repeat' first
    | with_reducible exact Keeps.refl _ _
    | assumption
    | (with_reducible refine (State.setPower_keeps h_regs h_msix h_sb _ _).after ?_)
    | (with_reducible refine (State.emitOff_keeps h_emitEn _).after ?_)
    | (with_reducible refine (State.pwrResult_keeps h_regs _ _).after ?_)
    | split
    | (intro)
    | (dsimp only)

/-- What State.cmdRun leaves. -/
theorem State.cmdRun_keeps {pm : Piece → Bool} (h_regs : pm .regs = true) (h_msix : pm .msix = true) (h_sb : pm .sb = true) (s : State) :
    Keeps pm s (State.cmdRun s) := by
  unfold State.cmdRun
  try dsimp only
  repeat' first
    | with_reducible exact Keeps.refl _ _
    | assumption
    | (with_reducible refine (State.setPower_keeps h_regs h_msix h_sb _ _).after ?_)
    | (with_reducible refine (State.pwrResult_keeps h_regs _ _).after ?_)
    | split
    | (intro)
    | (dsimp only)

/-- What State.cmdShutdown leaves. -/
theorem State.cmdShutdown_keeps {pm : Piece → Bool} (h_stitch : pm .stitch = true) (h_regs : pm .regs = true) (h_staged : pm .staged = true) (h_cmds : pm .cmds = true) (h_holds : pm .holds = true) (h_msix : pm .msix = true) (h_sb : pm .sb = true) (h_cores : pm .cores = true) (h_ctxs : pm .ctxs = true) (h_wdog : pm .wdog = true) (h_mem : pm .mem = true) (h_badLines : pm .badLines = true) (h_chans : pm .chans = true) (h_repeatAge : pm .repeatAge = true) (h_tclk : pm .tclk = true) (h_emitEn : pm .emitEn = true) (h_ain : pm .ain = true) (h_spt : pm .spt = true) (h_awls : pm .awls = true) (h_reins : pm .reins = true) (h_hide : pm .hide = true) (h_tree : pm .tree = true) (h_axes : pm .axes = true) (h_skiver : pm .skiver = true) (h_cams : pm .cams = true) (h_bed : pm .bed = true) (h_lanes : pm .lanes = true) (h_time : pm .time = true) (h_segs : pm .segs = true) (h_eths : pm .eths = true) (h_lamp : pm .lamp = true) (h_power : pm .power = true) (h_therm : pm .therm = true) (h_cal : pm .cal = true) (h_burn : pm .burn = true) (h_sec : pm .sec = true) (h_harn : pm .harn = true) (h_mark : pm .mark = true) (s : State) :
    Keeps pm s (State.cmdShutdown s) := by
  unfold State.cmdShutdown
  try dsimp only
  repeat' first
    | with_reducible exact Keeps.refl _ _
    | assumption
    | (with_reducible refine (State.toService_keeps h_regs h_msix h_sb h_emitEn h_awls h_lanes _).after ?_)
    | (with_reducible refine (State.onPower_keeps h_power _ _).after ?_)
    | (with_reducible refine (State.burnStart_keeps h_regs h_msix h_sb h_burn _).after ?_)
    | (with_reducible refine (State.burnCancel_keeps h_regs h_msix h_sb h_burn _).after ?_)
    | (with_reducible refine (State.pwrResult_keeps h_regs _ _).after ?_)
    | (with_reducible refine (State.shutDown_keeps h_stitch h_regs h_staged h_cmds h_holds h_msix h_sb h_cores h_ctxs h_wdog h_mem h_badLines h_chans h_repeatAge h_tclk h_emitEn h_ain h_spt h_awls h_reins h_hide h_tree h_axes h_skiver h_cams h_bed h_lanes h_time h_segs h_eths h_lamp h_power h_therm h_cal h_burn h_sec h_harn h_mark _).after ?_)
    | split
    | (intro)
    | (dsimp only)

/-- What State.cmdCancel leaves. -/
theorem State.cmdCancel_keeps {pm : Piece → Bool} (h_regs : pm .regs = true) (h_msix : pm .msix = true) (h_sb : pm .sb = true) (h_power : pm .power = true) (h_burn : pm .burn = true) (s : State) :
    Keeps pm s (State.cmdCancel s) := by
  unfold State.cmdCancel
  try dsimp only
  repeat' first
    | with_reducible exact Keeps.refl _ _
    | assumption
    | (with_reducible refine (State.onPower_keeps h_power _ _).after ?_)
    | (with_reducible refine (State.burnCancel_keeps h_regs h_msix h_sb h_burn _).after ?_)
    | (with_reducible refine (State.pwrResult_keeps h_regs _ _).after ?_)
    | split
    | (intro)
    | (dsimp only)

/-- What State.softReset leaves. -/
theorem State.softReset_keeps {pm : Piece → Bool} (h_stitch : pm .stitch = true) (h_regs : pm .regs = true) (h_staged : pm .staged = true) (h_cmds : pm .cmds = true) (h_holds : pm .holds = true) (h_msix : pm .msix = true) (h_sb : pm .sb = true) (h_cores : pm .cores = true) (h_ctxs : pm .ctxs = true) (h_wdog : pm .wdog = true) (h_mem : pm .mem = true) (h_badLines : pm .badLines = true) (h_chans : pm .chans = true) (h_repeatAge : pm .repeatAge = true) (h_tclk : pm .tclk = true) (h_emitEn : pm .emitEn = true) (h_ain : pm .ain = true) (h_spt : pm .spt = true) (h_awls : pm .awls = true) (h_reins : pm .reins = true) (h_hide : pm .hide = true) (h_tree : pm .tree = true) (h_axes : pm .axes = true) (h_skiver : pm .skiver = true) (h_cams : pm .cams = true) (h_bed : pm .bed = true) (h_lanes : pm .lanes = true) (h_time : pm .time = true) (h_segs : pm .segs = true) (h_eths : pm .eths = true) (h_lamp : pm .lamp = true) (h_power : pm .power = true) (h_therm : pm .therm = true) (h_cal : pm .cal = true) (h_burn : pm .burn = true) (h_sec : pm .sec = true) (h_harn : pm .harn = true) (h_mark : pm .mark = true) (s : State) (kind : Nat) :
    Keeps pm s (State.softReset s kind) := by
  unfold State.softReset
  try dsimp only
  repeat' first
    | with_reducible exact Keeps.refl _ _
    | assumption
    | (with_reducible refine (State.coreReset_keeps h_stitch h_regs h_staged h_cmds h_holds h_msix h_sb h_cores h_ctxs h_wdog h_mem h_badLines h_chans h_repeatAge h_tclk h_emitEn h_ain h_spt h_awls h_reins h_hide h_tree h_axes h_skiver h_cams h_bed h_lanes h_time h_segs h_eths h_lamp h_power h_therm h_cal h_burn h_sec h_harn h_mark _ _).after ?_)
    | (with_reducible refine (State.setKind_keeps h_regs _ _).after ?_)
    | (with_reducible refine (State.release_keeps h_regs h_cores h_power _).after ?_)
    | split
    | (intro)
    | (dsimp only)

/-- What State.powerCommand leaves. -/
theorem State.powerCommand_keeps {pm : Piece → Bool} (h_stitch : pm .stitch = true) (h_regs : pm .regs = true) (h_staged : pm .staged = true) (h_cmds : pm .cmds = true) (h_holds : pm .holds = true) (h_msix : pm .msix = true) (h_sb : pm .sb = true) (h_cores : pm .cores = true) (h_ctxs : pm .ctxs = true) (h_wdog : pm .wdog = true) (h_mem : pm .mem = true) (h_badLines : pm .badLines = true) (h_chans : pm .chans = true) (h_repeatAge : pm .repeatAge = true) (h_tclk : pm .tclk = true) (h_emitEn : pm .emitEn = true) (h_ain : pm .ain = true) (h_spt : pm .spt = true) (h_awls : pm .awls = true) (h_reins : pm .reins = true) (h_hide : pm .hide = true) (h_tree : pm .tree = true) (h_axes : pm .axes = true) (h_skiver : pm .skiver = true) (h_cams : pm .cams = true) (h_bed : pm .bed = true) (h_lanes : pm .lanes = true) (h_time : pm .time = true) (h_segs : pm .segs = true) (h_eths : pm .eths = true) (h_lamp : pm .lamp = true) (h_power : pm .power = true) (h_therm : pm .therm = true) (h_cal : pm .cal = true) (h_burn : pm .burn = true) (h_sec : pm .sec = true) (h_harn : pm .harn = true) (h_mark : pm .mark = true) (s : State) (c : Nat) :
    Keeps pm s (State.powerCommand s c) := by
  unfold State.powerCommand
  try dsimp only
  repeat' first
    | with_reducible exact Keeps.refl _ _
    | assumption
    | (with_reducible refine (State.cmdService_keeps h_regs h_msix h_sb h_emitEn h_awls h_lanes _).after ?_)
    | (with_reducible refine (State.cmdReady_keeps h_regs h_msix h_sb h_emitEn _).after ?_)
    | (with_reducible refine (State.cmdRun_keeps h_regs h_msix h_sb _).after ?_)
    | (with_reducible refine (State.cmdShutdown_keeps h_stitch h_regs h_staged h_cmds h_holds h_msix h_sb h_cores h_ctxs h_wdog h_mem h_badLines h_chans h_repeatAge h_tclk h_emitEn h_ain h_spt h_awls h_reins h_hide h_tree h_axes h_skiver h_cams h_bed h_lanes h_time h_segs h_eths h_lamp h_power h_therm h_cal h_burn h_sec h_harn h_mark _).after ?_)
    | (with_reducible refine (State.cmdCancel_keeps h_regs h_msix h_sb h_power h_burn _).after ?_)
    | (with_reducible refine (State.softReset_keeps h_stitch h_regs h_staged h_cmds h_holds h_msix h_sb h_cores h_ctxs h_wdog h_mem h_badLines h_chans h_repeatAge h_tclk h_emitEn h_ain h_spt h_awls h_reins h_hide h_tree h_axes h_skiver h_cams h_bed h_lanes h_time h_segs h_eths h_lamp h_power h_therm h_cal h_burn h_sec h_harn h_mark _ _).after ?_)
    | split
    | (intro)
    | (dsimp only)

/-- What State.powerRow leaves. -/
theorem State.powerRow_keeps {pm : Piece → Bool} (h_stitch : pm .stitch = true) (h_regs : pm .regs = true) (h_staged : pm .staged = true) (h_cmds : pm .cmds = true) (h_holds : pm .holds = true) (h_msix : pm .msix = true) (h_sb : pm .sb = true) (h_cores : pm .cores = true) (h_ctxs : pm .ctxs = true) (h_wdog : pm .wdog = true) (h_mem : pm .mem = true) (h_badLines : pm .badLines = true) (h_chans : pm .chans = true) (h_repeatAge : pm .repeatAge = true) (h_tclk : pm .tclk = true) (h_emitEn : pm .emitEn = true) (h_ain : pm .ain = true) (h_spt : pm .spt = true) (h_awls : pm .awls = true) (h_reins : pm .reins = true) (h_hide : pm .hide = true) (h_tree : pm .tree = true) (h_axes : pm .axes = true) (h_skiver : pm .skiver = true) (h_cams : pm .cams = true) (h_bed : pm .bed = true) (h_lanes : pm .lanes = true) (h_time : pm .time = true) (h_segs : pm .segs = true) (h_eths : pm .eths = true) (h_lamp : pm .lamp = true) (h_power : pm .power = true) (h_therm : pm .therm = true) (h_cal : pm .cal = true) (h_burn : pm .burn = true) (h_sec : pm .sec = true) (h_harn : pm .harn = true) (h_mark : pm .mark = true) (s : State) (c : Nat) :
    Keeps pm s (State.powerRow s c) := by
  unfold State.powerRow
  try dsimp only
  repeat' first
    | with_reducible exact Keeps.refl _ _
    | assumption
    | (with_reducible refine (State.powerCommand_keeps h_stitch h_regs h_staged h_cmds h_holds h_msix h_sb h_cores h_ctxs h_wdog h_mem h_badLines h_chans h_repeatAge h_tclk h_emitEn h_ain h_spt h_awls h_reins h_hide h_tree h_axes h_skiver h_cams h_bed h_lanes h_time h_segs h_eths h_lamp h_power h_therm h_cal h_burn h_sec h_harn h_mark _ _).after ?_)
    | split
    | (intro)
    | (dsimp only)

/-- What State.bootTest leaves. -/
theorem State.bootTest_keeps {pm : Piece → Bool} (h_regs : pm .regs = true) (s : State) (testOk : Bool) :
    Keeps pm s (State.bootTest s testOk) := by
  unfold State.bootTest
  try dsimp only
  repeat' first
    | with_reducible exact Keeps.refl _ _
    | assumption
    | (with_reducible refine (State.setFld_keeps h_regs _ _ _).after ?_)
    | split
    | (intro)
    | (dsimp only)

/-- What State.bootFrom leaves. -/
theorem State.bootFrom_keeps {pm : Piece → Bool} (h_regs : pm .regs = true) (h_msix : pm .msix = true) (h_sb : pm .sb = true) (h_ctxs : pm .ctxs = true) (h_power : pm .power = true) (h_cal : pm .cal = true) (s : State) (slot : Nat) (h : ImageHdr) (testOk : Bool) :
    Keeps pm s (State.bootFrom s slot h testOk) := by
  unfold State.bootFrom
  try dsimp only
  repeat' first
    | with_reducible exact Keeps.refl _ _
    | assumption
    | (with_reducible refine (State.setFld_keeps h_regs _ _ _).after ?_)
    | (with_reducible refine (State.pwrEvent_keeps h_regs h_msix h_sb _ _ _ _).after ?_)
    | (with_reducible refine (State.setPower_keeps h_regs h_msix h_sb _ _).after ?_)
    | (with_reducible refine (State.secEvent_keeps h_regs h_msix h_sb _ _ _).after ?_)
    | (with_reducible refine (State.calBoot_keeps h_regs h_cal _).after ?_)
    | (with_reducible refine (State.calLoad_keeps h_regs h_cal _).after ?_)
    | (with_reducible refine (State.wakeContexts_keeps h_regs h_ctxs _ _).after ?_)
    | (with_reducible refine (State.onPower_keeps h_power _ _).after ?_)
    | (with_reducible refine (State.bootTest_keeps h_regs _ _).after ?_)
    | (with_reducible refine (keeps_foldl ?_ _ _).after ?_)
    | split
    | (intro)
    | (dsimp only)

/-- What State.avsTarget leaves. -/
theorem State.avsTarget_keeps {pm : Piece → Bool} (h_power : pm .power = true) (s : State) (mv good : Nat) :
    Keeps pm s (State.avsTarget s mv good) := by
  unfold State.avsTarget
  try dsimp only
  repeat' first
    | with_reducible exact Keeps.refl _ _
    | assumption
    | (with_reducible refine (State.onPower_keeps h_power _ _).after ?_)
    | split
    | (intro)
    | (dsimp only)

/-- What State.avsStops leaves. -/
theorem State.avsStops_keeps {pm : Piece → Bool} (h_regs : pm .regs = true) (h_msix : pm .msix = true) (h_sb : pm .sb = true) (h_power : pm .power = true) (s : State) :
    Keeps pm s (State.avsStops s) := by
  unfold State.avsStops
  try dsimp only
  repeat' first
    | with_reducible exact Keeps.refl _ _
    | assumption
    | (with_reducible refine (State.setFld_keeps h_regs _ _ _).after ?_)
    | (with_reducible refine (State.pwrEvent_keeps h_regs h_msix h_sb _ _ _ _).after ?_)
    | (with_reducible refine (State.onPower_keeps h_power _ _).after ?_)
    | split
    | (intro)
    | (dsimp only)

end Sys2Proof.Machine
end

