-- ==== Sys2Proof/Laws/KeepsSecure.lean ====
section
/-! SUPPORT. What each operation of Machine/Secure.lean leaves: the pieces of the state that it does not name, the part, and
the canonical form. -/

namespace Sys2Proof.Machine

/-- What State.eraseSecrets leaves. -/
theorem State.eraseSecrets_keeps {pm : Piece → Bool} (h_regs : pm .regs = true) (h_sec : pm .sec = true) (s : State) :
    Keeps pm s (State.eraseSecrets s) := by
  unfold State.eraseSecrets
  try dsimp only
  repeat' first
    | with_reducible exact Keeps.refl _ _
    | assumption
    | (with_reducible refine (State.setFld_keeps h_regs _ _ _).after ?_)
    | (with_reducible refine (State.onSec_keeps h_sec _ _).after ?_)
    | split
    | (intro)
    | (dsimp only)

/-- What State.setSecret leaves. -/
theorem State.setSecret_keeps {pm : Piece → Bool} (h_regs : pm .regs = true) (h_sec : pm .sec = true) (s : State) (i : Nat) (ws : List Word) (valid : Bool) :
    Keeps pm s (State.setSecret s i ws valid) := by
  unfold State.setSecret
  try dsimp only
  repeat' first
    | with_reducible exact Keeps.refl _ _
    | assumption
    | (with_reducible refine (State.setFld_keeps h_regs _ _ _).after ?_)
    | (with_reducible refine (State.onSec_keeps h_sec _ _).after ?_)
    | split
    | (intro)
    | (dsimp only)

/-- What State.setRegs leaves. -/
theorem State.setRegs_keeps {pm : Piece → Bool} (h_regs : pm .regs = true) (s : State) (a : Nat) (z0 : List Word) :
    Keeps pm s (State.setRegs s a z0) := by
  fun_induction State.setRegs s a z0
  all_goals (try dsimp +zetaDelta only at *)
  repeat' first
    | with_reducible exact Keeps.refl _ _
    | assumption
    | (with_reducible refine (State.setReg_keeps h_regs _ _ _).after ?_)
    | (with_reducible refine Keeps.trans ?_ (by assumption))
    | split
    | (intro)
    | (dsimp only)

/-- What State.keyOp leaves. -/
theorem State.keyOp_keeps {pm : Piece → Bool} (h_regs : pm .regs = true) (h_sec : pm .sec = true) (s : State) (val : Word) :
    Keeps pm s (State.keyOp s val).1 := by
  unfold State.keyOp
  try dsimp only
  repeat' first
    | with_reducible exact Keeps.refl _ _
    | assumption
    | (with_reducible refine (State.setFld_keeps h_regs _ _ _).after ?_)
    | (with_reducible refine (State.stage_keeps h_staged _ _ _).after ?_)
    | (with_reducible refine (State.onSec_keeps h_sec _ _).after ?_)
    | (with_reducible refine (State.setSecret_keeps h_regs h_sec _ _ _ _).after ?_)
    | split
    | (intro)
    | (dsimp only)

/-- What State.keyOp leaves, its answer taken apart. -/
theorem State.keyOp_keeps_eq {pm : Piece → Bool} (h_regs : pm .regs = true) (h_sec : pm .sec = true) (s : State) (val : Word) {t : State} {r : Nat}
    (e : State.keyOp s val = (t, r)) : Keeps pm s t := by
  have q := State.keyOp_keeps (pm := pm) h_regs h_sec s val
  rw [e] at q
  exact q

/-- What State.keyResult leaves. -/
theorem State.keyResult_keeps {pm : Piece → Bool} (h_regs : pm .regs = true) (s : State) (r : Nat) :
    Keeps pm s (State.keyResult s r) := by
  unfold State.keyResult
  try dsimp only
  repeat' first
    | with_reducible exact Keeps.refl _ _
    | assumption
    | (with_reducible refine (State.setFld_keeps h_regs _ _ _).after ?_)
    | split
    | (intro)
    | (dsimp only)

/-- What State.writeKeyCmd leaves. -/
theorem State.writeKeyCmd_keeps {pm : Piece → Bool} (h_regs : pm .regs = true) (h_msix : pm .msix = true) (h_sb : pm .sb = true) (h_repeatAge : pm .repeatAge = true) (h_hide : pm .hide = true) (h_sec : pm .sec = true) (s : State) (val : Word) :
    Keeps pm s (State.writeKeyCmd s val) := by
  unfold State.writeKeyCmd
  try dsimp only
  repeat' first
    | with_reducible exact Keeps.refl _ _
    | assumption
    | (with_reducible refine (State.setReg_keeps h_regs _ _ _).after ?_)
    | (with_reducible refine (State.setFld_keeps h_regs _ _ _).after ?_)
    | (with_reducible refine (State.useBuf_keeps h_regs h_msix h_sb h_repeatAge h_hide _ _ _).after ?_)
    | (with_reducible refine (State.guardRequest_keeps h_regs h_sec _ _ _ _).after ?_)
    | (with_reducible refine (State.setRegs_keeps h_regs _ _ _).after ?_)
    | (with_reducible refine (State.keyResult_keeps h_regs _ _).after ?_)
    | split
    | (intro)
    | (dsimp only)

/-- What State.writeDebug leaves. -/
theorem State.writeDebug_keeps {pm : Piece → Bool} (h_regs : pm .regs = true) (h_sec : pm .sec = true) (s : State) (val : Word) :
    Keeps pm s (State.writeDebug s val) := by
  unfold State.writeDebug
  try dsimp only
  repeat' first
    | with_reducible exact Keeps.refl _ _
    | assumption
    | (with_reducible refine (State.setFld_keeps h_regs _ _ _).after ?_)
    | (with_reducible refine (State.guardRequest_keeps h_regs h_sec _ _ _ _).after ?_)
    | split
    | (intro)
    | (dsimp only)

/-- What State.writeGuarded leaves. -/
theorem State.writeGuarded_keeps {pm : Piece → Bool} (h_regs : pm .regs = true) (h_msix : pm .msix = true) (h_sb : pm .sb = true) (h_sec : pm .sec = true) (s : State) (src : Source) (a : Nat) (val : Word) :
    Keeps pm s (State.writeGuarded s src a val) := by
  unfold State.writeGuarded
  try dsimp only
  repeat' first
    | with_reducible exact Keeps.refl _ _
    | assumption
    | (with_reducible refine (State.busyWrite_keeps h_regs h_msix h_sb _ _ _).after ?_)
    | (with_reducible refine (State.guardRequest_keeps h_regs h_sec _ _ _ _).after ?_)
    | split
    | (intro)
    | (dsimp only)

/-- What State.writeResign leaves. -/
theorem State.writeResign_keeps {pm : Piece → Bool} (h_regs : pm .regs = true) (h_sec : pm .sec = true) (s : State) :
    Keeps pm s (State.writeResign s) := by
  unfold State.writeResign
  try dsimp only
  repeat' first
    | with_reducible exact Keeps.refl _ _
    | assumption
    | (with_reducible refine (State.setFld_keeps h_regs _ _ _).after ?_)
    | (with_reducible refine (State.guardRequest_keeps h_regs h_sec _ _ _ _).after ?_)
    | split
    | (intro)
    | (dsimp only)

/-- What State.imageResult leaves. -/
theorem State.imageResult_keeps {pm : Piece → Bool} (h_regs : pm .regs = true) (s : State) (r : Nat) :
    Keeps pm s (State.imageResult s r) := by
  unfold State.imageResult
  try dsimp only
  repeat' first
    | with_reducible exact Keeps.refl _ _
    | assumption
    | (with_reducible refine (State.setFld_keeps h_regs _ _ _).after ?_)
    | split
    | (intro)
    | (dsimp only)

/-- What State.writeImgCmd leaves. -/
theorem State.writeImgCmd_keeps {pm : Piece → Bool} (h_regs : pm .regs = true) (h_msix : pm .msix = true) (h_sb : pm .sb = true) (h_sec : pm .sec = true) (s : State) (src : Source) (val : Word) :
    Keeps pm s (State.writeImgCmd s src val) := by
  unfold State.writeImgCmd
  try dsimp only
  repeat' first
    | with_reducible exact Keeps.refl _ _
    | assumption
    | (with_reducible refine (State.setReg_keeps h_regs _ _ _).after ?_)
    | (with_reducible refine (State.setFld_keeps h_regs _ _ _).after ?_)
    | (with_reducible refine (State.busyWrite_keeps h_regs h_msix h_sb _ _ _).after ?_)
    | (with_reducible refine (State.onSec_keeps h_sec _ _).after ?_)
    | (with_reducible refine (State.imageResult_keeps h_regs _ _).after ?_)
    | split
    | (intro)
    | (dsimp only)

/-- What State.grantEffect leaves. -/
theorem State.grantEffect_keeps {pm : Piece → Bool} (h_regs : pm .regs = true) (h_msix : pm .msix = true) (h_sb : pm .sb = true) (h_repeatAge : pm .repeatAge = true) (h_reins : pm .reins = true) (h_hide : pm .hide = true) (h_cal : pm .cal = true) (h_sec : pm .sec = true) (h_harn : pm .harn = true) (s : State) (q : Guarded) :
    Keeps pm s (State.grantEffect s q).1 := by
  unfold State.grantEffect
  try dsimp only
  repeat' first
    | with_reducible exact Keeps.refl _ _
    | assumption
    | (with_reducible refine (State.setReg_keeps h_regs _ _ _).after ?_)
    | (with_reducible refine (State.setFld_keeps h_regs _ _ _).after ?_)
    | (with_reducible refine (State.setRein_keeps h_reins _ _ _).after ?_)
    | (with_reducible refine (State.secEvent_keeps h_regs h_msix h_sb _ _ _).after ?_)
    | (with_reducible refine (State.geoCommit_keeps h_regs h_msix h_sb h_repeatAge h_hide h_cal _ _).after ?_)
    | (with_reducible refine (State.eraseSecrets_keeps h_regs h_sec _).after ?_)
    | (with_reducible refine (State.keyOp_keeps h_regs h_sec _ _).after ?_)
    | (with_reducible refine (State.keyOp_keeps_eq h_regs h_sec _ _ (by assumption)).after ?_)
    | (with_reducible refine (State.keyResult_keeps h_regs _ _).after ?_)
    | split
    | (with_reducible refine (keeps_harn h_harn).after ?_)
    | (intro)
    | (dsimp only)

/-- What State.grantEffect leaves, its answer taken apart. -/
theorem State.grantEffect_keeps_eq {pm : Piece → Bool} (h_regs : pm .regs = true) (h_msix : pm .msix = true) (h_sb : pm .sb = true) (h_repeatAge : pm .repeatAge = true) (h_reins : pm .reins = true) (h_hide : pm .hide = true) (h_cal : pm .cal = true) (h_sec : pm .sec = true) (h_harn : pm .harn = true) (s : State) (q : Guarded) {t : State} {r : Nat}
    (e : State.grantEffect s q = (t, r)) : Keeps pm s t := by
  have q := State.grantEffect_keeps (pm := pm) h_regs h_msix h_sb h_repeatAge h_reins h_hide h_cal h_sec h_harn s q
  rw [e] at q
  exact q

/-- What State.grantBoundary leaves. -/
theorem State.grantBoundary_keeps {pm : Piece → Bool} (h_regs : pm .regs = true) (h_msix : pm .msix = true) (h_sb : pm .sb = true) (h_repeatAge : pm .repeatAge = true) (h_reins : pm .reins = true) (h_hide : pm .hide = true) (h_cal : pm .cal = true) (h_sec : pm .sec = true) (h_harn : pm .harn = true) (s : State) :
    Keeps pm s (State.grantBoundary s) := by
  unfold State.grantBoundary
  try dsimp only
  repeat' first
    | with_reducible exact Keeps.refl _ _
    | assumption
    | (with_reducible refine (State.secEvent_keeps h_regs h_msix h_sb _ _ _).after ?_)
    | (with_reducible refine (State.guardStartOff_keeps h_regs _ _).after ?_)
    | (with_reducible refine (State.guardEnds_keeps h_regs h_sec _ _).after ?_)
    | (with_reducible refine (State.grantEffect_keeps h_regs h_msix h_sb h_repeatAge h_reins h_hide h_cal h_sec h_harn _ _).after ?_)
    | (with_reducible refine (State.grantEffect_keeps_eq h_regs h_msix h_sb h_repeatAge h_reins h_hide h_cal h_sec h_harn _ _ (by assumption)).after ?_)
    | split
    | (intro)
    | (dsimp only)

/-- What State.writePstoreCmd leaves. -/
theorem State.writePstoreCmd_keeps {pm : Piece → Bool} (h_regs : pm .regs = true) (h_msix : pm .msix = true) (h_sb : pm .sb = true) (h_sec : pm .sec = true) (s : State) (src : Source) (val : Word) :
    Keeps pm s (State.writePstoreCmd s src val) := by
  unfold State.writePstoreCmd
  try dsimp only
  repeat' first
    | with_reducible exact Keeps.refl _ _
    | assumption
    | (with_reducible refine (State.setFld_keeps h_regs _ _ _).after ?_)
    | (with_reducible refine (State.busyWrite_keeps h_regs h_msix h_sb _ _ _).after ?_)
    | (with_reducible refine (State.onSec_keeps h_sec _ _).after ?_)
    | split
    | (intro)
    | (dsimp only)

/-- What State.ilkBoundary leaves. -/
theorem State.ilkBoundary_keeps {pm : Piece → Bool} (h_sec : pm .sec = true) (s : State) (n : Nat) :
    Keeps pm s (State.ilkBoundary s n) := by
  unfold State.ilkBoundary
  try dsimp only
  repeat' first
    | with_reducible exact Keeps.refl _ _
    | assumption
    | (with_reducible refine (State.onSec_keeps h_sec _ _).after ?_)
    | split
    | (intro)
    | (dsimp only)

end Sys2Proof.Machine
end

