-- ==== Sys2Proof/Laws/KeepsHarn.lean ====
section
/-! SUPPORT. What each operation of Machine/Harn.lean leaves: the pieces of the state that it does not name, the part, and
the canonical form. -/

namespace Sys2Proof.Machine

/-- What State.onHarn leaves. -/
theorem State.onHarn_keeps {pm : Piece → Bool} (h_harn : pm .harn = true) (s : State) (f : Harn → Harn) :
    Keeps pm s (State.onHarn s f) := by
  unfold State.onHarn
  try dsimp only
  repeat' first
    | with_reducible exact Keeps.refl _ _
    | assumption
    | split
    | (with_reducible refine (keeps_harn h_harn).after ?_)
    | (intro)
    | (dsimp only)

/-- What State.setHarn leaves. -/
theorem State.setHarn_keeps {pm : Piece → Bool} (h_regs : pm .regs = true) (s : State) (st : Nat) :
    Keeps pm s (State.setHarn s st) := by
  unfold State.setHarn
  try dsimp only
  repeat' first
    | with_reducible exact Keeps.refl _ _
    | assumption
    | (with_reducible refine (State.setFld_keeps h_regs _ _ _).after ?_)
    | split
    | (intro)
    | (dsimp only)

/-- What State.harnResult leaves. -/
theorem State.harnResult_keeps {pm : Piece → Bool} (h_regs : pm .regs = true) (s : State) (r : Nat) :
    Keeps pm s (State.harnResult s r) := by
  unfold State.harnResult
  try dsimp only
  repeat' first
    | with_reducible exact Keeps.refl _ _
    | assumption
    | (with_reducible refine (State.setFld_keeps h_regs _ _ _).after ?_)
    | split
    | (intro)
    | (dsimp only)

/-- What State.harnEvent leaves. -/
theorem State.harnEvent_keeps {pm : Piece → Bool} (h_regs : pm .regs = true) (h_msix : pm .msix = true) (h_sb : pm .sb = true) (s : State) (code low : Nat) (stitch : Word) :
    Keeps pm s (State.harnEvent s code low stitch) := by
  unfold State.harnEvent
  try dsimp only
  repeat' first
    | with_reducible exact Keeps.refl _ _
    | assumption
    | (with_reducible refine (State.pushEvent_keeps h_regs h_msix h_sb _ _ _ _).after ?_)
    | split
    | (intro)
    | (dsimp only)

/-- What State.harnTrain leaves. -/
theorem State.harnTrain_keeps {pm : Piece → Bool} (h_regs : pm .regs = true) (h_msix : pm .msix = true) (h_sb : pm .sb = true) (h_lanes : pm .lanes = true) (h_therm : pm .therm = true) (s : State) (on : Bool) :
    Keeps pm s (State.harnTrain s on) := by
  unfold State.harnTrain
  try dsimp only
  repeat' first
    | with_reducible exact Keeps.refl _ _
    | assumption
    | (with_reducible refine (State.writeLaneCfg_keeps h_regs h_msix h_sb h_lanes h_therm _ _ _ _).after ?_)
    | (with_reducible refine (keeps_foldl ?_ _ _).after ?_)
    | split
    | (intro)
    | (dsimp only)

/-- What State.writeHarnCfg leaves. -/
theorem State.writeHarnCfg_keeps {pm : Piece → Bool} (h_regs : pm .regs = true) (h_msix : pm .msix = true) (h_sb : pm .sb = true) (h_lanes : pm .lanes = true) (h_therm : pm .therm = true) (h_harn : pm .harn = true) (s : State) (val : Word) :
    Keeps pm s (State.writeHarnCfg s val) := by
  unfold State.writeHarnCfg
  try dsimp only
  repeat' first
    | with_reducible exact Keeps.refl _ _
    | assumption
    | (with_reducible refine (State.setFld_keeps h_regs _ _ _).after ?_)
    | (with_reducible refine (State.onHarn_keeps h_harn _ _).after ?_)
    | (with_reducible refine (State.setHarn_keeps h_regs _ _).after ?_)
    | (with_reducible refine (State.harnResult_keeps h_regs _ _).after ?_)
    | (with_reducible refine (State.harnTrain_keeps h_regs h_msix h_sb h_lanes h_therm _ _).after ?_)
    | split
    | (intro)
    | (dsimp only)

/-- What State.joinFails leaves. -/
theorem State.joinFails_keeps {pm : Piece → Bool} (h_regs : pm .regs = true) (h_msix : pm .msix = true) (h_sb : pm .sb = true) (s : State) (r : Nat) :
    Keeps pm s (State.joinFails s r) := by
  unfold State.joinFails
  try dsimp only
  repeat' first
    | with_reducible exact Keeps.refl _ _
    | assumption
    | (with_reducible refine (State.setHarn_keeps h_regs _ _).after ?_)
    | (with_reducible refine (State.harnResult_keeps h_regs _ _).after ?_)
    | (with_reducible refine (State.harnEvent_keeps h_regs h_msix h_sb _ _ _ _).after ?_)
    | split
    | (intro)
    | (dsimp only)

/-- What State.showCopyLeft leaves. -/
theorem State.showCopyLeft_keeps {pm : Piece → Bool} (h_regs : pm .regs = true) (s : State) :
    Keeps pm s (State.showCopyLeft s) := by
  unfold State.showCopyLeft
  try dsimp only
  repeat' first
    | with_reducible exact Keeps.refl _ _
    | assumption
    | (with_reducible refine (State.setFld_keeps h_regs _ _ _).after ?_)
    | split
    | (intro)
    | (dsimp only)

/-- What State.joinStarts leaves. -/
theorem State.joinStarts_keeps {pm : Piece → Bool} (h_regs : pm .regs = true) (s : State) :
    Keeps pm s (State.joinStarts s) := by
  unfold State.joinStarts
  try dsimp only
  repeat' first
    | with_reducible exact Keeps.refl _ _
    | assumption
    | (with_reducible refine (State.setHarn_keeps h_regs _ _).after ?_)
    | (with_reducible refine (State.harnResult_keeps h_regs _ _).after ?_)
    | split
    | (intro)
    | (dsimp only)

/-- What State.copyStream leaves. -/
theorem State.copyStream_keeps {pm : Piece → Bool} (h_regs : pm .regs = true) (h_fresh : pm .fresh = true) (h_sb : pm .sb = true) (h_hide : pm .hide = true) (s : State) (h : Word) (cls size : Nat) (spill : Bool) (off : Nat) (w : PWord) :
    Keeps pm s (State.copyStream s h cls size spill off w) := by
  unfold State.copyStream
  try dsimp only
  repeat' first
    | with_reducible exact Keeps.refl _ _
    | assumption
    | (with_reducible refine (State.bumpBy_keeps h_regs _ _ _).after ?_)
    | (with_reducible refine (State.tookFree_keeps h_fresh _).after ?_)
    | (with_reducible refine (State.setStream_keeps h_regs h_sb _ _ _).after ?_)
    | (with_reducible refine (State.setBufWord_keeps h_regs h_sb h_hide _ _ _ _).after ?_)
    | split
    | (intro)
    | (dsimp only)

/-- What State.copyOne leaves. -/
theorem State.copyOne_keeps {pm : Piece → Bool} (h_stitch : pm .stitch = true) (h_regs : pm .regs = true) (h_fresh : pm .fresh = true) (h_sb : pm .sb = true) (h_cores : pm .cores = true) (h_ctxs : pm .ctxs = true) (h_mem : pm .mem = true) (h_badLines : pm .badLines = true) (h_hide : pm .hide = true) (h_harn : pm .harn = true) (s : State) (data : CopyData) :
    Keeps pm s (State.copyOne s data) := by
  unfold State.copyOne
  try dsimp only
  repeat' first
    | with_reducible exact Keeps.refl _ _
    | assumption
    | (with_reducible refine (State.setReg_keeps h_regs _ _ _).after ?_)
    | (with_reducible refine (State.setCore_keeps h_cores _ _ _).after ?_)
    | (with_reducible refine (State.setCtx_keeps h_ctxs _ _ _ _).after ?_)
    | (with_reducible refine (State.storeLine_keeps h_mem h_badLines _ _ _).after ?_)
    | (with_reducible refine (State.onHarn_keeps h_harn _ _).after ?_)
    | (with_reducible refine (State.showCopyLeft_keeps h_regs _).after ?_)
    | (with_reducible refine (State.copyStream_keeps h_regs h_fresh h_sb h_hide _ _ _ _ _ _ _).after ?_)
    | split
    | (with_reducible refine (keeps_hide h_hide).after ?_)
    | (with_reducible refine (keeps_stitch h_stitch).after ?_)
    | (intro)
    | (dsimp only)

/-- What State.harnLeave leaves. -/
theorem State.harnLeave_keeps {pm : Piece → Bool} (h_regs : pm .regs = true) (s : State) :
    Keeps pm s (State.harnLeave s) := by
  unfold State.harnLeave
  try dsimp only
  repeat' first
    | with_reducible exact Keeps.refl _ _
    | assumption
    | (with_reducible refine (State.setHarn_keeps h_regs _ _).after ?_)
    | (with_reducible refine (State.harnResult_keeps h_regs _ _).after ?_)
    | split
    | (intro)
    | (dsimp only)

/-- What State.harnCommand leaves. -/
theorem State.harnCommand_keeps {pm : Piece → Bool} (h_regs : pm .regs = true) (s : State) (c : Nat) :
    Keeps pm s (State.harnCommand s c) := by
  unfold State.harnCommand
  try dsimp only
  repeat' first
    | with_reducible exact Keeps.refl _ _
    | assumption
    | (with_reducible refine (State.joinStarts_keeps h_regs _).after ?_)
    | (with_reducible refine (State.harnLeave_keeps h_regs _).after ?_)
    | split
    | (intro)
    | (dsimp only)

/-- What State.untrack leaves. -/
theorem State.untrack_keeps {pm : Piece → Bool} (h_regs : pm .regs = true) (h_msix : pm .msix = true) (h_sb : pm .sb = true) (s : State) (r : Nat) :
    Keeps pm s (State.untrack s r) := by
  unfold State.untrack
  try dsimp only
  repeat' first
    | with_reducible exact Keeps.refl _ _
    | assumption
    | (with_reducible refine (State.setHarn_keeps h_regs _ _).after ?_)
    | (with_reducible refine (State.joinFails_keeps h_regs h_msix h_sb _ _).after ?_)
    | split
    | (intro)
    | (dsimp only)

/-- What State.copyJudged leaves. -/
theorem State.copyJudged_keeps {pm : Piece → Bool} (h_regs : pm .regs = true) (h_msix : pm .msix = true) (h_sb : pm .sb = true) (h_harn : pm .harn = true) (s : State) (lane : Nat) (c : CopyClass) (stitch : Word) (beat : Bool) :
    Keeps pm s (State.copyJudged s lane c stitch beat) := by
  unfold State.copyJudged
  try dsimp only
  repeat' first
    | with_reducible exact Keeps.refl _ _
    | assumption
    | (with_reducible refine (State.bump_keeps h_regs _ _).after ?_)
    | (with_reducible refine (State.onHarn_keeps h_harn _ _).after ?_)
    | (with_reducible refine (State.harnEvent_keeps h_regs h_msix h_sb _ _ _ _).after ?_)
    | (with_reducible refine (State.untrack_keeps h_regs h_msix h_sb _ _).after ?_)
    | split
    | (intro)
    | (dsimp only)

/-- What State.harnBoundary leaves. -/
theorem State.harnBoundary_keeps {pm : Piece → Bool} (h_stitch : pm .stitch = true) (h_regs : pm .regs = true) (h_fresh : pm .fresh = true) (h_sb : pm .sb = true) (h_cores : pm .cores = true) (h_ctxs : pm .ctxs = true) (h_mem : pm .mem = true) (h_badLines : pm .badLines = true) (h_hide : pm .hide = true) (h_harn : pm .harn = true) (s : State) :
    Keeps pm s (State.harnBoundary s) := by
  unfold State.harnBoundary
  try dsimp only
  repeat' first
    | with_reducible exact Keeps.refl _ _
    | assumption
    | (with_reducible refine (State.onHarn_keeps h_harn _ _).after ?_)
    | (with_reducible refine (State.setHarn_keeps h_regs _ _).after ?_)
    | (with_reducible refine (State.copyOne_keeps h_stitch h_regs h_fresh h_sb h_cores h_ctxs h_mem h_badLines h_hide h_harn _ _).after ?_)
    | (with_reducible refine (keeps_foldl ?_ _ _).after ?_)
    | split
    | (intro)
    | (dsimp only)

end Sys2Proof.Machine
end

