-- ==== Sys2Proof/Laws/KeepsAccess.lean ====
section
/-! SUPPORT. What each operation of Machine/Access.lean leaves: the pieces of the state that it does not name, the part, and
the canonical form. -/

namespace Sys2Proof.Machine

/-- What State.writeFields leaves. -/
theorem State.writeFields_keeps {pm : Piece → Bool} (h_regs : pm .regs = true) (h_staged : pm .staged = true) (h_msix : pm .msix = true) (h_sb : pm .sb = true) (s : State) (src : Source) (a : Nat) (val : Word) (extra : Bool) :
    Keeps pm s (State.writeFields s src a val extra) := by
  unfold State.writeFields
  try dsimp only
  repeat' first
    | with_reducible exact Keeps.refl _ _
    | assumption
    | (with_reducible refine (State.setReg_keeps h_regs _ _ _).after ?_)
    | (with_reducible refine (State.stage_keeps h_staged _ _ _).after ?_)
    | (with_reducible refine (State.busyWrite_keeps h_regs h_msix h_sb _ _ _).after ?_)
    | (with_reducible refine (State.unmapped_keeps h_regs h_msix h_sb _ _ _ _).after ?_)
    | (with_reducible refine (keeps_foldl ?_ _ _).after ?_)
    | split
    | (intro)
    | (dsimp only)

/-- What State.writePlain leaves. -/
theorem State.writePlain_keeps {pm : Piece → Bool} (h_regs : pm .regs = true) (h_staged : pm .staged = true) (h_msix : pm .msix = true) (h_sb : pm .sb = true) (s : State) (src : Source) (a : Nat) (val : Word) :
    Keeps pm s (State.writePlain s src a val) := by
  unfold State.writePlain
  try dsimp only
  repeat' first
    | with_reducible exact Keeps.refl _ _
    | assumption
    | (with_reducible refine (State.writeFields_keeps h_regs h_staged h_msix h_sb _ _ _ _ _).after ?_)
    | split
    | (intro)
    | (dsimp only)

/-- What State.writeKeeping leaves. -/
theorem State.writeKeeping_keeps {pm : Piece → Bool} (h_regs : pm .regs = true) (h_staged : pm .staged = true) (h_msix : pm .msix = true) (h_sb : pm .sb = true) (s : State) (src : Source) (a : Nat) (val : Word) (hi lo : Nat) (bad : Bool) :
    Keeps pm s (State.writeKeeping s src a val hi lo bad) := by
  unfold State.writeKeeping
  try dsimp only
  repeat' first
    | with_reducible exact Keeps.refl _ _
    | assumption
    | (with_reducible refine (State.writeFields_keeps h_regs h_staged h_msix h_sb _ _ _ _ _).after ?_)
    | (with_reducible refine (State.writePlain_keeps h_regs h_staged h_msix h_sb _ _ _ _).after ?_)
    | split
    | (intro)
    | (dsimp only)

/-- What State.writeSys leaves. -/
theorem State.writeSys_keeps {pm : Piece → Bool} (h_regs : pm .regs = true) (h_staged : pm .staged = true) (h_msix : pm .msix = true) (h_sb : pm .sb = true) (h_wdog : pm .wdog = true) (s : State) (src : Source) (pl : Place) (a : Nat) (val : Word) :
    Keeps pm s (State.writeSys s src pl a val) := by
  unfold State.writeSys
  try dsimp only
  repeat' first
    | with_reducible exact Keeps.refl _ _
    | assumption
    | (with_reducible refine (State.setFld_keeps h_regs _ _ _).after ?_)
    | (with_reducible refine (State.writeWdogCtrl_keeps h_regs h_msix h_sb h_wdog _ _ _).after ?_)
    | (with_reducible refine (State.writeKick_keeps h_wdog _ _).after ?_)
    | (with_reducible refine (State.writePlain_keeps h_regs h_staged h_msix h_sb _ _ _ _).after ?_)
    | split
    | (intro)
    | (dsimp only)

/-- What State.writeStch leaves. -/
theorem State.writeStch_keeps {pm : Piece → Bool} (h_regs : pm .regs = true) (h_staged : pm .staged = true) (h_msix : pm .msix = true) (h_sb : pm .sb = true) (s : State) (src : Source) (pl : Place) (a : Nat) (val : Word) :
    Keeps pm s (State.writeStch s src pl a val) := by
  unfold State.writeStch
  try dsimp only
  repeat' first
    | with_reducible exact Keeps.refl _ _
    | assumption
    | (with_reducible refine (State.writePeriod_keeps h_regs h_staged _ _).after ?_)
    | (with_reducible refine (State.writeHold_keeps h_regs _ _).after ?_)
    | (with_reducible refine (State.writePlain_keeps h_regs h_staged h_msix h_sb _ _ _ _).after ?_)
    | split
    | (intro)
    | (dsimp only)

/-- What State.writeTc leaves. -/
theorem State.writeTc_keeps {pm : Piece → Bool} (h_regs : pm .regs = true) (h_staged : pm .staged = true) (h_msix : pm .msix = true) (h_sb : pm .sb = true) (h_cores : pm .cores = true) (h_repeatAge : pm .repeatAge = true) (h_hide : pm .hide = true) (s : State) (src : Source) (pl : Place) (a : Nat) (val : Word) :
    Keeps pm s (State.writeTc s src pl a val) := by
  unfold State.writeTc
  try dsimp only
  repeat' first
    | with_reducible exact Keeps.refl _ _
    | assumption
    | (with_reducible refine (State.unmapped_keeps h_regs h_msix h_sb _ _ _ _).after ?_)
    | (with_reducible refine (State.writeLoadCmd_keeps h_regs h_msix h_sb h_cores h_repeatAge h_hide _ _ _ _).after ?_)
    | (with_reducible refine (State.writeCtxCtrl_keeps h_regs _ _ _ _).after ?_)
    | (with_reducible refine (State.writePlain_keeps h_regs h_staged h_msix h_sb _ _ _ _).after ?_)
    | split
    | (intro)
    | (dsimp only)

/-- What State.writeTree leaves. -/
theorem State.writeTree_keeps {pm : Piece → Bool} (h_regs : pm .regs = true) (h_staged : pm .staged = true) (h_cmds : pm .cmds = true) (h_msix : pm .msix = true) (h_sb : pm .sb = true) (s : State) (src : Source) (pl : Place) (a : Nat) (val : Word) :
    Keeps pm s (State.writeTree s src pl a val) := by
  unfold State.writeTree
  try dsimp only
  repeat' first
    | with_reducible exact Keeps.refl _ _
    | assumption
    | (with_reducible refine (State.setFld_keeps h_regs _ _ _).after ?_)
    | (with_reducible refine (State.addCmd_keeps h_cmds _ _ _).after ?_)
    | (with_reducible refine (State.writePlain_keeps h_regs h_staged h_msix h_sb _ _ _ _).after ?_)
    | split
    | (intro)
    | (dsimp only)

/-- What State.writeHide leaves. -/
theorem State.writeHide_keeps {pm : Piece → Bool} (h_regs : pm .regs = true) (h_staged : pm .staged = true) (h_readData : pm .readData = true) (h_resp : pm .resp = true) (h_msix : pm .msix = true) (h_fresh : pm .fresh = true) (h_sb : pm .sb = true) (h_hide : pm .hide = true) (s : State) (src : Source) (pl : Place) (a : Nat) (val : Word) :
    Keeps pm s (State.writeHide s src pl a val) := by
  unfold State.writeHide
  try dsimp only
  repeat' first
    | with_reducible exact Keeps.refl _ _
    | assumption
    | (with_reducible refine (State.setFld_keeps h_regs _ _ _).after ?_)
    | (with_reducible refine (State.busyWrite_keeps h_regs h_msix h_sb _ _ _).after ?_)
    | (with_reducible refine (State.sweepMin_keeps h_regs _).after ?_)
    | (with_reducible refine (State.rearmSat_keeps h_hide _).after ?_)
    | (with_reducible refine (State.writeHideCtrl_keeps h_regs h_staged h_readData h_resp h_msix h_fresh h_sb h_hide _ _ _).after ?_)
    | (with_reducible refine (State.writePlain_keeps h_regs h_staged h_msix h_sb _ _ _ _).after ?_)
    | split
    | (intro)
    | (dsimp only)

/-- What State.writeAwl leaves. -/
theorem State.writeAwl_keeps {pm : Piece → Bool} (h_regs : pm .regs = true) (h_staged : pm .staged = true) (h_cmds : pm .cmds = true) (h_msix : pm .msix = true) (h_sb : pm .sb = true) (h_cal : pm .cal = true) (s : State) (src : Source) (pl : Place) (a : Nat) (val : Word) :
    Keeps pm s (State.writeAwl s src pl a val) := by
  unfold State.writeAwl
  try dsimp only
  repeat' first
    | with_reducible exact Keeps.refl _ _
    | assumption
    | (with_reducible refine (State.addCmd_keeps h_cmds _ _ _).after ?_)
    | (with_reducible refine (State.busyWrite_keeps h_regs h_msix h_sb _ _ _).after ?_)
    | (with_reducible refine (State.calWritten_keeps h_regs h_msix h_sb h_cal _ _).after ?_)
    | (with_reducible refine (State.writePlain_keeps h_regs h_staged h_msix h_sb _ _ _ _).after ?_)
    | split
    | (intro)
    | (dsimp only)

/-- What State.writeRein leaves. -/
theorem State.writeRein_keeps {pm : Piece → Bool} (h_regs : pm .regs = true) (h_staged : pm .staged = true) (h_msix : pm .msix = true) (h_sb : pm .sb = true) (h_reins : pm .reins = true) (h_sec : pm .sec = true) (s : State) (src : Source) (pl : Place) (a : Nat) (val : Word) :
    Keeps pm s (State.writeRein s src pl a val) := by
  unfold State.writeRein
  try dsimp only
  repeat' first
    | with_reducible exact Keeps.refl _ _
    | assumption
    | (with_reducible refine (State.setRein_keeps h_reins _ _ _).after ?_)
    | (with_reducible refine (State.writeTraceCtrl_keeps h_regs h_msix h_sb h_reins _ _ _ _).after ?_)
    | (with_reducible refine (State.writeGuarded_keeps h_regs h_msix h_sb h_sec _ _ _ _).after ?_)
    | (with_reducible refine (State.writePlain_keeps h_regs h_staged h_msix h_sb _ _ _ _).after ?_)
    | split
    | (intro)
    | (dsimp only)

/-- What State.writeImg leaves. -/
theorem State.writeImg_keeps {pm : Piece → Bool} (h_regs : pm .regs = true) (h_staged : pm .staged = true) (h_readData : pm .readData = true) (h_resp : pm .resp = true) (h_msix : pm .msix = true) (h_fresh : pm .fresh = true) (h_sb : pm .sb = true) (h_cams : pm .cams = true) (h_bed : pm .bed = true) (h_therm : pm .therm = true) (s : State) (src : Source) (pl : Place) (a : Nat) (val : Word) :
    Keeps pm s (State.writeImg s src pl a val) := by
  unfold State.writeImg
  try dsimp only
  repeat' first
    | with_reducible exact Keeps.refl _ _
    | assumption
    | (with_reducible refine (State.unmapped_keeps h_regs h_msix h_sb _ _ _ _).after ?_)
    | (with_reducible refine (State.imgResult_keeps h_regs _ _ _).after ?_)
    | (with_reducible refine (State.writeImgCtrl_keeps h_regs h_readData h_resp h_fresh h_sb h_cams h_bed h_therm _ _ _).after ?_)
    | (with_reducible refine (State.writeImgCommit_keeps h_regs h_msix h_sb _ _ _ _).after ?_)
    | (with_reducible refine (State.writeBedCmd_keeps h_regs h_bed _ _ _).after ?_)
    | (with_reducible refine (State.writePlain_keeps h_regs h_staged h_msix h_sb _ _ _ _).after ?_)
    | split
    | (intro)
    | (dsimp only)

/-- What State.writeAxis leaves. -/
theorem State.writeAxis_keeps {pm : Piece → Bool} (h_regs : pm .regs = true) (h_staged : pm .staged = true) (h_cmds : pm .cmds = true) (h_msix : pm .msix = true) (h_sb : pm .sb = true) (h_repeatAge : pm .repeatAge = true) (h_hide : pm .hide = true) (h_axes : pm .axes = true) (s : State) (src : Source) (pl : Place) (a : Nat) (val : Word) :
    Keeps pm s (State.writeAxis s src pl a val) := by
  unfold State.writeAxis
  try dsimp only
  repeat' first
    | with_reducible exact Keeps.refl _ _
    | assumption
    | (with_reducible refine (State.addCmd_keeps h_cmds _ _ _).after ?_)
    | (with_reducible refine (State.waveLoad_keeps h_regs h_msix h_sb h_repeatAge h_hide h_axes _ _ _).after ?_)
    | (with_reducible refine (State.writePlain_keeps h_regs h_staged h_msix h_sb _ _ _ _).after ?_)
    | (with_reducible refine (State.writeKeeping_keeps h_regs h_staged h_msix h_sb _ _ _ _ _ _ _).after ?_)
    | split
    | (intro)
    | (dsimp only)

/-- What State.writeSb leaves. -/
theorem State.writeSb_keeps {pm : Piece → Bool} (h_regs : pm .regs = true) (h_staged : pm .staged = true) (h_msix : pm .msix = true) (h_fresh : pm .fresh = true) (h_sb : pm .sb = true) (s : State) (src : Source) (pl : Place) (a : Nat) (val : Word) :
    Keeps pm s (State.writeSb s src pl a val) := by
  unfold State.writeSb
  try dsimp only
  repeat' first
    | with_reducible exact Keeps.refl _ _
    | assumption
    | (with_reducible refine (State.writePort_keeps h_regs h_msix h_fresh h_sb _ _ _).after ?_)
    | (with_reducible refine (State.writeAper_keeps h_regs h_sb _ _ _).after ?_)
    | (with_reducible refine (State.writePlain_keeps h_regs h_staged h_msix h_sb _ _ _ _).after ?_)
    | split
    | (intro)
    | (dsimp only)

/-- What State.writeDmc leaves. -/
theorem State.writeDmc_keeps {pm : Piece → Bool} (h_regs : pm .regs = true) (h_staged : pm .staged = true) (h_msix : pm .msix = true) (h_sb : pm .sb = true) (h_chans : pm .chans = true) (s : State) (src : Source) (pl : Place) (a : Nat) (val : Word) :
    Keeps pm s (State.writeDmc s src pl a val) := by
  unfold State.writeDmc
  try dsimp only
  repeat' first
    | with_reducible exact Keeps.refl _ _
    | assumption
    | (with_reducible refine (State.writeDmcCfg_keeps h_regs h_msix h_sb h_chans _ _ _ _).after ?_)
    | (with_reducible refine (State.writeIsoCtrl_keeps h_regs h_chans _ _ _ _).after ?_)
    | (with_reducible refine (State.writePlain_keeps h_regs h_staged h_msix h_sb _ _ _ _).after ?_)
    | split
    | (intro)
    | (dsimp only)

/-- What State.writeLane leaves. -/
theorem State.writeLane_keeps {pm : Piece → Bool} (h_regs : pm .regs = true) (h_staged : pm .staged = true) (h_cmds : pm .cmds = true) (h_msix : pm .msix = true) (h_sb : pm .sb = true) (h_lanes : pm .lanes = true) (h_therm : pm .therm = true) (s : State) (src : Source) (pl : Place) (a : Nat) (val : Word) :
    Keeps pm s (State.writeLane s src pl a val) := by
  unfold State.writeLane
  try dsimp only
  repeat' first
    | with_reducible exact Keeps.refl _ _
    | assumption
    | (with_reducible refine (State.addCmd_keeps h_cmds _ _ _).after ?_)
    | (with_reducible refine (State.ungate_keeps h_therm _ _ _).after ?_)
    | (with_reducible refine (State.writeLaneCfg_keeps h_regs h_msix h_sb h_lanes h_therm _ _ _ _).after ?_)
    | (with_reducible refine (State.writePlain_keeps h_regs h_staged h_msix h_sb _ _ _ _).after ?_)
    | split
    | (intro)
    | (dsimp only)

/-- What State.writePcie leaves. -/
theorem State.writePcie_keeps {pm : Piece → Bool} (h_regs : pm .regs = true) (h_staged : pm .staged = true) (h_msix : pm .msix = true) (h_sb : pm .sb = true) (s : State) (src : Source) (pl : Place) (a : Nat) (val : Word) :
    Keeps pm s (State.writePcie s src pl a val) := by
  unfold State.writePcie
  try dsimp only
  repeat' first
    | with_reducible exact Keeps.refl _ _
    | assumption
    | (with_reducible refine (State.setFld_keeps h_regs _ _ _).after ?_)
    | (with_reducible refine (State.unmask_keeps h_regs h_msix _ _).after ?_)
    | (with_reducible refine (State.writePlain_keeps h_regs h_staged h_msix h_sb _ _ _ _).after ?_)
    | split
    | (intro)
    | (dsimp only)

/-- What State.writeTime leaves. -/
theorem State.writeTime_keeps {pm : Piece → Bool} (h_regs : pm .regs = true) (h_staged : pm .staged = true) (h_cmds : pm .cmds = true) (h_msix : pm .msix = true) (h_fresh : pm .fresh = true) (h_sb : pm .sb = true) (h_time : pm .time = true) (s : State) (src : Source) (pl : Place) (a : Nat) (val : Word) :
    Keeps pm s (State.writeTime s src pl a val) := by
  unfold State.writeTime
  try dsimp only
  repeat' first
    | with_reducible exact Keeps.refl _ _
    | assumption
    | (with_reducible refine (State.setReg_keeps h_regs _ _ _).after ?_)
    | (with_reducible refine (State.timeSnap_keeps h_regs h_fresh _).after ?_)
    | (with_reducible refine (State.writeMeas_keeps h_time _ _ _).after ?_)
    | (with_reducible refine (State.writeActCtrl_keeps h_regs h_cmds h_time _ _ _).after ?_)
    | (with_reducible refine (State.writePlain_keeps h_regs h_staged h_msix h_sb _ _ _ _).after ?_)
    | split
    | (intro)
    | (dsimp only)

/-- What State.writeFbus leaves. -/
theorem State.writeFbus_keeps {pm : Piece → Bool} (h_regs : pm .regs = true) (h_staged : pm .staged = true) (h_msix : pm .msix = true) (h_sb : pm .sb = true) (h_segs : pm .segs = true) (s : State) (src : Source) (pl : Place) (a : Nat) (val : Word) :
    Keeps pm s (State.writeFbus s src pl a val) := by
  unfold State.writeFbus
  try dsimp only
  repeat' first
    | with_reducible exact Keeps.refl _ _
    | assumption
    | (with_reducible refine (State.setReg_keeps h_regs _ _ _).after ?_)
    | (with_reducible refine (State.writeSegCfg_keeps h_regs h_msix h_sb h_segs _ _ _ _).after ?_)
    | (with_reducible refine (State.writeSegCycle_keeps h_regs h_staged h_msix h_sb _ _ _ _).after ?_)
    | (with_reducible refine (State.writeNodeHi_keeps h_regs h_msix h_sb _ _ _ _ _).after ?_)
    | (with_reducible refine (State.writePlain_keeps h_regs h_staged h_msix h_sb _ _ _ _).after ?_)
    | split
    | (intro)
    | (dsimp only)

/-- What State.writeLamp leaves. -/
theorem State.writeLamp_keeps {pm : Piece → Bool} (h_regs : pm .regs = true) (h_staged : pm .staged = true) (h_msix : pm .msix = true) (h_sb : pm .sb = true) (h_lamp : pm .lamp = true) (s : State) (src : Source) (pl : Place) (a : Nat) (val : Word) :
    Keeps pm s (State.writeLamp s src pl a val) := by
  unfold State.writeLamp
  try dsimp only
  repeat' first
    | with_reducible exact Keeps.refl _ _
    | assumption
    | (with_reducible refine (State.writeLampCtrl_keeps h_regs h_msix h_sb h_lamp _ _ _).after ?_)
    | (with_reducible refine (State.writeLampMem_keeps h_regs h_msix h_sb h_lamp _ _ _ _).after ?_)
    | (with_reducible refine (State.writePlain_keeps h_regs h_staged h_msix h_sb _ _ _ _).after ?_)
    | split
    | (intro)
    | (dsimp only)

/-- What State.writePwr leaves. -/
theorem State.writePwr_keeps {pm : Piece → Bool} (h_regs : pm .regs = true) (h_staged : pm .staged = true) (h_cmds : pm .cmds = true) (h_msix : pm .msix = true) (h_sb : pm .sb = true) (s : State) (src : Source) (pl : Place) (a : Nat) (val : Word) :
    Keeps pm s (State.writePwr s src pl a val) := by
  unfold State.writePwr
  try dsimp only
  repeat' first
    | with_reducible exact Keeps.refl _ _
    | assumption
    | (with_reducible refine (State.setReg_keeps h_regs _ _ _).after ?_)
    | (with_reducible refine (State.addCmd_keeps h_cmds _ _ _).after ?_)
    | (with_reducible refine (State.writeBlockRst_keeps h_regs _ _).after ?_)
    | (with_reducible refine (State.writePlain_keeps h_regs h_staged h_msix h_sb _ _ _ _).after ?_)
    | split
    | (intro)
    | (dsimp only)

/-- What State.writeThrm leaves. -/
theorem State.writeThrm_keeps {pm : Piece → Bool} (h_regs : pm .regs = true) (h_staged : pm .staged = true) (h_msix : pm .msix = true) (h_sb : pm .sb = true) (s : State) (src : Source) (pl : Place) (a : Nat) (val : Word) :
    Keeps pm s (State.writeThrm s src pl a val) := by
  unfold State.writeThrm
  try dsimp only
  repeat' first
    | with_reducible exact Keeps.refl _ _
    | assumption
    | (with_reducible refine (State.writePlain_keeps h_regs h_staged h_msix h_sb _ _ _ _).after ?_)
    | (with_reducible refine (State.writeKeeping_keeps h_regs h_staged h_msix h_sb _ _ _ _ _ _ _).after ?_)
    | split
    | (intro)
    | (dsimp only)

/-- What State.writeCal leaves. -/
theorem State.writeCal_keeps {pm : Piece → Bool} (h_regs : pm .regs = true) (h_staged : pm .staged = true) (h_msix : pm .msix = true) (h_sb : pm .sb = true) (h_sec : pm .sec = true) (s : State) (src : Source) (pl : Place) (a : Nat) (val : Word) :
    Keeps pm s (State.writeCal s src pl a val) := by
  unfold State.writeCal
  try dsimp only
  repeat' first
    | with_reducible exact Keeps.refl _ _
    | assumption
    | (with_reducible refine (State.writeCalCmd_keeps h_regs h_sec _ _).after ?_)
    | (with_reducible refine (State.writeGuarded_keeps h_regs h_msix h_sb h_sec _ _ _ _).after ?_)
    | (with_reducible refine (State.writePlain_keeps h_regs h_staged h_msix h_sb _ _ _ _).after ?_)
    | split
    | (intro)
    | (dsimp only)

/-- What State.writeBurn leaves. -/
theorem State.writeBurn_keeps {pm : Piece → Bool} (h_regs : pm .regs = true) (h_staged : pm .staged = true) (h_msix : pm .msix = true) (h_sb : pm .sb = true) (h_burn : pm .burn = true) (s : State) (src : Source) (pl : Place) (a : Nat) (val : Word) :
    Keeps pm s (State.writeBurn s src pl a val) := by
  unfold State.writeBurn
  try dsimp only
  repeat' first
    | with_reducible exact Keeps.refl _ _
    | assumption
    | (with_reducible refine (State.writeBurnCtrl_keeps h_regs h_msix h_sb h_burn _ _).after ?_)
    | (with_reducible refine (State.writePlain_keeps h_regs h_staged h_msix h_sb _ _ _ _).after ?_)
    | split
    | (intro)
    | (dsimp only)

/-- What State.writeSec leaves. -/
theorem State.writeSec_keeps {pm : Piece → Bool} (h_regs : pm .regs = true) (h_staged : pm .staged = true) (h_msix : pm .msix = true) (h_sb : pm .sb = true) (h_repeatAge : pm .repeatAge = true) (h_hide : pm .hide = true) (h_sec : pm .sec = true) (s : State) (src : Source) (pl : Place) (a : Nat) (val : Word) :
    Keeps pm s (State.writeSec s src pl a val) := by
  unfold State.writeSec
  try dsimp only
  repeat' first
    | with_reducible exact Keeps.refl _ _
    | assumption
    | (with_reducible refine (State.stage_keeps h_staged _ _ _).after ?_)
    | (with_reducible refine (State.onSec_keeps h_sec _ _).after ?_)
    | (with_reducible refine (State.guardCancel_keeps h_regs h_sec _).after ?_)
    | (with_reducible refine (State.writeKeyCmd_keeps h_regs h_msix h_sb h_repeatAge h_hide h_sec _ _).after ?_)
    | (with_reducible refine (State.writeDebug_keeps h_regs h_sec _ _).after ?_)
    | (with_reducible refine (State.writeGuarded_keeps h_regs h_msix h_sb h_sec _ _ _ _).after ?_)
    | (with_reducible refine (State.writeImgCmd_keeps h_regs h_msix h_sb h_sec _ _ _).after ?_)
    | (with_reducible refine (State.writePstoreCmd_keeps h_regs h_msix h_sb h_sec _ _ _).after ?_)
    | (with_reducible refine (State.writePlain_keeps h_regs h_staged h_msix h_sb _ _ _ _).after ?_)
    | split
    | (intro)
    | (dsimp only)

/-- What State.writeHarn leaves. -/
theorem State.writeHarn_keeps {pm : Piece → Bool} (h_regs : pm .regs = true) (h_staged : pm .staged = true) (h_cmds : pm .cmds = true) (h_msix : pm .msix = true) (h_sb : pm .sb = true) (h_lanes : pm .lanes = true) (h_therm : pm .therm = true) (h_sec : pm .sec = true) (h_harn : pm .harn = true) (s : State) (src : Source) (pl : Place) (a : Nat) (val : Word) :
    Keeps pm s (State.writeHarn s src pl a val) := by
  unfold State.writeHarn
  try dsimp only
  repeat' first
    | with_reducible exact Keeps.refl _ _
    | assumption
    | (with_reducible refine (State.addCmd_keeps h_cmds _ _ _).after ?_)
    | (with_reducible refine (State.writeResign_keeps h_regs h_sec _).after ?_)
    | (with_reducible refine (State.writeHarnCfg_keeps h_regs h_msix h_sb h_lanes h_therm h_harn _ _).after ?_)
    | (with_reducible refine (State.writePlain_keeps h_regs h_staged h_msix h_sb _ _ _ _).after ?_)
    | split
    | (intro)
    | (dsimp only)

/-- What State.regWrite leaves. -/
theorem State.regWrite_keeps {pm : Piece → Bool} (h_regs : pm .regs = true) (h_staged : pm .staged = true) (h_cmds : pm .cmds = true) (h_readData : pm .readData = true) (h_resp : pm .resp = true) (h_msix : pm .msix = true) (h_fresh : pm .fresh = true) (h_sb : pm .sb = true) (h_cores : pm .cores = true) (h_wdog : pm .wdog = true) (h_chans : pm .chans = true) (h_repeatAge : pm .repeatAge = true) (h_reins : pm .reins = true) (h_hide : pm .hide = true) (h_axes : pm .axes = true) (h_cams : pm .cams = true) (h_bed : pm .bed = true) (h_lanes : pm .lanes = true) (h_time : pm .time = true) (h_segs : pm .segs = true) (h_lamp : pm .lamp = true) (h_therm : pm .therm = true) (h_cal : pm .cal = true) (h_burn : pm .burn = true) (h_sec : pm .sec = true) (h_harn : pm .harn = true) (s : State) (src : Source) (a : Nat) (val : Word) :
    Keeps pm s (State.regWrite s src a val) := by
  unfold State.regWrite
  try dsimp only
  repeat' first
    | with_reducible exact Keeps.refl _ _
    | assumption
    | (with_reducible refine (State.unmapped_keeps h_regs h_msix h_sb _ _ _ _).after ?_)
    | (with_reducible refine (State.writeSys_keeps h_regs h_staged h_msix h_sb h_wdog _ _ _ _ _).after ?_)
    | (with_reducible refine (State.writeStch_keeps h_regs h_staged h_msix h_sb _ _ _ _ _).after ?_)
    | (with_reducible refine (State.writeTc_keeps h_regs h_staged h_msix h_sb h_cores h_repeatAge h_hide _ _ _ _ _).after ?_)
    | (with_reducible refine (State.writeTree_keeps h_regs h_staged h_cmds h_msix h_sb _ _ _ _ _).after ?_)
    | (with_reducible refine (State.writeHide_keeps h_regs h_staged h_readData h_resp h_msix h_fresh h_sb h_hide _ _ _ _ _).after ?_)
    | (with_reducible refine (State.writeAwl_keeps h_regs h_staged h_cmds h_msix h_sb h_cal _ _ _ _ _).after ?_)
    | (with_reducible refine (State.writeRein_keeps h_regs h_staged h_msix h_sb h_reins h_sec _ _ _ _ _).after ?_)
    | (with_reducible refine (State.writeImg_keeps h_regs h_staged h_readData h_resp h_msix h_fresh h_sb h_cams h_bed h_therm _ _ _ _ _).after ?_)
    | (with_reducible refine (State.writeAxis_keeps h_regs h_staged h_cmds h_msix h_sb h_repeatAge h_hide h_axes _ _ _ _ _).after ?_)
    | (with_reducible refine (State.writeSb_keeps h_regs h_staged h_msix h_fresh h_sb _ _ _ _ _).after ?_)
    | (with_reducible refine (State.writeDmc_keeps h_regs h_staged h_msix h_sb h_chans _ _ _ _ _).after ?_)
    | (with_reducible refine (State.writeLane_keeps h_regs h_staged h_cmds h_msix h_sb h_lanes h_therm _ _ _ _ _).after ?_)
    | (with_reducible refine (State.writePcie_keeps h_regs h_staged h_msix h_sb _ _ _ _ _).after ?_)
    | (with_reducible refine (State.writeTime_keeps h_regs h_staged h_cmds h_msix h_fresh h_sb h_time _ _ _ _ _).after ?_)
    | (with_reducible refine (State.writeFbus_keeps h_regs h_staged h_msix h_sb h_segs _ _ _ _ _).after ?_)
    | (with_reducible refine (State.writeLamp_keeps h_regs h_staged h_msix h_sb h_lamp _ _ _ _ _).after ?_)
    | (with_reducible refine (State.writePwr_keeps h_regs h_staged h_cmds h_msix h_sb _ _ _ _ _).after ?_)
    | (with_reducible refine (State.writeThrm_keeps h_regs h_staged h_msix h_sb _ _ _ _ _).after ?_)
    | (with_reducible refine (State.writeCal_keeps h_regs h_staged h_msix h_sb h_sec _ _ _ _ _).after ?_)
    | (with_reducible refine (State.writeBurn_keeps h_regs h_staged h_msix h_sb h_burn _ _ _ _ _).after ?_)
    | (with_reducible refine (State.writeSec_keeps h_regs h_staged h_msix h_sb h_repeatAge h_hide h_sec _ _ _ _ _).after ?_)
    | (with_reducible refine (State.writeHarn_keeps h_regs h_staged h_cmds h_msix h_sb h_lanes h_therm h_sec h_harn _ _ _ _ _).after ?_)
    | split
    | (intro)
    | (dsimp only)

/-- What State.busWrite leaves. -/
theorem State.busWrite_keeps {pm : Piece → Bool} (h_regs : pm .regs = true) (h_staged : pm .staged = true) (h_cmds : pm .cmds = true) (h_readData : pm .readData = true) (h_resp : pm .resp = true) (h_msix : pm .msix = true) (h_fresh : pm .fresh = true) (h_sb : pm .sb = true) (h_cores : pm .cores = true) (h_wdog : pm .wdog = true) (h_chans : pm .chans = true) (h_repeatAge : pm .repeatAge = true) (h_reins : pm .reins = true) (h_hide : pm .hide = true) (h_axes : pm .axes = true) (h_cams : pm .cams = true) (h_bed : pm .bed = true) (h_lanes : pm .lanes = true) (h_time : pm .time = true) (h_segs : pm .segs = true) (h_lamp : pm .lamp = true) (h_therm : pm .therm = true) (h_cal : pm .cal = true) (h_burn : pm .burn = true) (h_sec : pm .sec = true) (h_harn : pm .harn = true) (s : State) (src : Source) (a : Nat) (val : Word) :
    Keeps pm s (State.busWrite s src a val) := by
  unfold State.busWrite
  try dsimp only
  repeat' first
    | with_reducible exact Keeps.refl _ _
    | assumption
    | (with_reducible refine (State.bound_keeps h_regs h_sb _ _ _).after ?_)
    | (with_reducible refine (State.gate_keeps h_regs h_resp h_msix h_sb h_harn _ _ _ _ _ ?_).after ?_)
    | (with_reducible refine (State.regWrite_keeps h_regs h_staged h_cmds h_readData h_resp h_msix h_fresh h_sb h_cores h_wdog h_chans h_repeatAge h_reins h_hide h_axes h_cams h_bed h_lanes h_time h_segs h_lamp h_therm h_cal h_burn h_sec h_harn _ _ _ _).after ?_)
    | split
    | (intro)
    | (dsimp only)

/-- What State.forwarded leaves. -/
theorem State.forwarded_keeps {pm : Piece → Bool} (h_regs : pm .regs = true) (h_staged : pm .staged = true) (h_cmds : pm .cmds = true) (h_readData : pm .readData = true) (h_resp : pm .resp = true) (h_msix : pm .msix = true) (h_fresh : pm .fresh = true) (h_sb : pm .sb = true) (h_cores : pm .cores = true) (h_wdog : pm .wdog = true) (h_chans : pm .chans = true) (h_repeatAge : pm .repeatAge = true) (h_reins : pm .reins = true) (h_hide : pm .hide = true) (h_axes : pm .axes = true) (h_cams : pm .cams = true) (h_bed : pm .bed = true) (h_lanes : pm .lanes = true) (h_time : pm .time = true) (h_segs : pm .segs = true) (h_lamp : pm .lamp = true) (h_therm : pm .therm = true) (h_cal : pm .cal = true) (h_burn : pm .burn = true) (h_sec : pm .sec = true) (h_harn : pm .harn = true) (s : State) (a : Nat) (val : Word) :
    Keeps pm s (State.forwarded s a val) := by
  unfold State.forwarded
  try dsimp only
  repeat' first
    | with_reducible exact Keeps.refl _ _
    | assumption
    | (with_reducible refine (State.busyWrite_keeps h_regs h_msix h_sb _ _ _).after ?_)
    | (with_reducible refine (State.absentAccess_keeps h_regs h_msix h_sb _ _ _).after ?_)
    | (with_reducible refine (State.bound_keeps h_regs h_sb _ _ _).after ?_)
    | (with_reducible refine (State.regWrite_keeps h_regs h_staged h_cmds h_readData h_resp h_msix h_fresh h_sb h_cores h_wdog h_chans h_repeatAge h_reins h_hide h_axes h_cams h_bed h_lanes h_time h_segs h_lamp h_therm h_cal h_burn h_sec h_harn _ _ _ _).after ?_)
    | split
    | (intro)
    | (dsimp only)

/-- What State.regRead leaves. -/
theorem State.regRead_keeps {pm : Piece → Bool} (h_regs : pm .regs = true) (h_msix : pm .msix = true) (h_fresh : pm .fresh = true) (h_sb : pm .sb = true) (s : State) (src : Source) (a : Nat) :
    Keeps pm s (State.regRead s src a).1 := by
  unfold State.regRead
  try dsimp only
  repeat' first
    | with_reducible exact Keeps.refl _ _
    | assumption
    | (with_reducible refine (State.setReg_keeps h_regs _ _ _).after ?_)
    | (with_reducible refine (State.unmapped_keeps h_regs h_msix h_sb _ _ _ _).after ?_)
    | (with_reducible refine (State.latchTb_keeps h_regs h_fresh _ _).after ?_)
    | (with_reducible refine (State.readCount_keeps h_regs _).after ?_)
    | (with_reducible refine (State.readCount_keeps_eq h_regs _ (by assumption)).after ?_)
    | split
    | (intro)
    | (dsimp only)

/-- What State.regRead leaves, its answer taken apart. -/
theorem State.regRead_keeps_eq {pm : Piece → Bool} (h_regs : pm .regs = true) (h_msix : pm .msix = true) (h_fresh : pm .fresh = true) (h_sb : pm .sb = true) (s : State) (src : Source) (a : Nat) {t : State} {r : Word}
    (e : State.regRead s src a = (t, r)) : Keeps pm s t := by
  have q := State.regRead_keeps (pm := pm) h_regs h_msix h_fresh h_sb s src a
  rw [e] at q
  exact q

/-- What State.busRead leaves. -/
theorem State.busRead_keeps {pm : Piece → Bool} (h_regs : pm .regs = true) (h_msix : pm .msix = true) (h_fresh : pm .fresh = true) (h_sb : pm .sb = true) (s : State) (src : Source) (a : Nat) :
    Keeps pm s (State.busRead s src a).1 := by
  unfold State.busRead
  try dsimp only
  repeat' first
    | with_reducible exact Keeps.refl _ _
    | assumption
    | (with_reducible refine (State.absentAccess_keeps h_regs h_msix h_sb _ _ _).after ?_)
    | (with_reducible refine (State.unmapped_keeps h_regs h_msix h_sb _ _ _ _).after ?_)
    | (with_reducible refine (State.regRead_keeps h_regs h_msix h_fresh h_sb _ _ _).after ?_)
    | (with_reducible refine (State.regRead_keeps_eq h_regs h_msix h_fresh h_sb _ _ _ (by assumption)).after ?_)
    | split
    | (intro)
    | (dsimp only)

/-- What State.busRead leaves, its answer taken apart. -/
theorem State.busRead_keeps_eq {pm : Piece → Bool} (h_regs : pm .regs = true) (h_msix : pm .msix = true) (h_fresh : pm .fresh = true) (h_sb : pm .sb = true) (s : State) (src : Source) (a : Nat) {t : State} {r : Word}
    (e : State.busRead s src a = (t, r)) : Keeps pm s t := by
  have q := State.busRead_keeps (pm := pm) h_regs h_msix h_fresh h_sb s src a
  rw [e] at q
  exact q

/-- What State.answered leaves. -/
theorem State.answered_keeps {pm : Piece → Bool} (h_readData : pm .readData = true) (r : State × Word) :
    Keeps pm r.1 (State.answered r) := by
  unfold State.answered
  try dsimp only
  repeat' first
    | with_reducible exact Keeps.refl _ _
    | assumption
    | split
    | (with_reducible refine (keeps_readData h_readData).after ?_)
    | (intro)
    | (dsimp only)

end Sys2Proof.Machine
end

