-- ==== Sys2Proof/Laws/KeepsOutstanding.lean ====
section
/-! SUPPORT. What each operation of Machine/Outstanding.lean leaves: the pieces of the state that it does not name, the part, and
the canonical form. -/

namespace Sys2Proof.Machine

/-- What State.finishLds leaves. -/
theorem State.finishLds_keeps {pm : Piece → Bool} (h_regs : pm .regs = true) (h_msix : pm .msix = true) (h_fresh : pm .fresh = true) (h_sb : pm .sb = true) (h_cores : pm .cores = true) (h_ctxs : pm .ctxs = true) (h_repeatAge : pm .repeatAge = true) (h_hide : pm .hide = true) (s : State) (core : Nat) :
    Keeps pm s (State.finishLds s core) := by
  unfold State.finishLds
  try dsimp only
  repeat' first
    | with_reducible exact Keeps.refl _ _
    | assumption
    | (with_reducible refine (State.tookFree_keeps h_fresh _).after ?_)
    | (with_reducible refine (State.setCore_keeps h_cores _ _ _).after ?_)
    | (with_reducible refine (State.setCtx_keeps h_ctxs _ _ _ _).after ?_)
    | (with_reducible refine (State.readBuf_keeps h_regs h_msix h_sb h_repeatAge h_hide _ _ _).after ?_)
    | (with_reducible refine (State.readBuf_keeps_eq h_regs h_msix h_sb h_repeatAge h_hide _ _ _ (by assumption)).after ?_)
    | split
    | (intro)
    | (dsimp only)

/-- What State.finishSts leaves. -/
theorem State.finishSts_keeps {pm : Piece → Bool} (h_regs : pm .regs = true) (h_sb : pm .sb = true) (h_cores : pm .cores = true) (h_hide : pm .hide = true) (s : State) (core : Nat) :
    Keeps pm s (State.finishSts s core) := by
  unfold State.finishSts
  try dsimp only
  repeat' first
    | with_reducible exact Keeps.refl _ _
    | assumption
    | (with_reducible refine (State.setCore_keeps h_cores _ _ _).after ?_)
    | (with_reducible refine (State.setBufWord_keeps h_regs h_sb h_hide _ _ _ _).after ?_)
    | split
    | (intro)
    | (dsimp only)

/-- What State.finishBpw leaves. -/
theorem State.finishBpw_keeps {pm : Piece → Bool} (h_regs : pm .regs = true) (h_staged : pm .staged = true) (h_cmds : pm .cmds = true) (h_readData : pm .readData = true) (h_resp : pm .resp = true) (h_msix : pm .msix = true) (h_fresh : pm .fresh = true) (h_sb : pm .sb = true) (h_cores : pm .cores = true) (h_ctxs : pm .ctxs = true) (h_wdog : pm .wdog = true) (h_chans : pm .chans = true) (h_repeatAge : pm .repeatAge = true) (h_reins : pm .reins = true) (h_hide : pm .hide = true) (h_axes : pm .axes = true) (h_cams : pm .cams = true) (h_bed : pm .bed = true) (h_lanes : pm .lanes = true) (h_time : pm .time = true) (h_segs : pm .segs = true) (h_lamp : pm .lamp = true) (h_therm : pm .therm = true) (h_cal : pm .cal = true) (h_burn : pm .burn = true) (h_sec : pm .sec = true) (h_harn : pm .harn = true) (s : State) (core c : Nat) :
    Keeps pm s (State.finishBpw s core c) := by
  unfold State.finishBpw
  try dsimp only
  repeat' first
    | with_reducible exact Keeps.refl _ _
    | assumption
    | (with_reducible refine (State.setCtx_keeps h_ctxs _ _ _ _).after ?_)
    | (with_reducible refine (State.busWrite_keeps h_regs h_staged h_cmds h_readData h_resp h_msix h_fresh h_sb h_cores h_wdog h_chans h_repeatAge h_reins h_hide h_axes h_cams h_bed h_lanes h_time h_segs h_lamp h_therm h_cal h_burn h_sec h_harn _ _ _ _).after ?_)
    | split
    | (intro)
    | (dsimp only)

/-- What State.queueDo leaves. -/
theorem State.queueDo_keeps {pm : Piece → Bool} (h_regs : pm .regs = true) (h_readData : pm .readData = true) (h_resp : pm .resp = true) (h_msix : pm .msix = true) (h_fresh : pm .fresh = true) (h_sb : pm .sb = true) (h_repeatAge : pm .repeatAge = true) (h_hide : pm .hide = true) (s : State) (core c key : Nat) (z0 : QueueAct) :
    Keeps pm s (State.queueDo s core c key z0).1 := by
  unfold State.queueDo
  try dsimp only
  repeat' first
    | with_reducible exact Keeps.refl _ _
    | assumption
    | (with_reducible refine (State.applyQueue_keeps h_regs h_msix h_sb _ _ _ _).after ?_)
    | (with_reducible refine (State.checkWord_keeps h_regs h_msix h_sb h_repeatAge h_hide _ _ _ _).after ?_)
    | (with_reducible refine (State.checkWord_keeps_eq h_regs h_msix h_sb h_repeatAge h_hide _ _ _ _ (by assumption)).after ?_)
    | (with_reducible refine (State.flushQueue_keeps h_regs h_readData h_resp h_msix h_fresh h_sb h_repeatAge h_hide _ _).after ?_)
    | split
    | (intro)
    | (dsimp only)

/-- What State.queueDo leaves, its answer taken apart. -/
theorem State.queueDo_keeps_eq {pm : Piece → Bool} (h_regs : pm .regs = true) (h_readData : pm .readData = true) (h_resp : pm .resp = true) (h_msix : pm .msix = true) (h_fresh : pm .fresh = true) (h_sb : pm .sb = true) (h_repeatAge : pm .repeatAge = true) (h_hide : pm .hide = true) (s : State) (core c key : Nat) (z0 : QueueAct) {t : State} {r : QueueBack}
    (e : State.queueDo s core c key z0 = (t, r)) : Keeps pm s t := by
  have q := State.queueDo_keeps (pm := pm) h_regs h_readData h_resp h_msix h_fresh h_sb h_repeatAge h_hide s core c key z0
  rw [e] at q
  exact q

/-- What State.queueAct leaves. -/
theorem State.queueAct_keeps {pm : Piece → Bool} (h_regs : pm .regs = true) (h_readData : pm .readData = true) (h_resp : pm .resp = true) (h_msix : pm .msix = true) (h_fresh : pm .fresh = true) (h_sb : pm .sb = true) (h_repeatAge : pm .repeatAge = true) (h_hide : pm .hide = true) (s : State) (core c : Nat) (h : Word) (a : QueueAct) :
    Keeps pm s (State.queueAct s core c h a).1 := by
  unfold State.queueAct
  try dsimp only
  repeat' first
    | with_reducible exact Keeps.refl _ _
    | assumption
    | (with_reducible refine (State.queueDo_keeps h_regs h_readData h_resp h_msix h_fresh h_sb h_repeatAge h_hide _ _ _ _ _).after ?_)
    | (with_reducible refine (State.queueDo_keeps_eq h_regs h_readData h_resp h_msix h_fresh h_sb h_repeatAge h_hide _ _ _ _ _ (by assumption)).after ?_)
    | split
    | (intro)
    | (dsimp only)

/-- What State.queueAct leaves, its answer taken apart. -/
theorem State.queueAct_keeps_eq {pm : Piece → Bool} (h_regs : pm .regs = true) (h_readData : pm .readData = true) (h_resp : pm .resp = true) (h_msix : pm .msix = true) (h_fresh : pm .fresh = true) (h_sb : pm .sb = true) (h_repeatAge : pm .repeatAge = true) (h_hide : pm .hide = true) (s : State) (core c : Nat) (h : Word) (a : QueueAct) {t : State} {r : Option QueueBack}
    (e : State.queueAct s core c h a = (t, r)) : Keeps pm s t := by
  have q := State.queueAct_keeps (pm := pm) h_regs h_readData h_resp h_msix h_fresh h_sb h_repeatAge h_hide s core c h a
  rw [e] at q
  exact q

/-- What State.finishQueue leaves. -/
theorem State.finishQueue_keeps {pm : Piece → Bool} (h_regs : pm .regs = true) (h_readData : pm .readData = true) (h_resp : pm .resp = true) (h_msix : pm .msix = true) (h_fresh : pm .fresh = true) (h_sb : pm .sb = true) (h_cores : pm .cores = true) (h_repeatAge : pm .repeatAge = true) (h_hide : pm .hide = true) (s : State) (core : Nat) :
    Keeps pm s (State.finishQueue s core) := by
  unfold State.finishQueue
  try dsimp only
  repeat' first
    | with_reducible exact Keeps.refl _ _
    | assumption
    | (with_reducible refine (State.setCore_keeps h_cores _ _ _).after ?_)
    | (with_reducible refine (State.queueAct_keeps h_regs h_readData h_resp h_msix h_fresh h_sb h_repeatAge h_hide _ _ _ _ _).after ?_)
    | (with_reducible refine (State.queueAct_keeps_eq h_regs h_readData h_resp h_msix h_fresh h_sb h_repeatAge h_hide _ _ _ _ _ (by assumption)).after ?_)
    | split
    | (intro)
    | (dsimp only)

/-- What State.finish leaves. -/
theorem State.finish_keeps {pm : Piece → Bool} (h_regs : pm .regs = true) (h_staged : pm .staged = true) (h_cmds : pm .cmds = true) (h_readData : pm .readData = true) (h_resp : pm .resp = true) (h_msix : pm .msix = true) (h_fresh : pm .fresh = true) (h_sb : pm .sb = true) (h_cores : pm .cores = true) (h_ctxs : pm .ctxs = true) (h_wdog : pm .wdog = true) (h_chans : pm .chans = true) (h_repeatAge : pm .repeatAge = true) (h_reins : pm .reins = true) (h_hide : pm .hide = true) (h_axes : pm .axes = true) (h_cams : pm .cams = true) (h_bed : pm .bed = true) (h_lanes : pm .lanes = true) (h_time : pm .time = true) (h_segs : pm .segs = true) (h_lamp : pm .lamp = true) (h_therm : pm .therm = true) (h_cal : pm .cal = true) (h_burn : pm .burn = true) (h_sec : pm .sec = true) (h_harn : pm .harn = true) (s : State) (core : Nat) (z0 : Due) :
    Keeps pm s (State.finish s core z0) := by
  unfold State.finish
  try dsimp only
  repeat' first
    | with_reducible exact Keeps.refl _ _
    | assumption
    | (with_reducible refine (State.finishLds_keeps h_regs h_msix h_fresh h_sb h_cores h_ctxs h_repeatAge h_hide _ _).after ?_)
    | (with_reducible refine (State.finishSts_keeps h_regs h_sb h_cores h_hide _ _).after ?_)
    | (with_reducible refine (State.finishBpw_keeps h_regs h_staged h_cmds h_readData h_resp h_msix h_fresh h_sb h_cores h_ctxs h_wdog h_chans h_repeatAge h_reins h_hide h_axes h_cams h_bed h_lanes h_time h_segs h_lamp h_therm h_cal h_burn h_sec h_harn _ _ _).after ?_)
    | (with_reducible refine (State.finishQueue_keeps h_regs h_readData h_resp h_msix h_fresh h_sb h_cores h_repeatAge h_hide _ _).after ?_)
    | split
    | (intro)
    | (dsimp only)

/-- What State.finishUpTo leaves. -/
theorem State.finishUpTo_keeps {pm : Piece → Bool} (h_regs : pm .regs = true) (h_staged : pm .staged = true) (h_cmds : pm .cmds = true) (h_readData : pm .readData = true) (h_resp : pm .resp = true) (h_msix : pm .msix = true) (h_fresh : pm .fresh = true) (h_sb : pm .sb = true) (h_cores : pm .cores = true) (h_ctxs : pm .ctxs = true) (h_wdog : pm .wdog = true) (h_chans : pm .chans = true) (h_repeatAge : pm .repeatAge = true) (h_reins : pm .reins = true) (h_hide : pm .hide = true) (h_axes : pm .axes = true) (h_cams : pm .cams = true) (h_bed : pm .bed = true) (h_lanes : pm .lanes = true) (h_time : pm .time = true) (h_segs : pm .segs = true) (h_lamp : pm .lamp = true) (h_therm : pm .therm = true) (h_cal : pm .cal = true) (h_burn : pm .burn = true) (h_sec : pm .sec = true) (h_harn : pm .harn = true) (s : State) (core : Nat) (t : Int) (z0 : Nat) :
    Keeps pm s (State.finishUpTo s core t z0) := by
  fun_induction State.finishUpTo s core t z0
  all_goals (try dsimp +zetaDelta only at *)
  repeat' first
    | with_reducible exact Keeps.refl _ _
    | assumption
    | (with_reducible refine (State.finish_keeps h_regs h_staged h_cmds h_readData h_resp h_msix h_fresh h_sb h_cores h_ctxs h_wdog h_chans h_repeatAge h_reins h_hide h_axes h_cams h_bed h_lanes h_time h_segs h_lamp h_therm h_cal h_burn h_sec h_harn _ _ _).after ?_)
    | (with_reducible refine Keeps.trans ?_ (by assumption))
    | split
    | (intro)
    | (dsimp only)

/-- What State.passTo leaves. -/
theorem State.passTo_keeps {pm : Piece → Bool} (h_regs : pm .regs = true) (h_staged : pm .staged = true) (h_cmds : pm .cmds = true) (h_readData : pm .readData = true) (h_resp : pm .resp = true) (h_msix : pm .msix = true) (h_fresh : pm .fresh = true) (h_sb : pm .sb = true) (h_cores : pm .cores = true) (h_ctxs : pm .ctxs = true) (h_wdog : pm .wdog = true) (h_chans : pm .chans = true) (h_repeatAge : pm .repeatAge = true) (h_reins : pm .reins = true) (h_hide : pm .hide = true) (h_axes : pm .axes = true) (h_cams : pm .cams = true) (h_bed : pm .bed = true) (h_lanes : pm .lanes = true) (h_time : pm .time = true) (h_segs : pm .segs = true) (h_lamp : pm .lamp = true) (h_therm : pm .therm = true) (h_cal : pm .cal = true) (h_burn : pm .burn = true) (h_sec : pm .sec = true) (h_harn : pm .harn = true) (s : State) (core : Nat) (t : Int) :
    Keeps pm s (State.passTo s core t) := by
  unfold State.passTo
  try dsimp only
  repeat' first
    | with_reducible exact Keeps.refl _ _
    | assumption
    | (with_reducible refine (State.finishUpTo_keeps h_regs h_staged h_cmds h_readData h_resp h_msix h_fresh h_sb h_cores h_ctxs h_wdog h_chans h_repeatAge h_reins h_hide h_axes h_cams h_bed h_lanes h_time h_segs h_lamp h_therm h_cal h_burn h_sec h_harn _ _ _ _).after ?_)
    | split
    | (intro)
    | (dsimp only)

/-- What State.endSlot leaves. -/
theorem State.endSlot_keeps {pm : Piece → Bool} (h_regs : pm .regs = true) (h_staged : pm .staged = true) (h_cmds : pm .cmds = true) (h_readData : pm .readData = true) (h_resp : pm .resp = true) (h_msix : pm .msix = true) (h_fresh : pm .fresh = true) (h_sb : pm .sb = true) (h_cores : pm .cores = true) (h_ctxs : pm .ctxs = true) (h_wdog : pm .wdog = true) (h_chans : pm .chans = true) (h_repeatAge : pm .repeatAge = true) (h_reins : pm .reins = true) (h_hide : pm .hide = true) (h_axes : pm .axes = true) (h_cams : pm .cams = true) (h_bed : pm .bed = true) (h_lanes : pm .lanes = true) (h_time : pm .time = true) (h_segs : pm .segs = true) (h_lamp : pm .lamp = true) (h_therm : pm .therm = true) (h_cal : pm .cal = true) (h_burn : pm .burn = true) (h_sec : pm .sec = true) (h_harn : pm .harn = true) (s : State) (core : Nat) :
    Keeps pm s (State.endSlot s core) := by
  unfold State.endSlot
  try dsimp only
  repeat' first
    | with_reducible exact Keeps.refl _ _
    | assumption
    | (with_reducible refine (State.setCore_keeps h_cores _ _ _).after ?_)
    | (with_reducible refine (State.overrunCtx_keeps h_regs h_msix h_sb h_cores h_ctxs _ _ _).after ?_)
    | (with_reducible refine (State.passTo_keeps h_regs h_staged h_cmds h_readData h_resp h_msix h_fresh h_sb h_cores h_ctxs h_wdog h_chans h_repeatAge h_reins h_hide h_axes h_cams h_bed h_lanes h_time h_segs h_lamp h_therm h_cal h_burn h_sec h_harn _ _ _).after ?_)
    | split
    | (intro)
    | (dsimp only)

/-- What State.endSlots leaves. -/
theorem State.endSlots_keeps {pm : Piece → Bool} (h_regs : pm .regs = true) (h_staged : pm .staged = true) (h_cmds : pm .cmds = true) (h_readData : pm .readData = true) (h_resp : pm .resp = true) (h_msix : pm .msix = true) (h_fresh : pm .fresh = true) (h_sb : pm .sb = true) (h_cores : pm .cores = true) (h_ctxs : pm .ctxs = true) (h_wdog : pm .wdog = true) (h_chans : pm .chans = true) (h_repeatAge : pm .repeatAge = true) (h_reins : pm .reins = true) (h_hide : pm .hide = true) (h_axes : pm .axes = true) (h_cams : pm .cams = true) (h_bed : pm .bed = true) (h_lanes : pm .lanes = true) (h_time : pm .time = true) (h_segs : pm .segs = true) (h_lamp : pm .lamp = true) (h_therm : pm .therm = true) (h_cal : pm .cal = true) (h_burn : pm .burn = true) (h_sec : pm .sec = true) (h_harn : pm .harn = true) (s : State) :
    Keeps pm s (State.endSlots s) := by
  unfold State.endSlots
  try dsimp only
  repeat' first
    | with_reducible exact Keeps.refl _ _
    | assumption
    | (with_reducible refine (State.passTo_keeps h_regs h_staged h_cmds h_readData h_resp h_msix h_fresh h_sb h_cores h_ctxs h_wdog h_chans h_repeatAge h_reins h_hide h_axes h_cams h_bed h_lanes h_time h_segs h_lamp h_therm h_cal h_burn h_sec h_harn _ _ _).after ?_)
    | (with_reducible refine (State.endSlot_keeps h_regs h_staged h_cmds h_readData h_resp h_msix h_fresh h_sb h_cores h_ctxs h_wdog h_chans h_repeatAge h_reins h_hide h_axes h_cams h_bed h_lanes h_time h_segs h_lamp h_therm h_cal h_burn h_sec h_harn _ _).after ?_)
    | (with_reducible refine (keeps_foldl ?_ _ _).after ?_)
    | split
    | (intro)
    | (dsimp only)

/-- What State.timeTo leaves. -/
theorem State.timeTo_keeps {pm : Piece → Bool} (h_regs : pm .regs = true) (h_staged : pm .staged = true) (h_cmds : pm .cmds = true) (h_readData : pm .readData = true) (h_resp : pm .resp = true) (h_msix : pm .msix = true) (h_fresh : pm .fresh = true) (h_sb : pm .sb = true) (h_cores : pm .cores = true) (h_ctxs : pm .ctxs = true) (h_wdog : pm .wdog = true) (h_chans : pm .chans = true) (h_repeatAge : pm .repeatAge = true) (h_reins : pm .reins = true) (h_hide : pm .hide = true) (h_axes : pm .axes = true) (h_cams : pm .cams = true) (h_bed : pm .bed = true) (h_lanes : pm .lanes = true) (h_time : pm .time = true) (h_segs : pm .segs = true) (h_lamp : pm .lamp = true) (h_therm : pm .therm = true) (h_cal : pm .cal = true) (h_burn : pm .burn = true) (h_sec : pm .sec = true) (h_harn : pm .harn = true) (s : State) (core : Nat) (t : Int) :
    Keeps pm s (State.timeTo s core t) := by
  unfold State.timeTo
  try dsimp only
  repeat' first
    | with_reducible exact Keeps.refl _ _
    | assumption
    | (with_reducible refine (State.setCore_keeps h_cores _ _ _).after ?_)
    | (with_reducible refine (State.passTo_keeps h_regs h_staged h_cmds h_readData h_resp h_msix h_fresh h_sb h_cores h_ctxs h_wdog h_chans h_repeatAge h_reins h_hide h_axes h_cams h_bed h_lanes h_time h_segs h_lamp h_therm h_cal h_burn h_sec h_harn _ _ _).after ?_)
    | (with_reducible refine (State.endSlot_keeps h_regs h_staged h_cmds h_readData h_resp h_msix h_fresh h_sb h_cores h_ctxs h_wdog h_chans h_repeatAge h_reins h_hide h_axes h_cams h_bed h_lanes h_time h_segs h_lamp h_therm h_cal h_burn h_sec h_harn _ _).after ?_)
    | split
    | (intro)
    | (dsimp only)

/-- What State.comesTo leaves. -/
theorem State.comesTo_keeps {pm : Piece → Bool} (h_regs : pm .regs = true) (h_staged : pm .staged = true) (h_cmds : pm .cmds = true) (h_readData : pm .readData = true) (h_resp : pm .resp = true) (h_msix : pm .msix = true) (h_fresh : pm .fresh = true) (h_sb : pm .sb = true) (h_cores : pm .cores = true) (h_ctxs : pm .ctxs = true) (h_wdog : pm .wdog = true) (h_chans : pm .chans = true) (h_repeatAge : pm .repeatAge = true) (h_reins : pm .reins = true) (h_hide : pm .hide = true) (h_axes : pm .axes = true) (h_cams : pm .cams = true) (h_bed : pm .bed = true) (h_lanes : pm .lanes = true) (h_time : pm .time = true) (h_segs : pm .segs = true) (h_lamp : pm .lamp = true) (h_therm : pm .therm = true) (h_cal : pm .cal = true) (h_burn : pm .burn = true) (h_sec : pm .sec = true) (h_harn : pm .harn = true) (s : State) (core : Nat) (z0 : Option Int) :
    Keeps pm s (State.comesTo s core z0) := by
  unfold State.comesTo
  try dsimp only
  repeat' first
    | with_reducible exact Keeps.refl _ _
    | assumption
    | (with_reducible refine (State.timeTo_keeps h_regs h_staged h_cmds h_readData h_resp h_msix h_fresh h_sb h_cores h_ctxs h_wdog h_chans h_repeatAge h_reins h_hide h_axes h_cams h_bed h_lanes h_time h_segs h_lamp h_therm h_cal h_burn h_sec h_harn _ _ _).after ?_)
    | split
    | (intro)
    | (dsimp only)

end Sys2Proof.Machine
end

