-- ==== Sys2Proof/Laws/KeepsBoundary.lean ====
section
/-! SUPPORT. What each operation of Machine/Boundary.lean leaves: the pieces of the state that it does not name, the part, and
the canonical form. -/

namespace Sys2Proof.Machine

/-- What State.endOfStitch leaves. -/
theorem State.endOfStitch_keeps {pm : Piece → Bool} (h_regs : pm .regs = true) (h_staged : pm .staged = true) (h_cmds : pm .cmds = true) (h_readData : pm .readData = true) (h_resp : pm .resp = true) (h_msix : pm .msix = true) (h_fresh : pm .fresh = true) (h_sb : pm .sb = true) (h_cores : pm .cores = true) (h_ctxs : pm .ctxs = true) (h_wdog : pm .wdog = true) (h_chans : pm .chans = true) (h_repeatAge : pm .repeatAge = true) (h_reins : pm .reins = true) (h_hide : pm .hide = true) (h_axes : pm .axes = true) (h_cams : pm .cams = true) (h_bed : pm .bed = true) (h_lanes : pm .lanes = true) (h_time : pm .time = true) (h_segs : pm .segs = true) (h_lamp : pm .lamp = true) (h_therm : pm .therm = true) (h_cal : pm .cal = true) (h_burn : pm .burn = true) (h_sec : pm .sec = true) (h_harn : pm .harn = true) (s : State) :
    Keeps pm s (State.endOfStitch s) := by
  unfold State.endOfStitch
  try dsimp only
  repeat' first
    | with_reducible exact Keeps.refl _ _
    | assumption
    | (with_reducible refine (State.isoDeliver_keeps h_regs h_msix h_sb h_chans _ _).after ?_)
    | (with_reducible refine (State.hideEnd_keeps h_regs h_msix h_sb h_hide _).after ?_)
    | (with_reducible refine (State.traceFlush_keeps h_regs h_msix h_sb h_reins _ _).after ?_)
    | (with_reducible refine (State.axWalk_keeps h_axes _ _).after ?_)
    | (with_reducible refine (State.endSlots_keeps h_regs h_staged h_cmds h_readData h_resp h_msix h_fresh h_sb h_cores h_ctxs h_wdog h_chans h_repeatAge h_reins h_hide h_axes h_cams h_bed h_lanes h_time h_segs h_lamp h_therm h_cal h_burn h_sec h_harn _).after ?_)
    | (with_reducible refine (keeps_foldl ?_ _ _).after ?_)
    | split
    | (intro)
    | (dsimp only)

/-- What State.countOn leaves. -/
theorem State.countOn_keeps {pm : Piece → Bool} (h_stitch : pm .stitch = true) (h_regs : pm .regs = true) (h_msix : pm .msix = true) (h_tclk : pm .tclk = true) (h_time : pm .time = true) (s : State) (n : Nat) :
    Keeps pm s (State.countOn s n) := by
  unfold State.countOn
  try dsimp only
  repeat' first
    | with_reducible exact Keeps.refl _ _
    | assumption
    | (with_reducible refine (State.setReg_keeps h_regs _ _ _).after ?_)
    | (with_reducible refine (State.timeAdvance_keeps h_time _ _).after ?_)
    | (with_reducible refine (State.sendAllPending_keeps h_regs h_msix _).after ?_)
    | split
    | (with_reducible refine (keeps_stitch_msix_tclk h_stitch h_msix h_tclk).after ?_)
    | (intro)
    | (dsimp only)

/-- What State.sample leaves. -/
theorem State.sample_keeps {pm : Piece → Bool} (h_regs : pm .regs = true) (h_msix : pm .msix = true) (h_sb : pm .sb = true) (h_ain : pm .ain = true) (h_spt : pm .spt = true) (h_axes : pm .axes = true) (h_lanes : pm .lanes = true) (h_cal : pm .cal = true) (s : State) (inp : BoundaryIn) :
    Keeps pm s (State.sample s inp) := by
  unfold State.sample
  try dsimp only
  repeat' first
    | with_reducible exact Keeps.refl _ _
    | assumption
    | (with_reducible refine (State.setFld_keeps h_regs _ _ _).after ?_)
    | (with_reducible refine (State.axSample_keeps h_regs h_axes _ _ _).after ?_)
    | (with_reducible refine (State.latchStatus_keeps h_regs h_msix h_sb h_lanes h_cal _ _).after ?_)
    | (with_reducible refine (keeps_foldl ?_ _ _).after ?_)
    | split
    | (with_reducible refine (keeps_ain_spt h_ain h_spt).after ?_)
    | (intro)
    | (dsimp only)

/-- What State.commitReg leaves. -/
theorem State.commitReg_keeps {pm : Piece → Bool} (h_regs : pm .regs = true) (h_staged : pm .staged = true) (h_lamp : pm .lamp = true) (s : State) (a : Nat) (w : Word) :
    Keeps pm s (State.commitReg s a w) := by
  unfold State.commitReg
  try dsimp only
  repeat' first
    | with_reducible exact Keeps.refl _ _
    | assumption
    | (with_reducible refine (State.setReg_keeps h_regs _ _ _).after ?_)
    | (with_reducible refine (State.onLamp_keeps h_lamp _ _).after ?_)
    | (with_reducible refine (keeps_foldl ?_ _ _).after ?_)
    | split
    | (with_reducible refine (keeps_staged h_staged ?_).after ?_)
    | (with_reducible exact fun hc => swf_sset hc.staged _ _)
    | (with_reducible exact fun hc => swf_sdel hc.staged _)
    | (with_reducible exact fun hc => swf_filter hc.staged _)
    | (intro)
    | (dsimp only)

/-- What State.commitAll leaves. -/
theorem State.commitAll_keeps {pm : Piece → Bool} (h_regs : pm .regs = true) (h_staged : pm .staged = true) (h_lamp : pm .lamp = true) (s : State) :
    Keeps pm s (State.commitAll s) := by
  unfold State.commitAll
  try dsimp only
  repeat' first
    | with_reducible exact Keeps.refl _ _
    | assumption
    | (with_reducible refine (State.commitReg_keeps h_regs h_staged h_lamp _ _ _).after ?_)
    | (with_reducible refine (keeps_foldl ?_ _ _).after ?_)
    | split
    | (intro)
    | (dsimp only)

/-- What State.periodChange leaves. -/
theorem State.periodChange_keeps {pm : Piece → Bool} (h_regs : pm .regs = true) (h_staged : pm .staged = true) (h_msix : pm .msix = true) (h_sb : pm .sb = true) (h_chans : pm .chans = true) (h_awls : pm .awls = true) (h_lanes : pm .lanes = true) (s : State) :
    Keeps pm s (State.periodChange s) := by
  unfold State.periodChange
  try dsimp only
  repeat' first
    | with_reducible exact Keeps.refl _ _
    | assumption
    | (with_reducible refine (State.setReg_keeps h_regs _ _ _).after ?_)
    | (with_reducible refine (State.setFld_keeps h_regs _ _ _).after ?_)
    | (with_reducible refine (State.fetchersAtPeriod_keeps h_regs h_chans _ _ _).after ?_)
    | (with_reducible refine (State.imgOverload_keeps h_regs _ _).after ?_)
    | (with_reducible refine (State.laneAtPeriod_keeps h_regs h_msix h_sb h_awls h_lanes _ _).after ?_)
    | (with_reducible refine (State.lampAtPeriod_keeps h_regs _).after ?_)
    | (with_reducible refine (keeps_foldl ?_ _ _).after ?_)
    | split
    | (with_reducible refine (keeps_staged h_staged ?_).after ?_)
    | (with_reducible exact fun hc => swf_sset hc.staged _ _)
    | (with_reducible exact fun hc => swf_sdel hc.staged _)
    | (exact fun hc => swf_sdel hc.staged _)
    | (intro)
    | (dsimp only)

/-- What State.actionWrites leaves. -/
theorem State.actionWrites_keeps {pm : Piece → Bool} (h_regs : pm .regs = true) (h_staged : pm .staged = true) (h_cmds : pm .cmds = true) (h_readData : pm .readData = true) (h_resp : pm .resp = true) (h_msix : pm .msix = true) (h_fresh : pm .fresh = true) (h_sb : pm .sb = true) (h_cores : pm .cores = true) (h_wdog : pm .wdog = true) (h_chans : pm .chans = true) (h_repeatAge : pm .repeatAge = true) (h_reins : pm .reins = true) (h_hide : pm .hide = true) (h_axes : pm .axes = true) (h_cams : pm .cams = true) (h_bed : pm .bed = true) (h_lanes : pm .lanes = true) (h_time : pm .time = true) (h_segs : pm .segs = true) (h_lamp : pm .lamp = true) (h_therm : pm .therm = true) (h_cal : pm .cal = true) (h_burn : pm .burn = true) (h_sec : pm .sec = true) (h_harn : pm .harn = true) (s : State) :
    Keeps pm s (State.actionWrites s) := by
  unfold State.actionWrites
  try dsimp only
  repeat' first
    | with_reducible exact Keeps.refl _ _
    | assumption
    | (with_reducible refine (State.busWrite_keeps h_regs h_staged h_cmds h_readData h_resp h_msix h_fresh h_sb h_cores h_wdog h_chans h_repeatAge h_reins h_hide h_axes h_cams h_bed h_lanes h_time h_segs h_lamp h_therm h_cal h_burn h_sec h_harn _ _ _ _).after ?_)
    | (with_reducible refine (keeps_foldl ?_ _ _).after ?_)
    | split
    | (with_reducible refine (keeps_time h_time).after ?_)
    | (intro)
    | (dsimp only)

/-- What State.commit leaves. -/
theorem State.commit_keeps {pm : Piece → Bool} (h_regs : pm .regs = true) (h_staged : pm .staged = true) (h_cmds : pm .cmds = true) (h_holds : pm .holds = true) (h_readData : pm .readData = true) (h_resp : pm .resp = true) (h_msix : pm .msix = true) (h_fresh : pm .fresh = true) (h_sb : pm .sb = true) (h_cores : pm .cores = true) (h_wdog : pm .wdog = true) (h_chans : pm .chans = true) (h_repeatAge : pm .repeatAge = true) (h_awls : pm .awls = true) (h_reins : pm .reins = true) (h_hide : pm .hide = true) (h_axes : pm .axes = true) (h_cams : pm .cams = true) (h_bed : pm .bed = true) (h_lanes : pm .lanes = true) (h_time : pm .time = true) (h_segs : pm .segs = true) (h_lamp : pm .lamp = true) (h_therm : pm .therm = true) (h_cal : pm .cal = true) (h_burn : pm .burn = true) (h_sec : pm .sec = true) (h_harn : pm .harn = true) (s : State) :
    Keeps pm s (State.commit s) := by
  unfold State.commit
  try dsimp only
  repeat' first
    | with_reducible exact Keeps.refl _ _
    | assumption
    | (with_reducible refine (State.thrmBoundary_keeps h_regs h_therm _).after ?_)
    | (with_reducible refine (State.countHolds_keeps h_holds _).after ?_)
    | (with_reducible refine (State.grantBoundary_keeps h_regs h_msix h_sb h_repeatAge h_reins h_hide h_cal h_sec h_harn _).after ?_)
    | (with_reducible refine (State.commitAll_keeps h_regs h_staged h_lamp _).after ?_)
    | (with_reducible refine (State.periodChange_keeps h_regs h_staged h_msix h_sb h_chans h_awls h_lanes _).after ?_)
    | (with_reducible refine (State.actionWrites_keeps h_regs h_staged h_cmds h_readData h_resp h_msix h_fresh h_sb h_cores h_wdog h_chans h_repeatAge h_reins h_hide h_axes h_cams h_bed h_lanes h_time h_segs h_lamp h_therm h_cal h_burn h_sec h_harn _).after ?_)
    | split
    | (intro)
    | (dsimp only)

/-- What State.runCmd leaves. -/
theorem State.runCmd_keeps {pm : Piece → Bool} (h_stitch : pm .stitch = true) (h_regs : pm .regs = true) (h_staged : pm .staged = true) (h_cmds : pm .cmds = true) (h_holds : pm .holds = true) (h_readData : pm .readData = true) (h_resp : pm .resp = true) (h_msix : pm .msix = true) (h_fresh : pm .fresh = true) (h_sb : pm .sb = true) (h_cores : pm .cores = true) (h_ctxs : pm .ctxs = true) (h_wdog : pm .wdog = true) (h_mem : pm .mem = true) (h_badLines : pm .badLines = true) (h_chans : pm .chans = true) (h_repeatAge : pm .repeatAge = true) (h_tclk : pm .tclk = true) (h_emitEn : pm .emitEn = true) (h_ain : pm .ain = true) (h_spt : pm .spt = true) (h_awls : pm .awls = true) (h_reins : pm .reins = true) (h_hide : pm .hide = true) (h_tree : pm .tree = true) (h_axes : pm .axes = true) (h_skiver : pm .skiver = true) (h_cams : pm .cams = true) (h_bed : pm .bed = true) (h_lanes : pm .lanes = true) (h_time : pm .time = true) (h_segs : pm .segs = true) (h_eths : pm .eths = true) (h_lamp : pm .lamp = true) (h_power : pm .power = true) (h_therm : pm .therm = true) (h_cal : pm .cal = true) (h_burn : pm .burn = true) (h_sec : pm .sec = true) (h_harn : pm .harn = true) (h_mark : pm .mark = true) (s : State) (e : Nat × Word) :
    Keeps pm s (State.runCmd s e) := by
  unfold State.runCmd
  try dsimp only
  repeat' first
    | with_reducible exact Keeps.refl _ _
    | assumption
    | (with_reducible refine (State.awlStopCmd_keeps h_regs h_msix h_sb h_awls h_reins _ _).after ?_)
    | (with_reducible refine (State.awlClearCmd_keeps h_regs h_msix h_sb h_awls _ _).after ?_)
    | (with_reducible refine (State.awlGotoCmd_keeps h_regs h_msix h_sb h_awls _ _).after ?_)
    | (with_reducible refine (State.axCommand_keeps h_regs h_cmds h_msix h_sb h_axes h_skiver _ _ _).after ?_)
    | (with_reducible refine (State.skvReadyCmd_keeps h_regs h_msix h_sb h_tree h_skiver _).after ?_)
    | (with_reducible refine (State.skvRetryCmd_keeps h_regs h_msix h_sb h_skiver _).after ?_)
    | (with_reducible refine (State.jobCommand_keeps h_regs h_readData h_resp h_msix h_fresh h_sb h_chans h_repeatAge h_awls h_reins h_hide h_tree h_axes h_skiver _ _).after ?_)
    | (with_reducible refine (State.laneCommand_keeps h_regs h_msix h_sb h_awls h_lanes _ _ _).after ?_)
    | (with_reducible refine (State.armAct_keeps h_regs h_time _ _).after ?_)
    | (with_reducible refine (State.powerCommand_keeps h_stitch h_regs h_staged h_cmds h_holds h_msix h_sb h_cores h_ctxs h_wdog h_mem h_badLines h_chans h_repeatAge h_tclk h_emitEn h_ain h_spt h_awls h_reins h_hide h_tree h_axes h_skiver h_cams h_bed h_lanes h_time h_segs h_eths h_lamp h_power h_therm h_cal h_burn h_sec h_harn h_mark _ _).after ?_)
    | (with_reducible refine (State.harnCommand_keeps h_regs _ _).after ?_)
    | split
    | (intro)
    | (dsimp only)

/-- What State.powerStep leaves. -/
theorem State.powerStep_keeps {pm : Piece → Bool} (h_stitch : pm .stitch = true) (h_regs : pm .regs = true) (h_staged : pm .staged = true) (h_cmds : pm .cmds = true) (h_holds : pm .holds = true) (h_readData : pm .readData = true) (h_resp : pm .resp = true) (h_msix : pm .msix = true) (h_fresh : pm .fresh = true) (h_sb : pm .sb = true) (h_cores : pm .cores = true) (h_ctxs : pm .ctxs = true) (h_wdog : pm .wdog = true) (h_mem : pm .mem = true) (h_badLines : pm .badLines = true) (h_chans : pm .chans = true) (h_repeatAge : pm .repeatAge = true) (h_tclk : pm .tclk = true) (h_emitEn : pm .emitEn = true) (h_ain : pm .ain = true) (h_spt : pm .spt = true) (h_awls : pm .awls = true) (h_reins : pm .reins = true) (h_hide : pm .hide = true) (h_tree : pm .tree = true) (h_axes : pm .axes = true) (h_skiver : pm .skiver = true) (h_cams : pm .cams = true) (h_bed : pm .bed = true) (h_lanes : pm .lanes = true) (h_time : pm .time = true) (h_segs : pm .segs = true) (h_eths : pm .eths = true) (h_lamp : pm .lamp = true) (h_power : pm .power = true) (h_therm : pm .therm = true) (h_cal : pm .cal = true) (h_burn : pm .burn = true) (h_sec : pm .sec = true) (h_harn : pm .harn = true) (h_mark : pm .mark = true) (s : State) :
    Keeps pm s (State.powerStep s) := by
  unfold State.powerStep
  try dsimp only
  repeat' first
    | with_reducible exact Keeps.refl _ _
    | assumption
    | (with_reducible refine (State.restartBoundary_keeps h_regs h_cmds h_readData h_resp h_msix h_fresh h_sb h_cores h_ctxs h_mem h_badLines h_chans h_repeatAge h_awls h_reins h_hide h_tree h_axes h_cams h_lanes h_segs h_lamp h_power h_cal _).after ?_)
    | (with_reducible refine (State.runCmd_keeps h_stitch h_regs h_staged h_cmds h_holds h_readData h_resp h_msix h_fresh h_sb h_cores h_ctxs h_wdog h_mem h_badLines h_chans h_repeatAge h_tclk h_emitEn h_ain h_spt h_awls h_reins h_hide h_tree h_axes h_skiver h_cams h_bed h_lanes h_time h_segs h_eths h_lamp h_power h_therm h_cal h_burn h_sec h_harn h_mark _ _).after ?_)
    | (with_reducible refine (keeps_foldl ?_ _ _).after ?_)
    | split
    | (with_reducible refine (keeps_cmds h_cmds).after ?_)
    | (intro)
    | (dsimp only)

/-- What State.commandStep leaves. -/
theorem State.commandStep_keeps {pm : Piece → Bool} (h_stitch : pm .stitch = true) (h_regs : pm .regs = true) (h_staged : pm .staged = true) (h_cmds : pm .cmds = true) (h_holds : pm .holds = true) (h_readData : pm .readData = true) (h_resp : pm .resp = true) (h_msix : pm .msix = true) (h_fresh : pm .fresh = true) (h_sb : pm .sb = true) (h_cores : pm .cores = true) (h_ctxs : pm .ctxs = true) (h_wdog : pm .wdog = true) (h_mem : pm .mem = true) (h_badLines : pm .badLines = true) (h_chans : pm .chans = true) (h_repeatAge : pm .repeatAge = true) (h_tclk : pm .tclk = true) (h_emitEn : pm .emitEn = true) (h_ain : pm .ain = true) (h_spt : pm .spt = true) (h_awls : pm .awls = true) (h_reins : pm .reins = true) (h_hide : pm .hide = true) (h_tree : pm .tree = true) (h_axes : pm .axes = true) (h_skiver : pm .skiver = true) (h_cams : pm .cams = true) (h_bed : pm .bed = true) (h_lanes : pm .lanes = true) (h_time : pm .time = true) (h_segs : pm .segs = true) (h_eths : pm .eths = true) (h_lamp : pm .lamp = true) (h_power : pm .power = true) (h_therm : pm .therm = true) (h_cal : pm .cal = true) (h_burn : pm .burn = true) (h_sec : pm .sec = true) (h_harn : pm .harn = true) (h_mark : pm .mark = true) (s : State) :
    Keeps pm s (State.commandStep s) := by
  unfold State.commandStep
  try dsimp only
  repeat' first
    | with_reducible exact Keeps.refl _ _
    | assumption
    | (with_reducible refine (State.runCmd_keeps h_stitch h_regs h_staged h_cmds h_holds h_readData h_resp h_msix h_fresh h_sb h_cores h_ctxs h_wdog h_mem h_badLines h_chans h_repeatAge h_tclk h_emitEn h_ain h_spt h_awls h_reins h_hide h_tree h_axes h_skiver h_cams h_bed h_lanes h_time h_segs h_eths h_lamp h_power h_therm h_cal h_burn h_sec h_harn h_mark _ _).after ?_)
    | (with_reducible refine (keeps_foldl ?_ _ _).after ?_)
    | split
    | (with_reducible refine (keeps_cmds h_cmds).after ?_)
    | (intro)
    | (dsimp only)

/-- What State.storeStep leaves. -/
theorem State.storeStep_keeps {pm : Piece → Bool} (h_regs : pm .regs = true) (h_readData : pm .readData = true) (h_resp : pm .resp = true) (h_msix : pm .msix = true) (h_sb : pm .sb = true) (h_cores : pm .cores = true) (h_ctxs : pm .ctxs = true) (h_chans : pm .chans = true) (s : State) (old : Nat) :
    Keeps pm s (State.storeStep s old) := by
  unfold State.storeStep
  try dsimp only
  repeat' first
    | with_reducible exact Keeps.refl _ _
    | assumption
    | (with_reducible refine (State.dramBoundary_keeps h_regs h_msix h_sb h_chans _ _).after ?_)
    | (with_reducible refine (State.portBoundary_keeps h_regs h_readData h_resp h_sb _).after ?_)
    | (with_reducible refine (State.coreBoundary_keeps h_regs h_msix h_sb h_cores h_ctxs _ _ _).after ?_)
    | (with_reducible refine (keeps_foldl ?_ _ _).after ?_)
    | split
    | (intro)
    | (dsimp only)

/-- What State.emit leaves. -/
theorem State.emit_keeps {pm : Piece → Bool} (h_regs : pm .regs = true) (h_msix : pm .msix = true) (h_sb : pm .sb = true) (h_emitEn : pm .emitEn = true) (h_awls : pm .awls = true) (h_mark : pm .mark = true) (s : State) :
    Keeps pm s (State.emit s) := by
  unfold State.emit
  try dsimp only
  repeat' first
    | with_reducible exact Keeps.refl _ _
    | assumption
    | (with_reducible refine (State.awlBoundary_keeps h_regs h_msix h_sb h_awls _ _).after ?_)
    | (with_reducible refine (keeps_foldl ?_ _ _).after ?_)
    | split
    | (with_reducible refine (keeps_emitEn_mark h_emitEn h_mark).after ?_)
    | (intro)
    | (dsimp only)

/-- What State.slotStep leaves. -/
theorem State.slotStep_keeps {pm : Piece → Bool} (h_regs : pm .regs = true) (h_readData : pm .readData = true) (h_resp : pm .resp = true) (h_msix : pm .msix = true) (h_fresh : pm .fresh = true) (h_sb : pm .sb = true) (h_chans : pm .chans = true) (h_repeatAge : pm .repeatAge = true) (h_awls : pm .awls = true) (h_reins : pm .reins = true) (h_hide : pm .hide = true) (s : State) (k : Nat) :
    Keeps pm s (State.slotStep s k) := by
  unfold State.slotStep
  try dsimp only
  repeat' first
    | with_reducible exact Keeps.refl _ _
    | assumption
    | (with_reducible refine (State.formBlock_keeps h_regs h_msix h_sb h_awls _ _).after ?_)
    | (with_reducible refine (State.reinBoundary_keeps h_regs h_readData h_resp h_msix h_fresh h_sb h_chans h_repeatAge h_reins h_hide _ _).after ?_)
    | split
    | (intro)
    | (dsimp only)

/-- What State.meltStep leaves. -/
theorem State.meltStep_keeps {pm : Piece → Bool} (h_regs : pm .regs = true) (h_readData : pm .readData = true) (h_resp : pm .resp = true) (h_msix : pm .msix = true) (h_fresh : pm .fresh = true) (h_sb : pm .sb = true) (h_chans : pm .chans = true) (h_repeatAge : pm .repeatAge = true) (h_awls : pm .awls = true) (h_reins : pm .reins = true) (h_hide : pm .hide = true) (s : State) :
    Keeps pm s (State.meltStep s) := by
  unfold State.meltStep
  try dsimp only
  repeat' first
    | with_reducible exact Keeps.refl _ _
    | assumption
    | (with_reducible refine (State.hideBoundary_keeps h_regs h_msix h_sb h_hide _).after ?_)
    | (with_reducible refine (State.slotStep_keeps h_regs h_readData h_resp h_msix h_fresh h_sb h_chans h_repeatAge h_awls h_reins h_hide _ _).after ?_)
    | (with_reducible refine (keeps_foldl ?_ _ _).after ?_)
    | split
    | (intro)
    | (dsimp only)

/-- What State.axesStep leaves. -/
theorem State.axesStep_keeps {pm : Piece → Bool} (h_regs : pm .regs = true) (h_msix : pm .msix = true) (h_fresh : pm .fresh = true) (h_sb : pm .sb = true) (h_axes : pm .axes = true) (h_skiver : pm .skiver = true) (s : State) :
    Keeps pm s (State.axesStep s) := by
  unfold State.axesStep
  try dsimp only
  repeat' first
    | with_reducible exact Keeps.refl _ _
    | assumption
    | (with_reducible refine (State.axJudge_keeps h_regs h_msix h_fresh h_sb h_axes h_skiver _ _).after ?_)
    | (with_reducible refine (keeps_foldl ?_ _ _).after ?_)
    | split
    | (intro)
    | (dsimp only)

/-- What State.motionStep leaves. -/
theorem State.motionStep_keeps {pm : Piece → Bool} (h_regs : pm .regs = true) (h_staged : pm .staged = true) (h_readData : pm .readData = true) (h_resp : pm .resp = true) (h_msix : pm .msix = true) (h_fresh : pm .fresh = true) (h_sb : pm .sb = true) (h_repeatAge : pm .repeatAge = true) (h_awls : pm .awls = true) (h_reins : pm .reins = true) (h_hide : pm .hide = true) (h_tree : pm .tree = true) (h_axes : pm .axes = true) (h_skiver : pm .skiver = true) (h_cams : pm .cams = true) (h_bed : pm .bed = true) (s : State) :
    Keeps pm s (State.motionStep s) := by
  unfold State.motionStep
  try dsimp only
  repeat' first
    | with_reducible exact Keeps.refl _ _
    | assumption
    | (with_reducible refine (State.axisBoundary_keeps h_regs h_axes _ _).after ?_)
    | (with_reducible refine (State.skvBoundary_keeps h_regs h_msix h_sb h_axes h_skiver _).after ?_)
    | (with_reducible refine (State.treeBoundary_keeps h_regs h_msix h_sb h_awls h_reins h_tree _).after ?_)
    | (with_reducible refine (State.imgBoundary_keeps h_regs h_staged h_readData h_resp h_msix h_fresh h_sb h_repeatAge h_hide h_cams h_bed _ _).after ?_)
    | (with_reducible refine (keeps_foldl ?_ _ _).after ?_)
    | split
    | (intro)
    | (dsimp only)

/-- What State.outerStep leaves. -/
theorem State.outerStep_keeps {pm : Piece → Bool} (h_stitch : pm .stitch = true) (h_regs : pm .regs = true) (h_msix : pm .msix = true) (h_fresh : pm .fresh = true) (h_sb : pm .sb = true) (h_cores : pm .cores = true) (h_ctxs : pm .ctxs = true) (h_wdog : pm .wdog = true) (h_mem : pm .mem = true) (h_badLines : pm .badLines = true) (h_awls : pm .awls = true) (h_hide : pm .hide = true) (h_lanes : pm .lanes = true) (h_segs : pm .segs = true) (h_lamp : pm .lamp = true) (h_cal : pm .cal = true) (h_sec : pm .sec = true) (h_harn : pm .harn = true) (s : State) (old : Nat) :
    Keeps pm s (State.outerStep s old) := by
  unfold State.outerStep
  try dsimp only
  repeat' first
    | with_reducible exact Keeps.refl _ _
    | assumption
    | (with_reducible refine (State.wdogBoundary_keeps h_wdog _).after ?_)
    | (with_reducible refine (State.showPeriodMin_keeps h_regs _).after ?_)
    | (with_reducible refine (State.laneBoundary_keeps h_regs h_msix h_sb h_awls h_lanes _ _).after ?_)
    | (with_reducible refine (State.lampBoundary_keeps h_regs h_msix h_sb h_segs h_lamp _).after ?_)
    | (with_reducible refine (State.guardBoundary_keeps h_regs _).after ?_)
    | (with_reducible refine (State.calBoundary_keeps h_regs h_cal _).after ?_)
    | (with_reducible refine (State.ilkBoundary_keeps h_sec _ _).after ?_)
    | (with_reducible refine (State.harnBoundary_keeps h_stitch h_regs h_fresh h_sb h_cores h_ctxs h_mem h_badLines h_hide h_harn _).after ?_)
    | (with_reducible refine (keeps_foldl ?_ _ _).after ?_)
    | split
    | (intro)
    | (dsimp only)

/-- What State.forwardOne leaves. -/
theorem State.forwardOne_keeps {pm : Piece → Bool} (h_regs : pm .regs = true) (h_staged : pm .staged = true) (h_cmds : pm .cmds = true) (h_readData : pm .readData = true) (h_resp : pm .resp = true) (h_msix : pm .msix = true) (h_fresh : pm .fresh = true) (h_sb : pm .sb = true) (h_cores : pm .cores = true) (h_wdog : pm .wdog = true) (h_mem : pm .mem = true) (h_badLines : pm .badLines = true) (h_chans : pm .chans = true) (h_repeatAge : pm .repeatAge = true) (h_reins : pm .reins = true) (h_hide : pm .hide = true) (h_axes : pm .axes = true) (h_cams : pm .cams = true) (h_bed : pm .bed = true) (h_lanes : pm .lanes = true) (h_time : pm .time = true) (h_segs : pm .segs = true) (h_lamp : pm .lamp = true) (h_therm : pm .therm = true) (h_cal : pm .cal = true) (h_burn : pm .burn = true) (h_sec : pm .sec = true) (h_harn : pm .harn = true) (s : State) (z0 : Forwarded) :
    Keeps pm s (State.forwardOne s z0) := by
  unfold State.forwardOne
  try dsimp only
  repeat' first
    | with_reducible exact Keeps.refl _ _
    | assumption
    | (with_reducible refine (State.forwardedLine_keeps h_regs h_readData h_resp h_msix h_sb h_mem h_badLines h_chans h_repeatAge _ _ _ _ _).after ?_)
    | (with_reducible refine (State.aperWrite_keeps h_regs h_readData h_resp h_msix h_fresh h_sb h_repeatAge h_hide _ _ _ _).after ?_)
    | (with_reducible refine (State.forwarded_keeps h_regs h_staged h_cmds h_readData h_resp h_msix h_fresh h_sb h_cores h_wdog h_chans h_repeatAge h_reins h_hide h_axes h_cams h_bed h_lanes h_time h_segs h_lamp h_therm h_cal h_burn h_sec h_harn _ _ _).after ?_)
    | split
    | (intro)
    | (dsimp only)

/-- What State.forwardStep leaves. -/
theorem State.forwardStep_keeps {pm : Piece → Bool} (h_regs : pm .regs = true) (h_staged : pm .staged = true) (h_cmds : pm .cmds = true) (h_readData : pm .readData = true) (h_resp : pm .resp = true) (h_msix : pm .msix = true) (h_fresh : pm .fresh = true) (h_sb : pm .sb = true) (h_cores : pm .cores = true) (h_wdog : pm .wdog = true) (h_mem : pm .mem = true) (h_badLines : pm .badLines = true) (h_chans : pm .chans = true) (h_repeatAge : pm .repeatAge = true) (h_reins : pm .reins = true) (h_hide : pm .hide = true) (h_axes : pm .axes = true) (h_cams : pm .cams = true) (h_bed : pm .bed = true) (h_lanes : pm .lanes = true) (h_time : pm .time = true) (h_segs : pm .segs = true) (h_lamp : pm .lamp = true) (h_therm : pm .therm = true) (h_cal : pm .cal = true) (h_burn : pm .burn = true) (h_sec : pm .sec = true) (h_harn : pm .harn = true) (s : State) :
    Keeps pm s (State.forwardStep s) := by
  unfold State.forwardStep
  try dsimp only
  repeat' first
    | with_reducible exact Keeps.refl _ _
    | assumption
    | (with_reducible refine (State.onHarn_keeps h_harn _ _).after ?_)
    | (with_reducible refine (State.forwardOne_keeps h_regs h_staged h_cmds h_readData h_resp h_msix h_fresh h_sb h_cores h_wdog h_mem h_badLines h_chans h_repeatAge h_reins h_hide h_axes h_cams h_bed h_lanes h_time h_segs h_lamp h_therm h_cal h_burn h_sec h_harn _ _).after ?_)
    | (with_reducible refine (keeps_foldl ?_ _ _).after ?_)
    | split
    | (intro)
    | (dsimp only)

/-- What State.boundaryStart leaves. -/
theorem State.boundaryStart_keeps {pm : Piece → Bool} (h_stitch : pm .stitch = true) (h_regs : pm .regs = true) (h_staged : pm .staged = true) (h_cmds : pm .cmds = true) (h_holds : pm .holds = true) (h_readData : pm .readData = true) (h_resp : pm .resp = true) (h_msix : pm .msix = true) (h_fresh : pm .fresh = true) (h_sb : pm .sb = true) (h_cores : pm .cores = true) (h_ctxs : pm .ctxs = true) (h_wdog : pm .wdog = true) (h_mem : pm .mem = true) (h_badLines : pm .badLines = true) (h_chans : pm .chans = true) (h_repeatAge : pm .repeatAge = true) (h_tclk : pm .tclk = true) (h_emitEn : pm .emitEn = true) (h_ain : pm .ain = true) (h_spt : pm .spt = true) (h_awls : pm .awls = true) (h_reins : pm .reins = true) (h_hide : pm .hide = true) (h_tree : pm .tree = true) (h_axes : pm .axes = true) (h_skiver : pm .skiver = true) (h_cams : pm .cams = true) (h_bed : pm .bed = true) (h_lanes : pm .lanes = true) (h_time : pm .time = true) (h_segs : pm .segs = true) (h_eths : pm .eths = true) (h_lamp : pm .lamp = true) (h_power : pm .power = true) (h_therm : pm .therm = true) (h_cal : pm .cal = true) (h_burn : pm .burn = true) (h_sec : pm .sec = true) (h_harn : pm .harn = true) (h_mark : pm .mark = true) (s : State) (inp : BoundaryIn) :
    Keeps pm s (State.boundaryStart s inp) := by
  unfold State.boundaryStart
  try dsimp only
  repeat' first
    | with_reducible exact Keeps.refl _ _
    | assumption
    | (with_reducible refine (State.endOfStitch_keeps h_regs h_staged h_cmds h_readData h_resp h_msix h_fresh h_sb h_cores h_ctxs h_wdog h_chans h_repeatAge h_reins h_hide h_axes h_cams h_bed h_lanes h_time h_segs h_lamp h_therm h_cal h_burn h_sec h_harn _).after ?_)
    | (with_reducible refine (State.countOn_keeps h_stitch h_regs h_msix h_tclk h_time _ _).after ?_)
    | (with_reducible refine (State.sample_keeps h_regs h_msix h_sb h_ain h_spt h_axes h_lanes h_cal _ _).after ?_)
    | (with_reducible refine (State.commit_keeps h_regs h_staged h_cmds h_holds h_readData h_resp h_msix h_fresh h_sb h_cores h_wdog h_chans h_repeatAge h_awls h_reins h_hide h_axes h_cams h_bed h_lanes h_time h_segs h_lamp h_therm h_cal h_burn h_sec h_harn _).after ?_)
    | (with_reducible refine (State.powerStep_keeps h_stitch h_regs h_staged h_cmds h_holds h_readData h_resp h_msix h_fresh h_sb h_cores h_ctxs h_wdog h_mem h_badLines h_chans h_repeatAge h_tclk h_emitEn h_ain h_spt h_awls h_reins h_hide h_tree h_axes h_skiver h_cams h_bed h_lanes h_time h_segs h_eths h_lamp h_power h_therm h_cal h_burn h_sec h_harn h_mark _).after ?_)
    | split
    | (intro)
    | (dsimp only)

/-- What State.boundaryRest leaves. -/
theorem State.boundaryRest_keeps {pm : Piece → Bool} (h_stitch : pm .stitch = true) (h_regs : pm .regs = true) (h_staged : pm .staged = true) (h_cmds : pm .cmds = true) (h_holds : pm .holds = true) (h_readData : pm .readData = true) (h_resp : pm .resp = true) (h_msix : pm .msix = true) (h_fresh : pm .fresh = true) (h_sb : pm .sb = true) (h_cores : pm .cores = true) (h_ctxs : pm .ctxs = true) (h_wdog : pm .wdog = true) (h_mem : pm .mem = true) (h_badLines : pm .badLines = true) (h_chans : pm .chans = true) (h_repeatAge : pm .repeatAge = true) (h_tclk : pm .tclk = true) (h_emitEn : pm .emitEn = true) (h_ain : pm .ain = true) (h_spt : pm .spt = true) (h_awls : pm .awls = true) (h_reins : pm .reins = true) (h_hide : pm .hide = true) (h_tree : pm .tree = true) (h_axes : pm .axes = true) (h_skiver : pm .skiver = true) (h_cams : pm .cams = true) (h_bed : pm .bed = true) (h_lanes : pm .lanes = true) (h_time : pm .time = true) (h_segs : pm .segs = true) (h_eths : pm .eths = true) (h_lamp : pm .lamp = true) (h_power : pm .power = true) (h_therm : pm .therm = true) (h_cal : pm .cal = true) (h_burn : pm .burn = true) (h_sec : pm .sec = true) (h_harn : pm .harn = true) (h_mark : pm .mark = true) (s : State) (old : Nat) (sel : Bool) :
    Keeps pm s (State.boundaryRest s old sel) := by
  unfold State.boundaryRest
  try dsimp only
  repeat' first
    | with_reducible exact Keeps.refl _ _
    | assumption
    | (with_reducible refine (State.gateClocks_keeps h_therm _).after ?_)
    | (with_reducible refine (State.timeBoundary_keeps h_regs h_msix h_fresh h_sb h_time _ _).after ?_)
    | (with_reducible refine (State.segBoundary_keeps h_regs h_sb h_hide h_segs _ _).after ?_)
    | (with_reducible refine (State.commandStep_keeps h_stitch h_regs h_staged h_cmds h_holds h_readData h_resp h_msix h_fresh h_sb h_cores h_ctxs h_wdog h_mem h_badLines h_chans h_repeatAge h_tclk h_emitEn h_ain h_spt h_awls h_reins h_hide h_tree h_axes h_skiver h_cams h_bed h_lanes h_time h_segs h_eths h_lamp h_power h_therm h_cal h_burn h_sec h_harn h_mark _).after ?_)
    | (with_reducible refine (State.storeStep_keeps h_regs h_readData h_resp h_msix h_sb h_cores h_ctxs h_chans _ _).after ?_)
    | (with_reducible refine (State.emit_keeps h_regs h_msix h_sb h_emitEn h_awls h_mark _).after ?_)
    | (with_reducible refine (State.meltStep_keeps h_regs h_readData h_resp h_msix h_fresh h_sb h_chans h_repeatAge h_awls h_reins h_hide _).after ?_)
    | (with_reducible refine (State.axesStep_keeps h_regs h_msix h_fresh h_sb h_axes h_skiver _).after ?_)
    | (with_reducible refine (State.motionStep_keeps h_regs h_staged h_readData h_resp h_msix h_fresh h_sb h_repeatAge h_awls h_reins h_hide h_tree h_axes h_skiver h_cams h_bed _).after ?_)
    | (with_reducible refine (State.outerStep_keeps h_stitch h_regs h_msix h_fresh h_sb h_cores h_ctxs h_wdog h_mem h_badLines h_awls h_hide h_lanes h_segs h_lamp h_cal h_sec h_harn _ _).after ?_)
    | (with_reducible refine (State.forwardStep_keeps h_regs h_staged h_cmds h_readData h_resp h_msix h_fresh h_sb h_cores h_wdog h_mem h_badLines h_chans h_repeatAge h_reins h_hide h_axes h_cams h_bed h_lanes h_time h_segs h_lamp h_therm h_cal h_burn h_sec h_harn _).after ?_)
    | (with_reducible refine (keeps_foldl ?_ _ _).after ?_)
    | split
    | (intro)
    | (dsimp only)

end Sys2Proof.Machine
end

