-- ==== Sys2Proof/Laws/KeepsWrites.lean ====
section
/-! SUPPORT. What each operation of Machine/Writes.lean leaves: the pieces of the state that it does not name, the part, and
the canonical form. -/

namespace Sys2Proof.Machine

/-- What State.busAccess leaves. -/
theorem State.busAccess_keeps {pm : Piece → Bool} (h_regs : pm .regs = true) (h_staged : pm .staged = true) (h_cmds : pm .cmds = true) (h_readData : pm .readData = true) (h_resp : pm .resp = true) (h_msix : pm .msix = true) (h_fresh : pm .fresh = true) (h_sb : pm .sb = true) (h_cores : pm .cores = true) (h_wdog : pm .wdog = true) (h_chans : pm .chans = true) (h_repeatAge : pm .repeatAge = true) (h_reins : pm .reins = true) (h_hide : pm .hide = true) (h_axes : pm .axes = true) (h_cams : pm .cams = true) (h_bed : pm .bed = true) (h_lanes : pm .lanes = true) (h_time : pm .time = true) (h_segs : pm .segs = true) (h_lamp : pm .lamp = true) (h_therm : pm .therm = true) (h_cal : pm .cal = true) (h_burn : pm .burn = true) (h_sec : pm .sec = true) (h_harn : pm .harn = true) (s : State) (src : Source) (a : Nat) (wr : Option Word) :
    Keeps pm s (State.busAccess s src a wr) := by
  unfold State.busAccess
  try dsimp only
  repeat' first
    | with_reducible exact Keeps.refl _ _
    | assumption
    | (with_reducible refine (State.busWrite_keeps h_regs h_staged h_cmds h_readData h_resp h_msix h_fresh h_sb h_cores h_wdog h_chans h_repeatAge h_reins h_hide h_axes h_cams h_bed h_lanes h_time h_segs h_lamp h_therm h_cal h_burn h_sec h_harn _ _ _ _).after ?_)
    | (with_reducible refine (State.busRead_keeps h_regs h_msix h_fresh h_sb _ _ _).after ?_)
    | (with_reducible refine (State.busRead_keeps_eq h_regs h_msix h_fresh h_sb _ _ _ (by assumption)).after ?_)
    | (with_reducible refine (State.answered_keeps h_readData _).after ?_)
    | split
    | (intro)
    | (dsimp only)

/-- What State.jtagAnswer leaves. -/
theorem State.jtagAnswer_keeps {pm : Piece → Bool} (h_sec : pm .sec = true) (s : State) (w : Word) :
    Keeps pm s (State.jtagAnswer s w) := by
  unfold State.jtagAnswer
  try dsimp only
  repeat' first
    | with_reducible exact Keeps.refl _ _
    | assumption
    | (with_reducible refine (State.onSec_keeps h_sec _ _).after ?_)
    | split
    | (intro)
    | (dsimp only)

/-- What State.jtagFree leaves. -/
theorem State.jtagFree_keeps {pm : Piece → Bool} (h_fresh : pm .fresh = true) (h_sec : pm .sec = true) (s : State) :
    Keeps pm s (State.jtagFree s) := by
  unfold State.jtagFree
  try dsimp only
  repeat' first
    | with_reducible exact Keeps.refl _ _
    | assumption
    | (with_reducible refine (State.tookFree_keeps h_fresh _).after ?_)
    | (with_reducible refine (State.jtagAnswer_keeps h_sec _ _).after ?_)
    | split
    | (intro)
    | (dsimp only)

end Sys2Proof.Machine
end

