-- ==== Sys2Proof/Laws/KeepsOperands.lean ====
section
/-! SUPPORT. What each operation of Machine/Operands.lean leaves: the pieces of the state that it does not name, the part, and
the canonical form. -/

namespace Sys2Proof.Machine

/-- What State.setDword leaves. -/
theorem State.setDword_keeps {pm : Piece → Bool} (h_cores : pm .cores = true) (s : State) (core a : Nat) (p : PWord) :
    Keeps pm s (State.setDword s core a p) := by
  unfold State.setDword
  try dsimp only
  repeat' first
    | with_reducible exact Keeps.refl _ _
    | assumption
    | (with_reducible refine (State.setCore_keeps h_cores _ _ _).after ?_)
    | split
    | (intro)
    | (dsimp only)

/-- What State.correctDword leaves. -/
theorem State.correctDword_keeps {pm : Piece → Bool} (h_cores : pm .cores = true) (s : State) (core a : Nat) :
    Keeps pm s (State.correctDword s core a) := by
  unfold State.correctDword
  try dsimp only
  repeat' first
    | with_reducible exact Keeps.refl _ _
    | assumption
    | (with_reducible refine (State.setDword_keeps h_cores _ _ _ _).after ?_)
    | split
    | (intro)
    | (dsimp only)

end Sys2Proof.Machine
end

