-- ==== Sys2Proof/Laws/KeepsIssue.lean ====
section
/-! SUPPORT. What each operation of Machine/Issue.lean leaves: the pieces of the state that it does not name, the part, and
the canonical form. -/

namespace Sys2Proof.Machine

/-- What State.runTo leaves. -/
theorem State.runTo_keeps {pm : Piece → Bool} (h_regs : pm .regs = true) (h_staged : pm .staged = true) (h_cmds : pm .cmds = true) (h_readData : pm .readData = true) (h_resp : pm .resp = true) (h_msix : pm .msix = true) (h_fresh : pm .fresh = true) (h_sb : pm .sb = true) (h_cores : pm .cores = true) (h_ctxs : pm .ctxs = true) (h_wdog : pm .wdog = true) (h_chans : pm .chans = true) (h_repeatAge : pm .repeatAge = true) (h_reins : pm .reins = true) (h_hide : pm .hide = true) (h_axes : pm .axes = true) (h_cams : pm .cams = true) (h_bed : pm .bed = true) (h_lanes : pm .lanes = true) (h_time : pm .time = true) (h_segs : pm .segs = true) (h_lamp : pm .lamp = true) (h_therm : pm .therm = true) (h_cal : pm .cal = true) (h_burn : pm .burn = true) (h_sec : pm .sec = true) (h_harn : pm .harn = true) (s : State) (core t stop : Nat) :
    Keeps pm s (State.runTo s core t stop) := by
  unfold State.runTo
  try dsimp only
  repeat' first
    | with_reducible exact Keeps.refl _ _
    | assumption
    | (with_reducible refine (State.setCore_keeps h_cores _ _ _).after ?_)
    | (with_reducible refine (State.passTo_keeps h_regs h_staged h_cmds h_readData h_resp h_msix h_fresh h_sb h_cores h_ctxs h_wdog h_chans h_repeatAge h_reins h_hide h_axes h_cams h_bed h_lanes h_time h_segs h_lamp h_therm h_cal h_burn h_sec h_harn _ _ _).after ?_)
    | split
    | (intro)
    | (dsimp only)

/-- What State.spend leaves. -/
theorem State.spend_keeps {pm : Piece → Bool} (h_regs : pm .regs = true) (h_staged : pm .staged = true) (h_cmds : pm .cmds = true) (h_readData : pm .readData = true) (h_resp : pm .resp = true) (h_msix : pm .msix = true) (h_fresh : pm .fresh = true) (h_sb : pm .sb = true) (h_cores : pm .cores = true) (h_ctxs : pm .ctxs = true) (h_wdog : pm .wdog = true) (h_chans : pm .chans = true) (h_repeatAge : pm .repeatAge = true) (h_reins : pm .reins = true) (h_hide : pm .hide = true) (h_axes : pm .axes = true) (h_cams : pm .cams = true) (h_bed : pm .bed = true) (h_lanes : pm .lanes = true) (h_time : pm .time = true) (h_segs : pm .segs = true) (h_lamp : pm .lamp = true) (h_therm : pm .therm = true) (h_cal : pm .cal = true) (h_burn : pm .burn = true) (h_sec : pm .sec = true) (h_harn : pm .harn = true) (s : State) (core n : Nat) (f : State → State) (hf_f : ∀ (y0 : State), Keeps pm y0 (f y0)) :
    Keeps pm s (State.spend s core n f) := by
  unfold State.spend
  try dsimp only
  repeat' first
    | with_reducible exact Keeps.refl _ _
    | assumption
    | (with_reducible refine (hf_f _).after ?_)
    | (with_reducible refine (State.endSlot_keeps h_regs h_staged h_cmds h_readData h_resp h_msix h_fresh h_sb h_cores h_ctxs h_wdog h_chans h_repeatAge h_reins h_hide h_axes h_cams h_bed h_lanes h_time h_segs h_lamp h_therm h_cal h_burn h_sec h_harn _ _).after ?_)
    | (with_reducible refine (State.runTo_keeps h_regs h_staged h_cmds h_readData h_resp h_msix h_fresh h_sb h_cores h_ctxs h_wdog h_chans h_repeatAge h_reins h_hide h_axes h_cams h_bed h_lanes h_time h_segs h_lamp h_therm h_cal h_burn h_sec h_harn _ _ _ _).after ?_)
    | split
    | (intro)
    | (dsimp only)

/-- What State.stall leaves. -/
theorem State.stall_keeps {pm : Piece → Bool} (h_regs : pm .regs = true) (h_staged : pm .staged = true) (h_cmds : pm .cmds = true) (h_readData : pm .readData = true) (h_resp : pm .resp = true) (h_msix : pm .msix = true) (h_fresh : pm .fresh = true) (h_sb : pm .sb = true) (h_cores : pm .cores = true) (h_ctxs : pm .ctxs = true) (h_wdog : pm .wdog = true) (h_chans : pm .chans = true) (h_repeatAge : pm .repeatAge = true) (h_reins : pm .reins = true) (h_hide : pm .hide = true) (h_axes : pm .axes = true) (h_cams : pm .cams = true) (h_bed : pm .bed = true) (h_lanes : pm .lanes = true) (h_time : pm .time = true) (h_segs : pm .segs = true) (h_lamp : pm .lamp = true) (h_therm : pm .therm = true) (h_cal : pm .cal = true) (h_burn : pm .burn = true) (h_sec : pm .sec = true) (h_harn : pm .harn = true) (s : State) (core : Nat) (t : Int) (f : State → State) (hf_f : ∀ (y0 : State), Keeps pm y0 (f y0)) :
    Keeps pm s (State.stall s core t f) := by
  unfold State.stall
  try dsimp only
  repeat' first
    | with_reducible exact Keeps.refl _ _
    | assumption
    | (with_reducible refine (hf_f _).after ?_)
    | (with_reducible refine (State.setCore_keeps h_cores _ _ _).after ?_)
    | (with_reducible refine (State.passTo_keeps h_regs h_staged h_cmds h_readData h_resp h_msix h_fresh h_sb h_cores h_ctxs h_wdog h_chans h_repeatAge h_reins h_hide h_axes h_cams h_bed h_lanes h_time h_segs h_lamp h_therm h_cal h_burn h_sec h_harn _ _ _).after ?_)
    | (with_reducible refine (State.endSlot_keeps h_regs h_staged h_cmds h_readData h_resp h_msix h_fresh h_sb h_cores h_ctxs h_wdog h_chans h_repeatAge h_reins h_hide h_axes h_cams h_bed h_lanes h_time h_segs h_lamp h_therm h_cal h_burn h_sec h_harn _ _).after ?_)
    | split
    | (intro)
    | (dsimp only)

/-- What State.enter leaves. -/
theorem State.enter_keeps {pm : Piece → Bool} (h_regs : pm .regs = true) (h_msix : pm .msix = true) (h_sb : pm .sb = true) (h_ctxs : pm .ctxs = true) (s : State) (core c : Nat) (e : FaultOf) :
    Keeps pm s (State.enter s core c e) := by
  unfold State.enter
  try dsimp only
  repeat' first
    | with_reducible exact Keeps.refl _ _
    | assumption
    | (with_reducible refine (State.setCtx_keeps h_ctxs _ _ _ _).after ?_)
    | (with_reducible refine (State.haltByException_keeps h_regs h_msix h_sb _ _ _ _).after ?_)
    | split
    | (intro)
    | (dsimp only)

/-- What State.raise leaves. -/
theorem State.raise_keeps {pm : Piece → Bool} (h_regs : pm .regs = true) (h_staged : pm .staged = true) (h_cmds : pm .cmds = true) (h_readData : pm .readData = true) (h_resp : pm .resp = true) (h_msix : pm .msix = true) (h_fresh : pm .fresh = true) (h_sb : pm .sb = true) (h_cores : pm .cores = true) (h_ctxs : pm .ctxs = true) (h_wdog : pm .wdog = true) (h_chans : pm .chans = true) (h_repeatAge : pm .repeatAge = true) (h_reins : pm .reins = true) (h_hide : pm .hide = true) (h_axes : pm .axes = true) (h_cams : pm .cams = true) (h_bed : pm .bed = true) (h_lanes : pm .lanes = true) (h_time : pm .time = true) (h_segs : pm .segs = true) (h_lamp : pm .lamp = true) (h_therm : pm .therm = true) (h_cal : pm .cal = true) (h_burn : pm .burn = true) (h_sec : pm .sec = true) (h_harn : pm .harn = true) (s : State) (core c cost : Nat) (e : FaultOf) :
    Keeps pm s (State.raise s core c cost e) := by
  unfold State.raise
  try dsimp only
  repeat' first
    | with_reducible exact Keeps.refl _ _
    | assumption
    | (with_reducible refine (State.spend_keeps h_regs h_staged h_cmds h_readData h_resp h_msix h_fresh h_sb h_cores h_ctxs h_wdog h_chans h_repeatAge h_reins h_hide h_axes h_cams h_bed h_lanes h_time h_segs h_lamp h_therm h_cal h_burn h_sec h_harn _ _ _ _ ?_).after ?_)
    | (with_reducible refine (State.enter_keeps h_regs h_msix h_sb h_ctxs _ _ _ _).after ?_)
    | split
    | (intro)
    | (dsimp only)

/-- What State.fetch leaves. -/
theorem State.fetch_keeps {pm : Piece → Bool} (h_cores : pm .cores = true) (s : State) (core c : Nat) :
    Keeps pm s (State.fetch s core c).1 := by
  unfold State.fetch
  try dsimp only
  repeat' first
    | with_reducible exact Keeps.refl _ _
    | assumption
    | (with_reducible refine (State.setCore_keeps h_cores _ _ _).after ?_)
    | split
    | (intro)
    | (dsimp only)

/-- What State.fetch leaves, its answer taken apart. -/
theorem State.fetch_keeps_eq {pm : Piece → Bool} (h_cores : pm .cores = true) (s : State) (core c : Nat) {t : State} {r : (FaultOf ⊕ Word)}
    (e : State.fetch s core c = (t, r)) : Keeps pm s t := by
  have q := State.fetch_keeps (pm := pm) h_cores s core c
  rw [e] at q
  exact q

/-- What State.issue leaves. -/
theorem State.issue_keeps {pm : Piece → Bool} (h_regs : pm .regs = true) (h_staged : pm .staged = true) (h_cmds : pm .cmds = true) (h_readData : pm .readData = true) (h_resp : pm .resp = true) (h_msix : pm .msix = true) (h_fresh : pm .fresh = true) (h_sb : pm .sb = true) (h_cores : pm .cores = true) (h_ctxs : pm .ctxs = true) (h_wdog : pm .wdog = true) (h_chans : pm .chans = true) (h_repeatAge : pm .repeatAge = true) (h_reins : pm .reins = true) (h_hide : pm .hide = true) (h_axes : pm .axes = true) (h_cams : pm .cams = true) (h_bed : pm .bed = true) (h_lanes : pm .lanes = true) (h_time : pm .time = true) (h_segs : pm .segs = true) (h_lamp : pm .lamp = true) (h_therm : pm .therm = true) (h_cal : pm .cal = true) (h_burn : pm .burn = true) (h_sec : pm .sec = true) (h_harn : pm .harn = true) (s : State) (core : Nat) (o : Adt) (run : State → Nat → Word → State) (hf_run : ∀ (y0 : State) (y1 : Nat) (y2 : Word), Keeps pm y0 (run y0 y1 y2)) :
    Keeps pm s (State.issue s core o run) := by
  unfold State.issue
  try dsimp only
  repeat' first
    | with_reducible exact Keeps.refl _ _
    | assumption
    | (with_reducible refine (hf_run _ _ _).after ?_)
    | (with_reducible refine (State.setCtx_keeps h_ctxs _ _ _ _).after ?_)
    | (with_reducible refine (State.endSlot_keeps h_regs h_staged h_cmds h_readData h_resp h_msix h_fresh h_sb h_cores h_ctxs h_wdog h_chans h_repeatAge h_reins h_hide h_axes h_cams h_bed h_lanes h_time h_segs h_lamp h_therm h_cal h_burn h_sec h_harn _ _).after ?_)
    | (with_reducible refine (State.spend_keeps h_regs h_staged h_cmds h_readData h_resp h_msix h_fresh h_sb h_cores h_ctxs h_wdog h_chans h_repeatAge h_reins h_hide h_axes h_cams h_bed h_lanes h_time h_segs h_lamp h_therm h_cal h_burn h_sec h_harn _ _ _ _ ?_).after ?_)
    | (with_reducible refine (State.stall_keeps h_regs h_staged h_cmds h_readData h_resp h_msix h_fresh h_sb h_cores h_ctxs h_wdog h_chans h_repeatAge h_reins h_hide h_axes h_cams h_bed h_lanes h_time h_segs h_lamp h_therm h_cal h_burn h_sec h_harn _ _ _ _ ?_).after ?_)
    | (with_reducible refine (State.raise_keeps h_regs h_staged h_cmds h_readData h_resp h_msix h_fresh h_sb h_cores h_ctxs h_wdog h_chans h_repeatAge h_reins h_hide h_axes h_cams h_bed h_lanes h_time h_segs h_lamp h_therm h_cal h_burn h_sec h_harn _ _ _ _ _).after ?_)
    | (with_reducible refine (State.fetch_keeps h_cores _ _ _).after ?_)
    | (with_reducible refine (State.fetch_keeps_eq h_cores _ _ _ (by assumption)).after ?_)
    | split
    | (intro)
    | (dsimp only)

/-- What State.onCtx leaves. -/
theorem State.onCtx_keeps {pm : Piece → Bool} (h_regs : pm .regs = true) (h_staged : pm .staged = true) (h_cmds : pm .cmds = true) (h_readData : pm .readData = true) (h_resp : pm .resp = true) (h_msix : pm .msix = true) (h_fresh : pm .fresh = true) (h_sb : pm .sb = true) (h_cores : pm .cores = true) (h_ctxs : pm .ctxs = true) (h_wdog : pm .wdog = true) (h_chans : pm .chans = true) (h_repeatAge : pm .repeatAge = true) (h_reins : pm .reins = true) (h_hide : pm .hide = true) (h_axes : pm .axes = true) (h_cams : pm .cams = true) (h_bed : pm .bed = true) (h_lanes : pm .lanes = true) (h_time : pm .time = true) (h_segs : pm .segs = true) (h_lamp : pm .lamp = true) (h_therm : pm .therm = true) (h_cal : pm .cal = true) (h_burn : pm .burn = true) (h_sec : pm .sec = true) (h_harn : pm .harn = true) (s : State) (core : Nat) (o : Adt) (check : Ctx → Word → Option FaultOf) (f : Ctx → Word → Ctx) :
    Keeps pm s (State.onCtx s core o check f) := by
  unfold State.onCtx
  try dsimp only
  repeat' first
    | with_reducible exact Keeps.refl _ _
    | assumption
    | (with_reducible refine (State.setCtx_keeps h_ctxs _ _ _ _).after ?_)
    | (with_reducible refine (State.spend_keeps h_regs h_staged h_cmds h_readData h_resp h_msix h_fresh h_sb h_cores h_ctxs h_wdog h_chans h_repeatAge h_reins h_hide h_axes h_cams h_bed h_lanes h_time h_segs h_lamp h_therm h_cal h_burn h_sec h_harn _ _ _ _ ?_).after ?_)
    | (with_reducible refine (State.raise_keeps h_regs h_staged h_cmds h_readData h_resp h_msix h_fresh h_sb h_cores h_ctxs h_wdog h_chans h_repeatAge h_reins h_hide h_axes h_cams h_bed h_lanes h_time h_segs h_lamp h_therm h_cal h_burn h_sec h_harn _ _ _ _ _).after ?_)
    | (with_reducible refine (State.issue_keeps h_regs h_staged h_cmds h_readData h_resp h_msix h_fresh h_sb h_cores h_ctxs h_wdog h_chans h_repeatAge h_reins h_hide h_axes h_cams h_bed h_lanes h_time h_segs h_lamp h_therm h_cal h_burn h_sec h_harn _ _ _ _ ?_).after ?_)
    | split
    | (intro)
    | (dsimp only)

/-- What State.alu leaves. -/
theorem State.alu_keeps {pm : Piece → Bool} (h_regs : pm .regs = true) (h_staged : pm .staged = true) (h_cmds : pm .cmds = true) (h_readData : pm .readData = true) (h_resp : pm .resp = true) (h_msix : pm .msix = true) (h_fresh : pm .fresh = true) (h_sb : pm .sb = true) (h_cores : pm .cores = true) (h_ctxs : pm .ctxs = true) (h_wdog : pm .wdog = true) (h_chans : pm .chans = true) (h_repeatAge : pm .repeatAge = true) (h_reins : pm .reins = true) (h_hide : pm .hide = true) (h_axes : pm .axes = true) (h_cams : pm .cams = true) (h_bed : pm .bed = true) (h_lanes : pm .lanes = true) (h_time : pm .time = true) (h_segs : pm .segs = true) (h_lamp : pm .lamp = true) (h_therm : pm .therm = true) (h_cal : pm .cal = true) (h_burn : pm .burn = true) (h_sec : pm .sec = true) (h_harn : pm .harn = true) (s : State) (core : Nat) (o : Adt) (f : Word → Word → Res) :
    Keeps pm s (State.alu s core o f) := by
  unfold State.alu
  try dsimp only
  repeat' first
    | with_reducible exact Keeps.refl _ _
    | assumption
    | (with_reducible refine (State.onCtx_keeps h_regs h_staged h_cmds h_readData h_resp h_msix h_fresh h_sb h_cores h_ctxs h_wdog h_chans h_repeatAge h_reins h_hide h_axes h_cams h_bed h_lanes h_time h_segs h_lamp h_therm h_cal h_burn h_sec h_harn _ _ _ _ _).after ?_)
    | split
    | (intro)
    | (dsimp only)

/-- What State.aluImm leaves. -/
theorem State.aluImm_keeps {pm : Piece → Bool} (h_regs : pm .regs = true) (h_staged : pm .staged = true) (h_cmds : pm .cmds = true) (h_readData : pm .readData = true) (h_resp : pm .resp = true) (h_msix : pm .msix = true) (h_fresh : pm .fresh = true) (h_sb : pm .sb = true) (h_cores : pm .cores = true) (h_ctxs : pm .ctxs = true) (h_wdog : pm .wdog = true) (h_chans : pm .chans = true) (h_repeatAge : pm .repeatAge = true) (h_reins : pm .reins = true) (h_hide : pm .hide = true) (h_axes : pm .axes = true) (h_cams : pm .cams = true) (h_bed : pm .bed = true) (h_lanes : pm .lanes = true) (h_time : pm .time = true) (h_segs : pm .segs = true) (h_lamp : pm .lamp = true) (h_therm : pm .therm = true) (h_cal : pm .cal = true) (h_burn : pm .burn = true) (h_sec : pm .sec = true) (h_harn : pm .harn = true) (s : State) (core : Nat) (o : Adt) (f : Word → Word → Word) :
    Keeps pm s (State.aluImm s core o f) := by
  unfold State.aluImm
  try dsimp only
  repeat' first
    | with_reducible exact Keeps.refl _ _
    | assumption
    | (with_reducible refine (State.onCtx_keeps h_regs h_staged h_cmds h_readData h_resp h_msix h_fresh h_sb h_cores h_ctxs h_wdog h_chans h_repeatAge h_reins h_hide h_axes h_cams h_bed h_lanes h_time h_segs h_lamp h_therm h_cal h_burn h_sec h_harn _ _ _ _ _).after ?_)
    | split
    | (intro)
    | (dsimp only)

end Sys2Proof.Machine
end

