-- ==== Sys2Proof/Laws/State.lean ====
section
/-! SUPPORT. One law for each basic update of the state: every other field is as it was. Each is true by unfolding, and no later
proof unfolds an update. -/

namespace Sys2Proof.Machine

/-- State.setReg leaves every field but regs. -/
@[simp] theorem State.setReg_fields (s : State) (a : Nat) (w : Word) :
    (s.setReg a w).part = s.part ∧ (s.setReg a w).pending = s.pending ∧ (s.setReg a w).stitch = s.stitch ∧
    (s.setReg a w).staged = s.staged ∧ (s.setReg a w).cmds = s.cmds ∧ (s.setReg a w).holds = s.holds ∧
    (s.setReg a w).readData = s.readData ∧ (s.setReg a w).resp = s.resp ∧ (s.setReg a w).msix = s.msix ∧
    (s.setReg a w).fresh = s.fresh ∧ (s.setReg a w).sb = s.sb ∧ (s.setReg a w).cores = s.cores ∧
    (s.setReg a w).ctxs = s.ctxs ∧ (s.setReg a w).wdog = s.wdog ∧ (s.setReg a w).mem = s.mem ∧
    (s.setReg a w).badLines = s.badLines ∧ (s.setReg a w).chans = s.chans ∧
    (s.setReg a w).repeatAge = s.repeatAge ∧ (s.setReg a w).tclk = s.tclk ∧ (s.setReg a w).emitEn = s.emitEn ∧
    (s.setReg a w).ain = s.ain ∧ (s.setReg a w).spt = s.spt ∧ (s.setReg a w).awls = s.awls ∧
    (s.setReg a w).reins = s.reins ∧ (s.setReg a w).hide = s.hide ∧ (s.setReg a w).tree = s.tree ∧
    (s.setReg a w).axes = s.axes ∧ (s.setReg a w).skiver = s.skiver ∧ (s.setReg a w).cams = s.cams ∧
    (s.setReg a w).bed = s.bed ∧ (s.setReg a w).lanes = s.lanes ∧ (s.setReg a w).board = s.board ∧
    (s.setReg a w).time = s.time ∧ (s.setReg a w).segs = s.segs ∧ (s.setReg a w).eths = s.eths ∧
    (s.setReg a w).lamp = s.lamp ∧ (s.setReg a w).power = s.power ∧ (s.setReg a w).therm = s.therm ∧
    (s.setReg a w).cal = s.cal ∧ (s.setReg a w).burn = s.burn ∧ (s.setReg a w).sec = s.sec ∧
    (s.setReg a w).harn = s.harn ∧ (s.setReg a w).mark = s.mark :=
  ⟨rfl, rfl, rfl, rfl, rfl, rfl, rfl, rfl, rfl, rfl, rfl, rfl, rfl, rfl, rfl, rfl, rfl, rfl, rfl, rfl, rfl, rfl,
   rfl, rfl, rfl, rfl, rfl, rfl, rfl, rfl, rfl, rfl, rfl, rfl, rfl, rfl, rfl, rfl, rfl, rfl, rfl, rfl, rfl⟩

/-- State.stage leaves every field but staged. -/
@[simp] theorem State.stage_fields (s : State) (a : Nat) (w : Word) :
    (s.stage a w).part = s.part ∧ (s.stage a w).pending = s.pending ∧ (s.stage a w).stitch = s.stitch ∧
    (s.stage a w).regs = s.regs ∧ (s.stage a w).cmds = s.cmds ∧ (s.stage a w).holds = s.holds ∧
    (s.stage a w).readData = s.readData ∧ (s.stage a w).resp = s.resp ∧ (s.stage a w).msix = s.msix ∧
    (s.stage a w).fresh = s.fresh ∧ (s.stage a w).sb = s.sb ∧ (s.stage a w).cores = s.cores ∧
    (s.stage a w).ctxs = s.ctxs ∧ (s.stage a w).wdog = s.wdog ∧ (s.stage a w).mem = s.mem ∧
    (s.stage a w).badLines = s.badLines ∧ (s.stage a w).chans = s.chans ∧ (s.stage a w).repeatAge = s.repeatAge ∧
    (s.stage a w).tclk = s.tclk ∧ (s.stage a w).emitEn = s.emitEn ∧ (s.stage a w).ain = s.ain ∧
    (s.stage a w).spt = s.spt ∧ (s.stage a w).awls = s.awls ∧ (s.stage a w).reins = s.reins ∧
    (s.stage a w).hide = s.hide ∧ (s.stage a w).tree = s.tree ∧ (s.stage a w).axes = s.axes ∧
    (s.stage a w).skiver = s.skiver ∧ (s.stage a w).cams = s.cams ∧ (s.stage a w).bed = s.bed ∧
    (s.stage a w).lanes = s.lanes ∧ (s.stage a w).board = s.board ∧ (s.stage a w).time = s.time ∧
    (s.stage a w).segs = s.segs ∧ (s.stage a w).eths = s.eths ∧ (s.stage a w).lamp = s.lamp ∧
    (s.stage a w).power = s.power ∧ (s.stage a w).therm = s.therm ∧ (s.stage a w).cal = s.cal ∧
    (s.stage a w).burn = s.burn ∧ (s.stage a w).sec = s.sec ∧ (s.stage a w).harn = s.harn ∧
    (s.stage a w).mark = s.mark :=
  ⟨rfl, rfl, rfl, rfl, rfl, rfl, rfl, rfl, rfl, rfl, rfl, rfl, rfl, rfl, rfl, rfl, rfl, rfl, rfl, rfl, rfl, rfl,
   rfl, rfl, rfl, rfl, rfl, rfl, rfl, rfl, rfl, rfl, rfl, rfl, rfl, rfl, rfl, rfl, rfl, rfl, rfl, rfl, rfl⟩

/-- State.stage leaves every register. -/
@[simp] theorem State.stage_regs (s : State) (a : Nat) (w : Word) (adr : Nat) (fld : Fld) :
    (s.stage a w).reg adr = s.reg adr ∧ (s.stage a w).fld fld = s.fld fld ∧
    (s.stage a w).flag fld = s.flag fld := ⟨rfl, rfl, rfl⟩

/-- State.addCmd leaves every field but cmds. -/
@[simp] theorem State.addCmd_fields (s : State) (a : Nat) (w : Word) :
    (s.addCmd a w).part = s.part ∧ (s.addCmd a w).pending = s.pending ∧ (s.addCmd a w).stitch = s.stitch ∧
    (s.addCmd a w).regs = s.regs ∧ (s.addCmd a w).staged = s.staged ∧ (s.addCmd a w).holds = s.holds ∧
    (s.addCmd a w).readData = s.readData ∧ (s.addCmd a w).resp = s.resp ∧ (s.addCmd a w).msix = s.msix ∧
    (s.addCmd a w).fresh = s.fresh ∧ (s.addCmd a w).sb = s.sb ∧ (s.addCmd a w).cores = s.cores ∧
    (s.addCmd a w).ctxs = s.ctxs ∧ (s.addCmd a w).wdog = s.wdog ∧ (s.addCmd a w).mem = s.mem ∧
    (s.addCmd a w).badLines = s.badLines ∧ (s.addCmd a w).chans = s.chans ∧
    (s.addCmd a w).repeatAge = s.repeatAge ∧ (s.addCmd a w).tclk = s.tclk ∧ (s.addCmd a w).emitEn = s.emitEn ∧
    (s.addCmd a w).ain = s.ain ∧ (s.addCmd a w).spt = s.spt ∧ (s.addCmd a w).awls = s.awls ∧
    (s.addCmd a w).reins = s.reins ∧ (s.addCmd a w).hide = s.hide ∧ (s.addCmd a w).tree = s.tree ∧
    (s.addCmd a w).axes = s.axes ∧ (s.addCmd a w).skiver = s.skiver ∧ (s.addCmd a w).cams = s.cams ∧
    (s.addCmd a w).bed = s.bed ∧ (s.addCmd a w).lanes = s.lanes ∧ (s.addCmd a w).board = s.board ∧
    (s.addCmd a w).time = s.time ∧ (s.addCmd a w).segs = s.segs ∧ (s.addCmd a w).eths = s.eths ∧
    (s.addCmd a w).lamp = s.lamp ∧ (s.addCmd a w).power = s.power ∧ (s.addCmd a w).therm = s.therm ∧
    (s.addCmd a w).cal = s.cal ∧ (s.addCmd a w).burn = s.burn ∧ (s.addCmd a w).sec = s.sec ∧
    (s.addCmd a w).harn = s.harn ∧ (s.addCmd a w).mark = s.mark :=
  ⟨rfl, rfl, rfl, rfl, rfl, rfl, rfl, rfl, rfl, rfl, rfl, rfl, rfl, rfl, rfl, rfl, rfl, rfl, rfl, rfl, rfl, rfl,
   rfl, rfl, rfl, rfl, rfl, rfl, rfl, rfl, rfl, rfl, rfl, rfl, rfl, rfl, rfl, rfl, rfl, rfl, rfl, rfl, rfl⟩

/-- State.addCmd leaves every register. -/
@[simp] theorem State.addCmd_regs (s : State) (a : Nat) (w : Word) (adr : Nat) (fld : Fld) :
    (s.addCmd a w).reg adr = s.reg adr ∧ (s.addCmd a w).fld fld = s.fld fld ∧
    (s.addCmd a w).flag fld = s.flag fld := ⟨rfl, rfl, rfl⟩

/-- State.tookFree leaves every field but fresh. -/
@[simp] theorem State.tookFree_fields (s : State) :
    (s.tookFree).part = s.part ∧ (s.tookFree).pending = s.pending ∧ (s.tookFree).stitch = s.stitch ∧
    (s.tookFree).regs = s.regs ∧ (s.tookFree).staged = s.staged ∧ (s.tookFree).cmds = s.cmds ∧
    (s.tookFree).holds = s.holds ∧ (s.tookFree).readData = s.readData ∧ (s.tookFree).resp = s.resp ∧
    (s.tookFree).msix = s.msix ∧ (s.tookFree).sb = s.sb ∧ (s.tookFree).cores = s.cores ∧
    (s.tookFree).ctxs = s.ctxs ∧ (s.tookFree).wdog = s.wdog ∧ (s.tookFree).mem = s.mem ∧
    (s.tookFree).badLines = s.badLines ∧ (s.tookFree).chans = s.chans ∧ (s.tookFree).repeatAge = s.repeatAge ∧
    (s.tookFree).tclk = s.tclk ∧ (s.tookFree).emitEn = s.emitEn ∧ (s.tookFree).ain = s.ain ∧
    (s.tookFree).spt = s.spt ∧ (s.tookFree).awls = s.awls ∧ (s.tookFree).reins = s.reins ∧
    (s.tookFree).hide = s.hide ∧ (s.tookFree).tree = s.tree ∧ (s.tookFree).axes = s.axes ∧
    (s.tookFree).skiver = s.skiver ∧ (s.tookFree).cams = s.cams ∧ (s.tookFree).bed = s.bed ∧
    (s.tookFree).lanes = s.lanes ∧ (s.tookFree).board = s.board ∧ (s.tookFree).time = s.time ∧
    (s.tookFree).segs = s.segs ∧ (s.tookFree).eths = s.eths ∧ (s.tookFree).lamp = s.lamp ∧
    (s.tookFree).power = s.power ∧ (s.tookFree).therm = s.therm ∧ (s.tookFree).cal = s.cal ∧
    (s.tookFree).burn = s.burn ∧ (s.tookFree).sec = s.sec ∧ (s.tookFree).harn = s.harn ∧ (s.tookFree).mark = s.mark :=
  ⟨rfl, rfl, rfl, rfl, rfl, rfl, rfl, rfl, rfl, rfl, rfl, rfl, rfl, rfl, rfl, rfl, rfl, rfl, rfl, rfl, rfl, rfl,
   rfl, rfl, rfl, rfl, rfl, rfl, rfl, rfl, rfl, rfl, rfl, rfl, rfl, rfl, rfl, rfl, rfl, rfl, rfl, rfl, rfl⟩

/-- State.tookFree leaves every register. -/
@[simp] theorem State.tookFree_regs (s : State) (adr : Nat) (fld : Fld) :
    (s.tookFree).reg adr = s.reg adr ∧ (s.tookFree).fld fld = s.fld fld ∧
    (s.tookFree).flag fld = s.flag fld := ⟨rfl, rfl, rfl⟩

/-- State.setCore leaves every field but cores. -/
@[simp] theorem State.setCore_fields (s : State) (k : Nat) (c : Core) :
    (s.setCore k c).part = s.part ∧ (s.setCore k c).pending = s.pending ∧ (s.setCore k c).stitch = s.stitch ∧
    (s.setCore k c).regs = s.regs ∧ (s.setCore k c).staged = s.staged ∧ (s.setCore k c).cmds = s.cmds ∧
    (s.setCore k c).holds = s.holds ∧ (s.setCore k c).readData = s.readData ∧ (s.setCore k c).resp = s.resp ∧
    (s.setCore k c).msix = s.msix ∧ (s.setCore k c).fresh = s.fresh ∧ (s.setCore k c).sb = s.sb ∧
    (s.setCore k c).ctxs = s.ctxs ∧ (s.setCore k c).wdog = s.wdog ∧ (s.setCore k c).mem = s.mem ∧
    (s.setCore k c).badLines = s.badLines ∧ (s.setCore k c).chans = s.chans ∧
    (s.setCore k c).repeatAge = s.repeatAge ∧ (s.setCore k c).tclk = s.tclk ∧ (s.setCore k c).emitEn = s.emitEn ∧
    (s.setCore k c).ain = s.ain ∧ (s.setCore k c).spt = s.spt ∧ (s.setCore k c).awls = s.awls ∧
    (s.setCore k c).reins = s.reins ∧ (s.setCore k c).hide = s.hide ∧ (s.setCore k c).tree = s.tree ∧
    (s.setCore k c).axes = s.axes ∧ (s.setCore k c).skiver = s.skiver ∧ (s.setCore k c).cams = s.cams ∧
    (s.setCore k c).bed = s.bed ∧ (s.setCore k c).lanes = s.lanes ∧ (s.setCore k c).board = s.board ∧
    (s.setCore k c).time = s.time ∧ (s.setCore k c).segs = s.segs ∧ (s.setCore k c).eths = s.eths ∧
    (s.setCore k c).lamp = s.lamp ∧ (s.setCore k c).power = s.power ∧ (s.setCore k c).therm = s.therm ∧
    (s.setCore k c).cal = s.cal ∧ (s.setCore k c).burn = s.burn ∧ (s.setCore k c).sec = s.sec ∧
    (s.setCore k c).harn = s.harn ∧ (s.setCore k c).mark = s.mark :=
  ⟨rfl, rfl, rfl, rfl, rfl, rfl, rfl, rfl, rfl, rfl, rfl, rfl, rfl, rfl, rfl, rfl, rfl, rfl, rfl, rfl, rfl, rfl,
   rfl, rfl, rfl, rfl, rfl, rfl, rfl, rfl, rfl, rfl, rfl, rfl, rfl, rfl, rfl, rfl, rfl, rfl, rfl, rfl, rfl⟩

/-- State.setCore leaves every register. -/
@[simp] theorem State.setCore_regs (s : State) (k : Nat) (c : Core) (adr : Nat) (fld : Fld) :
    (s.setCore k c).reg adr = s.reg adr ∧ (s.setCore k c).fld fld = s.fld fld ∧
    (s.setCore k c).flag fld = s.flag fld := ⟨rfl, rfl, rfl⟩

/-- State.setCtx leaves every field but ctxs. -/
@[simp] theorem State.setCtx_fields (s : State) (core c : Nat) (x : Ctx) :
    (s.setCtx core c x).part = s.part ∧ (s.setCtx core c x).pending = s.pending ∧
    (s.setCtx core c x).stitch = s.stitch ∧ (s.setCtx core c x).regs = s.regs ∧
    (s.setCtx core c x).staged = s.staged ∧ (s.setCtx core c x).cmds = s.cmds ∧
    (s.setCtx core c x).holds = s.holds ∧ (s.setCtx core c x).readData = s.readData ∧
    (s.setCtx core c x).resp = s.resp ∧ (s.setCtx core c x).msix = s.msix ∧ (s.setCtx core c x).fresh = s.fresh ∧
    (s.setCtx core c x).sb = s.sb ∧ (s.setCtx core c x).cores = s.cores ∧ (s.setCtx core c x).wdog = s.wdog ∧
    (s.setCtx core c x).mem = s.mem ∧ (s.setCtx core c x).badLines = s.badLines ∧
    (s.setCtx core c x).chans = s.chans ∧ (s.setCtx core c x).repeatAge = s.repeatAge ∧
    (s.setCtx core c x).tclk = s.tclk ∧ (s.setCtx core c x).emitEn = s.emitEn ∧ (s.setCtx core c x).ain = s.ain ∧
    (s.setCtx core c x).spt = s.spt ∧ (s.setCtx core c x).awls = s.awls ∧ (s.setCtx core c x).reins = s.reins ∧
    (s.setCtx core c x).hide = s.hide ∧ (s.setCtx core c x).tree = s.tree ∧ (s.setCtx core c x).axes = s.axes ∧
    (s.setCtx core c x).skiver = s.skiver ∧ (s.setCtx core c x).cams = s.cams ∧ (s.setCtx core c x).bed = s.bed ∧
    (s.setCtx core c x).lanes = s.lanes ∧ (s.setCtx core c x).board = s.board ∧ (s.setCtx core c x).time = s.time ∧
    (s.setCtx core c x).segs = s.segs ∧ (s.setCtx core c x).eths = s.eths ∧ (s.setCtx core c x).lamp = s.lamp ∧
    (s.setCtx core c x).power = s.power ∧ (s.setCtx core c x).therm = s.therm ∧ (s.setCtx core c x).cal = s.cal ∧
    (s.setCtx core c x).burn = s.burn ∧ (s.setCtx core c x).sec = s.sec ∧ (s.setCtx core c x).harn = s.harn ∧
    (s.setCtx core c x).mark = s.mark :=
  ⟨rfl, rfl, rfl, rfl, rfl, rfl, rfl, rfl, rfl, rfl, rfl, rfl, rfl, rfl, rfl, rfl, rfl, rfl, rfl, rfl, rfl, rfl,
   rfl, rfl, rfl, rfl, rfl, rfl, rfl, rfl, rfl, rfl, rfl, rfl, rfl, rfl, rfl, rfl, rfl, rfl, rfl, rfl, rfl⟩

/-- State.setCtx leaves every register. -/
@[simp] theorem State.setCtx_regs (s : State) (core c : Nat) (x : Ctx) (adr : Nat) (fld : Fld) :
    (s.setCtx core c x).reg adr = s.reg adr ∧ (s.setCtx core c x).fld fld = s.fld fld ∧
    (s.setCtx core c x).flag fld = s.flag fld := ⟨rfl, rfl, rfl⟩

/-- State.setAwl leaves every field but awls. -/
@[simp] theorem State.setAwl_fields (s : State) (k : Nat) (a : Awl) :
    (s.setAwl k a).part = s.part ∧ (s.setAwl k a).pending = s.pending ∧ (s.setAwl k a).stitch = s.stitch ∧
    (s.setAwl k a).regs = s.regs ∧ (s.setAwl k a).staged = s.staged ∧ (s.setAwl k a).cmds = s.cmds ∧
    (s.setAwl k a).holds = s.holds ∧ (s.setAwl k a).readData = s.readData ∧ (s.setAwl k a).resp = s.resp ∧
    (s.setAwl k a).msix = s.msix ∧ (s.setAwl k a).fresh = s.fresh ∧ (s.setAwl k a).sb = s.sb ∧
    (s.setAwl k a).cores = s.cores ∧ (s.setAwl k a).ctxs = s.ctxs ∧ (s.setAwl k a).wdog = s.wdog ∧
    (s.setAwl k a).mem = s.mem ∧ (s.setAwl k a).badLines = s.badLines ∧ (s.setAwl k a).chans = s.chans ∧
    (s.setAwl k a).repeatAge = s.repeatAge ∧ (s.setAwl k a).tclk = s.tclk ∧ (s.setAwl k a).emitEn = s.emitEn ∧
    (s.setAwl k a).ain = s.ain ∧ (s.setAwl k a).spt = s.spt ∧ (s.setAwl k a).reins = s.reins ∧
    (s.setAwl k a).hide = s.hide ∧ (s.setAwl k a).tree = s.tree ∧ (s.setAwl k a).axes = s.axes ∧
    (s.setAwl k a).skiver = s.skiver ∧ (s.setAwl k a).cams = s.cams ∧ (s.setAwl k a).bed = s.bed ∧
    (s.setAwl k a).lanes = s.lanes ∧ (s.setAwl k a).board = s.board ∧ (s.setAwl k a).time = s.time ∧
    (s.setAwl k a).segs = s.segs ∧ (s.setAwl k a).eths = s.eths ∧ (s.setAwl k a).lamp = s.lamp ∧
    (s.setAwl k a).power = s.power ∧ (s.setAwl k a).therm = s.therm ∧ (s.setAwl k a).cal = s.cal ∧
    (s.setAwl k a).burn = s.burn ∧ (s.setAwl k a).sec = s.sec ∧ (s.setAwl k a).harn = s.harn ∧
    (s.setAwl k a).mark = s.mark :=
  ⟨rfl, rfl, rfl, rfl, rfl, rfl, rfl, rfl, rfl, rfl, rfl, rfl, rfl, rfl, rfl, rfl, rfl, rfl, rfl, rfl, rfl, rfl,
   rfl, rfl, rfl, rfl, rfl, rfl, rfl, rfl, rfl, rfl, rfl, rfl, rfl, rfl, rfl, rfl, rfl, rfl, rfl, rfl, rfl⟩

/-- State.setAwl leaves every register. -/
@[simp] theorem State.setAwl_regs (s : State) (k : Nat) (a : Awl) (adr : Nat) (fld : Fld) :
    (s.setAwl k a).reg adr = s.reg adr ∧ (s.setAwl k a).fld fld = s.fld fld ∧
    (s.setAwl k a).flag fld = s.flag fld := ⟨rfl, rfl, rfl⟩

/-- State.setRein leaves every field but reins. -/
@[simp] theorem State.setRein_fields (s : State) (k : Nat) (r : Rein) :
    (s.setRein k r).part = s.part ∧ (s.setRein k r).pending = s.pending ∧ (s.setRein k r).stitch = s.stitch ∧
    (s.setRein k r).regs = s.regs ∧ (s.setRein k r).staged = s.staged ∧ (s.setRein k r).cmds = s.cmds ∧
    (s.setRein k r).holds = s.holds ∧ (s.setRein k r).readData = s.readData ∧ (s.setRein k r).resp = s.resp ∧
    (s.setRein k r).msix = s.msix ∧ (s.setRein k r).fresh = s.fresh ∧ (s.setRein k r).sb = s.sb ∧
    (s.setRein k r).cores = s.cores ∧ (s.setRein k r).ctxs = s.ctxs ∧ (s.setRein k r).wdog = s.wdog ∧
    (s.setRein k r).mem = s.mem ∧ (s.setRein k r).badLines = s.badLines ∧ (s.setRein k r).chans = s.chans ∧
    (s.setRein k r).repeatAge = s.repeatAge ∧ (s.setRein k r).tclk = s.tclk ∧ (s.setRein k r).emitEn = s.emitEn ∧
    (s.setRein k r).ain = s.ain ∧ (s.setRein k r).spt = s.spt ∧ (s.setRein k r).awls = s.awls ∧
    (s.setRein k r).hide = s.hide ∧ (s.setRein k r).tree = s.tree ∧ (s.setRein k r).axes = s.axes ∧
    (s.setRein k r).skiver = s.skiver ∧ (s.setRein k r).cams = s.cams ∧ (s.setRein k r).bed = s.bed ∧
    (s.setRein k r).lanes = s.lanes ∧ (s.setRein k r).board = s.board ∧ (s.setRein k r).time = s.time ∧
    (s.setRein k r).segs = s.segs ∧ (s.setRein k r).eths = s.eths ∧ (s.setRein k r).lamp = s.lamp ∧
    (s.setRein k r).power = s.power ∧ (s.setRein k r).therm = s.therm ∧ (s.setRein k r).cal = s.cal ∧
    (s.setRein k r).burn = s.burn ∧ (s.setRein k r).sec = s.sec ∧ (s.setRein k r).harn = s.harn ∧
    (s.setRein k r).mark = s.mark :=
  ⟨rfl, rfl, rfl, rfl, rfl, rfl, rfl, rfl, rfl, rfl, rfl, rfl, rfl, rfl, rfl, rfl, rfl, rfl, rfl, rfl, rfl, rfl,
   rfl, rfl, rfl, rfl, rfl, rfl, rfl, rfl, rfl, rfl, rfl, rfl, rfl, rfl, rfl, rfl, rfl, rfl, rfl, rfl, rfl⟩

/-- State.setRein leaves every register. -/
@[simp] theorem State.setRein_regs (s : State) (k : Nat) (r : Rein) (adr : Nat) (fld : Fld) :
    (s.setRein k r).reg adr = s.reg adr ∧ (s.setRein k r).fld fld = s.fld fld ∧
    (s.setRein k r).flag fld = s.flag fld := ⟨rfl, rfl, rfl⟩

/-- State.setAxis leaves every field but axes. -/
@[simp] theorem State.setAxis_fields (s : State) (x : Nat) (a : Axis) :
    (s.setAxis x a).part = s.part ∧ (s.setAxis x a).pending = s.pending ∧ (s.setAxis x a).stitch = s.stitch ∧
    (s.setAxis x a).regs = s.regs ∧ (s.setAxis x a).staged = s.staged ∧ (s.setAxis x a).cmds = s.cmds ∧
    (s.setAxis x a).holds = s.holds ∧ (s.setAxis x a).readData = s.readData ∧ (s.setAxis x a).resp = s.resp ∧
    (s.setAxis x a).msix = s.msix ∧ (s.setAxis x a).fresh = s.fresh ∧ (s.setAxis x a).sb = s.sb ∧
    (s.setAxis x a).cores = s.cores ∧ (s.setAxis x a).ctxs = s.ctxs ∧ (s.setAxis x a).wdog = s.wdog ∧
    (s.setAxis x a).mem = s.mem ∧ (s.setAxis x a).badLines = s.badLines ∧ (s.setAxis x a).chans = s.chans ∧
    (s.setAxis x a).repeatAge = s.repeatAge ∧ (s.setAxis x a).tclk = s.tclk ∧ (s.setAxis x a).emitEn = s.emitEn ∧
    (s.setAxis x a).ain = s.ain ∧ (s.setAxis x a).spt = s.spt ∧ (s.setAxis x a).awls = s.awls ∧
    (s.setAxis x a).reins = s.reins ∧ (s.setAxis x a).hide = s.hide ∧ (s.setAxis x a).tree = s.tree ∧
    (s.setAxis x a).skiver = s.skiver ∧ (s.setAxis x a).cams = s.cams ∧ (s.setAxis x a).bed = s.bed ∧
    (s.setAxis x a).lanes = s.lanes ∧ (s.setAxis x a).board = s.board ∧ (s.setAxis x a).time = s.time ∧
    (s.setAxis x a).segs = s.segs ∧ (s.setAxis x a).eths = s.eths ∧ (s.setAxis x a).lamp = s.lamp ∧
    (s.setAxis x a).power = s.power ∧ (s.setAxis x a).therm = s.therm ∧ (s.setAxis x a).cal = s.cal ∧
    (s.setAxis x a).burn = s.burn ∧ (s.setAxis x a).sec = s.sec ∧ (s.setAxis x a).harn = s.harn ∧
    (s.setAxis x a).mark = s.mark :=
  ⟨rfl, rfl, rfl, rfl, rfl, rfl, rfl, rfl, rfl, rfl, rfl, rfl, rfl, rfl, rfl, rfl, rfl, rfl, rfl, rfl, rfl, rfl,
   rfl, rfl, rfl, rfl, rfl, rfl, rfl, rfl, rfl, rfl, rfl, rfl, rfl, rfl, rfl, rfl, rfl, rfl, rfl, rfl, rfl⟩

/-- State.setAxis leaves every register. -/
@[simp] theorem State.setAxis_regs (s : State) (x : Nat) (a : Axis) (adr : Nat) (fld : Fld) :
    (s.setAxis x a).reg adr = s.reg adr ∧ (s.setAxis x a).fld fld = s.fld fld ∧
    (s.setAxis x a).flag fld = s.flag fld := ⟨rfl, rfl, rfl⟩

/-- State.setCam leaves every field but cams. -/
@[simp] theorem State.setCam_fields (s : State) (p i : Nat) (c : Cam) :
    (s.setCam p i c).part = s.part ∧ (s.setCam p i c).pending = s.pending ∧ (s.setCam p i c).stitch = s.stitch ∧
    (s.setCam p i c).regs = s.regs ∧ (s.setCam p i c).staged = s.staged ∧ (s.setCam p i c).cmds = s.cmds ∧
    (s.setCam p i c).holds = s.holds ∧ (s.setCam p i c).readData = s.readData ∧ (s.setCam p i c).resp = s.resp ∧
    (s.setCam p i c).msix = s.msix ∧ (s.setCam p i c).fresh = s.fresh ∧ (s.setCam p i c).sb = s.sb ∧
    (s.setCam p i c).cores = s.cores ∧ (s.setCam p i c).ctxs = s.ctxs ∧ (s.setCam p i c).wdog = s.wdog ∧
    (s.setCam p i c).mem = s.mem ∧ (s.setCam p i c).badLines = s.badLines ∧ (s.setCam p i c).chans = s.chans ∧
    (s.setCam p i c).repeatAge = s.repeatAge ∧ (s.setCam p i c).tclk = s.tclk ∧
    (s.setCam p i c).emitEn = s.emitEn ∧ (s.setCam p i c).ain = s.ain ∧ (s.setCam p i c).spt = s.spt ∧
    (s.setCam p i c).awls = s.awls ∧ (s.setCam p i c).reins = s.reins ∧ (s.setCam p i c).hide = s.hide ∧
    (s.setCam p i c).tree = s.tree ∧ (s.setCam p i c).axes = s.axes ∧ (s.setCam p i c).skiver = s.skiver ∧
    (s.setCam p i c).bed = s.bed ∧ (s.setCam p i c).lanes = s.lanes ∧ (s.setCam p i c).board = s.board ∧
    (s.setCam p i c).time = s.time ∧ (s.setCam p i c).segs = s.segs ∧ (s.setCam p i c).eths = s.eths ∧
    (s.setCam p i c).lamp = s.lamp ∧ (s.setCam p i c).power = s.power ∧ (s.setCam p i c).therm = s.therm ∧
    (s.setCam p i c).cal = s.cal ∧ (s.setCam p i c).burn = s.burn ∧ (s.setCam p i c).sec = s.sec ∧
    (s.setCam p i c).harn = s.harn ∧ (s.setCam p i c).mark = s.mark :=
  ⟨rfl, rfl, rfl, rfl, rfl, rfl, rfl, rfl, rfl, rfl, rfl, rfl, rfl, rfl, rfl, rfl, rfl, rfl, rfl, rfl, rfl, rfl,
   rfl, rfl, rfl, rfl, rfl, rfl, rfl, rfl, rfl, rfl, rfl, rfl, rfl, rfl, rfl, rfl, rfl, rfl, rfl, rfl, rfl⟩

/-- State.setCam leaves every register. -/
@[simp] theorem State.setCam_regs (s : State) (p i : Nat) (c : Cam) (adr : Nat) (fld : Fld) :
    (s.setCam p i c).reg adr = s.reg adr ∧ (s.setCam p i c).fld fld = s.fld fld ∧
    (s.setCam p i c).flag fld = s.flag fld := ⟨rfl, rfl, rfl⟩

/-- State.setLane leaves every field but lanes. -/
@[simp] theorem State.setLane_fields (s : State) (k : Nat) (l : Lane) :
    (s.setLane k l).part = s.part ∧ (s.setLane k l).pending = s.pending ∧ (s.setLane k l).stitch = s.stitch ∧
    (s.setLane k l).regs = s.regs ∧ (s.setLane k l).staged = s.staged ∧ (s.setLane k l).cmds = s.cmds ∧
    (s.setLane k l).holds = s.holds ∧ (s.setLane k l).readData = s.readData ∧ (s.setLane k l).resp = s.resp ∧
    (s.setLane k l).msix = s.msix ∧ (s.setLane k l).fresh = s.fresh ∧ (s.setLane k l).sb = s.sb ∧
    (s.setLane k l).cores = s.cores ∧ (s.setLane k l).ctxs = s.ctxs ∧ (s.setLane k l).wdog = s.wdog ∧
    (s.setLane k l).mem = s.mem ∧ (s.setLane k l).badLines = s.badLines ∧ (s.setLane k l).chans = s.chans ∧
    (s.setLane k l).repeatAge = s.repeatAge ∧ (s.setLane k l).tclk = s.tclk ∧ (s.setLane k l).emitEn = s.emitEn ∧
    (s.setLane k l).ain = s.ain ∧ (s.setLane k l).spt = s.spt ∧ (s.setLane k l).awls = s.awls ∧
    (s.setLane k l).reins = s.reins ∧ (s.setLane k l).hide = s.hide ∧ (s.setLane k l).tree = s.tree ∧
    (s.setLane k l).axes = s.axes ∧ (s.setLane k l).skiver = s.skiver ∧ (s.setLane k l).cams = s.cams ∧
    (s.setLane k l).bed = s.bed ∧ (s.setLane k l).board = s.board ∧ (s.setLane k l).time = s.time ∧
    (s.setLane k l).segs = s.segs ∧ (s.setLane k l).eths = s.eths ∧ (s.setLane k l).lamp = s.lamp ∧
    (s.setLane k l).power = s.power ∧ (s.setLane k l).therm = s.therm ∧ (s.setLane k l).cal = s.cal ∧
    (s.setLane k l).burn = s.burn ∧ (s.setLane k l).sec = s.sec ∧ (s.setLane k l).harn = s.harn ∧
    (s.setLane k l).mark = s.mark :=
  ⟨rfl, rfl, rfl, rfl, rfl, rfl, rfl, rfl, rfl, rfl, rfl, rfl, rfl, rfl, rfl, rfl, rfl, rfl, rfl, rfl, rfl, rfl,
   rfl, rfl, rfl, rfl, rfl, rfl, rfl, rfl, rfl, rfl, rfl, rfl, rfl, rfl, rfl, rfl, rfl, rfl, rfl, rfl, rfl⟩

/-- State.setLane leaves every register. -/
@[simp] theorem State.setLane_regs (s : State) (k : Nat) (l : Lane) (adr : Nat) (fld : Fld) :
    (s.setLane k l).reg adr = s.reg adr ∧ (s.setLane k l).fld fld = s.fld fld ∧
    (s.setLane k l).flag fld = s.flag fld := ⟨rfl, rfl, rfl⟩

/-- State.setSeg leaves every field but segs. -/
@[simp] theorem State.setSeg_fields (s : State) (g : Nat) (x : Segment) :
    (s.setSeg g x).part = s.part ∧ (s.setSeg g x).pending = s.pending ∧ (s.setSeg g x).stitch = s.stitch ∧
    (s.setSeg g x).regs = s.regs ∧ (s.setSeg g x).staged = s.staged ∧ (s.setSeg g x).cmds = s.cmds ∧
    (s.setSeg g x).holds = s.holds ∧ (s.setSeg g x).readData = s.readData ∧ (s.setSeg g x).resp = s.resp ∧
    (s.setSeg g x).msix = s.msix ∧ (s.setSeg g x).fresh = s.fresh ∧ (s.setSeg g x).sb = s.sb ∧
    (s.setSeg g x).cores = s.cores ∧ (s.setSeg g x).ctxs = s.ctxs ∧ (s.setSeg g x).wdog = s.wdog ∧
    (s.setSeg g x).mem = s.mem ∧ (s.setSeg g x).badLines = s.badLines ∧ (s.setSeg g x).chans = s.chans ∧
    (s.setSeg g x).repeatAge = s.repeatAge ∧ (s.setSeg g x).tclk = s.tclk ∧ (s.setSeg g x).emitEn = s.emitEn ∧
    (s.setSeg g x).ain = s.ain ∧ (s.setSeg g x).spt = s.spt ∧ (s.setSeg g x).awls = s.awls ∧
    (s.setSeg g x).reins = s.reins ∧ (s.setSeg g x).hide = s.hide ∧ (s.setSeg g x).tree = s.tree ∧
    (s.setSeg g x).axes = s.axes ∧ (s.setSeg g x).skiver = s.skiver ∧ (s.setSeg g x).cams = s.cams ∧
    (s.setSeg g x).bed = s.bed ∧ (s.setSeg g x).lanes = s.lanes ∧ (s.setSeg g x).board = s.board ∧
    (s.setSeg g x).time = s.time ∧ (s.setSeg g x).eths = s.eths ∧ (s.setSeg g x).lamp = s.lamp ∧
    (s.setSeg g x).power = s.power ∧ (s.setSeg g x).therm = s.therm ∧ (s.setSeg g x).cal = s.cal ∧
    (s.setSeg g x).burn = s.burn ∧ (s.setSeg g x).sec = s.sec ∧ (s.setSeg g x).harn = s.harn ∧
    (s.setSeg g x).mark = s.mark :=
  ⟨rfl, rfl, rfl, rfl, rfl, rfl, rfl, rfl, rfl, rfl, rfl, rfl, rfl, rfl, rfl, rfl, rfl, rfl, rfl, rfl, rfl, rfl,
   rfl, rfl, rfl, rfl, rfl, rfl, rfl, rfl, rfl, rfl, rfl, rfl, rfl, rfl, rfl, rfl, rfl, rfl, rfl, rfl, rfl⟩

/-- State.setSeg leaves every register. -/
@[simp] theorem State.setSeg_regs (s : State) (g : Nat) (x : Segment) (adr : Nat) (fld : Fld) :
    (s.setSeg g x).reg adr = s.reg adr ∧ (s.setSeg g x).fld fld = s.fld fld ∧
    (s.setSeg g x).flag fld = s.flag fld := ⟨rfl, rfl, rfl⟩

/-- State.setChan leaves every field but chans. -/
@[simp] theorem State.setChan_fields (s : State) (c : Nat) (d : DmcChan) :
    (s.setChan c d).part = s.part ∧ (s.setChan c d).pending = s.pending ∧ (s.setChan c d).stitch = s.stitch ∧
    (s.setChan c d).regs = s.regs ∧ (s.setChan c d).staged = s.staged ∧ (s.setChan c d).cmds = s.cmds ∧
    (s.setChan c d).holds = s.holds ∧ (s.setChan c d).readData = s.readData ∧ (s.setChan c d).resp = s.resp ∧
    (s.setChan c d).msix = s.msix ∧ (s.setChan c d).fresh = s.fresh ∧ (s.setChan c d).sb = s.sb ∧
    (s.setChan c d).cores = s.cores ∧ (s.setChan c d).ctxs = s.ctxs ∧ (s.setChan c d).wdog = s.wdog ∧
    (s.setChan c d).mem = s.mem ∧ (s.setChan c d).badLines = s.badLines ∧ (s.setChan c d).repeatAge = s.repeatAge ∧
    (s.setChan c d).tclk = s.tclk ∧ (s.setChan c d).emitEn = s.emitEn ∧ (s.setChan c d).ain = s.ain ∧
    (s.setChan c d).spt = s.spt ∧ (s.setChan c d).awls = s.awls ∧ (s.setChan c d).reins = s.reins ∧
    (s.setChan c d).hide = s.hide ∧ (s.setChan c d).tree = s.tree ∧ (s.setChan c d).axes = s.axes ∧
    (s.setChan c d).skiver = s.skiver ∧ (s.setChan c d).cams = s.cams ∧ (s.setChan c d).bed = s.bed ∧
    (s.setChan c d).lanes = s.lanes ∧ (s.setChan c d).board = s.board ∧ (s.setChan c d).time = s.time ∧
    (s.setChan c d).segs = s.segs ∧ (s.setChan c d).eths = s.eths ∧ (s.setChan c d).lamp = s.lamp ∧
    (s.setChan c d).power = s.power ∧ (s.setChan c d).therm = s.therm ∧ (s.setChan c d).cal = s.cal ∧
    (s.setChan c d).burn = s.burn ∧ (s.setChan c d).sec = s.sec ∧ (s.setChan c d).harn = s.harn ∧
    (s.setChan c d).mark = s.mark :=
  ⟨rfl, rfl, rfl, rfl, rfl, rfl, rfl, rfl, rfl, rfl, rfl, rfl, rfl, rfl, rfl, rfl, rfl, rfl, rfl, rfl, rfl, rfl,
   rfl, rfl, rfl, rfl, rfl, rfl, rfl, rfl, rfl, rfl, rfl, rfl, rfl, rfl, rfl, rfl, rfl, rfl, rfl, rfl, rfl⟩

/-- State.setChan leaves every register. -/
@[simp] theorem State.setChan_regs (s : State) (c : Nat) (d : DmcChan) (adr : Nat) (fld : Fld) :
    (s.setChan c d).reg adr = s.reg adr ∧ (s.setChan c d).fld fld = s.fld fld ∧
    (s.setChan c d).flag fld = s.flag fld := ⟨rfl, rfl, rfl⟩

/-- State.setByte leaves every field but mem. -/
@[simp] theorem State.setByte_fields (s : State) (a : Nat) (b : Byte) :
    (s.setByte a b).part = s.part ∧ (s.setByte a b).pending = s.pending ∧ (s.setByte a b).stitch = s.stitch ∧
    (s.setByte a b).regs = s.regs ∧ (s.setByte a b).staged = s.staged ∧ (s.setByte a b).cmds = s.cmds ∧
    (s.setByte a b).holds = s.holds ∧ (s.setByte a b).readData = s.readData ∧ (s.setByte a b).resp = s.resp ∧
    (s.setByte a b).msix = s.msix ∧ (s.setByte a b).fresh = s.fresh ∧ (s.setByte a b).sb = s.sb ∧
    (s.setByte a b).cores = s.cores ∧ (s.setByte a b).ctxs = s.ctxs ∧ (s.setByte a b).wdog = s.wdog ∧
    (s.setByte a b).badLines = s.badLines ∧ (s.setByte a b).chans = s.chans ∧
    (s.setByte a b).repeatAge = s.repeatAge ∧ (s.setByte a b).tclk = s.tclk ∧ (s.setByte a b).emitEn = s.emitEn ∧
    (s.setByte a b).ain = s.ain ∧ (s.setByte a b).spt = s.spt ∧ (s.setByte a b).awls = s.awls ∧
    (s.setByte a b).reins = s.reins ∧ (s.setByte a b).hide = s.hide ∧ (s.setByte a b).tree = s.tree ∧
    (s.setByte a b).axes = s.axes ∧ (s.setByte a b).skiver = s.skiver ∧ (s.setByte a b).cams = s.cams ∧
    (s.setByte a b).bed = s.bed ∧ (s.setByte a b).lanes = s.lanes ∧ (s.setByte a b).board = s.board ∧
    (s.setByte a b).time = s.time ∧ (s.setByte a b).segs = s.segs ∧ (s.setByte a b).eths = s.eths ∧
    (s.setByte a b).lamp = s.lamp ∧ (s.setByte a b).power = s.power ∧ (s.setByte a b).therm = s.therm ∧
    (s.setByte a b).cal = s.cal ∧ (s.setByte a b).burn = s.burn ∧ (s.setByte a b).sec = s.sec ∧
    (s.setByte a b).harn = s.harn ∧ (s.setByte a b).mark = s.mark :=
  ⟨rfl, rfl, rfl, rfl, rfl, rfl, rfl, rfl, rfl, rfl, rfl, rfl, rfl, rfl, rfl, rfl, rfl, rfl, rfl, rfl, rfl, rfl,
   rfl, rfl, rfl, rfl, rfl, rfl, rfl, rfl, rfl, rfl, rfl, rfl, rfl, rfl, rfl, rfl, rfl, rfl, rfl, rfl, rfl⟩

/-- State.setByte leaves every register. -/
@[simp] theorem State.setByte_regs (s : State) (a : Nat) (b : Byte) (adr : Nat) (fld : Fld) :
    (s.setByte a b).reg adr = s.reg adr ∧ (s.setByte a b).fld fld = s.fld fld ∧
    (s.setByte a b).flag fld = s.flag fld := ⟨rfl, rfl, rfl⟩

/-- State.markLine leaves every field but badLines. -/
@[simp] theorem State.markLine_fields (s : State) (a : Nat) (bad : Bool) :
    (s.markLine a bad).part = s.part ∧ (s.markLine a bad).pending = s.pending ∧
    (s.markLine a bad).stitch = s.stitch ∧ (s.markLine a bad).regs = s.regs ∧
    (s.markLine a bad).staged = s.staged ∧ (s.markLine a bad).cmds = s.cmds ∧ (s.markLine a bad).holds = s.holds ∧
    (s.markLine a bad).readData = s.readData ∧ (s.markLine a bad).resp = s.resp ∧
    (s.markLine a bad).msix = s.msix ∧ (s.markLine a bad).fresh = s.fresh ∧ (s.markLine a bad).sb = s.sb ∧
    (s.markLine a bad).cores = s.cores ∧ (s.markLine a bad).ctxs = s.ctxs ∧ (s.markLine a bad).wdog = s.wdog ∧
    (s.markLine a bad).mem = s.mem ∧ (s.markLine a bad).chans = s.chans ∧
    (s.markLine a bad).repeatAge = s.repeatAge ∧ (s.markLine a bad).tclk = s.tclk ∧
    (s.markLine a bad).emitEn = s.emitEn ∧ (s.markLine a bad).ain = s.ain ∧ (s.markLine a bad).spt = s.spt ∧
    (s.markLine a bad).awls = s.awls ∧ (s.markLine a bad).reins = s.reins ∧ (s.markLine a bad).hide = s.hide ∧
    (s.markLine a bad).tree = s.tree ∧ (s.markLine a bad).axes = s.axes ∧ (s.markLine a bad).skiver = s.skiver ∧
    (s.markLine a bad).cams = s.cams ∧ (s.markLine a bad).bed = s.bed ∧ (s.markLine a bad).lanes = s.lanes ∧
    (s.markLine a bad).board = s.board ∧ (s.markLine a bad).time = s.time ∧ (s.markLine a bad).segs = s.segs ∧
    (s.markLine a bad).eths = s.eths ∧ (s.markLine a bad).lamp = s.lamp ∧ (s.markLine a bad).power = s.power ∧
    (s.markLine a bad).therm = s.therm ∧ (s.markLine a bad).cal = s.cal ∧ (s.markLine a bad).burn = s.burn ∧
    (s.markLine a bad).sec = s.sec ∧ (s.markLine a bad).harn = s.harn ∧ (s.markLine a bad).mark = s.mark :=
  ⟨rfl, rfl, rfl, rfl, rfl, rfl, rfl, rfl, rfl, rfl, rfl, rfl, rfl, rfl, rfl, rfl, rfl, rfl, rfl, rfl, rfl, rfl,
   rfl, rfl, rfl, rfl, rfl, rfl, rfl, rfl, rfl, rfl, rfl, rfl, rfl, rfl, rfl, rfl, rfl, rfl, rfl, rfl, rfl⟩

/-- State.markLine leaves every register. -/
@[simp] theorem State.markLine_regs (s : State) (a : Nat) (bad : Bool) (adr : Nat) (fld : Fld) :
    (s.markLine a bad).reg adr = s.reg adr ∧ (s.markLine a bad).fld fld = s.fld fld ∧
    (s.markLine a bad).flag fld = s.flag fld := ⟨rfl, rfl, rfl⟩

/-- State.onCal leaves every field but cal. -/
@[simp] theorem State.onCal_fields (s : State) (f : Cal → Cal) :
    (s.onCal f).part = s.part ∧ (s.onCal f).pending = s.pending ∧ (s.onCal f).stitch = s.stitch ∧
    (s.onCal f).regs = s.regs ∧ (s.onCal f).staged = s.staged ∧ (s.onCal f).cmds = s.cmds ∧
    (s.onCal f).holds = s.holds ∧ (s.onCal f).readData = s.readData ∧ (s.onCal f).resp = s.resp ∧
    (s.onCal f).msix = s.msix ∧ (s.onCal f).fresh = s.fresh ∧ (s.onCal f).sb = s.sb ∧ (s.onCal f).cores = s.cores ∧
    (s.onCal f).ctxs = s.ctxs ∧ (s.onCal f).wdog = s.wdog ∧ (s.onCal f).mem = s.mem ∧
    (s.onCal f).badLines = s.badLines ∧ (s.onCal f).chans = s.chans ∧ (s.onCal f).repeatAge = s.repeatAge ∧
    (s.onCal f).tclk = s.tclk ∧ (s.onCal f).emitEn = s.emitEn ∧ (s.onCal f).ain = s.ain ∧ (s.onCal f).spt = s.spt ∧
    (s.onCal f).awls = s.awls ∧ (s.onCal f).reins = s.reins ∧ (s.onCal f).hide = s.hide ∧
    (s.onCal f).tree = s.tree ∧ (s.onCal f).axes = s.axes ∧ (s.onCal f).skiver = s.skiver ∧
    (s.onCal f).cams = s.cams ∧ (s.onCal f).bed = s.bed ∧ (s.onCal f).lanes = s.lanes ∧
    (s.onCal f).board = s.board ∧ (s.onCal f).time = s.time ∧ (s.onCal f).segs = s.segs ∧
    (s.onCal f).eths = s.eths ∧ (s.onCal f).lamp = s.lamp ∧ (s.onCal f).power = s.power ∧
    (s.onCal f).therm = s.therm ∧ (s.onCal f).burn = s.burn ∧ (s.onCal f).sec = s.sec ∧ (s.onCal f).harn = s.harn ∧
    (s.onCal f).mark = s.mark :=
  ⟨rfl, rfl, rfl, rfl, rfl, rfl, rfl, rfl, rfl, rfl, rfl, rfl, rfl, rfl, rfl, rfl, rfl, rfl, rfl, rfl, rfl, rfl,
   rfl, rfl, rfl, rfl, rfl, rfl, rfl, rfl, rfl, rfl, rfl, rfl, rfl, rfl, rfl, rfl, rfl, rfl, rfl, rfl, rfl⟩

/-- State.onCal leaves every register. -/
@[simp] theorem State.onCal_regs (s : State) (f : Cal → Cal) (adr : Nat) (fld : Fld) :
    (s.onCal f).reg adr = s.reg adr ∧ (s.onCal f).fld fld = s.fld fld ∧
    (s.onCal f).flag fld = s.flag fld := ⟨rfl, rfl, rfl⟩

/-- State.onSec leaves every field but sec. -/
@[simp] theorem State.onSec_fields (s : State) (f : Sec → Sec) :
    (s.onSec f).part = s.part ∧ (s.onSec f).pending = s.pending ∧ (s.onSec f).stitch = s.stitch ∧
    (s.onSec f).regs = s.regs ∧ (s.onSec f).staged = s.staged ∧ (s.onSec f).cmds = s.cmds ∧
    (s.onSec f).holds = s.holds ∧ (s.onSec f).readData = s.readData ∧ (s.onSec f).resp = s.resp ∧
    (s.onSec f).msix = s.msix ∧ (s.onSec f).fresh = s.fresh ∧ (s.onSec f).sb = s.sb ∧ (s.onSec f).cores = s.cores ∧
    (s.onSec f).ctxs = s.ctxs ∧ (s.onSec f).wdog = s.wdog ∧ (s.onSec f).mem = s.mem ∧
    (s.onSec f).badLines = s.badLines ∧ (s.onSec f).chans = s.chans ∧ (s.onSec f).repeatAge = s.repeatAge ∧
    (s.onSec f).tclk = s.tclk ∧ (s.onSec f).emitEn = s.emitEn ∧ (s.onSec f).ain = s.ain ∧ (s.onSec f).spt = s.spt ∧
    (s.onSec f).awls = s.awls ∧ (s.onSec f).reins = s.reins ∧ (s.onSec f).hide = s.hide ∧
    (s.onSec f).tree = s.tree ∧ (s.onSec f).axes = s.axes ∧ (s.onSec f).skiver = s.skiver ∧
    (s.onSec f).cams = s.cams ∧ (s.onSec f).bed = s.bed ∧ (s.onSec f).lanes = s.lanes ∧
    (s.onSec f).board = s.board ∧ (s.onSec f).time = s.time ∧ (s.onSec f).segs = s.segs ∧
    (s.onSec f).eths = s.eths ∧ (s.onSec f).lamp = s.lamp ∧ (s.onSec f).power = s.power ∧
    (s.onSec f).therm = s.therm ∧ (s.onSec f).cal = s.cal ∧ (s.onSec f).burn = s.burn ∧ (s.onSec f).harn = s.harn ∧
    (s.onSec f).mark = s.mark :=
  ⟨rfl, rfl, rfl, rfl, rfl, rfl, rfl, rfl, rfl, rfl, rfl, rfl, rfl, rfl, rfl, rfl, rfl, rfl, rfl, rfl, rfl, rfl,
   rfl, rfl, rfl, rfl, rfl, rfl, rfl, rfl, rfl, rfl, rfl, rfl, rfl, rfl, rfl, rfl, rfl, rfl, rfl, rfl, rfl⟩

/-- State.onSec leaves every register. -/
@[simp] theorem State.onSec_regs (s : State) (f : Sec → Sec) (adr : Nat) (fld : Fld) :
    (s.onSec f).reg adr = s.reg adr ∧ (s.onSec f).fld fld = s.fld fld ∧
    (s.onSec f).flag fld = s.flag fld := ⟨rfl, rfl, rfl⟩

/-- State.onHarn leaves every field but harn. -/
@[simp] theorem State.onHarn_fields (s : State) (f : Harn → Harn) :
    (s.onHarn f).part = s.part ∧ (s.onHarn f).pending = s.pending ∧ (s.onHarn f).stitch = s.stitch ∧
    (s.onHarn f).regs = s.regs ∧ (s.onHarn f).staged = s.staged ∧ (s.onHarn f).cmds = s.cmds ∧
    (s.onHarn f).holds = s.holds ∧ (s.onHarn f).readData = s.readData ∧ (s.onHarn f).resp = s.resp ∧
    (s.onHarn f).msix = s.msix ∧ (s.onHarn f).fresh = s.fresh ∧ (s.onHarn f).sb = s.sb ∧
    (s.onHarn f).cores = s.cores ∧ (s.onHarn f).ctxs = s.ctxs ∧ (s.onHarn f).wdog = s.wdog ∧
    (s.onHarn f).mem = s.mem ∧ (s.onHarn f).badLines = s.badLines ∧ (s.onHarn f).chans = s.chans ∧
    (s.onHarn f).repeatAge = s.repeatAge ∧ (s.onHarn f).tclk = s.tclk ∧ (s.onHarn f).emitEn = s.emitEn ∧
    (s.onHarn f).ain = s.ain ∧ (s.onHarn f).spt = s.spt ∧ (s.onHarn f).awls = s.awls ∧
    (s.onHarn f).reins = s.reins ∧ (s.onHarn f).hide = s.hide ∧ (s.onHarn f).tree = s.tree ∧
    (s.onHarn f).axes = s.axes ∧ (s.onHarn f).skiver = s.skiver ∧ (s.onHarn f).cams = s.cams ∧
    (s.onHarn f).bed = s.bed ∧ (s.onHarn f).lanes = s.lanes ∧ (s.onHarn f).board = s.board ∧
    (s.onHarn f).time = s.time ∧ (s.onHarn f).segs = s.segs ∧ (s.onHarn f).eths = s.eths ∧
    (s.onHarn f).lamp = s.lamp ∧ (s.onHarn f).power = s.power ∧ (s.onHarn f).therm = s.therm ∧
    (s.onHarn f).cal = s.cal ∧ (s.onHarn f).burn = s.burn ∧ (s.onHarn f).sec = s.sec ∧ (s.onHarn f).mark = s.mark :=
  ⟨rfl, rfl, rfl, rfl, rfl, rfl, rfl, rfl, rfl, rfl, rfl, rfl, rfl, rfl, rfl, rfl, rfl, rfl, rfl, rfl, rfl, rfl,
   rfl, rfl, rfl, rfl, rfl, rfl, rfl, rfl, rfl, rfl, rfl, rfl, rfl, rfl, rfl, rfl, rfl, rfl, rfl, rfl, rfl⟩

/-- State.onHarn leaves every register. -/
@[simp] theorem State.onHarn_regs (s : State) (f : Harn → Harn) (adr : Nat) (fld : Fld) :
    (s.onHarn f).reg adr = s.reg adr ∧ (s.onHarn f).fld fld = s.fld fld ∧
    (s.onHarn f).flag fld = s.flag fld := ⟨rfl, rfl, rfl⟩

/-- State.onLamp leaves every field but lamp. -/
@[simp] theorem State.onLamp_fields (s : State) (f : Lamp → Lamp) :
    (s.onLamp f).part = s.part ∧ (s.onLamp f).pending = s.pending ∧ (s.onLamp f).stitch = s.stitch ∧
    (s.onLamp f).regs = s.regs ∧ (s.onLamp f).staged = s.staged ∧ (s.onLamp f).cmds = s.cmds ∧
    (s.onLamp f).holds = s.holds ∧ (s.onLamp f).readData = s.readData ∧ (s.onLamp f).resp = s.resp ∧
    (s.onLamp f).msix = s.msix ∧ (s.onLamp f).fresh = s.fresh ∧ (s.onLamp f).sb = s.sb ∧
    (s.onLamp f).cores = s.cores ∧ (s.onLamp f).ctxs = s.ctxs ∧ (s.onLamp f).wdog = s.wdog ∧
    (s.onLamp f).mem = s.mem ∧ (s.onLamp f).badLines = s.badLines ∧ (s.onLamp f).chans = s.chans ∧
    (s.onLamp f).repeatAge = s.repeatAge ∧ (s.onLamp f).tclk = s.tclk ∧ (s.onLamp f).emitEn = s.emitEn ∧
    (s.onLamp f).ain = s.ain ∧ (s.onLamp f).spt = s.spt ∧ (s.onLamp f).awls = s.awls ∧
    (s.onLamp f).reins = s.reins ∧ (s.onLamp f).hide = s.hide ∧ (s.onLamp f).tree = s.tree ∧
    (s.onLamp f).axes = s.axes ∧ (s.onLamp f).skiver = s.skiver ∧ (s.onLamp f).cams = s.cams ∧
    (s.onLamp f).bed = s.bed ∧ (s.onLamp f).lanes = s.lanes ∧ (s.onLamp f).board = s.board ∧
    (s.onLamp f).time = s.time ∧ (s.onLamp f).segs = s.segs ∧ (s.onLamp f).eths = s.eths ∧
    (s.onLamp f).power = s.power ∧ (s.onLamp f).therm = s.therm ∧ (s.onLamp f).cal = s.cal ∧
    (s.onLamp f).burn = s.burn ∧ (s.onLamp f).sec = s.sec ∧ (s.onLamp f).harn = s.harn ∧ (s.onLamp f).mark = s.mark :=
  ⟨rfl, rfl, rfl, rfl, rfl, rfl, rfl, rfl, rfl, rfl, rfl, rfl, rfl, rfl, rfl, rfl, rfl, rfl, rfl, rfl, rfl, rfl,
   rfl, rfl, rfl, rfl, rfl, rfl, rfl, rfl, rfl, rfl, rfl, rfl, rfl, rfl, rfl, rfl, rfl, rfl, rfl, rfl, rfl⟩

/-- State.onLamp leaves every register. -/
@[simp] theorem State.onLamp_regs (s : State) (f : Lamp → Lamp) (adr : Nat) (fld : Fld) :
    (s.onLamp f).reg adr = s.reg adr ∧ (s.onLamp f).fld fld = s.fld fld ∧
    (s.onLamp f).flag fld = s.flag fld := ⟨rfl, rfl, rfl⟩

/-- State.onPower leaves every field but power. -/
@[simp] theorem State.onPower_fields (s : State) (f : Power → Power) :
    (s.onPower f).part = s.part ∧ (s.onPower f).pending = s.pending ∧ (s.onPower f).stitch = s.stitch ∧
    (s.onPower f).regs = s.regs ∧ (s.onPower f).staged = s.staged ∧ (s.onPower f).cmds = s.cmds ∧
    (s.onPower f).holds = s.holds ∧ (s.onPower f).readData = s.readData ∧ (s.onPower f).resp = s.resp ∧
    (s.onPower f).msix = s.msix ∧ (s.onPower f).fresh = s.fresh ∧ (s.onPower f).sb = s.sb ∧
    (s.onPower f).cores = s.cores ∧ (s.onPower f).ctxs = s.ctxs ∧ (s.onPower f).wdog = s.wdog ∧
    (s.onPower f).mem = s.mem ∧ (s.onPower f).badLines = s.badLines ∧ (s.onPower f).chans = s.chans ∧
    (s.onPower f).repeatAge = s.repeatAge ∧ (s.onPower f).tclk = s.tclk ∧ (s.onPower f).emitEn = s.emitEn ∧
    (s.onPower f).ain = s.ain ∧ (s.onPower f).spt = s.spt ∧ (s.onPower f).awls = s.awls ∧
    (s.onPower f).reins = s.reins ∧ (s.onPower f).hide = s.hide ∧ (s.onPower f).tree = s.tree ∧
    (s.onPower f).axes = s.axes ∧ (s.onPower f).skiver = s.skiver ∧ (s.onPower f).cams = s.cams ∧
    (s.onPower f).bed = s.bed ∧ (s.onPower f).lanes = s.lanes ∧ (s.onPower f).board = s.board ∧
    (s.onPower f).time = s.time ∧ (s.onPower f).segs = s.segs ∧ (s.onPower f).eths = s.eths ∧
    (s.onPower f).lamp = s.lamp ∧ (s.onPower f).therm = s.therm ∧ (s.onPower f).cal = s.cal ∧
    (s.onPower f).burn = s.burn ∧ (s.onPower f).sec = s.sec ∧ (s.onPower f).harn = s.harn ∧
    (s.onPower f).mark = s.mark :=
  ⟨rfl, rfl, rfl, rfl, rfl, rfl, rfl, rfl, rfl, rfl, rfl, rfl, rfl, rfl, rfl, rfl, rfl, rfl, rfl, rfl, rfl, rfl,
   rfl, rfl, rfl, rfl, rfl, rfl, rfl, rfl, rfl, rfl, rfl, rfl, rfl, rfl, rfl, rfl, rfl, rfl, rfl, rfl, rfl⟩

/-- State.onPower leaves every register. -/
@[simp] theorem State.onPower_regs (s : State) (f : Power → Power) (adr : Nat) (fld : Fld) :
    (s.onPower f).reg adr = s.reg adr ∧ (s.onPower f).fld fld = s.fld fld ∧
    (s.onPower f).flag fld = s.flag fld := ⟨rfl, rfl, rfl⟩

/-- State.onTree leaves every field but tree. -/
@[simp] theorem State.onTree_fields (s : State) (f : Tree → Tree) :
    (s.onTree f).part = s.part ∧ (s.onTree f).pending = s.pending ∧ (s.onTree f).stitch = s.stitch ∧
    (s.onTree f).regs = s.regs ∧ (s.onTree f).staged = s.staged ∧ (s.onTree f).cmds = s.cmds ∧
    (s.onTree f).holds = s.holds ∧ (s.onTree f).readData = s.readData ∧ (s.onTree f).resp = s.resp ∧
    (s.onTree f).msix = s.msix ∧ (s.onTree f).fresh = s.fresh ∧ (s.onTree f).sb = s.sb ∧
    (s.onTree f).cores = s.cores ∧ (s.onTree f).ctxs = s.ctxs ∧ (s.onTree f).wdog = s.wdog ∧
    (s.onTree f).mem = s.mem ∧ (s.onTree f).badLines = s.badLines ∧ (s.onTree f).chans = s.chans ∧
    (s.onTree f).repeatAge = s.repeatAge ∧ (s.onTree f).tclk = s.tclk ∧ (s.onTree f).emitEn = s.emitEn ∧
    (s.onTree f).ain = s.ain ∧ (s.onTree f).spt = s.spt ∧ (s.onTree f).awls = s.awls ∧
    (s.onTree f).reins = s.reins ∧ (s.onTree f).hide = s.hide ∧ (s.onTree f).axes = s.axes ∧
    (s.onTree f).skiver = s.skiver ∧ (s.onTree f).cams = s.cams ∧ (s.onTree f).bed = s.bed ∧
    (s.onTree f).lanes = s.lanes ∧ (s.onTree f).board = s.board ∧ (s.onTree f).time = s.time ∧
    (s.onTree f).segs = s.segs ∧ (s.onTree f).eths = s.eths ∧ (s.onTree f).lamp = s.lamp ∧
    (s.onTree f).power = s.power ∧ (s.onTree f).therm = s.therm ∧ (s.onTree f).cal = s.cal ∧
    (s.onTree f).burn = s.burn ∧ (s.onTree f).sec = s.sec ∧ (s.onTree f).harn = s.harn ∧ (s.onTree f).mark = s.mark :=
  ⟨rfl, rfl, rfl, rfl, rfl, rfl, rfl, rfl, rfl, rfl, rfl, rfl, rfl, rfl, rfl, rfl, rfl, rfl, rfl, rfl, rfl, rfl,
   rfl, rfl, rfl, rfl, rfl, rfl, rfl, rfl, rfl, rfl, rfl, rfl, rfl, rfl, rfl, rfl, rfl, rfl, rfl, rfl, rfl⟩

/-- State.onTree leaves every register. -/
@[simp] theorem State.onTree_regs (s : State) (f : Tree → Tree) (adr : Nat) (fld : Fld) :
    (s.onTree f).reg adr = s.reg adr ∧ (s.onTree f).fld fld = s.fld fld ∧
    (s.onTree f).flag fld = s.flag fld := ⟨rfl, rfl, rfl⟩

/-- State.setFld leaves every field but regs. -/
@[simp] theorem State.setFld_fields (s : State) (f : Fld) (v : Nat) :
    (s.setFld f v).part = s.part ∧ (s.setFld f v).pending = s.pending ∧ (s.setFld f v).stitch = s.stitch ∧
    (s.setFld f v).staged = s.staged ∧ (s.setFld f v).cmds = s.cmds ∧ (s.setFld f v).holds = s.holds ∧
    (s.setFld f v).readData = s.readData ∧ (s.setFld f v).resp = s.resp ∧ (s.setFld f v).msix = s.msix ∧
    (s.setFld f v).fresh = s.fresh ∧ (s.setFld f v).sb = s.sb ∧ (s.setFld f v).cores = s.cores ∧
    (s.setFld f v).ctxs = s.ctxs ∧ (s.setFld f v).wdog = s.wdog ∧ (s.setFld f v).mem = s.mem ∧
    (s.setFld f v).badLines = s.badLines ∧ (s.setFld f v).chans = s.chans ∧
    (s.setFld f v).repeatAge = s.repeatAge ∧ (s.setFld f v).tclk = s.tclk ∧ (s.setFld f v).emitEn = s.emitEn ∧
    (s.setFld f v).ain = s.ain ∧ (s.setFld f v).spt = s.spt ∧ (s.setFld f v).awls = s.awls ∧
    (s.setFld f v).reins = s.reins ∧ (s.setFld f v).hide = s.hide ∧ (s.setFld f v).tree = s.tree ∧
    (s.setFld f v).axes = s.axes ∧ (s.setFld f v).skiver = s.skiver ∧ (s.setFld f v).cams = s.cams ∧
    (s.setFld f v).bed = s.bed ∧ (s.setFld f v).lanes = s.lanes ∧ (s.setFld f v).board = s.board ∧
    (s.setFld f v).time = s.time ∧ (s.setFld f v).segs = s.segs ∧ (s.setFld f v).eths = s.eths ∧
    (s.setFld f v).lamp = s.lamp ∧ (s.setFld f v).power = s.power ∧ (s.setFld f v).therm = s.therm ∧
    (s.setFld f v).cal = s.cal ∧ (s.setFld f v).burn = s.burn ∧ (s.setFld f v).sec = s.sec ∧
    (s.setFld f v).harn = s.harn ∧ (s.setFld f v).mark = s.mark :=
  ⟨rfl, rfl, rfl, rfl, rfl, rfl, rfl, rfl, rfl, rfl, rfl, rfl, rfl, rfl, rfl, rfl, rfl, rfl, rfl, rfl, rfl, rfl,
   rfl, rfl, rfl, rfl, rfl, rfl, rfl, rfl, rfl, rfl, rfl, rfl, rfl, rfl, rfl, rfl, rfl, rfl, rfl, rfl, rfl⟩

end Sys2Proof.Machine
end

