-- ==== Sys2Proof/Laws/Regs.lean ====
section
/-! SUPPORT. Laws of registers and fields, of the state of each unit by its number, and of what an event leaves: a read after a
write. -/

namespace Sys2Proof.Machine

/-! ## Fields of a word -/

/-- A bit of a field. -/
theorem getBits_testBit (w : Word) (hi lo i : Nat) :
    (getBits w hi lo).testBit i = (decide (i < hi + 1 - lo) && w.getLsbD (lo + i)) := by
  have h : (((w >>> lo) &&& w32 (2 ^ (hi + 1 - lo) - 1)).toNat).testBit i
      = ((w >>> lo) &&& w32 (2 ^ (hi + 1 - lo) - 1)).getLsbD i := rfl
  unfold getBits
  rw [h, BitVec.getLsbD_and, BitVec.getLsbD_ushiftRight]
  by_cases hw : lo + i < 32
  · simp only [w32, BitVec.getLsbD_ofNat, Nat.testBit_two_pow_sub_one]
    have : i < 32 := by omega
    simp [this, Bool.and_comm]
  · have : w.getLsbD (lo + i) = false := BitVec.getLsbD_of_ge _ _ (by omega)
    simp [this]

/-- A bit of a mask. -/
theorem bitMask_getLsbD (hi lo i : Nat) (h : hi < 32) :
    (bitMask hi lo).getLsbD i = (decide (lo ≤ i) && decide (i ≤ hi)) := by
  unfold bitMask
  rw [BitVec.getLsbD_shiftLeft]
  by_cases hi32 : i < 32
  · simp only [w32, BitVec.getLsbD_ofNat, Nat.testBit_two_pow_sub_one]
    by_cases h1 : lo ≤ i <;> by_cases h2 : i ≤ hi <;> simp [*] <;> omega
  · simp [hi32]; omega

/-- A bit of a word with a field replaced. -/
theorem putBits_getLsbD (w : Word) (hi lo v i : Nat) (h : hi < 32) :
    (putBits w hi lo v).getLsbD i = if lo ≤ i ∧ i ≤ hi then v.testBit (i - lo) else w.getLsbD i := by
  unfold putBits
  rw [BitVec.getLsbD_or, BitVec.getLsbD_and, BitVec.getLsbD_and, BitVec.getLsbD_not, bitMask_getLsbD _ _ _ h,
    BitVec.getLsbD_shiftLeft]
  by_cases hi32 : i < 32
  · simp only [w32, BitVec.getLsbD_ofNat]
    have h4 : i - lo < 32 := by omega
    by_cases h1 : lo ≤ i
    · have h3 : ¬ i < lo := by omega
      by_cases h2 : i ≤ hi <;> simp [*]
    · have h3 : i < lo := by omega
      simp [*]
  · have h5 : w.getLsbD i = false := BitVec.getLsbD_of_ge _ _ (by omega)
    have h6 : ¬ (lo ≤ i ∧ i ≤ hi) := by omega
    simp [hi32, h5, h6]

/-- The field just written. -/
theorem getBits_putBits_same (w : Word) {hi lo : Nat} (v : Nat) (h : hi < 32) :
    getBits (putBits w hi lo v) hi lo = v % 2 ^ (hi + 1 - lo) := by
  apply Nat.eq_of_testBit_eq
  intro i
  rw [getBits_testBit, putBits_getLsbD _ _ _ _ _ h, Nat.testBit_mod_two_pow]
  by_cases hi' : i < hi + 1 - lo
  · have : lo ≤ lo + i ∧ lo + i ≤ hi := by omega
    simp [hi', this]
  · simp [hi']

/-- A field beside the one written. -/
theorem getBits_putBits_other (w : Word) {hi lo hi' lo' : Nat} (v : Nat) (h : hi < 32)
    (hd : hi' < lo ∨ hi < lo') : getBits (putBits w hi lo v) hi' lo' = getBits w hi' lo' := by
  apply Nat.eq_of_testBit_eq
  intro i
  rw [getBits_testBit, getBits_testBit, putBits_getLsbD _ _ _ _ _ h]
  by_cases hi1 : i < hi' + 1 - lo'
  · have : ¬(lo ≤ lo' + i ∧ lo' + i ≤ hi) := by omega
    simp [this]
  · simp [hi1]

/-- A field is below its size. -/
theorem getBits_lt (w : Word) (hi lo : Nat) : getBits w hi lo < 2 ^ (hi + 1 - lo) := by
  apply Nat.lt_pow_two_of_testBit
  intro i hi'
  rw [getBits_testBit]
  have : ¬ i < hi + 1 - lo := by omega
  simp [this]

/-! ## Registers -/

/-- A register after a write of a register. -/
theorem State.reg_setReg (s : State) (a b : Nat) (w : Word) : (s.setReg a w).reg b = if b = a then w else s.reg b := by
  by_cases h : b = a
  · subst h
    simp [State.reg, State.setReg]
  · simp only [h, if_false]
    exact sget_sset_other _ _ _ _ h

/-- The register just written. -/
@[simp] theorem State.reg_setReg_same (s : State) (a : Nat) (w : Word) : (s.setReg a w).reg a = w := by
  simp [State.reg_setReg]

/-- Another register. -/
theorem State.reg_setReg_other (s : State) {a b : Nat} (w : Word) (h : b ≠ a) : (s.setReg a w).reg b = s.reg b := by
  simp [State.reg_setReg, h]

/-- A register other than a field's. -/
theorem State.reg_setFld_other (s : State) {f : Fld} {b : Nat} (v : Nat) (h : b ≠ f.addr) : (s.setFld f v).reg b = s.reg b :=
  s.reg_setReg_other _ h

/-- The field just written. -/
theorem State.fld_setFld_same (s : State) {f : Fld} (v : Nat) (h : f.hi < 32) :
    (s.setFld f v).fld f = v % 2 ^ (f.hi + 1 - f.lo) := by
  simp [State.fld, State.setFld, getBits_putBits_same _ v h]

/-- A field of another register. -/
theorem State.fld_setReg_other (s : State) {f : Fld} {a : Nat} (w : Word) (h : f.addr ≠ a) :
    (s.setReg a w).fld f = s.fld f := by
  simp [State.fld, s.reg_setReg_other w h]

/-- A field of another register, or beside the one written. -/
theorem State.fld_setFld_other (s : State) {f g : Fld} (v : Nat) (h : f.hi < 32)
    (hd : g.addr ≠ f.addr ∨ g.hi < f.lo ∨ f.hi < g.lo) : (s.setFld f v).fld g = s.fld g := by
  unfold State.setFld
  by_cases ha : g.addr = f.addr
  · have hb : g.hi < f.lo ∨ f.hi < g.lo := by
      rcases hd with h1 | h1
      · exact absurd ha h1
      · exact h1
    simp [State.fld, ha, getBits_putBits_other _ v h hb]
  · exact s.fld_setReg_other _ ha

/-- A field is at most its top. -/
theorem State.fld_lt (s : State) (f : Fld) : s.fld f < 2 ^ (f.hi + 1 - f.lo) := getBits_lt _ _ _

/-! ## The state of a unit by its number -/

/-- State.awl after State.setAwl. -/
theorem State.awl_setAwl (s : State) (k j : Nat) (x : Awl) : (s.setAwl k x).awl j = if j = k then x else s.awl j :=
  sget_sset _ _ _ _ _

/-- The same unit. -/
@[simp] theorem State.awl_setAwl_same (s : State) (k : Nat) (x : Awl) : (s.setAwl k x).awl k = x := sget_sset_same _ _ _ _

/-- State.rein after State.setRein. -/
theorem State.rein_setRein (s : State) (k j : Nat) (x : Rein) : (s.setRein k x).rein j = if j = k then x else s.rein j :=
  sget_sset _ _ _ _ _

/-- The same unit. -/
@[simp] theorem State.rein_setRein_same (s : State) (k : Nat) (x : Rein) : (s.setRein k x).rein k = x := sget_sset_same _ _ _ _

/-- State.axis after State.setAxis. -/
theorem State.axis_setAxis (s : State) (k j : Nat) (x : Axis) : (s.setAxis k x).axis j = if j = k then x else s.axis j :=
  sget_sset _ _ _ _ _

/-- The same unit. -/
@[simp] theorem State.axis_setAxis_same (s : State) (k : Nat) (x : Axis) : (s.setAxis k x).axis k = x := sget_sset_same _ _ _ _

/-- State.lane after State.setLane. -/
theorem State.lane_setLane (s : State) (k j : Nat) (x : Lane) : (s.setLane k x).lane j = if j = k then x else s.lane j :=
  sget_sset _ _ _ _ _

/-- The same unit. -/
@[simp] theorem State.lane_setLane_same (s : State) (k : Nat) (x : Lane) : (s.setLane k x).lane k = x := sget_sset_same _ _ _ _

/-- State.seg after State.setSeg. -/
theorem State.seg_setSeg (s : State) (k j : Nat) (x : Segment) : (s.setSeg k x).seg j = if j = k then x else s.seg j :=
  sget_sset _ _ _ _ _

/-- The same unit. -/
@[simp] theorem State.seg_setSeg_same (s : State) (k : Nat) (x : Segment) : (s.setSeg k x).seg k = x := sget_sset_same _ _ _ _

/-- State.chan after State.setChan. -/
theorem State.chan_setChan (s : State) (k j : Nat) (x : DmcChan) : (s.setChan k x).chan j = if j = k then x else s.chan j :=
  sget_sset _ _ _ _ _

/-- The same unit. -/
@[simp] theorem State.chan_setChan_same (s : State) (k : Nat) (x : DmcChan) : (s.setChan k x).chan k = x := sget_sset_same _ _ _ _

/-- State.core after State.setCore. -/
theorem State.core_setCore (s : State) (k j : Nat) (x : Core) : (s.setCore k x).core j = if j = k then x else s.core j :=
  sget_sset _ _ _ _ _

/-- The same unit. -/
@[simp] theorem State.core_setCore_same (s : State) (k : Nat) (x : Core) : (s.setCore k x).core k = x := sget_sset_same _ _ _ _

/-- State.ctx after State.setCtx. -/
theorem State.ctx_setCtx (s : State) (k c k' c' : Nat) (x : Ctx) :
    (s.setCtx k c x).ctx k' c' = if 16 * k' + c' = 16 * k + c then x else s.ctx k' c' := sget_sset _ _ _ _ _

/-- The same context. -/
@[simp] theorem State.ctx_setCtx_same (s : State) (k c : Nat) (x : Ctx) : (s.setCtx k c x).ctx k c = x :=
  sget_sset_same _ _ _ _

/-- State.cam after State.setCam. -/
theorem State.cam_setCam (s : State) (p i p' i' : Nat) (x : Cam) :
    (s.setCam p i x).cam p' i' = if 8 * p' + i' = 8 * p + i then x else s.cam p' i' := sget_sset _ _ _ _ _

/-- The same camera. -/
@[simp] theorem State.cam_setCam_same (s : State) (p i : Nat) (x : Cam) : (s.setCam p i x).cam p i = x :=
  sget_sset_same _ _ _ _

/-! ## Streams and events: which registers they can change -/

/-- A key that names a live queue is a queue's. -/
theorem State.namedQueue_lt {s : State} {h : Word} {key : Nat} (e : s.namedQueue h = some key) : key < 4096 := by
  unfold State.namedQueue at e
  split at e
  · split at e
    · rename_i hq
      cases e
      simpa [isQueue] using hq
    · cases e
  · cases e

/-- A stream replaced changes no register but its status. -/
theorem State.reg_setStream (s : State) (key : Nat) (str : Stream) {a : Nat} (h : ¬ EventReg a) :
    (s.setStream key str).reg a = s.reg a := by
  unfold State.setStream
  dsimp only
  split
  · rename_i hq
    have hk : key < 4096 := by simpa [isQueue] using hq
    have ne : a ≠ R.SB_Q_STATUS key := by
      unfold EventReg at h; unfold R.SB_Q_STATUS; omega
    rw [State.reg_setFld_other _ _ ne, State.reg_setFld_other _ _ ne, State.reg_setFld_other _ _ ne]
    rfl
  · rfl

/-- One more in a counter of another register. -/
theorem State.reg_bump (s : State) (f : Fld) {a : Nat} (ne : a ≠ f.addr) : (s.bump f).reg a = s.reg a :=
  State.reg_setFld_other _ _ ne

/-- A refusal counted. -/
theorem State.reg_countRefused (s : State) (req : Nat) {a : Nat} (h : ¬ EventReg a) : (s.countRefused req).reg a = s.reg a := by
  unfold State.countRefused
  split
  · exact State.reg_bump _ _ (by unfold EventReg at h; simp only [F.SB_REQ_REFUSED_COUNT]; unfold R.SB_REQ_REFUSED; omega)
  · rfl

/-- A refused push counted in its queue's register. -/
theorem State.reg_bumpRefused (s : State) (key : Nat) (hk : key < 4096) {a : Nat} (h : ¬ EventReg a) :
    (s.bump (F.SB_Q_REFUSED_COUNT key)).reg a = s.reg a :=
  State.reg_bump _ _ (by unfold EventReg at h; simp only [F.SB_Q_REFUSED_COUNT]; unfold R.SB_Q_REFUSED; omega)

/-- A queue after an operation, with its counters. -/
theorem State.reg_counted (s : State) (req key : Nat) (r : QueueResult) (hk : key < 4096) {a : Nat} (h : ¬ EventReg a) :
    (s.counted req key r).reg a = s.reg a := by
  have ne : a ≠ R.SB_Q_ERRS key := by unfold EventReg at h; unfold R.SB_Q_ERRS; omega
  have b : (s.setStream key r.q).reg a = s.reg a := State.reg_setStream _ _ _ h
  have b2 : (if r.dropped = 0 then s.setStream key r.q
      else (s.setStream key r.q).bumpBy (F.SB_Q_ERRS_FLUSH_DROP key) r.dropped).reg a = s.reg a := by
    split
    · exact b
    · exact (State.reg_setFld_other _ _ ne).trans b
  unfold State.counted
  dsimp only
  split
  · rw [State.reg_countRefused _ _ h, State.reg_bumpRefused _ _ hk h, b2]
  · exact b2

/-- A packet pushed into a spill queue. -/
theorem State.reg_landAll (req key p : Nat) (hk : key < 4096) {a : Nat} (h : ¬ EventReg a) (ws : List PWord) (s : State) :
    (s.landAll req key p ws).reg a = s.reg a := by
  induction ws generalizing s with
  | nil => rfl
  | cons w ws ih =>
    unfold State.landAll
    dsimp only
    rw [ih]
    split
    · rfl
    · exact State.reg_counted _ _ _ _ hk h

/-- A packet pushed quietly. -/
theorem State.reg_pushQuiet (s : State) (req key : Nat) (ws : List PWord) (hk : key < 4096) {a : Nat} (h : ¬ EventReg a) :
    (s.pushQuiet req key ws).reg a = s.reg a := by
  unfold State.pushQuiet
  dsimp only
  split
  · split
    · exact State.reg_landAll _ _ _ hk h _ _
    · exact State.reg_setStream _ _ _ h
  · rw [State.reg_countRefused _ _ h, State.reg_bumpRefused _ _ hk h]

/-- A message signalled. -/
theorem State.reg_signal (s : State) {vec : Nat} (hv : vec < 256) {a : Nat} (h : ¬ EventReg a) :
    (s.signal vec).reg a = s.reg a := by
  unfold State.signal
  split
  · have ne : a ≠ R.PCIE_MSIX_PBA (vec / 32) := by unfold EventReg at h; unfold R.PCIE_MSIX_PBA; omega
    exact State.reg_setReg_other _ _ ne
  · split <;> rfl

/-- A threshold's bit and vector. -/
theorem State.reg_markThreshold (s : State) (key before : Nat) (hk : key < 4096) {a : Nat} (h : ¬ EventReg a) :
    (s.markThreshold key before).reg a = s.reg a := by
  have base : (s.setFld (F.SB_Q_STATUS_THR key) 1).reg a = s.reg a :=
    State.reg_setFld_other _ _ (by unfold EventReg at h; unfold F.SB_Q_STATUS_THR R.SB_Q_STATUS; dsimp only; omega)
  unfold State.markThreshold
  dsimp only
  split
  · split
    · rw [State.reg_signal _ (State.fld_lt _ (F.SB_Q_CFG_VEC key)) h, base]
    · exact base
  · rfl

/-- A threshold raised. -/
theorem State.reg_threshold (s : State) (key before : Nat) (hk : key < 4096) {a : Nat} (h : ¬ EventReg a) :
    (s.threshold key before).reg a = s.reg a := by
  unfold State.threshold
  dsimp only
  split
  · split
    · rename_i ek he
      split
      · exact State.reg_markThreshold _ _ _ hk h
      · rw [State.reg_markThreshold _ _ _ (State.namedQueue_lt he) h, State.reg_pushQuiet _ _ _ _ (State.namedQueue_lt he) h,
          State.reg_markThreshold _ _ _ hk h]
    · exact State.reg_markThreshold _ _ _ hk h
  · rfl

/-- An event packet pushed. -/
theorem State.reg_pushEvent (s : State) (req : Nat) (q : Word) (ws : List Word) {a : Nat} (h : ¬ EventReg a) :
    (s.pushEvent req q ws).reg a = s.reg a := by
  unfold State.pushEvent
  split
  · rfl
  · rename_i key he
    have hk := State.namedQueue_lt he
    rw [State.reg_threshold _ _ _ hk h, State.reg_pushQuiet _ _ _ _ hk h]

/-- A packet of words pushed. -/
theorem State.reg_pushWords (s : State) (req : Nat) (q : Word) (ws : List PWord) {a : Nat} (h : ¬ EventReg a) :
    (s.pushWords req q ws).reg a = s.reg a := by
  unfold State.pushWords
  split
  · rfl
  · rename_i key he
    have hk := State.namedQueue_lt he
    rw [State.reg_threshold _ _ _ hk h, State.reg_pushQuiet _ _ _ _ hk h]

/-- A field of a register that an event leaves. -/
theorem State.fld_pushEvent (s : State) (req : Nat) (q : Word) (ws : List Word) {f : Fld} (h : ¬ EventReg f.addr) :
    (s.pushEvent req q ws).fld f = s.fld f := by simp [State.fld, s.reg_pushEvent req q ws h]

/-- An access event: beside queues it changes the three registers of the first event. -/
theorem State.reg_accessEvent (s : State) (code : Nat) (src : Source) (bar : Bar) (off : BitVec 64) {a : Nat}
    (h : ¬ EventReg a) (h1 : a ≠ R.SYS_ACC_INFO) (h2 : a ≠ R.SYS_ACC_ADDR_LO) (h3 : a ≠ R.SYS_ACC_ADDR_HI) :
    (s.accessEvent code src bar off).reg a = s.reg a := by
  unfold State.accessEvent
  dsimp only
  rw [State.reg_pushEvent _ _ _ _ h]
  split
  · exact State.reg_setFld_other _ _ h1
  · rw [State.reg_setReg_other _ _ h3, State.reg_setReg_other _ _ h2, State.reg_setReg_other _ _ h1]

/-! ## The gate -/

/-- A write that reaches its register does what the register does. -/
theorem State.gate_eq {s : State} {src : Source} {a : Nat} (h : s.Reaches src a) (val : Word) (f : State → State) :
    s.gate src a val f = f s := by
  obtain ⟨h1, h2, h3, h4⟩ := h
  unfold State.gate
  by_cases hs : src = .host
  · obtain ⟨m1, m2, m3⟩ := h2 hs
    have m4 : ¬ (s.isWheel = true ∧ (!wheelTakes a) = true) := by
      intro hh
      have := m2 hh.1
      simp [this] at hh
    simp [h1, hs, m1, h3, m3, h4]
    intro x y
    simp [x, y] at m4
  · simp [h1, hs, h3, h4]

/-! ## Access events -/

/-- A field of a word given by a number. -/
theorem getBits_w32 (n hi lo : Nat) (h : hi < 32) : getBits (w32 n) hi lo = n / 2 ^ lo % 2 ^ (hi + 1 - lo) := by
  apply Nat.eq_of_testBit_eq
  intro i
  rw [getBits_testBit, Nat.testBit_mod_two_pow, Nat.testBit_div_two_pow]
  simp only [w32, BitVec.getLsbD_ofNat]
  by_cases hi' : i < hi + 1 - lo
  · have : lo + i < 32 := by omega
    simp [hi', this, Nat.add_comm]
  · simp [hi']

/-- Four sources. -/
theorem srcCode_lt (src : Source) : srcCode src < 4 := by cases src <;> simp [srcCode]
/-- BAR numbers take three bits. -/
theorem barNum_lt (b : Bar) : barNum b < 8 := by cases b <;> simp [barNum]

/-- The first access event since the last clear is latched (R22). -/
theorem State.accessEvent_first (s : State) {code : Nat} (hc : code < 128) (src : Source) (bar : Bar) (off : BitVec 64)
    (h : s.flag F.SYS_ACC_INFO_VALID = false) :
    (s.accessEvent code src bar off).flag F.SYS_ACC_INFO_VALID = true ∧
    (s.accessEvent code src bar off).fld F.SYS_ACC_INFO_CODE = code ∧
    (s.accessEvent code src bar off).fld F.SYS_ACC_INFO_SOURCE = srcCode src ∧
    (s.accessEvent code src bar off).reg R.SYS_ACC_ADDR_LO = off.truncate 32 ∧
    (s.accessEvent code src bar off).reg R.SYS_ACC_ADDR_HI = (off >>> 32).truncate 32 := by
  have e1 : ¬ EventReg R.SYS_ACC_INFO := by unfold EventReg; decide
  have e2 : ¬ EventReg R.SYS_ACC_ADDR_LO := by unfold EventReg; decide
  have e3 : ¬ EventReg R.SYS_ACC_ADDR_HI := by unfold EventReg; decide
  have n1 : R.SYS_ACC_INFO ≠ R.SYS_ACC_ADDR_LO := by decide
  have n2 : R.SYS_ACC_INFO ≠ R.SYS_ACC_ADDR_HI := by decide
  have n3 : R.SYS_ACC_ADDR_LO ≠ R.SYS_ACC_ADDR_HI := by decide
  have c1 := srcCode_lt src
  have c2 := barNum_lt bar
  have c3 : srcCore src % 64 < 64 := Nat.mod_lt _ (by decide)
  have c4 : srcCtx src % 16 < 16 := Nat.mod_lt _ (by decide)
  unfold State.accessEvent State.flag
  simp only [State.fld, F.SYS_ACC_INFO_VALID, F.SYS_ACC_INFO_CODE, F.SYS_ACC_INFO_SOURCE, State.flag] at *
  simp only [h, Bool.false_eq_true, if_false, State.reg_pushEvent _ _ _ _ e1, State.reg_pushEvent _ _ _ _ e2, State.reg_pushEvent _ _ _ _ e3, State.reg_setReg_same, State.reg_setReg_other _ _ n1, State.reg_setReg_other _ _ n2, State.reg_setReg_other _ _ n3]
  rw [getBits_w32 _ _ _ (by decide), getBits_w32 _ _ _ (by decide), getBits_w32 _ _ _ (by decide)]
  refine ⟨?_, ?_, ?_, trivial, trivial⟩
  · simp; omega
  · omega
  · omega

end Sys2Proof.Machine
end

