-- ==== Sys2Proof/Laws/Adtuak.lean ====
section
/-! SUPPORT. How an Adtuak instruction runs, said once: one that issues and fits its slot changes its context and its core's
cycle count, and nothing else; and what a write of a general, predicate or vector register leaves. -/

namespace Sys2Proof.Machine

/-- The earliest entry is one of the list. -/
theorem earliest_mem {l : List (Int × Due)} {e : Int × Due} (h : earliest l = some e) : e ∈ l := by
  induction l generalizing e with
  | nil => cases h
  | cons a l ih =>
    unfold earliest at h
    split at h
    · cases h; simp
    · rename_i m hm
      split at h
      · cases h; exact List.mem_cons_of_mem _ (ih hm)
      · cases h; simp

/-- Nothing completes where nothing is due. -/
theorem passTo_quiet {s : State} {core : Nat} {t : Int} (h : ∀ e ∈ s.dueList core, t < e.1) : s.passTo core t = s := by
  unfold State.passTo outstandingMax
  rw [State.finishUpTo]
  split
  · rfl
  · rename_i e he
    have := h e (earliest_mem he)
    rw [if_neg (by omega)]

/-- The latest of a list is no earlier than its first. -/
theorem latest_le (t : Int) (l : List Int) : t ≤ latest t l := by
  unfold latest
  induction l generalizing t with
  | nil => exact Int.le_refl _
  | cons a l ih => exact Int.le_trans (Int.le_max_left t a) (ih _)

/-- What is due depends on what is outstanding alone. -/
theorem dueList_congr {s t : State} {core : Nat} (h1 : (t.core core).sts = (s.core core).sts)
    (h2 : (t.core core).lds = (s.core core).lds) (h3 : ∀ c, (t.ctx core c).bpws = (s.ctx core c).bpws)
    (h4 : (t.core core).qops = (s.core core).qops) : t.dueList core = s.dueList core := by
  unfold State.dueList
  simp only [h1, h2, h3, h4]

/-- Time runs on over cycles in which nothing completes. -/
theorem runTo_quiet {s : State} {core t stop : Nat} (h : ∀ e ∈ s.dueList core, (t : Int) < e.1) :
    s.runTo core t stop = s.setCore core { s.core core with cyc := t } := by
  unfold State.runTo
  apply passTo_quiet
  rw [dueList_congr (s := s)]
  · intro e he
    have := h e he
    omega
  · rw [State.core_setCore, if_pos rfl]
  · rw [State.core_setCore, if_pos rfl]
  · exact fun _ => rfl
  · rw [State.core_setCore, if_pos rfl]

/-- An instruction that issues runs its effect at once. -/
theorem issue_eq {s : State} {core c : Nat} {o : Adt} {w : Word} {sl : Slot} (h : s.Issues core c o w sl) (hc : 0 < o.cost)
    (run : State → Nat → Word → State) : s.issue core o run = run s c w := by
  unfold State.issue
  have hslot := h.slot
  have hown := h.owner
  subst hown
  have hf : s.fetch core sl.ctx = (s, .inr w) := by
    unfold State.fetch
    have := h.inside
    simp only [this, Bool.not_true, Bool.false_eq_true, if_false, h.clean, h.word]
  have hfits := h.fits
  have hg := h.guard
  have hr := h.ready
  simp only [h.runs, hslot, hf, h.names, ne_eq, not_true_eq_false, if_false, hg, Bool.not_true, Bool.false_eq_true]
  rw [if_neg (by omega)]
  unfold State.stall
  rw [if_pos hr]

/-- An instruction that only changes its context, within its slot. -/
theorem spend_eq {s : State} {core c : Nat} {o : Adt} {w : Word} {sl : Slot} (h : s.Issues core c o w sl)
    {f : State → State} {x : Ctx} (hf : f s = s.setCtx core c x) (hx : x.bpws = (s.ctx core c).bpws) :
    s.spend core o.cost f = (s.setCtx core c x).setCore core { s.core core with cyc := (s.core core).cyc + o.cost } := by
  unfold State.spend
  have hslot := h.slot
  have hfits := h.fits
  have : ¬ s.slotEnd core < (s.core core).cyc + o.cost := by
    unfold State.slotEnd; rw [hslot]; simp; omega
  simp only [this, if_false, hf]
  rw [runTo_quiet]
  · rfl
  · rw [dueList_congr (s := s)]
    · exact h.quiet
    · rfl
    · rfl
    · intro d
      rw [State.ctx_setCtx]
      split
      · rename_i he; have : d = c := by omega
        subst this; exact hx
      · rfl
    · rfl

/-- A context and its core's cycles changed. -/
theorem ran_of {s : State} {core c n : Nat} {x : Ctx} :
    Ran s ((s.setCtx core c x).setCore core { s.core core with cyc := (s.core core).cyc + n }) core c n where
  rest := by
    have : Keeps (fun p => decide (p ∈ [Piece.cores, .ctxs])) s ((s.setCtx core c x).setCore core { s.core core with cyc := (s.core core).cyc + n }) :=
      (State.setCtx_keeps (by decide) s core c x).trans (State.setCore_keeps (by decide) _ _ _)
    exact this.sameBut
  cycles := by simp
  cores := by
    intro k hk
    rw [State.core_setCore, if_neg hk]; rfl
  ctxs := by
    intro k d hd
    show (s.setCtx core c x).ctx k d = _
    rw [State.ctx_setCtx, if_neg hd]

/-- An instruction of the common shape whose check passes. -/
theorem onCtx_eq {s : State} {core c : Nat} {o : Adt} {w : Word} {sl : Slot} (h : s.Issues core c o w sl) (hc : 0 < o.cost)
    {check : Ctx → Word → Option FaultOf} {f : Ctx → Word → Ctx} (hk : check (s.ctx core c) w = none)
    (hb : (f (s.ctx core c) w).next.bpws = (s.ctx core c).bpws) :
    s.onCtx core o check f = (s.setCtx core c (f (s.ctx core c) w).next).setCore core { s.core core with cyc := (s.core core).cyc + o.cost } := by
  unfold State.onCtx
  rw [issue_eq h hc]
  dsimp only
  rw [hk]
  exact spend_eq h rfl hb

/-- Going on changes the PC and the loops. -/
theorem next_fields (x : Ctx) : x.next = { x with pc := x.next.pc, loops := x.next.loops } := rfl
/-- Where a context goes on depends on its PC, its loops and its calls. -/
theorem next_congr {x y : Ctx} (h1 : y.pc = x.pc) (h2 : y.loops = x.loops) (h3 : y.calls = x.calls) : y.next.pc = x.next.pc ∧ y.next.loops = x.next.loops := by
  unfold Ctx.next Ctx.goTo
  simp only [h1, h2, h3, and_self]

/-- A word with one bit set. -/
theorem bitOf {n k j : Nat} (hj : j < n) : (BitVec.ofNat n (2 ^ k)).getLsbD j = decide (j = k) := by
  simp only [BitVec.getLsbD_ofNat, Nat.testBit_two_pow]
  simp [hj, eq_comm]

/-- One bit of a word written. -/
theorem writeBit {n k j : Nat} (hj : j < n) (p : BitVec n) (b : Bool) :
    (if b then p ||| BitVec.ofNat n (2 ^ k) else p &&& ~~~(BitVec.ofNat n (2 ^ k))).getLsbD j
      = if j = k then b else p.getLsbD j := by
  cases b
  · simp only [Bool.false_eq_true, if_false, BitVec.getLsbD_and, BitVec.getLsbD_not, bitOf hj, hj, decide_true, Bool.true_and]
    by_cases h : j = k <;> simp [h]
  · simp only [if_true, BitVec.getLsbD_or, bitOf hj]
    by_cases h : j = k <;> simp [h]

/-- The poison bits after a write of a general register. -/
theorem wr_bad {x : Ctx} {k j : Nat} (hj : j < 32) (v : Word) (p : Bool) :
    (x.wr k v p).gPoisoned j = if j = k then (k != 0 && p) else x.gPoisoned j := by
  unfold Ctx.wr Ctx.gPoisoned
  by_cases h0 : k = 0
  · subst h0
    by_cases hj0 : j = 0 <;> simp [hj0]
  · simp only [h0, if_false, w32]
    rw [writeBit hj x.gpois p]
    by_cases h : j = k
    · subst h; simp
    · simp [h]

/-- A general register written. -/
theorem wroteG {x y : Ctx} {k : Nat} (hk : k < 32) {v : Word} {p : Bool} {st : Word} (h : y = (x.sticky st).wr k v p) :
    WroteG x y.next k v p st := by
  subst h
  constructor
  · show ((x.sticky st).wr k v p).rd k = _
    unfold Ctx.wr Ctx.rd
    split <;> simp
  · show ((x.sticky st).wr k v p).gPoisoned k = _
    rw [wr_bad hk, if_pos rfl]
  · intro j hj hj2
    refine ⟨?_, ?_⟩
    · show ((x.sticky st).wr k v p).rd j = _
      unfold Ctx.wr Ctx.rd
      split
      · rfl
      · split
        · rfl
        · exact sget_sset_other _ _ _ _ hj
    · show ((x.sticky st).wr k v p).gPoisoned j = _
      rw [wr_bad hj2, if_neg hj]; rfl
  · unfold Ctx.wr Ctx.sticky
    split <;> rfl

/-- No bit of STAT set. -/
theorem sticky_zero (x : Ctx) : x.sticky 0 = x := by
  unfold Ctx.sticky
  simp

/-- A predicate written. -/
theorem wroteP {x y : Ctx} {k : Nat} (hk : k < 4) {b : Bool} (h : y = x.pwr k b) : WroteP x y.next k b := by
  subst h
  constructor
  · show (x.pwr k b).pred k = b
    exact (writeBit hk x.p b).trans (if_pos rfl)
  · intro j hj hj4
    exact (writeBit hj4 x.p b).trans (if_neg hj)
  · unfold Ctx.pwr
    rfl

/-- The lanes of a vector made of lanes. -/
theorem vlane_vmake (f : Nat → BitVec 16) {i : Nat} (hi : i < 4) : vlane (vmake f) i = f i := by
  apply BitVec.eq_of_getLsbD_eq
  intro j hj
  have h4 : i = 0 ∨ i = 1 ∨ i = 2 ∨ i = 3 := by omega
  simp only [vlane, vmake, vjoin, BitVec.truncate_eq_setWidth, BitVec.getLsbD_setWidth, BitVec.getLsbD_ushiftRight, BitVec.getLsbD_or, BitVec.getLsbD_shiftLeft, hj, decide_true, Bool.true_and]
  rcases h4 with h | h | h | h <;> subst h
  · have a1 : j < 64 := by omega
    have a3 : j < 32 := by omega
    have a4 : j < 48 := by omega
    simp [a1, hj, a3, a4]
  · have b1 : (f 0).getLsbD (16 * 1 + j) = false := BitVec.getLsbD_of_ge _ _ (by omega)
    have a1 : 16 * 1 + j < 64 := by omega
    have a2 : ¬ 16 * 1 + j < 16 := by omega
    have a3 : 16 * 1 + j < 32 := by omega
    have a4 : 16 * 1 + j < 48 := by omega
    have a5 : 16 * 1 + j - 16 = j := by omega
    simp only [a1, a2, a3, a4, a5, b1]
    simp
    try omega
  · have b1 : (f 0).getLsbD (16 * 2 + j) = false := BitVec.getLsbD_of_ge _ _ (by omega)
    have b2 : (f 1).getLsbD (16 * 2 + j - 16) = false := BitVec.getLsbD_of_ge _ _ (by omega)
    have a1 : 16 * 2 + j < 64 := by omega
    have a2 : ¬ 16 * 2 + j < 16 := by omega
    have a3 : ¬ 16 * 2 + j < 32 := by omega
    have a4 : 16 * 2 + j < 48 := by omega
    have a5 : 16 * 2 + j - 32 = j := by omega
    simp only [a1, a2, a3, a4, a5, b1, b2]
    simp
    try omega
  · have b1 : (f 0).getLsbD (16 * 3 + j) = false := BitVec.getLsbD_of_ge _ _ (by omega)
    have b2 : (f 1).getLsbD (16 * 3 + j - 16) = false := BitVec.getLsbD_of_ge _ _ (by omega)
    have b3 : (f 2).getLsbD (16 * 3 + j - 32) = false := BitVec.getLsbD_of_ge _ _ (by omega)
    have a1 : 16 * 3 + j < 64 := by omega
    have a2 : ¬ 16 * 3 + j < 16 := by omega
    have a3 : ¬ 16 * 3 + j < 32 := by omega
    have a4 : ¬ 16 * 3 + j < 48 := by omega
    have a5 : 16 * 3 + j - 48 = j := by omega
    simp only [a1, a2, a3, a4, a5, b1, b2, b3]
    simp
    try omega

/-- A vector register written. -/
theorem wroteV {x y : Ctx} {k : Nat} (hk : k < 8) {f : Nat → BitVec 16} {p : Bool} {st : Word}
    (h : y = (x.sticky st).vwr k (vmake f) p) : WroteV x y.next k f p st := by
  subst h
  have bad : ∀ j, j < 8 → ((x.sticky st).vwr k (vmake f) p).vPoisoned j = if j = k then p else x.vPoisoned j := by
    intro j hj
    exact writeBit hj x.vpois p
  constructor
  · intro i hi
    show vlane (((x.sticky st).vwr k (vmake f) p).vrd k) i = f i
    unfold Ctx.vwr Ctx.vrd
    simp [vlane_vmake f hi]
  · show ((x.sticky st).vwr k (vmake f) p).vPoisoned k = p
    rw [bad k hk, if_pos rfl]
  · intro j hj hj8
    refine ⟨?_, ?_⟩
    · show ((x.sticky st).vwr k (vmake f) p).vrd j = _
      unfold Ctx.vwr Ctx.vrd
      exact sget_sset_other _ _ _ _ hj
    · show ((x.sticky st).vwr k (vmake f) p).vPoisoned j = _
      rw [bad j hj8, if_neg hj]
  · unfold Ctx.vwr Ctx.sticky
    rfl

/-- Register fields have five bits. -/
theorem fields_lt (w : Word) : rdField w < 32 ∧ raField w < 32 ∧ rbField w < 32 :=
  ⟨getBits_lt w 21 17, getBits_lt w 16 12, getBits_lt w 11 7⟩
/-- An instruction of the common shape that writes a general register answers with exactly that. -/
theorem onCtx_wroteG {s : State} {core c : Nat} {o : Adt} {w : Word} {sl : Slot} (h : s.Issues core c o w sl)
    (hc : 0 < o.cost) {check : Ctx → Word → Option FaultOf} {f : Ctx → Word → Ctx} (hk : check (s.ctx core c) w = none)
    {v : Word} {p : Bool} {st : Word} (hf : f (s.ctx core c) w = ((s.ctx core c).sticky st).wr (rdField w) v p) :
    ∃ t, Host.Outcome.next (s.onCtx core o check f) = (.next t : Host.Outcome State Fault Refusal) ∧ Ran s t core c o.cost ∧
      WroteG (s.ctx core c) (t.ctx core c) (rdField w) v p st := by
  refine ⟨_, rfl, ?_⟩
  rw [onCtx_eq h hc hk]
  · refine ⟨ran_of, ?_⟩
    show WroteG _ ((s.setCtx core c _).ctx core c) _ _ _ _
    rw [State.ctx_setCtx_same]
    exact wroteG (fields_lt w).1 hf
  · rw [hf]
    unfold Ctx.wr
    split <;> rfl

/-- The same of a predicate. -/
theorem onCtx_wroteP {s : State} {core c : Nat} {o : Adt} {w : Word} {sl : Slot} (h : s.Issues core c o w sl)
    (hc : 0 < o.cost) {check : Ctx → Word → Option FaultOf} {f : Ctx → Word → Ctx} (hk : check (s.ctx core c) w = none)
    (hd : rdField w < 4) {b : Bool} (hf : f (s.ctx core c) w = (s.ctx core c).pwr (rdField w) b) :
    ∃ t, Host.Outcome.next (s.onCtx core o check f) = (.next t : Host.Outcome State Fault Refusal) ∧ Ran s t core c o.cost ∧
      WroteP (s.ctx core c) (t.ctx core c) (rdField w) b := by
  refine ⟨_, rfl, ?_⟩
  rw [onCtx_eq h hc hk]
  · refine ⟨ran_of, ?_⟩
    show WroteP _ ((s.setCtx core c _).ctx core c) _ _
    rw [State.ctx_setCtx_same]
    exact wroteP hd hf
  · rw [hf]
    rfl

/-- The same of a vector register. -/
theorem onCtx_wroteV {s : State} {core c : Nat} {o : Adt} {w : Word} {sl : Slot} (h : s.Issues core c o w sl)
    (hc : 0 < o.cost) {check : Ctx → Word → Option FaultOf} {f : Ctx → Word → Ctx} (hk : check (s.ctx core c) w = none)
    (hd : rdField w < 8) {l : Nat → BitVec 16} {p : Bool} {st : Word}
    (hf : f (s.ctx core c) w = ((s.ctx core c).sticky st).vwr (rdField w) (vmake l) p) :
    ∃ t, Host.Outcome.next (s.onCtx core o check f) = (.next t : Host.Outcome State Fault Refusal) ∧ Ran s t core c o.cost ∧
      WroteV (s.ctx core c) (t.ctx core c) (rdField w) l p st := by
  refine ⟨_, rfl, ?_⟩
  rw [onCtx_eq h hc hk]
  · refine ⟨ran_of, ?_⟩
    show WroteV _ ((s.setCtx core c _).ctx core c) _ _ _ _
    rw [State.ctx_setCtx_same]
    exact wroteV hd hf
  · rw [hf]
    rfl

/-- A field from bit 0 up. -/
theorem getBits_toNat (w : Word) (n : Nat) : getBits w n 0 = w.toNat % 2 ^ (n + 1) := by
  apply Nat.eq_of_testBit_eq
  intro i
  rw [getBits_testBit, Nat.testBit_mod_two_pow]
  simp [BitVec.getLsbD]

/-- What an effect leaves to complete: the same outstanding operations. -/
structure SameDue (s s1 : State) (core : Nat) : Prop where
  /-- LDS. -/
  lds : (s1.core core).lds = (s.core core).lds
  /-- STS. -/
  sts : (s1.core core).sts = (s.core core).sts
  /-- BPWs. -/
  bpws : ∀ c, (s1.ctx core c).bpws = (s.ctx core c).bpws
  /-- Queue instructions. -/
  qops : (s1.core core).qops = (s.core core).qops

/-- An instruction that leaves what is outstanding, within its slot. -/
theorem spend_gen {s : State} {core n : Nat} {sl : Slot} (hs : s.runningSlot core = some sl) (hfit : (s.core core).cyc + n ≤ sl.stop)
    (hq : ∀ e ∈ s.dueList core, (((s.core core).cyc + n : Nat) : Int) < e.1)
    {f : State → State} (hd : SameDue s (f s) core) :
    s.spend core n f = (f s).setCore core { (f s).core core with cyc := (s.core core).cyc + n } := by
  unfold State.spend
  have : ¬ s.slotEnd core < (s.core core).cyc + n := by
    unfold State.slotEnd; rw [hs]; simp; omega
  simp only [this, if_false]
  rw [runTo_quiet]
  rw [dueList_congr hd.sts hd.lds hd.bpws hd.qops]
  exact hq

/-- A correction in local memory changes no context. -/
theorem correctDword_ctx (s : State) (core a k c : Nat) : (s.correctDword core a).ctx k c = s.ctx k c := by
  unfold State.correctDword
  dsimp only
  split <;> rfl

/-- It changes local memory alone. -/
theorem correctDword_core (s : State) (core a : Nat) : (s.correctDword core a).core core =
   { s.core core with dmem := ((s.correctDword core a).core core).dmem } := by
  unfold State.correctDword State.setDword
  dsimp only
  split
  · simp
  · rfl

end Sys2Proof.Machine
end

