-- ==== Sys2Proof/WellFormed.lean ====
section
/-! DEFINITION. Which commands are well formed: each operand that names a unit, or an entry of a unit's table, names one that
the largest part of R1 and R3 has. Addresses, values, flits and measured quantities are free. -/

namespace Sys2Proof

/-- The context that makes an access is one of the 16 of one of the 40 cores (R3, R23). -/
def Source.wf : Source → Bool
  | .core k x => decide (k < 40) && decide (x < 16)
  | .host | .action | .device => true

/-- The aperture or the channel that a forwarded write names (R19, R20, R427). -/
def ForwardPlace.wf : ForwardPlace → Bool
  | .bar0 _ => true
  | .bar2 aper _ => decide (aper < 16)
  | .bar4 chan _ => decide (chan < 2)

/-- A command whose operands all lie in their ranges. -/
def Instr.wf : Instr → Bool
  | .absentUnitAccess src _ _ | .holeAccess src _ _ _ | .registerWrite src _ _ | .readClear src _ | .stchCountRead src
  | .stchPeriodWrite src _ | .stchHoldWrite src _ | .wdogEnable src _ | .treeSlotServiceWrite src _
  | .hideEnable src _ | .hideDisable src _ | .create src _ | .destroy src _ | .lampEnable src _ | .blockRestart src _
  | .calRun src _ | .geoCommit src _ | .burnRun src _ | .burnCancel src _ | .guardedRequest src _ _ | .keyLoad src _
  | .erase src _ | .reseal src _ _ | .revoke src _ | .minVer src _ | .hmac src _ | .debugUnlock src | .program src _
  | .imgCommit src _ | .pstoreWrite src _ | .harnEnable src _ | .resign src => src.wf
  | .stitchBoundary _ | .lateInput | .kick _ | .wdogWarn | .watchdogReset | .arm | .validate | .hold | .resume
  | .abort | .psetReload | .validationDone | .layerStart | .layerClosed | .layerAdvance | .planPassDone | .replan
  | .replanLate | .layerOver | .placementLogRecord | .hideFillDone | .sweepPassStart | .sweepPassEnd | .assimRecord
  | .archived | .skiverPhaseEnd | .skiverDone | .skvReady | .retry | .createDone | .queuePush _ _ _ _ _
  | .queuePop _ _ _ | .spillMove _ _ | .scrub _ _ | .pcieReset | .linkLost | .refWindow _ | .refLost | .timeSnap
  | .frameTick | .pwmPeriod | .lsyncEdge _ | .chainLatch | .lampSwap | .powerOn _ _ | .wake _ | .settleExpiry
  | .seqTimeout | .seqFault _ | .brownOutRetry | .stbyLoss | .vbatLoss | .resetN | .service | .ready | .run
  | .shutdown | .cancel | .softReset | .blockRestarted | .bootDone _ _ _ | .avsStep _ | .avsCheck _ _ | .marginCrit
  | .regAlert _ | .calInstanceStart | .calResultFound _ _ _ _ | .calDone | .sliceDone _ | .presenceQualified _
  | .presenceTimeout | .guardCancel | .sealOpened | .pstoreDone | .ilkMismatch | .leadSearch | .join _ | .copyFlit _
  | .copyDone | .wheelReady | .leave | .resigned | .takeover | .pcieLinkUp _ _ | .gateTapTimeout | .imgCmdDone _
  | .debugInstruction _ => true
  | .holdExpired grp => decide (grp < 7)
  | .earlyInput lane | .fragmentFlit lane _ _ | .identFlit lane _ | .checkDone lane _ | .echoFlit lane _
  | .laneUp lane | .laneDown lane _ | .retrain lane | .test lane | .measure lane | .measureDone lane _ _
  | .inject lane | .exit lane | .samplesFlit lane _ _ | .statusFlit lane _ _ | .badFlit lane _ | .nak lane _ =>
    decide (lane < 40)
  | .add core | .sub core | .and core | .or core | .xor core | .shl core | .shr core | .sar core | .min core
  | .max core | .minu core | .maxu core | .adds core | .subs core | .abs core | .clz core | .mul core | .mulh core
  | .mulhu core | .mulq core | .pscl core | .div core | .divu core | .sel core | .addi core | .andi core | .ori core
  | .xori core | .shiShl core | .shiShr core | .shiSar core | .cmpeqi core | .cmplti core | .cmpltui core | .li core
  | .lhi core | .llo core | .ldl core | .ldlh core | .stl core | .stlh core | .ldv core | .stv core | .lds core
  | .ldsComplete core | .sts core | .stsComplete core | .bpr core | .bpw core | .bpf core | .qpsh core | .qend core
  | .qbad core | .qpop core | .qlen core | .qflush core | .b core | .call core | .ret core | .loop core
  | .waitstitch core | .mfsp core | .mtsp core | .trap core | .cmpeq core | .cmpne core | .cmplt core | .cmple core
  | .cmpltu core | .cmpleu core | .pand core | .por core | .pxor core | .pnot core | .pset core | .pclr core
  | .vadd core | .vsub core | .vadds core | .vsubs core | .vmulq core | .vmacq core | .vmin core | .vmax core
  | .vabs core | .vshr core | .vsplat core | .vget core | .vput core | .vsum core | .vmov core | .overrun core
  | .tableCommit core | .loadDone core => decide (core < 40)
  | .bpwComplete core ctx | .starved core ctx => decide (core < 40) && decide (ctx < 16)
  | .contextSlotStart core slot => decide (core < 40) && decide (slot < 16)
  | .load src core _ => src.wf && decide (core < 40)
  | .swap src core ctx _ | .restart src core ctx _ | .halt src core ctx _ =>
    src.wf && decide (core < 40) && decide (ctx < 16)
  | .unitStart slot | .strokePush slot | .unitComplete slot | .laserLost slot | .strokePop slot | .strokeEnd slot
  | .goto slot | .gotoDone slot | .awlStop slot | .awlClear slot | .awlFault slot _ | .awlRest slot | .corrChange slot
  | .trimLoad slot | .feedbackLost slot | .feedbackFrozen slot | .following slot | .ceilingCommit slot =>
    decide (slot < 32)
  | .powerCeiling src slot _ => src.wf && decide (slot < 32)
  | .traceArm src slot unit _ | .traceStop src slot unit _ | .force src slot unit _ =>
    src.wf && decide (slot < 32) && decide (unit < 4)
  | .traceDone slot unit => decide (slot < 32) && decide (unit < 4)
  | .imgSlotEnable src pipe _ | .bedPipeCommit src pipe | .capture src pipe _ => src.wf && decide (pipe < 8)
  | .camCommit pipe slot => decide (pipe < 8) && decide (slot < 4)
  | .pipeCommit src pipe slot => src.wf && decide (pipe < 8) && decide (slot < 4)
  | .bedCamCommit pipe | .memoryFrameStart pipe | .bedDone pipe => decide (pipe < 8)
  | .statsPacket pipe slot => decide (pipe < 8) && decide (slot < 5)
  | .move axis | .velPos axis | .velNeg axis | .axisStop axis | .estop axis | .home axis | .axisClear axis
  | .setPos axis | .bankSwitch axis | .moveDone axis | .softLimit axis | .stall axis | .lostStep axis
  | .homeEdge axis _ _ | .chatter axis | .homeDone axis | .axisRest axis | .indexPulse axis _ => decide (axis < 16)
  | .axisEnableWrite src axis _ | .waveLoad src axis _ => src.wf && decide (axis < 16)
  | .limitHit axis input => decide (axis < 16) && decide (input < 3)
  | .aperBind src aper _ => src.wf && decide (aper < 16)
  | .aperPush aper _ | .aperEnd aper _ | .aperBad aper _ | .aperPop aper | .aperDepth aper
  | .aperBufferAccess aper _ _ => decide (aper < 16)
  | .dramEnable src chan _ => src.wf && decide (chan < 2)
  | .trainingDone chan _ | .dramRead chan _ _ _ _ | .commandParityAlert chan _ | .refresh chan _
  | .selfRefreshEntry chan | .patrol chan _ | .rhWindowEnd chan | .mr4Poll chan _ => decide (chan < 2)
  | .dramWrite chan _ _ data _ _ => decide (chan < 2) && decide (data.length ≤ 16)
  | .isoLate chan fetch => decide (chan < 2) && decide (fetch < 8)
  | .fetcherEnable src chan fetch _ => src.wf && decide (chan < 2) && decide (fetch < 8)
  | .laneEnable src lane _ => src.wf && decide (lane < 40)
  | .msixUnmask vec => decide (vec < 256)
  | .ethRxFrame port _ _ | .ethTxPacket port | .ethLinkChange port _ _ => decide (port < 2)
  | .domainMeasurement src dom _ => src.wf && decide (dom < 2)
  | .domUnlock dom => decide (dom < 2)
  | .actArm src entry _ | .actCancel src entry _ => src.wf && decide (entry < 1024)
  | .actionWrite entry | .actionPush entry | .actionPin entry => decide (entry < 1024)
  | .segmentEnable src seg _ => src.wf && decide (seg < 2)
  | .nodeEnable src seg node _ => src.wf && decide (seg < 2) && decide (node < 32)
  | .cinchStart seg | .inFrame seg _ | .strangerFrame seg _ | .transmitOpportunity seg => decide (seg < 2)
  | .noise seg _ node => decide (seg < 2) && decide (node ≤ 32)
  | .lampMeasurement chan row _ _ => decide (chan < 48) && decide (row < 16)
  | .diagStarved chan => decide (chan < 48)
  | .lampClear src chan _ => src.wf && decide (chan < 48)
  | .pgRise rise => decide (rise.grp < 3)
  | .brownOut low _ => decide (2 ≤ low.rail ∧ low.rail ≤ 9)
  | .sensorSample sensor _ _ => decide (sensor < 28)
  | .bandChanged grp => decide (grp < 5)
  | .stepOn step | .stepOff step => decide (step < 8)
  | .ilkActive input => decide (input.what < 2)
  | .forwardFlit place _ => place.wf
  | .digestSend copy | .digestFlit copy _ | .digestDue copy _ => decide (copy < 4)
  | .ilkReleased input => decide (input < 2)
  | .groupAbsent grp => decide (grp < 3)
  | .repeatEntryExpiry entry => decide (entry < 64)

/-- Who issues the command, where the command carries it. -/
def Instr.source : Instr → Option Source
  | .absentUnitAccess src _ _ | .holeAccess src _ _ _ | .registerWrite src _ _ | .readClear src _ | .stchCountRead src
  | .stchPeriodWrite src _ | .stchHoldWrite src _ | .load src _ _ | .swap src _ _ _ | .restart src _ _ _
  | .halt src _ _ _ | .wdogEnable src _ | .treeSlotServiceWrite src _ | .hideEnable src _ | .hideDisable src _
  | .powerCeiling src _ _ | .traceArm src _ _ _ | .traceStop src _ _ _ | .force src _ _ _ | .imgSlotEnable src _ _
  | .pipeCommit src _ _ | .bedPipeCommit src _ | .capture src _ _ | .axisEnableWrite src _ _ | .waveLoad src _ _
  | .create src _ | .destroy src _ | .aperBind src _ _ | .dramEnable src _ _ | .fetcherEnable src _ _ _
  | .laneEnable src _ _ | .domainMeasurement src _ _ | .actArm src _ _ | .actCancel src _ _ | .segmentEnable src _ _
  | .nodeEnable src _ _ _ | .lampEnable src _ | .lampClear src _ _ | .blockRestart src _ | .calRun src _
  | .geoCommit src _ | .burnRun src _ | .burnCancel src _ | .guardedRequest src _ _ | .keyLoad src _ | .erase src _
  | .reseal src _ _ | .revoke src _ | .minVer src _ | .hmac src _ | .debugUnlock src | .program src _
  | .imgCommit src _ | .pstoreWrite src _ | .harnEnable src _ | .resign src => some src
  | .stitchBoundary _ | .holdExpired _ | .lateInput | .earlyInput _ | .add _ | .sub _ | .and _ | .or _ | .xor _
  | .shl _ | .shr _ | .sar _ | .min _ | .max _ | .minu _ | .maxu _ | .adds _ | .subs _ | .abs _ | .clz _ | .mul _
  | .mulh _ | .mulhu _ | .mulq _ | .pscl _ | .div _ | .divu _ | .sel _ | .addi _ | .andi _ | .ori _ | .xori _
  | .shiShl _ | .shiShr _ | .shiSar _ | .cmpeqi _ | .cmplti _ | .cmpltui _ | .li _ | .lhi _ | .llo _ | .ldl _
  | .ldlh _ | .stl _ | .stlh _ | .ldv _ | .stv _ | .lds _ | .ldsComplete _ | .sts _ | .stsComplete _ | .bpr _ | .bpw _
  | .bpwComplete _ _ | .bpf _ | .qpsh _ | .qend _ | .qbad _ | .qpop _ | .qlen _ | .qflush _ | .b _ | .call _ | .ret _
  | .loop _ | .waitstitch _ | .mfsp _ | .mtsp _ | .trap _ | .cmpeq _ | .cmpne _ | .cmplt _ | .cmple _ | .cmpltu _
  | .cmpleu _ | .pand _ | .por _ | .pxor _ | .pnot _ | .pset _ | .pclr _ | .vadd _ | .vsub _ | .vadds _ | .vsubs _
  | .vmulq _ | .vmacq _ | .vmin _ | .vmax _ | .vabs _ | .vshr _ | .vsplat _ | .vget _ | .vput _ | .vsum _ | .vmov _
  | .contextSlotStart _ _ | .overrun _ | .tableCommit _ | .loadDone _ | .starved _ _ | .kick _ | .wdogWarn
  | .watchdogReset | .arm | .validate | .hold | .resume | .abort | .psetReload | .validationDone | .layerStart
  | .layerClosed | .layerAdvance | .planPassDone | .replan | .replanLate | .unitStart _ | .strokePush _
  | .unitComplete _ | .laserLost _ | .layerOver | .placementLogRecord | .hideFillDone | .sweepPassStart
  | .sweepPassEnd | .assimRecord | .archived | .strokePop _ | .strokeEnd _ | .goto _ | .gotoDone _ | .awlStop _
  | .awlClear _ | .awlFault _ _ | .awlRest _ | .corrChange _ | .trimLoad _ | .feedbackLost _ | .feedbackFrozen _
  | .following _ | .ceilingCommit _ | .traceDone _ _ | .camCommit _ _ | .bedCamCommit _ | .fragmentFlit _ _ _
  | .memoryFrameStart _ | .statsPacket _ _ | .bedDone _ | .move _ | .velPos _ | .velNeg _ | .axisStop _ | .estop _
  | .home _ | .axisClear _ | .setPos _ | .bankSwitch _ | .moveDone _ | .softLimit _ | .stall _ | .lostStep _
  | .limitHit _ _ | .homeEdge _ _ _ | .chatter _ | .homeDone _ | .skiverPhaseEnd | .skiverDone | .skvReady | .retry
  | .createDone | .queuePush _ _ _ _ _ | .queuePop _ _ _ | .spillMove _ _ | .scrub _ _ | .aperPush _ _ | .aperEnd _ _
  | .aperBad _ _ | .aperPop _ | .aperDepth _ | .aperBufferAccess _ _ _ | .trainingDone _ _ | .dramRead _ _ _ _ _
  | .dramWrite _ _ _ _ _ _ | .commandParityAlert _ _ | .refresh _ _ | .isoLate _ _ | .selfRefreshEntry _ | .patrol _ _
  | .identFlit _ _ | .checkDone _ _ | .echoFlit _ _ | .laneUp _ | .laneDown _ _ | .retrain _ | .test _ | .measure _
  | .measureDone _ _ _ | .inject _ | .exit _ | .samplesFlit _ _ _ | .statusFlit _ _ _ | .badFlit _ _ | .nak _ _
  | .pcieReset | .linkLost | .msixUnmask _ | .ethRxFrame _ _ _ | .ethTxPacket _ | .refWindow _ | .refLost
  | .domUnlock _ | .timeSnap | .actionWrite _ | .actionPush _ | .actionPin _ | .cinchStart _ | .inFrame _ _
  | .strangerFrame _ _ | .noise _ _ _ | .frameTick | .pwmPeriod | .lampMeasurement _ _ _ _ | .diagStarved _
  | .lsyncEdge _ | .chainLatch | .lampSwap | .powerOn _ _ | .wake _ | .pgRise _ | .settleExpiry | .seqTimeout
  | .seqFault _ | .brownOut _ _ | .brownOutRetry | .stbyLoss | .vbatLoss | .resetN | .service | .ready | .run
  | .shutdown | .cancel | .softReset | .blockRestarted | .bootDone _ _ _ | .avsStep _ | .avsCheck _ _ | .marginCrit
  | .regAlert _ | .sensorSample _ _ _ | .bandChanged _ | .stepOn _ | .stepOff _ | .calInstanceStart
  | .calResultFound _ _ _ _ | .calDone | .sliceDone _ | .presenceQualified _ | .presenceTimeout | .guardCancel
  | .sealOpened | .pstoreDone | .ilkActive _ | .ilkMismatch | .leadSearch | .join _ | .copyFlit _ | .copyDone
  | .wheelReady | .leave | .resigned | .forwardFlit _ _ | .digestSend _ | .digestFlit _ _ | .digestDue _ _ | .takeover
  | .axisRest _ | .indexPulse _ _ | .ilkReleased _ | .pcieLinkUp _ _ | .ethLinkChange _ _ _ | .groupAbsent _
  | .rhWindowEnd _ | .repeatEntryExpiry _ | .mr4Poll _ _ | .gateTapTimeout | .imgCmdDone _ | .transmitOpportunity _
  | .debugInstruction _ => none

/-- The Tack core that the command acts on, where it acts on one. -/
def Instr.coreNo : Instr → Option Nat
  | .add core | .sub core | .and core | .or core | .xor core | .shl core | .shr core | .sar core | .min core
  | .max core | .minu core | .maxu core | .adds core | .subs core | .abs core | .clz core | .mul core | .mulh core
  | .mulhu core | .mulq core | .pscl core | .div core | .divu core | .sel core | .addi core | .andi core | .ori core
  | .xori core | .shiShl core | .shiShr core | .shiSar core | .cmpeqi core | .cmplti core | .cmpltui core | .li core
  | .lhi core | .llo core | .ldl core | .ldlh core | .stl core | .stlh core | .ldv core | .stv core | .lds core
  | .ldsComplete core | .sts core | .stsComplete core | .bpr core | .bpw core | .bpwComplete core _ | .bpf core
  | .qpsh core | .qend core | .qbad core | .qpop core | .qlen core | .qflush core | .b core | .call core | .ret core
  | .loop core | .waitstitch core | .mfsp core | .mtsp core | .trap core | .cmpeq core | .cmpne core | .cmplt core
  | .cmple core | .cmpltu core | .cmpleu core | .pand core | .por core | .pxor core | .pnot core | .pset core
  | .pclr core | .vadd core | .vsub core | .vadds core | .vsubs core | .vmulq core | .vmacq core | .vmin core
  | .vmax core | .vabs core | .vshr core | .vsplat core | .vget core | .vput core | .vsum core | .vmov core
  | .contextSlotStart core _ | .overrun core | .tableCommit core | .load _ core _ | .loadDone core | .swap _ core _ _
  | .restart _ core _ _ | .halt _ core _ _ | .starved core _ => some core
  | .absentUnitAccess _ _ _ | .holeAccess _ _ _ _ | .registerWrite _ _ _ | .readClear _ _ | .stchCountRead _
  | .stitchBoundary _ | .stchPeriodWrite _ _ | .stchHoldWrite _ _ | .holdExpired _ | .lateInput | .earlyInput _
  | .wdogEnable _ _ | .kick _ | .wdogWarn | .watchdogReset | .arm | .validate | .hold | .resume | .abort | .psetReload
  | .validationDone | .layerStart | .layerClosed | .layerAdvance | .planPassDone | .replan | .replanLate
  | .unitStart _ | .strokePush _ | .unitComplete _ | .laserLost _ | .layerOver | .placementLogRecord
  | .treeSlotServiceWrite _ _ | .hideEnable _ _ | .hideFillDone | .hideDisable _ _ | .sweepPassStart | .sweepPassEnd
  | .assimRecord | .archived | .strokePop _ | .strokeEnd _ | .goto _ | .gotoDone _ | .awlStop _ | .awlClear _
  | .awlFault _ _ | .awlRest _ | .corrChange _ | .trimLoad _ | .feedbackLost _ | .feedbackFrozen _ | .following _
  | .powerCeiling _ _ _ | .ceilingCommit _ | .traceArm _ _ _ _ | .traceStop _ _ _ _ | .force _ _ _ _ | .traceDone _ _
  | .imgSlotEnable _ _ _ | .camCommit _ _ | .pipeCommit _ _ _ | .bedCamCommit _ | .bedPipeCommit _ _
  | .fragmentFlit _ _ _ | .memoryFrameStart _ | .statsPacket _ _ | .capture _ _ _ | .bedDone _ | .move _ | .velPos _
  | .velNeg _ | .axisStop _ | .estop _ | .home _ | .axisClear _ | .setPos _ | .axisEnableWrite _ _ _ | .waveLoad _ _ _
  | .bankSwitch _ | .moveDone _ | .softLimit _ | .stall _ | .lostStep _ | .limitHit _ _ | .homeEdge _ _ _ | .chatter _
  | .homeDone _ | .skiverPhaseEnd | .skiverDone | .skvReady | .retry | .create _ _ | .createDone | .destroy _ _
  | .queuePush _ _ _ _ _ | .queuePop _ _ _ | .spillMove _ _ | .scrub _ _ | .aperBind _ _ _ | .aperPush _ _
  | .aperEnd _ _ | .aperBad _ _ | .aperPop _ | .aperDepth _ | .aperBufferAccess _ _ _ | .dramEnable _ _ _
  | .trainingDone _ _ | .dramRead _ _ _ _ _ | .dramWrite _ _ _ _ _ _ | .commandParityAlert _ _ | .refresh _ _
  | .isoLate _ _ | .fetcherEnable _ _ _ _ | .selfRefreshEntry _ | .patrol _ _ | .laneEnable _ _ _ | .identFlit _ _
  | .checkDone _ _ | .echoFlit _ _ | .laneUp _ | .laneDown _ _ | .retrain _ | .test _ | .measure _
  | .measureDone _ _ _ | .inject _ | .exit _ | .samplesFlit _ _ _ | .statusFlit _ _ _ | .badFlit _ _ | .nak _ _
  | .pcieReset | .linkLost | .msixUnmask _ | .ethRxFrame _ _ _ | .ethTxPacket _ | .refWindow _ | .refLost
  | .domainMeasurement _ _ _ | .domUnlock _ | .timeSnap | .actArm _ _ _ | .actCancel _ _ _ | .actionWrite _
  | .actionPush _ | .actionPin _ | .segmentEnable _ _ _ | .nodeEnable _ _ _ _ | .cinchStart _ | .inFrame _ _
  | .strangerFrame _ _ | .noise _ _ _ | .lampEnable _ _ | .frameTick | .pwmPeriod | .lampMeasurement _ _ _ _
  | .diagStarved _ | .lsyncEdge _ | .chainLatch | .lampSwap | .lampClear _ _ _ | .powerOn _ _ | .wake _ | .pgRise _
  | .settleExpiry | .seqTimeout | .seqFault _ | .brownOut _ _ | .brownOutRetry | .stbyLoss | .vbatLoss | .resetN
  | .service | .ready | .run | .shutdown | .cancel | .softReset | .blockRestart _ _ | .blockRestarted
  | .bootDone _ _ _ | .avsStep _ | .avsCheck _ _ | .marginCrit | .regAlert _ | .sensorSample _ _ _ | .bandChanged _
  | .stepOn _ | .stepOff _ | .calRun _ _ | .geoCommit _ _ | .calInstanceStart | .calResultFound _ _ _ _ | .calDone
  | .burnRun _ _ | .burnCancel _ _ | .sliceDone _ | .guardedRequest _ _ _ | .presenceQualified _ | .presenceTimeout
  | .guardCancel | .keyLoad _ _ | .erase _ _ | .reseal _ _ _ | .revoke _ _ | .minVer _ _ | .hmac _ _ | .sealOpened
  | .debugUnlock _ | .program _ _ | .imgCommit _ _ | .pstoreWrite _ _ | .pstoreDone | .ilkActive _ | .ilkMismatch
  | .harnEnable _ _ | .leadSearch | .join _ | .copyFlit _ | .copyDone | .wheelReady | .leave | .resign _ | .resigned
  | .forwardFlit _ _ | .digestSend _ | .digestFlit _ _ | .digestDue _ _ | .takeover | .axisRest _ | .indexPulse _ _
  | .ilkReleased _ | .pcieLinkUp _ _ | .ethLinkChange _ _ _ | .groupAbsent _ | .rhWindowEnd _ | .repeatEntryExpiry _
  | .mr4Poll _ _ | .gateTapTimeout | .imgCmdDone _ | .transmitOpportunity _ | .debugInstruction _ => none

end Sys2Proof
end

