-- ==== Sys2Proof/Laws/PerInstr.lean ====
section
/-! SUPPORT. The statements made per command: a well-formed command is issued by the host, an action, the device or a context
that some part has, and acts on a core that some part has. -/

set_option Elab.async false

namespace Sys2Proof.Laws.OperandsInRange

/-- What well-formedness gives of one command: its source and its core are real (R3, R23). -/
def Statement (i : Instr) : Prop :=
  i.wf = true → (∀ s, i.source = some s → s.wf = true) ∧ ∀ k, i.coreNo = some k → k < 40

/-- A command with neither operand. -/
theorem of_none {i : Instr} (h : i.source = none) (k : i.coreNo = none) : Statement i :=
  fun _ => ⟨fun s e => by simp [h] at e, fun c e => by simp [k] at e⟩

/-- A command with a source and no core. -/
theorem of_source {i : Instr} {x : Source} (h : i.source = some x) (k : i.coreNo = none) (w : i.wf = true → x.wf = true) :
    Statement i :=
  fun e => ⟨fun s q => by rw [h] at q; cases q; exact w e, fun c q => by simp [k] at q⟩

/-- A command with a core and no source. -/
theorem of_core {i : Instr} {c : Nat} (h : i.source = none) (k : i.coreNo = some c) (w : i.wf = true → c < 40) :
    Statement i :=
  fun e => ⟨fun s q => by simp [h] at q, fun d q => by rw [k] at q; cases q; exact w e⟩

/-- A command with both. -/
theorem of_both {i : Instr} {x : Source} {c : Nat} (h : i.source = some x) (k : i.coreNo = some c)
    (w : i.wf = true → x.wf = true ∧ c < 40) : Statement i :=
  fun e => ⟨fun s q => by rw [h] at q; cases q; exact (w e).1, fun d q => by rw [k] at q; cases q; exact (w e).2⟩

theorem absentUnitAccess (src : Source) (addr : BitVec 32) (wr : Option (BitVec 32)) :
    Statement (.absentUnitAccess src addr wr) := of_source rfl rfl fun h => by simp_all [Instr.wf]
theorem holeAccess (src : Source) (bar : Bar) (off : BitVec 64) (wr : Option (BitVec 32)) :
    Statement (.holeAccess src bar off wr) := of_source rfl rfl fun h => by simp_all [Instr.wf]
theorem registerWrite (src : Source) (addr : BitVec 32) (val : BitVec 32) :
    Statement (.registerWrite src addr val) := of_source rfl rfl fun h => by simp_all [Instr.wf]
theorem readClear (src : Source) (addr : BitVec 32) :
    Statement (.readClear src addr) := of_source rfl rfl fun h => by simp_all [Instr.wf]
theorem stchCountRead (src : Source) : Statement (.stchCountRead src) := of_source rfl rfl fun h => by simp_all [Instr.wf]
theorem stitchBoundary (inp : BoundaryIn) : Statement (.stitchBoundary inp) := of_none rfl rfl
theorem stchPeriodWrite (src : Source) (val : BitVec 32) :
    Statement (.stchPeriodWrite src val) := of_source rfl rfl fun h => by simp_all [Instr.wf]
theorem stchHoldWrite (src : Source) (val : BitVec 32) :
    Statement (.stchHoldWrite src val) := of_source rfl rfl fun h => by simp_all [Instr.wf]
theorem holdExpired (grp : Nat) : Statement (.holdExpired grp) := of_none rfl rfl
theorem lateInput : Statement .lateInput := of_none rfl rfl
theorem earlyInput (lane : Nat) : Statement (.earlyInput lane) := of_none rfl rfl
theorem add (core : Nat) : Statement (.add core) := of_core rfl rfl fun h => by simp [Instr.wf] at h; omega
theorem sub (core : Nat) : Statement (.sub core) := of_core rfl rfl fun h => by simp [Instr.wf] at h; omega
theorem and (core : Nat) : Statement (.and core) := of_core rfl rfl fun h => by simp [Instr.wf] at h; omega
theorem or (core : Nat) : Statement (.or core) := of_core rfl rfl fun h => by simp [Instr.wf] at h; omega
theorem xor (core : Nat) : Statement (.xor core) := of_core rfl rfl fun h => by simp [Instr.wf] at h; omega
theorem shl (core : Nat) : Statement (.shl core) := of_core rfl rfl fun h => by simp [Instr.wf] at h; omega
theorem shr (core : Nat) : Statement (.shr core) := of_core rfl rfl fun h => by simp [Instr.wf] at h; omega
theorem sar (core : Nat) : Statement (.sar core) := of_core rfl rfl fun h => by simp [Instr.wf] at h; omega
theorem min (core : Nat) : Statement (.min core) := of_core rfl rfl fun h => by simp [Instr.wf] at h; omega
theorem max (core : Nat) : Statement (.max core) := of_core rfl rfl fun h => by simp [Instr.wf] at h; omega
theorem minu (core : Nat) : Statement (.minu core) := of_core rfl rfl fun h => by simp [Instr.wf] at h; omega
theorem maxu (core : Nat) : Statement (.maxu core) := of_core rfl rfl fun h => by simp [Instr.wf] at h; omega
theorem adds (core : Nat) : Statement (.adds core) := of_core rfl rfl fun h => by simp [Instr.wf] at h; omega
theorem subs (core : Nat) : Statement (.subs core) := of_core rfl rfl fun h => by simp [Instr.wf] at h; omega
theorem abs (core : Nat) : Statement (.abs core) := of_core rfl rfl fun h => by simp [Instr.wf] at h; omega
theorem clz (core : Nat) : Statement (.clz core) := of_core rfl rfl fun h => by simp [Instr.wf] at h; omega
theorem mul (core : Nat) : Statement (.mul core) := of_core rfl rfl fun h => by simp [Instr.wf] at h; omega
theorem mulh (core : Nat) : Statement (.mulh core) := of_core rfl rfl fun h => by simp [Instr.wf] at h; omega
theorem mulhu (core : Nat) : Statement (.mulhu core) := of_core rfl rfl fun h => by simp [Instr.wf] at h; omega
theorem mulq (core : Nat) : Statement (.mulq core) := of_core rfl rfl fun h => by simp [Instr.wf] at h; omega
theorem pscl (core : Nat) : Statement (.pscl core) := of_core rfl rfl fun h => by simp [Instr.wf] at h; omega
theorem div (core : Nat) : Statement (.div core) := of_core rfl rfl fun h => by simp [Instr.wf] at h; omega
theorem divu (core : Nat) : Statement (.divu core) := of_core rfl rfl fun h => by simp [Instr.wf] at h; omega
theorem sel (core : Nat) : Statement (.sel core) := of_core rfl rfl fun h => by simp [Instr.wf] at h; omega
theorem addi (core : Nat) : Statement (.addi core) := of_core rfl rfl fun h => by simp [Instr.wf] at h; omega
theorem andi (core : Nat) : Statement (.andi core) := of_core rfl rfl fun h => by simp [Instr.wf] at h; omega
theorem ori (core : Nat) : Statement (.ori core) := of_core rfl rfl fun h => by simp [Instr.wf] at h; omega
theorem xori (core : Nat) : Statement (.xori core) := of_core rfl rfl fun h => by simp [Instr.wf] at h; omega
theorem shiShl (core : Nat) : Statement (.shiShl core) := of_core rfl rfl fun h => by simp [Instr.wf] at h; omega
theorem shiShr (core : Nat) : Statement (.shiShr core) := of_core rfl rfl fun h => by simp [Instr.wf] at h; omega
theorem shiSar (core : Nat) : Statement (.shiSar core) := of_core rfl rfl fun h => by simp [Instr.wf] at h; omega
theorem cmpeqi (core : Nat) : Statement (.cmpeqi core) := of_core rfl rfl fun h => by simp [Instr.wf] at h; omega
theorem cmplti (core : Nat) : Statement (.cmplti core) := of_core rfl rfl fun h => by simp [Instr.wf] at h; omega
theorem cmpltui (core : Nat) : Statement (.cmpltui core) := of_core rfl rfl fun h => by simp [Instr.wf] at h; omega
theorem li (core : Nat) : Statement (.li core) := of_core rfl rfl fun h => by simp [Instr.wf] at h; omega
theorem lhi (core : Nat) : Statement (.lhi core) := of_core rfl rfl fun h => by simp [Instr.wf] at h; omega
theorem llo (core : Nat) : Statement (.llo core) := of_core rfl rfl fun h => by simp [Instr.wf] at h; omega
theorem ldl (core : Nat) : Statement (.ldl core) := of_core rfl rfl fun h => by simp [Instr.wf] at h; omega
theorem ldlh (core : Nat) : Statement (.ldlh core) := of_core rfl rfl fun h => by simp [Instr.wf] at h; omega
theorem stl (core : Nat) : Statement (.stl core) := of_core rfl rfl fun h => by simp [Instr.wf] at h; omega
theorem stlh (core : Nat) : Statement (.stlh core) := of_core rfl rfl fun h => by simp [Instr.wf] at h; omega
theorem ldv (core : Nat) : Statement (.ldv core) := of_core rfl rfl fun h => by simp [Instr.wf] at h; omega
theorem stv (core : Nat) : Statement (.stv core) := of_core rfl rfl fun h => by simp [Instr.wf] at h; omega
theorem lds (core : Nat) : Statement (.lds core) := of_core rfl rfl fun h => by simp [Instr.wf] at h; omega
theorem ldsComplete (core : Nat) : Statement (.ldsComplete core) := of_core rfl rfl fun h => by simp [Instr.wf] at h; omega
theorem sts (core : Nat) : Statement (.sts core) := of_core rfl rfl fun h => by simp [Instr.wf] at h; omega
theorem stsComplete (core : Nat) : Statement (.stsComplete core) := of_core rfl rfl fun h => by simp [Instr.wf] at h; omega
theorem bpr (core : Nat) : Statement (.bpr core) := of_core rfl rfl fun h => by simp [Instr.wf] at h; omega
theorem bpw (core : Nat) : Statement (.bpw core) := of_core rfl rfl fun h => by simp [Instr.wf] at h; omega
theorem bpwComplete (core : Nat) (ctx : Nat) :
    Statement (.bpwComplete core ctx) := of_core rfl rfl fun h => by simp [Instr.wf] at h; omega
theorem bpf (core : Nat) : Statement (.bpf core) := of_core rfl rfl fun h => by simp [Instr.wf] at h; omega
theorem qpsh (core : Nat) : Statement (.qpsh core) := of_core rfl rfl fun h => by simp [Instr.wf] at h; omega
theorem qend (core : Nat) : Statement (.qend core) := of_core rfl rfl fun h => by simp [Instr.wf] at h; omega
theorem qbad (core : Nat) : Statement (.qbad core) := of_core rfl rfl fun h => by simp [Instr.wf] at h; omega
theorem qpop (core : Nat) : Statement (.qpop core) := of_core rfl rfl fun h => by simp [Instr.wf] at h; omega
theorem qlen (core : Nat) : Statement (.qlen core) := of_core rfl rfl fun h => by simp [Instr.wf] at h; omega
theorem qflush (core : Nat) : Statement (.qflush core) := of_core rfl rfl fun h => by simp [Instr.wf] at h; omega
theorem b (core : Nat) : Statement (.b core) := of_core rfl rfl fun h => by simp [Instr.wf] at h; omega
theorem call (core : Nat) : Statement (.call core) := of_core rfl rfl fun h => by simp [Instr.wf] at h; omega
theorem ret (core : Nat) : Statement (.ret core) := of_core rfl rfl fun h => by simp [Instr.wf] at h; omega
theorem loop (core : Nat) : Statement (.loop core) := of_core rfl rfl fun h => by simp [Instr.wf] at h; omega
theorem waitstitch (core : Nat) : Statement (.waitstitch core) := of_core rfl rfl fun h => by simp [Instr.wf] at h; omega
theorem mfsp (core : Nat) : Statement (.mfsp core) := of_core rfl rfl fun h => by simp [Instr.wf] at h; omega
theorem mtsp (core : Nat) : Statement (.mtsp core) := of_core rfl rfl fun h => by simp [Instr.wf] at h; omega
theorem trap (core : Nat) : Statement (.trap core) := of_core rfl rfl fun h => by simp [Instr.wf] at h; omega
theorem cmpeq (core : Nat) : Statement (.cmpeq core) := of_core rfl rfl fun h => by simp [Instr.wf] at h; omega
theorem cmpne (core : Nat) : Statement (.cmpne core) := of_core rfl rfl fun h => by simp [Instr.wf] at h; omega
theorem cmplt (core : Nat) : Statement (.cmplt core) := of_core rfl rfl fun h => by simp [Instr.wf] at h; omega
theorem cmple (core : Nat) : Statement (.cmple core) := of_core rfl rfl fun h => by simp [Instr.wf] at h; omega
theorem cmpltu (core : Nat) : Statement (.cmpltu core) := of_core rfl rfl fun h => by simp [Instr.wf] at h; omega
theorem cmpleu (core : Nat) : Statement (.cmpleu core) := of_core rfl rfl fun h => by simp [Instr.wf] at h; omega
theorem pand (core : Nat) : Statement (.pand core) := of_core rfl rfl fun h => by simp [Instr.wf] at h; omega
theorem por (core : Nat) : Statement (.por core) := of_core rfl rfl fun h => by simp [Instr.wf] at h; omega
theorem pxor (core : Nat) : Statement (.pxor core) := of_core rfl rfl fun h => by simp [Instr.wf] at h; omega
theorem pnot (core : Nat) : Statement (.pnot core) := of_core rfl rfl fun h => by simp [Instr.wf] at h; omega
theorem pset (core : Nat) : Statement (.pset core) := of_core rfl rfl fun h => by simp [Instr.wf] at h; omega
theorem pclr (core : Nat) : Statement (.pclr core) := of_core rfl rfl fun h => by simp [Instr.wf] at h; omega
theorem vadd (core : Nat) : Statement (.vadd core) := of_core rfl rfl fun h => by simp [Instr.wf] at h; omega
theorem vsub (core : Nat) : Statement (.vsub core) := of_core rfl rfl fun h => by simp [Instr.wf] at h; omega
theorem vadds (core : Nat) : Statement (.vadds core) := of_core rfl rfl fun h => by simp [Instr.wf] at h; omega
theorem vsubs (core : Nat) : Statement (.vsubs core) := of_core rfl rfl fun h => by simp [Instr.wf] at h; omega
theorem vmulq (core : Nat) : Statement (.vmulq core) := of_core rfl rfl fun h => by simp [Instr.wf] at h; omega
theorem vmacq (core : Nat) : Statement (.vmacq core) := of_core rfl rfl fun h => by simp [Instr.wf] at h; omega
theorem vmin (core : Nat) : Statement (.vmin core) := of_core rfl rfl fun h => by simp [Instr.wf] at h; omega
theorem vmax (core : Nat) : Statement (.vmax core) := of_core rfl rfl fun h => by simp [Instr.wf] at h; omega
theorem vabs (core : Nat) : Statement (.vabs core) := of_core rfl rfl fun h => by simp [Instr.wf] at h; omega
theorem vshr (core : Nat) : Statement (.vshr core) := of_core rfl rfl fun h => by simp [Instr.wf] at h; omega
theorem vsplat (core : Nat) : Statement (.vsplat core) := of_core rfl rfl fun h => by simp [Instr.wf] at h; omega
theorem vget (core : Nat) : Statement (.vget core) := of_core rfl rfl fun h => by simp [Instr.wf] at h; omega
theorem vput (core : Nat) : Statement (.vput core) := of_core rfl rfl fun h => by simp [Instr.wf] at h; omega
theorem vsum (core : Nat) : Statement (.vsum core) := of_core rfl rfl fun h => by simp [Instr.wf] at h; omega
theorem vmov (core : Nat) : Statement (.vmov core) := of_core rfl rfl fun h => by simp [Instr.wf] at h; omega
theorem contextSlotStart (core : Nat) (slot : Nat) :
    Statement (.contextSlotStart core slot) := of_core rfl rfl fun h => by simp [Instr.wf] at h; omega
theorem overrun (core : Nat) : Statement (.overrun core) := of_core rfl rfl fun h => by simp [Instr.wf] at h; omega
theorem tableCommit (core : Nat) : Statement (.tableCommit core) := of_core rfl rfl fun h => by simp [Instr.wf] at h; omega
theorem load (src : Source) (core : Nat) (val : BitVec 32) :
    Statement (.load src core val) := of_both rfl rfl fun h => by simp [Instr.wf] at h; simp [h]
theorem loadDone (core : Nat) : Statement (.loadDone core) := of_core rfl rfl fun h => by simp [Instr.wf] at h; omega
theorem swap (src : Source) (core : Nat) (ctx : Nat) (val : BitVec 32) :
    Statement (.swap src core ctx val) := of_both rfl rfl fun h => by simp [Instr.wf] at h; simp [h]
theorem restart (src : Source) (core : Nat) (ctx : Nat) (val : BitVec 32) :
    Statement (.restart src core ctx val) := of_both rfl rfl fun h => by simp [Instr.wf] at h; simp [h]
theorem halt (src : Source) (core : Nat) (ctx : Nat) (val : BitVec 32) :
    Statement (.halt src core ctx val) := of_both rfl rfl fun h => by simp [Instr.wf] at h; simp [h]
theorem starved (core : Nat) (ctx : Nat) :
    Statement (.starved core ctx) := of_core rfl rfl fun h => by simp [Instr.wf] at h; omega
theorem wdogEnable (src : Source) (val : BitVec 32) :
    Statement (.wdogEnable src val) := of_source rfl rfl fun h => by simp_all [Instr.wf]
theorem kick (val : BitVec 32) : Statement (.kick val) := of_none rfl rfl
theorem wdogWarn : Statement .wdogWarn := of_none rfl rfl
theorem watchdogReset : Statement .watchdogReset := of_none rfl rfl
theorem arm : Statement .arm := of_none rfl rfl
theorem validate : Statement .validate := of_none rfl rfl
theorem hold : Statement .hold := of_none rfl rfl
theorem resume : Statement .resume := of_none rfl rfl
theorem abort : Statement .abort := of_none rfl rfl
theorem psetReload : Statement .psetReload := of_none rfl rfl
theorem validationDone : Statement .validationDone := of_none rfl rfl
theorem layerStart : Statement .layerStart := of_none rfl rfl
theorem layerClosed : Statement .layerClosed := of_none rfl rfl
theorem layerAdvance : Statement .layerAdvance := of_none rfl rfl
theorem planPassDone : Statement .planPassDone := of_none rfl rfl
theorem replan : Statement .replan := of_none rfl rfl
theorem replanLate : Statement .replanLate := of_none rfl rfl
theorem unitStart (slot : Nat) : Statement (.unitStart slot) := of_none rfl rfl
theorem strokePush (slot : Nat) : Statement (.strokePush slot) := of_none rfl rfl
theorem unitComplete (slot : Nat) : Statement (.unitComplete slot) := of_none rfl rfl
theorem laserLost (slot : Nat) : Statement (.laserLost slot) := of_none rfl rfl
theorem layerOver : Statement .layerOver := of_none rfl rfl
theorem placementLogRecord : Statement .placementLogRecord := of_none rfl rfl
theorem treeSlotServiceWrite (src : Source) (val : BitVec 32) :
    Statement (.treeSlotServiceWrite src val) := of_source rfl rfl fun h => by simp_all [Instr.wf]
theorem hideEnable (src : Source) (val : BitVec 32) :
    Statement (.hideEnable src val) := of_source rfl rfl fun h => by simp_all [Instr.wf]
theorem hideFillDone : Statement .hideFillDone := of_none rfl rfl
theorem hideDisable (src : Source) (val : BitVec 32) :
    Statement (.hideDisable src val) := of_source rfl rfl fun h => by simp_all [Instr.wf]
theorem sweepPassStart : Statement .sweepPassStart := of_none rfl rfl
theorem sweepPassEnd : Statement .sweepPassEnd := of_none rfl rfl
theorem assimRecord : Statement .assimRecord := of_none rfl rfl
theorem archived : Statement .archived := of_none rfl rfl
theorem strokePop (slot : Nat) : Statement (.strokePop slot) := of_none rfl rfl
theorem strokeEnd (slot : Nat) : Statement (.strokeEnd slot) := of_none rfl rfl
theorem goto (slot : Nat) : Statement (.goto slot) := of_none rfl rfl
theorem gotoDone (slot : Nat) : Statement (.gotoDone slot) := of_none rfl rfl
theorem awlStop (slot : Nat) : Statement (.awlStop slot) := of_none rfl rfl
theorem awlClear (slot : Nat) : Statement (.awlClear slot) := of_none rfl rfl
theorem awlFault (slot : Nat) (code : Nat) : Statement (.awlFault slot code) := of_none rfl rfl
theorem awlRest (slot : Nat) : Statement (.awlRest slot) := of_none rfl rfl
theorem corrChange (slot : Nat) : Statement (.corrChange slot) := of_none rfl rfl
theorem trimLoad (slot : Nat) : Statement (.trimLoad slot) := of_none rfl rfl
theorem feedbackLost (slot : Nat) : Statement (.feedbackLost slot) := of_none rfl rfl
theorem feedbackFrozen (slot : Nat) : Statement (.feedbackFrozen slot) := of_none rfl rfl
theorem following (slot : Nat) : Statement (.following slot) := of_none rfl rfl
theorem powerCeiling (src : Source) (slot : Nat) (val : BitVec 32) :
    Statement (.powerCeiling src slot val) := of_source rfl rfl fun h => by simp_all [Instr.wf]
theorem ceilingCommit (slot : Nat) : Statement (.ceilingCommit slot) := of_none rfl rfl
theorem traceArm (src : Source) (slot : Nat) (unit : Nat) (val : BitVec 32) :
    Statement (.traceArm src slot unit val) := of_source rfl rfl fun h => by simp_all [Instr.wf]
theorem traceStop (src : Source) (slot : Nat) (unit : Nat) (val : BitVec 32) :
    Statement (.traceStop src slot unit val) := of_source rfl rfl fun h => by simp_all [Instr.wf]
theorem force (src : Source) (slot : Nat) (unit : Nat) (val : BitVec 32) :
    Statement (.force src slot unit val) := of_source rfl rfl fun h => by simp_all [Instr.wf]
theorem traceDone (slot : Nat) (unit : Nat) : Statement (.traceDone slot unit) := of_none rfl rfl
theorem imgSlotEnable (src : Source) (pipe : Nat) (val : BitVec 32) :
    Statement (.imgSlotEnable src pipe val) := of_source rfl rfl fun h => by simp_all [Instr.wf]
theorem camCommit (pipe : Nat) (slot : Nat) : Statement (.camCommit pipe slot) := of_none rfl rfl
theorem pipeCommit (src : Source) (pipe : Nat) (slot : Nat) :
    Statement (.pipeCommit src pipe slot) := of_source rfl rfl fun h => by simp_all [Instr.wf]
theorem bedCamCommit (pipe : Nat) : Statement (.bedCamCommit pipe) := of_none rfl rfl
theorem bedPipeCommit (src : Source) (pipe : Nat) :
    Statement (.bedPipeCommit src pipe) := of_source rfl rfl fun h => by simp_all [Instr.wf]
theorem fragmentFlit (lane : Nat) (hdr : BitVec 32) (words : Timed (List Word)) :
    Statement (.fragmentFlit lane hdr words) := of_none rfl rfl
theorem memoryFrameStart (pipe : Nat) : Statement (.memoryFrameStart pipe) := of_none rfl rfl
theorem statsPacket (pipe : Nat) (slot : Nat) : Statement (.statsPacket pipe slot) := of_none rfl rfl
theorem capture (src : Source) (pipe : Nat) (val : BitVec 32) :
    Statement (.capture src pipe val) := of_source rfl rfl fun h => by simp_all [Instr.wf]
theorem bedDone (pipe : Nat) : Statement (.bedDone pipe) := of_none rfl rfl
theorem move (axis : Nat) : Statement (.move axis) := of_none rfl rfl
theorem velPos (axis : Nat) : Statement (.velPos axis) := of_none rfl rfl
theorem velNeg (axis : Nat) : Statement (.velNeg axis) := of_none rfl rfl
theorem axisStop (axis : Nat) : Statement (.axisStop axis) := of_none rfl rfl
theorem estop (axis : Nat) : Statement (.estop axis) := of_none rfl rfl
theorem home (axis : Nat) : Statement (.home axis) := of_none rfl rfl
theorem axisClear (axis : Nat) : Statement (.axisClear axis) := of_none rfl rfl
theorem setPos (axis : Nat) : Statement (.setPos axis) := of_none rfl rfl
theorem axisEnableWrite (src : Source) (axis : Nat) (val : BitVec 32) :
    Statement (.axisEnableWrite src axis val) := of_source rfl rfl fun h => by simp_all [Instr.wf]
theorem waveLoad (src : Source) (axis : Nat) (val : BitVec 32) :
    Statement (.waveLoad src axis val) := of_source rfl rfl fun h => by simp_all [Instr.wf]
theorem bankSwitch (axis : Nat) : Statement (.bankSwitch axis) := of_none rfl rfl
theorem moveDone (axis : Nat) : Statement (.moveDone axis) := of_none rfl rfl
theorem softLimit (axis : Nat) : Statement (.softLimit axis) := of_none rfl rfl
theorem stall (axis : Nat) : Statement (.stall axis) := of_none rfl rfl
theorem lostStep (axis : Nat) : Statement (.lostStep axis) := of_none rfl rfl
theorem limitHit (axis : Nat) (input : Nat) : Statement (.limitHit axis input) := of_none rfl rfl
theorem homeEdge (axis : Nat) (level : Bool) (axclk : Nat) : Statement (.homeEdge axis level axclk) := of_none rfl rfl
theorem chatter (axis : Nat) : Statement (.chatter axis) := of_none rfl rfl
theorem homeDone (axis : Nat) : Statement (.homeDone axis) := of_none rfl rfl
theorem skiverPhaseEnd : Statement .skiverPhaseEnd := of_none rfl rfl
theorem skiverDone : Statement .skiverDone := of_none rfl rfl
theorem skvReady : Statement .skvReady := of_none rfl rfl
theorem retry : Statement .retry := of_none rfl rfl
theorem create (src : Source) (val : BitVec 32) :
    Statement (.create src val) := of_source rfl rfl fun h => by simp_all [Instr.wf]
theorem createDone : Statement .createDone := of_none rfl rfl
theorem destroy (src : Source) (val : BitVec 32) :
    Statement (.destroy src val) := of_source rfl rfl fun h => by simp_all [Instr.wf]
theorem queuePush (req : Nat) (handle : BitVec 32) (word : PWord) (last : Bool) (turn : Turn) :
    Statement (.queuePush req handle word last turn) := of_none rfl rfl
theorem queuePop (req : Nat) (handle : BitVec 32) (turn : Turn) : Statement (.queuePop req handle turn) := of_none rfl rfl
theorem spillMove (handle : BitVec 32) (toDram : Bool) : Statement (.spillMove handle toDram) := of_none rfl rfl
theorem scrub (addr : Nat) (err : WordError) : Statement (.scrub addr err) := of_none rfl rfl
theorem aperBind (src : Source) (aper : Nat) (val : BitVec 32) :
    Statement (.aperBind src aper val) := of_source rfl rfl fun h => by simp_all [Instr.wf]
theorem aperPush (aper : Nat) (val : BitVec 32) : Statement (.aperPush aper val) := of_none rfl rfl
theorem aperEnd (aper : Nat) (val : BitVec 32) : Statement (.aperEnd aper val) := of_none rfl rfl
theorem aperBad (aper : Nat) (val : BitVec 32) : Statement (.aperBad aper val) := of_none rfl rfl
theorem aperPop (aper : Nat) : Statement (.aperPop aper) := of_none rfl rfl
theorem aperDepth (aper : Nat) : Statement (.aperDepth aper) := of_none rfl rfl
theorem aperBufferAccess (aper : Nat) (off : Nat) (wr : Option (BitVec 32)) :
    Statement (.aperBufferAccess aper off wr) := of_none rfl rfl
theorem dramEnable (src : Source) (chan : Nat) (val : BitVec 32) :
    Statement (.dramEnable src chan val) := of_source rfl rfl fun h => by simp_all [Instr.wf]
theorem trainingDone (chan : Nat) (found : Training) : Statement (.trainingDone chan found) := of_none rfl rfl
theorem dramRead (chan : Nat) (req : Nat) (off : Nat) (err : List Nat) (delayed : Bool) :
    Statement (.dramRead chan req off err delayed) := of_none rfl rfl
theorem dramWrite (chan : Nat) (req : Nat) (off : Nat) (data : List (BitVec 32)) (poison : Bool) (turn : LineTurn) :
    Statement (.dramWrite chan req off data poison turn) := of_none rfl rfl
theorem commandParityAlert (chan : Nat) (replays : Replays) : Statement (.commandParityAlert chan replays) := of_none rfl rfl
theorem refresh (chan : Nat) (iso : Bool) : Statement (.refresh chan iso) := of_none rfl rfl
theorem isoLate (chan : Nat) (fetch : Nat) : Statement (.isoLate chan fetch) := of_none rfl rfl
theorem fetcherEnable (src : Source) (chan : Nat) (fetch : Nat) (val : BitVec 32) :
    Statement (.fetcherEnable src chan fetch val) := of_source rfl rfl fun h => by simp_all [Instr.wf]
theorem selfRefreshEntry (chan : Nat) : Statement (.selfRefreshEntry chan) := of_none rfl rfl
theorem patrol (chan : Nat) (err : List Nat) : Statement (.patrol chan err) := of_none rfl rfl
theorem laneEnable (src : Source) (lane : Nat) (val : BitVec 32) :
    Statement (.laneEnable src lane val) := of_source rfl rfl fun h => by simp_all [Instr.wf]
theorem identFlit (lane : Nat) (words : List (BitVec 32)) : Statement (.identFlit lane words) := of_none rfl rfl
theorem checkDone (lane : Nat) (errs : Nat) : Statement (.checkDone lane errs) := of_none rfl rfl
theorem echoFlit (lane : Nat) (rtt : Nat) : Statement (.echoFlit lane rtt) := of_none rfl rfl
theorem laneUp (lane : Nat) : Statement (.laneUp lane) := of_none rfl rfl
theorem laneDown (lane : Nat) (cause : Nat) : Statement (.laneDown lane cause) := of_none rfl rfl
theorem retrain (lane : Nat) : Statement (.retrain lane) := of_none rfl rfl
theorem test (lane : Nat) : Statement (.test lane) := of_none rfl rfl
theorem measure (lane : Nat) : Statement (.measure lane) := of_none rfl rfl
theorem measureDone (lane : Nat) (errs : Nat) (bits : Nat) : Statement (.measureDone lane errs bits) := of_none rfl rfl
theorem inject (lane : Nat) : Statement (.inject lane) := of_none rfl rfl
theorem exit (lane : Nat) : Statement (.exit lane) := of_none rfl rfl
theorem samplesFlit (lane : Nat) (hdr : BitVec 32) (words : List (BitVec 32)) :
    Statement (.samplesFlit lane hdr words) := of_none rfl rfl
theorem statusFlit (lane : Nat) (hdr : BitVec 32) (words : List (BitVec 32)) :
    Statement (.statusFlit lane hdr words) := of_none rfl rfl
theorem badFlit (lane : Nat) (crc : Bool) : Statement (.badFlit lane crc) := of_none rfl rfl
theorem nak (lane : Nat) (ack : Nat) : Statement (.nak lane ack) := of_none rfl rfl
theorem pcieReset : Statement .pcieReset := of_none rfl rfl
theorem linkLost : Statement .linkLost := of_none rfl rfl
theorem msixUnmask (vec : Nat) : Statement (.msixUnmask vec) := of_none rfl rfl
theorem ethRxFrame (port : Nat) (frame : List (BitVec 8)) (fcsOk : Bool) :
    Statement (.ethRxFrame port frame fcsOk) := of_none rfl rfl
theorem ethTxPacket (port : Nat) : Statement (.ethTxPacket port) := of_none rfl rfl
theorem refWindow (tclks : Nat) : Statement (.refWindow tclks) := of_none rfl rfl
theorem refLost : Statement .refLost := of_none rfl rfl
theorem domainMeasurement (src : Source) (dom : Nat) (val : BitVec 32) :
    Statement (.domainMeasurement src dom val) := of_source rfl rfl fun h => by simp_all [Instr.wf]
theorem domUnlock (dom : Nat) : Statement (.domUnlock dom) := of_none rfl rfl
theorem timeSnap : Statement .timeSnap := of_none rfl rfl
theorem actArm (src : Source) (entry : Nat) (val : BitVec 32) :
    Statement (.actArm src entry val) := of_source rfl rfl fun h => by simp_all [Instr.wf]
theorem actCancel (src : Source) (entry : Nat) (val : BitVec 32) :
    Statement (.actCancel src entry val) := of_source rfl rfl fun h => by simp_all [Instr.wf]
theorem actionWrite (entry : Nat) : Statement (.actionWrite entry) := of_none rfl rfl
theorem actionPush (entry : Nat) : Statement (.actionPush entry) := of_none rfl rfl
theorem actionPin (entry : Nat) : Statement (.actionPin entry) := of_none rfl rfl
theorem segmentEnable (src : Source) (seg : Nat) (val : BitVec 32) :
    Statement (.segmentEnable src seg val) := of_source rfl rfl fun h => by simp_all [Instr.wf]
theorem nodeEnable (src : Source) (seg : Nat) (node : Nat) (val : BitVec 32) :
    Statement (.nodeEnable src seg node val) := of_source rfl rfl fun h => by simp_all [Instr.wf]
theorem cinchStart (seg : Nat) : Statement (.cinchStart seg) := of_none rfl rfl
theorem inFrame (seg : Nat) (frame : List (BitVec 8)) : Statement (.inFrame seg frame) := of_none rfl rfl
theorem strangerFrame (seg : Nat) (frame : List (BitVec 8)) : Statement (.strangerFrame seg frame) := of_none rfl rfl
theorem noise (seg : Nat) (kind : NoiseKind) (node : Nat) : Statement (.noise seg kind node) := of_none rfl rfl
theorem lampEnable (src : Source) (val : BitVec 32) :
    Statement (.lampEnable src val) := of_source rfl rfl fun h => by simp_all [Instr.wf]
theorem frameTick : Statement .frameTick := of_none rfl rfl
theorem pwmPeriod : Statement .pwmPeriod := of_none rfl rfl
theorem lampMeasurement (chan : Nat) (row : Nat) (drainMv : Nat) (isense : Nat) :
    Statement (.lampMeasurement chan row drainMv isense) := of_none rfl rfl
theorem diagStarved (chan : Nat) : Statement (.diagStarved chan) := of_none rfl rfl
theorem lsyncEdge (us : Nat) : Statement (.lsyncEdge us) := of_none rfl rfl
theorem chainLatch : Statement .chainLatch := of_none rfl rfl
theorem lampSwap : Statement .lampSwap := of_none rfl rfl
theorem lampClear (src : Source) (chan : Nat) (val : BitVec 32) :
    Statement (.lampClear src chan val) := of_source rfl rfl fun h => by simp_all [Instr.wf]
theorem powerOn (spiQuad : Bool) (harnSide : Bool) : Statement (.powerOn spiQuad harnSide) := of_none rfl rfl
theorem wake (cause : WakeCause) : Statement (.wake cause) := of_none rfl rfl
theorem pgRise (rise : GroupRails) : Statement (.pgRise rise) := of_none rfl rfl
theorem settleExpiry : Statement .settleExpiry := of_none rfl rfl
theorem seqTimeout : Statement .seqTimeout := of_none rfl rfl
theorem seqFault (code : Nat) : Statement (.seqFault code) := of_none rfl rfl
theorem brownOut (low : RailLevel) (within10s : Bool) : Statement (.brownOut low within10s) := of_none rfl rfl
theorem brownOutRetry : Statement .brownOutRetry := of_none rfl rfl
theorem stbyLoss : Statement .stbyLoss := of_none rfl rfl
theorem vbatLoss : Statement .vbatLoss := of_none rfl rfl
theorem resetN : Statement .resetN := of_none rfl rfl
theorem service : Statement .service := of_none rfl rfl
theorem ready : Statement .ready := of_none rfl rfl
theorem run : Statement .run := of_none rfl rfl
theorem shutdown : Statement .shutdown := of_none rfl rfl
theorem cancel : Statement .cancel := of_none rfl rfl
theorem softReset : Statement .softReset := of_none rfl rfl
theorem blockRestart (src : Source) (val : BitVec 32) :
    Statement (.blockRestart src val) := of_source rfl rfl fun h => by simp_all [Instr.wf]
theorem blockRestarted : Statement .blockRestarted := of_none rfl rfl
theorem bootDone (a : ImageHdr) (b : ImageHdr) (testOk : Bool) : Statement (.bootDone a b testOk) := of_none rfl rfl
theorem avsStep (margins : List Nat) : Statement (.avsStep margins) := of_none rfl rfl
theorem avsCheck (back : ReadBack) (readMv : Nat) : Statement (.avsCheck back readMv) := of_none rfl rfl
theorem marginCrit : Statement .marginCrit := of_none rfl rfl
theorem regAlert (status : Nat) : Statement (.regAlert status) := of_none rfl rfl
theorem sensorSample (sensor : Nat) (reading : Nat) (input : Timed Nat) :
    Statement (.sensorSample sensor reading input) := of_none rfl rfl
theorem bandChanged (grp : Nat) : Statement (.bandChanged grp) := of_none rfl rfl
theorem stepOn (step : Nat) : Statement (.stepOn step) := of_none rfl rfl
theorem stepOff (step : Nat) : Statement (.stepOff step) := of_none rfl rfl
theorem calRun (src : Source) (val : BitVec 32) :
    Statement (.calRun src val) := of_source rfl rfl fun h => by simp_all [Instr.wf]
theorem geoCommit (src : Source) (val : BitVec 32) :
    Statement (.geoCommit src val) := of_source rfl rfl fun h => by simp_all [Instr.wf]
theorem calInstanceStart : Statement .calInstanceStart := of_none rfl rfl
theorem calResultFound (result : Int) (gain : Int) (run : Nat) (vrefOk : Bool) :
    Statement (.calResultFound result gain run vrefOk) := of_none rfl rfl
theorem calDone : Statement .calDone := of_none rfl rfl
theorem burnRun (src : Source) (val : BitVec 32) :
    Statement (.burnRun src val) := of_source rfl rfl fun h => by simp_all [Instr.wf]
theorem burnCancel (src : Source) (val : BitVec 32) :
    Statement (.burnCancel src val) := of_source rfl rfl fun h => by simp_all [Instr.wf]
theorem sliceDone (pass : Bool) : Statement (.sliceDone pass) := of_none rfl rfl
theorem guardedRequest (src : Source) (addr : BitVec 32) (val : BitVec 32) :
    Statement (.guardedRequest src addr val) := of_source rfl rfl fun h => by simp_all [Instr.wf]
theorem presenceQualified (pressAfterStart : Bool) : Statement (.presenceQualified pressAfterStart) := of_none rfl rfl
theorem presenceTimeout : Statement .presenceTimeout := of_none rfl rfl
theorem guardCancel : Statement .guardCancel := of_none rfl rfl
theorem keyLoad (src : Source) (val : BitVec 32) :
    Statement (.keyLoad src val) := of_source rfl rfl fun h => by simp_all [Instr.wf]
theorem erase (src : Source) (val : BitVec 32) :
    Statement (.erase src val) := of_source rfl rfl fun h => by simp_all [Instr.wf]
theorem reseal (src : Source) (val : BitVec 32) (closed : Bool) :
    Statement (.reseal src val closed) := of_source rfl rfl fun h => by simp_all [Instr.wf]
theorem revoke (src : Source) (val : BitVec 32) :
    Statement (.revoke src val) := of_source rfl rfl fun h => by simp_all [Instr.wf]
theorem minVer (src : Source) (val : BitVec 32) :
    Statement (.minVer src val) := of_source rfl rfl fun h => by simp_all [Instr.wf]
theorem hmac (src : Source) (val : BitVec 32) :
    Statement (.hmac src val) := of_source rfl rfl fun h => by simp_all [Instr.wf]
theorem sealOpened : Statement .sealOpened := of_none rfl rfl
theorem debugUnlock (src : Source) : Statement (.debugUnlock src) := of_source rfl rfl fun h => by simp_all [Instr.wf]
theorem program (src : Source) (val : BitVec 32) :
    Statement (.program src val) := of_source rfl rfl fun h => by simp_all [Instr.wf]
theorem imgCommit (src : Source) (val : BitVec 32) :
    Statement (.imgCommit src val) := of_source rfl rfl fun h => by simp_all [Instr.wf]
theorem pstoreWrite (src : Source) (val : BitVec 32) :
    Statement (.pstoreWrite src val) := of_source rfl rfl fun h => by simp_all [Instr.wf]
theorem pstoreDone : Statement .pstoreDone := of_none rfl rfl
theorem ilkActive (input : Timed Nat) : Statement (.ilkActive input) := of_none rfl rfl
theorem ilkMismatch : Statement .ilkMismatch := of_none rfl rfl
theorem harnEnable (src : Source) (val : BitVec 32) :
    Statement (.harnEnable src val) := of_source rfl rfl fun h => by simp_all [Instr.wf]
theorem leadSearch : Statement .leadSearch := of_none rfl rfl
theorem join (check : Nat) : Statement (.join check) := of_none rfl rfl
theorem copyFlit (data : CopyData) : Statement (.copyFlit data) := of_none rfl rfl
theorem copyDone : Statement .copyDone := of_none rfl rfl
theorem wheelReady : Statement .wheelReady := of_none rfl rfl
theorem leave : Statement .leave := of_none rfl rfl
theorem resign (src : Source) : Statement (.resign src) := of_source rfl rfl fun h => by simp_all [Instr.wf]
theorem resigned : Statement .resigned := of_none rfl rfl
theorem forwardFlit (place : ForwardPlace) (data : ForwardData) : Statement (.forwardFlit place data) := of_none rfl rfl
theorem digestSend (copy : Nat) : Statement (.digestSend copy) := of_none rfl rfl
theorem digestFlit (copy : Nat) (words : List (BitVec 32)) : Statement (.digestFlit copy words) := of_none rfl rfl
theorem digestDue (copy : Nat) (beat : Bool) : Statement (.digestDue copy beat) := of_none rfl rfl
theorem takeover : Statement .takeover := of_none rfl rfl
theorem axisRest (axis : Nat) : Statement (.axisRest axis) := of_none rfl rfl
theorem indexPulse (axis : Nat) (axclk : Nat) : Statement (.indexPulse axis axclk) := of_none rfl rfl
theorem ilkReleased (input : Nat) : Statement (.ilkReleased input) := of_none rfl rfl
theorem pcieLinkUp (speed : Nat) (width : Nat) : Statement (.pcieLinkUp speed width) := of_none rfl rfl
theorem ethLinkChange (port : Nat) (up : Bool) (speed : Nat) : Statement (.ethLinkChange port up speed) := of_none rfl rfl
theorem groupAbsent (grp : Nat) : Statement (.groupAbsent grp) := of_none rfl rfl
theorem rhWindowEnd (chan : Nat) : Statement (.rhWindowEnd chan) := of_none rfl rfl
theorem repeatEntryExpiry (entry : Nat) : Statement (.repeatEntryExpiry entry) := of_none rfl rfl
theorem mr4Poll (chan : Nat) (rate : Nat) : Statement (.mr4Poll chan rate) := of_none rfl rfl
theorem gateTapTimeout : Statement .gateTapTimeout := of_none rfl rfl
theorem imgCmdDone (hdr : ImageHdr) : Statement (.imgCmdDone hdr) := of_none rfl rfl
theorem transmitOpportunity (seg : Nat) : Statement (.transmitOpportunity seg) := of_none rfl rfl
theorem debugInstruction (ir : DebugIr) : Statement (.debugInstruction ir) := of_none rfl rfl

end Sys2Proof.Laws.OperandsInRange
end

