-- ==== Sys2Proof/Machine/Pins.lean ====
section
/-! DEFINITION. The pins: ball names, which ball carries which signal (R436 to R439), and what the output pins do while the
core domain is down or their supply is absent (R373, R386, R441). Nothing here changes the state; each definition reads the
part or the state. A ball is asked of a package (signalAt) or of a part (Part.ballAt). -/

namespace Sys2Proof.Machine

/-! ## Ball names (R436) -/

/-- The letters of ball rows. -/
def ballLetters : List String :=
  ["A", "B", "C", "D", "E", "F", "G", "H", "J", "K", "L", "M", "N", "P", "T", "U", "V", "W", "Y"]

/-- The letters of a row, counted from 1. -/
def rowName (row : Nat) : String :=
  ballLetters.getD ((row - 1) / 19 - 1) "" |> fun high =>
    (if 19 < row then high else "") ++ ballLetters.getD ((row - 1) % 19) ""

/-- The name of a ball. -/
def ballName (row col : Nat) : String := rowName row ++ toString col

/-- A package. -/
inductive Package where
  /-- FC1521: 39 rows of 39. -/
  | fc1521
  /-- FC2704: 52 rows of 52. -/
  | fc2704
  deriving DecidableEq, Repr

/-- A part's package (R1). -/
def Part.pack (p : Part) : Package := if p.row.package = 2 then .fc2704 else .fc1521

/-- Rows and columns of a package. -/
def Package.side : Package → Nat
  | .fc1521 => 39
  | .fc2704 => 52

/-! ## Signals (R437) -/

/-- A signal: its name, without its number, and its number or the number of its unit; 0 where it has none. -/
structure Signal where
  /-- The name. -/
  name : String
  /-- The number. -/
  no : Nat
  deriving DecidableEq, Repr

/-- Ground. -/
def vss : Signal := ⟨"VSS", 0⟩

/-- Signals without a number. -/
def singles (l : List String) : List Signal := l.map fun n => ⟨n, 0⟩

/-- A bus in ascending index. -/
def bus (n : String) (w : Nat) : List Signal := (List.range w).map fun i => ⟨n, i⟩

/-- A differential bus: P before N of each index. -/
def pairs (p n : String) (w : Nat) : List Signal := (List.range w).flatMap fun i => [⟨p, i⟩, ⟨n, i⟩]

/-- The same signals for each of some units in turn. -/
def unitSignals (units : Nat) (l : List String) : List Signal := (List.range units).flatMap fun k => l.map fun n => ⟨n, k⟩

/-- The PCIe balls. -/
def pcieBalls : List Signal :=
  unitSignals 4 ["PE_TXP", "PE_TXN", "PE_RXP", "PE_RXN"] ++ singles ["PCIE_REFCLK_P", "PCIE_REFCLK_N", "PCIE_PERST_N"]

/-- The SGMII balls. -/
def sgmiiBalls : List Signal := unitSignals 2 ["EG_TXP", "EG_TXN", "EG_RXP", "EG_RXN"]

/-- One half of a DRAM channel's data. -/
def dramData (dq cb p n : String) : List Signal := bus dq 32 ++ bus cb 8 ++ pairs p n 10

/-- The balls of a DRAM channel; the two channels carry the same names. -/
def dramBalls : List Signal :=
  dramData "DQA" "CBA" "DQSA_P" "DQSA_N" ++ dramData "DQB" "CBB" "DQSB_P" "DQSB_N" ++ bus "DCAA" 7 ++ singles ["DPARA"]
    ++ bus "DCSA_N" 2 ++ bus "DCAB" 7 ++ singles ["DPARB"] ++ bus "DCSB_N" 2
    ++ singles ["DCKA_P", "DCKA_N", "DCKB_P", "DCKB_N", "ALERT_N", "DRST_N", "ZQ"]

/-- The lamp balls for a number of channels. -/
def lampBalls (n : Nat) : List Signal :=
  unitSignals n ["LC_GATE", "LC_ISNS", "LC_DSNS"] ++ bus "LROW" 16 ++ singles ["LSYNC", "LCK", "LDO", "LLATCH"]

/-- The axis balls for a number of axes; AX_SW0 to AX_SW2 are the members of AXx_SW. -/
def axisBalls (n : Nat) : List Signal :=
  unitSignals n ["AX_A1", "AX_A2", "AX_B1", "AX_B2", "AX_ISA", "AX_ISB", "AX_ENA", "AX_ENB", "AX_IDX", "AX_SW0", "AX_SW1",
    "AX_SW2"]

/-- The analogue balls. -/
def analogBalls : List Signal :=
  bus "AIN" 8 ++ bus "SPT_PULSE" 8 ++ pairs "TD_P" "TD_N" 8 ++ bus "TH" 8 ++ singles ["VREFX"]

/-- The balls of the clock and time group, the system group, the boot flash and JTAG. -/
def systemBalls : List Signal :=
  singles ["OSC_IN", "CLKREF", "STCH_MARK"] ++ bus "TIME_OUT" 4
    ++ singles ["RESET_N", "WAKE_N", "PRESENT_N", "SEAL_A", "SEAL_B", "PEN_A", "PEN_B", "PEN_C", "PG_A", "PG_B", "PG_C",
      "PMB_SCL", "PMB_SDA", "PMB_ALERT_N", "CORE_SNS_P", "CORE_SNS_N"]
    ++ singles ["SPI_SCK", "SPI_CS_N"] ++ bus "SPI_IO" 4 ++ singles ["TCK", "TMS", "TDI", "TDO", "TRST_N"]

/-- The low-speed signals in the order in which they fill the centre: those of the largest part in the package. -/
def lowSpeed : Package → List Signal
  | .fc2704 => unitSignals 2 ["FB_P", "FB_N"] ++ lampBalls 48 ++ axisBalls 16 ++ bus "EMIT_EN" 32
      ++ singles ["ILK_A_N", "ILK_B_N"] ++ analogBalls ++ systemBalls
      ++ singles ["SPI_QUAD", "HARN_SIDE", "HARN_BEAT_OUT", "HARN_BEAT_IN"]
  | .fc1521 => unitSignals 2 ["FB_P", "FB_N"] ++ lampBalls 32 ++ axisBalls 12 ++ bus "EMIT_EN" 12
      ++ singles ["ILK_A_N", "ILK_B_N"] ++ analogBalls ++ systemBalls ++ singles ["SPI_QUAD"]

/-- The power balls in the order of R437: how many each supply has. -/
def powerCounts : Package → List (String × Nat)
  | .fc2704 => [("VDD_CORE", 420), ("VDD_SRAM", 80), ("VDD_SER", 64), ("VDD_SERH", 32), ("VDDQ", 60), ("VDD_IO33", 24),
      ("VDD_IO18", 24), ("VDD_ANA", 12), ("VDD_STBY", 4), ("VBAT", 1)]
  | .fc1521 => [("VDD_CORE", 230), ("VDD_SRAM", 40), ("VDD_SER", 24), ("VDD_SERH", 12), ("VDDQ", 30), ("VDD_IO33", 16),
      ("VDD_IO18", 16), ("VDD_ANA", 8), ("VDD_STBY", 4), ("VBAT", 1)]

/-- The supply of the n-th power ball. -/
def powerBall : List (String × Nat) → Nat → Signal
  | [], _ => vss
  | (s, n) :: l, i => if i < n then ⟨s, 0⟩ else powerBall l (i - n)

/-! ## Zones (R439) -/

/-- The k-th signal of a zone that ends in VSS. -/
def zoneSignal (l : List Signal) (k : Nat) : Signal := l.getD k vss

/-- The signal of a lane by its row in the zone, counted from the edge of the package. -/
def laneSignal (k depth : Nat) : Signal :=
  ⟨["LT_TXP", "LT_TXN", "LT_RXP", "LT_RXN"].getD depth "VSS", k⟩

/-- The centre zone: the low-speed signals, then the power balls on odd positions, then VSS. `left` is its first column and
`width` the number of its columns; its first row is 5. -/
def centreSignal (p : Package) (left width row col : Nat) : Signal :=
  let low := lowSpeed p
  let i := (row - 5) * width + (col - left)
  if i < low.length then low.getD i vss
  else if (row + col) % 2 = 0 then vss
  else
    let odd := fun n => decide ((5 + n / width + left + n % width) % 2 = 1)
    powerBall (powerCounts p) (((List.range i).filter fun n => decide (low.length ≤ n) && odd n).length)

/-- What a ball carries (R439). -/
def signalAt (p : Package) (row col : Nat) : Signal :=
  match p with
  | .fc2704 =>
    if row ≤ 4 then
      if col ≤ 4 then vss
      else if col ≤ 46 then
        if 7 ≤ col ∧ col % 2 = 1 ∧ (col - 7) / 2 < 20 then laneSignal ((col - 7) / 2) (row - 1) else vss
      else zoneSignal pcieBalls ((row - 1) * 6 + (col - 47))
    else if 49 ≤ row then
      if col ≤ 4 then vss
      else if col ≤ 46 then
        if 7 ≤ col ∧ col % 2 = 1 ∧ (col - 7) / 2 < 20 then laneSignal (20 + (col - 7) / 2) (52 - row) else vss
      else zoneSignal sgmiiBalls ((row - 49) * 6 + (col - 47))
    else if col ≤ 4 then zoneSignal dramBalls ((row - 5) * 4 + (col - 1))
    else if 49 ≤ col then zoneSignal dramBalls ((row - 5) * 4 + (col - 49))
    else centreSignal p 5 44 row col
  | .fc1521 =>
    if row ≤ 4 then
      if col ≤ 4 then vss
      else if col ≤ 32 then
        if 6 ≤ col ∧ col % 2 = 0 ∧ (col - 6) / 2 < 14 then laneSignal ((col - 6) / 2) (row - 1) else vss
      else zoneSignal (pcieBalls ++ sgmiiBalls) ((row - 1) * 7 + (col - 33))
    else if col ≤ 5 then zoneSignal dramBalls ((row - 5) * 5 + (col - 1))
    else centreSignal p 6 34 row col

/-! ## Units that a part lacks (R438) -/

/-- A ball that is not connected to the die. -/
def notConnected : Signal := ⟨"NC", 0⟩

/-- Whether a signal is of a unit that the part has, by the unit's number in it; the DRAM signals name no channel. -/
def Part.hasSignal (p : Part) (g : Signal) : Bool :=
  if ["LT_TXP", "LT_TXN", "LT_RXP", "LT_RXN"].contains g.name then p.hasLane g.no
  else if ["LC_GATE", "LC_ISNS", "LC_DSNS"].contains g.name then decide (g.no < p.row.lamps)
  else if (axisBalls 1).any fun a => a.name == g.name then decide (g.no < p.row.axes)
  else if g.name = "EMIT_EN" then p.hasSlot g.no
  else if ["HARN_SIDE", "HARN_BEAT_OUT", "HARN_BEAT_IN"].contains g.name then p.row.harness
  else true

/-- Whether a ball lies in the zone of the second DRAM channel (R439). -/
def inSecondDram (p : Package) (row col : Nat) : Bool :=
  p == .fc2704 && decide (5 ≤ row) && decide (row ≤ 48) && decide (49 ≤ col)

/-- What a ball of a part carries: the signal of the largest part in its package, and nothing where the part lacks the unit. -/
def Part.ballAt (p : Part) (row col : Nat) : Signal :=
  let g := signalAt p.pack row col
  if g = vss then vss
  else if !p.hasSignal g || (inSecondDram p.pack row col && decide (p.row.chans < 2)) then notConnected
  else g

/-! ## Pins while the device is held (R441) -/

/-- What an output pin does. -/
inductive Drive where
  /-- Driven low. -/
  | low
  /-- Driven high, or held high by the pin's own pull-up. -/
  | high
  /-- High impedance. -/
  | highZ
  /-- A transmitter at electrical idle. -/
  | idle
  /-- As the unit that owns the pin drives it. -/
  | unit
  /-- Not connected to the die (R438). -/
  | open
  deriving DecidableEq, Repr

/-- The groups of output pins of R441. -/
inductive PinGroup where
  /-- EMIT_EN. -/
  | emitEn
  /-- The bridges of an axis. -/
  | bridge
  /-- LC_GATE. -/
  | lampGate
  /-- LROW, LCK, LDO, LLATCH. -/
  | lampRow
  /-- STCH_MARK, TIME_OUT. -/
  | mark
  /-- The transmitters of the Latigo lanes. -/
  | lane
  /-- The transmitters of PCIe and SGMII. -/
  | port
  /-- DRST_N, DCKA and DCKB. -/
  | dramHold
  /-- The other outputs of DRAM. -/
  | dramOther
  /-- FB_P, FB_N. -/
  | fieldBus
  /-- SPI_CS_N. -/
  | spiSelect
  /-- SPI_SCK. -/
  | spiClock
  /-- Inputs and open-drain pins. -/
  | input
  deriving DecidableEq, Repr

/-- The left column of R441. -/
def PinGroup.held : PinGroup → Drive
  | .emitEn | .bridge | .lampGate | .lampRow | .mark | .dramHold | .spiClock => .low
  | .lane | .port => .idle
  | .dramOther | .fieldBus | .input => .highZ
  | .spiSelect => .high

/-- The bit in PWR_RAILS of the supply of a group's pins (R437); STCH_MARK and TIME_OUT are of the clock and time group. -/
def PinGroup.rail : PinGroup → Nat
  | .emitEn | .bridge | .lampGate | .lampRow | .fieldBus | .input => 2
  | .mark | .spiSelect | .spiClock => 3
  | .lane | .port => 7
  | .dramHold | .dramOther => 9

/-- The outputs that the thermal latch gates (R383). -/
def PinGroup.gated : PinGroup → Bool
  | .emitEn | .bridge | .lampGate | .lane => true
  | _ => false

/-- The outputs that a wheel holds at high impedance (R426). -/
def PinGroup.shared : PinGroup → Bool
  | .emitEn | .bridge | .lampGate | .lampRow | .mark | .fieldBus => true
  | _ => false

/-- Whether the part has the unit whose pins they are (R438). -/
def PinGroup.present (g : PinGroup) (p : Part) (k : Nat) : Bool :=
  match g with
  | .emitEn => p.hasSlot k
  | .bridge => decide (k < p.row.axes)
  | .lampGate => decide (k < p.row.lamps)
  | .lane => p.hasLane k
  | .dramHold | .dramOther => decide (k < p.row.chans)
  | _ => true

/-- What the pins of unit `k` in a group do (R441): not connected where the part lacks the unit, high impedance with their own supply
absent, their held state while the core domain is down or the latch gates them, high impedance at a wheel, and what the unit drives
otherwise. -/
def State.pinDrive (s : State) (g : PinGroup) (k : Nat) : Drive :=
  if !g.present s.part k then .open
  else if !natBit s.rails.toNat g.rail then .highZ
  else if !s.coreUp then g.held
  else if s.latched ∧ g.gated then g.held
  else if s.isWheel ∧ g.shared then .highZ
  else .unit

/-- Whether PEN of a group of supplies, 0 for A, is high (R373). -/
def State.pen (s : State) (g : Nat) : Bool := s.power.seq.pen g

/-- The level of EMIT_EN of a slot: what R382 drives while the pin follows its unit, and else nothing high (R441). -/
def State.emitPin (s : State) (k : Nat) : Bool := s.pinDrive .emitEn k == .unit && s.emitEn.getLsbD k

end Sys2Proof.Machine
end

