-- ==== Sys2Proof/Machine/Electrical.lean ====
section
/-! DEFINITION. What 20_pins_electrical.md fixes about a board and its pins (R442 to R450): the pulls a board fits, the ratings,
the operating ranges, the power of each part, the levels of the pin classes, the limits of their timing, and the data of the
packages. Nothing here changes the state; each definition is a table of the spec or the test that it serves. Voltages are in
tenths of a millivolt, times in picoseconds, power in milliwatts, thermal resistance in hundredths of K/W, lengths in
hundredths of a millimetre. -/

namespace Sys2Proof.Machine

/-- A range; an open side is none. -/
structure Span where
  /-- The least value. -/
  least : Option Int
  /-- The greatest value. -/
  most : Option Int
  deriving DecidableEq, Repr

/-- Whether a value lies in a range. -/
def Span.has (r : Span) (x : Int) : Bool :=
  r.least.all (fun l => decide (l ≤ x)) && r.most.all (fun m => decide (x ≤ m))

/-! ## Pulls (R440, R442) -/

/-- The pull-down in ohms that the board fits to a net of a group, one for a harness pair (R442). -/
def PinGroup.boardPull : PinGroup → Option Nat
  | .emitEn | .bridge | .lampRow | .mark => some 10000
  | .lampGate => some 100000
  | _ => none

/-- Whether a fitted pull-down in ohms is within 5 % of the named one (R442). -/
def PinGroup.pullOk (g : PinGroup) (ohms : Nat) : Bool :=
  match g.boardPull with
  | none => true
  | some r => decide (95 * r ≤ 100 * ohms ∧ 100 * ohms ≤ 105 * r)

/-- The level of a net: what the block drives, and low where it drives nothing and the board pulls the net down (R441, R442). -/
def State.netLow (s : State) (g : PinGroup) (k : Nat) : Bool :=
  match s.pinDrive g k with
  | .low => true
  | .highZ => g.boardPull.isSome
  | _ => false

/-- The strap that a pin reads (R440): 0 with its own pull-down alone, 1 where the board ties it to VDD_STBY through at most
4.7 kΩ. -/
def strapLevel (tied : Option Nat) : Bool := tied.any fun ohms => decide (ohms ≤ 4700)

/-! ## Supplies (R443, R444) -/

/-- The supplies. -/
inductive Supply where
  /-- VBAT. -/
  | vbat
  /-- VDD_STBY. -/
  | stby
  /-- VDD_IO33. -/
  | io33
  /-- VDD_IO18. -/
  | io18
  /-- VDD_ANA. -/
  | ana
  /-- VDD_CORE. -/
  | core
  /-- VDD_SRAM. -/
  | sram
  /-- VDD_SER. -/
  | ser
  /-- VDD_SERH. -/
  | serh
  /-- VDDQ. -/
  | ddq
  deriving DecidableEq, Repr

/-- The absolute maximum ratings of a supply (R443). -/
def Supply.rating : Supply → Span
  | .vbat => ⟨some (-3000), some 40000⟩
  | .stby | .io33 => ⟨some (-3000), some 39000⟩
  | .io18 | .ana => ⟨some (-3000), some 21000⟩
  | .core | .sram => ⟨some (-3000), some 9500⟩
  | .ser => ⟨some (-3000), some 10500⟩
  | .serh => ⟨some (-3000), some 14000⟩
  | .ddq => ⟨some (-3000), some 13000⟩

/-- The rating of a digital input of the 3.3 V class, or else the 1.8 V class, with its own supply at `v`, or absent (R443). -/
def inputRating (is33 : Bool) : Option Int → Span
  | some v => ⟨some (-3000), some (v + 3000)⟩
  | none => ⟨some (-3000), some (if is33 then 39000 else 21000)⟩

/-- The rating of the analogue inputs AIN, TH, LC_ISNS, LC_DSNS, AXx_ISA and AXx_ISB (R443). -/
def analogRating : Span := ⟨some (-5000), some 36000⟩

/-- The current in milliamperes that may be injected into an analogue input (R443). -/
def analogInjected : Nat := 5

/-- The rating of the junction in degrees (R443). -/
def junctionRating : Span := ⟨none, some 125⟩

/-- The range of temperature in degrees for storage (R443). -/
def storageRange : Span := ⟨some (-55), some 150⟩

/-- The electrostatic discharge that the pins stand, in volts: human body and charged device (R443). -/
def esdRating : Nat × Nat := (2000, 250)

/-- The peak of a reflow in degrees, and how often (R443). -/
def reflowPeak : Nat × Nat := (250, 3)

/-- The operating range of a supply; that of VDD_CORE is 2 % about the target of AVS, `avs` (R444). -/
def Supply.operating (avs : Int) : Supply → Span
  | .vbat => ⟨some 16000, some 36000⟩
  | .stby | .io33 => ⟨some 31350, some 34650⟩
  | .io18 | .ana => ⟨some 17100, some 18900⟩
  | .core => ⟨some (avs * 98 / 100), some (avs * 102 / 100)⟩
  | .sram => ⟨some 7760, some 8240⟩
  | .ser => ⟨some 8730, some 9270⟩
  | .serh => ⟨some 11640, some 12360⟩
  | .ddq => ⟨some 10670, some 11660⟩

/-- The step of the load of VDD_CORE that its regulator stands, in amperes in a microsecond (R444). -/
def coreLoadStep : Nat := 20

/-- The range of VREFX, and the current in milliamperes that it sources (R444). -/
def vrefx : Span × Nat := (⟨some 24975, some 25025⟩, 2)

/-- The range of OSC_IN in hertz: 25 MHz within 50 ppm (R444). -/
def oscillator : Span := ⟨some 24998750, some 25001250⟩

/-- The swing of CLKREF, peak to peak (R444). -/
def clkrefSwing : Span := ⟨some 5000, some 33000⟩

/-- Whether the supplies lie within their operating ranges (R444). -/
def suppliesOk (avs : Int) (v : Supply → Int) : Bool :=
  [Supply.vbat, .stby, .io33, .io18, .ana, .core, .sram, .ser, .serh, .ddq].all fun p => (p.operating avs).has (v p)

/-! ## Power (R445) -/

/-- The board power in milliwatts in SERVICE, READY and RUN, and the current of VDD_CORE in amperes (R445). -/
structure BoardPower where
  /-- SERVICE. -/
  service : Nat
  /-- READY. -/
  ready : Nat
  /-- RUN. -/
  run : Nat
  /-- The greatest current of VDD_CORE. -/
  amps : Nat
  deriving DecidableEq, Repr

/-- The power of a part (R445). -/
def Part.power : Part → BoardPower
  | .bf9204 => ⟨6500, 9000, 14000, 16⟩
  | .bf9214 => ⟨7000, 10000, 16000, 19⟩
  | .bf9208 => ⟨8000, 11500, 18000, 22⟩
  | .bf9218 => ⟨8500, 13000, 21000, 26⟩
  | .bf9212 => ⟨9500, 14500, 23000, 29⟩
  | .bf9222 => ⟨10000, 16000, 26000, 33⟩
  | .bf9616 => ⟨15000, 22000, 34000, 42⟩
  | .bf9624 => ⟨19000, 28000, 44000, 54⟩
  | .bf9632 => ⟨23000, 34000, 54000, 66⟩
  | .bf9624h => ⟨20000, 30000, 47000, 57⟩
  | .bf9632h => ⟨24000, 36000, 58000, 70⟩
  | .bf9632x => ⟨26000, 39000, 62000, 75⟩

/-! ## Levels (R446) -/

/-- The digital pin classes. -/
inductive PinClass where
  /-- Pins of VDD_IO33 and VDD_STBY. -/
  | io33
  /-- Pins of VDD_IO18. -/
  | io18
  /-- PMB_SCL, PMB_SDA, PMB_ALERT_N and ALERT_N. -/
  | openDrain
  deriving DecidableEq, Repr

/-- The greatest low input and the least high input of a class (R446). -/
def PinClass.input : PinClass → Int × Int
  | .io33 | .openDrain => (8000, 20000)
  | .io18 => (6300, 11700)

/-- What an input reads at a voltage: a level, or nothing stated between the two thresholds (R446). -/
def PinClass.reads (c : PinClass) (v : Int) : Option Bool :=
  if v ≤ c.input.1 then some false else if c.input.2 ≤ v then some true else none

/-- The greatest low output and the least high output of a class, which an open drain leaves to the board (R446). -/
def PinClass.output : PinClass → Int × Option Int
  | .io33 => (4000, some 24000)
  | .io18 => (3000, some 14000)
  | .openDrain => (4000, none)

/-- The current in milliamperes at which a class keeps its output levels (R446). -/
def PinClass.drive : PinClass → Nat
  | .io33 => 8
  | .io18 => 6
  | .openDrain => 4

/-- The hysteresis of the Schmitt inputs of the 3.3 V class (R446). -/
def schmitt : Nat := 2000

/-- The inputs that have it (R446). -/
def schmittPins : List String :=
  ["ILK", "PRESENT_N", "WAKE_N", "RESET_N", "AXx_SW", "AXx_ENA", "AXx_ENB", "AXx_IDX", "LSYNC"]

/-- The code of a sense input at a voltage, given its full scale and its greatest code (R446): the axis sense inputs reach code
4,095 at 500 mV. -/
def senseCode (full top : Nat) (v : Nat) : Nat := min top (v * top / full)

/-- The full scale of AXx_ISA and AXx_ISB (R446). -/
def axisSense : Nat × Nat := (5000, 4095)

/-- The full scale of LC_ISNS (R358, R446). -/
def lampSense : Nat := 1000

/-- The bias currents of TD_P and TD_N in microamperes, and the greatest series resistance in ohms (R446). -/
def diodeBias : List Nat × Nat := ([10, 40, 160], 100)

/-- Whether the seal loop reads closed or open at a resistance in ohms: nothing stated between (R420, R446). -/
def sealLoop (ohms : Nat) : Option Bool :=
  if ohms ≤ 1000 then some true else if 10000 < ohms then some false else none

/-! ## Timing (R447, R448) -/

/-- The limits of R447 and R448. -/
inductive Limit where
  /-- EMIT_EN: change after the boundary. -/
  | emitChange
  /-- EMIT_EN: skew between two pins. -/
  | emitSkew
  /-- EMIT_EN inactive after an interlock falls. -/
  | emitDrop
  /-- STCH_MARK and TIME_OUT: edge after its TCLK. -/
  | markEdge
  /-- LSYNC: pulse width. -/
  | lsyncWidth
  /-- SPT_PULSE: high or low time. -/
  | pulseWidth
  /-- Encoder inputs: time between two edges. -/
  | encoderEdges
  /-- The chopper's period (R246). -/
  | chopPeriod
  /-- The bridges: delay from AXCLK. -/
  | bridgeDelay
  /-- LCK: the period. -/
  | lampClock
  /-- LDO valid before the rising edge of LCK, and after it. -/
  | lampData
  /-- SCK in quad mode: the period. -/
  | spiQuad
  /-- SCK in single-bit mode: the period. -/
  | spiSingle
  /-- TCK: the period. -/
  | jtag
  /-- RESET_N: low time. -/
  | resetLow
  /-- PRESENT_N: qualified low time (R417). -/
  | presentLow
  /-- Board delay from HARN_BEAT_OUT to the peer's HARN_BEAT_IN. -/
  | beatDelay
  deriving DecidableEq, Repr

/-- The range of each limit in picoseconds (R447, R448). -/
def Limit.span : Limit → Span
  | .emitChange => ⟨some 2000, some 5000⟩
  | .emitSkew => ⟨none, some 1000⟩
  | .emitDrop => ⟨none, some 1000000⟩
  | .markEdge => ⟨some 2000, some 4000⟩
  | .lsyncWidth => ⟨some 20000, none⟩
  | .pulseWidth => ⟨some 40000, none⟩
  | .encoderEdges => ⟨some 40000, none⟩
  | .chopPeriod => ⟨some 200000, some 2000000⟩
  | .bridgeDelay => ⟨none, some 5000⟩
  | .lampClock => ⟨some 25000, none⟩
  | .lampData => ⟨some 8000, none⟩
  | .spiQuad => ⟨some 10000, none⟩
  | .spiSingle => ⟨some 40000, none⟩
  | .jtag => ⟨some 40000, none⟩
  | .resetLow => ⟨some 1000000, none⟩
  | .presentLow => ⟨some 20000000000, none⟩
  | .beatDelay => ⟨none, some 20000⟩

/-- Whether LCK_DIV keeps LCK within its rating (R447). -/
def State.lampClockOk (s : State) : Bool := decide (3 ≤ s.fld F.LAMP_CHAIN_LCK_DIV)

/-! ## Packages (R449, R450) -/

/-- The thermal resistance of a package, junction to case and junction to board (R449). -/
def Package.thermal : Package → Nat × Nat
  | .fc2704 => (7, 160)
  | .fc1521 => (5, 210)

/-- The load in newtons that a heat sink may put on a package (R449). -/
def Package.load : Package → Nat
  | .fc2704 => 450
  | .fc1521 => 150

/-- The junction temperatures, in hundredths of a degree, that a part is specified for (R2). -/
def Part.junctionRange : Part → Span
  | .bf9632x => ⟨some (-4000), some 10500⟩
  | _ => ⟨some 0, some 10000⟩

/-- The temperature of the junction, in hundredths of a degree, of a part that takes `mw` milliwatts with the top of its case at
`top` (R449). -/
def Part.junction (p : Part) (top : Int) (mw : Nat) : Int := top + (mw * p.pack.thermal.1 / 1000 : Nat)

/-- Whether a board's cooling holds a part's junction within R2 at the power of R445 (R449). -/
def Part.cooled (p : Part) (top : Int) : Bool := p.junctionRange.has (p.junction top p.power.run)

/-- The dimensions of a package (R450). -/
structure Outline where
  /-- The side of the body, and its tolerance. -/
  body : Nat × Nat
  /-- The top: the lid, or the die. -/
  top : Nat × Nat
  /-- The seated height, and its tolerance. -/
  height : Nat × Nat
  /-- The ball pitch. -/
  pitch : Nat
  /-- The diameter of a ball before reflow. -/
  ball : Nat
  /-- The span of the array, ball centre to ball centre. -/
  array : Nat
  /-- The coplanarity. -/
  coplanarity : Nat
  deriving DecidableEq, Repr

/-- The outline of a package (R450). -/
def Package.outline : Package → Outline
  | .fc2704 => ⟨(5500, 10), (5200, 5200), (355, 25), 100, 60, 5100, 20⟩
  | .fc1521 => ⟨(4250, 10), (2600, 2400), (285, 20), 100, 60, 3800, 20⟩

end Sys2Proof.Machine
end

