-- ==== Sys2Proof/Machine/Head.lean ====
section
/-! DEFINITION. What a Latigo head does at a boundary with the SETPOINT block that reached it or did not (R315), as far as the
device relies on it. A head is outside the block: what it reports comes in as STATUS_FLIT, and nothing here reads or changes the
state. -/

namespace Sys2Proof.Machine

/-- What a head applies in a Stitch, and what it reports of it. -/
structure Head where
  /-- X of the last block applied. -/
  x : Int
  /-- Y of the last block applied. -/
  y : Int
  /-- Z of the last block applied. -/
  z : Int
  /-- Power commanded; 0 throughout a Stitch whose block was missed. -/
  power : Nat
  /-- Gate level at the boundary. -/
  gate : Bool
  /-- The gate's changes within the Stitch. -/
  edges : Option Nat × Option Nat
  /-- MISSED of this Stitch. -/
  missed : Bool
  /-- Missed boundaries in succession. -/
  run : Nat
  /-- SAFE: held until the head is aligned again. -/
  safe : Bool
  deriving DecidableEq, Repr

/-- The head holds X, Y and Z, with the gate off and power 0. -/
def Head.hold (h : Head) : Head := { h with power := 0, gate := false, edges := (none, none) }

/-- Boundary B: the block of the SETPOINT flit tagged B if it came intact and in time, and MISS_LIMIT as CONTROL gave it
(R315). -/
def Head.boundary (h : Head) (missLimit : Nat) (block : Option Block) : Head :=
  match block with
  | none =>
    { h.hold with missed := true, run := h.run + 1, safe := h.safe || (missLimit != 0 && decide (missLimit ≤ h.run + 1)) }
  | some b =>
    if h.safe then { h.hold with missed := false, run := 0 }
    else { x := b.x, y := b.y, z := b.z, power := b.power, gate := b.gate0, edges := (b.e0, b.e1), missed := false, run := 0,
           safe := false }

/-- Alignment ends SAFE (R315). -/
def Head.aligned (h : Head) : Head := { h with run := 0, safe := false }

end Sys2Proof.Machine
end

