-- ==== Sys2Proof/Tests/Slice0.lean ====
section
/-! SUPPORT. The model's own tests: what WellFormed refuses, what some words of the table and some single steps give, and for
every statement that has hypotheses, states and operands that meet them (theorem wit_<statement>). The states are small and
built by the helpers of each part. -/

set_option Elab.async false

open Sys2Proof Sys2Proof.Machine

namespace Sys2Proof.Tests
open Sys2Proof.Machine

/-- A word by its opcode and fields (R47), guard 0. -/
def ins (op rd ra rb fn : Nat) : Word := w32 (op * 2 ^ 22 + rd * 2 ^ 17 + ra * 2 ^ 12 + rb * 2 ^ 7 + fn)

/-- After the boot. -/
def up : State := State.reset.setFld F.PWR_STATE_BOOT_DONE 1

/-- The slot of the tests. -/
def slot0 : Slot := ⟨0, 0, 1600⟩

/-- A context with general registers. -/
def cx (g : Sparse Word) : Ctx := { Ctx.atReset with g := g, trapvec := 0x40, entry := 0x20 }

/-- Context 0 of TC32 runs at the word `w`. -/
def onCore (w : Word) (x : Ctx) : State :=
  (((up.setCore 32 { Core.idle with table := [slot0], cur := some 0, cyc := 10, imem := [(0, PWord.clean w)] }).setCtx 32 0 x).setFld
    (F.TC_CTX_STATE_STATE 32 0) ctxRunning)

/-- A live queue of eight words. -/
def q8 : Stream := { Stream.never with gen := 1, live := true, size := 8, pages := [0] }

/-- A live buffer of 64 bytes. -/
def b64 : Stream := { Stream.never with gen := 1, live := true, size := 64, pages := [1] }

/-- With queue 5 (handle 0x01000005) and buffer 7 (handle 0x01002007). -/
def withStreams (s : State) (q : Stream) : State := (s.setStream 5 q).setStream 4103 b64

/-- With the words of local data memory. -/
def withData (s : State) (d : Sparse PWord) : State := s.setCore 32 { s.core 32 with dmem := d }

/-- The state with a field set. -/
def sf (s : State) (f : Fld) (v : Nat) : State := s.setFld f v

/-- The state with a register set. -/
def sr (s : State) (a : Nat) (w : Word) : State := s.setReg a w

/-- The words of an image in DRAM. -/
def mem (s : State) (off : Nat) (ws : List Word) : State := s.setBytes off (bytesOfWords ws)

/-- With channel 0 ready. -/
def dm (s : State) : State := sf (sf s (F.DMC_STATUS_STATE 0) 2) (F.DMC_CFG_RANKS 0) 1

/-- With a job in a state. -/
def js (n : Nat) : State := { (sf up F.TREE_JOB_STATUS_STATE n) with stitch := 100 }

/-- With the queue's handle in a register. -/
def evq (s : State) (a : Nat) : State := sr (withStreams s q8) a 0x01000005

/-- With the security block changed. -/
def se (f : Sec → Sec) (s : State) : State := { s with sec := f s.sec }

/-- With the harness changed. -/
def ha (f : Harn → Harn) (s : State) : State := { s with harn := f s.harn }

/-- A guarded request. -/
def rq : Guarded := ⟨1, R.REIN_CEILING 0, 5, 100⟩

/-- With a guarded request that waits. -/
def pend (s : State) : State := se (fun x => { x with request := some rq }) (sf s F.SEC_GUARD_PENDING 1)

/-- A harness in a state. -/
def hs (n : Nat) : State := sf (sf { up with stitch := 100 } F.HARN_CFG_ENABLE 1) F.HARN_STATUS_STATE n

/-- With a granted request. -/
def gr (op a : Nat) (v : Word) : State :=
  evq (se (fun x => { x with granted := some ⟨op, a, v, 100⟩ }) (sf { up with stitch := 9 } F.SEC_GUARD_PENDING 1)) R.SEC_EVQ

/-- An image's header. -/
def hdr (v : Nat) (b : Bool) : ImageHdr := ⟨0xB9B01A6E, 1000, 3, v, b⟩

/-- An instruction issues: its conditions in one. -/
theorem issues_iff {s : State} {core c : Nat} {o : Adt} {w : Word} {sl : Slot} : s.Issues core c o w sl ↔
    s.coresRun core = true ∧ s.runningSlot core = some sl ∧ sl.ctx = c ∧
    inPartition (s.ctx core c).iFirst (s.ctx core c).iLast (s.ctx core c).pc.toNat = true ∧
    (sget (PWord.clean 0) (s.core core).imem ((s.ctx core c).pc.toNat / 4)).val = w ∧
    (sget (PWord.clean 0) (s.core core).imem ((s.ctx core c).pc.toNat / 4)).err = .clean ∧ adtOf w = some o ∧
    (s.ctx core c).guardPasses w = true ∧ s.readyAt core c o w ≤ (s.core core).cyc ∧ (s.core core).cyc + o.cost ≤ sl.stop ∧
    ∀ e ∈ s.dueList core, (((s.core core).cyc + o.cost : Nat) : Int) < e.1 :=
  ⟨fun ⟨a, b, c, d, e, f, g, h, i, j, k⟩ => ⟨a, b, c, d, e, f, g, h, i, j, k⟩,
   fun ⟨a, b, c, d, e, f, g, h, i, j, k⟩ => ⟨a, b, c, d, e, f, g, h, i, j, k⟩⟩

/-- A packet goes whole into a queue: its conditions in one. -/
theorem takes_iff {s : State} {req : Nat} {h : Word} {n key : Nat} : s.Takes req h n key ↔
    s.namedQueue h = some key ∧ s.hasRoom h n = true ∧ (s.stream key).spill = false ∧
    findOpen (deviceProducer req) (s.stream key).opens = none ∧ deviceProducer req ∉ (s.stream key).cut ∧
    s.namedQueue (s.reg R.SB_EVQ) ≠ some key :=
  ⟨fun ⟨a, b, c, d, e, f⟩ => ⟨a, b, c, d, e, f⟩, fun ⟨a, b, c, d, e, f⟩ => ⟨a, b, c, d, e, f⟩⟩

/-- Nothing is no value. -/
theorem none_ne {α : Type} {o : Option α} {x : α} (h : o = none) (e : o = some x) : False := by rw [h] at e; cases e

/-- What holds of the default and of every listed value of a table holds of what any key reads. -/
theorem sget_all {α : Type} {d : α} {P : α → Prop} : ∀ (l : Sparse α), (∀ e ∈ l, P e.2) → P d → ∀ k, P (sget d l k)
  | [], _, hd, _ => hd
  | (k', v) :: l, h, hd, k => by
    unfold sget; split
    · exact h _ (List.mem_cons_self ..)
    · exact sget_all l (fun e he => h e (List.mem_cons_of_mem _ he)) hd k

/-- Unequal to what equals another. -/
theorem ne_by {α : Type} {a b c : α} (h : a = b) (n : b ≠ c) : a ≠ c := h ▸ n

/-! ## What is ill formed -/

/-- An operand out of its range, for each range that WellFormed checks. -/
theorem test_wf_refuses : ∀ i ∈ ([.add 40, .readClear (.core 40 0) 0, .readClear (.core 0 16) 0, .bpwComplete 0 16,
    .contextSlotStart 0 16, .load .host 40 0, .swap .host 0 16 0, .holdExpired 7, .earlyInput 40, .unitStart 32,
    .powerCeiling .host 32 0, .traceArm .host 0 4 0, .imgSlotEnable .host 8 0, .camCommit 0 4, .statsPacket 0 5, .move 16,
    .limitHit 0 3, .aperBind .host 16 0, .dramEnable .host 2 0, .dramWrite 0 0 0 (List.replicate 17 0) false ⟨false, []⟩,
    .isoLate 0 8, .msixUnmask 256, .ethTxPacket 2, .domUnlock 2, .actionPin 1024, .segmentEnable .host 2 0,
    .nodeEnable .host 0 32 0, .noise 0 .badFcs 33, .lampMeasurement 48 0 0 0, .lampMeasurement 0 16 0 0, .diagStarved 48,
    .groupAbsent 3, .brownOut ⟨1, 0⟩ false, .brownOut ⟨10, 0⟩ false, .sensorSample 28 0 ⟨0, 0⟩, .forwardFlit (.bar2 16 0) ⟨[], false⟩,
    .forwardFlit (.bar4 2 0) ⟨[], false⟩, .bandChanged 5,
    .stepOn 8, .ilkReleased 2, .digestSend 4, .repeatEntryExpiry 64] : List Instr), i.wf = false := by decide

/-- The last of each range is well formed. -/
theorem test_wf_takes : ∀ i ∈ ([.add 39, .readClear (.core 39 15) 0, .bpwComplete 39 15, .contextSlotStart 39 15, .holdExpired 6,
    .earlyInput 39, .unitStart 31, .traceArm .host 31 3 0, .imgSlotEnable .host 7 0, .camCommit 7 3, .statsPacket 7 4, .move 15,
    .limitHit 15 2, .aperBind .host 15 0, .dramEnable .host 1 0, .isoLate 1 7, .msixUnmask 255, .ethTxPacket 1, .domUnlock 1,
    .actionPin 1023, .segmentEnable .host 1 0, .nodeEnable .host 1 31 0, .noise 1 .badFcs 32, .lampMeasurement 47 15 0 0,
    .groupAbsent 2, .brownOut ⟨2, 0⟩ false, .brownOut ⟨9, 0⟩ false, .sensorSample 27 0 ⟨2000, 0⟩,
    .forwardFlit (.bar2 15 0) ⟨[], false⟩, .forwardFlit (.bar4 1 0) ⟨[], false⟩, .bandChanged 4, .stepOn 7, .ilkReleased 1,
    .digestSend 3, .repeatEntryExpiry 63] : List Instr), i.wf = true := by decide

/-! ## Words and single steps -/

/-- The instructions of the spec's worked examples (R50 to R54). -/
theorem test_adtuak_words : adtOf 0x02C22000 = some .li ∧ adtOf 0x06162200 = some .lds ∧ adtOf 0x00803304 = some .cmpltu ∧
    adtOf 0x804A578C = some .adds ∧ adtOf 0xD8000009 = some .b ∧ adtOf 0x075C9002 = some .qpsh ∧
    adtOf 0x09000001 = some .waitstitch ∧ adtOf 0 = none := by decide

/-- The table of commands gives none of its rows any bits. -/
theorem test_no_table_word : decodeTableWord 32 0x02C22000 = none := by decide

/-- What an outcome leaves, where it is a next state. -/
def left (o : Host.Outcome State Fault Refusal) : State :=
  match o with
  | .next t => t
  | _ => up

/-- A sum wraps (R51). -/
theorem test_add_wraps : ((left (exec (.add 32) (onCore (ins 1 3 1 2 0) (cx [(1, 0xFFFFFFFF), (2, 3)])))).ctx 32 0).rd 3 = 2 := by
  decide +kernel

/-- A saturating sum stops at the largest number (R51). -/
theorem test_adds_saturates :
    ((left (exec (.adds 32) (onCore (ins 1 3 1 2 0xC) (cx [(1, 0x7FFFFFFF), (2, 3)])))).ctx 32 0).rd 3 = 0x7FFFFFFF := by
  decide +kernel

/-- The quotient of a negative number by zero (R57). -/
theorem test_div_by_zero :
    ((left (exec (.div 32) (onCore (ins 1 3 1 2 0x15) (cx [(1, 0xFFFFFFFF)])))).ctx 32 0).rd 3 = 0x80000000 := by decide +kernel

/-- Nothing changes g0. -/
theorem test_g0 : ((left (exec (.addi 32) (onCore (ins 3 0 1 0 5) (cx [(1, 4)])))).ctx 32 0).rd 0 = 0 := by decide +kernel

/-- A register of an Awl that the part lacks reads 0xDEAD0000 (R4). -/
theorem test_absent_reads :
    (left (exec (.absentUnitAccess .host (w32 (R.AWL_ACC 31)) none) { up with part := .bf9204 })).readData = 0xDEAD0000 := by
  decide +kernel

/-- STCH_HOLD_LIMIT takes its 16 bits (R40). -/
theorem test_register_write :
    (left (exec (.registerWrite .host (w32 R.STCH_HOLD_LIMIT) 0x1234ABCD) up)).reg R.STCH_HOLD_LIMIT = 0xABCD := by decide +kernel

/-- A command waiting at the front is carried out; with none the block idles. -/
theorem test_step : (left (step { up with pending := [.lateInput, .arm] })).pending = [.arm] ∧ left (step State.reset) = State.reset := by
  decide +kernel

/-! ## Hypotheses that can be met -/

/-- A command waits behind another. -/
def queued : State := { up with pending := [.lateInput, .arm] }

/-- The hypotheses of StepRunsTheFront can be met. -/
theorem wit_StepRunsTheFront : (∃ (s : State) (c : Instr) (q : List Instr), s.pending = c :: q) ∧ ∃ s : State, s.pending = [] :=
  ⟨⟨queued, .lateInput, [.arm], rfl⟩, State.reset, rfl⟩

/-- The hypotheses of StepKeepsCanonicalForm can be met. -/
theorem wit_StepKeepsCanonicalForm : ∃ s t : State, s.Canon ∧ step s = .next t :=
  ⟨queued, left (step queued), by constructor <;> decide +kernel, rfl⟩

/-- With every context as at reset, all are legal. -/
theorem legal_of {s : State} (h : s.ctxs = []) : s.ContextsLegal := fun core c => by
  have e : s.ctx core c = Ctx.atReset := by unfold State.ctx; rw [h]; unfold sget; rfl
  rw [e]; exact ⟨rfl, rfl, rfl, nofun, by decide +kernel, by decide +kernel, nofun, rfl⟩

/-- The hypotheses of StepKeepsContextsLegal can be met. -/
theorem wit_StepKeepsContextsLegal : ∃ s t : State, s.ContextsLegal ∧ step s = .next t :=
  ⟨queued, left (step queued), legal_of (by decide +kernel), rfl⟩

/-- The hypotheses of LateAndEarlyInputs can be met. -/
theorem wit_LateAndEarlyInputs : ∃ (s : State) (k : Nat), (left (exec (.earlyInput k) s)).laneState k = laneReady :=
  ⟨sf up (F.LANE_STATUS_STATE 39) laneReady, 39, by decide +kernel⟩

namespace AbsentAndHolesMet

def s1 : State := { up with part := .bf9204 }

def s6 : State := ((up.setReg R.STCH_HOLD_LIMIT 77).setReg R.STCH_LATE_CNT 9).setReg R.TREE_SLOT_SERVICE 3

def s9 : State := { up with stitch := 41, tclk := 9999 }

def s10 : State := (up.setCtx 32 0 {cx [] with wcet := 900})

def s11 : State := ((up.setCtx 32 0 {cx [] with wcet := 900}).setFld F.STCH_STATUS_PENDING 1)

def s12 : State := (up.setReg R.STCH_HOLD 5).setReg R.STCH_HOLD_LIMIT 0

def s14 : State := { ((((up.setCore 32 { Core.idle with table := [⟨2,0,100⟩,⟨3,100,400⟩], cyc := 7 }).setCtx 32 3 {cx [(3,4)] with due := 5})).setFld (F.TC_CTX_STATE_STATE 32 3) 0).setFld (F.TC_CTX_STATE_STATE 32 2) 0 with stitch := 4 }

def s18 : State := { ((((up.setCore 32 { Core.idle with table := [⟨2,0,100⟩,⟨3,100,400⟩], cyc := 7 }).setCtx 32 3 {cx [(3,4)] with due := 5})).setFld (F.TC_CTX_STATE_STATE 32 3) 1).setFld (F.TC_CTX_STATE_STATE 32 2) 1 with stitch := 4 }

def s30 : State := let s := (((((up.setCore 32 { Core.idle with table := [⟨2,0,100⟩,⟨3,100,400⟩], cyc := 7 }).setCtx 32 3 {cx [(3,4)] with due := 5})).setFld (F.TC_CTX_STATE_STATE 32 3) 2).setFld (F.TC_CTX_CTRL_OVR_POLICY 32 3) 0).setFld (F.TC_CTX_STATE_OVERRUNS 32 3) 0; s.setCore 32 { s.core 32 with cur := some 1, lds := [⟨900, 3, 4, 5, 6, true⟩] }

def s32 : State := let s := (((((up.setCore 32 { Core.idle with table := [⟨2,0,100⟩,⟨3,100,400⟩], cyc := 7 }).setCtx 32 3 {cx [(3,4)] with due := 5})).setFld (F.TC_CTX_STATE_STATE 32 3) 2).setFld (F.TC_CTX_CTRL_OVR_POLICY 32 3) 1).setFld (F.TC_CTX_STATE_OVERRUNS 32 3) 0; s.setCore 32 { s.core 32 with cur := some 1, lds := [⟨900, 3, 4, 5, 6, true⟩] }

def s36 : State := up.setCtx 32 3 {cx [(3,4)] with watch := some 0}

def s37 : State := { up with wdog := ⟨0xF4240, true, false⟩ }

def s38 : State := { up.setFld F.SYS_WDOG_CTRL_ENABLE 1 with wdog := ⟨0xF4240, false, false⟩ }

def s40 : State := (((up).setFld (F.TC_TABLE_CTRL_COMMIT 32) 1).setCtx 32 1 {cx [] with wcet := 100})

def s42 : State := (((((((up).setReg (R.TC_SLOT 32 0) 2147484648)).setReg (R.TC_SLOT 32 1) 2147549785)).setFld (F.TC_TABLE_CTRL_COMMIT 32) 1).setCtx 32 1 {cx [] with wcet := 100})

def s43 : State := (((((((up).setReg (R.TC_SLOT 32 0) 2147484648)).setReg (R.TC_SLOT 32 2) 2147483658)).setFld (F.TC_TABLE_CTRL_COMMIT 32) 1).setCtx 32 1 {cx [] with wcet := 100})

def s44 : State := (((((((up).setReg (R.TC_SLOT 32 0) 2147484448)).setReg (R.TC_SLOT 32 3) 2147549283)).setFld (F.TC_TABLE_CTRL_COMMIT 32) 1).setCtx 32 1 {cx [] with wcet := 100})

def s47 : State := (((withStreams up q8).setReg (R.TC_LOAD_SRC 32) 0x01002007)).setReg (R.TC_LOAD_OFS 32) 0

def s140 : State := ((((((up.setFld (F.TC_CTX_STATE_STATE 32 3) 0).setFld (F.TC_CTX_CTRL_SWAP 32 3) 1).setFld (F.TC_CTX_CTRL_RESTART 32 3) 0).setFld (F.TC_CTX_CTRL_HALT 32 3) 0).setReg (R.TC_CTX_PART 32 3) 0).setReg (R.TC_CTX_ENTRY 32 3) 0x00500000).setCtx 32 3 {cx [(1,2)] with policyDue := 0, calls := [4]}

def s141 : State := ((((((up.setFld (F.TC_CTX_STATE_STATE 32 3) 0).setFld (F.TC_CTX_CTRL_SWAP 32 3) 1).setFld (F.TC_CTX_CTRL_RESTART 32 3) 0).setFld (F.TC_CTX_CTRL_HALT 32 3) 0).setReg (R.TC_CTX_PART 32 3) 4294967295).setReg (R.TC_CTX_ENTRY 32 3) 0x00500000).setCtx 32 3 {cx [(1,2)] with policyDue := 0, calls := [4]}

def s160 : State := ((((((up.setFld (F.TC_CTX_STATE_STATE 32 3) 1).setFld (F.TC_CTX_CTRL_SWAP 32 3) 0).setFld (F.TC_CTX_CTRL_RESTART 32 3) 1).setFld (F.TC_CTX_CTRL_HALT 32 3) 0).setReg (R.TC_CTX_PART 32 3) 0).setReg (R.TC_CTX_ENTRY 32 3) 0x00500000).setCtx 32 3 {cx [(1,2)] with policyDue := 0, calls := [4]}

def s176 : State := ((((((up.setFld (F.TC_CTX_STATE_STATE 32 3) 1).setFld (F.TC_CTX_CTRL_SWAP 32 3) 0).setFld (F.TC_CTX_CTRL_RESTART 32 3) 0).setFld (F.TC_CTX_CTRL_HALT 32 3) 1).setReg (R.TC_CTX_PART 32 3) 0).setReg (R.TC_CTX_ENTRY 32 3) 0x00500000).setCtx 32 3 {cx [(1,2)] with policyDue := 0, calls := [4]}

/-- The hypotheses of AbsentAndHoles can be met. -/
theorem wit_AbsentAndHoles :
    (∃ (s : State) (src : Source) (addr : Word) (off : BitVec 64) (wr : Option Word),
      s.coreUp = true ∧
      (src = Source.host → s.mapped (BitVec.toNat addr) = true) ∧
      s.unitThere (BitVec.toNat addr) = false ∧
      s.flag F.SYS_ACC_INFO_VALID = false ∧
      s.bar0Dead src off.toNat = true ∧
      wr = none) :=
  ⟨s1, Source.host, w32 (R.AWL_CTRL 20), (0x00000F00 : BitVec 64), (none : Option Word), by decide +kernel⟩

/-- The hypotheses of BoundaryCounts can be met. -/
theorem wit_BoundaryCounts :
    (∃ (s : State),
      s.coreUp = true ∧
      List.filter isPwrCmd s.endOfStitch.cmds = []) :=
  ⟨s9, by decide +kernel⟩

/-- The hypotheses of PeriodWriteIsChecked can be met. -/
theorem wit_PeriodWriteIsChecked :
    (∃ (s : State) (src : Source) (v : Word),
      s.Reaches src R.STCH_PERIOD ∧
      getBits v 10 0 ≠ 0 ∧
      s.fld F.STCH_STATUS_PERIOD_MIN ≤ getBits v 10 0 ∧
      getBits v 10 0 ≤ 1280 ∧
      (¬(((List.range s.part.row.lasers).any fun k => s.strokeRuns k) = true ∨ ((List.range s.part.row.axes).any fun x => ((s.axis x).running s.axNow).isSome) = true ∨ s.periodPending = true)) ∧
      ((List.range 40).any fun k => s.part.hasCore k && decide (5 * getBits v 10 0 < s.tableWorst k)) = true) ∧
    (∃ (s : State) (src : Source) (v : Word),
      s.Reaches src R.STCH_PERIOD ∧
      getBits v 10 0 = 0) ∧
    (∃ (s : State) (src : Source) (v : Word),
      s.Reaches src R.STCH_PERIOD ∧
      getBits v 10 0 ≠ 0 ∧
      (getBits v 10 0 < s.fld F.STCH_STATUS_PERIOD_MIN ∨ 1280 < getBits v 10 0)) ∧
    (∃ (s : State) (src : Source) (v : Word),
      s.Reaches src R.STCH_PERIOD ∧
      getBits v 10 0 ≠ 0 ∧
      s.fld F.STCH_STATUS_PERIOD_MIN ≤ getBits v 10 0 ∧
      getBits v 10 0 ≤ 1280 ∧
      (¬(((List.range s.part.row.lasers).any fun k => s.strokeRuns k) = true ∨ ((List.range s.part.row.axes).any fun x => ((s.axis x).running s.axNow).isSome) = true ∨ s.periodPending = true)) ∧
      ¬((List.range 40).any fun k => s.part.hasCore k && decide (5 * getBits v 10 0 < s.tableWorst k)) = true) ∧
    (∃ (s : State) (src : Source) (v : Word),
      s.Reaches src R.STCH_PERIOD ∧
      getBits v 10 0 ≠ 0 ∧
      s.fld F.STCH_STATUS_PERIOD_MIN ≤ getBits v 10 0 ∧
      getBits v 10 0 ≤ 1280 ∧
      (((List.range s.part.row.lasers).any fun k => s.strokeRuns k) = true ∨ ((List.range s.part.row.axes).any fun x => ((s.axis x).running s.axNow).isSome) = true ∨ s.periodPending = true)) :=
  ⟨⟨s10, Source.host, (160 : Word), by unfold State.Reaches; decide +kernel, by decide +kernel⟩,
   ⟨s10, Source.host, (0 : Word), by unfold State.Reaches; decide +kernel, by decide +kernel⟩,
   ⟨s10, Source.host, (1 : Word), by unfold State.Reaches; decide +kernel, by decide +kernel⟩,
   ⟨s10, Source.host, (320 : Word), by unfold State.Reaches; decide +kernel, by decide +kernel⟩,
   ⟨s11, Source.host, (160 : Word), by unfold State.Reaches; decide +kernel, by decide +kernel⟩⟩

/-- The hypotheses of GroupHolds can be met. -/
theorem wit_GroupHolds :
    (∃ (s : State) (src : Source) (v : Word) (g : Nat),
      s.Reaches src R.STCH_HOLD ∧
      s.fld F.STCH_HOLD_LIMIT_STITCHES = 0 ∧
      (s.fld F.STCH_HOLD_LIMIT_STITCHES ≠ 0 ∨ v &&& 127 &&& ~~~s.reg R.STCH_HOLD = 0) ∧
      g < 7 ∧
      s.holdOn g = true ∧
      s.fld F.STCH_HOLD_LIMIT_STITCHES ≤ sget 0 s.holds g) ∧
    (∃ (s : State) (src : Source) (v : Word),
      s.Reaches src R.STCH_HOLD ∧
      s.fld F.STCH_HOLD_LIMIT_STITCHES = 0 ∧
      v &&& 127 &&& ~~~s.reg R.STCH_HOLD ≠ 0) :=
  ⟨⟨s12, Source.host, (0 : Word), (0:Nat), by unfold State.Reaches; decide +kernel, by decide +kernel⟩,
   ⟨s12, Source.host, (7 : Word), by unfold State.Reaches; decide +kernel, by decide +kernel⟩⟩

/-- The hypotheses of SlotsAndWatchdogs can be met. -/
theorem wit_SlotsAndWatchdogs :
    (∃ (s : State) (src : Source) (v : Word),
      s.Reaches src R.SYS_WDOG_CTRL ∧
      s.fld F.SYS_WDOG_CTRL_ENABLE = 1 ∧
      BitVec.truncate 16 v = 42405#16 ∧
      s.wdog.armed = false ∧
      BitVec.truncate 16 v ≠ 23130#16 ∧
      s.fld F.SYS_WDOG_CTRL_LIMIT ≤ s.wdog.count ∧
      s.wdog.warned = false ∧
      s.fld F.SYS_ACC_INFO_VALID = 0) ∧
    (∃ (s : State) (core : Nat) (i : Nat) (sl : Slot),
      core < 40 ∧
      sl.ctx < 16 ∧
      (s.core core).table[i]? = some sl ∧
      (s.coresRun core = true ∧ (s.core core).cur = none ∧ ∀ (e : Int × Due), e ∈ s.dueList core → ↑sl.start < e.fst) ∧
      (s.ctxState core sl.ctx ≠ 1 ∨ s.stitch < (s.ctx core sl.ctx).due) ∧
      s.runningSlot core = none) ∧
    (∃ (s : State) (src : Source) (v : Word),
      s.Reaches src R.SYS_WDOG_CTRL ∧
      s.fld F.SYS_WDOG_CTRL_ENABLE = 0 ∧
      BitVec.toNat v % 2 ^ 24 = 0 ∧
      BitVec.truncate 16 v ≠ 23130#16 ∧
      BitVec.truncate 16 v ≠ 42405#16) ∧
    (∃ (s : State) (src : Source) (v : Word),
      s.Reaches src R.SYS_WDOG_CTRL ∧
      s.fld F.SYS_WDOG_CTRL_ENABLE = 0 ∧
      BitVec.toNat v % 2 ^ 24 ≠ 0 ∧
      BitVec.truncate 16 v = 23130#16) ∧
    (∃ (s : State) (core : Nat) (i : Nat) (sl : Slot),
      core < 40 ∧
      sl.ctx < 16 ∧
      (s.core core).table[i]? = some sl ∧
      (s.coresRun core = true ∧ (s.core core).cur = none ∧ ∀ (e : Int × Due), e ∈ s.dueList core → ↑sl.start < e.fst) ∧
      s.ctxState core sl.ctx = 1 ∧
      (s.ctx core sl.ctx).due ≤ s.stitch) ∧
    (∃ (s : State) (core : Nat) (i : Nat) (sl : Slot),
      core < 40 ∧
      sl.ctx < 16 ∧
      (s.core core).table[i]? = some sl ∧
      s.runningSlot core = some sl ∧
      (∀ (e : Int × Due), e ∈ s.dueList core → ↑sl.stop ≤ e.fst) ∧
      s.fld (F.TC_CTX_CTRL_OVR_POLICY core sl.ctx) = 0) ∧
    (∃ (s : State) (core : Nat) (i : Nat) (sl : Slot),
      core < 40 ∧
      sl.ctx < 16 ∧
      (s.core core).table[i]? = some sl ∧
      s.runningSlot core = some sl ∧
      (∀ (e : Int × Due), e ∈ s.dueList core → ↑sl.stop ≤ e.fst) ∧
      (s.fld (F.TC_CTX_CTRL_OVR_POLICY core sl.ctx) = 1 ∨ s.fld (F.TC_CTX_CTRL_OVR_POLICY core sl.ctx) = 2)) ∧
    (∃ (s : State) (core : Nat) (i : Nat) (sl : Slot),
      core < 40 ∧
      sl.ctx < 16 ∧
      (s.core core).table[i]? = some sl ∧
      s.coresRun core = false) ∧
    (∃ (s : State) (core : Nat) (c : Nat),
      core < 40 ∧
      c < 16 ∧
      (s.ctx core c).watch = some 0) ∧
    (∃ (s : State) (v : Word),
      BitVec.truncate 16 v = 42405#16 ∧
      s.wdog.armed = true) :=
  ⟨⟨s38, Source.host, (42405:Word), by unfold State.Reaches; decide +kernel, by decide +kernel⟩,
   ⟨s14, (32:Nat), (0:Nat), (⟨2,0,100⟩ : Slot), by decide +kernel⟩,
   ⟨s37, Source.host, (0:Word), by unfold State.Reaches; decide +kernel, by decide +kernel⟩,
   ⟨s37, Source.host, (23130:Word), by unfold State.Reaches; decide +kernel, by decide +kernel⟩,
   ⟨s18, (32:Nat), (0:Nat), (⟨2,0,100⟩ : Slot), by decide +kernel⟩,
   ⟨s30, (32:Nat), (1:Nat), (⟨3,100,400⟩ : Slot), by decide +kernel⟩,
   ⟨s32, (32:Nat), (1:Nat), (⟨3,100,400⟩ : Slot), by decide +kernel⟩,
   ⟨sf s14 F.PWR_STATE_BOOT_DONE 0, (32:Nat), (0:Nat), (⟨2,0,100⟩ : Slot), by decide +kernel⟩,
   ⟨s36, (32:Nat), (3:Nat), by decide +kernel⟩,
   ⟨s37, (42405:Word), by decide +kernel⟩⟩

/-- The hypotheses of TablesAndLoading can be met. -/
theorem wit_TablesAndLoading :
    (∃ (s : State) (core : Nat),
      core < 40 ∧
      s.fld (F.TC_TABLE_CTRL_COMMIT core) = 1 ∧
      (List.map (fun e => e.snd) (s.stagedSlots core)).sum ≤ 5 * s.period ∧
      (List.map (fun e => e.fst) (s.stagedSlots core)).Nodup ∧
      (∀ (e : Nat × Nat), e ∈ s.stagedSlots core → s.wcetAfter core e.fst ≤ e.snd)) ∧
    (∃ (s : State) (core : Nat),
      core < 40 ∧
      s.fld (F.TC_TABLE_CTRL_COMMIT core) = 1 ∧
      ¬(List.map (fun e => e.snd) (s.stagedSlots core)).sum ≤ 5 * s.period ∧
      (¬((List.map (fun e => e.snd) (s.stagedSlots core)).sum ≤ 5 * s.period ∧ (List.map (fun e => e.fst) (s.stagedSlots core)).Nodup ∧ ∀ (e : Nat × Nat), e ∈ s.stagedSlots core → s.wcetAfter core e.fst ≤ e.snd))) ∧
    (∃ (s : State) (src : Source) (core : Nat),
      s.Reaches src (R.TC_LOAD_CMD core) ∧
      (∀ (key : Nat), s.namedBuffer (s.reg (R.TC_LOAD_SRC core)) = some key → ∀ (i : Nat), (s.wordIn key i).err = WordError.clean) ∧
      s.fld (F.TC_LOAD_CMD_START core) = 0) ∧
    (∃ (s : State) (src : Source) (core : Nat),
      s.Reaches src (R.TC_LOAD_CMD core) ∧
      s.fld (F.TC_LOAD_CMD_START core) = 1) ∧
    (∃ (s : State) (core : Nat) (j : LoadJob),
      core < 40 ∧
      (s.core core).load = some j) ∧
    (∃ (s : State) (core : Nat),
      core < 40 ∧
      s.fld (F.TC_TABLE_CTRL_COMMIT core) = 1 ∧
      (List.map (fun e => e.snd) (s.stagedSlots core)).sum ≤ 5 * s.period ∧
      ¬(List.map (fun e => e.fst) (s.stagedSlots core)).Nodup) ∧
    (∃ (s : State) (core : Nat),
      core < 40 ∧
      s.fld (F.TC_TABLE_CTRL_COMMIT core) = 1 ∧
      (List.map (fun e => e.snd) (s.stagedSlots core)).sum ≤ 5 * s.period ∧
      (List.map (fun e => e.fst) (s.stagedSlots core)).Nodup ∧
      (¬∀ (e : Nat × Nat), e ∈ s.stagedSlots core → s.wcetAfter core e.fst ≤ e.snd)) :=
  ⟨⟨s40, (32:Nat), by decide +kernel⟩,
   ⟨s42, (32:Nat), by decide +kernel⟩,
   ⟨s47, Source.host, (32:Nat), by unfold State.Reaches; decide +kernel, fun key h i => by
      have e : s47.namedBuffer (s47.reg (R.TC_LOAD_SRC 32)) = some 4103 := by decide +kernel
      cases e.symm.trans h
      exact sget_all (P := fun w : PWord => w.err = .clean) _ (by decide +kernel) rfl _, by decide +kernel⟩,
   ⟨up.setFld (F.TC_LOAD_CMD_START 39) 1, Source.core 3 2, (39:Nat), by unfold State.Reaches; decide +kernel, by decide +kernel⟩,
   ⟨up.setCore 39 { Core.idle with load := some ⟨0, true, 4, [PWord.clean 7, PWord.clean 8]⟩ }, (39:Nat), (⟨0, true, 4, [PWord.clean 7, PWord.clean 8]⟩ : LoadJob), by decide +kernel⟩,
   ⟨s43, (32:Nat), by decide +kernel⟩,
   ⟨s44, (32:Nat), by decide +kernel⟩⟩

/-- The hypotheses of ContextRequests can be met. -/
theorem wit_ContextRequests :
    (∃ (s : State) (core : Nat) (c : Nat),
      core < 40 ∧
      c < 16 ∧
      s.fld (F.TC_CTX_CTRL_SWAP core c) = 1 ∧
      s.swapCheck core c = 0) ∧
    (∃ (s : State) (core : Nat) (c : Nat),
      core < 40 ∧
      c < 16 ∧
      s.fld (F.TC_CTX_CTRL_SWAP core c) = 1 ∧
      s.swapCheck core c ≠ 0) ∧
    (∃ (s : State) (src : Source) (core : Nat) (c : Nat),
      s.Reaches src (R.TC_CTX_CTRL core c)) ∧
    (∃ (s : State) (core : Nat) (c : Nat),
      core < 40 ∧
      c < 16 ∧
      s.fld (F.TC_CTX_CTRL_SWAP core c) = 0 ∧
      s.fld (F.TC_CTX_CTRL_RESTART core c) = 1 ∧
      s.fld (F.TC_CTX_CTRL_HALT core c) = 0 ∧
      s.ctxState core c ≠ 0) ∧
    (∃ (s : State) (core : Nat) (c : Nat),
      core < 40 ∧
      c < 16 ∧
      s.fld (F.TC_CTX_CTRL_SWAP core c) = 0 ∧
      s.fld (F.TC_CTX_CTRL_RESTART core c) = 0 ∧
      (s.ctx core c).policyDue = 0 ∧
      s.fld (F.TC_CTX_CTRL_HALT core c) = 1 ∧
      (s.ctxState core c = 1 ∨ s.ctxState core c = 2)) :=
  ⟨⟨s140, (32:Nat), (3:Nat), by decide +kernel⟩,
   ⟨s141, (32:Nat), (3:Nat), by decide +kernel⟩,
   ⟨s6, Source.host, (32:Nat), (3:Nat), by unfold State.Reaches; decide +kernel⟩,
   ⟨s160, (32:Nat), (3:Nat), by decide +kernel⟩,
   ⟨s176, (32:Nat), (3:Nat), by decide +kernel⟩⟩

end AbsentAndHolesMet

namespace RegisterAccessMet

def s6 : State := ((up.setReg R.STCH_HOLD_LIMIT 77).setReg R.STCH_LATE_CNT 9).setReg R.TREE_SLOT_SERVICE 3

def s7 : State := { up with lamp := { up.lamp with mem := [(2, 7)] }, sec := { up.sec with imgBuf := [(2, 99)] } }

/-- The hypotheses of RegisterAccess can be met. -/
theorem wit_RegisterAccess :
    (∃ (s : State) (src : Source) (addr : Word),
      s.Reaches src R.STCH_COUNT_LO ∧
      s.coreUp = true ∧
      s.unitThere (BitVec.toNat addr) = true ∧
      (src = Source.host → s.mapped (BitVec.toNat addr) = true) ∧
      (src = Source.host → (s.isWheel = true → wheelTakes (BitVec.toNat addr) = true) ∧ s.leadsPair = false) ∧
      s.underRestart (BitVec.toNat addr) = true ∧
      s.flag F.SYS_ACC_INFO_VALID = false) ∧
    (∃ (s : State) (src : Source) (addr : Word) (e : Place × RegDesc) (v : Word),
      s.Reaches src (BitVec.toNat addr) ∧
      s.regWrite src (BitVec.toNat addr) v = s.writePlain src (BitVec.toNat addr) v ∧
      s.regHere (BitVec.toNat addr) = some e ∧
      s.acceptsCfg e.fst = true ∧
      BitVec.toNat addr ≠ R.STCH_COUNT_LO ∧
      inLampMem (BitVec.toNat addr) = false ∧
      inImgBuf (BitVec.toNat addr) = false ∧
      (¬(e.fst.blk = Blk.time ∧ e.fst.off < 64 ∧ e.fst.off % 16 = 0))) ∧
    (∃ (s : State) (src : Source) (addr : Word),
      s.coreUp = true ∧
      s.unitThere (BitVec.toNat addr) = true ∧
      (src = Source.host → s.mapped (BitVec.toNat addr) = true) ∧
      src = Source.host ∧
      s.isWheel = true ∧
      wheelTakes (BitVec.toNat addr) = false ∧
      s.flag F.SYS_ACC_INFO_VALID = false) ∧
    (∃ (s : State) (src : Source) (addr : Word),
      s.Reaches src (BitVec.toNat addr) ∧
      inLampMem (BitVec.toNat addr) = true) ∧
    (∃ (s : State) (src : Source) (addr : Word),
      s.Reaches src (BitVec.toNat addr) ∧
      inLampMem (BitVec.toNat addr) = false ∧
      inImgBuf (BitVec.toNat addr) = true) ∧
    (∃ (s : State) (src : Source) (addr : Word),
      s.coreUp = true ∧
      s.unitThere (BitVec.toNat addr) = true ∧
      (src = Source.host → s.mapped (BitVec.toNat addr) = true) ∧
      src = Source.host ∧
      (s.isWheel = true → wheelTakes (BitVec.toNat addr) = true) ∧
      s.leadsPair = true) :=
  ⟨⟨{s6 with power := {s6.power with restarts := [(2,31)]}}, Source.host, (w32 (R.AWL_LIMIT_XMIN 31) : Word), by unfold State.Reaches; decide +kernel, by decide +kernel⟩,
   ⟨s6, Source.host, (w32 (R.STCH_HOLD_LIMIT) : Word), ((s6.regHere (R.STCH_HOLD_LIMIT)).get (by decide +kernel)), (0x12345678 : Word), by unfold State.Reaches; decide +kernel, by decide +kernel⟩,
   ⟨sf s6 F.HARN_STATUS_STATE 3, Source.host, (w32 R.STCH_HOLD_LIMIT : Word), by decide +kernel⟩,
   ⟨s7, Source.host, (0x02208004 : Word), by unfold State.Reaches; decide +kernel, by decide +kernel⟩,
   ⟨s7, Source.core 3 2, (0x02710008 : Word), by unfold State.Reaches; decide +kernel, by decide +kernel⟩,
   ⟨ha (fun h => {h with peerTracks := true}) (sf s6 F.HARN_STATUS_STATE 6), Source.host, (w32 R.STCH_HOLD_LIMIT : Word), by decide +kernel⟩⟩

end RegisterAccessMet

namespace AluInstructionsMet

def s1 := onCore (ins 1 3 1 2 0) (cx [(1,5),(2,7)])

def s15 := onCore (ins 1 3 1 2 1) (cx [(1,5),(2,7)])

def s29 := onCore (ins 1 3 1 2 2) (cx [(1,5),(2,7)])

def s43 := onCore (ins 1 3 1 2 3) (cx [(1,5),(2,7)])

def s57 := onCore (ins 1 3 1 2 4) (cx [(1,5),(2,7)])

def s71 := onCore (ins 1 3 1 2 5) (cx [(1,5),(2,7)])

def s85 := onCore (ins 1 3 1 2 6) (cx [(1,5),(2,7)])

def s99 := onCore (ins 1 3 1 2 7) (cx [(1,5),(2,7)])

def s113 := onCore (ins 1 3 1 2 8) (cx [(1,5),(2,7)])

def s127 := onCore (ins 1 3 1 2 9) (cx [(1,5),(2,7)])

def s141 := onCore (ins 1 3 1 2 10) (cx [(1,5),(2,7)])

def s155 := onCore (ins 1 3 1 2 11) (cx [(1,5),(2,7)])

def s169 := onCore (ins 1 3 1 2 12) (cx [(1,5),(2,7)])

def s183 := onCore (ins 1 3 1 2 13) (cx [(1,5),(2,7)])

def s197 := onCore (ins 1 3 1 0 14) (cx [(1,5),(2,7)])

def s211 := onCore (ins 1 3 1 0 15) (cx [(1,5),(2,7)])

def s225 := onCore (ins 1 3 1 2 16) (cx [(1,5),(2,7)])

def s239 := onCore (ins 1 3 1 2 17) (cx [(1,5),(2,7)])

def s253 := onCore (ins 1 3 1 2 18) (cx [(1,5),(2,7)])

def s267 := onCore (ins 1 3 1 2 19) (cx [(1,5),(2,7)])

def s281 := onCore (ins 1 3 1 2 20) (cx [(1,5),(2,7)])

def s295 := onCore (ins 1 3 1 2 21) (cx [(1,5),(2,7)])

def s309 := onCore (ins 1 3 1 2 22) (cx [(1,5),(2,7)])

/-- The hypotheses of AluInstructions can be met. -/
theorem wit_AluInstructions :
    (∃ (s : State) (core : Nat) (c : Nat) (w : Word) (sl : Slot),
      s.Issues core c Adt.add w sl) ∧
    (∃ (s : State) (core : Nat) (c : Nat) (w : Word) (sl : Slot),
      s.Issues core c Adt.sub w sl) ∧
    (∃ (s : State) (core : Nat) (c : Nat) (w : Word) (sl : Slot),
      s.Issues core c Adt.and w sl) ∧
    (∃ (s : State) (core : Nat) (c : Nat) (w : Word) (sl : Slot),
      s.Issues core c Adt.or w sl) ∧
    (∃ (s : State) (core : Nat) (c : Nat) (w : Word) (sl : Slot),
      s.Issues core c Adt.xor w sl) ∧
    (∃ (s : State) (core : Nat) (c : Nat) (w : Word) (sl : Slot),
      s.Issues core c Adt.shl w sl) ∧
    (∃ (s : State) (core : Nat) (c : Nat) (w : Word) (sl : Slot),
      s.Issues core c Adt.shr w sl) ∧
    (∃ (s : State) (core : Nat) (c : Nat) (w : Word) (sl : Slot),
      s.Issues core c Adt.sar w sl) ∧
    (∃ (s : State) (core : Nat) (c : Nat) (w : Word) (sl : Slot),
      s.Issues core c Adt.min w sl) ∧
    (∃ (s : State) (core : Nat) (c : Nat) (w : Word) (sl : Slot),
      s.Issues core c Adt.max w sl) ∧
    (∃ (s : State) (core : Nat) (c : Nat) (w : Word) (sl : Slot),
      s.Issues core c Adt.minu w sl) ∧
    (∃ (s : State) (core : Nat) (c : Nat) (w : Word) (sl : Slot),
      s.Issues core c Adt.maxu w sl) ∧
    (∃ (s : State) (core : Nat) (c : Nat) (w : Word) (sl : Slot),
      s.Issues core c Adt.adds w sl) ∧
    (∃ (s : State) (core : Nat) (c : Nat) (w : Word) (sl : Slot),
      s.Issues core c Adt.subs w sl) ∧
    (∃ (s : State) (core : Nat) (c : Nat) (w : Word) (sl : Slot),
      s.Issues core c Adt.abs w sl) ∧
    (∃ (s : State) (core : Nat) (c : Nat) (w : Word) (sl : Slot),
      s.Issues core c Adt.clz w sl) ∧
    (∃ (s : State) (core : Nat) (c : Nat) (w : Word) (sl : Slot),
      s.Issues core c Adt.mul w sl) ∧
    (∃ (s : State) (core : Nat) (c : Nat) (w : Word) (sl : Slot),
      s.Issues core c Adt.mulh w sl) ∧
    (∃ (s : State) (core : Nat) (c : Nat) (w : Word) (sl : Slot),
      s.Issues core c Adt.mulhu w sl) ∧
    (∃ (s : State) (core : Nat) (c : Nat) (w : Word) (sl : Slot),
      s.Issues core c Adt.mulq w sl) ∧
    (∃ (s : State) (core : Nat) (c : Nat) (w : Word) (sl : Slot),
      s.Issues core c Adt.pscl w sl) ∧
    (∃ (s : State) (core : Nat) (c : Nat) (w : Word) (sl : Slot),
      s.Issues core c Adt.div w sl) ∧
    (∃ (s : State) (core : Nat) (c : Nat) (w : Word) (sl : Slot),
      s.Issues core c Adt.divu w sl) :=
  ⟨⟨s1, (32 : Nat), (0:Nat), (ins 1 3 1 2 0), slot0, issues_iff.2 (by decide +kernel)⟩,
   ⟨s15, (32 : Nat), (0:Nat), (ins 1 3 1 2 1), slot0, issues_iff.2 (by decide +kernel)⟩,
   ⟨s29, (32 : Nat), (0:Nat), (ins 1 3 1 2 2), slot0, issues_iff.2 (by decide +kernel)⟩,
   ⟨s43, (32 : Nat), (0:Nat), (ins 1 3 1 2 3), slot0, issues_iff.2 (by decide +kernel)⟩,
   ⟨s57, (32 : Nat), (0:Nat), (ins 1 3 1 2 4), slot0, issues_iff.2 (by decide +kernel)⟩,
   ⟨s71, (32 : Nat), (0:Nat), (ins 1 3 1 2 5), slot0, issues_iff.2 (by decide +kernel)⟩,
   ⟨s85, (32 : Nat), (0:Nat), (ins 1 3 1 2 6), slot0, issues_iff.2 (by decide +kernel)⟩,
   ⟨s99, (32 : Nat), (0:Nat), (ins 1 3 1 2 7), slot0, issues_iff.2 (by decide +kernel)⟩,
   ⟨s113, (32 : Nat), (0:Nat), (ins 1 3 1 2 8), slot0, issues_iff.2 (by decide +kernel)⟩,
   ⟨s127, (32 : Nat), (0:Nat), (ins 1 3 1 2 9), slot0, issues_iff.2 (by decide +kernel)⟩,
   ⟨s141, (32 : Nat), (0:Nat), (ins 1 3 1 2 10), slot0, issues_iff.2 (by decide +kernel)⟩,
   ⟨s155, (32 : Nat), (0:Nat), (ins 1 3 1 2 11), slot0, issues_iff.2 (by decide +kernel)⟩,
   ⟨s169, (32 : Nat), (0:Nat), (ins 1 3 1 2 12), slot0, issues_iff.2 (by decide +kernel)⟩,
   ⟨s183, (32 : Nat), (0:Nat), (ins 1 3 1 2 13), slot0, issues_iff.2 (by decide +kernel)⟩,
   ⟨s197, (32 : Nat), (0:Nat), (ins 1 3 1 0 14), slot0, issues_iff.2 (by decide +kernel)⟩,
   ⟨s211, (32 : Nat), (0:Nat), (ins 1 3 1 0 15), slot0, issues_iff.2 (by decide +kernel)⟩,
   ⟨s225, (32 : Nat), (0:Nat), (ins 1 3 1 2 16), slot0, issues_iff.2 (by decide +kernel)⟩,
   ⟨s239, (32 : Nat), (0:Nat), (ins 1 3 1 2 17), slot0, issues_iff.2 (by decide +kernel)⟩,
   ⟨s253, (32 : Nat), (0:Nat), (ins 1 3 1 2 18), slot0, issues_iff.2 (by decide +kernel)⟩,
   ⟨s267, (32 : Nat), (0:Nat), (ins 1 3 1 2 19), slot0, issues_iff.2 (by decide +kernel)⟩,
   ⟨s281, (32 : Nat), (0:Nat), (ins 1 3 1 2 20), slot0, issues_iff.2 (by decide +kernel)⟩,
   ⟨s295, (32 : Nat), (0:Nat), (ins 1 3 1 2 21), slot0, issues_iff.2 (by decide +kernel)⟩,
   ⟨s309, (32 : Nat), (0:Nat), (ins 1 3 1 2 22), slot0, issues_iff.2 (by decide +kernel)⟩⟩

end AluInstructionsMet

namespace ImmediatesAndPredicatesMet

def s1 := onCore (ins 1 3 1 2 96) ({ cx [(1,5),(2,7)] with p := 6, gpois := 4 })

def s5 := onCore (ins 3 3 1 0 0 + 0) (cx [(1,0x12345678)])

def s9 := onCore (ins 4 3 1 0 0 + 0) (cx [(1,0x12345678)])

def s13 := onCore (ins 5 3 1 0 0 + 0) (cx [(1,0x12345678)])

def s17 := onCore (ins 6 3 1 0 0 + 0) (cx [(1,0x12345678)])

def s21 := onCore (ins 7 3 1 0 0 + 0) ({cx [(1,0x92345678)] with gpois := 10})

def s24 := onCore (ins 7 3 1 0 0 + 32) ({cx [(1,0x92345678)] with gpois := 10})

def s27 := onCore (ins 7 3 1 0 0 + 64) ({cx [(1,0x92345678)] with gpois := 10})

def s30 := onCore (ins 0xB 3 0 0 0 + 0) ({cx [(3,0x92345678)] with gpois := 10})

def s34 := onCore (ins 12 3 0 0 0 + 0) ({cx [(3,0x92345678)] with gpois := 8})

def s37 := onCore (ins 13 3 0 0 0 + 0) ({cx [(3,0x92345678)] with gpois := 8})

def s40 := onCore (ins 2 1 1 2 0) ({cx [(1,1),(2,2)] with p := 8})

def s45 := onCore (ins 2 1 1 2 1) ({cx [(1,1),(2,2)] with p := 8})

def s50 := onCore (ins 2 1 1 2 2) ({cx [(1,1),(2,2)] with p := 8})

def s55 := onCore (ins 2 1 1 2 3) ({cx [(1,1),(2,2)] with p := 8})

def s60 := onCore (ins 2 1 1 2 4) ({cx [(1,1),(2,2)] with p := 8})

def s65 := onCore (ins 2 1 1 2 5) ({cx [(1,1),(2,2)] with p := 8})

def s70 := onCore (ins 8 2 1 0 0 + 5) (cx [(1,5)])

def s82 := onCore (ins 9 2 1 0 0 + 5) (cx [(1,5)])

def s94 := onCore (ins 10 2 1 0 0 + 5) (cx [(1,5)])

def s106 := onCore (ins 2 3 0 2 8) ({cx [] with p := 0})

def s122 := onCore (ins 2 3 0 2 9) ({cx [] with p := 0})

def s138 := onCore (ins 2 3 0 2 10) ({cx [] with p := 0})

def s154 := onCore (ins 2 3 2 0 11) ({cx [] with p := 0})

def s155 := onCore (ins 2 3 0 0 12) ({cx [] with p := 0})

def s156 := onCore (ins 2 3 0 0 13) ({cx [] with p := 0})

def s163 := onCore (ins 0x28 3 1 2 0) ({cx [(4,0x13),(5,0xABCD8765)] with v := [(1,0x00017FFF8000FFFF),(2,0x0001000180007FFF),(3,0x123456789ABCDEF0)], vpois := 2})

def s169 := onCore (ins 0x28 3 1 2 1) ({cx [(4,0x13),(5,0xABCD8765)] with v := [(1,0x00017FFF8000FFFF),(2,0x0001000180007FFF),(3,0x123456789ABCDEF0)], vpois := 2})

def s175 := onCore (ins 0x28 3 1 2 2) ({cx [(4,0x13),(5,0xABCD8765)] with v := [(1,0x00017FFF8000FFFF),(2,0x0001000180007FFF),(3,0x123456789ABCDEF0)], vpois := 2})

def s181 := onCore (ins 0x28 3 1 2 3) ({cx [(4,0x13),(5,0xABCD8765)] with v := [(1,0x00017FFF8000FFFF),(2,0x0001000180007FFF),(3,0x123456789ABCDEF0)], vpois := 2})

def s187 := onCore (ins 0x28 3 1 2 4) ({cx [(4,0x13),(5,0xABCD8765)] with v := [(1,0x00017FFF8000FFFF),(2,0x0001000180007FFF),(3,0x123456789ABCDEF0)], vpois := 2})

def s193 := onCore (ins 0x28 3 1 2 5) ({cx [(4,0x13),(5,0xABCD8765)] with v := [(1,0x00017FFF8000FFFF),(2,0x0001000180007FFF),(3,0x123456789ABCDEF0)], vpois := 2})

def s199 := onCore (ins 0x28 3 1 2 6) ({cx [(4,0x13),(5,0xABCD8765)] with v := [(1,0x00017FFF8000FFFF),(2,0x0001000180007FFF),(3,0x123456789ABCDEF0)], vpois := 2})

def s205 := onCore (ins 0x28 3 1 2 7) ({cx [(4,0x13),(5,0xABCD8765)] with v := [(1,0x00017FFF8000FFFF),(2,0x0001000180007FFF),(3,0x123456789ABCDEF0)], vpois := 2})

def s211 := onCore (ins 0x28 3 1 0 8) ({cx [(4,0x13),(5,0xABCD8765)] with v := [(1,0x00017FFF8000FFFF),(2,0x0001000180007FFF),(3,0x123456789ABCDEF0)], vpois := 2})

def s217 := onCore (ins 0x28 3 1 4 9) ({cx [(4,0x13),(5,0xABCD8765)] with v := [(1,0x00017FFF8000FFFF),(2,0x0001000180007FFF),(3,0x123456789ABCDEF0)], vpois := 2})

def s223 := onCore (ins 0x28 3 5 0 10) ({cx [(4,0x13),(5,0xABCD8765)] with v := [(1,0x00017FFF8000FFFF),(2,0x0001000180007FFF),(3,0x123456789ABCDEF0)], vpois := 2})

def s229 := onCore (ins 0x28 3 1 2 11) ({cx [(4,0x13),(5,0xABCD8765)] with v := [(1,0x00017FFF8000FFFF),(2,0x0001000180007FFF),(3,0x123456789ABCDEF0)], vpois := 2})

def s235 := onCore (ins 0x28 3 5 3 12) ({cx [(4,0x13),(5,0xABCD8765)] with v := [(1,0x00017FFF8000FFFF),(2,0x0001000180007FFF),(3,0x123456789ABCDEF0)], vpois := 2})

def s241 := onCore (ins 0x28 3 1 0 13) ({cx [(4,0x13),(5,0xABCD8765)] with v := [(1,0x00017FFF8000FFFF),(2,0x0001000180007FFF),(3,0x123456789ABCDEF0)], vpois := 2})

def s247 := onCore (ins 0x28 3 1 0 14) ({cx [(4,0x13),(5,0xABCD8765)] with v := [(1,0x00017FFF8000FFFF),(2,0x0001000180007FFF),(3,0x123456789ABCDEF0)], vpois := 2})

/-- The hypotheses of ImmediatesAndPredicates can be met. -/
theorem wit_ImmediatesAndPredicates :
    (∃ (s : State) (core : Nat) (c : Nat) (w : Word) (sl : Slot),
      s.Issues core c Adt.sel w sl) ∧
    (∃ (s : State) (core : Nat) (c : Nat) (w : Word) (sl : Slot),
      s.Issues core c Adt.addi w sl) ∧
    (∃ (s : State) (core : Nat) (c : Nat) (w : Word) (sl : Slot),
      s.Issues core c Adt.andi w sl) ∧
    (∃ (s : State) (core : Nat) (c : Nat) (w : Word) (sl : Slot),
      s.Issues core c Adt.ori w sl) ∧
    (∃ (s : State) (core : Nat) (c : Nat) (w : Word) (sl : Slot),
      s.Issues core c Adt.xori w sl) ∧
    (∃ (s : State) (core : Nat) (c : Nat) (w : Word) (sl : Slot),
      s.Issues core c Adt.shiShl w sl) ∧
    (∃ (s : State) (core : Nat) (c : Nat) (w : Word) (sl : Slot),
      s.Issues core c Adt.shiShr w sl) ∧
    (∃ (s : State) (core : Nat) (c : Nat) (w : Word) (sl : Slot),
      s.Issues core c Adt.shiSar w sl) ∧
    (∃ (s : State) (core : Nat) (c : Nat) (w : Word) (sl : Slot),
      s.Issues core c Adt.li w sl) ∧
    (∃ (s : State) (core : Nat) (c : Nat) (w : Word) (sl : Slot),
      s.Issues core c Adt.lhi w sl) ∧
    (∃ (s : State) (core : Nat) (c : Nat) (w : Word) (sl : Slot),
      s.Issues core c Adt.llo w sl) ∧
    (∃ (s : State) (core : Nat) (c : Nat) (w : Word) (sl : Slot),
      s.Issues core c Adt.cmpeq w sl ∧
      (s.ctx core c).Clean (raField w) ∧
      (s.ctx core c).Clean (rbField w)) ∧
    (∃ (s : State) (core : Nat) (c : Nat) (w : Word) (sl : Slot),
      s.Issues core c Adt.cmpne w sl ∧
      (s.ctx core c).Clean (raField w) ∧
      (s.ctx core c).Clean (rbField w)) ∧
    (∃ (s : State) (core : Nat) (c : Nat) (w : Word) (sl : Slot),
      s.Issues core c Adt.cmplt w sl ∧
      (s.ctx core c).Clean (raField w) ∧
      (s.ctx core c).Clean (rbField w)) ∧
    (∃ (s : State) (core : Nat) (c : Nat) (w : Word) (sl : Slot),
      s.Issues core c Adt.cmple w sl ∧
      (s.ctx core c).Clean (raField w) ∧
      (s.ctx core c).Clean (rbField w)) ∧
    (∃ (s : State) (core : Nat) (c : Nat) (w : Word) (sl : Slot),
      s.Issues core c Adt.cmpltu w sl ∧
      (s.ctx core c).Clean (raField w) ∧
      (s.ctx core c).Clean (rbField w)) ∧
    (∃ (s : State) (core : Nat) (c : Nat) (w : Word) (sl : Slot),
      s.Issues core c Adt.cmpleu w sl ∧
      (s.ctx core c).Clean (raField w) ∧
      (s.ctx core c).Clean (rbField w)) ∧
    (∃ (s : State) (core : Nat) (c : Nat) (w : Word) (sl : Slot),
      s.Issues core c Adt.cmpeqi w sl ∧
      (s.ctx core c).Clean (raField w)) ∧
    (∃ (s : State) (core : Nat) (c : Nat) (w : Word) (sl : Slot),
      s.Issues core c Adt.cmplti w sl ∧
      (s.ctx core c).Clean (raField w)) ∧
    (∃ (s : State) (core : Nat) (c : Nat) (w : Word) (sl : Slot),
      s.Issues core c Adt.cmpltui w sl ∧
      (s.ctx core c).Clean (raField w)) ∧
    (∃ (s : State) (core : Nat) (c : Nat) (w : Word) (sl : Slot),
      s.Issues core c Adt.pand w sl) ∧
    (∃ (s : State) (core : Nat) (c : Nat) (w : Word) (sl : Slot),
      s.Issues core c Adt.por w sl) ∧
    (∃ (s : State) (core : Nat) (c : Nat) (w : Word) (sl : Slot),
      s.Issues core c Adt.pxor w sl) ∧
    (∃ (s : State) (core : Nat) (c : Nat) (w : Word) (sl : Slot),
      s.Issues core c Adt.pnot w sl) ∧
    (∃ (s : State) (core : Nat) (c : Nat) (w : Word) (sl : Slot),
      s.Issues core c Adt.pset w sl) ∧
    (∃ (s : State) (core : Nat) (c : Nat) (w : Word) (sl : Slot),
      s.Issues core c Adt.pclr w sl) :=
  ⟨⟨s1, (32 : Nat), (0:Nat), (ins 1 3 1 2 96), slot0, issues_iff.2 (by decide +kernel)⟩,
   ⟨s5, (32 : Nat), (0:Nat), (ins 3 3 1 0 0 + 0), slot0, issues_iff.2 (by decide +kernel)⟩,
   ⟨s9, (32 : Nat), (0:Nat), (ins 4 3 1 0 0 + 0), slot0, issues_iff.2 (by decide +kernel)⟩,
   ⟨s13, (32 : Nat), (0:Nat), (ins 5 3 1 0 0 + 0), slot0, issues_iff.2 (by decide +kernel)⟩,
   ⟨s17, (32 : Nat), (0:Nat), (ins 6 3 1 0 0 + 0), slot0, issues_iff.2 (by decide +kernel)⟩,
   ⟨s21, (32 : Nat), (0:Nat), (ins 7 3 1 0 0 + 0), slot0, issues_iff.2 (by decide +kernel)⟩,
   ⟨s24, (32 : Nat), (0:Nat), (ins 7 3 1 0 0 + 32), slot0, issues_iff.2 (by decide +kernel)⟩,
   ⟨s27, (32 : Nat), (0:Nat), (ins 7 3 1 0 0 + 64), slot0, issues_iff.2 (by decide +kernel)⟩,
   ⟨s30, (32 : Nat), (0:Nat), (ins 0xB 3 0 0 0 + 0), slot0, issues_iff.2 (by decide +kernel)⟩,
   ⟨s34, (32 : Nat), (0:Nat), (ins 12 3 0 0 0 + 0), slot0, issues_iff.2 (by decide +kernel)⟩,
   ⟨s37, (32 : Nat), (0:Nat), (ins 13 3 0 0 0 + 0), slot0, issues_iff.2 (by decide +kernel)⟩,
   ⟨s40, (32 : Nat), (0:Nat), (ins 2 1 1 2 0), slot0, issues_iff.2 (by decide +kernel), by unfold Ctx.Clean; decide +kernel⟩,
   ⟨s45, (32 : Nat), (0:Nat), (ins 2 1 1 2 1), slot0, issues_iff.2 (by decide +kernel), by unfold Ctx.Clean; decide +kernel⟩,
   ⟨s50, (32 : Nat), (0:Nat), (ins 2 1 1 2 2), slot0, issues_iff.2 (by decide +kernel), by unfold Ctx.Clean; decide +kernel⟩,
   ⟨s55, (32 : Nat), (0:Nat), (ins 2 1 1 2 3), slot0, issues_iff.2 (by decide +kernel), by unfold Ctx.Clean; decide +kernel⟩,
   ⟨s60, (32 : Nat), (0:Nat), (ins 2 1 1 2 4), slot0, issues_iff.2 (by decide +kernel), by unfold Ctx.Clean; decide +kernel⟩,
   ⟨s65, (32 : Nat), (0:Nat), (ins 2 1 1 2 5), slot0, issues_iff.2 (by decide +kernel), by unfold Ctx.Clean; decide +kernel⟩,
   ⟨s70, (32 : Nat), (0:Nat), (ins 8 2 1 0 0 + 5), slot0, issues_iff.2 (by decide +kernel), by unfold Ctx.Clean; decide +kernel⟩,
   ⟨s82, (32 : Nat), (0:Nat), (ins 9 2 1 0 0 + 5), slot0, issues_iff.2 (by decide +kernel), by unfold Ctx.Clean; decide +kernel⟩,
   ⟨s94, (32 : Nat), (0:Nat), (ins 10 2 1 0 0 + 5), slot0, issues_iff.2 (by decide +kernel), by unfold Ctx.Clean; decide +kernel⟩,
   ⟨s106, (32 : Nat), (0:Nat), (ins 2 3 0 2 8), slot0, issues_iff.2 (by decide +kernel)⟩,
   ⟨s122, (32 : Nat), (0:Nat), (ins 2 3 0 2 9), slot0, issues_iff.2 (by decide +kernel)⟩,
   ⟨s138, (32 : Nat), (0:Nat), (ins 2 3 0 2 10), slot0, issues_iff.2 (by decide +kernel)⟩,
   ⟨s154, (32 : Nat), (0:Nat), (ins 2 3 2 0 11), slot0, issues_iff.2 (by decide +kernel)⟩,
   ⟨s155, (32 : Nat), (0:Nat), (ins 2 3 0 0 12), slot0, issues_iff.2 (by decide +kernel)⟩,
   ⟨s156, (32 : Nat), (0:Nat), (ins 2 3 0 0 13), slot0, issues_iff.2 (by decide +kernel)⟩⟩

/-- The hypotheses of VectorInstructions can be met. -/
theorem wit_VectorInstructions :
    (∃ (s : State) (core : Nat) (c : Nat) (w : Word) (sl : Slot),
      s.Issues core c Adt.vadd w sl) ∧
    (∃ (s : State) (core : Nat) (c : Nat) (w : Word) (sl : Slot),
      s.Issues core c Adt.vsub w sl) ∧
    (∃ (s : State) (core : Nat) (c : Nat) (w : Word) (sl : Slot),
      s.Issues core c Adt.vadds w sl) ∧
    (∃ (s : State) (core : Nat) (c : Nat) (w : Word) (sl : Slot),
      s.Issues core c Adt.vsubs w sl) ∧
    (∃ (s : State) (core : Nat) (c : Nat) (w : Word) (sl : Slot),
      s.Issues core c Adt.vmulq w sl) ∧
    (∃ (s : State) (core : Nat) (c : Nat) (w : Word) (sl : Slot),
      s.Issues core c Adt.vmacq w sl) ∧
    (∃ (s : State) (core : Nat) (c : Nat) (w : Word) (sl : Slot),
      s.Issues core c Adt.vmin w sl) ∧
    (∃ (s : State) (core : Nat) (c : Nat) (w : Word) (sl : Slot),
      s.Issues core c Adt.vmax w sl) ∧
    (∃ (s : State) (core : Nat) (c : Nat) (w : Word) (sl : Slot),
      s.Issues core c Adt.vabs w sl) ∧
    (∃ (s : State) (core : Nat) (c : Nat) (w : Word) (sl : Slot),
      s.Issues core c Adt.vshr w sl) ∧
    (∃ (s : State) (core : Nat) (c : Nat) (w : Word) (sl : Slot),
      s.Issues core c Adt.vsplat w sl) ∧
    (∃ (s : State) (core : Nat) (c : Nat) (w : Word) (sl : Slot),
      s.Issues core c Adt.vget w sl) ∧
    (∃ (s : State) (core : Nat) (c : Nat) (w : Word) (sl : Slot),
      s.Issues core c Adt.vput w sl) ∧
    (∃ (s : State) (core : Nat) (c : Nat) (w : Word) (sl : Slot),
      s.Issues core c Adt.vsum w sl) ∧
    (∃ (s : State) (core : Nat) (c : Nat) (w : Word) (sl : Slot),
      s.Issues core c Adt.vmov w sl) :=
  ⟨⟨s163, (32 : Nat), (0:Nat), (ins 0x28 3 1 2 0), slot0, issues_iff.2 (by decide +kernel)⟩,
   ⟨s169, (32 : Nat), (0:Nat), (ins 0x28 3 1 2 1), slot0, issues_iff.2 (by decide +kernel)⟩,
   ⟨s175, (32 : Nat), (0:Nat), (ins 0x28 3 1 2 2), slot0, issues_iff.2 (by decide +kernel)⟩,
   ⟨s181, (32 : Nat), (0:Nat), (ins 0x28 3 1 2 3), slot0, issues_iff.2 (by decide +kernel)⟩,
   ⟨s187, (32 : Nat), (0:Nat), (ins 0x28 3 1 2 4), slot0, issues_iff.2 (by decide +kernel)⟩,
   ⟨s193, (32 : Nat), (0:Nat), (ins 0x28 3 1 2 5), slot0, issues_iff.2 (by decide +kernel)⟩,
   ⟨s199, (32 : Nat), (0:Nat), (ins 0x28 3 1 2 6), slot0, issues_iff.2 (by decide +kernel)⟩,
   ⟨s205, (32 : Nat), (0:Nat), (ins 0x28 3 1 2 7), slot0, issues_iff.2 (by decide +kernel)⟩,
   ⟨s211, (32 : Nat), (0:Nat), (ins 0x28 3 1 0 8), slot0, issues_iff.2 (by decide +kernel)⟩,
   ⟨s217, (32 : Nat), (0:Nat), (ins 0x28 3 1 4 9), slot0, issues_iff.2 (by decide +kernel)⟩,
   ⟨s223, (32 : Nat), (0:Nat), (ins 0x28 3 5 0 10), slot0, issues_iff.2 (by decide +kernel)⟩,
   ⟨s229, (32 : Nat), (0:Nat), (ins 0x28 3 1 2 11), slot0, issues_iff.2 (by decide +kernel)⟩,
   ⟨s235, (32 : Nat), (0:Nat), (ins 0x28 3 5 3 12), slot0, issues_iff.2 (by decide +kernel)⟩,
   ⟨s241, (32 : Nat), (0:Nat), (ins 0x28 3 1 0 13), slot0, issues_iff.2 (by decide +kernel)⟩,
   ⟨s247, (32 : Nat), (0:Nat), (ins 0x28 3 1 0 14), slot0, issues_iff.2 (by decide +kernel)⟩⟩

end ImmediatesAndPredicatesMet

namespace LocalMemoryMet

def s1 : State := withData (onCore (ins 16 3 1 0 0 + 4) {cx [(1,0xFFFFFFFC),(3,0xDEADBEEF)] with gpois := 0, vpois := 0, v := [(3,0x0102030405060708)]}) [(1, ⟨0x89ABCDEF, true, .clean⟩), (2, ⟨0x81234567, false, .single⟩), (3, ⟨0x11112222, false, .double⟩), (4, ⟨0x33334444, false, .clean⟩)]

def s13 : State := withData (onCore (ins 17 3 1 0 0 + 4) {cx [(1,0xFFFFFFFC),(3,0xDEADBEEF)] with gpois := 0, vpois := 0, v := [(3,0x0102030405060708)]}) [(1, ⟨0x89ABCDEF, true, .clean⟩), (2, ⟨0x81234567, false, .single⟩), (3, ⟨0x11112222, false, .double⟩), (4, ⟨0x33334444, false, .clean⟩)]

def s37 : State := withData (onCore (ins 18 3 1 0 0 + 4) {cx [(1,0xFFFFFFFC),(3,0xDEADBEEF)] with gpois := 0, vpois := 0, v := [(3,0x0102030405060708)]}) [(1, ⟨0x89ABCDEF, true, .clean⟩), (2, ⟨0x81234567, false, .single⟩), (3, ⟨0x11112222, false, .double⟩), (4, ⟨0x33334444, false, .clean⟩)]

def s49 : State := withData (onCore (ins 19 3 1 0 0 + 4) {cx [(1,0xFFFFFFFC),(3,0xDEADBEEF)] with gpois := 0, vpois := 0, v := [(3,0x0102030405060708)]}) [(1, ⟨0x89ABCDEF, true, .clean⟩), (2, ⟨0x81234567, false, .single⟩), (3, ⟨0x11112222, false, .double⟩), (4, ⟨0x33334444, false, .clean⟩)]

def s73 : State := withData (onCore (ins 20 3 1 0 0 + 4) {cx [(1,0xFFFFFFFC),(3,0xDEADBEEF)] with gpois := 0, vpois := 0, v := [(3,0x0102030405060708)]}) [(1, ⟨0x89ABCDEF, true, .clean⟩), (2, ⟨0x81234567, false, .single⟩), (3, ⟨0x11112222, false, .double⟩), (4, ⟨0x33334444, false, .clean⟩)]

def s79 : State := withData (onCore (ins 21 3 1 0 0 + 4) {cx [(1,0xFFFFFFFC),(3,0xDEADBEEF)] with gpois := 0, vpois := 0, v := [(3,0x0102030405060708)]}) [(1, ⟨0x89ABCDEF, true, .clean⟩), (2, ⟨0x81234567, false, .single⟩), (3, ⟨0x11112222, false, .double⟩), (4, ⟨0x33334444, false, .clean⟩)]

def s85 : State := withStreams (onCore (ins 24 3 1 2 0) {cx [(1,0x01002007),(2,0),(3,9)] with gpois := 8}) q8

def s88 : State := withStreams (onCore (ins 25 3 1 2 0) {cx [(1,0x01002007),(2,0),(3,9)] with gpois := 8}) q8

def t0 : State := let s := ((withStreams up {q8 with gen := 1}).setBufWord 4103 2 ⟨77, true, .clean⟩); s.setCore 32 { s.core 32 with lds := [⟨-3, 1, 4, 0x01002007, 2, true⟩], cur := none, cyc := 5 }

def u0 : State := let s := (withStreams up q8); s.setCore 32 { s.core 32 with sts := [⟨-3, 1, 0x01002007, 2, ⟨5,true,.clean⟩⟩], cur := none, cyc := 5 }

def s91 : State := onCore (ins 26 3 1 0 0 + 0x10) {cx [(1,1048576),(3,55)] with gpois := 0}

def s95 : State := onCore (ins 27 3 1 0 0 + 0x10) {cx [(1,1048576),(3,55)] with gpois := 0}

def s99 : State := onCore (ins 28 0 0 0 0) {cx [(1,1048576),(3,55)] with gpois := 0}

def u1 : State := let s := up.setCtx 32 3 {cx [] with bpws := [⟨7, w32 R.STCH_HOLD_LIMIT, 0x1234ABCD⟩]}; s.setCore 32 {s.core 32 with cyc := 5}

def s103 : State := withStreams (onCore (ins 0x1D 3 1 0 2) {cx [(1,0x01000005),(3,55)] with gpois := 8, p := 0xF}) (q8)

def s105 : State := withStreams (onCore (ins 0x1D 3 1 0 2) {cx [(1,0x01000005),(3,55)] with gpois := 8, p := 0xF}) ({q8 with words := [⟨⟨6,false,.clean⟩,true⟩], opens := [⟨512,[PWord.clean 1,PWord.clean 2,PWord.clean 2,PWord.clean 2,PWord.clean 2,PWord.clean 2]⟩,⟨7,[PWord.clean 3]⟩]})

def s106 : State := withStreams (onCore (ins 0x1D 3 1 0 6) {cx [(1,0x01000005),(3,55)] with gpois := 8, p := 0xF}) (q8)

def s108 : State := withStreams (onCore (ins 0x1D 3 1 0 6) {cx [(1,0x01000005),(3,55)] with gpois := 8, p := 0xF}) ({q8 with words := [⟨⟨6,false,.clean⟩,true⟩], opens := [⟨512,[PWord.clean 1,PWord.clean 2,PWord.clean 2,PWord.clean 2,PWord.clean 2,PWord.clean 2]⟩,⟨7,[PWord.clean 3]⟩]})

def s109 : State := withStreams (onCore (ins 0x1D 3 1 0 10) {cx [(1,0x01000005),(3,55)] with gpois := 8, p := 0xF}) (q8)

def s110 : State := withStreams (onCore (ins 0x1D 3 1 0 10) {cx [(1,0x01000005),(3,55)] with gpois := 8, p := 0xF}) ({q8 with words := [⟨⟨5,true,.clean⟩,false⟩,⟨⟨6,false,.clean⟩,true⟩], opens := [⟨512,[PWord.clean 1,PWord.clean 2]⟩,⟨7,[PWord.clean 3]⟩]})

def s112 : State := withStreams (onCore (ins 0x1D 3 1 0 14) {cx [(1,0x01000005),(3,55)] with gpois := 8, p := 0xF}) (q8)

def s115 : State := withStreams (onCore (ins 0x1D 3 1 0 18) {cx [(1,0x01000005),(3,55)] with gpois := 8, p := 0xF}) (q8)

def s118 : State := withStreams (onCore (ins 0x1D 3 1 0 22) {cx [(1,0x01000005),(3,55)] with gpois := 8, p := 0xF}) (q8)

def qv : QWord := ⟨⟨5,true,.clean⟩,false⟩

def qr : List QWord := [⟨⟨6,false,.clean⟩,true⟩]

def s121 : State := withStreams (onCore (ins 0x1D 3 1 0 14) {cx [(1,0x01000005),(3,55)] with gpois := 8, p := 0xF}) ({q8 with words := [⟨⟨5,true,.clean⟩,false⟩,⟨⟨6,false,.clean⟩,true⟩], opens := [⟨512,[PWord.clean 1,PWord.clean 2]⟩,⟨7,[PWord.clean 3]⟩]})

/-- The hypotheses of LocalMemory can be met. -/
theorem wit_LocalMemory :
    (∃ (s : State) (core : Nat) (c : Nat) (a : Nat) (w : Word) (sl : Slot),
      s.Issues core c Adt.ldl w sl ∧
      (s.ctx core c).Reaches w 4 a) ∧
    (∃ (s : State) (core : Nat) (c : Nat) (a : Nat) (w : Word) (sl : Slot),
      s.Issues core c Adt.ldlh w sl ∧
      (s.ctx core c).Reaches w 2 a) ∧
    (∃ (s : State) (core : Nat) (c : Nat) (a : Nat) (w : Word) (sl : Slot),
      s.Issues core c Adt.stl w sl ∧
      (s.ctx core c).Reaches w 4 a) ∧
    (∃ (s : State) (core : Nat) (c : Nat) (a : Nat) (w : Word) (sl : Slot),
      s.Issues core c Adt.stlh w sl ∧
      (s.ctx core c).Reaches w 2 a) ∧
    (∃ (s : State) (core : Nat) (c : Nat) (a : Nat) (w : Word) (sl : Slot),
      s.Issues core c Adt.ldv w sl ∧
      (s.ctx core c).Reaches w 8 a) ∧
    (∃ (s : State) (core : Nat) (c : Nat) (a : Nat) (w : Word) (sl : Slot),
      s.Issues core c Adt.stv w sl ∧
      (s.ctx core c).Reaches w 8 a) :=
  ⟨⟨s1, (32 : Nat), (0:Nat), (0:Nat), (ins 16 3 1 0 0 + 4), slot0, issues_iff.2 (by decide +kernel), by constructor <;> (try unfold Ctx.Clean) <;> decide +kernel⟩,
   ⟨s13, (32 : Nat), (0:Nat), (0:Nat), (ins 17 3 1 0 0 + 4), slot0, issues_iff.2 (by decide +kernel), by constructor <;> (try unfold Ctx.Clean) <;> decide +kernel⟩,
   ⟨s37, (32 : Nat), (0:Nat), (0:Nat), (ins 18 3 1 0 0 + 4), slot0, issues_iff.2 (by decide +kernel), by constructor <;> (try unfold Ctx.Clean) <;> decide +kernel⟩,
   ⟨s49, (32 : Nat), (0:Nat), (0:Nat), (ins 19 3 1 0 0 + 4), slot0, issues_iff.2 (by decide +kernel), by constructor <;> (try unfold Ctx.Clean) <;> decide +kernel⟩,
   ⟨s73, (32 : Nat), (0:Nat), (0:Nat), (ins 20 3 1 0 0 + 4), slot0, issues_iff.2 (by decide +kernel), by constructor <;> (try unfold Ctx.Clean) <;> decide +kernel⟩,
   ⟨s79, (32 : Nat), (0:Nat), (0:Nat), (ins 21 3 1 0 0 + 4), slot0, issues_iff.2 (by decide +kernel), by constructor <;> (try unfold Ctx.Clean) <;> decide +kernel⟩⟩

/-- The hypotheses of StreamAccess can be met. -/
theorem wit_StreamAccess :
    (∃ (s : State) (core : Nat) (c : Nat) (key : Nat) (w : Word) (sl : Slot),
      s.Issues core c Adt.lds w sl ∧
      (s.ctx core c).Clean (raField w) ∧
      (s.ctx core c).Clean (rbField w) ∧
      s.namedBuffer ((s.ctx core c).a w) = some key ∧
      (s.stream key).absent = false ∧
      BitVec.toNat ((s.ctx core c).b w) % 4 = 0 ∧
      BitVec.toNat ((s.ctx core c).b w) < (s.stream key).size) ∧
    (∃ (s : State) (core : Nat) (c : Nat) (key : Nat) (w : Word) (sl : Slot),
      s.Issues core c Adt.sts w sl ∧
      (s.ctx core c).Clean (raField w) ∧
      (s.ctx core c).Clean (rbField w) ∧
      s.namedBuffer ((s.ctx core c).a w) = some key ∧
      (s.stream key).absent = false ∧
      BitVec.toNat ((s.ctx core c).b w) % 4 = 0 ∧
      BitVec.toNat ((s.ctx core c).b w) < (s.stream key).size) ∧
    (∃ (s : State) (core : Nat) (c : Nat) (l : Lds),
      (∀ (c : Nat), (s.ctx core c).bpws = []) ∧
      s.runningSlot core = none ∧
      (s.core core).sts = [] ∧
      (s.core core).qops = [] ∧
      (s.core core).lds = [l] ∧
      l.ready < ↑s.cycles ∧
      l.keep = true ∧
      s.namedBuffer l.handle = some c ∧
      (s.bufWord c l.off).err = WordError.clean ∧
      (s.wordIn c (l.off ^^^ 1)).err = WordError.clean) ∧
    (∃ (s : State) (core : Nat) (c : Nat) (x : Sts),
      (∀ (c : Nat), (s.ctx core c).bpws = []) ∧
      s.runningSlot core = none ∧
      (s.core core).lds = [] ∧
      (s.core core).qops = [] ∧
      (s.core core).sts = [x] ∧
      x.ready < ↑s.cycles ∧
      s.namedBuffer x.handle = some c) :=
  ⟨⟨s85, (32 : Nat), (0:Nat), (4103:Nat), (ins 24 3 1 2 0), slot0, issues_iff.2 (by decide +kernel), by unfold Ctx.Clean; decide +kernel⟩,
   ⟨s88, (32 : Nat), (0:Nat), (4103:Nat), (ins 25 3 1 2 0), slot0, issues_iff.2 (by decide +kernel), by unfold Ctx.Clean; decide +kernel⟩,
   ⟨t0, (32 : Nat), (4103:Nat), (⟨-3, 1, 4, 0x01002007, 2, true⟩ : Lds), fun _ => sget_all (P := fun x : Ctx => x.bpws = []) _ (by decide +kernel) rfl _, by decide +kernel⟩,
   ⟨u0, (32 : Nat), (4103:Nat), (⟨-3, 1, 0x01002007, 2, ⟨5,true,.clean⟩⟩ : Sts), fun _ => sget_all (P := fun x : Ctx => x.bpws = []) _ (by decide +kernel) rfl _, by decide +kernel⟩⟩

/-- The hypotheses of BlockPort can be met. -/
theorem wit_BlockPort :
    (∃ (s : State) (core : Nat) (c : Nat) (b : Bpw),
      s.Reaches (Source.core core c) R.STCH_HOLD_LIMIT ∧
      s.runningSlot core = none ∧
      (s.core core).lds = [] ∧
      (s.core core).sts = [] ∧
      (s.core core).qops = [] ∧
      (∀ (d : Nat), d < 16 → d ≠ c → (s.ctx core d).bpws = []) ∧
      c < 16 ∧
      (s.ctx core c).bpws = [b] ∧
      b.ready < ↑s.cycles ∧
      b.addr = w32 R.STCH_HOLD_LIMIT) ∧
    (∃ (s : State) (core : Nat) (c : Nat) (w : Word) (sl : Slot),
      s.Issues core c Adt.bpr w sl ∧
      (s.ctx core c).Clean (raField w) ∧
      BitVec.toNat ((s.ctx core c).a w + simm12 w) % 4 = 0) ∧
    (∃ (s : State) (core : Nat) (c : Nat) (w : Word) (sl : Slot),
      s.Issues core c Adt.bpw w sl ∧
      (s.ctx core c).Clean (raField w) ∧
      (s.ctx core c).Clean (rdField w) ∧
      BitVec.toNat ((s.ctx core c).a w + simm12 w) % 4 = 0) ∧
    (∃ (s : State) (core : Nat) (c : Nat) (w : Word) (sl : Slot),
      s.Issues core c Adt.bpf w sl) :=
  ⟨⟨u1, (32 : Nat), (3:Nat), (⟨7, w32 R.STCH_HOLD_LIMIT, 0x1234ABCD⟩ : Bpw), by constructor <;> (try unfold Ctx.Clean) <;> decide +kernel, by decide +kernel⟩,
   ⟨s91, (32 : Nat), (0:Nat), (ins 26 3 1 0 0 + 0x10), slot0, issues_iff.2 (by decide +kernel), by unfold Ctx.Clean; decide +kernel⟩,
   ⟨s95, (32 : Nat), (0:Nat), (ins 27 3 1 0 0 + 0x10), slot0, issues_iff.2 (by decide +kernel), by unfold Ctx.Clean; decide +kernel⟩,
   ⟨s99, (32 : Nat), (0:Nat), (ins 28 0 0 0 0), slot0, issues_iff.2 (by decide +kernel)⟩⟩

/-- The hypotheses of QueueInstructions can be met. -/
theorem wit_QueueInstructions :
    (∃ (s : State) (core : Nat) (c : Nat) (key : Nat) (w : Word) (sl : Slot),
      s.Issues core c Adt.qpsh w sl ∧
      (s.ctx core c).Clean (raField w) ∧
      s.namedQueue ((s.ctx core c).a w) = some key ∧
      (s.stream key).spill = false ∧
      (s.stream key).absent = false ∧
      ¬16 * core + c ∈ (s.stream key).cut ∧
      (¬((s.stream key).size ≤ (s.stream key).occupancy ∨ (findOpen (16 * core + c) (s.stream key).opens).isNone = true ∧ 16 ≤ (s.stream key).opens.length))) ∧
    (∃ (s : State) (core : Nat) (c : Nat) (key : Nat) (w : Word) (sl : Slot),
      s.Issues core c Adt.qpsh w sl ∧
      (s.ctx core c).Clean (raField w) ∧
      s.namedQueue ((s.ctx core c).a w) = some key ∧
      (s.stream key).spill = false ∧
      (s.stream key).absent = false ∧
      ¬16 * core + c ∈ (s.stream key).cut ∧
      ((s.stream key).size ≤ (s.stream key).occupancy ∨ (findOpen (16 * core + c) (s.stream key).opens).isNone = true ∧ 16 ≤ (s.stream key).opens.length)) ∧
    (∃ (s : State) (core : Nat) (c : Nat) (key : Nat) (w : Word) (sl : Slot),
      s.Issues core c Adt.qend w sl ∧
      (s.ctx core c).Clean (raField w) ∧
      s.namedQueue ((s.ctx core c).a w) = some key ∧
      (s.stream key).spill = false ∧
      (s.stream key).absent = false ∧
      ¬16 * core + c ∈ (s.stream key).cut ∧
      (¬((s.stream key).size ≤ (s.stream key).occupancy ∨ (findOpen (16 * core + c) (s.stream key).opens).isNone = true ∧ 16 ≤ (s.stream key).opens.length))) ∧
    (∃ (s : State) (core : Nat) (c : Nat) (key : Nat) (w : Word) (sl : Slot),
      s.Issues core c Adt.qend w sl ∧
      (s.ctx core c).Clean (raField w) ∧
      s.namedQueue ((s.ctx core c).a w) = some key ∧
      (s.stream key).spill = false ∧
      (s.stream key).absent = false ∧
      ¬16 * core + c ∈ (s.stream key).cut ∧
      ((s.stream key).size ≤ (s.stream key).occupancy ∨ (findOpen (16 * core + c) (s.stream key).opens).isNone = true ∧ 16 ≤ (s.stream key).opens.length)) ∧
    (∃ (s : State) (core : Nat) (c : Nat) (key : Nat) (w : Word) (sl : Slot),
      s.Issues core c Adt.qbad w sl ∧
      (s.ctx core c).Clean (raField w) ∧
      s.namedQueue ((s.ctx core c).a w) = some key ∧
      (s.stream key).spill = false ∧
      (s.stream key).absent = false ∧
      ¬16 * core + c ∈ (s.stream key).cut ∧
      findOpen (16 * core + c) (s.stream key).opens = none) ∧
    (∃ (s : State) (core : Nat) (c : Nat) (key : Nat) (w : Word) (sl : Slot),
      s.Issues core c Adt.qbad w sl ∧
      (s.ctx core c).Clean (raField w) ∧
      s.namedQueue ((s.ctx core c).a w) = some key ∧
      (s.stream key).spill = false ∧
      (s.stream key).absent = false ∧
      ¬16 * core + c ∈ (s.stream key).cut ∧
      (findOpen (16 * core + c) (s.stream key).opens).isSome = true) ∧
    (∃ (s : State) (core : Nat) (c : Nat) (key : Nat) (w : Word) (sl : Slot),
      s.Issues core c Adt.qpop w sl ∧
      (s.ctx core c).Clean (raField w) ∧
      s.namedQueue ((s.ctx core c).a w) = some key ∧
      (s.stream key).spill = false ∧
      (s.stream key).absent = false ∧
      (s.stream key).words = []) ∧
    (∃ (s : State) (core : Nat) (c : Nat) (key : Nat) (w : Word) (sl : Slot),
      s.Issues core c Adt.qlen w sl ∧
      (s.ctx core c).Clean (raField w) ∧
      s.namedQueue ((s.ctx core c).a w) = some key ∧
      (s.stream key).spill = false ∧
      (s.stream key).absent = false) ∧
    (∃ (s : State) (core : Nat) (c : Nat) (key : Nat) (w : Word) (sl : Slot),
      s.Issues core c Adt.qflush w sl ∧
      (s.ctx core c).Clean (raField w) ∧
      s.namedQueue ((s.ctx core c).a w) = some key ∧
      (s.stream key).spill = false ∧
      (s.stream key).absent = false ∧
      (∀ (e : SpillWait), e ∈ s.sb.waits → e.key ≠ key)) ∧
    (∃ (s : State) (core : Nat) (c : Nat) (key : Nat) (v : QWord) (rest : List QWord) (w : Word) (sl : Slot),
      s.Issues core c Adt.qpop w sl ∧
      (s.ctx core c).Clean (raField w) ∧
      s.namedQueue ((s.ctx core c).a w) = some key ∧
      (s.stream key).spill = false ∧
      (s.stream key).absent = false ∧
      (s.stream key).words = v :: rest ∧
      worseError v.word.err ((s.stream key).pop.q.ringWord ((s.stream key).popped ^^^ 1)).err = WordError.clean) ∧
    (∃ (s : State) (core : Nat) (c : Nat) (key : Nat) (w : Word) (sl : Slot),
      s.Issues core c Adt.qpsh w sl ∧
      (s.ctx core c).Clean (raField w) ∧
      s.namedQueue ((s.ctx core c).a w) = some key ∧
      (s.stream key).spill = false ∧
      (s.stream key).absent = true) ∧
    (∃ (s : State) (core : Nat) (c : Nat) (key : Nat) (w : Word) (sl : Slot),
      s.Issues core c Adt.qpsh w sl ∧
      (s.ctx core c).Clean (raField w) ∧
      (s.namedQueue ((s.ctx core c).a w) = none ∨ s.namedQueue ((s.ctx core c).a w) = some key ∧ (s.stream key).spill = true) ∧
      (s.core core).cyc + 60 ≤ sl.stop ∧
      (∀ (d : Int × Due), d ∈ s.dueList core → ↑((s.core core).cyc + 60) < d.fst) ∧
      (s.ctx core c).stat &&& statExc = 0 ∧
      (s.ctx core c).trapvec ≠ 0) ∧
    (∃ (s : State) (core : Nat) (c : Nat) (key : Nat) (w : Word) (sl : Slot),
      s.Issues core c Adt.qend w sl ∧
      (s.ctx core c).Clean (raField w) ∧
      s.namedQueue ((s.ctx core c).a w) = some key ∧
      (s.stream key).spill = false ∧
      (s.stream key).absent = true) ∧
    (∃ (s : State) (core : Nat) (c : Nat) (key : Nat) (w : Word) (sl : Slot),
      s.Issues core c Adt.qend w sl ∧
      (s.ctx core c).Clean (raField w) ∧
      (s.namedQueue ((s.ctx core c).a w) = none ∨ s.namedQueue ((s.ctx core c).a w) = some key ∧ (s.stream key).spill = true) ∧
      (s.core core).cyc + 60 ≤ sl.stop ∧
      (∀ (d : Int × Due), d ∈ s.dueList core → ↑((s.core core).cyc + 60) < d.fst) ∧
      (s.ctx core c).stat &&& statExc = 0 ∧
      (s.ctx core c).trapvec ≠ 0) ∧
    (∃ (s : State) (core : Nat) (c : Nat) (key : Nat) (w : Word) (sl : Slot),
      s.Issues core c Adt.qbad w sl ∧
      (s.ctx core c).Clean (raField w) ∧
      s.namedQueue ((s.ctx core c).a w) = some key ∧
      (s.stream key).spill = false ∧
      (s.stream key).absent = true) ∧
    (∃ (s : State) (core : Nat) (c : Nat) (key : Nat) (w : Word) (sl : Slot),
      s.Issues core c Adt.qbad w sl ∧
      (s.ctx core c).Clean (raField w) ∧
      (s.namedQueue ((s.ctx core c).a w) = none ∨ s.namedQueue ((s.ctx core c).a w) = some key ∧ (s.stream key).spill = true) ∧
      (s.core core).cyc + 60 ≤ sl.stop ∧
      (∀ (d : Int × Due), d ∈ s.dueList core → ↑((s.core core).cyc + 60) < d.fst) ∧
      (s.ctx core c).stat &&& statExc = 0 ∧
      (s.ctx core c).trapvec ≠ 0) ∧
    (∃ (s : State) (core : Nat) (c : Nat) (key : Nat) (w : Word) (sl : Slot),
      s.Issues core c Adt.qpop w sl ∧
      (s.ctx core c).Clean (raField w) ∧
      s.namedQueue ((s.ctx core c).a w) = some key ∧
      (s.stream key).spill = false ∧
      (s.stream key).absent = true) ∧
    (∃ (s : State) (core : Nat) (c : Nat) (key : Nat) (w : Word) (sl : Slot),
      s.Issues core c Adt.qpop w sl ∧
      (s.ctx core c).Clean (raField w) ∧
      (s.namedQueue ((s.ctx core c).a w) = none ∨ s.namedQueue ((s.ctx core c).a w) = some key ∧ (s.stream key).spill = true) ∧
      (s.core core).cyc + 60 ≤ sl.stop ∧
      (∀ (d : Int × Due), d ∈ s.dueList core → ↑((s.core core).cyc + 60) < d.fst) ∧
      (s.ctx core c).stat &&& statExc = 0 ∧
      (s.ctx core c).trapvec ≠ 0) ∧
    (∃ (s : State) (core : Nat) (c : Nat) (key : Nat) (w : Word) (sl : Slot),
      s.Issues core c Adt.qlen w sl ∧
      (s.ctx core c).Clean (raField w) ∧
      s.namedQueue ((s.ctx core c).a w) = some key ∧
      (s.stream key).spill = false ∧
      (s.stream key).absent = true) ∧
    (∃ (s : State) (core : Nat) (c : Nat) (key : Nat) (w : Word) (sl : Slot),
      s.Issues core c Adt.qlen w sl ∧
      (s.ctx core c).Clean (raField w) ∧
      (s.namedQueue ((s.ctx core c).a w) = none ∨ s.namedQueue ((s.ctx core c).a w) = some key ∧ (s.stream key).spill = true) ∧
      (s.core core).cyc + 60 ≤ sl.stop ∧
      (∀ (d : Int × Due), d ∈ s.dueList core → ↑((s.core core).cyc + 60) < d.fst) ∧
      (s.ctx core c).stat &&& statExc = 0 ∧
      (s.ctx core c).trapvec ≠ 0) ∧
    (∃ (s : State) (core : Nat) (c : Nat) (key : Nat) (w : Word) (sl : Slot),
      s.Issues core c Adt.qflush w sl ∧
      (s.ctx core c).Clean (raField w) ∧
      s.namedQueue ((s.ctx core c).a w) = some key ∧
      (s.stream key).spill = false ∧
      (s.stream key).absent = true) ∧
    (∃ (s : State) (core : Nat) (c : Nat) (key : Nat) (w : Word) (sl : Slot),
      s.Issues core c Adt.qflush w sl ∧
      (s.ctx core c).Clean (raField w) ∧
      (s.namedQueue ((s.ctx core c).a w) = none ∨ s.namedQueue ((s.ctx core c).a w) = some key ∧ (s.stream key).spill = true) ∧
      (s.core core).cyc + 60 ≤ sl.stop ∧
      (∀ (d : Int × Due), d ∈ s.dueList core → ↑((s.core core).cyc + 60) < d.fst) ∧
      (s.ctx core c).stat &&& statExc = 0 ∧
      (s.ctx core c).trapvec ≠ 0) ∧
    (∃ (s : State) (core : Nat) (c : Nat) (key : Nat) (w : Word) (sl : Slot),
      s.Issues core c Adt.qpsh w sl ∧
      (s.ctx core c).Clean (raField w) ∧
      s.namedQueue ((s.ctx core c).a w) = some key ∧
      (s.stream key).spill = false ∧
      (s.stream key).absent = false ∧
      16 * core + c ∈ (s.stream key).cut) ∧
    (∃ (s : State) (core : Nat) (c : Nat) (key : Nat) (w : Word) (sl : Slot),
      s.Issues core c Adt.qend w sl ∧
      (s.ctx core c).Clean (raField w) ∧
      s.namedQueue ((s.ctx core c).a w) = some key ∧
      (s.stream key).spill = false ∧
      (s.stream key).absent = false ∧
      16 * core + c ∈ (s.stream key).cut) ∧
    (∃ (s : State) (core : Nat) (c : Nat) (key : Nat) (w : Word) (sl : Slot),
      s.Issues core c Adt.qbad w sl ∧
      (s.ctx core c).Clean (raField w) ∧
      s.namedQueue ((s.ctx core c).a w) = some key ∧
      (s.stream key).spill = false ∧
      (s.stream key).absent = false ∧
      16 * core + c ∈ (s.stream key).cut) ∧
    (∃ (s : State) (core : Nat) (c : Nat) (key : Nat) (v : QWord) (rest : List QWord) (w : Word) (sl : Slot),
      s.Issues core c Adt.qpop w sl ∧
      (s.ctx core c).Clean (raField w) ∧
      s.namedQueue ((s.ctx core c).a w) = some key ∧
      (s.stream key).spill = false ∧
      (s.stream key).absent = false ∧
      (s.stream key).words = v :: rest ∧
      v.word.err = WordError.double) :=
  ⟨⟨s103, (32 : Nat), (0:Nat), (5:Nat), (ins 0x1D 3 1 0 2), slot0, issues_iff.2 (by decide +kernel), by unfold Ctx.Clean; decide +kernel⟩,
   ⟨s105, (32 : Nat), (0:Nat), (5:Nat), (ins 0x1D 3 1 0 2), slot0, issues_iff.2 (by decide +kernel), by unfold Ctx.Clean; decide +kernel⟩,
   ⟨s106, (32 : Nat), (0:Nat), (5:Nat), (ins 0x1D 3 1 0 6), slot0, issues_iff.2 (by decide +kernel), by unfold Ctx.Clean; decide +kernel⟩,
   ⟨s108, (32 : Nat), (0:Nat), (5:Nat), (ins 0x1D 3 1 0 6), slot0, issues_iff.2 (by decide +kernel), by unfold Ctx.Clean; decide +kernel⟩,
   ⟨s109, (32 : Nat), (0:Nat), (5:Nat), (ins 0x1D 3 1 0 10), slot0, issues_iff.2 (by decide +kernel), by unfold Ctx.Clean; decide +kernel⟩,
   ⟨s110, (32 : Nat), (0:Nat), (5:Nat), (ins 0x1D 3 1 0 10), slot0, issues_iff.2 (by decide +kernel), by unfold Ctx.Clean; decide +kernel⟩,
   ⟨s112, (32 : Nat), (0:Nat), (5:Nat), (ins 0x1D 3 1 0 14), slot0, issues_iff.2 (by decide +kernel), by unfold Ctx.Clean; decide +kernel⟩,
   ⟨s115, (32 : Nat), (0:Nat), (5:Nat), (ins 0x1D 3 1 0 18), slot0, issues_iff.2 (by decide +kernel), by unfold Ctx.Clean; decide +kernel⟩,
   ⟨s118, (32 : Nat), (0:Nat), (5:Nat), (ins 0x1D 3 1 0 22), slot0, issues_iff.2 (by decide +kernel), by unfold Ctx.Clean; decide +kernel⟩,
   ⟨s121, (32 : Nat), (0:Nat), (5:Nat), qv, qr, (ins 0x1D 3 1 0 14), slot0, issues_iff.2 (by decide +kernel), by unfold Ctx.Clean; decide +kernel⟩,
   ⟨withStreams (onCore (ins 0x1D 3 1 0 2) {cx [(1,0x01000005),(3,55)] with gpois := 8, p := 0xF}) {q8 with absent := true}, (32 : Nat), (0:Nat), (5:Nat), (ins 0x1D 3 1 0 2), slot0, issues_iff.2 (by decide +kernel), by unfold Ctx.Clean; decide +kernel⟩,
   ⟨withStreams (onCore (ins 0x1D 3 1 0 2) {cx [(1,0x02000005),(3,55)] with gpois := 8, p := 0xF}) q8, (32 : Nat), (0:Nat), (5:Nat), (ins 0x1D 3 1 0 2), slot0, issues_iff.2 (by decide +kernel), by unfold Ctx.Clean; decide +kernel⟩,
   ⟨withStreams (onCore (ins 0x1D 3 1 0 6) {cx [(1,0x01000005),(3,55)] with gpois := 8, p := 0xF}) {q8 with absent := true}, (32 : Nat), (0:Nat), (5:Nat), (ins 0x1D 3 1 0 6), slot0, issues_iff.2 (by decide +kernel), by unfold Ctx.Clean; decide +kernel⟩,
   ⟨withStreams (onCore (ins 0x1D 3 1 0 6) {cx [(1,0x02000005),(3,55)] with gpois := 8, p := 0xF}) q8, (32 : Nat), (0:Nat), (5:Nat), (ins 0x1D 3 1 0 6), slot0, issues_iff.2 (by decide +kernel), by unfold Ctx.Clean; decide +kernel⟩,
   ⟨withStreams (onCore (ins 0x1D 3 1 0 10) {cx [(1,0x01000005),(3,55)] with gpois := 8, p := 0xF}) {q8 with absent := true}, (32 : Nat), (0:Nat), (5:Nat), (ins 0x1D 3 1 0 10), slot0, issues_iff.2 (by decide +kernel), by unfold Ctx.Clean; decide +kernel⟩,
   ⟨withStreams (onCore (ins 0x1D 3 1 0 10) {cx [(1,0x02000005),(3,55)] with gpois := 8, p := 0xF}) q8, (32 : Nat), (0:Nat), (5:Nat), (ins 0x1D 3 1 0 10), slot0, issues_iff.2 (by decide +kernel), by unfold Ctx.Clean; decide +kernel⟩,
   ⟨withStreams (onCore (ins 0x1D 3 1 0 14) {cx [(1,0x01000005),(3,55)] with gpois := 8, p := 0xF}) {q8 with absent := true}, (32 : Nat), (0:Nat), (5:Nat), (ins 0x1D 3 1 0 14), slot0, issues_iff.2 (by decide +kernel), by unfold Ctx.Clean; decide +kernel⟩,
   ⟨withStreams (onCore (ins 0x1D 3 1 0 14) {cx [(1,0x02000005),(3,55)] with gpois := 8, p := 0xF}) q8, (32 : Nat), (0:Nat), (5:Nat), (ins 0x1D 3 1 0 14), slot0, issues_iff.2 (by decide +kernel), by unfold Ctx.Clean; decide +kernel⟩,
   ⟨withStreams (onCore (ins 0x1D 3 1 0 18) {cx [(1,0x01000005),(3,55)] with gpois := 8, p := 0xF}) {q8 with absent := true}, (32 : Nat), (0:Nat), (5:Nat), (ins 0x1D 3 1 0 18), slot0, issues_iff.2 (by decide +kernel), by unfold Ctx.Clean; decide +kernel⟩,
   ⟨withStreams (onCore (ins 0x1D 3 1 0 18) {cx [(1,0x02000005),(3,55)] with gpois := 8, p := 0xF}) q8, (32 : Nat), (0:Nat), (5:Nat), (ins 0x1D 3 1 0 18), slot0, issues_iff.2 (by decide +kernel), by unfold Ctx.Clean; decide +kernel⟩,
   ⟨withStreams (onCore (ins 0x1D 3 1 0 22) {cx [(1,0x01000005),(3,55)] with gpois := 8, p := 0xF}) {q8 with absent := true}, (32 : Nat), (0:Nat), (5:Nat), (ins 0x1D 3 1 0 22), slot0, issues_iff.2 (by decide +kernel), by unfold Ctx.Clean; decide +kernel⟩,
   ⟨withStreams (onCore (ins 0x1D 3 1 0 22) {cx [(1,0x02000005),(3,55)] with gpois := 8, p := 0xF}) q8, (32 : Nat), (0:Nat), (5:Nat), (ins 0x1D 3 1 0 22), slot0, issues_iff.2 (by decide +kernel), by unfold Ctx.Clean; decide +kernel⟩,
   ⟨withStreams (onCore (ins 0x1D 3 1 0 2) {cx [(1,0x01000005),(3,55)] with gpois := 8, p := 0xF}) {q8 with cut := [512]}, (32 : Nat), (0:Nat), (5:Nat), (ins 0x1D 3 1 0 2), slot0, issues_iff.2 (by decide +kernel), by unfold Ctx.Clean; decide +kernel⟩,
   ⟨withStreams (onCore (ins 0x1D 3 1 0 6) {cx [(1,0x01000005),(3,55)] with gpois := 8, p := 0xF}) {q8 with cut := [512]}, (32 : Nat), (0:Nat), (5:Nat), (ins 0x1D 3 1 0 6), slot0, issues_iff.2 (by decide +kernel), by unfold Ctx.Clean; decide +kernel⟩,
   ⟨withStreams (onCore (ins 0x1D 3 1 0 10) {cx [(1,0x01000005),(3,55)] with gpois := 8, p := 0xF}) {q8 with cut := [512]}, (32 : Nat), (0:Nat), (5:Nat), (ins 0x1D 3 1 0 10), slot0, issues_iff.2 (by decide +kernel), by unfold Ctx.Clean; decide +kernel⟩,
   ⟨withStreams (onCore (ins 0x1D 3 1 0 14) {cx [(1,0x01000005),(3,55)] with gpois := 8, p := 0xF}) {q8 with words := [⟨⟨5,false,.double⟩,true⟩]}, (32 : Nat), (0:Nat), (5:Nat), (⟨⟨5,false,.double⟩,true⟩ : QWord), ([] : List QWord), (ins 0x1D 3 1 0 14), slot0, issues_iff.2 (by decide +kernel), by unfold Ctx.Clean; decide +kernel⟩⟩

end LocalMemoryMet

namespace BranchesAndLoopsMet

def at16 (w : Word) (x : Ctx) : State :=
  let s := onCore w { x with pc := 16 }
  s.setCore 32 { s.core 32 with imem := [(4, PWord.clean w)] }

def s1 : State := at16 (ins 0x20 0 0 0 0 + 1) (cx [])

def s4 : State := at16 (ins 0x20 0 0 0 0 + 1) {cx [] with loops := [⟨12,28,3,0⟩]}

def s6 : State := at16 (ins 0x20 0 0 0 0 + 3) {cx [] with loops := [⟨12,28,3,0⟩]}

def s7 : State := at16 (ins 0x21 0 0 0 0 + 1) {cx [] with calls := []}

def s9 : State := at16 (ins 0x21 0 0 0 0 + 1) {cx [] with calls := [4,8,12,16,20,24,28,32]}

def s19 : State := at16 (ins 0x22 0 0 0 0) {cx [] with calls := [8,4]}

def s20 : State := at16 (ins 0x22 0 0 0 0) {cx [] with calls := []}

def s21 : State := at16 (ins 0x23 3 0 0 0 + 2051) {cx [(3,5)] with stat := 1}

def s23 : State := at16 (ins 0x23 3 0 0 0 + 2051) {cx [(3,0)] with stat := 1}

def s26 : State := at16 (ins 0x24 0 0 0 0) {cx [] with loops := [⟨8,20,3,0⟩,⟨4,40,3,0⟩]}

def s21b : State := at16 (ins 0x23 3 0 0 0 + 2051) {cx [(3,5)] with loops := [⟨4,18,3,0⟩], trapvec := 0x40}

def s27 : State := { at16 (ins 0x25 3 0 0 0 + 0) {cx [] with stat := 17, qst := 5, epc := 7, ecause := 9, eaddr := 11, gpois := 0xF0, vpois := 0x81} with stitch := 0x123456789}

def s40 : State := at16 (ins 0x26 3 0 0 0 + 0) {cx [(3,0xFFFFFFFF)] with stat := 0x1F}

def s42 : State := (at16 (ins 0x24 0 0 0 0 + 0) {cx [] with stat := 0x1F, calls := [4], loops := [⟨8,32,3,1⟩], qst := 9}).setFld (F.TC_CTX_CTRL_STARVE 32 0) 0

def s43 : State := (at16 (ins 0x24 0 0 0 0 + 1) {cx [] with stat := 0x1F, calls := [4], loops := [⟨8,32,3,1⟩], qst := 9}).setFld (F.TC_CTX_CTRL_STARVE 32 0) 3

def s45 : State := at16 (ins 0x27 0 0 0 0 + 0x12345) {cx [(1,0)] with stat := 0, trapvec := 64, calls := [4]}

def s48 : State := at16 (ins 0x10 3 1 0 0 + 4) {cx [(1,65536)] with stat := 0, trapvec := 64, calls := [4]}

def s49 : State := at16 (ins 0x10 3 1 0 0 + 5) {cx [(1,0)] with stat := 0, trapvec := 64, calls := [4]}

def s51 : State := at16 (ins 0x3F 1 1 1 1) {cx [(1,0)] with stat := 0, trapvec := 64, calls := [4]}

def s53 : State := at16 (ins 0x27 0 0 0 0 + 0x12345) {cx [(1,0)] with stat := 0, trapvec := 0, calls := [4]}

/-- The hypotheses of BranchesAndLoops can be met. -/
theorem wit_BranchesAndLoops :
    (∃ (s : State) (core : Nat) (c : Nat) (a : BitVec 16) (rest : List (BitVec 16)) (w : Word) (sl : Slot),
      s.Issues core c Adt.ret w sl ∧
      (s.ctx core c).calls = a :: rest ∧
      (0 ≤ (a.toNat : Int) ∧ inPartition (s.ctx core c).iFirst (s.ctx core c).iLast (a.toNat : Int).toNat = true) ∧
      (s.ctx core c).loops = []) ∧
    (∃ (s : State) (core : Nat) (c : Nat) (w : Word) (sl : Slot),
      s.Issues core c Adt.loop w sl ∧
      (s.ctx core c).Clean (rdField w) ∧
      (s.ctx core c).loops = [] ∧
      min (BitVec.toNat ((s.ctx core c).d w)) (BitVec.toNat w % 2 ^ 10) ≠ 0 ∧
      BitVec.toNat w / 2 ^ 10 % 2 ^ 7 ≠ 0 ∧
      loopCheck (s.ctx core c) w = none) ∧
    (∃ (s : State) (core : Nat) (c : Nat) (l : LoopFrame) (ls : List LoopFrame),
      (s.ctx core c).loops = l :: ls ∧
      (s.ctx core c).pc.toNat + 4 = l.stop ∧
      l.start ≤ (s.ctx core c).pc.toNat ∧
      l.depth = (s.ctx core c).calls.length ∧
      1 < l.trips) ∧
    (∃ (s : State) (core : Nat) (c : Nat) (w : Word) (sl : Slot),
      s.Issues core c Adt.b w sl ∧
      (0 ≤ ↑(s.ctx core c).pc.toNat + 4 * signed 22 (BitVec.toNat w % 2 ^ 22) ∧ inPartition (s.ctx core c).iFirst (s.ctx core c).iLast (↑(s.ctx core c).pc.toNat + 4 * signed 22 (BitVec.toNat w % 2 ^ 22)).toNat = true) ∧
      (s.ctx core c).loops = []) ∧
    (∃ (s : State) (core : Nat) (c : Nat) (l : LoopFrame) (w : Word) (sl : Slot),
      s.Issues core c Adt.b w sl ∧
      (0 ≤ ↑(s.ctx core c).pc.toNat + 4 * signed 22 (BitVec.toNat w % 2 ^ 22) ∧ inPartition (s.ctx core c).iFirst (s.ctx core c).iLast (↑(s.ctx core c).pc.toNat + 4 * signed 22 (BitVec.toNat w % 2 ^ 22)).toNat = true) ∧
      (s.ctx core c).loops = [l] ∧
      l.depth = (s.ctx core c).calls.length ∧
      l.start ≤ (s.ctx core c).pc.toNat ∧
      (s.ctx core c).pc.toNat < l.stop ∧
      ↑l.start ≤ ↑(s.ctx core c).pc.toNat + 4 * signed 22 (BitVec.toNat w % 2 ^ 22) ∧
      ↑(s.ctx core c).pc.toNat + 4 * signed 22 (BitVec.toNat w % 2 ^ 22) ≤ ↑l.stop) ∧
    (∃ (s : State) (core : Nat) (c : Nat) (w : Word) (sl : Slot),
      s.Issues core c Adt.call w sl ∧
      (0 ≤ ↑(s.ctx core c).pc.toNat + 4 * signed 22 (BitVec.toNat w % 2 ^ 22) ∧ inPartition (s.ctx core c).iFirst (s.ctx core c).iLast (↑(s.ctx core c).pc.toNat + 4 * signed 22 (BitVec.toNat w % 2 ^ 22)).toNat = true) ∧
      (s.ctx core c).calls.length < 8) ∧
    (∃ (s : State) (core : Nat) (c : Nat) (w : Word) (sl : Slot),
      s.Issues core c Adt.call w sl ∧
      (0 ≤ ↑(s.ctx core c).pc.toNat + 4 * signed 22 (BitVec.toNat w % 2 ^ 22) ∧ inPartition (s.ctx core c).iFirst (s.ctx core c).iLast (↑(s.ctx core c).pc.toNat + 4 * signed 22 (BitVec.toNat w % 2 ^ 22)).toNat = true) ∧
      8 ≤ (s.ctx core c).calls.length ∧
      (s.core core).cyc + 6 ≤ sl.stop ∧
      (∀ (e : Int × Due), e ∈ s.dueList core → ↑((s.core core).cyc + 6) < e.fst) ∧
      (s.ctx core c).stat &&& statExc = 0 ∧
      (s.ctx core c).trapvec ≠ 0) ∧
    (∃ (s : State) (core : Nat) (c : Nat) (w : Word) (sl : Slot),
      s.Issues core c Adt.ret w sl ∧
      (s.ctx core c).calls = [] ∧
      (s.core core).cyc + 6 ≤ sl.stop ∧
      (∀ (e : Int × Due), e ∈ s.dueList core → ↑((s.core core).cyc + 6) < e.fst) ∧
      (s.ctx core c).stat &&& statExc = 0 ∧
      (s.ctx core c).trapvec ≠ 0) ∧
    (∃ (s : State) (core : Nat) (c : Nat) (w : Word) (sl : Slot),
      s.Issues core c Adt.loop w sl ∧
      (s.ctx core c).Clean (rdField w) ∧
      (s.ctx core c).loops = [] ∧
      (min (BitVec.toNat ((s.ctx core c).d w)) (BitVec.toNat w % 2 ^ 10) = 0 ∨ BitVec.toNat w / 2 ^ 10 % 2 ^ 7 = 0)) ∧
    (∃ (s : State) (core : Nat) (c : Nat) (w : Word) (sl : Slot) (ls : List LoopFrame),
      s.Issues core c Adt.b w sl ∧
      (0 ≤ ↑(s.ctx core c).pc.toNat + 4 * signed 22 (BitVec.toNat w % 2 ^ 22) ∧ inPartition (s.ctx core c).iFirst (s.ctx core c).iLast (↑(s.ctx core c).pc.toNat + 4 * signed 22 (BitVec.toNat w % 2 ^ 22)).toNat = true) ∧
      branchLoops (s.ctx core c).calls.length (s.ctx core c).pc.toNat (↑(s.ctx core c).pc.toNat + 4 * signed 22 (BitVec.toNat w % 2 ^ 22)).toNat (s.ctx core c).loops = some ls) ∧
    (∃ (s : State) (core : Nat) (c : Nat) (w : Word) (sl : Slot) (l : LoopFrame),
      s.Issues core c Adt.loop w sl ∧
      (s.ctx core c).Clean (rdField w) ∧
      min (BitVec.toNat ((s.ctx core c).d w)) (BitVec.toNat w % 2 ^ 10) ≠ 0 ∧
      BitVec.toNat w / 2 ^ 10 % 2 ^ 7 ≠ 0 ∧
      (2 ≤ (s.ctx core c).loops.length ∨ (s.ctx core c).loops = [l] ∧ l.depth = (s.ctx core c).calls.length ∧ l.stop < (s.ctx core c).pc.toNat + 4 + 4 * (BitVec.toNat w / 2 ^ 10 % 2 ^ 7)) ∧
      (s.core core).cyc + 6 ≤ sl.stop ∧
      (∀ (e : Int × Due), e ∈ s.dueList core → ↑((s.core core).cyc + 6) < e.fst) ∧
      (s.ctx core c).stat &&& statExc = 0 ∧
      (s.ctx core c).trapvec ≠ 0) :=
  ⟨⟨s19, (32 : Nat), (0:Nat), (8 : BitVec 16), ([4] : List (BitVec 16)), (ins 0x22 0 0 0 0), slot0, issues_iff.2 (by decide +kernel), by decide +kernel⟩,
   ⟨s21, (32 : Nat), (0:Nat), (ins 0x23 3 0 0 0 + 2051), slot0, issues_iff.2 (by decide +kernel), by unfold Ctx.Clean; decide +kernel⟩,
   ⟨s26, (32 : Nat), (0:Nat), (⟨8,20,3,0⟩ : LoopFrame), ([⟨4,40,3,0⟩] : List LoopFrame), by decide +kernel⟩,
   ⟨s1, (32 : Nat), (0:Nat), (ins 0x20 0 0 0 0 + 1), slot0, issues_iff.2 (by decide +kernel), by decide +kernel⟩,
   ⟨s4, (32 : Nat), (0:Nat), (⟨12,28,3,0⟩ : LoopFrame), (ins 0x20 0 0 0 0 + 1), slot0, issues_iff.2 (by decide +kernel), by decide +kernel⟩,
   ⟨s7, (32 : Nat), (0:Nat), (ins 0x21 0 0 0 0 + 1), slot0, issues_iff.2 (by decide +kernel), by decide +kernel⟩,
   ⟨s9, (32 : Nat), (0:Nat), (ins 0x21 0 0 0 0 + 1), slot0, issues_iff.2 (by decide +kernel), by decide +kernel⟩,
   ⟨s20, (32 : Nat), (0:Nat), (ins 0x22 0 0 0 0), slot0, issues_iff.2 (by decide +kernel), by decide +kernel⟩,
   ⟨s23, (32 : Nat), (0:Nat), (ins 0x23 3 0 0 0 + 2051), slot0, issues_iff.2 (by decide +kernel), by unfold Ctx.Clean; decide +kernel⟩,
   ⟨s6, (32 : Nat), (0:Nat), (ins 0x20 0 0 0 0 + 3), slot0, ([] : List LoopFrame), issues_iff.2 (by decide +kernel), by decide +kernel⟩,
   ⟨s21b, (32 : Nat), (0:Nat), (ins 0x23 3 0 0 0 + 2051), slot0, (⟨4,18,3,0⟩ : LoopFrame), issues_iff.2 (by decide +kernel), by unfold Ctx.Clean; decide +kernel⟩⟩

/-- The hypotheses of SpecialAndWait can be met. -/
theorem wit_SpecialAndWait :
    (∃ (s : State) (core : Nat) (c : Nat) (w : Word) (sl : Slot),
      s.Issues core c Adt.mfsp w sl) ∧
    (∃ (s : State) (core : Nat) (c : Nat) (w : Word) (sl : Slot),
      s.Issues core c Adt.mtsp w sl ∧
      (s.ctx core c).Clean (rdField w)) ∧
    (∃ (s : State) (core : Nat) (c : Nat) (w : Word) (sl : Slot),
      s.Issues core c Adt.waitstitch w sl ∧
      BitVec.toNat w % 2 ^ 17 = 0) ∧
    (∃ (s : State) (core : Nat) (c : Nat) (w : Word) (sl : Slot),
      s.Issues core c Adt.waitstitch w sl ∧
      BitVec.toNat w % 2 ^ 17 ≠ 0) :=
  ⟨⟨s27, (32 : Nat), (0:Nat), (ins 0x25 3 0 0 0 + 0), slot0, issues_iff.2 (by decide +kernel)⟩,
   ⟨s40, (32 : Nat), (0:Nat), (ins 0x26 3 0 0 0 + 0), slot0, issues_iff.2 (by decide +kernel), by unfold Ctx.Clean; decide +kernel⟩,
   ⟨s42, (32 : Nat), (0:Nat), (ins 0x24 0 0 0 0 + 0), slot0, issues_iff.2 (by decide +kernel), by decide +kernel⟩,
   ⟨s43, (32 : Nat), (0:Nat), (ins 0x24 0 0 0 0 + 1), slot0, issues_iff.2 (by decide +kernel), by decide +kernel⟩⟩

/-- The hypotheses of ExceptionEntry can be met. -/
theorem wit_ExceptionEntry :
    (∃ (s : State) (core : Nat) (c : Nat) (w : Word) (sl : Slot),
      s.Issues core c Adt.trap w sl ∧
      ((s.core core).cyc + 5 ≤ sl.stop ∧ ∀ (e : Int × Due), e ∈ s.dueList core → ↑((s.core core).cyc + 5) < e.fst) ∧
      (s.ctx core c).stat &&& statExc = 0 ∧
      (s.ctx core c).trapvec ≠ 0) ∧
    (∃ (s : State) (core : Nat) (c : Nat) (w : Word) (sl : Slot),
      s.Issues core c Adt.ldl w sl ∧
      ((s.core core).cyc + 6 ≤ sl.stop ∧ ∀ (e : Int × Due), e ∈ s.dueList core → ↑((s.core core).cyc + 6) < e.fst) ∧
      (s.ctx core c).stat &&& statExc = 0 ∧
      (s.ctx core c).trapvec ≠ 0 ∧
      (s.ctx core c).Clean (raField w) ∧
      inPartition (s.ctx core c).dFirst (s.ctx core c).dLast (BitVec.toNat ((s.ctx core c).a w + simm12 w)) = false) ∧
    (∃ (s : State) (core : Nat) (c : Nat) (w : Word) (sl : Slot),
      s.Issues core c Adt.ldl w sl ∧
      ((s.core core).cyc + 6 ≤ sl.stop ∧ ∀ (e : Int × Due), e ∈ s.dueList core → ↑((s.core core).cyc + 6) < e.fst) ∧
      (s.ctx core c).stat &&& statExc = 0 ∧
      (s.ctx core c).trapvec ≠ 0 ∧
      (s.ctx core c).Clean (raField w) ∧
      inPartition (s.ctx core c).dFirst (s.ctx core c).dLast (BitVec.toNat ((s.ctx core c).a w + simm12 w)) = true ∧
      BitVec.toNat ((s.ctx core c).a w + simm12 w) % 4 ≠ 0) ∧
    (∃ (s : State) (core : Nat) (c : Nat) (w : Word) (sl : Slot),
      s.coresRun core = true ∧
      s.runningSlot core = some sl ∧
      sl.ctx = c ∧
      inPartition (s.ctx core c).iFirst (s.ctx core c).iLast (s.ctx core c).pc.toNat = true ∧
      sget (PWord.clean 0) (s.core core).imem ((s.ctx core c).pc.toNat / 4) = { val := w, poison := false, err := WordError.clean : PWord } ∧
      adtOf w = none ∧
      ((s.core core).cyc + 5 ≤ sl.stop ∧ ∀ (e : Int × Due), e ∈ s.dueList core → ↑((s.core core).cyc + 5) < e.fst) ∧
      (s.core core).cyc < sl.stop ∧
      (s.ctx core c).stat &&& statExc = 0 ∧
      (s.ctx core c).trapvec ≠ 0) ∧
    (∃ (s : State) (core : Nat) (c : Nat) (w : Word) (sl : Slot),
      s.Issues core c Adt.trap w sl ∧
      ((s.core core).cyc + 5 ≤ sl.stop ∧ ∀ (e : Int × Due), e ∈ s.dueList core → ↑((s.core core).cyc + 5) < e.fst) ∧
      ((s.ctx core c).stat &&& statExc ≠ 0 ∨ (s.ctx core c).trapvec = 0)) :=
  ⟨⟨s45, (32 : Nat), (0:Nat), (ins 0x27 0 0 0 0 + 0x12345), slot0, issues_iff.2 (by decide +kernel), by decide +kernel⟩,
   ⟨s48, (32 : Nat), (0:Nat), (ins 0x10 3 1 0 0 + 4), slot0, issues_iff.2 (by decide +kernel), by unfold Ctx.Clean; decide +kernel⟩,
   ⟨s49, (32 : Nat), (0:Nat), (ins 0x10 3 1 0 0 + 5), slot0, issues_iff.2 (by decide +kernel), by unfold Ctx.Clean; decide +kernel⟩,
   ⟨s51, (32 : Nat), (0:Nat), (ins 0x3F 1 1 1 1), slot0, by decide +kernel⟩,
   ⟨s53, (32 : Nat), (0:Nat), (ins 0x27 0 0 0 0 + 0x12345), slot0, issues_iff.2 (by decide +kernel), by decide +kernel⟩⟩

end BranchesAndLoopsMet

namespace JobCommandsMet

def jr (n : Nat) : State := (js n).onTree fun t => { t with reload := true, nextIndex := 3, plans := [[1]] }

def jf (n : Nat) : State := (js n).onTree fun t => { t with nextFail := some ⟨5, 7, 2, 3⟩, nextIndex := 3, plans := [[1]] }

/-- The hypotheses of JobCommands can be met. -/
theorem wit_JobCommands :
    (∃ (s : State),
      (s.jobState = 0 ∨ s.jobState = 6 ∨ s.jobState = 8 ∨ s.jobState = 9) ∧
      (¬(s.jobState = 3 ∨ s.jobState = 4 ∨ s.jobState = 5)) ∧
      s.jobState ≠ 7 ∧
      s.jobState = 0) ∧
    (∃ (s : State),
      (¬(s.jobState = 0 ∨ s.jobState = 6 ∨ s.jobState = 8 ∨ s.jobState = 9)) ∧
      s.jobState = 7 ∧
      s.tree.reload = false ∧
      s.tree.nextFail = none ∧
      s.jobState ≠ 0) ∧
    (∃ (s : State),
      (s.jobState = 3 ∨ s.jobState = 4 ∨ s.jobState = 5)) ∧
    (∃ (s : State),
      s.jobState = 7 ∧
      s.tree.reload = true) ∧
    (∃ (s : State) (r : Reject),
      s.jobState = 7 ∧
      s.tree.reload = false ∧
      s.tree.nextFail = some r) :=
  ⟨⟨js 0, by decide +kernel⟩,
   ⟨js 7, by decide +kernel⟩,
   ⟨js 3, by decide +kernel⟩,
   ⟨jr 7, by decide +kernel⟩,
   ⟨jf 7, (⟨5, 7, 2, 3⟩ : Reject), by decide +kernel⟩⟩

end JobCommandsMet

namespace LayerFlowMet

def lay : LayerRec := ⟨1, 7, 5, 2, 0x8000, false, []⟩

def header (first layers static : Nat) : List Word := [0xB9F00001, w32 layers, 0x1000, 0, 0x2000, 0, 0x10000, 0, 0x3, w32 first, w32 static, 0,0,0,0,0]

def lhdr (l : Nat) : List Word := [w32 (100 + l), 0, 0, 0, 0x4000,0, 0x4000, 0, 0x4000, 0, 0x4000, 0, 20, 5, 0, 0]

def slotrec : List Word := [3, 0, 1, 0, 0,0, 100,0, 0,100]

def job0 (first layers : Nat) : State := 
  mem (mem (mem (mem (mem ((dm (js 1)).setReg R.TREE_JOB_BASE_LO 0x400) 0x400 (header first layers 0)) 0x1000 [0x1100, 0, 0x1140, 0]) 0x1100 (lhdr 0)) 0x1140 (lhdr 1)) 0x2000 slotrec

def v (x : Validating) (s : State) : State := s.onTree fun t => { t with validating := x }

def okl (first layers i : Nat) : LayerRec := match (job0 first layers).readLayer ((job0 first layers).readHeader (job0 first layers).jobBase) i with | .inl l => l | .inr _ => lay

def rj (r : Option Reject) : Reject := r.getD ⟨0,0,0,0⟩

def bad1 : State := mem (job0 0 2) 0x400 [0]

def run (n : Nat) : State := (js n).onTree fun t => { t with layer := some lay, readyAt := some 99, planned := true, runAt := 95, since := 99, job := ⟨2,0x1000,0x2000,0x10000,3,0,false,[]⟩, zeros := 300, plans := [[]] }

def bad2 (first : Nat) : State := mem (job0 first 2) 0x1000 [0x1100, 0, 0x1141, 0]

def rjl (s : State) (j : JobRec) (i : Nat) : Reject := match s.readLayer j i with | .inr r => r | .inl _ => ⟨0,0,0,0⟩

def okl2 (s : State) (j : JobRec) (i : Nat) : LayerRec := match s.readLayer j i with | .inl r => r | .inr _ => lay

def rel (b : State) : State := v .reload (b.onTree fun t => { t with job := { b.readJob with slots := t.job.slots }, nextIndex := 1 })

def nx (n : Nat) (l : Option LayerRec) (b : State) : State :=
  v .next (sf (b.onTree fun t => { t with job := b.readJob, nextIndex := 1, layer := l }) F.TREE_JOB_STATUS_STATE n)

/-- The hypotheses of LayerFlow can be met. -/
theorem wit_LayerFlow :
    (∃ (s : State) (l : LayerRec),
      s.tree.validating = Validating.nothing ∧
      (s.jobState = 3 ∨ s.jobState = 4) ∧
      s.tree.runAt < s.now ∧
      (∀ (u : PlaceUnit), u ∈ s.units → u.phase = UnitPhase.complete) ∧
      s.tree.layer = some l ∧
      l.budget ≠ 0 ∧
      s.tree.isOver = false ∧
      s.tree.runAt + l.budget ≤ s.now) ∧
    (∃ (s : State) (l : LayerRec) (q : Nat),
      s.jobState = 2 ∧
      s.tree.layer = some l ∧
      s.tree.readyAt = some q ∧
      s.tree.planned = true ∧
      q < s.now ∧
      l.zeroLen = true) ∧
    (∃ (s : State) (r : Reject),
      s.tree.validating = Validating.next ∧
      (¬(s.tree.layer = none ∧ s.jobState = 2)) ∧
      s.readLayer s.tree.job s.tree.nextIndex = Sum.inr r ∧
      s.jobState = 5 ∧
      s.tree.since < s.now ∧
      s.tree.lastLayer = false ∧
      s.tree.nextFail = none ∧
      s.fld F.TREE_JOB_STATUS_HOLD_PENDING = 0) ∧
    (∃ (s : State) (r : Reject),
      (s.tree.validating = Validating.arm ∨ s.tree.validating = Validating.walk ∨ s.tree.validating = Validating.reload) ∧
      firstReject s.headerRejects = some r) ∧
    (∃ (s : State) (l : LayerRec),
      s.tree.validating = Validating.arm ∧
      firstReject s.headerRejects = none ∧
      s.readJob.first < s.readJob.layers ∧
      s.useHeader.readLayer s.readJob s.readJob.first = Sum.inl l) ∧
    (∃ (s : State),
      s.tree.validating = Validating.arm ∧
      firstReject s.headerRejects = none ∧
      s.readJob.layers ≤ s.readJob.first) ∧
    (∃ (s : State),
      s.tree.validating = Validating.walk ∧
      firstReject s.headerRejects = none ∧
      s.useHeader.walkLayers s.readJob 0 s.readJob.layers = none) ∧
    (∃ (s : State),
      s.jobState = 5 ∧
      s.tree.since < s.now ∧
      s.tree.lastLayer = true) ∧
    (∃ (s : State) (r : Reject),
      s.jobState = 5 ∧
      s.tree.since < s.now ∧
      s.tree.lastLayer = false ∧
      s.tree.nextFail = some r) ∧
    (∃ (s : State),
      s.jobState = 5 ∧
      s.tree.since < s.now ∧
      s.tree.lastLayer = false ∧
      s.tree.nextFail = none ∧
      s.fld F.TREE_JOB_STATUS_HOLD_PENDING = 1) ∧
    (∃ (s : State) (r : Reject),
      s.tree.validating = Validating.arm ∧
      firstReject s.headerRejects = none ∧
      s.readJob.first < s.readJob.layers ∧
      s.useHeader.readLayer s.readJob s.readJob.first = Sum.inr r) ∧
    (∃ (s : State) (r : Reject),
      s.tree.validating = Validating.walk ∧
      firstReject s.headerRejects = none ∧
      s.useHeader.walkLayers s.readJob 0 s.readJob.layers = some r) ∧
    (∃ (s : State) (l : LayerRec),
      s.tree.validating = Validating.reload ∧
      firstReject s.headerRejects = none ∧
      s.readLayer (s.rereadPsets s.tree.job) s.tree.nextIndex = Sum.inl l) ∧
    (∃ (s : State) (l : LayerRec),
      s.tree.validating = Validating.next ∧
      (¬(s.tree.layer = none ∧ s.jobState = 2)) ∧
      s.readLayer s.tree.job s.tree.nextIndex = Sum.inl l) ∧
    (∃ (s : State) (r : Reject),
      s.tree.validating = Validating.next ∧
      s.tree.layer = none ∧
      s.jobState = 2 ∧
      s.readLayer s.tree.job s.tree.nextIndex = Sum.inr r) ∧
    (∃ (s : State) (l : LayerRec),
      s.tree.validating = Validating.next ∧
      s.tree.layer = none ∧
      s.jobState = 2 ∧
      s.readLayer s.tree.job s.tree.nextIndex = Sum.inl l) :=
  ⟨⟨run 3, lay, by decide +kernel⟩,
   ⟨(run 2).onTree fun t => { t with layer := some (okl 0 2 0) }, okl 0 2 0, (99 : Nat), by decide +kernel⟩,
   ⟨nx 5 none (bad2 0), rjl (nx 5 none (bad2 0)) (nx 5 none (bad2 0)).tree.job 1, by decide +kernel⟩,
   ⟨v .arm bad1, rj (firstReject bad1.headerRejects), by decide +kernel⟩,
   ⟨v .arm (job0 0 2), okl 0 2 0, by decide +kernel⟩,
   ⟨v .arm (job0 2 2), by decide +kernel⟩,
   ⟨v .walk (job0 0 2), by decide +kernel⟩,
   ⟨(run 5).onTree fun t => { t with lastLayer := true }, by decide +kernel⟩,
   ⟨(run 5).onTree fun t => { t with nextFail := some ⟨6, 1, 2, 3⟩ }, (⟨6, 1, 2, 3⟩ : Reject), by decide +kernel⟩,
   ⟨((run 5).setFld F.TREE_JOB_STATUS_HOLD_PENDING 1), by decide +kernel⟩,
   ⟨v .arm (bad2 1), rjl (v .arm (bad2 1)).useHeader (v .arm (bad2 1)).readJob 1, by decide +kernel⟩,
   ⟨v .walk (bad2 1), ((v .walk (bad2 1)).useHeader.walkLayers (v .walk (bad2 1)).readJob 0 2).getD ⟨0,0,0,0⟩, by decide +kernel⟩,
   ⟨rel (job0 0 2), okl2 (rel (job0 0 2)) ((rel (job0 0 2)).rereadPsets (rel (job0 0 2)).tree.job) 1, by decide +kernel⟩,
   ⟨nx 3 (some lay) (job0 0 2), okl2 (nx 3 (some lay) (job0 0 2)) (nx 3 (some lay) (job0 0 2)).tree.job 1, by decide +kernel⟩,
   ⟨nx 2 none (bad2 0), rjl (nx 2 none (bad2 0)) (nx 2 none (bad2 0)).tree.job 1, by decide +kernel⟩,
   ⟨nx 2 none (job0 0 2), okl2 (nx 2 none (job0 0 2)) (nx 2 none (job0 0 2)).tree.job 1, by decide +kernel⟩⟩

end LayerFlowMet

namespace PlacementMet

def part1 (i : Nat) : UnitPart := ⟨i, 100, 200, 50, 0x00000000, false, (0,0)⟩

def pu : PlaceUnit := { patch := 3, piece := 1, parts := [part1 0, part1 1], x0 := 0, y0 := 0, x1 := 1000, y1 := 1000, preds := [], eligible := 3, pset := 0, tag := 9, est := 2, phase := .waiting, laser := 0, order := 0, startStitch := 0, predLen := 0, pushed := 0, ended := 0, cut := false, lastEnd := none, remainder := none, rerun := false }

def lay1 (us : List PlaceUnit) : LayerRec := ⟨1, 7, 5, 2, 0x4000, false, us⟩

def base (n : Nat) (us : List PlaceUnit) : State := ((((((withStreams (js n) {q8 with size := 64}).setReg (R.AWL_STROKEQ 0) 0x01000005).setReg (R.AWL_STROKEQ 1) 0x01000005).setReg (R.AWL_STROKEQ 19) 0x01000005).setReg R.TREE_SLOT_SERVICE 0x80003).setFld (F.LANE_STATUS_STATE 0) 5 |>.setFld (F.LANE_STATUS_STATE 1) 5 |>.setFld (F.LANE_STATUS_STATE 19) 5).onTree fun t => { t with layer := some (lay1 us), plans := [[0,1],[1]] ++ List.replicate 17 [] ++ [[0]], runAt := 90 }

def started : PlaceUnit := { pu with phase := .started, laser := 1, startStitch := 95, predLen := 10, pushed := 1, order := 3 }

def st0 : PlaceUnit := { pu with phase := .started, laser := 0, startStitch := 95, predLen := 10, pushed := 1, order := 3 }

def st2 : PlaceUnit := { pu with phase := .started, laser := 0, startStitch := 95, predLen := 10, pushed := 2, ended := 2, order := 3 , lastEnd := some 99}

def pp : PlanPass := ⟨⟨[[⟨0,1,2⟩]],[],7⟩, false⟩

def lg : LogRec := ⟨[1,2,3,4], 99, true, 7⟩

/-- The hypotheses of Placement can be met. -/
theorem wit_Placement :
    (∃ (s : State) (slot : Nat) (i : Nat) (key : Nat) (u : PlaceUnit) (q : UnitPart) (l : LayerRec),
      s.treeRuns = true ∧
      s.inService slot = true ∧
      s.logSpace = true ∧
      s.namedQueue (s.reg (R.AWL_STROKEQ slot)) = some key ∧
      s.hasRoom (s.reg (R.AWL_STROKEQ slot)) 8 = true ∧
      List.find? (fun e => decide (e.snd.pushed < e.snd.parts.length)) (s.runningOn slot) = some (i, u) ∧
      s.unit i = some u ∧
      u.laser = slot ∧
      u.parts[u.pushed]? = some q ∧
      s.tree.layer = some l ∧
      (s.stream key).spill = false ∧
      (∀ (x : PWord), x ∈ s.dramWords (l.strokeArea + 16 * q.index) 4 → x.poison = false) ∧
      s.namedQueue (s.reg (R.DMC_EVQ 0)) ≠ some key ∧
      s.namedQueue (s.reg (R.DMC_EVQ 1)) ≠ some key ∧
      s.namedQueue (s.reg (R.DMC_EVQ 2)) ≠ some key ∧
      s.namedQueue (s.reg (R.DMC_EVQ 3)) ≠ some key ∧
      s.namedQueue (s.reg R.SB_EVQ) ≠ some key ∧
      ¬5000 + treeReq ∈ (s.stream key).cut ∧
      findOpen (5000 + treeReq) (s.stream key).opens = none) ∧
    (∃ (s : State) (p : PlanPass),
      s.tree.pass = some p) ∧
    (∃ (s : State),
      s.tree.replanDue = true ∧
      (s.jobState = 3 ∨ s.jobState = 4)) ∧
    (∃ (s : State),
      s.tree.lateDue = true) ∧
    (∃ (s : State) (slot : Nat) (i : Nat) (u : PlaceUnit) (q : UnitPart) (l : LayerRec) (w : Nat),
      s.treeRuns = true ∧
      slot ∈ s.slots ∧
      s.tree.considered = slot ∧
      s.examine slot = (some i, w) ∧
      s.unit i = some u ∧
      u.parts[0]? = some q ∧
      s.tree.layer = some l ∧
      (∀ (x : PWord), x ∈ s.dramWords (l.strokeArea + 16 * q.index) 4 → x.poison = false)) ∧
    (∃ (s : State) (slot : Nat) (i : Nat) (u : PlaceUnit),
      slot < 32 ∧
      List.find? (fun e => s.unitOver e.snd) (s.runningOn slot) = some (i, u) ∧
      s.unit i = some u) ∧
    (∃ (s : State) (slot : Nat) (f : Nat),
      slot < 32 ∧
      (s.awl slot).lossDue = some f ∧
      f ≤ s.now) ∧
    (∃ (s : State) (r : LogRec) (rs : List LogRec),
      s.tree.log = r :: rs ∧
      (r.stroke = true → r.stitch < s.now) ∧
      s.hasRoom (s.reg R.TREE_LOG_Q) 4 = true) ∧
    (∃ (s : State) (src : Source),
      s.Reaches src R.TREE_SLOT_SERVICE) ∧
    (∃ (s : State) (slot : Nat) (w : Nat),
      s.treeRuns = true ∧
      slot ∈ s.slots ∧
      s.tree.considered = slot ∧
      s.examine slot = (none, w)) ∧
    (∃ (s : State) (slot : Nat),
      s.treeRuns = true ∧
      slot < s.tree.considered) ∧
    (∃ (s : State) (slot : Nat) (i : Nat) (key : Nat) (u : PlaceUnit) (q : UnitPart) (l : LayerRec),
      s.treeRuns = true ∧
      s.inService slot = true ∧
      s.logSpace = true ∧
      s.namedQueue (s.reg (R.AWL_STROKEQ slot)) = some key ∧
      s.hasRoom (s.reg (R.AWL_STROKEQ slot)) 8 = true ∧
      List.find? (fun e => decide (e.snd.pushed < e.snd.parts.length)) (s.runningOn slot) = some (i, u) ∧
      s.unit i = some u ∧
      u.laser = slot ∧
      u.parts[u.pushed]? = some q ∧
      s.tree.layer = some l ∧
      (s.stream key).spill = false ∧
      (∃ x, x ∈ s.dramWords (l.strokeArea + 16 * q.index) 4 ∧ x.poison = true)) :=
  ⟨⟨(base 3 [st0]), (0:Nat), (0:Nat), (5 : Nat), st0, part1 1, lay1 [st0], by decide +kernel⟩,
   ⟨(base 3 []).onTree fun t => {t with pass := some pp}, pp, by decide +kernel⟩,
   ⟨(base 3 [pu, started, st0]).onTree fun t => {t with replanDue := true}, by decide +kernel⟩,
   ⟨(base 4 [pu]).onTree fun t => {t with lateDue := true}, by decide +kernel⟩,
   ⟨base 3 [pu], (0:Nat), (0:Nat), pu, part1 0, lay1 [pu], (0:Nat), by decide +kernel⟩,
   ⟨(base 3 [st2]), (0:Nat), (0:Nat), st2, by decide +kernel⟩,
   ⟨(base 3 [st2]).setAwl 31 {Awl.atReset with lossDue := some 99}, (31:Nat), (99:Nat), by decide +kernel⟩,
   ⟨((base 3 []).setReg R.TREE_LOG_Q 0x01000005).onTree fun t => {t with log := [lg], slotsUsed := 4}, lg, ([]:List LogRec), by decide +kernel⟩,
   ⟨up, Source.core 32 5, by unfold State.Reaches; decide +kernel⟩,
   ⟨base 3 [], (0:Nat), ((base 3 []).examine 0).2, by decide +kernel⟩,
   ⟨(base 3 [pu]).onTree fun t => {t with considered := 1}, (0:Nat), by decide +kernel⟩,
   ⟨mem (dm (base 3 [st0])) (0x4000+16) [5,6,7,8] |> fun s => {s with badLines := [(0x4000/64,true)]}, (0:Nat), (0:Nat), (5 : Nat), st0, part1 1, lay1 [st0], by decide +kernel⟩⟩

end PlacementMet

namespace HideMapMet

def hb : State := ((((up.setFld F.HIDE_GRID_WIDTH 8).setFld F.HIDE_GRID_HEIGHT 4).setReg R.HIDE_PITCH 1600).setReg R.SYS_ACC_ADDR_LO 3)

def hon : State := ((hb.setFld F.HIDE_CTRL_ENABLE 1).setFld F.HIDE_STATUS_ENABLED 1).setReg R.HIDE_ASSIM_Q 0x01000005

def pk (ws : List Word) : Stream := { q8 with words := packetWords (ws.map PWord.clean) }

def as1 (m : Word) : List Word := [0x00002001, 0x00010001, m]

def asg (g : Nat) (ws : List Word) (s : State) : State := (s.setStream 5 (pk ws)).setFld F.HIDE_ASSIM_GAIN_VALUE g

def sw : Pass := ⟨5, 1, 2, 3, [0,0,0,0,0,0,0,0], [1,1,1,1,1,1,1,1], [2,2,2,2,2,2,2,2]⟩

def ar : ArchiveJob := ⟨3, 0x4000, List.replicate 128 5⟩

/-- The hypotheses of HideMap can be met. -/
theorem wit_HideMap :
    (∃ (s : State) (on : Nat) (x : Int) (y : Int),
      s.hide.filling = false ∧
      (¬(s.hide.passDue = true ∧ s.hide.pass = none ∧ s.hideOn = true)) ∧
      on ≠ 0 ∧
      s.hideOn = true ∧
      s.hide.restarting = false ∧
      s.hideFoot = 0 ∧
      s.inGrid (s.hideCol x) (s.hideRow y) = false) ∧
    (∃ (s : State) (src : Source),
      s.Reaches src R.HIDE_CTRL ∧
      s.fld F.HIDE_CTRL_ENABLE = 0 ∧
      s.jobAtRest = false ∧
      s.flag F.SYS_ACC_INFO_VALID = false) ∧
    (∃ (s : State) (src : Source),
      s.Reaches src R.HIDE_CTRL ∧
      s.fld F.HIDE_CTRL_ENABLE = 1 ∧
      s.jobAtRest = false ∧
      s.flag F.SYS_ACC_INFO_VALID = false) ∧
    (∃ (s : State) (i : Nat) (j : Nat) (m : Nat),
      s.hide.work = [{ i0 := i, j0 := j, w := 1, h := 1, codes := [m], pos := 0 : AssimRec }] ∧
      s.inGrid ↑i ↑j = true ∧
      i < 4096 ∧
      j < 4096 ∧
      m ≠ 0 ∧
      m ≤ 65535 ∧
      s.cell (s.cellKey ↑i ↑j) ≤ 65535) ∧
    (∃ (s : State) (on : Nat) (x : Int) (y : Int),
      on ≠ 0 ∧
      s.hideOn = true ∧
      s.hide.restarting = false ∧
      s.hideFoot = 0 ∧
      s.inGrid (s.hideCol x) (s.hideRow y) = true ∧
      s.cell (s.cellKey (s.hideCol x) (s.hideRow y)) ≤ 65535) ∧
    (∃ (s : State),
      s.hide.filled = true ∧
      s.hide.refused = none) ∧
    (∃ (s : State) (a : ArchiveJob),
      s.hide.arch = some a ∧
      s.fld F.HIDE_ARCH_SLOTS_VALUE ≠ 0) ∧
    (∃ (s : State) (r : Nat),
      s.hide.refused = some r ∧
      s.hide.filled = false ∧
      r < 4) ∧
    (∃ (s : State) (src : Source),
      s.Reaches src R.HIDE_CTRL ∧
      s.fld F.HIDE_CTRL_ENABLE = 0 ∧
      s.jobAtRest = true ∧
      s.fld F.HIDE_GRID_WIDTH ≠ 0 ∧
      s.fld F.HIDE_GRID_HEIGHT ≠ 0 ∧
      (s.fld F.HIDE_GRID_WIDTH ≤ 2048 ∧ s.fld F.HIDE_GRID_HEIGHT ≤ 2048 ∧ 1600 ≤ BitVec.toNat (s.reg R.HIDE_PITCH) ∧ BitVec.toNat (s.reg R.HIDE_PITCH) ≤ 32000)) ∧
    (∃ (s : State) (src : Source),
      s.Reaches src R.HIDE_CTRL ∧
      s.fld F.HIDE_CTRL_ENABLE = 0 ∧
      s.jobAtRest = true ∧
      (s.fld F.HIDE_GRID_WIDTH = 0 ∨ s.fld F.HIDE_GRID_HEIGHT = 0)) ∧
    (∃ (s : State) (src : Source),
      s.Reaches src R.HIDE_CTRL ∧
      s.fld F.HIDE_CTRL_ENABLE = 0 ∧
      s.jobAtRest = true ∧
      s.fld F.HIDE_GRID_WIDTH ≠ 0 ∧
      s.fld F.HIDE_GRID_HEIGHT ≠ 0 ∧
      (¬(s.fld F.HIDE_GRID_WIDTH ≤ 2048 ∧ s.fld F.HIDE_GRID_HEIGHT ≤ 2048 ∧ 1600 ≤ BitVec.toNat (s.reg R.HIDE_PITCH) ∧ BitVec.toNat (s.reg R.HIDE_PITCH) ≤ 32000))) ∧
    (∃ (s : State),
      s.hide.filling = true) ∧
    (∃ (s : State) (src : Source),
      s.Reaches src R.HIDE_CTRL ∧
      s.fld F.HIDE_CTRL_ENABLE = 1 ∧
      s.jobAtRest = true) ∧
    (∃ (s : State),
      s.hide.passDue = true ∧
      s.hide.pass = none ∧
      s.hideOn = true) ∧
    (∃ (s : State) (p : Pass),
      s.hide.pass = some p ∧
      s.hide.swept = false ∧
      s.hideW * s.hideH ≤ p.pos + s.sweepRate) ∧
    (∃ (s : State),
      s.hide.worked = false ∧
      s.hide.assimLeft ≠ 0 ∧
      s.packetWaits (s.reg R.HIDE_ASSIM_Q) = true ∧
      s.fld F.HIDE_ASSIM_GAIN_VALUE = 0) ∧
    (∃ (s : State),
      s.hide.worked = false ∧
      s.hide.assimLeft ≠ 0 ∧
      s.packetWaits (s.reg R.HIDE_ASSIM_Q) = true ∧
      s.fld F.HIDE_ASSIM_GAIN_VALUE ≠ 0 ∧
      assimRecord (s.popPacket 240 (s.reg R.HIDE_ASSIM_Q)).snd = none) ∧
    (∃ (s : State) (rec : AssimRec),
      s.hide.worked = false ∧
      s.hide.assimLeft ≠ 0 ∧
      s.packetWaits (s.reg R.HIDE_ASSIM_Q) = true ∧
      s.fld F.HIDE_ASSIM_GAIN_VALUE ≠ 0 ∧
      assimRecord (s.popPacket 240 (s.reg R.HIDE_ASSIM_Q)).snd = some rec ∧
      s.hideOn = true ∧
      s.hide.restarting = false) :=
  ⟨⟨sr (sf hon F.HIDE_CTRL_FOOT 0) (R.HIDE_DEPK 31) 0xFFFFFFFF, (15:Nat), (-3000:Int), (100:Int), by decide +kernel⟩,
   ⟨hb.setFld F.TREE_JOB_STATUS_STATE 3, Source.host, by unfold State.Reaches; decide +kernel, by decide +kernel⟩,
   ⟨hon.setFld F.TREE_JOB_STATUS_STATE 3, Source.core 5 2, by unfold State.Reaches; decide +kernel, by decide +kernel⟩,
   ⟨(hon.setFld F.HIDE_ASSIM_GAIN_VALUE 40000) |> fun s => {s with hide := {s.hide with work := [⟨2,1,1,1,[77],0⟩], cells := [(10,5000)]}}, (2:Nat), (1:Nat), (77:Nat), by decide +kernel⟩,
   ⟨sr (sf hon F.HIDE_CTRL_FOOT 0) (R.HIDE_DEPK 0) 0x8000, (1600:Nat), (3000:Int), (100:Int), by decide +kernel⟩,
   ⟨{hb with hide := {hb.hide with filled := true}}, by decide +kernel⟩,
   ⟨{(dm hon).setReg R.HIDE_ARCH_SLOTS 5 with hide := {hb.hide with arch := some ar}}, ar, by decide +kernel⟩,
   ⟨{hon with hide := {hb.hide with refused := some 2}}, (2:Nat), by decide +kernel⟩,
   ⟨hb, Source.host, by unfold State.Reaches; decide +kernel, by decide +kernel⟩,
   ⟨hb.setFld F.HIDE_GRID_WIDTH 0, Source.host, by unfold State.Reaches; decide +kernel, by decide +kernel⟩,
   ⟨hb.setFld F.HIDE_GRID_WIDTH 2049, Source.host, by unfold State.Reaches; decide +kernel, by decide +kernel⟩,
   ⟨{hb with hide := {hb.hide with filling := true}}, by decide +kernel⟩,
   ⟨hon, Source.host, by unfold State.Reaches; decide +kernel, by decide +kernel⟩,
   ⟨{hon with hide := {hb.hide with passDue := true}}, by decide +kernel⟩,
   ⟨{hon with hide := {hb.hide with pass := some sw}}, sw, by decide +kernel⟩,
   ⟨asg 0 (as1 77) hon, by decide +kernel⟩,
   ⟨asg 7 [0xC0000000,2,3] hon, by decide +kernel⟩,
   ⟨asg 7 (as1 77) {hon with hide := {hb.hide with assimLeft := 100}}, (assimRecord ((as1 77).map PWord.clean)).getD ⟨0,0,0,0,[],0⟩, by decide +kernel⟩⟩

end HideMapMet

namespace StrokesMet

def lim (k : Nat) (s : State) : State := ((((((s.setReg (R.AWL_LIMIT_XMIN k) 0x800000).setReg (R.AWL_LIMIT_YMIN k) 0x800000).setReg (R.AWL_LIMIT_XMAX k) 0x7FFFFF).setReg (R.AWL_LIMIT_YMAX k) 0x7FFFFF).setReg (R.AWL_ACC k) 4000000000).setReg (R.AWL_JERK k) 4000000000)

def pw (w : Word) : PWord := PWord.clean w

def psets : Sparse PWord := [(0, pw 20000), (1, pw 30000), (2, pw 0x10001000)]

def sbase (k st : Nat) (ws : List PWord) : State := { ((((lim k (js 3)).setReg (R.AWL_STROKEQ k) 0x01000005).setFld (F.AWL_STATUS_STATE k) st).setStream 5 { q8 with words := packetWords ws }).setStream 4103 {b64 with size := 128, data := psets} with tree := { Tree.atReset with psetBufs := [(k, 0x01002007)], psetCounts := [(k, 2)] } , tclk := 16000 }

def mk (x y dx w3 : Word) : List PWord := [x, y, dx, w3, 5, 0x80100003, 0, 0].map pw

def h1 : HeldStroke := {heldOf 3 0x80100003 true with endStitch := 100, nom := 5, pset := 3, focus := -4}

def held (s : State) (k : Nat) : State := s.setAwl k { s.awl k with held := [h1, {h1 with endStitch := 103}] }

/-- The packet of the next stroke. -/
def popped (s : State) (slot : Nat) : State × List PWord := s.popPacket (slotReq slot) (s.reg (R.AWL_STROKEQ slot))

/-- A word of it. -/
def popWord (s : State) (slot i : Nat) : Word := ((popped s slot).2.getD i (PWord.clean 0)).val

/-- The stroke. -/
def strk (s : State) (slot : Nat) : Stroke := strokeOf (popWord s slot 0) (popWord s slot 1) (popWord s slot 2) (popWord s slot 3)

/-- What stays of it. -/
def hld (s : State) (slot : Nat) : HeldStroke :=
  heldOf (popWord s slot 4) (popWord s slot 5) (getBits (popWord s slot 3) 17 17 == 1)

/-- The stroke with its direction. -/
def turned (s : State) (slot : Nat) : Stroke := { strk s slot with dir := (popped s slot).1.inherited (hld s slot) }

/-- The hypotheses of Strokes can be met. -/
theorem wit_Strokes :
    (∃ (s : State) (slot : Nat) (h : HeldStroke) (hs : List HeldStroke),
      slot < 32 ∧
      s.reg (R.AWL_STROKEQ slot) ≠ 0 ∧
      s.awlState slot ≤ 2 ∧
      (s.awl slot).due = [] ∧
      s.awlWindow slot < 4 ∧
      s.namedQueue (s.reg (R.AWL_STROKEQ slot)) ≠ none ∧
      s.packetWaits (s.reg (R.AWL_STROKEQ slot)) = false ∧
      (s.awl slot).held = h :: hs ∧
      h.endStitch ≤ s.now ∧
      s.reg R.TREE_LOG_Q = 0) ∧
    (∃ (s : State) (slot : Nat),
      slot < 32 ∧
      s.reg (R.AWL_STROKEQ slot) ≠ 0 ∧
      s.awlState slot ≤ 2 ∧
      (s.awl slot).due = [] ∧
      s.awlWindow slot < 4 ∧
      s.packetWaits (s.reg (R.AWL_STROKEQ slot)) = true ∧
      badPacket (popped s slot).snd = false ∧
      (∀ (p : PWord), p ∈ (popped s slot).snd → p.poison = false) ∧
      (strk s slot).pset < (popped s slot).fst.psetCount slot ∧
      (∀ (p : PWord), p ∈ List.take 7 ((popped s slot).fst.psetWords slot (strk s slot).pset) → p.poison = false) ∧
      (((popped s slot).fst.planCtx slot).stroke (turned s slot) ((popped s slot).fst.pset slot (strk s slot).pset) (hld s slot)).fault = 0 ∧
      ((∀ (h : HeldStroke), h ∈ (s.awl slot).held.head? → s.now < h.endStitch) ∨ 3 ≤ s.awlState slot)) ∧
    (∃ (s : State) (slot : Nat),
      slot < 32 ∧
      s.reg (R.AWL_STROKEQ slot) ≠ 0 ∧
      s.awlState slot ≤ 2 ∧
      (s.awl slot).due = [] ∧
      s.awlWindow slot < 4 ∧
      s.packetWaits (s.reg (R.AWL_STROKEQ slot)) = true ∧
      badPacket (popped s slot).snd = false ∧
      (∀ (p : PWord), p ∈ (popped s slot).snd → p.poison = false) ∧
      (strk s slot).pset < (popped s slot).fst.psetCount slot ∧
      (∀ (p : PWord), p ∈ List.take 7 ((popped s slot).fst.psetWords slot (strk s slot).pset) → p.poison = false) ∧
      (((popped s slot).fst.planCtx slot).stroke (turned s slot) ((popped s slot).fst.pset slot (strk s slot).pset) (hld s slot)).fault ≠ 0) ∧
    (∃ (s : State) (slot : Nat),
      slot < 32 ∧
      s.reg (R.AWL_STROKEQ slot) ≠ 0 ∧
      s.awlState slot ≤ 2 ∧
      (s.awl slot).due = [] ∧
      s.awlWindow slot < 4 ∧
      s.packetWaits (s.reg (R.AWL_STROKEQ slot)) = true ∧
      badPacket (popped s slot).snd = false ∧
      (∀ (p : PWord), p ∈ (popped s slot).snd → p.poison = false) ∧
      (popped s slot).fst.psetCount slot ≤ (strk s slot).pset) ∧
    (∃ (s : State) (slot : Nat),
      slot < 32 ∧
      s.reg (R.AWL_STROKEQ slot) ≠ 0 ∧
      s.awlState slot ≤ 2 ∧
      (s.awl slot).due = [] ∧
      s.awlWindow slot < 4 ∧
      s.packetWaits (s.reg (R.AWL_STROKEQ slot)) = true ∧
      badPacket (popped s slot).snd = true) ∧
    (∃ (s : State) (slot : Nat),
      slot < 32 ∧
      s.reg (R.AWL_STROKEQ slot) ≠ 0 ∧
      s.awlState slot ≤ 2 ∧
      (s.awl slot).due = [] ∧
      s.awlWindow slot < 4 ∧
      s.packetWaits (s.reg (R.AWL_STROKEQ slot)) = true ∧
      badPacket (popped s slot).snd = false ∧
      (∃ p, p ∈ (popped s slot).snd ∧ p.poison = true)) ∧
    (∃ (s : State) (slot : Nat) (h : HeldStroke) (hs : List HeldStroke),
      slot < 32 ∧
      (s.awl slot).held = h :: hs ∧
      h.endStitch ≤ s.now ∧
      s.awlState slot ≤ 2 ∧
      s.reg R.TREE_LOG_Q ≠ 0) ∧
    (∃ (s : State) (slot : Nat),
      slot < 32 ∧
      (s.reg (R.AWL_STROKEQ slot) = 0 ∨ 3 ≤ s.awlState slot ∨ (s.awl slot).due ≠ [] ∨ 4 ≤ s.awlWindow slot)) ∧
    (∃ (s : State) (slot : Nat),
      slot < 32 ∧
      s.reg (R.AWL_STROKEQ slot) ≠ 0 ∧
      s.awlState slot ≤ 2 ∧
      (s.awl slot).due = [] ∧
      s.awlWindow slot < 4 ∧
      s.namedQueue (s.reg (R.AWL_STROKEQ slot)) = none) ∧
    (∃ (s : State) (slot : Nat),
      slot < 32 ∧
      s.reg (R.AWL_STROKEQ slot) ≠ 0 ∧
      s.awlState slot ≤ 2 ∧
      (s.awl slot).due = [] ∧
      s.awlWindow slot < 4 ∧
      s.packetWaits (s.reg (R.AWL_STROKEQ slot)) = true ∧
      badPacket (popped s slot).snd = false ∧
      (∀ (p : PWord), p ∈ (popped s slot).snd → p.poison = false) ∧
      (strk s slot).pset < (popped s slot).fst.psetCount slot ∧
      (∃ p, p ∈ List.take 7 ((popped s slot).fst.psetWords slot (strk s slot).pset) ∧ p.poison = true)) :=
  ⟨⟨held (sbase 0 0 []) 0, (0:Nat), h1, [{h1 with endStitch := 103}], by decide +kernel⟩,
   ⟨sbase 0 0 (mk 100 100 50 0), (0:Nat), by decide +kernel⟩,
   ⟨sbase 0 0 (mk 100 100 500 0x00400000), (0:Nat), by decide +kernel⟩,
   ⟨sbase 0 0 (mk 100 100 500 0x00800000), (0:Nat), by decide +kernel⟩,
   ⟨sbase 0 0 (mk 100 100 500 0x00040000), (0:Nat), by decide +kernel⟩,
   ⟨sbase 0 0 ((mk 100 100 500 0).map fun p => {p with poison := true}), (0:Nat), by decide +kernel⟩,
   ⟨(held (sbase 31 1 []) 31).setReg R.TREE_LOG_Q 0x01000005, (31:Nat), h1, [{h1 with endStitch := 103}], by decide +kernel⟩,
   ⟨js 3, (0:Nat), by decide +kernel⟩,
   ⟨sr (js 3) (R.AWL_STROKEQ 5) 0x02000005, (5:Nat), by decide +kernel⟩,
   ⟨(sbase 0 0 (mk 100 100 50 0)).setStream 4103 {b64 with size := 128, data := [(0, pw 20000), (1, ⟨30000, true, .clean⟩), (2, pw 0x10001000)]}, (0:Nat), by decide +kernel⟩⟩

end StrokesMet

namespace StopsAndMovesMet

def lim (k : Nat) (s : State) : State := ((((((s.setReg (R.AWL_LIMIT_XMIN k) 0x800000).setReg (R.AWL_LIMIT_YMIN k) 0x800000).setReg (R.AWL_LIMIT_XMAX k) 0x7FFFFF).setReg (R.AWL_LIMIT_YMAX k) 0x7FFFFF).setReg (R.AWL_ACC k) 4000000000).setReg (R.AWL_JERK k) 4000000000)

def pw (w : Word) : PWord := PWord.clean w

def psets : Sparse PWord := [(0, pw 20000), (1, pw 30000), (2, pw 0x10001000)]

def sbase (k st : Nat) (ws : List PWord) : State := { ((((lim k (js 3)).setReg (R.AWL_STROKEQ k) 0x01000005).setFld (F.AWL_STATUS_STATE k) st).setStream 5 { q8 with words := packetWords ws }).setStream 4103 {b64 with size := 128, data := psets} with tree := { Tree.atReset with psetBufs := [(k, 0x01002007)], psetCounts := [(k, 2)] } , tclk := 16000 }

def S0 : State := sbase 0 1 []

def S0b : State := {S0 with tclk := 16300, stitch := 101}

def sup (s : State) (k : Nat) : State := (s.setReg (R.TC_SUPQ k) 0x01000005)

def st' (s : State) (k n : Nat) : State := s.setFld (F.AWL_STATUS_STATE k) n

def due (s : State) (k : Nat) (l : List Nat) : State := s.setAwl k { s.awl k with due := l }

def stp (s : State) (k code : Nat) : State := s.setAwl k { s.awl k with stopCode := code, planT := 5, planX := 8, planY := -9 }

def gt (s : State) (k : Nat) (x y : Word) : State := ((s.setReg (R.AWL_GOTO_X k) x).setReg (R.AWL_GOTO_Y k) y).setReg (R.AWL_GOTO_SPEED k) 40000

def cp (s : State) (k : Nat) : State := (s.setFld (F.AWL_CTRL_CORR_SEL k) 1).setFld (F.AWL_CTRL_CORR_EN k) 1

def B : State := sbase 0 0 []

/-- The hypotheses of StopsAndMoves can be met. -/
theorem wit_StopsAndMoves :
    (∃ (s : State) (slot : Nat) (code : Nat),
      slot < 32 ∧
      s.awlState slot < 4 ∧
      (s.rein slot).seenT ≠ s.tclk ∧
      code ∈ (s.awl slot).due ∧
      code ≠ 0 ∧
      (∀ (c : Nat), c ∈ (s.awl slot).due → code ≤ c) ∧
      (¬(s.awlState slot = 4 ∧ (s.awl slot).planT ≤ s.tclk)) ∧
      s.awlState slot ≠ 5 ∧
      s.awlState slot ≠ 0 ∧
      s.awlState slot ≠ 3 ∧
      (¬(s.awlState slot = 3 ∧ (s.awl slot).planT ≤ s.tclk)) ∧
      (¬(s.corrPending slot = true ∧ (s.awlState slot = 0 ∨ s.awlState slot = 2 ∨ s.awlState slot = 5 ∨ s.awlState slot = 3 ∧ (s.awl slot).planT ≤ s.tclk)))) ∧
    (∃ (s : State) (slot : Nat) (code : Nat),
      slot < 32 ∧
      s.awlState slot = 4 ∧
      (¬code ∈ (s.awl slot).due ∨ (∃ c, c ∈ (s.awl slot).due ∧ c < code) ∨ s.awlState slot = 5) ∧
      (s.awl slot).planT ≤ s.tclk) ∧
    (∃ (s : State) (slot : Nat),
      slot < 32 ∧
      s.awlState slot = 5 ∧
      s.corrPending slot = true ∧
      (s.awlState slot = 0 ∨ s.awlState slot = 2 ∨ s.awlState slot = 5 ∨ s.awlState slot = 3 ∧ (s.awl slot).planT ≤ s.tclk)) ∧
    (∃ (s : State) (slot : Nat),
      slot < 32 ∧
      (s.awlState slot = 0 ∨ s.awlState slot = 3) ∧
      ¬(s.awlParams slot).inside (BitVec.toInt (s.reg (R.AWL_GOTO_X slot))) (BitVec.toInt (s.reg (R.AWL_GOTO_Y slot))) = true ∧
      s.awlState slot = 3 ∧
      (s.awl slot).planT ≤ s.tclk) ∧
    (∃ (s : State) (slot : Nat),
      slot < 32 ∧
      (s.awlState slot = 0 ∨ s.awlState slot = 3) ∧
      (s.awlParams slot).inside (BitVec.toInt (s.reg (R.AWL_GOTO_X slot))) (BitVec.toInt (s.reg (R.AWL_GOTO_Y slot))) = true ∧
      (¬(s.reg (R.AWL_ACC slot) ≠ 0 ∧ s.reg (R.AWL_JERK slot) ≠ 0 ∧ s.reg (R.AWL_GOTO_SPEED slot) ≠ 0))) ∧
    (∃ (s : State) (slot : Nat) (code : Nat),
      slot < 32 ∧
      code ∈ (s.awl slot).due ∧
      (∀ (c : Nat), c ∈ (s.awl slot).due → code ≤ c) ∧
      s.awlState slot = 4) ∧
    (∃ (s : State) (slot : Nat),
      slot < 32 ∧
      (s.awlState slot = 0 ∨ s.awlState slot = 3) ∧
      (s.awlParams slot).inside (BitVec.toInt (s.reg (R.AWL_GOTO_X slot))) (BitVec.toInt (s.reg (R.AWL_GOTO_Y slot))) = true ∧
      (s.reg (R.AWL_ACC slot) ≠ 0 ∧ s.reg (R.AWL_JERK slot) ≠ 0 ∧ s.reg (R.AWL_GOTO_SPEED slot) ≠ 0)) :=
  ⟨⟨sup (due S0 0 [4, 7]) 0, (0:Nat), (4:Nat), by decide +kernel⟩,
   ⟨st' (stp (due B 0 []) 0 300) 0 4, (0:Nat), (4:Nat), by decide +kernel⟩,
   ⟨cp (st' B 0 5) 0, (0:Nat), by decide +kernel⟩,
   ⟨gt (st' B 0 3) 0 0x7FFFFFFF 100, (0:Nat), by decide +kernel⟩,
   ⟨st' S0b 0 3, (0:Nat), by decide +kernel⟩,
   ⟨st' (due S0 0 [4, 7]) 0 4, (0:Nat), (4:Nat), by decide +kernel⟩,
   ⟨gt B 0 100 100, (0:Nat), by decide +kernel⟩⟩

end StopsAndMovesMet

namespace ReinAndTracesMet

def rn (k : Nat) (f : Rein → Rein) (s : State) : State := s.setRein k (f (s.rein k))

def q5 (q : Stream) : State := (withStreams up q)

def tr (k u st : Nat) (t : Trace) (s : State) : State := sf (rn k (fun r => {r with traces := r.traces.set u t}) s) (F.REIN_TRC_STATUS_STATE k u) st

def H : Word := 0x01000005

def w1 : PWord := ⟨7, true, .clean⟩

def b0 : State := {up with stitch := 100}

def due (k lp : Nat) : State := sf (rn k (fun r => {r with loadDue := true, lostDue := true, frozenDue := true, followDue := true, ti := 5*2^32, lastM := some 7, cmd := 9, ceilDue := some 0x1FFFFF}) b0) (F.REIN_STATUS_LOOP k) lp

def ld (k lim v : Nat) : State := sf (sf (due k 1) (F.REIN_TRIM_MAX_VALUE k) lim) (F.REIN_TRIM_LOAD_VALUE k) v

def cap (k u rearm : Nat) (q : Stream) : State := sf (tr k u 2 ⟨[[1,2]], 0, some 3, H⟩ (q5 q)) (F.REIN_TRC_CTRL_REARM k u) rearm

/-- The hypotheses of ReinAndTraces can be met. -/
theorem wit_ReinAndTraces :
    (∃ (s : State) (slot : Nat) (u : Nat) (src : Source) (v : Word) (w : Nat),
      s.Reaches src (R.REIN_TRC_CTRL slot u) ∧
      slot < 32 ∧
      (s.rein slot).loadDue = true ∧
      (s.rein slot).lostDue = true ∧
      s.loop slot ≠ 1 ∧
      (s.rein slot).frozenDue = true ∧
      (s.rein slot).followDue = true ∧
      (¬(s.jobState = 8 ∧ s.tree.since = s.now)) ∧
      2 ≤ s.fld (F.REIN_CTRL_POLICY slot) ∧
      s.awlState slot ≠ 1 ∧
      s.awlState slot ≠ 2 ∧
      (s.rein slot).ceilDue = some w ∧
      u < 4 ∧
      (s.rein slot).traceDue = false ∧
      v &&& 1073741824 = 0 ∧
      s.traceState slot u ≠ 2 ∧
      (¬(s.traceState slot u = 2 ∧ (s.trace slot u).left = 0))) ∧
    (∃ (s : State) (slot : Nat) (u : Nat) (src : Source) (key : Nat) (ws : List PWord),
      s.Reaches src (R.REIN_TRC_CTRL slot u) ∧
      slot < 32 ∧
      (s.rein slot).lostDue = false ∧
      (s.rein slot).frozenDue = false ∧
      (s.rein slot).followDue = false ∧
      ((s.rein slot).ceilDue = none ∨ s.awlState slot = 1) ∧
      u < 4 ∧
      (s.rein slot).traceDue = false ∧
      s.traceState slot u = 2 ∧
      (s.trace slot u).left = 0 ∧
      s.namedQueue (s.trace slot u).queue = some key ∧
      s.namedQueue (s.reg (R.TC_SUPQ slot)) ≠ some key ∧
      s.namedQueue (s.reg R.SB_EVQ) ≠ some key ∧
      findOpen (traceProducer slot u) (s.stream key).opens = some ws) ∧
    (∃ (s : State) (slot : Nat),
      slot < 32 ∧
      (s.rein slot).lostDue = true ∧
      s.loop slot = 1 ∧
      (s.rein slot).frozenDue = true ∧
      (s.rein slot).followDue = true ∧
      (¬(s.jobState = 8 ∧ s.tree.since = s.now)) ∧
      s.fld (F.REIN_CTRL_POLICY slot) = 0) ∧
    (∃ (s : State) (slot : Nat),
      slot < 32 ∧
      (s.rein slot).followDue = true ∧
      (¬(s.jobState = 8 ∧ s.tree.since = s.now)) ∧
      2 ≤ s.fld (F.REIN_CTRL_POLICY slot) ∧
      (s.awlState slot = 1 ∨ s.awlState slot = 2)) ∧
    (∃ (s : State) (slot : Nat),
      slot < 32 ∧
      (s.rein slot).followDue = true ∧
      (¬(s.jobState = 8 ∧ s.tree.since = s.now)) ∧
      s.fld (F.REIN_CTRL_POLICY slot) = 1) ∧
    (∃ (s : State) (slot : Nat),
      slot < 32 ∧
      (s.rein slot).followDue = true ∧
      s.jobState = 8) :=
  ⟨⟨sf (due 31 2) (F.REIN_CTRL_POLICY 31) 2, (31:Nat), (3:Nat), Source.core 3 3, (0x0 : Word), (0x1FFFFF : Nat), by unfold State.Reaches; decide +kernel, by decide +kernel⟩,
   ⟨cap 31 3 1 {q8 with opens := [⟨3127, [w1]⟩]}, (31:Nat), (3:Nat), Source.host, (5:Nat), [w1], by unfold State.Reaches; decide +kernel, by decide +kernel⟩,
   ⟨ld 0 100 0x8000, (0:Nat), by decide +kernel⟩,
   ⟨sf ((due 31 2)) (F.AWL_STATUS_STATE 31) 2 |> (sf · (F.REIN_CTRL_POLICY 31) 2), (31:Nat), by decide +kernel⟩,
   ⟨sf (due 1 3) (F.REIN_CTRL_POLICY 1) 1, (1:Nat), by decide +kernel⟩,
   ⟨sf (due 1 3) (F.TREE_JOB_STATUS_STATE) 8, (1:Nat), by decide +kernel⟩⟩

end ReinAndTracesMet

namespace AxisCommandsMet

def ab (x st : Nat) : State := { ((((((up.setReg (R.AXIS_VMAX x) 1).setReg (R.AXIS_ACC x) 4000000000).setReg (R.AXIS_JERK x) 4000000000).setReg (R.AXIS_SOFT_MIN x) 0xFFFFF000).setReg (R.AXIS_SOFT_MAX x) 0x1000).setFld (F.AXIS_STATUS_STATE x) st |>.setReg (R.AXIS_TARGET x) 40 |>.setReg (R.AXIS_HOME_SPEED x) 1) with tclk := 16000, stitch := 100 }

/-- The hypotheses of AxisCommands can be met. -/
theorem wit_AxisCommands :
    (∃ (s : State) (x : Nat) (src : Source),
      s.Reaches src (R.AXIS_CTRL x) ∧
      x < 16 ∧
      ¬s.periodPending = true ∧
      (¬s.fld (F.AXIS_STATUS_OWNED x) = 1 ∧ (s.axState x = 1 ∨ s.axState x = 2 ∨ s.axState x = 3)) ∧
      (s.fld (F.AXIS_CTRL_REQ_HOME x) = 0 ∨ s.fld (F.AXIS_STATUS_HOMED x) = 1) ∧
      BitVec.toInt (s.reg (R.AXIS_SOFT_MIN x)) ≤ BitVec.toInt (s.reg (R.AXIS_TARGET x)) ∧
      BitVec.toInt (s.reg (R.AXIS_TARGET x)) ≤ BitVec.toInt (s.reg (R.AXIS_SOFT_MAX x)) ∧
      (s.reg (R.AXIS_VMAX x) ≠ 0 ∧ s.reg (R.AXIS_ACC x) ≠ 0 ∧ s.reg (R.AXIS_JERK x) ≠ 0) ∧
      (¬((s.axis x).running s.axNow = none ∧ (s.axis x).posAt s.axNow = wrap48 (BitVec.toInt (s.reg (R.AXIS_TARGET x)) * 2 ^ 20))) ∧
      (¬((s.axis x).running s.axNow = none ∧ BitVec.toInt (s.reg (R.AXIS_SOFT_MAX x)) * 2 ^ 20 ≤ (s.axis x).posAt s.axNow)) ∧
      (¬((s.axis x).running s.axNow = none ∧ (s.axis x).posAt s.axNow ≤ BitVec.toInt (s.reg (R.AXIS_SOFT_MIN x)) * 2 ^ 20)) ∧
      s.axFaultDue x = false ∧
      ¬s.fld (F.AXIS_STATUS_OWNED x) = 1 ∧
      s.axState x = 1 ∧
      s.reg (R.AXIS_HOME_SPEED x) ≠ 0 ∧
      (s.homeMode x < 3 ∧ (s.homeInputs x).length ≤ 1 ∧ (s.homeMode x = 1 → s.fld (F.AXIS_CTRL_ENC_EN x) = 1) ∧ (s.homeMode x = 2 → s.fld (F.AXIS_CTRL_LA_SRC x) = 1 → 25600 ≤ BitVec.toNat (s.reg (R.AXIS_HOME_SPEED x)))) ∧
      s.axState x ≠ 6) ∧
    (∃ (s : State) (x : Nat),
      x < 16 ∧
      ¬s.periodPending = true ∧
      ¬s.fld (F.AXIS_STATUS_OWNED x) = 1 ∧
      (¬(¬s.fld (F.AXIS_STATUS_OWNED x) = 1 ∧ (s.axState x = 1 ∨ s.axState x = 2 ∨ s.axState x = 3))) ∧
      (s.axState x = 0 ∨ s.axState x = 6) ∧
      s.axState x ≠ 1 ∧
      s.axState x = 6) ∧
    (∃ (s : State) (x : Nat),
      x < 16 ∧
      ¬s.periodPending = true ∧
      s.fld (F.AXIS_STATUS_OWNED x) = 1 ∧
      s.axFaultDue x = false ∧
      s.skvPhase ≠ 6 ∧
      (s.axState x = 2 ∨ s.axState x = 3 ∨ s.axState x = 5)) ∧
    (∃ (s : State) (x : Nat),
      x < 16 ∧
      s.periodPending = true ∧
      s.axFaultDue x = false ∧
      ¬s.fld (F.AXIS_STATUS_OWNED x) = 1 ∧
      (s.axState x = 2 ∨ s.axState x = 3 ∨ s.axState x = 5)) ∧
    (∃ (s : State) (x : Nat),
      x < 16 ∧
      ¬s.periodPending = true ∧
      (¬s.fld (F.AXIS_STATUS_OWNED x) = 1 ∧ (s.axState x = 1 ∨ s.axState x = 2 ∨ s.axState x = 3)) ∧
      (s.fld (F.AXIS_CTRL_REQ_HOME x) = 0 ∨ s.fld (F.AXIS_STATUS_HOMED x) = 1) ∧
      BitVec.toInt (s.reg (R.AXIS_SOFT_MIN x)) ≤ BitVec.toInt (s.reg (R.AXIS_TARGET x)) ∧
      BitVec.toInt (s.reg (R.AXIS_TARGET x)) ≤ BitVec.toInt (s.reg (R.AXIS_SOFT_MAX x)) ∧
      (¬(s.reg (R.AXIS_VMAX x) ≠ 0 ∧ s.reg (R.AXIS_ACC x) ≠ 0 ∧ s.reg (R.AXIS_JERK x) ≠ 0) ∨ (s.axis x).running s.axNow = none ∧ (s.axis x).posAt s.axNow = wrap48 (BitVec.toInt (s.reg (R.AXIS_TARGET x)) * 2 ^ 20)) ∧
      (¬(s.reg (R.AXIS_VMAX x) ≠ 0 ∧ s.reg (R.AXIS_ACC x) ≠ 0 ∧ s.reg (R.AXIS_JERK x) ≠ 0) ∨ (s.axis x).running s.axNow = none ∧ BitVec.toInt (s.reg (R.AXIS_SOFT_MAX x)) * 2 ^ 20 ≤ (s.axis x).posAt s.axNow) ∧
      (¬(s.reg (R.AXIS_VMAX x) ≠ 0 ∧ s.reg (R.AXIS_ACC x) ≠ 0 ∧ s.reg (R.AXIS_JERK x) ≠ 0) ∨ (s.axis x).running s.axNow = none ∧ (s.axis x).posAt s.axNow ≤ BitVec.toInt (s.reg (R.AXIS_SOFT_MIN x)) * 2 ^ 20) ∧
      ¬s.fld (F.AXIS_STATUS_OWNED x) = 1 ∧
      s.axState x = 1 ∧
      (¬((s.reg (R.AXIS_VMAX x) ≠ 0 ∧ s.reg (R.AXIS_ACC x) ≠ 0 ∧ s.reg (R.AXIS_JERK x) ≠ 0) ∧ s.reg (R.AXIS_HOME_SPEED x) ≠ 0))) ∧
    (∃ (s : State) (x : Nat),
      x < 16 ∧
      ¬s.periodPending = true ∧
      (¬s.fld (F.AXIS_STATUS_OWNED x) = 1 ∧ (s.axState x = 1 ∨ s.axState x = 2 ∨ s.axState x = 3)) ∧
      (¬(s.fld (F.AXIS_CTRL_REQ_HOME x) = 0 ∨ s.fld (F.AXIS_STATUS_HOMED x) = 1))) ∧
    (∃ (s : State) (x : Nat),
      x < 16 ∧
      s.axFaultDue x = false ∧
      ¬s.fld (F.AXIS_STATUS_OWNED x) = 1 ∧
      s.axState x = 4) ∧
    (∃ (s : State) (x : Nat),
      x < 16 ∧
      s.axFaultDue x = true ∧
      s.axState x ≠ 0 ∧
      s.axState x ≠ 6) ∧
    (∃ (s : State) (x : Nat),
      x < 16 ∧
      ¬s.periodPending = true ∧
      (¬s.fld (F.AXIS_STATUS_OWNED x) = 1 ∧ (s.axState x = 1 ∨ s.axState x = 2 ∨ s.axState x = 3)) ∧
      (s.fld (F.AXIS_CTRL_REQ_HOME x) = 0 ∨ s.fld (F.AXIS_STATUS_HOMED x) = 1) ∧
      (¬(BitVec.toInt (s.reg (R.AXIS_SOFT_MIN x)) ≤ BitVec.toInt (s.reg (R.AXIS_TARGET x)) ∧ BitVec.toInt (s.reg (R.AXIS_TARGET x)) ≤ BitVec.toInt (s.reg (R.AXIS_SOFT_MAX x))))) ∧
    (∃ (s : State) (x : Nat),
      x < 16 ∧
      ¬s.periodPending = true ∧
      ¬s.fld (F.AXIS_STATUS_OWNED x) = 1 ∧
      s.axState x = 1 ∧
      (s.reg (R.AXIS_VMAX x) ≠ 0 ∧ s.reg (R.AXIS_ACC x) ≠ 0 ∧ s.reg (R.AXIS_JERK x) ≠ 0) ∧
      s.reg (R.AXIS_HOME_SPEED x) ≠ 0 ∧
      (¬(s.homeMode x < 3 ∧ (s.homeInputs x).length ≤ 1 ∧ (s.homeMode x = 1 → s.fld (F.AXIS_CTRL_ENC_EN x) = 1) ∧ (s.homeMode x = 2 → s.fld (F.AXIS_CTRL_LA_SRC x) = 1 → 25600 ≤ BitVec.toNat (s.reg (R.AXIS_HOME_SPEED x)))))) :=
  ⟨⟨ab 0 1, (0:Nat), Source.host, by unfold State.Reaches; decide +kernel, by decide +kernel⟩,
   ⟨ab 0 6, (0:Nat), by decide +kernel⟩,
   ⟨sf (sf (ab 15 2) (F.AXIS_STATUS_OWNED 15) 1) (F.AXIS_SKV_STATUS_PHASE 0) 3, (15:Nat), by decide +kernel⟩,
   ⟨sf (ab 15 5) F.STCH_STATUS_PENDING 1, (15:Nat), by decide +kernel⟩,
   ⟨(ab 15 1).setReg (R.AXIS_VMAX 15) 0, (15:Nat), by decide +kernel⟩,
   ⟨sf (ab 15 1) (F.AXIS_CTRL_REQ_HOME 15) 1, (15:Nat), by decide +kernel⟩,
   ⟨ab 0 4, (0:Nat), by decide +kernel⟩,
   ⟨(ab 15 2).setAxis 15 {Axis.atReset with stallAt := some (5, 5)}, (15:Nat), by decide +kernel⟩,
   ⟨(ab 15 1).setReg (R.AXIS_TARGET 15) 0x1001, (15:Nat), by decide +kernel⟩,
   ⟨sf (ab 15 1) (F.AXIS_HOME_CFG_MODE 15) 1, (15:Nat), by decide +kernel⟩⟩

end AxisCommandsMet

namespace AxisEndsMet

def ab (x st : Nat) : State := { ((((((up.setReg (R.AXIS_VMAX x) 1).setReg (R.AXIS_ACC x) 4000000000).setReg (R.AXIS_JERK x) 4000000000).setReg (R.AXIS_SOFT_MIN x) 0xFFFFF000).setReg (R.AXIS_SOFT_MAX x) 0x1000).setFld (F.AXIS_STATUS_STATE x) st |>.setReg (R.AXIS_TARGET x) 40 |>.setReg (R.AXIS_HOME_SPEED x) 1) with tclk := 16000, stitch := 100 }

def ax (s : State) (x : Nat) (f : Axis → Axis) : State := s.setAxis x (f (s.axis x))

def mo : AxMotion := ⟨100, [(5,0)], 175922, 0, 284217, false, 7*2^20, 3, 4⟩

def mo2 : AxMotion := ⟨4900, [(100000,0)], 175922, 0, 2842170000, true, 7*2^20, 3, 4⟩

def mo3 : AxMotion := { mo2 with down := false }

def moved (s : State) (x : Nat) : State := ax s x fun a => {a with plan := [mo], rest := 7 * 2 ^ 20}

def fl (s : State) (x : Nat) : State := (sf (s.setReg (R.AXIS_STALL x) 3) (F.AXIS_STALL_N x) 3)

def rn (s : State) (x : Nat) (m : AxMotion) : State := ax s x fun a => {a with plan := [m], rest := 7 * 2 ^ 20, stall := 3, stallAt := some (8000, 5), lostDue := true, switches := [⟨true,0,true⟩,⟨true,0,true⟩]}

def hm : Homing := ⟨1, true, none, 0, 0, false⟩

def hm4 : Homing := ⟨4, true, some 5000, 0, 3, true⟩

/-- The hypotheses of AxisEnds can be met. -/
theorem wit_AxisEnds :
    (∃ (s : State) (x : Nat) (n : Nat),
      x < 16 ∧
      (¬(s.axState x = 2 ∧ s.axAtRest x = true)) ∧
      (¬(s.axState x = 3 ∧ s.axAtRest x = true)) ∧
      (¬(s.axState x = 4 ∧ s.axAtRest x = true)) ∧
      ((s.axis x).stallAt = none ∨ s.axCanFault x 1 = false) ∧
      (s.axis x).lostDue = false ∧
      s.homesNow x = true ∧
      (s.axis x).home.chatter = true ∧
      s.axCanFault x 5 = true ∧
      (s.axState x ≠ 5 ∨ (s.axis x).home.step = 2 ∨ (s.axis x).home.step = 5) ∧
      (¬(s.axState x = 5 ∧ s.homeMode x = 1 ∧ (s.axis x).home.step = 1 ∧ ((s.axis x).home.seen = true ∨ (s.homeJudged x (s.axNow + n)).hit ≠ none ∨ s.homeInputs x = []))) ∧
      (¬(s.axState x = 5 ∧ (s.axis x).home.step = 5 ∧ s.axAtRest x = true))) ∧
    (∃ (s : State) (x : Nat) (q : Nat) (p : Int),
      x < 16 ∧
      (s.axis x).stallAt = some (q, p) ∧
      s.axCanFault x 1 = true ∧
      s.stallHoming x = false ∧
      (s.axis x).lostDue = true ∧
      (¬(s.fld (F.AXIS_CTRL_LOST_STOP x) = 1 ∧ s.axCanFault x 2 = true)) ∧
      (s.homesNow x = false ∨ (s.axis x).home.chatter = false ∨ s.axCanFault x 5 = false)) ∧
    (∃ (s : State) (x : Nat) (input : Nat),
      x < 16 ∧
      (s.axis x).lostDue = true ∧
      (s.fld (F.AXIS_CTRL_LOST_STOP x) = 1 ∧ s.axCanFault x 2 = true) ∧
      (s.switchActive x input = false ∨ s.switchRole x input ≠ 1 ∧ s.switchRole x input ≠ 2 ∨ s.homesNow x = false ∧ ¬(s.switchRole x input = 1 ∧ (s.axis x).velAt s.axNow < 0 ∨ s.switchRole x input = 2 ∧ 0 < (s.axis x).velAt s.axNow) ∨ s.axCanFault x (if s.homesNow x = true then 4 else 3) = false)) ∧
    (∃ (s : State) (x : Nat) (n : Nat),
      x < 16 ∧
      s.axState x = 5 ∧
      (s.axis x).home.step = 1 ∧
      ((s.homeJudged x (s.axNow + n)).hit = none ∨ s.homeMode x ≠ 0) ∧
      (s.axState x = 5 ∧ s.homeMode x = 1 ∧ (s.axis x).home.step = 1 ∧ ((s.axis x).home.seen = true ∨ (s.homeJudged x (s.axNow + n)).hit ≠ none ∨ s.homeInputs x = []))) ∧
    (∃ (s : State) (x : Nat),
      x < 16 ∧
      s.axState x = 2 ∧
      s.axAtRest x = true) ∧
    (∃ (s : State) (x : Nat),
      x < 16 ∧
      s.axState x = 3 ∧
      s.axAtRest x = true) ∧
    (∃ (s : State) (x : Nat),
      x < 16 ∧
      s.axState x = 4 ∧
      s.axAtRest x = true ∧
      s.fld (F.AXIS_CTRL_ENABLE x) = 0) ∧
    (∃ (s : State) (x : Nat),
      x < 16 ∧
      s.axState x = 4 ∧
      s.axAtRest x = true ∧
      s.fld (F.AXIS_CTRL_ENABLE x) = 1 ∧
      (s.axis x).stopCode ≠ 0 ∧
      ¬s.fld (F.AXIS_STATUS_OWNED x) = 1) ∧
    (∃ (s : State) (x : Nat),
      x < 16 ∧
      s.axState x = 4 ∧
      s.axAtRest x = true ∧
      s.fld (F.AXIS_CTRL_ENABLE x) = 1 ∧
      (s.axis x).stopCode ≠ 0 ∧
      s.fld (F.AXIS_STATUS_OWNED x) = 1 ∧
      s.skvPhase ≠ 6) ∧
    (∃ (s : State) (x : Nat),
      x < 16 ∧
      s.axState x = 4 ∧
      s.axAtRest x = true ∧
      s.fld (F.AXIS_CTRL_ENABLE x) = 1 ∧
      (s.axis x).stopCode = 0) ∧
    (∃ (s : State) (x : Nat) (input : Nat),
      x < 16 ∧
      s.switchActive x input = true ∧
      s.homesNow x = false ∧
      (s.switchRole x input = 1 ∧ (s.axis x).velAt s.axNow < 0 ∨ s.switchRole x input = 2 ∧ 0 < (s.axis x).velAt s.axNow) ∧
      s.axCanFault x 3 = true) ∧
    (∃ (s : State) (x : Nat) (input : Nat),
      x < 16 ∧
      s.switchActive x input = true ∧
      s.homesNow x = true ∧
      (s.switchRole x input = 1 ∨ s.switchRole x input = 2) ∧
      s.axCanFault x 4 = true) ∧
    (∃ (s : State) (x : Nat) (t0 : Nat),
      x < 16 ∧
      s.axState x = 5 ∧
      ((s.axis x).home.step = 3 ∨ (s.axis x).home.step = 4) ∧
      (s.axis x).home.latched = some t0) ∧
    (∃ (s : State) (x : Nat),
      x < 16 ∧
      s.axState x = 5 ∧
      (s.axis x).home.step = 5 ∧
      s.axAtRest x = true) ∧
    (∃ (s : State) (x : Nat) (q : Nat) (p : Int),
      x < 16 ∧
      (s.axis x).stallAt = some (q, p) ∧
      s.axCanFault x 1 = true ∧
      s.stallHoming x = true ∧
      (s.axis x).home.step = 1) ∧
    (∃ (s : State) (x : Nat) (q : Nat) (p : Int),
      x < 16 ∧
      (s.axis x).stallAt = some (q, p) ∧
      s.axCanFault x 1 = true ∧
      s.stallHoming x = true ∧
      (s.axis x).home.step ≠ 1) ∧
    (∃ (s : State) (x : Nat) (n : Nat) (t0 : Nat) (p : Int),
      x < 16 ∧
      s.axState x = 5 ∧
      (s.axis x).home.step = 1 ∧
      (s.homeJudged x (s.axNow + n)).hit = some (t0, p) ∧
      s.homeMode x = 0) :=
  ⟨⟨ax (ab 15 5) 15 fun a => {a with home := {hm4 with step := 2}}, (15:Nat), (0:Nat), by decide +kernel⟩,
   ⟨rn (fl (ab 15 2) 15) 15 mo2, (15:Nat), (8000:Nat), (5:Int), by decide +kernel⟩,
   ⟨ax (rn (sf (fl (ab 15 2) 15) (F.AXIS_CTRL_LOST_STOP 15) 1) 15 mo2) 15 fun a => {a with stopCode := 9, codes := [9]}, (15:Nat), (0:Nat), by decide +kernel⟩,
   ⟨ax (rn (sf (fl (ab 15 5) 15) (F.AXIS_HOME_CFG_MODE 15) 1) 15 mo3) 15 fun a => {a with home := hm}, (15:Nat), (4:Nat), by decide +kernel⟩,
   ⟨moved (ab 0 2) 0, (0:Nat), by decide +kernel⟩,
   ⟨moved (ab 15 3) 15, (15:Nat), by decide +kernel⟩,
   ⟨moved (ab 15 4) 15, (15:Nat), by decide +kernel⟩,
   ⟨ax (moved (sf (ab 15 4) (F.AXIS_CTRL_ENABLE 15) 1) 15) 15 fun a => {a with stopCode := 300}, (15:Nat), by decide +kernel⟩,
   ⟨ax (moved (sf (sf (ab 15 4) (F.AXIS_CTRL_ENABLE 15) 1) (F.AXIS_STATUS_OWNED 15) 1) 15) 15 fun a => {a with stopCode := 256}, (15:Nat), by decide +kernel⟩,
   ⟨moved (sf (ab 15 4) (F.AXIS_CTRL_ENABLE 15) 1) 15, (15:Nat), by decide +kernel⟩,
   ⟨((rn (sf (fl (ab 15 2) 15) (F.AXIS_CTRL_LOST_STOP 15) 1) 15 mo2)).setReg (R.AXIS_SWCFG 15) 0x11, (15:Nat), (0:Nat), by decide +kernel⟩,
   ⟨((rn (sf (fl (ab 15 5) 15) (F.AXIS_CTRL_LOST_STOP 15) 1) 15 mo3)).setReg (R.AXIS_SWCFG 15) 0x12, (15:Nat), (0:Nat), by decide +kernel⟩,
   ⟨ax (rn (sf (fl (ab 0 5) 0) (F.AXIS_HOME_CFG_MODE 0) 1) 0 mo3) 0 fun a => {a with home := hm4}, (0:Nat), (5000:Nat), by decide +kernel⟩,
   ⟨ax (moved (sf (ab 15 5) (F.AXIS_CTRL_ENABLE 15) 1) 15) 15 fun a => {a with stopCode := 3, home := {hm4 with step := 5}}, (15:Nat), by decide +kernel⟩,
   ⟨ax (rn (sf (fl (ab 15 5) 15) (F.AXIS_HOME_CFG_MODE 15) 2) 15 mo3) 15 fun a => {a with home := hm}, (15:Nat), (8000:Nat), (5:Int), by decide +kernel⟩,
   ⟨ax (rn (sf (fl (ab 15 5) 15) (F.AXIS_HOME_CFG_MODE 15) 2) 15 mo3) 15 fun a => {a with home := hm4}, (15:Nat), (8000:Nat), (5:Int), by decide +kernel⟩,
   ⟨ax (rn (sf (fl (ab 15 5) 15) (F.AXIS_HOME_CFG_MODE 15) 0) 15 mo3) 15 fun a => {a with home := hm, homeIn := {a.homeIn with hit := some (10000100, 5)}}, (15:Nat), (4:Nat), (10000100:Nat), (5:Int), by decide +kernel⟩⟩

end AxisEndsMet

namespace WavesAndSkiverMet

def wb (x : Nat) : State := (up.setStream 4103 {b64 with size := 1024, data := [(0, PWord.clean 7), (255, PWord.clean 9)]}).setReg (R.AXIS_WAVE_SRC x) 0x01002007

def sk (p : Nat) : State := { (sf (sf (sf (sf up (F.AXIS_SKV_STATUS_PHASE 0) p) (F.AXIS_SKV_CTRL_PLATFORM 0) 1) (F.AXIS_SKV_CTRL_DOSER 0) 2) (F.AXIS_SKV_CTRL_RECOATER 0) 15) with stitch := 100, tclk := 16000, skiver := { Skiver.atReset with faulted := 2 } }

def bi (s : State) : State := sf (sf s (F.AXIS_SKV_CTRL_BIDIR 0) 1) (F.AXIS_SKV_STATUS_DIR 0) 1

def own (s : State) : State := sf (sf s (F.AXIS_STATUS_OWNED 1) 1) (F.AXIS_STATUS_OWNED 2) 1

def idle (s : State) : State := sf (sf (sf s (F.AXIS_STATUS_STATE 1) 1) (F.AXIS_STATUS_STATE 2) 1) (F.AXIS_STATUS_STATE 15) 1

/-- The hypotheses of WavesAndSkiver can be met. -/
theorem wit_WavesAndSkiver :
    (∃ (s : State) (x : Nat) (src : Source) (v : Word),
      s.Reaches src (R.AXIS_WAVE_CMD x) ∧
      (∀ (q : Nat), s.skiver.settleAt = some q → s.now < q) ∧
      x < 16 ∧
      (¬(s.fld (F.AXIS_STATUS_BANK_USED x) = BitVec.toNat v % 4 ∧ s.axState x ≠ 1 ∧ s.axState x ≠ 0)) ∧
      s.namedBuffer (s.reg (R.AXIS_WAVE_SRC x)) = none ∧
      (¬(s.bankWanted x ≠ s.fld (F.AXIS_STATUS_BANK_USED x) ∧ ((s.axis x).running s.axNow = none ∨ (s.axis x).posAt s.axNow / 2 ^ 28 ≠ (s.axis x).posAt s.axNext / 2 ^ 28))) ∧
      (¬((s.skiver.nextPhase = 0 ∧ ∀ (x : Nat), x ∈ s.skvAxes → s.axAtRest x = true) ∧ (s.skvPhase = 1 ∨ s.skvPhase = 2 ∨ s.skvPhase = 3))) ∧
      (¬(s.skvPhase = 5 ∧ s.skiver.startAt < s.now)) ∧
      s.skvPhase ≠ 6) ∧
    (∃ (s : State) (x : Nat) (src : Source) (v : Word) (key : Nat),
      s.Reaches src (R.AXIS_WAVE_CMD x) ∧
      x < 16 ∧
      (¬(s.fld (F.AXIS_STATUS_BANK_USED x) = BitVec.toNat v % 4 ∧ s.axState x ≠ 1 ∧ s.axState x ≠ 0)) ∧
      s.namedBuffer (s.reg (R.AXIS_WAVE_SRC x)) = some key ∧
      (1024 ≤ (s.stream key).size ∧ (s.stream key).spill = false) ∧
      (∀ (w : PWord), w ∈ ((s.setFld (F.AXIS_WAVE_CMD_BANK x) (BitVec.toNat v % 4)).readBufs key 0 256).snd → w.poison = false) ∧
      (s.bankWanted x ≠ s.fld (F.AXIS_STATUS_BANK_USED x) ∧ ((s.axis x).running s.axNow = none ∨ (s.axis x).posAt s.axNow / 2 ^ 28 ≠ (s.axis x).posAt s.axNext / 2 ^ 28))) ∧
    (∃ (s : State) (q : Nat),
      (s.skiver.nextPhase = 0 ∧ ∀ (x : Nat), x ∈ s.skvAxes → s.axAtRest x = true) ∧
      s.skvPhase = 1 ∧
      s.skiver.settleAt = some q ∧
      q ≤ s.now) ∧
    (∃ (s : State) (x : Nat) (src : Source) (v : Word) (key : Nat),
      s.Reaches src (R.AXIS_WAVE_CMD x) ∧
      x < 16 ∧
      (¬(s.fld (F.AXIS_STATUS_BANK_USED x) = BitVec.toNat v % 4 ∧ s.axState x ≠ 1 ∧ s.axState x ≠ 0)) ∧
      s.namedBuffer (s.reg (R.AXIS_WAVE_SRC x)) = some key ∧
      (¬(1024 ≤ (s.stream key).size ∧ (s.stream key).spill = false))) ∧
    (∃ (s : State) (x : Nat) (src : Source) (v : Word) (key : Nat),
      s.Reaches src (R.AXIS_WAVE_CMD x) ∧
      x < 16 ∧
      (¬(s.fld (F.AXIS_STATUS_BANK_USED x) = BitVec.toNat v % 4 ∧ s.axState x ≠ 1 ∧ s.axState x ≠ 0)) ∧
      s.namedBuffer (s.reg (R.AXIS_WAVE_SRC x)) = some key ∧
      (1024 ≤ (s.stream key).size ∧ (s.stream key).spill = false) ∧
      (∃ w, w ∈ ((s.setFld (F.AXIS_WAVE_CMD_BANK x) (BitVec.toNat v % 4)).readBufs key 0 256).snd ∧ w.poison = true)) ∧
    (∃ (s : State) (x : Nat) (src : Source) (v : Word),
      s.Reaches src (R.AXIS_WAVE_CMD x) ∧
      x < 16 ∧
      (s.fld (F.AXIS_STATUS_BANK_USED x) = BitVec.toNat v % 4 ∧ s.axState x ≠ 1 ∧ s.axState x ≠ 0)) ∧
    (∃ (s : State),
      (s.skiver.nextPhase = 0 ∧ ∀ (x : Nat), x ∈ s.skvAxes → s.axAtRest x = true) ∧
      s.skvPhase = 2 ∧
      ¬s.fld (F.AXIS_SKV_CTRL_BIDIR 0) = 1) ∧
    (∃ (s : State),
      (s.skiver.nextPhase = 0 ∧ ∀ (x : Nat), x ∈ s.skvAxes → s.axAtRest x = true) ∧
      (s.skvPhase = 3 ∨ s.skvPhase = 2 ∧ s.fld (F.AXIS_SKV_CTRL_BIDIR 0) = 1)) ∧
    (∃ (s : State),
      s.skvPhase = 5 ∧
      s.skiver.startAt < s.now) ∧
    (∃ (s : State),
      s.skvPhase = 6 ∧
      s.skvChecks s.skiver.targets false = none) ∧
    (∃ (s : State) (code : Nat) (x : Nat),
      s.skvPhase = 6 ∧
      s.skvChecks s.skiver.targets false = some (code, x)) :=
  ⟨⟨up, (0:Nat), Source.host, (1:Word), by unfold State.Reaches; decide +kernel, fun _ h => (none_ne (by decide +kernel) h).elim, by decide +kernel⟩,
   ⟨sf (sf (wb 0) (F.AXIS_STATUS_STATE 0) 2) (F.AXIS_STATUS_BANK_USED 0) 2, (0:Nat), Source.host, (1:Word), (4103:Nat), by unfold State.Reaches; decide +kernel, by decide +kernel⟩,
   ⟨{ own (bi (sk 1)) with skiver := { Skiver.atReset with settleAt := some 100 } }, (100:Nat), by decide +kernel⟩,
   ⟨(wb 0).setStream 4103 {b64 with size := 1024, spill := true}, (0:Nat), Source.host, (1:Word), (4103:Nat), by unfold State.Reaches; decide +kernel, by decide +kernel⟩,
   ⟨(wb 0).setStream 4103 {b64 with size := 1024, data := [(255, {PWord.clean 7 with poison := true})]}, (0:Nat), Source.host, (1:Word), (4103:Nat), by unfold State.Reaches; decide +kernel, by decide +kernel⟩,
   ⟨sf (sf (wb 0) (F.AXIS_STATUS_STATE 0) 2) (F.AXIS_STATUS_BANK_USED 0) 1, (0:Nat), Source.host, (1:Word), by unfold State.Reaches; decide +kernel, by decide +kernel⟩,
   ⟨sk 2, by decide +kernel⟩,
   ⟨sk 3, by decide +kernel⟩,
   ⟨own (sk 5), by decide +kernel⟩,
   ⟨idle (sk 6), by decide +kernel⟩,
   ⟨sk 6, (1:Nat), (1:Nat), by decide +kernel⟩⟩

end WavesAndSkiverMet

namespace ImagingSlotsMet

def P := up.part.bedPipe.getD 99

def im (p i : Nat) : State := sf ((up.setReg (R.IMG_SIZE p i) 0x00080008)) (F.IMG_SRC_HEAD p i) 3

def cam (s : State) (p i : Nat) (f : Cam → Cam) : State := s.setCam p i (f (s.cam p i))

def cf : CamFrame := { header := [0x01000000, 5, 40, 0, 0, 0, 0, 0], trig := 30, expected := 3, flags := 0, pixels := [1,2], arrived := 2, dropping := false, queued := 0 }

/-- The hypotheses of ImagingSlots can be met. -/
theorem wit_ImagingSlots :
    (∃ (s : State) (p : Nat) (i : Nat) (src : Source) (q : Nat) (j : Nat) (rel : Nat),
      s.Reaches src (R.IMG_CTRL p) ∧
      s.Reaches src (R.IMG_COMMIT p) ∧
      p < 8 ∧
      i < 4 ∧
      s.camOn p 4 = false ∧
      s.fld (F.IMG_STATUS_ENABLED p) = 0 ∧
      s.camCheck p i = 0 ∧
      s.isBedPipe p = true ∧
      s.bedSizeCheck p = 0 ∧
      rel ∈ camOffs ∧
      ((if s.fld { addr := imgAddr p i 24, hi := 15, lo := 8 : Fld } ≠ 0 then s.fld { addr := imgAddr p i 24, hi := 15, lo := 8 : Fld } else if (s.cam p i).lastId = 255 then 1 else (s.cam p i).lastId + 1) < 256) ∧
      8 * q + j ≠ 8 * p + i ∧
      s.camOn p i = false ∧
      s.needsOld p i = false ∧
      s.needsOld p 4 = true ∧
      s.fld F.SYS_ACC_INFO_VALID = 0) ∧
    (∃ (s : State) (p : Nat) (i : Nat) (src : Source),
      s.Reaches src (R.IMG_COMMIT p) ∧
      p < 8 ∧
      i < 4 ∧
      s.needsOld p i = true ∧
      s.fld F.SYS_ACC_INFO_VALID = 0 ∧
      s.isBedPipe p = false) ∧
    (∃ (s : State) (p : Nat) (i : Nat) (src : Source),
      s.Reaches src (R.IMG_CTRL p) ∧
      s.Reaches src (R.IMG_COMMIT p) ∧
      p < 8 ∧
      i < 4 ∧
      s.isBedPipe p = true ∧
      s.camOn p 4 = false ∧
      s.fld (F.IMG_STATUS_ENABLED p) = 0 ∧
      s.bedSizeCheck p ≠ 0 ∧
      s.needsOld p 4 = false) ∧
    (∃ (s : State) (p : Nat) (i : Nat) (src : Source),
      s.Reaches src (R.IMG_CTRL p) ∧
      p < 8 ∧
      i < 4 ∧
      s.camOn p 4 = false ∧
      s.fld (F.IMG_STATUS_ENABLED p) = 0 ∧
      s.camCheck p i ≠ 0) :=
  ⟨⟨cam (sf (im P 1) (F.IMG_COMMIT_PIPE P) 5) P 4 fun c => {c with lastId := 255, commitAt := some 40, waiting := [cf]}, P, (1:Nat), Source.host, (0:Nat), (2:Nat), (0x10:Nat), by unfold State.Reaches; decide +kernel, by unfold State.Reaches; decide +kernel, by decide +kernel⟩,
   ⟨cam (sf (im 0 1) (F.IMG_COMMIT_PIPE 0) 5) 0 1 fun c => {c with lastId := 255, commitAt := some 40, waiting := [cf]}, (0:Nat), (1:Nat), Source.host, by unfold State.Reaches; decide +kernel, by decide +kernel⟩,
   ⟨sr (im P 0) (imgAddr P 4 0x1C) 0x00000002, P, (0:Nat), Source.host, by unfold State.Reaches; decide +kernel, by unfold State.Reaches; decide +kernel, by decide +kernel⟩,
   ⟨sf (im 0 3) (F.IMG_SRC_HEAD 0 3) 63, (0:Nat), (3:Nat), Source.host, by unfold State.Reaches; decide +kernel, by decide +kernel⟩⟩

end ImagingSlotsMet

namespace FramesMet

def P := up.part.bedPipe.getD 99

def q5 (s : State) : State := withStreams s {q8 with size := 200}

def cam (s : State) (p i : Nat) (f : Cam → Cam) : State := s.setCam p i (f (s.cam p i))

def cf : CamFrame := { header := [0x01000000, 5, 40, 0, 0, 0, 0, 0], trig := 30, expected := 3, flags := 0, pixels := [1,2], arrived := 2, dropping := false, queued := 0 }

def fr (p lane : Nat) : State := sf (sf (sf ((up.setReg (R.IMG_SIZE p 0) 0x00020002)) (F.IMG_SRC_HEAD p 0) lane) (F.IMG_STATUS_ENABLED p) 1) (F.LANE_STATUS_STATE lane) 5

def frm (p lane : Nat) : State := cam (fr p lane) p 0 fun c => {c with frame := some cf, results := []}

def mf (p i lane : Nat) : State := cam (sf (sf (sf ((up.setReg (R.IMG_SIZE p i) 0x00020002)) (F.IMG_SRC_HEAD p i) lane) (F.IMG_STATUS_ENABLED p) (2^i)) (F.LANE_STATUS_STATE lane) 5) p i fun c => {c with frame := some cf, results := [], queue := 0x01000005}

def bf (lane : Nat) : State := cam (sf (sf (sf ((up.setReg (imgAddr P 4 0x1C) 0x00020002)) (F.IMG_BED_SRC_HEAD P) lane) (F.IMG_CTRL_BED_EN P) 1) (F.LANE_STATUS_STATE lane) 5) P 4 fun c => {c with frame := some cf, results := []}

def hd : Word := 0x0FFF0001

def wsH : List Word := [0x00000000, 0x02010000, 9, 50, 0, 0x00020002, 2, 7, 8]

def res : CamResult := ⟨cf.header, 3, 1, 0, 0x01000005, 0, 0, List.replicate 43 7, none, none⟩

def stt (p i : Nat) (r : CamResult) : State := cam (q5 {fr 0 3 with stitch := 100}) p i fun c => {c with results := [r, res]}

/-- The hypotheses of Frames can be met. -/
theorem wit_Frames :
    (∃ (s : State) (p : Nat) (lane : Nat) (h : Nat) (i : Nat) (hdr : Word) (ws : List Word) (f : CamFrame),
      ((∃ j, 1 ≤ j ∧ j ≤ 3 ∧ (s.cam p j).results ≠ []) ∨ s.nextMemory p = none) ∧
      p < 8 ∧
      lane < 40 ∧
      s.laneState lane = 5 ∧
      ((s.lane lane).rx = none ∨ (s.lane lane).rx = some (getBits hdr 27 16)) ∧
      s.part.headOfLane lane = some h ∧
      s.sourceOf h = some (p, i) ∧
      i < 5 ∧
      getBits (ws.getD 0 0) 31 30 = 2 ∧
      (s.cam p i).frame = some f ∧
      i < 4 ∧
      1 ≤ i ∧
      i ≤ 3) ∧
    (∃ (s : State) (p : Nat) (lane : Nat) (h : Nat) (i : Nat) (hdr : Word) (ws : List Word) (f : CamFrame),
      p < 8 ∧
      lane < 40 ∧
      s.laneState lane = 5 ∧
      ((s.lane lane).rx = none ∨ (s.lane lane).rx = some (getBits hdr 27 16)) ∧
      s.part.headOfLane lane = some h ∧
      s.sourceOf h = some (p, i) ∧
      i < 5 ∧
      getBits (ws.getD 0 0) 31 30 = 0 ∧
      (s.cam p 0).frame = some f ∧
      i = 0) ∧
    (∃ (s : State) (p : Nat) (lane : Nat) (h : Nat) (i : Nat) (tick : Nat) (hdr : Word) (ws : List Word) (f : CamFrame),
      p < 8 ∧
      lane < 40 ∧
      s.laneState lane = 5 ∧
      ((s.lane lane).rx = none ∨ (s.lane lane).rx = some (getBits hdr 27 16)) ∧
      s.part.headOfLane lane = some h ∧
      s.sourceOf h = some (p, i) ∧
      i < 5 ∧
      getBits (ws.getD 0 0) 31 30 = 1 ∧
      (s.cam p i).frame = some f ∧
      i = 0 ∧
      f.dropping = false ∧
      (s.cam p 0).inLeft (s.tclk + tick) + (List.take (min 26 (getBits (ws.getD 0 0) 5 0)) (halves (List.drop 1 ws))).length ≤ 16384) ∧
    (∃ (s : State) (p : Nat) (lane : Nat) (h : Nat) (i : Nat) (hdr : Word) (ws : List Word) (f : CamFrame),
      p < 8 ∧
      lane < 40 ∧
      s.laneState lane = 5 ∧
      ((s.lane lane).rx = none ∨ (s.lane lane).rx = some (getBits hdr 27 16)) ∧
      s.part.headOfLane lane = some h ∧
      s.sourceOf h = some (p, i) ∧
      i < 5 ∧
      getBits (ws.getD 0 0) 31 30 = 2 ∧
      (s.cam p i).frame = some f ∧
      i = 0) ∧
    (∃ (s : State) (p : Nat) (i : Nat) (f : CamFrame) (rest : List CamFrame),
      (∀ (j : Nat), 1 ≤ j → j ≤ 3 → (s.cam p j).results = []) ∧
      p < 8 ∧
      s.nextMemory p = some i ∧
      (s.cam p i).waiting = f :: rest) ∧
    (∃ (s : State) (p : Nat) (lane : Nat) (h : Nat) (i : Nat) (hdr : Word) (ws : List Word) (f : CamFrame),
      p < 8 ∧
      lane < 40 ∧
      s.laneState lane = 5 ∧
      ((s.lane lane).rx = none ∨ (s.lane lane).rx = some (getBits hdr 27 16)) ∧
      s.part.headOfLane lane = some h ∧
      s.sourceOf h = some (p, i) ∧
      i < 5 ∧
      getBits (ws.getD 0 0) 31 30 = 1 ∧
      (s.cam p i).frame = some f ∧
      f.dropping = true) ∧
    (∃ (s : State) (p : Nat) (lane : Nat) (h : Nat) (i : Nat) (tick : Nat) (hdr : Word) (ws : List Word) (f : CamFrame),
      p < 8 ∧
      lane < 40 ∧
      s.laneState lane = 5 ∧
      ((s.lane lane).rx = none ∨ (s.lane lane).rx = some (getBits hdr 27 16)) ∧
      s.part.headOfLane lane = some h ∧
      s.sourceOf h = some (p, i) ∧
      i < 5 ∧
      getBits (ws.getD 0 0) 31 30 = 1 ∧
      (s.cam p i).frame = some f ∧
      i = 0 ∧
      f.dropping = false ∧
      ¬(s.cam p 0).inLeft (s.tclk + tick) + (List.take (min 26 (getBits (ws.getD 0 0) 5 0)) (halves (List.drop 1 ws))).length ≤ 16384) ∧
    (∃ (s : State) (p : Nat) (lane : Nat) (h : Nat) (i : Nat) (hdr : Word) (ws : List Word),
      p < 8 ∧
      lane < 40 ∧
      s.laneState lane = 5 ∧
      ((s.lane lane).rx = none ∨ (s.lane lane).rx = some (getBits hdr 27 16)) ∧
      s.part.headOfLane lane = some h ∧
      s.sourceOf h = some (p, i) ∧
      i < 5 ∧
      getBits (ws.getD 0 0) 31 30 = 1 ∧
      (s.cam p i).frame = none) ∧
    (∃ (s : State) (p : Nat) (lane : Nat) (h : Nat) (i : Nat) (hdr : Word) (ws : List Word) (f : CamFrame),
      p < 8 ∧
      lane < 40 ∧
      s.laneState lane = 5 ∧
      ((s.lane lane).rx = none ∨ (s.lane lane).rx = some (getBits hdr 27 16)) ∧
      s.part.headOfLane lane = some h ∧
      s.sourceOf h = some (p, i) ∧
      i < 5 ∧
      getBits (ws.getD 0 0) 31 30 = 1 ∧
      (s.cam p i).frame = some f ∧
      1 ≤ i ∧
      i ≤ 3 ∧
      f.dropping = false) ∧
    (∃ (s : State) (p : Nat) (lane : Nat) (h : Nat) (i : Nat) (hdr : Word) (ws : List Word) (f : CamFrame),
      p < 8 ∧
      lane < 40 ∧
      s.laneState lane = 5 ∧
      ((s.lane lane).rx = none ∨ (s.lane lane).rx = some (getBits hdr 27 16)) ∧
      s.part.headOfLane lane = some h ∧
      s.sourceOf h = some (p, i) ∧
      i < 5 ∧
      getBits (ws.getD 0 0) 31 30 = 1 ∧
      (s.cam p i).frame = some f ∧
      i = 4 ∧
      f.dropping = false) ∧
    (∃ (s : State) (p : Nat) (lane : Nat) (h : Nat) (i : Nat) (hdr : Word) (ws : List Word) (f : CamFrame),
      p < 8 ∧
      lane < 40 ∧
      s.laneState lane = 5 ∧
      ((s.lane lane).rx = none ∨ (s.lane lane).rx = some (getBits hdr 27 16)) ∧
      s.part.headOfLane lane = some h ∧
      s.sourceOf h = some (p, i) ∧
      i < 5 ∧
      getBits (ws.getD 0 0) 31 30 = 2 ∧
      (s.cam p i).frame = some f ∧
      i = 4) ∧
    (∃ (s : State) (p : Nat) (lane : Nat),
      p < 8 ∧
      s.laneState lane ≠ 5) :=
  ⟨⟨mf 0 2 3, (0:Nat), (3:Nat), (3:Nat), (2:Nat), hd, ([0x80000002, 0x00050004] : List Word), cf, .inr (by decide +kernel), by decide +kernel⟩,
   ⟨frm 0 3, (0:Nat), (3:Nat), (3:Nat), (0:Nat), hd, wsH, cf, by decide +kernel⟩,
   ⟨(frm 0 3).setLane 3 {Lane.atReset with rx := some 4095}, (0:Nat), (3:Nat), (3:Nat), (0:Nat), (5:Nat), hd, ([0x40000002, 0x00050004] : List Word), cf, by decide +kernel⟩,
   ⟨(frm 0 3), (0:Nat), (3:Nat), (3:Nat), (0:Nat), hd, ([0x80000002, 0x00050004] : List Word), cf, by decide +kernel⟩,
   ⟨cam (frm 0 3) 0 2 fun c => {c with processed := 7, waiting := [cf, cf]}, (0:Nat), (2:Nat), cf, [cf], fun j h1 h3 => by
      have k : j = 1 ∨ j = 2 ∨ j = 3 := by omega
      rcases k with rfl | rfl | rfl <;> decide +kernel, by decide +kernel⟩,
   ⟨cam (frm 0 3) 0 0 fun c => {c with frame := some {cf with dropping := true}}, (0:Nat), (3:Nat), (3:Nat), (0:Nat), hd, ([0x40000002, 0x00050004] : List Word), {cf with dropping := true}, by decide +kernel⟩,
   ⟨cam (frm 0 3) 0 0 fun c => {c with inFill := 16384}, (0:Nat), (3:Nat), (3:Nat), (0:Nat), (0:Nat), hd, ([0x40000002, 0x00050004] : List Word), cf, by decide +kernel⟩,
   ⟨fr 0 3, (0:Nat), (3:Nat), (3:Nat), (0:Nat), hd, ([0x40000002, 0x00050004] : List Word), by decide +kernel⟩,
   ⟨mf 0 2 3, (0:Nat), (3:Nat), (3:Nat), (2:Nat), hd, ([0x40000002, 0x00050004] : List Word), cf, by decide +kernel⟩,
   ⟨bf 3, P, (3:Nat), (3:Nat), (4:Nat), hd, ([0x40000002, 0x00050004] : List Word), cf, by decide +kernel⟩,
   ⟨bf 3, P, (3:Nat), (3:Nat), (4:Nat), hd, ([0x80000002, 0x00050004] : List Word), cf, by decide +kernel⟩,
   ⟨sf (fr 0 3) (F.LANE_STATUS_STATE 3) 4, (0:Nat), (3:Nat), by decide +kernel⟩⟩

/-- The hypotheses of StatisticsAndBed can be met. -/
theorem wit_StatisticsAndBed :
    (∃ (s : State) (p : Nat) (i : Nat) (src : Source),
      s.Reaches src (R.IMG_BED_CMD p) ∧
      p < 8 ∧
      i < 4 ∧
      (s.cam p i).results = [] ∧
      s.isBedPipe p = false ∧
      s.flag F.SYS_ACC_INFO_VALID = false ∧
      (¬(s.isBedPipe p = true ∧ s.bed.running = true ∧ s.bed.triggers = 0 ∧ s.bed.frames = 0))) ∧
    (∃ (s : State) (p : Nat) (i : Nat) (key : Nat) (r : CamResult) (rest : List CamResult),
      s.Takes (imgReq p) r.statq (5 + r.stat.length) key ∧
      p < 8 ∧
      i < 4 ∧
      (s.cam p i).results = r :: rest ∧
      s.namedQueue r.assimq ≠ some key ∧
      s.namedQueue r.retainq ≠ some key) ∧
    (∃ (s : State) (p : Nat) (src : Source) (v : Word),
      s.Reaches src (R.IMG_BED_CMD p) ∧
      p < 8 ∧
      s.isBedPipe p = true ∧
      s.bed.running = false ∧
      (BitVec.toNat v % 2 ^ 15 = 0 ∨ BitVec.toNat v / 2 ^ 16 = 0 ∨ s.reg (R.IMG_BED_OUT p) = 0)) ∧
    (∃ (s : State) (p : Nat) (src : Source) (v : Word),
      s.Reaches src (R.IMG_BED_CMD p) ∧
      p < 8 ∧
      s.isBedPipe p = true ∧
      s.bed.running = false ∧
      (¬(BitVec.toNat v % 2 ^ 15 = 0 ∨ BitVec.toNat v / 2 ^ 16 = 0 ∨ s.reg (R.IMG_BED_OUT p) = 0)) ∧
      s.fld (F.IMG_CTRL_BED_EN p) = 0) ∧
    (∃ (s : State) (p : Nat) (src : Source) (v : Word),
      s.Reaches src (R.IMG_BED_CMD p) ∧
      p < 8 ∧
      s.isBedPipe p = true ∧
      s.bed.running = false ∧
      (¬(BitVec.toNat v % 2 ^ 15 = 0 ∨ BitVec.toNat v / 2 ^ 16 = 0 ∨ s.reg (R.IMG_BED_OUT p) = 0)) ∧
      s.fld (F.IMG_CTRL_BED_EN p) = 1) ∧
    (∃ (s : State) (p : Nat) (src : Source),
      s.Reaches src (R.IMG_BED_CMD p) ∧
      p < 8 ∧
      s.isBedPipe p = true ∧
      s.bed.running = true) ∧
    (∃ (s : State) (p : Nat),
      p < 8 ∧
      s.isBedPipe p = true ∧
      s.bed.running = true ∧
      s.bed.triggers = 0 ∧
      s.bed.frames = 0) ∧
    (∃ (s : State) (p : Nat) (i : Nat) (r : CamResult) (rest : List CamResult),
      p < 8 ∧
      i < 4 ∧
      (s.cam p i).results = r :: rest ∧
      s.namedQueue r.statq ≠ none ∧
      s.hasRoom r.statq (5 + r.stat.length) = false) ∧
    (∃ (s : State) (p : Nat) (i : Nat) (key : Nat) (r : CamResult) (rest : List CamResult) (copy : List Word),
      s.Takes (imgReq p) r.retainq (8 + copy.length) key ∧
      p < 8 ∧
      i < 4 ∧
      (s.cam p i).results = r :: rest ∧
      r.retain = some copy ∧
      s.namedQueue r.statq ≠ some key ∧
      s.namedQueue r.assimq ≠ some key ∧
      s.namedQueue (s.reg (R.IMG_EVQ p)) ≠ some key) :=
  ⟨⟨up, (3:Nat), (2:Nat), Source.host, by unfold State.Reaches; decide +kernel, by decide +kernel⟩,
   ⟨stt 0 0 res, (0:Nat), (0:Nat), (5:Nat), res, [res], takes_iff.2 (by decide +kernel), by decide +kernel⟩,
   ⟨up, (7:Nat), Source.host, (0x00050003 : Word), by unfold State.Reaches; decide +kernel, by decide +kernel⟩,
   ⟨up.setReg (R.IMG_BED_OUT 7) 0x01000005, (7:Nat), Source.host, (0x00050003 : Word), by unfold State.Reaches; decide +kernel, by decide +kernel⟩,
   ⟨up.setReg (R.IMG_BED_OUT 7) 0x01000005 |> (sf · (F.IMG_CTRL_BED_EN 7) 1), (7:Nat), Source.host, (0x00050003 : Word), by unfold State.Reaches; decide +kernel, by decide +kernel⟩,
   ⟨{ up with bed := ⟨true, 3, 4, 5, 6, 7, 8⟩ }, (7:Nat), Source.host, by unfold State.Reaches; decide +kernel, by decide +kernel⟩,
   ⟨{ up with bed := ⟨true, 0, 4, 5, 0, 7, 8⟩ }, (7:Nat), by decide +kernel⟩,
   ⟨stt 0 0 {res with statq := 0x01000005, retain := none} |> fun s => s.setStream 5 {q8 with size := 10}, (0:Nat), (0:Nat), res, [res], by decide +kernel⟩,
   ⟨stt 0 0 {res with statq := 0, retainq := 0x01000005, retain := some [1,2,3]}, (0:Nat), (0:Nat), (5:Nat), {res with statq := 0, retainq := 0x01000005, retain := some [1,2,3]}, [res], ([1,2,3] : List Word), takes_iff.2 (by decide +kernel), by decide +kernel⟩⟩

end FramesMet

namespace StreamPortMet

def cr (arg : Word) : State := (sf (up.setReg R.SB_CMD_ARG arg) (F.SB_CLASS_BUDGET_PAGES 2) 100)

def STT : State := withStreams (cr 64) q8

def str0 : Stream := { q8 with gen := 3, size := 77 }

def qq (q : Stream) : State := (withStreams up q)

def H : Word := 0x01000005

def w1 : PWord := ⟨7, true, .clean⟩

def op (n : Nat) : Stream := { q8 with opens := [⟨n, [w1]⟩] }

def full : Stream := { q8 with words := packetWords (List.replicate 8 (PWord.clean 3)) }

def sp : Stream := { q8 with spill := true, size := 5000, win := 2, words := packetWords (List.replicate 4000 (PWord.clean 3)) }

def apS (q : Stream) (a : Nat) : State := (qq q).setReg (R.SB_APER a) H

def apB (a : Nat) (d : Sparse PWord) : State := ((qq q8).setStream 4103 {b64 with data := d}).setReg (R.SB_APER a) 0x01002007

/-- The hypotheses of StreamPort can be met. -/
theorem wit_StreamPort :
    (∃ (s : State) (src : Source) (key : Nat),
      s.Reaches src R.SB_CMD ∧
      s.fld F.SB_CMD_STATUS_BUSY = 1 ∧
      s.sb.port = some (PortJob.destroying key)) ∧
    (∃ (s : State) (src : Source) (v : Word),
      s.Reaches src R.SB_CMD ∧
      s.fld F.SB_CMD_STATUS_BUSY = 0 ∧
      BitVec.toNat (s.reg R.SB_CMD_ARG) = 0 ∧
      s.createCheck { kind := getBits v 28 28, cls := getBits v 27 26, spill := getBits v 25 25 == 1, win := getBits v 24 16, size := BitVec.toNat (s.reg R.SB_CMD_ARG) : CreateReq } ≠ 0 ∧
      s.named (s.reg R.SB_CMD_ARG) = none ∧
      s.sb.port = none) ∧
    (∃ (s : State) (src : Source) (v : Word),
      s.Reaches src R.SB_CMD ∧
      s.fld F.SB_CMD_STATUS_BUSY = 0 ∧
      s.createCheck { kind := getBits v 28 28, cls := getBits v 27 26, spill := getBits v 25 25 == 1, win := getBits v 24 16, size := BitVec.toNat (s.reg R.SB_CMD_ARG) : CreateReq } = 0) ∧
    (∃ (s : State) (src : Source) (key : Nat),
      s.Reaches src R.SB_CMD ∧
      s.fld F.SB_CMD_STATUS_BUSY = 0 ∧
      s.named (s.reg R.SB_CMD_ARG) = some key ∧
      (s.stream key).internal = false ∧
      s.refCount (s.reg R.SB_CMD_ARG) = 0) ∧
    (∃ (s : State) (src : Source) (key : Nat),
      s.Reaches src R.SB_CMD ∧
      s.fld F.SB_CMD_STATUS_BUSY = 0 ∧
      s.named (s.reg R.SB_CMD_ARG) = some key ∧
      (s.stream key).internal = false ∧
      s.refCount (s.reg R.SB_CMD_ARG) ≠ 0) ∧
    (∃ (s : State) (src : Source) (key : Nat),
      s.Reaches src R.SB_CMD ∧
      s.fld F.SB_CMD_STATUS_BUSY = 0 ∧
      s.named (s.reg R.SB_CMD_ARG) = some key ∧
      (s.stream key).internal = true) ∧
    (∃ (s : State) (key : Nat) (str : Machine.Stream),
      s.sb.port = some (PortJob.creating key str)) :=
  ⟨⟨sf { STT with sb := {STT.sb with port := some (.destroying 5)} } F.SB_CMD_STATUS_BUSY 1, Source.host, (5:Nat), by unfold State.Reaches; decide +kernel, by decide +kernel⟩,
   ⟨cr 0, Source.host, (0x08000000:Word), by unfold State.Reaches; decide +kernel, by decide +kernel⟩,
   ⟨cr 64, Source.host, (0x08000000:Word), by unfold State.Reaches; decide +kernel, by decide +kernel⟩,
   ⟨STT.setReg R.SB_CMD_ARG 0x01000005, Source.host, (5:Nat), by unfold State.Reaches; decide +kernel, by decide +kernel⟩,
   ⟨(STT.setReg R.SB_CMD_ARG 0x01000005).setReg R.TREE_LOG_Q 0x01000005, Source.host, (5:Nat), by unfold State.Reaches; decide +kernel, by decide +kernel⟩,
   ⟨(STT.setReg R.SB_CMD_ARG 0x01000005).setStream 5 {q8 with internal := true}, Source.host, (5:Nat), by unfold State.Reaches; decide +kernel, by decide +kernel⟩,
   ⟨{ STT with sb := {STT.sb with port := some (.creating 5 str0)} }, (5:Nat), str0, by decide +kernel⟩⟩

/-- The hypotheses of BlockQueues can be met. -/
theorem wit_BlockQueues :
    (∃ (s : State) (req : Nat) (h : Word) (key : Nat) (w : PWord) (same : Bool) (toDram : Bool),
      s.namedQueue h = some key ∧
      (∀ (w : SpillWait), w ∈ s.sb.waits → w.key ≠ key) ∧
      (∀ (c : Nat), c < 4 → s.namedQueue (s.reg (R.DMC_EVQ c)) ≠ some key) ∧
      s.namedQueue (s.reg R.SB_EVQ) ≠ some key ∧
      toDram = true ∧
      (s.stream key).spill = false ∧
      (s.stream key).absent = false ∧
      ¬1000 + req ∈ (s.stream key).cut ∧
      s.pushHeld key (1000 + req) = false ∧
      ((s.stream key).occupancy < (s.stream key).size ∧ ((findOpen (1000 + req) (s.stream key).opens).isSome = true ∨ (s.stream key).opens.length < 16) ∧ ¬(same = true ∧ s.startFull key = true)) ∧
      req < 256 ∧
      s.popHeld key = false ∧
      ((s.stream key).words = [] ∨ same = true ∧ s.startEmpty key = true)) ∧
    (∃ (s : State) (req : Nat) (h : Word) (key : Nat) (w : PWord) (same : Bool) (toDram : Bool) (v : QWord) (rest : List QWord),
      s.namedQueue h = some key ∧
      (∀ (w : SpillWait), w ∈ s.sb.waits → w.key ≠ key) ∧
      (∀ (c : Nat), c < 4 → s.namedQueue (s.reg (R.DMC_EVQ c)) ≠ some key) ∧
      s.namedQueue (s.reg R.SB_EVQ) ≠ some key ∧
      toDram = false ∧
      (s.stream key).absent = false ∧
      ¬1000 + req ∈ (s.stream key).cut ∧
      s.pushHeld key (1000 + req) = false ∧
      (¬((s.stream key).occupancy < (s.stream key).size ∧ ((findOpen (1000 + req) (s.stream key).opens).isSome = true ∨ (s.stream key).opens.length < 16) ∧ ¬(same = true ∧ s.startFull key = true))) ∧
      req < 256 ∧
      s.popHeld key = false ∧
      (¬(same = true ∧ s.startEmpty key = true)) ∧
      (s.stream key).words = v :: rest ∧
      s.namedQueue (s.reg (R.DMC_EVQ 0)) ≠ some key ∧
      worseError v.word.err ((s.stream key).pop.q.ringWord ((s.stream key).popped ^^^ 1)).err = WordError.clean) ∧
    (∃ (s : State) (req : Nat) (h : Word) (key : Nat) (w : PWord),
      s.namedQueue h = some key ∧
      (∀ (w : SpillWait), w ∈ s.sb.waits → w.key ≠ key) ∧
      (s.stream key).absent = true ∧
      req < 256) ∧
    (∃ (s : State) (req : Nat) (h : Word) (key : Nat) (w : PWord),
      s.namedQueue h = some key ∧
      (∀ (w : SpillWait), w ∈ s.sb.waits → w.key ≠ key) ∧
      (s.stream key).absent = false ∧
      1000 + req ∈ (s.stream key).cut ∧
      req < 256) ∧
    (∃ (s : State) (h : Word),
      s.namedQueue h = none) ∧
    (∃ (s : State) (req : Nat) (h : Word) (key : Nat) (w : PWord),
      s.namedQueue h = some key ∧
      (∀ (w : SpillWait), w ∈ s.sb.waits → w.key ≠ key) ∧
      (s.stream key).absent = false ∧
      s.pushHeld key (1000 + req) = true ∧
      s.popHeld key = true) ∧
    (∃ (s : State) (h : Word) (key : Nat) (same : Bool) (v : QWord) (rest : List QWord),
      s.namedQueue h = some key ∧
      (∀ (w : SpillWait), w ∈ s.sb.waits → w.key ≠ key) ∧
      (s.stream key).absent = false ∧
      s.popHeld key = false ∧
      (¬(same = true ∧ s.startEmpty key = true)) ∧
      (s.stream key).words = v :: rest ∧
      s.namedQueue (s.reg R.SB_EVQ) ≠ some key ∧
      s.namedQueue (s.reg (R.DMC_EVQ 0)) ≠ some key ∧
      worseError v.word.err ((s.stream key).pop.q.ringWord ((s.stream key).popped ^^^ 1)).err ≠ WordError.clean) :=
  ⟨⟨qq q8, (255:Nat), H, (5:Nat), w1, false, true, by decide +kernel⟩,
   ⟨qq full, (255:Nat), H, (5:Nat), w1, false, false, (⟨PWord.clean 3, false⟩:QWord), (packetWords (List.replicate 7 (PWord.clean 3))), by decide +kernel⟩,
   ⟨qq {q8 with absent := true}, (255:Nat), H, (5:Nat), w1, by decide +kernel⟩,
   ⟨qq {op 1255 with cut := [1255]}, (255:Nat), H, (5:Nat), w1, by decide +kernel⟩,
   ⟨up, H, by decide +kernel⟩,
   ⟨(qq {sp with words := packetWords (List.replicate 4000 (PWord.clean 3)), dramAt := [0,1,2], dramWords := 1024, headWords := 0}), (0:Nat), H, (5:Nat), w1, by decide +kernel⟩,
   ⟨(qq {full with words := [⟨⟨3, false, .single⟩, false⟩]}), H, (5:Nat), true, (⟨⟨3, false, .single⟩, false⟩:QWord), ([] : List QWord), by decide +kernel⟩⟩

/-- The hypotheses of AperturesAndScrub can be met. -/
theorem wit_AperturesAndScrub :
    (∃ (s : State) (a : Nat) (key : Nat) (off : Nat),
      a < 16 ∧
      s.coreUp = true ∧
      s.fld F.PWR_STATE_BOOT_DONE = 1 ∧
      s.isWheel = true ∧
      s.flag F.SYS_ACC_INFO_VALID = false ∧
      (s.isWheel = true ∨ s.leadsPair = true ∨ s.namedQueue (s.reg (R.SB_APER a)) = none) ∧
      s.namedQueue (s.reg (R.SB_APER a)) = none ∧
      s.namedBuffer (s.reg (R.SB_APER a)) = some key ∧
      off < (s.stream key).size ∧
      worseError (s.bufWord key (off / 4)).err (s.bufWord key (off / 4 ^^^ 1)).err = WordError.clean) ∧
    (∃ (s : State) (a : Nat) (src : Source) (key : Nat),
      s.Reaches src (R.SB_APER a) ∧
      a < 16 ∧
      s.coreUp = true ∧
      s.fld F.PWR_STATE_BOOT_DONE = 1 ∧
      s.namedQueue (s.reg (R.SB_APER a)) = some key ∧
      (∀ (w : SpillWait), w ∈ s.sb.waits → w.key ≠ key) ∧
      s.isWheel = false ∧
      s.leadsPair = false ∧
      (s.stream key).absent = false ∧
      ¬2000 + a ∈ (s.stream key).cut ∧
      s.pushHeld key (2000 + a) = false ∧
      ((s.stream key).occupancy < (s.stream key).size ∧ ((findOpen (2000 + a) (s.stream key).opens).isSome = true ∨ (s.stream key).opens.length < 16)) ∧
      (s.stream key).words = [] ∧
      s.popHeld key = false) ∧
    (∃ (s : State) (a : Nat) (key : Nat),
      a < 16 ∧
      s.coreUp = true ∧
      s.fld F.PWR_STATE_BOOT_DONE = 1 ∧
      s.namedQueue (s.reg (R.SB_APER a)) = some key ∧
      (∀ (w : SpillWait), w ∈ s.sb.waits → w.key ≠ key) ∧
      s.isWheel = false ∧
      s.leadsPair = false ∧
      (s.stream key).absent = true) ∧
    (∃ (s : State) (addr : Nat) (key : Nat) (i : Nat) (err : WordError),
      addr < 2 ^ 26 ∧
      s.reg R.SB_SCRUB_INT ≠ 0 ∧
      pageOwner (addr / 4096) s.sb.streams = some (key, i) ∧
      worseError (worseError err (s.wordIn key (i * 1024 + addr % 4096 / 4)).err) (s.wordIn key (i * 1024 + addr % 4096 / 4 ^^^ 1)).err = WordError.double ∧
      isQueue key = false ∧
      (s.stream key).pages.getD i 0 = addr / 4096 ∧
      i < (s.stream key).pages.length ∧
      addr / 2 ^ 20 < 64) ∧
    (∃ (s : State) (addr : Nat) (key : Nat) (i : Nat) (err : WordError),
      addr < 2 ^ 26 ∧
      s.reg R.SB_SCRUB_INT ≠ 0 ∧
      pageOwner (addr / 4096) s.sb.streams = some (key, i) ∧
      worseError (worseError err (s.wordIn key (i * 1024 + addr % 4096 / 4)).err) (s.wordIn key (i * 1024 + addr % 4096 / 4 ^^^ 1)).err = WordError.single ∧
      isQueue key = false ∧
      (s.stream key).pages.getD i 0 = addr / 4096 ∧
      i < (s.stream key).pages.length ∧
      addr / 2 ^ 20 < 64) ∧
    (∃ (s : State) (a : Nat) (key : Nat),
      a < 16 ∧
      s.coreUp = true ∧
      s.fld F.PWR_STATE_BOOT_DONE = 1 ∧
      s.namedQueue (s.reg (R.SB_APER a)) = some key ∧
      (∀ (w : SpillWait), w ∈ s.sb.waits → w.key ≠ key) ∧
      s.isWheel = false ∧
      s.leadsPair = false ∧
      (s.stream key).absent = false ∧
      2000 + a ∈ (s.stream key).cut) ∧
    (∃ (s : State) (a : Nat) (key : Nat),
      a < 16 ∧
      s.coreUp = true ∧
      s.fld F.PWR_STATE_BOOT_DONE = 1 ∧
      s.namedQueue (s.reg (R.SB_APER a)) = some key ∧
      (∀ (w : SpillWait), w ∈ s.sb.waits → w.key ≠ key) ∧
      s.isWheel = false ∧
      s.leadsPair = false ∧
      (s.stream key).absent = false ∧
      ¬2000 + a ∈ (s.stream key).cut ∧
      s.pushHeld key (2000 + a) = false ∧
      (¬((s.stream key).occupancy < (s.stream key).size ∧ ((findOpen (2000 + a) (s.stream key).opens).isSome = true ∨ (s.stream key).opens.length < 16)))) ∧
    (∃ (s : State) (a : Nat) (key : Nat),
      a < 16 ∧
      s.coreUp = true ∧
      s.fld F.PWR_STATE_BOOT_DONE = 1 ∧
      s.namedQueue (s.reg (R.SB_APER a)) = some key ∧
      (∀ (w : SpillWait), w ∈ s.sb.waits → w.key ≠ key) ∧
      s.isWheel = false ∧
      s.leadsPair = false ∧
      (s.stream key).absent = false ∧
      s.pushHeld key (2000 + a) = true ∧
      s.popHeld key = true) ∧
    (∃ (s : State) (a : Nat) (key : Nat) (off : Nat),
      a < 16 ∧
      s.coreUp = true ∧
      s.fld F.PWR_STATE_BOOT_DONE = 1 ∧
      s.namedBuffer (s.reg (R.SB_APER a)) = some key ∧
      off < (s.stream key).size ∧
      s.isWheel = false ∧
      s.leadsPair = false ∧
      worseError (s.bufWord key (off / 4)).err (s.bufWord key (off / 4 ^^^ 1)).err ≠ WordError.clean) ∧
    (∃ (s : State) (a : Nat) (key : Nat) (v : QWord) (rest : List QWord),
      a < 16 ∧
      s.coreUp = true ∧
      s.fld F.PWR_STATE_BOOT_DONE = 1 ∧
      s.namedQueue (s.reg (R.SB_APER a)) = some key ∧
      (∀ (w : SpillWait), w ∈ s.sb.waits → w.key ≠ key) ∧
      (s.stream key).absent = false ∧
      (s.stream key).words = v :: rest ∧
      s.popHeld key = false ∧
      worseError v.word.err ((s.stream key).pop.q.ringWord ((s.stream key).popped ^^^ 1)).err = WordError.clean) ∧
    (∃ (s : State) (a : Nat) (off : Nat) (wr : Option Word),
      a < 16 ∧
      s.coreUp = true ∧
      s.fld F.PWR_STATE_BOOT_DONE = 1 ∧
      (s.namedBuffer (s.reg (R.SB_APER a)) = none ∨ ∃ key, s.namedBuffer (s.reg (R.SB_APER a)) = some key ∧ (s.stream key).size ≤ off) ∧
      (wr.isSome = true → s.isWheel = false ∧ s.leadsPair = false)) ∧
    (∃ (s : State) (a : Nat),
      a < 16 ∧
      s.coreUp = true ∧
      s.fld F.PWR_STATE_BOOT_DONE = 1 ∧
      s.isWheel = false ∧
      s.leadsPair = true) ∧
    (∃ (s : State) (a : Nat),
      a < 16 ∧
      s.coreUp = true ∧
      s.fld F.PWR_STATE_BOOT_DONE = 0) ∧
    (∃ (s : State) (addr : Nat) (key : Nat) (i : Nat) (err : WordError),
      addr < 2 ^ 26 ∧
      s.reg R.SB_SCRUB_INT ≠ 0 ∧
      pageOwner (addr / 4096) s.sb.streams = some (key, i) ∧
      worseError (worseError err (s.wordIn key (i * 1024 + addr % 4096 / 4)).err) (s.wordIn key (i * 1024 + addr % 4096 / 4 ^^^ 1)).err = WordError.single ∧
      isQueue key = true) ∧
    (∃ (s : State) (addr : Nat) (key : Nat) (i : Nat) (err : WordError),
      addr < 2 ^ 26 ∧
      s.reg R.SB_SCRUB_INT ≠ 0 ∧
      pageOwner (addr / 4096) s.sb.streams = some (key, i) ∧
      worseError (worseError err (s.wordIn key (i * 1024 + addr % 4096 / 4)).err) (s.wordIn key (i * 1024 + addr % 4096 / 4 ^^^ 1)).err = WordError.clean) ∧
    (∃ (s : State) (addr : Nat),
      addr < 2 ^ 26 ∧
      (pageOwner (addr / 4096) s.sb.streams = none ∨ s.reg R.SB_SCRUB_INT = 0)) :=
  ⟨⟨apB 3 [] |> (sf · F.HARN_STATUS_STATE 3), (3:Nat), (4103:Nat), (60:Nat), by decide +kernel⟩,
   ⟨apS q8 0, (0:Nat), Source.host, (5:Nat), by unfold State.Reaches; decide +kernel, by decide +kernel⟩,
   ⟨apS {q8 with absent := true} 0, (0:Nat), (5:Nat), by decide +kernel⟩,
   ⟨(apB 3 [(15, w1)]).setReg R.SB_SCRUB_INT 7, (4096+60:Nat), (4103:Nat), (0:Nat), WordError.double, by decide +kernel⟩,
   ⟨((apB 3 [(15, ⟨3, false, .single⟩)]).setReg R.SB_SCRUB_INT 7), (4096+60:Nat), (4103:Nat), (0:Nat), WordError.clean, by decide +kernel⟩,
   ⟨apS {full with cut := [2015]} 15, (15:Nat), (5:Nat), by decide +kernel⟩,
   ⟨apS full 15, (15:Nat), (5:Nat), by decide +kernel⟩,
   ⟨apS {sp with words := packetWords (List.replicate 4000 (PWord.clean 3)), dramAt := [0,1,2], dramWords := 1024, headWords := 0} 15, (15:Nat), (5:Nat), by decide +kernel⟩,
   ⟨apB 3 [(15, ⟨3, false, .single⟩)], (3:Nat), (4103:Nat), (60:Nat), by decide +kernel⟩,
   ⟨apS full 15, (15:Nat), (5:Nat), (⟨PWord.clean 3, false⟩:QWord), (packetWords (List.replicate 7 (PWord.clean 3))), by decide +kernel⟩,
   ⟨apB 3 [(15, w1)], (3:Nat), (64:Nat), (some 5 : Option Word), by decide +kernel⟩,
   ⟨ha (fun h => {h with peerTracks := true}) (apB 3 [] |> (sf · F.HARN_STATUS_STATE 6)), (3:Nat), by decide +kernel⟩,
   ⟨sf (apB 3 []) F.PWR_STATE_BOOT_DONE 0, (3:Nat), by decide +kernel⟩,
   ⟨((qq full).setReg R.SB_SCRUB_INT 7), (4:Nat), (5:Nat), (0:Nat), WordError.single, by decide +kernel⟩,
   ⟨((qq full).setReg R.SB_SCRUB_INT 7), (4:Nat), (5:Nat), (0:Nat), WordError.clean, by decide +kernel⟩,
   ⟨((qq full).setReg R.SB_SCRUB_INT 7), (400000:Nat), by decide +kernel⟩⟩

end StreamPortMet

namespace DramRequestsMet

def dd (c : Nat) : State := dm ((up.setFld (F.DMC_STATUS_STATE 1) 2).setFld (F.DMC_CFG_RANKS c) 0)

def ch (s : State) (c : Nat) (f : DmcChan → DmcChan) : State := s.setChan c (f (s.chan c))

def ln (b : Nat) : Line := ⟨List.replicate 64 (BitVec.ofNat 8 b), false⟩

def en (k : Nat) : WqEntry := ⟨k, some (ln k), none⟩

def wq64 : List WqEntry := (List.range 64).map fun k => en (k + 10)

def E0 : List Nat := []

def E1 : List Nat := [3 * 256 + 7]

def E2 : List Nat := [3 * 256 + 7, 9 * 256 + 1]

def memd (c : Nat) : State := (dd c).setBytes (dramAddr c 0x80) ((List.range 64).map fun k => BitVec.ofNat 8 (k + 1))

/-- The hypotheses of DramRequests can be met. -/
theorem wit_DramRequests :
    (∃ (s : State) (chan : Nat) (req : Nat) (off : Nat) (err : List Nat) (e : WqEntry) (es : List WqEntry),
      chan < 2 ∧
      req < 256 ∧
      s.noMemory chan req off = false ∧
      s.dmcUp chan = true ∧
      queuedLine (s.chan chan).wq (off / 64) = none ∧
      List.map symErr err = [] ∧
      classify (if s.lineBad (dramAddr chan off) = true then poisonMark ++ List.map symErr err else List.map symErr err) = LineClass.clean ∧
      (¬(req = 224 ∧ (s.isWheel = true ∨ s.leadsPair = true))) ∧
      (s.chan chan).wq = e :: es ∧
      64 ≤ (e :: es).length ∧
      (List.find? (fun e => e.pair == off / 128) (s.chan chan).wq).isNone = true ∧
      e.even.isSome ≠ e.odd.isSome) ∧
    (∃ (s : State) (chan : Nat) (req : Nat) (off : Nat),
      chan < 2 ∧
      req < 256 ∧
      s.noMemory chan req off = true) ∧
    (∃ (s : State) (chan : Nat) (req : Nat) (off : Nat),
      chan < 2 ∧
      req < 256 ∧
      s.noMemory chan req off = false ∧
      s.dmcState chan = dmcFailed ∧
      (¬(req = 224 ∧ (s.isWheel = true ∨ s.leadsPair = true)))) ∧
    (∃ (s : State) (chan : Nat) (req : Nat) (off : Nat) (err : List Nat) (k : Nat),
      chan < 2 ∧
      req < 256 ∧
      s.noMemory chan req off = false ∧
      s.dmcUp chan = true ∧
      queuedLine (s.chan chan).wq (off / 64) = none ∧
      classify (if s.lineBad (dramAddr chan off) = true then poisonMark ++ List.map symErr err else List.map symErr err) = LineClass.corrected k ∧
      (¬(req = 224 ∧ (s.isWheel = true ∨ s.leadsPair = true))) ∧
      ((s.chan chan).wq.length < 64 ∨ (List.find? (fun e => e.pair == off / 128) (s.chan chan).wq).isSome = true)) ∧
    (∃ (s : State) (chan : Nat) (req : Nat) (off : Nat),
      chan < 2 ∧
      req < 256 ∧
      s.noMemory chan req off = false ∧
      req = 224 ∧
      s.isWheel = true ∧
      s.flag F.SYS_ACC_INFO_VALID = false) ∧
    (∃ (s : State) (chan : Nat) (req : Nat) (off : Nat) (err : List Nat),
      chan < 2 ∧
      req < 256 ∧
      s.noMemory chan req off = false ∧
      s.dmcUp chan = true ∧
      queuedLine (s.chan chan).wq (off / 64) = none ∧
      classify (if s.lineBad (dramAddr chan off) = true then poisonMark ++ List.map symErr err else List.map symErr err) = LineClass.uncorrectable) ∧
    (∃ (s : State) (chan : Nat) (req : Nat) (off : Nat) (err : List Nat),
      chan < 2 ∧
      req < 256 ∧
      s.noMemory chan req off = false ∧
      s.dmcUp chan = true ∧
      queuedLine (s.chan chan).wq (off / 64) = none ∧
      classify (if s.lineBad (dramAddr chan off) = true then poisonMark ++ List.map symErr err else List.map symErr err) = LineClass.storedPoison) ∧
    (∃ (s : State) (chan : Nat) (req : Nat) (off : Nat) (l : Line),
      chan < 2 ∧
      req < 256 ∧
      s.noMemory chan req off = false ∧
      s.dmcUp chan = true ∧
      queuedLine (s.chan chan).wq (off / 64) = some l) ∧
    (∃ (s : State) (chan : Nat) (req : Nat) (off : Nat),
      chan < 2 ∧
      req < 256 ∧
      s.noMemory chan req off = false ∧
      req = 224 ∧
      s.isWheel = false ∧
      s.leadsPair = true) :=
  ⟨⟨ch (memd 0) 0 fun c => {c with wq := wq64}, (0:Nat), (23:Nat), (0x80:Nat), E0, en 10, wq64.drop 1, by decide +kernel⟩,
   ⟨up, (0:Nat), (255:Nat), (64:Nat), by decide +kernel⟩,
   ⟨sf (dd 0) (F.DMC_STATUS_STATE 0) 4, (0:Nat), (255:Nat), (64:Nat), by decide +kernel⟩,
   ⟨memd 1, (1:Nat), (255:Nat), (0xC0:Nat), E1, (3:Nat), by decide +kernel⟩,
   ⟨sf (dd 0) F.HARN_STATUS_STATE 3, (0:Nat), (224:Nat), (64:Nat), by decide +kernel⟩,
   ⟨memd 0, (0:Nat), (255:Nat), (0x80:Nat), E2, by decide +kernel⟩,
   ⟨(memd 0).markLine 0x80 true, (0:Nat), (224:Nat), (0x80:Nat), E0, by decide +kernel⟩,
   ⟨ch (memd 0) 0 fun c => {c with wq := wq64}, (0:Nat), (23:Nat), (128*12:Nat), ln 12, by decide +kernel⟩,
   ⟨ha (fun h => {h with peerTracks := true}) (sf (dd 0) F.HARN_STATUS_STATE 6), (0:Nat), (224:Nat), (64:Nat), by decide +kernel⟩⟩

end DramRequestsMet

namespace DramUpkeepMet

def dd (c : Nat) : State := dm ((up.setFld (F.DMC_STATUS_STATE 1) 2).setFld (F.DMC_CFG_RANKS c) 0)

def ch (s : State) (c : Nat) (f : DmcChan → DmcChan) : State := s.setChan c (f (s.chan c))

def ln (b : Nat) : Line := ⟨List.replicate 64 (BitVec.ofNat 8 b), false⟩

def en (k : Nat) : WqEntry := ⟨k, some (ln k), none⟩

def wq64 : List WqEntry := (List.range 64).map fun k => en (k + 10)

def E0 : List Nat := []

def memd (c : Nat) : State := (dd c).setBytes (dramAddr c 0x80) ((List.range 64).map fun k => BitVec.ofNat 8 (k + 1))

def off' (c : Nat) : State := sf (dd c) (F.DMC_STATUS_STATE c) 0

def tr (c : Nat) : State := sf (memd c) (F.DMC_STATUS_STATE c) 1

def iso (c f : Nat) : State := ((memd c).setReg (R.DMC_ISO_CTRL c f) 0).setReg R.SB_EVQ 5

def fp : Fetch := ⟨3, 4, [PWord.clean 3, PWord.clean 4], false⟩

def wqd (c : Nat) : State := ch (memd c) c fun c => {c with wq := wq64.take 5, patrolPos := 128, rh := [⟨0,1,2,false⟩], limited := [(0,1)], fetchPos := [(3,4)], tsetNext := 2, bandRate := 1, retry := [.read 5, .write (en 3), .refresh, .write ⟨4, none, some (ln 9)⟩]}

def rp (k : Nat) (w w2 : Word) : State := (up.setReg (R.DMC_REPEAT 0 k) w).setReg (R.DMC_REPEAT_INFO 0 k) w2

/-- The hypotheses of DramUpkeep can be met. -/
theorem wit_DramUpkeep :
    (∃ (s : State) (chan : Nat) (n : Nat) (rate : Nat) (fetch : Nat),
      chan < 2 ∧
      s.dmcUp chan = true ∧
      n < 3 ∧
      s.dmcState chan = dmcReady ∧
      s.fld (F.DMC_STATUS_DEBT chan) < 4 ∧
      s.dmcState chan ≠ dmcOff ∧
      s.dmcState chan ≠ dmcFailed ∧
      s.fld (F.DMC_STATUS_RATE chan) < max (s.chan chan).bandRate (min rate 2) ∧
      List.find? (fun p => p.fetcher == fetch) (s.chan chan).inflight = none ∧
      (s.dmcState chan = dmcReady ∧ s.fld (F.DMC_SR_IDLE_VALUE chan) ≠ 0 ∧ (s.chan chan).fetchOn = [])) ∧
    (∃ (s : State) (chan : Nat),
      chan < 2 ∧
      s.dmcState chan ≠ dmcTraining ∧
      s.dmcUp chan = false ∧
      s.dmcState chan ≠ dmcReady ∧
      (s.dmcState chan = dmcOff ∨ s.dmcState chan = dmcFailed) ∧
      (¬(s.dmcState chan = dmcReady ∧ s.fld (F.DMC_SR_IDLE_VALUE chan) ≠ 0 ∧ (s.chan chan).fetchOn = [])) ∧
      (s.fld (F.DMC_PATROL_HOURS chan) = 0 ∨ s.dmcUp chan = false)) ∧
    (∃ (s : State) (chan : Nat) (src : Source) (f : Nat) (v : Word),
      s.Reaches src (R.DMC_CFG chan) ∧
      s.Reaches src (R.DMC_ISO_CTRL chan f) ∧
      chan < 2 ∧
      getBits v 31 31 = 1 ∧
      (¬(s.dmcState chan = dmcOff ∨ s.dmcState chan = dmcFailed)) ∧
      getBits (s.reg (R.DMC_CFG chan)) 19 13 ≠ getBits v 19 13 ∧
      s.flag F.SYS_ACC_INFO_VALID = false ∧
      f < 8 ∧
      ¬f ∈ (s.chan chan).fetchOn) ∧
    (∃ (s : State) (chan : Nat) (n : Nat) (rate : Nat),
      chan < 2 ∧
      s.dmcUp chan = true ∧
      3 ≤ n ∧
      s.dmcState chan = dmcReady ∧
      4 ≤ s.fld (F.DMC_STATUS_DEBT chan) ∧
      s.dmcState chan ≠ dmcOff ∧
      s.dmcState chan ≠ dmcFailed ∧
      s.fld (F.DMC_STATUS_RATE chan) < max (s.chan chan).bandRate (min rate 2) ∧
      s.fld (F.DMC_STATUS_DEBT chan) ≠ 0) ∧
    (∃ (s : State) (chan : Nat) (err : List Nat),
      chan < 2 ∧
      s.fld (F.DMC_PATROL_HOURS chan) ≠ 0 ∧
      s.dmcUp chan = true ∧
      err = [] ∧
      (∀ (i : Nat), i < 128 → s.lineBad (dramAddr chan ((s.chan chan).patrolPos * 128 + 64 * i)) = false)) ∧
    (∃ (s : State) (chan : Nat) (result : Nat),
      chan < 2 ∧
      s.dmcState chan = dmcTraining ∧
      s.dmcConfigOk chan = true ∧
      result = 0 ∧
      s.fld F.PWR_STATE_BOOT_DONE = 1) ∧
    (∃ (s : State) (chan : Nat) (src : Source) (f : Nat) (v : Word),
      s.Reaches src (R.DMC_CFG chan) ∧
      s.Reaches src (R.DMC_ISO_CTRL chan f) ∧
      chan < 2 ∧
      getBits v 31 31 = 0 ∧
      f < 8 ∧
      (getBits v 31 31 = 0 ∨ f ∈ (s.chan chan).fetchOn)) ∧
    (∃ (s : State) (chan : Nat) (src : Source) (v : Word),
      s.Reaches src (R.DMC_CFG chan) ∧
      chan < 2 ∧
      getBits v 31 31 = 1 ∧
      (s.dmcState chan = dmcOff ∨ s.dmcState chan = dmcFailed) ∧
      s.fld (F.DMC_CFG_ENABLE chan) = 0) ∧
    (∃ (s : State) (chan : Nat) (result : Nat),
      chan < 2 ∧
      s.dmcState chan = dmcTraining ∧
      s.dmcConfigOk chan = true ∧
      result = 1) ∧
    (∃ (s : State) (chan : Nat) (result : Nat),
      chan < 2 ∧
      s.dmcState chan = dmcTraining ∧
      result < 3 ∧
      (s.dmcConfigOk chan = false ∨ result = 2)) ∧
    (∃ (s : State) (chan : Nat) (result : Nat),
      chan < 2 ∧
      s.dmcState chan = dmcTraining ∧
      3 ≤ result) ∧
    (∃ (s : State) (chan : Nat) (fetch : Nat) (p : Fetch),
      chan < 2 ∧
      List.find? (fun p => p.fetcher == fetch) (s.chan chan).inflight = some p) ∧
    (∃ (s : State) (chan : Nat) (k : Nat),
      chan < 2 ∧
      k < 64 ∧
      (s.repeatValid k = false ∨ s.repeatSticky k = true)) ∧
    (∃ (s : State) (chan : Nat) (k : Nat),
      chan < 2 ∧
      k < 64 ∧
      s.repeatValid k = true ∧
      s.repeatSticky k = false) ∧
    (∃ (s : State) (chan : Nat) (src : Source) (v : Word),
      s.Reaches src (R.DMC_CFG chan) ∧
      chan < 2 ∧
      getBits v 31 31 = 1 ∧
      (s.dmcState chan = dmcOff ∨ s.dmcState chan = dmcFailed) ∧
      s.fld (F.DMC_CFG_ENABLE chan) = 1) :=
  ⟨⟨ch (wqd 0) 0 fun c => {c with retry := [.write ⟨4, none, some ⟨List.replicate 200 9, true⟩⟩]}, (0:Nat), (1:Nat), (7:Nat), (3:Nat), by decide +kernel⟩,
   ⟨off' 0, (0:Nat), by decide +kernel⟩,
   ⟨iso 0 0, (0:Nat), Source.host, (0:Nat), (0x80000000:Word), by unfold State.Reaches; decide +kernel, by unfold State.Reaches; decide +kernel, by decide +kernel⟩,
   ⟨sf (wqd 1) (F.DMC_STATUS_DEBT 1) 4, (1:Nat), (3:Nat), (1:Nat), by decide +kernel⟩,
   ⟨sf (wqd 0) (F.DMC_PATROL_HOURS 0) 3, (0:Nat), E0, by decide +kernel⟩,
   ⟨tr 0, (0:Nat), (0:Nat), by decide +kernel⟩,
   ⟨iso 1 7, (1:Nat), Source.host, (7:Nat), (0x7FFFFFFF:Word), by unfold State.Reaches; decide +kernel, by unfold State.Reaches; decide +kernel, by decide +kernel⟩,
   ⟨off' 0, (0:Nat), Source.host, (0x80002000:Word), by unfold State.Reaches; decide +kernel, by decide +kernel⟩,
   ⟨tr 1, (1:Nat), (1:Nat), by decide +kernel⟩,
   ⟨tr 0, (0:Nat), (2:Nat), by decide +kernel⟩,
   ⟨sf (tr 1) (F.DMC_STATUS_SELFTEST 1) 1, (1:Nat), (3:Nat), by decide +kernel⟩,
   ⟨ch (memd 0) 0 fun c => {c with inflight := [{fp with fetcher := 2}, fp, {fp with due := 7}, fp]}, (0:Nat), (3:Nat), fp, by decide +kernel⟩,
   ⟨up, (0:Nat), (0:Nat), by decide +kernel⟩,
   ⟨{rp 63 0 0x80000000  with repeatAge := [(3,7), (63,8)]}, (0:Nat), (63:Nat), by decide +kernel⟩,
   ⟨sf (sf (wqd 0) (F.DMC_CFG_ENABLE 0) 1) (F.DMC_STATUS_STATE 0) 4, (0:Nat), Source.host, (0xFFFFFFFF:Word), by unfold State.Reaches; decide +kernel, by decide +kernel⟩⟩

end DramUpkeepMet

namespace LaneCommandsMet

def la (k st : Nat) : State := { (sf (sf up (F.LANE_STATUS_STATE k) st) (F.PWR_STATE_STATE) 4).setReg (R.LANE_CFG k) 0x80000000 with stitch := 100 }

def lf (s : State) (k : Nat) (f : Lane → Lane) : State := s.setLane k (f (s.lane k))

def mode (s : State) (k m t : Nat) : State := sf (sf s (F.LANE_TEST_INJ_MODE k) m) (F.LANE_TEST_INJ_TYPE k) t

def fl (n : Nat) : List Word := [w32 (n * 65536), 2, 3]

def idw : List Word := [0x000F0001, 7, 8, 0x12345]

def al (k : Nat) (n : Nat) (h : Word) : State := (lf (la k 4) k fun l => {l with rtts := List.replicate n 9, turn := 3}).setReg (R.LANE_HEAD k) h

def rv (k a : Nat) : State := lf (la k 6) k fun l => {l with attempts := a}

def hd (n : Nat) : Word := w32 (n * 65536)

def ws1 (tag : Word) : List Word := [tag, 0x00050003, 0x00010002, 0x00030004, 7]

/-- The hypotheses of LaneCommands can be met. -/
theorem wit_LaneCommands :
    (∃ (s : State) (k : Nat) (src : Source) (v : Word),
      s.Reaches src (R.LANE_CFG k) ∧
      k < 40 ∧
      (¬(s.laneState k = laneDown ∨ s.laneState k = laneFailed ∨ s.laneState k = laneTest)) ∧
      ¬BitVec.msb v = true ∧
      (s.laneState k = laneReady ∧ s.laneBusy k = false ∨ s.laneState k = laneFailed) ∧
      s.laneState k = laneReady ∧
      (s.laneState k = laneFailed ∨ s.part.row.lasers ≤ k) ∧
      (¬(s.laneState k = laneDown ∨ s.laneState k = laneFailed)) ∧
      s.laneState k ≠ laneTest ∧
      s.fld (F.LANE_STATUS_MEAS_BUSY k) = 0 ∧
      (s.fld (F.LANE_TEST_INJ_MODE k) = 0 ∨ s.fld (F.LANE_TEST_INJ_MODE k) = 3)) ∧
    (∃ (s : State) (k : Nat) (src : Source) (v : Word),
      s.Reaches src (R.LANE_CFG k) ∧
      k < 40 ∧
      (s.laneState k = laneDown ∨ s.laneState k = laneFailed ∨ s.laneState k = laneTest) ∧
      (¬(s.fld F.HARN_CFG_ENABLE = 1 ∧ s.isHarness k = false ∧ getBits v 23 16 < 2)) ∧
      BitVec.msb v = true ∧
      (¬(s.laneState k = laneReady ∧ s.laneBusy k = false ∨ s.laneState k = laneFailed)) ∧
      (s.laneState k = laneDown ∨ s.laneState k = laneFailed) ∧
      (s.laneState k ≠ laneReady ∨ s.fld (F.LANE_STATUS_MEAS_BUSY k) = 1) ∧
      s.fld (F.LANE_STATUS_MEAS_BUSY k) = 0) ∧
    (∃ (s : State) (k : Nat) (src : Source) (v : Word),
      s.Reaches src (R.LANE_CFG k) ∧
      k < 40 ∧
      (s.laneState k = laneDown ∨ s.laneState k = laneFailed ∨ s.laneState k = laneTest) ∧
      (¬(s.fld F.HARN_CFG_ENABLE = 1 ∧ s.isHarness k = false ∧ getBits v 23 16 < 2)) ∧
      ¬BitVec.msb v = true ∧
      s.laneState k = laneTest) ∧
    (∃ (s : State) (k : Nat),
      k < 40 ∧
      (s.laneState k = laneReady ∧ s.laneBusy k = false ∨ s.laneState k = laneFailed) ∧
      s.laneState k = laneReady ∧
      k < s.part.row.lasers ∧
      s.fld (F.LANE_TEST_INJ_MODE k) = 2 ∧
      (¬(s.laneState k ≠ laneReady ∧ s.laneState k ≠ laneTest ∨ s.fld (F.LANE_TEST_INJ_MODE k) = 2 ∧ s.fld (F.LANE_TEST_INJ_TYPE k) = 1 ∧ s.laneBusy k = true))) ∧
    (∃ (s : State) (k : Nat) (src : Source) (v : Word),
      s.Reaches src (R.LANE_CFG k) ∧
      k < 40 ∧
      (s.laneState k = laneDown ∨ s.laneState k = laneFailed ∨ s.laneState k = laneTest) ∧
      (s.fld F.HARN_CFG_ENABLE = 1 ∧ s.isHarness k = false ∧ getBits v 23 16 < 2) ∧
      ¬BitVec.msb v = true) ∧
    (∃ (s : State) (k : Nat),
      k < 40 ∧
      (s.fld (F.LANE_TEST_INJ_MODE k) = 1 ∨ s.fld (F.LANE_TEST_INJ_MODE k) = 2) ∧
      (s.laneState k ≠ laneReady ∧ s.laneState k ≠ laneTest ∨ s.fld (F.LANE_TEST_INJ_MODE k) = 2 ∧ s.fld (F.LANE_TEST_INJ_TYPE k) = 1 ∧ s.laneBusy k = true)) ∧
    (∃ (s : State) (k : Nat),
      k < 40 ∧
      s.fld (F.LANE_TEST_INJ_MODE k) = 1 ∧
      (¬(s.laneState k ≠ laneReady ∧ s.laneState k ≠ laneTest ∨ s.fld (F.LANE_TEST_INJ_MODE k) = 2 ∧ s.fld (F.LANE_TEST_INJ_TYPE k) = 1 ∧ s.laneBusy k = true))) ∧
    (∃ (s : State) (k : Nat),
      k < 40 ∧
      s.fld (F.LANE_STATUS_MEAS_BUSY k) = 1) :=
  ⟨⟨la 39 5, (39:Nat), Source.host, (0:Word), by unfold State.Reaches; decide +kernel, by decide +kernel⟩,
   ⟨la 0 0, (0:Nat), Source.host, (0xFFFFFFFF:Word), by unfold State.Reaches; decide +kernel, by decide +kernel⟩,
   ⟨la 39 7, (39:Nat), Source.host, (0:Word), by unfold State.Reaches; decide +kernel, by decide +kernel⟩,
   ⟨mode (la 0 5) 0 2 1, (0:Nat), by decide +kernel⟩,
   ⟨sf (la 0 0) F.HARN_CFG_ENABLE 1, (0:Nat), Source.host, (0:Word), by unfold State.Reaches; decide +kernel, by decide +kernel⟩,
   ⟨mode (sf (la 0 5) (F.AWL_STATUS_STATE 0) 1) 0 2 1, (0:Nat), by decide +kernel⟩,
   ⟨mode (la 0 5) 0 1 3, (0:Nat), by decide +kernel⟩,
   ⟨sf (la 0 5) (F.LANE_STATUS_MEAS_BUSY 0) 1, (0:Nat), by decide +kernel⟩⟩

/-- The hypotheses of LaneLife can be met. -/
theorem wit_LaneLife :
    (∃ (s : State) (k : Nat) (ws : List Word),
      k < 40 ∧
      (¬((s.laneState k = laneAlign ∨ s.laneState k = laneRecovery ∧ (s.lane k).aligning = true) ∧ (s.lane k).rtts.length = 16)) ∧
      (s.lane k).heard = some ws) ∧
    (∃ (s : State) (k : Nat) (c : Nat) (errs : Nat),
      k < 40 ∧
      s.laneState k ≠ laneDetect ∧
      (s.laneState k = laneRecovery ∧ (s.lane k).aligning = false) ∧
      errs ≤ s.fld (F.LANE_CFG_CHECK_MAX k) ∧
      (¬(s.laneState k = laneAlign ∨ s.laneState k = laneRecovery ∧ (s.lane k).aligning = true)) ∧
      (¬(s.laneState k = laneReady ∧ s.laneLost k c = true)) ∧
      s.laneState k ≠ laneReady ∧
      (s.lane k).heard = none) ∧
    (∃ (s : State) (k : Nat) (words : List Word) (hdr : Word),
      k < 40 ∧
      s.laneState k ≠ laneCheck ∧
      (¬(s.laneState k = laneRecovery ∧ (s.lane k).aligning = false)) ∧
      s.laneState k = laneReady ∧
      ((s.lane k).rx = none ∨ (s.lane k).rx = some (getBits hdr 27 16)) ∧
      s.tagOrder (words.getD 0 0) = 2) ∧
    (∃ (s : State) (k : Nat),
      k < 40 ∧
      (s.laneState k = laneAlign ∨ s.laneState k = laneRecovery ∧ (s.lane k).aligning = true) ∧
      s.identFits k = true ∧
      (s.lane k).rtts.length = 16 ∧
      s.laneFits k (oneWay (s.lane k).rtts (s.lane k).turn) (s.fld (F.LANE_STATUS_RATE k)) = true) ∧
    (∃ (s : State) (k : Nat) (c : Nat),
      k < 40 ∧
      s.laneState k = laneReady ∧
      s.laneLost k c = true ∧
      k < s.part.row.lasers) ∧
    (∃ (s : State) (k : Nat) (hdr : Word) (words : List Word),
      k < 40 ∧
      s.laneState k = laneReady ∧
      ((s.lane k).rx = none ∨ (s.lane k).rx = some (getBits hdr 27 16)) ∧
      words.getD 0 0 = s.stitchLo ∧
      k < s.part.row.lasers) ∧
    (∃ (s : State) (k : Nat) (hdr : Word) (words : List Word),
      k < 40 ∧
      s.laneState k = laneReady ∧
      ((s.lane k).rx = none ∨ (s.lane k).rx = some (getBits hdr 27 16)) ∧
      s.tagOrder (words.getD 0 0) = 1) ∧
    (∃ (s : State) (k : Nat) (hdr : Word) (r : Nat),
      k < 40 ∧
      s.laneState k = laneReady ∧
      (s.lane k).rx = some r ∧
      r ≠ getBits hdr 27 16) ∧
    (∃ (s : State) (k : Nat),
      k < 40 ∧
      s.laneState k = laneDetect) ∧
    (∃ (s : State) (k : Nat),
      k < 40 ∧
      s.laneState k = laneCheck) ∧
    (∃ (s : State) (k : Nat) (errs : Nat),
      k < 40 ∧
      (s.laneState k = laneRecovery ∧ (s.lane k).aligning = false) ∧
      ¬errs ≤ s.fld (F.LANE_CFG_CHECK_MAX k) ∧
      (s.lane k).attempts < 3) ∧
    (∃ (s : State) (k : Nat) (errs : Nat),
      k < 40 ∧
      (s.laneState k = laneRecovery ∧ (s.lane k).aligning = false) ∧
      ¬errs ≤ s.fld (F.LANE_CFG_CHECK_MAX k) ∧
      3 ≤ (s.lane k).attempts) ∧
    (∃ (s : State) (k : Nat),
      k < 40 ∧
      s.laneState k = laneAlign ∧
      s.identFits k = false) ∧
    (∃ (s : State) (k : Nat),
      k < 40 ∧
      (s.laneState k = laneAlign ∨ s.laneState k = laneRecovery ∧ (s.lane k).aligning = true) ∧
      (s.lane k).rtts.length = 16 ∧
      s.laneFits k (oneWay (s.lane k).rtts (s.lane k).turn) (s.fld (F.LANE_STATUS_RATE k)) = false ∧
      s.laneState k = laneAlign) ∧
    (∃ (s : State) (k : Nat) (c : Nat),
      k < 40 ∧
      s.laneState k = laneReady ∧
      s.laneLost k c = true ∧
      s.part.row.lasers ≤ k) ∧
    (∃ (s : State) (k : Nat) (hdr : Word) (words : List Word),
      k < 40 ∧
      s.laneState k = laneReady ∧
      ((s.lane k).rx = none ∨ (s.lane k).rx = some (getBits hdr 27 16)) ∧
      words.getD 0 0 = s.stitchLo ∧
      s.part.row.lasers ≤ k) ∧
    (∃ (s : State) (k : Nat),
      k < 40 ∧
      s.laneState k = laneRecovery ∧
      (s.lane k).aligning = true ∧
      s.identFits k = false ∧
      (s.lane k).attempts < 3) ∧
    (∃ (s : State) (k : Nat),
      k < 40 ∧
      s.laneState k = laneRecovery ∧
      (s.lane k).aligning = true ∧
      s.identFits k = false ∧
      3 ≤ (s.lane k).attempts) ∧
    (∃ (s : State) (k : Nat),
      k < 40 ∧
      (s.laneState k = laneAlign ∨ s.laneState k = laneRecovery ∧ (s.lane k).aligning = true) ∧
      (s.lane k).rtts.length = 16 ∧
      s.laneFits k (oneWay (s.lane k).rtts (s.lane k).turn) (s.fld (F.LANE_STATUS_RATE k)) = false ∧
      s.laneState k = laneRecovery ∧
      (s.lane k).attempts < 3) ∧
    (∃ (s : State) (k : Nat),
      k < 40 ∧
      (s.laneState k = laneAlign ∨ s.laneState k = laneRecovery ∧ (s.lane k).aligning = true) ∧
      (s.lane k).rtts.length = 16 ∧
      s.laneFits k (oneWay (s.lane k).rtts (s.lane k).turn) (s.fld (F.LANE_STATUS_RATE k)) = false ∧
      s.laneState k = laneRecovery ∧
      3 ≤ (s.lane k).attempts) :=
  ⟨⟨lf (la 0 5) 0 fun l => { l with heard := some [1, 3, 4, 5] }, (0:Nat), ([1,3,4,5] : List Word), by decide +kernel⟩,
   ⟨rv 0 1, (0:Nat), (0:Nat), (0:Nat), by decide +kernel⟩,
   ⟨la 0 5, (0:Nat), idw, hd 4, by decide +kernel⟩,
   ⟨al 0 16 2, (0:Nat), by decide +kernel⟩,
   ⟨lf (la 0 5) 0 fun l => {l with safe := true}, (0:Nat), (0:Nat), by decide +kernel⟩,
   ⟨la 0 5, (0:Nat), hd 4, ws1 100, by decide +kernel⟩,
   ⟨la 0 5, (0:Nat), hd 4, ws1 99, by decide +kernel⟩,
   ⟨lf (la 0 5) 0 fun l => {l with rx := some 5, replay := [fl 6, fl 7, fl 8]}, (0:Nat), hd 4 + 0x78, (5:Nat), by decide +kernel⟩,
   ⟨la 0 1, (0:Nat), by decide +kernel⟩,
   ⟨la 0 3, (0:Nat), by decide +kernel⟩,
   ⟨rv 0 2, (0:Nat), (9:Nat), by decide +kernel⟩,
   ⟨rv 0 3, (0:Nat), (9:Nat), by decide +kernel⟩,
   ⟨al 0 15 3, (0:Nat), by decide +kernel⟩,
   ⟨al 39 16 5, (39:Nat), by decide +kernel⟩,
   ⟨lf (la 39 5) 39 fun l => {l with lastAt := 98}, (39:Nat), (1:Nat), by decide +kernel⟩,
   ⟨la 39 5, (39:Nat), hd 4095, ws1 100, by decide +kernel⟩,
   ⟨lf ((rv 0 1).setReg (R.LANE_HEAD 0) 0) 0 fun l => {l with aligning := true}, (0:Nat), by decide +kernel⟩,
   ⟨lf ((rv 0 3).setReg (R.LANE_HEAD 0) 0) 0 fun l => {l with aligning := true}, (0:Nat), by decide +kernel⟩,
   ⟨lf (sf (al 0 16 1) (F.LANE_STATUS_STATE 0) 6) 0 fun l => {l with aligning := true, rtts := List.replicate 16 5000}, (0:Nat), by decide +kernel⟩,
   ⟨lf (sf (al 0 16 1) (F.LANE_STATUS_STATE 0) 6) 0 fun l => {l with aligning := true, rtts := List.replicate 16 5000, attempts := 3}, (0:Nat), by decide +kernel⟩⟩

end LaneCommandsMet

namespace PortsMet

def op (n : Nat) : Stream := { q8 with opens := [⟨n, [PWord.clean 7]⟩], words := packetWords [PWord.clean 4] }

def pr (p : Nat) : State := ((sf (withStreams up {q8 with size := 64}) (F.PCIE_EG_CFG_ENABLE p) 1).setReg (R.PCIE_EG_RXQ p) 0x01000005).setReg (R.PCIE_EG_TXQ p) 0x01000005

def f1 : List Byte := List.replicate 6 0xFF ++ List.replicate 54 3

def f2 : List Byte := List.replicate 6 0xFE ++ List.replicate 54 3

def f3 : List Byte := List.replicate 6 0xFF ++ [1,2,3,4,5,6,0x81,0,1,2] ++ List.replicate 1503 3

def tx (p : Nat) (ws : List Word) : State := (pr p).setStream 5 {q8 with size := 64, words := packetWords (ws.map PWord.clean)}

def tm (f : TimeBlock → TimeBlock) (s : State) : State := { s with time := f s.time }

def dom (d : Nat) : State := { (sf up (F.TIME_DOM_CFG_ENABLE d) 1).setReg (R.TIME_DOM_HOLD d) 5 with stitch := 100 }

def u1 : State := { up with stitch := 0x123456789A, tclk := 17777, time := { up.time with adj := [3, 4, 5, 6], tb := [2^70, 2^80, 77777777777, 3] } }

def ac (e k tb : Nat) : State := { sf (sf (sf up (F.TIME_ACT_CTRL_KIND e) k) (F.TIME_ACT_CTRL_TB e) tb) (F.TIME_ACT_CTRL_ARM e) 1 with stitch := 100, time := { up.time with armed := [(e, some 7)] } }

def du (s : State) (e : Nat) (d : Word) : State := s.setReg (R.TIME_ACT_DUE0 e) d

def hl (s : State) (e : Nat) : State := (s.setReg (R.TIME_ACT_TARGET e) (w32 R.STCH_HOLD_LIMIT)).setReg (R.TIME_ACT_VALUE e) 0x12345678

def qt (s : State) (e : Nat) : State := ((withStreams s q8).setReg (R.TIME_ACT_TARGET e) 0x01000005).setReg (R.TIME_ACT_VALUE e) 0x12345677

/-- The hypotheses of Ports can be met. -/
theorem wit_Ports :
    (∃ (s : State) (v : Nat) (p : Nat) (frame : List Byte) (ok : Bool) (key : Nat),
      s.Canon ∧
      s.Takes (ethReq p) (s.reg (R.PCIE_EG_RXQ p)) (5 + (wordsOfBytes (frame ++ List.replicate ((4 - frame.length % 4) % 4) 0)).length) key ∧
      v < 256 ∧
      (¬BitVec.getLsbD (s.reg (R.PCIE_MSIX_PBA (v / 32))) (v % 32) = true ∨ v ∈ s.msix) ∧
      p < 2 ∧
      s.fld (F.PCIE_EG_CFG_ENABLE p) = 1 ∧
      (ok = true ∧ ¬(if hasVlan frame = true then 1522 else 1518) < frame.length + 4 ∧ s.ethAccepts p (List.take 6 frame) = true) ∧
      s.namedQueue (s.reg (R.PCIE_EG_RXQ p)) = some key ∧
      s.hasRoom (s.reg (R.PCIE_EG_RXQ p)) (5 + (wordsOfBytes (frame ++ List.replicate ((4 - frame.length % 4) % 4) 0)).length) = true ∧
      (¬s.fld (F.PCIE_EG_CFG_ENABLE p) = 1 ∨ s.packetWaits (s.reg (R.PCIE_EG_TXQ p)) = false)) ∧
    (∃ (s : State) (v : Nat),
      v < 256 ∧
      BitVec.getLsbD (s.reg (R.PCIE_MSIX_PBA (v / 32))) (v % 32) = true ∧
      ¬v ∈ s.msix) ∧
    (∃ (s : State) (p : Nat),
      p < 2 ∧
      s.fld (F.PCIE_EG_CFG_ENABLE p) = 1 ∧
      s.packetWaits (s.reg (R.PCIE_EG_TXQ p)) = true ∧
      (getBits ((s.popPacket (ethReq p) (s.reg (R.PCIE_EG_TXQ p))).snd.getD 0 (PWord.clean 0)).val 15 0 ≠ 0 ∧ ¬(if hasVlan (List.take (getBits ((s.popPacket (ethReq p) (s.reg (R.PCIE_EG_TXQ p))).snd.getD 0 (PWord.clean 0)).val 15 0) (bytesOfWords (List.map (fun w => w.val) (List.drop 1 (s.popPacket (ethReq p) (s.reg (R.PCIE_EG_TXQ p))).snd)))) = true then 1522 else 1518) < getBits ((s.popPacket (ethReq p) (s.reg (R.PCIE_EG_TXQ p))).snd.getD 0 (PWord.clean 0)).val 15 0 + 4)) ∧
    (∃ (s : State) (v : Nat) (p : Nat),
      256 ≤ v ∧
      p < 2 ∧
      ¬s.fld (F.PCIE_EG_CFG_ENABLE p) = 1) ∧
    (∃ (s : State) (p : Nat) (frame : List Byte) (ok : Bool) (key : Nat),
      p < 2 ∧
      s.fld (F.PCIE_EG_CFG_ENABLE p) = 1 ∧
      (ok = true ∧ ¬(if hasVlan frame = true then 1522 else 1518) < frame.length + 4 ∧ s.ethAccepts p (List.take 6 frame) = true) ∧
      s.namedQueue (s.reg (R.PCIE_EG_RXQ p)) = some key ∧
      s.hasRoom (s.reg (R.PCIE_EG_RXQ p)) (5 + (wordsOfBytes (frame ++ List.replicate ((4 - frame.length % 4) % 4) 0)).length) = false ∧
      s.namedQueue (s.reg R.SB_EVQ) ≠ some key) ∧
    (∃ (s : State) (p : Nat) (frame : List Byte) (ok : Bool),
      p < 2 ∧
      s.fld (F.PCIE_EG_CFG_ENABLE p) = 1 ∧
      ok = true ∧
      ¬(if hasVlan frame = true then 1522 else 1518) < frame.length + 4 ∧
      s.ethAccepts p (List.take 6 frame) = false) ∧
    (∃ (s : State) (p : Nat) (frame : List Byte) (ok : Bool),
      p < 2 ∧
      s.fld (F.PCIE_EG_CFG_ENABLE p) = 1 ∧
      (ok = false ∨ (if hasVlan frame = true then 1522 else 1518) < frame.length + 4)) ∧
    (∃ (s : State) (p : Nat),
      p < 2 ∧
      s.fld (F.PCIE_EG_CFG_ENABLE p) = 1 ∧
      s.packetWaits (s.reg (R.PCIE_EG_TXQ p)) = true ∧
      (¬(getBits ((s.popPacket (ethReq p) (s.reg (R.PCIE_EG_TXQ p))).snd.getD 0 (PWord.clean 0)).val 15 0 ≠ 0 ∧ ¬(if hasVlan (List.take (getBits ((s.popPacket (ethReq p) (s.reg (R.PCIE_EG_TXQ p))).snd.getD 0 (PWord.clean 0)).val 15 0) (bytesOfWords (List.map (fun w => w.val) (List.drop 1 (s.popPacket (ethReq p) (s.reg (R.PCIE_EG_TXQ p))).snd)))) = true then 1522 else 1518) < getBits ((s.popPacket (ethReq p) (s.reg (R.PCIE_EG_TXQ p))).snd.getD 0 (PWord.clean 0)).val 15 0 + 4))) ∧
    (∃ (s : State) (p : Nat) (frame : List Byte) (ok : Bool),
      p < 2 ∧
      s.fld (F.PCIE_EG_CFG_ENABLE p) = 1 ∧
      (ok = true ∧ ¬(if hasVlan frame = true then 1522 else 1518) < frame.length + 4 ∧ s.ethAccepts p (List.take 6 frame) = true) ∧
      s.namedQueue (s.reg (R.PCIE_EG_RXQ p)) = none) :=
  ⟨⟨pr 0, (0:Nat), (0:Nat), f1, true, (5:Nat), by constructor <;> decide +kernel, takes_iff.2 (by decide +kernel), by decide +kernel⟩,
   ⟨(up).setReg (R.PCIE_MSIX_PBA 0) 1, (0:Nat), by decide +kernel⟩,
   ⟨tx 0 [0x0001003C, 1,2,3], (0:Nat), by decide +kernel⟩,
   ⟨withStreams up (op 2003), (256:Nat), (0:Nat), by decide +kernel⟩,
   ⟨(pr 1).setStream 5 q8, (1:Nat), f1, true, (5:Nat), by decide +kernel⟩,
   ⟨pr 1, (1:Nat), f2, true, by decide +kernel⟩,
   ⟨pr 1, (1:Nat), f3, true, by decide +kernel⟩,
   ⟨tx 1 [0x00000000, 1,2,3], (1:Nat), by decide +kernel⟩,
   ⟨(pr 1).setReg (R.PCIE_EG_RXQ 1) 0, (1:Nat), f1, true, by decide +kernel⟩⟩

/-- The hypotheses of Clocks can be met. -/
theorem wit_Clocks :
    (∃ (s : State) (d : Nat) (src : Source),
      s.Reaches src (R.TIME_DOM_MEAS_NS d) ∧
      s.time.refGone = false ∧
      d < 2 ∧
      s.fld (F.TIME_DOM_CFG_ENABLE d) = 1 ∧
      (s.fld (F.TIME_DOM_CFG_ENABLE d) = 1 ∧ s.reg (R.TIME_DOM_HOLD d) ≠ 0 ∧ (s.dom d).silent = false ∧ (s.dom d).last + BitVec.toNat (s.reg (R.TIME_DOM_HOLD d)) ≤ s.now) ∧
      d < s.time.doms.length) ∧
    (∃ (s : State) (d : Nat) (src : Source),
      s.Reaches src (R.TIME_DOM_MEAS_NS d) ∧
      d < 2 ∧
      s.fld (F.TIME_DOM_CFG_ENABLE d) = 0 ∧
      (¬(d < 2 ∧ s.fld (F.TIME_DOM_CFG_ENABLE d) = 1 ∧ s.reg (R.TIME_DOM_HOLD d) ≠ 0 ∧ (s.dom d).silent = false ∧ (s.dom d).last + BitVec.toNat (s.reg (R.TIME_DOM_HOLD d)) ≤ s.now))) ∧
    (∃ (s : State) (n : Nat),
      n ≠ 0 ∧
      s.time.refGone = true) :=
  ⟨⟨dom 0, (0:Nat), Source.host, by unfold State.Reaches; decide +kernel, by decide +kernel⟩,
   ⟨up, (1:Nat), Source.host, by unfold State.Reaches; decide +kernel, by decide +kernel⟩,
   ⟨evq (tm (fun t => {t with refGone := true}) u1) R.TIME_EVQ, (319999999:Nat), by decide +kernel⟩⟩

/-- The hypotheses of Actions can be met. -/
theorem wit_Actions :
    (∃ (s : State) (e : Nat) (src : Source),
      s.Reaches src (R.TIME_ACT_CTRL e) ∧
      e < 1024 ∧
      (¬(s.fld (F.TIME_ACT_CTRL_KIND e) = 0 ∨ 3 < s.fld (F.TIME_ACT_CTRL_KIND e) ∨ 4 < s.fld (F.TIME_ACT_CTRL_TB e))) ∧
      (s.actMayRun e = false ∨ s.fld (F.TIME_ACT_CTRL_KIND e) ≠ 2) ∧
      (s.actMayRun e = false ∨ s.fld (F.TIME_ACT_CTRL_KIND e) ≠ 3) ∧
      s.actMayRun e = true ∧
      s.fld (F.TIME_ACT_CTRL_KIND e) = 1 ∧
      s.actFate e < 2 ∧
      BitVec.toNat (s.reg (R.TIME_ACT_REPEAT e)) = 0 ∧
      s.actFate e = 1) ∧
    (∃ (s : State) (e : Nat),
      e < 1024 ∧
      (s.fld (F.TIME_ACT_CTRL_KIND e) = 0 ∨ 3 < s.fld (F.TIME_ACT_CTRL_KIND e) ∨ 4 < s.fld (F.TIME_ACT_CTRL_TB e)) ∧
      (s.actMayRun e = false ∨ s.fld (F.TIME_ACT_CTRL_KIND e) ≠ 1) ∧
      s.actMayRun e = true ∧
      s.fld (F.TIME_ACT_CTRL_KIND e) = 3 ∧
      s.actFate e < 2 ∧
      BitVec.toNat (s.reg (R.TIME_ACT_REPEAT e)) = 0 ∧
      s.actFate e = 1) ∧
    (∃ (s : State) (e : Nat),
      e < 1024 ∧
      s.actMayRun e = true ∧
      s.fld (F.TIME_ACT_CTRL_KIND e) = 1 ∧
      2 ≤ s.actFate e ∧
      BitVec.toNat (s.reg (R.TIME_ACT_REPEAT e)) = 0) ∧
    (∃ (s : State) (e : Nat),
      e < 1024 ∧
      s.actMayRun e = true ∧
      s.fld (F.TIME_ACT_CTRL_KIND e) = 2 ∧
      2 ≤ s.actFate e ∧
      BitVec.toNat (s.reg (R.TIME_ACT_REPEAT e)) = 0) ∧
    (∃ (s : State) (e : Nat),
      e < 1024 ∧
      s.actMayRun e = true ∧
      s.fld (F.TIME_ACT_CTRL_KIND e) = 3 ∧
      2 ≤ s.actFate e ∧
      BitVec.toNat (s.reg (R.TIME_ACT_REPEAT e)) = 0) ∧
    (∃ (s : State) (e : Nat),
      e < 1024 ∧
      s.actMayRun e = true ∧
      s.fld (F.TIME_ACT_CTRL_KIND e) = 2 ∧
      s.actFate e < 2 ∧
      BitVec.toNat (s.reg (R.TIME_ACT_REPEAT e)) = 0) ∧
    (∃ (s : State) (e : Nat) (v : Word),
      s.Reaches Source.action R.STCH_HOLD_LIMIT ∧
      e < 1024 ∧
      s.time.writes = [(w32 R.STCH_HOLD_LIMIT, v)]) ∧
    (∃ (s : State) (e : Nat),
      e < 1024 ∧
      s.actMayRun e = true ∧
      s.fld (F.TIME_ACT_CTRL_KIND e) = 1 ∧
      2 ≤ s.actFate e ∧
      BitVec.toNat (s.reg (R.TIME_ACT_REPEAT e)) ≠ 0) :=
  ⟨⟨ac 1023 1 4, (1023:Nat), Source.host, by unfold State.Reaches; decide +kernel, by decide +kernel⟩,
   ⟨ac 1023 3 5, (1023:Nat), by decide +kernel⟩,
   ⟨sf (hl (du (ac 1023 1 4) 1023 95) 1023) (F.TIME_ACT_CTRL_POLICY 1023) 1, (1023:Nat), by decide +kernel⟩,
   ⟨sf (hl (du (ac 1023 2 4) 1023 95) 1023) (F.TIME_ACT_CTRL_POLICY 1023) 1, (1023:Nat), by decide +kernel⟩,
   ⟨sf (hl (du (ac 1023 3 4) 1023 95) 1023) (F.TIME_ACT_CTRL_POLICY 1023) 1, (1023:Nat), by decide +kernel⟩,
   ⟨qt (du (ac 7 2 4) 7 101) 7, (7:Nat), by decide +kernel⟩,
   ⟨{up with time := {up.time with writes := [(w32 R.STCH_HOLD_LIMIT, 7)]}}, (0:Nat), (7:Word), by constructor <;> (try unfold Ctx.Clean) <;> decide +kernel, by decide +kernel⟩,
   ⟨sf (sf (hl (du (ac 1023 1 4) 1023 95) 1023) (F.TIME_ACT_CTRL_POLICY 1023) 1) (F.TIME_ACT_REPEAT_VALUE 1023) 3, (1023:Nat), by decide +kernel⟩⟩

end PortsMet

namespace FieldBusMet

def bw (g cyc : Nat) : State := (up.setReg (R.FBUS_SEG_CYCLE g) (w32 cyc))

def cfgv (en n tmo : Nat) : Word := w32 (en * 2^31 + n * 2^16 + tmo)

def sg (s : State) (g : Nat) (f : Segment → Segment) : State := s.setSeg g (f (s.seg g))

def on (g : Nat) : State := { sf (bw g 10) (F.FBUS_SEG_CFG_ENABLE g) 1 with stitch := 100 }

def node (s : State) (g k : Nat) : State := ((sf (sf (s.setReg (R.FBUS_NODE_MAC_HI g k) 0x80000605) (F.FBUS_NODE_IN_WORDS g k) 2) (F.FBUS_NODE_OUT_WORDS g k) 1).setReg (R.FBUS_NODE_MAC_LO g k) 0x04030201)

def pts (s : State) : State := ((withStreams s q8).setReg R.FBUS_POINTS 0x01002007)

def frm (k cinch words : Nat) : List Byte := [9,9,9,9,9,9, 1,2,3,4,5,6, 0x88,0xB5,1,2] ++ leHalf cinch ++ [BitVec.ofNat 8 k, 0] ++ leHalf words ++ [1,2,3,4,5,6,7,8]

def cin (g : Nat) : State := sg (node (on g) g 3) g fun x => {x with start := some 95, active := [3], cinch := 7}

def kk (s : State) (g : Nat) (f : List Byte) : Fld × Nat := match s.judgeFrame g f with | .inr c => c | .inl _ => (F.FBUS_SEG_FORMAT_COUNT g, 77)

/-- The hypotheses of FieldBus can be met. -/
theorem wit_FieldBus :
    (∃ (s : State) (g : Nat) (src : Source) (k : Nat) (v : Word),
      s.Reaches src (R.FBUS_SEG_CFG g) ∧
      s.Reaches src (R.FBUS_NODE_MAC_HI g k) ∧
      g < 2 ∧
      s.fld (F.FBUS_SEG_CFG_ENABLE g) = 1 ∧
      BitVec.msb v = false ∧
      s.reg (R.FBUS_SEG_CFG g) &&& 2134835455 ≠ v &&& 2134835455 ∧
      s.fld F.SYS_ACC_INFO_VALID = 0 ∧
      k < 32 ∧
      s.nodeOn g k = true ∧
      s.reg (R.FBUS_NODE_MAC_HI g k) &&& 16777215 ≠ v &&& 16777215 ∧
      (s.segRuns g = true ∧ s.fld (F.FBUS_SEG_CYCLE_CYCLE g) ≠ 0 ∧ s.now % s.fld (F.FBUS_SEG_CYCLE_CYCLE g) = s.fld (F.FBUS_SEG_CYCLE_PHASE g) ∧ (s.seg g).start ≠ some s.now) ∧
      (s.seg g).start = none ∧
      s.segRuns g = true ∧
      s.isWheel = false ∧
      (s.seg g).syncs = [] ∧
      (s.seg g).outs = []) ∧
    (∃ (s : State) (g : Nat) (src : Source) (k : Nat) (v : Word),
      s.Reaches src (R.FBUS_SEG_CFG g) ∧
      s.Reaches src (R.FBUS_NODE_MAC_HI g k) ∧
      g < 2 ∧
      s.fld (F.FBUS_SEG_CFG_ENABLE g) = 1 ∧
      BitVec.msb v = true ∧
      s.reg (R.FBUS_SEG_CFG g) &&& 2134835455 ≠ v &&& 2134835455 ∧
      s.fld F.SYS_ACC_INFO_VALID = 0 ∧
      k < 32 ∧
      s.nodeOn g k = false ∧
      (s.setReg (R.FBUS_NODE_MAC_HI g k) (v &&& 16777215)).nodeRange g k = false ∧
      (¬(getBits (s.written (R.FBUS_SEG_CYCLE g)) 15 0 ≠ 0 ∧ (s.setReg (R.FBUS_NODE_MAC_HI g k) (v &&& 16777215)).overBudget g (getBits (s.written (R.FBUS_SEG_CYCLE g)) 15 0) (k :: (s.setReg (R.FBUS_NODE_MAC_HI g k) (v &&& 16777215)).nodesOn g) = true)) ∧
      (¬(s.segRuns g = true ∧ s.fld (F.FBUS_SEG_CYCLE_CYCLE g) ≠ 0 ∧ s.now % s.fld (F.FBUS_SEG_CYCLE_CYCLE g) = s.fld (F.FBUS_SEG_CYCLE_PHASE g) ∧ (s.seg g).start ≠ some s.now))) ∧
    (∃ (s : State) (g : Nat) (w : InWords) (key : Nat),
      g < 2 ∧
      w.node < 32 ∧
      s.namedBuffer (s.reg R.FBUS_POINTS) = some key ∧
      s.isGrid key = false) ∧
    (∃ (s : State) (g : Nat),
      g < 2 ∧
      s.segRuns g = false) ∧
    (∃ (s : State) (g : Nat) (frame : List Byte) (k : Nat),
      g < 2 ∧
      (s.segRuns g = true ∧ s.fld (F.FBUS_SEG_CYCLE_CYCLE g) ≠ 0 ∧ s.now % s.fld (F.FBUS_SEG_CYCLE_CYCLE g) = s.fld (F.FBUS_SEG_CYCLE_PHASE g) ∧ (s.seg g).start ≠ some s.now) ∧
      (s.seg g).start ≠ none ∧
      s.segRuns g = true ∧
      s.judgeFrame g frame = Sum.inl k) ∧
    (∃ (s : State) (g : Nat) (frame : List Byte) (c : Fld × Nat),
      g < 2 ∧
      s.segRuns g = true ∧
      s.judgeFrame g frame = Sum.inr c) ∧
    (∃ (s : State) (g : Nat) (w : InWords),
      g < 2 ∧
      s.segRuns g = true ∧
      s.isWheel = true ∧
      w.node < 32 ∧
      s.namedBuffer (s.reg R.FBUS_POINTS) = none) ∧
    (∃ (s : State) (g : Nat) (src : Source) (v : Word),
      s.Reaches src (R.FBUS_SEG_CFG g) ∧
      g < 2 ∧
      ¬s.fld (F.FBUS_SEG_CFG_ENABLE g) = 1 ∧
      BitVec.msb v = false) ∧
    (∃ (s : State) (g : Nat) (src : Source) (v : Word),
      s.Reaches src (R.FBUS_SEG_CFG g) ∧
      g < 2 ∧
      ¬s.fld (F.FBUS_SEG_CFG_ENABLE g) = 1 ∧
      BitVec.msb v = true ∧
      (getBits v 21 16 = 0 ∨ 32 < getBits v 21 16 ∨ getBits v 7 0 = 0 ∨ getBits (s.written (R.FBUS_SEG_CYCLE g)) 15 0 ≠ 0 ∧ getBits (s.written (R.FBUS_SEG_CYCLE g)) 15 0 ≤ getBits (s.written (R.FBUS_SEG_CYCLE g)) 31 16)) ∧
    (∃ (s : State) (g : Nat) (src : Source) (v : Word),
      s.Reaches src (R.FBUS_SEG_CFG g) ∧
      g < 2 ∧
      ¬s.fld (F.FBUS_SEG_CFG_ENABLE g) = 1 ∧
      BitVec.msb v = true ∧
      (¬(getBits v 21 16 = 0 ∨ 32 < getBits v 21 16 ∨ getBits v 7 0 = 0 ∨ getBits (s.written (R.FBUS_SEG_CYCLE g)) 15 0 ≠ 0 ∧ getBits (s.written (R.FBUS_SEG_CYCLE g)) 15 0 ≤ getBits (s.written (R.FBUS_SEG_CYCLE g)) 31 16)) ∧
      (¬(getBits (s.written (R.FBUS_SEG_CYCLE g)) 15 0 ≠ 0 ∧ (s.setReg (R.FBUS_SEG_CFG g) (v &&& 2134835455)).overBudget g (getBits (s.written (R.FBUS_SEG_CYCLE g)) 15 0) ((s.setReg (R.FBUS_SEG_CFG g) (v &&& 2134835455)).nodesOn g) = true))) ∧
    (∃ (s : State) (g : Nat) (src : Source) (v : Word),
      s.Reaches src (R.FBUS_SEG_CFG g) ∧
      g < 2 ∧
      ¬s.fld (F.FBUS_SEG_CFG_ENABLE g) = 1 ∧
      BitVec.msb v = true ∧
      (¬(getBits v 21 16 = 0 ∨ 32 < getBits v 21 16 ∨ getBits v 7 0 = 0 ∨ getBits (s.written (R.FBUS_SEG_CYCLE g)) 15 0 ≠ 0 ∧ getBits (s.written (R.FBUS_SEG_CYCLE g)) 15 0 ≤ getBits (s.written (R.FBUS_SEG_CYCLE g)) 31 16)) ∧
      (getBits (s.written (R.FBUS_SEG_CYCLE g)) 15 0 ≠ 0 ∧ (s.setReg (R.FBUS_SEG_CFG g) (v &&& 2134835455)).overBudget g (getBits (s.written (R.FBUS_SEG_CYCLE g)) 15 0) ((s.setReg (R.FBUS_SEG_CFG g) (v &&& 2134835455)).nodesOn g) = true)) ∧
    (∃ (s : State) (g : Nat) (src : Source) (k : Nat) (v : Word),
      s.Reaches src (R.FBUS_NODE_MAC_HI g k) ∧
      g < 2 ∧
      k < 32 ∧
      s.nodeOn g k = false ∧
      BitVec.msb v = true ∧
      (s.setReg (R.FBUS_NODE_MAC_HI g k) (v &&& 16777215)).nodeRange g k = false ∧
      (getBits (s.written (R.FBUS_SEG_CYCLE g)) 15 0 ≠ 0 ∧ (s.setReg (R.FBUS_NODE_MAC_HI g k) (v &&& 16777215)).overBudget g (getBits (s.written (R.FBUS_SEG_CYCLE g)) 15 0) (k :: (s.setReg (R.FBUS_NODE_MAC_HI g k) (v &&& 16777215)).nodesOn g) = true)) ∧
    (∃ (s : State) (g : Nat) (src : Source) (k : Nat) (v : Word),
      s.Reaches src (R.FBUS_NODE_MAC_HI g k) ∧
      g < 2 ∧
      k < 32 ∧
      s.nodeOn g k = false ∧
      BitVec.msb v = false) ∧
    (∃ (s : State) (g : Nat) (src : Source) (k : Nat) (v : Word),
      s.Reaches src (R.FBUS_NODE_MAC_HI g k) ∧
      g < 2 ∧
      k < 32 ∧
      s.nodeOn g k = false ∧
      BitVec.msb v = true ∧
      (s.setReg (R.FBUS_NODE_MAC_HI g k) (v &&& 16777215)).nodeRange g k = true) ∧
    (∃ (s : State) (g : Nat) (kind : NoiseKind),
      g < 2 ∧
      s.segRuns g = true ∧
      kind = NoiseKind.collision) ∧
    (∃ (s : State) (g : Nat) (kind : NoiseKind) (node : Nat),
      g < 2 ∧
      s.segRuns g = true ∧
      kind ≠ NoiseKind.collision ∧
      s.fld (F.FBUS_SEG_CFG_PLCA_EN g) = 1 ∧
      node < 32) ∧
    (∃ (s : State) (g : Nat) (kind : NoiseKind) (node : Nat),
      g < 2 ∧
      s.segRuns g = true ∧
      kind ≠ NoiseKind.collision ∧
      (¬(s.fld (F.FBUS_SEG_CFG_PLCA_EN g) = 1 ∧ node < 32))) ∧
    (∃ (s : State) (g : Nat) (f : List Byte) (fs : List (List Byte)),
      g < 2 ∧
      s.segRuns g = true ∧
      s.isWheel = false ∧
      (s.seg g).syncs = f :: fs) ∧
    (∃ (s : State) (g : Nat) (f : List Byte) (fs : List (List Byte)),
      g < 2 ∧
      s.segRuns g = true ∧
      s.isWheel = false ∧
      (s.seg g).syncs = [] ∧
      (s.seg g).outs = f :: fs) :=
  ⟨⟨pts (node (on 1) 1 31), (1:Nat), Source.host, (31:Nat), (0x0F112233:Word), by unfold State.Reaches; decide +kernel, by unfold State.Reaches; decide +kernel, by decide +kernel⟩,
   ⟨sf (pts (on 0)) (F.FBUS_SEG_CYCLE_CYCLE 0) 2000, (0:Nat), Source.host, (0:Nat), (0x8F112233:Word), by unfold State.Reaches; decide +kernel, by unfold State.Reaches; decide +kernel, by decide +kernel⟩,
   ⟨pts (on 0), (0:Nat), (⟨5, 3, [1,2], 31, 0x12345⟩ : InWords), (4103:Nat), by decide +kernel⟩,
   ⟨up, (0:Nat), by decide +kernel⟩,
   ⟨(cin 0), (0:Nat), frm 3 7 2, (3:Nat), by decide +kernel⟩,
   ⟨(cin 0), (0:Nat), frm 3 8 2, kk (cin 0) 0 (frm 3 8 2), by decide +kernel⟩,
   ⟨sf (sg (on 0) 0 fun x => {x with syncs := [[1],[2]], outs := [[3],[4]]}) F.HARN_STATUS_STATE 4, (0:Nat), (⟨5, 14, [1,2,3], 31, 0x12345⟩ : InWords), by decide +kernel⟩,
   ⟨bw 0 0, (0:Nat), Source.host, cfgv 0 3 2, by unfold State.Reaches; decide +kernel, by decide +kernel⟩,
   ⟨bw 0 0, (0:Nat), Source.host, cfgv 1 0 2, by unfold State.Reaches; decide +kernel, by decide +kernel⟩,
   ⟨bw 1 0, (1:Nat), Source.host, cfgv 1 32 1, by unfold State.Reaches; decide +kernel, by decide +kernel⟩,
   ⟨bw 1 0x00020003, (1:Nat), Source.host, cfgv 1 32 1, by unfold State.Reaches; decide +kernel, by decide +kernel⟩,
   ⟨pts (on 0), (0:Nat), Source.host, (0:Nat), (0x8F112233:Word), by unfold State.Reaches; decide +kernel, by decide +kernel⟩,
   ⟨pts (on 1), (1:Nat), Source.host, (31:Nat), (0x0F112233:Word), by unfold State.Reaches; decide +kernel, by decide +kernel⟩,
   ⟨sf (sf (pts (on 1)) (F.FBUS_NODE_IN_WORDS 1 31) 3) (F.FBUS_NODE_IN_BASE 1 31) 14, (1:Nat), Source.host, (31:Nat), (0x8F112233:Word), by unfold State.Reaches; decide +kernel, by decide +kernel⟩,
   ⟨on 0, (0:Nat), NoiseKind.collision, by decide +kernel⟩,
   ⟨sf (on 1) (F.FBUS_SEG_CFG_PLCA_EN 1) 1, (1:Nat), NoiseKind.jabber, (31:Nat), by decide +kernel⟩,
   ⟨sf (on 1) (F.FBUS_SEG_CFG_PLCA_EN 1) 1, (1:Nat), NoiseKind.jabber, (32:Nat), by decide +kernel⟩,
   ⟨sg (on 0) 0 fun x => {x with syncs := [[1],[2]], outs := [[3],[4]]}, (0:Nat), ([1] : List Byte), ([[2]] : List (List Byte)), by decide +kernel⟩,
   ⟨sg (on 0) 0 fun x => {x with syncs := [], outs := [[3],[4]]}, (0:Nat), ([3] : List Byte), ([[4]] : List (List Byte)), by decide +kernel⟩⟩

end FieldBusMet

namespace LampDriveMet

def lb : State := { sf (sf up F.LAMP_TIMING_FRAME_DIV 4) F.LAMP_TIMING_PWM_TCLK 320 with stitch := 100 }

def lo : State := sf (sf (sf (sf lb F.LAMP_CTRL_ENABLE 1) F.LAMP_CTRL_BACK 1) F.LAMP_SENSE_SHORT_MV 100) F.LAMP_SENSE_OPEN_FRAC 200

def lm (f : Lamp → Lamp) (s : State) : State := { s with lamp := f s.lamp }

def lc (c : Nat) (x : LampChan) (s : State) : State := s.setLampChan c x

def bc (s : State) : State := sf (sf s F.LAMP_CTRL_BCAST 1) F.LAMP_CTRL_LEAD 3

def ask (s : State) : State := lm (fun l => {l with asked := true}) (sf s F.LAMP_CMD_SWAP 1)

def md (s : State) : State := sf (sf (sf s F.LAMP_CTRL_MODE 1) F.LAMP_CTRL_SEQ_LEN 4) F.LAMP_STATUS_FRONT 3

def xc : LampChan := ⟨1000, [60000, 60000], false, false, 1, 3, 0, false, false, false, 5, false⟩

def mem2 (s : State) : State := lm (fun l => {l with mem := [(0, 7), (5, 100), (1024, 0xFFFF), (1030, 5)], cfg := [(1, 5)], phase := [(1,7)], due := [2]}) (sf (sf s (F.LAMP_CH_CFG_CURRENT 0) 900) F.LAMP_THR_CEIL_CODE 1000)

/-- The hypotheses of LampDrive can be met. -/
theorem wit_LampDrive :
    (∃ (s : State) (src : Source) (c : Nat) (v : Word),
      s.Reaches src R.LAMP_CTRL ∧
      s.Reaches src (R.LAMP_CH_CFG c) ∧
      s.fld F.LAMP_CTRL_ENABLE = 1 ∧
      BitVec.msb v = true ∧
      ((s.reg R.LAMP_CTRL &&& if s.part.row.lampBin = true then 2147483647 else 2147475455) ≠ v &&& if s.part.row.lampBin = true then 2147483647 else 2147475455) ∧
      s.fld F.SYS_ACC_INFO_VALID = 0 ∧
      (s.fld F.LAMP_CTRL_ENABLE = 1 ∧ s.fld F.LAMP_TIMING_FRAME_DIV ≠ 0 ∧ s.now % s.fld F.LAMP_TIMING_FRAME_DIV = 0 ∧ s.lamp.tick ≠ some s.now) ∧
      s.fld F.LAMP_CTRL_SYNC = 0 ∧
      ¬s.fld F.LAMP_CTRL_MODE = 1 ∧
      s.lamp.asked = false ∧
      s.lamp.shift = none ∧
      c < s.part.row.lamps ∧
      (¬((s.fld F.LAMP_CTRL_ENABLE = 1 ∧ c < s.part.row.lamps) ∧ s.diagReached (s.lampChan c) = true ∧ (s.lampChan c).starved = false ∧ ¬(s.fld F.LAMP_DIAG_DIAG_EN = 1 ∧ s.fld F.LAMP_DIAG_DIAG_PERIOD ≠ 0)))) ∧
    (∃ (s : State),
      (s.fld F.LAMP_CTRL_ENABLE = 1 ∧ s.fld F.LAMP_TIMING_FRAME_DIV ≠ 0 ∧ s.now % s.fld F.LAMP_TIMING_FRAME_DIV = 0 ∧ s.lamp.tick ≠ some s.now) ∧
      s.fld F.LAMP_CTRL_SYNC = 0 ∧
      (s.fld F.LAMP_CTRL_MODE = 1 ∨ s.lamp.asked = true) ∧
      s.fld F.LAMP_CTRL_MODE = 1 ∧
      s.fld F.LAMP_CTRL_BCAST = 1 ∧
      s.fld F.LAMP_CTRL_LEAD ≠ 0 ∧
      ¬s.fld F.TIME_MT_STATUS_VALID = 1) ∧
    (∃ (s : State) (us : Nat),
      (s.fld F.LAMP_CTRL_ENABLE = 1 ∧ s.fld F.LAMP_TIMING_FRAME_DIV ≠ 0 ∧ s.now % s.fld F.LAMP_TIMING_FRAME_DIV = 0 ∧ s.lamp.tick ≠ some s.now) ∧
      s.fld F.LAMP_CTRL_SYNC = 1 ∧
      s.fld F.LAMP_CTRL_ENABLE = 1 ∧
      (¬(s.lamp.edge = true ∧ us < s.fld F.LAMP_CHAIN_LSYNC_MIN)) ∧
      (s.fld F.LAMP_CTRL_MODE = 1 ∨ s.fld F.LAMP_CMD_SWAP = 1) ∧
      ¬s.fld F.LAMP_CTRL_MODE = 1 ∧
      ¬s.fld F.LAMP_CTRL_BCAST = 1) ∧
    (∃ (s : State) (src : Source) (v : Word),
      s.Reaches src R.LAMP_CTRL ∧
      ¬s.fld F.LAMP_CTRL_ENABLE = 1 ∧
      BitVec.msb v = false ∧
      (¬(s.fld F.LAMP_CTRL_ENABLE = 1 ∧ s.fld F.LAMP_TIMING_FRAME_DIV ≠ 0 ∧ s.now % s.fld F.LAMP_TIMING_FRAME_DIV = 0 ∧ s.lamp.tick ≠ some s.now))) ∧
    (∃ (s : State) (src : Source) (v : Word),
      s.Reaches src R.LAMP_CTRL ∧
      s.fld F.LAMP_CTRL_ENABLE = 1 ∧
      BitVec.msb v = false ∧
      ((s.reg R.LAMP_CTRL &&& if s.part.row.lampBin = true then 2147483647 else 2147475455) ≠ v &&& if s.part.row.lampBin = true then 2147483647 else 2147475455) ∧
      s.fld F.SYS_ACC_INFO_VALID = 0) ∧
    (∃ (s : State),
      (s.fld F.LAMP_CTRL_ENABLE = 1 ∧ s.fld F.LAMP_TIMING_FRAME_DIV ≠ 0 ∧ s.now % s.fld F.LAMP_TIMING_FRAME_DIV = 0 ∧ s.lamp.tick ≠ some s.now) ∧
      s.fld F.LAMP_CTRL_SYNC = 0 ∧
      (s.fld F.LAMP_CTRL_MODE = 1 ∨ s.lamp.asked = true) ∧
      ¬s.fld F.LAMP_CTRL_MODE = 1 ∧
      (¬s.fld F.LAMP_CTRL_BCAST = 1 ∨ s.fld F.LAMP_CTRL_LEAD = 0) ∧
      ¬s.fld F.LAMP_CTRL_BCAST = 1) ∧
    (∃ (s : State) (c : Nat) (row : Nat) (mv : Nat) (i : Nat),
      (s.fld F.LAMP_CTRL_ENABLE = 1 ∧ c < s.part.row.lamps) ∧
      s.lampMeasurable c row = true ∧
      (¬((if s.fld F.LAMP_SENSE_SHORT_MV < mv then 3 else if i * 256 < (s.lampChan c).amp * s.fld F.LAMP_SENSE_OPEN_FRAC then 2 else 1) ≠ 1 ∧ s.fld F.LAMP_DIAG_FAULT_N ≠ 0 ∧ (s.fld F.LAMP_DIAG_FAULT_N ≤ if (s.lampChan c).verdict = if s.fld F.LAMP_SENSE_SHORT_MV < mv then 3 else if i * 256 < (s.lampChan c).amp * s.fld F.LAMP_SENSE_OPEN_FRAC then 2 else 1 then (s.lampChan c).runs + 1 else 1) ∧ ((s.lampChan c).latched ≠ if s.fld F.LAMP_SENSE_SHORT_MV < mv then 3 else if i * 256 < (s.lampChan c).amp * s.fld F.LAMP_SENSE_OPEN_FRAC then 2 else 1) ∧ (s.lampChan c).short = false ∧ ¬((if s.fld F.LAMP_SENSE_SHORT_MV < mv then 3 else if i * 256 < (s.lampChan c).amp * s.fld F.LAMP_SENSE_OPEN_FRAC then 2 else 1) = 2 ∧ (s.lampChan c).latched ≠ 0)))) ∧
    (∃ (s : State) (src : Source) (v : Word),
      s.Reaches src R.LAMP_CTRL ∧
      ¬s.fld F.LAMP_CTRL_ENABLE = 1 ∧
      BitVec.msb v = true ∧
      ((s.setReg R.LAMP_CTRL (v &&& if s.part.row.lampBin = true then 2147483647 else 2147475455)).lampCheck = 0)) ∧
    (∃ (s : State) (src : Source) (v : Word),
      s.Reaches src R.LAMP_CTRL ∧
      ¬s.fld F.LAMP_CTRL_ENABLE = 1 ∧
      BitVec.msb v = true ∧
      ((s.setReg R.LAMP_CTRL (v &&& if s.part.row.lampBin = true then 2147483647 else 2147475455)).lampCheck ≠ 0)) ∧
    (∃ (s : State),
      (s.fld F.LAMP_CTRL_ENABLE = 1 ∧ s.fld F.LAMP_TIMING_FRAME_DIV ≠ 0 ∧ s.now % s.fld F.LAMP_TIMING_FRAME_DIV = 0 ∧ s.lamp.tick ≠ some s.now) ∧
      s.fld F.LAMP_CTRL_SYNC = 0 ∧
      (s.fld F.LAMP_CTRL_MODE = 1 ∨ s.lamp.asked = true) ∧
      (¬s.fld F.LAMP_CTRL_BCAST = 1 ∨ s.fld F.LAMP_CTRL_LEAD = 0) ∧
      s.fld F.LAMP_CTRL_BCAST = 1) ∧
    (∃ (s : State) (us : Nat),
      s.fld F.LAMP_CTRL_ENABLE = 1 ∧
      s.fld F.LAMP_CTRL_SYNC = 1 ∧
      (¬(s.lamp.edge = true ∧ us < s.fld F.LAMP_CHAIN_LSYNC_MIN)) ∧
      (s.fld F.LAMP_CTRL_MODE = 1 ∨ s.fld F.LAMP_CMD_SWAP = 1) ∧
      s.fld F.LAMP_CTRL_MODE = 1) ∧
    (∃ (s : State) (us : Nat),
      s.fld F.LAMP_CTRL_ENABLE = 1 ∧
      s.fld F.LAMP_CTRL_SYNC = 1 ∧
      (¬(s.lamp.edge = true ∧ us < s.fld F.LAMP_CHAIN_LSYNC_MIN)) ∧
      ¬s.fld F.LAMP_CTRL_MODE = 1 ∧
      ¬s.fld F.LAMP_CMD_SWAP = 1) ∧
    (∃ (s : State) (us : Nat),
      s.fld F.LAMP_CTRL_ENABLE = 1 ∧
      s.fld F.LAMP_CTRL_SYNC = 1 ∧
      (s.lamp.edge = true ∧ us < s.fld F.LAMP_CHAIN_LSYNC_MIN)) ∧
    (∃ (s : State) (ws : List Nat),
      s.lamp.shift = some ws) ∧
    (∃ (s : State) (c : Nat) (row : Nat),
      (¬((s.fld F.LAMP_CTRL_ENABLE = 1 ∧ c < s.part.row.lamps) ∧ s.lampMeasurable c row = true))) ∧
    (∃ (s : State) (c : Nat),
      ((s.fld F.LAMP_CTRL_ENABLE = 1 ∧ c < s.part.row.lamps) ∧ s.diagReached (s.lampChan c) = true ∧ (s.lampChan c).starved = false ∧ ¬(s.fld F.LAMP_DIAG_DIAG_EN = 1 ∧ s.fld F.LAMP_DIAG_DIAG_PERIOD ≠ 0))) ∧
    (∃ (s : State),
      (¬s.fld F.LAMP_CTRL_ENABLE = 1 ∨ s.fld F.LAMP_CTRL_SYNC = 0)) :=
  ⟨⟨lo, Source.host, (0:Nat), (0xFFFFFFFF:Word), by unfold State.Reaches; decide +kernel, by unfold State.Reaches; decide +kernel, by decide +kernel⟩,
   ⟨bc (md (mem2 lo)), by decide +kernel⟩,
   ⟨sf (ask (mem2 lo)) F.LAMP_CTRL_SYNC 1, (0:Nat), by decide +kernel⟩,
   ⟨lb, Source.host, (0x7FFFFFFF:Word), by unfold State.Reaches; decide +kernel, by decide +kernel⟩,
   ⟨lc 0 xc lo, Source.host, (0x00000000:Word), by unfold State.Reaches; decide +kernel, by decide +kernel⟩,
   ⟨ask (mem2 lo), by decide +kernel⟩,
   ⟨lc 31 {xc with verdict := 3} (sf lo F.LAMP_DIAG_FAULT_N 4 |> (sf · F.LAMP_TIMING_PWM_TCLK 6000)), (31:Nat), (0:Nat), (100:Nat), (0xFFFF:Nat), by decide +kernel⟩,
   ⟨lb, Source.host, (0x80000000:Word), by unfold State.Reaches; decide +kernel, by decide +kernel⟩,
   ⟨sf lb F.LAMP_TIMING_FRAME_DIV 0, Source.host, (0x80000000:Word), by unfold State.Reaches; decide +kernel, by decide +kernel⟩,
   ⟨sf (bc (ask (mem2 lo))) F.LAMP_CTRL_LEAD 0, by decide +kernel⟩,
   ⟨sf (md (mem2 lo)) F.LAMP_CTRL_SYNC 1, (0:Nat), by decide +kernel⟩,
   ⟨sf ((mem2 lo)) F.LAMP_CTRL_SYNC 1, (50:Nat), by decide +kernel⟩,
   ⟨lm (fun l => {l with edge := true}) (sf (sf ((mem2 lo)) F.LAMP_CTRL_SYNC 1) F.LAMP_CHAIN_LSYNC_MIN 50), (49:Nat), by decide +kernel⟩,
   ⟨lm (fun l => {l with shift := some [1,2]}) lo, ([1,2] : List Nat), by decide +kernel⟩,
   ⟨lc 0 xc (sf lo F.LAMP_CTRL_MATRIX 1), (0:Nat), (0:Nat), by decide +kernel⟩,
   ⟨lc 0 xc (sf lo F.LAMP_DIAG_DIAG_PERIOD 0 |> (sf · F.LAMP_DIAG_DIAG_EN 1)), (0:Nat), by decide +kernel⟩,
   ⟨lo, by decide +kernel⟩⟩

end LampDriveMet

namespace PowerSequenceMet

def pw (f : Power → Power) (s : State) : State := { s with power := f s.power }

def sq (q : SeqStep) (pr : List Nat) : State := pw (fun p => {p with seq := q, present := pr}) { up with stitch := if q = .released then 100 else 0 }

/-- The hypotheses of PowerSequence can be met. -/
theorem wit_PowerSequence :
    (∃ (s : State) (g : Nat) (mv : Nat) (c : WakeCause) (n : Nat) (rail : Nat),
      s.Canon ∧
      (¬s.fld F.PWR_SEQ_CFG_PG_TIMEOUT ≠ 0 ∨ ∀ (g : Nat), s.power.seq ≠ SeqStep.waitUp g ∧ s.power.seq ≠ SeqStep.waitDown g) ∧
      (∀ (g : Nat), s.power.seq ≠ SeqStep.settleUp g ∧ s.power.seq ≠ SeqStep.settleDown g) ∧
      s.power.seq = SeqStep.off ∧
      s.power.vbatLost = true ∧
      (¬(s.power.seq = SeqStep.standby ∧ match c with | WakeCause.autoWake => s.power.fresh = true ∧ s.fld F.PWR_SEQ_CFG_AUTO_WAKE = 1 | WakeCause.wakeN => s.fld F.PWR_SEQ_CFG_WAKE_N_EN = 1 | WakeCause.vbatCounter => s.reg R.PWR_WAKE_AT ≠ 0)) ∧
      (n = 1 ∧ s.power.seq = SeqStep.off ∨ n = 2 ∧ s.power.seq = SeqStep.waitUp 0 ∨ (n = 3 ∨ n = 4) ∧ s.power.seq ≠ SeqStep.off ∨ n = 6 ∧ s.power.seq ≠ SeqStep.off ∧ s.power.present ≠ []) ∧
      s.power.seq.falling = true ∧
      (¬(2 ≤ rail ∧ rail ≤ 9 ∧ s.power.present.contains (railGroup rail) = true ∧ s.power.seq.pen (railGroup rail) = true ∧ railLow rail mv = true)) ∧
      s.power.seq ≠ SeqStep.retryWait) ∧
    (∃ (s : State) (g : Nat) (n : Nat),
      s.Canon ∧
      s.power.seq ≠ SeqStep.off ∧
      s.power.seq = SeqStep.standby ∧
      (match WakeCause.wakeN with | WakeCause.autoWake => s.power.fresh = true ∧ s.fld F.PWR_SEQ_CFG_AUTO_WAKE = 1 | WakeCause.wakeN => s.fld F.PWR_SEQ_CFG_WAKE_N_EN = 1 | WakeCause.vbatCounter => s.reg R.PWR_WAKE_AT ≠ 0) ∧
      (¬(n = 1 ∧ s.power.seq = SeqStep.off ∨ n = 2 ∧ s.power.seq = SeqStep.waitUp 0 ∨ (n = 3 ∨ n = 4) ∧ s.power.seq ≠ SeqStep.off ∨ n = 6 ∧ s.power.seq ≠ SeqStep.off ∧ s.power.present ≠ [])) ∧
      s.power.seq ≠ SeqStep.waitDown g) ∧
    (∃ (s : State) (g : Nat) (mv : List Nat) (n : Nat),
      s.Canon ∧
      (¬(s.power.seq = SeqStep.waitUp g ∧ groupUp g mv = true)) ∧
      s.fld F.PWR_SEQ_CFG_PG_TIMEOUT ≠ 0 ∧
      s.power.seq = SeqStep.waitUp g ∧
      (n = 1 ∧ s.power.seq = SeqStep.off ∨ n = 2 ∧ s.power.seq = SeqStep.waitUp 0 ∨ (n = 3 ∨ n = 4) ∧ s.power.seq ≠ SeqStep.off ∨ n = 6 ∧ s.power.seq ≠ SeqStep.off ∧ s.power.present ≠ []) ∧
      s.power.seq.falling = false) ∧
    (∃ (s : State),
      s.Canon ∧
      s.power.seq = SeqStep.standby ∧
      (match WakeCause.autoWake with | WakeCause.autoWake => s.power.fresh = true ∧ s.fld F.PWR_SEQ_CFG_AUTO_WAKE = 1 | WakeCause.wakeN => s.fld F.PWR_SEQ_CFG_WAKE_N_EN = 1 | WakeCause.vbatCounter => s.reg R.PWR_WAKE_AT ≠ 0)) ∧
    (∃ (s : State) (g : Nat) (rail : Nat) (mv : Nat),
      s.Canon ∧
      s.power.seq = SeqStep.settleDown g ∧
      (2 ≤ rail ∧ rail ≤ 9 ∧ s.power.present.contains (railGroup rail) = true ∧ s.power.seq.pen (railGroup rail) = true ∧ railLow rail mv = true) ∧
      s.power.seq.falling = true) ∧
    (∃ (s : State) (g : Nat),
      s.Canon ∧
      s.fld F.PWR_SEQ_CFG_PG_TIMEOUT ≠ 0 ∧
      s.power.seq = SeqStep.waitDown g) ∧
    (∃ (s : State),
      s.Canon ∧
      s.power.seq = SeqStep.off ∧
      s.power.vbatLost = false) ∧
    (∃ (s : State),
      s.Canon ∧
      s.power.seq = SeqStep.standby ∧
      (match WakeCause.vbatCounter with | WakeCause.autoWake => s.power.fresh = true ∧ s.fld F.PWR_SEQ_CFG_AUTO_WAKE = 1 | WakeCause.wakeN => s.fld F.PWR_SEQ_CFG_WAKE_N_EN = 1 | WakeCause.vbatCounter => s.reg R.PWR_WAKE_AT ≠ 0)) ∧
    (∃ (s : State) (g : Nat) (mv : List Nat),
      s.Canon ∧
      (s.power.seq = SeqStep.waitUp g ∧ groupUp g mv = true) ∧
      g ≠ 2) ∧
    (∃ (s : State) (g : Nat) (mv : List Nat),
      s.Canon ∧
      (s.power.seq = SeqStep.waitUp g ∧ groupUp g mv = true) ∧
      g = 2) ∧
    (∃ (s : State) (g : Nat),
      s.Canon ∧
      s.power.seq = SeqStep.settleUp g) ∧
    (∃ (s : State) (rail : Nat) (mv : Nat),
      s.Canon ∧
      (2 ≤ rail ∧ rail ≤ 9 ∧ s.power.present.contains (railGroup rail) = true ∧ s.power.seq.pen (railGroup rail) = true ∧ railLow rail mv = true) ∧
      s.power.seq.falling = false) ∧
    (∃ (s : State),
      s.Canon ∧
      s.power.seq = SeqStep.retryWait ∧
      (¬(s.fld F.PWR_SEQ_CFG_BO_RETRY = 0 ∨ s.fld F.PWR_SEQ_CFG_BO_RETRY ≤ s.power.brownRun))) ∧
    (∃ (s : State),
      s.Canon ∧
      s.power.seq = SeqStep.retryWait ∧
      (s.fld F.PWR_SEQ_CFG_BO_RETRY = 0 ∨ s.fld F.PWR_SEQ_CFG_BO_RETRY ≤ s.power.brownRun)) :=
  ⟨⟨pw (fun p => {p with vbatLost := true}) (sq .off []), (0:Nat), (900:Nat), WakeCause.wakeN, (1:Nat), (2:Nat), by constructor <;> decide +kernel, .inr fun _ => ⟨ne_by (b := .off) (by decide +kernel) nofun, ne_by (b := .off) (by decide +kernel) nofun⟩, fun _ => ⟨ne_by (b := .off) (by decide +kernel) nofun, ne_by (b := .off) (by decide +kernel) nofun⟩, by decide +kernel⟩,
   ⟨sq .standby [], (0:Nat), (5:Nat), by constructor <;> decide +kernel, by decide +kernel⟩,
   ⟨sf (sq (.waitUp 0) []) F.PWR_SEQ_CFG_PG_TIMEOUT 5, (0:Nat), ([0,0,0,0]), (2:Nat), by constructor <;> decide +kernel, by decide +kernel⟩,
   ⟨sf (pw (fun p => {p with fresh := true}) (sq .standby [])) F.PWR_SEQ_CFG_AUTO_WAKE 1, by constructor <;> decide +kernel, by decide +kernel⟩,
   ⟨sq (.settleDown 1) [0,1], (1:Nat), (5:Nat), (0:Nat), by constructor <;> decide +kernel, by decide +kernel⟩,
   ⟨sf (sq (.waitDown 1) [0,1]) F.PWR_SEQ_CFG_PG_TIMEOUT 5, (1:Nat), by constructor <;> decide +kernel, by decide +kernel⟩,
   ⟨{sq .off [0] with part := .bf9204}, by constructor <;> decide +kernel, by decide +kernel⟩,
   ⟨sf (sf (sq .standby []) F.PWR_SEQ_CFG_WAKE_N_EN 1) F.PWR_WAKE_AT_VALUE 5, by constructor <;> decide +kernel, by decide +kernel⟩,
   ⟨sf (sq (.waitUp 0) []) F.PWR_SEQ_CFG_PG_TIMEOUT 5, (0:Nat), ([3300,3300,3300,3300]), by constructor <;> decide +kernel, by decide +kernel⟩,
   ⟨sf (sq (.waitUp 2) []) F.PWR_SEQ_CFG_PG_TIMEOUT 5, (2:Nat), ([3300,3300,3300,3300]), by constructor <;> decide +kernel, by decide +kernel⟩,
   ⟨sq (.settleUp 1) [0], (1:Nat), by constructor <;> decide +kernel, by decide +kernel⟩,
   ⟨sq .released [0,1,2], (9:Nat), (0:Nat), by constructor <;> decide +kernel, by decide +kernel⟩,
   ⟨sq .retryWait [], by constructor <;> decide +kernel, by decide +kernel⟩,
   ⟨sf (pw (fun p => {p with brownRun := 3}) (sq .retryWait [])) F.PWR_SEQ_CFG_BO_RETRY 3, by constructor <;> decide +kernel, by decide +kernel⟩⟩

end PowerSequenceMet

namespace PowerStatesMet

def pw (f : Power → Power) (s : State) : State := { s with power := f s.power }

def ps (n : Nat) : State := { (sf up F.PWR_STATE_STATE n) with stitch := 100, emitEn := 5 }

def lt (s : State) : State := sf s F.PWR_STATE_LATCH 1

def ok (s : State) : State := sf (sf (sf s F.SEC_STATE_ILK_A 0) F.SEC_STATE_ILK_B 0) F.SEC_STATE_LOOP_OPEN 0

def avs (s : State) : State := sf (sf (sf (sf (pw (fun p => {p with checking := false}) s) F.PWR_AVS_CFG_AVS_EN 1) F.PWR_AVS_CFG_INT 4) F.PWR_AVS_MARGIN_LOW 50) F.PWR_AVS_MARGIN_HIGH 90

def lims (s : State) : State := sf (sf (sf s F.PWR_AVS_LIM_VMAX 800) F.PWR_AVS_LIM_VMIN 700) F.PWR_AVS_CFG_STEP 15

def ev (s : State) : State := (withStreams s q8).setReg R.PWR_EVQ 0x01000005

def ck (s : State) : State := sf (ev (pw (fun p => {p with checking := true}) s)) F.PWR_AVS_STATUS_TARGET 700

/-- The hypotheses of PowerStates can be met. -/
theorem wit_PowerStates :
    (∃ (s : State) (margins : List Nat),
      (∀ (m : Nat), s.power.margin = some m → s.fld F.PWR_AVS_MARGIN_CRIT ≤ m) ∧
      s.coreUp = false ∧
      (¬(margins ≠ [] ∧ s.coreUp = true ∧ s.fld F.PWR_AVS_CFG_AVS_EN = 1 ∧ s.fld F.PWR_AVS_CFG_INT ≠ 0 ∧ s.power.checking = false ∧ s.fld F.PWR_AVS_STATUS_FAULT = 0)) ∧
      (¬(s.coreUp = true ∧ s.power.checking = true ∧ s.fld F.PWR_AVS_STATUS_FAULT = 0))) ∧
    (∃ (s : State) (m : Nat),
      s.Canon ∧
      s.coreUp = true ∧
      s.pwrState ≠ pwrReady ∧
      s.pwrState ≠ pwrRun ∧
      s.pwrState = pwrService ∧
      s.fld F.PWR_STATE_BOOT_DONE = 1 ∧
      s.power.shutting = false ∧
      s.latched = false ∧
      s.booted = true ∧
      s.fld F.PWR_SEQ_CFG_BURNISH = 1 ∧
      s.power.margin = some m ∧
      m < s.fld F.PWR_AVS_MARGIN_CRIT) ∧
    (∃ (s : State),
      s.coreUp = true ∧
      (s.pwrState = pwrReady ∨ s.pwrState = pwrRun) ∧
      s.pwrState ≠ pwrRun ∧
      (s.pwrState ≠ pwrService ∨ s.fld F.PWR_STATE_BOOT_DONE = 0 ∨ s.power.shutting = true) ∧
      s.pwrState = pwrReady ∧
      s.latched = false ∧
      s.ilkClear = true ∧
      s.sec.ilkHold = false) ∧
    (∃ (s : State),
      s.Canon ∧
      s.coreUp = true ∧
      s.pwrState = pwrRun ∧
      s.booted = true ∧
      s.power.shutting = false ∧
      s.fld F.PWR_SEQ_CFG_BURNISH = 0) ∧
    (∃ (s : State),
      s.coreUp = true ∧
      (s.booted = false ∨ s.power.shutting = true) ∧
      s.power.shutting = true) ∧
    (∃ (s : State),
      s.coreUp = true ∧
      s.pwrState = pwrService ∧
      s.fld F.PWR_STATE_BOOT_DONE = 1 ∧
      s.power.shutting = false ∧
      s.latched = true) ∧
    (∃ (s : State),
      s.coreUp = true ∧
      s.pwrState = pwrReady ∧
      s.latched = true) ∧
    (∃ (s : State),
      s.coreUp = true ∧
      s.pwrState = pwrReady ∧
      s.latched = false ∧
      (s.ilkClear = false ∨ s.sec.ilkHold = true)) ∧
    (∃ (s : State) (margins : List Nat),
      (margins ≠ [] ∧ s.coreUp = true ∧ s.fld F.PWR_AVS_CFG_AVS_EN = 1 ∧ s.fld F.PWR_AVS_CFG_INT ≠ 0 ∧ s.power.checking = false ∧ s.fld F.PWR_AVS_STATUS_FAULT = 0) ∧
      List.foldl min (margins.headD 0) margins.tail % 65536 < s.fld F.PWR_AVS_MARGIN_LOW) ∧
    (∃ (s : State) (margins : List Nat),
      (margins ≠ [] ∧ s.coreUp = true ∧ s.fld F.PWR_AVS_CFG_AVS_EN = 1 ∧ s.fld F.PWR_AVS_CFG_INT ≠ 0 ∧ s.power.checking = false ∧ s.fld F.PWR_AVS_STATUS_FAULT = 0) ∧
      ¬List.foldl min (margins.headD 0) margins.tail % 65536 < s.fld F.PWR_AVS_MARGIN_LOW ∧
      ¬s.fld F.PWR_AVS_MARGIN_HIGH < List.foldl min (margins.headD 0) margins.tail % 65536 ∧
      s.power.good < 8) ∧
    (∃ (s : State) (margins : List Nat),
      (margins ≠ [] ∧ s.coreUp = true ∧ s.fld F.PWR_AVS_CFG_AVS_EN = 1 ∧ s.fld F.PWR_AVS_CFG_INT ≠ 0 ∧ s.power.checking = false ∧ s.fld F.PWR_AVS_STATUS_FAULT = 0) ∧
      ¬List.foldl min (margins.headD 0) margins.tail % 65536 < s.fld F.PWR_AVS_MARGIN_LOW ∧
      (8 ≤ s.power.good ∨ s.fld F.PWR_AVS_MARGIN_HIGH < List.foldl min (margins.headD 0) margins.tail % 65536 ∧ s.power.good = 7)) ∧
    (∃ (s : State) (margins : List Nat),
      (margins ≠ [] ∧ s.coreUp = true ∧ s.fld F.PWR_AVS_CFG_AVS_EN = 1 ∧ s.fld F.PWR_AVS_CFG_INT ≠ 0 ∧ s.power.checking = false ∧ s.fld F.PWR_AVS_STATUS_FAULT = 0) ∧
      ¬List.foldl min (margins.headD 0) margins.tail % 65536 < s.fld F.PWR_AVS_MARGIN_LOW ∧
      s.fld F.PWR_AVS_MARGIN_HIGH < List.foldl min (margins.headD 0) margins.tail % 65536 ∧
      s.power.good < 7) ∧
    (∃ (s : State) (linear : Bool) (ok : Bool) (mv : Nat),
      (s.coreUp = true ∧ s.power.checking = true ∧ s.fld F.PWR_AVS_STATUS_FAULT = 0) ∧
      (¬(linear = false ∧ s.fld F.PWR_AVS_STATUS_TARGET = 0)) ∧
      (ok = true ∧ mv ≤ s.power.target + 10 ∧ s.power.target ≤ mv + 10)) ∧
    (∃ (s : State) (linear : Bool) (ok : Bool) (mv : Nat),
      (s.coreUp = true ∧ s.power.checking = true ∧ s.fld F.PWR_AVS_STATUS_FAULT = 0) ∧
      (¬(linear = false ∧ s.fld F.PWR_AVS_STATUS_TARGET = 0)) ∧
      (¬(ok = true ∧ mv ≤ s.power.target + 10 ∧ s.power.target ≤ mv + 10)) ∧
      s.power.fails < 2) ∧
    (∃ (s : State) (linear : Bool) (ok : Bool) (mv : Nat),
      (s.coreUp = true ∧ s.power.checking = true ∧ s.fld F.PWR_AVS_STATUS_FAULT = 0) ∧
      (¬(linear = false ∧ s.fld F.PWR_AVS_STATUS_TARGET = 0)) ∧
      (¬(ok = true ∧ mv ≤ s.power.target + 10 ∧ s.power.target ≤ mv + 10)) ∧
      2 ≤ s.power.fails) ∧
    (∃ (s : State) (linear : Bool),
      (s.coreUp = true ∧ s.power.checking = true ∧ s.fld F.PWR_AVS_STATUS_FAULT = 0) ∧
      (linear = false ∧ s.fld F.PWR_AVS_STATUS_TARGET = 0)) :=
  ⟨⟨pw (fun p => {p with seq := .standby}) up, [1], fun _ h => (none_ne (by decide +kernel) h).elim, by decide +kernel⟩,
   ⟨pw (fun p => {p with margin := some 5}) (sf (ev up) F.PWR_AVS_MARGIN_CRIT 6), (5:Nat), by constructor <;> decide +kernel, by decide +kernel⟩,
   ⟨ps pwrReady, by decide +kernel⟩,
   ⟨sf (ps pwrRun) F.PWR_SEQ_CFG_BURNISH 0, by constructor <;> decide +kernel, by decide +kernel⟩,
   ⟨pw (fun p => {p with shutting := true}) (ps pwrService), by decide +kernel⟩,
   ⟨lt (ps pwrService), by decide +kernel⟩,
   ⟨lt (ps pwrReady), by decide +kernel⟩,
   ⟨{ok (ps pwrReady) with sec := {up.sec with ilkHold := true}}, by decide +kernel⟩,
   ⟨lims (avs up), (99::[49, 200]), by decide +kernel⟩,
   ⟨lims (avs up), (99::[50, 200]), by decide +kernel⟩,
   ⟨pw (fun p => {p with good := 7}) (lims (avs up)), (99::[91, 200]), by decide +kernel⟩,
   ⟨pw (fun p => {p with good := 6}) (lims (avs up)), (91::([]:List Nat)), by decide +kernel⟩,
   ⟨ck (up), true, true, (760:Nat), by decide +kernel⟩,
   ⟨ck (up), true, true, (761:Nat), by decide +kernel⟩,
   ⟨ck (pw (fun p => {p with fails := 2}) up), true, false, (750:Nat), by decide +kernel⟩,
   ⟨sf (ck up) F.PWR_AVS_STATUS_TARGET 0, false, by decide +kernel⟩⟩

end PowerStatesMet

namespace ResetsMet

def pw (f : Power → Power) (s : State) : State := { s with power := f s.power }

def br (c u : Nat) (s : State) : State := sf (sf (sf s F.PWR_BLOCK_RST_START 1) F.PWR_BLOCK_RST_CODE c) F.PWR_BLOCK_RST_INSTANCE u

def fresh0 : State := (sf State.reset F.SEC_BOOT_MIN_VER 5).setCore 3 { Core.idle with table := [⟨2, 0, 1600⟩] }

/-- The hypotheses of Resets can be met. -/
theorem wit_Resets :
    (∃ (s : State),
      s.Canon ∧
      s.coreUp = true ∧
      (¬(s.fld F.SYS_WDOG_CTRL_ENABLE = 1 ∧ 2 * s.fld F.SYS_WDOG_CTRL_LIMIT ≤ s.wdog.count)) ∧
      (s.fld F.PWR_BLOCK_RST_START = 1 ∧ s.power.restarts = []) ∧
      s.restartPresent (s.fld F.PWR_BLOCK_RST_CODE) (s.fld F.PWR_BLOCK_RST_INSTANCE) = true ∧
      s.restartRefused (s.fld F.PWR_BLOCK_RST_CODE) (s.fld F.PWR_BLOCK_RST_INSTANCE) = false ∧
      s.fld F.PWR_BLOCK_RST_CODE = 1 ∧
      s.power.restarts = []) ∧
    (∃ (s : State),
      s.Canon ∧
      s.coreUp = false ∧
      (¬(s.fld F.PWR_BLOCK_RST_START = 1 ∧ s.power.restarts = [])) ∧
      (¬(s.coreUp = true ∧ s.fld F.PWR_STATE_BOOT_DONE = 0))) ∧
    (∃ (s : State),
      s.Canon ∧
      (s.fld F.PWR_BLOCK_RST_START = 1 ∧ s.power.restarts = []) ∧
      s.restartPresent (s.fld F.PWR_BLOCK_RST_CODE) (s.fld F.PWR_BLOCK_RST_INSTANCE) = false) ∧
    (∃ (s : State),
      s.Canon ∧
      (s.fld F.PWR_BLOCK_RST_START = 1 ∧ s.power.restarts = []) ∧
      s.restartPresent (s.fld F.PWR_BLOCK_RST_CODE) (s.fld F.PWR_BLOCK_RST_INSTANCE) = true ∧
      s.restartRefused (s.fld F.PWR_BLOCK_RST_CODE) (s.fld F.PWR_BLOCK_RST_INSTANCE) = true) ∧
    (∃ (s : State) (src : Source),
      s.Canon ∧
      s.Reaches src R.PWR_BLOCK_RST ∧
      s.fld F.PWR_BLOCK_RST_START = 1 ∧
      (s.fld F.PWR_BLOCK_RST_START = 1 ∧ s.power.restarts = []) ∧
      s.restartPresent (s.fld F.PWR_BLOCK_RST_CODE) (s.fld F.PWR_BLOCK_RST_INSTANCE) = true ∧
      s.restartRefused (s.fld F.PWR_BLOCK_RST_CODE) (s.fld F.PWR_BLOCK_RST_INSTANCE) = false ∧
      s.fld F.PWR_BLOCK_RST_CODE = 2) ∧
    (∃ (s : State) (c : Nat) (u : Nat) (rest : List (Nat × Nat)),
      s.Canon ∧
      s.power.restarts = (c, u) :: rest ∧
      c = 1 ∧
      u < 40) ∧
    (∃ (s : State),
      s.Canon ∧
      (s.fld F.PWR_BLOCK_RST_START = 1 ∧ s.power.restarts = []) ∧
      s.restartPresent (s.fld F.PWR_BLOCK_RST_CODE) (s.fld F.PWR_BLOCK_RST_INSTANCE) = true ∧
      s.restartRefused (s.fld F.PWR_BLOCK_RST_CODE) (s.fld F.PWR_BLOCK_RST_INSTANCE) = false ∧
      s.fld F.PWR_BLOCK_RST_CODE = 5) ∧
    (∃ (s : State),
      s.Canon ∧
      s.coreUp = true ∧
      (s.fld F.SYS_WDOG_CTRL_ENABLE = 1 ∧ 2 * s.fld F.SYS_WDOG_CTRL_LIMIT ≤ s.wdog.count)) ∧
    (∃ (s : State) (src : Source),
      s.Canon ∧
      s.Reaches src R.PWR_BLOCK_RST ∧
      s.fld F.PWR_BLOCK_RST_START = 0) ∧
    (∃ (s : State),
      s.Canon ∧
      (s.fld F.PWR_BLOCK_RST_START = 1 ∧ s.power.restarts = []) ∧
      s.restartPresent (s.fld F.PWR_BLOCK_RST_CODE) (s.fld F.PWR_BLOCK_RST_INSTANCE) = true ∧
      s.restartRefused (s.fld F.PWR_BLOCK_RST_CODE) (s.fld F.PWR_BLOCK_RST_INSTANCE) = false ∧
      s.fld F.PWR_BLOCK_RST_CODE = 6) ∧
    (∃ (s : State),
      s.Canon ∧
      (s.fld F.PWR_BLOCK_RST_START = 1 ∧ s.power.restarts = []) ∧
      s.restartPresent (s.fld F.PWR_BLOCK_RST_CODE) (s.fld F.PWR_BLOCK_RST_INSTANCE) = true ∧
      s.restartRefused (s.fld F.PWR_BLOCK_RST_CODE) (s.fld F.PWR_BLOCK_RST_INSTANCE) = false ∧
      s.fld F.PWR_BLOCK_RST_CODE = 9) ∧
    (∃ (s : State),
      s.Canon ∧
      (s.fld F.PWR_BLOCK_RST_START = 1 ∧ s.power.restarts = []) ∧
      s.restartPresent (s.fld F.PWR_BLOCK_RST_CODE) (s.fld F.PWR_BLOCK_RST_INSTANCE) = true ∧
      s.restartRefused (s.fld F.PWR_BLOCK_RST_CODE) (s.fld F.PWR_BLOCK_RST_INSTANCE) = false ∧
      s.fld F.PWR_BLOCK_RST_CODE = 11) ∧
    (∃ (s : State),
      s.Canon ∧
      (s.fld F.PWR_BLOCK_RST_START = 1 ∧ s.power.restarts = []) ∧
      s.restartPresent (s.fld F.PWR_BLOCK_RST_CODE) (s.fld F.PWR_BLOCK_RST_INSTANCE) = true ∧
      s.restartRefused (s.fld F.PWR_BLOCK_RST_CODE) (s.fld F.PWR_BLOCK_RST_INSTANCE) = false ∧
      s.fld F.PWR_BLOCK_RST_CODE = 12) ∧
    (∃ (s : State),
      s.Canon ∧
      (s.fld F.PWR_BLOCK_RST_START = 1 ∧ s.power.restarts = []) ∧
      s.restartPresent (s.fld F.PWR_BLOCK_RST_CODE) (s.fld F.PWR_BLOCK_RST_INSTANCE) = true ∧
      s.restartRefused (s.fld F.PWR_BLOCK_RST_CODE) (s.fld F.PWR_BLOCK_RST_INSTANCE) = false ∧
      s.fld F.PWR_BLOCK_RST_CODE = 13) ∧
    (∃ (s : State),
      s.Canon ∧
      (s.fld F.PWR_BLOCK_RST_START = 1 ∧ s.power.restarts = []) ∧
      s.restartPresent (s.fld F.PWR_BLOCK_RST_CODE) (s.fld F.PWR_BLOCK_RST_INSTANCE) = true ∧
      s.restartRefused (s.fld F.PWR_BLOCK_RST_CODE) (s.fld F.PWR_BLOCK_RST_INSTANCE) = false ∧
      s.fld F.PWR_BLOCK_RST_CODE = 4) ∧
    (∃ (s : State) (c : Nat) (u : Nat) (rest : List (Nat × Nat)),
      s.Canon ∧
      s.power.restarts = (c, u) :: rest ∧
      c ≠ 1) ∧
    (∃ (s : State) (a : ImageHdr) (b : ImageHdr),
      s.Canon ∧
      (s.coreUp = true ∧ s.fld F.PWR_STATE_BOOT_DONE = 0) ∧
      s.imagePasses (if s.fld F.SEC_BOOT_PREF = 0 then a else b) = true) ∧
    (∃ (s : State) (a : ImageHdr) (b : ImageHdr),
      s.Canon ∧
      (s.coreUp = true ∧ s.fld F.PWR_STATE_BOOT_DONE = 0) ∧
      s.imagePasses (if s.fld F.SEC_BOOT_PREF = 0 then a else b) = false ∧
      s.imagePasses (if s.fld F.SEC_BOOT_PREF = 0 then b else a) = true) ∧
    (∃ (s : State) (a : ImageHdr) (b : ImageHdr),
      s.Canon ∧
      (s.coreUp = true ∧ s.fld F.PWR_STATE_BOOT_DONE = 0) ∧
      s.imagePasses (if s.fld F.SEC_BOOT_PREF = 0 then a else b) = false ∧
      s.imagePasses (if s.fld F.SEC_BOOT_PREF = 0 then b else a) = false) :=
  ⟨⟨br 1 32 up, by constructor <;> decide +kernel, by decide +kernel⟩,
   ⟨pw (fun p => {p with seq := .standby}) up, by constructor <;> decide +kernel, by decide +kernel⟩,
   ⟨br 14 0 up, by constructor <;> decide +kernel, by decide +kernel⟩,
   ⟨br 2 31 (sf up (F.AWL_STATUS_STATE 31) 1), by constructor <;> decide +kernel, by decide +kernel⟩,
   ⟨br 2 3 up, Source.host, by constructor <;> decide +kernel, by unfold State.Reaches; decide +kernel, by decide +kernel⟩,
   ⟨pw (fun p => {p with restarts := [(1, 32), (2,3)]}) (br 2 31 up), (1:Nat), (32:Nat), ([(2,3)] : List (Nat × Nat)), by constructor <;> decide +kernel, by decide +kernel⟩,
   ⟨br 5 39 up, by constructor <;> decide +kernel, by decide +kernel⟩,
   ⟨sf (sf up F.SYS_WDOG_CTRL_ENABLE 1) F.SYS_WDOG_CTRL_LIMIT 0, by constructor <;> decide +kernel, by decide +kernel⟩,
   ⟨up, Source.host, by constructor <;> decide +kernel, by unfold State.Reaches; decide +kernel, by decide +kernel⟩,
   ⟨br 6 1 up, by constructor <;> decide +kernel, by decide +kernel⟩,
   ⟨br 9 0 (js 6), by constructor <;> decide +kernel, by decide +kernel⟩,
   ⟨br 11 1 up, by constructor <;> decide +kernel, by decide +kernel⟩,
   ⟨br 12 0 up, by constructor <;> decide +kernel, by decide +kernel⟩,
   ⟨br 13 0 up, by constructor <;> decide +kernel, by decide +kernel⟩,
   ⟨br 4 15 up, by constructor <;> decide +kernel, by decide +kernel⟩,
   ⟨pw (fun p => {p with restarts := [(2, 31)]}) (br 2 31 up), (2:Nat), (31:Nat), ([] : List (Nat × Nat)), by constructor <;> decide +kernel, by decide +kernel⟩,
   ⟨fresh0, hdr 5 true, hdr 9 false, by constructor <;> decide +kernel, by decide +kernel⟩,
   ⟨fresh0, hdr 4 true, hdr 5 true, by constructor <;> decide +kernel, by decide +kernel⟩,
   ⟨fresh0, hdr 4 true, hdr 5 false, by constructor <;> decide +kernel, by decide +kernel⟩⟩

end ResetsMet

namespace TemperaturesMet

def th (f : Therm → Therm) (s : State) : State := { s with therm := f s.therm }

def sen (k shut n : Nat) (s : State) : State := sf (sf s (F.THRM_SENSOR_LIMIT_SHUT k) shut) (F.THRM_SENSOR_LIMIT_SHUT_N k) n

def on0 (k : Nat) (s : State) : State := (sf (sf s (F.THRM_SENSOR_CFG_ENABLE k) 1) (F.THRM_SENSOR_CFG_FAULT_HOT k) 0)

def ready (s : State) : State := sf s F.PWR_STATE_STATE pwrRun

def te (s : State) : State := evq s R.THRM_EVQ

def lr (s : State) : State := sf (sf s (F.LANE_STATUS_STATE 0) laneReady) (F.LANE_STATUS_STATE 39) laneReady

def bd (l : Sparse (Option (Nat × Nat))) (s : State) : State := te (th (fun t => {t with bands := l}) s)

/-- The hypotheses of Temperatures can be met. -/
theorem wit_Temperatures :
    (∃ (s : State) (k : Nat) (g : Nat) (j : Nat),
      s.sensorOn k = false ∧
      (¬(g < 5 ∧ s.groupBand g ≠ s.fld (F.THRM_BAND_GROUP_BAND g))) ∧
      (¬(j < 8 ∧ s.fld (F.THRM_STEP_CTRL_ENGAGED j) = 0 ∧ s.stepHot j = true)) ∧
      (¬(j < 8 ∧ s.fld (F.THRM_STEP_CTRL_ENGAGED j) = 1 ∧ s.stepCool j = true))) ∧
    (∃ (s : State) (k : Nat) (r : Nat) (inp : Nat),
      s.sensorOn k = true ∧
      (s.fld (F.THRM_SENSOR_LIMIT_SHUT_N k) ≠ 0 ∧ (if k < 8 ∧ (inp < 250 ∨ 950 < inp) ∨ 8 ≤ k ∧ k < 16 ∧ (inp < 20 ∨ 980 < inp) then if s.fld (F.THRM_SENSOR_CFG_FAULT_HOT k) = 1 ∧ s.fld (F.THRM_SENSOR_LIMIT_SHUT k) ≠ 0 then sget 0 s.therm.hot k + 1 else 0 else if s.fld (F.THRM_SENSOR_LIMIT_SHUT k) ≠ 0 ∧ s.fld (F.THRM_SENSOR_LIMIT_SHUT k) ≤ if k < 8 ∧ (inp < 250 ∨ 950 < inp) ∨ 8 ≤ k ∧ k < 16 ∧ (inp < 20 ∨ 980 < inp) then 0 else r % 65536 then sget 0 s.therm.hot k + 1 else 0) ≠ 0 ∧ (s.fld (F.THRM_SENSOR_LIMIT_SHUT_N k) ≤ if k < 8 ∧ (inp < 250 ∨ 950 < inp) ∨ 8 ≤ k ∧ k < 16 ∧ (inp < 20 ∨ 980 < inp) then if s.fld (F.THRM_SENSOR_CFG_FAULT_HOT k) = 1 ∧ s.fld (F.THRM_SENSOR_LIMIT_SHUT k) ≠ 0 then sget 0 s.therm.hot k + 1 else 0 else if s.fld (F.THRM_SENSOR_LIMIT_SHUT k) ≠ 0 ∧ s.fld (F.THRM_SENSOR_LIMIT_SHUT k) ≤ if k < 8 ∧ (inp < 250 ∨ 950 < inp) ∨ 8 ≤ k ∧ k < 16 ∧ (inp < 20 ∨ 980 < inp) then 0 else r % 65536 then sget 0 s.therm.hot k + 1 else 0) ∧ s.latched = false) ∧
      s.pwrState ≠ pwrReady ∧
      s.pwrState ≠ pwrRun) ∧
    (∃ (s : State) (g : Nat),
      (g < 5 ∧ s.groupBand g ≠ s.fld (F.THRM_BAND_GROUP_BAND g)) ∧
      g < 2 ∧
      g < s.part.row.chans) ∧
    (∃ (s : State) (k : Nat) (r : Nat) (inp : Nat),
      s.sensorOn k = true ∧
      (¬(s.fld (F.THRM_SENSOR_LIMIT_SHUT_N k) ≠ 0 ∧ (if k < 8 ∧ (inp < 250 ∨ 950 < inp) ∨ 8 ≤ k ∧ k < 16 ∧ (inp < 20 ∨ 980 < inp) then if s.fld (F.THRM_SENSOR_CFG_FAULT_HOT k) = 1 ∧ s.fld (F.THRM_SENSOR_LIMIT_SHUT k) ≠ 0 then sget 0 s.therm.hot k + 1 else 0 else if s.fld (F.THRM_SENSOR_LIMIT_SHUT k) ≠ 0 ∧ s.fld (F.THRM_SENSOR_LIMIT_SHUT k) ≤ if k < 8 ∧ (inp < 250 ∨ 950 < inp) ∨ 8 ≤ k ∧ k < 16 ∧ (inp < 20 ∨ 980 < inp) then 0 else r % 65536 then sget 0 s.therm.hot k + 1 else 0) ≠ 0 ∧ (s.fld (F.THRM_SENSOR_LIMIT_SHUT_N k) ≤ if k < 8 ∧ (inp < 250 ∨ 950 < inp) ∨ 8 ≤ k ∧ k < 16 ∧ (inp < 20 ∨ 980 < inp) then if s.fld (F.THRM_SENSOR_CFG_FAULT_HOT k) = 1 ∧ s.fld (F.THRM_SENSOR_LIMIT_SHUT k) ≠ 0 then sget 0 s.therm.hot k + 1 else 0 else if s.fld (F.THRM_SENSOR_LIMIT_SHUT k) ≠ 0 ∧ s.fld (F.THRM_SENSOR_LIMIT_SHUT k) ≤ if k < 8 ∧ (inp < 250 ∨ 950 < inp) ∨ 8 ≤ k ∧ k < 16 ∧ (inp < 20 ∨ 980 < inp) then 0 else r % 65536 then sget 0 s.therm.hot k + 1 else 0) ∧ s.latched = false)) ∧
      (¬((k < 8 ∧ (inp < 250 ∨ 950 < inp) ∨ 8 ≤ k ∧ k < 16 ∧ (inp < 20 ∨ 980 < inp)) ∧ s.fld (F.THRM_SENSOR_VALUE_FAULT k) = 0))) ∧
    (∃ (s : State) (k : Nat) (r : Nat) (inp : Nat),
      s.sensorOn k = true ∧
      (¬(s.fld (F.THRM_SENSOR_LIMIT_SHUT_N k) ≠ 0 ∧ (if k < 8 ∧ (inp < 250 ∨ 950 < inp) ∨ 8 ≤ k ∧ k < 16 ∧ (inp < 20 ∨ 980 < inp) then if s.fld (F.THRM_SENSOR_CFG_FAULT_HOT k) = 1 ∧ s.fld (F.THRM_SENSOR_LIMIT_SHUT k) ≠ 0 then sget 0 s.therm.hot k + 1 else 0 else if s.fld (F.THRM_SENSOR_LIMIT_SHUT k) ≠ 0 ∧ s.fld (F.THRM_SENSOR_LIMIT_SHUT k) ≤ if k < 8 ∧ (inp < 250 ∨ 950 < inp) ∨ 8 ≤ k ∧ k < 16 ∧ (inp < 20 ∨ 980 < inp) then 0 else r % 65536 then sget 0 s.therm.hot k + 1 else 0) ≠ 0 ∧ (s.fld (F.THRM_SENSOR_LIMIT_SHUT_N k) ≤ if k < 8 ∧ (inp < 250 ∨ 950 < inp) ∨ 8 ≤ k ∧ k < 16 ∧ (inp < 20 ∨ 980 < inp) then if s.fld (F.THRM_SENSOR_CFG_FAULT_HOT k) = 1 ∧ s.fld (F.THRM_SENSOR_LIMIT_SHUT k) ≠ 0 then sget 0 s.therm.hot k + 1 else 0 else if s.fld (F.THRM_SENSOR_LIMIT_SHUT k) ≠ 0 ∧ s.fld (F.THRM_SENSOR_LIMIT_SHUT k) ≤ if k < 8 ∧ (inp < 250 ∨ 950 < inp) ∨ 8 ≤ k ∧ k < 16 ∧ (inp < 20 ∨ 980 < inp) then 0 else r % 65536 then sget 0 s.therm.hot k + 1 else 0) ∧ s.latched = false)) ∧
      ((k < 8 ∧ (inp < 250 ∨ 950 < inp) ∨ 8 ≤ k ∧ k < 16 ∧ (inp < 20 ∨ 980 < inp)) ∧ s.fld (F.THRM_SENSOR_VALUE_FAULT k) = 0)) ∧
    (∃ (s : State) (k : Nat) (r : Nat) (inp : Nat),
      s.sensorOn k = true ∧
      (s.fld (F.THRM_SENSOR_LIMIT_SHUT_N k) ≠ 0 ∧ (if k < 8 ∧ (inp < 250 ∨ 950 < inp) ∨ 8 ≤ k ∧ k < 16 ∧ (inp < 20 ∨ 980 < inp) then if s.fld (F.THRM_SENSOR_CFG_FAULT_HOT k) = 1 ∧ s.fld (F.THRM_SENSOR_LIMIT_SHUT k) ≠ 0 then sget 0 s.therm.hot k + 1 else 0 else if s.fld (F.THRM_SENSOR_LIMIT_SHUT k) ≠ 0 ∧ s.fld (F.THRM_SENSOR_LIMIT_SHUT k) ≤ if k < 8 ∧ (inp < 250 ∨ 950 < inp) ∨ 8 ≤ k ∧ k < 16 ∧ (inp < 20 ∨ 980 < inp) then 0 else r % 65536 then sget 0 s.therm.hot k + 1 else 0) ≠ 0 ∧ (s.fld (F.THRM_SENSOR_LIMIT_SHUT_N k) ≤ if k < 8 ∧ (inp < 250 ∨ 950 < inp) ∨ 8 ≤ k ∧ k < 16 ∧ (inp < 20 ∨ 980 < inp) then if s.fld (F.THRM_SENSOR_CFG_FAULT_HOT k) = 1 ∧ s.fld (F.THRM_SENSOR_LIMIT_SHUT k) ≠ 0 then sget 0 s.therm.hot k + 1 else 0 else if s.fld (F.THRM_SENSOR_LIMIT_SHUT k) ≠ 0 ∧ s.fld (F.THRM_SENSOR_LIMIT_SHUT k) ≤ if k < 8 ∧ (inp < 250 ∨ 950 < inp) ∨ 8 ≤ k ∧ k < 16 ∧ (inp < 20 ∨ 980 < inp) then 0 else r % 65536 then sget 0 s.therm.hot k + 1 else 0) ∧ s.latched = false) ∧
      (s.pwrState = pwrReady ∨ s.pwrState = pwrRun)) ∧
    (∃ (s : State) (g : Nat),
      (g < 5 ∧ s.groupBand g ≠ s.fld (F.THRM_BAND_GROUP_BAND g)) ∧
      g = 2) ∧
    (∃ (s : State) (g : Nat),
      (g < 5 ∧ s.groupBand g ≠ s.fld (F.THRM_BAND_GROUP_BAND g)) ∧
      (3 ≤ g ∨ s.part.row.chans ≤ g ∧ g ≠ 2)) ∧
    (∃ (s : State) (j : Nat),
      (j < 8 ∧ s.fld (F.THRM_STEP_CTRL_ENGAGED j) = 0 ∧ s.stepHot j = true)) ∧
    (∃ (s : State) (j : Nat),
      (j < 8 ∧ s.fld (F.THRM_STEP_CTRL_ENGAGED j) = 1 ∧ s.stepCool j = true)) :=
  ⟨⟨up, (28:Nat), (2:Nat), (3:Nat), by decide +kernel⟩,
   ⟨sf (te (sen 8 100 1 (on0 8 up))) (F.THRM_SENSOR_CFG_FAULT_HOT 8) 1, (8:Nat), (65536+99:Nat), (19:Nat), by decide +kernel⟩,
   ⟨bd [(0, some (3, 100))] (sf up (F.THRM_BAND_GROUP_MASK 0) 1), (0:Nat), by decide +kernel⟩,
   ⟨te (sen 0 100 2 (on0 0 up)), (0:Nat), (65536+99:Nat), (250:Nat), by decide +kernel⟩,
   ⟨te (sen 0 100 2 (on0 0 up)), (0:Nat), (65536+99:Nat), (249:Nat), by decide +kernel⟩,
   ⟨lr (te (ready (th (fun t => {t with hot := [(27, 1), (3, 4)]}) (sen 27 100 2 (on0 27 up))))), (27:Nat), (100:Nat), (500:Nat), by decide +kernel⟩,
   ⟨lr (bd [(7, some (2, 200))] (sf up (F.THRM_BAND_GROUP_MASK 2) 0x180)), (2:Nat), by decide +kernel⟩,
   ⟨bd [(7, some (2, 200)), (8, some (0, 300))] (sf up (F.THRM_BAND_GROUP_MASK 4) 0x180), (4:Nat), by decide +kernel⟩,
   ⟨te (sf (sf (sf (on0 7 up) (F.THRM_STEP_GROUP_SENSORS 7) 128) (F.THRM_SENSOR_VALUE_READING 7) 200) (F.THRM_STEP_CTRL_ONSET 7) 200), (7:Nat), by decide +kernel⟩,
   ⟨te (sf (sf (sf (sf (sf (on0 7 up) (F.THRM_STEP_GROUP_SENSORS 7) 128) (F.THRM_SENSOR_VALUE_READING 7) 189) (F.THRM_STEP_CTRL_ONSET 7) 200) (F.THRM_STEP_CTRL_HYST 7) 10) (F.THRM_STEP_CTRL_ENGAGED 7) 1), (7:Nat), by decide +kernel⟩⟩

end TemperaturesMet

namespace CalibrationMet

def cl (f : Cal → Cal) (s : State) : State := { s with cal := f s.cal }

def gl (g : Option CalVal) (e : CalEntry) (s : State) : State := cl (fun c => {c with running := some e, goal := g}) s

def e1 : CalEntry := ⟨1, 1, 0⟩

def e5 : CalEntry := ⟨0, 5, 31⟩

def e2 : CalEntry := ⟨2, 2, 39⟩

def ce (s : State) : State := evq s R.CAL_EVQ

/-- The hypotheses of Calibration can be met. -/
theorem wit_Calibration :
    (∃ (s : State) (src : Source),
      s.Reaches src R.CAL_CMD ∧
      (∀ (e : CalEntry) (g : CalVal), s.cal.running = some e → s.cal.goal = some g → s.calNow e.item e.unit ≠ g) ∧
      (∀ (e : CalEntry), ¬(s.cal.running = some e ∧ s.cal.goal = none ∧ e.item = calGate ∧ s.cal.reports.fst < 256)) ∧
      s.guardPending = false ∧
      (s.cal.running ≠ none ∨ s.cal.queue = [])) ∧
    (∃ (s : State) (e : CalEntry),
      s.cal.running = some e ∧
      s.cal.goal = none ∧
      e.item = calGate ∧
      s.cal.reports.fst < 256 ∧
      (s.cal.running = some e ∧ s.cal.goal = none ∧ e.item = calGate ∧ s.cal.reports.fst < 256)) ∧
    (∃ (s : State) (e : CalEntry) (g : CalVal),
      (s.cal.running = none ∨ s.cal.goal ≠ none) ∧
      s.cal.running = some e ∧
      s.cal.goal = some g ∧
      s.calNow e.item e.unit = g) ∧
    (∃ (s : State) (src : Source),
      s.Reaches src R.CAL_CMD ∧
      s.guardPending = true) ∧
    (∃ (s : State) (e : CalEntry),
      s.cal.running = none ∧
      firstEntry s.cal.queue = some e ∧
      s.calReady e.item e.unit = false) ∧
    (∃ (s : State) (e : CalEntry),
      s.cal.running = none ∧
      firstEntry s.cal.queue = some e ∧
      s.calReady e.item e.unit = true) ∧
    (∃ (s : State) (e : CalEntry),
      s.cal.running = some e ∧
      s.cal.goal = none ∧
      (¬e.item = calGate ∨ 256 ≤ s.cal.reports.fst)) :=
  ⟨⟨up, Source.host, by unfold State.Reaches; decide +kernel, fun _ _ h => (none_ne (by decide +kernel) h).elim, fun _ h => none_ne (by decide +kernel) h.1, by decide +kernel⟩,
   ⟨gl none e5 up, e5, by decide +kernel⟩,
   ⟨gl (some ⟨0,0⟩) e1 (ce up), e1, (⟨0,0⟩ : CalVal), by decide +kernel⟩,
   ⟨{up with sec := {up.sec with request := some ⟨1,0,0,0⟩}}, Source.core 3 3, by unfold State.Reaches; decide +kernel, by decide +kernel⟩,
   ⟨cl (fun c => {c with queue := [e2, e1, e5]}) up, e5, by decide +kernel⟩,
   ⟨sf (cl (fun c => {c with queue := [e2, e1, e5]}) up) (F.LANE_STATUS_STATE 31) laneReady, e5, by decide +kernel⟩,
   ⟨gl none e1 (sf up (F.CAL_ITEM_MAXCHG 0) 10), e1, by decide +kernel⟩⟩

end CalibrationMet

namespace BurnishRunsMet

/-- In SERVICE with budgets that no slice exceeds. -/
def sv : State := sf (sf (sf up F.PWR_STATE_STATE pwrService) F.BURN_BUDGET_SLICE_BUDGET 2000) F.BURN_BUDGET_RUN_BUDGET 100

/-- With a run of the Burnish. -/
def bn (b : Burn) (s : State) : State := { s with burn := b }

/-- A run is under way. -/
def bc : State := evq (bn ⟨some [3, 4], 5, 1, 2⟩ sv) R.BURN_EVQ

theorem sv_restarts : ∀ a < 16, ∀ u < 64, sv.restartRefused a u = false ∧
    (List.range 16).any (fun c => sv.ctxState u c != ctxIdle && sv.ctxState u c != ctxHalted) = false := by decide +kernel

theorem sv_skips {b : Burn} (n : Nat) (h : b.used ≤ 10000) : (bn b sv).sliceSkips n = false := by
  have k : sliceMicros n ≤ 1800 := Nat.min_le_left ..
  have e1 : (bn b sv).fld F.BURN_BUDGET_SLICE_BUDGET = 2000 := by show sv.fld _ = _; decide +kernel
  have e2 : (bn b sv).fld F.BURN_BUDGET_RUN_BUDGET = 100 := by show sv.fld _ = _; decide +kernel
  have e3 : (bn b sv).sliceHeld n = false := by
    have r := sv_restarts (Config.sliceUnit n).1.toNat (Config.sliceUnit n).1.isLt (Config.sliceUnit n).2.toNat
      (Config.sliceUnit n).2.isLt
    show (!sv.power.shutting && (sv.restartRefused _ _ || _ && List.any _ fun c => sv.ctxState _ c != _ && sv.ctxState _ c != _)) = _
    simp only [sliceUnit, r.1, r.2, Bool.and_false, Bool.or_false]
  simp only [State.sliceSkips, e1, e2, e3, show (bn b sv).burn = b from rfl]
  simp; omega

theorem slice_le {u n : Nat} (h : u ≤ 8000) : u + sliceMicros n ≤ 10000 :=
  Nat.le_trans (Nat.add_le_add h (Nat.min_le_left ..)) (by decide)
def nx (o : Host.Outcome State Fault Refusal) : State := match o with | .next t => t | _ => up

theorem skips_without {s : State} (h : s.fld F.BURN_BUDGET_RUN_BUDGET = 0) (n : Nat) : s.sliceSkips n = true := by
  simp [State.sliceSkips, h]

theorem wit_BurnishRuns :
    (∃ (s : State) (src : Source) (v : Word) (n : Nat) (l : List Nat) (ns : List Nat) (m : Nat) (ms : List Nat),
      s.Reaches src R.BURN_CTRL ∧
      (BitVec.getLsbD v 30 = false ∨ s.burn.left = none) ∧
      (¬(s.pwrState = pwrService ∧ s.booted = true ∧ s.burn.left = none ∧ s.power.shutting = false ∧ s.restartRefused 9 0 = false)) ∧
      s.burn.left = some l ∧
      s.burn.left = some (n :: ns) ∧
      List.dropWhile ({ s with burn := ({ s.burn with used := s.burn.used + sliceMicros n } : Burn) } : State).sliceSkips ns = m :: ms ∧
      ¬n ∈ ns ∧
      n < 190) ∧
    (∃ (s : State) (n : Nat) (ns : List Nat),
      s.burn.left = some (n :: ns) ∧
      List.dropWhile ({ s with burn := ({ s.burn with used := s.burn.used + sliceMicros n } : Burn) } : State).sliceSkips ns = [] ∧
      s.power.shutting = false ∧
      ¬n ∈ ns ∧
      n < 190) ∧
    (∃ (s : State) (src : Source) (v : Word) (n : Nat),
      s.Reaches src R.BURN_CTRL ∧
      (∀ (n : Nat) (ns : List Nat), s.burn.left ≠ some (n :: ns)) ∧
      (BitVec.getLsbD v 30 = false ∨ s.burn.left = none) ∧
      (s.pwrState = pwrService ∧ s.booted = true ∧ s.burn.left = none ∧ s.power.shutting = false ∧ s.restartRefused 9 0 = false) ∧
      List.find? (fun n => !({ s with burn := Burn.idle } : State).sliceSkips n) (List.range s.sliceCount) = some n ∧
      s.burn.left = none) ∧
    (∃ (s : State) (src : Source) (v : Word) (r : State),
      s.Reaches src R.BURN_CTRL ∧
      r.Reaches src R.BURN_CTRL ∧
      (¬(BitVec.getLsbD v 30 = false ∨ s.burn.left = none)) ∧
      exec (Instr.burnCancel src v) s = Host.Outcome.next r) ∧
    (∃ (s : State) (src : Source) (v : Word),
      s.Reaches src R.BURN_CTRL ∧
      (BitVec.getLsbD v 30 = false ∨ s.burn.left = none) ∧
      (s.pwrState = pwrService ∧ s.booted = true ∧ s.burn.left = none ∧ s.power.shutting = false ∧ s.restartRefused 9 0 = false) ∧
      List.find? (fun n => !({ s with burn := Burn.idle } : State).sliceSkips n) (List.range s.sliceCount) = none) ∧
    (∃ (s : State) (n : Nat) (ns : List Nat),
      s.Canon ∧
      s.burn.left = some (n :: ns) ∧
      List.dropWhile ({ s with burn := ({ s.burn with used := s.burn.used + sliceMicros n } : Burn) } : State).sliceSkips ns = [] ∧
      s.power.shutting = true ∧
      s.coreUp = true) :=
  ⟨⟨bn ⟨some [3, 4], 5, 1, 2⟩ sv, .host, 0x80000000, 3, [3, 4], [4], 4, [], by unfold State.Reaches; decide +kernel,
      by decide +kernel, by decide +kernel, rfl, rfl,
      List.dropWhile_cons_of_neg (Bool.eq_false_iff.1 (sv_skips 4 (slice_le (by decide +kernel)))), by decide +kernel⟩,
   ⟨bn ⟨some [189], 5, 1, 2⟩ sv, 189, [], by decide +kernel⟩,
   ⟨sv, .host, 0xC0000000, 0, by unfold State.Reaches; decide +kernel,
      fun _ _ h => none_ne (by decide +kernel) h, by decide +kernel, by decide +kernel, 
      by rw [show sv.sliceCount = 190 from by decide +kernel, List.range_eq_range']
         exact List.find?_cons_of_pos (by show (!(bn Burn.idle sv).sliceSkips 0) = true; rw [sv_skips 0 (by decide)]; rfl), by decide +kernel⟩,
   ⟨evq (bn ⟨some [], 5, 1, 2⟩ sv) R.BURN_EVQ, .host, 0xC0000000,
      nx (execBurnCancel .host 0xC0000000 (evq (bn ⟨some [], 5, 1, 2⟩ sv) R.BURN_EVQ)), by unfold State.Reaches; decide +kernel,
      by unfold State.Reaches; decide +kernel, by decide +kernel, rfl⟩,
   ⟨sf sv F.BURN_BUDGET_RUN_BUDGET 0, .host, 0x80000000, by unfold State.Reaches; decide +kernel, by decide +kernel,
      by decide +kernel, 
      List.find?_eq_none.2 fun n _ h => absurd h (by rw [skips_without (by decide +kernel)]; decide)⟩,
   ⟨{bn ⟨some [149], 5, 0, 0⟩ sv with power := {sv.power with shutting := true}}, 149, [], by constructor <;> decide +kernel,
      by decide +kernel⟩⟩

end BurnishRunsMet

namespace GuardsMet

def may (s : State) : State := { sf s F.HARN_STATUS_STATE harnLead with harn := { s.harn with peerTracks := true } }

def hb : State := (sf (withStreams up q8) F.SEC_STATE_VALID 0x80).setReg R.SEC_KEY_ARG 0x01002007

/-- The hypotheses of Guards can be met. -/
theorem wit_Guards :
    (∃ (s : State) (src : Source) (k : Nat) (v : Word) (a : Nat) (op : Nat),
      s.Reaches src (R.REIN_CEILING k) ∧
      s.Reaches src a ∧
      s.Reaches src R.SEC_KEEPER ∧
      s.Reaches src R.SEC_DEBUG ∧
      s.Reaches src R.HARN_CMD ∧
      s.Reaches src R.CAL_CMD ∧
      k < 32 ∧
      s.guardPending = false ∧
      guardedOp a = some op ∧
      a < 2 ^ 32 ∧
      a ≠ R.SEC_KEEPER ∧
      (getBits v 15 0 < 5 ∨ 600 < getBits v 15 0) ∧
      s.fld F.SYS_ACC_INFO_VALID = 0 ∧
      (¬(s.harnState = harnLead ∧ s.harn.peerTracks = true)) ∧
      getBits (v &&& 806289471 ||| 2415919104) 29 28 = 1 ∧
      s.sec.request = none) ∧
    (∃ (s : State) (q : Guarded),
      s.sec.granted = some q ∧
      (q.op ≠ 4 ∨ q.addr = R.SEC_KEEPER) ∧
      q.op = 7) ∧
    (∃ (s : State) (src : Source) (k : Nat) (a : Nat) (op : Nat) (q : Guarded) (press : Bool),
      s.Reaches src (R.REIN_CEILING k) ∧
      s.Reaches src a ∧
      s.Reaches src R.SEC_DEBUG ∧
      k < 32 ∧
      ¬s.guardPending = false ∧
      guardedOp a = some op ∧
      a < 2 ^ 32 ∧
      a ≠ R.SEC_KEEPER ∧
      s.sec.request = some q ∧
      s.guardElapsed q < s.fld F.SEC_KEEPER_SECONDS ∧
      press = true) ∧
    (∃ (s : State) (q : Guarded) (key : Nat) (k : Nat),
      s.Takes 256 (s.reg R.SEC_EVQ) 3 key ∧
      s.sec.granted = some q ∧
      q.op ≠ 7 ∧
      q.op = 1 ∧
      q.addr = R.REIN_CEILING k) ∧
    (∃ (s : State) (src : Source) (v : Word) (press : Bool),
      s.Reaches src R.SEC_KEEPER ∧
      5 ≤ getBits v 15 0 ∧
      getBits v 15 0 ≤ 600 ∧
      s.guardPending = false ∧
      (¬∃ q, s.sec.request = some q ∧ s.guardElapsed q < s.fld F.SEC_KEEPER_SECONDS ∧ press = true)) ∧
    (∃ (s : State) (src : Source),
      s.Reaches src R.HARN_CMD ∧
      (s.harnState = harnLead ∧ s.harn.peerTracks = true) ∧
      s.guardPending = false) ∧
    (∃ (s : State) (src : Source),
      s.Reaches src R.HARN_CMD ∧
      (s.harnState = harnLead ∧ s.harn.peerTracks = true) ∧
      ¬s.guardPending = false) ∧
    (∃ (s : State) (src : Source) (v : Word),
      s.Reaches src R.SEC_KEEPER ∧
      5 ≤ getBits v 15 0 ∧
      getBits v 15 0 ≤ 600 ∧
      ¬s.guardPending = false) ∧
    (∃ (s : State) (q : Guarded),
      s.sec.request = some q ∧
      s.fld F.SEC_KEEPER_SECONDS ≤ s.guardElapsed q) ∧
    (∃ (s : State) (q : Guarded),
      s.sec.granted = some q ∧
      q.op = 2) ∧
    (∃ (s : State) (q : Guarded),
      s.sec.granted = some q ∧
      q.op = 3) ∧
    (∃ (s : State) (q : Guarded),
      s.sec.granted = some q ∧
      q.op = 4 ∧
      q.addr = R.SEC_KEEPER) ∧
    (∃ (s : State) (q : Guarded),
      s.sec.granted = some q ∧
      q.op = 5 ∧
      guardedOp q.addr = some 5) ∧
    (∃ (s : State) (q : Guarded),
      s.sec.granted = some q ∧
      q.op = 6) :=
  ⟨⟨up, Source.host, (31:Nat), (0xFFFFF:Word), R.SEC_EMIT_MASK, (2:Nat), by unfold State.Reaches; decide +kernel, by unfold State.Reaches; decide +kernel, by unfold State.Reaches; decide +kernel, by unfold State.Reaches; decide +kernel, by unfold State.Reaches; decide +kernel, by unfold State.Reaches; decide +kernel, by decide +kernel⟩,
   ⟨gr 7 R.SEC_DEBUG 0x80000000, (⟨7, R.SEC_DEBUG, 0x80000000, 100⟩ : Guarded), by decide +kernel⟩,
   ⟨pend up, Source.host, (0:Nat), R.SEC_EMIT_MASK, (2:Nat), rq, true, by unfold State.Reaches; decide +kernel, by unfold State.Reaches; decide +kernel, by unfold State.Reaches; decide +kernel, by decide +kernel⟩,
   ⟨gr 1 (R.REIN_CEILING 31) 0x12345, (⟨1, R.REIN_CEILING 31, 0x12345, 100⟩ : Guarded), (5:Nat), (31:Nat), takes_iff.2 (by decide +kernel), by decide +kernel⟩,
   ⟨up, Source.host, (5:Word), true, by unfold State.Reaches; decide +kernel, by decide +kernel⟩,
   ⟨may up, Source.device, by unfold State.Reaches; decide +kernel, by decide +kernel⟩,
   ⟨may (pend up), Source.device, by unfold State.Reaches; decide +kernel, by decide +kernel⟩,
   ⟨pend up, Source.host, (5:Word), by unfold State.Reaches; decide +kernel, by decide +kernel⟩,
   ⟨evq (sf (pend up) F.SEC_KEEPER_SECONDS 0) R.SEC_EVQ, rq, by decide +kernel⟩,
   ⟨gr 2 R.SEC_EMIT_MASK 0xFFFFFFFF, (⟨2, R.SEC_EMIT_MASK, 0xFFFFFFFF, 100⟩ : Guarded), by decide +kernel⟩,
   ⟨gr 3 R.SEC_IMG_CMD 0, (⟨3, R.SEC_IMG_CMD, 0, 100⟩ : Guarded), by decide +kernel⟩,
   ⟨gr 4 R.SEC_KEEPER 600, (⟨4, R.SEC_KEEPER, 600, 100⟩ : Guarded), by decide +kernel⟩,
   ⟨gr 5 (R.CAL_PLATE_ID 1) 0xA0000700, (⟨5, (R.CAL_PLATE_ID 1), 0xA0000700, 100⟩ : Guarded), by decide +kernel⟩,
   ⟨gr 6 R.HARN_CMD 1, (⟨6, R.HARN_CMD, 1, 100⟩ : Guarded), by decide +kernel⟩⟩

/-- The hypotheses of Keys can be met. -/
theorem wit_Keys :
    (∃ (s : State) (src : Source) (v : Word),
      s.Reaches src R.SEC_KEY_CMD ∧
      s.fld F.SEC_KEY_CMD_START = 0 ∧
      (¬(1 = 0 ∨ 1 = 7 ∨ 1 = 1 ∧ s.fld F.SEC_DEBUG_OPEN = 1 ∨ 1 = 3 ∧ (match Instr.keyLoad src v with | Instr.reseal src val closed => if closed = true then 0 else 1 | x => s.fld F.SEC_STATE_LOOP_OPEN) = 1)) ∧
      1 ≠ 6 ∧
      ¬s.guardPending = false ∧
      (¬(2 = 0 ∨ 2 = 7 ∨ 2 = 1 ∧ s.fld F.SEC_DEBUG_OPEN = 1 ∨ 2 = 3 ∧ (match Instr.erase src v with | Instr.reseal src val closed => if closed = true then 0 else 1 | x => s.fld F.SEC_STATE_LOOP_OPEN) = 1)) ∧
      2 ≠ 6 ∧
      (¬(3 = 0 ∨ 3 = 7 ∨ 3 = 1 ∧ s.fld F.SEC_DEBUG_OPEN = 1 ∨ 3 = 3 ∧ (match Instr.reseal src v true with | Instr.reseal src val closed => if closed = true then 0 else 1 | x => s.fld F.SEC_STATE_LOOP_OPEN) = 1)) ∧
      3 ≠ 6 ∧
      (3 = 0 ∨ 3 = 7 ∨ 3 = 1 ∧ s.fld F.SEC_DEBUG_OPEN = 1 ∨ 3 = 3 ∧ (match Instr.reseal src v false with | Instr.reseal src val closed => if closed = true then 0 else 1 | x => s.fld F.SEC_STATE_LOOP_OPEN) = 1) ∧
      (¬(4 = 0 ∨ 4 = 7 ∨ 4 = 1 ∧ s.fld F.SEC_DEBUG_OPEN = 1 ∨ 4 = 3 ∧ (match Instr.revoke src v with | Instr.reseal src val closed => if closed = true then 0 else 1 | x => s.fld F.SEC_STATE_LOOP_OPEN) = 1)) ∧
      4 ≠ 6 ∧
      (¬(5 = 0 ∨ 5 = 7 ∨ 5 = 1 ∧ s.fld F.SEC_DEBUG_OPEN = 1 ∨ 5 = 3 ∧ (match Instr.minVer src v with | Instr.reseal src val closed => if closed = true then 0 else 1 | x => s.fld F.SEC_STATE_LOOP_OPEN) = 1)) ∧
      5 ≠ 6 ∧
      6 = 6 ∧
      s.hmacWords (getBits v 10 8) (s.reg R.SEC_KEY_ARG) = none ∧
      (¬(getBits v 30 28 = 0 ∨ getBits v 30 28 = 7 ∨ getBits v 30 28 = 1 ∧ s.fld F.SEC_DEBUG_OPEN = 1 ∨ getBits v 30 28 = 3 ∧ (match Instr.guardedRequest src (w32 R.SEC_KEY_CMD) v with | Instr.reseal src val closed => if closed = true then 0 else 1 | x => s.fld F.SEC_STATE_LOOP_OPEN) = 1)) ∧
      getBits v 30 28 ≠ 6 ∧
      s.fld F.SEC_DEBUG_OPEN = 0 ∧
      s.fld F.SEC_STATE_LOOP_OPEN = 0 ∧
      4 ≤ getBits v 10 8 ∧
      BitVec.toNat (s.reg R.SEC_KEY_ARG) < 2 ^ 16) ∧
    (∃ (s : State) (src : Source) (v : Word),
      s.Reaches src R.SEC_KEY_CMD ∧
      s.fld F.SEC_KEY_CMD_START = 0 ∧
      (¬(1 = 0 ∨ 1 = 7 ∨ 1 = 1 ∧ s.fld F.SEC_DEBUG_OPEN = 1 ∨ 1 = 3 ∧ (match Instr.keyLoad src v with | Instr.reseal src val closed => if closed = true then 0 else 1 | x => s.fld F.SEC_STATE_LOOP_OPEN) = 1)) ∧
      1 ≠ 6 ∧
      s.guardPending = false ∧
      (¬(2 = 0 ∨ 2 = 7 ∨ 2 = 1 ∧ s.fld F.SEC_DEBUG_OPEN = 1 ∨ 2 = 3 ∧ (match Instr.erase src v with | Instr.reseal src val closed => if closed = true then 0 else 1 | x => s.fld F.SEC_STATE_LOOP_OPEN) = 1)) ∧
      2 ≠ 6 ∧
      (¬(3 = 0 ∨ 3 = 7 ∨ 3 = 1 ∧ s.fld F.SEC_DEBUG_OPEN = 1 ∨ 3 = 3 ∧ (match Instr.reseal src v true with | Instr.reseal src val closed => if closed = true then 0 else 1 | x => s.fld F.SEC_STATE_LOOP_OPEN) = 1)) ∧
      3 ≠ 6 ∧
      (¬(4 = 0 ∨ 4 = 7 ∨ 4 = 1 ∧ s.fld F.SEC_DEBUG_OPEN = 1 ∨ 4 = 3 ∧ (match Instr.revoke src v with | Instr.reseal src val closed => if closed = true then 0 else 1 | x => s.fld F.SEC_STATE_LOOP_OPEN) = 1)) ∧
      4 ≠ 6 ∧
      (¬(5 = 0 ∨ 5 = 7 ∨ 5 = 1 ∧ s.fld F.SEC_DEBUG_OPEN = 1 ∨ 5 = 3 ∧ (match Instr.minVer src v with | Instr.reseal src val closed => if closed = true then 0 else 1 | x => s.fld F.SEC_STATE_LOOP_OPEN) = 1)) ∧
      5 ≠ 6 ∧
      (¬(getBits v 30 28 = 0 ∨ getBits v 30 28 = 7 ∨ getBits v 30 28 = 1 ∧ s.fld F.SEC_DEBUG_OPEN = 1 ∨ getBits v 30 28 = 3 ∧ (match Instr.guardedRequest src (w32 R.SEC_KEY_CMD) v with | Instr.reseal src val closed => if closed = true then 0 else 1 | x => s.fld F.SEC_STATE_LOOP_OPEN) = 1)) ∧
      getBits v 30 28 ≠ 6 ∧
      getBits v 10 8 < 4) ∧
    (∃ (s : State) (src : Source),
      s.Reaches src R.SEC_KEY_CMD ∧
      ¬s.fld F.SEC_KEY_CMD_START = 0) ∧
    (∃ (s : State) (src : Source) (v : Word) (ws : List Word),
      s.Reaches src R.SEC_KEY_CMD ∧
      s.fld F.SEC_KEY_CMD_START = 0 ∧
      6 = 6 ∧
      s.hmacWords (getBits v 10 8) (s.reg R.SEC_KEY_ARG) = some ws ∧
      getBits v 30 28 = 6 ∧
      2 ^ 16 ≤ BitVec.toNat (s.reg R.SEC_KEY_ARG)) ∧
    (∃ (s : State) (src : Source) (v : Word),
      s.Reaches src R.SEC_KEY_CMD ∧
      s.fld F.SEC_KEY_CMD_START = 0 ∧
      (1 = 0 ∨ 1 = 7 ∨ 1 = 1 ∧ s.fld F.SEC_DEBUG_OPEN = 1 ∨ 1 = 3 ∧ (match Instr.keyLoad src v with | Instr.reseal src val closed => if closed = true then 0 else 1 | x => s.fld F.SEC_STATE_LOOP_OPEN) = 1) ∧
      (getBits v 30 28 = 0 ∨ getBits v 30 28 = 7 ∨ getBits v 30 28 = 1 ∧ s.fld F.SEC_DEBUG_OPEN = 1 ∨ getBits v 30 28 = 3 ∧ (match Instr.guardedRequest src (w32 R.SEC_KEY_CMD) v with | Instr.reseal src val closed => if closed = true then 0 else 1 | x => s.fld F.SEC_STATE_LOOP_OPEN) = 1) ∧
      s.fld F.SEC_DEBUG_OPEN = 1) ∧
    (∃ (s : State),
      s.fld F.SEC_STATE_LOOP_OPEN = 1) ∧
    (∃ (s : State) (src : Source) (v : Word),
      s.Reaches src R.SEC_KEY_CMD ∧
      s.fld F.SEC_KEY_CMD_START = 0 ∧
      getBits v 30 28 = 6 ∧
      s.hmacWords (getBits v 10 8) (s.reg R.SEC_KEY_ARG) = none) :=
  ⟨⟨pend up, Source.host, (0x40000700:Word), by unfold State.Reaches; decide +kernel, by decide +kernel⟩,
   ⟨up, Source.host, (0x10000300:Word), by unfold State.Reaches; decide +kernel, by decide +kernel⟩,
   ⟨sf up F.SEC_KEY_CMD_START 1, Source.host, by unfold State.Reaches; decide +kernel, by decide +kernel⟩,
   ⟨hb, Source.host, (0x60000700:Word), (hb.hmacWords 7 0x01002007).getD [], by unfold State.Reaches; decide +kernel, by decide +kernel⟩,
   ⟨sf up F.SEC_DEBUG_OPEN 1, Source.host, (0x700:Word), by unfold State.Reaches; decide +kernel, by decide +kernel⟩,
   ⟨sf up F.SEC_STATE_LOOP_OPEN 1, by decide +kernel⟩,
   ⟨up, Source.host, (0x60000700:Word), by unfold State.Reaches; decide +kernel, by decide +kernel⟩⟩

end GuardsMet

namespace StoresAndInterlocksMet

def job (o c : Nat) : State := sf (se (fun x => {x with imgJob := some (o, c), imgBuf := [(0, 5), (3,4)]}) up) F.SEC_IMG_CMD_START 1

def st (i n : Nat) (w : Word) : State := evq (se (fun x => {x with storing := some (i, w), wear := [(i, n)], user := [(700, 5)]}) {up with board := [(5, 3)]}) R.SEC_EVQ

/-- The hypotheses of StoresAndInterlocks can be met. -/
theorem wit_StoresAndInterlocks :
    (∃ (s : State) (src : Source) (op : Nat) (chunk : Nat),
      s.Reaches src R.SEC_IMG_CMD ∧
      s.Reaches src R.SEC_PSTORE_CMD ∧
      s.fld F.SEC_IMG_CMD_START = 1 ∧
      s.fld F.SYS_ACC_INFO_VALID = 0 ∧
      s.sec.imgJob = some (op, chunk) ∧
      op = 1 ∧
      s.sec.storing = none ∧
      pstoreTakes (BitVec.toNat (s.reg R.SEC_PSTORE_ADDR)) = true ∧
      s.fld F.SEC_STATE_ILK_A = s.fld F.SEC_STATE_ILK_B) ∧
    (∃ (s : State) (i : Nat) (w : Word) (src : Source) (v : Word),
      s.Reaches src R.SEC_IMG_CMD ∧
      s.Reaches src R.SEC_PSTORE_CMD ∧
      s.fld F.SEC_IMG_CMD_START = 0 ∧
      1 = 1 ∧
      getBits v 15 0 < 256 ∧
      2 = 2 ∧
      (getBits v 30 29 = 0 ∨ getBits v 30 29 = 3) ∧
      s.sec.imgJob = none ∧
      s.sec.storing ≠ none ∧
      s.fld F.SYS_ACC_INFO_VALID = 0 ∧
      s.sec.storing = some (i, w) ∧
      640 ≤ i ∧
      sget 0 s.sec.wear i ≠ 900000000) ∧
    (∃ (s : State),
      s.Reaches Source.device R.STCH_HOLD_LIMIT ∧
      s.fld F.SEC_DEBUG_OPEN = 1) ∧
    (∃ (s : State) (i : Nat),
      (2 ≤ i ∨ s.fld (ilkFld i) = 1) ∧
      i < 2 ∧
      s.fld F.SEC_STATE_ILK_A ≠ s.fld F.SEC_STATE_ILK_B) ∧
    (∃ (s : State) (src : Source) (v : Word),
      s.Reaches src R.SEC_IMG_CMD ∧
      s.fld F.SEC_IMG_CMD_START = 0 ∧
      1 = 1 ∧
      256 ≤ getBits v 15 0 ∧
      getBits v 30 29 = 1) ∧
    (∃ (s : State) (i : Nat) (w : Word),
      s.sec.storing = some (i, w) ∧
      i < 640 ∧
      sget 0 s.sec.wear i = 900000000) ∧
    (∃ (s : State) (src : Source) (v : Word),
      s.Reaches src R.SEC_IMG_CMD ∧
      s.fld F.SEC_IMG_CMD_START = 0 ∧
      getBits v 30 29 = 1 ∧
      getBits v 15 0 < 256) ∧
    (∃ (s : State) (src : Source) (v : Word),
      s.Reaches src R.SEC_IMG_CMD ∧
      s.fld F.SEC_IMG_CMD_START = 0 ∧
      getBits v 30 29 = 2) ∧
    (∃ (s : State) (op : Nat) (chunk : Nat) (hdr : ImageHdr),
      s.sec.imgJob = some (op, chunk) ∧
      op ≠ 1 ∧
      (hdr.magic = 3115326062 ∧ hdr.length ≤ 2 ^ 24 - 512 ∧ hdr.key < 4 ∧ natBit (s.fld F.SEC_BOOT_REVOKED) hdr.key = false ∧ s.fld F.SEC_BOOT_MIN_VER ≤ hdr.version ∧ hdr.signed = true) ∧
      s.guardPending = false) ∧
    (∃ (s : State) (op : Nat) (chunk : Nat) (hdr : ImageHdr),
      s.sec.imgJob = some (op, chunk) ∧
      op ≠ 1 ∧
      (hdr.magic = 3115326062 ∧ hdr.length ≤ 2 ^ 24 - 512 ∧ hdr.key < 4 ∧ natBit (s.fld F.SEC_BOOT_REVOKED) hdr.key = false ∧ s.fld F.SEC_BOOT_MIN_VER ≤ hdr.version ∧ hdr.signed = true) ∧
      ¬s.guardPending = false) ∧
    (∃ (s : State) (op : Nat) (chunk : Nat) (hdr : ImageHdr),
      s.sec.imgJob = some (op, chunk) ∧
      op ≠ 1 ∧
      (¬(hdr.magic = 3115326062 ∧ hdr.length ≤ 2 ^ 24 - 512 ∧ hdr.key < 4 ∧ natBit (s.fld F.SEC_BOOT_REVOKED) hdr.key = false ∧ s.fld F.SEC_BOOT_MIN_VER ≤ hdr.version ∧ hdr.signed = true))) ∧
    (∃ (s : State) (src : Source),
      s.Reaches src R.SEC_PSTORE_CMD ∧
      pstoreTakes (BitVec.toNat (s.reg R.SEC_PSTORE_ADDR)) = Config.userArea 4095 ∧
      s.sec.storing = none) ∧
    (∃ (s : State) (i : Nat),
      i < 2 ∧
      s.fld (ilkFld i) = 0) ∧
    (∃ (i : Nat),
      2 ≤ i) ∧
    (∃ (s : State) (ir : DebugIr),
      s.fld F.SEC_DEBUG_OPEN = 0 ∧
      ir ≠ DebugIr.idcode ∧
      ir ≠ DebugIr.bypass ∧
      ir ≠ DebugIr.sample) :=
  ⟨⟨job 1 255, Source.host, (1:Nat), (255:Nat), by unfold State.Reaches; decide +kernel, by unfold State.Reaches; decide +kernel, by decide +kernel⟩,
   ⟨st 700 900000001 0, (700:Nat), (0:Word), Source.host, (0 : Word), by unfold State.Reaches; decide +kernel, by unfold State.Reaches; decide +kernel, by decide +kernel⟩,
   ⟨sf up F.SEC_DEBUG_OPEN 1, by constructor <;> (try unfold Ctx.Clean) <;> decide +kernel, by decide +kernel⟩,
   ⟨evq (sf up F.SEC_STATE_ILK_A 1) R.SEC_EVQ, (0:Nat), by decide +kernel⟩,
   ⟨up, Source.host, (0x200001FF : Word), by unfold State.Reaches; decide +kernel, by decide +kernel⟩,
   ⟨st 639 900000000 0xFFFFFFFF, (639:Nat), (0xFFFFFFFF:Word), by decide +kernel⟩,
   ⟨up, Source.host, (0x200000FF : Word), by unfold State.Reaches; decide +kernel, by decide +kernel⟩,
   ⟨up, Source.host, (0x400000FF : Word), by unfold State.Reaches; decide +kernel, by decide +kernel⟩,
   ⟨job 2 0, (2:Nat), (0:Nat), hdr 0 true, by decide +kernel⟩,
   ⟨pend (job 2 0), (2:Nat), (0:Nat), hdr 0 true, by decide +kernel⟩,
   ⟨pend (job 2 0), (2:Nat), (0:Nat), hdr 0 false, by decide +kernel⟩,
   ⟨up.setReg R.SEC_PSTORE_ADDR 4095, Source.host, by unfold State.Reaches; decide +kernel, by
      rw [show BitVec.toNat ((up.setReg R.SEC_PSTORE_ADDR 4095).reg R.SEC_PSTORE_ADDR) = 4095 from by decide +kernel]
      simp [pstoreTakes], by decide +kernel⟩,
   ⟨evq (sf up F.SEC_STATE_VALID 255) R.SEC_EVQ, (0:Nat), by decide +kernel⟩,
   ⟨(2:Nat), by decide +kernel⟩,
   ⟨up, DebugIr.extest, by decide +kernel⟩⟩

end StoresAndInterlocksMet

namespace HarnessJoinMet

def hsq (n : Nat) : State := evq (hs n) R.HARN_EVQ

def lanes4 (s : State) : State := [36,37,38,39].foldl (fun t k => sf t (F.LANE_STATUS_STATE k) laneReady) s

def peer (s : State) : State := ha (fun h => {h with peer := true}) s

def okk (s : State) : State := sf (sf (sf s F.SEC_STATE_SEAL_OPENED 0) F.SEC_DEBUG_OPEN 0) F.SEC_STATE_VALID 1

/-- The hypotheses of HarnessJoin can be met. -/
theorem wit_HarnessJoin :
    (∃ (s : State) (src : Source) (v : Word),
      s.Reaches src R.HARN_CFG ∧
      ¬s.fld F.HARN_CFG_ENABLE = 1 ∧
      BitVec.msb v = true ∧
      s.shortMissLimit = false ∧
      (¬(s.harnOn = true ∧ s.harnState = harnSolo ∧ s.harnLanes = 15 ∧ s.harn.peer = false)) ∧
      ¬s.harnOn = true ∧
      (¬(s.harnOn = true ∧ (s.harnState = harnCopy ∨ s.harnState = harnReplica))) ∧
      (¬(s.harnOn = true ∧ s.harnState = harnCopy)) ∧
      (¬(s.harnOn = true ∧ s.harnState = harnReplica ∧ 64 ≤ s.harn.good))) ∧
    (∃ (s : State) (off : Nat) (c : Nat) (o : Nat),
      s.harnOn = true ∧
      s.harnState = harnCopy ∧
      s.dmcOfBar4 off = some (c, o) ∧
      s.isWheel = true) ∧
    (∃ (s : State),
      (s.harnOn = true ∧ s.harnState = harnSolo ∧ s.harnLanes = 15 ∧ s.harn.peer = false) ∧
      s.harnOn = true ∧
      s.isWheel = false) ∧
    (∃ (s : State),
      s.harnOn = true ∧
      s.harnState = harnCopy) ∧
    (∃ (s : State),
      s.harnOn = true ∧
      s.harnState = harnReplica ∧
      64 ≤ s.harn.good) ∧
    (∃ (s : State) (src : Source) (v : Word),
      s.Reaches src R.HARN_CFG ∧
      ¬s.fld F.HARN_CFG_ENABLE = 1 ∧
      BitVec.msb v = true ∧
      s.shortMissLimit = true) ∧
    (∃ (s : State) (src : Source) (v : Word),
      s.Reaches src R.HARN_CFG ∧
      s.fld F.HARN_CFG_ENABLE = 1 ∧
      BitVec.msb v = false) ∧
    (∃ (s : State) (src : Source) (v : Word),
      s.Reaches src R.HARN_CFG ∧
      (s.fld F.HARN_CFG_ENABLE = 1 ↔ BitVec.msb v = true)) ∧
    (∃ (s : State),
      s.harnOn = true ∧
      (¬(s.harnState = harnSolo ∨ s.harnState = harnJoining))) ∧
    (∃ (s : State),
      s.harnOn = true ∧
      (s.harnState = harnSolo ∨ s.harnState = harnJoining) ∧
      s.harn.peer = false) ∧
    (∃ (s : State),
      s.harnOn = true ∧
      (s.harnState = harnSolo ∨ s.harnState = harnJoining) ∧
      s.harn.peer = true ∧
      (s.fld F.SEC_STATE_SEAL_OPENED = 1 ∨ s.fld F.SEC_DEBUG_OPEN = 1 ∨ natBit (s.fld F.SEC_STATE_VALID) 0 = false)) ∧
    (∃ (s : State) (check : Nat),
      s.harnOn = true ∧
      (s.harnState = harnSolo ∨ s.harnState = harnJoining) ∧
      s.harn.peer = true ∧
      (¬(s.fld F.SEC_STATE_SEAL_OPENED = 1 ∨ s.fld F.SEC_DEBUG_OPEN = 1 ∨ natBit (s.fld F.SEC_STATE_VALID) 0 = false)) ∧
      check ≠ 0) ∧
    (∃ (s : State) (check : Nat),
      s.harnOn = true ∧
      (s.harnState = harnSolo ∨ s.harnState = harnJoining) ∧
      s.harn.peer = true ∧
      (¬(s.fld F.SEC_STATE_SEAL_OPENED = 1 ∨ s.fld F.SEC_DEBUG_OPEN = 1 ∨ natBit (s.fld F.SEC_STATE_VALID) 0 = false)) ∧
      check = 0) ∧
    (∃ (s : State) (off : Nat),
      s.harnOn = true ∧
      s.harnState = harnCopy ∧
      s.dmcOfBar4 off = none) ∧
    (∃ (s : State),
      s.harnOn = true ∧
      s.harnState = harnCopy) ∧
    (∃ (s : State) (h : Word),
      s.harnOn = true ∧
      s.harnState = harnCopy ∧
      handleKey h = none) ∧
    (∃ (s : State) (h : Word) (key : Nat),
      s.harnOn = true ∧
      s.harnState = harnCopy ∧
      handleKey h = some key ∧
      ((s.stream key).live = true ∧ (s.stream key).gen = getBits h 31 24) ∧
      isQueue key = true) ∧
    (∃ (s : State) (h : Word) (key : Nat),
      s.harnOn = true ∧
      s.harnState = harnCopy ∧
      handleKey h = some key ∧
      ((s.stream key).live = true ∧ (s.stream key).gen = getBits h 31 24) ∧
      isQueue key = false ∧
      s.isGrid key = false) ∧
    (∃ (s : State) (h : Word) (key : Nat),
      s.harnOn = true ∧
      s.harnState = harnCopy ∧
      handleKey h = some key ∧
      (¬((s.stream key).live = true ∧ (s.stream key).gen = getBits h 31 24)) ∧
      isQueue key = true) :=
  ⟨⟨up, Source.host, (0x80000000:Word), by unfold State.Reaches; decide +kernel, by decide +kernel⟩,
   ⟨dm (hs harnCopy), (64:Nat), (0:Nat), (64:Nat), by decide +kernel⟩,
   ⟨lanes4 (hsq harnSolo), by decide +kernel⟩,
   ⟨hs harnCopy, by decide +kernel⟩,
   ⟨ha (fun h => {h with good := 64}) (hsq harnReplica), by decide +kernel⟩,
   ⟨sf (sf up (F.LANE_CFG_ENABLE 0) 1) (F.LANE_CFG_MISS_LIMIT 0) 1, Source.host, (0xC0000000:Word), by unfold State.Reaches; decide +kernel, by decide +kernel⟩,
   ⟨sf (lanes4 (hsq harnTracking)) (F.LANE_CFG_ENABLE 37) 1, Source.device, (0:Word), by unfold State.Reaches; decide +kernel, by decide +kernel⟩,
   ⟨up, Source.host, (0x40000000:Word), by unfold State.Reaches; decide +kernel, by decide +kernel⟩,
   ⟨hsq harnLead, by decide +kernel⟩,
   ⟨hsq harnSolo, by decide +kernel⟩,
   ⟨peer (hsq harnSolo), by decide +kernel⟩,
   ⟨okk (peer (hsq harnSolo)), (11:Nat), by decide +kernel⟩,
   ⟨okk (peer (hsq harnJoining)), (0:Nat), by decide +kernel⟩,
   ⟨hs harnCopy, (64:Nat), by decide +kernel⟩,
   ⟨hs harnCopy, by decide +kernel⟩,
   ⟨withStreams (hs harnCopy) q8, (0:Word), by decide +kernel⟩,
   ⟨withStreams (hs harnCopy) q8, (0x01000005:Word), (5:Nat), by decide +kernel⟩,
   ⟨withStreams (hs harnCopy) q8, (0x01002007:Word), (4103:Nat), by decide +kernel⟩,
   ⟨withStreams (hs harnCopy) q8, (0x07000009:Word), (9:Nat), by decide +kernel⟩⟩

end HarnessJoinMet

namespace DigestsMet

def lanes4 (s : State) : State := [36,37,38,39].foldl (fun t k => sf t (F.LANE_STATUS_STATE k) laneReady) s

def hsq (n : Nat) : State := evq (hs n) R.HARN_EVQ

def good : List Word := [100, 0x11, 0x22, 2]

def arr (n : Nat) : State := ha (fun h => {h with mine := [(100, 0x0000002200000011)], arrived := [(1, [100, 1, 1, 0]), (3, good), (3, [100, 0, 0, 0])], missed := 1, lost := 1}) (hsq n)

/-- The hypotheses of Digests can be met. -/
theorem wit_Digests :
    (∃ (s : State) (c : Nat) (beat : Bool),
      s.harnOn = true ∧
      c < 4 ∧
      (s.harnOn = true ∧ s.harnState ≠ harnSolo ∧ s.harnState ≠ harnJoining ∧ s.harn.decided = false) ∧
      (takeCopy c s.harn.arrived).fst = none ∧
      beat = false ∧
      s.harn.missed = 2 ∧
      s.harnState ≠ harnTracking ∧
      s.harnState ≠ harnLead ∧
      (s.harnState = harnCopy ∨ s.harnState = harnReplica) ∧
      (¬(s.harnState = harnLead ∧ ∃ q, s.harn.resigning = some q ∧ q < s.now)) ∧
      (¬(s.harnState = harnTracking ∧ s.harn.peerResigns = true)) ∧
      s.harn.decided = false) ∧
    (∃ (s : State) (c : Nat) (beat : Bool),
      (s.harnOn = true ∧ c < 4 ∧ s.laneState (36 + c) = laneReady) ∧
      (s.harnOn = true ∧ s.harnState ≠ harnSolo ∧ s.harnState ≠ harnJoining ∧ s.harn.decided = false) ∧
      (takeCopy c s.harn.arrived).fst = none ∧
      beat = true ∧
      s.harn.lost ≠ 2) ∧
    (∃ (s : State) (c : Nat) (beat : Bool),
      (¬s.harnOn = true ∨ 4 ≤ c) ∧
      (¬(s.harnOn = true ∧ c < 4 ∧ s.laneState (36 + c) = laneReady)) ∧
      (s.harnOn = true ∧ s.harnState ≠ harnSolo ∧ s.harnState ≠ harnJoining ∧ s.harn.decided = false) ∧
      (takeCopy c s.harn.arrived).fst = none ∧
      beat = false ∧
      (s.harn.missed ≠ 2 ∨ s.harnState = harnTracking)) ∧
    (∃ (s : State) (c : Nat) (beat : Bool) (ws : List Word),
      (s.harnOn = true ∧ s.harnState ≠ harnSolo ∧ s.harnState ≠ harnJoining ∧ s.harn.decided = false) ∧
      (takeCopy c s.harn.arrived).fst = some ws ∧
      s.harn.mine.contains (ws.getD 0 0, ws.getD 2 0 ++ ws.getD 1 0) = true ∧
      beat = false ∧
      s.harn.beatLost = false) ∧
    (∃ (s : State) (c : Nat) (ws : List Word),
      (s.harnOn = true ∧ s.harnState ≠ harnSolo ∧ s.harnState ≠ harnJoining ∧ s.harn.decided = false) ∧
      (takeCopy c s.harn.arrived).fst = some ws ∧
      ¬s.harn.mine.contains (ws.getD 0 0, ws.getD 2 0 ++ ws.getD 1 0) = true ∧
      (¬(s.harnState = harnCopy ∨ s.harnState = harnReplica))) ∧
    (∃ (s : State) (c : Nat) (beat : Bool),
      (s.harnOn = true ∧ s.harnState ≠ harnSolo ∧ s.harnState ≠ harnJoining ∧ s.harn.decided = false) ∧
      (takeCopy c s.harn.arrived).fst = none ∧
      beat = true ∧
      s.harn.lost = 2 ∧
      (¬(s.harnState = harnCopy ∨ s.harnState = harnReplica))) ∧
    (∃ (s : State),
      (s.harnState = harnLead ∧ ∃ q, s.harn.resigning = some q ∧ q < s.now)) ∧
    (∃ (s : State),
      (¬(s.harnOn = true ∧ s.harnState ≠ harnSolo ∧ s.harnState ≠ harnJoining ∧ s.harn.decided = false))) ∧
    (∃ (s : State) (c : Nat) (beat : Bool) (ws : List Word),
      (s.harnOn = true ∧ s.harnState ≠ harnSolo ∧ s.harnState ≠ harnJoining ∧ s.harn.decided = false) ∧
      (takeCopy c s.harn.arrived).fst = some ws ∧
      s.harn.mine.contains (ws.getD 0 0, ws.getD 2 0 ++ ws.getD 1 0) = true ∧
      (beat = true ∨ s.harn.beatLost = true)) ∧
    (∃ (s : State) (c : Nat) (ws : List Word),
      (s.harnOn = true ∧ s.harnState ≠ harnSolo ∧ s.harnState ≠ harnJoining ∧ s.harn.decided = false) ∧
      (takeCopy c s.harn.arrived).fst = some ws ∧
      ¬s.harn.mine.contains (ws.getD 0 0, ws.getD 2 0 ++ ws.getD 1 0) = true ∧
      (s.harnState = harnCopy ∨ s.harnState = harnReplica)) ∧
    (∃ (s : State) (c : Nat) (beat : Bool),
      (s.harnOn = true ∧ s.harnState ≠ harnSolo ∧ s.harnState ≠ harnJoining ∧ s.harn.decided = false) ∧
      (takeCopy c s.harn.arrived).fst = none ∧
      beat = true ∧
      s.harn.lost = 2 ∧
      (s.harnState = harnCopy ∨ s.harnState = harnReplica)) ∧
    (∃ (s : State) (c : Nat) (beat : Bool),
      (s.harnOn = true ∧ s.harnState ≠ harnSolo ∧ s.harnState ≠ harnJoining ∧ s.harn.decided = false) ∧
      (takeCopy c s.harn.arrived).fst = none ∧
      beat = false ∧
      s.harn.missed = 2 ∧
      s.harnState = harnLead) ∧
    (∃ (s : State) (c : Nat) (beat : Bool),
      (s.harnOn = true ∧ s.harnState ≠ harnSolo ∧ s.harnState ≠ harnJoining ∧ s.harn.decided = false) ∧
      (takeCopy c s.harn.arrived).fst = none ∧
      beat = false ∧
      s.harn.missed = 2 ∧
      s.harnState ≠ harnTracking ∧
      s.harnState ≠ harnLead ∧
      (¬(s.harnState = harnCopy ∨ s.harnState = harnReplica))) ∧
    (∃ (s : State),
      (s.harnState = harnTracking ∧ s.harn.peerResigns = true)) ∧
    (∃ (s : State),
      s.harn.decided = true) :=
  ⟨⟨ha (fun h => {h with missed := 2, lost := 2}) (hsq harnCopy), (0:Nat), false, by decide +kernel⟩,
   ⟨lanes4 (hsq harnTracking), (3:Nat), true, by decide +kernel⟩,
   ⟨hsq harnLead, (4:Nat), false, by decide +kernel⟩,
   ⟨arr harnReplica, (3:Nat), false, good, by decide +kernel⟩,
   ⟨arr harnTracking, (1:Nat), ([100,1,1,0]:List Word), by decide +kernel⟩,
   ⟨ha (fun h => {h with missed := 2, lost := 2}) (hsq harnTracking), (0:Nat), true, by decide +kernel⟩,
   ⟨ha (fun h => {h with resigning := some 99}) (hsq harnLead), by decide +kernel⟩,
   ⟨(lanes4 (sf (hsq harnSolo) F.HARN_CFG_AUTO_JOIN 1)), by decide +kernel⟩,
   ⟨arr harnTracking, (3:Nat), true, good, by decide +kernel⟩,
   ⟨arr harnCopy, (1:Nat), ([100,1,1,0]:List Word), by decide +kernel⟩,
   ⟨ha (fun h => {h with missed := 2, lost := 2}) (hsq harnReplica), (0:Nat), true, by decide +kernel⟩,
   ⟨ha (fun h => {h with missed := 2, lost := 2}) (hsq harnLead), (0:Nat), false, by decide +kernel⟩,
   ⟨ha (fun h => {h with missed := 2, lost := 2}) (hsq harnUntracked), (0:Nat), false, by decide +kernel⟩,
   ⟨ha (fun h => {h with peerResigns := true}) (hsq harnTracking), by decide +kernel⟩,
   ⟨(ha (fun h => {h with decided := true}) (hsq harnTracking)).setReg R.HARN_TAKEOVER_CNT 0xFFFFFFFF, by decide +kernel⟩⟩

end DigestsMet

end Sys2Proof.Tests
end

section
/-! SUPPORT. Inputs of a wrong Stitch (R42, R43). The obligation O11 fails: it is asked of every number `k`, and at `k` = 546,
which no well-formed command names (Instr.wf), LANE_STATUS is the address of PCIE_MSIX_PBA[2]: a masked vector that the event of
LANE_DOWN raises sets a bit of the state just entered. For every lane from 0 to 39 what the obligation asks holds (`lateInput_counted`,
`earlyInput_counted`). -/

namespace Sys2Proof.Machine

/-! ## Counters and the event word -/

/-- A field of all 32 bits is its register. -/
theorem getBits_31_0 (w : Word) : getBits w 31 0 = w.toNat := by
  apply Nat.eq_of_testBit_eq
  intro i
  rw [getBits_testBit, BitVec.testBit_toNat, Nat.zero_add]
  by_cases hi : i < 32
  · simp [hi]
  · simp [hi, BitVec.getLsbD_of_ge w i (by omega)]

/-- One more in a counter, up to its top. -/
theorem State.fld_bump_same (s : State) {f : Fld} (h : f.hi < 32) : (s.bump f).fld f = min f.top (s.fld f + 1) := by
  have hpos : 0 < 2 ^ (f.hi + 1 - f.lo) := Nat.two_pow_pos _
  unfold State.bump satInc Fld.top
  rw [s.fld_setFld_same _ h]
  rw [Nat.mod_eq_of_lt (by split <;> omega)]
  split <;> omega

/-- One more in a counter that is a whole register. -/
theorem State.reg_bump_word (s : State) (a : Nat) :
    ((s.bump ⟨a, 31, 0⟩).reg a).toNat = min 0xFFFFFFFF ((s.reg a).toNat + 1) := by
  have h := s.fld_bump_same (f := ⟨a, 31, 0⟩) (Nat.lt_succ_self 31)
  simp only [State.fld, getBits_31_0] at h
  exact h

/-- Counting an input and raising its bit of the event word: what both discards do to the registers. -/
theorem State.bump_raise (s : State) {c e b : Nat} (hce : c ≠ e) (hb : b < 32) :
    (((s.bump ⟨c, 31, 0⟩).setFld ⟨e, b, b⟩ 1).reg c).toNat = min 0xFFFFFFFF ((s.reg c).toNat + 1) ∧
    ((s.bump ⟨c, 31, 0⟩).setFld ⟨e, b, b⟩ 1).fld ⟨e, b, b⟩ = 1 ∧
    RegsBut [c, e] s ((s.bump ⟨c, 31, 0⟩).setFld ⟨e, b, b⟩ 1) := by
  refine ⟨?_, ?_, fun a ha _ => ?_⟩
  · rw [State.reg_setFld_other _ _ hce, s.reg_bump_word]
  · exact (State.fld_setFld_same _ _ hb).trans (by simp)
  · simp only [List.mem_cons, List.not_mem_nil, or_false, not_or] at ha
    rw [State.reg_setFld_other _ _ ha.2, State.reg_bump _ _ ha.1]

/-- R42: a late input is counted and raised, and nothing else changes. -/
theorem lateInput_counted (s : State) : Answers .lateInput s fun t =>
    (t.reg R.STCH_LATE_CNT).toNat = min 0xFFFFFFFF ((s.reg R.STCH_LATE_CNT).toNat + 1) ∧
    t.fld F.STCH_EVENT_LATE_INPUT = 1 ∧ RegsBut [R.STCH_LATE_CNT, R.STCH_EVENT] s t ∧ SameBut [.regs] s t := by
  obtain ⟨count, raised, rest⟩ := s.bump_raise (c := R.STCH_LATE_CNT) (e := R.STCH_EVENT) (b := 2) (by decide) (by decide)
  exact ⟨s.lateInput, rfl, count, raised, rest, (State.lateInput_keeps (by decide) s).sameBut⟩

/-- The registers of an early input are those of its count and its event; the rest is the lane's record. -/
theorem State.earlyInput_reg (s : State) (k a : Nat) :
    (s.earlyInput k).reg a = ((s.bump F.STCH_EARLY_CNT_COUNT).setFld F.STCH_EVENT_EARLY_INPUT 1).reg a := rfl

/-- The lane of an early input meets the condition of R321 that names it. -/
theorem State.earlyInput_laneLost (s : State) (k : Nat) : (s.earlyInput k).laneLost k 4 = true := by
  simp [State.earlyInput, State.laneLost]

/-! ## The lane goes to RECOVERY -/

/-- No lane's LANE_STATUS is a register that an event changes. -/
theorem not_eventReg_laneStatus {k : Nat} (hk : k < 40) : ¬ EventReg (R.LANE_STATUS k) := by
  unfold EventReg R.LANE_STATUS
  omega

/-- A fault that falls due at an Awl leaves every field. -/
theorem State.fld_awlDue (s : State) (k code : Nat) (f : Fld) : (s.awlDue k code).fld f = s.fld f := by
  unfold State.awlDue
  dsimp only
  split
  · rfl
  · rfl

/-- An event of a lane leaves its state, as long as no event changes LANE_STATUS. -/
theorem State.laneState_laneEvent (s : State) {k : Nat} (h : ¬ EventReg (R.LANE_STATUS k)) (j code cause : Nat) (w1 : Word) :
    (s.laneEvent j code cause w1).laneState k = s.laneState k :=
  State.fld_pushEvent _ _ _ _ h

/-- A lane's replaced record leaves its state. -/
theorem State.laneState_setLane (s : State) (k j : Nat) (l : Lane) : (s.setLane j l).laneState k = s.laneState k := rfl

/-- A counted attempt leaves the lane's state. -/
theorem State.laneState_recoverAttempt (s : State) (k : Nat) : (s.recoverAttempt k).laneState k = s.laneState k :=
  State.fld_setFld_other _ _ (by simp [F.LANE_RECOVER_COUNT])
    (.inl (by simp [F.LANE_STATUS_STATE, F.LANE_RECOVER_COUNT, R.LANE_STATUS, R.LANE_RECOVER]))

/-- The shortest period shown leaves every lane's state. -/
theorem State.laneState_showPeriodMin (s : State) (k : Nat) : s.showPeriodMin.laneState k = s.laneState k :=
  State.fld_setFld_other _ _ (by decide)
    (.inl (by simp only [F.LANE_STATUS_STATE, R.LANE_STATUS, F.STCH_STATUS_PERIOD_MIN, R.STCH_STATUS]; omega))

/-- MEAS_BUSY and CAUSE lie beside STATE. -/
theorem State.laneState_setFld_below (s : State) (k v : Nat) {hi lo : Nat} (h : hi < 28) :
    (s.setFld ⟨R.LANE_STATUS k, hi, lo⟩ v).laneState k = s.laneState k :=
  State.fld_setFld_other _ _ (by dsimp only; omega) (.inr (.inr h))

/-- A lane that enters RECOVERY is in it, as long as no event changes LANE_STATUS (R317, R321). -/
theorem State.laneState_laneEnter_recovery (s : State) {k : Nat} (h : ¬ EventReg (R.LANE_STATUS k)) (cause why : Nat) :
    (s.laneEnter k laneRecovery cause why).laneState k = laneRecovery := by
  have entered (v : Nat) : ((s.setFld (F.LANE_STATUS_STATE k) laneRecovery).setFld (F.LANE_STATUS_CAUSE k) v).laneState k
      = laneRecovery := by
    refine (State.laneState_setFld_below _ k v (by decide)).trans ?_
    exact State.fld_setFld_same _ _ (by simp [F.LANE_STATUS_STATE])
  have told (t : State) (code : Nat) : ((t.laneEvent k 0x61 code 0).setFld (F.LANE_STATUS_MEAS_BUSY k) 0).laneState k
      = t.laneState k :=
    (State.laneState_setFld_below _ k 0 (by decide)).trans (t.laneState_laneEvent h ..)
  have nf : laneRecovery ≠ laneFailed := by decide
  have nr : laneRecovery ≠ laneReady := by decide
  have na : laneRecovery ≠ laneAlign := by decide
  unfold State.laneEnter
  simp only [if_neg nf, if_neg nr, if_neg na, if_true]
  rw [State.laneState_recoverAttempt, State.laneState_setLane, State.laneState_setLane]
  split
  · split
    · exact (State.fld_awlDue ..).trans ((told _ _).trans (entered _))
    · exact (told _ _).trans (entered _)
  · exact entered _

/-- R43: a READY lane of the device that an early input came on goes to RECOVERY. -/
theorem laneDown_after_earlyInput (s : State) {k : Nat} (hk : k < 40) (hr : (s.earlyInput k).laneState k = laneReady) :
    Answers (.laneDown k 4) (s.earlyInput k) fun u => u.laneState k = laneRecovery := by
  refine ⟨_, congrArg Host.Outcome.next (if_pos ⟨hr, s.earlyInput_laneLost k⟩), ?_⟩
  exact (State.laneState_showPeriodMin ..).trans <| State.laneState_laneEnter_recovery _ (not_eventReg_laneStatus hk) _ _

/-- R43 for a lane of the device: an early input is counted and raised, its lane alone notes it, and goes to RECOVERY if it
was READY. -/
theorem earlyInput_counted (s : State) {k : Nat} (hk : k < 40) : Answers (.earlyInput k) s fun t =>
    (t.reg R.STCH_EARLY_CNT).toNat = min 0xFFFFFFFF ((s.reg R.STCH_EARLY_CNT).toNat + 1) ∧
    t.fld F.STCH_EVENT_EARLY_INPUT = 1 ∧ t.laneLost k 4 = true ∧
    (t.laneState k = laneReady → Answers (.laneDown k 4) t fun u => u.laneState k = laneRecovery) ∧
    (∀ j, j ≠ k → t.lane j = s.lane j) ∧
    RegsBut [R.STCH_EARLY_CNT, R.STCH_EVENT] s t ∧ SameBut [.regs, .lanes] s t := by
  obtain ⟨count, raised, rest⟩ := s.bump_raise (c := R.STCH_EARLY_CNT) (e := R.STCH_EVENT) (b := 3) (by decide) (by decide)
  refine ⟨s.earlyInput k, rfl, ?_, ?_, s.earlyInput_laneLost k, laneDown_after_earlyInput s hk,
    fun j hj => (State.lane_setLane ..).trans (if_neg hj), fun a ha he => (s.earlyInput_reg k a).trans (rest a ha he),
    (State.earlyInput_keeps (by decide) (by decide) s k).sameBut⟩
  · rw [State.earlyInput_reg]
    exact count
  · rw [State.fld, State.earlyInput_reg]
    exact raised

/-! ## A number that is no lane -/

/-- A live queue of eight words, empty. -/
def emptyQueue : Stream := { Stream.never with gen := 1, live := true, size := 8, pages := [0] }

/-- LANE_STATUS of the number 546, which is PCIE_MSIX_PBA[2], shows READY; the number's event queue is queue 5, whose threshold at
level 1 raises vector 95, masked as at reset. -/
def notALane : State :=
  (((State.reset.setStream 5 emptyQueue).setReg (R.LANE_EVQ 546) (mkHandle 5 1)).setReg (R.SB_Q_CFG 5) 0x85F00001).setFld
    (F.LANE_STATUS_STATE 546) laneReady

/-- The number shows READY after the early input. -/
theorem notALane_ready : (notALane.earlyInput 546).laneState 546 = laneReady := by decide +kernel

/-- What LANE_DOWN answers for the number. -/
def notALaneDown : State := ((notALane.earlyInput 546).laneEnter 546 laneRecovery 0 4).showPeriodMin

/-- LANE_DOWN's event sets bit 31, the pending bit of vector 95, over the RECOVERY just entered: 6 becomes 14. -/
theorem notALane_state : notALaneDown.laneState 546 = 14 := by decide +kernel

/-- LANE_DOWN is carried out there. -/
theorem exec_laneDown_notALane : exec (.laneDown 546 4) (notALane.earlyInput 546) = .next notALaneDown :=
  congrArg Host.Outcome.next (if_pos ⟨notALane_ready, notALane.earlyInput_laneLost 546⟩)

/-- Refutes O11: it asks of every number what only the lanes 0 to 39 do. At 546, where LANE_STATUS lies on the pending bits of
the MSI-X vectors 64 to 95, the event of LANE_DOWN sets the pending bit of vector 95 and with it bit 3 of the state, which ends as
14 in place of RECOVERY. -/
theorem not_lateAndEarlyInputs : ¬ Obligations.LateAndEarlyInputs := by
  unfold Obligations.LateAndEarlyInputs
  rintro ⟨-, early⟩
  obtain ⟨t, ht, -, -, -, down, -⟩ := early notALane 546
  obtain rfl : notALane.earlyInput 546 = t := Host.Outcome.next.inj ht
  obtain ⟨u, hu, recovery⟩ := down notALane_ready
  obtain rfl : notALaneDown = u := Host.Outcome.next.inj (exec_laneDown_notALane.symm.trans hu)
  exact absurd (notALane_state.symm.trans recovery) (by decide)

end Sys2Proof.Machine
end

section
/-! SUPPORT. The ALU group of Adtuak (R51, R55 to R57, R74, R75). Every instruction of the group runs through `State.alu`, of which
`answers_alu` says once what it answers; what is left of the obligation O12 is that the result each instruction computes is the one
the rule states. The saturating results all come down to `sat32_eq`. -/

namespace Sys2Proof.Machine

/-! ## What an ALU instruction answers -/

/-- Every operation takes at least one cycle (R75). -/
theorem Adt.cost_pos (o : Adt) : 0 < o.cost := by cases o <;> decide

/-- An ALU instruction that issues takes its cycles and writes its result and STAT bits, with the poison of ra and rb. -/
theorem answers_alu {s : State} {core c : Nat} {o : Adt} {w : Word} {sl : Slot} (h : s.Issues core c o w sl) {i : Instr}
    {f : Word → Word → Res} (hi : exec i s = .next (s.alu core o f)) {v st : Word}
    (hf : f ((s.ctx core c).a w) ((s.ctx core c).b w) = (v, st)) :
    Answers i s fun t => Ran s t core c o.cost ∧ WroteG (s.ctx core c) (t.ctx core c) (rdField w) v
      ((s.ctx core c).gPoisoned (raField w) || (s.ctx core c).gPoisoned (rbField w)) st := by
  unfold Answers
  rw [hi]
  exact onCtx_wroteG h o.cost_pos rfl (by simp only [hf])

/-! ## The wrapping and selecting results (R51) -/

/-- A shift amount is rb modulo 32. -/
theorem shiftAmount_eq (b : Word) : shiftAmount b = b.toNat % 32 := getBits_toNat b 4

/-- Zeros that lead a word within its low `n` bits, by its logarithm. -/
theorem leadingZeros_eq (w : Word) (hw : w ≠ 0) (n : Nat) (h : w.toNat < 2 ^ n) : leadingZeros w n = n - 1 - w.toNat.log2 := by
  have hw0 : w.toNat ≠ 0 := fun h0 => hw (BitVec.eq_of_toNat_eq h0)
  induction n with
  | zero => omega
  | succ n ih =>
    unfold leadingZeros
    cases hbit : w.getLsbD n with
    | true =>
      have hlog : n ≤ w.toNat.log2 := (Nat.le_log2 hw0).2 (Nat.ge_two_pow_of_testBit hbit)
      simp only [if_true]
      omega
    | false =>
      have hlt : w.toNat < 2 ^ n := Nat.lt_pow_two_of_testBit _ fun i hi => by
        rcases Nat.eq_or_lt_of_le hi with rfl | hi
        · exact hbit
        · exact Nat.testBit_lt_two_pow (Nat.lt_of_lt_of_le h (Nat.pow_le_pow_right (by decide) hi))
      have hlog : w.toNat.log2 < n := (Nat.log2_lt hw0).2 hlt
      simp only [Bool.false_eq_true, if_false, ih hlt]
      omega

/-- CLZ: 32 of zero, else the places above the highest one. -/
theorem w32_leadingZeros (a : Word) : w32 (leadingZeros a 32) = if a = 0 then 32 else w32 (31 - a.toNat.log2) := by
  split
  · next h => subst h; decide
  · next h => rw [leadingZeros_eq a h 32 a.isLt]

/-- MIN, by the signed order of rb below ra. -/
theorem min_eq_slt (a b : Word) : (if a.toInt ≤ b.toInt then a else b) = if b.slt a then b else a := by
  simp only [BitVec.slt_iff_toInt_lt, ← Int.not_le, ite_not]

/-- MAX, by the signed order of ra below rb. -/
theorem max_eq_slt (a b : Word) : (if a.toInt ≤ b.toInt then b else a) = if a.slt b then b else a := by
  rcases Int.lt_trichotomy a.toInt b.toInt with h | h | h
  · rw [if_pos (Int.le_of_lt h), if_pos (BitVec.slt_iff_toInt_lt.2 h)]
  · rw [BitVec.eq_of_toInt_eq h, ite_self, ite_self]
  · rw [if_neg (Int.not_le.2 h), if_neg (mt BitVec.slt_iff_toInt_lt.1 (Int.lt_asymm h))]

/-- MINU, by rb below ra. -/
theorem minu_eq_lt (a b : Word) : (if a ≤ b then a else b) = if b < a then b else a := by
  simp only [← BitVec.not_le, ite_not]

/-- MAXU, by ra below rb. -/
theorem maxu_eq_lt (a b : Word) : (if a ≤ b then b else a) = if a < b then b else a := by
  rcases BitVec.lt_trichotomy a b with h | h | h
  · rw [if_pos (BitVec.le_of_lt h), if_pos h]
  · rw [h, ite_self, ite_self]
  · rw [if_neg (BitVec.not_le.2 h), if_neg (BitVec.lt_asymm h)]

/-! ## The saturating results (R51, R55, R57) -/

/-- An exact value held to 32 bits: clipped at either end, with SAT, and itself in between. -/
theorem sat32_eq (z : Int) : sat32 z =
    if 2 ^ 31 ≤ z then (0x7FFFFFFF, statSat) else if z < -2 ^ 31 then (0x80000000, statSat) else (BitVec.ofInt 32 z, 0) := by
  unfold sat32 clampInt
  split
  · next below => rw [if_neg (by omega), if_neg (by omega), if_pos (by omega)]; rfl
  · split
    · next above => rw [if_neg (by omega), if_pos (by omega)]; rfl
    · next within => rw [if_pos (by omega), if_neg (by omega), if_neg (by omega)]

/-- A value in range is itself. -/
theorem sat32_of_range {z : Int} (hlo : -2 ^ 31 ≤ z) (hhi : z < 2 ^ 31) : sat32 z = plain (BitVec.ofInt 32 z) := by
  rw [sat32_eq, if_neg (by omega), if_neg (by omega), plain]

/-- ABS is the magnitude, held to 32 bits. -/
theorem absOf_eq (a : Word) : absOf a = sat32 a.toInt.natAbs := by
  unfold absOf
  split
  · next least => subst least; decide
  · next other =>
    have hlo : -2 ^ 31 ≤ a.toInt := a.le_toInt
    have hhi : a.toInt < 2 ^ 31 := BitVec.toInt_lt
    have hne : a.toInt ≠ -2 ^ 31 := fun h => other (BitVec.eq_of_toInt_eq h)
    rw [sat32_of_range (by omega) (by omega), BitVec.msb_eq_toInt]
    by_cases neg : a.toInt < 0
    · rw [if_pos (decide_eq_true neg), Int.ofNat_natAbs_of_nonpos (Int.le_of_lt neg), BitVec.ofInt_neg, BitVec.ofInt_toInt]
    · rw [if_neg (by simpa using neg), Int.natAbs_of_nonneg (Int.not_lt.1 neg), BitVec.ofInt_toInt]

/-- Rounding a Q16.16 product: half is added to the magnitude (R55). -/
theorem roundShift_16 (p : Int) : roundShift p 16 = if 0 ≤ p then (p + 2 ^ 15) / 2 ^ 16 else -((-p + 2 ^ 15) / 2 ^ 16) := by
  unfold roundShift divRound
  dsimp only
  split <;> split <;> omega

/-- PSCL: the scaled code rounded, clipped to 0 of a negative factor and to 0xFFFF above (R56). -/
theorem psclOf_eq (a b : Word) : psclOf a b =
    let r : Int := (getBits a 15 0 * b.toInt + 2 ^ 15) / 2 ^ 16
    if b.toInt < 0 then (0, statSat) else if 2 ^ 16 ≤ r then (0xFFFF, statSat) else (BitVec.ofInt 32 r, 0) := by
  unfold psclOf
  cases neg : b.msb with
  | true => rw [if_pos rfl, if_pos (by simpa [BitVec.msb_eq_toInt] using neg)]
  | false =>
    have hb : ¬ b.toInt < 0 := by simpa [BitVec.msb_eq_toInt] using neg
    have hr : (getBits a 15 0 * b.toInt + 2 ^ 15) / 2 ^ 16 = (((getBits a 15 0 * b.toNat + 0x8000) / 65536 : Nat) : Int) := by
      rw [BitVec.toInt_eq_toNat_of_msb neg]
      norm_cast
    dsimp only
    rw [if_neg Bool.false_ne_true, if_neg hb, hr, BitVec.ofInt_natCast]
    exact ite_congr (propext (by omega)) (fun _ => rfl) (fun _ => rfl)

/-- A quotient of words other than -2^31 / -1 lies in range (R57). -/
theorem tdiv_range (a b : Word) (h : ¬ (a = 0x80000000 ∧ b = 0xFFFFFFFF)) :
    -2 ^ 31 ≤ a.toInt.tdiv b.toInt ∧ a.toInt.tdiv b.toInt < 2 ^ 31 := by
  rw [← BitVec.toInt_sdiv_of_ne_or_ne a b (Decidable.not_and_iff_or_not.1 h)]
  exact ⟨(a.sdiv b).le_toInt, BitVec.toInt_lt⟩

/-- DIV: of a divisor of zero the largest value of the dividend's sign, else the quotient held to 32 bits (R57). -/
theorem divOf_eq (a b : Word) : divOf a b =
    if b = 0 then (if a.toInt < 0 then 0x80000000 else 0x7FFFFFFF, statDz) else sat32 (a.toInt.tdiv b.toInt) := by
  unfold divOf
  simp only [BitVec.msb_eq_toInt, decide_eq_true_eq]
  congr 1
  split
  · next corner => obtain ⟨rfl, rfl⟩ := corner; decide
  · next inside =>
    obtain ⟨hlo, hhi⟩ := tdiv_range a b inside
    exact (sat32_of_range hlo hhi).symm

/-! ## The obligation -/

/-- Settles O12: every instruction of the group answers as `answers_alu` says, with the result and the STAT bits of its rule. -/
theorem aluInstructions : Obligations.AluInstructions := by
  unfold Obligations.AluInstructions
  refine ⟨fun s core c w sl => ?_, fun s core c w sl => ?_⟩
  · simp only [List.forall_mem_cons, List.not_mem_nil, false_imp_iff, implies_true, and_true]
    exact ⟨
      fun h => answers_alu (i := .add core) h rfl rfl,
      fun h => answers_alu (i := .sub core) h rfl rfl,
      fun h => answers_alu (i := .and core) h rfl rfl,
      fun h => answers_alu (i := .or core) h rfl rfl,
      fun h => answers_alu (i := .xor core) h rfl rfl,
      fun h => answers_alu (i := .shl core) h rfl (by rw [shiftAmount_eq]; rfl),
      fun h => answers_alu (i := .shr core) h rfl (by rw [shiftAmount_eq]; rfl),
      fun h => answers_alu (i := .sar core) h rfl (by rw [shiftAmount_eq]; rfl),
      fun h => answers_alu (i := .min core) h rfl (congrArg plain (min_eq_slt ..)),
      fun h => answers_alu (i := .max core) h rfl (congrArg plain (max_eq_slt ..)),
      fun h => answers_alu (i := .minu core) h rfl (congrArg plain (minu_eq_lt ..)),
      fun h => answers_alu (i := .maxu core) h rfl (congrArg plain (maxu_eq_lt ..)),
      fun h => answers_alu (i := .clz core) h rfl (congrArg plain (w32_leadingZeros _)),
      fun h => answers_alu (i := .mul core) h rfl rfl,
      fun h => answers_alu (i := .mulh core) h rfl rfl,
      fun h => answers_alu (i := .mulhu core) h rfl rfl⟩
  · simp only [← sat32_eq, ← roundShift_16, List.forall_mem_cons, List.not_mem_nil, false_imp_iff, implies_true, and_true]
    exact ⟨
      fun h => answers_alu (i := .adds core) h rfl rfl,
      fun h => answers_alu (i := .subs core) h rfl rfl,
      fun h => answers_alu (i := .abs core) h rfl (absOf_eq _),
      fun h => answers_alu (i := .mulq core) h rfl rfl,
      fun h => answers_alu (i := .pscl core) h rfl (psclOf_eq ..),
      fun h => answers_alu (i := .div core) h rfl (divOf_eq ..),
      fun h => answers_alu (i := .divu core) h rfl rfl⟩

end Sys2Proof.Machine
end

section
/-! SUPPORT. Guarded operations (R415 to R418). The obligation O56 fails in its last clause, which has a granted request add its
GRANTED packet and nothing else to the queue of SEC_EVQ. A granted GEO_COMMIT reads the slot's idle grid through the Saddlebag's
check (R277, R405); a word corrected for the second time makes its entry of the repeat table sticky and raises STICKY (R301),
which goes to DMC_EVQ of channel 0. That handle may name the very queue of SEC_EVQ, which then takes both packets:
`State.Takes` keeps only SB_EVQ apart from it. -/

namespace Sys2Proof.Machine

/-! ## A grid with a word corrected before -/

/-- The key of the queue that both event handles name. -/
def eventKey : Nat := 5

/-- The key of the buffer that holds the grid: buffer 7. -/
def gridKey : Nat := 4096 + 7

/-- A live buffer of one word, on page 1, whose stored word has a single-bit error. -/
def erringGrid : Stream :=
  { Stream.never with gen := 1, live := true, size := 4, pages := [1], data := [(0, ⟨0, false, .single⟩)] }

/-- A GEO_COMMIT of slot 0. -/
def geoCommitGranted : Guarded := ⟨5, R.CAL_CMD, 0x90000000, 0⟩

/-- An empty queue of eight words takes the events of the security block and of DRAM channel 0, and slot 0's idle grid is the
buffer with the error. -/
def sharedQueue : State :=
  ((((State.reset.setStream eventKey emptyQueue).setStream gridKey erringGrid).setReg R.SEC_EVQ (mkHandle eventKey 1)).setReg
    (R.DMC_EVQ 0) (mkHandle eventKey 1)).setReg (R.AWL_CORR_B 0) (mkHandle gridKey 1)

/-- The state in which a GEO_COMMIT is granted while the repeat table lists the grid's word, at byte 4096 of the Saddlebag, as
corrected before, with 100 s of its interval left. -/
def correctedBefore : State :=
  (((sharedQueue.setReg R.SB_SCRUB_INT 100).setReg (R.DMC_REPEAT 0 0) 4096).setReg (R.DMC_REPEAT_INFO 0 0) 0x80000064).onSec
    fun x => { x with granted := some geoCommitGranted }

/-! ## What the boundary pushes -/

/-- The queue is empty before the boundary. -/
theorem correctedBefore_words : (correctedBefore.stream eventKey).words = [] := by decide +kernel

/-- The queue takes a packet of the security block's three words. -/
theorem correctedBefore_takes : correctedBefore.Takes 256 (correctedBefore.reg R.SEC_EVQ) 3 eventKey := by
  constructor <;> decide +kernel

/-- The boundary leaves six words there: the packets of GRANTED and of STICKY for the grid's word. -/
theorem correctedBefore_grantBoundary_words : (correctedBefore.grantBoundary.stream eventKey).words =
    packetWords ([0xE0050000, 0, 0].map PWord.clean) ++ packetWords ([0x03000000, 4096, 0].map PWord.clean) := by
  decide +kernel

/-! ## The obligation -/

/-- Refutes O56: it has the boundary of every granted request but the debug port's add its GRANTED packet alone to the queue of
SEC_EVQ. Of a granted GEO_COMMIT whose grid has a word that was corrected before, a queue that DMC_EVQ of channel 0 names too takes
the STICKY packet besides: six words in place of three. -/
theorem not_guards : ¬ Obligations.Guards := by
  unfold Obligations.Guards
  intro h
  obtain ⟨-, -, -, -, -, -, -, -, -, granted⟩ := h correctedBefore
  obtain ⟨-, -, -, -, told, -⟩ := granted geoCommitGranted rfl
  have alone := told (by decide) eventKey correctedBefore_takes
  rw [correctedBefore_grantBoundary_words, correctedBefore_words] at alone
  exact absurd (congrArg List.length alone) (by decide)

end Sys2Proof.Machine
end
